-- ==== Sys2Proof/Word.lean ====
section
/-! DEFINITION. The word types of the device: bytes, 32-bit register words, 64-bit values (00 R6, R7). -/

namespace Sys2Proof

/-- One byte. -/
abbrev Byte := BitVec 8
/-- A BAR0 register, a control-core data register, a descriptor word. -/
abbrev Word := BitVec 32
/-- A 64-bit value: an address, a RESULT field. -/
abbrev Dword := BitVec 64

end Sys2Proof
end

