-- ==== Sys2Proof/Config.lean ====
section
/-! DEFINITION. What one part of the family fixes (00 R1, R3), and the free values of the model: constants with no
body, applied to plain data, for every value that the spec leaves open. -/

namespace Sys2Proof.Config

/-- The family (00_scope, "The family"). -/
inductive Part where
  | rsy7164 | rsy7132 | rsy7116
  deriving DecidableEq, Repr

/-- Tiles on a part (17 R480). -/
def tilesOf : Part → Nat
  | .rsy7164 => 64 | .rsy7132 => 32 | .rsy7116 => 16

/-- HBM stacks and controllers on a part (17 R480). -/
def stacksOf : Part → Nat
  | .rsy7164 => 4 | .rsy7132 => 2 | .rsy7116 => 1

/-- GLOBAL.CHIP_ID of silicon B0 (00 R13). -/
def chipIdOf : Part → Word
  | .rsy7164 => 0x71640B00 | .rsy7132 => 0x71320B00 | .rsy7116 => 0x71160B00

/-- Largest (and reset) GAFFER.PWR_LIMIT in W (14 R422). -/
def pwrMaxOf : Part → Nat
  | .rsy7164 => 320 | .rsy7132 => 170 | .rsy7116 => 95

/-- Smallest GAFFER.PWR_LIMIT in W (14 R422). -/
def pwrMinOf : Part → Nat
  | .rsy7164 => 100 | .rsy7132 => 60 | .rsy7116 => 40

/-- The part this model is of: the RSY-7164 (00 R1). -/
def part : Part := .rsy7164
/-- Tiles of this part. -/
def nTiles : Nat := tilesOf part
/-- HBM stacks, and HBM controllers, of this part. -/
def nStacks : Nat := stacksOf part
/-- GLOBAL.CHIP_ID of this part. -/
def chipId : Word := chipIdOf part
/-- Vector lanes of a tile (00 R3, 04 R137). -/
def lanes : Nat := 64

/-- Free value number `n`: nothing constrains it. `State.free` counts how many have been used. -/
opaque freeValue : Nat → Dword
/-- The rate, width and mode that the PCIe link trained to (03 R71, R105: the device trains down as its link partner asks). -/
opaque pcieLink : Nat
/-- Whether a value half way between `n` and `n + 1` is rounded up, where a rule says nearest and no more (02 R58, R60). -/
opaque halfUp : Nat → Bool
/-- SHA-384 (FIPS 180-4, not in the spec): a function of the bytes, of which nothing is known here (15 R449). -/
opaque sha384 : List Byte → BitVec 384
/-- Largest HBM share, in 0.1 %, claimed by a CLAIMS section whose layout the spec does not give (06 R185). -/
opaque claimsHbm : List Byte → Nat
/-- Largest pool share, in 0.1 %, claimed by a CLAIMS section (06 R185). -/
opaque claimsPool : List Byte → Nat
/-- RETAKE_BUDGET of chain `c` of a call-sheet image (09 R268: "fixed in the sheet", no layout given). -/
opaque retakeBudget : List Byte → Nat → Nat
/-- HARQ store capacity of a call-sheet image, in processes (09 R262). -/
opaque harqCapacity : List Byte → Nat
/-- Whether every PHY shadow load of an image is complete before its preemption point (06 R184 check 9). -/
opaque shadowLoadsInTime : List Byte → Bool
/-- Layers of a model image (13 R395). -/
opaque modelLayers : List Byte → Nat
/-- Device address and length of the checkpoint buffers A and B that a model image declares (14 R405; no layout given). -/
opaque ckptBuffer : List Byte → Bool → Nat × Nat
/-- Whether a model image declares checkpoint buffers (14 R405). -/
opaque declaresCheckpoints : List Byte → Bool
/-- Whether one canonical block is marked for two roles of an image (13 R372). -/
opaque digestMarkedTwice : List Byte → Bool
/-- A transport block that CRC.indication reports: handle, RNTI, HARQ process, whether it passed, and each code block. -/
structure TbReport where
  handle : Word
  rnti : BitVec 16
  harq : BitVec 4
  pass : Bool
  cbs : List Bool
  deriving DecidableEq, Repr
/-- A preamble that RACH.indication reports: configuration, preamble index, level, and the bin and power of its peak. -/
structure RaReport where
  handle : Word
  index : Byte
  level : Byte
  bin : Nat
  power : Nat
  deriving DecidableEq, Repr
/-- Bodies of the FAPI indications, which document 222.10.02 lays out, for a slot word: CRC.indication, the head of
RX_Data.indication for a number of PDUs and the header of a PDU for a length, UCI.indication and SRS.indication with a report, or
none (DTX), for each PDU, and RACH.indication (09 R264, R272, R274). -/
opaque fapiCrc : Nat → List TbReport → List Byte
opaque fapiRxHead : Nat → Nat → List Byte
opaque fapiRxPdu : TbReport → Nat → List Byte
opaque fapiUci : Nat → List (Word × Option (List Byte)) → List Byte
opaque fapiSrs : Nat → List (Word × Option (List Byte)) → List Byte
opaque fapiRach : Nat → List RaReport → List Byte
/-- Dimension `k` of a call sheet, for the items of 08 R252 in their order: "a call sheet may be compiled for less". -/
opaque sheetMax : List Byte → Nat → Nat
/-- Iteration limit of a call sheet's decoder; 09 R276 bounds it by 1 and 16. -/
opaque ldpcLimit : List Byte → Nat
/-- The rows of a base graph of TS 38.212 for a lifting size: the columns of a row, each with its shift (08 R251). -/
opaque ldpcGraph : Bool → Nat → List (List (Nat × Nat))
/-- What the decoder leaves open (09 R276): whether a scaled minimum `m * f / 512` with a fraction is rounded up, the factor that a
BF16 that is no number stands for, and the bit that a sum of 0 decides. -/
opaque minSumUp : Nat → Nat → Bool
opaque minSumNan : BitVec 16 → Nat
opaque llrZero : Bool
/-- Whether an LLR scaled by a factor of the pack's table is rounded up, for the LLR and the factor (09 R260). -/
opaque llrUp : Int → BitVec 16 → Bool
/-- An LLR scaled by a BF16 that is infinite or no number. -/
opaque llrOdd : Int → BitVec 16 → Int
/-- Whether a mean with a fraction is rounded up, and the mean of no LLR (09 R265 LLR_MAG). -/
opaque meanUp : Nat → Nat → Bool
opaque meanNone : Nat
/-- Noise floor of a PRACH window whose accumulated profile is given, less 1, and whether a metric with a fraction is rounded up and
what one of 256 or more reads as (09 R273, R274: no formula). -/
opaque prachFloor : List Nat → Nat
opaque prachUp : Nat → Nat → Bool
opaque prachOver : Nat → Nat → BitVec 16
/-- Bytes of HBM that the director reserves for receiver packs, beyond two packs of the largest length (09 R278). -/
opaque packExtra : Nat

/-- Bank of a byte of an HBM pseudo-channel, and row in it: the spec gives no geometry (07 R203). -/
opaque hbmBankRow : Nat → Nat × Nat
/-- Whether entry `k` of the RELOC section of a role of an image is the byte offset of a Dolly descriptor template, and no word
index: the spec gives the entries no layout that tells (06 R180). -/
opaque relocTemplate : List Byte → Nat → Nat → Bool

/-- PRB count of the carrier of a grid, as the active sheet fixes it (08 R242; no layout given). -/
opaque carrierPrbs : List Byte → Nat → Nat
/-- filterIndex that the device sends on a PRACH stream of a grid under a sheet (08 R237, R242; O-RAN WG4, not in the spec). -/
opaque prachFilter : List Byte → Nat → Nat → BitVec 4
/-- Whether a step of a sheet is a C-plane step (08 R238; no layout given). -/
opaque cplaneStep : List Byte → Nat → Bool
/-- An allocation for which a C-plane step asks one section: its first PRB and PRBs (0: the whole carrier), first symbol and
symbols, resource-element mask, beam, beamforming weights (I and Q), and the groups of one that is not contiguous. -/
structure CAlloc where
  startPrb : Nat
  numPrb : Nat
  symbols : Nat
  reMask : BitVec 12
  beamId : BitVec 15
  weights : List Int
  groups : Option (BitVec 28)
  deriving DecidableEq, Repr
/-- First symbol and the allocations of the C-plane message that a step of a sheet sends for an eAxC ID in a slot: what the sheet and
the slot's descriptors, laid out by documents outside the spec, ask for (08 R237, R238). -/
opaque cplaneAllocs : List Byte → Nat → Nat → BitVec 16 → Nat × List CAlloc
/-- timeOffset, frameStructure and cpLength that the PRACH format of a stream defines (08 R237; O-RAN WG4, not in the spec). -/
opaque prachTiming : List Byte → Nat → Nat → BitVec 16 × Byte × BitVec 16

/-- Whether a tracked coordinate that is no multiple of a pyramid level's scale is rounded up at that level (11 R336 names no
rounding). -/
opaque levelUp : Int → Nat → Bool
/-- The step that the tracker takes where the matrix G = (a, b, c) is singular, for the vector (x, y), in 1/256 pixel
(11 R336: solved exactly, no solution stated). -/
opaque singularStep : Int → Int → Int → Int → Int → Int × Int

/-- Values of this device that the spec does not give: its MCTP UUID and PLDM TID (15 R446, R447), the version of PLDM type 0 it
reports, its firmware-update descriptors, its identity chain (15 R448), its boot ROM's digest (15 R449) and its serial number
(15 R451). -/
opaque deviceUuid : BitVec 128
opaque pldmTid : Byte
opaque pldmBaseVersion : Dword
opaque deviceIds : List Byte
opaque certChain : List Byte
opaque romDigest : BitVec 384
opaque serialNumber : BitVec 256

end Sys2Proof.Config
end

