-- ==== Sys2Proof/Syntax.lean ====
section
/-! DEFINITION. The commands of the block: one constructor of `Instr` for each row of spec/opcode_table.json, with
what the row takes from outside as its operands (host values, bytes read by DMA, received frames and messages,
measured values, outcomes of external algorithms). -/

namespace Sys2Proof

abbrev TileIx := Fin 64
abbrev PairIx := Fin 256
/-- A PCIe function: 0 is the PF, n is VF n (03 R71). -/
abbrev FuncIx := Fin 64
/-- A hardware thread of a control core: 0 is C0, 1 is C1 (05 R141). -/
abbrev Thr := Fin 2
abbrev GridIx := Fin 4

/-- A consumed descriptor: its pair and submission index. -/
structure DRef where
  pair : PairIx
  idx  : BitVec 16
  deriving DecidableEq, Repr

/-- What a DMA read answered: the bytes, or UR, CA or poisoned data (03 R97, R484). -/
inductive Dma where
  | data (bytes : List Byte)
  | error
  deriving DecidableEq, Repr

/-- Formats of the random access preamble (08 R249). -/
inductive RaFormat where
  | f0 | f1 | f2 | f3 | a1 | a2 | a3 | b1 | b2 | b3 | b4 | c0 | c2
  /-- any other format of TS 38.211 -/
  | other
  deriving DecidableEq, Repr

/-- What the spec uses of a PUSCH PDU (08 R249, R251; 09 R260–R265). -/
structure PuschPdu where
  dfts : Bool
  layers : Nat
  /-- bits per modulation symbol: 1 is π/2-BPSK, 8 is 256QAM -/
  qm : Nat
  /-- the symbols that carry DMRS, and the additional positions -/
  dmrs : BitVec 14
  dmrsExtra : Nat
  /-- repetition type B, and the number of repetitions: 1 for none -/
  typeB : Bool
  reps : Nat
  /-- asks for UCI on PUSCH -/
  uci : Bool
  rnti : BitVec 16
  harq : BitVec 4
  /-- newDataIndicator toggled (09 R262) -/
  newData : Bool
  codeBlocks : Nat
  /-- base graph, lifting size and filler bits of its code blocks, and bytes of its transport block -/
  graph2 : Bool
  lift : Nat
  filler : Nat
  tbBytes : Nat
  /-- the PRBs allocated in each symbol of the allocation -/
  alloc : List (Nat × List Nat)
  deriving DecidableEq, Repr

/-- The channel or signal that a PDU asks for, with the features that 08 R249, R250 and R252 limit. -/
inductive PduChan where
  | pusch (p : PuschPdu)
  /-- format, and slots over which it is repeated: 1 for none -/
  | pucch (format slots : Nat)
  | srs (ports symbols comb usage : Nat)
  /-- format, subcarrier spacing in units of 1.25 kHz, and restricted set: 0 none, 1 A, 2 B -/
  | prach (format : RaFormat) (scs set : Nat)
  | pdsch (layers qm codeBlocks : Nat)
  /-- the CORESET and the aggregation level of each DCI -/
  | pdcch (coreset : Nat) (levels : List Nat)
  /-- case 0 is A, and Lmax -/
  | ssb (pattern lmax : Nat)
  | csiRs (ports : Nat)
  /-- a PDU of any other type -/
  | other
  deriving DecidableEq, Repr

/-- One PDU of a FAPI request body, reduced to what the spec judges and uses (09 R257): document 222.10.02 itself is
no part of the spec. -/
structure FapiPdu where
  /-- every field holds a value that 222.10.02 allows -/
  fieldsOk : Bool
  /-- beamforming weights are requested (08 R238) -/
  beam : Bool
  handle : Word
  mu : Nat
  extendedCp : Bool
  /-- first PRB and PRBs of the bandwidth part -/
  bwpStart : Nat
  bwpSize : Nat
  chan : PduChan
  deriving DecidableEq, Repr

/-- A FAPI request body as read (09 R257). -/
structure FapiBody where
  /-- LEN0 equals the length that the body's counts and sizes imply, and no TLV runs past it -/
  lengthOk : Bool
  sfn : BitVec 10
  slot : BitVec 5
  pdus : List FapiPdu
  deriving DecidableEq, Repr

/-- A FAPI body read by DMA. -/
inductive FapiRead where
  | body (b : FapiBody)
  | error
  deriving DecidableEq, Repr

/-- A soft bit as stage 5 demaps it, descrambled: its place in the code block's circular buffer, its bit position in the
modulation symbol, the symbol and PRB of its resource element, and the max-log LLR in units of 0.25 before any scaling
(09 R260). -/
structure SoftBit where
  pos : Nat
  bit : Nat
  symbol : Nat
  prb : Nat
  llr : Int
  deriving DecidableEq, Repr

/-- What stages 1–5 deliver for one code block: the PDU's index in the request, the block's index, its soft bits on the path that
the allocation takes, and those of the classical path, which a retake decodes (09 R260, R269). -/
structure CbPart where
  pdu : Nat
  cb : Nat
  first : List SoftBit
  classical : List SoftBit
  deriving DecidableEq, Repr

/-- What an allocation measured: the raw confidence score of the estimator, and the SINR (09 R260, R265). -/
structure MeasPart where
  pdu : Nat
  score : Byte
  sinr : BitVec 16
  deriving DecidableEq, Repr

/-- A cyclic-shift window of a PRACH configuration: the preamble index, and its power-delay profiles by repetition, stream and bin
(09 R273). -/
structure RaWindow where
  index : Byte
  profiles : List (List (List Nat))
  deriving DecidableEq, Repr

/-- The windows of a configuration of an occasion that has been searched to the end. -/
structure RaPart where
  pdu : Nat
  windows : List RaWindow
  deriving DecidableEq, Repr

/-- What the code of one step of a chain delivered (09 R260–R275). -/
structure ChainResult where
  /-- symbols whose landing buffers the step read: how many slots before the named slot, and the symbol -/
  reads : List (Nat × Nat)
  blocks : List CbPart
  meas : List MeasPart
  /-- decoded UCI and SRS reports, by index of the PDU -/
  uci : List (Nat × List Byte)
  srs : List (Nat × List Byte)
  prach : List RaPart
  /-- PDSCH PDUs whose code blocks have been encoded and staged: their block was bound when the fetching step ran -/
  staged : List Nat
  deriving DecidableEq, Repr, Inhabited

/-- A section of a received U-plane message (08 R239, R242). -/
structure USection where
  rb : Bool
  symInc : Bool
  startPrb : Nat
  numPrb : Nat
  /-- udCompHdr where the section carries one: method and width code -/
  compMeth : BitVec 4
  compWidth : BitVec 4
  /-- one udCompParam byte and the packed mantissas of each PRB -/
  prbs : List (Byte × List Byte)
  deriving DecidableEq, Repr

/-- The eCPRI message of a fronthaul frame (08 R233). -/
inductive Ecpri where
  /-- message type 0: IQ data -/
  | uplane (eaxc : BitVec 16) (seq : Byte) (ebit : Bool) (downlink : Bool) (payloadVersion : BitVec 3)
      (filterIndex : BitVec 4) (frame : Byte) (subframe : BitVec 4) (slot : BitVec 6) (symbol : BitVec 6)
      (sections : List USection)
  /-- message type 2: C-plane -/
  | cplane
  /-- message type 5: one-way delay measurement -/
  | delay (action : Byte) (measId : Byte)
  /-- any other message type -/
  | other (msg : Byte)
  deriving DecidableEq, Repr

/-- A PTP timestamp or offset: signed, in units of 2^-32 ns. -/
abbrev Offset := Int

/-- An Announce message's contents that the device uses (02 R59, R63). -/
structure Announce where
  clockClass : Byte
  utcOffset : BitVec 16
  /-- the alternate BMCA ranks this master at least as high as the one followed -/
  best : Bool
  deriving DecidableEq, Repr

/-- A PTP message by its messageType, with the offset measurement that it completes (02 R59, R62). -/
inductive PtpMsg where
  | sync (twoStep : Bool) (offset : Option Offset)
  | followUp (offset : Option Offset)
  | delayReq
  | delayResp (offset : Option Offset)
  | announce (a : Announce)
  | other (typ : BitVec 4)
  deriving DecidableEq, Repr

/-- A received fronthaul frame (08 R230–R233). -/
structure FhFrame where
  fcsOk : Bool
  length : Nat
  dst : BitVec 48
  vlan : Option (BitVec 12)
  etherType : BitVec 16
  revision : BitVec 4
  reservedZero : Bool
  concat : Bool
  payloadLenOk : Bool
  /-- the message of a PTP frame -/
  ptp : PtpMsg
  msg : Ecpri
  deriving DecidableEq, Repr

/-- The sixteen bytes of a Splice message header and its payload (13 R375). -/
structure SMsg where
  dst : BitVec 14
  src : BitVec 14
  kind : BitVec 4
  coded : Bool
  last : Bool
  group : Fin 16
  seq : BitVec 16
  tag : Word
  payload : List Byte
  deriving DecidableEq, Repr

/-- The fields that a recovery-console frame carries (15 R445), its CRC already received. -/
structure RecFrame where
  typ : Byte
  len : BitVec 16
  offset : Word
  payload : List Byte
  crc : Word
  deriving DecidableEq, Repr

/-- One point of a margining run: beyond the parameter's settable range, or which byte lanes passed its bursts (07 R226). -/
abbrev MarginPoint := Option (BitVec 4)

/-- Where a canonical block has been written (13 R371, R372). -/
structure BlockPlace where
  addr : Nat
  len : Nat
  deriving DecidableEq, Repr

/-- A unit that reports fault events (14 R398), with its index. -/
inductive FaultUnit where
  | tile (n : TileIx)
  | hbm (s : Fin 4)
  | pool (k : Fin 16)
  | link (l : Fin 12)
  | codec (e : Fin 16)
  | gaffer
  | time
  | host (p : PairIx)
  deriving DecidableEq, Repr

/-- The work that raised a fault event (14 R399: SEQ_TAG, RING and DESC_INDEX of its descriptor). -/
inductive FaultWork where
  | none
  | desc (r : DRef)
  deriving DecidableEq, Repr

/-- Bits of an ALU instruction (05 R148 F0): S, DST, SA, SB, CT. In it and in the forms below, `lost` is no bit of the
instruction: the cycles that its local-store accesses lost to bank conflicts (04 R132), as measured. -/
structure AluF where
  s : Bool
  dst : Fin 16
  sa : Fin 16
  sb : Fin 16
  ct : BitVec 11
  lost : Nat
  deriving DecidableEq, Repr

/-- Bits of an immediate instruction (05 R148 F1). -/
structure ImmF where
  s : Bool
  dst : Fin 16
  sa : Fin 16
  imm : BitVec 15
  deriving DecidableEq, Repr

/-- Bits of a memory instruction (05 R148 F2). -/
structure MemF where
  bus : Bool
  reg : Fin 16
  hx : Fin 8
  am : BitVec 2
  imm : BitVec 14
  lost : Nat
  deriving DecidableEq, Repr

/-- Which address register set (05 R148 F3 SEL). -/
inductive ASel where
  | h | s | w | e
  deriving DecidableEq, Repr

/-- Bits of a matrix instruction (05 R148 F5). CUT accesses no local store: its `lost` is for how many cycles the operations that it
lets go were held (05 R166). -/
structure MatF where
  s : Bool
  amask : BitVec 4
  hx : Fin 8
  dp : Fin 16
  opnd : BitVec 14
  lost : Nat
  deriving DecidableEq, Repr

/-- Bits of a vector instruction (05 R148 F6). -/
structure VecF where
  s : Bool
  vd : Fin 32
  va : Fin 32
  vb : Fin 32
  men : Bool
  msk : Fin 8
  typ : BitVec 3
  lost : Nat
  deriving DecidableEq, Repr

/-- Bits of a system instruction (05 R148 F7). -/
structure SysF where
  d : Fin 16
  hx : Fin 8
  opnd : BitVec 16
  deriving DecidableEq, Repr

/-- Bits of RUFEED, and whether what it feeds from the local store is raw exact partials, which no bit tells (04 R129; log 17). -/
structure FeedF extends VecF where
  partials : Bool
  deriving DecidableEq, Repr

/-- Bits of MFS, and the core cycles that have gone by since CYCLE was last read, as measured (05 R146; log 84). -/
structure MfsF extends SysF where
  cycles : Nat
  deriving DecidableEq, Repr

/-- What a shadow load ends for: the cycles that a CUT waited for it, and those for which the operations it lets go were held, as
measured (04 R117; 05 R166; log 84). -/
structure LoadWaits where
  waited : Nat
  held : Nat
  deriving DecidableEq, Repr

/-- A window of a tile's running step, and for how many cycles the operations that its event lets go were held, as measured
(05 R166; 06 R192; log 84). -/
structure WinHeld where
  ix : Nat
  held : Nat
  deriving DecidableEq, Repr

/-- An acknowledgement to Dolly: the thread whose transfer it is, and the cycles that it lost to bank conflicts, as measured
(04 R132; 06 R174; log 84). -/
structure XferAck where
  thr : Thr
  lost : Nat
  deriving DecidableEq, Repr

/-- A write-combining entry that ages: its channel, and whether the line that its flush reads could be read (07 R205). -/
structure AgedEntry where
  channel : Fin 16
  lineOk : Bool
  deriving DecidableEq, Repr

/-- Conditions of BR and CSEL (05 R151). -/
inductive Cond where
  | al | eq | ne | lt | ge | ltu | geu | le | gt | svs | svc
  deriving DecidableEq, Repr

/-- The two job engines (11 R325). -/
inductive Engine where
  | continuity | matte
  deriving DecidableEq, Repr

/-- The commands of the block, in the order of spec/opcode_table.json. -/
inductive Instr where
  -- host registers
  | regWrite (off : Nat) (size : Nat) (val : Dword)
  | rcRead (off : Nat) (size : Nat)
  | setupLock (val : Word)
  | timeNowFracRead (wide : Bool)
  | hbmRateWrite (c : Fin 4) (val : Word)
  | hbmTrainingDone (c : Fin 4)
  | marginStart (c : Fin 4) (val : Word)
  | marginDone (c : Fin 4) (points : List MarginPoint) (trained : Byte)
  -- doorbells, functions, interrupts
  | sqDoorbell (f : FuncIx) (page : Nat) (val : Word)
  | cqDoorbell (f : FuncIx) (page : Nat) (val : Word)
  | inertDoorbellWrite (f : FuncIx) (page : Nat) (off : Nat) (size : Nat)
  | modTimeExpiry (p : PairIx)
  | functionLevelReset (f : FuncIx)
  | vfDisable (f : FuncIx)
  | busMasterClear (f : FuncIx)
  | busMasterSet (f : FuncIx)
  | busMasterHoldExpiry (f : FuncIx)
  -- descriptors
  | descriptorFetch (p : PairIx) (d : BitVec 512)
  | descriptorPhaseRetry (p : PairIx) (d : BitVec 512)
  | descriptorReadError (p : PairIx)
  | badDescriptor (r : DRef)
  | nop (r : DRef)
  | phyUlTti (r : DRef) (body : FapiRead)
  | phyDlTti (r : DRef) (body : FapiRead)
  | phyUlDci (r : DRef) (body : FapiRead)
  | phyTxData (r : DRef) (tb : Dma)
  | flowScore (r : DRef) (vectors : Dma)
  | flowVerdictSet (r : DRef) (entries : Dma)
  | fileOpen (r : DRef)
  | fileChunk (r : DRef) (chunk : Dma)
  | fileClose (r : DRef)
  | fileAbort (r : DRef)
  | takeRun (r : DRef) (input : Dma)
  | takeResume (r : DRef) (answered : Bool) (input : List Byte)
  | slateArm (r : DRef)
  | loadModel (r : DRef) (image : Dma)
  | loadRxpack (r : DRef) (pack : Dma)
  | loadCallsheet (r : DRef) (image : Dma)
  | unload (r : DRef)
  | timeRearm (r : DRef)
  | acceptPair (r : DRef)
  | rushesCtrl (r : DRef)
  -- time
  | syncMessageReceive (twoStep : Bool) (offset : Option Offset)
  | followUpReceive (offset : Option Offset)
  | announceReceive (a : Announce)
  | delayReqReceive (port : Fin 8)
  | delayRespReceive (offset : Option Offset)
  | ptpSyncSend (port : Fin 8)
  | ptpAnnounceSend (port : Fin 8)
  | delayReqSend
  | sourceLost
  | holdoverExpired
  | sceneEnd
  | ppsInEdge
  | ppsOutPulse
  | cueFire (g : GridIx) (sfn : BitVec 10) (slot : BitVec 5) (chain : Fin 16) (step : Nat)
  | rtcRewrite
  | hoRefInterval (ref : Fin 2) (cycles : Nat)
  | xtalStop
  -- control core: ALU
  | add (n : TileIx) (t : Thr) (f : AluF)
  | sub (n : TileIx) (t : Thr) (f : AluF)
  | mul (n : TileIx) (t : Thr) (f : AluF)
  | mulh (n : TileIx) (t : Thr) (f : AluF)
  | mac (n : TileIx) (t : Thr) (f : AluF)
  | macz (n : TileIx) (t : Thr) (f : AluF)
  | accrd (n : TileIx) (t : Thr) (f : AluF)
  | and (n : TileIx) (t : Thr) (f : AluF)
  | or (n : TileIx) (t : Thr) (f : AluF)
  | xor (n : TileIx) (t : Thr) (f : AluF)
  | shl (n : TileIx) (t : Thr) (f : AluF)
  | shr (n : TileIx) (t : Thr) (f : AluF)
  | shra (n : TileIx) (t : Thr) (f : AluF)
  | min (n : TileIx) (t : Thr) (f : AluF)
  | max (n : TileIx) (t : Thr) (f : AluF)
  | abs (n : TileIx) (t : Thr) (f : AluF)
  | neg (n : TileIx) (t : Thr) (f : AluF)
  | cmp (n : TileIx) (t : Thr) (f : AluF)
  | csel (n : TileIx) (t : Thr) (c : Cond) (dst sa sb : Fin 16)
  | add2 (n : TileIx) (t : Thr) (f : AluF)
  | sub2 (n : TileIx) (t : Thr) (f : AluF)
  | min2 (n : TileIx) (t : Thr) (f : AluF)
  | abs2 (n : TileIx) (t : Thr) (f : AluF)
  | mintrk (n : TileIx) (t : Thr) (f : AluF)
  | addi (n : TileIx) (t : Thr) (f : ImmF)
  | andi (n : TileIx) (t : Thr) (f : ImmF)
  | ori (n : TileIx) (t : Thr) (f : ImmF)
  | shli (n : TileIx) (t : Thr) (f : ImmF)
  | shri (n : TileIx) (t : Thr) (f : ImmF)
  | shrai (n : TileIx) (t : Thr) (f : ImmF)
  | cmpi (n : TileIx) (t : Thr) (f : ImmF)
  | ldi (n : TileIx) (t : Thr) (dst : Fin 16) (imm : BitVec 16)
  | lui (n : TileIx) (t : Thr) (dst : Fin 16) (imm : BitVec 16)
  -- control core: memory and addresses
  | ld (n : TileIx) (t : Thr) (f : MemF)
  | ldh (n : TileIx) (t : Thr) (f : MemF)
  | ldb (n : TileIx) (t : Thr) (f : MemF)
  | st (n : TileIx) (t : Thr) (f : MemF)
  | sth (n : TileIx) (t : Thr) (f : MemF)
  | stb (n : TileIx) (t : Thr) (f : MemF)
  | seta (n : TileIx) (t : Thr) (sel : ASel) (k : Fin 8) (imm : BitVec 22)
  | mva (n : TileIx) (t : Thr) (sel : ASel) (k : Fin 8) (d : Fin 16)
  | mvd (n : TileIx) (t : Thr) (sel : ASel) (k : Fin 8) (d : Fin 16)
  | adda (n : TileIx) (t : Thr) (k : Fin 8) (imm : BitVec 22)
  -- control core: flow
  | br (n : TileIx) (t : Thr) (c : Cond) (hint : Bool) (off : BitVec 21) (slots : Fin 5) (staged : Nat)
  | call (n : TileIx) (t : Thr) (off : BitVec 21)
  | ret (n : TileIx) (t : Thr)
  | jr (n : TileIx) (t : Thr) (d : Fin 16)
  | loop (n : TileIx) (t : Thr) (d : Fin 16) (len : BitVec 9)
  | loopi (n : TileIx) (t : Thr) (count : BitVec 12) (len : BitVec 9)
  | lexit (n : TileIx) (t : Thr)
  -- matrix
  | mload (n : TileIx) (t : Thr) (f : MatF)
  | shadowLoadStart (n : TileIx) (a : Fin 4) (waited : Nat)
  | shadowLoadComplete (n : TileIx) (a : Fin 4) (waits : LoadWaits)
  | mpass (n : TileIx) (t : Thr) (f : MatF)
  | cut (n : TileIx) (t : Thr) (f : MatF)
  | mread (n : TileIx) (t : Thr) (f : MatF)
  | mclr (n : TileIx) (t : Thr) (f : MatF)
  -- vector
  | vld (n : TileIx) (t : Thr) (f : VecF)
  | vst (n : TileIx) (t : Thr) (f : VecF)
  | vgth (n : TileIx) (t : Thr) (f : VecF)
  | vsct (n : TileIx) (t : Thr) (f : VecF)
  | vadd (n : TileIx) (t : Thr) (f : VecF)
  | vmul (n : TileIx) (t : Thr) (f : VecF)
  | vfma (n : TileIx) (t : Thr) (f : VecF)
  | vcmp (n : TileIx) (t : Thr) (f : VecF)
  | vsel (n : TileIx) (t : Thr) (f : VecF)
  | vmin (n : TileIx) (t : Thr) (f : VecF)
  | vmax (n : TileIx) (t : Thr) (f : VecF)
  | vtree (n : TileIx) (t : Thr) (f : VecF)
  | rufeed (n : TileIx) (t : Thr) (f : FeedF)
  | ruread (n : TileIx) (t : Thr) (f : VecF)
  -- control core: system
  | ccNop (n : TileIx) (t : Thr)
  | halt (n : TileIx) (t : Thr)
  | threadHalted (n : TileIx) (t : Thr) (res : ChainResult)
  | sync (n : TileIx) (t : Thr) (units : Byte)
  | syncComplete (n : TileIx) (t : Thr)
  | mfs (n : TileIx) (t : Thr) (f : MfsF)
  | mts (n : TileIx) (t : Thr) (f : SysF)
  | rpush (n : TileIx) (t : Thr) (f : SysF)
  | rpushResume (n : TileIx) (t : Thr)
  | rpop (n : TileIx) (t : Thr) (f : SysF)
  | rpopResume (n : TileIx) (t : Thr)
  | dkick (n : TileIx) (t : Thr) (f : SysF)
  | cuewait (n : TileIx) (t : Thr) (f : SysF)
  | aadd (n : TileIx) (t : Thr) (f : SysF)
  | amm (n : TileIx) (t : Thr) (f : SysF)
  -- Dolly and local store
  | dollyDescriptorStart (n : TileIx) (t : Thr)
  | dollyReelPop (n : TileIx) (t : Thr)
  | dollyTransferAck (n : TileIx) (a : XferAck)
  | dollyDescriptorComplete (n : TileIx) (t : Thr)
  | lsScrub (n : TileIx)
  -- director
  | stepCheckExpiry (g : GridIx) (sfn : BitVec 10) (slot : BitVec 5) (chain : Fin 16) (step : Nat) (res : ChainResult)
  | windowRelease (n : TileIx) (w : WinHeld)
  | windowOpen (n : TileIx) (w : WinHeld)
  | suPlace (n : TileIx)
  | parkLimitExpiry (n : TileIx) (cycles : Nat)
  | itemDispatch (p : Fin 8) (n : TileIx)
  | itemComplete (n : TileIx) (t : Thr) (words : List Word)
  | takeJobStart (p : Fin 8)
  | layerEnd (p : Fin 8) (marks : List Nat) (places : List BlockPlace) (output : List Byte)
  | sheetSwitch
  | sheetRelease (sheet : BitVec 16)
  | takeover (n : TileIx) (role : Nat)
  -- radio
  | slotStart (g : GridIx)
  | dlUplaneSend (g : GridIx) (sfn : BitVec 10) (slot : BitVec 5) (symbol : Fin 14)
  | dlWindowClose (g : GridIx) (sfn : BitVec 10) (slot : BitVec 5) (symbol : Fin 14)
  | rushesCopy (g : GridIx) (sfn : BitVec 10) (slot : BitVec 5) (inTime : Bool)
  | fhFrameReceive (port : Fin 8) (frame : FhFrame)
  | ecpriDelayRequest (port : Fin 8) (measId : Byte)
  | ecpriRemoteRequest (port : Fin 8) (measId : Byte)
  | fhLinkChange (port : Fin 8) (up : Bool)
  -- line and flows
  | lineFrameReceive (port : Fin 8) (frame : List Byte) (fcsOk : Bool)
  | lineLinkChange (port : Fin 8) (up : Bool)
  | flowSweep (rec : Nat)
  | holdCeiling (rec : Nat)
  | flowVerdict (rec : Nat) (word : Word)
  | tableFullReport
  | fileVerdict (word : Word)
  | fileTimeout (id : BitVec 16)
  -- engines
  | matchJob (reel : Fin 1024)
  | trackJob (reel : Fin 1024)
  | composeJob (reel : Fin 1024)
  | contactJob (reel : Fin 1024)
  | engineUnitEnd (e : Engine) (cycles : Nat)
  -- memory
  | wcAgeExpiry (c : Fin 4) (e : AgedEntry)
  | hbmRead (c : Fin 4) (addr : Nat) (retries : Nat) (ok : Bool) (corrected : Bool) (work : FaultWork)
  | atomicApply (n : TileIx) (t : Thr)
  | exactAliasWrite (slot : Nat) (data : BitVec 128)
  | exactAliasRead (slot : Nat)
  | codecBlockEncode (e : Fin 16) (src dst len : Nat)
  | codecBlockDecode (e : Fin 16) (src dst : Nat)
  -- faults and power
  | correctableEvent (u : FaultUnit) (cause : Byte) (addr : Dword) (w : FaultWork)
  | uncorrectableEvent (u : FaultUnit) (cause : Byte) (detail : Dword) (w : FaultWork)
  | retakeRestart (p : Fin 8)
  | roleRebind (model : BitVec 16) (role : Nat)
  | ledgerCommit
  | sagWarning (mv : Nat)
  | stretchEnd
  | sagClear
  | sagReset
  | throttleStep (tj : Byte) (watts : Nat)
  | thermalTrip (tj : Byte)
  | thermTripRelease
  | railOutOfRange (rail : BitVec 4)
  | vbatLow (mv : Nat)
  | mainFeedFail
  | mainFeedRestored
  | holdoverSupplyDrop
  | pwrGoodFall
  | perstFall
  | refclkSysStop
  | resetRelease (sigs : List (Bool × Bool))
  | avsComplete
  | avsTimeout
  | dmcHeartbeat
  | dmcHeartbeatTimeout
  -- Splice
  | linkTrainDone (l : Fin 12) (peer : BitVec 14)
  | linkTrainRetry (l : Fin 12)
  | linkCalDone (l : Fin 12)
  | flitReceive (l : Fin 12) (crcOk : Bool) (replay : Bool) (acked : Nat)
  | errDecay
  | e2eGap (src : BitVec 14) (prio : Fin 3)
  | timeExchangeSend
  | timeMessage (l : Fin 12) (m : SMsg) (offset : Offset)
  | pathCorrection (depth : Nat)
  | groupJoin (m : Fin 16) (child : BitVec 14) (base : BitVec 14) (size : BitVec 15) (fanout : BitVec 4)
      (locked lock : Bool)
  | armMessage (l : Fin 12) (m : SMsg)
  | ackMessage (l : Fin 12) (m : SMsg)
  | breakMessage (l : Fin 12) (m : SMsg)
  | arriveMessage (l : Fin 12) (m : SMsg)
  | reduceMessage (l : Fin 12) (m : SMsg)
  | bcastMessage (l : Fin 12) (m : SMsg)
  | dataMessage (l : Fin 12) (m : SMsg)
  | slateFire (group : Fin 16) (slate : BitVec 16)
  | slateWaitExpiry (p : Fin 8)
  -- management
  | uartCharacter (samples : List Bool)
  | recoveryWrite (f : RecFrame)
  | recoveryInstall (f : RecFrame) (keyOk sigOk flashOk : Bool)
  | recoveryStatus (f : RecFrame)
  | recoveryFrameTimeout
  | setEndpointId (eid : Byte)
  | getEndpointId
  | getMctpVersionSupport
  | getMessageTypeSupport
  | getEndpointUuid
  | mctpUnsupportedCmd (cmd : Byte)
  | getTid
  | getPldmVersion (typ : Byte)
  | getPldmTypes
  | getPldmCommands (typ : Byte)
  | queryDeviceIdentifiers
  | getFirmwareParameters
  | requestUpdate
  | passComponentTable
  | updateComponent (component : BitVec 16)
  | requestFirmwareData (data : List Byte)
  | transferComplete (ok : Bool)
  | verifyComplete (keyOk sigOk : Bool)
  | applyComplete (flashOk : Bool)
  | activateFirmware
  | getStatus
  | cancelUpdateComponent
  | cancelUpdate
  | getVersion
  | getCapabilities
  | negotiateAlgorithms
  | getDigests
  | getCertificate (slot : Byte)
  | challenge (slot : Byte)
  | getMeasurements (index : Byte)
  | spdmUnsupportedRequest (code : Byte)
  -- JTAG
  | extest
  | idcode
  | samplePreload
  | clamp
  | highz
  | unlockChal
  | unlockResp (valid : Bool)
  | debugAccess (code : Byte)
  | bypass (code : Byte)
  | tapTestLogicReset (sigs : List (Bool × Bool))
  -- rows that the table adds at its end
  | vfEnable (f : FuncIx)
  | flrComplete (f : FuncIx)
  | msixUnmask (f : FuncIx) (vec : Nat)
  | undefinedOrMisalignedRead (bar2 : Bool) (f : FuncIx) (off : Nat) (size : Nat)
  | fabricRootLock
  | hbmStackHot (c : Fin 4) (hot : Bool)
  | avsThresholdTimeout
  deriving DecidableEq, Repr

end Sys2Proof
end

