-- ==== Sys2Proof/WellFormed.lean ====
section
/-! DEFINITION. Which commands are well formed: operands that name something the part has, and lengths that the
interface they arrive by can carry. -/

namespace Sys2Proof

/-- The part has the tile (00 R1). -/
def tileOk (n : TileIx) : Bool := decide (n.val < Config.nTiles)
/-- The part has the HBM stack (00 R1). -/
def stackOk (c : Fin 4) : Bool := decide (c.val < Config.nStacks)
/-- An access of 1 to 64 bytes inside BAR0's 16 MiB (00 R7). -/
def barOk (off size : Nat) : Bool := decide (off < 0x1000000) && decide (1 ≤ size) && decide (size ≤ 64)
/-- A doorbell page of the largest BAR2 (03 R81). -/
def pageOk (page : Nat) : Bool := decide (page < 256)
/-- An access inside a 4 KiB doorbell page (03 R81). -/
def pageOffOk (off size : Nat) : Bool := decide (off < 4096) && decide (1 ≤ size) && decide (size ≤ 64)
/-- A record number of the largest flow table (10 R292). -/
def recOk (r : Nat) : Bool := decide (r < 2 ^ 26)
/-- A slot of the exact alias: the register that sizes it has 32 bits (07 R207). -/
def slotOk (k : Nat) : Bool := decide (k < 2 ^ 32)
/-- A raw codec block of at most 4,096 bytes (07 R218). -/
def blockOk (len : Nat) : Bool := decide (1 ≤ len) && decide (len ≤ 4096)
/-- A line frame that a MAC can deliver: at least a header. -/
def frameOk (f : List Byte) : Bool := decide (14 ≤ f.length)
/-- At most 16 issue slots are discarded by a squash (05 R165). -/
def squashOk (slots : Fin 5) : Bool := decide (slots.val ≤ 4)
/-- A Splice payload of at most 4,112 bytes (13 R375). -/
def payloadOk (m : SMsg) : Bool := decide (m.payload.length ≤ 4112)
/-- An entry of the largest MSI-X table (03 R102). -/
def vecOk (v : Nat) : Bool := decide (v < 2048)
/-- A UART character is at least one start sample. -/
def samplesOk (l : List Bool) : Bool := decide (1 ≤ l.length)
/-- A PLDM portion of at most 1,024 bytes (15 R447). -/
def partOk (d : List Byte) : Bool := decide (d.length ≤ 1024)
/-- A console frame's payload is at most 1,024 bytes (15 R445). -/
def recFrameOk (f : RecFrame) : Bool := decide (f.payload.length ≤ 1024)
/-- Every marked canonical block has a place, of at most 256 bytes (13 R371, R372). -/
def blocksOk (marks : List Nat) (places : List BlockPlace) : Bool :=
  decide (marks.length = places.length) && places.all fun b => decide (b.len ≤ 256)
/-- A margining run has at most 256 points: offsets have 8 bits (07 R226). -/
def pointsOk (l : List MarginPoint) : Bool := decide (l.length ≤ 256)

/-- The command is well formed. -/
def WellFormed (i : Instr) : Bool :=
  match i with
  | .regWrite off size _ => barOk off size
  | .rcRead off size => barOk off size
  | .setupLock _ => true
  | .timeNowFracRead _ => true
  | .hbmRateWrite c _ => stackOk c
  | .hbmTrainingDone c => stackOk c
  | .marginStart c _ => stackOk c
  | .marginDone c points _ => stackOk c && pointsOk points
  | .sqDoorbell _ page _ => pageOk page
  | .cqDoorbell _ page _ => pageOk page
  | .inertDoorbellWrite _ page off size => pageOk page && pageOffOk off size
  | .modTimeExpiry _ => true
  | .functionLevelReset _ => true
  | .vfDisable _ => true
  | .busMasterClear _ => true
  | .busMasterSet _ => true
  | .busMasterHoldExpiry _ => true
  | .descriptorFetch _ _ => true
  | .descriptorPhaseRetry _ _ => true
  | .descriptorReadError _ => true
  | .badDescriptor _ => true
  | .nop _ => true
  | .phyUlTti _ _ => true
  | .phyDlTti _ _ => true
  | .phyUlDci _ _ => true
  | .phyTxData _ _ => true
  | .flowScore _ _ => true
  | .flowVerdictSet _ _ => true
  | .fileOpen _ => true
  | .fileChunk _ _ => true
  | .fileClose _ => true
  | .fileAbort _ => true
  | .takeRun _ _ => true
  | .takeResume _ _ _ => true
  | .slateArm _ => true
  | .loadModel _ _ => true
  | .loadRxpack _ _ => true
  | .loadCallsheet _ _ => true
  | .unload _ => true
  | .timeRearm _ => true
  | .acceptPair _ => true
  | .rushesCtrl _ => true
  | .syncMessageReceive _ _ => true
  | .followUpReceive _ => true
  | .announceReceive _ => true
  | .delayReqReceive _ => true
  | .delayRespReceive _ => true
  | .ptpSyncSend _ => true
  | .ptpAnnounceSend _ => true
  | .delayReqSend => true
  | .sourceLost => true
  | .holdoverExpired => true
  | .sceneEnd => true
  | .ppsInEdge => true
  | .ppsOutPulse => true
  | .cueFire _ _ _ _ _ => true
  | .rtcRewrite => true
  | .hoRefInterval _ _ => true
  | .xtalStop => true
  | .add n _ _ => tileOk n
  | .sub n _ _ => tileOk n
  | .mul n _ _ => tileOk n
  | .mulh n _ _ => tileOk n
  | .mac n _ _ => tileOk n
  | .macz n _ _ => tileOk n
  | .accrd n _ _ => tileOk n
  | .and n _ _ => tileOk n
  | .or n _ _ => tileOk n
  | .xor n _ _ => tileOk n
  | .shl n _ _ => tileOk n
  | .shr n _ _ => tileOk n
  | .shra n _ _ => tileOk n
  | .min n _ _ => tileOk n
  | .max n _ _ => tileOk n
  | .abs n _ _ => tileOk n
  | .neg n _ _ => tileOk n
  | .cmp n _ _ => tileOk n
  | .csel n _ _ _ _ _ => tileOk n
  | .add2 n _ _ => tileOk n
  | .sub2 n _ _ => tileOk n
  | .min2 n _ _ => tileOk n
  | .abs2 n _ _ => tileOk n
  | .mintrk n _ _ => tileOk n
  | .addi n _ _ => tileOk n
  | .andi n _ _ => tileOk n
  | .ori n _ _ => tileOk n
  | .shli n _ _ => tileOk n
  | .shri n _ _ => tileOk n
  | .shrai n _ _ => tileOk n
  | .cmpi n _ _ => tileOk n
  | .ldi n _ _ _ => tileOk n
  | .lui n _ _ _ => tileOk n
  | .ld n _ _ => tileOk n
  | .ldh n _ _ => tileOk n
  | .ldb n _ _ => tileOk n
  | .st n _ _ => tileOk n
  | .sth n _ _ => tileOk n
  | .stb n _ _ => tileOk n
  | .seta n _ _ _ _ => tileOk n
  | .mva n _ _ _ _ => tileOk n
  | .mvd n _ _ _ _ => tileOk n
  | .adda n _ _ _ => tileOk n
  | .br n _ _ _ _ slots _ => tileOk n && squashOk slots
  | .call n _ _ => tileOk n
  | .ret n _ => tileOk n
  | .jr n _ _ => tileOk n
  | .loop n _ _ _ => tileOk n
  | .loopi n _ _ _ => tileOk n
  | .lexit n _ => tileOk n
  | .mload n _ _ => tileOk n
  | .shadowLoadStart n _ _ => tileOk n
  | .shadowLoadComplete n _ _ => tileOk n
  | .mpass n _ _ => tileOk n
  | .cut n _ _ => tileOk n
  | .mread n _ _ => tileOk n
  | .mclr n _ _ => tileOk n
  | .vld n _ _ => tileOk n
  | .vst n _ _ => tileOk n
  | .vgth n _ _ => tileOk n
  | .vsct n _ _ => tileOk n
  | .vadd n _ _ => tileOk n
  | .vmul n _ _ => tileOk n
  | .vfma n _ _ => tileOk n
  | .vcmp n _ _ => tileOk n
  | .vsel n _ _ => tileOk n
  | .vmin n _ _ => tileOk n
  | .vmax n _ _ => tileOk n
  | .vtree n _ _ => tileOk n
  | .rufeed n _ _ => tileOk n
  | .ruread n _ _ => tileOk n
  | .ccNop n _ => tileOk n
  | .halt n _ => tileOk n
  | .threadHalted n _ _ => tileOk n
  | .sync n _ _ => tileOk n
  | .syncComplete n _ => tileOk n
  | .mfs n _ _ => tileOk n
  | .mts n _ _ => tileOk n
  | .rpush n _ _ => tileOk n
  | .rpushResume n _ => tileOk n
  | .rpop n _ _ => tileOk n
  | .rpopResume n _ => tileOk n
  | .dkick n _ _ => tileOk n
  | .cuewait n _ _ => tileOk n
  | .aadd n _ _ => tileOk n
  | .amm n _ _ => tileOk n
  | .dollyDescriptorStart n _ => tileOk n
  | .dollyReelPop n _ => tileOk n
  | .dollyTransferAck n _ => tileOk n
  | .dollyDescriptorComplete n _ => tileOk n
  | .lsScrub n => tileOk n
  | .stepCheckExpiry _ _ _ _ _ _ => true
  | .windowRelease n _ => tileOk n
  | .windowOpen n _ => tileOk n
  | .suPlace n => tileOk n
  | .parkLimitExpiry n _ => tileOk n
  | .itemDispatch _ n => tileOk n
  | .itemComplete n _ _ => tileOk n
  | .takeJobStart _ => true
  | .layerEnd _ marks places _ => blocksOk marks places
  | .sheetSwitch => true
  | .sheetRelease _ => true
  | .takeover n _ => tileOk n
  | .slotStart _ => true
  | .dlUplaneSend _ _ _ _ => true
  | .dlWindowClose _ _ _ _ => true
  | .rushesCopy _ _ _ _ => true
  | .fhFrameReceive _ _ => true
  | .ecpriDelayRequest _ _ => true
  | .ecpriRemoteRequest _ _ => true
  | .fhLinkChange _ _ => true
  | .lineFrameReceive _ frame _ => frameOk frame
  | .lineLinkChange _ _ => true
  | .flowSweep rec => recOk rec
  | .holdCeiling rec => recOk rec
  | .flowVerdict rec _ => recOk rec
  | .tableFullReport => true
  | .fileVerdict _ => true
  | .fileTimeout _ => true
  | .matchJob _ => true
  | .trackJob _ => true
  | .composeJob _ => true
  | .contactJob _ => true
  | .engineUnitEnd _ _ => true
  | .wcAgeExpiry c _ => stackOk c
  | .hbmRead c _ _ _ _ _ => stackOk c
  | .atomicApply n _ => tileOk n
  | .exactAliasWrite slot _ => slotOk slot
  | .exactAliasRead slot => slotOk slot
  | .codecBlockEncode _ _ _ len => blockOk len
  | .codecBlockDecode _ _ _ => true
  | .correctableEvent _ _ _ _ => true
  | .uncorrectableEvent _ _ _ _ => true
  | .retakeRestart _ => true
  | .roleRebind _ _ => true
  | .ledgerCommit => true
  | .sagWarning _ => true
  | .stretchEnd => true
  | .sagClear => true
  | .sagReset => true
  | .throttleStep _ _ => true
  | .thermalTrip _ => true
  | .thermTripRelease => true
  | .railOutOfRange _ => true
  | .vbatLow _ => true
  | .mainFeedFail => true
  | .mainFeedRestored => true
  | .holdoverSupplyDrop => true
  | .pwrGoodFall => true
  | .perstFall => true
  | .refclkSysStop => true
  | .resetRelease _ => true
  | .avsComplete => true
  | .avsTimeout => true
  | .dmcHeartbeat => true
  | .dmcHeartbeatTimeout => true
  | .linkTrainDone _ _ => true
  | .linkTrainRetry _ => true
  | .linkCalDone _ => true
  | .flitReceive _ _ _ _ => true
  | .errDecay => true
  | .e2eGap _ _ => true
  | .timeExchangeSend => true
  | .timeMessage _ m _ => payloadOk m
  | .pathCorrection _ => true
  | .groupJoin _ _ _ _ _ _ _ => true
  | .armMessage _ m => payloadOk m
  | .ackMessage _ m => payloadOk m
  | .breakMessage _ m => payloadOk m
  | .arriveMessage _ m => payloadOk m
  | .reduceMessage _ m => payloadOk m
  | .bcastMessage _ m => payloadOk m
  | .dataMessage _ m => payloadOk m
  | .slateFire _ _ => true
  | .slateWaitExpiry _ => true
  | .uartCharacter samples => samplesOk samples
  | .recoveryWrite f => recFrameOk f
  | .recoveryInstall f _ _ _ => recFrameOk f
  | .recoveryStatus f => recFrameOk f
  | .recoveryFrameTimeout => true
  | .setEndpointId _ => true
  | .getEndpointId => true
  | .getMctpVersionSupport => true
  | .getMessageTypeSupport => true
  | .getEndpointUuid => true
  | .mctpUnsupportedCmd _ => true
  | .getTid => true
  | .getPldmVersion _ => true
  | .getPldmTypes => true
  | .getPldmCommands _ => true
  | .queryDeviceIdentifiers => true
  | .getFirmwareParameters => true
  | .requestUpdate => true
  | .passComponentTable => true
  | .updateComponent _ => true
  | .requestFirmwareData data => partOk data
  | .transferComplete _ => true
  | .verifyComplete _ _ => true
  | .applyComplete _ => true
  | .activateFirmware => true
  | .getStatus => true
  | .cancelUpdateComponent => true
  | .cancelUpdate => true
  | .getVersion => true
  | .getCapabilities => true
  | .negotiateAlgorithms => true
  | .getDigests => true
  | .getCertificate _ => true
  | .challenge _ => true
  | .getMeasurements _ => true
  | .spdmUnsupportedRequest _ => true
  | .extest => true
  | .idcode => true
  | .samplePreload => true
  | .clamp => true
  | .highz => true
  | .unlockChal => true
  | .unlockResp _ => true
  | .debugAccess _ => true
  | .bypass _ => true
  | .tapTestLogicReset _ => true
  | .vfEnable _ => true
  | .flrComplete _ => true
  | .msixUnmask _ vec => vecOk vec
  | .undefinedOrMisalignedRead _ _ off size => barOk off size
  | .fabricRootLock => true
  | .hbmStackHot c _ => stackOk c
  | .avsThresholdTimeout => true

end Sys2Proof
end

