-- ==== Sys2Proof/Decode.lean ====
section
/-! DEFINITION. The command that a word of the table spells, and the control-core instruction that a code word spells.
spec/opcode_table.json gives no row any bits (every row's "fields" is empty): a command comes from outside as an operation, so no
word of the table spells one. A code word in a tile's program store does spell an instruction (05 R148, R152). -/

namespace Sys2Proof

/-- The command that a word of `nbits` bits spells by the table's bits: none, since no row of the table has bits. -/
def decodeTableWord (_ _ : Nat) : Option Instr := none

/-- Bits [lo + n − 1 : lo] of a code word. -/
def codeBits (w : Word) (lo n : Nat) : Nat := w.toNat / 2 ^ lo % 2 ^ n
/-- A register number at a place of a code word. -/
def codeReg (w : Word) (lo : Nat) : Fin 16 := Fin.ofNat 16 (codeBits w lo 4)
def codeHead (w : Word) (lo : Nat) : Fin 8 := Fin.ofNat 8 (codeBits w lo 3)
def codeVec (w : Word) (lo : Nat) : Fin 32 := Fin.ofNat 32 (codeBits w lo 5)

/-- The fields of a code word by its format (05 R148); what is measured as it runs is 0. -/
def codeAlu (w : Word) : AluF := ⟨w.getLsbD 23, codeReg w 19, codeReg w 15, codeReg w 11, w.extractLsb' 0 11, 0⟩
def codeImm (w : Word) : ImmF := ⟨w.getLsbD 23, codeReg w 19, codeReg w 15, w.extractLsb' 0 15⟩
def codeMem (w : Word) : MemF := ⟨w.getLsbD 23, codeReg w 19, codeHead w 16, w.extractLsb' 14 2, w.extractLsb' 0 14, 0⟩
def codeMat (w : Word) : MatF := ⟨w.getLsbD 25, w.extractLsb' 21 4, codeHead w 18, codeReg w 14, w.extractLsb' 0 14, 0⟩
def codeVecF (w : Word) : VecF :=
  ⟨w.getLsbD 23, codeVec w 18, codeVec w 13, codeVec w 8, w.getLsbD 7, codeHead w 4, w.extractLsb' 0 3, 0⟩
def codeSys (w : Word) : SysF := ⟨codeReg w 19, codeHead w 16, w.extractLsb' 0 16⟩

/-- The conditions by their codes (05 R151). -/
def codeCond : Nat → Option Cond
  | 0 => some .al | 1 => some .eq | 2 => some .ne | 3 => some .lt | 4 => some .ge | 5 => some .ltu | 6 => some .geu
  | 7 => some .le | 8 => some .gt | 9 => some .svs | 10 => some .svc | _ => none

/-- The address register sets by SEL. -/
def codeSel : Nat → ASel
  | 0 => .h | 1 => .s | 2 => .w | _ => .e

/-- F0. -/
def codeF0 (n : TileIx) (t : Thr) (w : Word) : Option Instr :=
  let f := codeAlu w
  match codeBits w 24 5 with
  | 0 => some (.add n t f)
  | 1 => some (.sub n t f)
  | 2 => some (.mul n t f)
  | 3 => some (.mulh n t f)
  | 4 => some (.mac n t f)
  | 5 => some (.macz n t f)
  | 6 => some (.accrd n t f)
  | 7 => some (.and n t f)
  | 8 => some (.or n t f)
  | 9 => some (.xor n t f)
  | 10 => some (.shl n t f)
  | 11 => some (.shr n t f)
  | 12 => some (.shra n t f)
  | 13 => some (.min n t f)
  | 14 => some (.max n t f)
  | 15 => some (.abs n t f)
  | 16 => some (.neg n t f)
  | 17 => some (.cmp n t f)
  | 18 => (codeCond (codeBits w 7 4)).map fun c => .csel n t c f.dst f.sa f.sb
  | 19 => some (.add2 n t f)
  | 20 => some (.sub2 n t f)
  | 21 => some (.min2 n t f)
  | 22 => some (.abs2 n t f)
  | 23 => some (.mintrk n t f)
  | _ => none

/-- F1. -/
def codeF1 (n : TileIx) (t : Thr) (w : Word) : Option Instr :=
  let f := codeImm w
  match codeBits w 24 5 with
  | 0 => some (.addi n t f)
  | 1 => some (.andi n t f)
  | 2 => some (.ori n t f)
  | 3 => some (.shli n t f)
  | 4 => some (.shri n t f)
  | 5 => some (.shrai n t f)
  | 6 => some (.cmpi n t f)
  | 7 => some (.ldi n t f.dst (w.extractLsb' 0 16))
  | 8 => some (.lui n t f.dst (w.extractLsb' 0 16))
  | _ => none

/-- F2. -/
def codeF2 (n : TileIx) (t : Thr) (w : Word) : Option Instr :=
  let f := codeMem w
  match codeBits w 24 5 with
  | 0 => some (.ld n t f)
  | 1 => some (.ldh n t f)
  | 2 => some (.ldb n t f)
  | 3 => some (.st n t f)
  | 4 => some (.sth n t f)
  | 5 => some (.stb n t f)
  | _ => none

/-- F3. -/
def codeF3 (n : TileIx) (t : Thr) (w : Word) : Instr :=
  let sel := codeSel (codeBits w 27 2)
  match codeBits w 22 2 with
  | 0 => .seta n t sel (codeHead w 24) (w.extractLsb' 0 22)
  | 1 => .mva n t sel (codeHead w 24) (codeReg w 0)
  | 2 => .mvd n t sel (codeHead w 24) (codeReg w 0)
  | _ => .adda n t (codeHead w 24) (w.extractLsb' 0 22)

/-- F4. -/
def codeF4 (n : TileIx) (t : Thr) (w : Word) : Option Instr :=
  match codeBits w 26 3 with
  | 0 => (codeCond (codeBits w 22 4)).map fun c => .br n t c (w.getLsbD 21) (w.extractLsb' 0 21) 0 0
  | 1 => some (.call n t (w.extractLsb' 0 21))
  | 2 => some (.ret n t)
  | 3 => some (.jr n t (codeReg w 17))
  | 4 => some (.loop n t (codeReg w 17) (w.extractLsb' 0 9))
  | 5 => some (.loopi n t (w.extractLsb' 9 12) (w.extractLsb' 0 9))
  | 6 => some (.lexit n t)
  | _ => none

/-- F5. -/
def codeF5 (n : TileIx) (t : Thr) (w : Word) : Option Instr :=
  let f := codeMat w
  match codeBits w 26 3 with
  | 0 => some (.mload n t f)
  | 1 => some (.mpass n t f)
  | 2 => some (.cut n t f)
  | 3 => some (.mread n t f)
  | 4 => some (.mclr n t f)
  | _ => none

/-- F6. -/
def codeF6 (n : TileIx) (t : Thr) (w : Word) : Option Instr :=
  let f := codeVecF w
  match codeBits w 24 5 with
  | 0 => some (.vld n t f)
  | 1 => some (.vst n t f)
  | 2 => some (.vgth n t f)
  | 3 => some (.vsct n t f)
  | 4 => some (.vadd n t f)
  | 5 => some (.vmul n t f)
  | 6 => some (.vfma n t f)
  | 7 => some (.vcmp n t f)
  | 8 => some (.vsel n t f)
  | 9 => some (.vmin n t f)
  | 10 => some (.vmax n t f)
  | 11 => some (.vtree n t f)
  | 12 => some (.rufeed n t { f with partials := false })
  | 13 => some (.ruread n t f)
  | _ => none

/-- F7. -/
def codeF7 (n : TileIx) (t : Thr) (w : Word) : Option Instr :=
  let f := codeSys w
  match codeBits w 24 5 with
  | 0 => some (.ccNop n t)
  | 1 => some (.halt n t)
  | 2 => some (.sync n t (w.extractLsb' 0 8))
  | 3 => some (.mfs n t { f with cycles := 0 })
  | 4 => some (.mts n t f)
  | 5 => some (.rpush n t f)
  | 6 => some (.rpop n t f)
  | 7 => some (.dkick n t f)
  | 8 => some (.cuewait n t f)
  | 9 => some (.aadd n t f)
  | 10 => some (.amm n t f)
  | _ => none

/-- The instruction that a code word spells for thread `t` of tile `n`; none where its format, OP or COND is unlisted (05 R148,
R152). -/
def decodeCode (n : TileIx) (t : Thr) (w : Word) : Option Instr :=
  match codeBits w 29 3 with
  | 0 => codeF0 n t w
  | 1 => codeF1 n t w
  | 2 => codeF2 n t w
  | 3 => some (codeF3 n t w)
  | 4 => codeF4 n t w
  | 5 => codeF5 n t w
  | 6 => codeF6 n t w
  | _ => codeF7 n t w

end Sys2Proof
end

