-- ==== Sys2Proof/Machine/RegTable.lean ====
section
/-! DEFINITION. Every BAR0 register of the device: its offset, access types, reset value and the checks of a write, as
the register tables of spec/00–17 give them (index: 17 R482). -/

namespace Sys2Proof.Machine

/-- A check of one field of a register write: bits [hi:lo] lie in lo..hi values, or the write is discarded with this
access-error KIND (R10: 2, an unlisted value; the range rules of each chapter: 4). -/
structure FieldCheck where
  hi : Nat
  lo : Nat
  min : Nat
  max : Nat
  kind : Nat
  deriving DecidableEq, Repr

/-- Checks of a write that are no plain range of one field. -/
inductive RegSpecial where
  | none | base4k | pairCfg | incFrac | incNsSub | gridOffset | partCfg | dlStage | floorA | floorB | vcfg | pwrLimit
  | ftCfg | timeCfg | group | groupBase | groupSize | ta4Min | ta4Max | t1aUp | ulRing | eaxcSplit | marginRange
  deriving DecidableEq, Repr

/-- One row of a register table: `count` registers from `base`, `stride` bytes apart. -/
structure RegRow where
  base : Nat
  count : Nat := 1
  stride : Nat := 4
  rwl : Word := 0
  w1c : Word := 0
  rc : Word := 0
  w1s : Word := 0
  wo : Word := 0
  reset : Word := 0
  checks : List FieldCheck := []
  special : RegSpecial := .none
  deriving DecidableEq, Repr

/-- An enumerated field (R10). -/
def en (hi lo min max : Nat) : FieldCheck := ⟨hi, lo, min, max, 2⟩
/-- A field with a range. -/
def rg (hi lo min max : Nat) : FieldCheck := ⟨hi, lo, min, max, 4⟩

/-- GLOBAL.PART_INFO: [7:0] tiles, [11:8] HBM stacks (17 R480). -/
def partInfoReset : Word := .ofNat 32 (Config.nTiles + 256 * Config.nStacks)
/-- GLOBAL.STRAPS as latched at reset: no strap pin is given a level by the spec, 7 is this model's (DESIGN CHOICE,
log 4; R471). -/
def strapsReset : Word := 7
/-- TIME.STATUS: STATE INVALID, STEP_ARMED = 1 and no valid RTC seed (R70; log 5). -/
def timeStatusReset : Word := 0xC0
/-- HBM_0.MAP: INTLV is fixed at 1 on a part of one stack (07 R201, R227). -/
def mapLockMask : Word := if Config.nStacks = 1 then 0 else 1
/-- Reset of HBM_0.MAP. -/
def mapReset : Word := if Config.nStacks = 1 then 1 else 0

/-- Registers of the GLOBAL block. -/
def regsGlobal : List RegRow := [
  { base := 0, reset := Config.chipId }, -- GLOBAL.CHIP_ID (00 R13)
  { base := 0x4, reset := partInfoReset }, -- GLOBAL.PART_INFO (17 R480)
  { base := 0x8, w1s := 0x1 }, -- GLOBAL.SETUP_LOCK (03 R103)
  { base := 0x10, rwl := 0x1 }, -- GLOBAL.DET_CTRL (13 R364)
  { base := 0x18, reset := strapsReset } ] -- GLOBAL.STRAPS (16 R471)

/-- Registers of the HOST block. -/
def regsHost : List RegRow := [
  { base := 0x10000 }, -- HOST.STATUS (03 R105)
  { base := 0x10008, w1c := 0xF }, -- HOST.EVENT (03 R105)
  { base := 0x1000C, rwl := 0xF }, -- HOST.EVENT_EN (03 R105)
  { base := 0x10010, rwl := 0x1F, reset := 0x8, checks := [rg 4 0 1 24] }, -- HOST.VF_MSIX (03 R73)
  { base := 0x10014, rwl := 0x1FF }, -- HOST.BLOCK_VEC (03 R102)
  { base := 0x10020, rc := 0xFFFFFFFF }, -- HOST.AERR_COUNT (03 R104)
  { base := 0x10024 }, -- HOST.AERR_ADDR (03 R105)
  { base := 0x10028 }, -- HOST.AERR_INFO (03 R105)
  { base := 0x10030, rc := 0xFFFFFFFF }, -- HOST.FLR_COUNT (03 R80)
  { base := 0x11000, count := 256, stride := 0x40, rwl := 0xFFFFF000, special := .base4k }, -- HOST.SQ_BASE_LO_p (03 R75)
  { base := 0x11004, count := 256, stride := 0x40, rwl := 0xFFFFFFFF }, -- HOST.SQ_BASE_HI_p (03 R75)
  { base := 0x11008, count := 256, stride := 0x40, rwl := 0xFFFFF000, special := .base4k }, -- HOST.CQ_BASE_LO_p (03 R75)
  { base := 0x1100C, count := 256, stride := 0x40, rwl := 0xFFFFFFFF }, -- HOST.CQ_BASE_HI_p (03 R75)
  { base := 0x11010, count := 256, stride := 0x40, rwl := 0x3F3F1FFB, special := .pairCfg }, -- HOST.PAIR_CFG_p (03 R76)
  { base := 0x11014, count := 256, stride := 0x40, rwl := 0x107FF }, -- HOST.VEC_CFG_p (03 R75)
  { base := 0x11018, count := 256, stride := 0x40, rwl := 0xFFFFFFFF, reset := 0x1 }, -- HOST.MOD_CFG_p (03 R75)
  { base := 0x11020, count := 256, stride := 0x40 }, -- HOST.SQ_CONS_p (03 R75)
  { base := 0x11024, count := 256, stride := 0x40 }, -- HOST.SQ_PROD_p (03 R75)
  { base := 0x11028, count := 256, stride := 0x40 }, -- HOST.CQ_PROD_p (03 R75)
  { base := 0x1102C, count := 256, stride := 0x40 }, -- HOST.CQ_CONS_p (03 R75)
  { base := 0x11030, count := 256, stride := 0x40 }, -- HOST.PAIR_STATUS_p (03 R76)
  { base := 0x11034, count := 256, stride := 0x40, rc := 0xFFFFFFFF }, -- HOST.LOST_COUNT_p (03 R94)
  { base := 0x11038, count := 256, stride := 0x40, rc := 0xFFFFFFFF } ] -- HOST.INTERIM_SKIP_p (03 R94)

/-- Registers of the TIME block. -/
def regsTime : List RegRow := [
  { base := 0x20000, rwl := 0x3, checks := [en 1 0 0 2] }, -- TIME.CTRL (02 R69)
  { base := 0x20004, reset := timeStatusReset }, -- TIME.STATUS (02 R70)
  { base := 0x20008, w1c := 0x1FF }, -- TIME.EVENT (02 R70)
  { base := 0x2000C, rwl := 0x1FF }, -- TIME.EVENT_EN (02 R69)
  { base := 0x20010, rwl := 0x373, checks := [en 9 8 0 2] }, -- TIME.SRC_CFG (02 R70)
  { base := 0x20014, rwl := 0xFFFFFFFF, reset := 0x64, checks := [rg 31 0 1 1000000] }, -- TIME.JUMP_LIMIT (02 R69)
  { base := 0x20018, rwl := 0xFFFFFFFF, reset := 0x14, checks := [rg 31 0 1 1000] }, -- TIME.LOCK_WINDOW (02 R69)
  { base := 0x2001C, rwl := 0xFFFFFFFF, reset := 0x3840, checks := [rg 31 0 1 2592000] }, -- TIME.HOLDOVER_LIMIT (02 R69)
  { base := 0x20020, rwl := 0xFFFFFFFF, reset := 0x40000000, special := .incFrac }, -- TIME.INC_FRAC (02 R36)
  { base := 0x20024, rwl := 0x3FFFF, reset := 0x1, special := .incNsSub }, -- TIME.INC_NS_SUB (02 R36)
  { base := 0x20028, rwl := 0xFFFFFFFF, reset := 0x25 }, -- TIME.UTC_OFFSET (02 R69)
  { base := 0x20030 }, -- TIME.NOW_FRAC (02 R37)
  { base := 0x20034 }, -- TIME.NOW_NS (02 R37)
  { base := 0x20038 }, -- TIME.NOW_SEC_LO (02 R37)
  { base := 0x2003C }, -- TIME.NOW_SEC_HI (02 R37)
  { base := 0x20040 }, -- TIME.OFFSET (02 R69)
  { base := 0x20044 }, -- TIME.STEP_COUNT (02 R69)
  { base := 0x20048 }, -- TIME.REFUSED_COUNT (02 R69)
  { base := 0x20050 }, -- TIME.LAST_STEP_SEC_LO (02 R69)
  { base := 0x20054 }, -- TIME.LAST_STEP_NS (02 R69)
  { base := 0x20058 }, -- TIME.LAST_STEP_DELTA_LO (02 R69)
  { base := 0x2005C }, -- TIME.LAST_STEP_DELTA_HI (02 R69)
  { base := 0x20080, count := 4, stride := 0x4, rwl := 0x3 }, -- TIME.GRID_CFG_g (02 R50)
  { base := 0x20090, count := 4, stride := 0x4, rwl := 0xFFFFFFFF, special := .gridOffset }, -- TIME.GRID_OFFSET_g (02 R50)
  { base := 0x200A0, count := 8, stride := 0x4, rwl := 0xFFFFFFFF }, -- TIME.LINE_DLY_k (02 R56)
  { base := 0x200C0, count := 8, stride := 0x4, rwl := 0xFFFFFFFF }, -- TIME.FH_DLY_k (02 R56)
  { base := 0x200E0, rwl := 0xFFFFFF03 }, -- TIME.PPS_CFG (02 R64)
  { base := 0x200E4 }, -- TIME.PPS_IN_SEC_LO (02 R65)
  { base := 0x200E8 }, -- TIME.PPS_IN_NS (02 R65)
  { base := 0x200EC } ] -- TIME.PPS_IN_FRAC (02 R65)

/-- Registers of the TIME block. -/
def regsTime2 : List RegRow := [
  { base := 0x200F0, rwl := 0xFF }, -- TIME.LINE_TC_EN (02 R60)
  { base := 0x20100, count := 8, stride := 0x4, rwl := 0xFF03, reset := 0x1800, checks := [rg 15 8 24 43] }, -- TIME.FH_PTP_CFG_k (02 R57)
  { base := 0x20120, count := 16, stride := 0x4, rc := 0xFFFFFFFF } ] -- TIME.PTP_DISCARD_k (02 R62)

/-- Registers of the DIRECTOR block. -/
def regsDirector : List RegRow := [
  { base := 0x30000 }, -- DIRECTOR.STATUS (06 R197)
  { base := 0x30008, w1c := 0x1F }, -- DIRECTOR.EVENT (06 R197)
  { base := 0x3000C, rwl := 0x1F }, -- DIRECTOR.EVENT_EN (06 R197)
  { base := 0x30010, rwl := 0x7FFFFF, reset := 0x401414, checks := [rg 7 0 5 255, rg 15 8 1 255, rg 22 16 0 64] }, -- DIRECTOR.SU_CFG (06 R197)
  { base := 0x30014, rwl := 0xFFFF, reset := 0x3228, checks := [rg 7 0 10 60, rg 15 8 10 75] }, -- DIRECTOR.PHY_SHARE (06 R197)
  { base := 0x30020, rc := 0xFFFFFFFF }, -- DIRECTOR.VIOLATIONS (06 R197)
  { base := 0x30024, rc := 0xFFFFFFFF }, -- DIRECTOR.SU_PLACED (06 R197)
  { base := 0x30028, rc := 0xFFFFFFFF }, -- DIRECTOR.SU_REQUEUED (06 R197)
  { base := 0x3002C, rc := 0xFFFFFFFF }, -- DIRECTOR.SU_EVICT_CYCLES (06 R197)
  { base := 0x30030, rc := 0xFFFFFFFF }, -- DIRECTOR.WIN_OFFERED (06 R197)
  { base := 0x30034, rc := 0xFFFFFFFF }, -- DIRECTOR.WIN_USED (06 R197)
  { base := 0x30038, rc := 0xFFFFFFFF }, -- DIRECTOR.REEL_OVF (06 R197)
  { base := 0x3003C, rc := 0xFFFFFFFF }, -- DIRECTOR.REEL_REJECT (06 R197)
  { base := 0x30040 }, -- DIRECTOR.LAST_VIOLATION (06 R197)
  { base := 0x30100, count := Config.nTiles, stride := 0x4, rwl := 0x37, checks := [en 5 4 0 2] }, -- DIRECTOR.TILE_PART_n (01 R24)
  { base := 0x30200, count := 8, stride := 0x4, rwl := 0x70113, special := .partCfg }, -- DIRECTOR.PART_CFG_p (01 R25)
  { base := 0x30300, count := 4, stride := 0x4, rwl := 0x1FF, reset := 0x12C, checks := [rg 8 0 180 300] }, -- DIRECTOR.UL_DEADLINE_g (09 R282)
  { base := 0x30310, count := 4, stride := 0x4, rwl := 0x1FFFFFC0, special := .dlStage }, -- DIRECTOR.DL_STAGE_g (09 R282)
  { base := 0x30320, rwl := 0xFF03 }, -- DIRECTOR.RADIO_CFG (09 R282)
  { base := 0x30330, rc := 0xFFFFFFFF }, -- DIRECTOR.RETAKES (09 R282)
  { base := 0x30334, rc := 0xFFFFFFFF }, -- DIRECTOR.RETAKE_OK (09 R282)
  { base := 0x30338, rc := 0xFFFFFFFF }, -- DIRECTOR.RETAKE_SKIPPED (09 R282)
  { base := 0x3033C, rc := 0xFFFFFFFF }, -- DIRECTOR.RUSHES_INCOMPLETE (09 R282)
  { base := 0x30340, rc := 0xFFFFFFFF }, -- DIRECTOR.PRACH_DET (09 R282)
  { base := 0x30400, rwl := 0x7F7F7F7F, reset := 0x4080810, checks := [rg 6 0 0 64, rg 14 8 0 64, rg 22 16 0 64, rg 30 24 0 64], special := .floorA }, -- DIRECTOR.CLASS_FLOOR_A (12 R363)
  { base := 0x30404, rwl := 0x7F, reset := 0x2, checks := [rg 6 0 0 64], special := .floorB }, -- DIRECTOR.CLASS_FLOOR_B (12 R363)
  { base := 0x30420, count := 6, stride := 0x4 }, -- DIRECTOR.CLASS_QDEPTH_c (12 R363)
  { base := 0x30440, count := 6, stride := 0x4, rc := 0x1FFFF }, -- DIRECTOR.CLASS_QPEAK_c (12 R363)
  { base := 0x30460, rc := 0xFFFFFFFF }, -- DIRECTOR.SAG_SHED (12 R362)
  { base := 0x30480, count := 6, stride := 0x4, rc := 0xFFFFFFFF } ] -- DIRECTOR.QFULL_c (12 R353)

/-- Registers of the DIRECTOR block. -/
def regsDirector2 : List RegRow := [
  { base := 0x30500, count := 11, stride := 0x4, rc := 0xFFFFFFFF }, -- DIRECTOR.DISP_COUNT_0_d (12 R362)
  { base := 0x30540, count := 11, stride := 0x4, rc := 0xFFFFFFFF }, -- DIRECTOR.DISP_COUNT_1_d (12 R362)
  { base := 0x30580, count := 11, stride := 0x4, rc := 0xFFFFFFFF }, -- DIRECTOR.DISP_COUNT_2_d (12 R362)
  { base := 0x305C0, count := 11, stride := 0x4, rc := 0xFFFFFFFF }, -- DIRECTOR.DISP_COUNT_3_d (12 R362)
  { base := 0x30600, count := 11, stride := 0x4, rc := 0xFFFFFFFF }, -- DIRECTOR.DISP_COUNT_4_d (12 R362)
  { base := 0x30640, count := 11, stride := 0x4, rc := 0xFFFFFFFF }, -- DIRECTOR.DISP_COUNT_5_d (12 R362)
  { base := 0x31000, count := 1024, stride := 0x4 } ] -- DIRECTOR.REEL_r (06 R197)

/-- Registers of the GAFFER block. -/
def regsGaffer : List RegRow := [
  { base := 0x40000 }, -- GAFFER.STATUS (14 R422)
  { base := 0x40004, w1c := 0x3F }, -- GAFFER.EVENT (14 R422)
  { base := 0x40008, rwl := 0x3F }, -- GAFFER.EVENT_EN (14 R422)
  { base := 0x40010, rwl := 0x3FFFFFF, reset := 0x1195A2D, checks := [en 25 24 0 2, rg 7 0 20 80, rg 15 8 60 150, rg 23 16 25 200], special := .vcfg }, -- GAFFER.VCFG (14 R422)
  { base := 0x40014, rwl := 0xFFFFFFFF, reset := 0x64, checks := [rg 31 0 10 10000] }, -- GAFFER.WARN_CLEAR (14 R422)
  { base := 0x40018, rwl := 0x7FF, reset := 0x578, checks := [rg 10 0 1100 1500] }, -- GAFFER.FCLK (14 R422)
  { base := 0x4001C, rwl := 0x7FF, reset := 0x44C, checks := [rg 10 0 1100 1500] }, -- GAFFER.F_FLOOR (14 R422)
  { base := 0x40020, rwl := 0xFFFFFFFF, reset := (.ofNat 32 (Config.pwrMaxOf Config.part)), special := .pwrLimit }, -- GAFFER.PWR_LIMIT (14 R422)
  { base := 0x40024, rwl := 0xFFFFFFFF, reset := 0x64, checks := [rg 31 0 85 100] }, -- GAFFER.T_THROTTLE (14 R422)
  { base := 0x40030, reset := 0x2D0 }, -- GAFFER.VSET (14 R422)
  { base := 0x40034, rc := 0xFFFFFFFF }, -- GAFFER.VDD_MIN (14 R422)
  { base := 0x40038, reset := 0x578 }, -- GAFFER.FCLK_NOW (14 R422)
  { base := 0x4003C }, -- GAFFER.TJ (14 R422)
  { base := 0x40040 }, -- GAFFER.PWR_NOW (14 R422)
  { base := 0x40044 }, -- GAFFER.VBAT (14 R422)
  { base := 0x40050, rc := 0xFFFFFFFF }, -- GAFFER.WARN_COUNT (14 R422)
  { base := 0x40054, rc := 0xFFFFFFFF }, -- GAFFER.DEEP_DIP (14 R422)
  { base := 0x40058, rc := 0xFFFFFFFF } ] -- GAFFER.THROTTLE_MS (14 R422)

/-- Registers of the FAULT block. -/
def regsFault : List RegRow := [
  { base := 0x50000 }, -- FAULT.STATUS (14 R421)
  { base := 0x50004, w1c := 0xFF }, -- FAULT.EVENT (14 R421)
  { base := 0x50008, rwl := 0xFF }, -- FAULT.EVENT_EN (14 R421)
  { base := 0x50010, rwl := 0xFFF000F, reset := 0xA0008, checks := [rg 3 0 1 15, rg 27 16 1 3600] }, -- FAULT.CE_CFG (14 R421)
  { base := 0x50014, rwl := 0xFFFF0F, reset := 0x100A03, checks := [rg 3 0 1 15, rg 15 8 1 255, rg 23 16 1 255] }, -- FAULT.RETAKE_CFG (14 R421)
  { base := 0x50018, rwl := 0x1FF }, -- FAULT.LEDGER_CFG (14 R421)
  { base := 0x50020 }, -- FAULT.FENCED_LO (14 R421)
  { base := 0x50024 }, -- FAULT.FENCED_HI (14 R421)
  { base := 0x50028 }, -- FAULT.LOG_SEQ (14 R421)
  { base := 0x50030, rc := 0xFFFFFFFF }, -- FAULT.RETAKES (14 R421)
  { base := 0x50034, rc := 0xFFFFFFFF }, -- FAULT.CE_TOTAL (14 R421)
  { base := 0x50038, rc := 0xFFFFFFFF }, -- FAULT.UE_TOTAL (14 R421)
  { base := 0x50040 }, -- FAULT.LEDGER_STATUS (14 R421)
  { base := 0x50044 }, -- FAULT.LEDGER_GEN (14 R421)
  { base := 0x50048, reset := 0x1 }, -- FAULT.BOOT_COUNT (14 R421)
  { base := 0x50100, count := Config.nTiles, stride := 0x4 }, -- FAULT.TILE_HEALTH_n (14 R421)
  { base := 0x51000, count := 2048, stride := 0x4 }, -- FAULT.LOG (14 R399)
  { base := 0x54000, count := 1544, stride := 0x4 } ] -- FAULT.LEDGER_PREV (14 R417)

/-- Registers of the FLOWFRONT block. -/
def regsFlowfront : List RegRow := [
  { base := 0x60000, rwl := 0x1F, reset := 0x2 }, -- FLOWFRONT.CFG (10 R320)
  { base := 0x60004 }, -- FLOWFRONT.STATUS (10 R320)
  { base := 0x60008, w1c := 0x1F }, -- FLOWFRONT.EVENT (10 R320)
  { base := 0x6000C, rwl := 0x1F }, -- FLOWFRONT.EVENT_EN (10 R320)
  { base := 0x60010, rwl := 0x7F3F, reset := 0x1A, checks := [rg 5 0 20 26], special := .ftCfg }, -- FLOWFRONT.FT_CFG (10 R292)
  { base := 0x60014, rwl := 0xFFFFFFFF }, -- FLOWFRONT.HASH_SEED (10 R291)
  { base := 0x60018, rwl := 0x7FF07FF, reset := 0x800040, checks := [rg 10 0 0 1024] }, -- FLOWFRONT.HOLD_CFG (10 R320)
  { base := 0x6001C, rwl := 0xFFFFFFFF, reset := 0x3C0804, checks := [rg 7 0 1 64, rg 15 8 1 255, rg 31 16 1 65535] }, -- FLOWFRONT.TIMERS (10 R320)
  { base := 0x60020, rwl := 0xFFFFFFFF, reset := 0x41000, checks := [rg 31 16 1 65535] }, -- FLOWFRONT.OBS_CFG (10 R320)
  { base := 0x60024, rwl := 0xFFFFFFFF, reset := 0x17C112B5 }, -- FLOWFRONT.UDP_PORTS (10 R320)
  { base := 0x60028, rwl := 0xF }, -- FLOWFRONT.MIRROR_CFG (10 R320)
  { base := 0x60040, count := 4, stride := 0x10, rwl := 0x1FF }, -- FLOWFRONT.SINK_k (10 R320)
  { base := 0x60044, count := 4, stride := 0x10, rwl := 0xFFFFFFFF }, -- FLOWFRONT.SINK_k.VLOG_LO (10 R320)
  { base := 0x60048, count := 4, stride := 0x10, rwl := 0xFFFFFFFF }, -- FLOWFRONT.SINK_k.VLOG_HI (10 R320)
  { base := 0x60100, count := 16, stride := 0x4, rwl := 0x9FFFFFFF }, -- FLOWFRONT.PSEL_j (10 R320)
  { base := 0x60200, count := 16, stride := 0x10, rwl := 0x1FFFF, checks := [rg 8 4 0 16] }, -- FLOWFRONT.POLICY_i.PCFG (10 R320)
  { base := 0x60204, count := 16, stride := 0x10, rwl := 0xFFFF }, -- FLOWFRONT.POLICY_i.MODEL (10 R320)
  { base := 0x60208, count := 16, stride := 0x10, rwl := 0x7FFF, reset := 0x2032, checks := [rg 7 0 1 200, rg 14 8 1 64] }, -- FLOWFRONT.POLICY_i.HOLD (10 R320)
  { base := 0x6020C, count := 16, stride := 0x10, rwl := 0xFFFFFFFF, reset := 0x1E0000, checks := [rg 31 16 1 65535] }, -- FLOWFRONT.POLICY_i.TRIG (10 R320)
  { base := 0x60400, count := 8, stride := 0x4, rwl := 0x1FFFFFFF, reset := 0x4000000, checks := [rg 28 16 1 4096] }, -- FLOWFRONT.FILE_PROF_j (10 R320)
  { base := 0x60800, rc := 0xFFFFFFFF }, -- FLOWFRONT.FLOWS_NEW (10 R320)
  { base := 0x60804, rc := 0xFFFFFFFF }, -- FLOWFRONT.FULL_PASS (10 R320)
  { base := 0x60808, rc := 0xFFFFFFFF }, -- FLOWFRONT.FULL_DROP (10 R320)
  { base := 0x6080C, rc := 0xFFFFFFFF }, -- FLOWFRONT.CEIL_PASS (10 R320)
  { base := 0x60810, rc := 0xFFFFFFFF }, -- FLOWFRONT.CEIL_DROP (10 R320)
  { base := 0x60814, rc := 0xFFFFFFFF }, -- FLOWFRONT.HOLD_OVF (10 R320)
  { base := 0x60818, rc := 0xFFFFFFFF }, -- FLOWFRONT.OBS_SCORED (10 R320)
  { base := 0x6081C, rc := 0xFFFFFFFF }, -- FLOWFRONT.OBS_SHED (10 R320)
  { base := 0x60820, rc := 0xFFFFFFFF }, -- FLOWFRONT.TRIG_MERGED (10 R320)
  { base := 0x60824, rc := 0xFFFFFFFF } ] -- FLOWFRONT.VERDICT_INVALID (10 R320)

/-- Registers of the FLOWFRONT block. -/
def regsFlowfront2 : List RegRow := [
  { base := 0x60828, rc := 0xFFFFFFFF }, -- FLOWFRONT.PARSE_MALF (10 R320)
  { base := 0x6082C, rc := 0xFFFFFFFF }, -- FLOWFRONT.PARSE_TRUNC (10 R320)
  { base := 0x60830, rc := 0xFFFFFFFF }, -- FLOWFRONT.NONIP (10 R320)
  { base := 0x60834, rc := 0xFFFFFFFF }, -- FLOWFRONT.POLICY_DROP (10 R320)
  { base := 0x60838, rc := 0xFFFFFFFF }, -- FLOWFRONT.MIRROR_DROP (10 R320)
  { base := 0x6083C, rc := 0xFFFFFFFF }, -- FLOWFRONT.MIRROR_NOPORT (10 R320)
  { base := 0x60840, rc := 0xFFFFFFFF } ] -- FLOWFRONT.FILE_TIMEOUT (10 R320)

/-- Registers of the CONTINUITY block. -/
def regsContinuity : List RegRow := [
  { base := 0x70000 }, -- CONTINUITY.STATUS (11 R346)
  { base := 0x70008, w1c := 0x3 }, -- CONTINUITY.EVENT (11 R346)
  { base := 0x7000C, rwl := 0x3 }, -- CONTINUITY.EVENT_EN (11 R346)
  { base := 0x70010, rc := 0xFFFFFFFF }, -- CONTINUITY.JOBS_PHY (11 R346)
  { base := 0x70014, rc := 0xFFFFFFFF }, -- CONTINUITY.JOBS_OTHER (11 R346)
  { base := 0x70018, rc := 0xFFFFFFFF }, -- CONTINUITY.JOB_ERR (11 R346)
  { base := 0x7001C, rc := 0xFFFFFFFF } ] -- CONTINUITY.PHY_WAIT_MAX (11 R346)

/-- Registers of the MATTE block. -/
def regsMatte : List RegRow := [
  { base := 0x80000 }, -- MATTE.STATUS (11 R346)
  { base := 0x80008, w1c := 0x3 }, -- MATTE.EVENT (11 R346)
  { base := 0x8000C, rwl := 0x3 }, -- MATTE.EVENT_EN (11 R346)
  { base := 0x80010, rc := 0xFFFFFFFF }, -- MATTE.JOBS_PHY (11 R346)
  { base := 0x80014, rc := 0xFFFFFFFF }, -- MATTE.JOBS_OTHER (11 R346)
  { base := 0x80018, rc := 0xFFFFFFFF }, -- MATTE.JOB_ERR (11 R346)
  { base := 0x8001C, rc := 0xFFFFFFFF } ] -- MATTE.PHY_WAIT_MAX (11 R346)

/-- Registers of the CONTINUITY block. -/
def regsContinuity2 : List RegRow := [
  { base := 0x70020, rc := 0xFFFFFFFF } ] -- CONTINUITY.TRACK_LOST (11 R337)

/-- Registers of the MATTE block. -/
def regsMatte2 : List RegRow := [
  { base := 0x80020, rc := 0xFFFFFFFF }, -- MATTE.TILES_FETCHED (11 R342)
  { base := 0x80024, rc := 0xFFFFFFFF } ] -- MATTE.TILES_SKIPPED (11 R342)

/-- Registers of the CODEC block. -/
def regsCodec : List RegRow := [
  { base := 0x90100, count := (2 * Config.nStacks), stride := 0x10, rc := 0xFFFFFFFF }, -- CODEC.RAW_KIB_e (e < 8) (07 R229)
  { base := 0x90180, count := 8, stride := 0x10, rc := 0xFFFFFFFF }, -- CODEC.RAW_KIB_e (e >= 8) (07 R229)
  { base := 0x90104, count := (2 * Config.nStacks), stride := 0x10, rc := 0xFFFFFFFF }, -- CODEC.CODED_KIB_e (e < 8) (07 R229)
  { base := 0x90184, count := 8, stride := 0x10, rc := 0xFFFFFFFF }, -- CODEC.CODED_KIB_e (e >= 8) (07 R229)
  { base := 0x90108, count := (2 * Config.nStacks), stride := 0x10, rc := 0xFFFFFFFF }, -- CODEC.RAW_BLOCKS_e (e < 8) (07 R229)
  { base := 0x90188, count := 8, stride := 0x10, rc := 0xFFFFFFFF }, -- CODEC.RAW_BLOCKS_e (e >= 8) (07 R229)
  { base := 0x9010C, count := (2 * Config.nStacks), stride := 0x10, rc := 0xFFFFFFFF }, -- CODEC.DEC_ERR_e (e < 8) (07 R229)
  { base := 0x9018C, count := 8, stride := 0x10, rc := 0xFFFFFFFF } ] -- CODEC.DEC_ERR_e (e >= 8) (07 R229)

/-- Registers of the POOL block. -/
def regsPool : List RegRow := [
  { base := 0xA0000, rwl := 0x1F, checks := [rg 4 0 0 16] }, -- POOL.ATOM_CFG (07 R228)
  { base := 0xA0004 }, -- POOL.ATOM_SLOTS (07 R228)
  { base := 0xA0008, w1c := 0x7 }, -- POOL.EVENT (07 R228)
  { base := 0xA000C, rwl := 0x7 }, -- POOL.EVENT_EN (07 R228)
  { base := 0xA0010, rc := 0xFFFFFFFF }, -- POOL.CE_COUNT (07 R228)
  { base := 0xA0014, rc := 0xFFFFFFFF }, -- POOL.UE_COUNT (07 R228)
  { base := 0xA0018, rc := 0xFFFFFFFF } ] -- POOL.ATOMIC_COUNT (07 R228)

/-- Registers of the SPLICE block. -/
def regsSplice : List RegRow := [
  { base := 0xB0000, rwl := 0x3FFF }, -- SPLICE.CFG (13 R397)
  { base := 0xB0004 }, -- SPLICE.STATUS (13 R397)
  { base := 0xB0008, w1c := 0x3F }, -- SPLICE.EVENT (13 R397)
  { base := 0xB000C, rwl := 0x3F }, -- SPLICE.EVENT_EN (13 R397)
  { base := 0xB0010, rwl := 0xFFFF07FF, reset := 0x640000, checks := [en 5 2 0 11, en 9 6 0 11, rg 31 16 1 65535], special := .timeCfg }, -- SPLICE.TIME_CFG (13 R383)
  { base := 0xB0014 }, -- SPLICE.TIME_STATUS (13 R384)
  { base := 0xB0018, rwl := 0xFFFF, reset := 0x64, checks := [rg 15 0 1 65535] }, -- SPLICE.ERR_CFG (13 R397)
  { base := 0xB001C, rwl := 0xFFFFFFFF, reset := 0x7D0, checks := [rg 31 0 500 100000] }, -- SPLICE.SLATE_LEAD (13 R397)
  { base := 0xB0020, rwl := 0xFFFFFFFF, reset := 0x3C, checks := [rg 31 0 1 3600] }, -- SPLICE.SLATE_WAIT (13 R397)
  { base := 0xB0024, rc := 0xFFFFFFFF }, -- SPLICE.SLATE_FIRED (13 R397)
  { base := 0xB0028, rc := 0xFFFFFFFF }, -- SPLICE.SLATE_BROKEN (13 R397)
  { base := 0xB002C, rc := 0xFFFFFFFF }, -- SPLICE.DEDUP (13 R397)
  { base := 0xB0030, rc := 0xFFFFFFFF }, -- SPLICE.E2E_GAP (13 R397)
  { base := 0xB0100, count := 12, stride := 0x20, rwl := 0x3 }, -- SPLICE.LINK_CFG_l (13 R397)
  { base := 0xB0104, count := 12, stride := 0x20 }, -- SPLICE.LINK_STATUS_l (13 R397)
  { base := 0xB0108, count := 12, stride := 0x20 }, -- SPLICE.TX_ERR_l (13 R379)
  { base := 0xB010C, count := 12, stride := 0x20 }, -- SPLICE.RX_ERR_l (13 R379)
  { base := 0xB0110, count := 12, stride := 0x20, rc := 0xFFFFFFFF }, -- SPLICE.REPLAYS_l (13 R397)
  { base := 0xB0114, count := 12, stride := 0x20, rc := 0xFFFFFFFF }, -- SPLICE.TX_KIB_l (13 R397)
  { base := 0xB0118, count := 12, stride := 0x20, rc := 0xFFFFFFFF }, -- SPLICE.RX_KIB_l (13 R397)
  { base := 0xB0400, count := 16, stride := 0x10, rwl := 0xF3, special := .group }, -- SPLICE.GROUP_g (13 R386)
  { base := 0xB0404, count := 16, stride := 0x10, rwl := 0x3FFF, special := .groupBase }, -- SPLICE.GROUP_g.BASE (13 R397)
  { base := 0xB0408, count := 16, stride := 0x10, rwl := 0x7FFF, reset := 0x1, checks := [rg 14 0 1 16384], special := .groupSize }, -- SPLICE.GROUP_g.SIZE (13 R397)
  { base := 0xB8000, count := 8192, stride := 0x4, rwl := 0x3FF03FF, checks := [en 3 0 0 11, en 7 4 0 11, en 19 16 0 11, en 23 20 0 11] } ] -- SPLICE.ROUTE_i (13 R377)

/-- Registers of the LINE block. -/
def regsLine : List RegRow := [
  { base := 0xC0000, rwl := 0xFF0F, checks := [en 1 0 0 2] }, -- LINE.CFG (10 R321)
  { base := 0xC0004 }, -- LINE.STATUS (10 R321)
  { base := 0xC0008, rwl := 0xFFFFFFFF }, -- LINE.PTP_MAC_LO (10 R321)
  { base := 0xC000C, rwl := 0xFFFF }, -- LINE.PTP_MAC_HI (10 R321)
  { base := 0xC0100, count := 8, stride := 0x20, rc := 0xFFFFFFFF }, -- LINE.RX_FRAMES_k (10 R321)
  { base := 0xC0104, count := 8, stride := 0x20, rc := 0xFFFFFFFF }, -- LINE.RX_BADFCS_k (10 R321)
  { base := 0xC0108, count := 8, stride := 0x20, rc := 0xFFFFFFFF }, -- LINE.RX_DISCARD_k (10 R321)
  { base := 0xC010C, count := 8, stride := 0x20, rc := 0xFFFFFFFF }, -- LINE.TX_FRAMES_k (10 R321)
  { base := 0xC0110, count := 8, stride := 0x20, rc := 0xFFFFFFFF }, -- LINE.UNSCORED_PASS_k (10 R321)
  { base := 0xC0114, count := 8, stride := 0x20, rc := 0xFFFFFFFF } ] -- LINE.UNSCORED_DROP_k (10 R321)

/-- Registers of the FRONTHAUL block. -/
def regsFronthaul : List RegRow := [
  { base := 0xD0000 }, -- FRONTHAUL.STATUS (08 R254)
  { base := 0xD0004, w1c := 0xF }, -- FRONTHAUL.EVENT (08 R254)
  { base := 0xD0008, rwl := 0xF }, -- FRONTHAUL.EVENT_EN (08 R254)
  { base := 0xD0010, rwl := 0xFFFF, reset := 0x7D0, special := .ta4Min }, -- FRONTHAUL.TA4_MIN (08 R254)
  { base := 0xD0014, rwl := 0xFFFF, reset := 0x1130, checks := [rg 15 0 0 40000], special := .ta4Max }, -- FRONTHAUL.TA4_MAX (08 R254)
  { base := 0xD0018, rwl := 0xFFFFFFFF, reset := 0x65907918, special := .t1aUp }, -- FRONTHAUL.T1A_UP (08 R254)
  { base := 0xD0020, count := 4, stride := 0x4, rwl := 0x3FFFFFC0, special := .ulRing }, -- FRONTHAUL.UL_RING_g (08 R244)
  { base := 0xD0100, count := 8, stride := 0x40, rwl := 0x1FFFFFF, checks := [en 10 9 0 2] }, -- FRONTHAUL.PORT_CFG_p (08 R254)
  { base := 0xD0104, count := 8, stride := 0x40, rwl := 0xF }, -- FRONTHAUL.COMP_p (08 R254)
  { base := 0xD0108, count := 8, stride := 0x40, rwl := 0xFFFF, reset := 0x6442, special := .eaxcSplit }, -- FRONTHAUL.EAXC_SPLIT_p (08 R235)
  { base := 0xD010C, count := 8, stride := 0x40, rwl := 0xFFFFFFFF }, -- FRONTHAUL.MAC_LO_p (08 R254)
  { base := 0xD0110, count := 8, stride := 0x40, rwl := 0xFFFF }, -- FRONTHAUL.MAC_HI_p (08 R254)
  { base := 0xD0114, count := 8, stride := 0x40, rwl := 0xFFFFFFFF }, -- FRONTHAUL.RU_MAC_LO_p (08 R254)
  { base := 0xD0118, count := 8, stride := 0x40, rwl := 0xFFFF }, -- FRONTHAUL.RU_MAC_HI_p (08 R254)
  { base := 0xD0120, count := 8, stride := 0x40, rc := 0xFFFFFFFF }, -- FRONTHAUL.RX_FRAMES_p (08 R254)
  { base := 0xD0124, count := 8, stride := 0x40, rc := 0xFFFFFFFF }, -- FRONTHAUL.RX_DISCARD_p (08 R254)
  { base := 0xD0128, count := 8, stride := 0x40, rc := 0xFFFFFFFF }, -- FRONTHAUL.RX_UNKNOWN_p (08 R254)
  { base := 0xD012C, count := 8, stride := 0x40, rc := 0xFFFFFFFF }, -- FRONTHAUL.UL_EARLY_p (08 R254)
  { base := 0xD0130, count := 8, stride := 0x40, rc := 0xFFFFFFFF }, -- FRONTHAUL.UL_LATE_p (08 R254)
  { base := 0xD0134, count := 8, stride := 0x40, rc := 0xFFFFFFFF }, -- FRONTHAUL.SEQ_GAP_p (08 R254)
  { base := 0xD0138, count := 8, stride := 0x40, rc := 0xFFFFFFFF }, -- FRONTHAUL.TX_DROP_p (08 R254)
  { base := 0xD013C, count := 8, stride := 0x40, rc := 0xFFFFFFFF }, -- FRONTHAUL.BFP_SAT_p (08 R254)
  { base := 0xD0400, count := 128, stride := 0x4, rwl := 0x87FFFFFF } ] -- FRONTHAUL.EAXC_MAP_i (08 R236)

/-- Registers of the MGMT block. -/
def regsMgmt : List RegRow := [
  { base := 0xE0000, reset := 2 }, -- MGMT.BOOT_STATUS: per boot, RUN here (15 R455; log 5)
  { base := 0xE0004, w1c := 0x1F }, -- MGMT.EVENT (15 R454)
  { base := 0xE0008, rwl := 0x1F }, -- MGMT.EVENT_EN (15 R454)
  { base := 0xE0010 }, -- MGMT.MFW_VERSION (15 R454)
  { base := 0xE0014 }, -- MGMT.DMC_VERSION (15 R454)
  { base := 0xE0018 }, -- MGMT.DMC_ABI (15 R454)
  { base := 0xE001C }, -- MGMT.SVN (15 R454)
  { base := 0xE0020, reset := 0x02100000 }, -- MGMT.FUSE_FLOOR: floors 0, 16 rows left of each kind (15 R454; log 5)
  { base := 0xE0024 }, -- MGMT.SLOTS (15 R454)
  { base := 0xE0028 }, -- MGMT.IMG_FAIL (15 R454)
  { base := 0xE0040, count := 8, stride := 0x8 }, -- MGMT.ACCEPT_TOOL_i (15 R454)
  { base := 0xE0044, count := 8, stride := 0x8 }, -- MGMT.ACCEPT_ABI_i (15 R454)
  { base := 0xE0080, rwl := 0x1FFF, reset := 0x101A, checks := [rg 11 0 1 4095] }, -- MGMT.UART_CFG (15 R454)
  { base := 0xE0084, rc := 0xFFFFFFFF }, -- MGMT.UART_RX (15 R454)
  { base := 0xE0088, rc := 0xFFFFFFFF }, -- MGMT.UART_FE (15 R454)
  { base := 0xE008C, rc := 0xFFFFFFFF }, -- MGMT.UART_OVR (15 R454)
  { base := 0xE0090, rc := 0xFFFFFFFF }, -- MGMT.UART_BREAK (15 R454)
  { base := 0xE00A0, reset := 0x33 }, -- MGMT.SMB_ADDR: 0x30 + the straps (15 R446; log 4)
  { base := 0xE00A4 }, -- MGMT.MCTP_EID (15 R454)
  { base := 0xE00A8 }, -- MGMT.PLDM_STATE (15 R454)
  { base := 0xE00C0, reset := 1 }, -- MGMT.JTAG_STATUS: LOCKED as shipped (15 R451)
  { base := 0xE00C4, rc := 0xFFFFFFFF }, -- MGMT.JTAG_DENIED (15 R454)
  { base := 0xE00C8, reset := 0x171649AB } ] -- MGMT.JTAG_IDCODE (15 R450)

/-- Registers of the HBM block. -/
def regsHbm : List RegRow := [
  { base := 0x100000, rwl := mapLockMask, reset := mapReset }, -- HBM_0.MAP (07 R227)
  { base := 0x100004, count := Config.nStacks, stride := 0x40000, rwl := 0x3, reset := 0x3 }, -- HBM_s.CFG (07 R227)
  { base := 0x100008, count := Config.nStacks, stride := 0x40000 }, -- HBM_s.STATUS (07 R227)
  { base := 0x10000C, count := Config.nStacks, stride := 0x40000, w1c := 0xF }, -- HBM_s.EVENT (07 R227)
  { base := 0x100010, count := Config.nStacks, stride := 0x40000, rwl := 0xF }, -- HBM_s.EVENT_EN (07 R227)
  { base := 0x100014, count := Config.nStacks, stride := 0x40000, rwl := 0xFF, reset := 0x14, checks := [rg 7 0 1 255] }, -- HBM_s.WC_CFG (07 R227)
  { base := 0x100018, count := Config.nStacks, stride := 0x40000, rwl := 0xFF, reset := 0x40, checks := [rg 7 0 8 255] }, -- HBM_s.RQ_CFG (07 R227)
  { base := 0x10001C, count := Config.nStacks, stride := 0x40000, rwl := 0xF, reset := 0x4, checks := [rg 3 0 1 8] }, -- HBM_s.RETRY_LIMIT (07 R227)
  { base := 0x100020, count := Config.nStacks, stride := 0x40000, rc := 0xFFFFFFFF }, -- HBM_s.CE_COUNT (07 R227)
  { base := 0x100024, count := Config.nStacks, stride := 0x40000, rc := 0xFFFFFFFF }, -- HBM_s.UE_COUNT (07 R227)
  { base := 0x100028, count := Config.nStacks, stride := 0x40000, rc := 0xFFFFFFFF }, -- HBM_s.RETRY_COUNT (07 R227)
  { base := 0x10002C, count := Config.nStacks, stride := 0x40000, rc := 0xFFFFFFFF }, -- HBM_s.WC_FORCED (07 R227)
  { base := 0x100030, count := Config.nStacks, stride := 0x40000, rc := 0xFFFFFFFF }, -- HBM_s.ATOMIC_COUNT (07 R227)
  { base := 0x100040, count := Config.nStacks, stride := 0x40000, wo := 0x1 }, -- HBM_s.MARGIN_CTRL (07 R226)
  { base := 0x100044, count := Config.nStacks, stride := 0x40000, rwl := 0x7FF }, -- HBM_s.MARGIN_SEL (07 R227)
  { base := 0x100048, count := Config.nStacks, stride := 0x40000, rwl := 0xFFFFF, reset := 0x10000, special := .marginRange }, -- HBM_s.MARGIN_RANGE (07 R227)
  { base := 0x10004C, count := Config.nStacks, stride := 0x40000, rwl := 0xFFFF, reset := 0x400, checks := [rg 15 0 1 65535] }, -- HBM_s.MARGIN_CFG (07 R227)
  { base := 0x100050, count := Config.nStacks, stride := 0x40000 }, -- HBM_s.MARGIN_RESULT_0 (07 R227)
  { base := 0x100054, count := Config.nStacks, stride := 0x40000 }, -- HBM_s.MARGIN_RESULT_1 (07 R227)
  { base := 0x100058, count := Config.nStacks, stride := 0x40000 }, -- HBM_s.MARGIN_RESULT_2 (07 R227)
  { base := 0x10005C, count := Config.nStacks, stride := 0x40000 }, -- HBM_s.MARGIN_RESULT_3 (07 R227)
  { base := 0x100060, count := Config.nStacks, stride := 0x40000 } ] -- HBM_s.MARGIN_TRAINED (07 R227)

/-- Registers of the TILE block. -/
def regsTile : List RegRow := [
  { base := 0x200000, count := Config.nTiles, stride := 0x10000 }, -- TILE_n.ID (04 R136)
  { base := 0x200004, count := Config.nTiles, stride := 0x10000 }, -- TILE_n.STATUS (04 R136)
  { base := 0x200008, count := Config.nTiles, stride := 0x10000, w1c := 0x1F }, -- TILE_n.EVENT (04 R136)
  { base := 0x20000C, count := Config.nTiles, stride := 0x10000, rwl := 0x1F }, -- TILE_n.EVENT_EN (04 R135)
  { base := 0x200010, count := Config.nTiles, stride := 0x10000, rc := 0xFFFFFFFF }, -- TILE_n.CUT_COUNT (04 R135)
  { base := 0x200014, count := Config.nTiles, stride := 0x10000, rc := 0xFFFFFFFF }, -- TILE_n.CUT_WAIT (04 R135)
  { base := 0x200018, count := Config.nTiles, stride := 0x10000, rc := 0xFFFFFFFF }, -- TILE_n.DRAIN_WAIT (04 R135)
  { base := 0x20001C, count := Config.nTiles, stride := 0x10000, rc := 0xFFFFFFFF }, -- TILE_n.BANK_STALL (04 R135)
  { base := 0x200020, count := Config.nTiles, stride := 0x10000, rc := 0xFFFFFFFF }, -- TILE_n.LS_CE_COUNT (04 R135)
  { base := 0x200024, count := Config.nTiles, stride := 0x10000, rc := 0xFFFFFFFF }, -- TILE_n.EMPTY_PASS (04 R135)
  { base := 0x200028, count := Config.nTiles, stride := 0x10000, rwl := 0xFFFF, reset := 0x3E8 }, -- TILE_n.LS_SCRUB (04 R135)
  { base := 0x200040, count := Config.nTiles, stride := 0x10000 }, -- TILE_n.CC_STATUS (05 R171)
  { base := 0x200044, count := Config.nTiles, stride := 0x10000 }, -- TILE_n.CC_EXC (05 R171)
  { base := 0x200048, count := Config.nTiles, stride := 0x10000 }, -- TILE_n.CC_EXC_PC0 (05 R171)
  { base := 0x20004C, count := Config.nTiles, stride := 0x10000 }, -- TILE_n.CC_EXC_PC1 (05 R171)
  { base := 0x200050, count := Config.nTiles, stride := 0x10000, rc := 0xFFFFFFFF }, -- TILE_n.CC_SQUASH (05 R171)
  { base := 0x200054, count := Config.nTiles, stride := 0x10000, rc := 0xFFFFFFFF }, -- TILE_n.CC_SU_HOLD (05 R171)
  { base := 0x200060, count := Config.nTiles, stride := 0x10000 }, -- TILE_n.DOLLY_STATUS (06 R198)
  { base := 0x200064, count := Config.nTiles, stride := 0x10000 }, -- TILE_n.DOLLY_ERR (06 R198)
  { base := 0x200068, count := Config.nTiles, stride := 0x10000, rc := 0x1FF } ] -- TILE_n.DOLLY_PEAK (06 R198)

/-- Every register of the device. -/
def regTable : List RegRow :=
  regsGlobal ++ regsHost ++ regsTime ++ regsTime2 ++ regsDirector ++ regsDirector2 ++ regsGaffer ++ regsFault ++ regsFlowfront ++ regsFlowfront2 ++ regsContinuity ++ regsMatte ++ regsContinuity2 ++ regsMatte2 ++ regsCodec ++ regsPool ++ regsSplice ++ regsLine ++ regsFronthaul ++ regsMgmt ++ regsHbm ++ regsTile

/-- Whether a row holds the register at offset `o`. -/
def rowHas (o : Nat) (r : RegRow) : Bool :=
  decide (r.base ≤ o) && decide ((o - r.base) % r.stride = 0) && decide ((o - r.base) / r.stride < r.count)

/-- The row of the register at offset `o`; none where the offset is undefined (R11). -/
def regRow (o : Nat) : Option RegRow := regTable.find? (rowHas o)

/-- TILE_n.ID: [2:0] column, [5:3] row, [9:8] LANES = 1 for 64 lanes (04 R136). -/
def tileIdReset (n : Nat) : Word := .ofNat 32 (n % 8 + 8 * (n / 8) + 0x100)

/-- The reset value of the register at offset `o`. -/
def regReset (o : Nat) : Word :=
  if decide (0x200000 ≤ o) && decide (o % 0x10000 = 0) && decide ((o - 0x200000) / 0x10000 < Config.nTiles) then
    tileIdReset ((o - 0x200000) / 0x10000)
  else match regRow o with
    | some r => r.reset
    | none => 0

end Sys2Proof.Machine
end

