-- ==== Sys2Proof/Machine/State.lean ====
section
/-! DEFINITION. The state of the block: every register, store, queue, buffer, counter and pin that the spec names,
as plain data, and the queue of commands that wait. `State.reset` is the device right after reset. -/

namespace Sys2Proof.Machine

/-- Reasons a step stops with a fault. No command of this block does: the spec gives every one of them an effect. -/
inductive Fault where
  /-- Raised by nobody: kept so that the type is inhabited. Safe. -/
  | unreachable
  deriving DecidableEq, Repr

/-- Reasons a step is refused. -/
inductive Refusal where
  /-- The command has no meaning yet in this model. Raised by the dispatcher alone. Safe. -/
  | notModelled (mnemonic : String)
  deriving DecidableEq, Repr

/-- Ethernet header of a fronthaul frame sent: destination, and PCP and VID of its 802.1Q tag (08 R230, R254). -/
structure FhHdr where
  dst : BitVec 48
  src : BitVec 48
  tag : Option (BitVec 3 × BitVec 12)
  deriving DecidableEq, Repr

/-- Extension 1 of a C-plane section: beamforming weights, I and Q mantissas of each with their exponent, at the port's downlink
width; extension 6: resource-block groups of an allocation that is not contiguous (08 R238). -/
structure CExt where
  weights : Option (Nat × Nat × List Int)
  groups : Option (BitVec 28)
  deriving DecidableEq, Repr

/-- A section of a C-plane message (08 R237). -/
structure CSection where
  id : BitVec 12
  rb : Bool
  symInc : Bool
  startPrb : Nat
  numPrb : Nat
  reMask : BitVec 12
  numSymbol : Nat
  ef : Bool
  beamId : BitVec 15
  ext : CExt
  deriving DecidableEq, Repr

/-- timeOffset, frameStructure and cpLength of a section type 3 message (08 R237). -/
structure CType3 where
  timeOffset : BitVec 16
  frameStructure : Byte
  cpLength : BitVec 16
  deriving DecidableEq, Repr

/-- What the device sends outward. The model's own log of it, newest last. -/
inductive Output where
  /-- a posted write to host memory with a function's requester ID (03 R77, R95) -/
  | hostWrite (f : FuncIx) (addr : Dword) (bytes : List Byte)
  /-- a read of host memory under a function's requester ID: first address and bytes (03 R77) -/
  | hostRead (f : FuncIx) (addr : Dword) (len : Nat)
  /-- an MSI-X message to an entry of a function's table (03 R101, R102) -/
  | msix (f : FuncIx) (vec : Nat)
  /-- the data of a register or doorbell-page read, lowest address first (00 R7, 03 R81) -/
  | readData (bytes : List Byte)
  /-- data returned by a read of device memory -/
  | memData (bytes : List Byte) (poisoned : Bool)
  /-- a frame leaving a line port (10) -/
  | lineTx (port : Nat) (frame : List Byte)
  /-- a downlink U-plane message of one section: its PRBs, each with its udCompParam byte (08 R239, R246) -/
  | fhUplane (port : Nat) (hdr : FhHdr) (eaxc : BitVec 16) (seq : Byte) (frame subframe slot symbol startPrb numPrb : Nat) (payload : List Byte)
  /-- a C-plane message: section type, header fields, and the sections behind them (08 R237) -/
  | fhCplane (port : Nat) (hdr : FhHdr) (eaxc : BitVec 16) (seq : Byte) (sectionType : Nat) (downlink : Bool) (version : Nat)
      (filter : BitVec 4) (frame subframe slot startSymbol compHdr : Nat) (type3 : Option CType3) (sections : List CSection)
  /-- an eCPRI delay-measurement message: action type, ID, timestamp in ns since the PTP epoch and compensation value (08 R234) -/
  | fhDelay (port : Nat) (hdr : FhHdr) (action measId : Byte) (stamp : Nat) (comp : Nat)
  /-- a PTP message of a fronthaul port or of the slave port: whether its destination is 01-80-C2-00-00-0E, source address,
  message type, seconds, ns, 2^-16 ns, clockClass, UTC offset, domain (02 R57–R63) -/
  | ptp (port : Nat) (peer : Bool) (src : BitVec 48) (msg : Nat) (sec : BitVec 48) (ns : Word) (frac16 : Nat) (clockClass : Byte) (utc : BitVec 16)
      (domain : Byte)
  /-- a Splice message leaving by a link (13) -/
  | splice (link : Nat) (m : SMsg)
  /-- a Splice link-layer act: training request, replay from a flit, calibration exchange (13 R378, R379) -/
  | spliceLink (link : Nat) (what : Nat) (arg : Nat)
  /-- a pin driven high for a number of µs (02 R64) -/
  | pulse (name : Nat) (us : Nat)
  /-- a pin driven to a level -/
  | pin (name : Nat) (level : Bool)
  /-- bytes of an SMBus answer: MCTP control, PLDM or SPDM (15) -/
  | smb (proto : Nat) (code : Byte) (bytes : List Byte)
  /-- a frame of the recovery console on the UART (15 R445) -/
  | uart (bytes : List Byte)
  /-- a value shifted out of the JTAG port (15 R450) -/
  | jtag (bits : Nat) (v : Nat)
  /-- an AVS command to the board regulator: millivolts (16 R459) -/
  | avs (mv : Nat)
  deriving DecidableEq, Repr

/-- The device-time counter and its sub-fraction accumulator (02 R34). -/
structure Counter where
  /-- TAI seconds -/
  sec : BitVec 48
  /-- nanoseconds, below 10^9 -/
  ns : Word
  /-- units of 2^-32 ns -/
  frac : Word
  /-- units of 2^-42 ns -/
  sub : BitVec 10
  deriving DecidableEq, Repr

/-- Why the single step is armed (02 R40, R44). -/
inductive Arming where
  | ptp | pps
  deriving DecidableEq, Repr

/-- Time state that is in no register (02). -/
structure TimeS where
  /-- the counter of Polwen die 0, from which all device time comes (01 R14) -/
  counter : Counter
  /-- how far the follower counters of Polwen die 1 and of the main die stand ahead of it, in 2^-42 ns units (02 R38) -/
  lag1 : Int
  lagMain : Int
  arming : Arming
  /-- seconds that a TIME_REARM supplied for the next 1PPS edge (R44) -/
  ppsSec : Option (BitVec 48)
  /-- consecutive measurements within LOCK_WINDOW (R39) -/
  inWindow : Nat
  /-- consecutive accepted measurements in HOLDOVER (R43) -/
  accepted : Nat
  /-- clk at the entry to HOLDOVER -/
  holdSince : Nat
  /-- grids that run: bit g (R51) -/
  running : BitVec 4
  /-- t_resume of each grid while a scene change lasts, in 2^-42 ns units since the PTP epoch (R46) -/
  tResume : Tab Nat
  /-- t1 of the scene change in the same units -/
  sceneT1 : Nat
  /-- chains fired: their (grid, SFN, slot, kind) as one number, whose last bit tells that a step came after, and clk then
  (R47 item 4) -/
  fired : List (Nat × Nat)
  /-- clk of the last Sync, the last Announce and the last 1PPS edge (R43) -/
  lastSync : Nat
  lastAnnounce : Nat
  lastPps : Nat
  /-- what the parent's Announce told (R63) -/
  parentClass : Byte
  parentUtc : Option (BitVec 16)
  /-- the source counts as lost (R43) -/
  srcLost : Bool
  /-- increments held in LOCKED, newest first: (ticks, total increment) (R66 learning interval) -/
  learn : List (Nat × Nat)
  /-- clk from which the newest piece of the learning interval counts -/
  learnFrom : Nat
  /-- one-second intervals in LOCKED of the selected reference, newest first: the total increment and the cycles of the
  reference in 1 s of the time clock (R66) -/
  learnRef : List (Nat × Nat)
  /-- HO_OSC_IN is judged against 20 MHz (16 R465) -/
  osc20 : Bool
  /-- validity of the 10 MHz and holdover-oscillator references (16 R465) -/
  refValid : BitVec 2
  deriving DecidableEq, Repr

/-- A completion or event record before its PHASE, stamps and flags are known (03 R91). -/
structure Rec where
  event : Bool
  interim : Bool
  status : Nat
  disp : Nat
  cls : Nat
  tag8 : Byte
  ring : Nat
  descIndex : BitVec 16
  result : Dword
  progress : Word
  faultRef : Word
  urgent : Bool
  deriving DecidableEq, Repr

/-- Data writes of a piece of work and the record that follows them, where one does (03 R100 item 4). -/
structure Batch where
  data : List (Dword × List Byte)
  record : Option Rec
  deriving DecidableEq, Repr

/-- Ring-pair state that is in no register (03). -/
structure PairS where
  /-- completion slots reserved for final records (R93) -/
  reserved : Nat := 0
  /-- lap of the submission and completion index above their 16 bits (R86, R91) -/
  sqWrap : Bool := false
  cqWrap : Bool := false
  /-- events that fell due on the ring (R91) -/
  eventSeq : BitVec 16 := 0
  /-- an event record was lost since the last record written (R94) -/
  lost : Bool := false
  /-- the interrupt is armed (R101) -/
  armed : Bool := false
  /-- records written since the ring last signalled (R101) -/
  unsignalled : Nat := 0
  /-- clk of the first of them -/
  firstPending : Nat := 0
  /-- the last record written was urgent or an error (R101) -/
  lastUrgent : Bool := false
  /-- producer index written before the lock (R31) -/
  latched : Option (BitVec 16) := none
  /-- re-reads made of the descriptor at the consumer index (R86) -/
  retries : Nat := 0
  /-- clk of the last read of it -/
  readAt : Nat := 0
  /-- the descriptor at the consumer index has been read and waits behind its FENCE (R92) -/
  atFence : Bool := false
  /-- enabled, and not disabled by the checks of the lock (R103) -/
  live : Bool := false
  /-- committed HORIZON of the recovery ledger (14 R419) -/
  horizon : BitVec 16 := 0
  /-- work that is ready to write but waits for Bus Master Enable (R79) -/
  waiting : List Batch := []
  deriving DecidableEq, Repr

/-- What is held: a write or message as it will leave, or a record, which is stamped when its first write is issued (03 R96). -/
inductive HeldOut where
  | out (o : Output)
  | record (f : FuncIx) (addr : Dword) (phase lost : Bool) (r : Rec)
  deriving DecidableEq, Repr

/-- A write or message held while Bus Master Enable is clear, with its pair (03 R79). -/
structure Held where
  pair : Nat
  out : HeldOut
  deriving DecidableEq, Repr

/-- Address and data of an entry of an MSI-X table (03 R72); its Mask bit is in FuncS. -/
structure MsixEntry where
  addr : Dword := 0
  data : Word := 0
  deriving DecidableEq, Repr

/-- What Device Control of a function selects (03 R71): payload and read request sizes in bytes, and whether relaxed
ordering and no snoop are enabled; reset as PCI Express says (log 95). -/
structure DevCtl where
  maxPayload : Nat := 128
  maxRead : Nat := 512
  relaxed : Bool := true
  noSnoop : Bool := true
  deriving DecidableEq, Repr

/-- State of one PCIe function (03 R71, R79, R80, R101). -/
structure FuncS where
  /-- Bus Master Enable -/
  bme : Bool := false
  /-- clk at which it was last cleared -/
  bmeAt : Nat := 0
  /-- VF enabled (unused in the PF) -/
  enabled : Bool := false
  /-- in Function Level Reset -/
  inFlr : Bool := false
  /-- vectors whose Mask bit is clear -/
  unmasked : List Nat := []
  /-- vectors whose pending bit is set -/
  pba : List Nat := []
  /-- doorbell pages of a VF: the pairs counted at the lock (R72) -/
  pages : List PairIx := []
  held : List Held := []
  /-- the MSI-X table by entry -/
  table : Tab MsixEntry := []
  ctl : DevCtl := {}
  deriving DecidableEq, Repr

/-- A consumed descriptor without its final record (03 R92). -/
structure Flight where
  ref : DRef
  desc : BitVec 512
  /-- its opcode's row has accepted it: it waits in a queue, is armed or runs -/
  started : Bool
  deriving DecidableEq, Repr

/-- An exact value with its special-value flags (04 R121, R122). -/
structure Exact where
  value : BitVec 640 := 0
  nan : Bool := false
  pinf : Bool := false
  ninf : Bool := false
  deriving DecidableEq, Repr

/-- One context slot of a matrix array (04 R107). -/
structure Ctx where
  /-- weight bytes as loaded: array row r holds keys 64 r to 64 r + 63 (R115) -/
  weights : Tab Byte := []
  word : Word := 0
  /-- accumulators: key 32 row + column (R110) -/
  acc : Tab Word := []
  exact : Tab Exact := []
  phy : Bool := false
  deriving DecidableEq, Repr

/-- A shadow load of an array (04 R115): its thread, whether PHY call-sheet code issued it, and the index of its MLOAD. -/
inductive ShadowLoad where
  | idle
  /-- waits for the shadow context to drain -/
  | waiting (addr : Nat) (word : Word) (thr : Thr) (phy : Bool) (pc : BitVec 15)
  /-- runs: bytes as read from the local store -/
  | loading (bytes : List Byte) (word : Word) (thr : Thr) (phy : Bool)
  deriving DecidableEq, Repr

/-- An operation of a matrix array with the operands that its thread gave it (05 R142, R152). -/
inductive MatKind where
  | load (addr : Nat) (word : Word) (phy : Bool)
  /-- wavefronts from `addr` stepped by `step` into rows from `row`; the image and role whose mask table serves -/
  | pass (addr : Nat) (step : Int) (row count : Nat) (acc : Bool) (image role : Nat)
  | read (addr : Nat) (par : Word) (sat : Bool)
  | clear (par : Word)
  deriving DecidableEq, Repr

/-- A matrix operation queued at its unit: its thread and the index of its instruction (05 R166, R167). -/
structure MatOp where
  thr : Thr
  pc : BitVec 15
  kind : MatKind
  deriving DecidableEq, Repr

/-- One matrix array (04 R107). -/
structure MArray where
  slot0 : Ctx := {}
  slot1 : Ctx := {}
  /-- the active slot -/
  active : Bool := false
  load : ShadowLoad := .idle
  /-- operations issued to the array that have not started, oldest first (05 R166, R167) -/
  queue : List MatOp := []
  deriving DecidableEq, Repr

/-- A level of the loop stack (05 R157). -/
structure LoopLevel where
  start : BitVec 15
  stop : BitVec 15
  count : Nat
  deriving DecidableEq, Repr

/-- What a thread waits for (05 R168, R167, R178; 04 R117). -/
inductive Wait where
  | rpush (reel : Nat) (handle : BitVec 16)
  | rpop (reel : Nat) (dst : Fin 16)
  /-- a cue: its time in 2^-42 ns units, whether C1 gets the slots -/
  | cue (time : Nat) (offer : Bool)
  | sync (units : Byte)
  | cut (amask : BitVec 4)
  /-- a reel access that was rejected: until the fault unit acts -/
  | rejected
  deriving DecidableEq, Repr

/-- Whether a thread runs (05 R147, R170). -/
inductive RunState where
  | stopped
  | running
  /-- HALT has retired; the director has not yet been told -/
  | halting
  | waiting (w : Wait)
  deriving DecidableEq, Repr

/-- Which work a thread runs. -/
inductive Owner where
  | none
  /-- the chain of a PHY descriptor and the index of its step -/
  | chain (r : DRef) (step : Nat)
  /-- scoring item number -/
  | item (n : Nat)
  /-- the running job of a TAKE partition -/
  | job (p : Fin 8)
  deriving DecidableEq, Repr

/-- One hardware thread of a control core (05 R145–R147). -/
structure Thread where
  run : RunState := .stopped
  owner : Owner := .none
  /-- number of the loaded image whose code runs -/
  image : Nat := 0
  role : Nat := 0
  d : Tab Word := []
  acc : Tab (BitVec 72) := []
  h : Tab Word := []
  s : Tab Word := []
  w : Tab Word := []
  e : Tab Word := []
  pc : BitVec 15 := 0
  loops : List LoopLevel := []
  calls : List (BitVec 15) := []
  /-- [0] Z, [1] N, [2] C, [3] SV -/
  flags : BitVec 4 := 0
  amode : Byte := 0
  /-- AMODE before the last MTS, and how many instructions had passed stage A by then and still use it (05 R156) -/
  amodeWas : Byte := 0
  amodeLate : Nat := 0
  epoch : BitVec 2 := 0
  /-- CYCLE when it was last read (05 R146) -/
  cycle : Word := 0
  tnowSec : Word := 0
  deriving DecidableEq, Repr

/-- What the reduction unit holds (04 R129, R130). -/
structure RedUnit where
  /-- per lane: the value accumulated or winning, in the lane type's bits -/
  val : Tab Word := []
  idx : Tab Word := []
  ex : Tab Exact := []
  /-- vectors taken in this reduction -/
  count : Word := 0
  /-- holds state that has not been cleared -/
  busy : Bool := false
  op : Nat := 0
  typ : Nat := 0
  exact : Bool := false
  deriving DecidableEq, Repr

/-- A Dolly transfer of at most 256 bytes (06 R174), and for a codec stream the block that it moves a part of. -/
structure Xfer where
  src : Nat
  dst : Nat
  len : Nat
  blk : Nat := 0
  deriving DecidableEq, Repr

/-- How a Dolly descriptor moves its data (06 R172, 07 R217). -/
inductive DollyMove where
  | copy
  | fill (pattern : Word)
  | encode
  | decode
  deriving DecidableEq, Repr

/-- The descriptor of a list that is being processed (06 R172–R176). -/
structure DollyJob where
  move : DollyMove
  last : Bool
  /-- PUSH: the reel and the handle -/
  push : Option (Nat × BitVec 16)
  /-- transfers not issued yet and those outstanding, oldest first -/
  todo : List Xfer
  outstanding : List Xfer
  /-- next block of a codec stream: source, destination, raw bytes left (07 R217) -/
  stream : Xfer
  /-- local-store offset of the descriptor, by which its blocks are known at the codec engine -/
  id : Nat
  /-- codec engine that serves the stream, and blocks that have entered its input queue (07 R216, R224) -/
  engine : Nat
  fed : Nat
  deriving DecidableEq, Repr

/-- A descriptor list that Dolly processes (06 R172). -/
structure DollyList where
  thr : Thr
  base : Nat
  /-- position of the descriptor in the list -/
  pos : Nat
  /-- descriptors started and not complete, in list order -/
  jobs : List DollyJob
  /-- a descriptor that waits at its source reel -/
  atReel : Option Nat
  /-- the list has started its LAST descriptor -/
  ended : Bool
  /-- class and work of the thread that kicked it (06 R175) -/
  cls : Nat
  owner : Owner
  deriving DecidableEq, Repr

/-- One tile (04, 05, 06). -/
structure Tile where
  a0 : MArray := {}
  a1 : MArray := {}
  a2 : MArray := {}
  a3 : MArray := {}
  v : Tab (BitVec 2048) := []
  m : Tab (BitVec 64) := []
  ru : RedUnit := {}
  /-- program store (05 R141) -/
  prog : Tab Word := []
  c0 : Thread := {}
  c1 : Thread := {}
  dolly : List DollyList := []
  /-- stalls under a sag warning (12 R358) -/
  stalled : Bool := false
  deriving DecidableEq, Repr

/-- A handle on a reel, with the thread that pushed it or whose Dolly list did, its class and work: what an engine that
pops it needs (11 R325). -/
structure Handle where
  h : BitVec 16
  tile : Option TileIx := none
  cls : Nat := 0
  phy : Bool := false
  owner : Owner := .none
  deriving DecidableEq, Repr

/-- One reel (06 R177). -/
structure Reel where
  q : List Handle := []
  ovf : Bool := false
  /-- number of the loaded image that owns it -/
  owner : Option Nat := none
  /-- tiles that may push and pop, bit n for tile n -/
  prod : BitVec 64 := 0
  cons : BitVec 64 := 0
  /-- engine producer code -/
  engine : Byte := 0
  deriving DecidableEq, Repr

/-- An entry of an image's buffer table (06 R180 TYPE 4). -/
structure BufEnt where
  addr : Nat
  len : Nat
  kind : Nat
  role : Nat
  deriving DecidableEq, Repr

/-- An entry of a STEPS section (06 R183). -/
structure StepEnt where
  role : Nat
  chain : Nat
  entry : BitVec 15
  symbol : Nat
  last : Bool
  offset : Int
  check : Nat
  deadline : Int
  deriving DecidableEq, Repr

/-- An entry of a WINDOWS section (06 R191). -/
structure WinEnt where
  role : Nat
  amask : BitVec 4
  step : Nat
  release : Nat
  opens : Nat
  close : Nat
  deriving DecidableEq, Repr

/-- An entry of a REELTAB section (06 R180 TYPE 5). -/
structure ReelEnt where
  prod : BitVec 64
  cons : BitVec 64
  engine : Byte
  deriving DecidableEq, Repr

/-- A call-sheet or model image as the director reads it (06 R180). -/
structure Image where
  kind : Nat
  tool : Word
  abi : Word
  roles : Nat
  standbyOk : Bool
  overlap : Nat
  lsBytes : Nat
  poolBytes : Nat
  reels : Nat
  buffers : Nat
  fMin : Nat
  hbmMin : Nat
  /-- CODE of each role -/
  code : List (Nat × List Word)
  codeSu : Option (List Word)
  masktab : List (Nat × List Byte)
  buftab : List BufEnt
  reeltab : List ReelEnt
  /-- RELOC words of each role -/
  reloc : List (Nat × List Word)
  steps : List StepEnt
  windows : List WinEnt
  /-- the whole image -/
  raw : List Byte
  deriving DecidableEq, Repr

/-- How a loaded image stands (06 R186, R187). -/
inductive LoadState where
  | active
  /-- staged behind the active sheet: grid and SFN of the switch -/
  | staged (grid : GridIx) (sfn : BitVec 10)
  /-- superseded or unloaded: freed when its last work has ended -/
  | releasing
  /-- a model whose role found no tile (14 R403) -/
  | lost
  deriving DecidableEq, Repr

/-- A checkpoint token with what a restart needs (14 R405). -/
structure Token where
  layer : Nat
  model : BitVec 16
  serial : Byte
  buf : Bool
  digest : BitVec 16
  deriving DecidableEq, Repr

/-- A loaded image with its binding (06 R181). -/
structure Loaded where
  /-- the model's own number of the load -/
  num : Nat
  /-- SHEET_ID or MODEL_ID -/
  id : BitVec 16
  part : Nat
  img : Image
  state : LoadState
  /-- tile of each role -/
  tiles : List Nat
  /-- physical reel of each logical reel -/
  reels : List Nat
  c1 : Bool
  /-- the copy of the image kept in HBM, its descriptor templates with physical reels (06 R181, 14 R403) -/
  copy : List Byte
  /-- largest HBM share of its claims, in 0.1 % (06 R185) -/
  hbmShare : Nat
  /-- current checkpoint token of the model's last job (14 R405) -/
  token : Option Token
  deriving DecidableEq, Repr

/-- How an armed step stands (06 R188, R189). -/
inductive StepState where
  | armed | running | done
  deriving DecidableEq, Repr

/-- A step of an armed chain. -/
structure StepRun where
  ent : StepEnt
  ix : Nat
  tile : Nat
  /-- cue time, in 2^-42 ns units -/
  cue : Nat
  state : StepState
  /-- device time at which C0 halted, in the same units (06 R189) -/
  haltAt : Option Nat
  /-- the landing bitmaps at its cue, by place, stream and symbol, of an uplink chain (08 R245 Edge) -/
  seen : List (List Byte)
  deriving DecidableEq, Repr

/-- An entry of the HARQ store (09 R262): the soft bits of each code block. -/
structure Harq where
  grid : GridIx
  rnti : BitVec 16
  proc : BitVec 4
  soft : List (List Byte)
  /-- the transport block has passed (R263) -/
  passed : Bool
  deriving DecidableEq, Repr

/-- A code block with its delivered result (09 R262–R270): it failed its CRC on the first path, was retaken, failed beyond the
retake budget, passed in the end; its information bits; the sum of |LLR| that entered stage 7 first, and of how many. -/
structure CbGot where
  pdu : Nat
  cb : Nat
  fail1 : Bool
  taken : Bool
  skipped : Bool
  pass : Bool
  bits : List Bool
  mag : Nat
  count : Nat
  deriving DecidableEq, Repr

/-- A preamble that a configuration's search has detected (09 R274): its level, the bin and power of its peak, and the noise floor
that normalises it. -/
structure RaHit where
  index : Byte
  level : Nat
  bin : Nat
  peak : Nat
  floor : Nat
  deriving DecidableEq, Repr

/-- What the steps of an armed chain have delivered (09 R260–R275). -/
structure Got where
  /-- symbols read from the landing area, each with the bitmap of every stream of the channel -/
  reads : List (Nat × List (Nat × List Byte)) := []
  cbs : List CbGot := []
  /-- allocations whose stage 6 has begun, each with its REASON of 0, 3 or 4 -/
  begun : List (Nat × Nat) := []
  meas : List (Nat × Byte × BitVec 16) := []
  uci : List (Nat × List Byte) := []
  srs : List (Nat × List Byte) := []
  /-- configurations searched to the end -/
  found : List (Nat × List RaHit) := []
  staged : List Nat := []
  /-- the HARQ store as it was before the chain's first stage 6 -/
  before : Option (List Harq) := none
  deriving DecidableEq, Repr

/-- A PHY descriptor's chain that the director has armed (06 R188, 09 R255). -/
structure Chain where
  ref : DRef
  /-- the loaded image it runs -/
  image : Nat
  grid : GridIx
  sfn : BitVec 10
  slot : BitVec 5
  chain : Nat
  steps : List StepRun
  /-- start of symbol 0 of the slot and the deadline, in 2^-42 ns units (06 R183) -/
  t0 : Nat
  deadline : Nat
  /-- a cue of it has fired -/
  fired : Bool
  pdus : List FapiPdu
  /-- transport blocks bound to its PDSCH PDUs, by index of the PDU (09 R259) -/
  bound : List (Nat × List Byte)
  /-- number of the pack it runs on, none for the classical path, and why (09 R265 PATH 2 or 3) -/
  pack : Option Nat
  /-- OPW2.RUSHES of an uplink request (09 R256) -/
  rushes : Bool
  got : Got
  /-- the LAST step has halted or the deadline cue has come -/
  ended : Bool
  deriving DecidableEq, Repr

/-- Where a scoring item comes from (12 R353, 10 R308). -/
inductive ItemSrc where
  /-- a flow record's trigger, with the trigger's cause -/
  | flow (rec : Nat) (cause : Nat)
  | desc (r : DRef)
  /-- an open or extracted file -/
  | file (id : Nat)
  deriving DecidableEq, Repr

/-- A scoring item queued or running in a SCORE partition or as second unit (06 R190, 12 R353). -/
structure Item where
  num : Nat
  src : ItemSrc
  cls : Nat
  image : Nat
  part : Nat
  /-- units of it and units already written -/
  total : Nat
  done : Nat
  /-- tile and thread it runs on -/
  on : Option (TileIx × Thr)
  /-- what it scores: feature vectors of 128 bytes (10 R298, R311), or the chunks of a file -/
  input : List Byte
  /-- output words already written, for descriptors -/
  out : List Word
  /-- clk at which the window that last held it closed, once parked (06 R193) -/
  parkedAt : Option Nat
  /-- the director has stopped C1 and waits for its operations: the status that stopped the item, 0 for none, and what its
  eviction cost, in cycles (06 R193) -/
  leaving : Option (Nat × Nat)
  /-- a SAG_SHED interim record has been written in this assertion (12 R359) -/
  sagTold : Bool
  deriving DecidableEq, Repr

/-- The host-visible part of a window that the director has opened or released on a tile (06 R192). -/
structure WinRun where
  tile : Nat
  ref : DRef
  win : WinEnt
  /-- time of the step's cue, 2^-42 ns units -/
  cue : Nat
  released : Bool
  /-- arrays whose shadow load by C1 has completed since RELEASE -/
  loaded : BitVec 4
  /-- arrays cut to the item at OPEN -/
  opened : BitVec 4
  /-- arrays not yet taken back -/
  held : BitVec 4
  deriving DecidableEq, Repr

/-- An atomic operation on its way to its home (07 R209, R214). -/
structure AtomOp where
  tile : TileIx
  thr : Thr
  addr : Nat
  /-- 0 add, 1 minimum, 2 maximum -/
  op : Nat
  /-- 0 FP32, 1 BF16, 2 INT32, 3 INT64 -/
  typ : Nat
  val : Dword
  deriving DecidableEq, Repr

/-- A write-combining entry: a 64-byte line, its byte mask and bytes (07 R204). -/
structure WcEntry where
  line : Nat
  mask : BitVec 64
  data : BitVec 512
  /-- clk at which it was made -/
  born : Nat
  deriving DecidableEq, Repr

/-- A request of a Dolly transfer in the reorder queue of an HBM pseudo-channel (07 R203): whose it is, the bytes it goes to, its
class, and clk when it came. -/
structure RqReq where
  tile : TileIx
  thr : Thr
  addr : Nat
  len : Nat
  cls : Nat
  born : Nat
  deriving DecidableEq, Repr

/-- A pseudo-channel: its reorder queue, oldest first, the open row of each bank, and the grants made since `since`, to PHY
requests and in all (07 R203). -/
structure PcQueue where
  queue : List RqReq := []
  rows : Tab Nat := []
  since : Nat := 0
  phy : Nat := 0
  all : Nat := 0
  deriving DecidableEq, Repr

/-- A block of a codec stream at an engine (07 R224): tile, thread and descriptor of the stream, the block's number in it, and
the class it was accepted under. -/
structure CodecBlk where
  tile : TileIx
  thr : Thr
  id : Nat
  blk : Nat
  deriving DecidableEq, Repr

/-- A block that an engine has put out: what is written where, and whether with poison (07 R222, R224). -/
structure CodecOut where
  blk : CodecBlk
  dst : Nat
  bytes : List Byte
  bad : Bool
  deriving DecidableEq, Repr

/-- An HBM read that is held while its controller trains or its pseudo-channel margins (07 R202, R226). -/
structure HeldRead where
  ctl : Fin 4
  addr : Nat
  retries : Nat
  ok : Bool
  corrected : Bool
  work : FaultWork
  deriving DecidableEq, Repr

/-- Memory and its error marks (07). -/
structure MemS where
  /-- contents by device address: HBM, pool and local stores (07 R199) -/
  bytes : Tab Byte
  /-- bytes marked poisoned -/
  poison : Tab Bool
  /-- write-combining entries, oldest first (07 R204) -/
  wc : List WcEntry
  /-- atomics issued and not applied, oldest first (07 R214) -/
  atomics : List AtomOp
  /-- accesses held while a controller trains or margins: controller of each CFG.RATE retrain that waits for a
  margining run (07 R202, R226) -/
  retrain : BitVec 4
  /-- raw and coded bytes of codec engine e beyond the last whole KiB: keys 2e and 2e + 1 (07 R229) -/
  codecRem : Tab Nat
  /-- the pseudo-channels, by 32 × controller + 2 × channel + pseudo (07 R203) -/
  pcs : Tab PcQueue
  /-- clk of the retries of the last µs, by pseudo-channel (07 R206) -/
  retries : Tab (List Nat)
  /-- reads that wait for the end of training or margining, oldest first (07 R202, R226) -/
  heldReads : List HeldRead
  /-- input and output queues of the codec pipelines: key 2 × engine, + 1 to decode (07 R224) -/
  codecIn : Tab (List CodecBlk)
  codecOut : Tab (List CodecOut)
  deriving DecidableEq, Repr

/-- A fault event on its way to the fault unit (14 R398). -/
structure Report where
  unit : FaultUnit
  correctable : Bool
  cause : Byte
  detail : Dword
  work : FaultWork
  deriving DecidableEq, Repr

/-- The history of correctable events of one unit (14 R399, R400). -/
structure CeHist where
  /-- clk of the last events, newest first, at most 255 -/
  times : List Nat
  /-- clk at which one was last logged -/
  logged : Option Nat
  /-- the last event met the criterion of a lasting fault -/
  run : Bool
  deriving DecidableEq, Repr

/-- A pair's entry of a ledger copy (14 R418). -/
structure LedgerPair where
  done : BitVec 16 := 0
  horizon : BitVec 16 := 0
  tag : Word := 0
  cls : BitVec 3 := 0
  consumed : Bool := false
  enabled : Bool := false
  deriving DecidableEq, Repr

/-- A copy of the recovery ledger (14 R418). -/
structure LedgerCopy where
  gen : Word
  boot : BitVec 16
  sag : Bool
  sec : Word
  ns : Word
  logSeq : BitVec 16
  pairs : Tab LedgerPair
  /-- the last 64 fault-log entries, oldest first, eight words each -/
  tail : List (List Word)
  deriving DecidableEq, Repr

/-- The holdover domain, which a main-domain reset leaves (14 R416–R419, 02 R67, 15 R431, 16 R466). -/
structure Holdover where
  intact : Bool
  /-- the canary reads 0xA5, 0x5A, … -/
  canary : Bool
  /-- copies A and B; none: the copy does not pass its CRC -/
  copyA : Option LedgerCopy
  copyB : Option LedgerCopy
  /-- real-time clock in units of 1/32,768 s since the PTP epoch -/
  rtc : Nat
  /-- clk at which it stood there -/
  rtcAt : Nat
  rtcCoarse : Bool
  /-- crystal oscillation is seen -/
  xtal : Bool
  /-- anti-rollback mirror: SVN floors of MFW and DMC, where it holds them -/
  mirror : Option (Nat × Nat)
  /-- the reset-cause latch (14 R421) -/
  cause : Nat
  bootCount : Nat
  /-- the domain is on the main feed (R416) -/
  onMain : Bool
  /-- cell voltage in mV -/
  vbat : Nat
  deriving DecidableEq, Repr

/-- Fault-unit state that is in no register (14). -/
structure FaultS where
  reports : List Report
  /-- histories by unit code × 256 + index -/
  hist : Tab CeHist
  /-- clk of each retake that implicated a tile: key tile -/
  retakes : Tab (List Nat)
  /-- instant of a tile's fence, in 2^-42 ns units: key tile; and of the fence of the tile that a standby tile has taken over
  from: key 64 + standby tile (06 R196) -/
  fencedAt : Tab Nat
  /-- entries of the ledger have changed since the last commit -/
  dirty : Bool
  deriving DecidableEq, Repr

/-- A take job, queued or running (12 R357, 13 R395, 14 R405–R409). -/
structure Job where
  ref : DRef
  image : Nat
  part : Nat
  running : Bool
  /-- layers complete -/
  layer : Nat
  layers : Nat
  /-- checkpoint interval, 0 for none -/
  every : Nat
  /-- current token, none for 0 -/
  token : Option Token
  /-- serial number and buffer of the next checkpoint -/
  serial : Byte
  buf : Bool
  /-- digest of the checkpoint buffer as the layer that has ended left it -/
  ckpt : BitVec 16
  retakes : Nat
  /-- FAULT_REF of its last fault -/
  faultRef : Word
  /-- a retake is under way and its tiles are stopped; it has restored and waits for the barrier -/
  retaking : Bool
  restoring : Bool
  group : Fin 16
  /-- START_SLATE of a take that starts at a slate, else 0 (13 R395) -/
  start : BitVec 16
  /-- it waits for START_SLATE at the head of its queue, and clk since when -/
  waiting : Bool
  waitFrom : Nat
  /-- the slate it runs under (13 R393) -/
  slate : BitVec 16
  /-- collectives of this layer that have ended; it has arrived at the layer's barrier (13 R394) -/
  colls : Nat
  arrived : Bool
  det : Nat
  digest : Bool
  /-- total digest of the last layer -/
  lastDigest : Dword
  /-- the input as read, and what the code wrote as output -/
  input : List Byte
  output : List Byte
  sagTold : Bool
  deriving DecidableEq, Repr

/-! ### The radio (08, 09) -/

/-- A resident receiver pack (09 R277, R278). -/
structure Pack where
  num : Nat
  id : BitVec 16
  tool : Word
  modMask : Nat
  maxLayers : Nat
  muMask : Nat
  waveMask : Nat
  /-- the pack as read: its sections CE, EQC, LLRS and CONF -/
  raw : List Byte
  /-- superseded or dropped: kept for the chains armed on it -/
  old : Bool
  deriving DecidableEq, Repr

/-- A PHY_TX_DATA that waits for its PHY_DL_TTI (09 R259). -/
structure TxWait where
  ref : DRef
  grid : GridIx
  sfn : BitVec 10
  slot : BitVec 5
  pdu : Nat
  tb : List Byte
  deriving DecidableEq, Repr

/-- A rushes capture of a grid (09 R280, R281). -/
structure Capture where
  ref : DRef
  grid : GridIx
  mask : BitVec 16
  /-- slots left, none: no limit -/
  left : Option Nat
  addr : Dword
  dev : Bool
  room : Nat
  written : Nat
  deriving DecidableEq, Repr

/-- A slot whose landing buffers are to be copied once its deadline cue has passed (09 R281). -/
structure RushDue where
  grid : GridIx
  sfn : BitVec 10
  slot : BitVec 5
  t0 : Nat
  deriving DecidableEq, Repr

/-- Radio state that is in no register. -/
structure RadioS where
  packs : List Pack
  /-- least recently used first -/
  harq : List Harq
  tx : List TxWait
  /-- PDSCH PDUs with a bound transport block whose slot has not begun: grid, SFN and slot as one number, and the PDU (09 R259) -/
  bound : List (Nat × Nat)
  captures : List Capture
  rushes : List RushDue
  /-- ecpriSeqid last received and next sent, by port, eAxC ID and direction (08 R243) -/
  seqRx : Tab Nat
  seqTx : Tab Nat
  /-- start of symbol 0 of the slot last begun, per grid, in 2^-42 ns units (08 R245) -/
  begun : Tab Nat
  /-- uplink slots of chains that a scene change suppressed: (grid, SFN, slot) as one number, and clk then (02 R47) -/
  dark : List (Nat × Nat)
  deriving DecidableEq, Repr

/-! ### Flows and files (10) -/

/-- A packet of a flow held in the hold buffer (10 R302). -/
structure HeldPkt where
  port : Nat
  frame : List Byte
  /-- byte offset of the innermost IP header in the frame, and of an outer UDP header that covers it -/
  ipOff : Nat
  outerUdp : Option Nat
  /-- device time of its arrival, in 2^-42 ns units (02 R60) -/
  arrived : Nat
  deriving DecidableEq, Repr

/-- What is kept of a flow record that was freed or replaced while a request of it was outstanding: its bytes, and how its hold
had ended (10 R303). -/
structure Orphan where
  bytes : List Byte
  late : Bool
  treated : Nat
  deriving DecidableEq, Repr

/-- File extraction from a flow (10 R319). -/
structure Extract where
  fileId : Nat
  /-- the extraction is in progress; once it has ended none begins again for the flow -/
  live : Bool
  /-- sequence number of the next byte expected -/
  next : Word
  /-- in-order bytes of the chunk being filled -/
  part : List Byte
  /-- segments kept ahead of the next byte: sequence number and bytes -/
  ahead : List (Word × List Byte)
  deriving DecidableEq, Repr

/-- What the flow front keeps for a record beside its 128 bytes (10). -/
structure FlowX where
  /-- the outstanding request: number of its item -/
  request : Option Nat := none
  /-- the outstanding request belongs to a hold that ended without a verdict (R303) -/
  late : Bool := false
  /-- the hold's start, as clk -/
  holdAt : Nat := 0
  held : List HeldPkt := []
  /-- packets treated from the start of a hold that ended without a verdict (R303) -/
  treated : Nat := 0
  /-- the request was lost with a fenced tile (R308) -/
  lost : Bool := false
  extract : Option Extract := none
  /-- device time of the first and the latest packet in 2^-42 ns units, and clk of the latest -/
  firstAt : Nat := 0
  lastAt : Nat := 0
  lastClk : Nat := 0
  /-- what LEN_SQ's units of 256 leave over -/
  sqRem : Nat := 0
  deriving DecidableEq, Repr

/-- An open file (10 R314–R317). -/
structure FileX where
  id : Nat
  func : FuncIx
  profile : Nat
  /-- chunks in the file staging (R315, R318), by number -/
  chunks : Tab (List Byte)
  /-- the close consumed, or the flow whose extraction it is -/
  close : Option DRef
  flow : Option Nat
  /-- it has been closed; the file is complete (R316), or its extraction had no gap (R319) -/
  queued : Bool
  whole : Bool
  /-- clk of the last descriptor -/
  last : Nat
  deriving DecidableEq, Repr

/-- Flow-front state that is in no register (10). -/
structure FlowS where
  x : Tab FlowX
  /-- 256-byte cells of the hold buffer in use -/
  cells : Nat
  /-- packets that found the table full in this millisecond: forwarded, discarded; bucket of the last of each -/
  fullPass : Nat
  fullDrop : Nat
  passBucket : Nat
  dropBucket : Nat
  /-- bits in the queue of the mirror port (R307), and clk then -/
  mirrorBits : Nat
  mirrorAt : Nat
  /-- per model under backlog: which request of the group is queued, and how many of the group have come (R310) -/
  sampled : Tab Nat
  /-- outstanding requests whose record is gone, by item number (10 R303) -/
  orphans : Tab Orphan
  files : List FileX
  deriving DecidableEq, Repr

/-! ### The engines (11) -/

/-- A job of the Continuity engine or the Matte unit (11 R323–R325). -/
structure EngJob where
  /-- physical job reel and the image that owns it -/
  reel : Nat
  image : Nat
  handle : BitVec 16
  addr : Nat
  /-- tile that pushed the handle -/
  tile : Option TileIx
  owner : Owner
  cls : Nat
  phy : Bool
  /-- the job block as read, layer entries included -/
  block : List Byte
  /-- units of it and units done -/
  total : Nat
  done : Nat
  /-- the job block was poisoned, and any input so far -/
  tainted : Bool
  poisoned : Bool
  /-- ACCEPTED, TRACKED or FETCHED so far, and SKIPPED -/
  count : Nat
  skipped : Nat
  deriving DecidableEq, Repr

/-- An engine. -/
structure EngineS where
  running : Option EngJob := none
  suspended : Option EngJob := none
  deriving DecidableEq, Repr

/-! ### Splice (13) -/

/-- A link's queue and replay buffer (13 R373, R376, R379). -/
structure LinkS where
  /-- messages that wait for room in the replay buffer, by priority -/
  queue : List SMsg := []
  /-- messages sent, with the flits of each that the far end has not acknowledged, oldest first -/
  replay : List (SMsg × Nat) := []
  /-- payload bytes beyond the last whole KiB -/
  txRem : Nat := 0
  rxRem : Nat := 0
  /-- clk at which training last began -/
  trainAt : Nat := 0
  deriving DecidableEq, Repr

/-- A slate armed on this chip (13 R391, R393). -/
structure Slate where
  group : Fin 16
  id : BitVec 16
  /-- T, in 2^-42 ns units -/
  time : Nat
  /-- children that have acknowledged -/
  acks : List (BitVec 14)
  /-- the SLATE_ARM descriptor, on the coordinator -/
  ref : Option DRef
  deriving DecidableEq, Repr

/-- A collective in progress on this chip (13 R388). -/
structure Coll where
  group : Fin 16
  /-- entry of the image's COLLECTIVES -/
  index : Nat
  /-- contributions in the order of arrival: the child (none: this chip), bytes in wire form, whether its last -/
  arrivals : List (Option (BitVec 14) × List Byte × Bool)
  /-- its result has gone up to the parent -/
  up : Bool
  /-- bytes of the BCAST received so far -/
  down : List Byte
  deriving DecidableEq, Repr

/-- What this chip has gathered for a layer barrier (13 R394). -/
structure Barrier where
  group : Fin 16
  layer : Nat
  arrived : List (BitVec 14)
  /-- this chip's tiles have halted; its partial digest is in the sum -/
  halted : Bool
  sum : Dword
  deriving DecidableEq, Repr

/-- Splice state that is in no register (13). -/
structure SpliceS where
  links : Tab LinkS
  /-- next SEQ by destination and priority, by source and priority (R378) -/
  seqTx : Tab Nat
  seqRx : Tab Nat
  /-- messages received early, and clk then -/
  early : List (SMsg × Nat)
  slates : List Slate
  /-- next reserved SLATE_ID per group (R394) -/
  nextSlate : Tab Nat
  colls : List Coll
  barriers : List Barrier
  /-- clk since which PATH_CAL has been 0 (R385) -/
  uncalFrom : Nat
  /-- the alternate parent is in use -/
  altParent : Bool
  /-- clk of the zero step of a fabric root (R383) -/
  rootFrom : Option Nat
  /-- clk of the last TIME exchange -/
  lastTime : Nat
  deriving DecidableEq, Repr

/-! ### Boot, firmware and management (15) -/

/-- An entry of a tested-pair table (15 R436). -/
structure PairEnt where
  kindA : Nat
  kindB : Nat
  aVer : Nat
  bMin : Nat
  bMax : Nat
  deriving DecidableEq, Repr

/-- A running firmware image (15 R425): slot, version, SVN, key index, flags, ABI and its bytes. -/
structure Running where
  slot : Bool
  version : Word
  svn : Nat
  keyIndex : Nat
  fuseFloor : Bool
  revoke : Bool
  abi : Word
  /-- header and body -/
  bytes : List Byte
  deriving DecidableEq, Repr

/-- A PLDM update in progress (15 R447). -/
structure Pldm where
  /-- component being transferred: 1 MFW, 2 DMC -/
  component : Nat
  /-- bytes of it received -/
  received : Nat
  /-- components written in this update -/
  written : List Nat
  deriving DecidableEq, Repr

/-- Instructions of the TAP (15 R450). -/
inductive JtagIr where
  | extest | idcode | sample | clamp | highz | unlockChal | unlockResp | debug (code : Byte) | bypass
  deriving DecidableEq, Repr

/-- Management state that is in no register (15). -/
structure MgmtS where
  /-- boot flash by offset; an erased byte reads 0xFF (R423) -/
  flash : Tab Byte
  /-- fuse rows of MFW and of DMC, oldest first, and revoked key slots (R432) -/
  rowsMfw : List Nat
  rowsDmc : List Nat
  revoked : BitVec 4
  /-- fused JTAG mode 0 OPEN, 1 LOCKED, 2 DISABLED; unlocked for the next boots (R451) -/
  jtagMode : Nat
  unlocked : Bool
  mfw : Option Running
  dmc : Option Running
  table : List PairEnt
  /-- load pairs accepted in this boot: TOOL_VERSION, DIR_ABI (R439) -/
  accepted : List (Word × Word)
  /-- the ROM is in the recovery console, and its receive buffer (R445) -/
  recovery : Bool
  recBuf : Tab Byte
  /-- the receive FIFO (15 R444) -/
  uartRx : List Byte
  /-- start detection waits for a high sample after a break (R443) -/
  uartWait : Bool
  /-- an EID is assigned (R446) -/
  eidSet : Bool
  pldm : Option Pldm
  /-- SPDM: version agreed, algorithms agreed (R448) -/
  spdmVersion : Bool
  spdmCaps : Bool
  spdmAlgs : Bool
  ir : JtagIr
  /-- the nonce of the last challenge (R451) -/
  nonce : Option (List Dword)
  /-- the main domain is held in reset under boundary scan (R452) -/
  scanHold : Bool
  /-- clk of the last heartbeat that the director answered (R430) -/
  beat : Nat
  deriving DecidableEq, Repr

/-! ### Board, supply and clock (14, 16) -/

/-- A change of VSET that the regulator has not reported complete (16 R457). -/
structure Avs where
  old : Nat
  new : Nat
  since : Nat
  deriving DecidableEq, Repr

/-- Pins, supply and reset state (14, 16). -/
structure BoardS where
  /-- the main domain is in reset -/
  inReset : Bool
  pwrGood : Bool
  /-- clk of the last edge of PWR_GOOD -/
  pwrAt : Nat
  perstN : Bool
  testEn : Bool
  refSys : Bool
  /-- THERM_TRIP_N as driven: false is low (R463) -/
  thermTripN : Bool
  /-- clk until which PPS_OUT is high (02 R64) -/
  ppsUntil : Nat
  straps : BitVec 3
  avs : Option Avs
  /-- clk since which the supply has been above the warning threshold, once below (14 R411) -/
  aboveFrom : Option Nat
  deriving DecidableEq, Repr


/-- The round of an arbitration point (12 R351): grants made in it and credits used per class. -/
structure Round where
  grants : Nat := 0
  used : Tab Nat := []
  deriving DecidableEq, Repr

/-- The block. -/
structure State where
  /-- every BAR0 register, by offset; an unlisted one holds its reset value -/
  regs : Tab Word
  /-- ticks of the 800 MHz time clock since power-up -/
  clk : Nat
  time : TimeS
  pairs : Tab PairS
  funcs : Tab FuncS
  /-- consumed descriptors without a final record, in consumption order -/
  flights : List Flight
  mem : MemS
  tiles : Tab Tile
  reels : Tab Reel
  loaded : List Loaded
  /-- number of the next load -/
  nextLoad : Nat
  chains : List Chain
  items : List Item
  nextItem : Nat
  windows : List WinRun
  jobs : List Job
  /-- rounds of the arbitration points: SCORE dispatch of partition p is p, second-unit placement 8, engines 9 and 10, codec
  pipeline k 64 + k, HBM pseudo-channel k 128 + k (12 R348, R351); and per engine 16 + class the job reel served last -/
  rounds : Tab Round
  lastReel : Tab Nat
  radio : RadioS
  flow : FlowS
  cont : EngineS
  matte : EngineS
  splice : SpliceS
  fault : FaultS
  hold : Holdover
  mgmt : MgmtS
  board : BoardS
  /-- the model's own counter of free values used (log 1) -/
  free : Nat
  /-- the model's own log of what the device sends -/
  out : List Output
  /-- pair at which the round robin of descriptor fetches goes on (12 R350) -/
  fetchTurn : Nat
  /-- commands that wait, first in first out -/
  pending : List Instr
  deriving DecidableEq, Repr

/-! ### Reset -/

/-- Time state right after reset (02 R39, R70): INVALID, the step armed, the counter at 0 (log 5). -/
def TimeS.reset : TimeS :=
  { counter := ⟨0, 0, 0, 0⟩, lag1 := 0, lagMain := 0, arming := .ptp, ppsSec := none, inWindow := 0, accepted := 0, holdSince := 0, running := 0,
    tResume := [], sceneT1 := 0, fired := [], lastSync := 0, lastAnnounce := 0, lastPps := 0, parentClass := 248,
    parentUtc := none, srcLost := false, learn := [], learnFrom := 0, learnRef := [], osc20 := false, refValid := 0 }

/-- Memory with nothing listed. -/
def MemS.reset : MemS :=
  { bytes := [], poison := [], wc := [], atomics := [], retrain := 0, codecRem := [], pcs := [], retries := [],
    heldReads := [], codecIn := [], codecOut := [] }

/-- Radio state right after reset. -/
def RadioS.reset : RadioS :=
  { packs := [], harq := [], tx := [], bound := [], captures := [], rushes := [], seqRx := [], seqTx := [], begun := [],
    dark := [] }

/-- Flow state right after reset. -/
def FlowS.reset : FlowS :=
  { x := [], cells := 0, fullPass := 0, fullDrop := 0, passBucket := 0, dropBucket := 0, mirrorBits := 0, mirrorAt := 0, sampled := [],
    orphans := [], files := [] }

/-- Splice state right after reset: every link DOWN (13 R374). -/
def SpliceS.reset : SpliceS :=
  { links := [], seqTx := [], seqRx := [], early := [], slates := [], nextSlate := [], colls := [], barriers := [],
    uncalFrom := 0, altParent := false, rootFrom := none, lastTime := 0 }

/-- Fault-unit state right after reset. -/
def FaultS.reset : FaultS := { reports := [], hist := [], retakes := [], fencedAt := [], dirty := false }

/-- The holdover domain as the check of R417 leaves it: canary written, fresh copies, INTACT set (14 R417; log 5). -/
def Holdover.reset : Holdover :=
  { intact := true, canary := true,
    copyA := some { gen := 0, boot := 1, sag := false, sec := 0, ns := 0, logSeq := 0, pairs := [], tail := [] },
    copyB := none, rtc := 0, rtcAt := 0, rtcCoarse := true, xtal := true, mirror := some (0, 0), cause := 0, bootCount := 1,
    onMain := true, vbat := 3000 }

/-- The tested pairs of the running firmware at reset: versions 0 with silicon B0 (15 R436; log 5). -/
def resetPairs : List PairEnt :=
  [⟨1, 2, 0, 0, 0⟩, ⟨1, 3, 0, 0x0B00, 0x0B00⟩, ⟨2, 3, 0, 0x0B00, 0x0B00⟩]

/-- A firmware image of version 0 that runs at reset (log 5). -/
def resetImage : Running :=
  { slot := false, version := 0, svn := 0, keyIndex := 0, fuseFloor := false, revoke := false, abi := 0, bytes := [] }

/-- Management state right after reset: a boot in RUN of firmware of version 0 from slot A, nothing in the flash that
the model lists (15 R427, R438; log 5). -/
def MgmtS.reset : MgmtS :=
  { flash := [], rowsMfw := [], rowsDmc := [], revoked := 0, jtagMode := 1, unlocked := false, mfw := some resetImage,
    dmc := some resetImage, table := resetPairs, accepted := [], recovery := false, recBuf := [], uartRx := [],
    uartWait := false, eidSet := false, pldm := none, spdmVersion := false, spdmCaps := false,
    spdmAlgs := false, ir := .idcode, nonce := none, scanHold := false, beat := 0 }

/-- Pins and supply right after reset: every condition of R460 holds (16 R460). -/
def BoardS.reset : BoardS :=
  { inReset := false, pwrGood := true, pwrAt := 0, perstN := true, testEn := false, refSys := true, thermTripN := true,
    ppsUntil := 0, straps := 7, avs := none, aboveFrom := none }

/-- The device right after reset: every register at its reset value, every store and queue empty. -/
def State.reset : State :=
  { regs := [], clk := 0, time := TimeS.reset, pairs := [], funcs := [], flights := [], mem := MemS.reset, tiles := [],
    reels := [], loaded := [], nextLoad := 0, chains := [], items := [], nextItem := 0, windows := [], jobs := [],
    rounds := [], lastReel := [], radio := RadioS.reset, flow := FlowS.reset, cont := {}, matte := {},
    splice := SpliceS.reset, fault := FaultS.reset, hold := Holdover.reset, mgmt := MgmtS.reset, board := BoardS.reset,
    free := 0, out := [], fetchTurn := 0, pending := [] }

end Sys2Proof.Machine
end

