-- ==== Sys2Proof/Machine/Ops.lean ====
section
/-! DEFINITION. The named operations that every family of commands shares: bit fields, registers, counters, block
events and interrupts, device time, completion records, fault reports and device memory. -/

namespace Sys2Proof.Machine

/-! ### Bit fields -/

/-- Bits [hi:lo] of a register word, as a number. -/
def field (w : Word) (hi lo : Nat) : Nat := w.toNat / 2 ^ lo % 2 ^ (hi - lo + 1)

/-- The word with bits [hi:lo] holding `v`. -/
def setField (w : Word) (hi lo v : Nat) : Word :=
  (w &&& ~~~ BitVec.ofNat 32 ((2 ^ (hi - lo + 1) - 1) * 2 ^ lo)) ||| BitVec.ofNat 32 (v % 2 ^ (hi - lo + 1) * 2 ^ lo)

/-- 1 for true. -/
def bnat (b : Bool) : Nat := if b then 1 else 0

/-- A two's-complement reading of the low `n` bits of a number. -/
def signedOf (n v : Nat) : Int := if v % 2 ^ n < 2 ^ (n - 1) then (v % 2 ^ n : Nat) else (v % 2 ^ n : Nat) - 2 ^ n

/-- The number as `n` little-endian bytes (00 R6). -/
def leBytes : Nat → Nat → List Byte
  | 0, _ => []
  | n + 1, v => BitVec.ofNat 8 v :: leBytes n (v / 256)

/-- The number that little-endian bytes spell (00 R6). -/
def leNat : List Byte → Nat
  | [] => 0
  | b :: bs => b.toNat + 256 * leNat bs

/-- `n` bytes from offset `o` of a list, as a number; bytes past its end read 0. -/
def leAt (bs : List Byte) (o n : Nat) : Nat := leNat ((bs.drop o).take n)

/-- A number clamped to a range. -/
def clampInt (lo hi v : Int) : Int := if v < lo then lo else if hi < v then hi else v

/-- Ceiling of a quotient. -/
def ceilDiv (a b : Nat) : Nat := (a + b - 1) / b

/-! ### Free values (log 1) -/

/-- The next free value. -/
def freshVal (s : State) : Dword := Config.freeValue s.free
/-- The state once it has been used. -/
def useFree (s : State) : State := { s with free := s.free + 1 }

/-! ### Registers (00 R7, R8) -/

/-- The word that the register at offset `o` holds. -/
def rd (s : State) (o : Nat) : Word := tabGet regReset s.regs o
/-- The hardware writes the register at offset `o`. -/
def wr (o : Nat) (v : Word) (s : State) : State := { s with regs := tabSet regReset s.regs o v }
/-- Field [hi:lo] of the register at offset `o`. -/
def rdf (s : State) (o hi lo : Nat) : Nat := field (rd s o) hi lo
/-- The hardware writes field [hi:lo] of the register at offset `o`. -/
def wrf (o hi lo v : Nat) (s : State) : State := wr o (setField (rd s o) hi lo v) s
/-- Bit `b` of the register at offset `o`. -/
def rdb (s : State) (o b : Nat) : Bool := (rd s o).getLsbD b
/-- Consecutive registers written from offset `o` on. -/
def wrMany (o : Nat) : List Word → State → State
  | [], s => s
  | v :: vs, s => wrMany (o + 4) vs (wr o v s)
/-- Consecutive registers from offset `o` on. -/
def rdMany (s : State) (o : Nat) : Nat → List Word
  | 0 => []
  | n + 1 => rd s o :: rdMany s (o + 4) n

/-- A counter rises by `n` and stays at the top of its 32 bits. -/
def bump (o n : Nat) (s : State) : State := wr o (BitVec.ofNat 32 (min (2 ^ 32 - 1) ((rd s o).toNat + n))) s
/-- A counter that wraps rises by 1. -/
def bumpWrap (o : Nat) (s : State) : State := wr o (rd s o + 1) s
/-- A register that holds a largest value seen takes `v` where that is larger. -/
def peak (o v : Nat) (s : State) : State := if (rd s o).toNat < v then wr o (BitVec.ofNat 32 v) s else s

/-- GLOBAL.SETUP_LOCK.LOCK (03 R103). -/
def locked (s : State) : Bool := rdb s 0x8 0
/-- GLOBAL.DET_CTRL.LOCK (13 R364). -/
def detLock (s : State) : Bool := rdb s 0x10 0
/-- The boot state is HOLD: MGMT.BOOT_STATUS.STATE (15 R455). -/
def inHold (s : State) : Bool := decide (rdf s 0xE0000 1 0 = 1)
/-- The device runs under an accepted untested pair: MGMT.BOOT_STATUS.UNTESTED (15 R440). -/
def untested (s : State) : Bool := rdb s 0xE0000 2

/-! ### Register offsets used by name -/

abbrev hostEvent : Nat := 0x10008
abbrev aerrCount : Nat := 0x10020
abbrev flrCount : Nat := 0x10030
abbrev timeStatus : Nat := 0x20004
abbrev timeEvent : Nat := 0x20008
abbrev srcCfg : Nat := 0x20010
abbrev directorEvent : Nat := 0x30008
abbrev gafferStatus : Nat := 0x40000
abbrev gafferEvent : Nat := 0x40004
abbrev faultStatus : Nat := 0x50000
abbrev faultEvent : Nat := 0x50004
abbrev flowEvent : Nat := 0x60008
abbrev poolEvent : Nat := 0xA0008
abbrev spliceEvent : Nat := 0xB0008
abbrev fhEvent : Nat := 0xD0004
abbrev bootStatus : Nat := 0xE0000
abbrev mgmtEvent : Nat := 0xE0004
/-- Register `o` of pair `p` (03 R75). -/
def pairReg (p o : Nat) : Nat := 0x11000 + 0x40 * p + o
/-- Register `o` of tile `n` (04 R135). -/
def tileReg (n o : Nat) : Nat := 0x200000 + 0x10000 * n + o
/-- Register `o` of HBM controller `c` (07 R227). -/
def hbmReg (c o : Nat) : Nat := 0x100000 + 0x40000 * c + o
/-- Register `o` of Splice link `l` (13 R397). -/
def linkReg (l o : Nat) : Nat := 0xB0100 + 0x20 * l + o

/-! ### Pairs and functions (03) -/

/-- The pair's state that is in no register. -/
def pairOf (s : State) (p : Nat) : PairS := tabGet (fun _ => {}) s.pairs p
def setPair (p : Nat) (x : PairS) (s : State) : State := { s with pairs := tabSet (fun _ => {}) s.pairs p x }
/-- The function's state. -/
def funcOf (s : State) (f : Nat) : FuncS := tabGet (fun _ => {}) s.funcs f
def setFunc (f : Nat) (x : FuncS) (s : State) : State := { s with funcs := tabSet (fun _ => {}) s.funcs f x }

/-- PAIR_CFG.EN, KIND, depths, FUNC and CLASS_MASK of pair `p` (03 R76). -/
def pairEn (s : State) (p : Nat) : Bool := rdb s (pairReg p 0x10) 0
def pairIsEvent (s : State) (p : Nat) : Bool := rdb s (pairReg p 0x10) 1
def sqLog2 (s : State) (p : Nat) : Nat := rdf s (pairReg p 0x10) 7 3
def cqLog2 (s : State) (p : Nat) : Nat := rdf s (pairReg p 0x10) 12 8
def sqDepth (s : State) (p : Nat) : Nat := 2 ^ sqLog2 s p
def cqDepth (s : State) (p : Nat) : Nat := 2 ^ cqLog2 s p
def pairFunc (s : State) (p : Nat) : FuncIx := Fin.ofNat 64 (rdf s (pairReg p 0x10) 21 16)
def classMask (s : State) (p : Nat) : Nat := rdf s (pairReg p 0x10) 29 24

def sqCons (s : State) (p : Nat) : BitVec 16 := (rd s (pairReg p 0x20)).setWidth 16
def sqProd (s : State) (p : Nat) : BitVec 16 := (rd s (pairReg p 0x24)).setWidth 16
def cqProd (s : State) (p : Nat) : BitVec 16 := (rd s (pairReg p 0x28)).setWidth 16
def cqCons (s : State) (p : Nat) : BitVec 16 := (rd s (pairReg p 0x2C)).setWidth 16

/-- A function is there: the PF always, a VF while enabled (03 R79). -/
def present (s : State) (f : FuncIx) : Bool := decide (f = 0) || (funcOf s f).enabled

/-- PAIR_STATUS.ACTIVE (03 R76, R79). -/
def pairActive (s : State) (p : Nat) : Bool :=
  (pairOf s p).live && present s (pairFunc s p) && (funcOf s (pairFunc s p)).bme && !(funcOf s (pairFunc s p)).inFlr

/-- Free completion slots (03 R93). -/
def cqFree (s : State) (p : Nat) : Nat :=
  cqDepth s p - (cqProd s p - cqCons s p).toNat - (pairOf s p).reserved

/-! ### What leaves the device, and device time (02 R34–R38) -/

/-- Something leaves the device. -/
def emit (o : Output) (s : State) : State := { s with out := s.out ++ [o] }

/-- Ticks of the 800 MHz time clock in 100 ns, 1 µs, 1 ms and 1 s. -/
abbrev ticks100ns : Nat := 80
abbrev ticksUs : Nat := 800
abbrev ticksMs : Nat := 800000
abbrev ticksS : Nat := 800000000

/-- Units of 2^-42 ns in 1 ns and in 1 s. -/
abbrev unitsNs : Nat := 2 ^ 42
abbrev unitsS : Nat := 1000000000 * 2 ^ 42

/-- The counter as a number of 2^-42 ns units since the PTP epoch. -/
def counterUnits (c : Counter) : Nat :=
  ((c.sec.toNat * 1000000000 + c.ns.toNat) * 2 ^ 32 + c.frac.toNat) * 2 ^ 10 + c.sub.toNat

/-- The counter that stands at a number of units. -/
def counterAt (u : Nat) : Counter :=
  { sec := BitVec.ofNat 48 (u / unitsS), ns := BitVec.ofNat 32 (u / unitsNs % 1000000000),
    frac := BitVec.ofNat 32 (u / 2 ^ 10), sub := BitVec.ofNat 10 u }

/-- INC_NS, INC_FRAC and INC_SUB (02 R35). -/
def incNs (s : State) : Nat := rdf s 0x20024 7 0
def incSub (s : State) : Nat := rdf s 0x20024 17 8
def incFrac (s : State) : Word := rd s 0x20020

/-- One tick of the time clock, as R35 writes it. -/
def counterTick (ns : Nat) (frac : Word) (sub : Nat) (c : Counter) : Counter :=
  let sb := c.sub.toNat + sub
  let fr := c.frac.toNat + frac.toNat + sb / 2 ^ 10
  let n := c.ns.toNat + ns + fr / 2 ^ 32
  { sub := BitVec.ofNat 10 sb, frac := BitVec.ofNat 32 fr,
    ns := BitVec.ofNat 32 (if 1000000000 ≤ n then n - 1000000000 else n),
    sec := if 1000000000 ≤ n then c.sec + 1 else c.sec }

/-- The total increment in units (02 R36). -/
def incUnits (s : State) : Nat := incNs s * unitsNs + (incFrac s).toNat * 2 ^ 10 + incSub s

/-- One tick of the time clock. -/
def tick (s : State) : State :=
  { s with clk := s.clk + 1,
           time := { s.time with counter := counterTick (incNs s) (incFrac s) (incSub s) s.time.counter } }

/-- `n` ticks of the time clock. -/
def advance (n : Nat) (s : State) : State :=
  if n = 0 then s
  else { s with clk := s.clk + n,
                time := { s.time with counter := counterAt (counterUnits s.time.counter + n * incUnits s) } }

/-- Seconds after which the counter wraps, in units (02 R34). -/
abbrev wrapUnits : Nat := 2 ^ 48 * unitsS

/-- A follower counter that stands `lag` ahead of that of Polwen die 0, in units (02 R38). -/
def followUnits (s : State) (lag : Int) : Nat := (((counterUnits s.time.counter : Int) + lag) % (wrapUnits : Int)).toNat

/-- Device time now, in units, by the follower counter of the main die, which cues and stamps go by (02 R55; 03 R96). -/
def nowUnits (s : State) : Nat := followUnits s s.time.lagMain

/-- The follower counter of the main die. -/
def mainCounter (s : State) : Counter := counterAt (nowUnits s)

/-- The counter of the Polwen die that carries fronthaul port `p` (01 R15), in units. -/
def portUnits (s : State) (p : Nat) : Nat := if p < 4 then counterUnits s.time.counter else followUnits s s.time.lag1

/-- Let the clock run to tick `t`, where it has not passed it. -/
def runToClk (t : Nat) (s : State) : State := advance (t - s.clk) s

/-- Let the clock run until device time is at or past `u`. -/
def runToTime (u : Nat) (s : State) : State := advance (ceilDiv (u - nowUnits s) (incUnits s)) s

/-- Board delay of port `k` in ps, TX or RX: line ports 0–7, fronthaul ports 8–15 (02 R56). -/
def txDelay (s : State) (k : Nat) : Nat := rdf s (if k < 8 then 0x200A0 + 4 * k else 0x200C0 + 4 * (k - 8)) 15 0
def rxDelay (s : State) (k : Nat) : Nat := rdf s (if k < 8 then 0x200A0 + 4 * k else 0x200C0 + 4 * (k - 8)) 31 16

/-- A fraction `n / d` rounded to nearest; a half rounds as no rule says (02 R58, R60). -/
def nearest (n d : Nat) : Nat :=
  let q := n / d
  if 2 * (n % d) < d then q else if d < 2 * (n % d) then q + 1 else if Config.halfUp q then q + 1 else q

/-- TIME.STATUS.STATE, TIME_LOCKED and HOLDOVER_EXPIRED (02 R39, R43). -/
def timeState (s : State) : Nat := rdf s timeStatus 2 0
def timeLocked (s : State) : Bool := rdb s timeStatus 3
def holdoverExpired (s : State) : Bool := rdb s timeStatus 5

/-! ### Completion records (03 R91–R101, 12 R362) -/

/-- The 32 bytes of a record (03 R91). -/
def recBytes (s : State) (phase lost : Bool) (r : Rec) : List Byte :=
  leBytes 1 (bnat phase + 2 * bnat (untested s) + 4 * bnat r.event + 8 * bnat lost + 16 * bnat r.interim
    + 32 * timeState s) ++
  leBytes 1 r.status ++ leBytes 1 (r.disp % 16 + 16 * (r.cls % 8)) ++ [r.tag8] ++ leBytes 2 (r.ring % 512) ++
  leBytes 2 r.descIndex.toNat ++ leBytes 8 r.result.toNat ++ leBytes 4 (mainCounter s).sec.toNat ++
  leBytes 4 (mainCounter s).ns.toNat ++ leBytes 4 r.progress.toNat ++ leBytes 4 r.faultRef.toNat

/-! ### Interrupts (03 R101, R102) -/

/-- What is held or falls due leaves function `f`: a write, a record stamped now as two posted writes with byte 0 last (03 R95,
R96), or an MSI-X message, which sets its pending bit while its vector is masked. -/
def issue (o : HeldOut) (s : State) : State :=
  match o with
  | .out (.msix g v) =>
    if (funcOf s g).unmasked.contains v then emit (.msix g v) s
    else if (funcOf s g).pba.contains v then s
    else setFunc g { funcOf s g with pba := (funcOf s g).pba ++ [v] } s
  | .out o => emit o s
  | .record f addr phase lost r =>
    let bs := recBytes s phase lost r
    emit (.hostWrite f addr (bs.take 4)) (emit (.hostWrite f (addr + 4) (bs.drop 4)) s)

/-- A write, record or message of pair `p` (256: of no pair) and function `f`: issued, or held while Bus Master Enable is clear
(03 R79, Edge; block events likewise, log 96). -/
def issueOrHold (p : Nat) (f : FuncIx) (o : HeldOut) (s : State) : State :=
  if (funcOf s f).bme then issue o s
  else setFunc f { funcOf s f with held := (funcOf s f).held ++ [⟨p, o⟩] } s

/-- An MSI-X message to the vector of pair `p`. -/
def signalPair (p : Nat) (s : State) : State :=
  issueOrHold p (pairFunc s p) (.out (.msix (pairFunc s p) (rdf s (pairReg p 0x14) 10 0)))
    (setPair p { pairOf s p with armed := false, unsignalled := 0 } s)

/-- The condition of R101 for a message of pair `p`. -/
def signalDue (s : State) (p : Nat) : Bool :=
  (pairOf s p).armed && rdb s (pairReg p 0x14) 16 && decide (0 < (pairOf s p).unsignalled) &&
    (decide (max (rdf s (pairReg p 0x18) 15 0) 1 ≤ (pairOf s p).unsignalled) || (pairOf s p).lastUrgent ||
      (decide (rdf s (pairReg p 0x18) 31 16 ≠ 0) &&
        decide (rdf s (pairReg p 0x18) 31 16 * ticks100ns ≤ s.clk - (pairOf s p).firstPending)))

/-- The message of R101, where it is due. -/
def maybeSignal (p : Nat) (s : State) : State := if signalDue s p then signalPair p s else s

/-- The hardware sets bit `b` of the EVENT register at `o`; a bit newly set and enabled in EVENT_EN is signalled on
HOST.BLOCK_VEC (03 R102; log 8). -/
def raise (o b : Nat) (s : State) : State :=
  if rdb s o b then s
  else
    let t := wr o (rd s o ||| BitVec.ofNat 32 (2 ^ b)) s
    if rdb t (o + 4) b then issueOrHold 256 0 (.out (.msix 0 (rdf t 0x10014 8 0))) t else t

/-- An access error (03 R104, R105): KIND, BAR (0 or 2), function and offset within the BAR. -/
def aerr (kind : Nat) (bar2 : Bool) (f : FuncIx) (off : Nat) (s : State) : State :=
  raise hostEvent 0
    (wr 0x10028 (BitVec.ofNat 32 (kind + 16 * bnat bar2 + 65536 * f.val))
      (wr 0x10024 (BitVec.ofNat 32 off) (bump aerrCount 1 s)))

/-- PHASE of index `i` on lap `wrap` of a ring of depth 2^`lg` (03 R86, R91). -/
def phaseOf (i : BitVec 16) (wrap : Bool) (lg : Nat) : Bool :=
  !((bnat wrap * 65536 + i.toNat).testBit lg)

/-- DISP_COUNT and SAG_SHED count a record (12 R362). -/
def countRec (r : Rec) (s : State) : State :=
  let t := if r.cls < 6 ∧ r.disp < 11 then bump (0x30500 + 0x40 * r.cls + 4 * r.disp) 1 s else s
  if r.status = 0x50 then bump 0x30460 1 t else t

/-- The record is the final record of a descriptor: its slot was reserved (03 R93). -/
def recFinal (r : Rec) : Bool := !r.event && !r.interim

/-- Write a record on the completion ring of pair `p` (03 R95), a final one to the slot reserved for it, then the interrupt of
R101. -/
def writeRec (p : Nat) (r : Rec) (s : State) : State :=
  let i := cqProd s p
  let x := pairOf s p
  let addr := BitVec.ofNat 64 ((rd s (pairReg p 0xC)).toNat * 2 ^ 32 + (rd s (pairReg p 8)).toNat
    + 32 * (i.toNat % cqDepth s p))
  let f := pairFunc s p
  let y := { x with lost := false, cqWrap := x.cqWrap ^^ decide (i = 0xFFFF), unsignalled := x.unsignalled + 1,
                    firstPending := if x.unsignalled = 0 then s.clk else x.firstPending,
                    reserved := if recFinal r then x.reserved - 1 else x.reserved,
                    lastUrgent := r.urgent || decide (0x10 ≤ r.status) }
  maybeSignal p
    (setPair p y
      (wr (pairReg p 0x28) ((i + 1).setWidth 32)
        (issueOrHold p f (.record f addr (phaseOf i x.cqWrap (cqLog2 s p)) x.lost r) s)))

/-- Data writes of a batch, each at its host address. -/
def issueData (p : Nat) : List (Dword × List Byte) → State → State
  | [], s => s
  | (a, bs) :: t, s => issueData p t (issueOrHold p (pairFunc s p) (.out (.hostWrite (pairFunc s p) a bs)) s)

/-- Writes that a held thing makes: a record two, an MSI-X message none of the 64 (03 R79, R95). -/
def heldCost : HeldOut → Nat
  | .out (.msix _ _) => 0
  | .out _ => 1
  | .record _ _ _ _ _ => 2

/-- Held writes of pair `p` (03 R79). -/
def heldWrites (s : State) (p : Nat) : Nat :=
  (((funcOf s (pairFunc s p)).held.filter fun h => decide (h.pair = p)).map fun h => heldCost h.out).sum

/-- The writes of a batch may leave, or be held beside those held (03 R79). -/
def batchFits (s : State) (p : Nat) (b : Batch) : Bool :=
  (funcOf s (pairFunc s p)).bme || decide (heldWrites s p + b.data.length + 2 * bnat b.record.isSome ≤ 64)

/-- The record of a batch is written; an interim record only while a completion slot is free (03 R94). -/
def putRec (p : Nat) (r : Rec) (s : State) : State :=
  if r.interim && decide (cqFree s p = 0) then bump (pairReg p 0x38) 1 s else writeRec p r s

/-- A batch of work leaves: its data, then its record (03 R100 item 4); while Bus Master Enable is clear and the 64 held
writes of the pair are used up it waits (03 R79), as does what comes behind one that waits. -/
def putBatch (p : Nat) (b : Batch) (s : State) : State :=
  if batchFits s p b && decide ((pairOf s p).waiting = []) then
    (match b.record with
      | some r => putRec p r (issueData p b.data s)
      | none => issueData p b.data s)
  else setPair p { pairOf s p with waiting := (pairOf s p).waiting ++ [b] } s

/-- An event record on the event pair `p`: its number is used up whether it is written or lost (03 R91, R94). -/
def eventRec (p : Nat) (r : Rec) (s : State) : State :=
  let x := pairOf s p
  let r := { r with event := true, interim := false, ring := 2 * p + 1, descIndex := x.eventSeq, tag8 := 0 }
  let t := setPair p { x with eventSeq := x.eventSeq + 1 } s
  if pairIsEvent s p && pairActive s p && decide (1 ≤ cqFree s p) then writeRec p r t
  else bump (pairReg p 0x34) 1 (setPair p { pairOf t p with lost := true } t)

/-- A counted event record (12 R362). -/
def eventRecord (p : Nat) (r : Rec) (s : State) : State := eventRec p r (countRec r s)

/-- Nothing outside is answered: the main domain is in reset, or the ROM is in the recovery console (15 R429). -/
def hostDown (s : State) : Bool := s.board.inReset || s.mgmt.recovery

/-! ### Descriptors in flight (03 R85, R92) -/

/-- Bits [lo + n − 1 : lo] of a descriptor. -/
def dBits (d : BitVec 512) (lo n : Nat) : Nat := (d.extractLsb' lo n).toNat
def dOpcode (d : BitVec 512) : Nat := dBits d 0 8
def dClass (d : BitVec 512) : Nat := dBits d 8 3
def dPhase (d : BitVec 512) : Bool := d.getLsbD 16
def dFence (d : BitVec 512) : Bool := d.getLsbD 17
def dUrgent (d : BitVec 512) : Bool := d.getLsbD 18
def dDet (d : BitVec 512) : Nat := dBits d 19 2
def dDigest (d : BitVec 512) : Bool := d.getLsbD 21
def dA0Dev (d : BitVec 512) : Bool := d.getLsbD 22
def dA1Dev (d : BitVec 512) : Bool := d.getLsbD 23
def dTag (d : BitVec 512) : Word := d.extractLsb' 32 32
def dAddr0 (d : BitVec 512) : Dword := d.extractLsb' 64 64
def dLen0 (d : BitVec 512) : Nat := dBits d 128 32
def dLen1 (d : BitVec 512) : Nat := dBits d 160 32
def dAddr1 (d : BitVec 512) : Dword := d.extractLsb' 192 64
/-- OPWk. -/
def dOpw (d : BitVec 512) (k : Nat) : Word := d.extractLsb' (256 + 32 * k) 32

/-- The flight of a consumed descriptor. -/
def flightOf (s : State) (r : DRef) : Option Flight := s.flights.find? fun f => decide (f.ref = r)

/-- The descriptor has been accepted by its opcode's row. -/
def markStarted (r : DRef) (s : State) : State :=
  { s with flights := s.flights.map fun f => if f.ref = r then { f with started := true } else f }

/-- The success status of a record (03 R98): TIME_COARSE for time-dependent work, then OK_RETAKE, then
OK_UNTESTED_PAIR, then OK. -/
def okStatus (timeDep retaken : Bool) (s : State) : Nat :=
  if timeDep && holdoverExpired s then 0x31 else if retaken then 0x01 else if untested s then 0x02 else 0x00

/-- The record of a descriptor, before PROGRESS and RESULT. -/
def descRec (r : DRef) (d : BitVec 512) (status disp : Nat) : Rec :=
  { event := false, interim := false, status, disp, cls := dClass d, tag8 := (dTag d).setWidth 8, ring := 2 * r.pair.val,
    descIndex := r.idx, result := 0, progress := 0, faultRef := 0, urgent := dUrgent d }

/-- The final record of a consumed descriptor: its data and record leave, and it is in flight no more (03 R92, R93). Nothing happens for a descriptor that is not in flight. -/
def finish (r : DRef) (status disp : Nat) (result : Dword) (progress : Nat) (faultRef : Word)
    (data : List (Dword × List Byte)) (s : State) : State :=
  match flightOf s r with
  | none => s
  | some f =>
    let c := { descRec r f.desc status disp with result, progress := BitVec.ofNat 32 progress, faultRef }
    putBatch r.pair ⟨data, some c⟩
      (countRec c
        { s with flights := s.flights.filter (fun g => decide (g.ref ≠ r)), fault := { s.fault with dirty := true } })

/-- An interim record: written only while a completion slot is free, else skipped and counted (03 R94). -/
def interim (r : DRef) (status progress : Nat) (s : State) : State :=
  match flightOf s r with
  | none => s
  | some f =>
    let c := { descRec r f.desc status 2 with interim := true, progress := BitVec.ofNat 32 progress, urgent := false }
    let t := countRec c s
    if 1 ≤ cqFree s r.pair then putBatch r.pair ⟨[], some c⟩ t else bump (pairReg r.pair 0x38) 1 t

/-- NOT_STARTED with a status (03 R90). -/
def refuse (r : DRef) (status : Nat) (s : State) : State := finish r status 10 0 0 0 [] s

/-! ### Fault reports (14 R398, R399) -/

/-- Unit code and index of a reporting unit (03 R91, 14 R398; pool slice k has index 16 + k, 07 R206). -/
def unitCode : FaultUnit → Nat × Nat
  | .tile n => (1, n.val)
  | .hbm c => (2, c.val)
  | .pool k => (2, 16 + k.val)
  | .link l => (3, l.val)
  | .codec e => (4, e.val)
  | .gaffer => (5, 0)
  | .time => (6, 0)
  | .host p => (7, p.val)

/-- A unit reports an event to the fault unit, where CORRECTABLE_EVENT and UNCORRECTABLE_EVENT take it (14 R398). -/
def report (x : Report) (s : State) : State := { s with fault := { s.fault with reports := s.fault.reports ++ [x] } }

/-- SEQ_TAG, RING and DESC_INDEX of the work that raised an event (14 R399). -/
def workIds (s : State) : FaultWork → Word × Nat × BitVec 16
  | .none => (0, 0, 0)
  | .desc r => match flightOf s r with
    | some f => (dTag f.desc, 2 * r.pair.val, r.idx)
    | none => (0, 2 * r.pair.val, r.idx)

/-- A new entry of the fault log (14 R399): KIND, CAUSE, ACTION, MODE, the ids of the work and DETAIL. -/
def logFault (u : Nat × Nat) (kind cause action mode : Nat) (ids : Word × Nat × BitVec 16) (detail : Dword) (s : State) :
    State :=
  let q := rdf s 0x50028 15 0
  let base := 0x51000 + 32 * (q % 256)
  let t := wr 0x50028 (BitVec.ofNat 32 ((q + 1) % 65536))
    (wrMany base
      [BitVec.ofNat 32 (q + 65536 * (u.1 + 256 * u.2)), BitVec.ofNat 32 (kind + 256 * cause + 65536 * (action + 256 * mode)),
       BitVec.ofNat 32 (mainCounter s).sec.toNat, (mainCounter s).ns, ids.1,
       BitVec.ofNat 32 (ids.2.1 + 65536 * ids.2.2.toNat), detail.setWidth 32, BitVec.ofNat 32 (detail.toNat / 2 ^ 32)] s)
  { t with fault := { t.fault with dirty := true } }

/-- FAULT_REF of the entry that was logged last for a unit (03 R91). -/
def refOf (u : Nat × Nat) (s : State) : Word :=
  BitVec.ofNat 32 ((rdf s 0x50028 15 0 + 65535) % 65536 + 65536 * (u.1 + 256 * u.2))

/-- A DMA read of a descriptor's work was answered with UR, CA or poisoned data: an uncorrectable event of the host
interface is logged, and the state with it (03 R97, R484; 14 R398). -/
def logDmaError (r : DRef) (tagged : Bool) (s : State) : State :=
  raise faultEvent 1
    (bump 0x50038 1
      (logFault (7, r.pair.val) 2 1 0 0xFF
        (if tagged then workIds s (.desc r) else (0, 2 * r.pair.val, r.idx)) 0 s))

/-! ### Device memory (07) -/

/-- Start and length of the regions of the device address map (07 R199, R200). -/
abbrev poolBase : Nat := 0x8000000000
abbrev poolSize : Nat := 0x4000000
abbrev aliasBase : Nat := 0x8100000000
abbrev lsBase : Nat := 0x9000000000
abbrev lsSize : Nat := 0x300000
/-- Bytes of HBM (07 R199, R200). -/
def hbmSize : Nat := Config.nStacks * 0x600000000
/-- First device address of the local store of tile `n` (04 R134). -/
def lsAddr (n : Nat) : Nat := lsBase + 0x400000 * n

/-- A region of the device address map. -/
inductive Region where
  | hbm | pool | readOut | ls (n : Nat)
  deriving DecidableEq, Repr

/-- The region that holds all of `len` bytes from `a`, where one does (07 R199). -/
def regionOf (s : State) (a len : Nat) : Option Region :=
  if a + len ≤ hbmSize then some .hbm
  else if poolBase ≤ a ∧ a + len ≤ poolBase + poolSize then some .pool
  else if aliasBase ≤ a ∧ a + len ≤ aliasBase + 16 * (rd s 0xA0004).toNat then some .readOut
  else if lsBase ≤ a ∧ (a - lsBase) / 0x400000 < Config.nTiles ∧ (a - lsBase) % 0x400000 + len ≤ lsSize then
    some (.ls ((a - lsBase) / 0x400000))
  else none

/-- What a byte of memory that nothing has written reads as (log 2). -/
def memDefault (_ : Nat) : Byte := 0

/-- The write-combining entry of a line. -/
def wcFind (s : State) (line : Nat) : Option WcEntry := s.mem.wc.find? fun e => decide (e.line = line)

/-- The byte at device address `a` as any reader sees it (07 R204). -/
def memByte (s : State) (a : Nat) : Byte :=
  match wcFind s (a / 64) with
  | some e => if e.mask.getLsbD (a % 64) then e.data.extractLsb' (8 * (a % 64)) 8 else tabGet memDefault s.mem.bytes a
  | none => tabGet memDefault s.mem.bytes a

/-- `n` bytes from device address `a`. -/
def memRead (s : State) (a : Nat) : Nat → List Byte
  | 0 => []
  | n + 1 => memByte s a :: memRead s (a + 1) n

/-- A write-combining entry holds the byte at `a`, which a reader then sees in place of a marked one (07 R204). -/
def wcCovers (s : State) (a : Nat) : Bool := match wcFind s (a / 64) with
  | some e => e.mask.getLsbD (a % 64)
  | none => false

/-- Whether any of `n` bytes from `a` reads as poisoned. -/
def memPoisoned (s : State) (a n : Nat) : Bool :=
  s.mem.poison.any fun x => decide (a ≤ x.1) && decide (x.1 < a + n) && !wcCovers s x.1

/-- Store bytes at `a`, past the write-combining buffer; the marks of the bytes are cleared. -/
def memPut (a : Nat) (bs : List Byte) (s : State) : State :=
  { s with mem := { s.mem with
      bytes := tabSetMany memDefault s.mem.bytes a bs,
      poison := s.mem.poison.filter fun x => !(decide (a ≤ x.1) && decide (x.1 < a + bs.length)) } }

/-- Mark `n` bytes from `a` poisoned. -/
def memMark (a n : Nat) (s : State) : State :=
  { s with mem := { s.mem with poison := tabSetMany (fun _ => false) s.mem.poison a (List.replicate n true) } }

/-- HBM controller, channel and pseudo-channel of a device address (07 R201). -/
def hbmPlace (s : State) (a : Nat) : Nat × Nat × Nat :=
  let g := a / 256
  if rdb s 0x100000 0 then
    let c := a / 0x600000000
    let h := (a % 0x600000000) / 256
    let pc := (h % 32) ^^^ (h / 32 % 32) ^^^ (h / 1024 % 32) ^^^ (h / 32768 % 32) ^^^ (h / 1048576 % 32)
    (c, pc / 2, pc % 2)
  else if Config.nStacks = 4 then
    let pc := (g % 128) ^^^ (g / 128 % 128) ^^^ (g / 16384 % 128) ^^^ (g / 2097152 % 128)
    (pc / 32, pc / 2 % 16, pc % 2)
  else
    let pc := (g % 64) ^^^ (g / 64 % 64) ^^^ (g / 4096 % 64) ^^^ (g / 262144 % 64)
    (pc / 32, pc / 2 % 16, pc % 2)

/-- Number of an address's pseudo-channel: 32 × controller + 2 × channel + pseudo. -/
def pcOf (s : State) (a : Nat) : Nat := let p := hbmPlace s a; 32 * p.1 + 2 * p.2.1 + p.2.2

/-- XOR fold of the bits of a line index, `w` at a time. -/
def xorFold (w : Nat) : Nat → Nat → Nat
  | 0, _ => 0
  | n + 1, v => (v % 2 ^ w) ^^^ xorFold w n (v / 2 ^ w)

/-- Bits of a granule number that name its pseudo-channel, under a placement (07 R201). -/
def laneBitsOf (coarse : Bool) : Nat := if coarse then 5 else if Config.nStacks = 4 then 7 else 6

/-- pc_byte: the offset of an address in its pseudo-channel (07 R201). -/
def pcByte (coarse : Bool) (a : Nat) : Nat :=
  (if coarse then a % 0x600000000 else a) / 256 / 2 ^ laneBitsOf coarse * 256 + a % 256

/-- The pseudo-channel of an address under a placement: one number over all controllers. -/
def pcNumber (coarse : Bool) (a : Nat) : Nat :=
  let w := laneBitsOf coarse
  if coarse then 32 * (a / 0x600000000) + xorFold w 5 (a % 0x600000000 / 256) else xorFold w 4 (a / 256)

/-- The address that lies at a place of a pseudo-channel: the mapping is one-to-one (07 R201). -/
def pcAddr (coarse : Bool) (pc byte : Nat) : Nat :=
  let w := laneBitsOf coarse
  let line := byte / 256
  if coarse then pc / 32 * 0x600000000 + (line * 32 + (pc % 32 ^^^ xorFold w 4 line)) * 256 + byte % 256
  else (line * 2 ^ w + (pc ^^^ xorFold w 3 line)) * 256 + byte % 256

/-- Bytes of a write-combining entry stored one by one where its mask is set. -/
def wcStore (e : WcEntry) : Nat → State → State
  | 0, s => s
  | n + 1, s =>
    wcStore e n
      (if e.mask.getLsbD n then memPut (64 * e.line + n) [e.data.extractLsb' (8 * n) 8] s else s)

/-- Flush an entry: its bytes are merged over the line (07 R205). -/
def wcFlush (e : WcEntry) (s : State) : State :=
  wcStore e 64 { s with mem := { s.mem with wc := s.mem.wc.filter fun x => decide (x.line ≠ e.line) } }

/-- Flush an entry over a line that reads with an uncorrectable error: the line is marked poisoned, and the bytes of the entry
are merged over it (07 R205, Edge). -/
def wcFlushBad (e : WcEntry) (s : State) : State := wcFlush e (memMark (64 * e.line) 64 s)

/-- Flush the entry of a line, where it has one (07 R205). -/
def wcFlushLine (line : Nat) (s : State) : State :=
  match wcFind s line with
  | some e => wcFlush e s
  | none => s

/-- Merge bytes at offset `o` into an entry. -/
def wcMerge (o : Nat) : List Byte → WcEntry → WcEntry
  | [], e => e
  | b :: bs, e =>
    wcMerge (o + 1) bs
      { e with mask := e.mask ||| BitVec.ofNat 64 (2 ^ o),
               data := (e.data &&& ~~~ (BitVec.ofNat 512 (255 * 2 ^ (8 * o)))) ||| BitVec.ofNat 512 (b.toNat * 2 ^ (8 * o)) }

/-- The entry is in the channel that holds address `a`. -/
def wcSame (s : State) (a : Nat) (x : WcEntry) : Bool :=
  decide ((hbmPlace s (64 * x.line)).1 = (hbmPlace s a).1) && decide ((hbmPlace s (64 * x.line)).2.1 = (hbmPlace s a).2.1)

/-- Room in the channel of `a`: where it holds 64 entries its oldest is flushed and counted (07 R205). -/
def wcEvict (a : Nat) (s : State) : State :=
  if (s.mem.wc.filter (wcSame s a)).length < 64 then s
  else match s.mem.wc.find? (wcSame s a) with
    | some e => bump (hbmReg (hbmPlace s a).1 0x2C) 1 (wcFlush e s)
    | none => s

/-- The line of `a` has an entry. -/
def wcOpen (a : Nat) (s : State) : State :=
  match wcFind s (a / 64) with
  | some _ => s
  | none => { wcEvict a s with mem := { (wcEvict a s).mem with wc := (wcEvict a s).mem.wc ++ [WcEntry.mk (a / 64) 0 0 s.clk] } }

/-- Bytes merged into the entry of the line of `a`. -/
def wcPut (a : Nat) (bs : List Byte) (s : State) : State :=
  { s with mem := { s.mem with wc := s.mem.wc.map fun x => if x.line = a / 64 then wcMerge (a % 64) bs x else x } }

/-- A full entry of a line is flushed. -/
def wcFull (line : Nat) (s : State) : State :=
  match wcFind s line with
  | some e => if e.mask = BitVec.allOnes 64 then wcFlush e s else s
  | none => s

/-- Write bytes that lie in one 64-byte line of HBM (07 R204, R205). -/
def wcWrite (a : Nat) (bs : List Byte) (s : State) : State :=
  if bs.length = 64 then
    memPut a bs { s with mem := { s.mem with wc := s.mem.wc.filter fun x => decide (x.line ≠ a / 64) } }
  else wcFull (a / 64) (wcPut a bs (wcOpen a s))

/-- Write bytes to HBM line by line; `n` bounds the number of lines. -/
def hbmWrite : Nat → Nat → List Byte → State → State
  | 0, _, _, s => s
  | n + 1, a, bs, s =>
    if bs = [] then s
    else hbmWrite n (64 * (a / 64) + 64) (bs.drop (64 - a % 64)) (wcWrite a (bs.take (64 - a % 64)) s)

/-- Write bytes to device memory: HBM through the write-combining entries, pool and local stores directly. -/
def memWrite (a : Nat) (bs : List Byte) (s : State) : State :=
  if a + bs.length ≤ hbmSize then hbmWrite (bs.length / 64 + 2) a bs s else memPut a bs s

/-- A read of `n` lines from HBM line `line` flushes their entries first (07 R205). -/
def wcFlushLines : Nat → Nat → State → State
  | 0, _, s => s
  | n + 1, line, s => wcFlushLines n (line + 1) (wcFlushLine line s)

/-- What reading `len` bytes at `a` leaves: entries of HBM lines read are flushed. -/
def memTouch (a len : Nat) (s : State) : State :=
  if a + len ≤ hbmSize ∧ len ≠ 0 then wcFlushLines ((a + len - 1) / 64 - a / 64 + 1) (a / 64) s else s

/-! ### Tiles and threads (04, 05) -/

/-- Tile `n`. -/
def tileOf (s : State) (n : Nat) : Tile := tabGet (fun _ => {}) s.tiles n
def setTile (n : Nat) (x : Tile) (s : State) : State := { s with tiles := tabSet (fun _ => {}) s.tiles n x }

/-- Thread `t` of a tile. -/
def thrOf (x : Tile) (t : Thr) : Thread := if t = 0 then x.c0 else x.c1
def setThr (t : Thr) (y : Thread) (x : Tile) : Tile := if t = 0 then { x with c0 := y } else { x with c1 := y }
def threadOf (s : State) (n : Nat) (t : Thr) : Thread := thrOf (tileOf s n) t
def setThread (n : Nat) (t : Thr) (y : Thread) (s : State) : State := setTile n (setThr t y (tileOf s n)) s

/-- Array Ak of a tile. -/
def arrOf (x : Tile) (k : Nat) : MArray := match k with
  | 0 => x.a0 | 1 => x.a1 | 2 => x.a2 | _ => x.a3
def setArr (k : Nat) (a : MArray) (x : Tile) : Tile := match k with
  | 0 => { x with a0 := a } | 1 => { x with a1 := a } | 2 => { x with a2 := a } | _ => { x with a3 := a }

/-- TILE_n.STATUS.FENCED (14 R401). -/
def fenced (s : State) (n : Nat) : Bool := rdb s (tileReg n 4) 0

/-! ### The partition map (01 R23–R28) -/

/-- KIND, FMODE, SU_EN and SU_FROM of partition `p`. -/
def partKind (s : State) (p : Nat) : Nat := rdf s (0x30200 + 4 * p) 1 0
def partTake (s : State) (p : Nat) : Bool := rdb s (0x30200 + 4 * p) 4
def tilePart (s : State) (n : Nat) : Nat := rdf s (0x30100 + 4 * n) 2 0

/-- How a tile stands in the map that the lock resolved: 0 unassigned, 1 member, 2 standby (01 R28). -/
def tileRole (s : State) (n : Nat) : Nat :=
  let r := rdf s (0x30100 + 4 * n) 5 4
  let k := partKind s (tilePart s n)
  if ¬ locked s ∨ r = 0 ∨ k = 0 then 0 else if r = 2 ∧ k ≠ 1 then 1 else r

/-- The PHY partition, where one is configured (01 R26). -/
def phyPart (s : State) : Option Nat := (List.range 8).find? fun p => decide (partKind s p = 1)

/-- SU_EN is honoured: the SCORE partition whose work may be placed (01 R28 item 3). -/
def suFrom (s : State) : Option Nat :=
  match phyPart s with
  | none => none
  | some p =>
    if rdb s (0x30200 + 4 * p) 8 ∧ partKind s (rdf s (0x30200 + 4 * p) 18 16) = 2 ∧ locked s then
      some (rdf s (0x30200 + 4 * p) 18 16)
    else none

/-- In-service members of partition `p`, ascending (01 R28, 14 R401). -/
def members (s : State) (p : Nat) : List Nat :=
  (List.range Config.nTiles).filter fun n =>
    decide (tilePart s n = p) && decide (tileRole s n = 1) && !fenced s n

/-- In-service standby tiles of partition `p`, ascending. -/
def standbys (s : State) (p : Nat) : List Nat :=
  (List.range Config.nTiles).filter fun n =>
    decide (tilePart s n = p) && decide (tileRole s n = 2) && !fenced s n

end Sys2Proof.Machine
end

