-- ==== Sys2Proof/Machine/Numbers.lean ====
section
/-! DEFINITION. The number formats (04 R109, R118, R119, R121): exact values, decoding and rounding. -/

namespace Sys2Proof.Machine

/-- A float value: NaN, an infinity, or the exact finite value (−1)^neg · m · 2^e. -/
inductive FVal where
  | nan
  | inf (neg : Bool)
  | fin (neg : Bool) (m : Nat) (e : Int)
  deriving DecidableEq, Repr

/-- A float format (04 R109). -/
structure FFmt where
  ebits : Nat
  mbits : Nat
  bias : Int
  /-- E4M3: no infinity, one NaN code -/
  e4m3 : Bool := false
  deriving DecidableEq, Repr

def fp32 : FFmt := ⟨8, 23, 127, false⟩
def bf16 : FFmt := ⟨8, 7, 127, false⟩
def fp16 : FFmt := ⟨5, 10, 15, false⟩
def e4m3 : FFmt := ⟨4, 3, 7, true⟩
def e5m2 : FFmt := ⟨5, 2, 15, false⟩

/-- Exponent of the smallest subnormal. -/
def fmtQMin (f : FFmt) : Int := 1 - f.bias - f.mbits
/-- The largest finite code without its sign. -/
def fmtMax (f : FFmt) : Nat := if f.e4m3 then 2 ^ (f.ebits + f.mbits) - 2 else (2 ^ f.ebits - 1) * 2 ^ f.mbits - 1
/-- The canonical NaN (04 R119). -/
def fmtNaN (f : FFmt) : Nat :=
  if f.e4m3 then 2 ^ (f.ebits + f.mbits) - 1 else (2 ^ f.ebits - 1) * 2 ^ f.mbits + 2 ^ (f.mbits - 1)
/-- Infinity of a format that has one; the NaN of E4M3 otherwise (04 R118). -/
def fmtInf (f : FFmt) : Nat := if f.e4m3 then fmtNaN f else (2 ^ f.ebits - 1) * 2 ^ f.mbits

/-- The value that a code of a format stands for (04 R109). -/
def fDecode (f : FFmt) (w : Nat) : FVal :=
  let neg := w.testBit (f.ebits + f.mbits)
  let c := w % 2 ^ (f.ebits + f.mbits)
  let ex := c / 2 ^ f.mbits
  let man := c % 2 ^ f.mbits
  if f.e4m3 ∧ c = fmtNaN f then .nan
  else if ¬ f.e4m3 ∧ ex = 2 ^ f.ebits - 1 then (if man = 0 then .inf neg else .nan)
  else if ex = 0 then .fin neg man (fmtQMin f)
  else .fin neg (2 ^ f.mbits + man) (fmtQMin f + (ex - 1 : Nat))

/-- A quotient m / 2^k rounded to nearest, ties to even. -/
def rneShift (m k : Nat) : Nat :=
  let q := m / 2 ^ k
  let r := m % 2 ^ k
  if k = 0 then m
  else if 2 ^ (k - 1) < r then q + 1
  else if r = 2 ^ (k - 1) then q + q % 2
  else q

/-- An integer divided by 2^k, rounded to nearest, ties to even (04 R118). -/
def rneInt (v : Int) (k : Nat) : Int :=
  if v < 0 then -(rneShift v.natAbs k : Int) else (rneShift v.natAbs k : Int)

/-- Number of bits of a number. -/
def bitLen (m : Nat) : Nat := if m = 0 then 0 else Nat.log2 m + 1

/-- A value rounded once to a format, to nearest with ties to even; on overflow the largest finite value where `sat`,
otherwise infinity, or NaN for E4M3 (04 R118). -/
def fEncode (f : FFmt) (sat : Bool) : FVal → Nat
  | .nan => fmtNaN f
  | .inf neg =>
    if f.e4m3 ∧ ¬ sat then fmtNaN f
    else bnat neg * 2 ^ (f.ebits + f.mbits) + (if f.e4m3 then fmtMax f else fmtInf f)
  | .fin neg m e =>
    let s := bnat neg * 2 ^ (f.ebits + f.mbits)
    if m = 0 then s
    else
      let q : Int := max ((bitLen m : Int) + e - (f.mbits + 1)) (fmtQMin f)
      let r := if q ≤ e then m * 2 ^ (e - q).toNat else rneShift m (q - e).toNat
      let c := if r < 2 ^ f.mbits then r else ((q - fmtQMin f).toNat * 2 ^ f.mbits) + r
      if fmtMax f < c then (if f.e4m3 ∧ ¬ sat then fmtNaN f else s + (if sat then fmtMax f else fmtInf f)) else s + c

/-- A result of the arrays rounded to a format: one that rounds to zero is +0 unless every addend was −0 (04 R119). -/
def fEncodeSum (f : FFmt) (sat : Bool) (v : FVal) : Nat :=
  match v with
  | .fin _ m _ => if fEncode f sat v % 2 ^ (f.ebits + f.mbits) = 0 ∧ m ≠ 0 then 0 else fEncode f sat v
  | _ => fEncode f sat v

/-- The integer m · 2^(e − q) with its sign, for q ≤ e. -/
def finInt (neg : Bool) (m : Nat) (e q : Int) : Int :=
  let v : Int := ((m * 2 ^ (e - q).toNat : Nat) : Int)
  if neg then -v else v

/-- The exact sum (04 R119): opposite infinities give NaN; a zero is + unless both addends are −0. -/
def fAdd : FVal → FVal → FVal
  | .nan, _ => .nan
  | _, .nan => .nan
  | .inf a, .inf b => if a = b then .inf a else .nan
  | .inf a, .fin _ _ _ => .inf a
  | .fin _ _ _, .inf b => .inf b
  | .fin n1 m1 e1, .fin n2 m2 e2 =>
    let q := min e1 e2
    let v := finInt n1 m1 e1 q + finInt n2 m2 e2 q
    if v = 0 then .fin (decide (m1 = 0) && decide (m2 = 0) && n1 && n2) 0 q else .fin (decide (v < 0)) v.natAbs q

/-- The exact product (04 R119): infinity times zero gives NaN. -/
def fMul : FVal → FVal → FVal
  | .nan, _ => .nan
  | _, .nan => .nan
  | .inf a, .inf b => .inf (a ^^ b)
  | .inf a, .fin n m _ => if m = 0 then .nan else .inf (a ^^ n)
  | .fin n m _, .inf b => if m = 0 then .nan else .inf (n ^^ b)
  | .fin n1 m1 e1, .fin n2 m2 e2 => .fin (n1 ^^ n2) (m1 * m2) (e1 + e2)

/-- The order of two values: less, equal or greater; none where one is NaN. −0 equals +0. -/
def fCompare : FVal → FVal → Option Ordering
  | .nan, _ => none
  | _, .nan => none
  | .inf a, .inf b => some (if a = b then .eq else if a then .lt else .gt)
  | .inf a, .fin _ _ _ => some (if a then .lt else .gt)
  | .fin _ _ _, .inf b => some (if b then .gt else .lt)
  | .fin n1 m1 e1, .fin n2 m2 e2 =>
    let q := min e1 e2
    some (compare (finInt n1 m1 e1 q) (finInt n2 m2 e2 q))

/-- The sign of a value; NaN counts as positive. -/
def fNeg : FVal → Bool
  | .nan => false
  | .inf n => n
  | .fin n _ _ => n

/-- Minimum and maximum: NaN if either is NaN, −0 below +0 (04 R126). -/
def fMinMax (mx : Bool) (a b : FVal) : FVal :=
  match fCompare a b with
  | none => .nan
  | some .lt => if mx then b else a
  | some .gt => if mx then a else b
  | some .eq => if fNeg a = mx then b else a

/-- An integer as a value. -/
def fInt (v : Int) : FVal := .fin (decide (v < 0)) v.natAbs 0

/-! ### Exact values (04 R121–R123) -/

/-- A value added exactly. -/
def exAdd (x : Exact) : FVal → Exact
  | .nan => { x with nan := true }
  | .inf true => { x with ninf := true }
  | .inf false => { x with pinf := true }
  | .fin n m e => { x with value := x.value + BitVec.ofInt 640 (finInt n m e (-272)) }

/-- Two exact values added. -/
def exAddEx (x y : Exact) : Exact :=
  { value := x.value + y.value, nan := x.nan || y.nan, pinf := x.pinf || y.pinf, ninf := x.ninf || y.ninf }

/-- What an exact value reads out as before it is rounded (04 R123). -/
def exVal (x : Exact) : FVal :=
  if x.nan || (x.pinf && x.ninf) then .nan
  else if x.pinf then .inf false
  else if x.ninf then .inf true
  else .fin (decide (x.value.toInt < 0)) x.value.toInt.natAbs (-272)

/-- The 80-byte value form (04 R121). -/
def exBytes (x : Exact) : List Byte := leBytes 80 x.value.toNat
/-- An exact value from its 80 bytes. -/
def exOfBytes (bs : List Byte) : Exact := { value := BitVec.ofNat 640 (leNat (bs.take 80)) }

/-- An exact value whose integer part is read out as an integer: rounded, ties to even, after a right shift. -/
def exInt (x : Exact) (shift : Nat) : Int := rneInt x.value.toInt (272 + shift)

/-- An integer narrowed to `n` bits: saturated where `sat`, else wrapped (04 R118, R127). -/
def narrow (n : Nat) (sat : Bool) (v : Int) : Nat :=
  (BitVec.ofInt n (if sat then clampInt (-(2 ^ (n - 1))) (2 ^ (n - 1) - 1) v else v)).toNat

/-- Whether narrowing with saturation clamps. -/
def clamps (n : Nat) (v : Int) : Bool := decide (v < -(2 ^ (n - 1))) || decide ((2 : Int) ^ (n - 1) - 1 < v)

end Sys2Proof.Machine
end

