-- ==== Sys2Proof/Machine/Operands.lean ====
section
/-! DEFINITION. Operand forms of the control core: data registers, head addressing, effective-address checks and
companion transfers (05 R145, R150, R154–R156). -/

namespace Sys2Proof.Machine

/-- Registers of a thread; an unlisted one holds 0 (05 R147). -/
def getD (y : Thread) (k : Nat) : Word := tabGet (fun _ => 0) y.d k
def setD (k : Nat) (v : Word) (y : Thread) : Thread := { y with d := tabSet (fun _ => 0) y.d k v }
def getAcc (y : Thread) (k : Nat) : BitVec 72 := tabGet (fun _ => 0) y.acc k
def setAcc (k : Nat) (v : BitVec 72) (y : Thread) : Thread := { y with acc := tabSet (fun _ => 0) y.acc k v }
def getH (y : Thread) (k : Nat) : Word := tabGet (fun _ => 0) y.h k
def setH (k : Nat) (v : Word) (y : Thread) : Thread := { y with h := tabSet (fun _ => 0) y.h k v }
def getS (y : Thread) (k : Nat) : Word := tabGet (fun _ => 0) y.s k
def setS (k : Nat) (v : Word) (y : Thread) : Thread := { y with s := tabSet (fun _ => 0) y.s k v }
def getW (y : Thread) (k : Nat) : Word := tabGet (fun _ => 0) y.w k
def setW (k : Nat) (v : Word) (y : Thread) : Thread := { y with w := tabSet (fun _ => 0) y.w k v }
def getE (y : Thread) (k : Nat) : Word := tabGet (fun _ => 0) y.e k
def setE (k : Nat) (v : Word) (y : Thread) : Thread := { y with e := tabSet (fun _ => 0) y.e k v }

/-- The address register that SEL names (05 R148 F3). -/
def getA (y : Thread) (sel : ASel) (k : Nat) : Word := match sel with
  | .h => getH y k | .s => getS y k | .w => getW y k | .e => getE y k
def setA (sel : ASel) (k : Nat) (v : Word) (y : Thread) : Thread := match sel with
  | .h => setH k v y | .s => setS k v y | .w => setW k v y | .e => setE k v y

/-- Bits [21:0] of a number in reverse order; bits above are dropped (05 R155). -/
def rev22 (v : Nat) : Nat :=
  (List.range 22).foldl (fun acc i => acc + bnat (v.testBit i) * 2 ^ (21 - i)) 0

/-- Reverse-carry addition (05 R155). -/
def rcAdd (a n : Nat) : Nat := rev22 (rev22 a + rev22 n)

/-- AMODE as the next instruction to enter A finds it (05 R156, Edge). -/
def amodeNow (y : Thread) : Byte := if 0 < y.amodeLate then y.amodeWas else y.amode

/-- The head after a step, in signed 64-bit arithmetic (05 R154). -/
def nextHead (y : Thread) (k : Nat) (step : Int) : Word :=
  if (amodeNow y).getLsbD k then
    getW y k + BitVec.ofNat 32 (rcAdd (getH y k - getW y k).toNat (BitVec.ofInt 32 step).toNat)
  else
    let t : Int := (getH y k).toNat + step
    let w : Int := (getW y k).toNat
    let e : Int := (getE y k).toNat
    BitVec.ofInt 32
      (if e = 0 then t else if w + e ≤ t then t - e else if t < w then t + e else t)

/-- The address and the head after it, of an F2 access (05 R154). -/
def memAddr (y : Thread) (f : MemF) (size : Nat) : Word × Thread :=
  let h := getH y f.hx.val
  match f.am.toNat with
  | 0 => (h + f.imm.signExtend 32, y)
  | 1 => (h, setH f.hx.val (nextHead y f.hx.val (getS y f.hx.val).toInt) y)
  | 2 => (h, setH f.hx.val (nextHead y f.hx.val f.imm.toInt) y)
  | _ => (h, setH f.hx.val (nextHead y f.hx.val size) y)

/-- Exception codes (05 R169). -/
abbrev excIllegal : Nat := 1
abbrev excAlign : Nat := 2
abbrev excBounds : Nat := 3
abbrev excPoison : Nat := 4
abbrev excLoopOvf : Nat := 5
abbrev excCallStack : Nat := 6
abbrev excAtomic : Nat := 7

/-- The check of an access of `len` bytes aligned to `al` (05 R156): the exception it raises, if any. An address at or above
the store's end is out of bounds; so is an unaligned vector access that runs past it (log 14). -/
def addrCheck (a len al : Nat) : Option Nat :=
  if lsSize ≤ a then some excBounds
  else if a % al ≠ 0 then some excAlign
  else if lsSize < a + len then some excBounds else none

/-- The check of a load: also that no byte of it is poisoned (05 R169). -/
def loadCheck (s : State) (n a len al : Nat) : Option Nat :=
  match addrCheck a len al with
  | some c => some c
  | none => if memPoisoned s (lsAddr n + a) len then some excPoison else none

/-- `len` bytes of the local store of tile `n`, as a number. -/
def lsLoad (s : State) (n a len : Nat) : Nat := leNat (memRead s (lsAddr n + a) len)
/-- Store `len` bytes. -/
def lsStore (n a len v : Nat) (s : State) : State := memPut (lsAddr n + a) (leBytes len v) s

/-- One companion transfer (05 R150). -/
structure Companion where
  on : Bool
  /-- local store written -/
  out : Bool
  /-- head register -/
  head : Nat
  /-- advance by the step register -/
  step : Bool
  /-- the transfer register -/
  reg : Nat
  deriving DecidableEq, Repr

/-- The X transfer of a CT field, and the Y transfer. -/
def compX (ct : BitVec 11) : Companion :=
  ⟨ct.getLsbD 10, ct.getLsbD 9, (ct.extractLsb' 7 2).toNat, ct.getLsbD 6, 14⟩
def compY (ct : BitVec 11) : Companion :=
  ⟨ct.getLsbD 5, ct.getLsbD 4, 4 + (ct.extractLsb' 2 2).toNat, ct.getLsbD 1, 15⟩

/-- The exception that a companion transfer raises, if any. -/
def compCheck (s : State) (n : Nat) (y : Thread) (c : Companion) : Option Nat :=
  if c.on then
    (if c.out then addrCheck (getH y c.head).toNat 4 4 else loadCheck s n (getH y c.head).toNat 4 4)
  else none

/-- The thread after a companion transfer: its head moves, and a transfer inward fills its register. `y0` is the thread
before the instruction. -/
def compThread (s : State) (n : Nat) (y0 : Thread) (c : Companion) (y : Thread) : Thread :=
  if c.on then
    let y := setH c.head (nextHead y0 c.head (if c.step then (getS y0 c.head).toInt else 4)) y
    if c.out then y else setD c.reg (BitVec.ofNat 32 (lsLoad s n (getH y0 c.head).toNat 4)) y
  else y

/-- The store of a companion transfer outward: the register as it stood before the instruction. -/
def compStore (n : Nat) (y0 : Thread) (c : Companion) (s : State) : State :=
  if c.on && c.out then lsStore n (getH y0 c.head).toNat 4 (getD y0 c.reg).toNat s else s

end Sys2Proof.Machine
end

