-- ==== Sys2Proof/Machine/Flags.lean ====
section
/-! DEFINITION. Flags, conditions and saturation of the control core (05 R151, R161, R162). -/

namespace Sys2Proof.Machine

/-- Z, N, C and SV. -/
def flagZ (y : Thread) : Bool := y.flags.getLsbD 0
def flagN (y : Thread) : Bool := y.flags.getLsbD 1
def flagC (y : Thread) : Bool := y.flags.getLsbD 2
def flagSV (y : Thread) : Bool := y.flags.getLsbD 3

/-- A flag word from its four flags. -/
def flagBits (z n c sv : Bool) : BitVec 4 := BitVec.ofNat 4 (bnat z + 2 * bnat n + 4 * bnat c + 8 * bnat sv)

/-- CMP and CMPI set Z, N and C; SV stays (05 R151). -/
def setCmp (a b : Word) (y : Thread) : Thread :=
  { y with flags := flagBits (decide (a = b)) (a.slt b) (a.ult b) (flagSV y) }
/-- C alone. -/
def setC (c : Bool) (y : Thread) : Thread := { y with flags := flagBits (flagZ y) (flagN y) c (flagSV y) }
/-- SV is set by a clamp and stays (05 R162). -/
def stickSV (b : Bool) (y : Thread) : Thread :=
  { y with flags := flagBits (flagZ y) (flagN y) (flagC y) (flagSV y || b) }

/-- Whether a condition holds (05 R151). -/
def condHolds (y : Thread) : Cond → Bool
  | .al => true
  | .eq => flagZ y
  | .ne => !flagZ y
  | .lt => flagN y
  | .ge => !flagN y
  | .ltu => flagC y
  | .geu => !flagC y
  | .le => flagZ y || flagN y
  | .gt => !flagZ y && !flagN y
  | .svs => flagSV y
  | .svc => !flagSV y

/-- A 32-bit result under bit S: the word, and whether it clamped (05 R161). -/
def sat32 (sb : Bool) (v : Int) : Word × Bool := (BitVec.ofNat 32 (narrow 32 sb v), sb && clamps 32 v)

/-- Two 16-bit results under bit S (05 R161). -/
def sat16x2 (sb : Bool) (hi lo : Int) : Word × Bool :=
  (BitVec.ofNat 32 (narrow 16 sb hi * 65536 + narrow 16 sb lo), sb && (clamps 16 hi || clamps 16 lo))

/-- The signed halves of a word. -/
def hiHalf (w : Word) : Int := (w.extractLsb' 16 16).toInt
def loHalf (w : Word) : Int := (w.extractLsb' 0 16).toInt

end Sys2Proof.Machine
end

