-- ==== Sys2Proof/Machine/FlowRec.lean ====
section
/-! DEFINITION. Flow records: where they lie, their fields, the 64 features of a flow model, and the event records that
report verdicts (10 R291–R298, R308, R309). -/

namespace Sys2Proof.Machine

/-! ### Bytes -/

/-- A list of bytes with `new` written at offset `o`. -/
def putAt (bs : List Byte) (o : Nat) (new : List Byte) : List Byte := bs.take o ++ new ++ bs.drop (o + new.length)

/-- The number that big-endian bytes spell. -/
def beNat (bs : List Byte) : Nat := leNat bs.reverse
/-- `n` bytes from offset `o`, big-endian. -/
def beAt (bs : List Byte) (o n : Nat) : Nat := beNat ((bs.drop o).take n)
/-- The number as `n` big-endian bytes. -/
def beBytes (n v : Nat) : List Byte := (leBytes n v).reverse

/-- Zero bytes. -/
def zeros (n : Nat) : List Byte := List.replicate n 0

/-! ### CRCs -/

/-- One byte into a reflected CRC-32 register: eight shifts. -/
def crcShift (poly : Nat) : Nat → Nat → Nat
  | 0, c => c
  | n + 1, c => crcShift poly n (if c % 2 = 1 then (c / 2) ^^^ poly else c / 2)

/-- Bytes into a reflected CRC register. -/
def crcFeed (poly : Nat) : List Byte → Nat → Nat
  | [], c => c
  | b :: bs, c => crcFeed poly bs (crcShift poly 8 (c ^^^ b.toNat))

/-- CRC-32 of IEEE 802.3. -/
def crc32 (bs : List Byte) : Nat := crcFeed 0xEDB88320 bs 0xFFFFFFFF ^^^ 0xFFFFFFFF

/-- `n` shifts of the CRC-64 of ECMA-182, most significant bit first (13 R371). -/
def crc64Shift : Nat → Dword → Dword
  | 0, c => c
  | n + 1, c => crc64Shift n (if c.getLsbD 63 then (c <<< 1) ^^^ 0x42F0E1EBA9EA3693 else c <<< 1)

/-- crc_block: the CRC of a canonical block, its index the seed (13 R371). -/
def crcBlock : List Byte → Dword → Dword
  | [], c => c
  | b :: bs, c => crcBlock bs (crc64Shift 8 (c ^^^ (b.setWidth 64 <<< 56)))

/-- The dailies digest of a tensor from block `k` on: the sum over its blocks of 256 bytes, the last the remainder; `n` bounds
their number (13 R371). -/
def digestFrom : Nat → Nat → List Byte → Dword
  | 0, _, _ => 0
  | n + 1, k, bs => if bs = [] then 0 else crcBlock (bs.take 256) (BitVec.ofNat 64 k) + digestFrom n (k + 1) (bs.drop 256)

/-- The dailies digest of a tensor's bytes. -/
def dailies (bs : List Byte) : Dword := digestFrom (bs.length / 256 + 1) 0 bs

/-- Hash of a flow key: CRC-32C with FLOWFRONT.HASH_SEED as the initial register (10 R291). -/
def flowHash (s : State) (key : List Byte) : Nat := crcFeed 0x82F63B78 key (rd s 0x60014).toNat ^^^ 0xFFFFFFFF

/-! ### The table (10 R291, R292) -/

/-- The flow front runs (10 R284). -/
def flowRuns (s : State) : Bool :=
  locked s && decide (rdf s bootStatus 1 0 = 2) && rdb s 0x60000 0 && !rdb s 0x60004 1

/-- FLOWFRONT.FT_CFG: FT_LOG2 and the start of the table. -/
def ftLog2 (s : State) : Nat := rdf s 0x60010 5 0
def ftBase (s : State) : Nat := rdf s 0x60010 14 8 * 2 ^ 30
def flowAddr (s : State) (i : Nat) : Nat := ftBase s + 128 * i
/-- Record number `i`. -/
def flowRec (s : State) (i : Nat) : List Byte := memRead s (flowAddr s i) 128
def setFlowRec (i : Nat) (r : List Byte) (s : State) : State := memWrite (flowAddr s i) r s
/-- The bucket of a key. -/
def flowBucket (s : State) (key : List Byte) : Nat := flowHash s key % 2 ^ (ftLog2 s - 3)

/-- What the flow front keeps beside record `i`. -/
def flowX (s : State) (i : Nat) : FlowX := tabGet (fun _ => {}) s.flow.x i
def setFlowX (i : Nat) (x : FlowX) (s : State) : State :=
  { s with flow := { s.flow with x := tabSet (fun _ => {}) s.flow.x i x } }

/-! ### Fields of a record (10 R294) -/

def frState (r : List Byte) : Nat := leAt r 44 1 % 4
def frBit (r : List Byte) (byte b : Nat) : Bool := (leAt r byte 1).testBit b
def frSetBit (byte b : Nat) (v : Bool) (r : List Byte) : List Byte :=
  let x := leAt r byte 1
  putAt r byte (leBytes 1 (x - bnat (x.testBit b) * 2 ^ b + bnat v * 2 ^ b))
def frSetState (v : Nat) (r : List Byte) : List Byte := putAt r 44 (leBytes 1 (leAt r 44 1 / 4 * 4 + v))
def frHeld (r : List Byte) : Bool := frBit r 44 2
def frUnscored (r : List Byte) : Bool := frBit r 44 3
def frInitB (r : List Byte) : Bool := frBit r 44 4
def frSticky (r : List Byte) : Bool := frBit r 44 5
def frPolicy (r : List Byte) : Nat := leAt r 45 1 % 16
def frVerdict (r : List Byte) : Nat := leAt r 48 4
def frSetVerdict (v : Nat) (r : List Byte) : List Byte := putAt r 48 (leBytes 4 v)
def frHoldCount (r : List Byte) : Nat := leAt r 47 1
def frSetHoldCount (v : Nat) (r : List Byte) : List Byte := putAt r 47 (leBytes 1 v)
def frPktsA (r : List Byte) : Nat := leAt r 64 4
def frPktsB (r : List Byte) : Nat := leAt r 68 4
def frBytesA (r : List Byte) : Nat := leAt r 72 5
def frBytesB (r : List Byte) : Nat := leAt r 77 5
def frLastUs (r : List Byte) : Nat := leAt r 60 4

/-! ### Policies (10 R299, R320) -/

def pcfg (i : Nat) : Nat := 0x60200 + 16 * i
def polMode (s : State) (i : Nat) : Nat := rdf s (pcfg i) 1 0
def polCeilDrop (s : State) (i : Nat) : Bool := rdb s (pcfg i) 2
def polRegate (s : State) (i : Nat) : Bool := rdb s (pcfg i) 3
def polFirstN (s : State) (i : Nat) : Nat := rdf s (pcfg i) 8 4
def polIdleTrig (s : State) (i : Nat) : Bool := rdb s (pcfg i) 9
def polEndTrig (s : State) (i : Nat) : Bool := rdb s (pcfg i) 10
def polSink (s : State) (i : Nat) : Nat := rdf s (pcfg i) 12 11
def polExtract (s : State) (i : Nat) : Bool := rdb s (pcfg i) 13
def polProfile (s : State) (i : Nat) : Nat := rdf s (pcfg i) 16 14
def polModel (s : State) (i : Nat) : Nat := rdf s (pcfg i + 4) 15 0
def polHoldUs (s : State) (i : Nat) : Nat := rdf s (pcfg i + 8) 7 0
def polHoldPkts (s : State) (i : Nat) : Nat := rdf s (pcfg i + 8) 14 8
def polEveryM (s : State) (i : Nat) : Nat := rdf s (pcfg i + 12) 15 0
def polIdleS (s : State) (i : Nat) : Nat := rdf s (pcfg i + 12) 31 16

/-! ### Features (10 R298), each rounded once to BF16 -/

/-- BF16 of floor `n` in units of 2^-`f`; `exact` says that nothing lies below it. -/
def bfFixed (neg : Bool) (n f : Nat) (exact : Bool) : Nat :=
  fEncode bf16 false (.fin neg (2 * n + bnat (!exact)) (-(f : Int) - 1))

/-- A non-negative quantity in fixed point with 160 fraction bits, floored, and whether it is exact. -/
structure Fix where
  n : Nat
  exact : Bool
  deriving DecidableEq, Repr

/-- A quotient; 0 where the divisor is 0. -/
def fixRat (p q : Nat) : Fix := if q = 0 then ⟨0, true⟩ else ⟨p * 2 ^ 160 / q, decide (p * 2 ^ 160 % q = 0)⟩

/-- The square root of a quotient. -/
def fixSqrt (p q : Nat) : Fix :=
  if q = 0 then ⟨0, true⟩
  else
    let r := Nat.sqrt (p * 2 ^ 320 / q)
    ⟨r, decide (r * r = p * 2 ^ 320 / q) && decide (p * 2 ^ 320 % q = 0)⟩

/-- The next `n` fraction bits of log2 of `m` / 2^255, for `m` in [2^255, 2^256). -/
def logBits : Nat → Nat → Nat → Nat
  | 0, _, acc => acc
  | n + 1, m, acc =>
    let q := m * m / 2 ^ 255
    if 2 ^ 256 ≤ q then logBits n (q / 2) (2 * acc + 1) else logBits n q (2 * acc)

/-- log2(1 + x), with 80 fraction bits, as BF16. -/
def bfLog (x : Fix) : Nat :=
  let y := 2 ^ 160 + x.n
  let k := Nat.log2 y
  let m := if k ≤ 255 then y * 2 ^ (255 - k) else y / 2 ^ (k - 255)
  let l := logBits 80 m 0
  bfFixed false ((k - 160) * 2 ^ 80 + l) 80 (x.exact && decide (y = 2 ^ k))

/-- A quantity as BF16. -/
def bfFix (x : Fix) : Nat := bfFixed false x.n 160 x.exact
/-- An integer as BF16. -/
def bfInt (v : Int) : Nat := fEncode bf16 false (fInt v)
/-- 2^(c/4) − 1 as BF16. -/
def bfIat (c : Nat) : Nat :=
  if c % 4 = 0 then bfInt (2 ^ (c / 4) - 1)
  else bfFixed false (Nat.sqrt (Nat.sqrt (2 ^ (c + 4 * 96))) - 2 ^ 96) 96 false

/-- The 64 features of a record at a trigger of kind `trig`, as BF16 codes (10 R298; log 18). -/
def features (r : List Byte) (trig : Nat) : List Nat :=
  let pa := frPktsA r
  let pb := frPktsB r
  let ba := frBytesA r
  let bb := frBytesB r
  let us := frLastUs r
  let n := pa + pb
  let sum := ba + bb
  let f := fun (p q : Nat) => fixRat p q
  let mean := f sum n
  -- variance = (256 LEN_SQ n − sum²) / n²
  let sd := fixSqrt (256 * leAt r 88 4 * n - sum * sum) (n * n)
  let portA := beAt r 32 2
  let portB := beAt r 34 2
  let logs := [f pa 1, f pb 1, f ba 1, f bb 1, f us 1, f (leAt r 84 2) 1, f (leAt r 86 2) 1, mean, sd,
    f us (n - 1), f (leAt r 92 4) 1]
  [bfInt pa, bfInt pb, bfInt ba, bfInt bb, bfInt us, bfInt (leAt r 36 1),
   bfInt (if frInitB r then portA else portB), bfInt (if frInitB r then portB else portA),
   bfInt (leAt r 82 1), bfInt (leAt r 83 1), bfInt (leAt r 84 2), bfInt (leAt r 86 2), bfFix mean, bfFix sd,
   bfFix (f us (n - 1)), bfInt (leAt r 92 4)] ++
  (List.range 8).map (fun k => bfInt (signedOf 16 (leAt r (96 + 2 * k) 2))) ++
  (List.range 8).map (fun k => bfIat (leAt r (112 + k) 1)) ++
  [bfInt (leAt r 120 1), bfInt (leAt r 121 1), bfInt (leAt r 122 1), bfInt (leAt r 123 1),
   bfInt (bnat (frBit r 37 0)), bfInt (leAt r 37 1 / 2 % 4), bfInt (bnat (frBit r 37 3)), bfInt (bnat (frInitB r)),
   bfInt (bnat (frBit r 44 6 && frBit r 44 7)), bfInt (bnat (frBit r 45 4)), bfInt trig, bfInt (frPolicy r)] ++
  logs.map bfLog ++
  [bfFix (f ba sum), bfFix (f pa n), bfFix (f ba pa), bfFix (f bb pb), bfFix (f (1000000 * n) us),
   bfFix (f (1000000 * sum) us), 0, 0, 0x3F80]

/-- The 128-byte vector delivered to a model. -/
def featureBytes (r : List Byte) (trig : Nat) : List Byte := (features r trig).flatMap (leBytes 2)

/-! ### Verdict words and event records (10 R305, R308, R309) -/

/-- A model's output word is a verdict (10 R305). -/
def verdictOk (w : Nat) : Bool :=
  decide (w % 8 ≤ 3) && decide (w / 8 % 32 = 0) && decide (w / 2 ^ 14 % 4 = 0) && decide (w / 2 ^ 24 < 0xFE)

/-- RESULT [31:0] of a verdict word with STICKY and TRIGGER filled in. -/
def verdictResult (w trig : Nat) (sticky : Bool) : Nat := w + 8 * bnat sticky + 16 * trig

/-- RESULT of an event record of record `i`. -/
def flowResult (i policy low : Nat) : Dword := BitVec.ofNat 64 (low % 2 ^ 32 + 2 ^ 32 * i + 2 ^ 58 * policy)

/-- FLOWFRONT.SINK_k: pair, VLOG_EN and log address. -/
def sinkPair (s : State) (k : Nat) : Nat := rdf s (0x60040 + 16 * k) 7 0
def sinkLog (s : State) (k : Nat) : Bool := rdb s (0x60040 + 16 * k) 8
def sinkAddr (s : State) (k : Nat) : Nat := (rd s (0x60044 + 16 * k)).toNat + 2 ^ 32 * (rd s (0x60048 + 16 * k)).toNat

/-- An event record of the flow whose record is `r` on its policy's sink, with the given RESULT: the copy of the record first where
the sink logs (10 R309). -/
def flowRecordBy (r : List Byte) (cls status disp progress : Nat) (result : Dword) (faultRef : Word) (s : State) : State :=
  let k := polSink s (frPolicy r)
  let p := sinkPair s k
  let rec0 : Rec :=
    { event := true, interim := false, status, disp, cls, tag8 := 0, ring := 0, descIndex := 0, result,
      progress := BitVec.ofNat 32 progress, faultRef, urgent := false }
  let slot := (cqProd s p).toNat % cqDepth s p
  let t := if sinkLog s k && pairIsEvent s p && pairActive s p && decide (1 ≤ cqFree s p) then
      putBatch p ⟨[(BitVec.ofNat 64 (sinkAddr s k + 128 * slot), r)], none⟩ s
    else s
  eventRecord p rec0 t

/-- An event record of the flow of record `i`. -/
def flowRecordResult (i cls status disp progress : Nat) (result : Dword) (faultRef : Word) (s : State) : State :=
  flowRecordBy (flowRec s i) cls status disp progress result faultRef s

/-- The same with RESULT [31:0] given: the flow's record number and policy lie above it (10 R308). -/
def flowRecordEvent (i cls status disp progress low : Nat) (faultRef : Word) (s : State) : State :=
  flowRecordResult i cls status disp progress (flowResult i (frPolicy (flowRec s i)) low) faultRef s

/-- What is kept of the record of request `k`, where the record is gone. -/
def orphanOf (s : State) (k : Nat) : Option Orphan := tabFind s.flow.orphans k
def dropOrphan (k : Nat) (s : State) : State := { s with flow := { s.flow with orphans := tabDel s.flow.orphans k } }

/-- The event record of request `k` of record `i`, the record gone or not (10 R303, R308). -/
def requestRecord (k i cls status disp progress low : Nat) (faultRef : Word) (s : State) : State :=
  match orphanOf s k with
  | some o => flowRecordBy o.bytes cls status disp progress (flowResult i (frPolicy o.bytes) low) faultRef (dropOrphan k s)
  | none => flowRecordEvent i cls status disp progress low faultRef s

/-- A record that is freed or replaced leaves what its outstanding request needs. -/
def orphanRec (i : Nat) (s : State) : State := match (flowX s i).request with
  | some k =>
    { s with flow := { s.flow with orphans := tabPut s.flow.orphans k ⟨flowRec s i, (flowX s i).late, (flowX s i).treated⟩ } }
  | none => s

/-- Class of a flow's scoring requests: FLOW_GATE for GATE policies, else FLOW_OBSERVE (10 R308). -/
def flowClass (s : State) (policy : Nat) : Nat := if polMode s policy = 1 then 1 else 2

/-- UNSCORED_DROP or UNSCORED_PASS by the policy's CEIL_DROP (10 R302). -/
def unscoredDisp (drop : Bool) : Nat := if drop then 9 else 8

end Sys2Proof.Machine
end

