-- ==== Sys2Proof/Machine/ExactSlot.lean ====
section
/-! DEFINITION. The atomics cache: its slots, the exact read-out alias, and device memory as Dolly and DMA reach it
(04 R122, R123; 07 R208, R213, R215). -/

namespace Sys2Proof.Machine

/-- Start of the atomics cache and its slots (07 R208). -/
def slotBase (s : State) : Nat := poolBase + poolSize - rdf s 0xA0000 4 0 * 0x100000
def slotAddr (s : State) (k : Nat) : Nat := slotBase s + 96 * k
def slotCount (s : State) : Nat := (rd s 0xA0004).toNat

/-- The flag byte of a slot (04 R122): NAN, PINF, NINF, COUNT_SAT. -/
def slotFlags (bs : List Byte) : Nat := leAt bs 86 1 % 16

/-- The exact value that 96 slot bytes hold. -/
def slotValue (bs : List Byte) : Exact :=
  { exOfBytes bs with nan := (slotFlags bs).testBit 0, pinf := (slotFlags bs).testBit 1, ninf := (slotFlags bs).testBit 2 }

/-- The slot after a contribution: the value, and COUNT, which saturates at 2^48 − 1 (04 R122, 07 R213). -/
def slotAdd (v : FVal) (bs : List Byte) : List Byte :=
  let x := exAdd (slotValue bs) v
  let c := leAt bs 80 6
  let full := decide (c = 2 ^ 48 - 1)
  exBytes x ++ leBytes 6 (if full then c else c + 1) ++
    leBytes 1 (leAt bs 86 1 / 16 * 16 + bnat x.nan + 2 * bnat x.pinf + 4 * bnat x.ninf +
      8 * bnat ((slotFlags bs).testBit 3 || full)) ++ (bs.drop 87).take 9

/-- The contribution saturates the slot's count. -/
def slotSaturates (bs : List Byte) : Bool := decide (leAt bs 80 6 = 2 ^ 48 - 1)

/-- An initialised slot (07 R215): FMT and SAT from the first two bytes written. -/
def slotInit (data : List Byte) : List Byte :=
  zeros 87 ++ leBytes 1 (leAt data 0 1 % 4) ++ leBytes 1 (leAt data 1 1 % 2) ++ zeros 7

/-- The rounded value of a slot in its FMT, 8 bytes (04 R118, R123). NaN and infinities have no integer form: `free`
stands for them (log 15). -/
def slotOut (free : Dword) (bs : List Byte) : List Byte :=
  let x := slotValue bs
  let sat := (leAt bs 88 1).testBit 0
  let special := x.nan || x.pinf || x.ninf
  match leAt bs 87 1 % 4 with
  | 0 => leBytes 8 (fEncodeSum fp32 sat (exVal x))
  | 1 => leBytes 8 (fEncodeSum bf16 sat (exVal x))
  | 2 => leBytes 8 (if special then free.toNat % 2 ^ 32 else narrow 32 sat (exInt x 0))
  | _ => leBytes 8 (if special then free.toNat else narrow 64 sat (exInt x 0))

/-- The 16 bytes that the alias reads for slot `k`. -/
def aliasRead (s : State) (k : Nat) : List Byte :=
  let bs := memRead s (slotAddr s k) 96
  slotOut (Config.freeValue (s.free + k)) bs ++ leBytes 1 (slotFlags bs) ++ zeros 7

/-- Consecutive slots read through the alias. -/
def aliasReads (s : State) (k : Nat) : Nat → List Byte
  | 0 => []
  | n + 1 => aliasRead s k ++ aliasReads s (k + 1) n

/-- Slot `k` initialised through the alias. -/
def aliasWrite (k : Nat) (data : List Byte) (s : State) : State := memPut (slotAddr s k) (slotInit data) s

/-- Consecutive slots initialised; `n` bounds their number. -/
def aliasWrites : Nat → Nat → List Byte → State → State
  | 0, _, _, s => s
  | n + 1, k, bs, s => if bs.length < 16 then s else aliasWrites n (k + 1) (bs.drop 16) (aliasWrite k (bs.take 16) s)

/-- An address of the alias. -/
def inAlias (a : Nat) : Bool := decide (aliasBase ≤ a) && decide (a < lsBase)

/-- `len` bytes from `a` as Dolly and DMA read them. -/
def devRead (s : State) (a len : Nat) : List Byte :=
  if inAlias a then
    let k := (a - aliasBase) / 16
    ((aliasReads s k (ceilDiv (a % 16 + len) 16)).drop (a % 16)).take len
  else memRead s a len

/-- What such a read leaves. -/
def devTouch (a len : Nat) (s : State) : State :=
  if inAlias a then { s with free := s.free + (a - aliasBase) / 16 + len } else memTouch a len s

/-- An address in the local store of a fenced tile (14 R403, Edge). -/
def inFenced (s : State) (a : Nat) : Bool := decide (lsBase ≤ a) && fenced s ((a - lsBase) / 0x400000)

/-- Bytes written to `a` as Dolly and DMA write them; what goes to the local store of a fenced tile is discarded. -/
def devWrite (a : Nat) (bs : List Byte) (s : State) : State :=
  if inFenced s a then s
  else if inAlias a then aliasWrites (bs.length / 16) ((a - aliasBase) / 16) bs s else memWrite a bs s

/-- Any byte read is poisoned: through the alias, any byte of the slots; in the local store of a fenced tile, every byte. -/
def devPoisoned (s : State) (a len : Nat) : Bool :=
  if inFenced s a then true
  else if inAlias a then memPoisoned s (slotAddr s ((a - aliasBase) / 16)) (96 * ceilDiv len 16) else memPoisoned s a len

end Sys2Proof.Machine
end

