-- ==== Sys2Proof/Machine/Codec.lean ====
section
/-! DEFINITION. The tensor codec: blocks as the encoder chooses them and as the decoder checks them (07 R218–R222). -/

namespace Sys2Proof.Machine

/-- A ROM table (07 R220). -/
structure CodecTable where
  /-- bytes of an element -/
  size : Nat
  /-- integer elements; else a float with `man` fraction bits -/
  int : Bool
  man : Nat
  ec : Int
  k : Nat
  z : Nat
  we : Nat
  deriving DecidableEq, Repr

/-- The ROM tables 0–7 (07 R220). -/
def codecTables : List CodecTable :=
  [⟨2, false, 7, 120, 1, 0, 8⟩, ⟨2, false, 7, 126, 2, 2, 8⟩, ⟨2, false, 7, 110, 2, 1, 8⟩, ⟨4, false, 23, 124, 2, 1, 8⟩,
   ⟨1, false, 3, 5, 1, 1, 4⟩, ⟨1, false, 2, 13, 1, 1, 5⟩, ⟨1, true, 0, 4, 1, 1, 4⟩, ⟨2, true, 0, 10, 1, 0, 5⟩]

/-- `n` bits of `v`, most significant first. -/
def bitsMsb : Nat → Nat → List Bool
  | 0, _ => []
  | n + 1, v => v.testBit n :: bitsMsb n v

/-- The number that bits spell, most significant first. -/
def natMsb (bs : List Bool) : Nat := bs.foldl (fun a b => 2 * a + bnat b) 0

/-- A run of `r` zero elements: EG_z(r) (07 R219). -/
def egCode (z r : Nat) : List Bool :=
  let w := r + 2 ^ z
  let n := bitLen w
  List.replicate (n - 1 - z) false ++ bitsMsb n w

/-- Sign, exponent, and mantissa bits of a non-zero element (07 R219). -/
def elemParts (t : CodecTable) (x : Nat) : Bool × Nat × List Bool :=
  if t.int then
    let v := signedOf (8 * t.size) x
    let e := bitLen v.natAbs
    (decide (v < 0), e, bitsMsb (e - 1) v.natAbs)
  else (x.testBit (8 * t.size - 1), x / 2 ^ t.man % 2 ^ t.we, bitsMsb t.man x)

/-- An exponent token (07 R219). -/
def expToken (t : CodecTable) (e : Nat) : List Bool :=
  let d : Int := e - t.ec
  let u := if 0 ≤ d then 2 * d.toNat else 2 * d.natAbs - 1
  let q := u / 2 ^ t.k
  if q < 15 then List.replicate q true ++ [false] ++ bitsMsb t.k u else List.replicate 15 true ++ bitsMsb t.we e

/-- Token and mantissa planes of elements, the run so far being `r`. -/
def encodeElems (t : CodecTable) : Nat → List Nat → List Bool × List Bool
  | r, [] => (if r = 0 then [] else egCode t.z r, [])
  | r, x :: xs =>
    if x = 0 then encodeElems t (r + 1) xs
    else
      let p := elemParts t x
      let rest := encodeElems t 0 xs
      (egCode t.z r ++ expToken t p.2.1 ++ rest.1, p.1 :: p.2.2 ++ rest.2)

/-- The elements of raw bytes, little-endian; `n` bounds their number. -/
def elemsOf (size : Nat) : Nat → List Byte → List Nat
  | 0, _ => []
  | n + 1, bs => if bs = [] then [] else leNat (bs.take size) :: elemsOf size n (bs.drop size)

/-- Bits packed from bit 0 of byte 0 on; `n` bounds the number of bytes. -/
def packBits : Nat → List Bool → List Byte
  | 0, _ => []
  | n + 1, bs => if bs = [] then [] else BitVec.ofNat 8 (natMsb (bs.take 8).reverse) :: packBits n (bs.drop 8)

/-- The bits of bytes, bit 0 of byte 0 first. -/
def unpackBits (bs : List Byte) : List Bool := bs.flatMap fun b => (List.range 8).map b.toNat.testBit

/-- Bytes padded with zeros to a multiple of `m`. -/
def padTo (m : Nat) (bs : List Byte) : List Byte := bs ++ zeros ((m - bs.length % m) % m)

/-- The header of a block (07 R218). -/
def codecHeader (rawLen payLen table tokLen crc : Nat) : List Byte :=
  leBytes 2 (rawLen - 1) ++ leBytes 2 payLen ++ leBytes 1 table ++ [0xC7] ++ leBytes 2 tokLen ++ leBytes 4 crc ++ zeros 4

/-- A coded candidate: padded size, exact bits, table, block. -/
structure CodecTry where
  padded : Nat
  bits : Nat
  block : List Byte
  deriving DecidableEq, Repr

/-- The block that table number `k` codes. -/
def codecTry (raw : List Byte) (k : Nat) (t : CodecTable) : Option CodecTry :=
  if raw.length % t.size ≠ 0 then none
  else
    let p := encodeElems t 0 (elemsOf t.size raw.length raw)
    let tok := packBits raw.length.succ.succ p.1
    let tok := if tok.length * 8 < p.1.length then packBits p.1.length p.1 else tok
    let man := packBits (p.2.length + 1) p.2
    let pay := padTo 16 (tok ++ man)
    some ⟨16 + pay.length, p.1.length + p.2.length,
      codecHeader raw.length pay.length k tok.length (crc32 raw) ++ pay⟩

/-- The better of two candidates, the first of lower table number (07 R221). -/
def codecBetter (a b : Option CodecTry) : Option CodecTry :=
  match a, b with
  | none, b => b
  | a, none => a
  | some x, some y =>
    if y.padded < x.padded ∨ (y.padded = x.padded ∧ y.bits < x.bits) then some y else some x

/-- Candidates of the tables from number `k` on. -/
def codecBest (raw : List Byte) : Nat → List CodecTable → Option CodecTry
  | _, [] => none
  | k, t :: ts => codecBetter (codecTry raw k t) (codecBest raw (k + 1) ts)

/-- The raw form of a block. -/
def codecRaw (raw : List Byte) : List Byte :=
  let pay := padTo 16 raw
  codecHeader raw.length pay.length 15 0 (crc32 raw) ++ pay

/-- The block that the encoder writes for 1 to 4,096 raw bytes, and whether it is raw (07 R221). -/
def codecEncode (raw : List Byte) : List Byte × Bool :=
  match codecBest raw 0 codecTables with
  | some c => if c.padded < (codecRaw raw).length then (c.block, false) else (codecRaw raw, true)
  | none => (codecRaw raw, true)

/-- Leading bits equal to `b`, at most `n`: their number and the rest. -/
def leading (b : Bool) : Nat → List Bool → Nat × List Bool
  | 0, l => (0, l)
  | _, [] => (0, [])
  | n + 1, x :: xs => if x = b then ((leading b n xs).1 + 1, (leading b n xs).2) else (0, x :: xs)

/-- One run: its length and the rest of the plane. -/
def readRun (z : Nat) (tok : List Bool) : Option (Nat × List Bool) :=
  let p := leading false tok.length tok
  let n := p.1 + 1 + z
  if p.2.length < n then none else some (natMsb (p.2.take n) - 2 ^ z, p.2.drop n)

/-- One exponent token: e and the rest. -/
def readExp (t : CodecTable) (tok : List Bool) : Option (Nat × List Bool) :=
  let p := leading true 15 tok
  if p.1 = 15 then
    if p.2.length < t.we then none else some (natMsb (p.2.take t.we), p.2.drop t.we)
  else
    let r := p.2.drop 1
    if p.2 = [] ∨ r.length < t.k then none
    else
      let u := p.1 * 2 ^ t.k + natMsb (r.take t.k)
      let e : Int := if u % 2 = 0 then t.ec + (u / 2 : Nat) else t.ec - ((u + 1) / 2 : Nat)
      if e < 0 ∨ (2 : Int) ^ t.we ≤ e then none else some (e.toNat, r.drop t.k)

/-- The element of exponent `e` from the mantissa plane: its bits and the rest of the plane. -/
def readElem (t : CodecTable) (e : Nat) (man : List Bool) : Option (Nat × List Bool) :=
  let n := if t.int then e - 1 else t.man
  if (t.int = true ∧ (e = 0 ∨ 8 * t.size < e)) ∨ man.length < n + 1 then none
  else
    let neg := (man.take 1) = [true]
    let m := natMsb ((man.drop 1).take n)
    let v := if t.int then
        (let a := 2 ^ (e - 1) + m
         if neg then (2 ^ (8 * t.size) - a) % 2 ^ (8 * t.size) else a % 2 ^ (8 * t.size))
      else bnat (decide neg) * 2 ^ (8 * t.size - 1) + e * 2 ^ t.man + m
    some (v, man.drop (n + 1))

/-- The elements of a coded block: `left` are still to come; `fuel` bounds the steps. What is left of the token plane is
returned. -/
def readElems (t : CodecTable) : Nat → Nat → List Bool → List Bool → Option (List Nat × List Bool)
  | 0, _, _, _ => none
  | fuel + 1, left, tok, man =>
    match readRun t.z tok with
    | none => none
    | some (r, tok) =>
      if left < r then none
      else if left = r then some (List.replicate r 0, tok)
      else match readExp t tok with
        | none => none
        | some (e, tok) => match readElem t e man with
          | none => none
          | some (v, man) =>
            if left = r + 1 then some (List.replicate r 0 ++ [v], tok)
            else match readElems t fuel (left - r - 1) tok man with
              | none => none
              | some (vs, tok) => some (List.replicate r 0 ++ v :: vs, tok)

/-- RAWLEN and PAYLEN of a header. -/
def codecRawLen (blk : List Byte) : Nat := leAt blk 0 2 % 4096 + 1
def codecPayLen (blk : List Byte) : Nat := leAt blk 2 2 % 8192

/-- The raw bytes of a block of header and payload, where it passes every check (07 R222). -/
def codecDecode (blk : List Byte) : Option (List Byte) :=
  let raw := codecRawLen blk
  let pay := codecPayLen blk
  let table := leAt blk 4 1
  let tokLen := leAt blk 6 2
  let payload := (blk.drop 16).take pay
  if leAt blk 5 1 ≠ 0xC7 ∨ leAt blk 0 2 / 4096 ≠ 0 ∨ leAt blk 2 2 / 8192 ≠ 0 ∨ table / 16 ≠ 0 ∨ tokLen / 8192 ≠ 0 ∨
      leAt blk 12 4 ≠ 0 ∨ pay % 16 ≠ 0 ∨ 4096 < pay ∨ pay < tokLen ∨ payload.length ≠ pay then none
  else
    let out : Option (List Byte) :=
      if table = 15 then
        if pay = 16 * ceilDiv raw 16 ∧ tokLen = 0 then some (payload.take raw) else none
      else match codecTables[table]? with
        | none => none
        | some t =>
          if raw % t.size ≠ 0 then none
          else match readElems t (raw + 1) (raw / t.size) (unpackBits (payload.take tokLen)) (unpackBits (payload.drop tokLen)) with
            | some (vs, rest) => if rest.any id then none else some (vs.flatMap (leBytes t.size))
            | none => none
    match out with
    | some bs => if crc32 bs = leAt blk 8 4 then some bs else none
    | none => none

end Sys2Proof.Machine
end

