-- ==== Sys2Proof/Machine/Ldpc.lean ====
section
/-! DEFINITION. Stage 7 of the receiver: the layered normalised min-sum decoder of a code block, and the CRCs that judge it
(08 R251; 09 R276). -/

namespace Sys2Proof.Machine

/-! ### CRCs of TS 38.212 (PRESUMED; log 111) -/

/-- One bit through a CRC register of `w` bits. -/
def crcBit (w poly r : Nat) (b : Bool) : Nat :=
  let t := (2 * r + bnat b) % 2 ^ w
  if r.testBit (w - 1) then t ^^^ poly else t

/-- Bits with their CRC at the end leave no remainder. -/
def crcPasses (w poly : Nat) (bits : List Bool) : Bool := decide (bits.foldl (crcBit w poly) 0 = 0)

/-- The code-block CRC, CRC24B. -/
def cbCrcOk (bits : List Bool) : Bool := crcPasses 24 0x800063 bits
/-- The transport-block CRC: CRC24A, and CRC16 up to 3,824 bits. -/
def tbCrcOk (tbBytes : Nat) (bits : List Bool) : Bool :=
  if 3824 < 8 * tbBytes then crcPasses 24 0x864CFB bits else crcPasses 16 0x1021 bits

/-! ### Min-sum (09 R276) -/

/-- A message held in 16 bits with saturation. -/
def satMsg (x : Int) : Int := clampInt (-32768) 32767 x

/-- A BF16 factor clamped to [0.25, 1.0], in units of 1/512. -/
def minSumFactor (h : BitVec 16) : Nat :=
  let e := (h.toNat / 128) % 256
  let m := h.toNat % 128
  if e = 255 ∧ m ≠ 0 then max 128 (min 512 (Config.minSumNan h))
  else if h.getLsbD 15 ∨ e < 125 then 128
  else if 127 ≤ e then 512
  else (128 + m) * 2 ^ (e - 125)

/-- A minimum scaled by a factor in units of 1/512. -/
def scaleMin (f m : Nat) : Nat := m * f / 512 + (if m * f % 512 = 0 then 0 else bnat (Config.minSumUp m f))

/-- Messages of a check node back to its variables: the least magnitude of the others, scaled, with the product of their signs. -/
def checkMsgs (f : Nat) (q : List Int) : List Int :=
  (q.zipIdx).map fun x =>
    let others := q.eraseIdx x.2
    let m : Int := (scaleMin f ((others.map Int.natAbs).foldl min 32767) : Nat)
    if (others.filter fun y => decide (y < 0)).length % 2 = 0 then m else -m

/-- Sums of the variables of a check after it has been served. -/
def putSums : List Nat → List Int → List Int → List Int
  | v :: vs, x :: xs, l => putSums vs xs (l.set v (satMsg x))
  | _, _, l => l

/-- One check node is served: the sums of its variables and its messages. -/
def serveCheck (f : Nat) (vars : List Nat) (old : List Int) (sums : List Int) : List Int × List Int :=
  let q := (vars.zipIdx).map fun x => satMsg (sums.getD x.1 0 - old.getD x.2 0)
  let r := checkMsgs f q
  (putSums vars (List.zipWith (· + ·) q r) sums, r)

/-- One iteration over the checks in order of their layers. -/
def minSumPass (f : Nat) : List (List Nat) → List (List Int) → List Int → List Int × List (List Int)
  | [], _, sums => (sums, [])
  | c :: cs, old, sums =>
    let x := serveCheck f c (old.headD []) sums
    let y := minSumPass f cs old.tail x.1
    (y.1, x.2 :: y.2)

/-- Hard decision of a sum: positive for bit 0. -/
def hardBit (x : Int) : Bool := if x = 0 then Config.llrZero else decide (x < 0)

/-- Every parity check holds. -/
def parityHolds (checks : List (List Nat)) (sums : List Int) : Bool :=
  checks.all fun c => decide ((c.filter fun v => hardBit (sums.getD v 0)).length % 2 = 0)

/-- Iterations, one for each factor, until every parity check holds. -/
def minSum (checks : List (List Nat)) : List Nat → List (List Int) → List Int → List Int
  | [], _, sums => sums
  | f :: fs, old, sums =>
    let x := minSumPass f checks old sums
    if parityHolds checks x.1 then x.1 else minSum checks fs x.2 x.1

/-- The checks of a base graph lifted by `z`. -/
def ldpcChecks (graph2 : Bool) (z : Nat) : List (List Nat) :=
  (Config.ldpcGraph graph2 z).flatMap fun row => (List.range z).map fun i => row.map fun e => e.1 * z + (i + e.2) % z

/-- Systematic and all columns of a base graph, in lifting sizes. -/
def infoCols (graph2 : Bool) : Nat := if graph2 then 10 else 22
def allCols (graph2 : Bool) : Nat := if graph2 then 52 else 68

/-- What enters the decoder: 0 for the punctured columns, +127 for filler bits, and the soft bits of the buffer. -/
def ldpcInput (graph2 : Bool) (z filler : Nat) (soft : List Byte) : List Int :=
  let k := infoCols graph2 * z
  (List.range (allCols graph2 * z)).map fun i =>
    if i < 2 * z then 0 else if k - filler ≤ i ∧ i < k then 127 else (soft.getD (i - 2 * z) 0).toInt

/-- The information bits of a decoded code block, its CRC at the end. -/
def ldpcDecode (graph2 : Bool) (z filler : Nat) (factors : List Nat) (soft : List Byte) : List Bool :=
  let sums := minSum (ldpcChecks graph2 z) factors [] (ldpcInput graph2 z filler soft)
  (sums.take (infoCols graph2 * z - filler)).map hardBit

/-- Bytes that bits spell, most significant first; `n` bounds their number. -/
def bytesMsb : Nat → List Bool → List Byte
  | 0, _ => []
  | n + 1, bs => if bs = [] then [] else BitVec.ofNat 8 (natMsb (bs.take 8)) :: bytesMsb n (bs.drop 8)

end Sys2Proof.Machine
end

