-- ==== Sys2Proof/Machine/Cue.lean ====
section
/-! DEFINITION. The air grid and cues: when a symbol starts, and to which occurrence of its SFN a cue is bound
(02 R48–R54). -/

namespace Sys2Proof.Machine

/-- The GPS epoch on the PTP timescale, in 2^-42 ns units (02 R48). -/
abbrev gpsUnits : Nat := 315964819 * unitsS
/-- Units in 1 µs and in a frame of 10 ms, and in the 1,024 frames of an SFN period. -/
abbrev unitsUs : Nat := 1000 * unitsNs
abbrev frameUnits : Nat := 10000000 * unitsNs
abbrev sfnPeriod : Nat := 1024 * frameUnits

/-- TIME.GRID_CFG_g: EN and MU (02 R50). -/
def gridEn (s : State) (g : Nat) : Bool := rdb s (0x20080 + 4 * g) 0
def gridMu (s : State) (g : Nat) : Nat := bnat (rdb s (0x20080 + 4 * g) 1)
/-- TIME.GRID_OFFSET_g in ns. -/
def gridOffset (s : State) (g : Nat) : Int := (rd s (0x20090 + 4 * g)).toInt
/-- The grid counts cues (02 R51). -/
def gridRuns (s : State) (g : Nat) : Bool := s.time.running.getLsbD g

/-- Slots in a frame, and the slot length in ns. -/
def slotsPerFrame (mu : Nat) : Nat := 10 * 2 ^ mu
def slotNs (mu : Nat) : Nat := 1000000 / 2 ^ mu

/-- Start of symbol `l` after the slot boundary, in Tc (02 R49). -/
def startTc (mu l : Nat) : Nat :=
  if mu = 0 then l * 140288 + 1024 * bnat (decide (1 ≤ l)) + 1024 * bnat (decide (8 ≤ l))
  else l * 70144 + 1024 * bnat (decide (1 ≤ l))

/-- The same in 2^-42 ns units, rounded up to a whole multiple of 2^-32 ns (02 R53). -/
def symbolUnits (mu l : Nat) : Nat := ceilDiv (startTc mu l * 3125 * 2 ^ 32) 6144 * 2 ^ 10

/-- Start of frame `frame` of grid `g`, in units since the PTP epoch. -/
def frameStart (s : State) (g : Nat) (frame : Int) : Int := (gpsUnits : Int) + gridOffset s g * unitsNs + frame * frameUnits

/-- A cue's time in the SFN period that contains frame 0 to 1,023 after the epoch. -/
def cueBase (s : State) (g sfn slot symbol : Nat) (off : Int) : Int :=
  frameStart s g sfn + ((slot * slotNs (gridMu s g) * unitsNs + symbolUnits (gridMu s g) symbol : Nat) : Int) + off * unitsNs

/-- The occurrence of a cue that lies in [a − 2.56 s, a + 7.68 s) (02 R54). -/
def bindCue (s : State) (g sfn slot symbol : Nat) (off : Int) (a : Nat) : Int :=
  let lo : Int := (a : Int) - 256 * (frameUnits : Int)
  let b := cueBase s g sfn slot symbol off
  b - (b - lo) / (sfnPeriod : Int) * (sfnPeriod : Int)

/-- Where device time `u` lies in grid `g`: frame, slot, and 2^-32 ns units into the slot (02 R48). -/
def gridAt (s : State) (g : Nat) (u : Nat) : Int × Nat × Nat :=
  let d : Int := (u : Int) - frameStart s g 0
  let frame := d / (frameUnits : Int)
  let inFrame := (d - frame * (frameUnits : Int)).toNat
  let slot := slotNs (gridMu s g) * unitsNs
  (frame, inFrame / slot, inFrame % slot / 2 ^ 10)

/-- The slot of grid `g` that device time `u` lies in: frame number and slot. -/
def slotAt (s : State) (g : Nat) (u : Nat) : Int × Nat := ((gridAt s g u).1, (gridAt s g u).2.1)

/-- Tc since the start of the slot, and the symbol that it lies in (02 R48). -/
def tcOf (u : Nat) : Nat := u * 6144 / (3125 * 2 ^ 32)
def symbolIn (mu tc : Nat) : Nat := ((List.range 14).filter fun l => decide (startTc mu l ≤ tc)).length - 1
def symbolNow (s : State) (g : Nat) (u : Nat) : Nat := symbolIn (gridMu s g) (tcOf (gridAt s g u).2.2)

/-- Start of symbol 0 of a slot of a frame, in units. -/
def slotStartAt (s : State) (g : Nat) (frame : Int) (slot : Nat) : Nat :=
  (frameStart s g frame + ((slot * slotNs (gridMu s g) * unitsNs : Nat) : Int)).toNat

/-- Position of a slot in the landing and staging areas: slot_index & 1 (08 R244). -/
def slotPos (s : State) (g : Nat) (t0 : Nat) : Nat :=
  let p := slotAt s g t0
  ((p.1 * slotsPerFrame (gridMu s g) + p.2) % 2).toNat

/-- The slot word of OPW0: GRID, SFN, SLOT (09 R256). -/
def slotWord (g sfn slot : Nat) : Nat := g + 4 * sfn + 4096 * slot

/-- A cue word that is out of range in SYMBOL, OFFSET or its reserved bits (02 R52 item 1). -/
def cueBad (lo hi : Word) : Bool :=
  decide (13 < field lo 20 17) || decide (field lo 31 21 ≠ 0) || decide (hi.toInt < -10000000) || decide (10000000 < hi.toInt)

end Sys2Proof.Machine
end

