-- ==== Sys2Proof/Machine/SpliceOps.lean ====
section
/-! DEFINITION. The Splice fabric as the rest of the device uses it: links and their states, routes, sending, groups and
their rank tree, and breaking slates (13 R373–R381, R386, R393). -/

namespace Sys2Proof.Machine

/-! ### Codec counters (07 R229) -/

/-- A KiB counter at `o` gains `n` bytes; bytes beyond the last whole KiB are kept at `key`. -/
def codecKib (o key n : Nat) (s : State) : State :=
  let t := tabGet (fun _ => 0) s.mem.codecRem key + n
  bump o (t / 1024) { s with mem := { s.mem with codecRem := tabSet (fun _ => 0) s.mem.codecRem key (t % 1024) } }

/-- Engine `e` has handled `raw` raw bytes as `coded` encoded bytes. -/
def codecCount (e raw coded : Nat) (isRaw : Bool) (s : State) : State :=
  let t := codecKib (0x90104 + 16 * e) (2 * e + 1) coded (codecKib (0x90100 + 16 * e) (2 * e) raw s)
  if isRaw then bump (0x90108 + 16 * e) 1 t else t

/-! ### Links (13 R373, R374) -/

def linkOf (s : State) (l : Nat) : LinkS := tabGet (fun _ => {}) s.splice.links l
def setLink (l : Nat) (x : LinkS) (s : State) : State :=
  { s with splice := { s.splice with links := tabSet (fun _ => {}) s.splice.links l x } }

/-- LINK_STATUS_l.STATE: 0 DOWN, 1 TRAIN, 2 CAL, 3 UP, 4 DEGRADED, 5 FENCED. -/
def linkState (s : State) (l : Nat) : Nat := rdf s (linkReg l 4) 2 0
/-- Messages are sent over links in UP or DEGRADED. -/
def linkUsable (s : State) (l : Nat) : Bool := decide (l < 12) && (decide (linkState s l = 3) || decide (linkState s l = 4))

/-- A link enters a state; a change is an event (13 R397). -/
def setLinkState (l st : Nat) (s : State) : State :=
  if linkState s l = st then s
  else raise spliceEvent 0 (wrf 0xB0004 l l (bnat (decide (st = 3) || decide (st = 4))) (wrf (linkReg l 4) 2 0 st s))

/-! ### Routing and sending (13 R375–R378) -/

/-- This chip's number. -/
def chipNum (s : State) : Nat := rdf s 0xB0000 13 0

/-- PRIO by KIND (13 R375). -/
def prioOf (kind : Nat) : Nat := if kind ≤ 4 then 0 else if kind ≤ 6 then 1 else 2

/-- SPLICE.ROUTE entry of a destination. -/
def routeOf (s : State) (dst : Nat) : Nat := ((rd s (0xB8000 + 4 * (dst / 2))).toNat / 2 ^ (16 * (dst % 2))) % 65536

/-- The link that carries a message to `dst`, where one can (13 R377, R381 Edge). -/
def pickLink (s : State) (dst prio : Nat) : Option Nat :=
  let e := routeOf s dst
  let p := e % 16
  let a := e / 16 % 16
  let altOk := e.testBit 8 && linkUsable s a
  if !e.testBit 9 then none
  else if (decide (linkState s p = 5) || (decide (linkState s p = 4) && decide (prio = 0))) && altOk then some a
  else if linkUsable s p then some p
  else none

/-- Flits of a message: each message begins a flit of its own (log 19). -/
def flitsOf (m : SMsg) : Nat := ceilDiv (16 + m.payload.length) 256

/-- Flits of a link that wait for acknowledgement. -/
def replayFill (x : LinkS) : Nat := (x.replay.map Prod.snd).sum

/-- A message starts to leave by link `l`: it is in the replay buffer until acknowledged. -/
def linkStart (l : Nat) (m : SMsg) (s : State) : State :=
  let x := linkOf s l
  let n := x.txRem + m.payload.length
  emit (.splice l m) (bump (linkReg l 0x14) (n / 1024)
    (setLink l { x with replay := x.replay ++ [(m, flitsOf m)], txRem := n % 1024 } s))

/-- A message put in its place in a link's queue: by priority, then in order of arrival (13 R376). -/
def queueMsg (m : SMsg) : List SMsg → List SMsg
  | [] => [m]
  | x :: xs => if prioOf m.kind.toNat < prioOf x.kind.toNat then m :: x :: xs else x :: queueMsg m xs

/-- Waiting messages leave while the replay buffer has room; `n` bounds their number. -/
def linkDrain (l : Nat) : Nat → State → State
  | 0, s => s
  | n + 1, s =>
    match (linkOf s l).queue with
    | [] => s
    | m :: rest =>
      if replayFill (linkOf s l) + flitsOf m ≤ 256 ∧ linkUsable s l = true then
        linkDrain l n (linkStart l m (setLink l { linkOf s l with queue := rest } s))
      else s

/-- A message goes out on link `l`, or waits for room in its replay buffer behind those of its priority (13 R373, R376). -/
def linkPut (l : Nat) (m : SMsg) (s : State) : State :=
  linkDrain l 1 (setLink l { linkOf s l with queue := queueMsg m (linkOf s l).queue } s)

/-- Payload as it goes on a link: coded where the link codes it and the payload is a collective's or data (13 R382). Whether the
engine's input queue is full at that moment is a matter of time: a free value (log 116). -/
def wireMsg (l : Nat) (m : SMsg) (s : State) : SMsg × State :=
  if rdb s (linkReg l 0) 1 && decide (5 ≤ m.kind.toNat) && !m.coded && decide (m.payload ≠ []) && decide (m.payload.length ≤ 4096) then
    let c := codecEncode m.payload
    if (freshVal s).getLsbD 0 then (m, useFree s)
    else ({ m with coded := true, payload := c.1 }, useFree (codecCount (8 + 2 * (l / 3)) m.payload.length c.1.length c.2 s))
  else (m, s)

/-- A message of this chip with its end-to-end sequence number (13 R378); nothing is sent where no route can carry it. -/
def sendMsg (m : SMsg) (s : State) : State :=
  let prio := prioOf m.kind.toNat
  match pickLink s m.dst.toNat prio with
  | none => s
  | some l =>
    let key := 4 * m.dst.toNat + prio
    let q := tabGet (fun _ => 0) s.splice.seqTx key
    let t := { s with splice := { s.splice with seqTx := tabSet (fun _ => 0) s.splice.seqTx key ((q + 1) % 65536) } }
    let w := wireMsg l { m with src := BitVec.ofNat 14 (chipNum s), seq := BitVec.ofNat 16 q } t
    linkPut l w.1 w.2

/-- A message of this chip can be sent. -/
def canSend (s : State) (dst kind : Nat) : Bool := (pickLink s dst (prioOf kind)).isSome

/-- A message of a group. -/
def groupMsg (g : Fin 16) (dst kind tag : Nat) (last : Bool) (payload : List Byte) : SMsg :=
  { dst := BitVec.ofNat 14 dst, src := 0, kind := BitVec.ofNat 4 kind, coded := false, last, group := g, seq := 0,
    tag := BitVec.ofNat 32 tag, payload }

/-! ### Groups (13 R386, R387) -/

def groupReg (g : Nat) : Nat := 0xB0400 + 16 * g
def groupValid (s : State) (g : Nat) : Bool := rdb s (groupReg g) 0
def groupLocked (s : State) (g : Nat) : Bool := rdb s (groupReg g) 1
def groupBroken (s : State) (g : Nat) : Bool := rdb s (groupReg g) 2
def groupFanout (s : State) (g : Nat) : Nat := rdf s (groupReg g) 7 4
def groupBase (s : State) (g : Nat) : Nat := rdf s (groupReg g + 4) 13 0
def groupSize (s : State) (g : Nat) : Nat := rdf s (groupReg g + 8) 14 0

/-- This chip is a member. -/
def groupMember (s : State) (g : Nat) : Bool :=
  decide (groupBase s g ≤ chipNum s) && decide (chipNum s < groupBase s g + groupSize s g)
def groupRank (s : State) (g : Nat) : Nat := chipNum s - groupBase s g
def groupCoord (s : State) (g : Nat) : Bool := groupMember s g && decide (groupRank s g = 0)

/-- Chips that are children of this chip in the rank tree. -/
def groupChildren (s : State) (g : Nat) : List Nat :=
  let r := groupRank s g
  ((List.range (groupFanout s g)).map fun i => groupFanout s g * r + 1 + i).filterMap fun c =>
    if c < groupSize s g then some (groupBase s g + c) else none

/-- The parent's chip number; the coordinator has none. -/
def groupParent (s : State) (g : Nat) : Option Nat :=
  if groupRank s g = 0 then none else some (groupBase s g + (groupRank s g - 1) / groupFanout s g)

/-- The group is usable on this chip: valid, not broken, this chip in it, and, in a group of one, formed at the lock
(13 R387). -/
def groupUsable (s : State) (g : Nat) : Bool :=
  groupValid s g && !groupBroken s g && groupMember s g && locked s

/-- Messages to every child. -/
def sendAll (g : Fin 16) (kind tag : Nat) (payload : List Byte) : List Nat → State → State
  | [], s => s
  | c :: cs, s => sendAll g kind tag payload cs (sendMsg (groupMsg g c kind tag true payload) s)

/-! ### Slates (13 R391–R394) -/

/-- A slate of a group by ID; ID 0 stands for every slate of the group. -/
def slateIs (g : Fin 16) (id : Nat) (x : Slate) : Bool := decide (x.group = g) && (decide (id = 0) || decide (x.id.toNat = id))

/-- Slates of a group disarm: their SLATE_ARM descriptors end with SLATE_BROKEN (13 R393 step 5). -/
def disarm (g : Fin 16) (id : Nat) : List Slate → State → State
  | [], s => { s with splice := { s.splice with slates := s.splice.slates.filter fun x => !slateIs g id x } }
  | x :: xs, s =>
    disarm g id xs (if slateIs g id x then (match x.ref with
      | some r => finish r 0x23 7 0 0 0 [] s
      | none => s) else s)

/-- A break is counted on this chip. -/
def countBreak (s : State) : State := raise spliceEvent 4 (bump 0xB0028 1 s)

/-- This chip breaks a slate (13 R393 steps 3 and 5): the coordinator disarms, counts the break and sends BREAK down the tree;
any other member sends a negative ACK up to it and acts when the BREAK comes down. The payload carries the status, with 0x80 added
where jobs end in TAKE mode too, and 0xFF for a group that is broken itself (log 20). -/
def breakSlate (g : Fin 16) (id status : Nat) (s : State) : State :=
  match groupParent s g.val with
  | none => sendAll g 3 id (leBytes 1 status) (groupChildren s g.val) (countBreak (disarm g id s.splice.slates s))
  | some p => sendMsg (groupMsg g p 2 id true (leBytes 1 status)) s

/-- What this chip has gathered for a group's collectives and barriers is dropped. -/
def clearGroup (g : Fin 16) (s : State) : State :=
  { s with splice := { s.splice with colls := s.splice.colls.filter (fun x => decide (x.group ≠ g)),
                                     barriers := s.splice.barriers.filter (fun x => decide (x.group ≠ g)) } }

end Sys2Proof.Machine
end

