-- ==== Sys2Proof/Machine/Uplink.lean ====
section
/-! DEFINITION. What the steps of an armed chain deliver: arrival bitmaps, soft combining, decoding and retakes of code blocks,
the PRACH search, and the indications built from them (09 R260–R276). -/

namespace Sys2Proof.Config

/-- What a chain's code had completely written when something other than its checkpoint stopped it: a free value (log 22). -/
opaque freeUnits : Nat → Sys2Proof.ChainResult

end Sys2Proof.Config

namespace Sys2Proof.Machine

/-! ### Chains (06 R188; 09 R255, R256) -/

/-- Loaded image by its load number. -/
def loadedNum (s : State) (k : Nat) : Option Loaded := s.loaded.find? fun l => decide (l.num = k)
/-- The active call sheet. -/
def activeLoad (s : State) : Option Loaded := s.loaded.find? fun l => decide (l.img.kind = 1) && decide (l.state = .active)

/-- The chain of a descriptor that has not ended. -/
def chainOf (s : State) (r : DRef) : Option Chain := s.chains.find? fun c => decide (c.ref = r) && !c.ended
/-- A chain with new contents. -/
def setChain (c : Chain) (s : State) : State :=
  { s with chains := s.chains.map fun x => if x.ref = c.ref then c else x }
/-- What a chain has delivered, with new contents. -/
def setGot (c : Chain) (g : Got) (s : State) : State := setChain { c with got := g } s

/-- KIND of a chain number (09 R255). -/
def chainKind (c : Nat) : Nat := c / 4

/-- A bit of OPW2 of the chain's descriptor: PRACH, RETAKE_EN, RUSHES, CONF_OUT; and a field of another OPW (09 R256). -/
def chainOpw2 (s : State) (r : DRef) (b : Nat) : Bool := match flightOf s r with
  | some f => (dOpw f.desc 2).getLsbD b
  | none => false
def chainOpw (s : State) (r : DRef) (k hi lo : Nat) : Nat := match flightOf s r with
  | some f => field (dOpw f.desc k) hi lo
  | none => 0

/-- The image of a chain as it was read. -/
def chainRaw (s : State) (c : Chain) : List Byte := match loadedNum s c.image with
  | some l => l.img.raw
  | none => []

/-- The PUSCH PDU at an index of a request, and all of them with their index. -/
def puschOf (p : FapiPdu) : Option PuschPdu := match p.chan with
  | .pusch x => some x
  | _ => none
def puschAt (c : Chain) (k : Nat) : Option PuschPdu := (c.pdus[k]?).bind puschOf
def puschList (c : Chain) : List (Nat × FapiPdu × PuschPdu) :=
  (c.pdus.zipIdx).filterMap fun x => (puschOf x.1).map fun p => (x.2, x.1, p)

/-- Code blocks of a PDSCH PDU, and DCIs of a PDCCH PDU. -/
def pdschBlocks (p : FapiPdu) : Option Nat := match p.chan with
  | .pdsch _ _ n => some n
  | _ => none
def pdcchDcis (p : FapiPdu) : Nat := match p.chan with
  | .pdcch _ l => l.length
  | _ => 0

/-- Units of a chain: code blocks, configurations of its occasions, or DCIs (03 R88). -/
def chainTotal (c : Chain) : Nat := match chainKind c.chain with
  | 0 => ((puschList c).map fun x => x.2.2.codeBlocks).sum
  | 1 => c.pdus.length
  | 2 => (c.pdus.map fun p => (pdschBlocks p).getD 0).sum
  | _ => (c.pdus.map pdcchDcis).sum

/-- RETAKE_BUDGET of a chain of a loaded image (09 R268). -/
def chainBudget (s : State) (c : Chain) : Nat := match loadedNum s c.image with
  | some l => Config.retakeBudget l.img.raw c.chain
  | none => 0

/-! ### Packs (09 R265, R277) -/

/-- The pack numbered `k`. -/
def packNum (s : State) (k : Nat) : Option Pack := s.radio.packs.find? fun p => decide (p.num = k)
/-- The pack that a chain was armed with. -/
def chainPack (s : State) (c : Chain) : Option Pack := c.pack.bind (packNum s)

/-- A section of a pack, by its TYPE. -/
def packSect (p : Pack) (typ : Nat) : List Byte :=
  match [64, 80, 96, 112].find? fun o => decide (leAt p.raw o 2 = typ) with
  | some o => (p.raw.drop (leAt p.raw (o + 4) 4)).take (leAt p.raw (o + 8) 4)
  | none => []

/-- BF16 at index `k` of the LLRS section: 5 × 8 scales, then 2 × 16 min-sum factors. -/
def packBf16 (p : Pack) (k : Nat) : BitVec 16 := BitVec.ofNat 16 (leAt (packSect p 3) (2 * k) 2)
/-- CONF8 of a raw confidence score. -/
def packConf (p : Pack) (score : Byte) : Byte := (packSect p 4).getD score.toNat 0

/-- Place of a modulation in the pack's masks and tables, by its bits per symbol. -/
def modIndex (qm : Nat) : Nat := match qm with
  | 1 => 0 | 2 => 1 | 4 => 2 | 6 => 3 | _ => 4

/-- The chain's pack covers an allocation (09 R265). -/
def packCovers (s : State) (c : Chain) (mu : Nat) (p : PuschPdu) : Bool := match chainPack s c with
  | none => false
  | some q => q.modMask.testBit (modIndex p.qm) && decide (p.layers ≤ q.maxLayers) && q.muMask.testBit mu &&
      q.waveMask.testBit (bnat p.dfts)

/-- PATH of a PUSCH PDU without a retake (09 R265): 0 learned, 2 classical by request, 3 classical for want of a pack. -/
def confPath (s : State) (c : Chain) (covered : Bool) : Nat :=
  match flightOf s c.ref with
  | none => 2
  | some f => if field (dOpw f.desc 1) 31 16 = 0 then 2 else if c.pack.isSome && covered then 0 else 3

/-- PATH of the PDU at index `k`. -/
def pathAt (s : State) (c : Chain) (k : Nat) : Nat := match c.pdus[k]? with
  | none => 2
  | some d => match puschOf d with
    | none => 2
    | some p => confPath s c (packCovers s c d.mu p)

/-! ### The landing area as stage 1 reads it (08 R244, R245; 09 R261, R275) -/

/-- DIRECTOR.DL_STAGE_g: pool offset and streams (09 R279). -/
def dlBase (s : State) (g : Nat) : Nat := rdf s (0x30310 + 4 * g) 25 6 * 64
def dlStreams (s : State) (g : Nat) : Nat := rdf s (0x30310 + 4 * g) 28 26 + 1
/-- FRONTHAUL.UL_RING_g (08 R244). -/
def ulBase (s : State) (g : Nat) : Nat := rdf s (0xD0020 + 4 * g) 25 6 * 64
def ulStreams (s : State) (g : Nat) : Nat := rdf s (0xD0020 + 4 * g) 29 26 + 1

/-- Device address of a symbol buffer (08 R244). -/
def symbolBuf (base streams pos stream symbol : Nat) : Nat := poolBase + base + ((pos * streams + stream) * 14 + symbol) * 13184

/-- An eAxC map entry (08 R236): its register, whether it is for the uplink, and PORT, GRID and STREAM. -/
def eaxcReg (i : Nat) : Nat := 0xD0400 + 4 * i
def eaxcUp (w : Word) : Bool := !w.getLsbD 25
def eaxcPort (w : Word) : Nat := field w 18 16
def eaxcGrid (w : Word) : Nat := field w 20 19
def eaxcStream (w : Word) : Nat := field w 24 21
/-- Map entries in force: valid and not disabled. -/
def eaxcLive (s : State) : List Word :=
  ((List.range 128).map fun i => rd s (eaxcReg i)).filter fun w => w.getLsbD 31 && !w.getLsbD 30

/-- Uplink streams of a grid: those of PRACH, or the others. -/
def rxStreams (s : State) (g : Nat) (prach : Bool) : List Nat :=
  ((eaxcLive s).filter fun w => eaxcUp w && decide (eaxcGrid w = g) && decide (w.getLsbD 26 = prach)).map eaxcStream

/-- Every landing bitmap of a grid: by place, stream and symbol. -/
def landingMaps (s : State) (g : Nat) : List (List Byte) :=
  (List.range (28 * ulStreams s g)).map fun i => memRead s (symbolBuf (ulBase s g) (ulStreams s g) 0 0 i) 64

/-- The bitmaps of a symbol of the slot `back` slots before that of the chain, for every stream of its channel, as they stood at
the cue of the step that reads it. -/
def readSymbol (s : State) (c : Chain) (seen : List (List Byte)) (back l : Nat) : List (Nat × List Byte) :=
  let n := ulStreams s c.grid.val
  let pos := (slotPos s c.grid.val c.t0 + back) % 2
  (rxStreams s c.grid.val (decide (chainKind c.chain = 1))).map fun k => (k, seen.getD ((pos * n + k) * 14 + l) [])

/-- Symbols are read; one that has been read stays as it was. -/
def readSymbols (s : State) (c : Chain) (seen : List (List Byte)) : List (Nat × Nat) → List (Nat × List (Nat × List Byte)) →
    List (Nat × List (Nat × List Byte))
  | [], l => l
  | x :: xs, l =>
    readSymbols s c seen xs (if l.any fun y => decide (y.1 = x.2) then l else l ++ [(x.2, readSymbol s c seen x.1 x.2)])

/-- Bit `k` of a bitmap. -/
def mapBit (m : List Byte) (k : Nat) : Bool := (m.getD (k / 8) 0).getLsbD (k % 8)

/-- PRBs of one symbol, over the streams whose bitmaps were read, that are absent; none where the symbol was not read. -/
def absentIn (g : Got) (l : Nat) (prbs : List Nat) : Nat := match g.reads.find? fun x => decide (x.1 = l) with
  | none => 0
  | some x => (x.2.map fun m => (prbs.filter fun k => !mapBit m.2 k).length).sum

/-- ABSENT_PRB of an allocation. -/
def absentOf (g : Got) (p : PuschPdu) : Nat := (p.alloc.map fun a => absentIn g a.1 a.2).sum

/-- Symbol `l` was read and PRB `k` is absent on every stream (log 113). -/
def prbGone (g : Got) (l k : Nat) : Bool := match g.reads.find? fun x => decide (x.1 = l) with
  | none => false
  | some x => x.2.all fun m => !mapBit m.2 k

/-- No DMRS PRB of the allocation is present (09 R261). -/
def noDmrs (g : Got) (p : PuschPdu) : Bool :=
  let ds := p.alloc.filter fun a => p.dmrs.getLsbD a.1
  decide (ds ≠ []) && ds.all fun a => a.2.all (prbGone g a.1)

/-! ### Soft bits (09 R260) -/

/-- An LLR as INT8 with saturation at ±127. -/
def satLlr (x : Int) : Byte := BitVec.ofInt 8 (clampInt (-127) 127 x)

/-- An LLR scaled by a BF16 factor. -/
def scaleLlr (h : BitVec 16) (x : Int) : Int :=
  let e := h.toNat / 128 % 256
  let sig := h.toNat % 128 + (if e = 0 then 0 else 128)
  let n := x.natAbs * sig
  let v := if 134 ≤ max e 1 then n * 2 ^ (max e 1 - 134)
    else n / 2 ^ (134 - max e 1) + (if n % 2 ^ (134 - max e 1) = 0 then 0 else bnat (Config.llrUp x h))
  if e = 255 then Config.llrOdd x h else if decide (x < 0) = h.getLsbD 15 then (v : Int) else -(v : Int)

/-- The LLR of a soft bit after stage 5: an absent PRB contributes 0, and the learned path scales by the pack's table. -/
def softLlr (g : Got) (scale : Option (Pack × Nat)) (x : SoftBit) : Byte :=
  if prbGone g x.symbol x.prb then 0
  else match scale with
    | none => satLlr x.llr
    | some (p, qm) => satLlr (scaleLlr (packBf16 p (8 * modIndex qm + x.bit % 8)) x.llr)

/-- Two INT8 soft bits added with saturation at ±127. -/
def softAdd (a b : Byte) : Byte := satLlr (a.toInt + b.toInt)

/-- Soft bits go to their places in a code block's buffer; bits of one place add. -/
def dematch (g : Got) (scale : Option (Pack × Nat)) : List SoftBit → List Byte → List Byte
  | [], buf => buf
  | x :: xs, buf => dematch g scale xs (buf.set x.pos (softAdd (buf.getD x.pos 0) (softLlr g scale x)))

/-- Length of a code block's buffer. -/
def bufLen (p : PuschPdu) : Nat := (allCols p.graph2 - 2) * p.lift

/-- New soft bits added to the stored ones of a code block. -/
def softSum (n : Nat) (old new : List Byte) : List Byte :=
  (List.range n).map fun i => softAdd (old.getD i 0) (new.getD i 0)

/-! ### The HARQ store (09 R262, R263) -/

/-- An entry of the store, and the others. -/
def harqIs (g : GridIx) (p : PuschPdu) (h : Harq) : Bool :=
  decide (h.grid = g) && decide (h.rnti = p.rnti) && decide (h.proc = p.harq)
def harqOf (s : State) (g : GridIx) (p : PuschPdu) : Option Harq := s.radio.harq.find? (harqIs g p)

/-- The chain runs on the active sheet; its store's capacity (log 54). -/
def harqCap (s : State) (c : Chain) : Nat := match activeLoad s with
  | some l => if l.num = c.image then Config.harqCapacity l.img.raw else 0
  | none => 0

/-- REASON of stage 6: 3 where a retransmission finds its process evicted, 4 where its block has passed. -/
def harqReason (s : State) (c : Chain) (p : PuschPdu) : Nat :=
  if p.newData then 0
  else if harqCap s c = 0 then 3
  else match harqOf s c.grid p with
    | none => 3
    | some h => if h.passed then 4 else 0

/-- An entry is the one used last; the least recently used leaves a full store of `cap` processes. -/
def harqPut (cap : Nat) (g : GridIx) (p : PuschPdu) (h : Harq) (s : State) : State :=
  let rest := s.radio.harq.filter fun x => !harqIs g p x
  if cap = 0 then s else { s with radio := { s.radio with harq := rest.drop (rest.length + 1 - cap) ++ [h] } }

/-- The entry of a process as an allocation's first stage 6 leaves it: emptied for new data. -/
def harqFresh (s : State) (c : Chain) (p : PuschPdu) : Harq :=
  match harqOf s c.grid p with
  | some h => if p.newData then ⟨c.grid, p.rnti, p.harq, [], false⟩ else h
  | none => ⟨c.grid, p.rnti, p.harq, [], false⟩

/-- Stored soft bits of a code block. -/
def harqBase (s : State) (c : Chain) (p : PuschPdu) (cb : Nat) : List Byte :=
  if harqCap s c = 0 then [] else ((harqOf s c.grid p).map fun h => h.soft.getD cb []).getD []

/-- The soft bits of a code block are kept. -/
def harqKeep (c : Chain) (p : PuschPdu) (cb : Nat) (soft : List Byte) (s : State) : State :=
  let h := (harqOf s c.grid p).getD ⟨c.grid, p.rnti, p.harq, [], false⟩
  harqPut (harqCap s c) c.grid p { h with soft := (h.soft ++ List.replicate (cb + 1 - h.soft.length) []).set cb soft } s

/-- The transport block of a process has passed. -/
def harqPassed (c : Chain) (p : PuschPdu) (s : State) : State :=
  { s with radio := { s.radio with harq := s.radio.harq.map fun h => if harqIs c.grid p h then { h with passed := true } else h } }

/-- A chain that ends with fallback leaves the store as if it had not run: entries that it touched are as before, and those that
it evicted return, as least recently used (log 112). -/
def harqRestore (c : Chain) (s : State) : State := match c.got.before with
  | none => s
  | some old =>
    let mine := c.got.begun.filterMap fun b => puschAt c b.1
    let others := s.radio.harq.filter fun h => !mine.any fun p => harqIs c.grid p h
    let back := old.filter fun h => !others.any fun x => decide (x.grid = h.grid ∧ x.rnti = h.rnti ∧ x.proc = h.proc)
    let all := back ++ others
    { s with radio := { s.radio with harq := all.drop (all.length - harqCap s c) } }

/-! ### Code blocks (09 R260–R263, R268, R269, R276) -/

/-- A code block's delivered result. -/
def cbOf (g : Got) (k i : Nat) : Option CbGot := g.cbs.find? fun x => decide (x.pdu = k) && decide (x.cb = i)
/-- REASON of stage 6 of an allocation; none before it has begun. -/
def begunAt (g : Got) (k : Nat) : Option Nat := (g.begun.find? fun x => decide (x.1 = k)).map Prod.snd

/-- Information bits of the transport block of an allocation, its CRC at the end. -/
def tbBits (g : Got) (p : PuschPdu) (k : Nat) : List Bool :=
  (List.range p.codeBlocks).flatMap fun i => match cbOf g k i with
    | some x => if p.codeBlocks = 1 then x.bits else x.bits.take (x.bits.length - 24)
    | none => []

/-- Every code block of an allocation has a delivered result. -/
def allGot (g : Got) (p : PuschPdu) (k : Nat) : Bool := (List.range p.codeBlocks).all fun i => (cbOf g k i).isSome

/-- The transport block has passed: every code block has, and the CRC over them (09 R263, R269). -/
def tbPasses (g : Got) (p : PuschPdu) (k : Nat) : Bool :=
  decide (p.codeBlocks ≠ 0) && ((List.range p.codeBlocks).all fun i => ((cbOf g k i).map (·.pass)).getD false) &&
    (decide (begunAt g k = some 4) || decide (p.codeBlocks = 1) || tbCrcOk p.tbBytes (tbBits g p k))

/-- Iterations of the decoder of a sheet. -/
def ldpcIters (raw : List Byte) : Nat := max 1 (min 16 (Config.ldpcLimit raw))

/-- Factors of the check-node minima by iteration: the pack's on the learned path, else 0.75 (09 R276). -/
def minSumFactors (raw : List Byte) (p : PuschPdu) (learned : Option Pack) : List Nat :=
  (List.range (ldpcIters raw)).map fun i => match learned with
    | some q => minSumFactor (packBf16 q (40 + 16 * bnat p.graph2 + i))
    | none => 384

/-- A code block decoded from its soft bits: information bits, and its CRC. -/
def decodeCb (raw : List Byte) (p : PuschPdu) (learned : Option Pack) (soft : List Byte) : List Bool × Bool :=
  let bits := ldpcDecode p.graph2 p.lift p.filler (minSumFactors raw p learned) soft
  (bits, if p.codeBlocks = 1 then tbCrcOk p.tbBytes bits else cbCrcOk bits)

/-- The first stage 6 of an allocation: its process takes its place in the store, unless its block has passed already. -/
def beginPdu (c : Chain) (k : Nat) (p : PuschPdu) (s : State) : State :=
  if (begunAt c.got k).isSome then s
  else
    let why := harqReason s c p
    let t := setGot c { c.got with begun := c.got.begun ++ [(k, why)], before := c.got.before.or (some s.radio.harq) } s
    if why = 4 then t else harqPut (harqCap s c) c.grid p (harqFresh s c p) t

/-- |LLR| of soft bits. -/
def magOf (l : List Byte) : Nat := (l.map fun b => b.toInt.natAbs).sum

/-- A code block's result is delivered: the process has passed once its transport block has. -/
def deliverGot (c : Chain) (p : PuschPdu) (x : CbGot) (s : State) : State :=
  let g := { c.got with cbs := c.got.cbs ++ [x] }
  let t := setGot c g s
  if tbPasses g p x.pdu then harqPassed c p t else t

/-- Stages 5 to 8 of a code block that has DMRS: combining, decoding, and a retake where one is due and the budget lasts. -/
def decodeBlock (c : Chain) (p : PuschPdu) (b : CbPart) (s : State) : State :=
  let learned := if pathAt s c b.pdu = 0 then chainPack s c else none
  let n := bufLen p
  let base := harqBase s c p b.cb
  let sum1 := softSum n base (dematch c.got (learned.map fun q => (q, p.qm)) b.first (List.replicate n 0))
  let d1 := decodeCb (chainRaw s c) p learned sum1
  let may := learned.isSome && chainOpw2 s c.ref 1 && !d1.2
  let take := may && decide ((c.got.cbs.filter (·.taken)).length < chainBudget s c)
  let sum2 := softSum n base (dematch c.got none b.classical (List.replicate n 0))
  let d2 := decodeCb (chainRaw s c) p none sum2
  let x : CbGot :=
    { pdu := b.pdu, cb := b.cb, fail1 := !d1.2, taken := take, skipped := may && !take, pass := if take then d2.2 else d1.2,
      bits := if take then d2.1 else d1.1, mag := magOf sum1, count := n }
  bump 0x30338 (bnat x.skipped) (bump 0x30334 (bnat (take && x.pass)) (bump 0x30330 (bnat take)
    (deliverGot c p x (harqKeep c p b.cb (if take then sum2 else sum1) s))))

/-- A code block that no decoder ran for: it passes where its transport block has passed already, else it fails. -/
def plainBlock (c : Chain) (p : PuschPdu) (b : CbPart) (passed : Bool) (s : State) : State :=
  deliverGot c p
    { pdu := b.pdu, cb := b.cb, fail1 := !passed, taken := false, skipped := false, pass := passed, bits := [], mag := 0, count := 0 } s

/-- A code block of an allocation whose stage 6 has begun. -/
def judgeBlock (c : Chain) (p : PuschPdu) (b : CbPart) (s : State) : State :=
  if begunAt c.got b.pdu = some 4 then plainBlock c p b true s
  else if noDmrs c.got p then plainBlock c p b false s
  else decodeBlock c p b s

/-- A code block is delivered, once. -/
def deliverBlock (r : DRef) (b : CbPart) (s : State) : State := match chainOf s r with
  | none => s
  | some c => match puschAt c b.pdu with
    | none => s
    | some p =>
      if p.codeBlocks ≤ b.cb ∨ (cbOf c.got b.pdu b.cb).isSome then s
      else
        let t := beginPdu c b.pdu p s
        match chainOf t r with
        | none => t
        | some d => judgeBlock d p b t

/-- Code blocks in ascending allocation and code-block order (09 R268). -/
def insertBlock (b : CbPart) : List CbPart → List CbPart
  | [] => [b]
  | x :: xs => if b.pdu < x.pdu ∨ b.pdu = x.pdu ∧ b.cb ≤ x.cb then b :: x :: xs else x :: insertBlock b xs
def sortBlocks (l : List CbPart) : List CbPart := l.foldr insertBlock []

def deliverBlocks (r : DRef) : List CbPart → State → State
  | [], s => s
  | b :: bs, s => deliverBlocks r bs (deliverBlock r b s)

/-- Code blocks of a chain that have no result yet, without soft bits. -/
def missingBlocks (c : Chain) : List CbPart :=
  (puschList c).flatMap fun x => ((List.range x.2.2.codeBlocks).filter fun i => (cbOf c.got x.1 i).isNone).map fun i => ⟨x.1, i, [], []⟩

/-! ### The PRACH search (09 R273, R274) -/

/-- Repetitions of the sequence in a format (TS 38.211; PRESUMED, log 111), PRBs of its sequence (08 R244). -/
def raReps : RaFormat → Nat
  | .f0 => 1 | .f1 => 2 | .f2 => 4 | .f3 => 4 | .a1 => 2 | .a2 => 4 | .a3 => 6 | .b1 => 2 | .b2 => 4 | .b3 => 6 | .b4 => 12 | .c0 => 1
  | .c2 => 4 | .other => 0
def raPrbs : RaFormat → Nat
  | .f0 => 70 | .f1 => 70 | .f2 => 70 | .f3 => 70 | .other => 0 | _ => 12

/-- The repetition levels of a format: powers of two up to its count, and the count. -/
def raLevels (n : Nat) : List Nat := ([1, 2, 4, 8].filter fun r => decide (r < n)) ++ [n]

/-- Profiles added bin by bin. -/
def addBins (a b : List Nat) : List Nat := (List.range (max a.length b.length)).map fun i => a.getD i 0 + b.getD i 0

/-- The profile of a window accumulated over every stream and the first `r` repetitions. -/
def levelBins (w : RaWindow) (r : Nat) : List Nat := ((w.profiles.take r).flatten).foldl addBins []

/-- The highest bin of a profile, of equal ones the first, and its power. -/
def peakOf (l : List Nat) : Nat × Nat :=
  (l.zipIdx).foldl (fun a x => if a.2 < x.1 then (x.2, x.1) else a) (0, 0)

/-- A window at a level. -/
def hitAt (w : RaWindow) (r : Nat) : RaHit :=
  let bins := levelBins w r
  { index := w.index, level := r, bin := (peakOf bins).1, peak := (peakOf bins).2, floor := Config.prachFloor bins + 1 }

/-- The normalised metric of one is higher than that of the other. -/
def hitAbove (a b : RaHit) : Bool := decide (b.peak * a.floor < a.peak * b.floor)

/-- The level with the highest metric; ties go to the lower level. -/
def bestHit (w : RaWindow) : List Nat → RaHit → RaHit
  | [], h => h
  | r :: rs, h => bestHit w rs (if hitAbove (hitAt w r) h then hitAt w r else h)

/-- THRESH in units of 1/256: 0 stands for 12.0 (09 R256). -/
def raThresh (s : State) (c : Chain) : Nat := if chainOpw s c.ref 3 15 0 = 0 then 3072 else chainOpw s c.ref 3 15 0

/-- The preamble of a window, where its metric reaches the threshold at some level. -/
def detect (thr : Nat) (fmt : RaFormat) (w : RaWindow) : Option RaHit :=
  let h := bestHit w ((raLevels (raReps fmt)).drop 1) (hitAt w ((raLevels (raReps fmt)).headD 1))
  if thr * h.floor ≤ 256 * h.peak then some h else none

/-- At most 64 preambles, those with the highest metrics; of equal ones the earlier (log 114). -/
def bestSixtyFour (l : List RaHit) : List RaHit :=
  ((l.zipIdx).filter fun x => decide ((((l.zipIdx).filter fun y => hitAbove y.1 x.1 || (!hitAbove x.1 y.1 && decide (y.2 < x.2))).length)
    < 64)).map Prod.fst

/-- Format of a PRACH PDU. -/
def raFormat (p : FapiPdu) : RaFormat := match p.chan with
  | .prach f _ _ => f
  | _ => .other

/-- A configuration has been searched to the end. -/
def deliverRa (r : DRef) (x : RaPart) (s : State) : State := match chainOf s r with
  | none => s
  | some c => match c.pdus[x.pdu]? with
    | none => s
    | some p =>
      if chainKind c.chain ≠ 1 ∨ c.got.found.any (fun y => decide (y.1 = x.pdu)) then s
      else
        let l := bestSixtyFour (x.windows.filterMap (detect (raThresh s c) (raFormat p)))
        bump 0x30340 l.length (setGot c { c.got with found := c.got.found ++ [(x.pdu, l)] } s)

def deliverRas (r : DRef) : List RaPart → State → State
  | [], s => s
  | x :: xs, s => deliverRas r xs (deliverRa r x s)

/-- Preambles detected, with the index of their configuration, in request order. -/
def raFound (c : Chain) : List (Nat × RaHit) :=
  (List.range c.pdus.length).flatMap fun k => (c.got.found.filter fun y => decide (y.1 = k)).flatMap fun y => y.2.map fun h => (k, h)

/-- Absent PRBs over the occasion. -/
def raAbsent (c : Chain) : Nat :=
  (c.pdus.map fun p => ((List.range (raReps (raFormat p))).map fun l => absentIn c.got l (List.range (raPrbs (raFormat p)))).sum).sum

/-- The metric in units of 1/256. -/
def raMetric (h : RaHit) : BitVec 16 :=
  let q := 256 * h.peak / h.floor + (if 256 * h.peak % h.floor = 0 then 0 else bnat (Config.prachUp h.peak h.floor))
  if q < 65536 then BitVec.ofNat 16 q else Config.prachOver h.peak h.floor

/-! ### What a step delivers -/

/-- New entries of a table by PDU; one that is there stays. -/
def addNew {α : Type} (l : List (Nat × α)) : List (Nat × α) → List (Nat × α)
  | [] => l
  | x :: xs => addNew (if l.any fun y => decide (y.1 = x.1) then l else l ++ [x]) xs

/-- What a step has read and measured, and the reports and staged blocks that it has written. -/
def deliverPlain (c : Chain) (seen : List (List Byte)) (res : ChainResult) (s : State) : State :=
  setGot c { c.got with
    reads := readSymbols s c seen res.reads c.got.reads,
    meas := addNew c.got.meas (res.meas.map fun m => (m.pdu, m.score, m.sinr)),
    uci := addNew c.got.uci res.uci, srs := addNew c.got.srs res.srs,
    staged := (c.got.staged ++ res.staged).eraseDups } s

/-- What a step of a chain has delivered; `seen` holds the landing bitmaps at its cue. -/
def deliver (r : DRef) (seen : List (List Byte)) (res : ChainResult) (s : State) : State := match chainOf s r with
  | none => s
  | some c => deliverRas r res.prach (deliverBlocks r (sortBlocks res.blocks) (deliverPlain c seen res s))

/-- Bitmaps of the step of a chain that runs. -/
def runningSeen (c : Chain) : List (List Byte) := match c.steps.find? fun x => decide (x.state = .running) with
  | some x => x.seen
  | none => []

/-- What a chain had completely written when something other than its checkpoint stopped it: free once it has fired (log 22). -/
def deliverFree (r : DRef) (s : State) : State := match chainOf s r with
  | none => s
  | some c => if c.fired && decide (chainKind c.chain ≤ 1) then useFree (deliver r (runningSeen c) (Config.freeUnits s.free) s) else s

/-! ### Indications (09 R264–R266, R272) -/

/-- A frame of the indications: MSG_ID, body length, body padded to 8 (09 R264). -/
def phyFrame (msg : Nat) (body : List Byte) : List Byte :=
  leBytes 2 msg ++ zeros 2 ++ leBytes 4 body.length ++ padTo 8 body

/-- The frame that ends the sequence. -/
def phyEnd : List Byte := zeros 8

/-- A RX_CONF entry (09 R265). -/
def confEntry (handle : Word) (rnti : BitVec 16) (path reason conf8 llr sinr total failFirst retaken retakeOk absent : Nat)
    (cbPath : Nat) : List Byte :=
  leBytes 4 handle.toNat ++ leBytes 2 rnti.toNat ++ leBytes 1 path ++ leBytes 1 reason ++ leBytes 1 conf8 ++ leBytes 1 llr ++
  leBytes 2 sinr ++ leBytes 1 total ++ leBytes 1 failFirst ++ leBytes 1 retaken ++ leBytes 1 retakeOk ++ leBytes 2 absent ++
  zeros 2 ++ padTo 4 (leBytes (ceilDiv total 8) cbPath)

/-- REASON of a completed allocation: of stage 6, else of the pack (09 R265; log 51). -/
def reasonOf (path harq : Nat) (packed : Bool) : Nat :=
  if harq ≠ 0 then harq else if path = 3 then (if packed then 2 else 1) else 0

/-- Bits of a list, first lowest. -/
def bitsNat : List Bool → Nat
  | [] => 0
  | b :: bs => bnat b + 2 * bitsNat bs

/-- Delivered code blocks of an allocation, and how many of all meet a condition. -/
def cbsOf (g : Got) (k : Nat) : List CbGot := g.cbs.filter fun x => decide (x.pdu = k)
def countCbs (f : CbGot → Bool) (l : List CbGot) : Nat := (l.filter f).length

/-- Mean |LLR| of the soft bits that entered stage 7 (log 115). -/
def llrMag (l : List CbGot) : Nat :=
  let m := (l.map (·.mag)).sum
  let n := (l.map (·.count)).sum
  if n = 0 then Config.meanNone else m / n + (if m % n = 0 then 0 else bnat (Config.meanUp m n))

/-- What an allocation measured; a free value where nothing was. -/
def measAt (s : State) (g : Got) (k : Nat) : Byte × BitVec 16 := match g.meas.find? fun m => decide (m.1 = k) with
  | some m => m.2
  | none => ((Config.freeValue (s.free + k)).setWidth 8, ((Config.freeValue (s.free + k)).setWidth 24).extractLsb' 8 16)

/-- PATH of an allocation as delivered: 1 with a retake of at least one code block. -/
def pathOf (s : State) (c : Chain) (k : Nat) : Nat :=
  if (cbsOf c.got k).any (·.taken) then 1 else pathAt s c k

/-- The RX_CONF entry of an allocation; REASON is 5 where it is not complete (log 52). -/
def confOf (s : State) (c : Chain) (k : Nat) (d : FapiPdu) (p : PuschPdu) : List Byte :=
  let l := cbsOf c.got k
  let path := pathOf s c k
  let m := measAt s c.got k
  confEntry d.handle p.rnti path (if allGot c.got p k then reasonOf path ((begunAt c.got k).getD 0) c.pack.isSome else 5)
    (if path ≤ 1 then ((chainPack s c).map fun q => (packConf q m.1).toNat).getD 0 else 0) (llrMag l) m.2.toNat p.codeBlocks
    (countCbs (·.fail1) l) (countCbs (·.taken) l) (countCbs (fun x => x.taken && x.pass) l) (absentOf c.got p)
    (bitsNat ((List.range p.codeBlocks).map fun i => ((cbOf c.got k i).map (·.taken)).getD false))

/-- What CRC.indication says of an allocation; a code block without a result has failed (09 R272). -/
def tbReport (c : Chain) (k : Nat) (d : FapiPdu) (p : PuschPdu) : Config.TbReport :=
  { handle := d.handle, rnti := p.rnti, harq := p.harq, pass := tbPasses c.got p k,
    cbs := (List.range p.codeBlocks).map fun i => ((cbOf c.got k i).map (·.pass)).getD false }

/-- Bytes of a transport block that has passed. -/
def tbData (c : Chain) (k : Nat) (p : PuschPdu) : List Byte := bytesMsb p.tbBytes ((tbBits c.got p k).take (8 * p.tbBytes))

/-- The allocation's transport block goes to RX_Data: it has passed, and had not before. -/
def inRxData (c : Chain) (k : Nat) (p : PuschPdu) : Bool := tbPasses c.got p k && decide (begunAt c.got k ≠ some 4)

/-- The slot word of a chain. -/
def chainSlot (c : Chain) : Nat := slotWord c.grid.val c.sfn.toNat c.slot.toNat

/-- PDUs that ask for UCI: every PUCCH, and PUSCH with UCI; those that ask for SRS. -/
def asksUci (p : FapiPdu) : Bool := match p.chan with
  | .pusch x => x.uci
  | .pucch _ _ => true
  | _ => false
def asksSrs (p : FapiPdu) : Bool := match p.chan with
  | .srs _ _ _ _ => true
  | _ => false

/-- Reports of the PDUs that meet a condition, in request order; none where a PDU has none: DTX. -/
def reportsOf (c : Chain) (f : FapiPdu → Bool) (l : List (Nat × List Byte)) : List (Word × Option (List Byte)) :=
  ((c.pdus.zipIdx).filter fun x => f x.1).map fun x => (x.1.handle, (l.find? fun y => decide (y.1 = x.2)).map Prod.snd)

/-- The frames of a kind 0 chain, in the order of R264, from what it has delivered. -/
def ulFrames (s : State) (c : Chain) : List (List Byte) :=
  let w := chainSlot c
  let ps := puschList c
  let rx := ps.filter fun x => inRxData c x.1 x.2.2
  let uci := reportsOf c asksUci c.got.uci
  let srs := reportsOf c asksSrs c.got.srs
  (if ps = [] then [] else [phyFrame 0x86 (Config.fapiCrc w (ps.map fun x => tbReport c x.1 x.2.1 x.2.2))]) ++
  (if rx = [] then [] else [phyFrame 0x85 (Config.fapiRxHead w rx.length ++ rx.flatMap fun x =>
    Config.fapiRxPdu (tbReport c x.1 x.2.1 x.2.2) x.2.2.tbBytes ++ tbData c x.1 x.2.2)]) ++
  (if uci = [] then [] else [phyFrame 0x87 (Config.fapiUci w uci)]) ++
  (if srs = [] then [] else [phyFrame 0x88 (Config.fapiSrs w srs)]) ++
  (if chainOpw2 s c.ref 3 && decide (ps ≠ []) then
    [phyFrame 0x180 (leBytes 4 ps.length ++ ps.flatMap fun x => confOf s c x.1 x.2.1 x.2.2)] else [])

/-- What RACH.indication says of a preamble. -/
def raReport (c : Chain) (x : Nat × RaHit) : Config.RaReport :=
  { handle := ((c.pdus[x.1]?).map (·.handle)).getD 0, index := x.2.index, level := BitVec.ofNat 8 x.2.level, bin := x.2.bin,
    power := x.2.peak }

/-- A RACH_EXT entry (09 R274). -/
def rachEntry (x : Nat × RaHit) : List Byte :=
  [x.2.index, BitVec.ofNat 8 x.1, BitVec.ofNat 8 x.2.level, 0] ++ leBytes 2 (raMetric x.2).toNat ++ zeros 2

/-- The frames of a kind 1 chain. -/
def raFrames (c : Chain) : List (List Byte) :=
  let l := raFound c
  [phyFrame 0x89 (Config.fapiRach (chainSlot c) (l.map (raReport c))), phyFrame 0x181 (leBytes 4 l.length ++ l.flatMap rachEntry)]

/-- The frames that a chain writes, and all that goes to ADDR1. -/
def chainFrames (s : State) (c : Chain) : List (List Byte) := match chainKind c.chain with
  | 0 => ulFrames s c
  | 1 => raFrames c
  | _ => []
def chainBytes (s : State) (c : Chain) : List Byte := if chainKind c.chain ≤ 1 then (chainFrames s c).flatten ++ phyEnd else []

/-- Code blocks that fail in the delivered result: those without a result among them (09 R266, R272). -/
def cbsFailed (c : Chain) : Nat := chainTotal c - countCbs (·.pass) c.got.cbs

/-- RESULT of the final record (09 R266; log 53). -/
def chainResult (s : State) (c : Chain) : Dword := match chainKind c.chain with
  | 0 => BitVec.ofNat 64 (cbsFailed c % 256 + countCbs (·.taken) c.got.cbs % 256 * 2 ^ 8 +
      countCbs (fun x => x.taken && x.pass) c.got.cbs % 256 * 2 ^ 16 + chainBudget s c % 256 * 2 ^ 24 +
      ((puschList c).map fun x => absentOf c.got x.2.2).sum % 65536 * 2 ^ 32 + (ulFrames s c).length % 65536 * 2 ^ 48)
  | 1 => BitVec.ofNat 64 ((raFound c).length % 256 + raAbsent c % 65536 * 2 ^ 32 + 2 * 2 ^ 48)
  | _ => 0

/-- PROGRESS of a chain: code blocks with a delivered result, configurations searched, code blocks or DCIs staged (03 R88; 09
R259, R266). -/
def chainProgress (c : Chain) : Nat := match chainKind c.chain with
  | 0 => c.got.cbs.length
  | 1 => c.got.found.length
  | 2 => ((c.got.staged.filter fun k => c.bound.any fun b => decide (b.1 = k)).map fun k => (((c.pdus[k]?).bind pdschBlocks).getD 0)).sum
  | _ => chainTotal c

end Sys2Proof.Machine
end

