-- ==== Sys2Proof/Machine/Work.lean ====
section
/-! DEFINITION. Work and how it ends: chains of PHY descriptors and their fallback, scoring items, take jobs and retakes,
and the fence of a tile (06 R195, R196; 09 R272; 10 R308; 14 R401–R408). -/

namespace Sys2Proof.Machine

/-! ### Results that a descriptor writes -/

/-- The final record of a descriptor whose output bytes go to ADDR1 first, host or device. -/
def finishOut (r : DRef) (status disp : Nat) (result : Dword) (progress : Nat) (ref : Word) (bytes : List Byte) (s : State) :
    State :=
  match flightOf s r with
  | none => s
  | some f =>
    if bytes = [] then finish r status disp result progress ref [] s
    else if dA1Dev f.desc then finish r status disp result progress ref [] (devWrite (dAddr1 f.desc).toNat bytes s)
    else finish r status disp result progress ref [(dAddr1 f.desc, bytes)] s

/-- FAULT_REF of the uncorrectable entry logged last; 0 where the log holds none (log 21). `n` bounds the search. -/
def lastUeRef (s : State) : Nat → Nat → Word
  | 0, _ => 0
  | n + 1, q =>
    let base := 0x51000 + 32 * (q % 256)
    if rdf s (base + 4) 7 0 = 2 ∨ rdf s (base + 4) 7 0 = 4 then rd s base else lastUeRef s n (q + 255)

/-- FAULT_REF of the uncorrectable entry logged last. -/
def lastUe (s : State) : Word := lastUeRef s 256 (rdf s 0x50028 15 0 + 255)

/-! ### Threads and reels -/

/-- A fence drops what is queued at an array: operations, and a shadow load that has not started (14 R401). -/
def dropOps (a : MArray) : MArray :=
  { a with queue := [], load := match a.load with
      | .waiting _ _ _ _ _ => .idle
      | l => l }

/-- The operations of a thread that wait at an array. -/
def opsOf (t : Thr) (a : MArray) : List MatOp := a.queue.filter fun o => decide (o.thr = t)

/-- An operation of thread `t` at an array is queued, or a shadow load of it is not complete. -/
def loadOpen (t : Thr) (a : MArray) : Bool := decide (opsOf t a ≠ []) || (match a.load with
  | .idle => false
  | .waiting _ _ u _ _ => decide (u = t)
  | .loading _ _ u _ => decide (u = t))

/-- Every operation of thread `t` issued to the units of a SYNC operand has completed: A0–A3, the vector engine, the
reduction unit, Dolly, the atomics path (05 R167). Passes, vector and reduction operations complete as they issue. -/
def syncDone (s : State) (n : TileIx) (t : Thr) (units : Byte) : Bool :=
  let x := tileOf s n
  !(units.getLsbD 0 && loadOpen t x.a0) && !(units.getLsbD 1 && loadOpen t x.a1) &&
    !(units.getLsbD 2 && loadOpen t x.a2) && !(units.getLsbD 3 && loadOpen t x.a3) &&
    !(units.getLsbD 6 && x.dolly.any fun l => decide (l.thr = t)) &&
    !(units.getLsbD 7 && s.mem.atomics.any fun a => decide (a.tile = n) && decide (a.thr = t))

/-- A thread stops; its registers stand. -/
def stopThread (n : Nat) (t : Thr) (s : State) : State :=
  setThread n t { threadOf s n t with run := .stopped, owner := .none } s

/-- The director starts a thread: every register 0, both stacks empty, the PC at the start index; the exception fields
and Dolly's error clear (05 R147, R171; 06 R198). -/
def startThread (n : Nat) (t : Thr) (owner : Owner) (image role entry : Nat) (s : State) : State :=
  let s1 := setThread n t { run := .running, owner, image, role, pc := BitVec.ofNat 15 entry } s
  let s2 := wrf (tileReg n 0x44) (4 * t.val + 3) (4 * t.val) 0 s1
  let s3 := wrf (tileReg n 0x40) (2 + t.val) (2 + t.val) 0 (wr (tileReg n (0x48 + 4 * t.val)) 0 s2)
  wrf (tileReg n 0x60) 16 16 0 (wr (tileReg n 0x64) 0 s3)

def reelOf (s : State) (r : Nat) : Reel := tabGet (fun _ => {}) s.reels r
def setReel (r : Nat) (x : Reel) (s : State) : State := { s with reels := tabSet (fun _ => {}) s.reels r x }

/-- Tiles as a bit set. -/
def tileBits (l : List Nat) : Nat := l.foldl (fun a n => a ||| 2 ^ n) 0

/-- Reels whose producers and consumers all lie in a set of tiles are emptied. -/
def emptyReels (tiles : Nat) : List Nat → State → State
  | [], s => s
  | r :: rs, s =>
    let x := reelOf s r
    let m := x.prod.toNat ||| x.cons.toNat
    emptyReels tiles rs (if m ≠ 0 ∧ m &&& tiles = m then setReel r { x with q := [] } s else s)

/-! ### Chains (06 R188, R195; 09 R255, R272) -/

/-- The bitmaps of symbol buffers `k` of a slot position are cleared: `n` of them from the last. -/
def clearBitmaps (base streams pos : Nat) : Nat → State → State
  | 0, s => s
  | n + 1, s => clearBitmaps base streams pos n (memPut (symbolBuf base streams pos 0 n) (zeros 64) s)

/-- Every staging bitmap of a slot of a grid is cleared (09 R272). -/
def clearStaging (g t0 : Nat) (s : State) : State :=
  clearBitmaps (dlBase s g) (dlStreams s g) (slotPos s g t0) (14 * dlStreams s g) s

/-- C0 stops on every tile that runs a step of a chain. -/
def stopSteps : List StepRun → State → State
  | [], s => s
  | x :: xs, s => stopSteps xs (if x.state = .running then stopThread x.tile 0 s else s)

/-- µs for which a window has been open to an item (06 R192, R197). -/
def windowUs (s : State) (w : WinRun) : Nat := (nowUnits s - (w.cue + w.win.opens * unitsNs)) / unitsUs

/-- DIRECTOR.WIN_USED gains the time of windows that were opened and now close. -/
def countWindows : List WinRun → State → State
  | [], s => s
  | w :: ws, s => countWindows ws (if w.opened = 0 then s else bump 0x30034 (windowUs s w) s)

/-- Windows that meet a condition are over. -/
def dropWindows (f : WinRun → Bool) (s : State) : State :=
  countWindows (s.windows.filter f) { s with windows := s.windows.filter fun w => !f w }

/-- A chain is stopped: its running steps, its reels, its remaining steps and windows (06 R195 steps 1–3); the HARQ store is as
before it (09 R262); downlink staging of its slot is cleared (09 R272). -/
def haltChain (c : Chain) (s : State) : State :=
  let s1 := stopSteps c.steps s
  let s2 := match loadedNum s c.image with
    | some l => emptyReels (tileBits (c.steps.map (·.tile))) l.reels s1
    | none => s1
  let s3 := dropWindows (fun w => decide (w.ref = c.ref)) (setChain { c with ended := true, steps := [] } s2)
  harqRestore c (if 2 ≤ chainKind c.chain then clearStaging c.grid.val c.t0 s3 else s3)

/-- The free values that the fields of allocations without measurements take are used (log 1). -/
def useMeas (c : Chain) (s : State) : State := { s with free := s.free + c.pdus.length }

/-- A chain is aborted with a status: what it has delivered is written with the fallback for the rest, and its record (06 R195;
09 R272). -/
def abortChain (r : DRef) (status : Nat) (ref : Word) (s : State) : State :=
  match chainOf s r with
  | none => s
  | some c =>
    finishOut r status 6 (chainResult s c) (if 2 ≤ chainKind c.chain then 0 else chainProgress c) ref (chainBytes s c)
      (useMeas c (haltChain c s))

/-- A chain is aborted, counted and recorded, with the step and the cause (06 R195, R196). -/
def abortCounted (r : DRef) (step cause status : Nat) (ref : Word) (s : State) : State :=
  match chainOf s r with
  | none => s
  | some c =>
    raise directorEvent 0
      (wr 0x30040 (BitVec.ofNat 32 (c.chain % 256 + 256 * (step % 256) + 65536 * cause))
        (bump 0x30020 1 (abortChain r status ref s)))

/-- A schedule violation: the chain is aborted with SCHEDULE_VIOLATION (06 R195, R196). CAUSE is 0 for a CHECK missed, 1 for a late
CUEWAIT, 2 for a reel overflow. -/
def violate (r : DRef) (step cause : Nat) (s : State) : State := abortCounted r step cause 0x32 0 s

/-- The same where the commands do not tell what the chain had written by then. -/
def violateFree (r : DRef) (step cause : Nat) (s : State) : State := violate r step cause (deliverFree r s)

/-- A chain with a step on a fenced tile is aborted in the same way with TILE_FENCED; R197 lists no CAUSE for it: a free value
(06 R196; log 108). -/
def fenceAbort (c : Chain) (step : Nat) (ref : Word) (s : State) : State :=
  abortCounted c.ref step ((freshVal s).toNat % 4) 0x20 ref (deliverFree c.ref (useFree s))

/-- The earliest cue of a chain. -/
def firstCue (c : Chain) : Nat := match c.steps with
  | [] => c.t0
  | x :: xs => xs.foldl (fun a y => min a y.cue) x.cue

/-! ### Scoring items (06 R190–R194; 10 R308; 12 R353; 14 R402) -/

def itemOf (s : State) (k : Nat) : Option Item := s.items.find? fun i => decide (i.num = k)
def setItem (i : Item) (s : State) : State :=
  { s with items := s.items.map fun x => if x.num = i.num then i else x }

/-- Some item, job or chain still uses the loaded image `k`. -/
def loadInUse (s : State) (k : Nat) : Bool :=
  (s.items.any fun i => decide (i.image = k)) || (s.jobs.any fun j => decide (j.image = k)) ||
    (s.chains.any fun c => decide (c.image = k))

/-- Reels return to the free ones. -/
def freeReelList : List Nat → State → State
  | [], s => s
  | r :: rs, s => freeReelList rs (setReel r {} s)

/-- A loaded image is freed with all that it holds (06 R186). -/
def freeLoad (l : Loaded) (s : State) : State :=
  freeReelList l.reels { s with loaded := s.loaded.filter fun x => decide (x.num ≠ l.num) }

/-- Models that were replaced or unloaded are freed once their last work has ended (06 R187). -/
def reapModels : List Loaded → State → State
  | [], s => s
  | l :: ls, s =>
    reapModels ls (if decide (l.img.kind = 2) && decide (l.state = .releasing) && !loadInUse s l.num then freeLoad l s else s)

/-- An item ends. -/
def dropItem (k : Nat) (s : State) : State :=
  reapModels s.loaded { s with items := s.items.filter fun x => decide (x.num ≠ k) }

/-- The thread that an item runs on stops. -/
def stopItem (i : Item) (s : State) : State := match i.on with
  | some (n, t) => stopThread n.val t s
  | none => s

/-- Output words as bytes. -/
def wordBytes (l : List Word) : List Byte := l.flatMap fun w => leBytes 4 w.toNat

/-- An open file, and its release (10 R316). -/
def fileOf (s : State) (id : Nat) : Option FileX := s.flow.files.find? fun f => decide (f.id = id)
def setFile (x : FileX) (s : State) : State :=
  { s with flow := { s.flow with files := s.flow.files.map fun f => if f.id = x.id then x else f } }
def dropFile (id : Nat) (s : State) : State :=
  { s with flow := { s.flow with files := s.flow.files.filter fun f => decide (f.id ≠ id) } }

/-- A flow's outstanding request, which is item `k`, ends; whatever hold it started goes on as `lost` says. -/
def clearRequest (i k : Nat) (lost : Bool) (s : State) : State :=
  let x := flowX s i
  if x.request = some k then setFlowX i { x with request := none, late := false, lost := lost && frHeld (flowRec s i) } s else s

/-- A running item as it stands when its thread is stopped: how many units the tile had written, and their output words, are
its code's doing and free values here (log 56). -/
def haltedItem (s : State) (i : Item) : Item :=
  if i.on.isNone then i
  else
    let n := i.done + (freshVal s).toNat % (i.total - i.done + 1)
    { i with on := none, parkedAt := none, leaving := none, done := n,
             out := i.out ++ (List.range (n - i.done)).map fun k => (Config.freeValue (s.free + 1 + k)).setWidth 32 }

/-- The thread of an item stops with the windows open to it, and the free values of `haltedItem` are used. -/
def haltItem (i : Item) (s : State) : State := match i.on with
  | none => s
  | some (n, t) =>
    let s1 := if t = 1 then dropWindows (fun w => decide (w.tile = n.val) && decide (w.opened ≠ 0)) s else s
    { (stopItem i s1) with free := s.free + 1 + i.total }

/-- An item ends by a fault (14 R402): its descriptor's record, or its flow's event record. -/
def endItemFault (k status : Nat) (ref : Word) (s : State) : State :=
  match itemOf s k with
  | none => s
  | some i0 =>
    let i := haltedItem s i0
    let t := dropItem k (haltItem i0 s)
    match i.src with
    | .flow rc cause => requestRecord k rc i.cls status 7 0 (16 * cause) ref (clearRequest rc k true t)
    | .desc r => finishOut r status (if i.done = 0 then 7 else 1) 0 i.done ref (wordBytes i.out) t
    | .file id => match fileOf t id with
      | none => t
      | some f =>
        let u := dropFile id t
        match f.close, f.flow with
        | some r, _ => finish r status 7 0 i.done ref [] u
        | none, some rc => flowRecordResult rc 3 status 7 i.done 0 ref u
        | none, none => u

/-- Items of class `c` that wait (12 R353). -/
def queueDepth (s : State) (c : Nat) : Nat :=
  if c = 4 then (s.jobs.filter fun j => !j.running).length
  else if c = 1 ∨ c = 2 ∨ c = 3 then (s.items.filter fun i => decide (i.cls = c) && i.on.isNone).length
  else 0

/-- DIRECTOR.CLASS_QPEAK_c takes the depth of class `c` (12 R363). -/
def peakDepth (c : Nat) (s : State) : State := peak (0x30440 + 4 * c) (queueDepth s c) s

/-- An item is returned to the head of its queue, from its first unit not yet written, with the cycles that its eviction cost
(06 R193, R194). -/
def requeueBy (k status cycles : Nat) (s : State) : State :=
  match itemOf s k with
  | none => s
  | some i =>
    let h := haltedItem s i
    let j := { h with sagTold := i.sagTold || decide (status = 0x50) }
    let t := haltItem i s
    let u := raise directorEvent 3 (bump 0x3002C cycles (bump 0x30028 1 (peakDepth i.cls
      { t with items := j :: t.items.filter fun x => decide (x.num ≠ k) })))
    match i.src with
    | .desc r => if status = 0x50 && i.sagTold then u else interim r (if status = 0 then okStatus false false u else status) 0 u
    | .file id => (match (fileOf u id).bind (·.close) with
      | some r => if status = 0x50 && i.sagTold then u else interim r (if status = 0 then okStatus false false u else status) 0 u
      | none => u)
    | .flow _ _ => u

/-- A FLOW_OBSERVE item that the sag warning stops ends (12 R358). -/
def endShed (i0 : Item) (s : State) : State :=
  let i := haltedItem s i0
  let t := dropItem i.num (haltItem i0 s)
  match i.src with
  | .flow rc _ => requestRecord i.num rc i.cls 0x50 5 0 0 0 (clearRequest rc i.num false t)
  | .desc r => finishOut r 0x50 5 0 i.done 0 (wordBytes i.out) t
  | .file _ => t

/-- A stopped item leaves its tile: it ends where the sag warning stopped a FLOW_OBSERVE item, else it is returned. -/
def leaveItem (k status cycles : Nat) (s : State) : State := match itemOf s k with
  | none => s
  | some i => if decide (status = 0x50) && decide (i.cls = 2) then endShed i s else requeueBy k status cycles s

/-- The operations that an item's thread has issued are complete. -/
def itemQuiet (s : State) (i : Item) : Bool := match i.on with
  | none => true
  | some (n, t) => syncDone s n t 0xFF

/-- The director stops an item's thread and waits for its operations; its windows are over (06 R193). -/
def beginLeave (i : Item) (status cycles : Nat) (s : State) : State := match i.on with
  | none => s
  | some (n, t) =>
    let s1 := dropWindows (fun w => decide (w.tile = n.val) && decide (w.opened ≠ 0)) s
    setItem { i with leaving := some (status, cycles) }
      (setThread n t { threadOf s1 n t with run := .halting, owner := .item i.num } s1)

/-- An item on a PHY tile is returned under R193: at once where its operations are complete, else when they are, which
THREAD_HALTED reports. -/
def returnItem (k status cycles : Nat) (s : State) : State := match itemOf s k with
  | none => s
  | some i =>
    if itemQuiet s i then leaveItem k status cycles s
    else if i.leaving.isSome then s
    else beginLeave i status cycles s

/-- The same where the commands do not tell what the eviction cost: the cycles counted are a free value (log 1). -/
def requeueItem (k status : Nat) (s : State) : State := returnItem k status ((freshVal s).toNat % 2 ^ 32) (useFree s)

/-! ### Take jobs (12 R357; 14 R402, R405–R409) -/

def jobOn (s : State) (p : Nat) : Option Job := s.jobs.find? fun j => decide (j.part = p) && j.running
def setJob (j : Job) (s : State) : State := { s with jobs := s.jobs.map fun x => if x.ref = j.ref then j else x }
/-- A job ends. -/
def dropJob (r : DRef) (s : State) : State :=
  reapModels s.loaded { s with jobs := s.jobs.filter fun x => decide (x.ref ≠ r) }

/-- A checkpoint token (14 R405). -/
def tokenWord : Option Token → Dword
  | none => 0
  | some t => BitVec.ofNat 64 (t.layer % 65536 + 65536 * t.model.toNat + 2 ^ 32 * t.serial.toNat + 2 ^ 40 * bnat t.buf +
      2 ^ 48 * t.digest.toNat)

/-- Both threads of each tile stop. -/
def stopTiles : List Nat → State → State
  | [], s => s
  | n :: ns, s => stopTiles ns (stopThread n 1 (stopThread n 0 s))

/-- Every tile of a partition stops. -/
def stopPart (p : Nat) (s : State) : State :=
  stopTiles ((List.range Config.nTiles).filter fun n => decide (tilePart s n = p) && decide (tileRole s n ≠ 0)) s

/-- A retake is in progress in some partition: FAULT.STATUS [8]. -/
def retakeFlag (s : State) : State := wrf 0x50000 8 8 (bnat (s.jobs.any (·.retaking))) s

/-- A job ends by a fault (14 R402, R408): ABORTED_FAULT, PROGRESS the layers complete, RESULT the current token. -/
def endJobFault (j : Job) (status : Nat) (ref : Word) (s : State) : State :=
  retakeFlag (finish j.ref status 7 (tokenWord j.token) j.layer ref [] (dropJob j.ref (clearGroup j.group (stopPart j.part s))))

/-- The same where the fault arose here: the other members of the job's group end it too (13 R390; 14 R409). -/
def endJobBreak (j : Job) (status : Nat) (ref : Word) (s : State) : State :=
  let t := endJobFault j status ref s
  if 1 < groupSize t j.group.val then breakSlate j.group 0 0xA2 t else t

/-- A retake is triggered in partition `p` (14 R407, R408): counted, and the partition stopped; or, once the job has made
MAX_PER_JOB retakes, the job ends. The running slate of a group take breaks where this chip begins the retake (R409). -/
def retake (p status : Nat) (ref : Word) (begins : Bool) (s : State) : State :=
  match jobOn s p with
  | none => s
  | some j =>
    if rdf s 0x50014 23 16 ≤ j.retakes then raise faultEvent 7 (endJobBreak j status ref s)
    else
      let k := { j with retakes := j.retakes + 1, retaking := true, faultRef := ref, restoring := false,
                        arrived := false, colls := 0 }
      let t := retakeFlag (raise faultEvent 4 (bump 0x50030 1 (setJob k (clearGroup j.group (stopPart p s)))))
      if begins && decide (1 < groupSize t j.group.val) then breakSlate j.group 0 0x23 t else t

/-- Work of a thread ends with a status: a chain by its fallback, an item by its record, a job by a retake in TAKE mode
and by its record in SERVICE mode (05 R170; 14 R402, R407). -/
def endOwner (o : Owner) (status : Nat) (ref : Word) (s : State) : State :=
  let ref := if ref = 0 then lastUe s else ref
  match o with
  | .none => s
  | .chain r _ => match chainOf s r with
    | some _ => abortChain r status ref (deliverFree r s)
    | none => s
  | .item k => endItemFault k status ref s
  | .job p =>
    if partTake s p.val then retake p.val status ref true s
    else match jobOn s p.val with
      | some j => endJobBreak j status ref s
      | none => s

/-! ### Fencing (14 R401–R403) -/

/-- Index of the first step of a chain on tile `n` that is not done. -/
def stepOn (n : Nat) (c : Chain) : Nat :=
  ((c.steps.find? fun x => decide (x.tile = n) && decide (x.state ≠ .done)).map (·.ix)).getD 0

/-- Chains that use a fenced tile in a slot whose earliest cue lies less than 50 µs after the fence, or that have fired,
are aborted with TILE_FENCED; later ones wait for a standby tile (06 R196). -/
def fenceChains (n : Nat) (ref : Word) : List Chain → State → State
  | [], s => s
  | c :: cs, s =>
    let uses := c.steps.any fun x => decide (x.tile = n) && decide (x.state ≠ .done)
    let soon := c.fired || decide (firstCue c < nowUnits s + 50 * unitsUs) || decide (standbys s (tilePart s n) = [])
    fenceChains n ref cs (if !c.ended && uses && soon then fenceAbort c (stepOn n c) ref s else s)

/-- Items on a fenced tile: a second-unit item returns to its queue, a scoring item ends (14 R402). -/
def fenceItems (n : Nat) (ref : Word) : List Item → State → State
  | [], s => s
  | i :: is, s =>
    let here := match i.on with
      | some (m, _) => decide (m.val = n)
      | none => false
    fenceItems n ref is
      (if here then (if partKind s (tilePart s n) = 1 then requeueItem i.num 0 s else endItemFault i.num 0x20 ref s) else s)

/-- Descriptors whose buffer lies in the local store of a fenced tile end (14 R403 Edge). -/
def fenceBuffers (n : Nat) (ref : Word) : List Flight → State → State
  | [], s => s
  | f :: fs, s =>
    let inLs := fun (a len : Nat) => decide (len ≠ 0) && decide (regionOf s a len = some (.ls n))
    fenceBuffers n ref fs
      (if (dA0Dev f.desc && inLs (dAddr0 f.desc).toNat (dLen0 f.desc)) || (dA1Dev f.desc && inLs (dAddr1 f.desc).toNat (dLen1 f.desc))
        then (if f.started then finish f.ref 0x20 7 0 0 ref [] s else finish f.ref 0x20 10 0 0 ref [] s) else s)

/-- A fenced tile's Dolly issues nothing more and performs no held reel operation: of its lists the transfers issued are left
(14 R401). -/
def fenceLists (l : List DollyList) : List DollyList :=
  (l.map fun x =>
    { x with atReel := none, ended := true,
             jobs := (x.jobs.filter fun j => decide (j.outstanding ≠ [])).map fun j => { j with todo := [], push := none } }).filter
    fun x => decide (x.jobs ≠ [])

/-- What a fence drops of a tile: the operations queued at its units and what Dolly has not issued. -/
def fenceUnits (n : Nat) (s : State) : State :=
  let x := tileOf s n
  setTile n { x with a0 := dropOps x.a0, a1 := dropOps x.a1, a2 := dropOps x.a2, a3 := dropOps x.a3, dolly := fenceLists x.dolly }
    { s with mem := { s.mem with atomics := s.mem.atomics.filter fun a => decide (a.tile.val ≠ n) } }

/-- STATUS.FENCED, the tile's bit and EVENT.FENCE are set, and the instant is kept (14 R401; 06 R196). -/
def markFenced (n : Nat) (s2 : State) : State :=
  let s3 := wrf (tileReg n 4) 0 0 1
    { s2 with fault := { s2.fault with fencedAt := tabPut s2.fault.fencedAt n (nowUnits s2) } }
  let s4 := if n < 32 then wr 0x50020 (rd s3 0x50020 ||| BitVec.ofNat 32 (2 ^ n)) s3
    else wr 0x50024 (rd s3 0x50024 ||| BitVec.ofNat 32 (2 ^ (n - 32))) s3
  raise faultEvent 3 (wrf 0x50000 6 0 (rdf s4 0x50000 6 0 + 1) s4)

/-- A tile is fenced (14 R401): its threads stop, Dolly issues nothing more, STATUS.FENCED, the FENCED bit and EVENT.FENCE
are set, and the work that used it ends. A TAKE-mode job is the caller's. -/
def fenceTile (n : Nat) (ref : Word) (s : State) : State :=
  if fenced s n then s
  else
    let s5 := markFenced n (fenceUnits n (stopThread n 1 (stopThread n 0 s)))
    let s6 := fenceBuffers n ref s5.flights (fenceItems n ref s5.items (fenceChains n ref s5.chains s5))
    if partKind s6 (tilePart s6 n) = 3 && !partTake s6 (tilePart s6 n) then
      (match jobOn s6 (tilePart s6 n) with
        | some j => endJobBreak j 0x20 ref s6
        | none => s6)
    else s6

end Sys2Proof.Machine
end

