-- ==== Sys2Proof/Machine/Hbm.lean ====
section
/-! DEFINITION. Arbitration between classes, and the HBM controllers as every unit reaches them: what training and margining
hold, the reorder queues of the pseudo-channels, and a change of the placement (07 R201–R203, R226; 12 R348–R351). -/

namespace Sys2Proof.Machine

/-! ### Arbitration (12 R348, R351) -/

/-- Floor of a class. -/
def classFloor (s : State) (c : Nat) : Nat := match c with
  | 1 => rdf s 0x30400 6 0 | 2 => rdf s 0x30400 14 8 | 3 => rdf s 0x30400 22 16 | 4 => rdf s 0x30400 30 24
  | 5 => rdf s 0x30404 6 0 | _ => 0

/-- Credit that a class has left in a round. -/
def creditLeft (s : State) (r : Round) (c : Nat) : Nat := classFloor s c - tabGet (fun _ => 0) r.used c

/-- Requests of a class stand: those of class TAKE are withdrawn while the sag warning is asserted (12 R358). -/
def classAsks (s : State) (req : Nat → Bool) (c : Nat) : Bool := req c && !(decide (c = 4) && rdb s gafferStatus 0)

/-- The class that gets the next grant, among those that request. -/
def pickClass (s : State) (r : Round) (req : Nat → Bool) : Option Nat :=
  match [1, 2, 3, 4, 5].find? fun c => classAsks s req c && decide (0 < creditLeft s r c) with
  | some c => some c
  | none => [1, 2, 3, 4, 5].find? (classAsks s req)

/-- The round of an arbitration point. -/
def roundOf (s : State) (k : Nat) : Round := tabGet (fun _ => {}) s.rounds k

/-- A grant to class `c` at point `k`: it uses a credit where the class has one, and the 64th ends the round. -/
def grantTo (k c : Nat) (s : State) : State :=
  let r := roundOf s k
  let used := if 0 < creditLeft s r c then tabSet (fun _ => 0) r.used c (tabGet (fun _ => 0) r.used c + 1) else r.used
  { s with rounds := tabSet (fun _ => {}) s.rounds k (if r.grants + 1 = 64 then {} else { grants := r.grants + 1, used }) }

/-! ### What a controller holds (07 R202, R226) -/

/-- The selected pseudo-channel is held by a margining run. -/
def marginHolds (s : State) (c addr : Nat) : Bool :=
  let p := hbmPlace s addr
  rdb s (hbmReg c 8) 1 && decide (rdf s (hbmReg c 0x44) 3 0 = p.2.1) && decide (rdf s (hbmReg c 0x44) 4 4 = p.2.2)

/-- An access to an address is held: its controller trains, or its pseudo-channel margins. -/
def accessHeld (s : State) (a : Nat) : Bool :=
  decide (a < hbmSize) && (!rdb s (hbmReg (hbmPlace s a).1 8) 0 || marginHolds s (hbmPlace s a).1 a)

/-! ### Reorder queues (07 R203; log 104) -/

def rqOf (s : State) (k : Nat) : PcQueue := tabGet (fun _ => {}) s.mem.pcs k
def setRq (k : Nat) (q : PcQueue) (s : State) : State :=
  { s with mem := { s.mem with pcs := tabSet (fun _ => {}) s.mem.pcs k q } }

/-- The queue of an address's pseudo-channel has an entry free; other memory has no queue. -/
def rqRoom (s : State) (a : Nat) : Bool := decide (hbmSize ≤ a) || decide ((rqOf s (pcOf s a)).queue.length < 32)

/-- Two requests go to one 64-byte line. -/
def rqSameLine (x y : RqReq) : Bool :=
  decide (x.addr / 64 ≤ (y.addr + y.len - 1) / 64) && decide (y.addr / 64 ≤ (x.addr + x.len - 1) / 64)

/-- No older request of the queue goes to a line of `r` (rule 1). -/
def rqFree (q : List RqReq) (r : RqReq) : Bool := !(q.takeWhile fun x => decide (x ≠ r)).any fun x => rqSameLine x r

/-- The request has waited RQ_AGE, in units of 10 ns (rule 2). -/
def rqAged (s : State) (k : Nat) (r : RqReq) : Bool := decide (r.born + 8 * rdf s (hbmReg (k / 32) 0x18) 7 0 ≤ s.clk)

/-- The request goes to the open row of its bank. -/
def rqHit (s : State) (q : PcQueue) (r : RqReq) : Bool :=
  let b := Config.hbmBankRow (pcByte (rdb s 0x100000 0) r.addr)
  decide (tabFind q.rows b.1 = some b.2)

/-- The oldest open-row hit of some requests, else the oldest of them (rule 3). -/
def rqFirst (s : State) (q : PcQueue) (l : List RqReq) : Option RqReq := (l.find? (rqHit s q)).or l.head?

/-- The grants of a pseudo-channel in the current µs: to PHY requests, and in all. -/
def rqGrants (s : State) (q : PcQueue) : Nat × Nat := if s.clk - q.since < ticksUs then (q.phy, q.all) else (0, 0)

/-- PHY requests are within the share that the active sheet was admitted with, in 0.1 % (06 R185). -/
def rqPhyShare (s : State) (q : PcQueue) : Bool :=
  let share := match activeLoad s with
    | some l => l.hbmShare
    | none => 0
  decide ((rqGrants s q).1 * 1000 < share * ((rqGrants s q).2 + 1))

/-- The request that a pseudo-channel issues next: an aged one, the oldest first; else PHY up to its share; else by the classes'
round; else PHY (07 R203). -/
def rqPick (s : State) (k : Nat) : Option RqReq :=
  let q := rqOf s k
  let l := q.queue.filter (rqFree q.queue)
  match l.find? (rqAged s k) with
  | some r => some r
  | none =>
    let phy := l.filter fun r => decide (r.cls = 0)
    if decide (phy ≠ []) && rqPhyShare s q then rqFirst s q phy
    else match pickClass s (roundOf s (128 + k)) (fun c => l.any fun r => decide (r.cls = c)) with
      | some c => rqFirst s q (l.filter fun r => decide (r.cls = c))
      | none => rqFirst s q phy

/-- A request enters the queue of its pseudo-channel. -/
def rqPush (r : RqReq) (s : State) : State :=
  if hbmSize ≤ r.addr then s
  else
    let k := pcOf s r.addr
    setRq k { rqOf s k with queue := (rqOf s k).queue ++ [r] } s

/-- A request issues: it leaves the queue, its row is open, and its grant counts; one of another class than PHY is a grant of the
round. -/
def rqIssue (k : Nat) (r : RqReq) (s : State) : State :=
  let q := rqOf s k
  let b := Config.hbmBankRow (pcByte (rdb s 0x100000 0) r.addr)
  let g := rqGrants s q
  let t := setRq k
    { queue := q.queue.erase r, rows := tabPut q.rows b.1 b.2, since := if s.clk - q.since < ticksUs then q.since else s.clk,
      phy := g.1 + bnat (decide (r.cls = 0)), all := g.2 + 1 } s
  if r.cls = 0 then t else grantTo (128 + k) r.cls t

/-! ### A change of the placement (07 R201) -/

/-- Address at which the byte at `a` lies once the placement has changed: bytes stay where they are in their pseudo-channel. -/
def movedAddr (old new : Bool) (a : Nat) : Nat :=
  if a < hbmSize then pcAddr new (pcNumber old a) (pcByte old a) else a

/-- A table by device address, each entry at its new address. -/
def moveTab {α : Type} (old new : Bool) (t : Tab α) : Tab α :=
  t.foldl (fun acc x => tabPut acc (movedAddr old new x.1) x.2) []

/-- INTLV has changed: contents, marks and write-combining entries of HBM show at other addresses. -/
def reInterleave (old new : Bool) (s : State) : State :=
  { s with mem := { s.mem with
      bytes := moveTab old new s.mem.bytes, poison := moveTab old new s.mem.poison,
      wc := s.mem.wc.map fun e => { e with line := movedAddr old new (64 * e.line) / 64 } } }

end Sys2Proof.Machine
end

