-- ==== Sys2Proof/Machine/CoreOps.lean ====
section
/-! DEFINITION. What every control-core instruction shares: when a thread executes, how an instruction retires, and how
an exception is taken (05 R147, R157, R170). -/

namespace Sys2Proof.Machine

/-- Thread `t` of tile `n` executes its next instruction: it runs, and the tile is neither fenced nor stalled by a sag
warning (05 R147, 14 R401, 12 R358). -/
def canRun (s : State) (n : TileIx) (t : Thr) : Bool :=
  decide (n.val < Config.nTiles) && decide ((threadOf s n t).run = .running) && !fenced s n && !(tileOf s n).stalled

/-- The PC and the loop stack once the instruction at PC has retired without a branch: each level that ends there
counts down and loops back, or pops (05 R157). -/
def retireLoops (pc : BitVec 15) : List LoopLevel → BitVec 15 × List LoopLevel
  | [] => (pc + 1, [])
  | l :: ls =>
    if l.stop = pc then
      if 1 < l.count then (l.start, { l with count := l.count - 1 } :: ls) else retireLoops pc ls
    else (pc + 1, l :: ls)

/-- The thread past the instruction at its PC. -/
def retire (y : Thread) : Thread :=
  { y with pc := (retireLoops y.pc y.loops).1, loops := (retireLoops y.pc y.loops).2, amodeLate := y.amodeLate - 1 }

/-- Levels that a branch to `target` leaves are popped (05 R157). -/
def leaveLoops (target : BitVec 15) : List LoopLevel → List LoopLevel
  | [] => []
  | l :: ls => if l.start ≤ target ∧ target ≤ l.stop then l :: ls else leaveLoops target ls

/-- The thread that has branched to `target`; BR and JR pop the levels they leave. -/
def branchTo (target : BitVec 15) (y : Thread) : Thread :=
  { y with pc := target, loops := leaveLoops target y.loops }

/-- The work that a thread runs, as the fault unit names it (14 R399). -/
def ownerWork (s : State) : Owner → FaultWork
  | .none => .none
  | .chain r _ => .desc r
  | .item k => match (s.items.find? fun i => decide (i.num = k)).map fun i => i.src with
    | some (ItemSrc.desc r) => .desc r
    | _ => .none
  | .job p => match s.jobs.find? fun j => decide (j.part = p.val) && j.running with
    | some j => .desc j.ref
    | none => .none

/-- An exception of the instruction at `pc`: the thread stops, its cause and PC are recorded, and an uncorrectable event of the
tile goes to the fault unit; for POISON the work ends with MEM_UNCORRECTABLE instead (05 R170, 14 R398). -/
def coreTrapAt (n : TileIx) (t : Thr) (code : Nat) (pc : BitVec 15) (s : State) : State :=
  let y := threadOf s n t
  let s1 := setThread n t { y with run := .stopped } s
  let s2 := wrf (tileReg n 0x44) (4 * t.val + 3) (4 * t.val) code s1
  let s3 := wr (tileReg n (0x48 + 4 * t.val)) (pc.setWidth 32) s2
  let s4 := wrf (tileReg n 0x40) (2 + t.val) (2 + t.val) 1 s3
  if code = excPoison then endOwner y.owner 0x21 0 s4
  else
    report ⟨.tile n, false, 3, BitVec.ofNat 64 (code + 65536 * pc.toNat + 2 ^ 31 * t.val), ownerWork s y.owner⟩ s4

/-- An exception of the instruction that the thread is at. -/
def coreTrap (n : TileIx) (t : Thr) (code : Nat) (s : State) : State := coreTrapAt n t code (threadOf s n t).pc s

/-- Cycles that accesses to the local store of tile `n` lost to bank conflicts count in BANK_STALL (04 R132). -/
def bankStall (n lost : Nat) (s : State) : State := if lost = 0 then s else bump (tileReg n 0x1C) lost s

/-- An instruction without a branch: refused as ILLEGAL where a field breaks R149, trapped where `f` names an exception,
else its effect and the retirement (05 R149, R169, R170). A thread that does not execute is left alone (log 9). -/
def coreStep (n : TileIx) (t : Thr) (legal : Bool) (f : State → Except Nat State) (s : State) : State :=
  if canRun s n t then
    if legal then
      match f s with
      | .ok s' => setThread n t (retire (threadOf s' n t)) s'
      | .error c => coreTrap n t c s
    else coreTrap n t excIllegal s
  else s

/-- An instruction that acts on its thread's registers alone. -/
def coreReg (n : TileIx) (t : Thr) (legal : Bool) (f : Thread → Thread) (s : State) : State :=
  coreStep n t legal (fun s => .ok (setThread n t (f (threadOf s n t)) s)) s

end Sys2Proof.Machine
end

