-- ==== Sys2Proof/Machine/Matrix.lean ====
section
/-! DEFINITION. The matrix arrays: contexts, shadow loads, CUT, passes and read-out (04 R107–R120, 05 R152, R166). -/

namespace Sys2Proof.Machine

/-- The active and the shadow slot of an array (04 R107). -/
def activeCtx (a : MArray) : Ctx := if a.active then a.slot1 else a.slot0
def shadowCtx (a : MArray) : Ctx := if a.active then a.slot0 else a.slot1
def setActive (c : Ctx) (a : MArray) : MArray := if a.active then { a with slot1 := c } else { a with slot0 := c }
def setShadow (c : Ctx) (a : MArray) : MArray := if a.active then { a with slot0 := c } else { a with slot1 := c }

/-- MODE, FMT, EXACT and MASKIX of a context word (04 R107). -/
def ctxMode (c : Ctx) : Nat := field c.word 1 0
def ctxFmt (c : Ctx) : Nat := field c.word 4 2
def ctxMaskIx (c : Ctx) : Nat := field c.word 11 6
/-- The format is a float format. -/
def ctxFloat (c : Ctx) : Bool := decide (3 ≤ ctxFmt c)
/-- The context accumulates exactly: EXACT, or LOCKED with a float format outside PHY (04 R120). -/
def ctxExact (s : State) (c : Ctx) : Bool := c.word.getLsbD 5 || (detLock s && ctxFloat c && !c.phy)

/-- The array that a one-bit AMASK names. -/
def oneArray (m : BitVec 4) : Option Nat := match m.toNat with
  | 1 => some 0 | 2 => some 1 | 4 => some 2 | 8 => some 3 | _ => none

/-- Bytes of a shadow load: 32 array rows of 64 bytes, or 16 complex rows in CINT16 (04 R115; log 12). -/
def loadBytes (w : Word) : Nat := if field w 4 2 = 2 then 1024 else 2048

/-- A C1 operation on a context whose PHY bit is 1 is held at its unit (05 R166). -/
def suHeld (t : Thr) (c : Ctx) : Bool := decide (t = 1) && c.phy

/-- A waiting shadow load starts: the shadow context has drained, and its waited cycles count (04 R115). Weights poisoned since
the MLOAD was issued raise its POISON (05 R169, R170; log 14). -/
def execShadowLoadStart (n : TileIx) (k : Fin 4) (waited : Nat) (s : State) : Host.Outcome State Fault Refusal :=
  let a := arrOf (tileOf s n) k
  match a.load with
  | .waiting h w t phy pc =>
    if fenced s n then .next s
    else
      let s1 := bump (tileReg n 0x18) waited s
      if memPoisoned s (lsAddr n + h) (loadBytes w) then
        .next (coreTrapAt n t excPoison pc (setTile n (setArr k { a with load := .idle } (tileOf s1 n)) s1))
      else
        .next (setTile n
          (setArr k { a with load := .loading (memRead s (lsAddr n + h) (loadBytes w)) w t phy } (tileOf s1 n)) s1)
  | _ => .next s

/-! ### Passes -/

/-- The float formats of weights and inputs of a context (04 R107 FMT). -/
def fmtPair (k : Nat) : FFmt × FFmt := match k with
  | 3 => (e4m3, e4m3) | 4 => (e5m2, e5m2) | 5 => (fp16, fp16) | 6 => (bf16, bf16) | _ => (e4m3, e5m2)
/-- Bytes per element of a format. -/
def fmtBytes (k : Nat) : Nat := match k with
  | 0 => 1 | 1 => 2 | 2 => 4 | 3 => 1 | 4 => 1 | 5 => 2 | 6 => 2 | _ => 1

/-- The region that row or column `i` belongs to: the lowest-numbered that claims it (04 R114). `half` is 0 for the row
mask and 4 for the column mask. -/
def maskRegion (ent : List Byte) (half i : Nat) : Option Nat :=
  (List.range 16).find? fun r => (leAt ent (8 * r + half) 4).testBit i

/-- Whether cell (i, j) is enabled (04 R114). -/
def cellOn (ent : List Byte) (i j : Nat) : Bool :=
  match maskRegion ent 0 i, maskRegion ent 4 j with
  | some a, some b => decide (a = b)
  | _, _ => false

/-- The mask entry of a split-screen context: from MASKTAB of the image that its thread runs, all zero where it has no
such entry (04 R114, Edge). -/
def maskEntry (s : State) (image role ix : Nat) : List Byte :=
  match s.loaded.find? fun l => decide (l.num = image) with
  | none => []
  | some l =>
    match l.img.masktab.find? fun m => decide (m.1 = role) with
    | none => []
    | some m => (m.2.drop (128 * ix)).take 128

/-- Rows of an array as one quadrant or the whole: (first row, rows, first column, columns, input offset). -/
structure Quad where
  row0 : Nat
  rows : Nat
  col0 : Nat
  cols : Nat
  inp : Nat
  deriving DecidableEq, Repr

/-- The quadrants of a mode (04 R108). -/
def quadsOf (mode : Nat) : List Quad :=
  if mode = 1 then [⟨0, 16, 0, 16, 0⟩, ⟨0, 16, 16, 16, 32⟩, ⟨16, 16, 0, 16, 64⟩, ⟨16, 16, 16, 16, 96⟩]
  else [⟨0, 32, 0, 32, 0⟩]

/-- Bytes of inputs per wavefront. -/
def waveBytes (mode : Nat) : Nat := if mode = 1 then 128 else 64

/-- The products of one output column of a quadrant, as values (04 R108, R113, R114). `inp` is the wavefront, `on`
enables array cells. Integer products come as integers of exponent 0. -/
def colProducts (c : Ctx) (q : Quad) (inp : List Byte) (on : Nat → Nat → Bool) (col : Nat) : List FVal :=
  let fmt := ctxFmt c
  let wAt := fun (o n : Nat) => leNat (tabGetMany (fun _ => (0 : Byte)) c.weights o n)
  if fmt = 2 then
    (List.range (q.rows / 2)).map fun i =>
      let cr := q.row0 / 2 + i
      let cc := (q.col0 + col) / 2
      if on cr cc then
        let a := signedOf 16 (wAt (64 * cr + 4 * cc) 2)
        let b := signedOf 16 (wAt (64 * cr + 4 * cc + 2) 2)
        let x := signedOf 16 (leAt inp (q.inp + 4 * i) 2)
        let d := signedOf 16 (leAt inp (q.inp + 4 * i + 2) 2)
        fInt (if (q.col0 + col) % 2 = 0 then a * x - b * d else b * x + a * d)
      else .fin false 0 0
  else
    let k := if fmtBytes fmt = 1 then 2 else 1
    (List.range (k * q.rows)).map fun e =>
      let i := q.row0 + e / k
      let j := q.col0 + col
      if on i j then
        let w := wAt (64 * i + 2 * j + e % k) (fmtBytes fmt)
        let x := leAt inp (q.inp + fmtBytes fmt * e) (fmtBytes fmt)
        if fmt ≤ 1 then fInt (signedOf (8 * fmtBytes fmt) w * signedOf (8 * fmtBytes fmt) x)
        else fMul (fDecode (fmtPair fmt).1 w) (fDecode (fmtPair fmt).2 x)
      else .fin false 0 0

/-- The integer that a sum of integer products is. -/
def fValInt : FVal → Int
  | .fin n m _ => if n then -(m : Int) else (m : Int)
  | _ => 0

/-- One accumulator takes a column's products (04 R110–R112, R119, R121). -/
def accumulate (ex : Bool) (acc : Bool) (key : Nat) (ps : List FVal) (c : Ctx) : Ctx :=
  if ex then
    let old : Exact := if acc then tabGet (fun _ => {}) c.exact key else {}
    { c with exact := tabSet (fun _ => {}) c.exact key (ps.foldl exAdd old) }
  else if ctxFloat c then
    let all := if acc then fDecode fp32 (tabGet (fun _ => 0) c.acc key).toNat :: ps else ps
    let sum := match all with
      | [] => FVal.fin false 0 0
      | v :: vs => vs.foldl fAdd v
    { c with acc := tabSet (fun _ => 0) c.acc key (BitVec.ofNat 32 (fEncodeSum fp32 false sum)) }
  else
    let old : Int := if acc then (tabGet (fun _ => (0 : Word)) c.acc key).toInt else 0
    { c with acc := tabSet (fun _ => 0) c.acc key (BitVec.ofInt 32 ((ps.map fValInt).foldl (· + ·) old)) }

/-- One wavefront into accumulator row `row` (04 R110): each quadrant has its own rows, which wrap. -/
def wavefront (ex acc : Bool) (row : Nat) (inp : List Byte) (on : Nat → Nat → Bool) (c : Ctx) : Ctx :=
  (quadsOf (ctxMode c)).foldl
    (fun c q =>
      let n := (if ex then 16 else 256) / (if ctxMode c = 1 then 2 else 1)
      let r := (if q.row0 = 0 then 0 else n) + row % n
      (List.range q.cols).foldl
        (fun c j => accumulate ex acc (32 * r + q.col0 + j) (colProducts c q inp on j) c) c) c

/-- `count` wavefronts from input address `a`, stepped by `step`, into rows from `row` on. -/
def passWaves (s : State) (n : Nat) (ex acc : Bool) (on : Nat → Nat → Bool) (a : Nat) (step : Int) (row : Nat) :
    Nat → Ctx → Ctx
  | 0, c => c
  | k + 1, c =>
    passWaves s n ex acc on ((a : Int) + step).toNat step (row + 1) k
      (wavefront ex acc row (memRead s (lsAddr n + a) (waveBytes (ctxMode c))) on c)

/-- The check of every input of a pass (05 R156, R169; log 14). -/
def passCheck (s : State) (n : Nat) (len : Nat) (a step : Int) : Nat → Option Nat
  | 0 => none
  | k + 1 =>
    if a < 0 then some excBounds
    else match loadCheck s n a.toNat len 64 with
      | some c => some c
      | none => passCheck s n len (a + step) step k

/-! ### Read-out -/

/-- Read-out formats of MREAD (05 R152): bytes per column. -/
def readBytes (k : Nat) : Nat := match k with
  | 0 => 4 | 1 => 2 | 2 => 1 | 3 => 2 | 4 => 4 | 5 => 2 | 6 => 2 | 7 => 1 | 8 => 1 | _ => 80
/-- The float format of a read-out code. -/
def readFmt (k : Nat) : FFmt := match k with
  | 4 => fp32 | 5 => bf16 | 6 => fp16 | 7 => e4m3 | _ => e5m2

/-- One column read out, where the table of R118 has the conversion; none where it has none (log 15). -/
def readCol (ex : Bool) (c : Ctx) (code shift : Nat) (sb : Bool) (key : Nat) : Option (List Byte) :=
  let w := readBytes code
  if ex then
    let x : Exact := tabGet (fun _ => {}) c.exact key
    if code = 9 then some (exBytes x)
    else if 4 ≤ code then some (leBytes w (fEncodeSum (readFmt code) sb (exVal x)))
    else if ctxFloat c then none
    else some (leBytes w (narrow (8 * w) sb (exInt x shift)))
  else
    let v : Word := tabGet (fun _ => 0) c.acc key
    if code = 9 then none
    else if 4 ≤ code then
      (if ctxFloat c then some (leBytes w (fEncodeSum (readFmt code) sb (fDecode fp32 v.toNat))) else none)
    else if ctxFloat c then none
    else some (leBytes w (narrow (8 * w) sb (rneInt v.toInt shift)))

/-- Columns and rows read out one after another; a column without a conversion is a free value. -/
def readRows (ex : Bool) (c : Ctx) (code shift : Nat) (sb : Bool) : List Nat → Nat → List Byte
  | [], _ => []
  | k :: ks, free =>
    (match readCol ex c code shift sb k with
      | some bs => bs
      | none => leBytes (readBytes code) (Config.freeValue free).toNat) ++ readRows ex c code shift sb ks (free + 1)

/-- The thread runs call-sheet code: a step of a PHY chain (04 R115). -/
def phyCode (x : Thread) : Bool := match x.owner with
  | .chain _ _ => true
  | _ => false

/-! ### Operations at their array (05 R163, R166, R167) -/

/-- The context that an operation acts on: the shadow slot for a load, the active slot otherwise. -/
def opCtx (a : MArray) (k : MatKind) : Ctx := match k with
  | .load _ _ _ => shadowCtx a
  | _ => activeCtx a

/-- An operation cannot start: it is held from a PHY context, or it is a load of an array that has one (05 R166). -/
def opBlocked (a : MArray) (o : MatOp) : Bool :=
  suHeld o.thr (opCtx a o.kind) || (match o.kind with
    | .load _ _ _ => decide (a.load ≠ .idle)
    | _ => false)

/-- An operation of C1 is held at the array (05 R166). -/
def suWaits (a : MArray) : Bool := a.queue.any fun o => suHeld o.thr (opCtx a o.kind)

/-- Wavefronts through context `c` have no enabled cell: IDLE, or a split screen whose entry enables none (04 R108, R114). -/
def emptyPass (c : Ctx) (ent : List Byte) : Bool :=
  decide (ctxMode c = 3) ||
    (decide (ctxMode c = 2) &&
      !(List.range (if ctxFmt c = 2 then 16 else 32)).any fun i =>
        (List.range (if ctxFmt c = 2 then 16 else 32)).any fun j => cellOn ent i j)

/-- Rows that a native or exact store of an array has (04 R110). -/
def storeRows (ex : Bool) : Nat := if ex then 16 else 256

/-- The exception that an operation raises, if any (05 R156, R169). -/
def opTrap (s : State) (n : Nat) (a : MArray) : MatKind → Option Nat
  | .load h w _ => loadCheck s n h (loadBytes w) 64
  | .pass h st _ count _ _ _ =>
    if ctxMode (activeCtx a) = 3 then none else passCheck s n (waveBytes (ctxMode (activeCtx a))) h st count
  | .read h p _ =>
    if 9 < field p 24 21 then none else addrCheck h (32 * readBytes (field p 24 21) * (field p 15 8 + 1)) 64
  | .clear _ => none

/-- MPASS: COUNT wavefronts through the active context of the array (04 R108, R110). IDLE and contexts without an enabled cell
change no accumulator and count in EMPTY_PASS (04 R108, R114 Edges). -/
def runPass (n k h : Nat) (st : Int) (row count : Nat) (acc : Bool) (image role : Nat) (s : State) : State :=
  let a := arrOf (tileOf s n) k
  let c := activeCtx a
  let ent := maskEntry s image role (ctxMaskIx c)
  if emptyPass c ent then raise (tileReg n 8) 2 (bump (tileReg n 0x24) count s)
  else
    let on := fun i j => if ctxMode c = 2 then cellOn ent i j else true
    setTile n (setArr k (setActive (passWaves s n (ctxExact s c) acc on h st row count c) a) (tileOf s n)) s

/-- MREAD: rows to H(HX), converted (04 R118, 05 R152). Codes above 9 name no format: nothing is written (log 15). -/
def runRead (n k h : Nat) (p : Word) (sb : Bool) (s : State) : State :=
  if 9 < field p 24 21 then s
  else
    let c := activeCtx (arrOf (tileOf s n) k)
    let ex := ctxExact s c
    let keys := (List.range (field p 15 8 + 1)).flatMap fun r =>
      (List.range 32).map fun j => 32 * ((field p 7 0 + r) % storeRows ex) + j
    { memPut (lsAddr n + h) (readRows ex c (field p 24 21) (field p 20 16) sb keys s.free) s with
      free := s.free + keys.length }

/-- MCLR: rows of the active context are cleared (05 R152). -/
def runClear (n k : Nat) (p : Word) (s : State) : State :=
  let a := arrOf (tileOf s n) k
  let c := activeCtx a
  let ex := ctxExact s c
  let hit := fun (key : Nat) =>
    (List.range (field p 15 8 + 1)).any fun r => decide ((field p 7 0 + r) % storeRows ex = key / 32)
  let c1 := if ex then { c with exact := c.exact.filter fun e => !hit e.1 }
    else { c with acc := c.acc.filter fun e => !hit e.1 }
  setTile n (setArr k (setActive c1 a) (tileOf s n)) s

/-- An operation of a thread starts at array `k`. -/
def runOp (n k : Nat) (o : MatOp) (s : State) : State :=
  match o.kind with
  | .load h w phy => setTile n (setArr k { arrOf (tileOf s n) k with load := .waiting h w o.thr phy o.pc } (tileOf s n)) s
  | .pass h st row count acc image role => runPass n k h st row count acc image role s
  | .read h p sb => runRead n k h p sb s
  | .clear p => runClear n k p s

/-- An operation joins the array's queue. -/
def queueOp (n k : Nat) (o : MatOp) (s : State) : State :=
  setTile n (setArr k { arrOf (tileOf s n) k with queue := (arrOf (tileOf s n) k).queue ++ [o] } (tileOf s n)) s

/-- A queued operation leaves the queue and starts, or raises its exception. -/
def startQueued (n : TileIx) (k : Nat) (o : MatOp) (s : State) : State :=
  let a := arrOf (tileOf s n) k
  let s1 := setTile n (setArr k { a with queue := a.queue.erase o } (tileOf s n)) s
  match opTrap s1 n a o.kind with
  | some c => coreTrapAt n o.thr c o.pc s1
  | none => runOp n k o s1

/-- Operations of thread `t` queued at array `k` start in order, as far as they can; `fuel` bounds them. -/
def pumpThr (n : TileIx) (k : Nat) (t : Thr) : Nat → State → State
  | 0, s => s
  | fuel + 1, s =>
    match opsOf t (arrOf (tileOf s n) k) with
    | [] => s
    | o :: _ => if opBlocked (arrOf (tileOf s n) k) o then s else pumpThr n k t fuel (startQueued n k o s)

/-- Operations queued at array `k` start, C0's ahead of C1's (05 R166). -/
def pumpArr (n : TileIx) (k : Nat) (s : State) : State := pumpThr n k 1 8 (pumpThr n k 0 8 s)

/-- The arrays of AMASK from `k` on start what is queued at them. -/
def pumpMask (n : TileIx) (m : BitVec 4) (s : State) : State :=
  [0, 1, 2, 3].foldl (fun s k => if m.getLsbD k then pumpArr n k s else s) s

/-- An instruction that issues an operation to array `k`: it starts, or joins the queue behind those that wait; with 8 of the
thread queued the instruction stalls (05 R166, R167). -/
def matIssue (n : TileIx) (t : Thr) (k : Nat) (legal : Bool) (lost : Nat) (kind : MatKind) (s : State) : State :=
  if canRun s n t ∧ legal ∧ 8 ≤ (opsOf t (arrOf (tileOf s n) k)).length then s
  else
    coreStep n t legal
      (fun s =>
        let a := arrOf (tileOf s n) k
        let o : MatOp := ⟨t, (threadOf s n t).pc, kind⟩
        match opTrap s n a kind with
        | some c => .error c
        | none =>
          .ok (if opBlocked a o || decide (opsOf t a ≠ []) then queueOp n k o s else bankStall n lost (runOp n k o s))) s

/-- MLOAD: the shadow load is handed to the array, where it waits until the shadow context has drained (04 R115). Its context gets
PHY = 1 where PHY call-sheet code issued it (04 R107). -/
def execMload (n : TileIx) (t : Thr) (f : MatF) (s : State) : Host.Outcome State Fault Refusal :=
  match oneArray f.amask with
  | none => .next (coreStep n t false .ok s)
  | some k =>
    let y := threadOf s n t
    .next (matIssue n t k (decide (f.opnd = 0) && !f.s) f.lost
      (.load (getH y f.hx).toNat (getD y f.dp) (decide (t = 0) && phyCode y)) s)

/-- MPASS (05 R152). -/
def execMpass (n : TileIx) (t : Thr) (f : MatF) (s : State) : Host.Outcome State Fault Refusal :=
  match oneArray f.amask with
  | none => .next (coreStep n t false .ok s)
  | some k =>
    let y := threadOf s n t
    .next (matIssue n t k (decide (f.opnd.toNat % 32 = 0) && !f.s) f.lost
      (.pass (getH y f.hx).toNat (getS y f.hx).toInt ((getD y f.dp).toNat % 256) (f.opnd.toNat / 64 + 1) (f.opnd.getLsbD 5)
        y.image y.role) s)

/-- MREAD (05 R152). -/
def execMread (n : TileIx) (t : Thr) (f : MatF) (s : State) : Host.Outcome State Fault Refusal :=
  match oneArray f.amask with
  | none => .next (coreStep n t false .ok s)
  | some k =>
    let y := threadOf s n t
    .next (matIssue n t k (decide (f.opnd = 0)) f.lost (.read (getH y f.hx).toNat (getD y f.dp) f.s) s)

/-- MCLR (05 R152). -/
def execMclr (n : TileIx) (t : Thr) (f : MatF) (s : State) : Host.Outcome State Fault Refusal :=
  match oneArray f.amask with
  | none => .next (coreStep n t false .ok s)
  | some k =>
    .next (matIssue n t k (decide (f.opnd = 0) && decide (f.hx = 0) && !f.s) f.lost (.clear (getD (threadOf s n t) f.dp)) s)

/-! ### CUT -/

/-- One array's slots swap: weights, context word, accumulators, exact store and PHY bit together (04 R116). -/
def cutArray (a : MArray) : MArray := { a with active := !a.active }

/-- The arrays of AMASK swap (04 R116). -/
def cutTile (m : BitVec 4) (x : Tile) : Tile :=
  { x with a0 := if m.getLsbD 0 then cutArray x.a0 else x.a0, a1 := if m.getLsbD 1 then cutArray x.a1 else x.a1,
           a2 := if m.getLsbD 2 then cutArray x.a2 else x.a2, a3 := if m.getLsbD 3 then cutArray x.a3 else x.a3 }

/-- Arrays named in AMASK. -/
def maskCount (m : BitVec 4) : Nat :=
  bnat (m.getLsbD 0) + bnat (m.getLsbD 1) + bnat (m.getLsbD 2) + bnat (m.getLsbD 3)

/-- A CUT of thread `t` waits for array `a`: a shadow load of it has not completed, or operations of the thread are queued there
(04 R117). -/
def cutWaits (t : Thr) (a : MArray) : Bool := decide (a.load ≠ .idle) || decide (opsOf t a ≠ [])

/-- A CUT of the arrays of AMASK waits. -/
def cutBlocked (t : Thr) (m : BitVec 4) (x : Tile) : Bool :=
  (m.getLsbD 0 && cutWaits t x.a0) || (m.getLsbD 1 && cutWaits t x.a1) || (m.getLsbD 2 && cutWaits t x.a2) ||
    (m.getLsbD 3 && cutWaits t x.a3)

/-- Cycles that C1's operations were held at the arrays of AMASK count, where one was (05 R166). -/
def countHeld (n : Nat) (m : BitVec 4) (held : Nat) (s : State) : State :=
  if [0, 1, 2, 3].any fun k => m.getLsbD k && suWaits (arrOf (tileOf s n) k) then bump (tileReg n 0x54) held s else s

/-- A CUT takes effect on tile `n`: one count per array, and windows of the tile give up the arrays taken back
(04 R116, 06 R192, R193). -/
def doCut (n : TileIx) (m : BitVec 4) (s : State) : State :=
  bump (tileReg n 0x10) (maskCount m) (setTile n (cutTile m (tileOf s n)) s)

/-- The CUT of C0 at the preemption point closes the windows that hold arrays it names; an item that loses its last array
is parked from then on (06 R192, R193). -/
def closeWindows (n : TileIx) (m : BitVec 4) (s : State) : State :=
  let hit := s.windows.any fun w => decide (w.tile = n.val) && decide (w.held &&& m ≠ 0)
  if hit then
    let ws := s.windows.map fun w => if w.tile = n.val then { w with held := w.held &&& ~~~m } else w
    let t := dropWindows (fun w => decide (w.tile = n.val) && decide (w.opened ≠ 0) && decide (w.held = 0)) { s with windows := ws }
    if t.windows.any fun w => decide (w.tile = n.val) && decide (w.held ≠ 0) then t
    else { t with items := t.items.map fun i => if i.on = some (n, 1) then { i with parkedAt := some s.clk } else i }
  else s

/-- C0's CUT also closes a window of its arrays that has been released and not opened: its preemption point has been reached
(06 R192). -/
def closeUnopened (n : TileIx) (m : BitVec 4) (s : State) : State :=
  dropWindows (fun w => decide (w.tile = n.val) && w.released && decide (w.opened = 0) && decide (w.win.amask &&& m ≠ 0)) s

/-- The swap of a CUT; one by C0 closes the windows of its arrays (04 R116; 06 R192). -/
def cutThrough (n : TileIx) (t : Thr) (m : BitVec 4) (s : State) : State :=
  let u := doCut n m s
  if t = 0 then closeWindows n m (closeUnopened n m u) else u

/-- The swap with what it lets start: operations held from a PHY context, whose held cycles count (05 R166). -/
def cutPump (n : TileIx) (t : Thr) (m : BitVec 4) (held : Nat) (s : State) : State :=
  pumpMask n m (cutThrough n t m (countHeld n m held s))

/-- CUT: swaps in one cycle, or waits until the shadow loads of the arrays it names are complete (04 R116, R117). -/
def execCut (n : TileIx) (t : Thr) (f : MatF) (s : State) : Host.Outcome State Fault Refusal :=
  let legal := decide (f.amask ≠ 0) && decide (f.opnd = 0) && decide (f.hx = 0) && decide (f.dp = 0) && !f.s
  if canRun s n t ∧ legal ∧ cutBlocked t f.amask (tileOf s n) then
    .next (setThread n t { threadOf s n t with run := .waiting (.cut f.amask) } s)
  else
    .next (coreStep n t legal (fun s => .ok (cutPump n t f.amask f.lost s)) s)

/-- A thread that waits with a CUT whose loads are complete: it swaps and goes on, and its wait counts (04 R117). -/
def releaseCut (n : TileIx) (t : Thr) (waited held : Nat) (s : State) : State :=
  match (threadOf s n t).run with
  | .waiting (.cut m) =>
    if cutBlocked t m (tileOf s n) then s
    else
      let s1 := bump (tileReg n 0x14) waited (cutPump n t m held s)
      setThread n t (retire { threadOf s1 n t with run := .running }) s1
  | _ => s

/-- A load's weights as a table of the 64-byte rows. -/
def weightTab (bs : List Byte) : Tab Byte := tabSetMany (fun _ => 0) [] 0 bs

/-- A shadow load of array `k` by C1 has completed: windows of the tile that are released know it (06 R192). -/
def windowLoaded (n k : Nat) (s : State) : State :=
  { s with windows := s.windows.map fun w =>
      if w.tile = n ∧ w.released = true then { w with loaded := w.loaded ||| BitVec.ofNat 4 (2 ^ k) } else w }

/-- A shadow load completes: weights and context word enter the shadow slot, its accumulators stay, and the PHY bit is that of the
code which issued it (04 R107, R115). Operations queued at the array start, and a CUT that waited takes effect (04 R117). -/
def execShadowLoadComplete (n : TileIx) (k : Fin 4) (waits : LoadWaits) (s : State) : Host.Outcome State Fault Refusal :=
  let a := arrOf (tileOf s n) k
  match a.load with
  | .loading bs w t phy =>
    if fenced s n then .next s
    else
      let a1 := setShadow { shadowCtx a with weights := weightTab bs, word := w, phy } { a with load := .idle }
      let s1 := setTile n (setArr k a1 (tileOf s n)) s
      let s2 := pumpArr n k (if t = 1 then windowLoaded n k s1 else s1)
      .next (releaseCut n 1 waits.waited waits.held (releaseCut n 0 waits.waited waits.held s2))
  | _ => .next s

end Sys2Proof.Machine
end

