-- ==== Sys2Proof/Machine/CoreSys.lean ====
section
/-! DEFINITION. The control core's system instructions: halting, waiting, special registers, reels, Dolly lists, cues
and atomics (05 R146, R147, R152, R167, R168; 06 R172, R177, R178; 07 R209–R214). -/

namespace Sys2Proof.Machine

/-- NOP. -/
def execCcNop (n : TileIx) (t : Thr) (s : State) : Host.Outcome State Fault Refusal := .next (coreReg n t true id s)

/-- HALT: the thread takes no further instruction; it has stopped once its operations are complete, which THREAD_HALTED
reports (05 R147). -/
def execHalt (n : TileIx) (t : Thr) (s : State) : Host.Outcome State Fault Refusal :=
  .next (if canRun s n t then setThread n t { retire (threadOf s n t) with run := .halting } s else s)

/-- A thread that waits goes on behind the instruction it waited at. -/
def resume (n : TileIx) (t : Thr) (f : Thread → Thread) (s : State) : State :=
  setThread n t (f (retire { threadOf s n t with run := .running })) s

/-- SYNC. -/
def execSync (n : TileIx) (t : Thr) (units : Byte) (s : State) : Host.Outcome State Fault Refusal :=
  .next (if canRun s n t && !syncDone s n t units then
      setThread n t { threadOf s n t with run := .waiting (.sync units) } s
    else coreReg n t true id s)

/-- The operations that a SYNC waits for have committed. -/
def execSyncComplete (n : TileIx) (t : Thr) (s : State) : Host.Outcome State Fault Refusal :=
  .next (match (threadOf s n t).run with
    | .waiting (.sync u) => if syncDone s n t u then resume n t id s else s
    | _ => s)

/-- The value of a special register, where it is listed (05 R146): `cycles` core cycles have gone by since CYCLE was last read
(log 84). The TIME port is the main die's follower counter (04 R138). -/
def specialOf (s : State) (t : Thr) (y : Thread) (cycles : Nat) : Nat → Option Word
  | 0 => some (y.flags.setWidth 32)
  | 1 => some (y.amode.setWidth 32)
  | 2 => some (match y.loops with
    | [] => 0
    | l :: _ => BitVec.ofNat 32 l.count)
  | 3 => some (BitVec.ofNat 32 y.loops.length)
  | 4 => some (BitVec.ofNat 32 y.calls.length)
  | 5 => some (y.epoch.setWidth 32)
  | 6 => some (y.cycle + BitVec.ofNat 32 cycles)
  | 7 => some (mainCounter s).ns
  | 8 => some y.tnowSec
  | 9 => some (BitVec.ofNat 32 t.val)
  | _ => none

/-- What a read of special register `k` leaves: TNOW_NS latches the seconds, CYCLE is counted on from here. -/
def specialRead (s : State) (cycles k : Nat) (y : Thread) : Thread :=
  if k = 7 then { y with tnowSec := (mainCounter s).sec.setWidth 32 }
  else if k = 6 then { y with cycle := y.cycle + BitVec.ofNat 32 cycles } else y

/-- MFS. -/
def execMfs (n : TileIx) (t : Thr) (f : MfsF) (s : State) : Host.Outcome State Fault Refusal :=
  .next (coreStep n t (decide (f.opnd.toNat ≤ 9) && decide (f.hx = 0))
    (fun s =>
      let y := threadOf s n t
      match specialOf s t y f.cycles f.opnd.toNat with
      | none => .error excIllegal
      | some v => .ok (setThread n t (setD f.d v (specialRead s f.cycles f.opnd.toNat y)) s)) s)

/-- The thread once AMODE is written: up to three instructions behind have passed stage A and use the old mode, how many a free
value tells (05 R142, R156 Edge; log 11). The MTS itself retires next. -/
def writeAmode (v : Byte) (past : Dword) (y : Thread) : Thread :=
  { y with amode := v, amodeWas := amodeNow y, amodeLate := past.toNat % 4 + 1 }

/-- MTS: FLAGS or AMODE. -/
def execMts (n : TileIx) (t : Thr) (f : SysF) (s : State) : Host.Outcome State Fault Refusal :=
  .next (coreStep n t (decide (f.opnd.toNat ≤ 1) && decide (f.hx = 0))
    (fun s =>
      let y := threadOf s n t
      .ok (if f.opnd = 0 then setThread n t { y with flags := (getD y f.d).setWidth 4 } s
        else useFree (setThread n t (writeAmode ((getD y f.d).setWidth 8) (freshVal s) y) s))) s)

/-! ### Reels (06 R177–R179) -/

/-- Class of the work that a thread runs: PHY for a chain (06 R175). -/
def ownerClass (s : State) : Owner → Nat
  | .none => 0
  | .chain _ _ => 0
  | .item k => match itemOf s k with
    | some i => i.cls
    | none => 0
  | .job p => match jobOn s p.val with
    | some j => (match flightOf s j.ref with
      | some f => dClass f.desc
      | none => 0)
    | none => 0

/-- A handle as work of class `cls` on tile `n` pushes it. -/
def handleBy (n : TileIx) (cls : Nat) (o : Owner) (h : BitVec 16) : Handle :=
  { h, tile := some n, cls, owner := o, phy := match o with
    | .chain _ _ => true
    | _ => false }

/-- A handle as thread `t` of tile `n` pushes it. -/
def handleFrom (s : State) (n : TileIx) (t : Thr) (h : BitVec 16) : Handle :=
  handleBy n (ownerClass s (threadOf s n t).owner) (threadOf s n t).owner h

/-- A thread waits to push onto reel `r`. -/
def thrPushes (r : Nat) (y : Thread) : Bool := match y.run with
  | .waiting (.rpush k _) => decide (k = r)
  | _ => false

/-- A thread waits to pop from reel `r`. -/
def thrPops (r : Nat) (y : Thread) : Bool := match y.run with
  | .waiting (.rpop k _) => decide (k = r)
  | _ => false

/-- Pushes onto reel `r` that wait on the tiles that `f` selects. -/
def pushesWaiting (s : State) (r : Nat) (f : Nat → Bool) : Nat :=
  ((s.tiles.filter fun x => f x.1).map fun x => bnat (thrPushes r x.2.c0) + bnat (thrPushes r x.2.c1)).sum

/-- Of several pops and pushes of one cycle that of the lowest tile comes first (06 R179): no tile below `n` waits to pop. -/
def popTurn (s : State) (r n : Nat) : Bool :=
  !s.tiles.any fun x => decide (x.1 < n) && (reelOf s r).cons.getLsbD x.1 &&
    (thrPops r x.2.c0 || thrPops r x.2.c1 || x.2.dolly.any fun l => decide (l.atReel = some r))

/-- No tile below `n` waits to push, and an entry is free. -/
def pushTurn (s : State) (r n : Nat) : Bool :=
  decide ((reelOf s r).q.length < 64) && decide (pushesWaiting s r (fun m => decide (m < n)) = 0)

/-- A handle enters a reel. -/
def pushReel (r : Nat) (h : Handle) (s : State) : State := setReel r { reelOf s r with q := (reelOf s r).q ++ [h] } s

/-- A push or pop by a tile outside the reel's sets: counted and reported (06 R178). -/
def reelReject (n : TileIx) (r : Nat) (w : FaultWork) (s : State) : State :=
  report ⟨.tile n, false, 5, BitVec.ofNat 64 r, w⟩ (raise directorEvent 4 (bump 0x3003C 1 s))

/-- RPUSH: a push onto a full reel waits, and one behind a waiting push of a lower tile; one outside the producer set is not performed. -/
def execRpush (n : TileIx) (t : Thr) (f : SysF) (s : State) : Host.Outcome State Fault Refusal :=
  let r := f.opnd.toNat
  let legal := decide (r < 1024) && decide (f.hx = 0)
  let x := reelOf s r
  let h := (getD (threadOf s n t) f.d).setWidth 16
  .next (if canRun s n t && legal && x.prod.getLsbD n && !pushTurn s r n then
      setThread n t { threadOf s n t with run := .waiting (.rpush r h) } s
    else
      coreStep n t legal
        (fun s => .ok (if x.prod.getLsbD n then pushReel r (handleFrom s n t h) s
          else reelReject n r (ownerWork s (threadOf s n t).owner) s)) s)

/-- A waiting push enters its reel once space appears, that of the lowest tile first. -/
def execRpushResume (n : TileIx) (t : Thr) (s : State) : Host.Outcome State Fault Refusal :=
  .next (match (threadOf s n t).run with
    | .waiting (.rpush r h) =>
      if pushTurn s r n then resume n t id (pushReel r (handleFrom s n t h) s) else s
    | _ => s)

/-- The oldest handle of a reel goes to D. -/
def popTo (n : TileIx) (t : Thr) (d : Fin 16) (r : Nat) (s : State) : State :=
  match (reelOf s r).q with
  | [] => s
  | h :: q => setThread n t (setD d (h.h.setWidth 32) (threadOf s n t)) (setReel r { reelOf s r with q } s)

/-- RPOP: a pop from an empty reel waits, and one behind a waiting pop of a lower tile; one outside the consumer set waits until the fault unit acts. -/
def execRpop (n : TileIx) (t : Thr) (f : SysF) (s : State) : Host.Outcome State Fault Refusal :=
  let r := f.opnd.toNat
  let legal := decide (r < 1024) && decide (f.hx = 0)
  let x := reelOf s r
  .next (if canRun s n t && legal && !x.cons.getLsbD n then
      reelReject n r (ownerWork s (threadOf s n t).owner)
        (setThread n t { threadOf s n t with run := .waiting .rejected } s)
    else if canRun s n t && legal && (decide (x.q = []) || !popTurn s r n) then
      setThread n t { threadOf s n t with run := .waiting (.rpop r f.d) } s
    else coreStep n t legal (fun s => .ok (popTo n t f.d r s)) s)

/-- A waiting pop receives a handle once one appears, that of the lowest tile first. -/
def execRpopResume (n : TileIx) (t : Thr) (s : State) : Host.Outcome State Fault Refusal :=
  .next (match (threadOf s n t).run with
    | .waiting (.rpop r d) =>
      if decide ((reelOf s r).q = []) || !popTurn s r n then s else popTo n t d r (resume n t id s)
    | _ => s)

/-- DKICK: a list at H(HX) joins Dolly's lists (06 R172); with 8 of the thread there the instruction stalls (05 R167; log 9). -/
def execDkick (n : TileIx) (t : Thr) (f : SysF) (s : State) : Host.Outcome State Fault Refusal :=
  let legal := decide (f.d = 0) && decide (f.opnd = 0)
  .next (if canRun s n t && legal && decide (8 ≤ ((tileOf s n).dolly.filter fun l => decide (l.thr = t)).length) then s
    else coreStep n t legal
    (fun s =>
      let a := (getH (threadOf s n t) f.hx).toNat
      if lsSize ≤ a then .error excBounds
      else
        let x := tileOf s n
        let o := (threadOf s n t).owner
        .ok (setTile n { x with dolly := x.dolly ++ [⟨t, a, 0, [], none, false, ownerClass s o, o⟩] } s)) s)

/-! ### Cues (05 R168) -/

/-- D and D + 1 as a 64-bit value. For D15 the spec names no D + 1: the high half is a free value (log 23). -/
def pairVal (s : State) (y : Thread) (d : Fin 16) : Dword :=
  let hi : Word := if d.val = 15 then (freshVal s).setWidth 32 else getD y (d.val + 1)
  BitVec.ofNat 64 ((getD y d).toNat + hi.toNat * 2 ^ 32)

/-- What using `pairVal` leaves. -/
def usePair (d : Fin 16) (s : State) : State := if d.val = 15 then useFree s else s

/-- The time of a cue word bound at device time `a`, in units (02 R52–R54). -/
def cueWordTime (s : State) (w : Dword) (a : Nat) : Int :=
  let lo : Word := w.setWidth 32
  let hi : Word := w.extractLsb' 32 32
  bindCue s (field lo 1 0) (field lo 11 2) (field lo 16 12) (field lo 20 17) hi.toInt a

/-- CUEWAIT: bound as it issues; a cue that has passed sets C and is a schedule violation of the chain (06 R195). A cue
word outside R52's ranges is bound by the same formula (log 24). -/
def execCuewait (n : TileIx) (t : Thr) (f : SysF) (s : State) : Host.Outcome State Fault Refusal :=
  let legal := decide (t = 0) && decide (f.opnd.toNat ≤ 1) && decide (f.hx = 0)
  let y := threadOf s n t
  let c := cueWordTime s (pairVal s y f.d) (nowUnits s)
  .next (if canRun s n t && legal then
      (if (nowUnits s : Int) ≤ c then
        usePair f.d (setThread n t { y with run := .waiting (.cue c.toNat (f.opnd.getLsbD 0)) } s)
      else
        let s1 := usePair f.d (setThread n t (setC true (retire y)) s)
        match y.owner with
        | .chain r step => (match chainOf s1 r with
          | some _ => violateFree r step 1 s1
          | none => s1)
        | _ => s1)
    else coreStep n t legal .ok s)

/-! ### Atomics (07 R209–R214) -/

/-- Bytes of an atomic's type: FP32, BF16, INT32, INT64. -/
def atomBytes (typ : Nat) : Nat := match typ with
  | 1 => 2 | 3 => 8 | _ => 4

/-- The determinism level that work runs under: its descriptor's, or LOCKED by DET_CTRL (13 R364). -/
def ownerFree (s : State) : Owner → Bool
  | .job p => !detLock s && (match jobOn s p.val with
    | some j => decide (j.det = 0)
    | none => true)
  | .item k => !detLock s && (match itemOf s k with
    | some i => (match i.src with
      | .desc r => (match flightOf s r with
        | some f => decide (dDet f.desc = 0)
        | none => true)
      | _ => true)
    | none => true)
  | _ => !detLock s

/-- The atomic is legal at its target (07 R210). -/
def atomLegal (s : State) (o : Owner) (op typ a : Nat) : Bool :=
  let float := decide (typ ≤ 1)
  if a < hbmSize then !float || (decide (op = 0) && ownerFree s o)
  else if poolBase ≤ a ∧ a < poolBase + poolSize then
    if slotBase s ≤ a ∧ a < slotBase s + 96 * slotCount s then decide (op = 0) && decide ((a - slotBase s) % 96 = 0)
    else !float
  else false

/-- The target of an atomic through the thread's aperture, where R209 and R210 allow it. -/
def atomTarget (s : State) (y : Thread) (op typ h : Nat) : Option Nat :=
  match loadedNum s y.image with
  | none => none
  | some l => match l.img.buftab with
    | [] => none
    | b :: _ =>
      let a := b.addr + h
      if b.kind ≤ 1 ∧ h + atomBytes typ ≤ b.len ∧ (regionOf s a (atomBytes typ)).isSome ∧ atomLegal s y.owner op typ a = true
      then some a else none

/-- Issue of an atomic; with 8 of the thread on their way the instruction stalls (05 R167; log 9). -/
def atomIssue (n : TileIx) (t : Thr) (f : SysF) (legal : Bool) (op : Nat) (s : State) : State :=
  if canRun s n t && legal && decide (8 ≤ (s.mem.atomics.filter fun a => decide (a.tile = n) && decide (a.thr = t)).length)
  then s
  else coreStep n t legal
    (fun s =>
      let y := threadOf s n t
      let typ := f.opnd.toNat % 8
      let h := (getH y f.hx).toNat
      if 3 < typ ∨ (op ≠ 0 ∧ typ < 2) then .error excAtomic
      else match addrCheck h (atomBytes typ) (atomBytes typ) with
        | some c => .error c
        | none => match atomTarget s y op typ h with
          | none => .error excAtomic
          | some a =>
            if a % atomBytes typ ≠ 0 then .error excAlign
            else
            let v := if typ = 3 then pairVal s y f.d else (getD y f.d).setWidth 64
            let s1 := if typ = 3 then usePair f.d s else s
            .ok { s1 with mem := { s1.mem with atomics := s1.mem.atomics ++ [⟨n, t, a, op, typ, v⟩] } }) s

/-- AADD. -/
def execAadd (n : TileIx) (t : Thr) (f : SysF) (s : State) : Host.Outcome State Fault Refusal :=
  .next (atomIssue n t f (decide (f.opnd.toNat < 8)) 0 s)
/-- AMM: bit 3 of the operand selects the maximum. -/
def execAmm (n : TileIx) (t : Thr) (f : SysF) (s : State) : Host.Outcome State Fault Refusal :=
  .next (atomIssue n t f (decide (f.opnd.toNat < 16)) (if f.opnd.getLsbD 3 then 2 else 1) s)

/-- The new bytes of a target outside the cache (07 R212). -/
def atomNew (o : AtomOp) (old : Nat) : Nat :=
  match o.typ with
  | 0 => fEncode fp32 false (fAdd (fDecode fp32 old) (fDecode fp32 (o.val.toNat % 2 ^ 32)))
  | 1 => fEncode bf16 false (fDecode fp32 (fEncode fp32 false
      (fAdd (fDecode bf16 old) (fDecode bf16 (o.val.toNat % 2 ^ 16)))))
  | _ =>
    let w := 8 * atomBytes o.typ
    let a := signedOf w old
    let b := signedOf w o.val.toNat
    (BitVec.ofInt w (if o.op = 0 then a + b else if o.op = 1 then (if b < a then b else a) else (if a < b then b else a))).toNat

/-- The contribution of an AADD to a slot (07 R213). -/
def atomVal (o : AtomOp) : FVal :=
  match o.typ with
  | 0 => fDecode fp32 (o.val.toNat % 2 ^ 32)
  | 1 => fDecode bf16 (o.val.toNat % 2 ^ 16)
  | _ => fInt (signedOf (8 * atomBytes o.typ) o.val.toNat)

/-- Bytes written where they stood poisoned stay poisoned. -/
def putKeep (a : Nat) (bs : List Byte) (s : State) : State :=
  let t := memPut a bs s
  if memPoisoned s a bs.length then memMark a bs.length t else t

/-- An atomic is applied at its home. -/
def applyAtom (o : AtomOp) (s : State) : State :=
  let w := atomBytes o.typ
  if o.addr < hbmSize then
    let t := wcFlushLine (o.addr / 64) s
    bump (hbmReg (hbmPlace s o.addr).1 0x30) 1 (putKeep o.addr (leBytes w (atomNew o (leNat (memRead t o.addr w)))) t)
  else if slotBase s ≤ o.addr ∧ o.addr < slotBase s + 96 * slotCount s then
    let bs := memRead s o.addr 96
    let t := bump 0xA0018 1 (putKeep o.addr (slotAdd (atomVal o) bs) s)
    if slotSaturates bs then raise poolEvent 2 t else t
  else bump 0xA0018 1 (putKeep o.addr (leBytes w (atomNew o (leNat (memRead s o.addr w)))) s)

/-- ATOMIC_APPLY: the thread's oldest atomic reaches its home line or slot (07 R213, R214); a controller that trains or margins holds
it (07 R202). -/
def execAtomicApply (n : TileIx) (t : Thr) (s : State) : Host.Outcome State Fault Refusal :=
  .next (match s.mem.atomics.find? fun a => decide (a.tile = n) && decide (a.thr = t) with
    | none => s
    | some o => if accessHeld s o.addr then s else applyAtom o { s with mem := { s.mem with atomics := s.mem.atomics.erase o } })

end Sys2Proof.Machine
end

