-- ==== Sys2Proof/Machine/Dolly.lean ====
section
/-! DEFINITION. Dolly: the descriptors of a list, their checks, transfers and completion, and the codec blocks of its
streams (06 R172–R176, R178, R198; 07 R216–R222). -/

namespace Sys2Proof.Machine

/-! ### Descriptors (06 R172, R173) -/

/-- Address of the descriptor at a list's position, as a local-store offset. -/
def ddOffset (l : DollyList) : Nat := l.base + 32 * l.pos

def ddOp (d : List Byte) : Nat := leAt d 0 1 % 16
def ddFlag (d : List Byte) (b : Nat) : Bool := (leAt d 1 1).testBit b
def ddLast (d : List Byte) : Bool := ddFlag d 0
def ddFence (d : List Byte) : Bool := ddFlag d 1
def ddSrcReel (d : List Byte) : Bool := ddFlag d 2
def ddPush (d : List Byte) : Bool := ddFlag d 3
def ddDec (d : List Byte) : Bool := ddFlag d 4
def ddEnc (d : List Byte) : Bool := ddFlag d 5
def ddSreel (d : List Byte) : Nat := leAt d 2 2
def ddDreel (d : List Byte) : Nat := leAt d 4 2
def ddHandle (d : List Byte) : Nat := leAt d 6 2
def ddSrc (d : List Byte) : Nat := leAt d 8 6
def ddDst (d : List Byte) : Nat := leAt d 14 6
def ddRowLen (d : List Byte) : Nat := leAt d 20 4
def ddRows (d : List Byte) : Nat := leAt d 24 2 + 1
def ddSStride (d : List Byte) : Int := signedOf 24 (leAt d 26 3)
def ddDStride (d : List Byte) : Int := signedOf 24 (leAt d 29 3)

/-- A reserved bit, an unlisted OP or a field in use where it must be 0 (06 R172, 07 R217). -/
def ddMalformed (d : List Byte) : Bool :=
  let op := ddOp d
  decide (2 < op) || decide (leAt d 0 1 / 16 ≠ 0) || decide (leAt d 1 1 / 64 ≠ 0) ||
    (if ddSrcReel d then decide (1024 ≤ ddSreel d) else decide (ddSreel d ≠ 0)) ||
    (if ddPush d then decide (1024 ≤ ddDreel d) else decide (ddDreel d ≠ 0) || decide (ddHandle d ≠ 0)) ||
    (decide (op ≠ 1) && (decide (ddRows d ≠ 1) || decide (ddSStride d ≠ 0) || decide (ddDStride d ≠ 0))) ||
    (decide (op = 2) && (ddSrcReel d || decide (2 ^ 32 ≤ ddSrc d))) ||
    ((ddDec d || ddEnc d) && decide (op ≠ 0))

/-- ROWLEN or an alignment breaks R172 or R173; the source is judged where no handle gives it. -/
def ddUnaligned (d : List Byte) : Bool :=
  decide (ddRowLen d < 16) || decide (16777216 < ddRowLen d) || decide (ddRowLen d % 16 ≠ 0) || decide (ddDst d % 16 ≠ 0) ||
    decide (ddSStride d % 16 ≠ 0) || decide (ddDStride d % 16 ≠ 0) || (decide (ddOp d ≠ 2) && decide (ddSrc d % 16 ≠ 0))

/-- Address of row `k`. -/
def rowAt (a : Nat) (stride : Int) (k : Nat) : Int := a + stride * k

/-- Every row lies in one region of its own. -/
def rowsInside (s : State) (a : Nat) (stride : Int) (len : Nat) : Nat → Bool
  | 0 => true
  | k + 1 =>
    decide (0 ≤ rowAt a stride k) && (regionOf s (rowAt a stride k).toNat len).isSome && rowsInside s a stride len k

/-- The destination lies outside the map, or outside HBM for an encoded stream. -/
def ddDstOut (s : State) (d : List Byte) : Bool :=
  if ddEnc d then decide (hbmSize ≤ ddDst d) else !rowsInside s (ddDst d) (ddDStride d) (ddRowLen d) (ddRows d)

/-- The source `a` lies outside the map, or outside HBM for a stream to decode. -/
def ddSrcOut (s : State) (d : List Byte) (a : Nat) : Bool :=
  if ddOp d = 2 then false
  else if ddDec d then decide (hbmSize ≤ a)
  else !rowsInside s a (ddSStride d) (ddRowLen d) (ddRows d)

/-- Cause of DOLLY_ERR, 0 for none, before a handle is popped. The causes are judged in the order 1, 4, 2, 3
(log 26). -/
def ddCheck (s : State) (d : List Byte) : Nat :=
  if ddMalformed d then 1
  else if ddDec d && ddEnc d then 4
  else if ddUnaligned d then 2
  else if ddDstOut s d || (!ddSrcReel d && ddSrcOut s d (ddSrc d)) then 3
  else 0

/-! ### Transfers (06 R174) -/

/-- A row cut at 256-byte boundaries of the destination; `n` bounds the pieces. -/
def cutRow : Nat → Nat → Nat → Nat → List Xfer
  | 0, _, _, _ => []
  | n + 1, src, dst, len =>
    if len = 0 then []
    else
      let k := min len (256 - dst % 256)
      ⟨src, dst, k, 0⟩ :: cutRow n (src + k) (dst + k) (len - k)

/-- The transfers of a descriptor with its source at `a`. -/
def ddXfers (d : List Byte) (a : Nat) : List Xfer :=
  (List.range (ddRows d)).flatMap fun k =>
    cutRow (ddRowLen d / 256 + 2) (rowAt a (ddSStride d) k).toNat (rowAt (ddDst d) (ddDStride d) k).toNat (ddRowLen d)

/-- The transfers of a codec stream, each within one block of 4,096 raw bytes (07 R217, R224; log 105). -/
def streamXfers (d : List Byte) (a : Nat) : List Xfer :=
  (List.range (ceilDiv (ddRowLen d) 4096)).flatMap fun k =>
    (cutRow 18 (a + 4096 * k) (ddDst d + 4096 * k) (min 4096 (ddRowLen d - 4096 * k))).map fun x => { x with blk := k }

/-- Engine that serves an HBM address (07 R216). -/
def codecEngine (s : State) (a : Nat) : Nat :=
  let p := hbmPlace s a
  2 * p.1 + p.2.1 / 8

/-- The part has the engine (07 R216). -/
def engineThere (e : Nat) : Bool := decide (e < 2 * Config.nStacks) || decide (8 ≤ e)

/-- The job of a descriptor at local-store offset `id`, its source at `a`. -/
def ddJob (s : State) (d : List Byte) (a id : Nat) : DollyJob :=
  let codec := ddDec d || ddEnc d
  { move := if ddOp d = 2 then .fill (BitVec.ofNat 32 (ddSrc d)) else if ddDec d then .decode else if ddEnc d then .encode else .copy,
    last := ddLast d, push := if ddPush d then some (ddDreel d, BitVec.ofNat 16 (ddHandle d)) else none,
    todo := if codec then streamXfers d a else ddXfers d a, outstanding := [],
    stream := if codec then ⟨a, ddDst d, ddRowLen d, 0⟩ else ⟨0, 0, 0, 0⟩,
    id, engine := if codec then codecEngine s (if ddDec d then a else ddDst d) else 0, fed := 0 }

/-- Transfers outstanding in lists of a tile that `f` selects. -/
def outstandingOf (f : DollyList → Bool) (x : Tile) : Nat :=
  ((x.dolly.filter f).map fun l => (l.jobs.map fun j => j.outstanding.length).sum).sum

/-- Transfers that thread `t` may still issue (06 R174). -/
def xferRoom (s : State) (x : Tile) (t : Thr) : Nat :=
  let all := 256 - outstandingOf (fun _ => true) x
  if t = 0 then all else min all (rdf s 0x30010 22 16 - outstandingOf (fun l => decide (l.thr = 1)) x)

/-- The HBM address by which a transfer enters a reorder queue: its source, or else its destination; `hbmSize` for a transfer of
other memory or of a codec stream (log 104). -/
def xferSide (m : DollyMove) (x : Xfer) : Nat :=
  match m with
  | .copy => if x.src < hbmSize then x.src else min hbmSize x.dst
  | .fill _ => min hbmSize x.dst
  | _ => hbmSize

/-- The codec pipeline of a stream: 2 × engine, + 1 to decode. -/
def jobPipe (j : DollyJob) : Option Nat := match j.move with
  | .encode => some (2 * j.engine)
  | .decode => some (2 * j.engine + 1)
  | _ => none

/-- The first list of thread `t`. -/
def listOf (x : Tile) (t : Thr) : Option DollyList := x.dolly.find? fun l => decide (l.thr = t)

/-- The first list of thread `t` replaced, or dropped. -/
def setList (t : Thr) (new : Option DollyList) : List DollyList → List DollyList
  | [] => []
  | l :: ls => if l.thr = t then (match new with
      | some k => k :: ls
      | none => ls) else l :: setList t new ls

/-- The first list of thread `t` of tile `n` has new contents. -/
def setListOf (n : Nat) (t : Thr) (new : Option DollyList) (s : State) : State :=
  setTile n { tileOf s n with dolly := setList t new (tileOf s n).dolly } s

/-- The first job with a transfer to issue: the job, the transfer, and the jobs once it is issued. -/
def issueJob : List DollyJob → Option (DollyJob × Xfer × List DollyJob)
  | [] => none
  | j :: js => match j.todo with
    | x :: xs => some (j, x, { j with todo := xs, outstanding := j.outstanding ++ [x] } :: js)
    | [] => (issueJob js).map fun r => (r.1, r.2.1, j :: r.2.2)

/-- Thread `t` of tile `n` issues a transfer, where it has one, the limit is not reached, and the reorder queue it goes to has an
entry free (06 R174; 07 R203). -/
def issueXfer (n : Nat) (t : Thr) (s : State) : Option State :=
  match listOf (tileOf s n) t with
  | none => none
  | some l => match issueJob l.jobs with
    | none => none
    | some (j, x, jobs) =>
      if xferRoom s (tileOf s n) t = 0 || !rqRoom s (xferSide j.move x) then none
      else some (rqPush ⟨Fin.ofNat 64 n, t, xferSide j.move x, x.len, l.cls, s.clk⟩ (setListOf n t (some { l with jobs }) s))

/-- A thread issues what it may; `k` bounds the transfers. -/
def issueAll (n : Nat) (t : Thr) : Nat → State → State
  | 0, s => s
  | k + 1, s => match issueXfer n t s with
    | some s' => issueAll n t k s'
    | none => s

/-! ### Codec queues (07 R224; 12 R348) -/

def codecIn (s : State) (k : Nat) : List CodecBlk := tabGet (fun _ => []) s.mem.codecIn k
def codecOut (s : State) (k : Nat) : List CodecOut := tabGet (fun _ => []) s.mem.codecOut k
def setCodecIn (k : Nat) (l : List CodecBlk) (s : State) : State :=
  { s with mem := { s.mem with codecIn := tabSet (fun _ => []) s.mem.codecIn k l } }
def setCodecOut (k : Nat) (l : List CodecOut) (s : State) : State :=
  { s with mem := { s.mem with codecOut := tabSet (fun _ => []) s.mem.codecOut k l } }

/-- The next block of a job waits for pipeline `k`: all its transfers are issued, and it has not entered the queue. -/
def blockWaits (k : Nat) (j : DollyJob) : Bool :=
  decide (jobPipe j = some k) && (j.outstanding.any fun x => decide (x.blk = j.fed)) && !j.todo.any fun x => decide (x.blk = j.fed)

/-- The blocks that wait for pipeline `k`, one of each thread, in ascending tile number, each with its class. -/
def blocksWaiting (s : State) (k : Nat) : List (Nat × CodecBlk) :=
  s.tiles.flatMap fun x => ([0, 1] : List Thr).filterMap fun t =>
    match listOf x.2 t with
    | none => none
    | some l => (l.jobs.find? (blockWaits k)).map fun j => (l.cls, ⟨Fin.ofNat 64 x.1, t, j.id, j.fed⟩)

/-- The class whose block a pipeline accepts next. -/
def blockClass (s : State) (k : Nat) (l : List (Nat × CodecBlk)) : Option Nat :=
  if l.any fun x => decide (x.1 = 0) then some 0
  else pickClass s (roundOf s (64 + k)) (fun c => l.any fun x => decide (x.1 = c))

/-- The stream of a block at an engine counts it as entered. -/
def countFed (b : CodecBlk) (s : State) : State :=
  match listOf (tileOf s b.tile) b.thr with
  | none => s
  | some l => setListOf b.tile b.thr (some { l with jobs := l.jobs.map fun j => if j.id = b.id then { j with fed := j.fed + 1 } else j }) s

/-- Pipeline `k` accepts a block, where one waits and its input queue has room. -/
def acceptBlock (k : Nat) (s : State) : Option State :=
  if 8 ≤ (codecIn s k).length then none
  else
    let l := blocksWaiting s k
    match blockClass s k l with
    | none => none
    | some c => (l.find? fun x => decide (x.1 = c)).map fun x =>
      setCodecIn k (codecIn s k ++ [x.2]) (countFed x.2 (if c = 0 then s else grantTo (64 + k) c s))

/-- A pipeline accepts what it may; `m` bounds the blocks. -/
def feedPipe (k : Nat) : Nat → State → State
  | 0, s => s
  | m + 1, s => match acceptBlock k s with
    | some s' => feedPipe k m s'
    | none => s

/-- Pipelines accept what they may. -/
def feedPipes : List Nat → State → State
  | [], s => s
  | k :: ks, s => feedPipes ks (feedPipe k 8 s)

/-- Pipelines of the streams of a tile. -/
def tilePipes (x : Tile) : List Nat := x.dolly.flatMap fun l => l.jobs.filterMap jobPipe

/-- Dolly of a tile issues what it may, C0's transfers first; its blocks enter the codec queues, and DOLLY_PEAK follows
(06 R174, R198). -/
def pumpTile (n : Nat) (s : State) : State :=
  if (tileOf s n).dolly = [] then s
  else
    let t := issueAll n 1 256 (issueAll n 0 256 s)
    peak (tileReg n 0x68) (outstandingOf (fun _ => true) (tileOf t n)) (feedPipes (tilePipes (tileOf t n)) t)

/-- Dolly of every tile in a list issues what it may. -/
def pumpTiles : List Nat → State → State
  | [], s => s
  | n :: ns, s => pumpTiles ns (pumpTile n s)

/-- Dolly of every tile issues what it may. -/
def pumpDolly (s : State) : State := pumpTiles (s.tiles.map (·.1)) s

/-- A list with nothing left to do is dropped. -/
def settleList (l : DollyList) : Option DollyList := if l.ended && decide (l.jobs = []) then none else some l

/-- The list of thread `t` becomes `l`; one with nothing left to do is dropped, and Dolly issues what it may. -/
def putList (n : TileIx) (t : Thr) (l : DollyList) (s : State) : State := pumpDolly (setListOf n t (settleList l) s)

/-- A descriptor that breaks a rule stops its list (06 R173, R198). -/
def dollyError (n : TileIx) (t : Thr) (l : DollyList) (cause : Nat) (s : State) : State :=
  let e := cause + 65536 * (l.pos % 65536)
  let s1 := wrf (tileReg n 0x60) 16 16 1 (wr (tileReg n 0x64) (BitVec.ofNat 32 e) s)
  report ⟨.tile n, false, 4, BitVec.ofNat 64 e, ownerWork s l.owner⟩
    (putList n t { l with ended := true, atReel := none } s1)

/-- The descriptor at the list's position starts with its source at `a`. -/
def dollyBegin (n : TileIx) (t : Thr) (l : DollyList) (d : List Byte) (a : Nat) (s : State) : State :=
  putList n t { l with pos := l.pos + 1, jobs := l.jobs ++ [ddJob s d a (ddOffset l)], atReel := none, ended := ddLast d } s

/-- Device address of an entry of a loaded image's buffer table: an entry in a local store is an offset there (log 25). -/
def bufAddr (l : Loaded) (b : BufEnt) : Nat :=
  if b.kind = 2 then lsAddr ((l.tiles[b.role]?).getD 0) + b.addr else b.addr

/-- The buffer of a handle of reel `r`, by the buffer table of the image that owns the reel (06 R177). -/
def handleAddr (s : State) (r : Nat) (h : BitVec 16) : Option Nat :=
  match (reelOf s r).owner.bind (loadedNum s) with
  | none => none
  | some l => (l.img.buftab[h.toNat]?).map (bufAddr l)

/-- The handle at a source reel is popped, where there is one, and the descriptor starts or is stopped. -/
def dollyPop (n : TileIx) (t : Thr) (l : DollyList) (d : List Byte) (s : State) : State :=
  let r := ddSreel d
  match (reelOf s r).q with
  | [] => putList n t { l with atReel := some r } s
  | h :: q =>
    if (reelOf s r).cons.getLsbD n && popTurn s r n then
      let s1 := setReel r { reelOf s r with q } s
      match handleAddr s r h.h with
      | none => dollyError n t l 3 s1
      | some b =>
        let a := b + ddSrc d
        if a % 16 ≠ 0 then dollyError n t l 2 s1
        else if ddSrcOut s1 d a then dollyError n t l 3 s1
        else dollyBegin n t l d a s1
    else putList n t { l with atReel := some r } s

/-- DOLLY_DESCRIPTOR_START: the next descriptor of thread `t`'s list. -/
def execDollyDescriptorStart (n : TileIx) (t : Thr) (s : State) : Host.Outcome State Fault Refusal :=
  .next (match listOf (tileOf s n) t with
    | none => s
    | some l =>
      if l.ended || l.atReel.isSome || fenced s n then s
      else if lsSize < ddOffset l + 32 then dollyError n t l 3 s
      else
        let d := memRead s (lsAddr n + ddOffset l) 32
        if ddFence d && decide (l.jobs ≠ []) then s
        else if ddCheck s d ≠ 0 then dollyError n t l (ddCheck s d) s
        else if ddSrcReel d then
          (if (reelOf s (ddSreel d)).cons.getLsbD n then dollyPop n t l d s
          else reelReject n (ddSreel d) (ownerWork s l.owner)
            (putList n t { l with atReel := some (ddSreel d) } s))
        else dollyBegin n t l d (ddSrc d) s)

/-- DOLLY_REEL_POP: a handle has appeared at the reel that a list waits at. -/
def execDollyReelPop (n : TileIx) (t : Thr) (s : State) : Host.Outcome State Fault Refusal :=
  .next (match listOf (tileOf s n) t with
    | none => s
    | some l =>
      if l.atReel.isSome then dollyPop n t l (memRead s (lsAddr n + ddOffset l) 32) s else s)

/-- Poison marks of `len` bytes at `src` follow them to `dst`; through the alias, and out of the local store of a fenced tile,
they cover all of it. -/
def copyMarks (marks : Tab Bool) (src dst len : Nat) : List (Nat × Bool) → State → State
  | [], s => s
  | (k, _) :: ks, s =>
    copyMarks marks src dst len ks
      (if src ≤ k ∧ k < src + len then memMark (dst + (k - src)) 1 s else s)

/-- One transfer takes place (06 R176). -/
def doXfer (m : DollyMove) (x : Xfer) (s : State) : State :=
  match m with
  | .fill p => devWrite x.dst ((List.range (x.len / 4)).flatMap fun _ => leBytes 4 p.toNat) s
  | _ =>
    let bs := devRead s x.src x.len
    let bad := devPoisoned s x.src x.len
    let s0 := devTouch x.src x.len s
    let marks := s0.mem.poison
    let s1 := devWrite x.dst bs s0
    if bad && !inAlias x.dst && !inFenced s x.dst then
      let s2 := memTouch x.dst x.len s1
      if inAlias x.src || inFenced s x.src then memMark x.dst x.len s2 else copyMarks marks x.src x.dst x.len marks s2
    else s1

/-- A controller holds an access that a transfer makes (07 R202, R226). -/
def xferHeld (m : DollyMove) (x : Xfer) (s : State) : Bool :=
  (match m with
    | .fill _ => false
    | _ => accessHeld s x.src) || accessHeld s x.dst

/-- The block of a codec transfer lies at the front of its pipeline's output queue. -/
def blockOut (s : State) (n : Nat) (t : Thr) (j : DollyJob) (x : Xfer) : Bool :=
  match jobPipe j with
  | none => false
  | some k => match codecOut s k with
    | [] => false
    | o :: _ => decide (o.blk.tile.val = n) && decide (o.blk.thr = t) && decide (o.blk.id = j.id) && decide (o.blk.blk = x.blk) &&
        !accessHeld s o.dst

/-- The request of a transfer in its reorder queue issues next; a transfer of other memory has none. -/
def requestNext (s : State) (n : Nat) (t : Thr) (side len : Nat) : Bool :=
  decide (hbmSize ≤ side) ||
    (match rqPick s (pcOf s side) with
    | some r => decide (r.tile.val = n) && decide (r.thr = t) && decide (r.addr = side) && decide (r.len = len)
    | none => false)

/-- A transfer may be acknowledged now. -/
def ackable (s : State) (n : Nat) (t : Thr) (j : DollyJob) (x : Xfer) : Bool :=
  if (jobPipe j).isSome then blockOut s n t j x else !xferHeld j.move x s && requestNext s n t (xferSide j.move x) x.len

/-- The first transfer outstanding that may be acknowledged: its job, itself, and the jobs without it. -/
def takeXfer (f : DollyJob → Xfer → Bool) : List DollyJob → Option (DollyJob × Xfer × List DollyJob)
  | [] => none
  | j :: js => match j.outstanding.find? (f j) with
    | some x => some (j, x, { j with outstanding := j.outstanding.erase x } :: js)
    | none => (takeXfer f js).map fun r => (r.1, r.2.1, j :: r.2.2)

/-- A block that an engine has put out is written to its destination. -/
def writeBlock (o : CodecOut) (s : State) : State :=
  let t := devWrite o.dst o.bytes s
  if o.bad && !inFenced s o.dst then memMark o.dst o.bytes.length (memTouch o.dst o.bytes.length t) else t

/-- The request of a transfer leaves its reorder queue. -/
def issueRequest (side : Nat) (s : State) : State :=
  if hbmSize ≤ side then s
  else match rqPick s (pcOf s side) with
    | some r => rqIssue (pcOf s side) r s
    | none => s

/-- What the acknowledgement of a transfer does: its bytes are written; with the last transfer of a codec block the block is. -/
def ackXfer (j : DollyJob) (x : Xfer) (s : State) : State :=
  match jobPipe j with
  | none => issueRequest (xferSide j.move x) (doXfer j.move x s)
  | some k =>
    if (j.outstanding.erase x).any fun y => decide (y.blk = x.blk) then s
    else match codecOut s k with
      | [] => s
      | o :: os => setCodecOut k os (writeBlock o s)

/-- DOLLY_TRANSFER_ACK: a transfer outstanding of a thread is acknowledged at its destination, the first whose turn it is at its
pseudo-channel or codec engine. -/
def execDollyTransferAck (n : TileIx) (a : XferAck) (s : State) : Host.Outcome State Fault Refusal :=
  .next (match listOf (tileOf s n) a.thr with
    | none => s
    | some l => match takeXfer (ackable s n a.thr) l.jobs with
      | none => s
      | some (j, x, jobs) => bankStall n a.lost (putList n a.thr { l with jobs } (ackXfer j x s)))

/-! ### Completion and PUSH (06 R176, R178) -/

/-- The chain that consumes a reel: an unended chain of the owning image with a step on a consumer tile. -/
def reelChain (s : State) (r : Nat) : Option (Chain × Nat) :=
  let x := reelOf s r
  let mine := fun (c : Chain) => !c.ended && decide (x.owner = some c.image) && c.steps.any fun k => x.cons.getLsbD k.tile
  ((s.chains.find? fun c => mine c && c.fired).or (s.chains.find? mine)).map fun c =>
    (c, ((c.steps.find? fun k => x.cons.getLsbD k.tile).map (·.ix)).getD 0)

/-- A push that never waits, behind the waiting pushes of tiles below `lim`, of all tiles for an engine (06 R178, R179): dropped
where the reel is full, and then a schedule violation of its consumer. -/
def enginePush (r lim : Nat) (h : Handle) (s : State) : State :=
  let x := reelOf s r
  if x.q.length + pushesWaiting s r (fun m => decide (m < lim)) < 64 then pushReel r h s
  else
    let s1 := raise directorEvent 1 (bump 0x30038 1 (setReel r { x with ovf := true } s))
    match reelChain s1 r with
    | none => s1
    | some (c, step) => violateFree c.ref step 2 s1

/-- A tile's Dolly pushes a handle: a tile outside the producer set is rejected. -/
def dollyPush (n : TileIx) (l : DollyList) (r : Nat) (h : BitVec 16) (s : State) : State :=
  if (reelOf s r).prod.getLsbD n then enginePush r n (handleBy n l.cls l.owner h) s
  else reelReject n r (ownerWork s l.owner) s

/-- Every transfer and block of a job is done. -/
def jobDone (j : DollyJob) : Bool := decide (j.todo = []) && decide (j.outstanding = [])

/-- DOLLY_DESCRIPTOR_COMPLETE: the first descriptor of the list is complete, and its PUSH is performed. -/
def execDollyDescriptorComplete (n : TileIx) (t : Thr) (s : State) : Host.Outcome State Fault Refusal :=
  .next (match listOf (tileOf s n) t with
    | none => s
    | some l => match l.jobs with
      | [] => s
      | j :: js =>
        if jobDone j then
          let s1 := putList n t { l with jobs := js } s
          match j.push with
          | none => s1
          | some (r, h) => dollyPush n l r h s1
        else s)

/-- LS_SCRUB: the scrub reads every word of a local store; what it finds reaches the device as error events, and the words
stand as they are (04 R133). -/
def execLsScrub (n : TileIx) (s : State) : Host.Outcome State Fault Refusal :=
  .next (if rdf s (tileReg n 0x28) 15 0 = 0 then s
    else runToClk ((s.clk / (rdf s (tileReg n 0x28) 15 0 * ticksMs) + 1) * (rdf s (tileReg n 0x28) 15 0 * ticksMs)) s)

/-! ### Codec blocks (07 R216–R222) -/

/-- The stream of a block at an engine. -/
def blockStream (s : State) (b : CodecBlk) : Option DollyJob :=
  match listOf (tileOf s b.tile) b.thr with
  | none => none
  | some l => l.jobs.find? fun j => decide (j.id = b.id)

/-- The stream of a block with new contents. -/
def setStream (b : CodecBlk) (f : DollyJob → DollyJob) (s : State) : State :=
  match listOf (tileOf s b.tile) b.thr with
  | none => s
  | some l => setListOf b.tile b.thr (some { l with jobs := l.jobs.map fun j => if j.id = b.id then f j else j }) s

/-- The block at the front of pipeline `k` and its stream, where the engine may handle it now: the part has the engine, the output
queue has room, and no controller holds an access to `src` or `dst`. -/
def codecHead (s : State) (k src dst : Nat) : Option (CodecBlk × DollyJob) :=
  match codecIn s k with
  | [] => none
  | b :: _ => match blockStream s b with
    | none => none
    | some j =>
      if engineThere (k / 2) && decide (j.stream.src = src) && decide (j.stream.dst = dst) && decide ((codecOut s k).length < 8) &&
          !accessHeld s src && !accessHeld s dst then some (b, j) else none

/-- The block at the front of pipeline `k` moves to the output queue, the stream goes on at `src` and `dst` with `raw` bytes
less to come, and the pipeline accepts another block. -/
def putOut (k : Nat) (b : CodecBlk) (o : CodecOut) (j : DollyJob) (src dst raw : Nat) (s : State) : State :=
  feedPipe k 8
    (setCodecOut k (codecOut s k ++ [o])
      (setCodecIn k ((codecIn s k).drop 1)
        (setStream b (fun y => { y with stream := ⟨src, dst, j.stream.len - raw, 0⟩ }) s)))

/-- CODEC_BLOCK_ENCODE: engine `e` encodes the block of `len` raw bytes at `src`, whose turn it is, for `dst`. -/
def execCodecBlockEncode (e : Fin 16) (src dst len : Nat) (s : State) : Host.Outcome State Fault Refusal :=
  .next (match codecHead s (2 * e.val) src dst with
    | none => s
    | some (b, j) =>
      if len ≠ min 4096 j.stream.len then s
      else
        let c := codecEncode (devRead s src len)
        codecCount e len c.1.length c.2
          (putOut (2 * e.val) b ⟨b, dst, c.1, devPoisoned s src len⟩ j (src + len) (dst + c.1.length) len (devTouch src len s)))

/-- A stream ends at a block: the transfers of later blocks, and later blocks in the queue, are dropped. -/
def endStream (k : Nat) (b : CodecBlk) (s : State) : State :=
  setCodecIn k ((codecIn s k).filter fun x => decide (x.tile ≠ b.tile) || decide (x.thr ≠ b.thr) || decide (x.id ≠ b.id))
    (setStream b (fun j => { j with todo := [], outstanding := j.outstanding.filter fun x => decide (x.blk ≤ b.blk) }) s)

/-- The block at `src` passes every check: its raw bytes enter the output queue, with poison where any byte read is poisoned. -/
def decodeGood (e : Nat) (b : CodecBlk) (j : DollyJob) (src dst size : Nat) (raw : List Byte) (s : State) : State :=
  let out := raw.take j.stream.len
  codecCount e raw.length size false
    (putOut (2 * e + 1) b ⟨b, dst, out, devPoisoned s src size⟩ j (src + size) (dst + out.length) out.length (devTouch src size s))

/-- The block at `src` fails a check: RAWLEN poisoned bytes enter the output queue, counted and reported. -/
def decodeBad (e : Fin 16) (b : CodecBlk) (j : DollyJob) (src dst size rawLen : Nat) (s : State) : State :=
  let n := min rawLen j.stream.len
  report ⟨.codec e, false, 1, BitVec.ofNat 64 src, .none⟩
    (codecKib (0x90104 + 16 * e) (2 * e + 1) size
      (bump (0x9010C + 16 * e) 1
        (putOut (2 * e + 1) b ⟨b, dst, zeros n, true⟩ j (src + size) (dst + n) n (devTouch src size s))))

/-- CODEC_BLOCK_DECODE: engine `e` checks and decodes the block at `src`, whose turn it is, for `dst`; a block that fails a check
gives RAWLEN poisoned bytes, and a PAYLEN past the end of HBM stops the stream (07 R222; log 26). A stream never gives more
than ROWLEN bytes (log 105). -/
def execCodecBlockDecode (e : Fin 16) (src dst : Nat) (s : State) : Host.Outcome State Fault Refusal :=
  .next (match codecHead s (2 * e.val + 1) src dst with
    | none => s
    | some (b, j) =>
      let hdr := devRead s src 16
      let size := 16 + codecPayLen hdr
      if hbmSize < src + size then endStream (2 * e.val + 1) b (decodeBad e b j src dst 16 (codecRawLen hdr) s)
      else match codecDecode (devRead s src size) with
        | some raw => decodeGood e b j src dst size raw s
        | none => decodeBad e b j src dst size (codecRawLen hdr) s)

end Sys2Proof.Machine
end

