-- ==== Sys2Proof/Machine/Ledger.lean ====
section
/-! DEFINITION. The recovery ledger and the main-domain reset: commits, the copy as the host sees it, and what a reset
keeps (14 R412, R416–R420; 16 R461, R462). -/

namespace Sys2Proof.Machine

/-! ### Entries and commits (14 R418, R419) -/

/-- The entry of pair `p` as it stands. -/
def ledgerEntry (s : State) (p : Nat) : LedgerPair :=
  match s.flights.find? fun f => decide (f.ref.pair.val = p) with
  | some f =>
    { done := f.ref.idx, horizon := (pairOf s p).horizon, tag := dTag f.desc, cls := BitVec.ofNat 3 (dClass f.desc),
      consumed := true, enabled := pairActive s p }
  | none => { done := sqCons s p, horizon := (pairOf s p).horizon, enabled := pairActive s p }

/-- Every entry that is not all 0. A pair that has never been enabled has none. -/
def ledgerPairs (s : State) : Tab LedgerPair :=
  (s.pairs.map fun x => (x.1, ledgerEntry s x.1)).filter fun x => decide (x.2 ≠ {})

/-- Serial order modulo 2^32: `a` is later than `b`. -/
def serialAfter (a b : Word) : Bool := decide (a ≠ b) && decide ((a - b).toNat < 2 ^ 31)

/-- The current copy, and whether it is B. -/
def currentCopy (h : Holdover) : Option (LedgerCopy × Bool) :=
  match h.copyA, h.copyB with
  | none, none => none
  | some a, none => some (a, false)
  | none, some b => some (b, true)
  | some a, some b => if serialAfter b.gen a.gen then some (b, true) else some (a, false)

/-- The last 64 fault-log entries, oldest first, `n` from the last. -/
def logTail (s : State) (q : Nat) : Nat → List (List Word)
  | 0 => []
  | n + 1 =>
    let base := 0x51000 + 32 * ((q + 65536 - (n + 1)) % 256)
    ((List.range 8).map fun i => (tabFind s.regs (base + 4 * i)).getD 0) :: logTail s q n

/-- A commit: a whole copy, to the one that is not current (14 R419). -/
def ledgerCommit (s : State) : State :=
  let cur := currentCopy s.hold
  let gen : Word := match cur with
    | some c => c.1.gen + 1
    | none => 0
  let toB := match cur with
    | some c => !c.2
    | none => false
  let q := rdf s 0x50028 15 0
  let c : LedgerCopy :=
    { gen, boot := BitVec.ofNat 16 s.hold.bootCount, sag := rdb s gafferStatus 0, sec := s.time.counter.sec.setWidth 32,
      ns := s.time.counter.ns, logSeq := BitVec.ofNat 16 q, pairs := ledgerPairs s, tail := logTail s q 64 }
  wr 0x50044 gen
    { s with hold := (if toB then { s.hold with copyB := some c } else { s.hold with copyA := some c }),
             fault := { s.fault with dirty := false } }

/-- LEDGER_COMMIT: a commit is made while any entry has changed (14 R419). -/
def execLedgerCommit (s : State) : Host.Outcome State Fault Refusal := .next (if s.fault.dirty then ledgerCommit s else s)

/-- The HORIZON of a pair returns to 0, as its indices do, and the ledger is committed (03 R80, 14 R419). -/
def ledgerZero : List Nat → State → State
  | [], s => ledgerCommit s
  | p :: ps, s => ledgerZero ps (setPair p { pairOf s p with horizon := 0 } s)

/-! ### The copy in memory form (14 R418) -/

/-- Header of a copy without its CRC. -/
def copyHeader (c : LedgerCopy) : List Byte :=
  leBytes 4 0x1ED6E201 ++ leBytes 4 c.gen.toNat ++ leBytes 2 c.boot.toNat ++ leBytes 1 (bnat c.sag) ++ zeros 1 ++
    leBytes 4 c.sec.toNat ++ leBytes 4 c.ns.toNat ++ leBytes 2 c.logSeq.toNat ++ zeros 2

/-- A pair's 16 bytes. -/
def copyPair (x : LedgerPair) : List Byte :=
  leBytes 2 x.done.toNat ++ leBytes 2 x.horizon.toNat ++ leBytes 4 x.tag.toNat ++
    leBytes 1 (x.cls.toNat + 64 * bnat x.consumed + 128 * bnat x.enabled) ++ zeros 7

/-- A copy but for its header. -/
def copyBody (c : LedgerCopy) : List Byte :=
  ((List.range 256).flatMap fun p => copyPair (tabGet (fun _ => {}) c.pairs p)) ++
    c.tail.flatMap fun e => e.flatMap fun w => leBytes 4 w.toNat

/-- The 6,176 bytes of a copy. -/
def copyBytes (c : LedgerCopy) : List Byte :=
  let h := copyHeader c
  let b := copyBody c
  h ++ leBytes 4 (crc32 (h ++ zeros 8 ++ b)) ++ zeros 4 ++ b

/-- Words of a list of bytes written to consecutive registers; words of 0 are left out. -/
def wrBytes (o : Nat) : Nat → List Byte → State → State
  | 0, _, s => s
  | n + 1, bs, s =>
    wrBytes (o + 4) n (bs.drop 4) (if leAt bs 0 4 = 0 then s else wr o (BitVec.ofNat 32 (leAt bs 0 4)) s)

/-! ### The real-time clock (02 R67) -/

/-- Units of the 32.768 kHz clock since the PTP epoch, now. -/
def rtcNow (s : State) : Nat := s.hold.rtc + (s.clk - s.hold.rtcAt) * 32768 / ticksS

/-! ### Main-domain reset (14 R412; 16 R461, R462) -/

/-- The main domain goes into reset: only the holdover domain, the flash, the fuses, the TAP and the pins keep their
state. The cause latched is the first to arrive. -/
def mainReset (cause : Nat) (s : State) : State :=
  if s.board.inReset then s
  else
    { State.reset with
      clk := s.clk, hold := { s.hold with cause },
      mgmt := { MgmtS.reset with
        flash := s.mgmt.flash, rowsMfw := s.mgmt.rowsMfw, rowsDmc := s.mgmt.rowsDmc, revoked := s.mgmt.revoked,
        jtagMode := s.mgmt.jtagMode, unlocked := s.mgmt.unlocked, ir := s.mgmt.ir, nonce := s.mgmt.nonce,
        scanHold := s.mgmt.scanHold, mfw := none, dmc := none, table := [] },
      board := { s.board with inReset := true, avs := none, aboveFrom := none },
      free := s.free, out := s.out, pending := s.pending }

/-- The ledger is committed, then the main domain reset (16 R461). -/
def commitReset (cause : Nat) (s : State) : State := if s.board.inReset then s else mainReset cause (ledgerCommit s)

end Sys2Proof.Machine
end

