-- ==== Sys2Proof/Machine/Boot.lean ====
section
/-! DEFINITION. The boot chain: the boot configuration and images in flash, slots, anti-rollback floors, firmware pairs,
the holdover check and the boot itself (14 R417; 15 R423–R440). -/

namespace Sys2Proof.Machine

/-! ### Flash and the boot configuration (15 R423, R424) -/

/-- `n` bytes of the flash; an erased byte reads 0xFF. -/
def flashRead (m : MgmtS) (a n : Nat) : List Byte := tabGetMany (fun _ => 0xFF) m.flash a n
/-- Bytes written to the flash. -/
def flashWrite (a : Nat) (bs : List Byte) (m : MgmtS) : MgmtS := { m with flash := tabSetMany (fun _ => 0xFF) m.flash a bs }

/-- A boot configuration: GEN, ACTIVE (true is B), TRIAL, TRIES. -/
structure BootCfg where
  gen : Word
  active : Bool
  trial : Bool
  tries : Nat
  deriving DecidableEq, Repr

/-- Copy `k`, where its MAGIC and CRC are valid. -/
def cfgCopy (m : MgmtS) (k : Nat) : Option BootCfg :=
  let bs := flashRead m (0x1000 * k) 64
  if leAt bs 0 4 = 0x0C11C0F6 ∧ leAt bs 60 4 = crc32 (bs.take 60) then
    some ⟨BitVec.ofNat 32 (leAt bs 4 4), (leAt bs 8 1).testBit 0, (leAt bs 8 1).testBit 1, leAt bs 9 1 % 4⟩
  else none

/-- The current configuration and the copy that the next update writes; what a device without one boots with. -/
def currentCfg (m : MgmtS) : BootCfg × Nat :=
  match cfgCopy m 0, cfgCopy m 1 with
  | some a, some b => if serialAfter b.gen a.gen then (b, 0) else (a, 1)
  | some a, none => (a, 1)
  | none, some b => (b, 0)
  | none, none => (⟨0, false, false, 0⟩, 0)

/-- Neither copy is valid. -/
def noCfg (m : MgmtS) : Bool := (cfgCopy m 0).isNone && (cfgCopy m 1).isNone

/-- The configuration is updated: the other copy, GEN + 1. -/
def writeCfg (active trial : Bool) (tries : Nat) (m : MgmtS) : MgmtS :=
  let c := currentCfg m
  let bs := leBytes 4 0x0C11C0F6 ++ leBytes 4 (c.1.gen.toNat + 1) ++ leBytes 1 (bnat active + 2 * bnat trial) ++ leBytes 1 tries ++
    zeros 50
  flashWrite (0x1000 * c.2) (bs ++ leBytes 4 (crc32 bs)) m

/-- Flash offset of a region: A MFW, A DMC, B MFW, B DMC for 0–3. -/
def regionAt (k : Nat) : Nat := 0x100000 + k / 2 * 0x800000 + k % 2 * 0x400000

/-! ### Floors (15 R432–R434) -/

/-- The fuse floor of MFW or DMC. -/
def fuseFloor (m : MgmtS) (dmc : Bool) : Nat := ((if dmc then m.rowsDmc else m.rowsMfw).getLast?).getD 0
/-- The mirror floor; 0 without a mirror. -/
def mirrorFloor (h : Holdover) (dmc : Bool) : Nat := match h.mirror with
  | some p => if dmc then p.2 else p.1
  | none => 0
/-- The effective floor. -/
def floorOf (s : State) (dmc : Bool) : Nat := max (fuseFloor s.mgmt dmc) (mirrorFloor s.hold dmc)

/-- MGMT.SVN and MGMT.FUSE_FLOOR (15 R454). -/
def setFloorRegs (s : State) : State :=
  let svn := fun (r : Option Running) => match r with
    | some x => x.svn
    | none => 0
  wr 0xE0020 (BitVec.ofNat 32 (fuseFloor s.mgmt false + 256 * fuseFloor s.mgmt true + 65536 * (16 - s.mgmt.rowsMfw.length) +
      2 ^ 21 * (16 - s.mgmt.rowsDmc.length) + 2 ^ 26 * s.mgmt.revoked.toNat))
    (wr 0xE001C (BitVec.ofNat 32 (svn s.mgmt.mfw + 256 * svn s.mgmt.dmc + 65536 * floorOf s false + 2 ^ 24 * floorOf s true)) s)

/-! ### Images (15 R425, R426, R436) -/

/-- Entry of a tested-pair table. -/
def pairEnt (bs : List Byte) : PairEnt := ⟨leAt bs 0 1, leAt bs 1 1, leAt bs 4 2, leAt bs 6 2, leAt bs 8 2⟩

/-- The entry follows the layout. -/
def pairEntOk (bs : List Byte) : Bool :=
  decide (1 ≤ leAt bs 0 1) && decide (leAt bs 0 1 ≤ 5) && decide (1 ≤ leAt bs 1 1) && decide (leAt bs 1 1 ≤ 5) &&
    decide (leAt bs 2 2 = 0) && decide (leAt bs 10 6 = 0)

/-- Entries of a table, 16 bytes each. -/
def tableEnts (bs : List Byte) : Nat → List (List Byte)
  | 0 => []
  | n + 1 => bs.take 16 :: tableEnts (bs.drop 16) n

/-- The tested-pair table of an MFW image's bytes. -/
def imageTable (bs : List Byte) : List (List Byte) := tableEnts (bs.drop (256 + leAt bs 28 4)) (leAt bs 24 2)

/-- Every header field is as R425 lists it, for a region's kind. -/
def headerOk (bs : List Byte) (dmc : Bool) : Bool :=
  decide (leAt bs 0 4 = 0x0C11B007) && decide (leAt bs 4 1 = 1 + bnat dmc) && decide (leAt bs 5 1 = 1) &&
    decide (leAt bs 6 1 < 4) && decide (leAt bs 7 1 < 4) && decide (leAt bs 13 1 = 0) && decide (leAt bs 16 4 % 16 = 0) &&
    decide (leAt bs 16 4 ≤ 0x400000 - 352) && decide (leAt bs 26 2 = 0) && decide (leAt bs 128 128 = 0) &&
    (if dmc then decide (leAt bs 24 2 = 0) && decide (leAt bs 28 4 = 0)
      else decide (leAt bs 20 4 = 0) && decide (1 ≤ leAt bs 24 2) && decide (leAt bs 24 2 ≤ 256) && decide (leAt bs 28 4 % 16 = 0))

/-- An image judged under R426: the code of MGMT.IMG_FAIL, 0 where it is valid. `keyOk` says that the hash of its key is
the fused one, `sigOk` that its signature verifies. -/
def imageFail (s : State) (bs : List Byte) (dmc keyOk sigOk : Bool) : Nat :=
  if ¬ headerOk bs dmc then 1
  else if leAt bs 14 2 ≠ (Config.chipId.toNat / 65536) then 2
  else if ¬ keyOk ∨ s.mgmt.revoked.getLsbD (leAt bs 6 1) then 3
  else if ¬ sigOk then 4
  else if leAt bs 12 1 < floorOf s dmc then 5
  else if dmc = false ∧ (leAt bs 16 4 < leAt bs 28 4 + 16 * leAt bs 24 2 ∨ ¬ (imageTable bs).all pairEntOk) then 6
  else 0

/-- The image at flash offset `a`, header and body; the header alone where its length is not one that a region holds. -/
def imageBytes (m : MgmtS) (a : Nat) : List Byte :=
  let n := leAt (flashRead m (a + 16) 4) 0 4
  flashRead m a (256 + if n ≤ 0x400000 - 352 then n else 0)

/-- An image as it runs. -/
def runningOf (slot : Bool) (bs : List Byte) : Running :=
  { slot, version := BitVec.ofNat 32 (leAt bs 8 4), svn := leAt bs 12 1, keyIndex := leAt bs 6 1,
    fuseFloor := (leAt bs 7 1).testBit 0, revoke := (leAt bs 7 1).testBit 1, abi := BitVec.ofNat 32 (leAt bs 20 4), bytes := bs }

/-! ### Firmware pairs (15 R436–R438) -/

/-- A version key: bits [31:16]. -/
def verKey (w : Word) : Nat := w.toNat / 65536

/-- The pair (kind a with key x, kind b with key y) is tested. -/
def tested (t : List PairEnt) (a x b y : Nat) : Bool :=
  t.any fun e => decide (e.kindA = a) && decide (e.aVer = x) && decide (e.kindB = b) && decide (e.bMin ≤ y) && decide (y ≤ e.bMax)

/-- Reason bits of BOOT_STATUS for the boot pairs: [8] to [10]. -/
def untestedBits (m : MgmtS) : Nat :=
  let si := Config.chipId.toNat % 65536
  match m.mfw, m.dmc with
  | some f, some d =>
    256 * bnat (!tested m.table 1 (verKey f.version) 2 (verKey d.version)) +
      512 * bnat (!tested m.table 1 (verKey f.version) 3 si) + 1024 * bnat (!tested m.table 2 (verKey d.version) 3 si)
  | some f, none => 512 * bnat (!tested m.table 1 (verKey f.version) 3 si)
  | _, _ => 0

/-- Debug codes are available in this boot (15 R450, R453). -/
def debugOpen (m : MgmtS) : Bool := decide (m.jtagMode = 0) || (decide (m.jtagMode = 1) && m.unlocked)

/-! ### Commit (15 R431, R434) -/

/-- One kind's floors are raised: mirror, then fuse row; whether a row was written. -/
def raiseFloor (dmc : Bool) (r : Option Running) (s : State) : State × Bool :=
  match r with
  | none => (s, false)
  | some x =>
    let m := s.hold.mirror.getD (0, 0)
    let m2 := if dmc then (m.1, max m.2 x.svn) else (max m.1 x.svn, m.2)
    let s1 : State := { s with hold := { s.hold with mirror := some m2 } }
    let rows := if dmc then s.mgmt.rowsDmc else s.mgmt.rowsMfw
    if x.fuseFloor = true ∧ fuseFloor s.mgmt dmc < x.svn ∧ rows.length < 16 then
      ({ s1 with mgmt := (if dmc then { s1.mgmt with rowsDmc := rows ++ [x.svn] } else { s1.mgmt with rowsMfw := rows ++ [x.svn] }) },
        true)
    else (s1, false)

/-- Key slots below the KEY_INDEX of a REVOKE image are revoked. -/
def revokeKeys (r : Option Running) (s : State) : State :=
  match r with
  | some x => if x.revoke then
      { s with mgmt := { s.mgmt with revoked := s.mgmt.revoked ||| BitVec.ofNat 4 (2 ^ x.keyIndex - 1) } } else s
  | none => s

/-- The boot commits, once, when the device is in RUN without an accepted pair and the lock is set (15 R431). -/
def bootCommit (s : State) : State :=
  if rdf s bootStatus 1 0 = 2 ∧ untested s = false ∧ locked s = true ∧ rdb s bootStatus 15 = false then
    let c := (currentCfg s.mgmt).1
    let s1 : State :=
      if c.trial ∨ noCfg s.mgmt then { s with mgmt := writeCfg c.active false c.tries s.mgmt } else s
    let f := raiseFloor false s1.mgmt.mfw s1
    let d := raiseFloor true f.1.mgmt.dmc f.1
    let s2 := revokeKeys s.mgmt.dmc (revokeKeys s.mgmt.mfw d.1)
    setFloorRegs (wrf bootStatus 15 15 1 (wrf bootStatus 14 14 (bnat (f.2 || d.2)) (wrf 0xE0024 1 1 0 s2)))
  else s

/-! ### The holdover check (14 R417) -/

/-- The domain is checked at reset release, then written anew. -/
def holdoverCheck (s : State) : State :=
  let h := s.hold
  let cur := currentCopy h
  let ok := h.intact && h.canary && cur.isSome
  let count := if ok then h.bootCount + 1 else 1
  let curB := match cur with
    | some c => c.2
    | none => false
  let st := bnat ok + 2 * bnat h.intact + 4 * bnat h.canary + 8 * bnat h.copyA.isSome + 16 * bnat h.copyB.isSome +
    32 * bnat curB + 256 * h.cause
  let s1 := wr 0x50048 (BitVec.ofNat 32 count) (wr 0x50040 (BitVec.ofNat 32 st) s)
  let s2 := match ok, cur with
    | true, some c => wrBytes 0x54000 1544 (copyBytes c.1) s1
    | _, _ => raise faultEvent 6 s1
  let fresh : LedgerCopy :=
    { gen := 0, boot := BitVec.ofNat 16 count, sag := false, sec := 0, ns := 0, logSeq := 0, pairs := [], tail := [] }
  { s2 with hold := { h with
      intact := true, canary := true, copyA := some fresh, copyB := none, bootCount := count, rtc := rtcNow s, rtcAt := s.clk,
      rtcCoarse := h.rtcCoarse || !ok,
      mirror := if ok then h.mirror else some (fuseFloor s.mgmt false, fuseFloor s.mgmt true) } }

/-- A follower's lag after calibration: any value within ±0.5 ns of Polwen die 0 (02 R38; log 102). -/
def freeLag (v : Dword) : Int := (v.toNat % (unitsNs + 1) : Nat) - (unitsNs / 2 : Nat)

/-- The followers are calibrated, and HO_OSC_IN is noted to be nearer 10 or 20 MHz: what they come to is free (log 1). -/
def calibrate (s : State) : State :=
  { s with time := { s.time with lag1 := freeLag (Config.freeValue s.free), lagMain := freeLag (Config.freeValue (s.free + 1)),
                                 osc20 := (Config.freeValue (s.free + 2)).getLsbD 0 },
           free := s.free + 3 }

/-- Time is seeded from the real-time clock (02 R39, R67, R70). -/
def seedTime (ok : Bool) (s : State) : State :=
  let coarse := s.hold.rtcCoarse
  wr timeStatus (BitVec.ofNat 32 (bnat (ok && !coarse) + 0x40 + 0x80 * bnat coarse))
    { s with time := { s.time with counter := counterAt (s.hold.rtc * unitsS / 32768) } }

/-! ### The boot (15 R427–R429, R438, R453) -/

/-- An image is looked for in slot `first`, then in the other: the one that runs, IMG_FAIL with the codes of the slots
tried, and whether it came from the second. -/
def chooseImage (s : State) (dmc first : Bool) (sigs : List (Bool × Bool)) (fails : Nat) : Option Running × Nat × Bool :=
  let judge := fun (slot : Bool) =>
    let k := 2 * bnat slot + bnat dmc
    let bs := imageBytes s.mgmt (regionAt k)
    let g := (sigs[k]?).getD (false, false)
    (imageFail s bs dmc g.1 g.2, bs, k)
  let a := judge first
  if a.1 = 0 then (some (runningOf first a.2.1), fails, false)
  else
    let f1 := fails + a.1 * 16 ^ a.2.2
    let b := judge (!first)
    if b.1 = 0 then (some (runningOf (!first) b.2.1), f1, true) else (none, f1 + b.1 * 16 ^ b.2.2, false)

/-- HBM is trained: STATUS.TRAINED of every controller (07 R202). -/
def trainAll : Nat → State → State
  | 0, s => s
  | n + 1, s => trainAll n (wrf (hbmReg n 8) 0 0 1 s)

/-- Version of an image that runs, 0 for none; and its slot. -/
def runVersion : Option Running → Word
  | some x => x.version
  | none => 0
def runSlot : Option Running → Bool
  | some x => x.slot
  | none => false
def runAbi : Option Running → Word
  | some x => x.abi
  | none => 0

/-- Reset release to the end of the holdover check, with the registers of the straps and the JTAG mode. -/
def bootStart (s : State) : State :=
  let ok := s.hold.intact && s.hold.canary && (currentCopy s.hold).isSome
  let s1 := calibrate (seedTime ok (holdoverCheck { s with board := { s.board with inReset := false } }))
  wr 0xE00C0 (BitVec.ofNat 32 (s1.mgmt.jtagMode + 4 * bnat s1.mgmt.unlocked))
    (wr 0xE00A0 (BitVec.ofNat 32 (0x30 + s1.board.straps.toNat % 4)) (wr 0x18 (s1.board.straps.setWidth 32) s1))

/-- ACTIVE, TRIAL and TRIES that a boot uses: a trial without tries left reverts (15 R428). -/
def bootChoice (m : MgmtS) : Bool × Bool × Nat :=
  let c := (currentCfg m).1
  (if c.trial ∧ c.tries = 0 then !c.active else c.active, c.trial && decide (c.tries ≠ 0), if c.trial then c.tries - 1 else c.tries)

/-- The configuration as a boot under a trial leaves it. -/
def bootCount (m : MgmtS) : MgmtS :=
  if (currentCfg m).1.trial then writeCfg (bootChoice m).1 (bootChoice m).2.1 (bootChoice m).2.2 m else m

/-- The MFW image runs, or nothing does. -/
def setMfw (r : Option Running) (s : State) : State :=
  { s with mgmt := { s.mgmt with mfw := r, table := match r with
    | some x => (imageTable x.bytes).map pairEnt
    | none => [] } }

/-- BOOT_STATUS of a boot with running MFW: RUN needs a DMC, tested pairs and no debug (15 R438, R453). -/
def bootStatusWord (m : MgmtS) (holdBad other : Bool) : Word :=
  let bits := untestedBits m
  let dbg := debugOpen m
  BitVec.ofNat 32 ((if bits = 0 ∧ dbg = false ∧ m.dmc.isSome = true then 2 else 1) + 8 * bnat holdBad + bits + 2048 * bnat dbg +
    4096 * bnat m.dmc.isNone + 8192 * bnat other)

/-- The registers that tell a boot. -/
def bootRegs (active trial : Bool) (tries fails : Nat) (status : Word) (s : State) : State :=
  wr 0xE0028 (BitVec.ofNat 32 fails)
    (wr 0xE0024 (BitVec.ofNat 32 (bnat active + 2 * bnat trial + 4 * tries + 32 * bnat (runSlot s.mgmt.mfw) + 64 * bnat (runSlot s.mgmt.dmc)))
      (wr 0xE0018 (runAbi s.mgmt.dmc) (wr 0xE0014 (runVersion s.mgmt.dmc) (wr 0xE0010 (runVersion s.mgmt.mfw)
        (wr bootStatus status s)))))

/-- The second half of a boot, with MFW running: the DMC, the HBM, the pairs and the regulator. -/
def bootDmc (holdBad other : Bool) (fails : Nat) (active trial : Bool) (tries : Nat) (sigs : List (Bool × Bool)) (s : State) :
    State :=
  let d := chooseImage s true active sigs fails
  let s1 : State := { s with mgmt := { s.mgmt with dmc := d.1, beat := s.clk }, board := { s.board with avs := some ⟨750, 720, s.clk⟩ } }
  setFloorRegs (bootRegs active trial tries d.2.1 (bootStatusWord s1.mgmt holdBad (other || d.2.2))
    (emit (.avs 720) (trainAll Config.nStacks s1)))

/-- The whole boot, from reset release to configuration release. `sigs` holds, for the regions A MFW, A DMC, B MFW and B DMC,
whether the key's hash is the fused one and whether the signature verifies. -/
def bootUp (sigs : List (Bool × Bool)) (s : State) : State :=
  let holdBad := !(s.hold.intact && s.hold.canary && (currentCopy s.hold).isSome)
  let s1 := bootStart s
  let c := bootChoice s1.mgmt
  let s2 : State := { s1 with mgmt := bootCount s1.mgmt }
  let f := chooseImage s2 false c.1 sigs 0
  if f.1.isNone ∨ s2.board.straps.getLsbD 2 = false then
    wr 0xE0028 (BitVec.ofNat 32 f.2.1) (setMfw none { s2 with mgmt := { s2.mgmt with recovery := true } })
  else bootDmc holdBad f.2.2 f.2.1 c.1 c.2.1 c.2.2 sigs (setMfw f.1 s2)

end Sys2Proof.Machine
end

