-- ==== Sys2Proof/Machine/Time.lean ====
section
/-! DEFINITION. Device time: offset measurements and the servo, the single step and the scene change, the time states,
PTP messages, 1PPS, the real-time clock and the holdover references (02 R39–R47, R57–R67; 16 R465, R466). -/

namespace Sys2Proof.Machine

/-! ### Sources (02 R59, R70; 13 R383) -/

/-- TIME.SRC_CFG.SRC, PORT and HO_REF. -/
def timeSrc (s : State) : Nat := rdf s srcCfg 1 0
def timePort (s : State) : Nat := rdf s srcCfg 6 4
def hoRef (s : State) : Nat := rdf s srcCfg 9 8
/-- SPLICE.TIME_CFG.FOLLOW and ROOT. -/
def timeFollow (s : State) : Bool := rdb s 0xB0010 0
def timeRoot (s : State) : Bool := rdb s 0xB0010 1
/-- The source is a PTP slave port. -/
def ptpSlave (s : State) : Bool := decide (timeSrc s = 1) || decide (timeSrc s = 2)
/-- Ports of LINE.CFG.MODE (10 R283). -/
def linePorts (s : State) : Nat := match rdf s 0xC0000 1 0 with
  | 0 => 8 | 1 => 4 | 2 => 2 | _ => 0
/-- The line port is within the mode's range and enabled. -/
def lineOn (s : State) (k : Nat) : Bool := decide (k < linePorts s) && rdb s 0xC0000 (8 + k)
/-- Register `o` of fronthaul port `p`, and PORT_CFG.EN (08 R231, R254). -/
def fhReg (p o : Nat) : Nat := 0xD0100 + 0x40 * p + o
def fhPortEn (s : State) (p : Nat) : Bool := rdb s (fhReg p 0) 0
/-- The slave port receives and transmits (08 R231; 10 R283). -/
def slaveEn (s : State) : Bool :=
  (decide (timeSrc s = 1) && lineOn s (timePort s)) || (decide (timeSrc s = 2) && fhPortEn s (timePort s))
/-- STEP_ARMED. -/
def stepArmed (s : State) : Bool := rdb s timeStatus 6

/-- The holdover reference in use: the selected one where it is valid, else the internal time clock (16 R465). -/
def hoRefUsed (s : State) : Nat := if hoRef s ≠ 0 ∧ s.time.refValid.getLsbD (hoRef s - 1) = true then hoRef s else 0

/-! ### The increment (02 R35, R36, R41, R66) -/

/-- Bounds of the total increment: 1.25 ns less and plus 200 ppm, in 2^-42 ns. -/
def incLow : Nat := ceilDiv (5 * 2 ^ 40 * 4999) 5000
def incHigh : Nat := 5 * 2 ^ 40 * 5001 / 5000

/-- The increment registers hold a total of `u` units. -/
def setInc (u : Nat) (s : State) : State :=
  wr 0x20024 (BitVec.ofNat 32 (u / 2 ^ 42 % 256 + u % 1024 * 256)) (wr 0x20020 (BitVec.ofNat 32 (u / 1024)) s)

/-- An increment that the spec leaves open, within the clamp (R41; log 1). -/
def freeInc (s : State) : State := useFree (setInc (incLow + (freshVal s).toNat % (incHigh - incLow + 1)) s)

/-- Pieces of LOCKED time, newest first, cut to `n` ticks in all (R66). -/
def cutLearn : Nat → List (Nat × Nat) → List (Nat × Nat)
  | _, [] => []
  | n, (k, i) :: t => if n = 0 then [] else if n ≤ k then [(n, i)] else (k, i) :: cutLearn (n - k) t

/-- The LOCKED time up to now joins the learning interval. -/
def learnNow (s : State) : State :=
  if timeState s = 3 then
    { s with time := { s.time with
        learn := cutLearn (1000 * ticksS) ((s.clk - s.time.learnFrom, incUnits s) :: s.time.learn), learnFrom := s.clk } }
  else s

/-- The servo holds the average increment over the learning interval; which way a fraction of a unit rounds is a free value
(R66; log 1). -/
def holdAverage (s : State) : State :=
  let n := (s.time.learn.map Prod.fst).sum
  let t := (s.time.learn.map fun x => x.1 * x.2).sum
  if n = 0 then s
  else if t % n = 0 then setInc (t / n) s
  else useFree (setInc (t / n + (freshVal s).toNat % 2) s)

/-- The increment that runs the counter at the reference's current frequency, `cycles` in 1 s of the time clock, times the mean
ratio learnt; which way a fraction of a unit rounds is a free value, and so is the increment before anything is learnt (R66;
log 99). -/
def followRef (cycles : Nat) (s : State) : State :=
  let n := (s.time.learnRef.map Prod.fst).sum * cycles
  let d := (s.time.learnRef.map Prod.snd).sum
  if d = 0 then freeInc s
  else
    let up := if n % d = 0 then 0 else (freshVal s).toNat % 2
    let t := setInc (max incLow (min incHigh (n / d + up))) s
    if n % d = 0 then t else useFree t

/-- Cycles of the reference in the newest interval learnt. -/
def refCycles (s : State) : Nat := match s.time.learnRef with
  | x :: _ => x.2
  | [] => 0

/-- The increment in HOLDOVER: the reference's where an external one is used, else the average (R66). -/
def holdInc (s : State) : State := if hoRefUsed s = 0 then holdAverage s else followRef (refCycles s) s

/-! ### States (02 R39, R43, R51) -/

/-- Grids that are enabled. -/
def enabledGrids (s : State) : BitVec 4 :=
  BitVec.ofNat 4 (bnat (gridEn s 0) + 2 * bnat (gridEn s 1) + 4 * bnat (gridEn s 2) + 8 * bnat (gridEn s 3))

/-- An entry to LOCKED: at the first, TIME_LOCKED is set and the enabled grids start. -/
def enterLocked (s : State) : State :=
  let s1 := wrf timeStatus 5 5 0 (wrf timeStatus 3 3 1 (wrf timeStatus 2 0 3 s))
  raise timeEvent 0
    { s1 with time := { s1.time with
        running := if timeLocked s then s.time.running else enabledGrids s, learnFrom := s.clk, accepted := 0, inWindow := 0 } }

/-- LOCKED becomes HOLDOVER. -/
def enterHoldover (s : State) : State :=
  let s1 := learnNow s
  holdInc (raise timeEvent 2 (wrf timeStatus 2 0 4 { s1 with time := { s1.time with holdSince := s1.clk, accepted := 0 } }))

/-! ### The scene change (02 R46, R47) -/

/-- The first frame of grid `g` that begins at or after `u`, in units. -/
def frameFrom (s : State) (g u : Nat) : Nat :=
  let d : Int := (u : Int) - frameStart s g 0
  (frameStart s g (-((-d) / (frameUnits : Int)))).toNat

/-- t_resume of every running grid for a step at `t1`. -/
def resumeTimes (s : State) (t1 : Nat) : Tab Nat :=
  ((List.range 4).filter (gridRuns s)).map fun g => (g, frameFrom s g (t1 + 20000 * unitsUs))

/-- TIME.STATUS.SCENE_ACTIVE. -/
def sceneActive (s : State) : Bool := rdb s timeStatus 8

/-- A cue of grid `g` at `u` is suppressed. -/
def cueSuppressed (s : State) (g u : Nat) : Bool :=
  sceneActive s && (match tabFind s.time.tResume g with
    | some r => decide (u < r)
    | none => false)

/-- The slot of an uplink chain is remembered as suppressed (R47). -/
def markDark (c : Chain) (s : State) : State :=
  if chainKind c.chain ≤ 1 then
    { s with radio := { s.radio with
        dark := (s.radio.dark.filter fun x => decide (s.clk - x.2 < 1280 * ticksMs)) ++
          [((c.grid.val * 1024 + c.sfn.toNat) * 32 + c.slot.toNat, s.clk)] } }
  else s

/-- A chain that has not fired is dropped, and its descriptor refused with CUE_SUPPRESSED. -/
def suppressChain (c : Chain) (s : State) : State :=
  refuse c.ref 0x33 (dropWindows (fun w => decide (w.ref = c.ref))
    { (markDark c s) with chains := s.chains.filter fun x => decide (x.ref ≠ c.ref) })

/-- Every chain of a running grid is judged: `t0` is the time on the tick before the step. -/
def judgeChains (t0 : Nat) : List Chain → State → State
  | [], s => s
  | c :: cs, s =>
    judgeChains t0 cs
      (if c.ended || !gridRuns s c.grid.val then s
      else if c.fired then
        (if t0 ≤ c.deadline then abortChain c.ref 0x33 0 (deliverFree c.ref (markDark c s)) else s)
      else if c.steps.any fun x => cueSuppressed s c.grid.val x.cue then suppressChain c s
      else s)

/-- A step while a grid runs: the cues before t_resume are suppressed, and the chains judged. -/
def sceneStart (t0 t1 : Nat) (s : State) : State :=
  if s.time.running = 0 then s
  else
    let s1 := raise timeEvent 5 (wrf timeStatus 8 8 1
      { s with time := { s.time with
          tResume := resumeTimes s t1, sceneT1 := t1, fired := s.time.fired.map fun x => (x.1 / 2 * 2 + 1, x.2) } })
    judgeChains t0 s1.chains s1

/-! ### The single step (02 R40, R44) -/

/-- A quotient rounded to the nearest integer, ties to even. -/
def roundDiv (a : Int) (b : Nat) : Int :=
  let q := a / (b : Int)
  let r := a - q * (b : Int)
  if 2 * r < (b : Int) then q else if (b : Int) < 2 * r then q + 1 else if q % 2 = 0 then q else q + 1

/-- The counter moves by `delta` units, and the step is recorded. -/
def applyStep (delta : Int) (s : State) : State :=
  let t0 := counterUnits s.time.counter
  let t1 := (((t0 : Int) + delta) % (wrapUnits : Int)).toNat
  let d := BitVec.ofInt 64 (roundDiv delta unitsNs)
  let c := counterAt t1
  let s1 : State := learnNow s
  let s2 : State := { s1 with time := { s1.time with counter := c, inWindow := 0, accepted := 0, arming := .ptp, ppsSec := none } }
  let s3 := wrMany 0x20050 [c.sec.setWidth 32, c.ns, d.setWidth 32, d.extractLsb' 32 32] (bump 0x20044 1 s2)
  let s4 := raise timeEvent 4 (wrf timeStatus 6 6 0 (wrf timeStatus 4 4 0 s3))
  let s5 := if timeLocked s4 then (if timeState s4 = 3 then s4 else enterLocked s4) else wrf timeStatus 2 0 2 s4
  sceneStart t0 t1 s5

/-- TIME_REARM (R44): mode 1 names the seconds of the next 1PPS edge. -/
def rearm (pps : Bool) (sec : BitVec 48) (s : State) : State :=
  if stepArmed s then
    (if pps then { s with time := { s.time with ppsSec := if s.time.arming = .pps ∨ (ptpSlave s = false ∧ timeFollow s = false) then some sec else s.time.ppsSec } }
    else s)
  else
    wrf timeStatus 6 6 1
      { s with time := { s.time with arming := if pps then .pps else .ptp, ppsSec := if pps then some sec else none } }

/-! ### Measurements (02 R39–R43) -/

/-- TIME.OFFSET: signed ns, saturating; which way a fraction rounds is a free value (log 1). -/
def setOffset (o : Int) (s : State) : State :=
  let q := o / ((2 ^ 32 : Nat) : Int)
  let exact := decide (o % ((2 ^ 32 : Nat) : Int) = 0)
  let v := if exact then q else q + ((freshVal s).toNat % 2 : Nat)
  let t := wr 0x20040 (BitVec.ofInt 32 (clampInt (-2147483648) 2147483647 v)) s
  if exact then t else useFree t

/-- The magnitude of an offset exceeds a limit in ns. -/
def beyond (o : Int) (ns : Nat) : Bool := decide (ns * 2 ^ 32 < o.natAbs)

/-- An offset larger than JUMP_LIMIT is refused (R42), and reported to the fault unit (14 R398). -/
def refuseOffset (s : State) : State :=
  let s1 := raise timeEvent 1 (bump 0x20048 1 (wrf timeStatus 4 4 1
    { s with time := { s.time with accepted := 0 } }))
  let s2 := if timeState s1 = 3 then enterHoldover s1 else s1
  report ⟨.time, true, 1, 0, .none⟩ s2

/-- An accepted offset: the servo corrects by rate, and the state follows R39 and R43. -/
def acceptOffset (o : Int) (s : State) : State :=
  let s1 := freeInc (learnNow (wrf timeStatus 4 4 0 s))
  match timeState s1 with
  | 2 =>
    let n := if beyond o (rd s1 0x20018).toNat then 0 else s1.time.inWindow + 1
    let s2 : State := { s1 with time := { s1.time with inWindow := n } }
    if 16 ≤ n then enterLocked s2 else s2
  | 4 =>
    let s2 : State := { s1 with time := { s1.time with accepted := s1.time.accepted + 1 } }
    if 4 ≤ s2.time.accepted then enterLocked s2 else s2
  | _ => s1

/-- A valid offset measurement, in 2^-32 ns: applied as the armed step, set aside, refused or accepted. -/
def measure (o : Int) (s : State) : State :=
  let s1 := setOffset o s
  if stepArmed s1 then
    (match s1.time.arming with
      | .ptp => applyStep (-(o * 1024)) s1
      | .pps => s1)
  else if timeLocked s1 && beyond o (rd s1 0x20014).toNat then refuseOffset s1
  else acceptOffset o s1

/-- A measurement where one is complete. -/
def measureSome (o : Option Offset) (s : State) : State := match o with
  | some v => measure v s
  | none => s

/-! ### PTP at the slave port (02 R59, R62) -/

/-- The Announce interval of the parent, three of which without an Announce make the source lost: 1/8 s, the interval of this
device's own ports, since R43 names none (log 101). -/
abbrev announceTicks : Nat := ticksS / 8

/-- The source is there again once neither message is overdue. -/
def sourceBack (s : State) : State :=
  if s.clk - s.time.lastAnnounce < 3 * announceTicks ∧ s.clk - s.time.lastSync < ticksS then
    { s with time := { s.time with srcLost := false } } else s

/-- A Sync has arrived. -/
def syncSeen (s : State) : State := sourceBack { s with time := { s.time with lastSync := s.clk } }

/-- A Sync is taken: a one-step one completes a measurement where the path delay is known. -/
def takeSync (twoStep : Bool) (offset : Option Offset) (s : State) : State :=
  if twoStep then syncSeen s else measureSome offset (syncSeen s)

/-- An Announce is taken: the best master becomes the parent (R59, R63). -/
def takeAnnounce (a : Announce) (s : State) : State :=
  let s1 := sourceBack { s with time := { s.time with lastAnnounce := s.clk } }
  if a.best then { s1 with time := { s1.time with parentClass := a.clockClass, parentUtc := some a.utcOffset } } else s1

/-- A frame with a good FCS counts at a fronthaul slave port (08 R232); at a line port its LINE_FRAME_RECEIVE counts it (log 100). -/
def slaveFrame (s : State) : State := if timeSrc s = 2 then bump (fhReg (timePort s) 0x20) 1 s else s

/-- SYNC_MESSAGE_RECEIVE. -/
def execSyncMessageReceive (twoStep : Bool) (offset : Option Offset) (s : State) : Host.Outcome State Fault Refusal :=
  .next (if slaveEn s then takeSync twoStep offset (slaveFrame s) else s)

/-- FOLLOW_UP_RECEIVE: completes the measurement of a two-step Sync. -/
def execFollowUpReceive (offset : Option Offset) (s : State) : Host.Outcome State Fault Refusal :=
  .next (if slaveEn s then measureSome offset (slaveFrame s) else s)

/-- DELAY_RESP_RECEIVE. -/
def execDelayRespReceive (offset : Option Offset) (s : State) : Host.Outcome State Fault Refusal :=
  .next (if slaveEn s then measureSome offset (slaveFrame s) else s)

/-- ANNOUNCE_RECEIVE. -/
def execAnnounceReceive (a : Announce) (s : State) : Host.Outcome State Fault Refusal :=
  .next (if slaveEn s then takeAnnounce a (slaveFrame s) else s)

/-- Port number of the slave port as TIME.PTP_DISCARD counts ports: line 0–7, fronthaul 8–15. -/
def slavePort (s : State) : Nat := if timeSrc s = 2 then 8 + timePort s else timePort s

/-! ### Master ports (02 R57, R58, R63) -/

/-- Fronthaul port `p` is a T-BC master: enabled for frames and for PTP, and not the slave. -/
def fhMaster (s : State) (p : Nat) : Bool :=
  rdb s (0xD0100 + 0x40 * p) 0 && rdb s (0x20100 + 4 * p) 0 && !(decide (timeSrc s = 2) && decide (timePort s = p))

/-- clockClass that the master ports advertise (R63). -/
def clockClass (s : State) : Byte :=
  match timeState s with
  | 3 => if (timeRoot s = true ∧ timeSrc s = 0) ∨ timeFollow s = true then 248
    else if timeSrc s = 3 then 6 else if ptpSlave s then s.time.parentClass else 248
  | 4 => if holdoverExpired s then 165 else 135
  | _ => 248

/-- currentUtcOffset. -/
def utcOffset (s : State) : BitVec 16 := (s.time.parentUtc).getD ((rd s 0x20028).setWidth 16)

/-- The counter by which port `k` timestamps, in units: that of the die that carries it, the line ports' on the main die (01 R14,
R15). -/
def stampUnits (s : State) (k : Nat) : Nat := if k < 8 then nowUnits s else portUnits s (k - 8)

/-- The instant, in 2^-42 ns / 1000, at which a message of type `msg` passes the calibration point of port `k`: a Delay_Resp tells
that of the request, which came in; every other message goes out (R56, R58). -/
def calibrated (s : State) (k msg : Nat) : Nat :=
  ((1000 * (stampUnits s k : Int) + (if msg = 9 then -(rxDelay s k : Int) else txDelay s k) * unitsNs) % (1000 * wrapUnits : Nat)).toNat

/-- Address of a fronthaul port. -/
def fhMac (s : State) (p : Nat) : Nat := (rd s (fhReg p 0xC)).toNat + 2 ^ 32 * rdf s (fhReg p 0x10) 15 0

/-- Source address of PTP frames sent by port `k`: a line port's is LINE.PTP_MAC (10 R321), a fronthaul port's its own. -/
def ptpSource (s : State) (k : Nat) : BitVec 48 :=
  BitVec.ofNat 48 (if 8 ≤ k then fhMac s (k - 8) else (rd s 0xC0008).toNat + 2 ^ 32 * rdf s 0xC000C 15 0)

/-- A PTP message of type `msg` leaves port `k` with the time at the calibration point, its fraction of a ns in 2^-16 ns rounded to
nearest; `peer` selects the destination 01-80-C2-00-00-0E. -/
def sendPtp (k msg : Nat) (peer : Bool) (domain : Byte) (s : State) : State :=
  let u := calibrated s k msg
  let c := counterAt (u / 1000)
  emit (.ptp k peer (ptpSource s k) msg c.sec c.ns (nearest (u % (1000 * unitsNs) * 2 ^ 16) (1000 * unitsNs)) (clockClass s) (utcOffset s) domain) s

/-- FH_PTP_CFG.DOMAIN. -/
def ptpDomain (s : State) (p : Nat) : Byte := BitVec.ofNat 8 (rdf s (0x20100 + 4 * p) 15 8)

/-- FH_PTP_CFG.DA. -/
def ptpPeer (s : State) (p : Nat) : Bool := rdb s (0x20100 + 4 * p) 1

/-- Master port `p` sends; nothing leaves while the state is INVALID or COARSE. -/
def masterSend (p msg : Nat) (s : State) : State :=
  if fhMaster s p && decide (2 ≤ timeState s) then sendPtp (8 + p) msg (ptpPeer s p) (ptpDomain s p) s else s

/-- A PTP message has no use at port `k`: line ports 0–7, fronthaul ports 8–15 (R62). -/
def ptpDiscard (k : Nat) (s : State) : State := bump (0x20120 + 4 * k) 1 s

/-- A PTP message at fronthaul port `p`: a master answers a Delay_Req, the slave port takes what its source sends, every other
message is discarded and counted (R62). -/
def ptpAtPort (p : Nat) (m : PtpMsg) (s : State) : State :=
  if timeSrc s = 2 ∧ timePort s = p then
    (match m with
      | .sync two o => takeSync two o s
      | .followUp o => measureSome o s
      | .delayResp o => measureSome o s
      | .announce a => takeAnnounce a s
      | .delayReq => ptpDiscard (8 + p) s
      | .other _ => ptpDiscard (8 + p) s)
  else match m with
    | .delayReq => if fhMaster s p then masterSend p 9 s else ptpDiscard (8 + p) s
    | _ => ptpDiscard (8 + p) s

/-- DELAY_REQ_RECEIVE: the frame counts at its port (08 R232), and the message is treated. -/
def execDelayReqReceive (port : Fin 8) (s : State) : Host.Outcome State Fault Refusal :=
  .next (if fhPortEn s port then ptpAtPort port .delayReq (bump (fhReg port 0x20) 1 s) else s)

/-- PTP_SYNC_SEND. -/
def execPtpSyncSend (port : Fin 8) (s : State) : Host.Outcome State Fault Refusal := .next (masterSend port 0 s)
/-- PTP_ANNOUNCE_SEND. -/
def execPtpAnnounceSend (port : Fin 8) (s : State) : Host.Outcome State Fault Refusal := .next (masterSend port 11 s)
/-- DELAY_REQ_SEND. The spec gives a line slave port no domain number and no destination: free values (log 1). -/
def execDelayReqSend (s : State) : Host.Outcome State Fault Refusal :=
  .next (if slaveEn s then
      (if timeSrc s = 1 then useFree (sendPtp (slavePort s) 1 ((freshVal s).getLsbD 8) ((freshVal s).setWidth 8) s)
      else sendPtp (slavePort s) 1 (ptpPeer s (timePort s)) (ptpDomain s (timePort s)) s)
    else s)

/-! ### Loss of source and holdover (02 R43; 13 R383, R385) -/

/-- Tick at which the source counts as lost, where there is a source. -/
def lossDue (s : State) : Option Nat :=
  if s.time.srcLost then none
  else if timeFollow s then some (s.splice.lastTime + 3 * ticksMs)
  else match timeSrc s with
    | 0 => none
    | 3 => some (s.time.lastPps + ticksS * 3 / 2)
    | _ => some (min (s.time.lastAnnounce + 3 * announceTicks) (s.time.lastSync + ticksS))

/-- A follower that loses its parent moves to the alternate, where it has one, and PATH_CAL reads 0 until path correction
completes there (13 R385). -/
def loseParent (s : State) : State :=
  let s1 : State := if rdb s 0xB0014 0 then
      { (wrf 0xB0014 0 0 0 s) with splice := { s.splice with uncalFrom := s.clk } } else s
  raise spliceEvent 5
    (if rdb s 0xB0010 10 then { s1 with splice := { s1.splice with altParent := !s1.splice.altParent } } else s1)

/-- The source is lost, and the fault unit told (14 R398). -/
def loseSource (s : State) : State :=
  let s1 := report ⟨.time, true, 2, 0, .none⟩ <| raise timeEvent 8 { s with time := { s.time with srcLost := true } }
  let s2 := if timeFollow s1 then loseParent s1 else s1
  match timeState s2 with
  | 3 => enterHoldover s2
  | 2 => { s2 with time := { s2.time with inWindow := 0 } }
  | _ => s2

/-- SOURCE_LOST. -/
def execSourceLost (s : State) : Host.Outcome State Fault Refusal :=
  .next (match lossDue s with
    | some t => loseSource (runToClk t s)
    | none => s)

/-- HOLDOVER_EXPIRED: HOLDOVER_LIMIT seconds have passed in HOLDOVER. -/
def execHoldoverExpired (s : State) : Host.Outcome State Fault Refusal :=
  .next (if timeState s = 4 ∧ holdoverExpired s = false then
      raise timeEvent 3 (wrf timeStatus 5 5 1 (runToClk (s.time.holdSince + (rd s 0x2001C).toNat * ticksS) s))
    else s)

/-- No grid waits for its t_resume. -/
def dropResume (s : State) : State := { s with time := { s.time with tResume := [] } }

/-- SCENE_END: the last grid reaches its t_resume (R46). -/
def execSceneEnd (s : State) : Host.Outcome State Fault Refusal :=
  .next (if sceneActive s then
      raise timeEvent 6 (wrf timeStatus 8 8 0 (dropResume (runToTime ((s.time.tResume.map Prod.snd).foldl max 0) s)))
    else s)

/-! ### 1PPS (02 R64, R65) -/

/-- Offset of the counter from the nearest whole second, in 2^-32 ns. -/
def ppsOffset (c : Counter) : Int :=
  let v : Nat := c.ns.toNat * 2 ^ 32 + c.frac.toNat
  if v < 500000000 * 2 ^ 32 then (v : Int) else (v : Int) - 1000000000 * 2 ^ 32

/-- Movement that takes the counter to second `sec` with NS = 0 and FRAC = 0. -/
def stepToSec (c : Counter) (sec : BitVec 48) : Int :=
  let u : Nat := sec.toNat * unitsS + c.sub.toNat
  (u : Int) - (counterUnits c : Int)

/-- PPS_IN_EDGE. -/
def execPpsInEdge (s : State) : Host.Outcome State Fault Refusal :=
  .next (if rdb s 0x200E0 1 then
      (let c := s.time.counter
       let s1 := raise timeEvent 7 (wrMany 0x200E4 [c.sec.setWidth 32, c.ns, c.frac]
         { s with time := { s.time with lastPps := s.clk, srcLost := s.time.srcLost && decide (timeSrc s ≠ 3) } })
       match stepArmed s1, s1.time.ppsSec with
       | true, some sec => applyStep (stepToSec c sec) s1
       | true, none => s1
       | false, _ => if timeSrc s1 = 3 then measure (ppsOffset c) s1 else s1)
    else s)

/-- Pin number of PPS_OUT in the log of outputs. -/
abbrev pinPps : Nat := 0

/-- PPS_OUT is high for a number of µs. -/
def pulsePps (us : Nat) (s : State) : State :=
  emit (.pulse pinPps us) { s with board := { s.board with ppsUntil := s.clk + us * ticksUs } }

/-- Let the clock run until the counter of Polwen die 0 is at or past `u`. -/
def runToDie (u : Nat) (s : State) : State := advance (ceilDiv (u - counterUnits s.time.counter) (incUnits s)) s

/-- PPS_OUT_PULSE: the signal rises as the counter reaches NS = 0, advanced by the compensation in ps, and falls after the
width; while a pulse lasts ppsUntil lies ahead. -/
def execPpsOutPulse (s : State) : Host.Outcome State Fault Refusal :=
  .next (if rdb s 0x200E0 0 && timeLocked s then
      (let comp := rdf s 0x200E0 31 16 * 2 ^ 42 / 1000
       let due := ((counterUnits s.time.counter + comp) / unitsS + 1) * unitsS - comp
       pulsePps (rdf s 0x200E0 15 8 + 1) (runToDie due s))
    else s)

/-! ### The real-time clock and the holdover references (02 R66, R67; 16 R465, R466) -/

/-- RTC_REWRITE: the real-time clock takes device time; RTC_COARSE clears while the crystal is seen to oscillate. Whether a
crystal that had stopped oscillates again is a free value (log 1). -/
def execRtcRewrite (s : State) : Host.Outcome State Fault Refusal :=
  .next (if timeLocked s then
      (let x := s.hold.xtal || (freshVal s).getLsbD 0
       let s1 : State := { s with hold := { s.hold with
          rtc := counterUnits s.time.counter * 32768 / unitsS, rtcAt := s.clk, xtal := x, rtcCoarse := s.hold.rtcCoarse && !x } }
       let s2 := if s.hold.xtal then s1 else useFree s1
       if x then wrf timeStatus 7 7 0 s2 else s2)
    else s)

/-- XTAL_STOP. -/
def execXtalStop (s : State) : Host.Outcome State Fault Refusal :=
  .next (wrf timeStatus 7 7 1 { s with hold := { s.hold with xtal := false, rtcCoarse := true } })

/-- Nominal frequency of a holdover reference: the 10 MHz input, or the oscillator input, whose nearer one was noted at reset
release (16 R465). -/
def refNominal (s : State) (ref : Fin 2) : Nat := if ref = 1 ∧ s.time.osc20 = true then 20000000 else 10000000

/-- The cycles counted in 1 s of the time clock lie within ±20 ppm of nominal; 0 tells of a reference that was not present
throughout. -/
def refGood (s : State) (ref : Fin 2) (cycles : Nat) : Bool :=
  decide (1000000 * ((cycles : Int) - refNominal s ref).natAbs ≤ 20 * refNominal s ref)

/-- The interval joins the learning interval: the last 1,000 s in LOCKED (02 R66). -/
def learnRefNow (cycles : Nat) (s : State) : State :=
  if timeState s = 3 then
    { s with time := { s.time with learnRef := ((incUnits s, cycles) :: s.time.learnRef).take 1000 } }
  else s

/-- HO_REF_INTERVAL: a one-second interval of a reference ends, with the cycles counted; the servo follows the reference in use in
HOLDOVER, and in every state with SRC = 0. -/
def execHoRefInterval (ref : Fin 2) (cycles : Nat) (s : State) : Host.Outcome State Fault Refusal :=
  let before := hoRefUsed s
  let bit : BitVec 2 := BitVec.ofNat 2 (2 ^ ref.val)
  let v : BitVec 2 := if refGood s ref cycles then s.time.refValid ||| bit else s.time.refValid &&& ~~~ bit
  let s1 : State := { s with time := { s.time with refValid := v } }
  let s2 := if hoRefUsed s1 = ref.val + 1 then learnRefNow cycles s1 else s1
  .next (if hoRef s = ref.val + 1 ∧ (timeState s = 4 ∨ timeSrc s = 0 ∧ timeFollow s = false) then
      (if hoRefUsed s2 ≠ 0 then followRef cycles (learnNow s2)
      else if before ≠ 0 ∧ timeState s = 4 then holdAverage s2 else s2)
    else s2)

/-! ### The fabric root (13 R383) -/

/-- The zero step of the root has been counted. -/
def rootStepped (s : State) : State := { s with splice := { s.splice with rootFrom := none } }

/-- A root that acquires is locked. -/
def lockRoot (s : State) : State := if timeState s = 2 then enterLocked s else s

/-- FABRIC_ROOT_LOCK: a root without a source enters LOCKED 16 exchange intervals after its zero step. -/
def execFabricRootLock (s : State) : Host.Outcome State Fault Refusal :=
  .next (match s.splice.rootFrom with
    | none => s
    | some t => lockRoot (rootStepped (runToClk (t + 16 * ticksMs) s)))

end Sys2Proof.Machine
end

