-- ==== Sys2Proof/Machine/Desc.lean ====
section
/-! DEFINITION. Descriptors: when one is read and consumed, the checks that every opcode shares, in their order, and the
opcodes NOP, TIME_REARM and ACCEPT_PAIR (03 R86–R94, R484; 14 R419; 02 R44; 15 R439, R440). -/

namespace Sys2Proof.Machine

/-! ### Reading and consuming (03 R86, R92, R93; 14 R419) -/

/-- The next descriptor of pair `p` may be read: it is pending, the pair is active, room is free, and the running firmware
has a DMC. -/
def mayFetch (s : State) (p : Nat) : Bool :=
  locked s && pairActive s p && !pairIsEvent s p && decide (sqProd s p ≠ sqCons s p) && decide (1 ≤ cqFree s p) &&
    !rdb s bootStatus 12 && !hostDown s

/-- No earlier descriptor of the ring lacks its final record. -/
def fenceOpen (s : State) (p : Nat) : Bool := s.flights.all fun f => decide (f.ref.pair.val ≠ p)

/-- Pair `p` has a descriptor to fetch: none that waits to be read again or behind its FENCE (12 R350). -/
def wantsFetch (s : State) (p : Nat) : Bool :=
  mayFetch s p && decide ((pairOf s p).retries = 0) && (!(pairOf s p).atFence || fenceOpen s p)

/-- CLASS_MASK admits PHY alone. -/
def phyOnly (s : State) (p : Nat) : Bool := decide (classMask s p = 1)

/-- The pair whose descriptor is fetched next: of those that admit PHY alone the lowest, else the next in turn (12 R350; log 83). -/
def fetchNext (s : State) : Option Nat :=
  match (List.range 256).find? fun p => wantsFetch s p && phyOnly s p with
  | some p => some p
  | none => ((List.range 256).map fun k => (s.fetchTurn + k) % 256).find? (wantsFetch s)

/-- The turn passes to the pair behind `p`; a pair that admits PHY alone has no turn. -/
def passTurn (p : Nat) (s : State) : State := if phyOnly s p then s else { s with fetchTurn := (p + 1) % 256 }

/-- The read of the descriptor at the consumer index, under the owner's requester ID (03 R77). -/
def readDesc (p : Nat) (s : State) : State :=
  emit (.hostRead (pairFunc s p)
    (BitVec.ofNat 64 ((rd s (pairReg p 4)).toNat * 2 ^ 32 + (rd s (pairReg p 0)).toNat + 64 * ((sqCons s p).toNat % sqDepth s p))) 64) s

/-- Consumption reaches the committed HORIZON: it is moved and the ledger committed first. -/
def moveHorizon (p : Nat) (s : State) : State :=
  if (pairOf s p).horizon = sqCons s p then
    ledgerCommit (setPair p { pairOf s p with
      horizon := sqCons s p + BitVec.ofNat 16 (min 64 (sqProd s p - sqCons s p).toNat) } s)
  else s

/-- The descriptor `d` at the consumer index of pair `p` is consumed: one completion slot is reserved for it. -/
def consume (p : PairIx) (d : BitVec 512) (s : State) : State :=
  let t := moveHorizon p s
  let i := sqCons t p
  let x := pairOf t p
  setPair p { x with reserved := x.reserved + 1, retries := 0, atFence := false, sqWrap := x.sqWrap ^^ decide (i = 0xFFFF) }
    (wr (pairReg p 0x20) ((i + 1).setWidth 32)
      { t with flights := t.flights ++ [⟨⟨p, i⟩, d, false⟩], fault := { t.fault with dirty := true } })

/-- PHASE of the descriptor is that of the lap. -/
def phaseOk (s : State) (p : Nat) (d : BitVec 512) : Bool :=
  decide (dPhase d = phaseOf (sqCons s p) (pairOf s p).sqWrap (sqLog2 s p))

/-- A descriptor of the right lap is consumed, or waits behind its FENCE. -/
def takeDesc (p : PairIx) (d : BitVec 512) (s : State) : State :=
  if dFence d && !fenceOpen s p then setPair p { pairOf s p with retries := 0, atFence := true } s else consume p d s

/-- DESCRIPTOR_FETCH: the descriptor of the pair whose turn it is is read as `d`. -/
def execDescriptorFetch (p : PairIx) (d : BitVec 512) (s : State) : Host.Outcome State Fault Refusal :=
  .next (if fetchNext s = some p.val then
      (let t := passTurn p (readDesc p s)
       if phaseOk s p d then takeDesc p d t else setPair p { pairOf t p with retries := 1, readAt := t.clk } t)
    else s)

/-- DESCRIPTOR_PHASE_RETRY: read again 2 µs after the last read; after the fourth time the descriptor is MALFORMED. -/
def execDescriptorPhaseRetry (p : PairIx) (d : BitVec 512) (s : State) : Host.Outcome State Fault Refusal :=
  .next (if mayFetch s p && decide (1 ≤ (pairOf s p).retries) then
      (let t := readDesc p (runToClk ((pairOf s p).readAt + 2 * ticksUs) s)
       if phaseOk t p d then takeDesc p d t
       else if (pairOf t p).retries < 4 then
         setPair p { pairOf t p with retries := (pairOf t p).retries + 1, readAt := t.clk } t
       else refuse ⟨p, sqCons t p⟩ 0x10 (consume p d t))
    else s)

/-- The read of a descriptor fails: SQ_FAULT is set, and the descriptor completes with BAD_ADDRESS (03 R484). -/
def badRead (p : PairIx) (s : State) : State :=
  let r : DRef := ⟨p, sqCons s p⟩
  let t := logDmaError r false (wrf (pairReg p 0x30) 4 4 1 (consume p 0 (readDesc p s)))
  finish r 0x11 10 0 0 (refOf (7, p.val) t) [] t

/-- DESCRIPTOR_READ_ERROR: the read, the first of a descriptor or another after a phase mismatch, is answered with UR, CA or
poisoned data. -/
def execDescriptorReadError (p : PairIx) (s : State) : Host.Outcome State Fault Refusal :=
  .next (if fetchNext s = some p.val then badRead p (passTurn p s)
    else if mayFetch s p && decide (1 ≤ (pairOf s p).retries) then
      badRead p (runToClk ((pairOf s p).readAt + 2 * ticksUs) s)
    else s)

/-! ### The checks (03 R90) -/

/-- Classes of an opcode as a mask; none for an unlisted one (03 R88). -/
def opClasses (op : Nat) : Option Nat :=
  if op = 0 then some 0x3F
  else if 0x10 ≤ op ∧ op ≤ 0x13 then some 1
  else if op = 0x20 then some 6
  else if op = 0x21 then some 2
  else if 0x30 ≤ op ∧ op ≤ 0x33 then some 8
  else if 0x40 ≤ op ∧ op ≤ 0x42 then some 16
  else if 0x50 ≤ op ∧ op ≤ 0x56 then some 32
  else none

/-- Checks 2 to 4. -/
def classCheck (s : State) (p : Nat) (d : BitVec 512) : Option Nat :=
  if 5 < dClass d ∨ (classMask s p).testBit (dClass d) = false then some 0x13
  else match opClasses (dOpcode d) with
    | none => some 0x12
    | some m => if m.testBit (dClass d) then none else some 0x13

/-- What an opcode adds to checks 6, 7, 9, 11 and 12. -/
structure OpRules where
  /-- the input and the output buffer are used -/
  in0 : Bool := false
  out1 : Bool := false
  /-- lengths outside the opcode's limits -/
  badLength : Bool := false
  /-- check 9 -/
  untestedPair : Bool := false
  /-- mode rules of check 11 -/
  badMode : Bool := false
  /-- depends on device time -/
  timeDep : Bool := false
  deriving DecidableEq, Repr

/-- A buffer's address is wrong: not 0 though unused, or a device address outside every region. -/
def badBuffer (s : State) (used dev : Bool) (addr len : Nat) : Bool :=
  if used then dev && (regionOf s addr len).isNone else decide (addr ≠ 0)

/-- Checks 5 to 12. DIGEST is not judged where an opcode has no use for it (log 40). -/
def midChecks (s : State) (d : BitVec 512) (o : OpRules) : Option Nat :=
  if dBits d 11 5 ≠ 0 ∨ dBits d 24 8 ≠ 0 ∨ dDet d = 3 then some 0x10
  else if badBuffer s o.in0 (dA0Dev d) (dAddr0 d).toNat (dLen0 d) ∨ badBuffer s o.out1 (dA1Dev d) (dAddr1 d).toNat (dLen1 d) then
    some 0x11
  else if (o.in0 = false ∧ dLen0 d ≠ 0) ∨ (o.out1 = false ∧ dLen1 d ≠ 0) ∨ o.badLength = true then some 0x14
  else if inHold s = true ∧ dClass d ≠ 5 then some 0x42
  else if o.untestedPair then some 0x40
  else if untested s = true ∧ dOpcode d ≠ 0 ∧ 1 ≤ dClass d ∧ dClass d ≤ 4 ∧ (dDet d = 2 ∨ detLock s = true) then some 0x41
  else if (dDet d = 2 ∧ detLock s = false) ∨ o.badMode = true then some 0x42
  else if o.timeDep = true ∧ timeLocked s = false then some 0x30
  else none

/-- Checks 2 to 12; the status of the first that fails. -/
def preCheck (s : State) (p : Nat) (d : BitVec 512) (o : OpRules) : Option Nat :=
  match classCheck s p d with
  | some st => some st
  | none => midChecks s d o

/-- A buffer of the descriptor lies in the local store of a fenced tile (14 R403, Edge). -/
def bufferFenced (s : State) (d : BitVec 512) : Bool :=
  (dA0Dev d && decide (dLen0 d ≠ 0) && inFenced s (dAddr0 d).toNat) ||
    (dA1Dev d && decide (dLen1 d ≠ 0) && inFenced s (dAddr1 d).toNat)

/-- MAINT descriptors run one at a time, in consumption order (12 R353). -/
def maintTurn (s : State) (f : Flight) : Bool :=
  decide (dClass f.desc ≠ 5) || (match s.flights.find? fun g => decide (dClass g.desc = 5) && !g.started with
    | some g => decide (g.ref = f.ref)
    | none => true)

/-- The row of opcode `op` for a consumed descriptor: nothing where it is not one of that opcode, has started or is not the
next MAINT descriptor; its refusal where a check fails; else `go`. -/
def runDesc (r : DRef) (op : Nat) (o : State → BitVec 512 → OpRules) (go : BitVec 512 → State → State) (s : State) : State :=
  match flightOf s r with
  | none => s
  | some f =>
    if f.started = true ∨ dOpcode f.desc ≠ op ∨ maintTurn s f = false then s
    else match preCheck s r.pair f.desc (o s f.desc) with
      | some st => refuse r st s
      | none => if bufferFenced s f.desc then refuse r 0x20 s else go f.desc s

/-! ### Input buffers (03 R97) -/

/-- A list made `n` bytes long. -/
def fitTo (n : Nat) (bs : List Byte) : List Byte := bs.take n ++ zeros (n - bs.length)

/-- What an input buffer holds. -/
inductive InBuf where
  | bytes (bs : List Byte)
  /-- the host answered the read with UR, CA or poisoned data -/
  | hostError
  /-- device memory marked poisoned -/
  | poisoned
  deriving DecidableEq, Repr

/-- The input buffer: device memory as it stands, or what the DMA read brought. -/
def inputOf (s : State) (d : BitVec 512) (dma : Dma) : InBuf :=
  if dA0Dev d then
    (if devPoisoned s (dAddr0 d).toNat (dLen0 d) then .poisoned else .bytes (devRead s (dAddr0 d).toNat (dLen0 d)))
  else match dma with
    | .data bs => .bytes (fitTo (dLen0 d) bs)
    | .error => .hostError

/-- A DMA read of a descriptor's input has failed: BAD_ADDRESS with its log entry. -/
def inputError (r : DRef) (s : State) : State :=
  let t := logDmaError r true s
  finish r 0x11 10 0 0 (refOf (7, r.pair.val) t) [] t

/-- Go on with the input, or end the descriptor. -/
def withInput (r : DRef) (d : BitVec 512) (dma : Dma) (go : List Byte → State → State) (s : State) : State :=
  match inputOf s d dma with
  | .hostError => inputError r s
  | .poisoned => finish r 0x21 7 0 0 (lastUe s) [] s
  | .bytes bs => go bs (if dA0Dev d then devTouch (dAddr0 d).toNat (dLen0 d) s else s)

/-- BAD_DESCRIPTOR: class or opcode is unlisted, not admitted or mismatched. -/
def execBadDescriptor (r : DRef) (s : State) : Host.Outcome State Fault Refusal :=
  .next (match flightOf s r with
    | none => s
    | some f =>
      if f.started then s
      else match classCheck s r.pair f.desc with
        | some st => refuse r st s
        | none => s)

/-- NOP completes SERVED. -/
def execNop (r : DRef) (s : State) : Host.Outcome State Fault Refusal :=
  .next (runDesc r 0 (fun _ _ => {}) (fun _ s => finish r (okStatus false false s) 0 0 0 0 [] s) s)

/-! ### TIME_REARM (02 R44) -/

/-- Check 13 of TIME_REARM and its effect. -/
def timeRearmGo (r : DRef) (d : BitVec 512) (s : State) : State :=
  let pps := (dOpw d 0).getLsbD 0
  if 1 < (dOpw d 0).toNat ∨ dBits d 352 160 ≠ 0 ∨ (pps = true ∧ field (dOpw d 2) 31 16 ≠ 0) then refuse r 0x10 s
  else if (pps = false ∧ (timeSrc s = 0 ∨ timeSrc s = 3)) ∨ (pps = true ∧ rdb s 0x200E0 1 = false) then refuse r 0x42 s
  else
    let t := rearm pps (BitVec.ofNat 48 ((dOpw d 1).toNat + 2 ^ 32 * (dOpw d 2).toNat)) s
    finish r (okStatus false false t) 0 0 0 0 [] t

def execTimeRearm (r : DRef) (s : State) : Host.Outcome State Fault Refusal :=
  .next (runDesc r 0x54 (fun _ _ => {}) (timeRearmGo r) s)

/-! ### Version pairs at a load, and ACCEPT_PAIR (15 R437, R439, R440) -/

/-- ABI_MIN and ABI_MAX of the running DMC. -/
def abiMin (s : State) : Nat := rdf s 0xE0018 15 0
def abiMax (s : State) : Nat := rdf s 0xE0018 31 16

/-- Version key of the running DMC. -/
def dmcKey (s : State) : Nat := verKey (runVersion s.mgmt.dmc)

/-- (DMC, Varok toolchain) is tested, or accepted with some load pair. -/
def toolOk (s : State) (tool : Word) : Bool :=
  tested s.mgmt.table 2 (dmcKey s) 4 (verKey tool) || s.mgmt.accepted.any fun x => decide (verKey x.1 = verKey tool)

/-- (DMC, director ABI) is tested or accepted. -/
def abiOk (s : State) (abi : Word) : Bool :=
  tested s.mgmt.table 2 (dmcKey s) 5 (verKey abi) ||
    s.mgmt.accepted.any fun x => decide (x.2 ≠ 0) && decide (verKey x.2 = verKey abi)

/-- The ABI lies within the range that the DMC runs. -/
def abiRuns (s : State) (abi : Word) : Bool := decide (abiMin s ≤ verKey abi) && decide (verKey abi ≤ abiMax s)

/-- The load of an image forms an untested pair (check 9). -/
def imageUntested (s : State) (tool abi : Word) : Bool := !toolOk s tool || !abiOk s abi || !abiRuns s abi

/-- Scope 0: every untested boot pair is accepted and the state becomes RUN. -/
def acceptBoot (r : DRef) (d : BitVec 512) (s : State) : State :=
  if dOpw d 1 ≠ rd s 0xE0010 ∨ dOpw d 2 ≠ rd s 0xE0014 ∨ dOpw d 3 ≠ Config.chipId then refuse r 0x42 s
  else if inHold s = false ∨ rdf s bootStatus 11 8 = 0 ∨ rdb s bootStatus 12 = true then refuse r 0x42 s
  else
    let t := raise mgmtEvent 0 (wrf bootStatus 2 2 1 (wrf bootStatus 1 0 2 s))
    finish r 0x02 0 0 0 0 [] t

/-- Scope 1: a load pair is accepted. -/
def acceptLoad (r : DRef) (d : BitVec 512) (s : State) : State :=
  let tool := dOpw d 1
  let abi := dOpw d 2
  if toolOk s tool = true ∧ (abi = 0 ∨ abiOk s abi = true) then refuse r 0x42 s
  else if abi ≠ 0 ∧ abiRuns s abi = false then refuse r 0x42 s
  else if 8 ≤ s.mgmt.accepted.length then finish r (okStatus false false s) 3 0 0 0 [] s
  else
    let i := s.mgmt.accepted.length
    let t : State := { s with mgmt := { s.mgmt with accepted := s.mgmt.accepted ++ [(tool, abi)] } }
    finish r 0x02 0 0 0 0 [] (wrf bootStatus 2 2 1 (wrMany (0xE0040 + 8 * i) [tool, abi] t))

/-- Check 13 of ACCEPT_PAIR and its effect. -/
def acceptPairGo (r : DRef) (d : BitVec 512) (s : State) : State :=
  let scope1 := (dOpw d 0).getLsbD 0
  if 1 < (dOpw d 0).toNat ∨ dBits d 384 128 ≠ 0 ∨ (scope1 = true ∧ dOpw d 3 ≠ 0) then refuse r 0x10 s
  else if scope1 then acceptLoad r d s else acceptBoot r d s

def execAcceptPair (r : DRef) (s : State) : Host.Outcome State Fault Refusal :=
  .next (runDesc r 0x55 (fun _ _ => {}) (acceptPairGo r) s)

end Sys2Proof.Machine
end

