-- ==== Sys2Proof/Machine/Rings.lean ====
section
/-! DEFINITION. Doorbells, PCIe functions and interrupts: accepting and rejecting doorbells, resets of functions, Bus
Master Enable and MSI-X (03 R72, R79–R83, R101, R103). -/

namespace Sys2Proof.Machine

/-! ### Doorbell pages (03 R72, R81) -/

/-- Pairs with EN = 1, ascending. PAIR_CFG reads 0 unless it is listed. -/
def enabledPairs (s : State) : List Nat :=
  s.regs.filterMap fun x =>
    if 0x11000 ≤ x.1 ∧ x.1 < 0x15000 ∧ (x.1 - 0x11000) % 0x40 = 0x10 ∧ x.2.getLsbD 0 = true then some ((x.1 - 0x11000) / 0x40)
    else none

/-- The first 16 enabled pairs of VF `f`: its doorbell pages (R72). -/
def vfPages (s : State) (f : FuncIx) : List PairIx :=
  (((enabledPairs s).filter fun p => decide (pairFunc s p = f)).take 16).map (Fin.ofNat 256)

/-- The pair behind page `page` of BAR2 of function `f`; none for an inert page. Before the lock the pages of a VF follow its
pairs as they are configured (log 28). -/
def pagePair (s : State) (f : FuncIx) (page : Nat) : Option PairIx :=
  if f = 0 then (if page < 256 ∧ pairFunc s page = 0 then some (Fin.ofNat 256 page) else none)
  else if locked s then (funcOf s f).pages[page]? else (vfPages s f)[page]?

/-- Offset within BAR2 of a doorbell page. -/
def pageOff (page off : Nat) : Nat := 4096 * page + off

/-- A function answers accesses: the main domain is out of reset and a VF is enabled. -/
def reachable (s : State) (f : FuncIx) : Bool := !hostDown s && present s f

/-! ### Doorbells (03 R82, R83) -/

/-- A doorbell is rejected: logged, and recorded in the pair from the lock on. -/
def rejectDoorbell (p : Nat) (f : FuncIx) (off : Nat) (s : State) : State :=
  let t := raise hostEvent 1 (aerr 5 true f off s)
  if locked s then wrf (pairReg p 0x30) 2 2 1 t else t

/-- An SQ doorbell value is accepted (R82). -/
def sqAccepts (s : State) (p : Nat) (v : BitVec 16) : Bool :=
  (pairOf s p).live && !pairIsEvent s p &&
    decide ((sqProd s p - sqCons s p).toNat ≤ (v - sqCons s p).toNat) && decide ((v - sqCons s p).toNat ≤ sqDepth s p - 1)

/-- An SQ doorbell is evaluated. -/
def sqRing (p : Nat) (v : BitVec 16) (f : FuncIx) (off : Nat) (s : State) : State :=
  if sqAccepts s p v then wr (pairReg p 0x24) (v.setWidth 32) s else rejectDoorbell p f off s

/-- A CQ doorbell value is accepted (R83). -/
def cqAccepts (s : State) (p : Nat) (v : BitVec 16) : Bool :=
  (pairOf s p).live && decide ((v - cqCons s p).toNat ≤ (cqProd s p - cqCons s p).toNat)

/-- A ring re-arms: with records beyond the index supplied, the message is sent at once (R101). -/
def rearmRing (p : Nat) (v : BitVec 16) (s : State) : State :=
  let t := setPair p { pairOf s p with armed := true } s
  if cqProd s p ≠ v ∧ rdb s (pairReg p 0x14) 16 = true then signalPair p t else maybeSignal p t

/-- SQ_DOORBELL: latched before the lock (01 R31), evaluated after it. -/
def execSqDoorbell (f : FuncIx) (page : Nat) (val : Word) (s : State) : Host.Outcome State Fault Refusal :=
  .next (if reachable s f then
      (match pagePair s f page with
        | none => aerr 6 true f (pageOff page 0) s
        | some p =>
          if locked s then sqRing p (val.setWidth 16) f (pageOff page 0) s
          else setPair p { pairOf s p with latched := some (val.setWidth 16) } s)
    else s)

/-- CQ_DOORBELL. -/
def execCqDoorbell (f : FuncIx) (page : Nat) (val : Word) (s : State) : Host.Outcome State Fault Refusal :=
  .next (if reachable s f then
      (match pagePair s f page with
        | none => aerr 6 true f (pageOff page 8) s
        | some p =>
          let v : BitVec 16 := val.setWidth 16
          if locked s then
            (if cqAccepts s p v then
              (let t := wr (pairReg p 0x2C) (v.setWidth 32) s
               if val.getLsbD 31 then rearmRing p v t else t)
            else rejectDoorbell p f (pageOff page 8) s)
          else if v = 0 then s
          else rejectDoorbell p f (pageOff page 8) s)
    else s)

/-- INERT_DOORBELL_WRITE: KIND 6 on an inert page, KIND 0 by size or alignment, KIND 3 at an undefined offset; of a write that
is both, KIND 0 is logged (log 97). -/
def execInertDoorbellWrite (f : FuncIx) (page : Nat) (off : Nat) (size : Nat) (s : State) :
    Host.Outcome State Fault Refusal :=
  .next (if reachable s f then
      (if (pagePair s f page).isNone then aerr 6 true f (pageOff page off) s
      else if size ≠ 4 ∨ off % 4 ≠ 0 then aerr 0 true f (pageOff page off) s
      else if off = 0 ∨ off = 8 then s
      else aerr 3 true f (pageOff page off) s)
    else s)

/-- MOD_TIME_EXPIRY: MOD_TIME has passed since the first pending record of an armed ring (R101). -/
def execModTimeExpiry (p : PairIx) (s : State) : Host.Outcome State Fault Refusal :=
  let t := rdf s (pairReg p 0x18) 31 16
  .next (if t ≠ 0 ∧ (pairOf s p).armed = true ∧ 0 < (pairOf s p).unsignalled then
      maybeSignal p (runToClk ((pairOf s p).firstPending + t * ticks100ns) s)
    else s)

/-! ### Cancelling work (03 R79, R80; 09 R272) -/

/-- Items of a source stop and are dropped. -/
def cancelItems (src : ItemSrc) : List Item → State → State
  | [], s => s
  | i :: is, s => cancelItems src is (if i.src = src then dropItem i.num (stopItem i s) else s)

/-- The job of a descriptor is dropped. -/
def cancelJob (r : DRef) (s : State) : State :=
  match s.jobs.find? fun (j : Job) => decide (j.ref = r) with
  | some j => retakeFlag (dropJob r (if j.running then clearGroup j.group (stopPart j.part s) else s))
  | none => s

/-- The file whose close is the descriptor is dropped. -/
def cancelFile (r : DRef) (s : State) : State :=
  match s.flow.files.find? fun (x : FileX) => decide (x.close = some r) with
  | some x => dropFile x.id (cancelItems (.file x.id) s.items s)
  | none => s

/-- The work of a descriptor stops and no record is written: its chain as in R195 steps 1–3, its items, its job, the file that
waits for its close, its slate, its captures. A slate is dropped on this chip alone (log 35). -/
def cancelWork (r : DRef) (s : State) : State :=
  let s1 := match chainOf s r with
    | some c => haltChain c s
    | none => s
  let s4 := cancelFile r (cancelJob r (cancelItems (.desc r) s1.items s1))
  { s4 with
    chains := s4.chains.filter fun (c : Chain) => decide (c.ref ≠ r),
    flights := s4.flights.filter fun (f : Flight) => decide (f.ref ≠ r),
    radio := { s4.radio with tx := s4.radio.tx.filter (fun x => decide (x.ref ≠ r)),
                             captures := s4.radio.captures.filter (fun x => decide (x.ref ≠ r)) },
    splice := { s4.splice with slates := s4.splice.slates.filter (fun x => decide (x.ref ≠ some r)) } }

/-- Work of a list of flights stops. -/
def cancelAll : List Flight → State → State
  | [], s => s
  | f :: fs, s => cancelAll fs (cancelWork f.ref s)

/-- Pairs of function `f`. -/
def funcPairs (s : State) (f : FuncIx) : List Nat := (enabledPairs s).filter fun p => decide (pairFunc s p = f)

/-- Work in flight of function `f` is cancelled, and what waits to be written is discarded. -/
def cancelFunc (f : FuncIx) (s : State) : State :=
  let t := cancelAll (s.flights.filter fun x => decide (pairFunc s x.ref.pair = f)) s
  setFunc f { funcOf t f with held := [] } t

/-- A pair returns to lap 0 with every index 0; its configuration stays (R80; log 35). -/
def zeroPair (p : Nat) (s : State) : State :=
  setPair p { live := (pairOf s p).live, horizon := (pairOf s p).horizon }
    (wr (pairReg p 0x20) 0 (wr (pairReg p 0x24) 0 (wr (pairReg p 0x28) 0 (wr (pairReg p 0x2C) 0 s))))

/-- Pairs return to lap 0. -/
def zeroPairs : List Nat → State → State
  | [], s => s
  | p :: ps, s => zeroPairs ps (zeroPair p s)

/-- Completion rings are armed. -/
def armPairs : List Nat → State → State
  | [], s => s
  | p :: ps, s => armPairs ps (setPair p { pairOf s p with armed := (pairOf s p).live } s)

/-- Steps 1 to 4 of a Function Level Reset, and the ledger entries (R80; 14 R419). Pending MSI-X messages are gone
(log 35). -/
def resetFunc (f : FuncIx) (s : State) : State :=
  let ps := funcPairs s f
  let t := ledgerZero ps (zeroPairs ps (cancelFunc f s))
  setFunc f { funcOf t f with pba := [] } t

/-- HOST.STATUS.NumVFs. -/
def countVfs (s : State) : State :=
  wrf 0x10000 21 16 ((s.funcs.filter fun x => decide (x.1 ≠ 0) && x.2.enabled).length) s

/-! ### Functions (03 R79, R80) -/

/-- FUNCTION_LEVEL_RESET. -/
def execFunctionLevelReset (f : FuncIx) (s : State) : Host.Outcome State Fault Refusal :=
  .next (if reachable s f then
      (let t := raise hostEvent 2 (bump flrCount 1 (resetFunc f s))
       setFunc f { funcOf t f with inFlr := true } t)
    else s)

/-- FLR_COMPLETE: the pairs are active again, their interrupts armed. -/
def execFlrComplete (f : FuncIx) (s : State) : Host.Outcome State Fault Refusal :=
  .next (if (funcOf s f).inFlr then
      armPairs (funcPairs s f) (setFunc f { funcOf s f with inFlr := false } s)
    else s)

/-- VF_DISABLE: as a Function Level Reset, without counting. -/
def execVfDisable (f : FuncIx) (s : State) : Host.Outcome State Fault Refusal :=
  .next (if f ≠ 0 ∧ (funcOf s f).enabled = true then
      (let t := armPairs (funcPairs s f) (resetFunc f s)
       countVfs (setFunc f { funcOf t f with enabled := false, inFlr := false } t))
    else s)

/-- VF_ENABLE. -/
def execVfEnable (f : FuncIx) (s : State) : Host.Outcome State Fault Refusal :=
  .next (if f ≠ 0 then countVfs (setFunc f { funcOf s f with enabled := true } s) else s)

/-! ### Bus Master Enable (03 R79, Edge) -/

/-- BUS_MASTER_CLEAR. -/
def execBusMasterClear (f : FuncIx) (s : State) : Host.Outcome State Fault Refusal :=
  .next (if (funcOf s f).bme then setFunc f { funcOf s f with bme := false, bmeAt := s.clk } s else s)

/-- Held writes, records and messages leave in their order. -/
def issueHeld : List Held → State → State
  | [], s => s
  | h :: hs, s => issueHeld hs (issue h.out s)

/-- Batches that waited leave. -/
def putWaiting (p : Nat) : List Batch → State → State
  | [], s => s
  | b :: bs, s => putWaiting p bs (putBatch p b s)

/-- What waited on each pair leaves. -/
def flushPairs : List Nat → State → State
  | [], s => s
  | p :: ps, s => flushPairs ps (putWaiting p (pairOf s p).waiting (setPair p { pairOf s p with waiting := [] } s))

/-- The waiting work and the reservations of pairs are dropped. -/
def dropWaiting : List Nat → State → State
  | [], s => s
  | p :: ps, s => dropWaiting ps (setPair p { pairOf s p with waiting := [], reserved := 0 } s)

/-- What is held for a function is discarded, and its work cancelled (03 R79, Edge; log 29). -/
def discardHeld (f : FuncIx) (s : State) : State := dropWaiting (funcPairs s f) (cancelFunc f s)

/-- Bus Master Enable has been clear for 1 s. -/
def holdOver (s : State) (f : FuncIx) : Bool := !(funcOf s f).bme && decide ((funcOf s f).bmeAt + ticksS ≤ s.clk)

/-- Bus Master Enable is set, and what was held and waited leaves. -/
def masterOn (f : FuncIx) (s : State) : State :=
  let t := issueHeld (funcOf s f).held (setFunc f { funcOf s f with bme := true, held := [] } s)
  flushPairs (funcPairs t f) t

/-- BUS_MASTER_SET: within 1 s what was held is issued; after it, it has been discarded. -/
def execBusMasterSet (f : FuncIx) (s : State) : Host.Outcome State Fault Refusal :=
  .next (masterOn f (if holdOver s f then discardHeld f s else s))

/-- BUS_MASTER_HOLD_EXPIRY: 1 s has passed since Bus Master Enable was cleared; what was held is discarded and the work
cancelled (log 29). -/
def execBusMasterHoldExpiry (f : FuncIx) (s : State) : Host.Outcome State Fault Refusal :=
  .next (if (funcOf s f).bme then s else discardHeld f (runToClk ((funcOf s f).bmeAt + ticksS) s))

/-! ### MSI-X (03 R73, R101) -/

/-- Entries of a function's MSI-X table. -/
def msixSize (s : State) (f : FuncIx) : Nat := if f = 0 then 512 else rdf s 0x10010 4 0

/-- Table Size field of a function's MSI-X capability (03 R73). -/
def msixSizeField (s : State) (f : FuncIx) : Nat := msixSize s f - 1

/-- What BAR4 of a function holds at an aligned 32-bit offset: the MSI-X table, four words an entry with the Mask bit in the last,
then the pending bits (03 R72). No row of the table reads or writes BAR4 but MSIX_UNMASK (log 95). -/
def msixWord (s : State) (f : FuncIx) (off : Nat) : Word :=
  let x := funcOf s f
  let e := tabGet (fun _ => {}) x.table (off / 16)
  let pba := if f = 0 then 0x8000 else 0x2000
  if off / 16 < msixSize s f then
    (match off % 16 with
      | 0 => e.addr.setWidth 32
      | 4 => e.addr.extractLsb' 32 32
      | 8 => e.data
      | _ => BitVec.ofNat 32 (bnat !x.unmasked.contains (off / 16)))
  else if pba ≤ off ∧ off < pba + 4 * ceilDiv (msixSize s f) 32 then
    BitVec.ofNat 32 ((List.range 32).map fun k => 2 ^ k * bnat (x.pba.contains (8 * (off - pba) + k))).sum
  else 0

/-- The link may enter L1: no ring pair is enabled and no grid runs (03 R71). -/
def mayEnterL1 (s : State) : Bool := decide (enabledPairs s = []) && decide (s.time.running = 0)

/-- MSIX_UNMASK: a vector is unmasked, and the message that waited for it delivered. -/
def execMsixUnmask (f : FuncIx) (vec : Nat) (s : State) : Host.Outcome State Fault Refusal :=
  .next (if vec < msixSize s f ∧ reachable s f = true then
      (let x := funcOf s f
       let was := x.pba.contains vec
       let t := setFunc f { x with
         unmasked := if x.unmasked.contains vec then x.unmasked else x.unmasked ++ [vec],
         pba := x.pba.filter fun v => decide (v ≠ vec) } s
       if was then issueOrHold 256 f (.out (.msix f vec)) t else t)
    else s)

end Sys2Proof.Machine
end

