-- ==== Sys2Proof/Machine/Lock.lean ====
section
/-! DEFINITION. Setting GLOBAL.SETUP_LOCK: the checks of pairs, the lost-work report, the checks of the blocks, and the
latched doorbells (03 R103; 01 R28, R31; 08 R236; 10 R293; 13 R374, R383, R387; 14 R420; 15 R431). -/

namespace Sys2Proof.Machine

/-! ### Pairs (03 R103 step 2) -/

/-- Earlier enabled pairs of the same VF. -/
def earlierPairs (s : State) (p : Nat) : Nat :=
  ((enabledPairs s).filter fun q => decide (q < p) && decide (pairFunc s q = pairFunc s p)).length

/-- The pair's MAINT bit is cleared at the lock (R89). -/
def maintCleared (s : State) (p : Nat) : Bool :=
  !pairIsEvent s p && decide (pairFunc s p ≠ 0) && (classMask s p).testBit 5

/-- The pair is disabled by the checks: an empty CLASS_MASK, or beyond the 16th of its VF. -/
def lockDisables (s : State) (p : Nat) : Bool :=
  (!pairIsEvent s p && decide ((if maintCleared s p then classMask s p - 32 else classMask s p) = 0)) ||
    (decide (pairFunc s p ≠ 0) && decide (16 ≤ earlierPairs s p))

/-- INT_EN is cleared: VECTOR is not below the table size. -/
def intCleared (s : State) (p : Nat) : Bool :=
  rdb s (pairReg p 0x14) 16 && decide (msixSize s (pairFunc s p) ≤ rdf s (pairReg p 0x14) 10 0)

/-- One pair is checked, judged in the state `s0` before the lock, and its ring armed. A pair that the checks disable keeps the
value of EN, and is not live (log 98). -/
def lockPair (s0 : State) (p : Nat) (s : State) : State :=
  let s1 := if maintCleared s0 p then wrf (pairReg p 0x10) 29 29 0 s else s
  let s2 := if intCleared s0 p then wrf (pairReg p 0x14) 16 16 0 s1 else s1
  let s3 := if maintCleared s0 p || lockDisables s0 p || intCleared s0 p then
      raise hostEvent 3 (wrf (pairReg p 0x30) 1 1 1 s2) else s2
  setPair p { pairOf s3 p with live := !lockDisables s0 p, armed := !lockDisables s0 p } s3

/-- Every enabled pair is checked. -/
def lockPairs (s0 : State) : List Nat → State → State
  | [], s => s
  | p :: ps, s => lockPairs s0 ps (lockPair s0 p s)

/-- Each VF keeps its doorbell pages. -/
def keepPages (s0 : State) : List Nat → State → State
  | [], s => s
  | p :: ps, s =>
    let f := pairFunc s0 p
    keepPages s0 ps (if f = 0 then s else setFunc f { funcOf s f with pages := vfPages s0 f } s)

/-! ### The lost-work report (14 R420) -/

/-- Word `k` of the entry of pair `p` in FAULT.LEDGER_PREV. -/
def prevWord (s : State) (p k : Nat) : Word := rd s (0x54020 + 16 * p + 4 * k)

/-- A lost-work record. -/
def lostRec (cls : Nat) (result : Dword) (ref : Word) : Rec :=
  { event := true, interim := false, status := 0x51, disp := 7, cls, tag8 := 0, ring := 0, descIndex := 0, result, progress := 0,
    faultRef := ref, urgent := false }

/-- The record of pair `p`, where its entry tells lost work, on event pair `q`. -/
def lostPair (q p : Nat) (s : State) : State :=
  let w0 := prevWord s p 0
  let tag := prevWord s p 1
  let w2 := prevWord s p 2
  if w2.getLsbD 7 ∧ field w0 15 0 ≠ field w0 31 16 then
    let t := logFault (7, p) 2 2 0 0xFF (tag, 2 * p, w0.setWidth 16) 0 s
    eventRecord q (lostRec (if w2.getLsbD 6 then field w2 2 0 else 0) (BitVec.ofNat 64 (w0.toNat + 2 ^ 32 * tag.toNat))
      (refOf (7, p) t)) t
  else s

/-- Every pair of the previous boot, in ascending order. -/
def lostPairs (q : Nat) : List Nat → State → State
  | [], s => s
  | p :: ps, s => lostPairs q ps (lostPair q p s)

/-- The report: its pair is an active event pair. -/
def lostReport (s : State) : State :=
  let q := rdf s 0x50018 7 0
  if rdb s 0x50018 8 && pairIsEvent s q && pairActive s q then
    (if rdb s 0x50040 0 then lostPairs q (List.range 256) s
    else
      let t := logFault (7, 0xFF) 2 2 0 0xFF (0, 0, 0) 0 s
      eventRecord q (lostRec 0 (BitVec.allOnes 64) (refOf (7, 0xFF) t)) t)
  else s

/-! ### eAxC map entries (08 R236) -/

/-- An entry is faulty beside the earlier entries in force. -/
def eaxcFaulty (s : State) (w : Word) (earlier : List Word) : Bool :=
  !rdb s (0xD0100 + 0x40 * eaxcPort w) 0 || !gridEn s (eaxcGrid w) ||
    (earlier.any fun v => decide (field v 18 0 = field w 18 0) && decide (v.getLsbD 25 = w.getLsbD 25)) ||
    (eaxcUp w && earlier.any fun v => eaxcUp v && decide (field v 24 19 = field w 24 19)) ||
    (eaxcUp w && decide (ulStreams s (eaxcGrid w) ≤ eaxcStream w))

/-- Entries from index `i` on are checked; `earlier` holds the entries in force before it. -/
def eaxcCheck : Nat → Nat → List Word → State → State
  | 0, _, _, s => s
  | n + 1, i, earlier, s =>
    let w := rd s (eaxcReg i)
    if w.getLsbD 31 then
      (if eaxcFaulty s w earlier then
        eaxcCheck n (i + 1) earlier (raise fhEvent 2 (wrf 0xD0000 8 8 1 (wrf (eaxcReg i) 30 30 1 s)))
      else eaxcCheck n (i + 1) (earlier ++ [w]) s)
    else eaxcCheck n (i + 1) earlier s

/-! ### The other blocks -/

/-- HOLD_CFG: size of the hold buffer and its start (10 R293). -/
def holdBytes (s : State) : Nat := rdf s 0x60018 10 0 * 2 ^ 20
def holdBase (s : State) : Nat := rdf s 0x60018 26 16 * 2 ^ 26

/-- The flow table overlaps the hold buffer, or the hold buffer passes the end of HBM. -/
def flowOverlap (s : State) : Bool :=
  decide (holdBytes s ≠ 0) &&
    (decide (hbmSize < holdBase s + holdBytes s) ||
      (decide (ftBase s < holdBase s + holdBytes s) && decide (holdBase s < ftBase s + 128 * 2 ^ ftLog2 s)))

/-- The check of R293. -/
def flowCheck (s : State) : State := if flowOverlap s then raise flowEvent 4 (wrf 0x60004 1 1 1 s) else s

/-- Links with EN = 1 begin to train (13 R374). -/
def trainLinks : Nat → State → State
  | 0, s => s
  | l + 1, s =>
    let t := trainLinks l s
    if rdb t (linkReg l 0) 0 then setLinkState l 1 (setLink l { linkOf t l with trainAt := t.clk } t) else t

/-- The time of a root's zero step is kept. -/
def rootSteps (s : State) : State := { s with splice := { s.splice with rootFrom := some s.clk } }

/-- The chip's role in the fabric's time (13 R383). -/
def fabricLock (s : State) : State :=
  if timeFollow s ∧ timeSrc s ≠ 0 then wrf 0xB0004 16 16 1 (wrf 0xB0010 0 0 0 s)
  else if timeRoot s ∧ timeSrc s = 0 then
    rootSteps (applyStep 0 s)
  else s

/-- A group of this chip alone is formed (13 R387). -/
def formGroup (g : Nat) (s : State) : State :=
  if groupValid s g ∧ groupSize s g = 1 ∧ groupBase s g = chipNum s ∧ groupLocked s g ≠ detLock s then
    wrf (groupReg g) 2 2 1 s else s

def formGroups : Nat → State → State
  | 0, s => s
  | g + 1, s => formGroup g (formGroups g s)

/-! ### Latched doorbells (01 R31; 03 R103 step 4) -/

/-- BAR2 offset of pair `p`'s page in its function. -/
def pairPageOff (s : State) (p : Nat) : Nat :=
  let f := pairFunc s p
  if f = 0 then pageOff p 0 else pageOff ((funcOf s f).pages.findIdx fun q => decide (q.val = p)) 0

/-- A latched doorbell is evaluated, or dropped with its pair. -/
def latchedRing (p : Nat) (s : State) : State :=
  match (pairOf s p).latched with
  | none => s
  | some v =>
    let t := setPair p { pairOf s p with latched := none } s
    if (pairOf s p).live then sqRing p v (pairFunc s p) (pairPageOff s p) t else t

def latchedRings : List Nat → State → State
  | [], s => s
  | p :: ps, s => latchedRings ps (latchedRing p s)

/-! ### The lock -/

/-- What setting the lock does, in one step (03 R103). -/
def applyLock (s : State) : State :=
  let s1 := keepPages s (enabledPairs s) (lockPairs s (enabledPairs s) (wrf 0x8 0 0 1 s))
  let s2 := lostReport s1
  let s3 := formGroups 16 (fabricLock (trainLinks 12 (flowCheck (eaxcCheck 128 0 [] s2))))
  bootCommit (latchedRings (s3.pairs.map Prod.fst) s3)

end Sys2Proof.Machine
end

