-- ==== Sys2Proof/Machine/Image.lean ====
section
/-! DEFINITION. Call-sheet and model images: the check of their code, their container and tables, and the checks that a
load makes (05 R149, R166; 06 R180–R187, R191; 09 R255, R271; 11 R322; 13 R372, R396). -/

namespace Sys2Proof.Machine

/-! ### Code words (05 R148, R149, R152, R166) -/

/-- Bits [hi:lo] of a code word. -/
def cw (w : Word) (hi lo : Nat) : Nat := field w hi lo

/-- F0; S is 0 where R161 does not list the row (log 10). -/
def f0Ok (w : Word) : Bool :=
  let op := cw w 28 24
  let ct := if op = 18 then decide (cw w 10 7 ≤ 10) && decide (cw w 6 0 = 0) else decide (cw w 0 0 = 0)
  let s0 := decide (cw w 23 23 = 0)
  decide (op ≤ 23) && ct &&
    (s0 || ([0, 1, 2, 4, 5, 6, 10, 15, 16, 19, 20, 22] : List Nat).contains op) &&
    (if op = 4 ∨ op = 5 then decide (cw w 22 19 < 2)
     else if op = 6 then decide (cw w 18 15 < 4)
     else if op = 15 ∨ op = 16 ∨ op = 22 then decide (cw w 14 11 = 0)
     else if op = 17 then decide (cw w 22 19 = 0)
     else true)

/-- F1. -/
def f1Ok (w : Word) : Bool :=
  let op := cw w 28 24
  decide (op ≤ 8) && (decide (cw w 23 23 = 0) || decide (op = 0) || decide (op = 3)) && (if op = 6 then decide (cw w 22 19 = 0) else if 7 ≤ op then decide (cw w 18 16 = 0) else true)

/-- F2 and F3. -/
def f2Ok (w : Word) : Bool := decide (cw w 28 24 ≤ 5) && (decide (cw w 15 14 % 2 = 0) || decide (cw w 13 0 = 0))
def f3Ok (w : Word) : Bool :=
  let op := cw w 23 22
  if op = 1 ∨ op = 2 then decide (cw w 21 4 = 0) else if op = 3 then decide (cw w 28 27 = 0) else true

/-- F4. -/
def f4Ok (w : Word) : Bool :=
  let op := cw w 28 26
  let plain := decide (cw w 25 21 = 0)
  match op with
  | 0 => decide (cw w 25 22 ≤ 10)
  | 1 => plain
  | 2 => plain && decide (cw w 20 0 = 0)
  | 3 => plain && decide (cw w 16 0 = 0)
  | 4 => plain && decide (cw w 16 9 = 0)
  | 5 => plain
  | 6 => plain && decide (cw w 20 0 = 0)
  | _ => false

/-- Exactly one array is named. -/
def oneHot4 (m : Nat) : Bool := m = 1 || m = 2 || m = 4 || m = 8

/-- F5. -/
def f5Ok (w : Word) : Bool :=
  let one := oneHot4 (cw w 24 21)
  match cw w 28 26 with
  | 0 => one && decide (cw w 25 25 = 0) && decide (cw w 13 0 = 0)
  | 1 => one && decide (cw w 25 25 = 0) && decide (cw w 4 0 = 0)
  | 2 => decide (cw w 24 21 ≠ 0) && decide (cw w 25 25 = 0) && decide (cw w 20 0 = 0)
  | 3 => one && decide (cw w 13 0 = 0)
  | 4 => one && decide (cw w 25 25 = 0) && decide (cw w 20 18 = 0) && decide (cw w 13 0 = 0)
  | _ => false

/-- F6, for C1 within V16–V31 and M4–M7. -/
def f6Ok (c1 : Bool) (w : Word) : Bool :=
  let op := cw w 28 24
  let vd := cw w 22 18
  let va := cw w 17 13
  let vb := cw w 12 8
  let men := decide (cw w 7 7 = 1)
  let mk := cw w 6 4
  let typ := cw w 2 0
  let v := fun (k : Nat) => !c1 || decide (16 ≤ k)
  let m := fun (k : Nat) => !c1 || decide (4 ≤ k)
  let arith := decide (typ ≤ 4)
  decide (cw w 3 3 = 0) &&
    (decide (cw w 23 23 = 0) || ([1, 4, 5, 6, 9, 10, 11, 13] : List Nat).contains op) &&
    (if op ≤ 1 then decide (typ ≤ 6) && !men && decide (mk = 0) && decide (va = 0) && decide (vb < 8) && v vd
     else if op ≤ 3 then decide (typ ≤ 6) && !men && decide (mk = 0) && decide (vb < 8) && v vd && v va
     else if op ≤ 6 ∨ op = 9 ∨ op = 10 then arith && v vd && v va && v vb && (if men then m mk else decide (mk = 0))
     else if op = 7 then arith && decide (vd < 8) && !men && decide (mk ≤ 5) && v va && v vb && m vd
     else if op = 8 then arith && !men && v vd && v va && v vb && m mk
     else if op = 11 then arith && decide (mk % 4 ≤ 2) && v va && (if vd < 16 then decide (vb = 0) else v vb)
     else if op = 12 then arith && !c1 && decide (mk ≤ 4) && decide (vd ≤ 1) && !men && decide (vb % 16 < 8) &&
       (if vb < 16 then decide (vb = 0) else decide (va = 0))
     else if op = 13 then arith && !c1 && decide (vd ≤ 1) && decide (vb < 8) && !men && decide (mk = 0) && decide (va = 0)
     else false)

/-- F7. -/
def f7Ok (c1 : Bool) (w : Word) : Bool :=
  let d0 := decide (cw w 22 19 = 0)
  let h0 := decide (cw w 18 16 = 0)
  let o := cw w 15 0
  decide (cw w 23 23 = 0) &&
    (match cw w 28 24 with
    | 0 => d0 && h0 && decide (o = 0)
    | 1 => d0 && h0 && decide (o = 0)
    | 2 => d0 && h0 && decide (o < 256)
    | 3 => h0 && decide (o ≤ 9)
    | 4 => h0 && decide (o ≤ 1)
    | 5 => h0 && decide (o < 1024)
    | 6 => h0 && decide (o < 1024)
    | 7 => d0 && decide (o = 0)
    | 8 => h0 && decide (o ≤ 1) && !c1
    | 9 => decide (o < 8)
    | 10 => decide (o < 16)
    | _ => false)

/-- A code word passes the check, for C1 or not: it spells an instruction, and the fields that its row does not use are 0. -/
def codeWordOk (c1 : Bool) (w : Word) : Bool :=
  (decodeCode 0 0 w).isSome && match cw w 31 29 with
  | 0 => f0Ok w
  | 1 => f1Ok w
  | 2 => f2Ok w
  | 3 => f3Ok w
  | 4 => f4Ok w
  | 5 => f5Ok w
  | 6 => f6Ok c1 w
  | _ => f7Ok c1 w

/-- A LOOP or LOOPI word. -/
def isLoop (w : Word) : Bool := decide (cw w 31 29 = 4) && (decide (cw w 28 26 = 4) || decide (cw w 28 26 = 5))

/-- No loop body ends in an F4 instruction. -/
def loopEndsOk : List Word → Bool
  | [] => true
  | w :: ws =>
    (!isLoop w || (match ws[cw w 8 0]? with
      | some e => decide (cw e 31 29 ≠ 4)
      | none => true)) && loopEndsOk ws

/-- A code section passes R149. -/
def codeOk (c1 : Bool) (ws : List Word) : Bool := ws.all (codeWordOk c1) && loopEndsOk ws

/-- A float AADD (07 R211). -/
def isFloatAadd (w : Word) : Bool := decide (cw w 31 29 = 7) && decide (cw w 28 24 = 9) && decide (cw w 2 0 ≤ 1)

/-! ### The container (06 R180) -/

/-- A section entry. -/
structure Sect where
  typ : Nat
  role : Nat
  off : Nat
  len : Nat
  deriving DecidableEq, Repr

/-- Bytes `o` to `o + n − 1`. -/
def sub (bs : List Byte) (o n : Nat) : List Byte := (bs.drop o).take n
/-- A list cut into pieces of `size`, `n` of them. -/
def pieces (size : Nat) : Nat → List Byte → List (List Byte)
  | 0, _ => []
  | n + 1, bs => bs.take size :: pieces size n (bs.drop size)
/-- Whole pieces of a list. -/
def wholePieces (size : Nat) (bs : List Byte) : List (List Byte) := pieces size (bs.length / size) bs

/-- The directory. -/
def imageDir (bs : List Byte) : List Sect :=
  (pieces 16 (leAt bs 6 2) (bs.drop 64)).map fun e => ⟨leAt e 0 2, leAt e 2 2, leAt e 4 4, leAt e 8 4⟩

/-- The section of a type (and, for sections per role, of a role). -/
def sectOf (bs : List Byte) (typ : Nat) (role : Option Nat) : Option (List Byte) :=
  ((imageDir bs).find? fun x => decide (x.typ = typ) && (match role with
    | some r => decide (x.role = r)
    | none => true)).map fun x => sub bs x.off x.len

/-- The section, empty where there is none. -/
def sectD (bs : List Byte) (typ : Nat) (role : Option Nat) : List Byte := (sectOf bs typ role).getD []

/-- Bytes as words. -/
def wordsOf (bs : List Byte) : List Word := (wholePieces 4 bs).map fun b => BitVec.ofNat 32 (leNat b)

/-- CRC of a container whose CRC field is the four bytes at `o`. -/
def crcAt (bs : List Byte) (o : Nat) : Nat := crc32 (putAt bs o (zeros 4))

/-- Header fields of check 1 of R184. -/
def imageHeaderOk (kind : Nat) (bs : List Byte) : Bool :=
  decide (64 ≤ bs.length) && decide (leAt bs 0 4 = 0x0C115EE7) && decide (leAt bs 4 1 = kind) && decide (leAt bs 5 1 = 1) &&
    decide (crcAt bs 40 = leAt bs 40 4) && decide (leAt bs 18 1 < 2) && decide (sub bs 44 20 = zeros 20) &&
    decide (1 ≤ leAt bs 6 2) && decide (leAt bs 6 2 ≤ 256) && decide (1 ≤ leAt bs 16 2) && decide (leAt bs 16 2 ≤ 64) &&
    decide (1 ≤ leAt bs 19 1) && decide (leAt bs 19 1 ≤ 4) && decide (leAt bs 28 2 ≤ 1024) &&
    decide (64 + 16 * leAt bs 6 2 ≤ bs.length)

/-- A section type that is per role. -/
def perRole (t : Nat) : Bool := decide (t = 1) || decide (t = 3) || decide (t = 6)

/-- A directory entry is sound for an image kind (06 R180, 13 R396). -/
def sectOk (kind roles len : Nat) (x : Sect) (e : List Byte) : Bool :=
  decide (1 ≤ x.typ) && decide (x.typ ≤ 10) && decide (leAt e 12 4 = 0) && decide (x.off + x.len ≤ len) &&
    (if kind = 1 then decide (x.typ ≠ 2) && decide (x.typ ≠ 10) else decide (x.typ ≠ 7) && decide (x.typ ≠ 8)) &&
    (!perRole x.typ || decide (x.role < roles))

/-- Every entry is sound, no section comes twice, and those the kind requires are there: CODE of every role, STEPS of a call
sheet (log 46). -/
def dirOk (kind : Nat) (bs : List Byte) : Bool :=
  let d := imageDir bs
  let roles := leAt bs 16 2
  ((d.zip (pieces 16 (leAt bs 6 2) (bs.drop 64))).all fun x => sectOk kind roles bs.length x.1 x.2) &&
    (d.all fun x => decide ((d.filter fun y => decide (y.typ = x.typ) && (!perRole x.typ || decide (y.role = x.role))).length = 1)) &&
    ((List.range roles).all fun r => (sectOf bs 1 (some r)).isSome) && (decide (kind = 2) || (sectOf bs 7 none).isSome)

/-! ### The tables (06 R180, R183, R191) -/

def bufEnt (e : List Byte) : BufEnt := ⟨leAt e 0 6, leAt e 8 4, leAt e 12 1, leAt e 13 2⟩
def bufOk (roles : Nat) (b : BufEnt) : Bool := decide (b.kind ≤ 2) && (decide (b.kind ≠ 2) || decide (b.role < roles))

def reelEnt (e : List Byte) : ReelEnt := ⟨BitVec.ofNat 64 (leAt e 0 8), BitVec.ofNat 64 (leAt e 8 8), BitVec.ofNat 8 (leAt e 16 1)⟩

/-- Engine codes are listed, and every job reel is followed by its done reel (11 R322). -/
def reelsOk : List ReelEnt → Bool
  | [] => true
  | x :: xs =>
    (decide (x.engine.toNat ≤ 3) ||
      ((decide (x.engine = 0x11) || decide (x.engine = 0x12)) && (match xs with
        | y :: _ => decide (y.engine = 3)
        | [] => false))) && reelsOk xs

def stepEnt (e : List Byte) : StepEnt :=
  { role := leAt e 0 1, chain := leAt e 1 1, entry := BitVec.ofNat 15 (leAt e 2 2), symbol := leAt e 4 1 % 16,
    last := (leAt e 4 1).testBit 4, offset := signedOf 32 (leAt e 8 4), check := leAt e 12 4, deadline := signedOf 32 (leAt e 16 4) }

/-- A STEPS entry is sound (06 R183, 09 R255). -/
def stepOk (roles : Nat) (e : List Byte) : Bool :=
  let x := stepEnt e
  decide (x.role < roles) && decide (x.chain ≤ 15) && decide (leAt e 2 2 < 0x8000) && decide (x.symbol ≤ 13) &&
    decide (leAt e 4 1 < 32) && decide (leAt e 5 3 = 0) && decide (leAt e 20 4 = 0) && decide (-10000000 ≤ x.offset) &&
    decide (x.offset ≤ 10000000) && (x.last || decide (x.deadline = 0))

/-- Every chain has exactly one LAST step (log 46). -/
def lastsOk (st : List StepEnt) : Bool :=
  st.all fun x => decide ((st.filter fun y => decide (y.chain = x.chain) && y.last).length = 1)

def winEnt (e : List Byte) : WinEnt :=
  { role := leAt e 0 1, amask := BitVec.ofNat 4 (leAt e 1 1), step := leAt e 2 2, release := leAt e 4 4, opens := leAt e 8 4,
    close := leAt e 12 4 }
def winOk (roles nsteps : Nat) (e : List Byte) : Bool :=
  decide (leAt e 0 1 < roles) && decide (leAt e 1 1 < 16) && decide (leAt e 2 2 ≤ 255) && decide (leAt e 2 2 < nsteps)

/-- A COLLECTIVES entry (13 R396). -/
structure CollEnt where
  layer : Nat
  op : Nat
  fmt : Nat
  buf : Nat
  count : Nat
  deriving DecidableEq, Repr

def collEnt (e : List Byte) : CollEnt := ⟨leAt e 0 2, leAt e 2 1, leAt e 3 1, leAt e 4 2, leAt e 8 4⟩
/-- Bytes of an element as a contribution holds it: FP32, BF16, INT32, INT64, raw exact. -/
def collSize (fmt : Nat) : Nat := match fmt with
  | 0 => 4 | 1 => 2 | 2 => 4 | 3 => 8 | _ => 80
def collOk (bufs : List BufEnt) (e : List Byte) : Bool :=
  let c := collEnt e
  decide (c.op ≤ 2) && decide (c.fmt ≤ 4) && decide (leAt e 6 2 = 0) && decide (leAt e 12 4 = 0) && decide (1 ≤ c.count) &&
    decide (c.count ≤ 2 ^ 28) && (decide (c.op = 0) || decide (c.fmt = 2) || decide (c.fmt = 3)) &&
    (match bufs[c.buf]? with
    | some b => decide (c.count * collSize c.fmt ≤ b.len)
    | none => false)

/-- Collectives of an image, in entry order. -/
def imageColls (raw : List Byte) : List CollEnt := (wholePieces 16 (sectD raw 10 none)).map collEnt

/-- The image that well-formed bytes hold. -/
def readImage (bs : List Byte) : Image :=
  let roles := leAt bs 16 2
  let per := fun (t : Nat) => (List.range roles).filterMap fun r => (sectOf bs t (some r)).map fun b => (r, b)
  { kind := leAt bs 4 1, tool := BitVec.ofNat 32 (leAt bs 8 4), abi := BitVec.ofNat 32 (leAt bs 12 4), roles,
    standbyOk := (leAt bs 18 1).testBit 0, overlap := leAt bs 19 1, lsBytes := leAt bs 20 4, poolBytes := leAt bs 24 4,
    reels := leAt bs 28 2, buffers := leAt bs 30 2, fMin := leAt bs 32 4, hbmMin := leAt bs 36 4,
    code := (per 1).map fun x => (x.1, wordsOf x.2), codeSu := (sectOf bs 2 none).map wordsOf, masktab := per 3,
    buftab := (wholePieces 16 (sectD bs 4 none)).map bufEnt, reeltab := (wholePieces 17 (sectD bs 5 none)).map reelEnt,
    reloc := (per 6).map fun x => (x.1, wordsOf x.2), steps := (wholePieces 24 (sectD bs 7 none)).map stepEnt,
    windows := (wholePieces 16 (sectD bs 8 none)).map winEnt, raw := bs }

/-- Table sections hold whole entries, as many as the header says. -/
def tablesOk (bs : List Byte) : Bool :=
  let roles := leAt bs 16 2
  let i := readImage bs
  decide ((sectD bs 4 none).length = 16 * i.buffers) && decide ((sectD bs 5 none).length = 17 * i.reels) &&
    decide ((sectD bs 7 none).length % 24 = 0) && decide ((sectD bs 8 none).length % 16 = 0) &&
    decide ((sectD bs 10 none).length % 16 = 0) &&
    ((List.range roles).all fun r => decide ((sectD bs 1 (some r)).length % 4 = 0) &&
      decide ((sectD bs 3 (some r)).length % 128 = 0) && decide ((sectD bs 3 (some r)).length ≤ 64 * 128)) &&
    i.buftab.all (bufOk roles) && reelsOk i.reeltab && (wholePieces 24 (sectD bs 7 none)).all (stepOk roles) && lastsOk i.steps &&
    (wholePieces 16 (sectD bs 8 none)).all (winOk roles i.steps.length) &&
    (wholePieces 16 (sectD bs 10 none)).all (collOk i.buftab)

/-- Checks 1 and 2 of R184, and R372: the image, where it is well formed. -/
def parseImage (kind : Nat) (bs : List Byte) : Option Image :=
  if imageHeaderOk kind bs && dirOk kind bs && tablesOk bs then
    (let i := readImage bs
     let su := match i.codeSu with
       | some c => codeOk true c
       | none => true
     if (i.code.all fun x => codeOk false x.2) && su && !Config.digestMarkedTwice bs then some i else none)
  else none

/-! ### Admission (06 R184–R187; 07 R211) -/

/-- HBM data rate of a RATE code in Mb/s per pin, and the lowest of the controllers (07 R202). -/
def rateOf (code : Nat) : Nat := match code with
  | 0 => 6400 | 1 => 8000 | 2 => 9200 | _ => 9600
def hbmRate (s : State) : Nat := (List.range Config.nStacks).foldl (fun a c => min a (rateOf (rdf s (hbmReg c 4) 1 0))) 9600

/-- Local-store bytes of a tile that loaded images use; pool bytes and reels that they hold. -/
def lsUsed (s : State) (n : Nat) : Nat := ((s.loaded.filter fun l => l.tiles.contains n).map fun l => l.img.lsBytes).sum
def poolUsed (s : State) : Nat := (s.loaded.map fun l => l.img.poolBytes).sum
def reelsUsed (s : State) : List Nat := s.loaded.flatMap (·.reels)
/-- Pool bytes that images may use: all but the atomics cache (07 R208). -/
def poolFree (s : State) : Nat := poolSize - rdf s 0xA0000 4 0 * 0x100000 - poolUsed s
/-- The lowest free physical reels (log 47). -/
def freeReels (s : State) (n : Nat) : List Nat := ((List.range 1024).filter fun r => !(reelsUsed s).contains r).take n

/-- The model that a MODEL_ID names; a lost or released one counts as not loaded (14 R403). -/
def modelOf (s : State) (id : Nat) : Option Loaded :=
  s.loaded.find? fun l => decide (l.img.kind = 2) && decide (l.id.toNat = id) && decide (l.state = .active)
/-- The resident model of a MODEL_ID, lost or not. -/
def residentModel (s : State) (id : Nat) : Option Loaded :=
  s.loaded.find? fun l => decide (l.img.kind = 2) && decide (l.id.toNat = id) && decide (l.state = .active ∨ l.state = .lost)

/-- The aperture of an image lies in the atomics cache, which reaches to the end of the pool (07 R208). -/
def apertureCached (s : State) (i : Image) : Bool := match i.buftab with
  | b :: _ => decide (b.kind = 0) && decide (slotBase s ≤ b.addr) && decide (b.addr + b.len ≤ poolBase + poolSize)
  | [] => false
/-- The code holds a float atomic outside the atomics cache. -/
def floatOutside (s : State) (i : Image) : Bool :=
  ((i.code.any fun x => x.2.any isFloatAadd) || (match i.codeSu with
    | some c => c.any isFloatAadd
    | none => false)) && !apertureCached s i

/-- A buffer-table entry lies inside its region. -/
def bufInside (s : State) (b : BufEnt) : Bool :=
  if b.kind = 2 then decide (b.addr + b.len ≤ lsSize)
  else decide (regionOf s b.addr b.len = some (if b.kind = 0 then .pool else .hbm))

/-- Check 5. -/
def roomOk (s : State) (i : Image) (tiles : List Nat) : Bool :=
  (tiles.all fun n => decide (i.lsBytes + lsUsed s n ≤ lsSize)) && decide (i.poolBytes ≤ poolFree s) &&
    decide (i.reels + (reelsUsed s).length ≤ 1024) && i.buftab.all (bufInside s)

/-- Check 6. -/
def clockOk (s : State) (i : Image) : Bool := decide (i.fMin ≤ 1000 * rdf s 0x40018 10 0) && decide (i.hbmMin ≤ hbmRate s)

/-- Check 7, of a call sheet's claims. -/
def claimsOk (s : State) (i : Image) : Bool :=
  let c := sectD i.raw 9 none
  decide (Config.claimsHbm c ≤ 10 * rdf s 0x30014 7 0) && decide (Config.claimsPool c ≤ 10 * rdf s 0x30014 15 8)

/-- The deadline of a chain in ns from symbol 0 of its slot (09 R271). -/
def chainDeadline (s : State) (chain : Nat) : Int :=
  let g := chain % 4
  if chain / 4 ≤ 1 then ((slotNs (gridMu s g) + 1000 * rdf s (0x30300 + 4 * g) 8 0 : Nat) : Int)
  else -((10 * rdf s 0xD0018 15 0 : Nat) : Int)

/-- Cue of a step from its slot boundary, in 2^-42 ns units. -/
def stepCue (s : State) (x : StepEnt) : Int := (symbolUnits (gridMu s (x.chain % 4)) x.symbol : Int) + x.offset * unitsNs
/-- The same on the common timescale, for steps of one role (log 42). -/
def stepAt (s : State) (x : StepEnt) : Int := stepCue s x + gridOffset s (x.chain % 4) * unitsNs

/-- The director writes the configured deadlines into LAST steps (09 R271). -/
def withDeadlines (s : State) (st : List StepEnt) : List StepEnt :=
  st.map fun x => if x.last then { x with deadline := chainDeadline s x.chain } else x

/-- Length of a slot of a step's grid, in units. -/
def stepSlot (s : State) (x : StepEnt) : Int := ((slotNs (gridMu s (x.chain % 4)) * unitsNs : Nat) : Int)

/-- Of two steps of one role of one grid, `b` lying `k` slots on, the CHECK of `a` is no later than the cue of `b` where `b` comes
next; of two cues at one instant that of the lower index comes first. -/
def checkBefore (s : State) (a b : StepEnt × Nat) (k : Int) : Bool :=
  let d := stepAt s b.1 + k * stepSlot s a.1 - stepAt s a.1
  decide (d < 0) || (decide (d = 0) && decide (b.2 ≤ a.2)) || decide ((a.1.check : Int) * unitsNs ≤ d)

/-- The same for steps of two grids, whatever slots of theirs meet: the cues of `b` recur behind that of `a` by the shorter slot. -/
def checkAcross (s : State) (a b : StepEnt × Nat) : Bool :=
  let p := min (stepSlot s a.1) (stepSlot s b.1)
  let d := (stepAt s b.1 - stepAt s a.1) % p
  (decide (d = 0) && decide (b.2 ≤ a.2) && decide ((a.1.check : Int) * unitsNs ≤ p)) || decide ((a.1.check : Int) * unitsNs ≤ d)

/-- The CHECK of every step falls no later than the cue of the next step of its role, in its slot or in another that may be in
flight beside it (06 R184 check 8, R188; log 42). -/
def rolesOk (s : State) (overlap : Nat) (st : List StepEnt) : Bool :=
  (st.zipIdx).all fun a => (st.zipIdx).all fun b =>
    decide (a.1.role ≠ b.1.role) ||
      (if a.1.chain % 4 = b.1.chain % 4 then
        (List.range overlap).all fun k => checkBefore s a b k && checkBefore s a b (-(k : Int))
      else checkAcross s a b)

/-- Check 8. -/
def stepsOk (s : State) (overlap : Nat) (st : List StepEnt) : Bool :=
  (st.all fun x => !x.last || (decide (x.deadline ≤ chainDeadline s x.chain) &&
    decide (stepCue s x + (x.check : Int) * unitsNs ≤ (chainDeadline s x.chain - 5000) * unitsNs))) && rolesOk s overlap st

/-- Check 9: shadow loads in time, and every window in its role's step (log 42). -/
def windowsOk (s : State) (i : Image) : Bool :=
  Config.shadowLoadsInTime i.raw && i.windows.all fun w => match i.steps[w.step]? with
    | none => false
    | some st => decide (st.role = w.role) && decide (w.release + 2000 ≤ w.opens) && decide (w.opens + 100 * rdf s 0x30010 7 0 ≤ w.close) &&
        decide (w.close ≤ st.check)

/-- How a load ends: a status with NOT_STARTED, REFUSED_CAPACITY (log 44), or the binding. -/
inductive Admit where
  | bad (status : Nat)
  | full
  | ok (tiles reels : List Nat)
  deriving DecidableEq, Repr

/-- Checks 4 to 9 of an image for partition `p`. -/
def admitTo (s : State) (p : Nat) (i : Image) : Admit :=
  let m := members s p
  let tiles := m.take i.roles
  if m.length < i.roles ∨ (standbys s p ≠ [] ∧ i.standbyOk = false) then .full
  else if ¬ roomOk s i tiles ∨ ¬ clockOk s i then .full
  else if i.kind = 1 ∧ (claimsOk s i = false ∨ stepsOk s i.overlap i.steps = false) then .full
  else if i.kind = 1 ∧ windowsOk s i = false then .bad 0x10
  else .ok tiles (freeReels s i.reels)

/-- Every check of a call sheet from check 3 on. -/
def admitSheet (s : State) (replace : Bool) (i : Image) : Admit :=
  if detLock s = true ∧ floatOutside s i = true then .bad 0x42
  else match phyPart s with
    | none => .bad 0x42
    | some p =>
      if i.steps.any fun x => !gridEn s (x.chain % 4) then .bad 0x42
      else if replace = false ∧ (activeLoad s).isSome then .bad 0x42
      else admitTo s p i

/-- Every check of a model from check 3 on, and R187. -/
def admitModel (s : State) (id p : Nat) (i : Image) : Admit :=
  if detLock s = true ∧ floatOutside s i = true then .bad 0x42
  else if ¬ (partKind s p = 2 ∨ partKind s p = 3) then .bad 0x42
  else match residentModel s id with
    | some l => if l.part ≠ p then .bad 0x42 else admitTo s p i
    | none => admitTo s p i

end Sys2Proof.Machine
end

