-- ==== Sys2Proof/Machine/Load.lean ====
section
/-! DEFINITION. Loading, switching and releasing call sheets, models and receiver packs (06 R181, R182, R184–R187; 09 R262,
R277, R278). -/

namespace Sys2Proof.Machine

/-! ### Binding (06 R181) -/

/-- A reel operand made physical. -/
def relocWord (reels : List Nat) (w : Word) : Word :=
  if cw w 31 29 = 7 ∧ (cw w 28 24 = 5 ∨ cw w 28 24 = 6) then setField w 9 0 (reels.getD (cw w 9 0) 0) else w

/-- Code words with those that RELOC names rewritten. -/
def relocCode (reels : List Nat) : List Word → List Word → List Word
  | [], ws => ws
  | e :: es, ws => relocCode reels es (ws.modify e.toNat (relocWord reels))

/-- The RELOC entries of a role that are byte offsets of descriptor templates, or those that are not. -/
def relocOf (i : Image) (role : Nat) (templates : Bool) : List Word :=
  match i.reloc.find? fun y => decide (y.1 = role) with
  | some y => (y.2.zipIdx.filter fun e => decide (Config.relocTemplate i.raw role e.2 = templates)).map (·.1)
  | none => []

/-- The code of a role as it is bound. -/
def boundCode (l : Loaded) (role : Nat) : List Word :=
  match l.img.code.find? fun x => decide (x.1 = role) with
  | some x => relocCode l.reels (relocOf l.img role false) x.2
  | none => []

/-- A 16-bit reel field at a byte offset made physical. -/
def relocField (reels : List Nat) (o : Nat) (bs : List Byte) : List Byte :=
  bs.take o ++ leBytes 2 (reels.getD (leAt bs o 2 % 1024) 0) ++ bs.drop (o + 2)

/-- The reel fields that a Dolly descriptor template at a byte offset uses made physical (06 R172, R181). -/
def relocTemplate (reels : List Nat) (o : Nat) (bs : List Byte) : List Byte :=
  if bs.length < o + 32 then bs
  else
    let f := leAt bs (o + 1) 1
    let b := if f.testBit 2 then relocField reels (o + 2) bs else bs
    if f.testBit 3 then relocField reels (o + 4) b else b

/-- Templates at byte offsets of an image, from its start (log 41). -/
def relocTemplates (reels : List Nat) : List Word → List Byte → List Byte
  | [], bs => bs
  | e :: es, bs => relocTemplates reels es (relocTemplate reels e.toNat bs)

/-- The copy of an image that the director keeps: the templates of every role bound. -/
def boundCopy (i : Image) (reels : List Nat) : List Byte :=
  relocTemplates reels ((List.range i.roles).flatMap fun role => relocOf i role true) i.raw

/-- The director writes a role's code to a tile's program store, from word 0 on (05 R141; log 48). -/
def loadCode (l : Loaded) (role n : Nat) (s : State) : State :=
  let x := tileOf s n
  setTile n { x with prog := tabSetMany (fun _ => 0) x.prog 0 (boundCode l role) } s

/-- The code of every role from `role` on. -/
def loadCodes (l : Loaded) : Nat → List Nat → State → State
  | _, [], s => s
  | role, n :: ns, s => loadCodes l (role + 1) ns (loadCode l role n s)

/-- Tiles of the roles in a mask. -/
def roleTiles (tiles : List Nat) (mask : BitVec 64) : BitVec 64 :=
  BitVec.ofNat 64 (tileBits ((tiles.zipIdx).filterMap fun x => if mask.getLsbD x.2 then some x.1 else none))

/-- Physical reels get their owner, sets and engine. -/
def bindReels (num : Nat) (tiles : List Nat) : List (ReelEnt × Nat) → State → State
  | [], s => s
  | (e, r) :: es, s =>
    bindReels num tiles es (setReel r
      { q := [], ovf := false, owner := some num, prod := roleTiles tiles e.prod, cons := roleTiles tiles e.cons,
        engine := e.engine } s)

/-- A new load. -/
def newLoad (s : State) (id : BitVec 16) (p : Nat) (i : Image) (st : LoadState) (tiles reels : List Nat) : Loaded :=
  { num := s.nextLoad, id, part := p, img := i, state := st, tiles, reels, c1 := i.codeSu.isSome, copy := boundCopy i reels,
    hbmShare := Config.claimsHbm (sectD i.raw 9 none), token := none }

/-- An image is loaded. -/
def install (l : Loaded) (s : State) : State :=
  bindReels l.num l.tiles (l.img.reeltab.zip l.reels) { s with loaded := s.loaded ++ [l], nextLoad := s.nextLoad + 1 }

/-- Loads that meet a condition take a state. -/
def setLoads (f : Loaded → Bool) (st : LoadState) (s : State) : State :=
  { s with loaded := s.loaded.map fun l => if f l then { l with state := st } else l }

/-- A load refused for want of room: OK, REFUSED_CAPACITY (log 44). -/
def refuseFull (r : DRef) (s : State) : State := finish r (okStatus false false s) 3 0 0 0 [] s

/-! ### LOAD_CALLSHEET (06 R182, R184, R186) -/

/-- Any other sheet that is active is superseded; the HARQ store is emptied (06 R186; 09 R262). -/
def activate (num : Nat) (s : State) : State :=
  let t := setLoads (fun l => decide (l.img.kind = 1) && decide (l.state = .active)) .releasing s
  let u := setLoads (fun l => decide (l.num = num)) .active t
  let v : State := { u with radio := { u.radio with harq := [] } }
  match loadedNum v num with
  | some l => loadCodes l 0 l.tiles v
  | none => v

/-- RESULT of a served LOAD_CALLSHEET. -/
def sheetResult (s : State) (l : Loaded) : Dword :=
  BitVec.ofNat 64 (l.id.toNat + 2 ^ 16 * (l.img.roles % 256) + 2 ^ 24 * ((standbys s l.part).length % 256) +
    2 ^ 32 * ((l.img.windows.map fun w => w.close - w.opens).sum % 2 ^ 32))

/-- The frame boundary of the switch, as a cue (06 R186; 02 R52, R54). -/
def switchTime (s : State) (g sfn : Nat) : Int := bindCue s g sfn 0 0 0 (nowUnits s)

/-- The image has passed: it is bound. -/
def sheetServed (r : DRef) (d : BitVec 512) (i : Image) (tiles reels : List Nat) (s : State) : State :=
  let replace := (dOpw d 0).getLsbD 16
  let g := field (dOpw d 1) 11 10
  let sfn := field (dOpw d 1) 9 0
  let st : LoadState := .staged (Fin.ofNat 4 g) (BitVec.ofNat 10 sfn)
  let l := newLoad s (BitVec.ofNat 16 (field (dOpw d 0) 15 0)) ((phyPart s).getD 0) { i with steps := withDeadlines s i.steps } st
    tiles reels
  let t := install l s
  let u := if replace then t else activate l.num t
  finish r (okStatus replace false u) 0 (sheetResult u l) (dLen0 d) 0 [] u

/-- Check 13 of LOAD_CALLSHEET and its effect. -/
def sheetGo (r : DRef) (d : BitVec 512) (bs : List Byte) (s : State) : State :=
  let replace := (dOpw d 0).getLsbD 16
  let g := field (dOpw d 1) 11 10
  if field (dOpw d 0) 15 0 = 0 ∨ field (dOpw d 0) 31 17 ≠ 0 ∨ field (dOpw d 1) 31 12 ≠ 0 ∨ (replace = false ∧ dOpw d 1 ≠ 0) ∨
      dBits d 320 192 ≠ 0 then refuse r 0x10 s
  else match parseImage 1 bs with
    | none => refuse r 0x10 s
    | some i =>
      if replace = true ∧ gridEn s g = false then refuse r 0x42 s
      else match admitSheet s replace i with
        | .bad st => refuse r st s
        | .full => refuseFull r s
        | .ok tiles reels =>
          if replace = true ∧ switchTime s g (field (dOpw d 1) 9 0) < (nowUnits s : Int) then refuse r 0x33 s
          else sheetServed r d i tiles reels s

/-- The input holds the header of an image whose version pairs are untested (check 9 of R90). -/
def inputUntested (s : State) (d : BitVec 512) (dma : Dma) : Bool := match inputOf s d dma with
  | .bytes bs => decide (leAt bs 0 4 = 0x0C115EE7) && imageUntested s (BitVec.ofNat 32 (leAt bs 8 4)) (BitVec.ofNat 32 (leAt bs 12 4))
  | _ => false

/-- Lengths of an image: 1 byte to 64 MiB. -/
def imageLenBad (d : BitVec 512) : Bool := decide (dLen0 d = 0) || decide (0x4000000 < dLen0 d)

/-- LOAD_CALLSHEET; with REPLACE it depends on device time (02 R45). -/
def execLoadCallsheet (r : DRef) (image : Dma) (s : State) : Host.Outcome State Fault Refusal :=
  .next (runDesc r 0x52
    (fun s d => { in0 := true, badLength := imageLenBad d, untestedPair := inputUntested s d image,
                  timeDep := (dOpw d 0).getLsbD 16 })
    (fun d s => withInput r d image (sheetGo r d) s) s)

/-! ### LOAD_MODEL (06 R182, R184, R187) -/

/-- Check 13 of LOAD_MODEL and its effect. -/
def modelGo (r : DRef) (d : BitVec 512) (bs : List Byte) (s : State) : State :=
  let id := field (dOpw d 0) 15 0
  let p := field (dOpw d 1) 2 0
  if id = 0 ∨ field (dOpw d 0) 31 16 ≠ 0 ∨ field (dOpw d 1) 31 3 ≠ 0 ∨ dBits d 320 192 ≠ 0 then refuse r 0x10 s
  else match parseImage 2 bs with
    | none => refuse r 0x10 s
    | some i => match admitModel s id p i with
      | .bad st => refuse r st s
      | .full => refuseFull r s
      | .ok tiles reels =>
        let t := setLoads (fun l => decide (l.img.kind = 2) && decide (l.id.toNat = id)) .releasing s
        let l := newLoad t (BitVec.ofNat 16 id) p i .active tiles reels
        let u := loadCodes l 0 tiles (install l t)
        let v := reapModels u.loaded u
        finish r (okStatus false false v) 0 (BitVec.ofNat 64 (id + 65536 * bnat l.c1)) (dLen0 d) 0 [] v

/-- LOAD_MODEL. -/
def execLoadModel (r : DRef) (image : Dma) (s : State) : Host.Outcome State Fault Refusal :=
  .next (runDesc r 0x50
    (fun s d => { in0 := true, badLength := imageLenBad d, untestedPair := inputUntested s d image })
    (fun d s => withInput r d image (modelGo r d) s) s)

/-! ### UNLOAD, switching and release (06 R186) -/

/-- The load that an UNLOAD names: a sheet active or staged, or a resident model. -/
def unloadIs (model : Bool) (id : Nat) (l : Loaded) : Bool :=
  decide (l.img.kind = (if model then 2 else 1)) && decide (l.id.toNat = id) && decide (l.state ≠ .releasing)

/-- Check 13 of UNLOAD and its effect. The record is written at once; what the image holds is freed when its last work has
ended (log 49, log 50). -/
def unloadGo (r : DRef) (d : BitVec 512) (s : State) : State :=
  let id := field (dOpw d 0) 15 0
  let model := (dOpw d 1).getLsbD 0
  if field (dOpw d 0) 31 16 ≠ 0 ∨ 1 < (dOpw d 1).toNat ∨ dBits d 320 192 ≠ 0 then refuse r 0x10 s
  else if s.loaded.any (unloadIs model id) then
    (let t := setLoads (unloadIs model id) .releasing s
     let u := reapModels t.loaded t
     finish r (okStatus false false u) 0 0 0 0 [] u)
  else refuse r 0x42 s

/-- UNLOAD. -/
def execUnload (r : DRef) (s : State) : Host.Outcome State Fault Refusal :=
  .next (runDesc r 0x53 (fun _ _ => {}) (unloadGo r) s)

/-- The frame boundary at which a staged sheet becomes active, in units. -/
def stagedAt (s : State) (l : Loaded) : Option Nat := match l.state with
  | .staged g sfn => some (switchTime s g.val sfn.toNat).toNat
  | _ => none

/-- The staged sheet whose boundary comes first. -/
def nextStaged (s : State) : List Loaded → Option (Nat × Nat)
  | [] => none
  | l :: ls => match stagedAt s l, nextStaged s ls with
    | none, b => b
    | some t, none => some (l.num, t)
    | some t, some b => if b.2 < t then some b else some (l.num, t)

/-- SHEET_SWITCH: the staged sheet becomes active at its frame boundary. -/
def execSheetSwitch (s : State) : Host.Outcome State Fault Refusal :=
  .next (match nextStaged s s.loaded with
    | none => s
    | some x => activate x.1 (runToTime x.2 s))

/-- Chains of a load are forgotten. -/
def dropChains (n : Nat) (s : State) : State := { s with chains := s.chains.filter fun c => decide (c.image ≠ n) }

/-- SHEET_RELEASE: a superseded or unloaded sheet is freed once its last armed slot has passed its deadline. -/
def execSheetRelease (sheet : BitVec 16) (s : State) : Host.Outcome State Fault Refusal :=
  .next (match s.loaded.find? fun l => decide (l.img.kind = 1) && decide (l.id = sheet) && decide (l.state = .releasing) with
    | none => s
    | some l =>
      let cs := s.chains.filter fun c => decide (c.image = l.num)
      if cs.all (·.ended) then
        freeLoad l (dropChains l.num (runToTime ((cs.map (·.deadline)).foldl max 0) s))
      else s)

/-! ### LOAD_RXPACK (09 R277, R278) -/

/-- A receiver pack is well formed and carries the ID. -/
def packOk (id : Nat) (bs : List Byte) : Bool :=
  let es := (pieces 16 4 (bs.drop 64))
  decide (128 ≤ bs.length) && decide (leAt bs 0 4 = 0x0C119AC4) && decide (leAt bs 4 1 = 1) && decide (leAt bs 5 1 = 4) &&
    decide (leAt bs 6 2 = id) && decide (leAt bs 12 1 < 32) && decide (1 ≤ leAt bs 13 1) && decide (leAt bs 13 1 ≤ 4) &&
    decide (leAt bs 14 1 < 4) && decide (leAt bs 15 1 < 4) && decide (crcAt bs 16 = leAt bs 16 4) && decide (sub bs 20 44 = zeros 44) &&
    (es.all fun e => decide (leAt e 2 2 = 0) && decide (leAt e 12 4 = 0) && decide (leAt e 4 4 + leAt e 8 4 ≤ bs.length) &&
      (if leAt e 0 2 = 3 then decide (leAt e 8 4 = 144) else if leAt e 0 2 = 4 then decide (leAt e 8 4 = 256) else true)) &&
    ([1, 2, 3, 4].all fun t => es.any fun e => decide (leAt e 0 2 = t))

/-- Packs no longer current are gone, but for those of chains armed before that have not passed their deadline. -/
def dropOldPacks (s : State) : State :=
  let used := fun (p : Pack) => s.chains.any fun c => decide (c.pack = some p.num)
  { s with radio := { s.radio with packs := s.radio.packs.filter fun (p : Pack) => !p.old || used p } }

/-- The pack with an ID is no longer current. -/
def agePack (id : Nat) (s : State) : State :=
  dropOldPacks { s with radio := { s.radio with packs := s.radio.packs.map fun p => if p.id.toNat = id then { p with old := true } else p } }

/-- Current packs. -/
def packsNow (s : State) : List Pack := s.radio.packs.filter fun p => !p.old

/-- Bytes that the director reserves for packs, and those that packs hold which stay beside one of an ID: the packs with other IDs,
and those that an armed chain still needs (log 89). -/
def packRoom : Nat := 2 * 0x1000000 + Config.packExtra
def packHeld (s : State) (id : Nat) : Nat :=
  ((s.radio.packs.filter fun p => decide (p.id.toNat ≠ id) || s.chains.any fun c => decide (c.pack = some p.num)).map
    fun p => p.raw.length).sum

/-- The pack is resident. -/
def packServed (r : DRef) (d : BitVec 512) (id : Nat) (bs : List Byte) (s : State) : State :=
  let t := agePack id s
  let p : Pack :=
    { num := t.nextLoad, id := BitVec.ofNat 16 id, tool := BitVec.ofNat 32 (leAt bs 8 4), modMask := leAt bs 12 1, maxLayers := leAt bs 13 1,
      muMask := leAt bs 14 1, waveMask := leAt bs 15 1, raw := bs, old := false }
  let u : State := { t with nextLoad := t.nextLoad + 1, radio := { t.radio with packs := t.radio.packs ++ [p] } }
  finish r (okStatus false false u) 0 0 (dLen0 d) 0 [] u

/-- Check 13 of LOAD_RXPACK with a pack, and its effect. -/
def rxpackGo (r : DRef) (d : BitVec 512) (bs : List Byte) (s : State) : State :=
  let id := field (dOpw d 0) 15 0
  if packOk id bs = false then refuse r 0x10 s
  else if (activeLoad s).isNone then refuse r 0x42 s
  else if 2 ≤ ((packsNow s).filter fun p => decide (p.id.toNat ≠ id)).length ∨ packRoom < packHeld s id + bs.length then refuseFull r s
  else packServed r d id bs s

/-- DROP; a pack that is not resident is MODE_CONFLICT (log 50). -/
def rxpackDrop (r : DRef) (id : Nat) (s : State) : State :=
  if (packsNow s).any fun p => decide (p.id.toNat = id) then
    (let t := agePack id s
     finish r (okStatus false false t) 0 0 0 0 [] t)
  else refuse r 0x42 s

/-- OPW0.DROP. -/
def isDrop (d : BitVec 512) : Bool := (dOpw d 0).getLsbD 16

/-- The pack's version pair is untested (check 9). -/
def packUntested (s : State) (d : BitVec 512) (dma : Dma) : Bool :=
  !isDrop d && (match inputOf s d dma with
  | .bytes bs => decide (leAt bs 0 4 = 0x0C119AC4) && !toolOk s (BitVec.ofNat 32 (leAt bs 8 4))
  | _ => false)

/-- LOAD_RXPACK. -/
def execLoadRxpack (r : DRef) (pack : Dma) (s : State) : Host.Outcome State Fault Refusal :=
  .next (runDesc r 0x51
    (fun s d => { in0 := !isDrop d, badLength := !isDrop d && (decide (dLen0 d = 0) || decide (0x1000000 < dLen0 d)),
                  untestedPair := packUntested s d pack })
    (fun d s =>
      if field (dOpw d 0) 15 0 = 0 ∨ field (dOpw d 0) 31 17 ≠ 0 ∨ dBits d 288 224 ≠ 0 then refuse r 0x10 s
      else if isDrop d then rxpackDrop r (field (dOpw d 0) 15 0) s
      else withInput r d pack (rxpackGo r d) s) s)

end Sys2Proof.Machine
end

