-- ==== Sys2Proof/Machine/Collect.lean ====
section
/-! DEFINITION. Collectives of a take: the exact wire form, the combination of contributions, and what a chip sends up and
down the rank tree; the end of a layer, its barrier and the end of a job (13 R371, R388–R390, R394; 14 R405). -/

namespace Sys2Proof.Machine

/-! ### The exact wire form (13 R389) -/

/-- Bytes, most significant first, without the leading ones that only repeat the sign. -/
def trimSign : List Byte → List Byte
  | a :: b :: t => if (a = 0 ∧ b.toNat < 128) ∨ (a = 255 ∧ 128 ≤ b.toNat) then trimSign (b :: t) else a :: b :: t
  | l => l

/-- Zero bytes at the front of a list. -/
def zeroPrefix : List Byte → Nat
  | [] => 0
  | b :: bs => if b = 0 then 1 + zeroPrefix bs else 0

/-- The wire form of an element. -/
def exWire (x : Exact) : List Byte :=
  if x.nan || x.pinf || x.ninf then [0x80] ++ leBytes 1 (bnat x.nan + 2 * bnat x.pinf + 4 * bnat x.ninf)
  else if x.value = 0 then [0, 0]
  else
    let bs := exBytes x
    let lo := zeroPrefix bs
    let body := (trimSign (bs.drop lo).reverse).reverse
    leBytes 1 lo ++ leBytes 1 body.length ++ body

/-- `n` elements read from their wire form; elements that are not there read as zero. -/
def exUnwire : Nat → List Byte → List Exact
  | 0, _ => []
  | n + 1, bs =>
    let a := leAt bs 0 1
    let b := leAt bs 1 1
    if 128 ≤ a then
      { value := 0, nan := b.testBit 0, pinf := b.testBit 1, ninf := b.testBit 2 } :: exUnwire n (bs.drop 2)
    else
      { value := BitVec.ofInt 640 (signedOf (8 * b) (leAt bs 2 b) * 2 ^ (8 * a)) } :: exUnwire n (bs.drop (2 + b))

/-! ### Combining contributions (13 R388) -/

def floatFmt (fmt : Nat) : Bool := decide (fmt = 0) || decide (fmt = 1) || decide (fmt = 4)

/-- Bytes of an element on the wire, but for the exact form. -/
def wireSize (fmt : Nat) : Nat := if fmt = 3 then 8 else 4

/-- This chip's contribution of `n` elements as it goes on the wire. -/
def localWire (exact : Bool) (fmt n : Nat) (raw : List Byte) : List Byte :=
  if floatFmt fmt = false then raw
  else
    let es := elemsOf (collSize fmt) n raw
    if exact then
      (if fmt = 4 then es.flatMap fun v => exWire { value := BitVec.ofNat 640 v }
      else es.flatMap fun v => exWire (exAdd {} (fDecode (if fmt = 0 then fp32 else bf16) v)))
    else if fmt = 1 then es.flatMap fun v => leBytes 4 (v * 65536)
    else raw

/-- FP32 sum of two FP32 codes, rounded to nearest, ties to even. -/
def addFp32 (a b : Nat) : Nat := fEncode fp32 false (fAdd (fDecode fp32 a) (fDecode fp32 b))

/-- An integer operation on `w`-bit codes: sum, minimum or maximum. -/
def intOp (op w a b : Nat) : Nat := match op with
  | 0 => (a + b) % 2 ^ w
  | 1 => if signedOf w a ≤ signedOf w b then a else b
  | _ => if signedOf w a ≤ signedOf w b then b else a

/-- Two lists of elements combined one by one. -/
def zipEl {α : Type} (f : α → α → α) : List α → List α → List α
  | a :: as, b :: bs => f a b :: zipEl f as bs
  | as, [] => as
  | [], bs => bs

/-- All lists combined, in their order. -/
def foldEl {α : Type} (f : α → α → α) : List (List α) → List α
  | [] => []
  | l :: ls => ls.foldl (zipEl f) l

/-- Bytes that one contributor has sent. -/
def streamOf (k : Coll) (who : Option (BitVec 14)) : List Byte := (k.arrivals.filter fun x => decide (x.1 = who)).flatMap (·.2.1)

/-- Elements added at position `i` of running sums, in order of arrival. -/
def addAt (i : Nat) (vs : List Nat) (acc : List (Option Nat)) : List (Option Nat) :=
  acc.take i ++ (zipEl (fun a b => match a, b with
    | some x, some y => some (addFp32 x y)
    | none, y => y
    | x, none => x) ((acc.drop i).take vs.length) (vs.map some)) ++ acc.drop (i + vs.length)

/-- FP32 sums in order of arrival: `seen` holds what each contributor has sent before. -/
def arrivalSums : List (Option (BitVec 14) × List Byte × Bool) → List (Option (BitVec 14) × List Byte) → List (Option Nat) →
    List (Option Nat)
  | [], _, acc => acc
  | (who, bs, _) :: xs, seen, acc =>
    let before := ((seen.find? fun y => decide (y.1 = who)).map (·.2)).getD []
    let all := before ++ bs
    let i := before.length / 4
    let vs := (elemsOf 4 (all.length / 4) all).drop i
    arrivalSums xs ((who, all) :: seen.filter fun y => decide (y.1 ≠ who)) (addAt i vs acc)

/-- The combination of all contributions, in wire form. `order` is this chip and its children by ascending rank. -/
def combine (exact fixed : Bool) (c : CollEnt) (order : List (Option (BitVec 14))) (k : Coll) : List Byte :=
  let streams := order.map (streamOf k)
  if floatFmt c.fmt = false then
    (let w := 8 * wireSize c.fmt
     (foldEl (intOp c.op w) (streams.map (elemsOf (w / 8) c.count))).flatMap (leBytes (w / 8)))
  else if exact then (foldEl exAddEx (streams.map (exUnwire c.count))).flatMap exWire
  else if fixed then (foldEl addFp32 (streams.map (elemsOf 4 c.count))).flatMap (leBytes 4)
  else (arrivalSums k.arrivals [] (List.replicate c.count none)).flatMap fun v => leBytes 4 (v.getD 0)

/-- The root's result: rounded once to the collective's format. -/
def rootResult (exact : Bool) (c : CollEnt) (wire : List Byte) : List Byte :=
  let f := if c.fmt = 1 then bf16 else fp32
  let n := if c.fmt = 1 then 2 else 4
  if floatFmt c.fmt = false then wire
  else if exact then (exUnwire c.count wire).flatMap fun x => leBytes n (fEncode f false (exVal x))
  else if c.fmt = 1 then (elemsOf 4 c.count wire).flatMap fun v => leBytes 2 (fEncode bf16 false (fDecode fp32 v))
  else wire

/-! ### Collectives and barriers of a group on this chip (13 R388, R394) -/

/-- A collective, empty where nothing of it has come. -/
def collOf (s : State) (g : Fin 16) (i : Nat) : Coll :=
  (s.splice.colls.find? fun k => decide (k.group = g) && decide (k.index = i)).getD
    { group := g, index := i, arrivals := [], up := false, down := [] }

def dropColl (g : Fin 16) (i : Nat) (s : State) : State :=
  { s with splice := { s.splice with colls := s.splice.colls.filter fun k => !(decide (k.group = g) && decide (k.index = i)) } }

def putColl (k : Coll) (s : State) : State :=
  let t := dropColl k.group k.index s
  { t with splice := { t.splice with colls := t.splice.colls ++ [k] } }

/-- A barrier, empty where nothing of it has come. -/
def barrierOf (s : State) (g : Fin 16) (layer : Nat) : Barrier :=
  (s.splice.barriers.find? fun b => decide (b.group = g) && decide (b.layer = layer)).getD
    { group := g, layer, arrived := [], halted := false, sum := 0 }

def dropBarrier (g : Fin 16) (layer : Nat) (s : State) : State :=
  { s with splice := { s.splice with barriers := s.splice.barriers.filter fun b => !(decide (b.group = g) && decide (b.layer = layer)) } }

def putBarrier (b : Barrier) (s : State) : State :=
  let t := dropBarrier b.group b.layer s
  { t with splice := { t.splice with barriers := t.splice.barriers ++ [b] } }

/-- The running job of a group on this chip (log 71). -/
def groupJob (s : State) (g : Fin 16) : Option Job := s.jobs.find? fun j => j.running && decide (j.group = g)

/-- The loaded image of a job. -/
def jobLoad (s : State) (j : Job) : Option Loaded := loadedNum s j.image

/-! ### Breaking a group's work (13 R381, R390, R393 step 5; 14 R407, R409) -/

/-- The log entry of a retake that another member began (14 R407). -/
def logForeignRetake (j : Job) (s : State) : State :=
  raise faultEvent 1 (bump 0x50038 1 (logFault (3, 0xFF) 2 3 2 1 (workIds s (.desc j.ref)) 0 s))

/-- The status that a break's code stands for, and whether it ends jobs in TAKE mode too (log 20). -/
def breakStatus (code : Nat) : Nat := if code = 0xFF then 0x23 else code % 128
def breakEnds (code : Nat) : Bool := decide (128 ≤ code)

/-- A job that depends on a broken slate or link ends, or is retaken in TAKE mode. -/
def endDependent (j : Job) (code : Nat) (foreign : Bool) (s : State) : State :=
  if partTake s j.part ∧ breakEnds code = false then
    (if j.retaking then s
    else
      let t := if foreign then logForeignRetake j s else s
      retake j.part (breakStatus code) (if foreign then refOf (3, 0xFF) t else lastUe t) false t)
  else
    let t := endJobFault j (breakStatus code) (lastUe s) s
    if partTake s j.part then raise faultEvent 7 t else t

/-- Jobs of a group that run under slate `id` (0: any), and those that wait for it. -/
def endDependents (g : Fin 16) (id code : Nat) (foreign : Bool) : List Job → State → State
  | [], s => s
  | j :: js, s =>
    endDependents g id code foreign js
      (if j.group ≠ g then s
      else if j.running then (if id = 0 ∨ j.slate.toNat = id then endDependent j code foreign s else s)
      else if j.waiting = true ∧ (id = 0 ∨ j.start.toNat = id) then finish j.ref 0x23 7 0 0 0 [] (dropJob j.ref s)
      else s)

/-- This chip breaks a slate of a group, or all of them, and the work that depends on it here ends. -/
def breakGroup (g : Fin 16) (id code : Nat) (s : State) : State :=
  let t := breakSlate g id code s
  if groupCoord t g.val then endDependents g id code false t.jobs t else t

/-- Chips of a list that no route reaches. -/
def anyUnreached (s : State) (kind : Nat) (l : List Nat) : Bool := l.any fun c => !canSend s c kind

/-! ### Sending a collective's bytes (13 R375, R388, R390) -/

/-- Pieces of at most 4,096 bytes; `n` bounds their number. -/
def payloads : Nat → List Byte → List (List Byte)
  | 0, _ => []
  | n + 1, bs => if bs.length ≤ 4096 then [bs] else bs.take 4096 :: payloads n (bs.drop 4096)

/-- The pieces to one chip, LAST in the last. -/
def sendPieces (g : Fin 16) (dst kind tag : Nat) : List (List Byte) → State → State
  | [], s => s
  | p :: ps, s => sendPieces g dst kind tag ps (sendMsg (groupMsg g dst kind tag ps.isEmpty p) s)

def sendPiecesAll (g : Fin 16) (kind tag : Nat) (ps : List (List Byte)) : List Nat → State → State
  | [], s => s
  | c :: cs, s => sendPiecesAll g kind tag ps cs (sendPieces g c kind tag ps s)

/-- Messages of a collective to chips of the tree; without a route to one of them every member ends the take (13 R390). -/
def sendColl (g : Fin 16) (kind tag : Nat) (bs : List Byte) (dsts : List Nat) (s : State) : State :=
  let t := sendPiecesAll g kind tag (payloads (bs.length / 4096 + 1) bs) dsts s
  if anyUnreached s kind dsts then breakGroup g 0 0x22 t else t

/-! ### The layer barrier (13 R394) -/

/-- A reserved SLATE_ID, and the next one of the group. -/
def reservedSlate (g : Fin 16) (s : State) : Nat × State :=
  let k := max 32768 (tabGet (fun _ => 0) s.splice.nextSlate g.val)
  (k, { s with splice := { s.splice with nextSlate := tabSet (fun _ => 0) s.splice.nextSlate g.val (if k = 65535 then 32768 else k + 1) } })

/-- ARM's payload: T in 2^-42 ns units, and a barrier's total digest (log 71). -/
def armPayload (t : Nat) (digest : Option Dword) : List Byte := leBytes 16 t ++ (match digest with
  | some d => leBytes 8 d.toNat
  | none => [])

/-- A slate is armed here. -/
def armSlate (x : Slate) (s : State) : State := { s with splice := { s.splice with slates := s.splice.slates ++ [x] } }

/-- SPLICE.SLATE_LEAD in units. -/
def slateLead (s : State) : Nat := (rd s 0xB001C).toNat * unitsNs

/-- The coordinator has arrived: the barrier's slate is armed and sent down. -/
def armBarrier (j : Job) (sum : Dword) (s : State) : State :=
  let g := j.group
  let x := reservedSlate g s
  let t := nowUnits s + slateLead s
  if 64 ≤ s.splice.slates.length then breakGroup g 0 0x23 x.2
  else
    let s1 := armSlate { group := g, id := BitVec.ofNat 16 x.1, time := t, acks := [], ref := none }
      (setJob { j with arrived := true, slate := BitVec.ofNat 16 x.1, lastDigest := sum } x.2)
    let kids := groupChildren s1 g.val
    let s2 := sendAll g 1 x.1 (armPayload t (some sum)) kids s1
    if anyUnreached s1 1 kids then breakGroup g 0 0x23 s2 else s2

/-- The job's tiles have halted and its collectives have ended: once all children have arrived, so does this chip. -/
def arrive (j : Job) (s : State) : State :=
  let g := j.group
  let b := barrierOf s g j.layer
  let kids := groupChildren s g.val
  if b.halted = false ∨ j.arrived = true ∨ (kids.all fun c => b.arrived.contains (BitVec.ofNat 14 c)) = false then s
  else
    let t := dropBarrier g j.layer s
    match groupParent s g.val with
    | none => armBarrier j b.sum t
    | some p =>
      let u := sendMsg (groupMsg g p 4 j.layer true (leBytes 8 b.sum.toNat)) (setJob { j with arrived := true } t)
      if canSend s p 4 then u else breakGroup g 0 0x23 u

/-! ### Running the collectives of a layer (13 R388, R390, R396) -/

/-- Collectives of a layer, with their index among the image's entries. -/
def layerColls (l : Loaded) (layer : Nat) : List (Nat × CollEnt) :=
  ((imageColls l.img.raw).zipIdx.filter fun x => decide (x.1.layer = layer)).map fun x => (x.2, x.1)

/-- Address of a collective's buffer. -/
def collAddr (l : Loaded) (c : CollEnt) : Nat := match l.img.buftab[c.buf]? with
  | some b => bufAddr l b
  | none => 0

/-- This chip's contribution to a collective is read. -/
def contribute (l : Loaded) (g : Fin 16) (i : Nat) (c : CollEnt) (s : State) : State :=
  let k := collOf s g i
  let n := c.count * collSize c.fmt
  if k.arrivals.any fun x => x.1.isNone then s
  else putColl { k with arrivals := k.arrivals ++ [(none, localWire (detLock s) c.fmt c.count (memRead s (collAddr l c) n), true)] }
    (memTouch (collAddr l c) n s)

/-- Every contribution is in. -/
def collReady (s : State) (g : Fin 16) (k : Coll) : Bool :=
  (k.arrivals.any fun x => x.1.isNone) &&
    (groupChildren s g.val).all fun c => k.arrivals.any fun x => decide (x.1 = some (BitVec.ofNat 14 c)) && x.2.2

/-- The result of a collective overwrites its buffer, and the collective has ended on this chip. -/
def endColl (j : Job) (l : Loaded) (i : Nat) (c : CollEnt) (bs : List Byte) (s : State) : State :=
  setJob { j with colls := j.colls + 1 } (dropColl j.group i (memWrite (collAddr l c) bs s))

/-- REPRO or LOCKED: contributions are combined in the fixed order. -/
def fixedOrder (s : State) (j : Job) : Bool := decide (j.det ≠ 0) || detLock s

/-- The combination of the contributions of a collective. -/
def collSum (j : Job) (i : Nat) (c : CollEnt) (s : State) : List Byte :=
  let kids := (groupChildren s j.group.val).map fun x => some (BitVec.ofNat 14 x)
  combine (detLock s) (fixedOrder s j) c (none :: kids) (collOf s j.group i)

/-- All is in: a member sends its result up and waits for the BCAST; the root sends the final bits down. -/
def finishUp (j : Job) (l : Loaded) (i : Nat) (c : CollEnt) (s : State) : State :=
  let w := collSum j i c s
  match groupParent s j.group.val with
  | some p => sendColl j.group 5 i w [p] (putColl { collOf s j.group i with up := true } s)
  | none =>
    let r := rootResult (detLock s) c w
    sendColl j.group 6 i r (groupChildren s j.group.val) (endColl j l i c r s)

/-- The collectives of the job's layer go as far as they can, in entry order, and the barrier behind them; `n` bounds the
steps. Poisoned data ends the job's run (14 R402, R407). -/
def runColls : Nat → Fin 8 → State → State
  | 0, _, s => s
  | n + 1, p, s =>
    match jobOn s p with
    | none => s
    | some j =>
      if j.retaking = true ∨ (barrierOf s j.group j.layer).halted = false then s
      else match jobLoad s j with
        | none => s
        | some l =>
          match (if j.restoring then none else (layerColls l j.layer)[j.colls]?) with
          | none => arrive j s
          | some (i, c) =>
            if memPoisoned s (collAddr l c) (c.count * collSize c.fmt) then endOwner (.job p) 0x21 0 s
            else
              let t := contribute l j.group i c s
              if (collOf t j.group i).up || !collReady t j.group (collOf t j.group i) then t
              else runColls n p (finishUp j l i c t)

/-- The group's job on this chip goes on. -/
def groupGo (g : Fin 16) (s : State) : State := match groupJob s g with
  | some j => runColls 65536 (Fin.ofNat 8 j.part) s
  | none => s

/-! ### Starting and ending layers (12 R357; 13 R394; 14 R405) -/

/-- C0 of every role's tile starts at word 0 of the role's code (log 33). -/
def startRoles (l : Loaded) (p : Fin 8) : Nat → List Nat → State → State
  | _, [], s => s
  | role, n :: ns, s => startRoles l p (role + 1) ns (startThread n 0 (.job p) l.num role 0 (loadCode l role n s))

/-- Bits [15:0] of the digest of a checkpoint buffer of a model (14 R405). -/
def bufferDigest (s : State) (l : Loaded) (buf : Bool) : BitVec 16 :=
  let b := Config.ckptBuffer l.img.raw buf
  (dailies (memRead s b.1 b.2)).setWidth 16

/-- A layer of a job starts. -/
def startLayer (j : Job) (s : State) : State := match jobLoad s j with
  | none => s
  | some l => startRoles l (Fin.ofNat 8 j.part) 0 l.tiles (setJob { j with colls := 0, arrived := false, restoring := false } s)

/-- The token becomes current, for the job and for its model. -/
def makeToken (j : Job) (l : Loaded) (s : State) : Job × State :=
  let tok : Token := { layer := j.layer + 1, model := l.id, serial := j.serial, buf := j.buf, digest := j.ckpt }
  let k := { j with token := some tok, serial := j.serial + 1, buf := !j.buf }
  (k, setJob k { s with loaded := s.loaded.map fun x => if x.num = l.num then { x with token := some tok } else x })

/-- A checkpoint is due at the end of the layer. -/
def tokenDue (j : Job) (l : Loaded) : Bool :=
  decide (j.every ≠ 0) && decide ((j.layer + 1) % j.every = 0) && Config.declaresCheckpoints l.img.raw

/-- Entry k of the digest table receives layer k's total digest (13 R395). -/
def writeDigest (j : Job) (s : State) : State := match flightOf s j.ref with
  | none => s
  | some f =>
    if j.digest then
      putBatch j.ref.pair
        ⟨[(BitVec.ofNat 64 ((dOpw f.desc 4).toNat + 2 ^ 32 * (dOpw f.desc 5).toNat + 8 * j.layer), leBytes 8 j.lastDigest.toNat)],
          none⟩ s
    else s

/-- The job is served. -/
def jobServed (j : Job) (s : State) : State :=
  let t := dropJob j.ref (clearGroup j.group s)
  finishOut j.ref (okStatus false (decide (j.retakes ≠ 0)) t) 0 (if j.digest then j.lastDigest else 0) j.layer j.faultRef j.output t

/-- The barrier of a job fires: the restored layer starts; or the layer is complete, its digest and checkpoint stand, and the
next one starts, or the job is served. -/
def barrierFire (j : Job) (s : State) : State :=
  if j.restoring then startLayer j s
  else match jobLoad s j with
    | none => s
    | some l =>
      let s1 := writeDigest j s
      let x : Job × State := if tokenDue j l then makeToken j l s1 else (j, s1)
      let k : Job := { x.1 with layer := j.layer + 1 }
      if k.layers ≤ k.layer then jobServed k x.2 else startLayer k (setJob k x.2)

/-- Every role's C0 has halted. -/
def rolesHalted (s : State) (l : Loaded) : Bool := l.tiles.all fun n => decide ((threadOf s n 0).run = .stopped)

/-- The chip's partial digest: the CRCs of the canonical blocks that its roles wrote, over their bytes as they stand, each block
once (13 R371, R372). -/
def partialDigest (s : State) : List (Nat × BlockPlace) → Dword
  | [] => 0
  | b :: bs =>
    (if bs.any fun x => decide (x.1 = b.1) then 0
    else crcBlock (memRead s b.2.addr b.2.len) (BitVec.ofNat 64 b.1)) + partialDigest s bs

/-- LAYER_END: the tiles of the running job of partition `p` have halted; `marks` are the indices of the canonical blocks that the
image marks in this layer, in the order of their last writes, `places` where each was written, and `output` is the output as the
code left it. The digest of the checkpoint buffer is taken too. -/
def execLayerEnd (p : Fin 8) (marks : List Nat) (places : List BlockPlace) (output : List Byte) (s : State) :
    Host.Outcome State Fault Refusal :=
  .next (match jobOn s p with
    | none => s
    | some j => match jobLoad s j with
      | none => s
      | some l =>
        let b := barrierOf s j.group j.layer
        if j.retaking || j.restoring || j.arrived || b.halted || !rolesHalted s l then s
        else
          let len := match flightOf s j.ref with
            | some f => dLen1 f.desc
            | none => 0
          runColls 65536 p (putBarrier { b with halted := true, sum := b.sum + partialDigest s (marks.zip places) }
            (setJob { j with ckpt := bufferDigest s l j.buf, output := output.take len } s)))

end Sys2Proof.Machine
end

