-- ==== Sys2Proof/Machine/Console.lean ====
section
/-! DEFINITION. The management UART and the recovery console of the boot ROM (15 R441–R445). -/

namespace Sys2Proof.Machine

/-! ### Characters (15 R442–R444) -/

/-- The majority of samples 16b + 7 to 16b + 9. -/
def bitOf (l : List Bool) (b : Nat) : Bool :=
  let v := fun k => bnat ((l[16 * b + k]?).getD true)
  decide (2 ≤ v 7 + v 8 + v 9)

/-- The samples from sample 0 of a character on: after a break the line must first have been high. -/
def detectStart (wait : Bool) (l : List Bool) : List Bool :=
  (if wait then l.dropWhile (fun b => !b) else l).dropWhile fun b => b

/-- The data bits, least significant first. -/
def dataOf (l : List Bool) : Nat := (List.range 8).foldl (fun a k => a + 2 ^ k * bnat (bitOf l (k + 1))) 0

/-- The recovery console's reply. -/
def consoleReply (bs : List Byte) (s : State) : State := emit (.uart bs) s

/-- A frame is aborted with reason 1. -/
def abortFrame (s : State) : State := consoleReply [0x15, 1] { s with mgmt := { s.mgmt with uartRx := [] } }

/-- A character for the recovery console: a frame's first is SYNC, and a framing error inside a frame aborts it. -/
def consoleChar (c : Nat) (bad : Bool) (s : State) : State :=
  if 64 ≤ s.mgmt.uartRx.length then bump 0xE008C 1 s
  else if s.mgmt.uartRx = [] ∧ (bad ∨ c ≠ 0xA5) then s
  else if bad then abortFrame s
  else { s with mgmt := { s.mgmt with uartRx := s.mgmt.uartRx ++ [BitVec.ofNat 8 c] } }

/-- A character is stored: under the MFW it is counted and discarded. -/
def storeChar (c : Nat) (bad : Bool) (s : State) : State :=
  if s.mgmt.recovery then consoleChar c bad s else bump 0xE0084 1 s

/-- A character whose stop majority is low. -/
def framingError (c : Nat) (s : State) : State :=
  let t := storeChar c true (raise mgmtEvent 4 (bump 0xE0088 1 s))
  if c = 0 then bump 0xE0090 1 { t with mgmt := { t.mgmt with uartWait := true } } else t

/-- UART_CHARACTER: the samples of the line from where start detection re-armed. -/
def execUartCharacter (samples : List Bool) (s : State) : Host.Outcome State Fault Refusal :=
  let l := detectStart s.mgmt.uartWait samples
  .next (if s.board.inReset || !(rdb s 0xE0080 12 || s.mgmt.recovery) || decide (l.length < 160) then s
    else
      let t : State := { s with mgmt := { s.mgmt with uartWait := false } }
      if bitOf l 0 then t
      else if bitOf l 9 then storeChar (dataOf l) false t
      else framingError (dataOf l) t)

/-! ### Frames of the recovery console (15 R445) -/

/-- The CRC of a frame. -/
def frameCrc (f : RecFrame) : Nat :=
  crc32 (leBytes 1 f.typ.toNat ++ leBytes 2 f.len.toNat ++ leBytes 4 f.offset.toNat ++ f.payload)

/-- The reason that refuses a frame of TYPE `typ` which may carry `most` payload bytes, with the offset as `offOk` judges it:
0 where none does. -/
def frameFault (f : RecFrame) (most : Nat) (offOk : Bool) : Nat :=
  if f.crc.toNat ≠ frameCrc f then 1
  else if most < f.len.toNat ∨ f.payload.length ≠ f.len.toNat ∨ offOk = false then 2
  else 0

/-- The console takes a frame: its characters leave the FIFO. -/
def takeFrame (s : State) : State := { s with mgmt := { s.mgmt with uartRx := [] } }

/-- A byte of the receive buffer that no WRITE has filled reads 0 (log 2). -/
def recRead (m : MgmtS) (a n : Nat) : List Byte := tabGetMany (fun _ => 0) m.recBuf a n

/-- RECOVERY_WRITE. -/
def execRecoveryWrite (f : RecFrame) (s : State) : Host.Outcome State Fault Refusal :=
  .next (if !s.mgmt.recovery || decide (f.typ ≠ 1) then s
    else
      let t := takeFrame s
      let e := frameFault f 1024 (decide (f.offset.toNat + f.len.toNat ≤ 0x800000))
      if e ≠ 0 then consoleReply [0x15, BitVec.ofNat 8 e] t
      else
        let m : MgmtS := { t.mgmt with recBuf := tabSetMany (fun _ => 0) t.mgmt.recBuf f.offset.toNat f.payload }
        consoleReply [6] { t with mgmt := m })

/-- The image at the start of the receive buffer, with its signature; only its header where its length is not one that a region
holds. -/
def recImage (m : MgmtS) : List Byte :=
  let n := leAt (recRead m 16 4) 0 4
  recRead m 0 (256 + (if n ≤ 0x400000 - 352 then n else 0) + 96)

/-- A valid image is installed: flash, boot configuration, and a reset with cause 4. -/
def installImage (slot : Bool) (img : List Byte) (s : State) : State :=
  let k := 2 * bnat slot + bnat (decide (leAt img 4 1 = 2))
  let m := writeCfg slot false (currentCfg s.mgmt).1.tries (flashWrite (regionAt k) img s.mgmt)
  mainReset 4 (consoleReply [6] { s with mgmt := m })

/-- RECOVERY_INSTALL: `keyOk` and `sigOk` as R426 asks, `flashOk` that the flash took the image. -/
def execRecoveryInstall (f : RecFrame) (keyOk sigOk flashOk : Bool) (s : State) : Host.Outcome State Fault Refusal :=
  .next (if !s.mgmt.recovery || decide (f.typ ≠ 2) then s
    else
      let t := takeFrame s
      let e := frameFault f 0 (decide (f.offset.toNat < 2))
      let img := recImage t.mgmt
      let bad := imageFail t (img.take (img.length - 96)) (decide (leAt img 4 1 = 2)) keyOk sigOk
      if e ≠ 0 then consoleReply [0x15, BitVec.ofNat 8 e] t
      else if bad = 5 then consoleReply [0x15, 4] t
      else if bad ≠ 0 then consoleReply [0x15, 3] t
      else if flashOk = false then consoleReply [0x15, 5] t
      else installImage (decide (f.offset.toNat = 1)) img t)

/-- RECOVERY_STATUS. -/
def execRecoveryStatus (f : RecFrame) (s : State) : Host.Outcome State Fault Refusal :=
  .next (if !s.mgmt.recovery || decide (f.typ ≠ 3) then s
    else
      let t := takeFrame s
      let e := frameFault f 0 true
      let fails := (List.range 4).map fun k => BitVec.ofNat 8 (rdf t 0xE0028 (4 * k + 3) (4 * k))
      consoleReply
        (if e ≠ 0 then [0x15, BitVec.ofNat 8 e]
        else 6 :: (leBytes 1 (floorOf t false) ++ leBytes 1 (floorOf t true) ++ fails ++ zeros 2)) t)

/-- RECOVERY_FRAME_TIMEOUT: 100 ms have passed inside a frame. -/
def execRecoveryFrameTimeout (s : State) : Host.Outcome State Fault Refusal :=
  .next (if s.mgmt.recovery && decide (s.mgmt.uartRx ≠ []) then abortFrame (runToClk (s.clk + 100 * ticksMs) s) else s)

end Sys2Proof.Machine
end

