-- ==== Sys2Proof/Machine/CoreAlu.lean ====
section
/-! DEFINITION. The control core's F0 and F1 instructions: arithmetic, logic, shifts, compares and the paired 16-bit
operations, with their companion transfers (05 R150–R153, R161). -/

namespace Sys2Proof.Machine

/-- What an F0 instruction does to its thread before the companion transfers: it reads the thread as it stood. -/
abbrev AluOp := Thread → Thread

/-- An F0 instruction with companion transfers: the ALU reads the thread as it stood, transfers move after it, and an
ALU result in a transfer register wins (05 R150). `dst` is the data register it writes, if any. -/
def aluExec (n : TileIx) (t : Thr) (ct : BitVec 11) (lost : Nat) (legal : Bool) (dst : Option (Fin 16)) (op : AluOp)
    (s : State) : State :=
  coreStep n t (legal && !ct.getLsbD 0)
    (fun s =>
      let y := threadOf s n t
      match compCheck s n y (compX ct), compCheck s n y (compY ct) with
      | some c, _ => .error c
      | _, some c => .error c
      | none, none =>
        let z := op y
        let z1 := compThread s n y (compY ct) (compThread s n y (compX ct) z)
        let z2 := match dst with
          | some k => setD k (getD z k) z1
          | none => z1
        .ok (bankStall n lost (setThread n t z2 (compStore n y (compY ct) (compStore n y (compX ct) s))))) s

/-- A data result under bit S: the register is written and SV sticks where it clamped. -/
def aluPut (dst : Fin 16) (r : Word × Bool) (y : Thread) : Thread := stickSV r.2 (setD dst r.1 y)

/-- A two-operand F0 instruction with bit S. -/
def aluBin (n : TileIx) (t : Thr) (f : AluF) (g : Bool → Word → Word → Word × Bool) (s : State) : State :=
  aluExec n t f.ct f.lost true (some f.dst) (fun y => aluPut f.dst (g f.s (getD y f.sa) (getD y f.sb)) y) s

/-- A two-operand F0 instruction that does not use S, which is 0 (05 R149; log 10). -/
def aluPlain (n : TileIx) (t : Thr) (f : AluF) (g : Word → Word → Word) (s : State) : State :=
  aluExec n t f.ct f.lost (!f.s) (some f.dst) (fun y => aluPut f.dst (g (getD y f.sa) (getD y f.sb), false) y) s

/-- A one-operand F0 instruction: SB is not used and is 0 (05 R149). -/
def aluUn (n : TileIx) (t : Thr) (f : AluF) (g : Bool → Word → Word × Bool) (s : State) : State :=
  aluExec n t f.ct f.lost (decide (f.sb = 0)) (some f.dst) (fun y => aluPut f.dst (g f.s (getD y f.sa)) y) s

/-- ADD (05 R152). -/
def addOp (sb : Bool) (a b : Word) : Word × Bool := sat32 sb (a.toInt + b.toInt)
def execAdd (n : TileIx) (t : Thr) (f : AluF) (s : State) : Host.Outcome State Fault Refusal :=
  .next (aluBin n t f addOp s)

/-- SUB. -/
def subOp (sb : Bool) (a b : Word) : Word × Bool := sat32 sb (a.toInt - b.toInt)
def execSub (n : TileIx) (t : Thr) (f : AluF) (s : State) : Host.Outcome State Fault Refusal :=
  .next (aluBin n t f subOp s)

/-- MUL: the low 32 bits, or the full product clamped. -/
def mulOp (sb : Bool) (a b : Word) : Word × Bool := sat32 sb (a.toInt * b.toInt)
def execMul (n : TileIx) (t : Thr) (f : AluF) (s : State) : Host.Outcome State Fault Refusal :=
  .next (aluBin n t f mulOp s)

/-- MULH: the high 32 bits of the signed product. -/
def mulhOp (a b : Word) : Word := BitVec.ofInt 32 (a.toInt * b.toInt / 2 ^ 32)
def execMulh (n : TileIx) (t : Thr) (f : AluF) (s : State) : Host.Outcome State Fault Refusal :=
  .next (aluPlain n t f mulhOp s)

/-- MAC and MACZ: DST[0] names the accumulator and DST[3:1] is 0 (05 R152, R161). -/
def macExec (n : TileIx) (t : Thr) (f : AluF) (keep : Bool) (s : State) : State :=
  aluExec n t f.ct f.lost (decide (f.dst.val < 2)) none
    (fun y =>
      let v := (if keep then (getAcc y f.dst).toInt else 0) + (getD y f.sa).toInt * (getD y f.sb).toInt
      stickSV (f.s && clamps 72 v) (setAcc f.dst (BitVec.ofNat 72 (narrow 72 f.s v)) y)) s

/-- MAC. -/
def execMac (n : TileIx) (t : Thr) (f : AluF) (s : State) : Host.Outcome State Fault Refusal :=
  .next (macExec n t f true s)
/-- MACZ. -/
def execMacz (n : TileIx) (t : Thr) (f : AluF) (s : State) : Host.Outcome State Fault Refusal :=
  .next (macExec n t f false s)

/-- ACCRD: accumulator SA[0] shifted right by SB + 16 · SA[1], rounded to nearest with ties to even; SA[3:2] is 0
(05 R152; log 10). -/
def execAccrd (n : TileIx) (t : Thr) (f : AluF) (s : State) : Host.Outcome State Fault Refusal :=
  .next (aluExec n t f.ct f.lost (decide (f.sa.val < 4)) (some f.dst)
    (fun y => aluPut f.dst (sat32 f.s (rneInt (getAcc y (f.sa.val % 2)).toInt (f.sb.val + 16 * (f.sa.val / 2)))) y) s)

/-- AND, OR, XOR. -/
def execAnd (n : TileIx) (t : Thr) (f : AluF) (s : State) : Host.Outcome State Fault Refusal :=
  .next (aluPlain n t f (fun a b => a &&& b) s)
def execOr (n : TileIx) (t : Thr) (f : AluF) (s : State) : Host.Outcome State Fault Refusal :=
  .next (aluPlain n t f (fun a b => a ||| b) s)
def execXor (n : TileIx) (t : Thr) (f : AluF) (s : State) : Host.Outcome State Fault Refusal :=
  .next (aluPlain n t f (fun a b => a ^^^ b) s)

/-- Shift left by 0–63: bits shifted out are lost, or the result clamps where one differs from its sign (05 R152,
R161). -/
def shlOp (sb : Bool) (a : Word) (k : Nat) : Word × Bool := sat32 sb (a.toInt * 2 ^ k)
/-- Shift right by 0–63; 32 or more gives 0. -/
def shrOp (a : Word) (k : Nat) : Word := a >>> k
/-- Arithmetic shift right by 0–63; 32 or more gives sign fill. -/
def shraOp (a : Word) (k : Nat) : Word := a.sshiftRight k

/-- SHL, SHR, SHRA by SB[5:0]. -/
def execShl (n : TileIx) (t : Thr) (f : AluF) (s : State) : Host.Outcome State Fault Refusal :=
  .next (aluBin n t f (fun sb a b => shlOp sb a (b.toNat % 64)) s)
def execShr (n : TileIx) (t : Thr) (f : AluF) (s : State) : Host.Outcome State Fault Refusal :=
  .next (aluPlain n t f (fun a b => shrOp a (b.toNat % 64)) s)
def execShra (n : TileIx) (t : Thr) (f : AluF) (s : State) : Host.Outcome State Fault Refusal :=
  .next (aluPlain n t f (fun a b => shraOp a (b.toNat % 64)) s)

/-- MIN, MAX: signed. -/
def execMin (n : TileIx) (t : Thr) (f : AluF) (s : State) : Host.Outcome State Fault Refusal :=
  .next (aluPlain n t f (fun a b => if b.slt a then b else a) s)
def execMax (n : TileIx) (t : Thr) (f : AluF) (s : State) : Host.Outcome State Fault Refusal :=
  .next (aluPlain n t f (fun a b => if a.slt b then b else a) s)

/-- ABS and NEG. -/
def execAbs (n : TileIx) (t : Thr) (f : AluF) (s : State) : Host.Outcome State Fault Refusal :=
  .next (aluUn n t f (fun sb a => sat32 sb (if a.toInt < 0 then -a.toInt else a.toInt)) s)
def execNeg (n : TileIx) (t : Thr) (f : AluF) (s : State) : Host.Outcome State Fault Refusal :=
  .next (aluUn n t f (fun sb a => sat32 sb (-a.toInt)) s)

/-- CMP: flags alone; DST is not used. -/
def execCmp (n : TileIx) (t : Thr) (f : AluF) (s : State) : Host.Outcome State Fault Refusal :=
  .next (aluExec n t f.ct f.lost (decide (f.dst = 0) && !f.s) none (fun y => setCmp (getD y f.sa) (getD y f.sb) y) s)

/-- CSEL: no transfers (05 R150). -/
def execCsel (n : TileIx) (t : Thr) (c : Cond) (dst sa sb : Fin 16) (s : State) : Host.Outcome State Fault Refusal :=
  .next (coreReg n t true (fun y => setD dst (if condHolds y c then getD y sa else getD y sb) y) s)

/-- ADD2, SUB2: per 16-bit half. -/
def execAdd2 (n : TileIx) (t : Thr) (f : AluF) (s : State) : Host.Outcome State Fault Refusal :=
  .next (aluBin n t f (fun sb a b => sat16x2 sb (hiHalf a + hiHalf b) (loHalf a + loHalf b)) s)
def execSub2 (n : TileIx) (t : Thr) (f : AluF) (s : State) : Host.Outcome State Fault Refusal :=
  .next (aluBin n t f (fun sb a b => sat16x2 sb (hiHalf a - hiHalf b) (loHalf a - loHalf b)) s)

/-- MIN2: signed minimum per half. -/
def execMin2 (n : TileIx) (t : Thr) (f : AluF) (s : State) : Host.Outcome State Fault Refusal :=
  .next (aluPlain n t f (fun a b => (sat16x2 false (min (hiHalf a) (hiHalf b)) (min (loHalf a) (loHalf b))).1) s)

/-- ABS2: absolute value per half. -/
def execAbs2 (n : TileIx) (t : Thr) (f : AluF) (s : State) : Host.Outcome State Fault Refusal :=
  .next (aluUn n t f (fun sb a => sat16x2 sb (hiHalf a).natAbs (loHalf a).natAbs) s)

/-- The two-minimum update: the new pair and C (05 R153). -/
def mintrkOp (a b : Word) : Word × Bool :=
  let m1 := (a.extractLsb' 0 16).toNat
  let m2 := (a.extractLsb' 16 16).toNat
  let x := min (loHalf b).natAbs 32767
  if x < m1 then (BitVec.ofNat 32 (m1 * 65536 + x), true)
  else if x < m2 then (BitVec.ofNat 32 (x * 65536 + m1), false)
  else (a, false)

/-- MINTRK. -/
def execMintrk (n : TileIx) (t : Thr) (f : AluF) (s : State) : Host.Outcome State Fault Refusal :=
  .next (aluExec n t f.ct f.lost (!f.s) (some f.dst)
    (fun y => setC (mintrkOp (getD y f.sa) (getD y f.sb)).2 (setD f.dst (mintrkOp (getD y f.sa) (getD y f.sb)).1 y)) s)

/-! ### Immediate forms -/

/-- An F1 instruction of one register operand and IMM15. -/
def immExec (n : TileIx) (t : Thr) (f : ImmF) (g : Bool → Word → Word → Word × Bool) (s : State) : State :=
  coreReg n t true (fun y => aluPut f.dst (g f.s (getD y f.sa) (f.imm.signExtend 32)) y) s

/-- An F1 instruction that does not use S, which is 0 (05 R149; log 10). -/
def immPlain (n : TileIx) (t : Thr) (f : ImmF) (g : Word → Word → Word) (s : State) : State :=
  coreReg n t (!f.s) (fun y => aluPut f.dst (g (getD y f.sa) (f.imm.signExtend 32), false) y) s

/-- ADDI. -/
def execAddi (n : TileIx) (t : Thr) (f : ImmF) (s : State) : Host.Outcome State Fault Refusal :=
  .next (immExec n t f addOp s)
/-- ANDI, ORI with IMM15 sign-extended. -/
def execAndi (n : TileIx) (t : Thr) (f : ImmF) (s : State) : Host.Outcome State Fault Refusal :=
  .next (immPlain n t f (fun a b => a &&& b) s)
def execOri (n : TileIx) (t : Thr) (f : ImmF) (s : State) : Host.Outcome State Fault Refusal :=
  .next (immPlain n t f (fun a b => a ||| b) s)
/-- SHLI, SHRI, SHRAI by IMM15[5:0]. -/
def execShli (n : TileIx) (t : Thr) (f : ImmF) (s : State) : Host.Outcome State Fault Refusal :=
  .next (immExec n t f (fun sb a b => shlOp sb a (b.toNat % 64)) s)
def execShri (n : TileIx) (t : Thr) (f : ImmF) (s : State) : Host.Outcome State Fault Refusal :=
  .next (immPlain n t f (fun a b => shrOp a (b.toNat % 64)) s)
def execShrai (n : TileIx) (t : Thr) (f : ImmF) (s : State) : Host.Outcome State Fault Refusal :=
  .next (immPlain n t f (fun a b => shraOp a (b.toNat % 64)) s)
/-- CMPI: DST is not used. -/
def execCmpi (n : TileIx) (t : Thr) (f : ImmF) (s : State) : Host.Outcome State Fault Refusal :=
  .next (coreReg n t (decide (f.dst = 0) && !f.s) (fun y => setCmp (getD y f.sa) (f.imm.signExtend 32) y) s)
/-- LDI: IMM16 sign-extended. -/
def execLdi (n : TileIx) (t : Thr) (dst : Fin 16) (imm : BitVec 16) (s : State) : Host.Outcome State Fault Refusal :=
  .next (coreReg n t true (fun y => setD dst (imm.signExtend 32) y) s)
/-- LUI: the high half; the low half stays. -/
def execLui (n : TileIx) (t : Thr) (dst : Fin 16) (imm : BitVec 16) (s : State) : Host.Outcome State Fault Refusal :=
  .next (coreReg n t true (fun y => setD dst (imm ++ (getD y dst).extractLsb' 0 16) y) s)

end Sys2Proof.Machine
end

