-- ==== Sys2Proof/Machine/CoreFlow.lean ====
section
/-! DEFINITION. The control core's branches, calls and loops (05 R157–R160, R164, R165). -/

namespace Sys2Proof.Machine

/-- An F4 instruction: it sets its own next PC; one instruction more has gone by since an MTS (05 R156). -/
def flowExec (n : TileIx) (t : Thr) (legal : Bool) (f : Thread → Except Nat Thread) (s : State) : State :=
  if canRun s n t then
    if legal then
      match f (threadOf s n t) with
      | .ok y => setThread n t { y with amodeLate := (threadOf s n t).amodeLate - 1 } s
      | .error c => coreTrap n t c s
    else coreTrap n t excIllegal s
  else s

/-- BR: a taken branch leaves the loop levels it jumps out of; a conditional branch moves the epoch, and one that HINT
predicted wrongly adds the discarded slots and the staged results' latencies to CC_SQUASH (05 R160, R164, R165). -/
def execBr (n : TileIx) (t : Thr) (c : Cond) (hint : Bool) (off : BitVec 21) (slots : Fin 5) (staged : Nat) (s : State) :
    Host.Outcome State Fault Refusal :=
  let y := threadOf s n t
  let taken := condHolds y c
  let s1 := flowExec n t true
    (fun y =>
      let y := if c = .al then y else { y with epoch := y.epoch + 1 }
      .ok (if taken then branchTo (y.pc + off.setWidth 15) y else retire y)) s
  .next (if canRun s n t ∧ c ≠ .al ∧ taken ≠ hint then bump (tileReg n 0x50) (slots.val + staged) s1 else s1)

/-- CALL: the index behind it is pushed; it pops no loop level (05 R157, R159). -/
def execCall (n : TileIx) (t : Thr) (off : BitVec 21) (s : State) : Host.Outcome State Fault Refusal :=
  .next (flowExec n t true
    (fun y => if y.calls.length < 8 then .ok { y with calls := (y.pc + 1) :: y.calls, pc := y.pc + off.setWidth 15 }
      else .error excCallStack) s)

/-- RET: to the index pushed (05 R159). -/
def execRet (n : TileIx) (t : Thr) (s : State) : Host.Outcome State Fault Refusal :=
  .next (flowExec n t true
    (fun y => match y.calls with
      | [] => .error excCallStack
      | a :: as => .ok { y with calls := as, pc := a }) s)

/-- JR: to D[14:0]. -/
def execJr (n : TileIx) (t : Thr) (d : Fin 16) (s : State) : Host.Outcome State Fault Refusal :=
  .next (flowExec n t true (fun y => .ok (branchTo ((getD y d).setWidth 15) y)) s)

/-- A loop of `count` iterations over the next END + 1 instructions; count 0 skips the body (05 R157). -/
def loopPush (count : Nat) (len : BitVec 9) (y : Thread) : Except Nat Thread :=
  let stop := y.pc + 1 + len.setWidth 15
  if count = 0 then .ok { y with pc := stop + 1 }
  else if y.loops.length < 4 then .ok { y with loops := ⟨y.pc + 1, stop, count⟩ :: y.loops, pc := y.pc + 1 }
  else .error excLoopOvf

/-- LOOP: the count is D. -/
def execLoop (n : TileIx) (t : Thr) (d : Fin 16) (len : BitVec 9) (s : State) : Host.Outcome State Fault Refusal :=
  .next (flowExec n t true (fun y => loopPush (getD y d).toNat len y) s)
/-- LOOPI: the count is in the instruction. -/
def execLoopi (n : TileIx) (t : Thr) (count : BitVec 12) (len : BitVec 9) (s : State) :
    Host.Outcome State Fault Refusal :=
  .next (flowExec n t true (fun y => loopPush count.toNat len y) s)

/-- LEXIT: the innermost count becomes 1 (05 R157). -/
def lexitLoops : List LoopLevel → List LoopLevel
  | [] => []
  | l :: ls => { l with count := 1 } :: ls
def execLexit (n : TileIx) (t : Thr) (s : State) : Host.Outcome State Fault Refusal :=
  .next (flowExec n t true (fun y => .ok { y with loops := lexitLoops y.loops, pc := y.pc + 1 }) s)

end Sys2Proof.Machine
end

