-- ==== Sys2Proof/Machine/CoreMem.lean ====
section
/-! DEFINITION. The control core's loads and stores and its address-register instructions (05 R152, R154–R156). -/

namespace Sys2Proof.Machine

/-- IMM14 is used with AM 0 and AM 2 alone, and is 0 otherwise (05 R149, R154). -/
def memLegal (f : MemF) : Bool := decide (f.am.toNat % 2 = 0) || decide (f.imm = 0)

/-- A load of `size` bytes, sign-extended, into REG; the head moves as AM says (05 R152, R154). A load into a register
replaces it after the head has moved. -/
def loadExec (n : TileIx) (t : Thr) (f : MemF) (size : Nat) (s : State) : State :=
  coreStep n t (memLegal f)
    (fun s =>
      let y := threadOf s n t
      let a := memAddr y f size
      match loadCheck s n a.1.toNat size size with
      | some c => .error c
      | none =>
        .ok (bankStall n f.lost (setThread n t
          (setD f.reg (BitVec.ofInt 32 (signedOf (8 * size) (lsLoad s n a.1.toNat size))) a.2) s))) s

/-- A store of the low `size` bytes of REG. -/
def storeExec (n : TileIx) (t : Thr) (f : MemF) (size : Nat) (s : State) : State :=
  coreStep n t (memLegal f)
    (fun s =>
      let y := threadOf s n t
      let a := memAddr y f size
      match addrCheck a.1.toNat size size with
      | some c => .error c
      | none => .ok (bankStall n f.lost (setThread n t a.2 (lsStore n a.1.toNat size (getD y f.reg).toNat s)))) s

/-- LD, LDH, LDB. -/
def execLd (n : TileIx) (t : Thr) (f : MemF) (s : State) : Host.Outcome State Fault Refusal := .next (loadExec n t f 4 s)
def execLdh (n : TileIx) (t : Thr) (f : MemF) (s : State) : Host.Outcome State Fault Refusal := .next (loadExec n t f 2 s)
def execLdb (n : TileIx) (t : Thr) (f : MemF) (s : State) : Host.Outcome State Fault Refusal := .next (loadExec n t f 1 s)
/-- ST, STH, STB. -/
def execSt (n : TileIx) (t : Thr) (f : MemF) (s : State) : Host.Outcome State Fault Refusal := .next (storeExec n t f 4 s)
def execSth (n : TileIx) (t : Thr) (f : MemF) (s : State) : Host.Outcome State Fault Refusal :=
  .next (storeExec n t f 2 s)
def execStb (n : TileIx) (t : Thr) (f : MemF) (s : State) : Host.Outcome State Fault Refusal :=
  .next (storeExec n t f 1 s)

/-- SETA: IMM22, sign-extended for S and zero-extended otherwise. -/
def setaVal (sel : ASel) (imm : BitVec 22) : Word := match sel with
  | .s => imm.signExtend 32
  | _ => imm.setWidth 32
def execSeta (n : TileIx) (t : Thr) (sel : ASel) (k : Fin 8) (imm : BitVec 22) (s : State) :
    Host.Outcome State Fault Refusal :=
  .next (coreReg n t true (fun y => setA sel k (setaVal sel imm) y) s)
/-- MVA: SEL K = D. -/
def execMva (n : TileIx) (t : Thr) (sel : ASel) (k : Fin 8) (d : Fin 16) (s : State) :
    Host.Outcome State Fault Refusal :=
  .next (coreReg n t true (fun y => setA sel k (getD y d) y) s)
/-- MVD: D = SEL K. -/
def execMvd (n : TileIx) (t : Thr) (sel : ASel) (k : Fin 8) (d : Fin 16) (s : State) :
    Host.Outcome State Fault Refusal :=
  .next (coreReg n t true (fun y => setD d (getA y sel k) y) s)
/-- ADDA: HK = next(HK, IMM22), the step signed (05 R154; log 11). -/
def execAdda (n : TileIx) (t : Thr) (k : Fin 8) (imm : BitVec 22) (s : State) : Host.Outcome State Fault Refusal :=
  .next (coreReg n t true (fun y => setH k (nextHead y k imm.toInt) y) s)

end Sys2Proof.Machine
end

