-- ==== Sys2Proof/Machine/Phy.lean ====
section
/-! DEFINITION. PHY descriptors: their checks, arming a chain, binding transport blocks, and what a finished chain delivers
(06 R188, R189; 09 R255–R275). -/

namespace Sys2Proof.Machine

/-! ### Slots and cues -/

/-- GRID, SFN and SLOT of OPW0 (09 R256). -/
def slGrid (d : BitVec 512) : Nat := field (dOpw d 0) 1 0
def slSfn (d : BitVec 512) : Nat := field (dOpw d 0) 11 2
def slSlot (d : BitVec 512) : Nat := field (dOpw d 0) 16 12

/-- The first part of check 13: OPW0 in the order of R52 (09 R258 item 1); `reserved` says that another word of the
descriptor has a reserved bit set. -/
def slotCheck (s : State) (d : BitVec 512) (reserved : Bool) : Option Nat :=
  if reserved = true ∨ field (dOpw d 0) 31 17 ≠ 0 then some 0x10
  else if gridEn s (slGrid d) = false then some 0x42
  else if slotsPerFrame (gridMu s (slGrid d)) ≤ slSlot d then some 0x10
  else none

/-- The active sheet, where OPW1 names it (item 2). -/
def namedSheet (s : State) (d : BitVec 512) : Option Loaded := match activeLoad s with
  | some l => if l.id.toNat = field (dOpw d 1) 15 0 then some l else none
  | none => none

/-- Start of the slot's symbol 0 as bound now, in units; negative where the grid lies before the epoch. -/
def slotBound (s : State) (d : BitVec 512) : Int := bindCue s (slGrid d) (slSfn d) (slSlot d) 0 0 (nowUnits s)

/-! ### Arming (06 R188) -/

/-- Steps of a chain with their index in STEPS. -/
def chainSteps (i : Image) (chain : Nat) : List (StepEnt × Nat) := (i.steps.zipIdx).filter fun x => decide (x.1.chain = chain)

/-- The step with the earliest cue. -/
def firstStep (s : State) : List (StepEnt × Nat) → Option StepEnt
  | [] => none
  | x :: xs => match firstStep s xs with
    | none => some x.1
    | some y => if stepCue s y < stepCue s x.1 then some y else some x.1

/-- Start of the slot to which the earliest cue of a chain binds now (02 R54). -/
def chainT0 (s : State) (g sfn slot : Nat) (x : StepEnt) : Int :=
  bindCue s g sfn slot x.symbol x.offset (nowUnits s) - stepCue s x

/-- The chain's key among those that have fired (02 R47 item 4), without its last bit. -/
def firedKey (g sfn slot chain : Nat) : Nat := ((g * 1024 + sfn) * 32 + slot) * 4 + chain / 4
/-- It was fired before a step of time, within half an SFN period (log 55). -/
def firedBefore (s : State) (key : Nat) : Bool :=
  s.time.fired.any fun x => decide (x.1 = 2 * key + 1) && decide (s.clk - x.2 < 5120 * ticksMs)

/-- Slots of grid `g` in flight. -/
def slotsInFlight (s : State) (g : Nat) : List Nat :=
  ((s.chains.filter fun c => decide (c.grid.val = g) && !c.ended).map (·.t0)).eraseDups

/-- The lead and overlap rules, and those of a scene change, for a slot that starts at `t0` with earliest cue `first`. -/
def mayArm (s : State) (l : Loaded) (g key t0 : Nat) (first : Int) (cues : List Nat) : Bool :=
  decide ((nowUnits s : Int) + (20 * unitsUs : Nat) ≤ first) &&
    decide ((t0 :: (slotsInFlight s g).filter fun x => decide (x ≠ t0)).length ≤ l.img.overlap) &&
    !firedBefore s key && cues.all fun c => !cueSuppressed s g c

/-- The pack that RXPACK_ID names, where it is usable (09 R265). -/
def usablePack (s : State) (l : Loaded) (id : Nat) : Option Pack :=
  (packsNow s).find? fun p => decide (p.id.toNat = id) && decide (id ≠ 0) && decide (verKey p.tool = verKey l.img.tool)

/-! ### Transport blocks (09 R259) -/

/-- The index names a PDSCH PDU. -/
def isPdsch (pdus : List FapiPdu) (k : Nat) : Bool := ((pdus[k]?).bind pdschBlocks).isSome

/-- A transport block is bound to a PDSCH PDU of a chain, and the PDU is remembered until its slot begins. -/
def bindBlock (c : Chain) (k : Nat) (tb : List Byte) (s : State) : State :=
  setChain { c with bound := c.bound ++ [(k, tb)] } { s with radio := { s.radio with bound := s.radio.bound ++ [(chainSlot c, k)] } }

/-- The PDU `k` of a slot has a transport block. -/
def isBound (s : State) (slot k : Nat) : Bool := s.radio.bound.contains (slot, k)

/-- Blocks that wait for a downlink request are bound to its chain, or refused where their PDU has one. -/
def bindWaiting (ref : DRef) : List TxWait → State → State
  | [], s => s
  | w :: ws, s =>
    bindWaiting ref ws
      (match chainOf s ref with
      | none => s
      | some c =>
        if c.grid = w.grid ∧ c.sfn = w.sfn ∧ c.slot = w.slot ∧ isPdsch c.pdus w.pdu then
          (let t : State := { s with radio := { s.radio with tx := s.radio.tx.filter fun x => decide (x.ref ≠ w.ref) } }
           if isBound t (chainSlot c) w.pdu then refuse w.ref 0x10 t
           else finish w.ref (okStatus true false t) 0 0 w.tb.length 0 [] (bindBlock c w.pdu w.tb t))
        else s)

/-- The chain is armed. -/
def armChain (r : DRef) (d : BitVec 512) (l : Loaded) (chain : Nat) (pdus : List FapiPdu) (t0 : Nat) (s : State) : State :=
  let steps : List StepRun := (chainSteps l.img chain).map fun x =>
    { ent := x.1, ix := x.2, tile := l.tiles.getD x.1.role 0, cue := ((t0 : Int) + stepCue s x.1).toNat, state := .armed,
      haltAt := none, seen := [] }
  let dl : Int := match (chainSteps l.img chain).find? fun x => x.1.last with
    | some x => x.1.deadline
    | none => 0
  let c : Chain :=
    { ref := r, image := l.num, grid := Fin.ofNat 4 (slGrid d), sfn := BitVec.ofNat 10 (slSfn d), slot := BitVec.ofNat 5 (slSlot d),
      chain, steps, t0, deadline := ((t0 : Int) + dl * unitsNs).toNat, fired := false, pdus, bound := [],
      pack := (usablePack s l (field (dOpw d 1) 31 16)).map (·.num), rushes := (dOpw d 2).getLsbD 2 && decide (chain / 4 ≤ 1),
      got := {}, ended := false }
  let t := markStarted r { s with chains := s.chains ++ [c] }
  if chain / 4 = 2 then bindWaiting r t.radio.tx t else t

/-! ### The request body (08 R248–R252; 09 R255, R257) -/

/-- A PDU is of a type that KIND `k` serves. -/
def kindServes (k : Nat) (p : FapiPdu) : Bool := match p.chan with
  | .pusch _ => decide (k = 0)
  | .pucch _ _ => decide (k = 0)
  | .srs _ _ _ _ => decide (k = 0)
  | .prach _ _ _ => decide (k = 1)
  | .pdsch _ _ _ => decide (k = 2)
  | .pdcch _ _ => decide (k = 2) || decide (k = 3)
  | .ssb _ _ => decide (k = 2)
  | .csiRs _ => decide (k = 2)
  | .other => false

/-- Repetitions of PUSCH of type A and of type B. -/
def repsOk (typeB : Bool) (n : Nat) : Bool :=
  if typeB then [1, 2, 3, 4, 7, 8, 12, 16].contains n else [1, 2, 3, 4, 7, 8, 12, 16, 20, 24, 28, 32].contains n

/-- Modulations: π/2-BPSK with DFT-s-OFDM only. -/
def qmOk (bpsk : Bool) (qm : Nat) : Bool := [2, 4, 6, 8].contains qm || (bpsk && decide (qm = 1))

/-- A PUSCH allocation is within the table of R249. -/
def puschOk (p : PuschPdu) : Bool :=
  decide (1 ≤ p.layers) && decide (p.layers ≤ if p.dfts then 1 else 4) && qmOk p.dfts p.qm && decide (p.dmrsExtra ≤ 3) &&
    decide (1 ≤ ((List.range 14).filter fun l => p.dmrs.getLsbD l).length) &&
    decide (((List.range 14).filter fun l => p.dmrs.getLsbD l).length ≤ 4) && repsOk p.typeB p.reps

/-- PUCCH: formats 0 to 4, repeated over 2, 4 or 8 slots where the format is 1, 3 or 4. -/
def pucchOk (format slots : Nat) : Bool :=
  decide (format ≤ 4) && (decide (slots = 1) || ([2, 4, 8].contains slots && [1, 3, 4].contains format))

/-- SRS: ports, symbols, comb, and one of the four usages. -/
def srsOk (ports symbols comb usage : Nat) : Bool :=
  [1, 2, 4].contains ports && [1, 2, 4].contains symbols && [2, 4, 8].contains comb && decide (usage < 4)

/-- The format is one of those with the long sequence. -/
def raLong : RaFormat → Bool
  | .f0 => true | .f1 => true | .f2 => true | .f3 => true | _ => false

/-- PRACH: long formats with any set; short ones at 15 and 30 kHz with unrestricted sets. -/
def prachOk (f : RaFormat) (scs set : Nat) : Bool := match f with
  | .other => false
  | _ => if raLong f then decide (set ≤ 2) else (decide (scs = 12) || decide (scs = 24)) && decide (set = 0)

/-- SSB: case A with mu 0, B and C with mu 1; Lmax 4 or 8. -/
def ssbOk (mu pattern lmax : Nat) : Bool :=
  (if mu = 0 then decide (pattern = 0) else decide (pattern = 1) || decide (pattern = 2)) && (decide (lmax = 4) || decide (lmax = 8))

/-- What a PDU asks for is in the tables of R249 and R250. -/
def chanOk (mu : Nat) : PduChan → Bool
  | .pusch p => puschOk p
  | .pucch f n => pucchOk f n
  | .srs a b c d => srsOk a b c d
  | .prach f x r => prachOk f x r
  | .pdsch layers qm _ => decide (1 ≤ layers) && decide (layers ≤ 4) && qmOk false qm
  | .pdcch _ l => l.all fun x => [1, 2, 4, 8, 16].contains x
  | .ssb a b => ssbOk mu a b
  | .csiRs n => decide (1 ≤ n) && decide (n ≤ 8)
  | .other => false

/-- Most PRBs of a carrier (08 R248); those of grid `g` (R242). -/
def maxPrbs (s : State) (g : Nat) : Nat := if gridMu s g = 0 then 270 else 273
def sheetRaw (s : State) : List Byte := match activeLoad s with
  | some l => l.img.raw
  | none => []
def prbCount (s : State) (g : Nat) : Nat := min (Config.carrierPrbs (sheetRaw s) g) (maxPrbs s g)

/-- A category A radio unit is at port `p` (R254). -/
def catA (s : State) (p : Nat) : Bool := !rdb s (fhReg p 0) 1

/-- A port that carries the streams of a grid in the direction of KIND `k` has a category A radio unit. -/
def gridCatA (s : State) (g k : Nat) : Bool :=
  (eaxcLive s).any fun w => decide (eaxcGrid w = g) && decide (w.getLsbD 25 = decide (2 ≤ k)) && catA s (eaxcPort w)

/-- A PDU keeps to R257 on grid `g` for KIND `k`: its type, its field values, the numerology, cyclic prefix and bandwidth part of
R248, the tables, and no weights for a category A radio unit (R238). -/
def pduOk (s : State) (g k : Nat) (p : FapiPdu) : Bool :=
  kindServes k p && p.fieldsOk && decide (p.mu = gridMu s g) && !p.extendedCp && decide (p.bwpStart + p.bwpSize ≤ prbCount s g) &&
    chanOk p.mu p.chan && !(p.beam && gridCatA s g k)

/-- How many of each item of R252 a PDU asks for, and the maxima, in the order of its table. -/
def pduItems (p : FapiPdu) : List Nat := match p.chan with
  | .pusch x => [1, 0, 0, 0, 0, 0, 0, 0, x.codeBlocks, 0]
  | .pucch _ _ => [0, 1, 0, 0, 0, 0, 0, 0, 0, 0]
  | .srs _ _ _ _ => [0, 0, 1, 0, 0, 0, 0, 0, 0, 0]
  | .prach _ _ _ => [0, 0, 0, 1, 0, 0, 0, 0, 0, 0]
  | .pdsch _ _ n => [0, 0, 0, 0, 1, 0, 0, 0, 0, n]
  | .pdcch _ l => [0, 0, 0, 0, 0, l.length, 0, 0, 0, 0]
  | .csiRs _ => [0, 0, 0, 0, 0, 0, 1, 0, 0, 0]
  | .ssb _ _ => [0, 0, 0, 0, 0, 0, 0, 1, 0, 0]
  | .other => [0, 0, 0, 0, 0, 0, 0, 0, 0, 0]
def itemMax : List Nat := [16, 64, 32, 8, 16, 32, 16, 2, 152, 152]

/-- A request keeps to the maxima and to the dimensions of the active sheet (R252). -/
def countsOk (s : State) (ps : List FapiPdu) : Bool :=
  (itemMax.zipIdx).all fun x =>
    let n := (ps.map fun p => (pduItems p).getD x.2 0).sum
    decide (n ≤ x.1) && decide (n ≤ Config.sheetMax (sheetRaw s) x.2)

/-- CORESETs of a bandwidth part that a request uses: up to 3 (R250). -/
def coresetsOf (ps : List FapiPdu) (a n : Nat) : List Nat :=
  (ps.filterMap fun p => match p.chan with
    | .pdcch c _ => if p.bwpStart = a ∧ p.bwpSize = n then some c else none
    | _ => none).eraseDups
def coresetsOk (ps : List FapiPdu) : Bool := ps.all fun p => decide ((coresetsOf ps p.bwpStart p.bwpSize).length ≤ 3)

/-- The body breaks R257 for the chain. -/
def bodyBad (s : State) (d : BitVec 512) (chain : Nat) (b : FapiBody) : Bool :=
  !b.lengthOk || decide (b.sfn.toNat ≠ slSfn d) || decide (b.slot.toNat ≠ slSlot d) ||
    (b.pdus.any fun p => !pduOk s (slGrid d) (chainKind chain) p) || !countsOk s b.pdus || !coresetsOk b.pdus

/-- Items 3 and 4 of R258, then the chain is armed. -/
def phyArm (r : DRef) (d : BitVec 512) (l : Loaded) (chain : Nat) (b : FapiBody) (s : State) : State :=
  if bodyBad s d chain b then refuse r 0x10 s
  else match firstStep s (chainSteps l.img chain) with
    | none => refuse r 0x42 s
    | some x =>
      let t0 := chainT0 s (slGrid d) (slSfn d) (slSlot d) x
      let cues := (chainSteps l.img chain).map fun y => (t0 + stepCue s y.1).toNat
      if 0 ≤ t0 ∧ mayArm s l (slGrid d) (firedKey (slGrid d) (slSfn d) (slSlot d) chain) t0.toNat (t0 + stepCue s x) cues = true then
        armChain r d l chain b.pdus t0.toNat s
      else refuse r 0x33 s

/-- Check 13 of PHY_UL_TTI, PHY_DL_TTI and PHY_UL_DCI for the chain of a kind, and its effect (09 R255, R258). -/
def phyGo (r : DRef) (kind : Nat) (reserved : Bool) (body : FapiRead) (d : BitVec 512) (s : State) : State :=
  match slotCheck s d reserved with
  | some st => refuse r st s
  | none => match namedSheet s d with
    | none => refuse r 0x42 s
    | some l =>
      let chain := 4 * kind + slGrid d
      if chainSteps l.img chain = [] then refuse r 0x42 s
      else if dA0Dev d && devPoisoned s (dAddr0 d).toNat (dLen0 d) then finish r 0x21 7 0 0 (lastUe s) [] s
      else match body with
        | .error => inputError r s
        | .body b => phyArm r d l chain b s

/-- A request body is 1 to 262,144 bytes. -/
def bodyLenBad (d : BitVec 512) : Bool := decide (dLen0 d = 0) || decide (262144 < dLen0 d)

/-- OPW2.PRACH. -/
def isPrach (d : BitVec 512) : Bool := (dOpw d 2).getLsbD 0

/-- Reserved bits of PHY_UL_TTI beyond OPW0. -/
def ulReserved (d : BitVec 512) : Bool :=
  decide (field (dOpw d 2) 31 4 ≠ 0) || decide (field (dOpw d 3) 31 16 ≠ 0) || (!isPrach d && decide (dOpw d 3 ≠ 0)) ||
    decide (dBits d 384 128 ≠ 0)
/-- Those of PHY_DL_TTI and PHY_UL_DCI, and of PHY_TX_DATA. -/
def dlReserved (d : BitVec 512) : Bool := decide (field (dOpw d 1) 31 16 ≠ 0) || decide (dBits d 320 192 ≠ 0)
def txReserved (d : BitVec 512) : Bool :=
  decide (field (dOpw d 1) 31 16 ≠ 0) || decide (field (dOpw d 2) 31 16 ≠ 0) || decide (dBits d 352 160 ≠ 0)

/-- PHY_UL_TTI. -/
def execPhyUlTti (r : DRef) (body : FapiRead) (s : State) : Host.Outcome State Fault Refusal :=
  .next (runDesc r 0x10
    (fun _ d => { in0 := true, out1 := true, timeDep := true,
                  badLength := bodyLenBad d || decide (dLen1 d < if isPrach d then 16384 else 196608) })
    (fun d s => phyGo r (bnat (isPrach d)) (ulReserved d) body d s) s)

/-- PHY_DL_TTI. -/
def execPhyDlTti (r : DRef) (body : FapiRead) (s : State) : Host.Outcome State Fault Refusal :=
  .next (runDesc r 0x11 (fun _ d => { in0 := true, timeDep := true, badLength := bodyLenBad d })
    (fun d s => phyGo r 2 (dlReserved d) body d s) s)

/-- PHY_UL_DCI. -/
def execPhyUlDci (r : DRef) (body : FapiRead) (s : State) : Host.Outcome State Fault Refusal :=
  .next (runDesc r 0x12 (fun _ d => { in0 := true, timeDep := true, badLength := bodyLenBad d })
    (fun d s => phyGo r 3 (dlReserved d) body d s) s)

/-- The transport block has been read: it is bound to the armed downlink request, or waits for it. -/
def txGo (r : DRef) (d : BitVec 512) (bs : List Byte) (s : State) : State :=
  let k := field (dOpw d 2) 15 0
  let g : GridIx := Fin.ofNat 4 (slGrid d)
  let sfn : BitVec 10 := BitVec.ofNat 10 (slSfn d)
  let slot : BitVec 5 := BitVec.ofNat 5 (slSlot d)
  let mine := s.chains.find? fun c => decide (c.grid = g) && decide (c.sfn = sfn) && decide (c.slot = slot) &&
    decide (chainKind c.chain = 2) && !c.ended && isPdsch c.pdus k
  if isBound s (slotWord g.val sfn.toNat slot.toNat) k then refuse r 0x10 s
  else match mine with
    | some c => finish r (okStatus true false s) 0 0 bs.length 0 [] (bindBlock c k bs s)
    | none =>
      if slotBound s d < (nowUnits s : Int) then refuse r 0x33 s
      else markStarted r { s with radio := { s.radio with tx := s.radio.tx ++ [⟨r, g, sfn, slot, k, bs⟩] } }

/-- PHY_TX_DATA. -/
def execPhyTxData (r : DRef) (tb : Dma) (s : State) : Host.Outcome State Fault Refusal :=
  .next (runDesc r 0x13 (fun _ d => { in0 := true, timeDep := true, badLength := bodyLenBad d })
    (fun d s => match slotCheck s d (txReserved d) with
      | some st => refuse r st s
      | none => if (namedSheet s d).isNone then refuse r 0x42 s else withInput r d tb (txGo r d) s) s)

/-! ### A chain that is done (06 R189; 09 R259–R270) -/

/-- The final record of a chain of the uplink: its indications first. -/
def rxDone (c : Chain) (s : State) : State :=
  finishOut c.ref (okStatus true (decide (0 < countCbs (fun x => x.taken && x.pass) c.got.cbs)) s) 0 (chainResult s c)
    (chainProgress c) 0 (chainBytes s c) (useMeas c s)

/-- A downlink chain is done: SERVED, or SERVED_PARTIAL where a PDSCH had no transport block (09 R259). -/
def dlDone (c : Chain) (s : State) : State :=
  finish c.ref (okStatus true false s) (if chainProgress c < chainTotal c then 1 else 0) 0 (chainProgress c) 0 [] s

/-- The LAST step has halted: the chain is done with its real result. A code block for which no soft bits came is decoded from
none. -/
def chainDone (r : DRef) (s0 : State) : State := match chainOf s0 r with
  | none => s0
  | some c0 =>
    let s := deliverBlocks r (missingBlocks c0) s0
    match chainOf s r with
    | none => s
    | some c =>
      let t := setChain { c with ended := true } s
      if chainKind c.chain ≤ 1 then rxDone c t else dlDone c t

end Sys2Proof.Machine
end

