-- ==== Sys2Proof/Machine/Fronthaul.lean ====
section
/-! DEFINITION. The fronthaul ports as the director and the radio rows use them: map entries, block floating point, the symbol
buffers' PRBs, and the C-plane messages of a step (08 R235–R246). -/

namespace Sys2Proof.Machine

def fhStatic (s : State) (p : Nat) : Bool := rdb s (fhReg p 0) 24
/-- Largest frame of the port. -/
def fhLimit (s : State) (p : Nat) : Nat := if rdb s (fhReg p 0) 11 then 9022 else 1522
def fhLinkUp (s : State) (p : Nat) : Bool := rdb s 0xD0000 p

/-- Mantissa width of a COMP code. -/
def compWidth (code : Nat) : Nat := match code with
  | 0 => 9 | 1 => 12 | 2 => 14 | _ => 16
/-- UL and DL widths of a port. -/
def ulWidth (s : State) (p : Nat) : Nat := compWidth (rdf s (fhReg p 4) 1 0)
def dlWidth (s : State) (p : Nat) : Nat := compWidth (rdf s (fhReg p 4) 3 2)

/-- The next sequence ID sent by a port for an eAxC ID and direction; the table's key (08 R243). -/
def seqKey (p : Nat) (eaxc : BitVec 16) (down : Bool) : Nat := (p * 65536 + eaxc.toNat) * 2 + bnat down
def seqNext (s : State) (p : Nat) (eaxc : BitVec 16) (down : Bool) : Byte :=
  BitVec.ofNat 8 (tabGet (fun _ => 0) s.radio.seqTx (seqKey p eaxc down))
def seqUse (p : Nat) (eaxc : BitVec 16) (down : Bool) (s : State) : State :=
  { s with radio := { s.radio with
      seqTx := tabSet (fun _ => 0) s.radio.seqTx (seqKey p eaxc down) ((tabGet (fun _ => 0) s.radio.seqTx (seqKey p eaxc down) + 1) % 256) } }

/-! ### Block floating point (08 R239–R241) -/

/-- The `w`-bit mantissas that bits spell, most significant bit first. -/
def mantissas (w : Nat) : Nat → List Bool → List Int
  | 0, _ => []
  | n + 1, bs => signedOf w (natMsb (bs.take w)) :: mantissas w n (bs.drop w)

/-- The bits of bytes, most significant first. -/
def msbBits (bs : List Byte) : List Bool := bs.flatMap fun b => bitsMsb 8 b.toNat

/-- A mantissa expanded by exponent `e`, and whether it clamped. -/
def bfpExpand (e : Nat) (m : Int) : Int × Bool :=
  let v := m * 2 ^ e
  (clampInt (-32768) 32767 v, decide (v < -32768) || decide (32767 < v))

/-- A received PRB: its 24 values and how many clamped. -/
def prbExpand (w : Nat) (param : Byte) (bs : List Byte) : List Int × Nat :=
  let l := (mantissas w 24 (msbBits bs)).map (bfpExpand (param.toNat % 16))
  (l.map Prod.fst, (l.filter Prod.snd).length)

/-- Bits of the shortest two's-complement form. -/
def bitlenInt (x : Int) : Nat := if 0 ≤ x then bitLen x.toNat + 1 else bitLen (-x - 1).toNat + 1

/-- Nearest integer to a quotient by 2^e, ties to even. -/
def halfEven (x : Int) (e : Nat) : Int :=
  let q := x / 2 ^ e
  let r := 2 * (x - q * 2 ^ e)
  if r < 2 ^ e then q else if 2 ^ e < r then q + 1 else if q % 2 = 0 then q else q + 1

/-- The 24 values of a PRB compressed to width `w`: the exponent, the mantissas and how many clamped. -/
def prbCompress (w : Nat) (xs : List Int) : Nat × List Int × Nat :=
  let e := (xs.map bitlenInt).foldl max 0 - w
  let ms := xs.map fun x => halfEven x e
  let lo : Int := -(2 ^ (w - 1))
  let hi : Int := 2 ^ (w - 1) - 1
  (e, ms.map (clampInt lo hi), (ms.filter fun m => decide (m < lo) || decide (hi < m)).length)

/-- A PRB as it is sent: udCompParam and the packed mantissas. -/
def prbBytes (w : Nat) (xs : List Int) : List Byte × Nat :=
  let c := prbCompress w xs
  (BitVec.ofNat 8 c.1 :: bytesMsb (3 * w) (c.2.1.flatMap fun m => bitsMsb w (m % 2 ^ w).toNat), c.2.2)

/-! ### PRBs of a symbol buffer (08 R244) -/

/-- Bit `k` of the bitmap of the buffer at `a`. -/
def prbSet (s : State) (a k : Nat) : Bool := (memByte s (a + k / 8)).getLsbD (k % 8)

/-- PRB `k` of the buffer at `a` is written, then its bit. -/
def putPrb (a k : Nat) (xs : List Int) (s : State) : State :=
  let t := memPut (a + 64 + 48 * k) (xs.flatMap fun x => leBytes 2 (x % 65536).toNat) s
  memPut (a + k / 8) [memByte t (a + k / 8) ||| BitVec.ofNat 8 (2 ^ (k % 8))] t

/-- The 24 values of PRB `k`. -/
def getPrb (s : State) (a k : Nat) : List Int := (List.range 24).map fun i => signedOf 16 (leNat (memRead s (a + 64 + 48 * k + 2 * i) 2))

/-! ### C-plane (08 R237, R238) -/

/-- filterIndex that the device sends on a map entry. -/
def filterOf (s : State) (w : Word) : BitVec 4 :=
  if w.getLsbD 26 then Config.prachFilter (sheetRaw s) (eaxcGrid w) (eaxcStream w) else 0

/-- udCompHdr: width code and method 1; 0 with static compression. -/
def compHdr (s : State) (p : Nat) (down : Bool) : Nat :=
  if fhStatic s p then 0 else (if down then dlWidth s p else ulWidth s p) % 16 * 16 + 1

/-- Header of a frame that port `p` sends: the radio unit's MAC, the port's own, and where tags are used the VID with the PCP of the channel; a
message of neither channel has no PCP of its own: a free value (R230, R232, R254; log 1). -/
def fhHeader (s : State) (p : Nat) (pcp : Option Nat) : FhHdr :=
  { dst := BitVec.ofNat 48 ((rd s (fhReg p 0x14)).toNat + 2 ^ 32 * rdf s (fhReg p 0x18) 15 0),
    src := BitVec.ofNat 48 (fhMac s p),
    tag := if rdb s (fhReg p 0) 2 then
        some (BitVec.ofNat 3 (pcp.getD (freshVal s).toNat), BitVec.ofNat 12 (rdf s (fhReg p 0) 23 12)) else none }

/-- Port `p` can transmit: it is enabled and its link is up (R231, R246). -/
def fhCanSend (s : State) (p : Nat) : Bool := fhPortEn s p && fhLinkUp s p

/-- A frame leaves port `p`; where its link is down it is dropped and counted, and a port with EN = 0 stays idle (R231, R246). -/
def fhSend (p : Nat) (o : Output) (s : State) : State :=
  if fhCanSend s p then emit o s else if fhPortEn s p then bump (fhReg p 0x38) 1 s else s

/-- A frame of an eAxC ID leaves: only a frame that is transmitted uses a sequence ID (R243). -/
def fhSendSeq (p : Nat) (eaxc : BitVec 16) (down : Bool) (o : Output) (s : State) : State :=
  if fhCanSend s p then seqUse p eaxc down (fhSend p o s) else fhSend p o s

/-- Beamforming weights under the downlink width of the port: a common exponent, the width and the mantissas (R238, R241). -/
def weightBlock (w : Nat) (xs : List Int) : Nat × Nat × List Int :=
  let c := prbCompress w xs
  (c.1, w, c.2.1)

/-- The section of an allocation on port `p`, of a carrier of `prbs` PRBs (R237, R238). -/
def sectionOf (s : State) (p prbs k : Nat) (a : Config.CAlloc) : CSection :=
  let wts := if catA s p ∨ a.weights = [] then none else some (weightBlock (dlWidth s p) a.weights)
  { id := BitVec.ofNat 12 k, rb := false, symInc := false, startPrb := a.startPrb, numPrb := if a.numPrb = 0 then prbs else a.numPrb,
    reMask := a.reMask, numSymbol := a.symbols, ef := wts.isSome || a.groups.isSome, beamId := if catA s p then 0 else a.beamId,
    ext := { weights := wts, groups := a.groups } }

/-- Sections of allocations, numbered from `k` on (log 103). -/
def sectionsOf (s : State) (p prbs : Nat) : Nat → List Config.CAlloc → List CSection
  | _, [] => []
  | k, a :: as => sectionOf s p prbs k a :: sectionsOf s p prbs (k + 1) as

/-- C-plane messages of a step for map entries. -/
def cplaneSends (c : Chain) (ix : Nat) : List Word → State → State
  | [], s => s
  | w :: ws, s =>
    let p := eaxcPort w
    let id : BitVec 16 := w.setWidth 16
    let down := decide (2 ≤ chainKind c.chain)
    let raw := match loadedNum s c.image with
      | some l => l.img.raw
      | none => []
    let b := Config.cplaneAllocs raw ix (slotWord c.grid.val c.sfn.toNat c.slot.toNat) id
    let mu := gridMu s c.grid.val
    let t3 := Config.prachTiming raw c.grid.val (eaxcStream w)
    let prach := decide (chainKind c.chain = 1)
    let o : Output := .fhCplane p (fhHeader s p (some (rdf s (fhReg p 0) 5 3))) id (seqNext s p id down) (if prach then 3 else 1) down 1
      (filterOf s w) (c.sfn.toNat % 256) (c.slot.toNat / 2 ^ mu) (c.slot.toNat % 2 ^ mu) b.1 (compHdr s p down)
      (if prach then some ⟨t3.1, t3.2.1, t3.2.2⟩ else none) (sectionsOf s p (prbCount s c.grid.val) 0 b.2)
    cplaneSends c ix ws (fhSendSeq p id down o s)

/-- At the cue of a C-plane step its messages go to the ports: one for each entry of the chain's grid, direction and channel. -/
def cplaneAt (c : Chain) (ix : Nat) (s : State) : State :=
  match loadedNum s c.image with
  | none => s
  | some l =>
    if Config.cplaneStep l.img.raw ix then
      cplaneSends c ix ((eaxcLive s).filter fun w => decide (eaxcGrid w = c.grid.val) &&
        decide (w.getLsbD 25 = decide (2 ≤ chainKind c.chain)) && decide (w.getLsbD 26 = decide (chainKind c.chain = 1))) s
    else s

end Sys2Proof.Machine
end

