-- ==== Sys2Proof/Machine/Director.lean ====
section
/-! DEFINITION. The director: firing cues and checking steps, windows and second-unit items, dispatch of scoring items,
takeover by a standby tile and rebinding of a model's role (06 R189–R196; 12 R348–R351; 14 R403). -/

namespace Sys2Proof.Machine

/-! ### Cues of armed chains (06 R188, R189; 02 R55) -/

/-- The chain armed for a slot of a grid, under its number in the grid's kind order. -/
def slotChain (s : State) (g : GridIx) (sfn : BitVec 10) (slot : BitVec 5) (chain : Nat) : Option Chain :=
  s.chains.find? fun c => decide (c.grid = g) && decide (c.sfn = sfn) && decide (c.slot = slot) && decide (c.chain = chain)

/-- A step of a chain with its new state. -/
def setStep (c : Chain) (ix : Nat) (st : StepState) : Chain :=
  { c with steps := c.steps.map fun x => if x.ix = ix then { x with state := st } else x }

/-- The landing bitmaps that a step of an uplink chain finds at its cue (08 R245 Edge). -/
def seenNow (s : State) (c : Chain) : List (List Byte) := if chainKind c.chain ≤ 1 then landingMaps s c.grid.val else []
/-- They are kept with the step. -/
def setSeen (ix : Nat) (m : List (List Byte)) (c : Chain) : Chain :=
  { c with steps := c.steps.map fun x => if x.ix = ix then { x with seen := m } else x }

/-- The windows of a step that begins, as far as second-unit work is placed at all: their time is offered (log 58). -/
def offerWindows (c : Chain) (x : StepRun) (l : Loaded) (s : State) : State :=
  if (suFrom s).isNone then s
  else
    let ws := l.img.windows.filter fun w => decide (w.step = x.ix) && decide (w.role = x.ent.role)
    let runs : List WinRun := ws.map fun w =>
      { tile := x.tile, ref := c.ref, win := w, cue := x.cue, released := false, loaded := 0, opened := 0, held := 0 }
    bump 0x30030 ((ws.map fun w => (w.close - w.opens) / 1000).sum) { s with windows := s.windows ++ runs }

/-- The chain's first cue has fired: it is remembered for half an SFN period (02 R47 item 4; log 55). -/
def rememberFired (c : Chain) (s : State) : State :=
  if c.fired then s
  else
    let key := 2 * firedKey c.grid.val c.sfn.toNat c.slot.toNat c.chain
    let old := s.time.fired.filter fun x => decide (s.clk - x.2 < 5120 * ticksMs)
    { s with time := { s.time with fired := old ++ [(key, s.clk)] } }

/-- C0 of the step's tile starts at its entry. -/
def startStep (c : Chain) (x : StepRun) (s : State) : State :=
  match loadedNum s c.image with
  | none => s
  | some l =>
    cplaneAt c x.ix <| offerWindows c x l
      (setChain { setSeen x.ix (seenNow s c) (setStep c x.ix .running) with fired := true }
        (rememberFired c (startThread x.tile 0 (.chain c.ref x.ix) c.image x.ent.role x.ent.entry.toNat
          (loadCode l x.ent.role x.tile s))))

/-- A step that still runs where another falls due has missed its CHECK (06 R189 Edge). -/
def overrun (n : Nat) (s : State) : State :=
  match (threadOf s n 0).run, (threadOf s n 0).owner with
  | .stopped, _ => s
  | _, .chain r ix => (match chainOf s r with
    | some _ => violateFree r ix 0 s
    | none => stopThread n 0 s)
  | _, _ => stopThread n 0 s

/-- A thread that waits for a cue at or before now goes on (05 R168). -/
def cueResume (n : Nat) (s : State) : State :=
  match (threadOf s n 0).run with
  | .waiting (.cue t _) =>
    let s1 := runToTime t s
    setThread n 0 (retire { threadOf s1 n 0 with run := .running }) s1
  | _ => s

/-- A standby tile serves the role it has taken over from the first slot whose earliest cue lies 50 µs or more after the fence
(06 R196). -/
def tooSoon (s : State) (c : Chain) (tile : Nat) : Bool := match tabFind s.fault.fencedAt (64 + tile) with
  | some f => decide (firstCue c < f + 50 * unitsUs)
  | none => false

/-- A step starts, or its chain ends where the step's tile is fenced or does not serve the role yet. -/
def fireOn (r : DRef) (x : StepRun) (s : State) : State := match chainOf s r with
  | none => s
  | some c => if fenced s x.tile || tooSoon s c x.tile then fenceAbort c x.ix (lastUe s) s else startStep c x s

/-- The cue of an armed step. -/
def fireStep (r : DRef) (x : StepRun) (s : State) : State := fireOn r x (overrun x.tile (runToTime x.cue s))

/-- The slot's buffers are to be copied where a capture of its grid is active (09 R281). -/
def queueRushes (c : Chain) (s : State) : State :=
  let d : RushDue := { grid := c.grid, sfn := c.sfn, slot := c.slot, t0 := c.t0 }
  if c.rushes && (s.radio.captures.any fun k => decide (k.grid = c.grid)) && !s.radio.rushes.contains d then
    { s with radio := { s.radio with rushes := s.radio.rushes ++ [d] } }
  else s

/-- Index of the LAST step of a chain. -/
def lastStep (c : Chain) : Nat := match c.steps.find? fun x => x.ent.last with
  | some x => x.ix
  | none => 0

/-- A chain that is not done is aborted. -/
def missDeadline (r : DRef) (s : State) : State := match chainOf s r with
  | some k => violateFree r (lastStep k) 0 s
  | none => s

/-- The chain's slot is no longer in flight; an old pack that only it was armed with is freed (09 R278). -/
def dropChain (r : DRef) (s : State) : State := dropOldPacks { s with chains := s.chains.filter fun x => decide (x.ref ≠ r) }

/-- The deadline cue of a chain: one not done by then is aborted; the slot is no longer in flight. -/
def fireDeadline (c : Chain) (s : State) : State :=
  queueRushes c (dropChain c.ref (missDeadline c.ref (runToTime c.deadline s)))

/-- The cue that a thread outside any chain waits for. -/
def waitsFor (y : Thread) : Option Nat := match y.run, y.owner with
  | .waiting (.cue _ _), .chain _ _ => none
  | .waiting (.cue t _), _ => some t
  | _, _ => none

/-- The tile whose C0, of SCORE or TAKE code, waits for the earliest cue, with that cue; of equal cues that of the lower tile. -/
def earliestWait : List (Nat × Tile) → Option (Nat × Nat)
  | [] => none
  | x :: xs => match waitsFor x.2.c0, earliestWait xs with
    | none, r => r
    | some t, none => some (x.1, t)
    | some t, some (m, u) => if t ≤ u then some (x.1, t) else some (m, u)

/-- The cue of SCORE or TAKE code that falls due first fires (05 R168; log 24). -/
def fireWaiting (s : State) : State := match earliestWait s.tiles with
  | some (n, _) => cueResume n s
  | none => s

/-- CUE_FIRE: `step` is an index in STEPS; one behind the last names the deadline cue. A step that already runs goes on from
its CUEWAIT. Where no chain is armed under the name, the cue is that of a waiting thread of other work. -/
def execCueFire (g : GridIx) (sfn : BitVec 10) (slot : BitVec 5) (chain : Fin 16) (step : Nat) (s : State) :
    Host.Outcome State Fault Refusal :=
  .next (match slotChain s g sfn slot chain with
    | none => fireWaiting s
    | some c =>
      if ((loadedNum s c.image).map fun l => l.img.steps.length).getD 0 ≤ step then fireDeadline c s
      else match c.steps.find? fun x => decide (x.ix = step) with
        | none => s
        | some x => match x.state with
          | .armed => fireStep c.ref x s
          | .running => cueResume x.tile s
          | .done => s)

/-- STEP_CHECK_EXPIRY: a step not done by its CHECK; `res` is what it had completely written by then (06 R195). -/
def execStepCheckExpiry (g : GridIx) (sfn : BitVec 10) (slot : BitVec 5) (chain : Fin 16) (step : Nat) (res : ChainResult) (s : State) :
    Host.Outcome State Fault Refusal :=
  .next (match slotChain s g sfn slot chain with
    | none => s
    | some c => match c.steps.find? fun x => decide (x.ix = step) with
      | none => s
      | some x =>
        if x.state = .done then s
        else violate c.ref step 0 (deliver c.ref x.seen res (runToTime (x.cue + x.ent.check * unitsNs) s)))

/-- The instant at which C0 halted is kept with the step (06 R189). -/
def haltNow (ix now : Nat) (c : Chain) : Chain :=
  { c with steps := c.steps.map fun x => if x.ix = ix then { x with haltAt := some now } else x }

/-- A step has delivered its results; with the LAST one the chain is done. -/
def stepDone (r : DRef) (x : StepRun) (res : ChainResult) (s : State) : State :=
  let t := deliver r x.seen res s
  if x.ent.last then chainDone r t else t

/-- The step of a chain has halted: it is done, its windows are over, and with the LAST one the chain is done. -/
def stepHalted (n : Nat) (r : DRef) (ix : Nat) (res : ChainResult) (s : State) : State :=
  match chainOf s r with
  | none => s
  | some c0 =>
    let c := haltNow ix (nowUnits s) (setStep c0 ix .done)
    let s1 := setChain c (dropWindows (fun w => decide (w.tile = n) && decide (w.ref = r)) s)
    match c.steps.find? fun x => decide (x.ix = ix) with
    | some x => stepDone r x res s1
    | none => s1

/-- An item that the director stopped leaves once its operations are complete (06 R193). -/
def itemHalted (k : Nat) (s : State) : State := match (itemOf s k).bind (·.leaving) with
  | some (status, cycles) => leaveItem k status cycles s
  | none => s

/-- THREAD_HALTED: the coprocessor operations of a thread that has executed HALT, or that the director has stopped, are
complete. -/
def execThreadHalted (n : TileIx) (t : Thr) (res : ChainResult) (s : State) : Host.Outcome State Fault Refusal :=
  let y := threadOf s n t
  .next (if y.run = .halting ∧ syncDone s n t 0xFF = true then
      (let s1 := setThread n t { y with run := .stopped } s
       match y.owner with
       | .chain r ix => stepHalted n r ix res s1
       | .item k => itemHalted k s1
       | _ => s1)
    else s)

/-! ### Second-unit items (06 R190–R194; 12 R358) -/

/-- GAFFER.STATUS.SAG_WARN. -/
def sagWarn (s : State) : Bool := rdb s gafferStatus 0

/-- The item on a thread of a tile. -/
def itemOn (s : State) (n : TileIx) (t : Thr) : Option Item := s.items.find? fun i => decide (i.on = some (n, t))

/-- The second-unit item on a tile that goes on there: one that is leaving gets no window. -/
def suItem (s : State) (n : TileIx) : Option Item := (itemOn s n 1).bind fun i => if i.leaving.isSome then none else some i

/-- The item of class `c` that is next in the queue of partition `p`. -/
def nextItem (s : State) (p c : Nat) : Option Item :=
  s.items.find? fun i => decide (i.part = p) && decide (i.cls = c) && i.on.isNone

/-- An item starts on a thread. -/
def placeItem (i : Item) (n : TileIx) (t : Thr) (role entry : Nat) (s : State) : State :=
  startThread n t (.item i.num) i.image role entry (setItem { i with on := some (n, t), parkedAt := none, leaving := none } s)

/-- Program-store index of a C1 variant: it fills the end of the store (log 57). -/
def suEntry (code : List Word) : Nat := 32768 - code.length

/-- The C1 variant of a model is written to a tile's program store. -/
def loadSu (code : List Word) (n : Nat) (s : State) : State :=
  let x := tileOf s n
  setTile n { x with prog := tabSetMany (fun _ => 0) x.prog (suEntry code) code } s

/-- The C1 variant of the model that an item runs. -/
def itemSu (s : State) (i : Item) : Option (List Word) := match loadedNum s i.image with
  | some l => l.img.codeSu
  | none => none

/-- Second-unit work may be placed on tile `n`: an in-service tile of the PHY partition whose C1 is idle. -/
def suTileFree (s : State) (n : TileIx) : Bool :=
  match phyPart s with
  | none => false
  | some p => ((members s p).contains n.val || (standbys s p).contains n.val) && decide ((threadOf s n 1).run = .stopped) &&
      (itemOn s n 1).isNone

/-- SU_PLACE: the next item of the SCORE partition that the round picks among those with a C1 variant. -/
def execSuPlace (n : TileIx) (s : State) : Host.Outcome State Fault Refusal :=
  .next (match suFrom s with
    | none => s
    | some q =>
      if suTileFree s n && !sagWarn s then
        (match pickClass s (roundOf s 8) (fun c => decide (c ≤ 3) && (match nextItem s q c with
          | some i => (itemSu s i).isSome
          | none => false)) with
        | none => s
        | some c => match nextItem s q c with
          | none => s
          | some i =>
            let code := (itemSu s i).getD []
            bump 0x30024 1 (placeItem i n 1 0 (suEntry code) (loadSu code n (grantTo 8 c s))))
      else s)

/-- The window that a WINDOWS index names on a tile whose step runs. -/
def windowAt (s : State) (n : TileIx) (w : Nat) : Option WinRun :=
  s.windows.find? fun x => decide (x.tile = n.val) && (match chainOf s x.ref with
    | some c => (match loadedNum s c.image with
      | some l => decide (l.img.windows[w]? = some x.win)
      | none => false)
    | none => false)

/-- A window with new contents. -/
def setWindow (old new : WinRun) (s : State) : State := { s with windows := s.windows.map fun x => if x = old then new else x }

/-- The PHY bit of an array's shadow context clears. -/
def clearPhy (k : Nat) (m : BitVec 4) (x : Tile) : Tile :=
  if m.getLsbD k then setArr k (setShadow { shadowCtx (arrOf x k) with phy := false } (arrOf x k)) x else x

/-- The shadow contexts of a mask hold dead PHY contexts: operations of C1 held from them start, and the cycles they were held
count (05 R166; 06 R192). -/
def releaseShadows (n : TileIx) (m : BitVec 4) (held : Nat) (s0 : State) : State :=
  let s := countHeld n m held s0
  pumpMask n m (setTile n (clearPhy 3 m (clearPhy 2 m (clearPhy 1 m (clearPhy 0 m (tileOf s n))))) s)

/-- WINDOW_RELEASE: the shadow contexts of AMASK hold dead PHY contexts, and C1 may load its own. -/
def execWindowRelease (n : TileIx) (w : WinHeld) (s : State) : Host.Outcome State Fault Refusal :=
  .next (match windowAt s n w.ix with
    | none => s
    | some x =>
      if (suFrom s).isNone || (suItem s n).isNone || sagWarn s || x.released then s
      else
        setWindow x { x with released := true }
          (releaseShadows n x.win.amask w.held (runToTime (x.cue + x.win.release * unitsNs) s)))

/-- Arrays of a mask whose unit has no shadow load under way. -/
def idleArrays (x : Tile) : BitVec 4 :=
  BitVec.ofNat 4 (bnat (decide (x.a0.load = .idle)) + 2 * bnat (decide (x.a1.load = .idle)) + 4 * bnat (decide (x.a2.load = .idle)) +
    8 * bnat (decide (x.a3.load = .idle)))

/-- The window opens on the arrays of `m`: the director's CUT; an item that was parked goes on, and what its eviction cost is
a free value (log 1). -/
def openWindow (n : TileIx) (x : WinRun) (m : BitVec 4) (held : Nat) (s : State) : State :=
  let s1 := setWindow x { x with opened := m, held := m } (pumpMask n m (doCut n m (countHeld n m held s)))
  match suItem s1 n with
  | none => s1
  | some i =>
    if i.parkedAt.isSome then useFree (bump 0x3002C ((freshVal s1).toNat % 2 ^ 32) (setItem { i with parkedAt := none } s1))
    else s1

/-- WINDOW_OPEN: arrays whose shadow load by C1 is complete go to the item; the others are left to PHY. -/
def execWindowOpen (n : TileIx) (w : WinHeld) (s : State) : Host.Outcome State Fault Refusal :=
  .next (match windowAt s n w.ix with
    | none => s
    | some x =>
      if (suFrom s).isNone || (suItem s n).isNone || sagWarn s || !x.released || decide (x.opened ≠ 0) then s
      else
        let s1 := runToTime (x.cue + x.win.opens * unitsNs) s
        let m := x.win.amask &&& x.loaded &&& idleArrays (tileOf s1 n)
        if x.cue + x.win.close * unitsNs ≤ nowUnits s1 ∨ m = 0 then s1 else openWindow n x m w.held s1)

/-- PARK_LIMIT_EXPIRY: the item's arrays were not reopened in time: C1 stops, and the item is returned once C1's operations are
complete; `cycles` is what its eviction cost. -/
def execParkLimitExpiry (n : TileIx) (cycles : Nat) (s : State) : Host.Outcome State Fault Refusal :=
  .next (match itemOn s n 1 with
    | none => s
    | some i => match i.parkedAt with
      | none => s
      | some t => returnItem i.num 0 cycles (runToClk (t + rdf s 0x30010 15 8 * ticksUs) s))

/-! ### Dispatch in a SCORE partition (12 R348, R351) -/

/-- A role of the loaded image lies on a fenced tile: its items wait for the rebind (14 R403). -/
def roleFenced (s : State) (l : Loaded) : Bool := l.tiles.any (fenced s)

/-- The item can start on tile `n`: its model has a role there and none on a fenced tile. -/
def canStart (s : State) (n : TileIx) (i : Item) : Bool := match loadedNum s i.image with
  | some l => l.tiles.contains n.val && !roleFenced s l && decide (l.state ≠ .lost)
  | none => false

/-- Index of the role that an image has on a tile. -/
def roleOn (l : Loaded) (n : Nat) : Nat := l.tiles.idxOf n

/-- ITEM_DISPATCH: the item that the round of partition `p` picks starts on tile `n` (log 60). -/
def execItemDispatch (p : Fin 8) (n : TileIx) (s : State) : Host.Outcome State Fault Refusal :=
  .next (if decide (partKind s p = 2) && (members s p).contains n.val && decide ((threadOf s n 0).run = .stopped) &&
        (itemOn s n 0).isNone then
      (match pickClass s (roundOf s p) (fun c => decide (c ≤ 3) && (match nextItem s p c with
        | some i => canStart s n i
        | none => false)) with
      | none => s
      | some c => match nextItem s p c with
        | none => s
        | some i => match loadedNum s i.image with
          | none => s
          | some l => placeItem i n 0 (roleOn l n) 0 (loadCode l (roleOn l n) n (grantTo p c s)))
    else s)

/-! ### Takeover and rebinding (06 R196; 14 R403) -/

/-- Reels of an image get the tiles of its roles; their contents stay. -/
def retileReels (tiles : List Nat) : List (ReelEnt × Nat) → State → State
  | [], s => s
  | (e, r) :: es, s =>
    retileReels tiles es (setReel r { reelOf s r with prod := roleTiles tiles e.prod, cons := roleTiles tiles e.cons } s)

/-- A load whose roles lie on other tiles. -/
def retile (l : Loaded) (tiles : List Nat) (s : State) : State :=
  retileReels tiles (l.img.reeltab.zip l.reels)
    { s with loaded := s.loaded.map fun x => if x.num = l.num then { x with tiles } else x }

/-- Tile `n` takes the place of `old` in every loaded call sheet. -/
def retileSheets (old n : Nat) : List Loaded → State → State
  | [], s => s
  | l :: ls, s =>
    retileSheets old n ls
      (if l.img.kind = 1 ∧ l.tiles.contains old then retile l (l.tiles.map fun m => if m = old then n else m) s else s)

/-- Steps of chains that have not fired, and whose earliest cue lies 50 µs or more after the fence at `f`, move from `old` to
`n`. -/
def retileChains (old n f : Nat) (s : State) : State :=
  { s with chains := s.chains.map fun c =>
      if c.ended || c.fired || decide (firstCue c < f + 50 * unitsUs) then c else { c with steps := c.steps.map fun x => if x.tile = old then { x with tile := n } else x } }

/-- The loaded sheet whose role lies on a fenced tile: the active one before the others. -/
def fencedSheet (s : State) (role : Nat) : Option Loaded :=
  let bad := fun (l : Loaded) => decide (l.img.kind = 1) && (match l.tiles[role]? with
    | some m => fenced s m
    | none => false)
  match activeLoad s with
  | some l => if bad l then some l else s.loaded.find? bad
  | none => s.loaded.find? bad

/-- The standby tile `n` takes over a role of tile `old`, whose fence it remembers: code, reels and chains (06 R196). -/
def standIn (l : Loaded) (role old n : Nat) (s : State) : State :=
  let f := (tabFind s.fault.fencedAt old).getD 0
  raise directorEvent 2 (loadCode l role n (retileChains old n f (retileSheets old n s.loaded
    { s with fault := { s.fault with fencedAt := tabPut s.fault.fencedAt (64 + n) f } })))

/-- TAKEOVER: an item on the standby tile is returned first, and where its operations are not complete the takeover waits for
them; then the role's code is loaded there. -/
def execTakeover (n : TileIx) (role : Nat) (s : State) : Host.Outcome State Fault Refusal :=
  .next (match fencedSheet s role with
    | none => s
    | some l =>
      let old := l.tiles.getD role 0
      if (standbys s l.part).contains n.val && !(s.loaded.any fun x => decide (x.img.kind = 1) && x.tiles.contains n.val) then
        (let s1 := match itemOn s n 1 with
          | some i => requeueItem i.num 0 s
          | none => s
         if (itemOn s1 n 1).isSome then s1 else standIn l role old n s1)
      else s)

/-- The tile that a role is rebound to: the lowest in-service member without a role of the image and with local store free. -/
def rebindTile (s : State) (l : Loaded) : Option Nat :=
  (members s l.part).find? fun n => !l.tiles.contains n && decide (lsUsed s n + l.img.lsBytes ≤ lsSize)

/-- Items of a lost model end as work of a fenced tile (log 61). -/
def endItems (ref : Word) : List Item → State → State
  | [], s => s
  | i :: is, s => endItems ref is (endItemFault i.num 0x20 ref s)

/-- A job of a lost model ends: a running one with its partition, a queued one by its record. -/
def endLostJob (j : Job) (ref : Word) (s : State) : State :=
  let r := if j.faultRef = 0 then ref else j.faultRef
  raise faultEvent 7
    (if j.running then endJobBreak j 0x20 r s
    else finish j.ref 0x20 7 (tokenWord j.token) j.layer r [] (dropJob j.ref s))

def endLostJobs (ref : Word) : List Job → State → State
  | [], s => s
  | j :: js, s => endLostJobs ref js (endLostJob j ref s)

/-- No tile qualifies: the model is lost, and its jobs and items end. -/
def loseModel (l : Loaded) (s : State) : State :=
  let ref := lastUe s
  let s1 := raise faultEvent 5 (setLoads (fun x => decide (x.num = l.num) && decide (x.state = .active)) .lost s)
  let s2 := endLostJobs ref (s1.jobs.filter fun j => decide (j.image = l.num)) s1
  endItems ref (s2.items.filter fun i => decide (i.image = l.num)) s2

/-- ROLE_REBIND: the role's code and mask table are loaded again from the copy kept in HBM. -/
def execRoleRebind (model : BitVec 16) (role : Nat) (s : State) : Host.Outcome State Fault Refusal :=
  .next (match s.loaded.find? fun l => decide (l.img.kind = 2) && decide (l.id = model) && decide (l.state ≠ .lost) &&
      (match l.tiles[role]? with
        | some m => fenced s m
        | none => false) with
    | none => s
    | some l => match rebindTile s l with
      | none => loseModel l s
      | some n =>
        let tiles := l.tiles.set role n
        loadCode l role n (retile l tiles s))

end Sys2Proof.Machine
end

