-- ==== Sys2Proof/Machine/Match.lean ====
section
/-! DEFINITION. The Continuity engine's matching: descriptors, distances, the two nearest references, the tests, and the entries
that a MATCH job writes (11 R328–R333). -/

namespace Sys2Proof.Machine

/-! ### What units of both engines share (11 R325, R326) -/

/-- A range of bytes that a job uses lies in one region. -/
def placed (s : State) (a len : Nat) : Bool := (regionOf s a len).isSome

/-- Extent of `rows` rows of `row` bytes at a pitch. -/
def extent (rows pitch row : Nat) : Nat := (rows - 1) * pitch + row

/-- An output entry: written, and marked poisoned where its inputs were. -/
def putEntry (a : Nat) (bs : List Byte) (bad : Bool) (s : State) : State :=
  let t := devWrite a bs s
  if bad && !inAlias a && !inFenced s a then memMark a bs.length (memTouch a bs.length t) else t

def putEntries : List (Nat × List Byte × Bool) → State → State
  | [], s => s
  | x :: xs, s => putEntries xs (putEntry x.1 x.2.1 x.2.2 s)

/-- Ranges that a unit has read. -/
def touchAll : List (Nat × Nat) → State → State
  | [], s => s
  | x :: xs, s => touchAll xs (devTouch x.1 x.2 s)

/-! ### The job block (11 R328) -/

def mFmt (bs : List Byte) : Bool := (leAt bs 1 1).testBit 0
def mLr (bs : List Byte) : Bool := (leAt bs 1 1).testBit 1
def mMaxdEn (bs : List Byte) : Bool := (leAt bs 1 1).testBit 2
def mNq (bs : List Byte) : Nat := leAt bs 4 4
def mNr (bs : List Byte) : Nat := leAt bs 8 4
def mRatio (bs : List Byte) : Nat := leAt bs 12 2
def mMaxd (bs : List Byte) : Nat := leAt bs 16 4
def mQaddr (bs : List Byte) : Nat := leAt bs 24 6
def mRaddr (bs : List Byte) : Nat := leAt bs 30 6
def mMaddr (bs : List Byte) : Nat := leAt bs 36 6
def mCaddr (bs : List Byte) : Nat := leAt bs 42 6
/-- Bytes of a descriptor. -/
def mSize (bs : List Byte) : Nat := if mFmt bs then 256 else 32

/-- The checks of a MATCH block: 0 where it passes. A RATIO above 256 counts as a value that is not listed (log 74). -/
def matchCheck (s : State) (bs : List Byte) : Nat :=
  if leAt bs 0 1 ≠ 1 ∨ leAt bs 1 1 / 8 ≠ 0 ∨ leAt bs 2 2 ≠ 0 ∨ leAt bs 14 2 ≠ 0 ∨ leAt bs 20 4 ≠ 0 ∨ leAt bs 49 3 ≠ 0 ∨
      leAt bs 56 8 ≠ 0 ∨ 256 < mRatio bs ∨
      (if mFmt bs then decide (fDecode fp32 (mMaxd bs) = .nan) else decide (256 < mMaxd bs)) = true then 0x10
  else if placed s (mQaddr bs) (mSize bs * mNq bs) = false ∨ placed s (mRaddr bs) (mSize bs * mNr bs) = false ∨
      placed s (mMaddr bs) (16 * mNq bs) = false ∨ placed s (mCaddr bs) (2 * mNq bs) = false then 0x11
  else if mNq bs = 0 ∨ 65536 < mNq bs ∨ mNr bs = 0 ∨ 65536 < mNr bs then 0x14
  else 0

/-! ### Distances (11 R329) -/

/-- Set bits of a byte. -/
def ones8 (b : Byte) : Nat := ((List.range 8).filter fun k => b.getLsbD k).length

/-- Hamming distance of two BIN256 descriptors. -/
def hamming : List Byte → List Byte → Nat
  | a :: as, b :: bs => ones8 (a ^^^ b) + hamming as bs
  | _, _ => 0

/-- The BF16 values of an F128 descriptor. -/
def bf16s : List Byte → List FVal
  | a :: b :: bs => fDecode bf16 (a.toNat + 256 * b.toNat) :: bf16s bs
  | _ => []

def fFinite : FVal → Bool
  | .fin _ _ _ => true
  | _ => false

/-- The value with its sign turned. -/
def fNegate : FVal → FVal
  | .nan => .nan
  | .inf n => .inf (!n)
  | .fin n m e => .fin (!n) m e

/-- The exact sum of squares of differences, in the 640-bit form of R121. -/
def squareSum : List FVal → List FVal → Exact → Exact
  | a :: as, b :: bs, x =>
    let d := fAdd a (fNegate b)
    squareSum as bs (exAdd x (fMul d d))
  | _, _, x => x

/-- The distance of two descriptors: none is +∞. F128 distances are in units of 2^-272. -/
def distance (f128 : Bool) (a b : List Byte) : Option Nat :=
  if f128 then
    (if (bf16s a).all fFinite && (bf16s b).all fFinite then some (squareSum (bf16s a) (bf16s b) {}).value.toNat else none)
  else some (hamming a b)

/-! ### The search and its tests (11 R330–R332) -/

/-- The nearest and the second nearest so far, each with its index and distance. -/
abbrev Top2 := Option (Nat × Nat) × Option (Nat × Nat)

/-- One more reference; ties go to the lower index. -/
def top2Step (i : Nat) (d : Option Nat) (x : Top2) : Top2 := match d with
  | none => x
  | some v => match x.1 with
    | none => (some (i, v), none)
    | some b =>
      if v < b.2 then (some (i, v), some b)
      else match x.2 with
        | none => (some b, some (i, v))
        | some c => if v < c.2 then (some b, some (i, v)) else (some b, some c)

/-- BEST and SECOND among descriptors from index `i` on. -/
def top2From (f128 : Bool) (q : List Byte) : Nat → List (List Byte) → Top2 → Top2
  | _, [], x => x
  | i, r :: rs, x => top2From f128 q (i + 1) rs (top2Step i (distance f128 q r) x)

/-- BEST and SECOND of a descriptor. -/
def top2 (f128 : Bool) (q : List Byte) (rs : List (List Byte)) : Top2 := top2From f128 q 0 rs (none, none)

/-- RATIO_OK of a query that has a BEST. -/
def ratioOk (ratio d1 : Nat) (second : Option (Nat × Nat)) : Bool := match second with
  | none => true
  | some c => if c.2 = 0 then decide (ratio = 256) else decide (256 * d1 ≤ ratio * c.2)

/-- The test against MAXD. -/
def maxdOk (bs : List Byte) (d1 : Nat) : Bool :=
  !mMaxdEn bs ||
    (if mFmt bs then decide (fCompare (.fin false d1 (-272)) (fDecode fp32 (mMaxd bs)) ≠ some .gt) else decide (d1 ≤ mMaxd bs))

/-- A distance as D1 and D2 give it. -/
def distWord (f128 : Bool) : Option (Nat × Nat) → Nat
  | none => if f128 then 0x7F800000 else 0xFFFFFFFF
  | some c => if f128 then fEncode fp32 false (.fin false c.2 (-272)) else c.2

/-- An index as BEST and SECOND give it. -/
def indexWord : Option (Nat × Nat) → Nat
  | none => 0xFFFFFFFF
  | some c => c.1

/-- The match entry of a query (11 R333). -/
def matchEntry (f128 : Bool) (x : Top2) : List Byte :=
  leBytes 4 (indexWord x.1) ++ leBytes 4 (indexWord x.2) ++ leBytes 4 (distWord f128 x.1) ++ leBytes 4 (distWord f128 x.2)

/-- CONF. -/
def matchConf (x : Top2) : Nat := match x.1 with
  | none => 0
  | some b => match x.2 with
    | none => 255
    | some c => if c.2 = 0 then 0 else 255 * (c.2 - b.2) / c.2

/-- Left-right check of query `q`. -/
def leftRight (f128 : Bool) (qs rs : List (List Byte)) (q : Nat) (x : Top2) : Bool := match x.1 with
  | none => false
  | some b => match (top2 f128 ((rs[b.1]?).getD []) qs).1 with
    | some y => decide (y.1 = q)
    | none => false

/-- RATIO_OK, LR_OK and VALID of query `q`. -/
def queryFlags (bs : List Byte) (qs rs : List (List Byte)) (q : Nat) (x : Top2) : Bool × Bool × Bool := match x.1 with
  | none => (false, false, false)
  | some b =>
    let r := ratioOk (mRatio bs) b.2 x.2
    let l := leftRight (mFmt bs) qs rs q x
    (r, l, r && maxdOk bs b.2 && (l || !mLr bs))

/-- The cost-map entry of query `q` (11 R333). -/
def costEntry (bs : List Byte) (qs rs : List (List Byte)) (q : Nat) (x : Top2) : Nat :=
  let f := queryFlags bs qs rs q x
  matchConf x + 256 * bnat f.1 + 512 * bnat f.2.1 + 1024 * bnat f.2.2 + 2048 * bnat x.2.isNone

/-! ### The units of a job (11 R325, R328) -/

/-- Units: 64 queries against up to 1,024 references each. -/
def matchUnits (bs : List Byte) : Nat := ceilDiv (mNq bs) 64 * ceilDiv (mNr bs) 1024

/-- The descriptors of a list. -/
def descriptors (s : State) (a size n : Nat) : List (List Byte) := (List.range n).map fun i => devRead s (a + size * i) size

/-- Match entries of queries `q`, …: each is poisoned where its query or any reference was. -/
def matchEntries (s : State) (j : EngJob) (rs : List (List Byte)) (refBad : Bool) (qs : List Nat) : List (Nat × List Byte × Bool) :=
  let bs := j.block
  qs.map fun q =>
    (mMaddr bs + 16 * q, matchEntry (mFmt bs) (top2 (mFmt bs) (devRead s (mQaddr bs + mSize bs * q) (mSize bs)) rs),
      j.tainted || refBad || devPoisoned s (mQaddr bs + mSize bs * q) (mSize bs))

/-- Cost-map entries, each poisoned where any input was. -/
def costEntries (bs : List Byte) (bad : Bool) (all rs : List (List Byte)) : Nat → List (List Byte) → List (Nat × List Byte × Bool)
  | _, [] => []
  | q, x :: xs =>
    (mCaddr bs + 2 * q, leBytes 2 (costEntry bs all rs q (top2 (mFmt bs) x rs)), bad) :: costEntries bs bad all rs (q + 1) xs

/-- Queries with VALID = 1. -/
def acceptedFrom (bs : List Byte) (all rs : List (List Byte)) : Nat → List (List Byte) → Nat
  | _, [] => 0
  | q, x :: xs => bnat (queryFlags bs all rs q (top2 (mFmt bs) x rs)).2.2 + acceptedFrom bs all rs (q + 1) xs

/-- The last unit of a MATCH job: the cost map, which the left-right check makes depend on every query. -/
def matchLast (j : EngJob) (rs : List (List Byte)) (bad : Bool) (s0 s : State) : EngJob × State :=
  let bs := j.block
  let qs := descriptors s0 (mQaddr bs) (mSize bs) (mNq bs)
  ({ j with count := acceptedFrom bs qs rs 0 qs }, putEntries (costEntries bs bad qs rs 0 qs) s)

/-- Unit number `j.done` of a MATCH job. The match entries of 64 queries are written with the last unit that compares them, the
cost map with the job's last (log 75). -/
def matchUnit (j : EngJob) (s : State) : EngJob × State :=
  let bs := j.block
  let nc := ceilDiv (mNr bs) 1024
  let qb := j.done / nc
  let nq := min 64 (mNq bs - 64 * qb)
  let refBad := devPoisoned s (mRaddr bs) (mSize bs * mNr bs)
  let bad := j.tainted || refBad || devPoisoned s (mQaddr bs) (mSize bs * mNq bs)
  let s1 := touchAll [(mQaddr bs + mSize bs * (64 * qb), mSize bs * nq),
    (mRaddr bs + mSize bs * (1024 * (j.done % nc)), mSize bs * min 1024 (mNr bs - 1024 * (j.done % nc)))] s
  if j.done % nc + 1 = nc then
    let rs := descriptors s (mRaddr bs) (mSize bs) (mNr bs)
    let s2 := putEntries (matchEntries s j rs refBad ((List.range nq).map (64 * qb + ·))) s1
    let k : EngJob := { j with poisoned := j.poisoned || bad }
    if j.done + 1 = j.total then matchLast k rs bad s s2 else (k, s2)
  else ({ j with poisoned := j.poisoned || bad }, s1)

end Sys2Proof.Machine
end

