-- ==== Sys2Proof/Machine/Compose.lean ====
section
/-! DEFINITION. The Matte unit: layers, the colour key, composition, occlusion, output, and contact sheets (11 R338–R344). -/

namespace Sys2Proof.Machine

/-! ### The job block (11 R338, R339, R344) -/

def cMem (bs : List Byte) : Bool := (leAt bs 1 1).testBit 0
def cStr (bs : List Byte) : Bool := (leAt bs 1 1).testBit 1
/-- OFMT: Y8. -/
def cY8 (bs : List Byte) : Bool := (leAt bs 1 1).testBit 2
def cSfmt (bs : List Byte) : Nat := leAt bs 1 1 / 8 % 4
def cNl (bs : List Byte) : Nat := leAt bs 2 1
/-- Canvas size; cell size in a CONTACT job. -/
def cW (bs : List Byte) : Nat := leAt bs 4 2
def cH (bs : List Byte) : Nat := leAt bs 6 2
def cNi (bs : List Byte) : Nat := leAt bs 8 2
def cCols (bs : List Byte) : Nat := leAt bs 10 2
def cOpitch (bs : List Byte) : Nat := leAt bs 12 4
def cOaddr (bs : List Byte) : Nat := leAt bs 16 6
def cSaddr (bs : List Byte) : Nat := leAt bs 22 6
def cSplane (bs : List Byte) : Nat := leAt bs 28 4
def cLaddr (bs : List Byte) : Nat := leAt bs 44 6
def cRaddr (bs : List Byte) : Nat := leAt bs 50 6

/-- A layer entry, or an image of a contact sheet's list. -/
structure Layer where
  src : Nat
  /-- LFMT: Y8 -/
  y8 : Bool
  solid : Bool
  key : Bool
  w : Nat
  h : Nat
  x : Int
  y : Int
  pitch : Nat
  alpha : Nat
  kcb : Nat
  kcr : Nat
  tIn : Nat
  tOut : Nat
  deriving DecidableEq, Repr

/-- Layer `i` of a COMPOSE block. -/
def layerOf (bs : List Byte) (i : Nat) : Layer :=
  let e := (bs.drop (64 + 32 * i)).take 32
  let f := leAt e 6 1
  { src := leAt e 0 6, y8 := f.testBit 0, solid := f.testBit 1, key := f.testBit 2, w := leAt e 8 2, h := leAt e 10 2,
    x := signedOf 16 (leAt e 12 2), y := signedOf 16 (leAt e 14 2), pitch := leAt e 16 4, alpha := leAt e 20 1,
    kcb := leAt e 21 1, kcr := leAt e 22 1, tIn := leAt e 23 1, tOut := leAt e 24 1 }

/-- The layers, the back first. -/
def layersOf (bs : List Byte) : List Layer := (List.range (cNl bs)).map (layerOf bs)

/-- A layer entry that breaks R339. -/
def layerBad (bs : List Byte) (i : Nat) : Bool :=
  let e := (bs.drop (64 + 32 * i)).take 32
  let l := layerOf bs i
  decide (leAt e 6 1 / 8 ≠ 0) || decide (leAt e 7 1 ≠ 0) || decide (leAt e 25 7 ≠ 0) ||
    (l.solid && (l.key || decide (l.alpha < 255))) || (l.key && decide (l.tOut ≤ l.tIn))

/-- Bytes of a layer's pixel. -/
def layerPx (l : Layer) : Nat := if l.y8 then 1 else 4
def layerPlaced (s : State) (l : Layer) : Bool := placed s l.src (extent l.h l.pitch (l.w * layerPx l))

/-- Planes and bytes of an element of the stream format. -/
def planesOf (bs : List Byte) : Nat := if cSfmt bs < 2 then 3 else 1
def elemOf (bs : List Byte) : Nat := if cSfmt bs % 2 = 0 then 1 else 2

/-- The outputs of a canvas of `w` by `h` lie where R338 and R343 let them. -/
def outputsPlaced (s : State) (bs : List Byte) (w h : Nat) : Bool :=
  (!cMem bs || placed s (cOaddr bs) (extent h (cOpitch bs) (w * (if cY8 bs then 1 else 4)))) &&
    (!cStr bs || (match regionOf s (cSaddr bs) ((planesOf bs - 1) * cSplane bs + w * h * elemOf bs) with
      | some (.ls _) => true
      | _ => false))

/-- The checks of a COMPOSE block: 0 where it passes. -/
def composeCheck (s : State) (bs : List Byte) : Nat :=
  if leAt bs 0 1 ≠ 1 ∨ leAt bs 1 1 / 32 ≠ 0 ∨ leAt bs 3 1 ≠ 0 ∨ leAt bs 33 3 ≠ 0 ∨ leAt bs 44 20 ≠ 0 ∨ (cMem bs || cStr bs) = false ∨
      ((List.range (min 16 (cNl bs))).any (layerBad bs)) = true then 0x10
  else if outputsPlaced s bs (cW bs) (cH bs) = false ∨ ((layersOf bs).all (layerPlaced s)) = false then 0x11
  else if cNl bs = 0 ∨ 16 < cNl bs ∨ cW bs = 0 ∨ 16384 < cW bs ∨ cH bs = 0 ∨ 16384 < cH bs ∨
      ((layersOf bs).any fun l => decide (l.w = 0 ∨ 16384 < l.w ∨ l.h = 0 ∨ 16384 < l.h)) = true then 0x14
  else 0

/-! ### Pixels (11 R340, R341) -/

/-- R, G, B and A, and whether a poisoned byte took part. -/
structure Px where
  r : Nat
  g : Nat
  b : Nat
  a : Nat
  bad : Bool
  deriving DecidableEq, Repr

/-- ⌊(x + 127)/255⌋. -/
def div255 (x : Nat) : Nat := (x + 127) / 255

/-- Cb and Cr of a colour. -/
def chromaB (p : Px) : Int := 128 + (-43 * (p.r : Int) - 85 * p.g + 128 * p.b + 128) / 256
def chromaR (p : Px) : Int := 128 + (128 * (p.r : Int) - 107 * p.g - 21 * p.b + 128) / 256

/-- The key factor of a pixel. -/
def keyFactor (l : Layer) (p : Px) : Nat :=
  if l.key then
    let d := (chromaB p - l.kcb).natAbs + (chromaR p - l.kcr).natAbs
    if d ≤ l.tIn then 0 else if l.tOut ≤ d then 255 else (d - l.tIn) * 255 / (l.tOut - l.tIn)
  else 255

/-- A layer's pixel over the canvas. -/
def overPx (l : Layer) (p d : Px) : Px :=
  let a := div255 (div255 (p.a * l.alpha) * keyFactor l p)
  { r := div255 (a * p.r + (255 - a) * d.r), g := div255 (a * p.g + (255 - a) * d.g),
    b := div255 (a * p.b + (255 - a) * d.b), a := a + div255 ((255 - a) * d.a), bad := p.bad || d.bad }

/-- A pixel of an image in memory; those of an OPAQUE layer have alpha 255. -/
def layerPixel (s : State) (l : Layer) (x y : Nat) : Px :=
  let a := l.src + y * l.pitch + x * layerPx l
  let bad := devPoisoned s a (layerPx l)
  let v := devRead s a (layerPx l)
  if l.y8 then
    let w := leAt v 0 1
    ⟨w, w, w, 255, bad⟩
  else ⟨leAt v 0 1, leAt v 1 1, leAt v 2 1, if l.solid then 255 else leAt v 3 1, bad⟩

/-- The layer covers a canvas pixel. -/
def hasPixel (l : Layer) (x y : Nat) : Bool :=
  decide (l.x ≤ (x : Int)) && decide ((x : Int) < l.x + l.w) && decide (l.y ≤ (y : Int)) && decide ((y : Int) < l.y + l.h)

/-- Layers applied from back to front. -/
def composePx (s : State) (x y : Nat) : List Layer → Px → Px
  | [], d => d
  | l :: ls, d =>
    composePx s x y ls (if hasPixel l x y then overPx l (layerPixel s l ((x : Int) - l.x).toNat ((y : Int) - l.y).toNat) d else d)

/-! ### Output (11 R340, R343) -/

/-- Y of a colour. -/
def lumaOf (p : Px) : Nat := (77 * p.r + 150 * p.g + 29 * p.b + 128) / 256

/-- A value as an element of a stream plane. -/
def planeElem (bs : List Byte) (c : Nat) : List Byte :=
  if cSfmt bs % 2 = 0 then [BitVec.ofNat 8 (c + 128)] else leBytes 2 (fEncode bf16 false (.fin false c 0))

/-- The values of the planes. -/
def planeVals (bs : List Byte) (p : Px) : List Nat := if cSfmt bs < 2 then [p.r, p.g, p.b] else [lumaOf p]

/-- What a pixel of a canvas `w` wide writes. -/
def pixelOut (bs : List Byte) (w x y : Nat) (p : Px) : List (Nat × List Byte × Bool) :=
  (if cMem bs then
      (if cY8 bs then [(cOaddr bs + y * cOpitch bs + x, leBytes 1 (lumaOf p), p.bad)]
      else [(cOaddr bs + y * cOpitch bs + 4 * x, leBytes 1 p.r ++ leBytes 1 p.g ++ leBytes 1 p.b ++ leBytes 1 p.a, p.bad)])
    else []) ++
  (if cStr bs then
      (planeVals bs p).zipIdx.map fun v =>
        (cSaddr bs + v.2 * cSplane bs + (y * w + x) * elemOf bs, planeElem bs v.1, p.bad)
    else [])

/-! ### Tiles and occlusion (11 R342) -/

/-- Tiles of the canvas in a row, and in all. -/
def tilesAcross (bs : List Byte) : Nat := ceilDiv (cW bs) 64
def composeUnits (bs : List Byte) : Nat := tilesAcross bs * ceilDiv (cH bs) 64

/-- The part of tile `u` within the canvas: from (x0, y0) up to but not (x1, y1). -/
def tileBox (bs : List Byte) (u : Nat) : Nat × Nat × Nat × Nat :=
  let x := 64 * (u % tilesAcross bs)
  let y := 64 * (u / tilesAcross bs)
  (x, y, min (cW bs) (x + 64), min (cH bs) (y + 64))

def layerCovers (b : Nat × Nat × Nat × Nat) (l : Layer) : Bool :=
  decide (l.x ≤ (b.1 : Int)) && decide ((b.2.2.1 : Int) ≤ l.x + l.w) && decide (l.y ≤ (b.2.1 : Int)) &&
    decide ((b.2.2.2 : Int) ≤ l.y + l.h)

def layerMeets (b : Nat × Nat × Nat × Nat) (l : Layer) : Bool :=
  decide (l.x < (b.2.2.1 : Int)) && decide ((b.1 : Int) < l.x + l.w) && decide (l.y < (b.2.2.2 : Int)) &&
    decide ((b.2.1 : Int) < l.y + l.h)

/-- The layers fetched for a tile, from the topmost OPAQUE one that covers it on, and those skipped beneath it; of both those that
intersect the tile. -/
def fetchSplit (b : Nat × Nat × Nat × Nat) : List Layer → List Layer × List Layer
  | [] => ([], [])
  | l :: ls =>
    let r := fetchSplit b ls
    if ls.any fun k => k.solid && layerCovers b k then (r.1, if layerMeets b l then l :: r.2 else r.2)
    else (if layerMeets b l then l :: r.1 else r.1, r.2)

/-- Rows of a layer that a tile reads. -/
def layerRows (b : Nat × Nat × Nat × Nat) (l : Layer) : List (Nat × Nat) :=
  let x0 := (max (b.1 : Int) l.x - l.x).toNat
  let x1 := (min (b.2.2.1 : Int) (l.x + l.w) - l.x).toNat
  let y0 := (max (b.2.1 : Int) l.y - l.y).toNat
  let y1 := (min (b.2.2.2 : Int) (l.y + l.h) - l.y).toNat
  (List.range (y1 - y0)).map fun i => (l.src + (y0 + i) * l.pitch + x0 * layerPx l, (x1 - x0) * layerPx l)

/-- Canvas pixels of a box, row by row. -/
def boxPixels (b : Nat × Nat × Nat × Nat) : List (Nat × Nat) :=
  (List.range (b.2.2.2 - b.2.1)).flatMap fun j => (List.range (b.2.2.1 - b.1)).map fun i => (b.1 + i, b.2.1 + j)

/-- BG. -/
def background (bs : List Byte) : Px := ⟨leAt bs 8 1, leAt bs 9 1, leAt bs 10 1, leAt bs 11 1, false⟩

/-- The pixels of a tile, composed. -/
def tilePixels (s : State) (j : EngJob) (b : Nat × Nat × Nat × Nat) (ls : List Layer) : List (Nat × Nat × Px) :=
  (boxPixels b).map fun q => (q.1, q.2, composePx s q.1 q.2 ls { background j.block with bad := j.tainted })

/-- Unit number `j.done` of a COMPOSE job: one canvas tile. -/
def composeUnit (j : EngJob) (s : State) : EngJob × State :=
  let bs := j.block
  let b := tileBox bs j.done
  let f := fetchSplit b (layersOf bs)
  let px := tilePixels s j b f.1
  let t := putEntries (px.flatMap fun q => pixelOut bs (cW bs) q.1 q.2.1 q.2.2) (touchAll (f.1.flatMap (layerRows b)) s)
  ({ j with count := j.count + f.1.length, skipped := j.skipped + f.2.length, poisoned := j.poisoned || px.any fun q => q.2.2.bad },
    bump 0x80024 f.2.length (bump 0x80020 f.1.length t))

/-! ### Contact sheets (11 R344) -/

/-- Cells of the sheet: whole rows of them. -/
def contactUnits (bs : List Byte) : Nat := ceilDiv (cNi bs) (cCols bs) * cCols bs
/-- The sheet's size in pixels. -/
def sheetW (bs : List Byte) : Nat := cCols bs * cW bs
def sheetH (bs : List Byte) : Nat := ceilDiv (cNi bs) (cCols bs) * cH bs

/-- An entry of the image list. -/
def listEntry (s : State) (bs : List Byte) (i : Nat) : List Byte := devRead s (cLaddr bs + 16 * i) 16
def imageOf (e : List Byte) : Layer :=
  { src := leAt e 0 6, y8 := (leAt e 14 1).testBit 0, solid := false, key := false, w := leAt e 6 2, h := leAt e 8 2, x := 0, y := 0,
    pitch := leAt e 10 4, alpha := 255, kcb := 0, kcr := 0, tIn := 0, tOut := 0 }
def listBad (e : List Byte) : Bool := decide (leAt e 14 1 / 2 ≠ 0) || decide (leAt e 15 1 ≠ 0)

/-- The checks of a CONTACT block: 0 where it passes. The entries of its image list are judged with it (log 78). -/
def contactCheck (s : State) (bs : List Byte) : Nat :=
  let n := min 4096 (cNi bs)
  let es := if placed s (cLaddr bs) (16 * n) then (List.range n).map (listEntry s bs) else []
  if leAt bs 0 1 ≠ 2 ∨ leAt bs 1 1 / 32 ≠ 0 ∨ leAt bs 2 2 ≠ 0 ∨ leAt bs 33 3 ≠ 0 ∨ leAt bs 60 4 ≠ 0 ∨ (cMem bs || cStr bs) = false ∨
      es.any listBad = true then 0x10
  else if placed s (cLaddr bs) (16 * cNi bs) = false ∨ placed s (cRaddr bs) (8 * contactUnits bs) = false ∨
      outputsPlaced s bs (sheetW bs) (sheetH bs) = false ∨ (es.all fun e => layerPlaced s (imageOf e)) = false then 0x11
  else if cW bs < 8 ∨ 256 < cW bs ∨ cW bs % 8 ≠ 0 ∨ cH bs < 8 ∨ 256 < cH bs ∨ cH bs % 8 ≠ 0 ∨ cNi bs = 0 ∨ 4096 < cNi bs ∨
      cCols bs = 0 ∨ 256 < cCols bs then 0x14
  else 0

/-- PAD. -/
def padPx (bs : List Byte) (bad : Bool) : Px := ⟨leAt bs 56 1, leAt bs 57 1, leAt bs 58 1, leAt bs 59 1, bad⟩

/-- The pixels of a cell: the image where it has one, else PAD. -/
def cellPixels (s : State) (bs : List Byte) (bad : Bool) (l : Layer) (x0 y0 : Nat) : List (Nat × Nat × Px) :=
  (boxPixels (0, 0, cW bs, cH bs)).map fun q =>
    let p : Px := if q.1 < l.w ∧ q.2 < l.h then layerPixel s l q.1 q.2 else padPx bs false
    (x0 + q.1, y0 + q.2, { p with bad := p.bad || bad })

/-- Unit number `j.done` of a CONTACT job: one cell, with its entry of the region table. -/
def contactUnit (j : EngJob) (s : State) : EngJob × State :=
  let bs := j.block
  let u := j.done
  let x0 := u % cCols bs * cW bs
  let y0 := u / cCols bs * cH bs
  let here := decide (u < cNi bs)
  let e := if here then listEntry s bs u else []
  let l := imageOf e
  let w := min l.w (cW bs)
  let h := min l.h (cH bs)
  let listed := here && devPoisoned s (cLaddr bs + 16 * u) 16
  let px := cellPixels s bs (j.tainted || listed) l x0 y0
  let reads := if here then (cLaddr bs + 16 * u, 16) :: (List.range h).map fun i => (l.src + i * l.pitch, w * layerPx l) else []
  let entry := leBytes 2 x0 ++ leBytes 2 y0 ++ leBytes 2 w ++ leBytes 2 h
  let t := putEntries (px.flatMap fun q => pixelOut bs (sheetW bs) q.1 q.2.1 q.2.2) (touchAll reads s)
  ({ j with poisoned := j.poisoned || px.any fun q => q.2.2.bad }, putEntry (cRaddr bs + 8 * u) entry (j.tainted || listed) t)

end Sys2Proof.Machine
end

