-- ==== Sys2Proof/Machine/Track.lean ====
section
/-! DEFINITION. The Continuity engine's tracker: image pyramids, sampling, the iteration of a level, and the points that a TRACK
job writes (11 R334–R337). -/

namespace Sys2Proof.Machine

/-! ### The job block (11 R334) -/

def tFmt (bs : List Byte) : Bool := (leAt bs 1 1).testBit 0
def tGuess (bs : List Byte) : Bool := (leAt bs 1 1).testBit 1
def tLevels (bs : List Byte) : Nat := leAt bs 2 1
def tWin (bs : List Byte) : Nat := leAt bs 3 1
def tIters (bs : List Byte) : Nat := leAt bs 4 1
def tEps (bs : List Byte) : Nat := leAt bs 5 1
def tMinEig (bs : List Byte) : Nat := leAt bs 6 2
def tW (bs : List Byte) : Nat := leAt bs 8 2
def tH (bs : List Byte) : Nat := leAt bs 10 2
def tPitch (bs : List Byte) : Nat := leAt bs 12 4
def tImg0 (bs : List Byte) : Nat := leAt bs 16 6
def tImg1 (bs : List Byte) : Nat := leAt bs 22 6
def tPin (bs : List Byte) : Nat := leAt bs 28 6
def tPout (bs : List Byte) : Nat := leAt bs 34 6
def tNpts (bs : List Byte) : Nat := leAt bs 40 4
def tScratch (bs : List Byte) : Nat := leAt bs 44 6
/-- Bytes of a pixel. -/
def tPx (bs : List Byte) : Nat := if tFmt bs then 2 else 1

/-- The checks of a TRACK block: 0 where it passes. -/
def trackCheck (s : State) (bs : List Byte) : Nat :=
  let img := extent (tH bs) (tPitch bs) (tW bs * tPx bs)
  if leAt bs 0 1 ≠ 2 ∨ leAt bs 1 1 / 4 ≠ 0 ∨ leAt bs 56 8 ≠ 0 then 0x10
  else if placed s (tImg0 bs) img = false ∨ placed s (tImg1 bs) img = false ∨ placed s (tPin bs) (16 * tNpts bs) = false ∨
      placed s (tPout bs) (16 * tNpts bs) = false ∨ placed s (tScratch bs) (2 * tPitch bs * tH bs) = false then 0x11
  else if tLevels bs = 0 ∨ 5 < tLevels bs ∨ tWin bs < 5 ∨ 31 < tWin bs ∨ tWin bs % 2 = 0 ∨ tIters bs = 0 ∨ 32 < tIters bs ∨
      tW bs < 16 ∨ 8192 < tW bs ∨ tH bs < 16 ∨ 8192 < tH bs ∨ tPitch bs < tW bs * tPx bs ∨ tNpts bs = 0 ∨ 4096 < tNpts bs then
    0x14
  else 0

/-! ### Pyramids (11 R335) -/

/-- A pixel with its poison mark. -/
abbrev Pixel := Int × Bool
/-- Rows of pixels. -/
abbrev Pixels := List (List Pixel)

/-- A pixel of an image in memory. -/
def rawPixel (s : State) (bs : List Byte) (base x y : Nat) : Pixel :=
  let a := base + y * tPitch bs + x * tPx bs
  let v := leNat (devRead s a (tPx bs))
  (if tFmt bs then signedOf 16 v else v, devPoisoned s a (tPx bs))

/-- Level 0. -/
def level0 (s : State) (bs : List Byte) (base : Nat) : Pixels :=
  (List.range (tH bs)).map fun y => (List.range (tW bs)).map fun x => rawPixel s bs base x y

/-- The index nearest to `v` below `n`: positions outside replicate the border. -/
def clampIx (n : Nat) (v : Int) : Nat := (clampInt 0 ((n : Int) - 1) v).toNat

/-- A pixel, the border replicated. -/
def pixelAt (im : Pixels) (x y : Int) : Pixel :=
  let row := (im[clampIx im.length y]?).getD []
  (row[clampIx row.length x]?).getD (0, false)

/-- The kernel [1 4 6 4 1]. -/
def kernel5 : List (Int × Int) := [(-2, 1), (-1, 4), (0, 6), (1, 4), (2, 1)]

/-- Weighted pixels added up. -/
def sumPixels (im : Pixels) : List (Int × Int × Int) → Pixel → Pixel
  | [], r => r
  | (x, y, w) :: ts, r =>
    let p := pixelAt im x y
    sumPixels im ts (r.1 + w * p.1, r.2 || p.2)

/-- A pixel of the next level. -/
def shrinkPixel (im : Pixels) (x y : Nat) : Pixel :=
  let cx : Int := (2 * x : Nat)
  let cy : Int := (2 * y : Nat)
  let taps : List (Int × Int × Int) := kernel5.flatMap fun v => kernel5.map fun h => (cx + h.1, cy + v.1, v.2 * h.2)
  let r := sumPixels im taps (0, false)
  ((r.1 + 128) / 256, r.2)

/-- The next level. -/
def shrink (im : Pixels) : Pixels :=
  let w := ceilDiv (((im[0]?).getD []).length) 2
  (List.range (ceilDiv im.length 2)).map fun y => (List.range w).map fun x => shrinkPixel im x y

/-- `n` levels, the image first. -/
def pyramid : Nat → Pixels → List Pixels
  | 0, _ => []
  | n + 1, im => im :: pyramid n (shrink im)

/-- LEVELS_USED: levels of `w` by `h` and its halvings that hold the window, at most `n`. -/
def levelsFit (win : Nat) : Nat → Nat → Nat → Nat
  | 0, _, _ => 0
  | n + 1, w, h => if win ≤ w ∧ win ≤ h then levelsFit win n (ceilDiv w 2) (ceilDiv h 2) + 1 else 0

def levelsUsed (bs : List Byte) : Nat := levelsFit (tWin bs) (tLevels bs) (tW bs) (tH bs)

/-! ### Sampling and sums (11 R336) -/

/-- A sample at a position in 1/256 pixel. -/
def sample (im : Pixels) (x y : Int) : Pixel :=
  let ix := x / 256
  let iy := y / 256
  let fx := x % 256
  let fy := y % 256
  let r := sumPixels im
    [(ix, iy, (256 - fx) * (256 - fy)), (ix + 1, iy, fx * (256 - fy)), (ix, iy + 1, (256 - fx) * fy), (ix + 1, iy + 1, fx * fy)]
    (0, false)
  ((r.1 + 32768) / 65536, r.2)

/-- Offsets of the window's pixels in 1/256 pixel. -/
def windowOffs (win : Nat) : List (Int × Int) :=
  let r : Int := (win / 2 : Nat)
  (List.range win).flatMap fun i => (List.range win).map fun j => (((j : Int) - r) * 256, ((i : Int) - r) * 256)

/-- The two gradients at a position. -/
def gradient (im : Pixels) (x y : Int) : Int × Int × Bool :=
  let a := sample im (x + 256) y
  let b := sample im (x - 256) y
  let c := sample im x (y + 256)
  let d := sample im x (y - 256)
  (a.1 - b.1, c.1 - d.1, a.2 || b.2 || c.2 || d.2)

/-- The matrix G = (a, b, c), or with mismatches the vector b in its first two places; and whether a poisoned pixel took part. -/
structure Sums where
  a : Int
  b : Int
  c : Int
  bad : Bool
  deriving DecidableEq, Repr

/-- The spatial matrix G. -/
def sumG (im : Pixels) (x y : Int) : List (Int × Int) → Sums → Sums
  | [], r => r
  | (u, v) :: ws, r =>
    let g := gradient im (x + u) (y + v)
    sumG im x y ws ⟨r.a + g.1 * g.1, r.b + g.1 * g.2.1, r.c + g.2.1 * g.2.1, r.bad || g.2.2⟩

/-- The mismatch vector b at a displacement. -/
def sumB (im0 im1 : Pixels) (x y dx dy : Int) : List (Int × Int) → Sums → Sums
  | [], r => r
  | (u, v) :: ws, r =>
    let g := gradient im0 (x + u) (y + v)
    let p := sample im0 (x + u) (y + v)
    let q := sample im1 (x + u + dx) (y + v + dy)
    sumB im0 im1 x y dx dy ws
      ⟨r.a + (p.1 - q.1) * g.1, r.b + (p.1 - q.1) * g.2.1, 0, r.bad || g.2.2 || p.2 || q.2⟩

/-- The floor of a square root, found bit by bit from bit `k` down. -/
def isqrtFrom (n : Nat) : Nat → Nat → Nat
  | 0, r => r
  | k + 1, r => isqrtFrom n k (if (r + 2 ^ k) * (r + 2 ^ k) ≤ n then r + 2 ^ k else r)
def isqrt (n : Nat) : Nat := isqrtFrom n (bitLen n / 2 + 1) 0

/-- The smaller eigenvalue of G lies below MIN_EIG times the window's pixels. -/
def isFlat (g : Sums) (minEig win : Nat) : Bool :=
  decide (g.a + g.c - (isqrt ((g.a - g.c) * (g.a - g.c) + 4 * g.b * g.b).natAbs : Nat) < 2 * ((minEig * win * win : Nat) : Int))

/-- A quotient rounded to nearest, ties to even, for a positive divisor. -/
def rneQuot (a b : Int) : Int :=
  let q := a / b
  let r := a % b
  if b < 2 * r ∨ (2 * r = b ∧ q % 2 = 1) then q + 1 else q

/-- The step in 1/256 pixel: G η = 2 b, since the gradients are twice the slope. -/
def stepOf (g b : Sums) : Int × Int :=
  let det := g.a * g.c - g.b * g.b
  if det = 0 then Config.singularStep g.a g.b g.c b.a b.b
  else (rneQuot (512 * (g.c * b.a - g.b * b.b)) det, rneQuot (512 * (g.a * b.b - g.b * b.a)) det)

/-! ### A level, and a point (11 R336, R337) -/

/-- Where the tracking of a point or a level stands. -/
structure TrackRes where
  dx : Int
  dy : Int
  /-- iterations used -/
  iters : Nat
  /-- the level has converged; the point is flat -/
  conv : Bool
  flat : Bool
  bad : Bool
  deriving DecidableEq, Repr

/-- Iterations of a level; the first number bounds those left. -/
def iterate (im0 im1 : Pixels) (x y : Int) (win eps : Nat) (g : Sums) : Nat → TrackRes → TrackRes
  | 0, r => r
  | n + 1, r =>
    let b := sumB im0 im1 x y r.dx r.dy (windowOffs win) ⟨0, 0, 0, false⟩
    let e := stepOf g b
    let k : TrackRes := { r with dx := r.dx + e.1, dy := r.dy + e.2, iters := r.iters + 1, bad := r.bad || b.bad }
    if e.1.natAbs ≤ eps ∧ e.2.natAbs ≤ eps then { k with conv := true } else iterate im0 im1 x y win eps g n k

/-- A coordinate at level `k`; where the scale leaves a remainder, the way it rounds is open (log 76). -/
def levelCoord (x : Int) (k : Nat) : Int := x / 2 ^ k + (if x % 2 ^ k = 0 then 0 else bnat (Config.levelUp x k) : Nat)

/-- One level. -/
def trackLevel (bs : List Byte) (im0 im1 : Pixels) (x y : Int) (r : TrackRes) : TrackRes :=
  let g := sumG im0 x y (windowOffs (tWin bs)) ⟨0, 0, 0, false⟩
  let k : TrackRes := { r with bad := r.bad || g.bad, conv := false, iters := 0 }
  if isFlat g (tMinEig bs) (tWin bs) then { k with flat := true }
  else iterate im0 im1 x y (tWin bs) (tEps bs) g (tIters bs) k

/-- The levels below `n`, the coarsest first. A flat level ends the point with its displacement in level-0 pixels. -/
def trackFrom (bs : List Byte) (p0 p1 : List Pixels) (x y : Int) : Nat → TrackRes → TrackRes
  | 0, r => r
  | k + 1, r =>
    let t := trackLevel bs ((p0[k]?).getD []) ((p1[k]?).getD []) (levelCoord x k) (levelCoord y k) r
    if t.flat then { t with dx := t.dx * 2 ^ k, dy := t.dy * 2 ^ k, iters := 0 }
    else if k = 0 then t
    else trackFrom bs p0 p1 x y k { t with dx := 2 * t.dx, dy := 2 * t.dy }

/-- Sum of absolute differences over the window. -/
def sumAbs (im0 im1 : Pixels) (x y u v : Int) : List (Int × Int) → Nat × Bool → Nat × Bool
  | [], r => r
  | (a, b) :: ws, r =>
    let p := sample im0 (x + a) (y + b)
    let q := sample im1 (u + a) (v + b)
    sumAbs im0 im1 x y u v ws (r.1 + (p.1 - q.1).natAbs, r.2 || p.2 || q.2)

/-- A position lies outside the image. -/
def offImage (bs : List Byte) (x y : Int) : Bool :=
  decide (x < 0) || decide (y < 0) || decide (((tW bs - 1 : Nat) : Int) * 256 < x) || decide (((tH bs - 1 : Nat) : Int) * 256 < y)

/-- Status of a tracked point: an unconverged one is NOT_CONVERGED wherever it lies (log 76). -/
def pointStatus (bs : List Byte) (x y : Int) (r : TrackRes) : Nat :=
  if r.flat then 2 else if r.conv = false then 3 else if offImage bs (x + r.dx) (y + r.dy) then 1 else 0

/-- The output point. -/
def pointOut (bs : List Byte) (im0 im1 : Pixels) (x y : Int) (status : Nat) (r : TrackRes) : List Byte × Bool :=
  let m := sumAbs im0 im1 x y (x + r.dx) (y + r.dy) (windowOffs (tWin bs)) (0, false)
  (leBytes 4 (BitVec.ofInt 32 (x + r.dx)).toNat ++ leBytes 4 (BitVec.ofInt 32 (y + r.dy)).toNat ++ leBytes 1 status ++
      leBytes 1 r.iters ++ leBytes 2 (min 65535 (m.1 / (tWin bs * tWin bs))) ++ zeros 4,
    r.bad || m.2)

/-- A point tracked: its output bytes, whether a poisoned pixel took part, and its status. -/
def trackPoint (bs : List Byte) (p0 p1 : List Pixels) (pt : List Byte) : List Byte × Bool × Nat :=
  let x := signedOf 32 (leAt pt 0 4)
  let y := signedOf 32 (leAt pt 4 4)
  let im0 := (p0[0]?).getD []
  let im1 := (p1[0]?).getD []
  let none_ : TrackRes := ⟨0, 0, 0, false, false, false⟩
  if offImage bs x y then
    let o := pointOut bs im0 im1 x y 4 none_
    (o.1, o.2, 4)
  else
    let n := levelsUsed bs
    let seed : TrackRes :=
      if tGuess bs then
        { none_ with dx := levelCoord (signedOf 32 (leAt pt 8 4)) (n - 1), dy := levelCoord (signedOf 32 (leAt pt 12 4)) (n - 1) }
      else none_
    let r := trackFrom bs p0 p1 x y n seed
    let st := pointStatus bs x y r
    let o := pointOut bs im0 im1 x y st r
    (o.1, o.2, st)

/-! ### The units of a job (11 R334) -/

/-- Units: one point at one level; the levels that an ended point does not need count too (log 75). -/
def trackUnits (bs : List Byte) : Nat := tNpts bs * max 1 (levelsUsed bs)

/-- The pyramids go to SCRATCH in a layout that the spec does not give: its bytes are free values (log 77). -/
def scratchBytes (s : State) (n : Nat) : List Byte := (List.range n).map fun k => (Config.freeValue (s.free + k)).setWidth 8

def buildScratch (bs : List Byte) (s : State) : State :=
  let n := 2 * tPitch bs * tH bs
  devWrite (tScratch bs) (scratchBytes s n)
    { touchAll [(tImg0 bs, extent (tH bs) (tPitch bs) (tW bs * tPx bs)), (tImg1 bs, extent (tH bs) (tPitch bs) (tW bs * tPx bs))] s
      with free := s.free + n }

/-- The point whose levels are done: its output, and its status. With no level that holds the window the spec states no
outcome: the point is a free value (log 76). -/
def outPoint (s : State) (bs : List Byte) (i : Nat) : List Byte × Bool × Nat :=
  let pt := devRead s (tPin bs + 16 * i) 16
  if levelsUsed bs = 0 then
    let st := (freshVal s).toNat % 5
    (leBytes 8 (Config.freeValue (s.free + 1)).toNat ++ leBytes 1 st ++ leBytes 3 (Config.freeValue (s.free + 2)).toNat ++ zeros 4,
      false, st)
  else trackPoint bs (pyramid (levelsUsed bs) (level0 s bs (tImg0 bs))) (pyramid (levelsUsed bs) (level0 s bs (tImg1 bs))) pt

/-- Unit number `j.done` of a TRACK job: the last level of a point writes it. -/
def trackUnit (j : EngJob) (s : State) : EngJob × State :=
  let bs := j.block
  let n := max 1 (levelsUsed bs)
  let i := j.done / n
  if (j.done + 1) % n = 0 then
    let o := outPoint s bs i
    let bad := j.tainted || o.2.1 || devPoisoned s (tPin bs + 16 * i) 16
    let t := putEntry (tPout bs + 16 * i) o.1 bad (devTouch (tPin bs + 16 * i) 16 { s with free := s.free + 3 })
    ({ j with count := j.count + bnat (decide (o.2.2 = 0)), poisoned := j.poisoned || bad },
      if o.2.2 = 0 then t else bump 0x70020 1 t)
  else (j, s)

end Sys2Proof.Machine
end

