-- ==== Sys2Proof/Machine/Engines.lean ====
section
/-! DEFINITION. The job engines: how a job is chosen, checked, run unit by unit, suspended for PHY work and ended
(11 R322–R327). -/

namespace Sys2Proof.Machine

/-- First register of an engine's block, its code in a reel table (11 R322, R346), and its arbitration point. -/
def engBase : Engine → Nat
  | .continuity => 0x70000
  | .matte => 0x80000
def engCode : Engine → Byte
  | .continuity => 0x11
  | .matte => 0x12
def engPoint : Engine → Nat
  | .continuity => 9
  | .matte => 10

def engOf (e : Engine) (s : State) : EngineS := match e with
  | .continuity => s.cont
  | .matte => s.matte
def setEng (e : Engine) (x : EngineS) (s : State) : State := match e with
  | .continuity => { s with cont := x }
  | .matte => { s with matte := x }

/-- Bytes of a job block that starts with `bs`. -/
def blockLen (e : Engine) (bs : List Byte) : Nat :=
  if e = .matte ∧ leAt bs 0 1 ≠ 2 then 64 + 32 * min 16 (cNl bs) else 64

/-- The status that the checks give a block; an unlisted OP fails those of the first operation. -/
def blockCheck (e : Engine) (s : State) (bs : List Byte) : Nat := match e with
  | .continuity => if leAt bs 0 1 = 2 then trackCheck s bs else matchCheck s bs
  | .matte => if leAt bs 0 1 = 2 then contactCheck s bs else composeCheck s bs

/-- Units of a job. -/
def blockUnits (e : Engine) (bs : List Byte) : Nat := match e with
  | .continuity => if leAt bs 0 1 = 2 then trackUnits bs else matchUnits bs
  | .matte => if leAt bs 0 1 = 2 then contactUnits bs else composeUnits bs

/-- STATUS and the count fields, as offset and bytes. -/
def statusFields (e : Engine) (bs : List Byte) (status count skipped : Nat) : List (Nat × List Byte) := match e with
  | .continuity =>
    if leAt bs 0 1 = 2 then
      [(50, leBytes 1 status ++ leBytes 1 (if status = 0 ∨ status = 0x21 then levelsUsed bs else 0)), (52, leBytes 4 count)]
    else [(48, leBytes 1 status), (52, leBytes 4 count)]
  | .matte => [(32, leBytes 1 status), (36, leBytes 4 count ++ leBytes 4 skipped)]

def putFields (a : Nat) : List (Nat × List Byte) → State → State
  | [], s => s
  | x :: xs, s => putFields a xs (devWrite (a + x.1) x.2 s)

/-! ### The end of a job (11 R324) -/

/-- The done reel of a job reel: the next logical reel of its image. -/
def doneReel (s : State) (image reel : Nat) : Option Nat := match loadedNum s image with
  | none => none
  | some l => l.reels[(l.reels.idxOf reel) + 1]?

/-- The director pushes the handle onto the done reel; one that finds it full is dropped. -/
def donePush (e : Engine) (j : EngJob) (s : State) : State :=
  let h : Handle := { h := j.handle, tile := j.tile, cls := j.cls, phy := j.phy, owner := j.owner }
  match doneReel s j.image j.reel with
  | none => s
  | some r =>
    if (reelOf s r).q.length + pushesWaiting s r (fun _ => true) < 64 then pushReel r h s
    else
      let t := raise (engBase e + 8) 1 s
      if j.phy then enginePush r Config.nTiles h t
      else
        let u := raise directorEvent 1 (bump 0x30038 1 (setReel r { reelOf t r with ovf := true } t))
        match j.tile with
        | some n => report ⟨.tile n, false, 6, 0, ownerWork u j.owner⟩ u
        | none => u

/-- A job ends with a status. -/
def endEngJob (e : Engine) (j : EngJob) (status : Nat) (s : State) : State :=
  donePush e j (bump (engBase e + if j.phy then 0x10 else 0x14) 1
    (putFields j.addr (statusFields e j.block status j.count j.skipped) s))

/-- A job that fails its checks. -/
def failEngJob (e : Engine) (j : EngJob) (status : Nat) (s : State) : State :=
  endEngJob e j status (raise (engBase e + 8) 0 (bump (engBase e + 0x18) 1 s))

/-! ### The start of a job (11 R323, R326) -/

/-- The job block's buffer: a pool entry of the buffer table (11 R323). -/
def jobBuffer (s : State) (image : Nat) (h : BitVec 16) : Option (Nat × Nat) := match loadedNum s image with
  | none => none
  | some l => match l.img.buftab[h.toNat]? with
    | none => none
    | some b => if b.kind = 0 then some (b.addr, b.len) else none

/-- The job of a handle with its block read. -/
def engJobOf (e : Engine) (r image : Nat) (h : Handle) (addr : Nat) (bs : List Byte) (bad : Bool) : EngJob :=
  { reel := r, image, handle := h.h, addr, tile := h.tile, owner := h.owner, cls := h.cls, phy := h.phy, block := bs,
    total := blockUnits e bs, done := 0, tainted := bad, poisoned := bad, count := 0, skipped := 0 }

/-- What the start of a job does beside: a TRACK job builds its pyramids. -/
def prepare (e : Engine) (bs : List Byte) (s : State) : State :=
  if e = .continuity ∧ leAt bs 0 1 = 2 then buildScratch bs s else s

/-- The job of a handle popped from reel `r` starts, or fails its checks. A buffer that is no pool entry, or does not cover the
block, fails it with nothing written (log 74). -/
def startEngJob (e : Engine) (r : Nat) (h : Handle) (s : State) : State :=
  let image := ((reelOf s r).owner).getD 0
  match jobBuffer s image h.h with
  | none => donePush e (engJobOf e r image h 0 [] false) (raise (engBase e + 8) 0 (bump (engBase e + 0x18) 1
      (bump (engBase e + if h.phy then 0x10 else 0x14) 1 s)))
  | some (addr, len) =>
    let n := blockLen e (devRead s addr 64)
    let j := engJobOf e r image h addr (devRead s addr n) (devPoisoned s addr n)
    if len < n then donePush e j (raise (engBase e + 8) 0 (bump (engBase e + 0x18) 1
      (bump (engBase e + if h.phy then 0x10 else 0x14) 1 s)))
    else
      let t := devTouch addr n s
      let st := blockCheck e t j.block
      if st = 0 then setEng e { engOf e t with running := some j } (prepare e j.block t) else failEngJob e j st t

/-! ### The choice of a job (11 R325; 12 R348, R351) -/

/-- The engine's job reels that hold a handle, with the oldest of each. -/
def readyReels (e : Engine) (s : State) : List (Nat × Handle) :=
  s.reels.filterMap fun x => if x.2.engine = engCode e then x.2.q.head?.map fun h => (x.1, h) else none

/-- Round-robin over the ready reels of a class: the first after the one that was served last. -/
def nextReel (last : Nat) (l : List (Nat × Handle)) : Option (Nat × Handle) :=
  (l.find? fun x => decide (last ≤ x.1)).or l.head?

/-- Key of the reel that an engine served last for a class. -/
def lastKey (e : Engine) (c : Nat) : Nat := 16 + 8 * (engPoint e - 9) + c

/-- The job that the engine takes next: PHY first; others only where none is suspended. -/
def engineChoose (e : Engine) (s : State) : Option (Nat × Handle) :=
  let l := readyReels e s
  match l.find? fun x => x.2.phy with
  | some x => some x
  | none =>
    if (engOf e s).suspended.isSome then none
    else match pickClass s (roundOf s (engPoint e)) (fun c => l.any fun x => decide (x.2.cls = c)) with
      | none => none
      | some c => nextReel (tabGet (fun _ => 0) s.lastReel (lastKey e c)) (l.filter fun x => decide (x.2.cls = c))

/-- The chosen handle is popped, its grant and the round-robin recorded, and its job starts. -/
def takeJob (e : Engine) (r : Nat) (h : Handle) (s : State) : State :=
  let s1 := setReel r { reelOf s r with q := (reelOf s r).q.drop 1 } s
  let s2 : State := if h.phy then s1
    else
      let t := grantTo (engPoint e) h.cls s1
      { t with lastReel := tabSet (fun _ => 0) t.lastReel (lastKey e h.cls) (r + 1) }
  startEngJob e r h s2

/-- The engine is idle: it takes jobs until one runs; with none to take, the suspended one resumes. `n` bounds the jobs. -/
def refill (e : Engine) : Nat → State → State
  | 0, s => s
  | n + 1, s =>
    if (engOf e s).running.isSome then s
    else match engineChoose e s with
      | some (r, h) => refill e n (takeJob e r h s)
      | none =>
        let x := engOf e s
        if x.suspended.isSome then setEng e { running := x.suspended, suspended := none } s else s

/-- A unit boundary: PHY work that waits suspends another class's unfinished job, and `cycles` is the time it waited. -/
def boundary (e : Engine) (cycles : Nat) (s : State) : State :=
  let x := engOf e s
  let wait := (readyReels e s).any fun y => y.2.phy
  let free := match x.running with
    | none => true
    | some j => !j.phy
  if wait && free then
    refill e 65536 (peak (engBase e + 0x1C) cycles
      (setEng e { running := none, suspended := x.running.or x.suspended } s))
  else refill e 65536 s

/-! ### The commands -/

/-- The engine pops the handle at reel `r`, where it is idle, that reel is its choice and the block's OP is one that `op` accepts. -/
def popJob (e : Engine) (r : Nat) (op : Nat → Bool) (s : State) : State :=
  let x := engOf e s
  if x.running.isSome || x.suspended.isSome then s
  else match engineChoose e s with
    | none => s
    | some (k, h) =>
      let code := match jobBuffer s (((reelOf s k).owner).getD 0) h.h with
        | some b => leAt (devRead s b.1 1) 0 1
        | none => 0
      if k = r ∧ op code = true then takeJob e k h s else s

/-- MATCH_JOB. An unlisted OP counts as a MATCH. -/
def execMatchJob (reel : Fin 1024) (s : State) : Host.Outcome State Fault Refusal :=
  .next (popJob .continuity reel.val (fun c => decide (c ≠ 2)) s)

/-- TRACK_JOB. -/
def execTrackJob (reel : Fin 1024) (s : State) : Host.Outcome State Fault Refusal :=
  .next (popJob .continuity reel.val (fun c => decide (c = 2)) s)

/-- COMPOSE_JOB. An unlisted OP counts as a COMPOSE. -/
def execComposeJob (reel : Fin 1024) (s : State) : Host.Outcome State Fault Refusal :=
  .next (popJob .matte reel.val (fun c => decide (c ≠ 2)) s)

/-- CONTACT_JOB. -/
def execContactJob (reel : Fin 1024) (s : State) : Host.Outcome State Fault Refusal :=
  .next (popJob .matte reel.val (fun c => decide (c = 2)) s)

/-- A unit of a job: the job after it and the state with its outputs. -/
def runUnit (e : Engine) (j : EngJob) (s : State) : EngJob × State := match e with
  | .continuity => if leAt j.block 0 1 = 2 then trackUnit j s else matchUnit j s
  | .matte => if leAt j.block 0 1 = 2 then contactUnit j s else composeUnit j s

/-- ENGINE_UNIT_END: the running job's unit has written its outputs; its last ends it; then the engine chooses. `cycles` is how
long a PHY job that starts here has waited. -/
def execEngineUnitEnd (e : Engine) (cycles : Nat) (s : State) : Host.Outcome State Fault Refusal :=
  .next (match (engOf e s).running with
    | none => s
    | some j =>
      let r := runUnit e j s
      let k : EngJob := { r.1 with done := j.done + 1 }
      let t := if j.total ≤ k.done then
          endEngJob e k (if k.poisoned then 0x21 else 0) (setEng e { engOf e r.2 with running := none } r.2)
        else setEng e { engOf e r.2 with running := some k } r.2
      boundary e cycles t)

end Sys2Proof.Machine
end

