-- ==== Sys2Proof/Machine/HostReg.lean ====
section
/-! DEFINITION. Accesses to BAR0: the views that live hardware state gives its status registers, reads, and writes judged
by access type, range, lock and alignment (00 R7–R11; 03 R81, R103, R104; 02 R37; 07 R202, R226). -/

namespace Sys2Proof.Machine

/-! ### What status registers show -/

/-- The active call sheet. -/
def activeSheet (s : State) : Option Loaded := s.loaded.find? fun l => decide (l.img.kind = 1) && decide (l.state = .active)
/-- The staged call sheet. -/
def stagedSheet (s : State) : Option Loaded :=
  s.loaded.find? fun l => decide (l.img.kind = 1) && (match l.state with
    | .staged _ _ => true
    | _ => false)

/-- DIRECTOR.STATUS (06 R197). -/
def directorStatus (s : State) : Word :=
  BitVec.ofNat 32 (bnat (activeSheet s).isSome + 2 * bnat (stagedSheet s).isSome + (match activeSheet s with
    | some l => 65536 * l.id.toNat
    | none => 0))

/-- A thread runs: it executes or waits, or its last operations complete. -/
def threadRuns (y : Thread) : Bool := decide (y.run ≠ .stopped)

/-- TILE_n.STATUS beside its stored FENCED bit (04 R136). -/
def tileStatus (s : State) (n : Nat) (w : Word) : Word :=
  let x := tileOf s n
  setField (setField (setField w 1 1 (bnat (threadRuns x.c0 || threadRuns x.c1))) 5 2
    (bnat x.a0.active + 2 * bnat x.a1.active + 4 * bnat x.a2.active + 8 * bnat x.a3.active)) 6 6 (bnat x.ru.busy)

/-- CC_STATUS beside its stored exception bits (05 R171). -/
def ccStatus (s : State) (n : Nat) (w : Word) : Word :=
  setField w 1 0 (bnat (threadRuns (tileOf s n).c0) + 2 * bnat (threadRuns (tileOf s n).c1))

/-- REEL_r (06 R197). -/
def reelWord (s : State) (r : Nat) : Word :=
  let x := reelOf s r
  BitVec.ofNat 32 (x.q.length + 256 * bnat x.ovf + 2 ^ 31 * bnat x.owner.isSome)

/-- PAIR_STATUS beside its sticky bits (03 R76, R93). -/
def pairStatus (s : State) (p : Nat) (w : Word) : Word :=
  setField (setField w 0 0 (bnat (pairActive s p))) 3 3 (bnat (decide (cqFree s p = 0)))

/-- TILE_HEALTH_n (14 R421). -/
def tileHealth (s : State) (n : Nat) : Word :=
  let ce := match tabFind s.fault.hist (256 + n) with
    | some h => (h.times.filter fun t => decide (s.clk - t < rdf s 0x50010 27 16 * ticksS)).length
    | none => 0
  let rt := ((tabGet (fun _ => []) s.fault.retakes n).filter fun t => decide (s.clk - t < rdf s 0x50014 15 8 * 60 * ticksS)).length
  BitVec.ofNat 32 (min 255 ce + 256 * min 15 rt)

/-- STATUS of a job engine (11 R346). -/
def engineStatus (e : EngineS) : Word :=
  BitVec.ofNat 32 (bnat e.running.isSome + 2 * bnat e.suspended.isSome + (match e.running with
    | some j => 4 * (j.cls % 8)
    | none => 0))

/-- What a tile register shows. -/
def tileView (s : State) (n o : Nat) (w : Word) : Word :=
  if o = 4 then tileStatus s n w
  else if o = 0x40 then ccStatus s n w
  else if o = 0x60 then setField w 8 0 (outstandingOf (fun _ => true) (tileOf s n))
  else w

/-- HOST.STATUS beside its stored NumVFs: the rate, width and mode that the link trained to, which no rule fixes (03 R71, R105;
log 95). -/
def hostStatus (w : Word) : Word :=
  let rate := 1 + Config.pcieLink % 6
  setField (setField (setField w 3 0 rate) 8 4 (2 ^ (Config.pcieLink / 6 % 5))) 9 9
    (bnat (decide (rate = 6) || decide (Config.pcieLink / 30 % 2 = 1)))

/-- What the register at a defined offset shows. -/
def viewReg (s : State) (o : Nat) : Word :=
  let w := rd s o
  if 0x200000 ≤ o then tileView s ((o - 0x200000) / 0x10000) ((o - 0x200000) % 0x10000) w
  else if 0x11000 ≤ o ∧ o < 0x15000 ∧ (o - 0x11000) % 0x40 = 0x30 then pairStatus s ((o - 0x11000) / 0x40) w
  else if 0x31000 ≤ o ∧ o < 0x32000 then reelWord s ((o - 0x31000) / 4)
  else if 0x30420 ≤ o ∧ o < 0x30438 then BitVec.ofNat 32 (queueDepth s ((o - 0x30420) / 4))
  else if 0x30440 ≤ o ∧ o < 0x30458 then BitVec.ofNat 32 (max w.toNat (queueDepth s ((o - 0x30440) / 4)))
  else if 0x50100 ≤ o ∧ o < 0x50200 then tileHealth s ((o - 0x50100) / 4)
  else if o = 0x10000 then hostStatus w
  else if o = 0x20030 then s.time.counter.frac
  else if o = timeStatus then setField w 10 9 (hoRefUsed s)
  else if o = 0x30000 then directorStatus s
  else if o = 0x40044 then BitVec.ofNat 32 s.hold.vbat
  else if o = 0x60004 then setField w 0 0 (bnat (flowRuns s))
  else if o = 0x70000 then engineStatus s.cont
  else if o = 0x80000 then engineStatus s.matte
  else w

/-! ### Reads (00 R7, R8, R11) -/

/-- NOW_NS, NOW_SEC_LO and NOW_SEC_HI take the counter of this tick (02 R37). -/
def latchNow (s : State) : State :=
  let c := s.time.counter
  wr 0x2003C ((c.sec.extractLsb' 32 16).setWidth 32) (wr 0x20038 (c.sec.setWidth 32) (wr 0x20034 c.ns s))

/-- What a full read of the register at `o` leaves: its RC fields cleared, or the counter latched. -/
def readEffect (o : Nat) (s : State) : State :=
  if o = 0x20030 then latchNow s
  else match regRow o with
    | some r => if r.rc = 0 then s else wr o (rd s o &&& ~~~ r.rc) s
    | none => s

/-- The register at `o` lies in the block of a fenced tile, which answers reads of ID and STATUS alone (04 R139). -/
def tileBarred (s : State) (o : Nat) : Bool :=
  decide (0x200008 ≤ o) && fenced s ((o - 0x200000) / 0x10000) && decide (8 ≤ (o - 0x200000) % 0x10000)

/-- A read of the register at `o` by an access at `off`: its value, and the state after it. A read inside no register is logged with
the offset of the access (R11; 03 R105); what a register of a fenced tile reads as, which does not take the read, is a free value
(04 R139; log 1). -/
def readOne (o off : Nat) (s : State) : Word × State :=
  match regRow o with
  | some _ => if tileBarred s o then ((freshVal s).setWidth 32, useFree s) else (viewReg s o, readEffect o s)
  | none => (0, aerr 3 false 0 off s)

/-- A read of BAR0 answered with data. A read of a shape that R7 does not name (of 5 to 7 bytes or of more than 8) is answered with
zeros and logged with KIND 7, as one that crosses a register boundary (log 27). -/
def barRead (off size : Nat) (s : State) : State :=
  if size = 8 ∧ off % 8 = 0 then
    let a := readOne off off s
    let b := readOne (off + 4) (off + 4) a.2
    emit (.readData (leBytes 4 a.1.toNat ++ leBytes 4 b.1.toNat)) b.2
  else if size ≤ 4 ∧ off % 4 + size ≤ 4 then
    let a := readOne (off / 4 * 4) off s
    emit (.readData (((leBytes 4 a.1.toNat).drop (off % 4)).take size)) a.2
  else emit (.readData (zeros size)) (aerr 7 false 0 off s)

/-- RC_READ: a read of BAR0; RC fields it reads are cleared in the same access. -/
def execRcRead (off : Nat) (size : Nat) (s : State) : Host.Outcome State Fault Refusal :=
  .next (if hostDown s then s else barRead off size s)

/-- TIME_NOW_FRAC_READ: a 64-bit read takes the latch before it returns either half (02 R37). -/
def execTimeNowFracRead (wide : Bool) (s : State) : Host.Outcome State Fault Refusal :=
  .next (if hostDown s then s else barRead 0x20030 (if wide then 8 else 4) s)

/-- What a doorbell page reads at an aligned offset (03 R81). -/
def pageWord (s : State) (p off : Nat) : Word :=
  if off = 0 then BitVec.ofNat 32 ((sqCons s p).toNat + 65536 * (sqProd s p).toNat)
  else if off = 8 then BitVec.ofNat 32 ((cqProd s p).toNat + 65536 * (cqCons s p).toNat)
  else if off = 0x10 then viewReg s (pairReg p 0x30)
  else 0

/-- A read of a doorbell page. -/
def pageRead (f : FuncIx) (off size : Nat) (s : State) : State :=
  match pagePair s f (off / 4096) with
  | none => emit (.readData (zeros size)) s
  | some p =>
    if size = 4 ∧ off % 4 = 0 then emit (.readData (leBytes 4 (pageWord s p (off % 4096)).toNat)) s
    else emit (.readData (zeros size)) (aerr 7 true f off s)

/-- UNDEFINED_OR_MISALIGNED_READ: 0 in every byte, logged with KIND 7 or KIND 3. -/
def execUndefinedOrMisalignedRead (bar2 : Bool) (f : FuncIx) (off : Nat) (size : Nat) (s : State) :
    Host.Outcome State Fault Refusal :=
  .next (if reachable s f then (if bar2 then pageRead f off size s else if f = 0 then barRead off size s else s) else s)

/-! ### Checks of a write (00 R10 and the range rules of the chapters) -/

/-- A value outside a field's listed or stated range: its KIND. -/
def checkField (w : Word) (c : FieldCheck) : Option Nat :=
  if field w c.hi c.lo < c.min ∨ c.max < field w c.hi c.lo then some c.kind else none

/-- Bytes of an IQ area of a number of streams (08 R244). -/
def areaBytes (streams : Nat) : Nat := streams * 369152

/-- The total increment that a write would leave lies outside the bounds of R36. -/
def incBad (ns : Nat) (frac sub : Nat) : Bool :=
  let t := ns * 2 ^ 42 + frac * 2 ^ 10 + sub
  decide (t < incLow) || decide (incHigh < t)

/-- Another partition is of kind PHY (01 R26). -/
def otherPhy (s : State) (p : Nat) : Bool := (List.range 8).any fun q => decide (q ≠ p) && decide (partKind s q = 1)

/-- Sum of the class floors held by the words of CLASS_FLOOR_A and B (12 R352). -/
def floorSum (a b : Word) : Nat := field a 6 0 + field a 14 8 + field a 22 16 + field a 30 24 + field b 6 0

/-- A check over more than one field, of the value `w` that a write of `raw` to offset `o` would leave: the KIND it is
discarded with. Rules that say only "discarded in full and logged" are logged with KIND 4 (log 36). -/
def checkSpecial (s : State) (o : Nat) (raw w : Word) : RegSpecial → Option Nat
  | .none => none
  | .base4k => if raw.toNat % 4096 ≠ 0 then some 4 else none
  | .pairCfg =>
    let bad := fun (n : Nat) => decide (n < 6) || decide (16 < n)
    if w.getLsbD 0 && (bad (field w 12 8) || (!w.getLsbD 1 && bad (field w 7 3))) then some 4 else none
  | .incFrac => if incBad (incNs s) w.toNat (incSub s) then some 4 else none
  | .incNsSub => if incBad (field w 7 0) (incFrac s).toNat (field w 17 8) then some 4 else none
  | .gridOffset => if w.toInt < -9999999 ∨ 9999999 < w.toInt then some 4 else none
  | .partCfg =>
    if field w 1 0 = 1 ∧ otherPhy s ((o - 0x30200) / 4) = true then some 2
    else if w.getLsbD 4 ∧ field w 1 0 ≠ 3 then some 4 else none
  | .dlStage => if poolSize < field w 25 6 * 64 + areaBytes (field w 28 26 + 1) then some 4 else none
  | .floorA => if 64 < floorSum w (rd s 0x30404) then some 2 else none
  | .floorB => if 64 < floorSum (rd s 0x30400) w then some 2 else none
  | .vcfg => if field w 15 8 < field w 7 0 + 20 then some 4 else none
  | .pwrLimit => if w.toNat < Config.pwrMinOf Config.part ∨ Config.pwrMaxOf Config.part < w.toNat then some 4 else none
  | .ftCfg => if hbmSize < field w 14 8 * 2 ^ 30 + 128 * 2 ^ field w 5 0 then some 4 else none
  | .timeCfg => if w.getLsbD 0 && w.getLsbD 1 then some 4 else none
  | .group => if w.getLsbD 0 && (decide (field w 7 4 < 2) || decide (12 < field w 7 4)) then some 4 else none
  | .groupBase => if 16384 < field w 13 0 + rdf s (o + 4) 14 0 then some 4 else none
  | .groupSize => if 16384 < rdf s (o - 4) 13 0 + field w 14 0 then some 4 else none
  | .ta4Min => if rdf s 0xD0014 15 0 < field w 15 0 then some 4 else none
  | .ta4Max => if field w 15 0 < rdf s 0xD0010 15 0 then some 4 else none
  | .t1aUp => if field w 15 0 < field w 31 16 then some 4 else none
  | .ulRing => if poolSize < field w 25 6 * 64 + areaBytes (field w 29 26 + 1) then some 4 else none
  | .eaxcSplit => if field w 3 0 + field w 7 4 + field w 11 8 + field w 15 12 ≠ 16 then some 4 else none
  | .marginRange =>
    if signedOf 8 (field w 15 8) < signedOf 8 (field w 7 0) ∨ field w 19 16 = 0 then some 4 else none

/-- The KIND that a write is discarded with: of a write that breaks both kinds of rule, KIND 2 for the unlisted value (log 97). -/
def checkWrite (s : State) (o : Nat) (raw w : Word) (r : RegRow) : Option Nat :=
  ((r.checks.filter fun c => decide (c.kind = 2)).findSome? (checkField w)).or
    ((r.checks.findSome? (checkField w)).or (checkSpecial s o raw w r.special))

/-! ### Effects of a write -/

/-- Retraining of a controller begins, or waits for its margining run (07 R202, R226). -/
def retrain (c : Nat) (s : State) : State :=
  if rdb s (hbmReg c 8) 1 then { s with mem := { s.mem with retrain := s.mem.retrain ||| BitVec.ofNat 4 (2 ^ c) } }
  else wrf (hbmReg c 8) 0 0 0 s

/-- What an accepted write to offset `o`, which held `old`, starts beside the register's new value. -/
def writeEffect (o : Nat) (old : Word) (s : State) : State :=
  if o = 0x100000 then (if old.getLsbD 0 = rdb s o 0 then s else reInterleave (old.getLsbD 0) (rdb s o 0) s)
  else if 0x100000 ≤ o ∧ o < 0x200000 ∧ (o - 0x100000) % 0x40000 = 4 then retrain ((o - 0x100000) / 0x40000) s
  else if o = 0xA0000 then wr 0xA0004 (BitVec.ofNat 32 (rdf s 0xA0000 4 0 * 2 ^ 20 / 96)) s
  else if o = 0x40018 then wr 0x40038 (rd s 0x40018) s
  else s

/-- MARGIN_CTRL.START of controller `c` (07 R226). -/
def marginWrite (c off : Nat) (v : Word) (s : State) : State :=
  if v.getLsbD 0 then
    (if locked s then aerr 1 false 0 off s
    else if rdb s (hbmReg c 8) 1 then wrf (hbmReg c 8) 3 3 1 s
    else wrf (hbmReg c 8) 1 1 1 s)
  else s

/-- A write to the fields of a register that has RW/L fields, before the lock. -/
def storeOpen (o : Nat) (v : Word) (r : RegRow) (s : State) : State :=
  let w := ((rd s o &&& ~~~ r.rwl) ||| (v &&& r.rwl)) &&& ~~~ (v &&& r.w1c)
  match checkWrite s o v w r with
  | some k => aerr k false 0 o s
  | none => writeEffect o (rd s o) (wr o w s)

/-- A write once the RW/L fields are frozen: one that would change such a field is logged with KIND 1, whatever the value (log 97). -/
def storeLocked (o : Nat) (v : Word) (r : RegRow) (s : State) : State :=
  let t := if (v ^^^ rd s o) &&& r.rwl = 0 then s else aerr 1 false 0 o s
  if v &&& r.w1c = 0 then t else wr o (rd t o &&& ~~~ (v &&& r.w1c)) t

/-- One aligned 32-bit write to BAR0; a fenced tile takes none (04 R139). -/
def regStore (o : Nat) (v : Word) (s : State) : State :=
  match regRow o with
  | none => aerr 3 false 0 o s
  | some r =>
    if tileBarred s o then s
    else if r.w1s ≠ 0 then (if v.getLsbD 0 ∧ locked s = false then applyLock s else s)
    else if r.wo ≠ 0 then marginWrite ((o - 0x100000) / 0x40000) o v s
    else if r.rwl ≠ 0 ∧ locked s = false then storeOpen o v r s
    else storeLocked o v r s

/-- A write to BAR0 of any size and alignment (00 R7). -/
def barWrite (off size : Nat) (val : Dword) (s : State) : State :=
  if size = 4 ∧ off % 4 = 0 then regStore off (val.setWidth 32) s
  else if size = 8 ∧ off % 8 = 0 then regStore (off + 4) (val.extractLsb' 32 32) (regStore off (val.setWidth 32) s)
  else aerr 0 false 0 off s

/-- REG_WRITE. -/
def execRegWrite (off : Nat) (size : Nat) (val : Dword) (s : State) : Host.Outcome State Fault Refusal :=
  .next (if hostDown s then s else barWrite off size val s)

/-- SETUP_LOCK: a write to GLOBAL.SETUP_LOCK (03 R103). -/
def execSetupLock (val : Word) (s : State) : Host.Outcome State Fault Refusal :=
  .next (if hostDown s = true ∨ val.getLsbD 0 = false ∨ locked s = true then s else applyLock s)

/-- HBM_RATE_WRITE: a write to HBM_s.CFG (07 R202). -/
def execHbmRateWrite (c : Fin 4) (val : Word) (s : State) : Host.Outcome State Fault Refusal :=
  .next (if hostDown s then s else regStore (hbmReg c 4) val s)

/-- MARGIN_START: a write to HBM_s.MARGIN_CTRL (07 R226). -/
def execMarginStart (c : Fin 4) (val : Word) (s : State) : Host.Outcome State Fault Refusal :=
  .next (if hostDown s then s else regStore (hbmReg c 0x40) val s)

end Sys2Proof.Machine
end

