-- ==== Sys2Proof/Machine/Memory.lean ====
section
/-! DEFINITION. The HBM controllers and the exact read-out alias: training and margining, reads, ageing of
write-combining entries, slots initialised and read (07 R202–R206, R215, R226, R227). -/

namespace Sys2Proof.Machine

/-! ### Reads and their errors (07 R205, R206; log 106) -/

/-- An HBM read has needed a correction or a retry (07 R206). -/
def hbmCe (c addr : Nat) (h : c < 4) (w : FaultWork) (s : State) : State :=
  report ⟨.hbm ⟨c, h⟩, true, 1, BitVec.ofNat 64 addr, w⟩ (raise (hbmReg c 0xC) 0 (bump (hbmReg c 0x20) 1 s))

/-- An HBM read has failed every retry: counted and reported (07 R206). -/
def hbmUe (c addr : Nat) (h : c < 4) (w : FaultWork) (s : State) : State :=
  report ⟨.hbm ⟨c, h⟩, false, 2, BitVec.ofNat 64 addr, w⟩ (raise (hbmReg c 0xC) 1 (bump (hbmReg c 0x24) 1 s))

/-- What a read that fails leaves in memory: the write-combining entry of its line is merged over a poisoned line; without one,
the 32 bytes of the burst are marked poisoned until written again (07 R205 Edge, R206; log 37). -/
def markFailed (addr : Nat) (s : State) : State := match wcFind s (addr / 64) with
  | some e => wcFlushBad e s
  | none => memMark (addr / 32 * 32) 32 s

/-- Retries of the last µs on a pseudo-channel, with `n` of now (07 R206). -/
def retryTimes (k n : Nat) (s : State) : List Nat :=
  ((tabGet (fun _ => []) s.mem.retries k).filter fun t => decide (s.clk < t + ticksUs)) ++ List.replicate n s.clk

/-- `n` retries on the pseudo-channel of an address: counted; more than 64 within 1 µs set RETRY_BURST (07 R206). -/
def countRetries (c addr n : Nat) (s : State) : State :=
  let k := pcOf s addr
  let l := retryTimes k n s
  let t := bump (hbmReg c 0x28) n { s with mem := { s.mem with retries := tabSet (fun _ => []) s.mem.retries k l } }
  if decide (n ≠ 0) && decide (64 < l.length) then raise (hbmReg c 0xC) 2 t else t

/-- Retries that a read makes: all that are allowed where it fails. -/
def retriesOf (s : State) (c retries : Nat) (ok : Bool) : Nat :=
  let limit := rdf s (hbmReg c 0x1C) 3 0
  if ok then min retries limit else limit

/-- The burst is read. -/
def readBurst (r : HeldRead) (s : State) : State :=
  let a := r.addr / 32 * 32
  let n := retriesOf s r.ctl.val r.retries r.ok
  let s1 := countRetries r.ctl.val a n s
  let s2 :=
    if r.ok then (if r.corrected || decide (0 < n) then hbmCe r.ctl.val a r.ctl.isLt r.work (memTouch a 32 s1) else memTouch a 32 s1)
    else hbmUe r.ctl.val a r.ctl.isLt r.work (markFailed a s1)
  emit (.memData (memRead s2 a 32) (memPoisoned s2 a 32)) s2

/-- HBM_READ: a burst of 32 bytes is read, for the work that reads it (14 R399); one at a controller that trains, or at a pseudo-channel that margins, waits
(07 R202, R226). -/
def execHbmRead (c : Fin 4) (addr : Nat) (retries : Nat) (ok : Bool) (corrected : Bool) (work : FaultWork) (s : State) :
    Host.Outcome State Fault Refusal :=
  .next (if hbmSize ≤ addr ∨ (hbmPlace s addr).1 ≠ c.val then s
    else if accessHeld s addr then
      { s with mem := { s.mem with heldReads := s.mem.heldReads ++ [⟨c, addr, retries, ok, corrected, work⟩] } }
    else readBurst ⟨c, addr, retries, ok, corrected, work⟩ s)

/-- Reads are made in order. -/
def readBursts : List HeldRead → State → State
  | [], s => s
  | r :: rs, s => readBursts rs (readBurst r s)

/-- The reads that nothing holds any more are made, oldest first. -/
def releaseReads (s : State) : State :=
  readBursts (s.mem.heldReads.filter fun r => !accessHeld s r.addr)
    { s with mem := { s.mem with heldReads := s.mem.heldReads.filter fun r => accessHeld s r.addr } }

/-! ### Training and margining (07 R202, R226, R227) -/

/-- HBM_TRAINING_DONE: training ends, and the accesses held go on. -/
def execHbmTrainingDone (c : Fin 4) (s : State) : Host.Outcome State Fault Refusal :=
  .next (if c.val < Config.nStacks then releaseReads (wrf (hbmReg c 8) 0 0 1 s) else s)

/-- The points of a run that were tested, each with its offset: from `off` on by `step`, none behind `stop`; a point beyond the
parameter's settable range is skipped. -/
def testedPoints (step stop : Int) : Int → List MarginPoint → List (Int × BitVec 4)
  | _, [] => []
  | off, p :: ps =>
    if stop < off then []
    else match p with
      | none => testedPoints step stop (off + step) ps
      | some m => (off, m) :: testedPoints step stop (off + step) ps

/-- A lane passes at a point. -/
def lanePass (b : Nat) (x : Int × BitVec 4) : Bool := x.2.getLsbD b

/-- MARGIN_RESULT_b: the lowest and the highest passing offset; with none, NO_PASS beside free values (log 107). -/
def marginWord (b : Nat) (pts : List (Int × BitVec 4)) (v : Dword) : Word :=
  let flags := 65536 * bnat (!pts.any (lanePass b)) + 131072 * bnat (pts.head?.any (lanePass b)) +
    262144 * bnat (pts.getLast?.any (lanePass b))
  let low : Byte := match pts.find? (lanePass b) with
    | some x => BitVec.ofInt 8 x.1
    | none => v.setWidth 8
  let high : Byte := match pts.reverse.find? (lanePass b) with
    | some x => BitVec.ofInt 8 x.1
    | none => v.extractLsb' 8 8
  BitVec.ofNat 32 (low.toNat + 256 * high.toNat + flags)

/-- Results of the byte lanes that MARGIN_SEL.BYTES selects, among the first `n`. -/
def marginResults (c : Nat) (pts : List (Int × BitVec 4)) : Nat → State → State
  | 0, s => s
  | b + 1, s =>
    marginResults c pts b
      (if rdb s (hbmReg c 0x44) (7 + b) then wr (hbmReg c (0x50 + 4 * b)) (marginWord b pts (Config.freeValue (s.free + b))) s else s)

/-- The points of the run that MARGIN_RANGE sets. -/
def runPoints (c : Nat) (points : List MarginPoint) (s : State) : List (Int × BitVec 4) :=
  let r := hbmReg c 0x48
  testedPoints (rdf s r 19 16) (signedOf 8 (rdf s r 15 8)) (signedOf 8 (rdf s r 7 0)) points

/-- The results and the trained value, and the run's end. -/
def endMargin (c : Nat) (points : List MarginPoint) (trained : Byte) (s : State) : State :=
  let s1 := wr (hbmReg c 0x60) (trained.setWidth 32) (marginResults c (runPoints c points s) 4 s)
  raise (hbmReg c 0xC) 3 (wrf (hbmReg c 8) 2 1 2 { s1 with free := s1.free + 4 })

/-- MARGIN_DONE: the run ends with the trained value restored and the accesses held let go; a retraining that waited begins
(07 R226). -/
def execMarginDone (c : Fin 4) (points : List MarginPoint) (trained : Byte) (s : State) : Host.Outcome State Fault Refusal :=
  .next (if rdb s (hbmReg c 8) 1 then
      (let s2 := endMargin c points trained s
       releaseReads
        (if s2.mem.retrain.getLsbD c then
          retrain c { s2 with mem := { s2.mem with retrain := s2.mem.retrain &&& ~~~ (BitVec.ofNat 4 (2 ^ c.val)) } }
        else s2))
    else s)

/-! ### Write-combining entries that age (07 R205) -/

/-- The oldest write-combining entry of a channel. -/
def oldestEntry (s : State) (c channel : Nat) : Option WcEntry :=
  s.mem.wc.find? fun e => let p := hbmPlace s (64 * e.line); decide (p.1 = c) && decide (p.2.1 = channel)

/-- The entry is flushed by read-modify-write; where the line read fails, the line's other bytes are poisoned (07 R205, Edge). -/
def flushAged (c : Fin 4) (e : WcEntry) (lineOk : Bool) (s : State) : State :=
  if lineOk then wcFlush e s else hbmUe c.val (64 * e.line) c.isLt .none (wcFlushBad e s)

/-- WC_AGE_EXPIRY: the oldest entry of a channel reaches WC_AGE, in units of 10 ns, and is flushed. A controller that holds accesses holds the flush (07 R202, R205). -/
def execWcAgeExpiry (c : Fin 4) (a : AgedEntry) (s : State) : Host.Outcome State Fault Refusal :=
  .next (match oldestEntry s c a.channel with
    | some e =>
      if accessHeld s (64 * e.line) then s
      else flushAged c e a.lineOk (runToClk (e.born + rdf s (hbmReg c 0x14) 7 0 * 8) s)
    | none => s)

/-- HBM_STACK_HOT: a stack crosses 85 °C (07 R203, R227). -/
def execHbmStackHot (c : Fin 4) (hot : Bool) (s : State) : Host.Outcome State Fault Refusal :=
  .next (if c.val < Config.nStacks then wrf (hbmReg c 8) 4 4 (bnat hot) s else s)

/-- EXACT_ALIAS_WRITE: a slot is initialised (07 R215). -/
def execExactAliasWrite (slot : Nat) (data : BitVec 128) (s : State) : Host.Outcome State Fault Refusal :=
  .next (if slot < slotCount s then aliasWrite slot (leBytes 16 data.toNat) s else s)

/-- EXACT_ALIAS_READ: a slot's rounded value and flags (07 R215). -/
def execExactAliasRead (slot : Nat) (s : State) : Host.Outcome State Fault Refusal :=
  .next (if slot < slotCount s then
      emit (.memData (aliasRead s slot) (memPoisoned s (slotAddr s slot) 96)) { s with free := s.free + slot + 1 }
    else s)

end Sys2Proof.Machine
end

