-- ==== Sys2Proof/Machine/Faults.lean ====
section
/-! DEFINITION. The fault unit: what a correctable and an uncorrectable event do, the log's rules, lasting faults, fences
and retakes (14 R398–R408). -/

namespace Sys2Proof.Machine

/-! ### Who reported, and whose work it was (14 R398, R399) -/

/-- Key of a unit in the histories. -/
def unitKey (u : FaultUnit) : Nat := 256 * (unitCode u).1 + (unitCode u).2

/-- A report of a unit, of a sort and cause. -/
def isReport (u : FaultUnit) (c : Bool) (cause : Byte) (x : Report) : Bool :=
  decide (x.unit = u) && decide (x.correctable = c) && decide (x.cause = cause)

/-- The report of an event has been waiting. -/
def reported (s : State) (u : FaultUnit) (c : Bool) (cause : Byte) : Bool :=
  s.fault.reports.any (isReport u c cause)

/-- A list without the first element that meets a condition. -/
def dropFirst {α : Type} (f : α → Bool) : List α → List α
  | [] => []
  | x :: xs => if f x then xs else x :: dropFirst f xs

/-- The waiting report is taken. -/
def takeReport (u : FaultUnit) (c : Bool) (cause : Byte) (s : State) : State :=
  { s with fault := { s.fault with reports := dropFirst (isReport u c cause) s.fault.reports } }

/-- Partition of a descriptor's work. -/
def workPart (s : State) (r : DRef) : Option Nat :=
  match chainOf s r with
  | some c => (loadedNum s c.image).map (·.part)
  | none => match s.jobs.find? fun j => decide (j.ref = r) with
    | some j => some j.part
    | none => (s.items.find? fun i => decide (i.src = .desc r)).map (·.part)

/-- Fault mode of a partition: TAKE only for TAKE partitions with FMODE set (01 R24). -/
def partMode (s : State) (p : Nat) : Nat := bnat (decide (partKind s p = 3) && partTake s p)

/-- MODE of an entry: of the tile's partition, else of the work's; 0xFF for none. -/
def eventMode (s : State) (u : FaultUnit) (w : FaultWork) : Nat :=
  match u with
  | .tile n => if tileRole s n = 0 then 0xFF else partMode s (tilePart s n)
  | _ => match w with
    | .none => 0xFF
    | .desc r => match workPart s r with
      | some p => partMode s p
      | none => 0xFF

/-- The work of an event: as it names it, else what the tile's threads run. -/
def eventWork (s : State) (u : FaultUnit) (w : FaultWork) : FaultWork :=
  match u, w with
  | .tile n, .none =>
    (match ownerWork s (threadOf s n 0).owner with
    | .none => ownerWork s (threadOf s n 1).owner
    | x => x)
  | _, x => x

/-- DETAIL of an entry (14 R399): the address, the exception or Dolly word, the reel or the rail; 0 for the other causes. -/
def eventDetail (u : FaultUnit) (cause : Byte) (detail : Dword) : Dword :=
  match u with
  | .tile _ => if 3 ≤ cause.toNat ∧ cause.toNat ≤ 5 then detail else 0
  | .link _ => 0
  | .time => 0
  | .gaffer => if cause = 5 then detail &&& 15 else 0
  | _ => detail

/-- A unit out of service: events of a fenced tile are no longer counted (14 R400). -/
def unitFenced (s : State) : FaultUnit → Bool
  | .tile n => fenced s n
  | _ => false

/-- The unit that an event at an address is an event of: the pool slice, or the HBM controller, that holds it (07 R201, R207). -/
def homeUnit (s : State) (u : FaultUnit) (a : Nat) : FaultUnit :=
  match u with
  | .pool k => if poolBase ≤ a ∧ a < poolBase + poolSize then .pool (Fin.ofNat 16 ((a - poolBase) / 256)) else .pool k
  | .hbm c => if a < hbmSize then .hbm (Fin.ofNat 4 (hbmPlace s a).1) else .hbm c
  | u => u

/-! ### Counters of the units (04 R133; 07 R206, R207, R229) -/

/-- What a unit itself does at a correctable event. -/
def unitCe (u : FaultUnit) (s : State) : State :=
  match u with
  | .tile n => raise (tileReg n 8) 0 (bump (tileReg n 0x20) 1 s)
  | .hbm c => raise (hbmReg c 0xC) 0 (bump (hbmReg c 0x20) 1 s)
  | .pool _ => raise poolEvent 0 (bump 0xA0010 1 s)
  | _ => s

/-- What a unit itself does at an uncorrectable event: the word that failed is marked poisoned (log 37). -/
def unitUe (u : FaultUnit) (cause : Byte) (a : Nat) (s : State) : State :=
  match u with
  | .tile n =>
    if cause = 2 then
      raise (tileReg n 8) 1 (if a % 0x400000 < lsSize then memMark (lsAddr n + a % 0x400000 / 8 * 8) 8 s else s)
    else s
  | .hbm c => raise (hbmReg c 0xC) 1 (bump (hbmReg c 0x24) 1 (if a < hbmSize then memMark (a / 32 * 32) 32 s else s))
  | .pool _ => raise poolEvent 1 (bump 0xA0014 1
      (if poolBase ≤ a ∧ a < poolBase + poolSize then memMark (a / 8 * 8) 8 s else s))
  | .codec e => bump (0x9010C + 16 * e.val) 1 s
  | _ => s

/-! ### Retakes that implicate a tile (14 R408) -/

/-- Retakes that implicated tile `n` within RT_WINDOW. -/
def retakesOf (s : State) (n : Nat) : List Nat :=
  (tabGet (fun _ => []) s.fault.retakes n).filter fun t => decide (s.clk - t < rdf s 0x50014 15 8 * 60 * ticksS)

/-- A retake implicates tile `n`. -/
def implicate (n : Nat) (s : State) : State :=
  { s with fault := { s.fault with retakes := tabSet (fun _ => []) s.fault.retakes n (s.clk :: retakesOf s n) } }

/-- The running job of partition `p` in TAKE mode that a trigger may retake. -/
def retakeable (s : State) (p : Nat) : Bool := decide (partMode s p = 1) && (jobOn s p).isSome
/-- It has made MAX_PER_JOB retakes. -/
def retakesSpent (s : State) (p : Nat) : Bool := match jobOn s p with
  | some j => decide (rdf s 0x50014 23 16 ≤ j.retakes)
  | none => false

/-! ### Correctable events (14 R399, R400) -/

def histOf (s : State) (k : Nat) : CeHist := tabGet (fun _ => ⟨[], none, false⟩) s.fault.hist k
def setHist (k : Nat) (h : CeHist) (s : State) : State :=
  { s with fault := { s.fault with hist := tabSet (fun _ => ⟨[], none, false⟩) s.fault.hist k h } }

/-- CE_WINDOW in ticks. -/
def ceWindow (s : State) : Nat := rdf s 0x50010 27 16 * ticksS

/-- The criterion of R400: the CE_LIMIT-th event before this one lies within CE_WINDOW. -/
def ceLasting (s : State) (h : CeHist) : Bool := match h.times[rdf s 0x50010 3 0 - 1]? with
  | some t => decide (s.clk - t < ceWindow s)
  | none => false

/-- A lasting tile is fenced; a job of its partition in TAKE mode is retaken (14 R400, R401, R407, R408; log 38). -/
def lastingTile (n : TileIx) (mode : Nat) (ids : Word × Nat × BitVec 16) (cause : Byte) (s : State) : State :=
  let p := tilePart s n
  let again := decide (mode = 1) && retakeable s p && !retakesSpent s p
  let u := unitCode (.tile n)
  let s1 := logFault u 3 cause.toNat (if again then 3 else 1) mode ids 0 s
  let ref := refOf u s1
  let s2 := fenceTile n ref (if again then implicate n s1 else s1)
  if decide (mode = 1) then retake p 0x20 ref true s2 else s2

/-- A correctable event is counted, perhaps logged, and judged. -/
def correctable (u : FaultUnit) (cause : Byte) (addr : Dword) (w : FaultWork) (s : State) : State :=
  let k := unitKey u
  let h := histOf s k
  let now := ceLasting s h
  let becomes := now && !h.run
  let mode := eventMode s u w
  let ids := workIds s (eventWork s u w)
  let d := eventDetail u cause addr
  let single := match h.logged with
    | some t => decide (ceWindow s ≤ s.clk - t)
    | none => true
  let s1 := raise faultEvent 0 (bump 0x50034 1
    (setHist k ⟨(s.clk :: h.times).take 255, if becomes || single then some s.clk else h.logged, now⟩ s))
  if becomes then
    (match u with
    | .tile n => lastingTile n mode ids cause (raise faultEvent 2 s1)
    | _ => logFault (unitCode u) 3 cause.toNat 0 mode ids d (raise faultEvent 2 s1))
  else if single then logFault (unitCode u) 1 cause.toNat 0 mode ids d s1
  else s1

/-- CORRECTABLE_EVENT (14 R400). The unit's own counter moves with the report where the event was reported by a command
before. -/
def execCorrectableEvent (u : FaultUnit) (cause : Byte) (addr : Dword) (w : FaultWork) (s : State) :
    Host.Outcome State Fault Refusal :=
  let v := homeUnit s u addr.toNat
  .next (if s.board.inReset || unitFenced s v then takeReport v true cause s
    else correctable v cause addr w
      (if reported s v true cause then takeReport v true cause s else unitCe v s))

/-! ### Uncorrectable events (14 R399, R401, R407, R408) -/

/-- An uncorrectable event of a tile: a fence in SERVICE mode or unassigned; in TAKE mode a retake, with a fence at the
retake limit of the tile. A local-store error ends a job with MEM_UNCORRECTABLE (04 R133). -/
def tileUe (n : TileIx) (cause : Byte) (mode : Nat) (ids : Word × Nat × BitVec 16) (d : Dword) (s : State) : State :=
  let u := unitCode (.tile n)
  let p := tilePart s n
  let status := if cause = 2 then 0x21 else 0x20
  let log := fun (kind action : Nat) (t : State) => logFault u kind cause.toNat action mode ids d t
  if mode ≠ 1 then
    (let t := log 2 1 s
     fenceTile n (refOf u t) t)
  else if ¬ retakeable s p then log 2 0 s
  else if retakesSpent s p then
    (let t := log 2 4 s
     retake p status (refOf u t) true t)
  else
    let t := implicate n s
    if rdf s 0x50014 3 0 ≤ (retakesOf t n).length then
      (let v := log 4 3 t
       retake p status (refOf u v) true (fenceTile n (refOf u v) v))
    else
      (let v := log 2 2 t
       retake p status (refOf u v) true v)

/-- An uncorrectable event of memory or a codec: the work that consumes the data, where the event names it, is retaken,
falls back or ends with MEM_UNCORRECTABLE (14 R402, R407; log 39). -/
def dataUe (u : FaultUnit) (cause : Byte) (mode : Nat) (ids : Word × Nat × BitVec 16) (d : Dword) (w : FaultWork) (s : State) :
    State :=
  let log := fun (action : Nat) => logFault (unitCode u) 2 cause.toNat action mode ids d s
  match w with
  | .none => log 0
  | .desc r =>
    if (chainOf s r).isSome then
      (let t := log 5
       endOwner (.chain r 0) 0x21 (refOf (unitCode u) t) t)
    else match s.items.find? (fun i => decide (i.src = .desc r)), s.jobs.find? (fun j => decide (j.ref = r) && j.running) with
      | some i, _ =>
        let t := log 4
        endItemFault i.num 0x21 (refOf (unitCode u) t) t
      | none, some j =>
        if partMode s j.part = 1 then
          (let t := log (if retakesSpent s j.part then 4 else 2)
           retake j.part 0x21 (refOf (unitCode u) t) true t)
        else
          (let t := log 4
           endJobFault j 0x21 (refOf (unitCode u) t) t)
      | none, none => log 0

/-- An uncorrectable event is counted and logged, and acts. -/
def uncorrectable (u : FaultUnit) (cause : Byte) (detail : Dword) (w : FaultWork) (s : State) : State :=
  let mode := eventMode s u w
  let ids := workIds s (eventWork s u w)
  let d := eventDetail u cause detail
  let s1 := raise faultEvent 1 (bump 0x50038 1 s)
  match u with
  | .tile n => tileUe n cause mode ids d s1
  | .hbm _ => dataUe u cause mode ids d w s1
  | .pool _ => dataUe u cause mode ids d w s1
  | .codec _ => dataUe u cause mode ids d w s1
  | .link _ => logFault (unitCode u) 2 cause.toNat 1 0xFF ids d s1
  | _ => logFault (unitCode u) 2 cause.toNat 0 0xFF ids d s1

/-- UNCORRECTABLE_EVENT (14 R401). -/
def execUncorrectableEvent (u : FaultUnit) (cause : Byte) (detail : Dword) (w : FaultWork) (s : State) :
    Host.Outcome State Fault Refusal :=
  let v := homeUnit s u detail.toNat
  .next (if s.board.inReset || unitFenced s v then takeReport v false cause s
    else uncorrectable v cause detail w
      (if reported s v false cause then takeReport v false cause s else unitUe v cause detail.toNat s))

end Sys2Proof.Machine
end

