-- ==== Sys2Proof/Machine/Packet.lean ====
section
/-! DEFINITION. Frames of the line ports: parsing, flow keys, the rewriting of DSCP and correctionField, and checksums
(10 R286–R291, R306; 02 R60, R61). A frame is its bytes from the destination address to the end of the client data, without
FCS. -/

namespace Sys2Proof.Machine

/-! ### Checksums -/

/-- Ones' complement sum of two 16-bit words. -/
def ocAdd (a b : Nat) : Nat := if 65535 < a + b then a + b - 65535 else a + b

/-- Ones' complement sum of `n` 16-bit words from offset `o`. -/
def ocSum (f : List Byte) : Nat → Nat → Nat
  | _, 0 => 0
  | o, n + 1 => ocAdd (beAt f o 2) (ocSum f (o + 2) n)

/-- A checksum after a word under it has changed from `old` to `new`. -/
def ckUpdate (ck old new : Nat) : Nat := 65535 - ocAdd (ocAdd (65535 - ck) (65535 - old)) new

/-- A checksum after the words at the given offsets have changed between two frames. -/
def ckUpdates (f g : List Byte) : List Nat → Nat → Nat
  | [], ck => ck
  | o :: os, ck => ckUpdates f g os (if beAt f o 2 = beAt g o 2 then ck else ckUpdate ck (beAt f o 2) (beAt g o 2))

/-- The checksum of a UDP header at `u` brought up to date with words changed from `f` to `g`: 0 is written as 0xFFFF. -/
def udpFix (u : Nat) (os : List Nat) (f g : List Byte) : List Byte :=
  let ck := ckUpdates f g os (beAt f (u + 6) 2)
  putAt g (u + 6) (beBytes 2 (if ck = 0 then 65535 else ck))

/-! ### Headers (10 R287–R289) -/

/-- Bytes that parsing reads (R288). -/
def parseLimit : Nat := 256

/-- Whether `n` bytes at `a` lie in a packet that ends at `stop`, and within what parsing reads. -/
inductive Reach where
  | here
  /-- the packet ends first -/
  | past
  /-- the limit of R288 cuts it -/
  | cut
  deriving DecidableEq, Repr

def reach (f : List Byte) (a n stop : Nat) : Reach :=
  if stop < a + n then .past else if min f.length parseLimit < a + n then .cut else .here

/-- An IP header. -/
structure IpHdr where
  v6 : Bool
  src : List Byte
  dst : List Byte
  proto : Nat
  ttl : Nat
  tos : Nat
  /-- IP length, header included -/
  len : Nat
  frag : Bool
  /-- the extension chain is cut: no L4 header is reached -/
  cutChain : Bool
  /-- the limit of R288 cut it -/
  trunc : Bool
  /-- offset of the header, of what follows it, and of the end of the packet -/
  off : Nat
  l4 : Nat
  stop : Nat
  deriving DecidableEq, Repr

/-- An IP header read at an offset. -/
inductive IpRead where
  | ok (h : IpHdr)
  | malformed
  /-- not complete: by the limit of R288, or by the end of the packet -/
  | short (trunc : Bool)
  deriving DecidableEq, Repr

def byteAt (f : List Byte) (a : Nat) : Nat := leAt f a 1

/-- Extension headers of R287. -/
def isExt (p : Nat) : Bool := decide (p = 0) || decide (p = 43) || decide (p = 44) || decide (p = 51) || decide (p = 60)

/-- The extension chain from next-header code `nh` at `p`, `n` headers still allowed; none where it runs past them: code,
offset, fragment, cut, cut by the limit. -/
def extChain (f : List Byte) (stop : Nat) : Nat → Nat → Nat → Option (Nat × Nat × Bool × Bool × Bool)
  | 0, nh, p => if isExt nh then none else some (nh, p, false, false, false)
  | n + 1, nh, p =>
    if !isExt nh then some (nh, p, false, false, false)
    else match reach f p (if nh = 44 then 8 else 2) stop with
      | .past => some (nh, p, false, true, false)
      | .cut => some (nh, p, false, true, true)
      | .here =>
        if nh = 44 then
          (if beAt f (p + 2) 2 / 8 ≠ 0 ∨ beAt f (p + 2) 2 % 2 = 1 then some (byteAt f p, p + 8, true, false, false)
          else extChain f stop n (byteAt f p) (p + 8))
        else extChain f stop n (byteAt f p) (p + (if nh = 51 then 4 * (byteAt f (p + 1) + 2) else 8 * (byteAt f (p + 1) + 1)))

/-- An IPv6 header at `o`. -/
def ip6Read (f : List Byte) (o stop : Nat) : IpRead :=
  match reach f o 40 stop with
  | .past => .short false
  | .cut => .short true
  | .here =>
    let len := 40 + beAt f (o + 4) 2
    if byteAt f o / 16 ≠ 6 ∨ f.length < o + len then .malformed
    else match extChain f (o + len) 4 (byteAt f (o + 6)) (o + 40) with
      | none => .malformed
      | some (nh, p, frag, cutChain, trunc) =>
        .ok { v6 := true, src := (f.drop (o + 8)).take 16, dst := (f.drop (o + 24)).take 16, proto := nh,
              ttl := byteAt f (o + 7), tos := beAt f o 2 / 16 % 256, len, frag, cutChain, trunc, off := o, l4 := p, stop := o + len }

/-- An IPv4 address in the mapped form. -/
def mapped (bs : List Byte) : List Byte := zeros 10 ++ [0xFF, 0xFF] ++ bs

/-- An IPv4 header at `o`. -/
def ip4Read (f : List Byte) (o stop : Nat) : IpRead :=
  match reach f o 20 stop with
  | .past => .short false
  | .cut => .short true
  | .here =>
    let hl := 4 * (byteAt f o % 16)
    let len := beAt f (o + 2) 2
    if byteAt f o / 16 ≠ 4 ∨ hl < 20 ∨ f.length < o + len ∨ len < hl then .malformed
    else match reach f o hl stop with
      | .past => .short false
      | .cut => .short true
      | .here =>
        if ocSum f o (hl / 2) ≠ 65535 then .malformed
        else
          .ok { v6 := false, src := mapped ((f.drop (o + 12)).take 4), dst := mapped ((f.drop (o + 16)).take 4),
                proto := byteAt f (o + 9), ttl := byteAt f (o + 8), tos := byteAt f (o + 1), len,
                frag := decide (beAt f (o + 6) 2 % 16384 ≠ 0), cutChain := false, trunc := false, off := o, l4 := o + hl,
                stop := o + len }

def ipRead (v6 : Bool) (f : List Byte) (o stop : Nat) : IpRead := if v6 then ip6Read f o stop else ip4Read f o stop

/-- What lies behind an IP header: ports or what stands for them, TCP flags. -/
structure L4 where
  sport : Nat := 0
  dport : Nat := 0
  flags : Nat := 0
  /-- an ICMP echo: its identifier is `dport` -/
  echo : Bool := false
  /-- the limit of R288 cut it -/
  trunc : Bool := false
  deriving DecidableEq, Repr

/-- The L4 header behind an IP header; none: malformed. -/
def l4Read (f : List Byte) (h : IpHdr) : Option L4 :=
  let p := h.l4
  let need := fun (n : Nat) => reach f p n h.stop
  if h.frag ∨ h.cutChain then some { trunc := h.trunc }
  else if h.proto = 6 ∨ h.proto = 17 ∨ h.proto = 132 then
    (if need 4 ≠ .here then some { trunc := decide (need 4 = .cut) }
    else
      let q : L4 := { sport := beAt f p 2, dport := beAt f (p + 2) 2 }
      if h.proto ≠ 6 then some q
      else if need 14 ≠ .here then some { q with trunc := decide (need 14 = .cut) }
      else if byteAt f (p + 12) / 16 < 5 then none
      else some { q with flags := byteAt f (p + 13) })
  else if h.proto = (if h.v6 then 58 else 1) then
    (if need 2 ≠ .here then some { trunc := decide (need 2 = .cut) }
    else
      let t := byteAt f p
      if (h.v6 = true ∧ (t = 128 ∨ t = 129)) ∨ (h.v6 = false ∧ (t = 8 ∨ t = 0)) then
        (if need 6 ≠ .here then some { trunc := decide (need 6 = .cut) }
        else some { dport := beAt f (p + 4) 2, echo := true })
      else some { sport := 256 * t + byteAt f (p + 1) })
  else if h.proto = 50 then
    (if need 4 ≠ .here then some { trunc := decide (need 4 = .cut) }
    else some { sport := beAt f p 2, dport := beAt f (p + 2) 2 })
  else some {}

/-! ### Tunnels (10 R287) -/

/-- A packet inside a tunnel: kind, VNI or TEID, IP version and offset of the inner header. -/
structure Inner where
  kind : Nat
  id : Nat
  v6 : Bool
  off : Nat
  deriving DecidableEq, Repr

/-- What is found in a tunnel. -/
inductive InnerRead where
  | ok (i : Inner)
  /-- nothing to open: the outer packet is keyed; whether the limit of R288 is why -/
  | closed (trunc : Bool)
  deriving DecidableEq, Repr

/-- An inner Ethernet header with at most one tag. -/
def innerEth (f : List Byte) (stop kind id e : Nat) : InnerRead :=
  match reach f e 14 stop with
  | .past => .closed false
  | .cut => .closed true
  | .here =>
    let tag := decide (beAt f (e + 12) 2 = 0x8100)
    match reach f e (if tag then 18 else 14) stop with
    | .past => .closed false
    | .cut => .closed true
    | .here =>
      let o := if tag then e + 18 else e + 14
      let et := beAt f (o - 2) 2
      if et = 0x0800 ∨ et = 0x86DD then .ok ⟨kind, id, decide (et = 0x86DD), o⟩ else .closed false

/-- GTP-U extension headers from code `nxt` at `e`, `n` of them still allowed. -/
def gtpExt (f : List Byte) (stop id : Nat) : Nat → Nat → Nat → InnerRead
  | 0, nxt, e => if nxt = 0 then gtpInner e else .closed false
  | n + 1, nxt, e =>
    if nxt = 0 then gtpInner e
    else match reach f e 1 stop with
      | .past => .closed false
      | .cut => .closed true
      | .here =>
        let ln := 4 * byteAt f e
        match reach f e ln stop with
        | .past => .closed false
        | .cut => .closed true
        | .here => if ln = 0 then .closed false else gtpExt f stop id n (byteAt f (e + ln - 1)) (e + ln)
where
  gtpInner (e : Nat) : InnerRead := match reach f e 1 stop with
    | .past => .closed false
    | .cut => .closed true
    | .here =>
      if byteAt f e / 16 = 4 ∨ byteAt f e / 16 = 6 then .ok ⟨3, id, decide (byteAt f e / 16 = 6), e⟩ else .closed false

/-- The tunnel of kind `k` behind the UDP header at `u`. -/
def innerRead (f : List Byte) (stop k u : Nat) : InnerRead :=
  let q := u + 8
  match reach f q 8 stop with
  | .past => .closed false
  | .cut => .closed true
  | .here =>
    if k = 1 then (if (byteAt f q).testBit 3 then innerEth f stop 1 (beAt f (q + 4) 3) (q + 8) else .closed false)
    else if k = 2 then
      (let e := q + 8 + 4 * (byteAt f q % 64)
       let pt := beAt f (q + 2) 2
       if 64 ≤ byteAt f q then .closed false
       else if pt = 0x6558 then innerEth f stop 2 (beAt f (q + 4) 3) e
       else if pt = 0x0800 ∨ pt = 0x86DD then .ok ⟨2, beAt f (q + 4) 3, decide (pt = 0x86DD), e⟩
       else .closed false)
    else if byteAt f q / 16 ≠ 3 ∨ byteAt f (q + 1) ≠ 255 then .closed false
    else if byteAt f q % 8 = 0 then gtpExt f stop (beAt f (q + 4) 4) 4 0 (q + 8)
    else match reach f (q + 8) 4 stop with
      | .past => .closed false
      | .cut => .closed true
      | .here => gtpExt f stop (beAt f (q + 4) 4) 4 (if (byteAt f q).testBit 2 then byteAt f (q + 11) else 0) (q + 12)

/-! ### Frames (10 R286, R287) -/

/-- A packet that is keyed. -/
structure Pkt where
  vid : Nat
  ip : IpHdr
  l4 : L4
  tunnel : Nat
  tunnelId : Nat
  /-- the outer UDP header -/
  udp : Option Nat
  deriving DecidableEq, Repr

/-- What a frame is. -/
inductive Parsed where
  | nonIp
  /-- PTP: offsets of its header and of the UDP header before it, and whether that lies on IPv6; the packet where it is IP -/
  | ptp (at_ : Nat) (udp : Option (Nat × Bool)) (pkt : Option Pkt)
  | malformed
  | ip (p : Pkt)
  deriving DecidableEq, Repr

/-- Kind of tunnel that a UDP destination port names: FLOWFRONT.UDP_PORTS, and 2152 (R287). -/
def tunnelKind (s : State) (dport : Nat) : Nat :=
  if dport = rdf s 0x60024 15 0 then 1 else if dport = rdf s 0x60024 31 16 then 2 else if dport = 2152 then 3 else 0

/-- The packet inside the tunnel of an outer packet, where it is opened; whether the limit of R288 cut the parsing. -/
def openTunnel (f : List Byte) (outer : Pkt) (k : Nat) : Parsed × Bool :=
  match innerRead f outer.ip.stop k outer.ip.l4 with
  | .closed t => (.ip outer, t)
  | .ok i => match ipRead i.v6 f i.off outer.ip.stop with
    | .short t => (.ip outer, t)
    | .malformed => (.malformed, false)
    | .ok h => match l4Read f h with
      | none => (.malformed, false)
      | some l => (.ip { vid := outer.vid, ip := h, l4 := l, tunnel := k, tunnelId := i.id, udp := some outer.ip.l4 }, l.trunc)

/-- An IP packet at `o` of a frame. -/
def parseIp (s : State) (f : List Byte) (vid : Nat) (v6 : Bool) (o : Nat) : Parsed × Bool :=
  match ipRead v6 f o f.length with
  | .malformed => (.malformed, false)
  | .short t => (.malformed, t)
  | .ok h => match l4Read f h with
    | none => (.malformed, false)
    | some l =>
      let p : Pkt := { vid, ip := h, l4 := l, tunnel := 0, tunnelId := 0, udp := none }
      if h.proto = 17 ∧ h.frag = false ∧ h.cutChain = false ∧ reach f h.l4 4 h.stop = .here then
        (if l.dport = 319 ∨ l.dport = 320 then (.ptp (h.l4 + 8) (some (h.l4, v6)) (some p), l.trunc)
        else if tunnelKind s l.dport = 0 then (.ip p, l.trunc)
        else openTunnel f p (tunnelKind s l.dport))
      else (.ip p, l.trunc)

/-- Offset behind the tags, the EtherType there, and the first tag's VID; none for a form that R287 does not list. -/
def l2Read (f : List Byte) : Option (Nat × Nat × Nat) :=
  let t0 := beAt f 12 2
  if f.length < 14 then none
  else if t0 = 0x8100 ∧ 18 ≤ f.length then some (18, beAt f 16 2, beAt f 14 2 % 4096)
  else if t0 = 0x88A8 ∧ 22 ≤ f.length ∧ beAt f 16 2 = 0x8100 then some (22, beAt f 20 2, beAt f 14 2 % 4096)
  else some (14, t0, 0)

/-- Parse a frame; whether the limit of R288 cut the parsing. -/
def parseFrame (s : State) (f : List Byte) : Parsed × Bool :=
  match l2Read f with
  | none => (.nonIp, false)
  | some (o, et, vid) =>
    if et = 0x88F7 then (.ptp o none none, false)
    else if et = 0x0800 then parseIp s f vid false o
    else if et = 0x86DD then parseIp s f vid true o
    else (.nonIp, false)

/-! ### Keys (10 R290) -/

/-- An endpoint as a number: address and port. -/
def endpoint (a : List Byte) (p : Nat) : Nat := 65536 * beNat a + p

/-- The sender is endpoint A. -/
def senderIsA (p : Pkt) : Bool :=
  if p.l4.echo then decide (beNat p.ip.src ≤ beNat p.ip.dst)
  else decide (endpoint p.ip.src p.l4.sport ≤ endpoint p.ip.dst p.l4.dport)

/-- The 44 bytes of a key. -/
def keyBytes (addrA addrB : List Byte) (portA portB proto : Nat) (v6 : Bool) (tunnel : Nat) (frag : Bool) (vid id : Nat) :
    List Byte :=
  addrA ++ addrB ++ beBytes 2 portA ++ beBytes 2 portB ++
    leBytes 1 proto ++ leBytes 1 (bnat v6 + 2 * tunnel + 8 * bnat frag) ++ leBytes 2 vid ++ beBytes 4 id

/-- The key of a packet. An echo gives port 0 to A and the identifier to B, so that both directions reach one record. -/
def pktKey (p : Pkt) : List Byte :=
  let k := fun a b pa pb => keyBytes a b pa pb p.ip.proto p.ip.v6 p.tunnel p.ip.frag p.vid p.tunnelId
  if senderIsA p then k p.ip.src p.ip.dst p.l4.sport p.l4.dport
  else if p.l4.echo then k p.ip.dst p.ip.src 0 p.l4.dport
  else k p.ip.dst p.ip.src p.l4.dport p.l4.sport

/-- A key that the host gives, in canonical order (10 R312). -/
def canonKey (k : List Byte) : List Byte :=
  if endpoint (k.take 16) (beAt k 32 2) ≤ endpoint ((k.drop 16).take 16) (beAt k 34 2) then k
  else (k.drop 16).take 16 ++ k.take 16 ++ (k.drop 34).take 2 ++ (k.drop 32).take 2 ++ k.drop 36

/-! ### Rewriting (10 R306; 02 R60, R61) -/

/-- MARK: the DSCP of the IP header at `o`, and the checksums over it. -/
def markFrame (o : Nat) (udp : Option Nat) (dscp : Nat) (f : List Byte) : List Byte :=
  let v6 := decide (byteAt f o / 16 = 6)
  let w := beAt f o 2
  let tos := if v6 then w / 16 % 256 else w % 256
  let new := 4 * dscp + tos % 4
  if new = tos then f
  else
    let g := putAt f o (beBytes 2 (if v6 then w / 4096 * 4096 + new * 16 + w % 16 else w / 256 * 256 + new))
    let g := if v6 then g else putAt g (o + 10) (beBytes 2 (ckUpdates f g [o] (beAt f (o + 10) 2)))
    match udp with
    | none => g
    | some u => if beAt f (u + 6) 2 = 0 then g else udpFix u (if v6 then [o] else [o, o + 10]) f g

/-- The correctionField of the PTP header at `o` takes a residence time, in 2^-16 ns. -/
def correctFrame (o : Nat) (udp : Option (Nat × Bool)) (residence : Int) (f : List Byte) : List Byte :=
  let v : Int := min (2 ^ 63 - 1) (signedOf 64 (beAt f (o + 8) 8) + residence)
  let g := putAt f (o + 8) (beBytes 8 (BitVec.ofInt 64 v).toNat)
  match udp with
  | none => g
  | some (u, v6) => if beAt f (u + 6) 2 = 0 ∧ v6 = false then g else udpFix u [o + 8, o + 10, o + 12, o + 14] f g

/-- The FCS of a frame as sent: recomputed, and inverted where the frame came with a bad one (02 R61). -/
def fcsBytes (bad : Bool) (f : List Byte) : List Byte := leBytes 4 (if bad then crc32 f ^^^ 0xFFFFFFFF else crc32 f)

end Sys2Proof.Machine
end

