-- ==== Sys2Proof/Machine/Flow.lean ====
section
/-! DEFINITION. The line ports and the flow front: reception, the flow table, triggers and requests, holds and verdicts, the
sweeper and FLOW_VERDICT_SET (10 R283–R312, R321; 12 R353, R354). -/

namespace Sys2Proof.Machine

/-! ### Line ports (10 R283, R284, R307, R321) -/

/-- Register `o` of line port `k`. -/
def lineReg (k o : Nat) : Nat := 0xC0100 + 0x20 * k + o

/-- The partner port. -/
def partner (k : Nat) : Nat := k ^^^ 1

/-- FLOWFRONT.MIRROR_CFG. -/
def mirrorEn (s : State) : Bool := rdb s 0x60028 3
def mirrorPort (s : State) : Nat := rdf s 0x60028 2 0

/-- A frame leaves by a port. -/
def sendFrame (k : Nat) (bad : Bool) (f : List Byte) (s : State) : State :=
  emit (.lineTx k (f ++ fcsBytes bad f)) (bump (lineReg k 0xC) 1 s)

/-- Where the correctionField of a Sync or Delay_Req of a frame lies, outside any tunnel (02 R60). -/
def tcAt (s : State) (f : List Byte) : Option (Nat × Option (Nat × Bool)) := match (parseFrame s f).1 with
  | .ptp o u _ => if byteAt f o % 16 ≤ 1 ∧ o + 16 ≤ f.length then some (o, u) else none
  | _ => none

/-- Residence time of a frame from port `k` to port `e`, in 2^-16 ns: from its arrival, with whatever it was held, and the board
delays of both ports, on which lies the transit of the device, a free value (02 R56, R60; log 1). -/
def residence (s : State) (k e arrived : Nat) : Int :=
  let transit : Int := ((freshVal s).toNat % 2 ^ 63 : Nat)
  let held : Int := (nowUnits s : Int) - arrived
  let u : Int := 1000 * (held + transit) + ((rxDelay s k + txDelay s e : Nat) : Int) * unitsNs
  if 0 ≤ u then (nearest u.toNat (1000 * 2 ^ 26) : Int) else -(nearest u.natAbs (1000 * 2 ^ 26) : Int)

/-- A frame that reached port `k` at `arrived` is forwarded to its partner, with the correction of R60. A partner that is idle or
mirrors sends nothing. -/
def forward (k : Nat) (bad : Bool) (f : List Byte) (arrived : Nat) (s : State) : State :=
  let e := partner k
  if lineOn s e = false ∨ (mirrorEn s = true ∧ mirrorPort s = e) then s
  else match (if rdb s 0x200F0 k then tcAt s f else none) with
    | none => sendFrame e bad f s
    | some (o, u) => sendFrame e bad (correctFrame o u (residence s k e arrived) f) (useFree s)

/-- A frame is forwarded as it arrives. -/
def forwardNow (k : Nat) (bad : Bool) (f : List Byte) (s : State) : State := forward k bad f (nowUnits s) s

/-- The unscored-traffic policy (R284). -/
def unscoredPolicy (k : Nat) (bad : Bool) (f : List Byte) (s : State) : State :=
  if rdb s 0xC0000 2 then forwardNow k bad f (bump (lineReg k 0x10) 1 s) else bump (lineReg k 0x14) 1 s

/-- Bits waiting for the mirror port: they leave at the port's rate (log 69). -/
def mirrorLevel (s : State) : Nat := s.flow.mirrorBits - (s.clk - s.flow.mirrorAt) * (125 * 2 ^ rdf s 0xC0000 1 0)

/-- A copy to the mirror port, whose queue holds 256 KiB (R307). -/
def mirrorCopy (f : List Byte) (s : State) : State :=
  let n := mirrorLevel s + 8 * (f.length + 4)
  if mirrorEn s = false then bump 0x6083C 1 s
  else if lineOn s (mirrorPort s) = false ∨ 8 * 262144 < n then bump 0x60838 1 s
  else sendFrame (mirrorPort s) false f { s with flow := { s.flow with mirrorBits := n, mirrorAt := s.clk } }

/-! ### Packets under a verdict or without one (10 R302–R306) -/

/-- A flow record with new bytes. -/
def updRec (i : Nat) (g : List Byte → List Byte) (s : State) : State := setFlowRec i (g (flowRec s i)) s

/-- A packet is treated under the standing verdict of record `i`. -/
def treat (i : Nat) (p : HeldPkt) (s : State) : State :=
  let w := frVerdict (flowRec s i)
  if w % 8 = 1 then s
  else if w % 8 = 2 then forward p.port false (markFrame p.ipOff p.outerUdp (w / 256 % 64) p.frame) p.arrived s
  else if w % 8 = 3 then forward p.port false p.frame p.arrived (mirrorCopy p.frame s)
  else forward p.port false p.frame p.arrived s

/-- CEIL_DROP of the record's policy. -/
def ceilDrop (s : State) (i : Nat) : Bool := polCeilDrop s (frPolicy (flowRec s i))

/-- A packet of a flow without a verdict: forwarded or discarded as CEIL_DROP says. -/
def treatLate (i : Nat) (p : HeldPkt) (s : State) : State :=
  let x := flowX s i
  let t := setFlowX i { x with treated := x.treated + 1 } s
  if ceilDrop s i then t else forward p.port false p.frame p.arrived t

def treatAll (i : Nat) : List HeldPkt → State → State
  | [], s => s
  | p :: ps, s => treatAll i ps (treat i p s)

def treatLateAll (i : Nat) : List HeldPkt → State → State
  | [], s => s
  | p :: ps, s => treatLateAll i ps (treatLate i p s)

/-! ### Holds (10 R302, R303) -/

/-- 256-byte cells that a packet takes. -/
def pktCells (p : HeldPkt) : Nat := ceilDiv (p.frame.length + 4) 256

/-- Cells of the hold buffer. -/
def holdCells (s : State) : Nat := rdf s 0x60018 10 0 * 4096

/-- What keeps a packet from being held. -/
inductive NoRoom where
  | pkts | buffer
  deriving DecidableEq, Repr

def holdRoom (s : State) (i : Nat) (p : HeldPkt) : Option NoRoom :=
  let x := flowX s i
  if polHoldPkts s (frPolicy (flowRec s i)) < x.held.length + 1 then some .pkts
  else if holdCells s < s.flow.cells + pktCells p then some .buffer
  else none

/-- A packet is held. -/
def holdPkt (i : Nat) (p : HeldPkt) (s : State) : State :=
  let x := flowX s i
  let t := setFlowX i { x with held := x.held ++ [p] } s
  updRec i (fun r => frSetHoldCount (x.held.length + 1) (frSetBit 44 2 true r))
    { t with flow := { t.flow with cells := t.flow.cells + pktCells p } }

/-- No packet of the record is held any more. -/
def clearHold (i : Nat) (s : State) : State :=
  let x := flowX s i
  let t := setFlowX i { x with held := [] } s
  updRec i (fun r => frSetHoldCount 0 (frSetBit 44 2 false r))
    { t with flow := { t.flow with cells := t.flow.cells - (x.held.map pktCells).sum } }

/-- The end of a hold without a verdict is counted. -/
def countHoldEnd (i : Nat) (why : Option NoRoom) (s : State) : State :=
  if why = some .buffer then raise flowEvent 1 (bump 0x60814 1 s)
  else bump (if ceilDrop s i then 0x60810 else 0x6080C) 1 s

/-- A hold ends without a verdict: held packets, and the one arriving, are treated as CEIL_DROP says; the request stays queued. -/
def endHoldLate (i : Nat) (arriving : List HeldPkt) (why : Option NoRoom) (s : State) : State :=
  let pkts := (flowX s i).held ++ arriving
  let t := treatLateAll i pkts (updRec i (frSetBit 44 3 true) (countHoldEnd i why (clearHold i s)))
  let x := flowX t i
  setFlowX i { x with late := x.request.isSome, lost := false,
                      treated := if x.lost && x.request.isNone then 0 else x.treated } t

/-- A hold ends by a verdict, which has been set: held packets are treated under it. -/
def releaseHold (i : Nat) (s : State) : State :=
  let pkts := (flowX s i).held
  treatAll i pkts (clearHold i s)

/-- A hold starts at its trigger packet; without room for that it ends at once. -/
def startHold (i : Nat) (p : HeldPkt) (s : State) : State :=
  let t := setFlowX i { flowX s i with holdAt := s.clk, treated := 0, lost := false } s
  match holdRoom t i p with
  | none => holdPkt i p t
  | some why => endHoldLate i [p] (some why) t

/-- A packet arrives during a hold. -/
def addHold (i : Nat) (p : HeldPkt) (s : State) : State := match holdRoom s i p with
  | none => holdPkt i p s
  | some why => endHoldLate i [p] (some why) s

/-! ### Scoring requests (10 R301, R308, R310; 12 R353–R355) -/

/-- The model that a MODEL_ID names, where it is loaded in a SCORE partition. -/
def scoreModel (s : State) (id : Nat) : Option Loaded := match modelOf s id with
  | some l => if partKind s l.part = 2 then some l else none
  | none => none

/-- Items of a class that wait in a partition's queue. -/
def queueLen (s : State) (p c : Nat) : Nat :=
  (s.items.filter fun i => decide (i.part = p) && decide (i.cls = c) && i.on.isNone).length

/-- FLOW_OBSERVE requests that wait for a loaded model. -/
def backlog (s : State) (l : Loaded) : Nat :=
  (s.items.filter fun i => decide (i.image = l.num) && decide (i.cls = 2) && i.on.isNone).length

/-- Sampling under backlog (R310): which request of a group of OBS_SAMPLE is queued is a free value (log 62). Whether this one
is, and the state after. -/
def sampleObserve (l : Loaded) (s : State) : Bool × State :=
  let put := fun (v : Nat) (t : State) => { t with flow := { t.flow with sampled := tabSet (fun _ => 0) t.flow.sampled l.num v } }
  if backlog s l ≤ rdf s 0x60020 15 0 then (true, put 0 s)
  else
    let n := max 1 (rdf s 0x60020 31 16)
    let e := tabGet (fun _ => 0) s.flow.sampled l.num
    let pos := if e = 0 then (freshVal s).toNat % n else e % 65536
    let t := if e = 0 then useFree s else s
    let j := e / 65536
    (decide (j = pos), put (if j + 1 < n then 65536 * (j + 1) + pos else 0) t)

/-- How a request fared. -/
inductive Enq where
  | queued | full | sampledOut
  deriving DecidableEq, Repr

/-- An item is added to its queue. -/
def pushItem (src : ItemSrc) (c : Nat) (l : Loaded) (total : Nat) (input : List Byte) (s : State) : State :=
  let i : Item :=
    { num := s.nextItem, src, cls := c, image := l.num, part := l.part, total, done := 0, on := none, input, out := [],
      parkedAt := none, leaving := none, sagTold := false }
  peakDepth c { s with items := s.items ++ [i], nextItem := s.nextItem + 1 }

/-- A FLOW_GATE or FLOW_OBSERVE request for a model. -/
def enqueue (src : ItemSrc) (c : Nat) (l : Loaded) (total : Nat) (input : List Byte) (s : State) : Enq × State :=
  let a := if c = 2 then sampleObserve l s else (true, s)
  if a.1 = false then (.sampledOut, raise flowEvent 2 (bump 0x6081C 1 a.2))
  else if 16384 ≤ queueLen a.2 l.part c then (.full, bump (0x30480 + 4 * c) 1 a.2)
  else (.queued, pushItem src c l total input (if c = 2 then bump 0x60818 1 a.2 else a.2))

/-- A GATE request that ends without a verdict: its hold ends as at its ceiling, UNSCORED is set, and its record is written
with the given PROGRESS, else the packets treated. -/
def gateFail (i low : Nat) (progress : Option Nat) (s : State) : State :=
  let s1 := if frHeld (flowRec s i) then endHoldLate i [] none s else s
  let s2 := updRec i (frSetBit 44 3 true) s1
  let s3 := flowRecordEvent i 1 (okStatus false false s2) (unscoredDisp (ceilDrop s2 i)) (progress.getD (flowX s2 i).treated) low 0 s2
  setFlowX i { flowX s3 i with treated := 0, late := false, lost := false } s3

/-- A trigger of kind `trig` for record `i`, raised by a packet or by the sweeper. -/
def trigger (i trig : Nat) (byPkt : Bool) (s : State) : State :=
  let r := flowRec s i
  let pol := frPolicy r
  let c := flowClass s pol
  if (flowX s i).request.isSome then bump 0x60820 1 s
  else match scoreModel s (polModel s pol) with
    | none =>
      let low := 0xFE * 2 ^ 24 + 16 * trig
      if c = 1 then gateFail i low none s else flowRecordEvent i 2 (okStatus false false s) 4 0 low 0 s
    | some l =>
      let k := s.nextItem
      match enqueue (.flow i trig) c l 1 (featureBytes r trig) s with
      | (.queued, t) => setFlowX i { flowX t i with request := some k } t
      | (_, t) =>
        if c = 1 then gateFail i 0 (some (if frHeld r then (flowX t i).held.length else bnat byPkt)) t
        else flowRecordEvent i 2 (okStatus false false t) 5 0 0 0 t

/-! ### Verdicts (10 R303, R305–R308) -/

/-- A valid verdict word of a model, with its TRIGGER, is applied to record `i`; a sticky verdict stands, and the hold ends
under it. -/
def applyVerdict (i c w trig : Nat) (s : State) : State :=
  let x := flowX s i
  let r := flowRec s i
  let s1 := updRec i (fun r => frSetBit 44 3 false (if frSticky r then r else frSetVerdict (verdictResult w trig false) r)) s
  let n := x.held.length
  let s2 := if frHeld r then releaseHold i s1 else s1
  let low := verdictResult w trig false
  let s3 := if x.late then flowRecordEvent i c (okStatus false false s2) (unscoredDisp (ceilDrop s2 i)) x.treated low 0 s2
    else flowRecordEvent i c (okStatus false false s2) 0 (if c = 1 then n else 0) low 0 s2
  setFlowX i { flowX s3 i with request := none, late := false, treated := 0, lost := false } s3

/-- Disposition and PROGRESS of a request whose record is gone: those of a hold that ended without a verdict, where its hold did
(R303). -/
def orphanEnd (s : State) (k disp : Nat) : Nat × Nat := match orphanOf s k with
  | some o => if o.late then (unscoredDisp (polCeilDrop s (frPolicy o.bytes)), o.treated) else (disp, 0)
  | none => (disp, 0)

/-- CEIL_DROP of the policy of request `k` of record `i`. -/
def requestDrop (s : State) (i k : Nat) : Bool := match orphanOf s k with
  | some o => polCeilDrop s (frPolicy o.bytes)
  | none => ceilDrop s i

/-- A word that is no verdict (R305): counted; a GATE request ends as at its ceiling with REASON 0xFF. -/
def invalidVerdict (i k c trig : Nat) (alive : Bool) (s : State) : State :=
  let s1 := raise flowEvent 3 (bump 0x60824 1 s)
  let low := 0xFF * 2 ^ 24 + 16 * trig
  let s2 := if alive then setFlowX i { flowX s1 i with request := none, late := false } s1 else s1
  if c = 1 ∧ alive = true then gateFail i low none s2
  else
    let e := orphanEnd s2 k (unscoredDisp (requestDrop s2 i k))
    requestRecord k i c (okStatus false false s2) e.1 e.2 low 0 s2

/-- The model's word for the request of item `k` of record `i` is presented. A request whose record was freed meanwhile only
writes its record. -/
def presentVerdict (i k c w trig : Nat) (s : State) : State :=
  let alive := decide ((flowX s i).request = some k)
  if verdictOk w = false then invalidVerdict i k c trig alive s
  else if alive then applyVerdict i c w trig s
  else
    let e := orphanEnd s k 0
    requestRecord k i c (okStatus false false s) e.1 e.2 (verdictResult w trig false) 0 s

/-- FLOW_VERDICT: the word for the outstanding request of a record. -/
def execFlowVerdict (rec : Nat) (word : Word) (s : State) : Host.Outcome State Fault Refusal :=
  .next (match (flowX s rec).request with
    | none => s
    | some k => match itemOf s k with
      | none => s
      | some i => match i.src with
        | .flow _ trig => presentVerdict rec k i.cls word.toNat trig (dropItem k (stopItem i s))
        | _ => s)

/-- HOLD_CEILING: HOLD_US after the trigger packet. -/
def execHoldCeiling (rec : Nat) (s : State) : Host.Outcome State Fault Refusal :=
  .next (if frHeld (flowRec s rec) && decide ((flowX s rec).held ≠ []) then
      endHoldLate rec [] none (runToClk ((flowX s rec).holdAt + polHoldUs s (frPolicy (flowRec s rec)) * ticksUs) s)
    else s)

/-! ### The flow table (10 R292–R297) -/

/-- Records of a bucket. -/
def bucketRecs (b : Nat) : List Nat := (List.range 8).map fun w => 8 * b + w

/-- The record of a key. -/
def findRec (s : State) (b : Nat) (key : List Byte) : Option Nat :=
  (bucketRecs b).find? fun i => decide ((flowRec s i).take 44 = key) && decide (frState (flowRec s i) ≠ 0)

/-- The ENDED way, not held, whose last packet is oldest. -/
def oldestEnded (s : State) : List Nat → Option Nat
  | [] => none
  | i :: is =>
    let here := decide (frState (flowRec s i) = 2) && !frHeld (flowRec s i)
    match oldestEnded s is with
    | none => if here then some i else none
    | some j => if here && decide ((flowX s i).lastClk ≤ (flowX s j).lastClk) then some i else some j

/-- The way that a new record takes. -/
def freeWay (s : State) (b : Nat) : Option Nat :=
  match (bucketRecs b).find? fun i => decide (frState (flowRec s i) = 0) with
  | some i => some i
  | none => oldestEnded s (bucketRecs b)

/-- A new OPEN record without packets. -/
def newRec (i : Nat) (key : List Byte) (policy : Nat) (s : State) : State :=
  let r := key ++ leBytes 1 1 ++ leBytes 1 policy ++ zeros 6 ++ leBytes 4 (mainCounter s).sec.toNat ++
    leBytes 4 (mainCounter s).ns.toNat ++ zeros 64 ++ leBytes 4 (1024 * polEveryM s policy)
  bump 0x60800 1 (setFlowRec i r
    (setFlowX i { firstAt := nowUnits s, lastAt := nowUnits s, lastClk := s.clk } (orphanRec i s)))

/-- PSEL_j (R299). -/
def pselMatch (s : State) (port vid tunnel j : Nat) : Bool :=
  let w := 0x60100 + 4 * j
  rdb s w 31 && rdb s w port && (rdb s w 20 || decide (rdf s w 19 8 = vid)) && rdb s w (21 + tunnel)

/-- The policy of a new record. -/
def policyFor (s : State) (port vid tunnel : Nat) : Nat := match (List.range 16).find? (pselMatch s port vid tunnel) with
  | some j => rdf s (0x60100 + 4 * j) 28 25
  | none => 0

/-- A counter field of `n` bytes rises, saturating. -/
def satAdd (o n v : Nat) (r : List Byte) : List Byte := putAt r o (leBytes n (min (2 ^ (8 * n) - 1) (leAt r o n + v)))

/-- ⌊4 · log2(1 + µs)⌋, saturating at 255. -/
def iatCode (us : Nat) : Nat := min 255 (Nat.log2 ((1 + us) ^ 4))

/-- What a packet changes in a record's packet statistics (R294); `b`: it came from B; `iat`: µs since the packet before. -/
def recStats (b : Bool) (p : Pkt) (iat : Nat) (r : List Byte) : List Byte :=
  let n := frPktsA r + frPktsB r
  let k := bnat b
  let len := p.ip.len
  let r1 := if leAt r (64 + 4 * k) 4 = 0 then putAt (putAt r (120 + k) (leBytes 1 p.ip.ttl)) (122 + k) (leBytes 1 (p.ip.tos / 4)) else r
  let r2 := if n < 8 then
      putAt (putAt r1 (96 + 2 * n) (leBytes 2 (if b then 65536 - len else len))) (112 + n) (leBytes 1 (if n = 0 then 0 else iatCode iat))
    else r1
  let r3 := putAt r2 84 (leBytes 2 (if n = 0 then len else min len (leAt r2 84 2)))
  let r4 := putAt (putAt r3 86 (leBytes 2 (max len (leAt r3 86 2)))) 92 (leBytes 4 (min (2 ^ 32 - 1) (max iat (leAt r3 92 4))))
  satAdd (72 + 5 * k) 5 len (satAdd (64 + 4 * k) 4 1 r4)

/-- What TCP flags change in a record. -/
def recTcp (b : Bool) (p : Pkt) (r : List Byte) : List Byte :=
  if p.ip.proto ≠ 6 then r
  else
    let k := bnat b
    let r1 := putAt r (82 + k) (leBytes 1 (leAt r (82 + k) 1 ||| p.l4.flags))
    let r2 := if p.l4.flags.testBit 0 then frSetBit 44 (6 + k) true r1 else r1
    if p.l4.flags.testBit 2 then frSetBit 45 4 true r2 else r2

/-- FIN has been seen from both sides. -/
def bothFin (r : List Byte) : Bool := frBit r 44 6 && frBit r 44 7

/-- The packet ends its flow: it sets RST or completes both FIN (R297). -/
def endsFlow (p : Pkt) (before after : List Byte) : Bool :=
  decide (p.ip.proto = 6) && (p.l4.flags.testBit 2 || (bothFin after && !bothFin before))

/-- The packet brings NEXT_M to 0 or below (R301). -/
def everyMDue (m : Nat) (p : Pkt) (r : List Byte) : Bool := decide (m ≠ 0) && decide (leAt r 124 4 ≤ p.ip.len)

/-- NEXT_M after a packet. -/
def recNextM (m : Nat) (p : Pkt) (r : List Byte) : List Byte :=
  if m = 0 then r else putAt r 124 (leBytes 4 (if leAt r 124 4 ≤ p.ip.len then 1024 * m else leAt r 124 4 - p.ip.len))

/-- A record once a packet from port `port` has been counted; OPEN, or ENDED by it. -/
def recPacket (s : State) (i port : Nat) (b : Bool) (p : Pkt) : List Byte :=
  let r := flowRec s i
  let x := flowX s i
  let first := decide (frPktsA r + frPktsB r = 0)
  let r0 := frSetState 1 r
  let r1 := if first then
      putAt (putAt (putAt (frSetBit 44 4 b r0) 46 (leBytes 1 (if b then partner port else port))) 52
        (leBytes 4 (mainCounter s).sec.toNat)) 56 (leBytes 4 (mainCounter s).ns.toNat)
    else r0
  let iat := if first then 0 else (nowUnits s - x.lastAt) / (1000 * unitsNs)
  let us := if first then 0 else (nowUnits s - x.firstAt) / (1000 * unitsNs)
  let sq := 256 * leAt r 88 4 + x.sqRem + p.ip.len * p.ip.len
  let r2 := putAt (putAt (recTcp b p (recStats b p iat r1)) 60 (leBytes 4 (min (2 ^ 32 - 1) us))) 88
    (leBytes 4 (min (2 ^ 32 - 1) (sq / 256)))
  let r3 := recNextM (polEveryM s (frPolicy r)) p r2
  if endsFlow p r r3 then frSetState 2 r3 else r3

/-- The packet is counted in its record. -/
def countPacket (i port : Nat) (b : Bool) (p : Pkt) (s : State) : State :=
  let r := flowRec s i
  let x := flowX s i
  let first := decide (frPktsA r + frPktsB r = 0)
  setFlowX i { x with firstAt := if first then nowUnits s else x.firstAt, lastAt := nowUnits s, lastClk := s.clk,
                      sqRem := (x.sqRem + p.ip.len * p.ip.len) % 256 }
    (setFlowRec i (recPacket s i port b p) s)

/-! ### File extraction (10 R319) -/

/-- Files that wait for scoring. -/
def filesWaiting (s : State) : Nat := (s.items.filter fun i => (match i.src with
  | .file _ => true
  | _ => false) && i.on.isNone).length

/-- FILE_PROF_j: MODEL_ID and MAX_CHUNKS. -/
def profModel (s : State) (j : Nat) : Nat := rdf s (0x60400 + 4 * j) 15 0
def profChunks (s : State) (j : Nat) : Nat := rdf s (0x60400 + 4 * j) 28 16

/-- The lowest free FILE_ID. -/
def freeFile (s : State) : Option Nat := (List.range 1024).find? fun k => (fileOf s k).isNone

/-- EXTRACT of a record, and the end of its extraction. -/
def endExtract (i : Nat) (s : State) : State :=
  let x := flowX s i
  updRec i (frSetBit 45 5 false)
    (setFlowX i { x with extract := x.extract.map fun e => { e with live := false, part := [], ahead := [] } } s)

/-- The extraction is refused for want of room: a record of class 3 with REFUSED_CAPACITY. -/
def extractFull (i : Nat) (s : State) : State :=
  flowRecordEvent i 3 (okStatus false false s) 3 0 0x50 0 (bump 0x3048C 1 s)

/-- A file of the flow is closed: queued for scoring, or ended where the queue is full or its model is not loaded. -/
def closeExtract (i : Nat) (e : Extract) (gap : Bool) (s : State) : State :=
  match fileOf s e.fileId with
  | none => endExtract i s
  | some f =>
    let chunks := if e.part = [] then f.chunks else tabSet (fun _ => []) f.chunks f.chunks.length e.part
    let s1 := endExtract i s
    match scoreModel s (profModel s f.profile) with
    | none => flowRecordEvent i 3 (okStatus false false s1) 4 0 (0xFE * 2 ^ 24 + 0x50) 0 (dropFile f.id s1)
    | some l =>
      if 64 ≤ filesWaiting s then extractFull i (dropFile f.id s1)
      else pushItem (.file f.id) 3 l chunks.length (chunks.flatMap (·.2)) (setFile { f with chunks, queued := true, whole := !gap } s1)

/-- In-order bytes of the responder: whole chunks go to the file; at MAX_CHUNKS it is closed. `n` bounds the chunks. -/
def extractBytes (i : Nat) : Nat → Extract → State → State
  | 0, e, s => setFlowX i { flowX s i with extract := some e } s
  | n + 1, e, s =>
    match fileOf s e.fileId with
    | none => setFlowX i { flowX s i with extract := some { e with live := false } } s
    | some f =>
      if e.part.length < 65536 then setFlowX i { flowX s i with extract := some e } (setFile { f with last := s.clk } s)
      else
        let chunks := tabSet (fun _ => []) f.chunks f.chunks.length (e.part.take 65536)
        let t := setFile { f with chunks, last := s.clk } s
        if profChunks s f.profile ≤ chunks.length then closeExtract i { e with part := [] } false t
        else extractBytes i n { e with part := e.part.drop 65536 } t

/-- Segments kept ahead that have come into order are taken; `n` bounds them. -/
def pullAhead : Nat → Extract → Extract
  | 0, e => e
  | n + 1, e =>
    match e.ahead.find? fun x => decide (signedOf 32 (x.1 - e.next).toNat ≤ 0) with
    | none => e
    | some x =>
      let new := x.2.drop (e.next - x.1).toNat
      pullAhead n { e with ahead := e.ahead.filter fun y => decide (y ≠ x), part := e.part ++ new, next := e.next + BitVec.ofNat 32 new.length }

/-- A segment of the responder. -/
def extractSegment (i : Nat) (e : Extract) (seq : Word) (bytes : List Byte) (s : State) : State :=
  let d := signedOf 32 (seq - e.next).toNat
  if bytes = [] then s
  else if 65536 < d + bytes.length then closeExtract i e true s
  else
    let e1 := { e with ahead := e.ahead ++ [(seq, bytes)] }
    let e2 := pullAhead (e1.ahead.length + 1) e1
    extractBytes i (e2.part.length / 65536 + 1) e2 s

/-- The flow's file is opened under a FILE_ID, or none is free. -/
def startExtractAs (i : Nat) (seq : Word) (id : Option Nat) (s : State) : State :=
  let p := polProfile s (frPolicy (flowRec s i))
  let e : Extract := { fileId := 1024, live := false, next := seq, part := [], ahead := [] }
  match id with
  | none => extractFull i (setFlowX i { flowX s i with extract := some e } s)
  | some k =>
    let f : FileX :=
      { id := k, func := 0, profile := p, chunks := [], close := none, flow := some i, queued := false, whole := false, last := s.clk }
    updRec i (frSetBit 45 5 true)
      (setFlowX i { flowX s i with extract := some { e with fileId := k, live := true } }
        { s with flow := { s.flow with files := s.flow.files ++ [f] } })

/-- The flow's file is opened at the responder's first segment. -/
def startExtract (i : Nat) (seq : Word) (s : State) : State := startExtractAs i seq (freeFile s) s

/-- Extraction sees a TCP segment of the responder. -/
def extractPacket (i : Nat) (b : Bool) (f : List Byte) (p : Pkt) (s : State) : State :=
  let r := flowRec s i
  if polExtract s (frPolicy r) = false ∨ p.ip.proto ≠ 6 ∨ b = frInitB r ∨ reach f p.ip.l4 14 p.ip.stop ≠ .here then s
  else
    let o := p.ip.l4
    let data := o + 4 * (byteAt f (o + 12) / 16)
    let bytes := (f.take p.ip.stop).drop data
    let syn := p.l4.flags.testBit 1
    let seq := BitVec.ofNat 32 (beAt f (o + 4) 4 + bnat syn)
    let s1 := if (flowX s i).extract.isNone ∧ (syn = true ∨ bytes ≠ []) then startExtract i seq s else s
    match (flowX s1 i).extract with
    | some e => if e.live then extractSegment i e seq bytes s1 else s1
    | none => s1

/-- The flow has ended: its file is closed. -/
def extractEnd (i : Nat) (s : State) : State := match (flowX s i).extract with
  | some e => if e.live then closeExtract i e false s else s
  | none => s

/-! ### Packets (10 R295–R304) -/

/-- A miss that finds no way (R296). -/
def tableFull (k b : Nat) (f : List Byte) (s : State) : State :=
  let drop := rdb s 0x60000 4
  let s1 := raise flowEvent 0 (bump (if drop then 0x60808 else 0x60804) 1 s)
  if drop then { s1 with flow := { s1.flow with fullDrop := s1.flow.fullDrop + 1, dropBucket := b } }
  else forwardNow k false f { s1 with flow := { s1.flow with fullPass := s1.flow.fullPass + 1, passBucket := b } }

/-- What becomes of a packet of record `i` that has been counted: held, treated, or the first of a hold. -/
def placePacket (i : Nat) (p : HeldPkt) (starts : Bool) (s : State) : State :=
  let r := flowRec s i
  if frHeld r then addHold i p s
  else if frUnscored r then treatLate i p s
  else if starts then startHold i p s
  else treat i p s

/-- A request raised by the packet whose hold ended on it belongs to a hold without a verdict. -/
def lateIf (i : Nat) (started : Bool) (s : State) : State :=
  let x := flowX s i
  if started && !frHeld (flowRec s i) && x.request.isSome then setFlowX i { x with late := true } s else s

/-- The triggers of a counted packet, first-N before every-M, and the end trigger after them. -/
def packetTriggers (i : Nat) (firstN everyM started ends : Bool) (s : State) : State :=
  let pol := frPolicy (flowRec s i)
  let s1 := if firstN then trigger i 0 true s else s
  let s2 := lateIf i started (if everyM then trigger i 1 true s1 else s1)
  if ends && polEndTrig s2 pol then trigger i 3 true s2 else s2

/-- A packet of record `i`, `fresh` where it has just been created. -/
def flowPacket (i : Nat) (fresh : Bool) (k : Nat) (f : List Byte) (p : Pkt) (s : State) : State :=
  let r := flowRec s i
  let pol := frPolicy r
  let b := !senderIsA p
  let s1 := countPacket i k b p s
  let r1 := flowRec s1 i
  let h : HeldPkt := { port := k, frame := f, ipOff := p.ip.off, outerUdp := p.udp, arrived := nowUnits s }
  let ends := endsFlow p r r1
  let s2 := extractPacket i b f p s1
  let s3 := if ends then extractEnd i s2 else s2
  if polMode s pol = 3 then
    (if fresh then flowRecordEvent i 2 (okStatus false false s3) 9 1 0 0 s3 else bump 0x60834 1 s3)
  else if polMode s pol = 2 then placePacket i h false s3
  else
    let firstN := decide (polFirstN s pol ≠ 0) && decide (frPktsA r1 + frPktsB r1 = polFirstN s pol)
    let everyM := everyMDue (polEveryM s pol) p r
    let starts := decide (polMode s pol = 1) && (firstN || (everyM && polRegate s pol)) && !frHeld r1 && !frUnscored r1
    packetTriggers i firstN everyM starts ends (placePacket i h starts s3)

/-- A keyed packet is looked up, and its record made where there is none. -/
def keyedPacket (k : Nat) (f : List Byte) (p : Pkt) (s : State) : State :=
  let key := pktKey p
  let b := flowBucket s key
  let pol := policyFor s k p.vid p.tunnel
  match findRec s b key with
  | some i =>
    if frState (flowRec s i) = 2 ∧ frHeld (flowRec s i) = false ∧ p.ip.proto = 6 ∧ p.l4.flags.testBit 1 = true ∧ p.l4.flags.testBit 4 = false then
      flowPacket i true k f p (newRec i key pol s)
    else flowPacket i false k f p s
  | none => match freeWay s b with
    | none => tableFull k b f s
    | some i => flowPacket i true k f p (newRec i key pol s)

/-! ### Reception (10 R283–R289; 02 R59, R62) -/

/-- Destination of PTP frames that a slave port consumes. -/
def ptpPeerMac : Nat := 0x0180C200000E

/-- A PTP frame at a line slave port: messages that a slave does not receive are discarded and counted, the others have rows of
their own (02 R59, R62; log 100); whether the frame is consumed. -/
def slavePtp (k : Nat) (f : List Byte) (o : Nat) (s : State) : Bool × State :=
  if timeSrc s = 1 ∧ timePort s = k then
    (decide (beAt f 0 6 = ptpPeerMac),
      if [0, 8, 9, 11].contains (byteAt f o % 16) = false && (decide (beAt f 0 6 = ptpPeerMac) || decide (beAt f 0 6 = 0x011B19000000)) then
        bump (0x20120 + 4 * k) 1 s else s)
  else (false, s)

/-- A frame that R285 gives to the flow front, parsed. -/
def frontFrame (k : Nat) (f : List Byte) (x : Parsed) (s : State) : State :=
  let nonIp := fun (t : State) => let u := bump 0x60830 1 t; if rdb u 0x60000 2 then u else forwardNow k false f u
  match x with
  | .nonIp => nonIp s
  | .malformed => let u := bump 0x60828 1 s; if rdb u 0x60000 3 then u else forwardNow k false f u
  | .ip p => keyedPacket k f p s
  | .ptp _ _ pkt =>
    if rdb s 0x60000 1 then forwardNow k false f s
    else match pkt with
      | some p => keyedPacket k f p s
      | none => nonIp s

/-- A frame with a good FCS that is no MAC Control frame. -/
def goodFrame (k : Nat) (f : List Byte) (s : State) : State :=
  let x := parseFrame s f
  let s1 := bump (lineReg k 0) 1 s
  let c := match x.1 with
    | .ptp o _ _ => slavePtp k f o s1
    | _ => (false, s1)
  if c.1 then c.2
  else if flowRuns s then frontFrame k f x.1 (if x.2 then bump 0x6082C 1 c.2 else c.2)
  else unscoredPolicy k false f c.2

/-- A frame with a bad FCS. -/
def badFrame (k : Nat) (f : List Byte) (s : State) : State :=
  let s1 := bump (lineReg k 4) 1 s
  if rdb s 0xC0000 3 then s1 else if flowRuns s then forwardNow k true f s1 else unscoredPolicy k true f s1

/-- LINE_FRAME_RECEIVE: `frame` without its FCS. -/
def execLineFrameReceive (port : Fin 8) (frame : List Byte) (fcsOk : Bool) (s : State) : Host.Outcome State Fault Refusal :=
  .next (if hostDown s then s
    else if lineOn s port = false ∨ (mirrorEn s = true ∧ (mirrorPort s = port.val ∨ mirrorPort s = partner port)) ∨
        frame.length < 60 ∨ 9212 < frame.length then bump (lineReg port 8) 1 s
    else if fcsOk = false then badFrame port frame s
    else if beAt frame 12 2 = 0x8808 then bump (lineReg port 8) 1 s
    else goodFrame port frame s)

/-- LINE_LINK_CHANGE: LINE.STATUS. -/
def execLineLinkChange (port : Fin 8) (up : Bool) (s : State) : Host.Outcome State Fault Refusal :=
  .next (if s.board.inReset then s else wrf 0xC0004 port port (bnat up) s)

/-! ### The sweeper (10 R297) and TABLE_FULL records (R296) -/

/-- An OPEN record is idle. -/
def idleEnd (i : Nat) (s : State) : State :=
  let pol := frPolicy (flowRec s i)
  let s1 := if polMode s pol ≤ 1 ∧ polIdleTrig s pol = true then trigger i 2 false s else s
  updRec i (frSetState 2) s1

/-- A record becomes FREE. -/
def freeRec (i : Nat) (s : State) : State :=
  setFlowX i {} (updRec i (fun r => frSetVerdict 0 (frSetState 0 (frSetBit 44 5 false r))) (orphanRec i s))

/-- FLOW_SWEEP: the sweeper visits record `rec`. -/
def execFlowSweep (rec : Nat) (s : State) : Host.Outcome State Fault Refusal :=
  let r := flowRec s rec
  let age := s.clk - (flowX s rec).lastClk
  .next (if flowRuns s = false ∨ 2 ^ ftLog2 s ≤ rec then s
    else if frState r = 1 ∧ polIdleS s (frPolicy r) * ticksS < age then idleEnd rec s
    else if frState r = 2 ∧ frHeld r = false ∧ rdf s 0x6001C 15 8 * (ticksS / 4) < age then freeRec rec s
    else s)

/-- The record of one outcome, on sink 0 without a copy. -/
def fullRecord (disp n b : Nat) (s : State) : State :=
  if n = 0 then s
  else eventRecord (sinkPair s 0)
    { event := true, interim := false, status := okStatus false false s, disp, cls := 2, tag8 := 0, ring := 0, descIndex := 0,
      result := BitVec.ofNat 64 (2 ^ 32 * b), progress := BitVec.ofNat 32 n, faultRef := 0, urgent := false } s

/-- TABLE_FULL_REPORT. -/
def execTableFullReport (s : State) : Host.Outcome State Fault Refusal :=
  let t := fullRecord 9 s.flow.fullDrop s.flow.dropBucket (fullRecord 8 s.flow.fullPass s.flow.passBucket s)
  .next { t with flow := { t.flow with fullPass := 0, fullDrop := 0, passBucket := 0, dropBucket := 0 } }

/-! ### FLOW_VERDICT_SET (10 R312) -/

/-- An entry is well formed. -/
def entryOk (e : List Byte) : Bool :=
  let w := leAt e 44 4
  decide (leAt e 48 1 < 4) && decide (leAt e 49 1 < 16) && decide (e.drop 50 = zeros 14) && decide (leAt e 37 1 < 16) &&
    decide (leAt e 38 2 < 4096) &&
    (if frBit e 48 1 then decide (w = 0)
    else decide (w / 16 % 16 = 4) && verdictOk (w - (w / 8 % 32) * 8))

/-- The entry is applied to record `i`. -/
def setVerdict (i : Nat) (e : List Byte) (s : State) : State :=
  let w := leAt e 44 4
  let s1 := updRec i (fun r => frSetBit 44 3 false (frSetBit 44 5 (w.testBit 3) (frSetVerdict w r))) s
  if frHeld (flowRec s i) then releaseHold i s1 else s1

/-- The record of an entry's flow, created where the entry asks for it. -/
def entryRec (e : List Byte) (s : State) : Option Nat × State :=
  let key := canonKey (e.take 44)
  let b := flowBucket s key
  match findRec s b key with
  | some i => (some i, s)
  | none =>
    if frBit e 48 0 then
      (match freeWay s b with
      | some i => (some i, newRec i key (leAt e 49 1) s)
      | none => (none, s))
    else (none, s)

/-- Counts of the entries: applied, not found, skipped. -/
structure SetCounts where
  applied : Nat := 0
  missing : Nat := 0
  skipped : Nat := 0
  deriving DecidableEq, Repr

/-- `n` entries in order. -/
def setEntries : Nat → List Byte → SetCounts → State → SetCounts × State
  | 0, _, c, s => (c, s)
  | n + 1, bs, c, s =>
    let e := bs.take 64
    if entryOk e = false then setEntries n (bs.drop 64) { c with skipped := c.skipped + 1 } s
    else match entryRec e s with
      | (none, t) => setEntries n (bs.drop 64) { c with missing := c.missing + 1 } t
      | (some i, t) => setEntries n (bs.drop 64) { c with applied := c.applied + 1 } (setVerdict i e t)

/-- The entries of a FLOW_VERDICT_SET, and its record. -/
def verdictSetGo (r : DRef) (d : BitVec 512) (bs : List Byte) (s : State) : State :=
  let n := dLen0 d / 64
  let x := setEntries n bs {} s
  finish r (okStatus false false x.2) (if x.1.applied = n then 0 else 1)
    (BitVec.ofNat 64 (x.1.applied + 2 ^ 32 * (x.1.missing % 65536) + 2 ^ 48 * (x.1.skipped % 65536))) x.1.applied 0 [] x.2

/-- FLOW_VERDICT_SET. -/
def execFlowVerdictSet (r : DRef) (entries : Dma) (s : State) : Host.Outcome State Fault Refusal :=
  .next (runDesc r 0x21
    (fun _ d => { in0 := true, badLength := decide (dLen0 d = 0) || decide (dLen0 d % 64 ≠ 0) || decide (262144 < dLen0 d) })
    (fun d s => if dBits d 256 256 ≠ 0 then refuse r 0x10 s else withInput r d entries (verdictSetGo r d) s) s)

end Sys2Proof.Machine
end

