-- ==== Sys2Proof/Machine/Files.lean ====
section
/-! DEFINITION. FLOW_SCORE, files, and the completion of scoring items (10 R308, R311, R314–R319; 12 R353–R356). -/

namespace Sys2Proof.Machine

/-- A determinism level above FREE, by the DET field or by DET_CTRL.LOCK (07 R211). -/
def detRaised (s : State) (d : BitVec 512) : Bool := decide (dDet d = 1) || decide (dDet d = 2) || detLock s

/-- Check 11 of a descriptor that runs a model: float atomics outside the cache above FREE (07 R211). -/
def detConflict (s : State) (d : BitVec 512) (l : Option Loaded) : Bool := match l with
  | some l => detRaised s d && floatOutside s l.img
  | none => false

/-! ### FLOW_SCORE (10 R311) -/

/-- Its vectors are queued as one item, or refused. -/
def scoreVectors (r : DRef) (d : BitVec 512) (l : Loaded) (bs : List Byte) (s : State) : State :=
  let c := dClass d
  let ahead := queueLen s l.part c
  match enqueue (.desc r) c l (dLen0 d / 128) bs s with
  | (.queued, t) =>
    let u := markStarted r t
    if ahead = 0 then u else interim r (okStatus false false u) ahead u
  | (.full, t) => finish r (okStatus false false t) (if c = 1 then 3 else 5) 0 0 0 [] t
  | (.sampledOut, t) => finish r (okStatus false false t) 5 0 0 0 [] t

/-- Check 13 of FLOW_SCORE and its effect. -/
def flowScoreGo (r : DRef) (d : BitVec 512) (dma : Dma) (s : State) : State :=
  if field (dOpw d 0) 31 16 ≠ 0 ∨ dBits d 288 224 ≠ 0 then refuse r 0x10 s
  else match scoreModel s (field (dOpw d 0) 15 0) with
    | none => refuse r 0x42 s
    | some l => withInput r d dma (scoreVectors r d l) s

/-- FLOW_SCORE: N vectors of 128 bytes give N words. -/
def execFlowScore (r : DRef) (vectors : Dma) (s : State) : Host.Outcome State Fault Refusal :=
  .next (runDesc r 0x20
    (fun s d => { in0 := true, out1 := true,
                  badLength := decide (dLen0 d % 128 ≠ 0) || decide (dLen0 d = 0) || decide (128 * 4096 < dLen0 d) ||
                    decide (dLen1 d ≠ dLen0 d / 32),
                  badMode := detConflict s d (scoreModel s (field (dOpw d 0) 15 0)) })
    (fun d s => flowScoreGo r d vectors s) s)

/-! ### Files (10 R314–R317) -/

/-- The file of a FILE_ID, where the descriptor's function opened it. -/
def fileFor (s : State) (r : DRef) (id : Nat) : Option FileX := match fileOf s id with
  | some f => if f.flow.isNone ∧ f.func = pairFunc s r.pair then some f else none
  | none => none

/-- A new file. -/
def openFile (r : DRef) (profile id : Nat) (s : State) : State :=
  let f : FileX :=
    { id, func := pairFunc s r.pair, profile, chunks := [], close := none, flow := none, queued := false, whole := false, last := s.clk }
  { s with flow := { s.flow with files := s.flow.files ++ [f] } }

/-- Check 13 of FILE_OPEN and its effect. -/
def fileOpenGo (r : DRef) (d : BitVec 512) (s : State) : State :=
  let p := field (dOpw d 0) 2 0
  if field (dOpw d 0) 31 3 ≠ 0 ∨ dBits d 320 192 ≠ 0 then refuse r 0x10 s
  else if 65536 * profChunks s p < (dOpw d 1).toNat then finish r (okStatus false false s) 4 0 0 0 [] s
  else match freeFile s with
    | none => finish r (okStatus false false s) 3 0 0 0 [] (bump 0x3048C 1 s)
    | some k => finish r (okStatus false false s) 0 (BitVec.ofNat 64 k) 0 0 [] (openFile r p k s)

/-- FILE_OPEN. -/
def execFileOpen (r : DRef) (s : State) : Host.Outcome State Fault Refusal :=
  .next (runDesc r 0x30 (fun _ _ => {}) (fileOpenGo r) s)

/-- OPW0 [31:16] and the words from OPWk on are reserved. -/
def fileReserved (d : BitVec 512) (k : Nat) : Bool :=
  decide (field (dOpw d 0) 31 16 ≠ 0) || decide (dBits d (256 + 32 * k) (256 - 32 * k) ≠ 0)

/-- A descriptor for the file has come. -/
def touchFile (f : FileX) (s : State) : State := setFile { f with last := s.clk } s

/-- A chunk is staged. -/
def stageChunk (r : DRef) (f : FileX) (k : Nat) (bs : List Byte) (s : State) : State :=
  finish r (okStatus false false s) 0 0 1 0 [] (setFile { f with chunks := tabSet (fun _ => []) f.chunks k bs, last := s.clk } s)

/-- Check 13 of FILE_CHUNK and its effect. -/
def fileChunkGo (r : DRef) (d : BitVec 512) (dma : Dma) (s : State) : State :=
  let k := (dOpw d 1).toNat
  if fileReserved d 2 then refuse r 0x10 s
  else match fileFor s r (field (dOpw d 0) 15 0) with
    | none => refuse r 0x42 s
    | some f =>
      if f.queued then refuse r 0x42 s
      else if profChunks s f.profile ≤ k then finish r (okStatus false false s) 4 0 0 0 [] (touchFile f s)
      else withInput r d dma (stageChunk r f k) (touchFile f s)

/-- FILE_CHUNK. -/
def execFileChunk (r : DRef) (chunk : Dma) (s : State) : Host.Outcome State Fault Refusal :=
  .next (runDesc r 0x31
    (fun _ d => { in0 := true, badLength := decide (dLen0 d = 0) || decide (65536 < dLen0 d) })
    (fun d s => fileChunkGo r d chunk s) s)

/-- The chunks that a close with count `c` scores: whole ones, and the last of any length (R316). -/
def goodChunks (c : Nat) (t : Tab (List Byte)) : Tab (List Byte) :=
  t.filter fun x => decide (x.1 < c) && (decide (x.2.length = 65536) || decide (x.1 + 1 = c))

/-- A file is queued for scoring by its close. -/
def queueClose (r : DRef) (f : FileX) (c : Nat) (l : Loaded) (s : State) : State :=
  let g := goodChunks c f.chunks
  let ahead := filesWaiting s
  let t := setFile { f with close := some r, queued := true, whole := decide (g.length = c), last := s.clk } s
  let u := markStarted r (pushItem (.file f.id) 3 l g.length (g.flatMap (·.2)) t)
  if ahead = 0 then u else interim r (okStatus false false u) ahead u

/-- Check 13 of FILE_CLOSE and its effect. -/
def fileCloseGo (r : DRef) (d : BitVec 512) (s : State) : State :=
  if fileReserved d 2 then refuse r 0x10 s
  else match fileFor s r (field (dOpw d 0) 15 0) with
    | none => refuse r 0x42 s
    | some f =>
      if f.queued then refuse r 0x42 s
      else match scoreModel s (profModel s f.profile) with
        | none => refuse r 0x42 (touchFile f s)
        | some l =>
          if 64 ≤ filesWaiting s then finish r (okStatus false false s) 3 0 0 0 [] (bump 0x3048C 1 (touchFile f s))
          else queueClose r f (dOpw d 1).toNat l s

/-- The model that a FILE_CLOSE would run. -/
def closeModel (s : State) (r : DRef) (d : BitVec 512) : Option Loaded := match fileFor s r (field (dOpw d 0) 15 0) with
  | some f => scoreModel s (profModel s f.profile)
  | none => none

/-- FILE_CLOSE. -/
def execFileClose (r : DRef) (s : State) : Host.Outcome State Fault Refusal :=
  .next (runDesc r 0x32 (fun s d => { badMode := detConflict s d (closeModel s r d) }) (fileCloseGo r) s)

/-- Check 13 of FILE_ABORT and its effect. -/
def fileAbortGo (r : DRef) (d : BitVec 512) (s : State) : State :=
  if fileReserved d 1 then refuse r 0x10 s
  else match fileFor s r (field (dOpw d 0) 15 0) with
    | none => refuse r 0x42 s
    | some f => if f.queued then refuse r 0x42 s else finish r (okStatus false false s) 0 0 f.chunks.length 0 [] (dropFile f.id s)

/-- FILE_ABORT. -/
def execFileAbort (r : DRef) (s : State) : Host.Outcome State Fault Refusal :=
  .next (runDesc r 0x33 (fun _ _ => {}) (fileAbortGo r) s)

/-- FILE_TIMEOUT: an open file without a descriptor for FILE_IDLE seconds; an extraction into it ends (log 70). -/
def execFileTimeout (id : BitVec 16) (s : State) : Host.Outcome State Fault Refusal :=
  .next (match fileOf s id.toNat with
    | none => s
    | some f =>
      if f.queued then s
      else
        let t := bump 0x60840 1 (dropFile f.id (runToClk (f.last + rdf s 0x6001C 31 16 * ticksS) s))
        match f.flow with
        | some i => if (((flowX t i).extract).map fun e => e.live && decide (e.fileId = f.id)) = some true then endExtract i t else t
        | none => t)

/-! ### Verdicts of files and completion of items (10 R308, R316, R319) -/

/-- RESULT [31:0] of a file's word, with TRIGGER 5; an invalid word reads as REASON 0xFF. -/
def fileLow (w : Nat) : Nat := if verdictOk w then verdictResult w 5 false else 0xFF * 2 ^ 24 + 0x50

/-- A word that is no verdict is counted. -/
def countInvalid (w : Nat) (s : State) : State := if verdictOk w then s else raise flowEvent 3 (bump 0x60824 1 s)

/-- A file's verdict becomes its flow's standing verdict while the record is not FREE and no sticky verdict stands. -/
def fileToFlow (i : Nat) (f : FileX) (w : Nat) (s : State) : State :=
  let mine := ((flowX s i).extract.map fun e => e.fileId) = some f.id
  if verdictOk w = true ∧ mine ∧ frState (flowRec s i) ≠ 0 ∧ frSticky (flowRec s i) = false then
    updRec i (frSetVerdict (fileLow w)) s
  else s

/-- A queued file has been scored: the close's final record, or the record of the extraction, and the FILE_ID is released. -/
def fileScored (i : Item) (f : FileX) (w : Nat) (s : State) : State :=
  let t := countInvalid w (dropFile f.id (dropItem i.num (stopItem i s)))
  let disp := if f.whole then 0 else 1
  match f.close, f.flow with
  | some r, _ => finish r (okStatus false false t) disp (BitVec.ofNat 64 (fileLow w)) i.total 0 [] t
  | none, some k =>
    let u := fileToFlow k f w t
    flowRecordEvent k 3 (okStatus false false u) disp i.total (fileLow w) 0 u
  | none, none => t

/-- The file that is being scored, else the one that is next. -/
def currentFile (s : State) : Option Item :=
  let isFile := fun (i : Item) => match i.src with
    | .file _ => true
    | _ => false
  match s.items.find? fun i => isFile i && i.on.isSome with
  | some i => some i
  | none => s.items.find? isFile

/-- FILE_VERDICT. -/
def execFileVerdict (word : Word) (s : State) : Host.Outcome State Fault Refusal :=
  .next (match currentFile s with
    | none => s
    | some i => match i.src with
      | .file id => (match fileOf s id with
        | some f => fileScored i f word.toNat s
        | none => s)
      | _ => s)

/-- An item is finished: its words are a verdict, or the output of its descriptor. -/
def itemDone (i : Item) (words : List Word) (s : State) : State :=
  match i.src with
  | .flow k trig => if words.length = 1 then presentVerdict k i.num i.cls (words.headD 0).toNat trig (dropItem i.num (stopItem i s)) else s
  | .desc r =>
    if i.done + words.length = i.total then
      (let t := dropItem i.num (stopItem i s)
       finishOut r (okStatus false false t) 0 0 i.total 0 (wordBytes (i.out ++ words)) t)
    else s
  | .file id => match fileOf s id with
    | some f => if words.length = 1 then fileScored i f (words.headD 0).toNat s else s
    | none => s

/-- ITEM_COMPLETE: the item on thread `t` of tile `n`, whose code has halted, with the words it has written since it started. -/
def execItemComplete (n : TileIx) (t : Thr) (words : List Word) (s : State) : Host.Outcome State Fault Refusal :=
  .next (match itemOn s n t with
    | none => s
    | some i => if (threadOf s n t).run = .stopped then itemDone i words s else s)

end Sys2Proof.Machine
end

