-- ==== Sys2Proof/Machine/Jtag.lean ====
section
/-! DEFINITION. The JTAG port: its instructions, the unlock, and boundary scan, which holds the main domain in reset
(15 R450–R452). -/

namespace Sys2Proof.Machine

/-- The instruction register. -/
def setIr (i : JtagIr) (s : State) : State := { s with mgmt := { s.mgmt with ir := i } }

/-- A code that is unlisted or not available selects bypass and is counted. -/
def denied (s : State) : State := bump 0xE00C4 1 (setIr .bypass s)

/-- The ledger is committed, the cause latched as JTAG, and the main domain held in reset (15 R452). -/
def scanHeld (i : JtagIr) (s : State) : State :=
  let t := setIr i (commitReset 5 s)
  { t with mgmt := { t.mgmt with scanHold := true } }

/-- EXTEST. -/
def execExtest (s : State) : Host.Outcome State Fault Refusal := .next (scanHeld .extest s)
/-- CLAMP. -/
def execClamp (s : State) : Host.Outcome State Fault Refusal := .next (scanHeld .clamp s)
/-- HIGHZ. -/
def execHighz (s : State) : Host.Outcome State Fault Refusal := .next (scanHeld .highz s)

/-- IDCODE: 0x1716_49AB is shifted out. -/
def execIdcode (s : State) : Host.Outcome State Fault Refusal := .next (emit (.jtag 32 0x171649AB) (setIr .idcode s))

/-- SAMPLE/PRELOAD: disturbs nothing. -/
def execSamplePreload (s : State) : Host.Outcome State Fault Refusal := .next (setIr .sample s)

/-- The challenge: the serial number, then the nonce. -/
def challengeOf (n : List Dword) : Nat := leNat (leBytes 32 Config.serialNumber.toNat ++ n.flatMap fun w => leBytes 8 w.toNat)

/-- UNLOCK_CHAL: a fresh nonce, in mode LOCKED alone. -/
def execUnlockChal (s : State) : Host.Outcome State Fault Refusal :=
  .next (if s.mgmt.jtagMode = 1 then
      (let n := (List.range 4).map fun k => Config.freeValue (s.free + k)
       let t := setIr .unlockChal s
       emit (.jtag 512 (challengeOf n)) { t with mgmt := { t.mgmt with nonce := some n }, free := t.free + 4 })
    else denied s)

/-- UNLOCK_RESP: `valid` tells whether the signature verifies over the challenge outstanding. -/
def execUnlockResp (valid : Bool) (s : State) : Host.Outcome State Fault Refusal :=
  .next (if s.mgmt.jtagMode ≠ 1 then denied s
    else
      let t := setIr .unlockResp s
      let u : State := { t with mgmt := { t.mgmt with nonce := none, unlocked := t.mgmt.unlocked || (valid && t.mgmt.nonce.isSome) } }
      if valid && s.mgmt.nonce.isSome then commitReset 5 u else u)

/-- DEBUG_ACCESS: what the access does on the dies is not in the spec. -/
def execDebugAccess (code : Byte) (s : State) : Host.Outcome State Fault Refusal :=
  .next (if debugOpen s.mgmt && decide (0x20 ≤ code.toNat) && decide (code.toNat ≤ 0x3F) then
      raise mgmtEvent 3 (setIr (.debug code) s)
    else denied s)

/-- The code names an instruction that is available. -/
def jtagListed (m : MgmtS) (code : Byte) : Bool :=
  decide (code.toNat ≤ 4) || ((decide (code = 0x10) || decide (code = 0x11)) && decide (m.jtagMode = 1)) ||
    (debugOpen m && decide (0x20 ≤ code.toNat) && decide (code.toNat ≤ 0x3F))

/-- BYPASS, also for every code that is unlisted or not available; another listed code has a row of its own. -/
def execBypass (code : Byte) (s : State) : Host.Outcome State Fault Refusal :=
  .next (if code = 0xFF then setIr .bypass s else if jtagListed s.mgmt code then s else denied s)

/-- TAP_TEST_LOGIC_RESET: IDCODE is selected; after boundary scan the main domain boots afresh where nothing else holds it.
`sigs` is as at a release from reset. -/
def execTapTestLogicReset (sigs : List (Bool × Bool)) (s : State) : Host.Outcome State Fault Refusal :=
  let t := setIr .idcode s
  .next (if t.mgmt.scanHold then
      (let u : State := { t with mgmt := { t.mgmt with scanHold := false } }
       if u.board.inReset && u.hold.onMain && u.board.thermTripN && u.board.pwrGood && u.board.perstN && u.board.refSys &&
          !u.board.testEn then bootUp sigs u
       else u)
    else t)

end Sys2Proof.Machine
end

