-- ==== Sys2Proof/Machine/Mgmt.lean ====
section
/-! DEFINITION. Management over SMBus: MCTP control, PLDM base and firmware update, and SPDM (15 R446–R449). Of an answer the
model keeps the response or completion code and the values that the spec states, not the wire form of the DMTF
specifications (log 79). -/

namespace Sys2Proof.Machine

/-- The management firmware runs and answers. -/
def mgmtUp (s : State) : Bool := !hostDown s && s.mgmt.mfw.isSome

/-! ### MCTP control (15 R446) -/

/-- Completion codes of DSP0236 and DSP0240 (log 79). -/
abbrev ccSuccess : Byte := 0
abbrev ccError : Byte := 1
abbrev ccInvalidData : Byte := 2
abbrev ccNotReady : Byte := 4
abbrev ccUnsupported : Byte := 5

/-- The answer to a control message. -/
def ctlReply (code : Byte) (bs : List Byte) (s : State) : State := if mgmtUp s then emit (.smb 0 code bs) s else s

/-- SET_ENDPOINT_ID: EIDs 0 and 255 cannot be assigned (log 79). -/
def execSetEndpointId (eid : Byte) (s : State) : Host.Outcome State Fault Refusal :=
  .next (if mgmtUp s = false then s
    else if eid = 0 ∨ eid = 0xFF then ctlReply ccInvalidData [] s
    else ctlReply ccSuccess [eid] (wr 0xE00A4 (eid.setWidth 32) { s with mgmt := { s.mgmt with eidSet := true } }))

/-- GET_ENDPOINT_ID. -/
def execGetEndpointId (s : State) : Host.Outcome State Fault Refusal :=
  .next (ctlReply ccSuccess [(rd s 0xE00A4).setWidth 8] s)

/-- GET_MCTP_VERSION_SUPPORT: version 1.3. -/
def execGetMctpVersionSupport (s : State) : Host.Outcome State Fault Refusal := .next (ctlReply ccSuccess [1, 3] s)

/-- GET_MESSAGE_TYPE_SUPPORT: control, PLDM and SPDM. -/
def execGetMessageTypeSupport (s : State) : Host.Outcome State Fault Refusal := .next (ctlReply ccSuccess [0, 1, 5] s)

/-- GET_ENDPOINT_UUID. -/
def execGetEndpointUuid (s : State) : Host.Outcome State Fault Refusal :=
  .next (ctlReply ccSuccess (leBytes 16 Config.deviceUuid.toNat) s)

/-- MCTP_UNSUPPORTED_CMD: any other control command. -/
def execMctpUnsupportedCmd (cmd : Byte) (s : State) : Host.Outcome State Fault Refusal :=
  .next (ctlReply ccUnsupported [cmd] s)

/-! ### PLDM base (15 R447) -/

/-- PLDM and SPDM answer once an EID is assigned. -/
def pldmUp (s : State) : Bool := mgmtUp s && s.mgmt.eidSet

def pldmReply (code : Byte) (bs : List Byte) (s : State) : State := if pldmUp s then emit (.smb 1 code bs) s else s

/-- GETTID. -/
def execGetTid (s : State) : Host.Outcome State Fault Refusal := .next (pldmReply ccSuccess [Config.pldmTid] s)

/-- GETPLDMVERSION: of type 5, version 1.1; of type 0, one that the spec does not state. -/
def execGetPldmVersion (typ : Byte) (s : State) : Host.Outcome State Fault Refusal :=
  .next (if typ = 5 then pldmReply ccSuccess [1, 1] s
    else if typ = 0 then pldmReply ccSuccess (leBytes 4 Config.pldmBaseVersion.toNat) s
    else pldmReply ccInvalidData [] s)

/-- GETPLDMTYPES. -/
def execGetPldmTypes (s : State) : Host.Outcome State Fault Refusal := .next (pldmReply ccSuccess [0, 5] s)

/-- GETPLDMCOMMANDS: command codes of DSP0240 and DSP0267 (log 79). -/
def execGetPldmCommands (typ : Byte) (s : State) : Host.Outcome State Fault Refusal :=
  .next (if typ = 0 then pldmReply ccSuccess [2, 3, 4, 5] s
    else if typ = 5 then
      pldmReply ccSuccess [0x01, 0x02, 0x10, 0x13, 0x14, 0x15, 0x16, 0x17, 0x18, 0x1A, 0x1B, 0x1C, 0x1D] s
    else pldmReply ccInvalidData [] s)

/-! ### Firmware update (15 R447) -/

/-- MGMT.PLDM_STATE. -/
def pldmState (s : State) : Nat := rdf s 0xE00A8 3 0
def setPldm (st : Nat) (p : Option Pldm) (s : State) : State :=
  wr 0xE00A8 (BitVec.ofNat 32 st) { s with mgmt := { s.mgmt with pldm := p } }

/-- A command of the update's state machine: it is answered with `ccError` outside the states `l` (log 80). -/
def inPldm (l : List Nat) (f : Pldm → State → State) (s : State) : State :=
  if pldmUp s = false then s
  else match s.mgmt.pldm with
    | some p => if l.contains (pldmState s) then f p s else pldmReply ccError [] s
    | none => pldmReply ccError [] s

/-- The slot that is not ACTIVE, and the flash region of a component there. -/
def spareSlot (m : MgmtS) : Bool := !(currentCfg m).1.active
def spareRegion (m : MgmtS) (component : Nat) : Nat := regionAt (2 * bnat (spareSlot m) + (component - 1))

/-- QUERYDEVICEIDENTIFIERS. -/
def execQueryDeviceIdentifiers (s : State) : Host.Outcome State Fault Refusal :=
  .next (pldmReply ccSuccess Config.deviceIds s)

/-- GETFIRMWAREPARAMETERS: the two components with their running versions. -/
def execGetFirmwareParameters (s : State) : Host.Outcome State Fault Refusal :=
  .next (pldmReply ccSuccess
    (leBytes 2 1 ++ leBytes 4 (rd s 0xE0010).toNat ++ leBytes 2 2 ++ leBytes 4 (rd s 0xE0014).toNat) s)

/-- REQUESTUPDATE: not during a trial without a commit, nor during another update. -/
def execRequestUpdate (s : State) : Host.Outcome State Fault Refusal :=
  .next (if pldmUp s = false then s
    else if (currentCfg s.mgmt).1.trial ∨ pldmState s ≠ 0 then pldmReply ccNotReady [] s
    else pldmReply ccSuccess [] (setPldm 1 (some { component := 0, received := 0, written := [] }) s))

/-- PASSCOMPONENTTABLE. -/
def execPassComponentTable (s : State) : Host.Outcome State Fault Refusal :=
  .next (inPldm [1] (fun p s => pldmReply ccSuccess [] (setPldm 2 (some p) s)) s)

/-- UPDATECOMPONENT: 0x0001 is the MFW and 0x0002 the DMC. -/
def execUpdateComponent (component : BitVec 16) (s : State) : Host.Outcome State Fault Refusal :=
  .next (inPldm [2] (fun p s =>
    if component = 1 ∨ component = 2 then
      pldmReply ccSuccess [] (setPldm 3 (some { p with component := component.toNat, received := 0 }) s)
    else pldmReply ccInvalidData [] s) s)

/-- REQUESTFIRMWAREDATA: up to 1,024 bytes of the component, written into the spare slot's region. -/
def execRequestFirmwareData (data : List Byte) (s : State) : Host.Outcome State Fault Refusal :=
  .next (inPldm [3] (fun p s =>
    if 1024 < data.length ∨ 0x400000 < p.received + data.length then s
    else
      setPldm 3 (some { p with received := p.received + data.length })
        { s with mgmt := flashWrite (spareRegion s.mgmt p.component + p.received) data s.mgmt }) s)

/-- TRANSFERCOMPLETE. -/
def execTransferComplete (ok : Bool) (s : State) : Host.Outcome State Fault Refusal :=
  .next (inPldm [3] (fun p s => pldmReply ccSuccess [] (setPldm (if ok then 4 else 2) (some p) s)) s)

/-- VERIFYCOMPLETE: success only where the written image passes R426 against the current floors. -/
def execVerifyComplete (keyOk sigOk : Bool) (s : State) : Host.Outcome State Fault Refusal :=
  .next (inPldm [4] (fun p s =>
    let bs := imageBytes s.mgmt (spareRegion s.mgmt p.component)
    if imageFail s bs (decide (p.component = 2)) keyOk sigOk = 0 then pldmReply ccSuccess [] (setPldm 5 (some p) s)
    else pldmReply ccError [] (setPldm 2 (some p) s)) s)

/-- APPLYCOMPLETE. -/
def execApplyComplete (flashOk : Bool) (s : State) : Host.Outcome State Fault Refusal :=
  .next (inPldm [5] (fun p s =>
    if flashOk then
      pldmReply ccSuccess [] (raise mgmtEvent 1 (setPldm 2 (some { p with written := p.written ++ [p.component] }) s))
    else pldmReply ccError [] (setPldm 2 (some p) s)) s)

/-- ACTIVATEFIRMWARE: the updated slot is ACTIVE, on trial, from the next reset of the main domain on. -/
def execActivateFirmware (s : State) : Host.Outcome State Fault Refusal :=
  .next (inPldm [2] (fun p s =>
    if p.written = [] then pldmReply ccError [] s
    else
      let m := writeCfg (spareSlot s.mgmt) true 3 s.mgmt
      pldmReply ccSuccess [] (raise mgmtEvent 2 (wrf 0xE0024 4 4 1 (setPldm 0 none { s with mgmt := m })))) s)

/-- GETSTATUS. -/
def execGetStatus (s : State) : Host.Outcome State Fault Refusal :=
  .next (pldmReply ccSuccess [BitVec.ofNat 8 (pldmState s)] s)

/-- CANCELUPDATECOMPONENT. -/
def execCancelUpdateComponent (s : State) : Host.Outcome State Fault Refusal :=
  .next (inPldm [3, 4, 5] (fun p s => pldmReply ccSuccess [] (setPldm 2 (some p) s)) s)

/-- CANCELUPDATE. -/
def execCancelUpdate (s : State) : Host.Outcome State Fault Refusal :=
  .next (inPldm [1, 2, 3, 4, 5] (fun _ s => pldmReply ccSuccess [] (setPldm 0 none s)) s)

/-! ### SPDM (15 R448, R449) -/

/-- Response codes and error codes of DSP0274 (log 79). -/
def spdmReply (code : Byte) (bs : List Byte) (s : State) : State := if pldmUp s then emit (.smb 5 code bs) s else s
def spdmError (e : Byte) (s : State) : State := spdmReply 0x7F [e] s

/-- A signature: bytes that nothing here constrains (log 1). -/
def freeSignature (s : State) : List Byte := (List.range 12).flatMap fun k => leBytes 8 (Config.freeValue (s.free + k)).toNat
def signed (code : Byte) (bs : List Byte) (s : State) : State :=
  { spdmReply code (bs ++ freeSignature s) s with free := s.free + 12 }

/-- A digest's 48 bytes, the most significant first. -/
def digestBytes (d : BitVec 384) : List Byte := (leBytes 48 d.toNat).reverse

/-- Requests after the negotiation; before it they are unexpected. -/
def negotiated (f : State → State) (s : State) : State :=
  if pldmUp s = false then s else if s.mgmt.spdmAlgs then f s else spdmError 4 s

/-- GET_VERSION: version 1.2; what was negotiated is forgotten. -/
def execGetVersion (s : State) : Host.Outcome State Fault Refusal :=
  .next (if pldmUp s then
      spdmReply 0x04 [0x12] { s with mgmt := { s.mgmt with spdmVersion := true, spdmCaps := false, spdmAlgs := false } }
    else s)

/-- GET_CAPABILITIES: CERT_CAP, CHAL_CAP and MEAS_CAP with signature. -/
def execGetCapabilities (s : State) : Host.Outcome State Fault Refusal :=
  .next (if pldmUp s = false then s
    else if s.mgmt.spdmVersion then
      spdmReply 0x61 (leBytes 4 0x16) { s with mgmt := { s.mgmt with spdmCaps := true, spdmAlgs := false } }
    else spdmError 4 s)

/-- NEGOTIATE_ALGORITHMS: ECDSA P-384, SHA-384 and SHA-384. -/
def execNegotiateAlgorithms (s : State) : Host.Outcome State Fault Refusal :=
  .next (if pldmUp s = false then s
    else if s.mgmt.spdmCaps then
      spdmReply 0x63 (leBytes 4 0x80 ++ leBytes 4 2 ++ leBytes 4 4) { s with mgmt := { s.mgmt with spdmAlgs := true } }
    else spdmError 4 s)

/-- GET_DIGESTS: of slot 0 alone. -/
def execGetDigests (s : State) : Host.Outcome State Fault Refusal :=
  .next (negotiated (spdmReply 0x01 (1 :: digestBytes (Config.sha384 Config.certChain))) s)

/-- GET_CERTIFICATE. -/
def execGetCertificate (slot : Byte) (s : State) : Host.Outcome State Fault Refusal :=
  .next (negotiated (fun s => if slot = 0 then spdmReply 0x02 Config.certChain s else spdmError 1 s) s)

/-- CHALLENGE. -/
def execChallenge (slot : Byte) (s : State) : Host.Outcome State Fault Refusal :=
  .next (negotiated (fun s =>
    if slot = 0 then signed 0x03 (digestBytes (Config.sha384 Config.certChain)) s else spdmError 1 s) s)

/-- The image bytes of running firmware. -/
def runBytes : Option Running → List Byte
  | some x => x.bytes
  | none => []

/-- Measurement block 4: the boot state at one instant. -/
def bootStateBytes (s : State) : List Byte :=
  [0xE0000, 0xE0024, 0xE001C, 0xE0020, 0xE00C0, 0, 0x10, 8].flatMap fun o => leBytes 4 (rd s o).toNat

/-- A measurement block (15 R449). -/
def measureBlock (s : State) (i : Nat) : List Byte := match i with
  | 1 => digestBytes Config.romDigest
  | 2 => digestBytes (Config.sha384 (runBytes s.mgmt.mfw))
  | 3 => digestBytes (Config.sha384 (runBytes s.mgmt.dmc))
  | 4 => bootStateBytes s
  | _ => digestBytes (Config.sha384 (imageTable (runBytes s.mgmt.mfw)).flatten)

/-- A block with its index before it. -/
def measureEntry (s : State) (i : Nat) : List Byte := BitVec.ofNat 8 i :: measureBlock s i

/-- GET_MEASUREMENTS: index 0 asks for the number of blocks, 0xFF for all of them. -/
def execGetMeasurements (index : Byte) (s : State) : Host.Outcome State Fault Refusal :=
  .next (negotiated (fun s =>
    if index = 0 then signed 0x60 [5] s
    else if index = 0xFF then signed 0x60 ([1, 2, 3, 4, 5].flatMap (measureEntry s)) s
    else if index.toNat ≤ 5 then signed 0x60 (measureEntry s index.toNat) s
    else spdmError 1 s) s)

/-- SPDM_UNSUPPORTED_REQUEST: ERROR with UnsupportedRequest. -/
def execSpdmUnsupportedRequest (code : Byte) (s : State) : Host.Outcome State Fault Refusal :=
  .next (if pldmUp s then spdmReply 0x7F [7, code] s else s)

end Sys2Proof.Machine
end

