-- ==== Sys2Proof/Machine/Power.lean ====
section
/-! DEFINITION. Supply, heat and reset: the sag warning and what it sheds, the sag reset, throttling, the thermal trip, the
holdover supply, the regulator, and the causes that reset and release the main domain (12 R358, R359; 14 R410–R416;
15 R430; 16 R457–R464). -/

namespace Sys2Proof.Machine

/-! ### The sag warning (12 R358, R359; 14 R411, R412) -/

/-- The set-point that thresholds are taken from: the lower target while a change of VSET is in progress, and VBOOT before the
first command, which a boot into recovery does not reach (16 R457). -/
def vBase (s : State) : Nat := match s.board.avs with
  | some a => min a.old a.new
  | none => if s.mgmt.recovery then 750 else (rd s 0x40030).toNat

/-- VWARN and VRESET. -/
def vWarn (s : State) : Nat := rdf s 0x40010 7 0
def vReset (s : State) : Nat := rdf s 0x40010 15 8

/-- VDD_MIN keeps the lowest reading since it was last read; 0 stands for none. -/
def vddMin (mv : Nat) (s : State) : State :=
  if rd s 0x40034 = 0 ∨ mv < (rd s 0x40034).toNat then wr 0x40034 (BitVec.ofNat 32 mv) s else s

/-- A second-unit item is stopped by the warning: FLOW_OBSERVE items end, the others return to their queue. -/
def shedItem (i : Item) (s : State) : State := requeueItem i.num 0x50 s

/-- The item runs on a tile of a PHY partition. -/
def onPhyTile (s : State) (i : Item) : Bool := match i.on with
  | some (n, _) => decide (partKind s (tilePart s n) = 1)
  | none => false

def shedItems : List Item → State → State
  | [], s => s
  | i :: is, s => shedItems is (if onPhyTile s i then shedItem i s else s)

/-- Tiles of TAKE partitions stall, or go on. -/
def stallTake (v : Bool) : List Nat → State → State
  | [], s => s
  | n :: ns, s =>
    stallTake v ns
      (if decide (tileRole s n ≠ 0) && decide (partKind s (tilePart s n) = 3) then
        setTile n { tileOf s n with stalled := v } s else s)

/-- The interim record of a running job in this assertion of the warning: its queue position is 0 (03 R99; log 109). -/
def sagJob (j : Job) (s : State) : State :=
  if j.sagTold then s else interim j.ref 0x50 0 (setJob { j with sagTold := true } s)

def sagJobs : List Job → State → State
  | [], s => s
  | j :: js, s => sagJobs js (if j.running then sagJob j s else s)

/-- No job or item has told of this assertion yet. -/
def clearSagTold (s : State) : State :=
  { s with jobs := s.jobs.map fun j => { j with sagTold := false }, items := s.items.map fun i => { i with sagTold := false } }

/-- The warning asserts. -/
def sagAssert (s : State) : State :=
  let s1 := report ⟨.gaffer, true, 1, 0, .none⟩
    (bump 0x40050 1 (raise gafferEvent 0 (wrf gafferStatus 1 0 3 (clearSagTold s))))
  ledgerCommit (sagJobs s1.jobs (stallTake true (List.range Config.nTiles) (shedItems s1.items s1)))

/-- SAG_WARNING: a detector reads `mv`. A reading below the warning threshold stretches the clock; one below the reset
threshold that causes no reset is a deep dip. -/
def execSagWarning (mv : Nat) (s : State) : Host.Outcome State Fault Refusal :=
  .next (if s.board.inReset then s
    else
      let s1 := vddMin mv s
      let s2 := if mv + vReset s < vBase s then bump 0x40054 1 s1 else s1
      if mv + vWarn s < vBase s then
        (let s3 : State := { s2 with board := { s2.board with aboveFrom := none } }
         if rdb s3 gafferStatus 0 then wrf gafferStatus 1 1 1 s3 else sagAssert s3)
      else s2)

/-- STRETCH_END: every detector has read 10 mV above the warning threshold for 1 µs. -/
def execStretchEnd (s : State) : Host.Outcome State Fault Refusal :=
  .next (if rdb s gafferStatus 1 then
      wrf gafferStatus 1 1 0 { s with board := { s.board with aboveFrom := some (s.clk - ticksUs) } }
    else s)

/-- SAG_CLEAR: they have done so for WARN_CLEAR; stalled tiles resume. -/
def execSagClear (s : State) : Host.Outcome State Fault Refusal :=
  .next (match s.board.aboveFrom with
    | none => s
    | some t =>
      if rdb s gafferStatus 0 && !rdb s gafferStatus 1 then
        (let s1 := runToClk (t + (rd s 0x40014).toNat * ticksUs) s
         let s2 := stallTake false (List.range Config.nTiles) (raise gafferEvent 1 (wrf gafferStatus 0 0 0 s1))
         { s2 with board := { s2.board with aboveFrom := none } })
      else s)

/-- SAG_RESET: the main domain is reset without a commit, cause 1. -/
def execSagReset (s : State) : Host.Outcome State Fault Refusal := .next (mainReset 1 s)

/-! ### Heat and power (14 R413, R414) -/

/-- The clock's floor in MHz: F_FLOOR, or the largest F_MIN_KHZ of a loaded image. -/
def clockFloor (s : State) : Nat :=
  s.loaded.foldl (fun a l => max a (ceilDiv l.img.fMin 1000)) (rdf s 0x4001C 10 0)

/-- The clock after a step: down while hot, to the floor; up while cool, to FCLK. -/
def steppedClock (s : State) (hot cool : Bool) : Nat :=
  let f := (rd s 0x40038).toNat
  if hot then max (min f (clockFloor s)) (f - 50)
  else if cool then min (max f (rdf s 0x40018 10 0)) (f + 50)
  else f

/-- The clock is held at its floor while the condition persists: STATUS.AT_FLOOR and a correctable event. -/
def atFloor (v : Bool) (s : State) : State :=
  let t := wrf gafferStatus 4 4 (bnat v) s
  if v && !rdb s gafferStatus 4 then report ⟨.gaffer, true, 4, 0, .none⟩ t else t

/-- One throttle step with the readings of the millisecond. -/
def throttle (tj : Byte) (watts : Nat) (s : State) : State :=
  let hotT := decide ((rd s 0x40024).toNat ≤ tj.toNat)
  let hotP := decide ((rd s 0x40020).toNat < watts)
  let cool := decide (tj.toNat + 3 < (rd s 0x40024).toNat) && decide (100 * watts ≤ 95 * (rd s 0x40020).toNat)
  let f := (rd s 0x40038).toNat
  let g := steppedClock s (hotT || hotP) cool
  let s1 := wr 0x40040 (BitVec.ofNat 32 watts) (wr 0x4003C (tj.setWidth 32) s)
  let s2 := wrf gafferStatus 3 3 (bnat hotP) (wrf gafferStatus 2 2 (bnat hotT) s1)
  let s3 := atFloor ((hotT || hotP) && decide (f ≤ clockFloor s)) s2
  let s4 := wr 0x40038 (BitVec.ofNat 32 g) (if g < f then raise gafferEvent 2 s3 else s3)
  let s5 := if g < rdf s4 0x40018 10 0 then bump 0x40058 1 s4 else s4
  if 105 ≤ tj.toNat then raise gafferEvent 3 s5 else s5

/-- THROTTLE_STEP: the Gaffer judges heat and power at the next millisecond. -/
def execThrottleStep (tj : Byte) (watts : Nat) (s : State) : Host.Outcome State Fault Refusal :=
  .next (if s.board.inReset then s else throttle tj watts (runToClk ((s.clk / ticksMs + 1) * ticksMs) s))

/-- Number of THERM_TRIP_N among the pins. -/
abbrev pinThermTrip : Nat := 1

/-- THERMAL_TRIP: a sensor has read 115 °C for 10 µs. The trip is logged, the ledger committed, THERM_TRIP_N driven low and
the main domain reset with cause 2. -/
def execThermalTrip (tj : Byte) (s : State) : Host.Outcome State Fault Refusal :=
  .next (if s.board.inReset ∨ tj.toNat < 115 then s
    else
      let s1 := raise faultEvent 1 (bump 0x50038 1 (logFault (5, 0) 2 3 0 0xFF (0, 0, 0) 0 s))
      let s2 := commitReset 2 s1
      emit (.pin pinThermTrip false) { s2 with board := { s2.board with thermTripN := false } })

/-- THERM_TRIP_N is driven. -/
def driveTrip (v : Bool) (s : State) : State := emit (.pin pinThermTrip v) { s with board := { s.board with thermTripN := v } }

/-- THERM_TRIP_RELEASE: PWR_GOOD has been low for 10 ms (16 R463). -/
def execThermTripRelease (s : State) : Host.Outcome State Fault Refusal :=
  .next (if s.board.thermTripN ∨ s.board.pwrGood then s
    else driveTrip true (runToClk (s.board.pwrAt + 10 * ticksMs) s))

/-- RAIL_OUT_OF_RANGE: a monitored rail leaves its range (14 R410). -/
def execRailOutOfRange (rail : BitVec 4) (s : State) : Host.Outcome State Fault Refusal :=
  .next (if s.board.inReset then s
    else report ⟨.gaffer, true, 5, rail.setWidth 64, .none⟩ (raise gafferEvent 5 s))

/-! ### The holdover supply (14 R416) -/

/-- VBAT_LOW: the cell reads `mv`; below 2.5 V the event is set. -/
def execVbatLow (mv : Nat) (s : State) : Host.Outcome State Fault Refusal :=
  .next (let t : State := { s with hold := { s.hold with vbat := mv } }
    if mv < 2500 ∧ t.board.inReset = false then raise gafferEvent 4 t else t)

/-- MAIN_FEED_FAIL: the domain switches to VBAT. -/
def execMainFeedFail (s : State) : Host.Outcome State Fault Refusal :=
  .next { s with hold := { s.hold with onMain := false } }

/-- MAIN_FEED_RESTORED: the feed has been good for 2 ms. -/
def execMainFeedRestored (s : State) : Host.Outcome State Fault Refusal :=
  .next { s with hold := { s.hold with onMain := true } }

/-- HOLDOVER_SUPPLY_DROP: the domain supply falls below 1.9 V. -/
def execHoldoverSupplyDrop (s : State) : Host.Outcome State Fault Refusal :=
  .next { s with hold := { s.hold with intact := false } }

/-! ### Causes of reset and its release (16 R460–R464) -/

/-- PWR_GOOD_FALL: the ledger is committed and the main domain reset, cause 0. -/
def execPwrGoodFall (s : State) : Host.Outcome State Fault Refusal :=
  .next (if s.board.pwrGood then
      (let t := commitReset 0 s
       { t with board := { t.board with pwrGood := false, pwrAt := t.clk }, mgmt := { t.mgmt with unlocked := false } })
    else s)

/-- PERST_FALL: PERST_N has fallen past the glitch filter, cause 3. -/
def execPerstFall (s : State) : Host.Outcome State Fault Refusal :=
  .next (let t := commitReset 3 s
    { t with board := { t.board with perstN := false } })

/-- REFCLK_SYS_STOP: the monitor declares the clock stopped, cause 0. -/
def execRefclkSysStop (s : State) : Host.Outcome State Fault Refusal :=
  .next (let t := commitReset 0 s
    { t with board := { t.board with refSys := false } })

/-- RESET_RELEASE: PWR_GOOD, PERST_N, TEST_EN and REFCLK_SYS are as R460 asks, and the main domain leaves reset where the
holdover domain is on its main feed and nothing else holds it. `sigs` says, image by image, whether key and signature
verify. -/
def execResetRelease (sigs : List (Bool × Bool)) (s : State) : Host.Outcome State Fault Refusal :=
  .next (if s.board.inReset && s.hold.onMain && s.board.thermTripN && !s.mgmt.scanHold then
      bootUp sigs { s with board := { s.board with
        inReset := false, pwrGood := true, perstN := true, testEn := false, refSys := true } }
    else s)

/-! ### The regulator and the heartbeat (15 R430, 16 R457) -/

/-- AVS_COMPLETE: the regulator reports completion of the change. -/
def execAvsComplete (s : State) : Host.Outcome State Fault Refusal :=
  .next { s with board := { s.board with avs := none } }

/-- AVS_TIMEOUT: three commands in a row have gone unanswered. -/
def execAvsTimeout (s : State) : Host.Outcome State Fault Refusal := .next (commitReset 4 s)

/-- The adaptive voltage request in progress is given up. -/
def dropAvs (s : State) : State :=
  { s with board := { s.board with avs := none } }

/-- AVS_THRESHOLD_TIMEOUT: 1 ms after a change without a report, thresholds follow the new target alone. -/
def execAvsThresholdTimeout (s : State) : Host.Outcome State Fault Refusal :=
  .next (match s.board.avs with
    | none => s
    | some a => dropAvs (runToClk (a.since + ticksMs) s))

/-- DMC_HEARTBEAT: the director answers. -/
def execDmcHeartbeat (s : State) : Host.Outcome State Fault Refusal :=
  .next (if s.mgmt.dmc.isSome then { s with mgmt := { s.mgmt with beat := s.clk } } else s)

/-- DMC_HEARTBEAT_TIMEOUT: no answer for 100 ms; the ledger is committed and the main domain reset, cause 4. -/
def execDmcHeartbeatTimeout (s : State) : Host.Outcome State Fault Refusal :=
  .next (if s.mgmt.dmc.isSome then commitReset 4 (runToClk (s.mgmt.beat + 100 * ticksMs) s) else s)

end Sys2Proof.Machine
end

