-- ==== Sys2Proof/Machine/Radio.lean ====
section
/-! DEFINITION. The radio rows: slots, downlink windows, rushes captures, received fronthaul frames and delay measurement
(08 R230–R247; 09 R267, R279–R281). -/

namespace Sys2Proof.Machine

/-! ### Slots (08 R245; 09 R259, R267) -/

/-- The next slot of grid `g` to begin: its start, SFN and slot number. -/
def nextSlot (s : State) (g : Nat) : Nat × Nat × Nat :=
  let u := nowUnits s
  let x := slotAt s g u
  let t0 := slotStartAt s g x.1 x.2
  let fresh := decide (t0 = u) && decide (tabFind s.radio.begun g ≠ some u)
  let y : Int × Nat := if fresh then x else if x.2 + 1 < slotsPerFrame (gridMu s g) then (x.1, x.2 + 1) else (x.1 + 1, 0)
  (slotStartAt s g y.1 y.2, (y.1 % 1024).toNat, y.2)

/-- Transport blocks that still wait for the downlink request of a slot that begins are refused. -/
def expireTx (g : GridIx) (sfn slot : Nat) : List TxWait → State → State
  | [], s => s
  | w :: ws, s =>
    expireTx g sfn slot ws
      (if w.grid = g ∧ w.sfn.toNat = sfn ∧ w.slot.toNat = slot then
        refuse w.ref 0x33 { s with radio := { s.radio with tx := s.radio.tx.filter fun x => decide (x.ref ≠ w.ref) } }
      else s)

/-- The event record of a slot's start; DISP_COUNT does not count it (12 R362). -/
def slotEvent (g sfn slot t0 : Nat) (s : State) : State :=
  let p := rdf s 0x30320 15 8
  let dark := sceneActive s && decide (s.time.sceneT1 ≤ t0) && cueSuppressed s g t0
  if rdb s 0x30320 1 && locked s && pairEn s p && pairIsEvent s p && (pairOf s p).live then
    eventRec p
      { event := true, interim := false, status := if dark then 0x33 else 0, disp := if dark then 10 else 0, cls := 0,
        tag8 := 0, ring := 0, descIndex := 0, result := BitVec.ofNat 64 (slotWord g sfn slot), progress := 0, faultRef := 0,
        urgent := false } s
  else s

/-- The slot last begun on grid `g` starts at `t0`. -/
def setBegun (g t0 : Nat) (s : State) : State :=
  { s with radio := { s.radio with begun := tabSet (fun _ => 0) s.radio.begun g t0 } }

/-- The landing bitmaps of the slot's place are cleared. -/
def clearLanding (g t0 : Nat) (s : State) : State :=
  clearBitmaps (ulBase s g) (ulStreams s g) (slotPos s g t0) (14 * ulStreams s g) s

/-- Transport blocks that still wait for the slot expire, and those bound to it are no longer remembered. -/
def expireWaits (g : GridIx) (sfn slot : Nat) (s : State) : State :=
  expireTx g sfn slot s.radio.tx
    { s with radio := { s.radio with bound := s.radio.bound.filter fun x => decide (x.1 ≠ slotWord g.val sfn slot) } }

/-- The slot `x` of grid `g` begins. -/
def beginSlot (g : GridIx) (x : Nat × Nat × Nat) (s : State) : State :=
  slotEvent g.val x.2.1 x.2.2 x.1 (expireWaits g x.2.1 x.2.2 (clearLanding g.val x.1 (setBegun g.val x.1 s)))

/-- SLOT_START: the next slot of a running grid begins. -/
def execSlotStart (g : GridIx) (s : State) : Host.Outcome State Fault Refusal :=
  .next (if gridRuns s g.val then
      beginSlot g (nextSlot s g.val) (runToTime (nextSlot s g.val).1 s)
    else s)

/-! ### Downlink windows (08 R246; 09 R279) -/

/-- Start of a symbol of a slot, in units, as bound now. -/
def symbolAt (s : State) (g : GridIx) (sfn : BitVec 10) (slot : BitVec 5) (symbol : Nat) : Int :=
  bindCue s g.val sfn.toNat slot.toNat symbol 0 (nowUnits s)

/-- T1A_UP MAX and MIN in units. -/
def t1aMax (s : State) : Nat := rdf s 0xD0018 15 0 * 10 * unitsNs
def t1aMin (s : State) : Nat := rdf s 0xD0018 31 16 * 10 * unitsNs

/-- Runs of consecutive PRBs of at most `m`, lowest first; `acc` holds those found, newest first (log 66). -/
def prbRuns (m : Nat) : List (Nat × Nat) → List Nat → List (Nat × Nat)
  | acc, [] => acc.reverse
  | [], k :: ks => prbRuns m [(k, 1)] ks
  | (a, n) :: rest, k :: ks =>
    if a + n = k ∧ n < m then prbRuns m ((a, n + 1) :: rest) ks else prbRuns m ((k, 1) :: (a, n) :: rest) ks

/-- PRBs that a frame of one section holds: what fits the limit beside the headers, at most 255. -/
def prbsPerFrame (s : State) (p : Nat) : Nat :=
  let head := 38 + (if rdb s (fhReg p 0) 2 then 4 else 0) + (if fhStatic s p then 0 else 2)
  min 255 ((fhLimit s p - head) / (1 + 3 * dlWidth s p))

/-- The frames of a map entry for the runs of a symbol buffer at `a`. -/
def uplaneSends (w : Word) (a sfn slot symbol : Nat) (late : Bool) : List (Nat × Nat) → State → State
  | [], s => s
  | (k, n) :: rs, s =>
    let p := eaxcPort w
    let id : BitVec 16 := w.setWidth 16
    let mu := gridMu s (eaxcGrid w)
    let xs := (List.range n).map fun i => prbBytes (dlWidth s p) (getPrb s a (k + i))
    let o : Output := .fhUplane p (fhHeader s p (some (rdf s (fhReg p 0) 8 6))) id (seqNext s p id true) (sfn % 256) (slot / 2 ^ mu) (slot % 2 ^ mu) symbol k n
      (xs.flatMap fun (x : List Byte × Nat) => x.1)
    let t := if late then bump (fhReg p 0x38) 1 s
      else bump (fhReg p 0x3C) (xs.map fun (x : List Byte × Nat) => x.2).sum (fhSendSeq p id true o s)
    uplaneSends w a sfn slot symbol late rs t

/-- The frames of every downlink map entry of a grid. -/
def uplaneEntries (g pos sfn slot symbol : Nat) (late : Bool) : List Word → State → State
  | [], s => s
  | w :: ws, s =>
    let a := symbolBuf (dlBase s g) (dlStreams s g) pos (eaxcStream w) symbol
    uplaneEntries g pos sfn slot symbol late ws
      (uplaneSends w a sfn slot symbol late
        (prbRuns (prbsPerFrame s (eaxcPort w)) [] ((List.range 273).filter (prbSet s a))) s)

/-- DL_UPLANE_SEND: the window of a symbol opens; frames that have not started when it has closed are dropped. -/
def execDlUplaneSend (g : GridIx) (sfn : BitVec 10) (slot : BitVec 5) (symbol : Fin 14) (s : State) : Host.Outcome State Fault Refusal :=
  .next (if gridRuns s g.val && decide (slot.toNat < slotsPerFrame (gridMu s g.val)) then
      (let tl := (symbolAt s g sfn slot symbol.val).toNat
       let t0 := (symbolAt s g sfn slot 0).toNat
       let s1 := runToTime (tl - t1aMax s) s
       let ws := (eaxcLive s1).filter fun w => w.getLsbD 25 && decide (eaxcGrid w = g.val) && decide (eaxcStream w < dlStreams s1 g.val)
       uplaneEntries g.val (slotPos s1 g.val t0) sfn.toNat slot.toNat symbol.val (decide (tl - t1aMin s1 < nowUnits s1)) ws s1)
    else s)

/-- The bitmaps of a symbol are cleared for streams below `n`. -/
def clearSymbol (base streams pos symbol : Nat) : Nat → State → State
  | 0, s => s
  | n + 1, s => clearSymbol base streams pos symbol n (memPut (symbolBuf base streams pos n symbol) (zeros 64) s)

/-- DL_WINDOW_CLOSE. -/
def execDlWindowClose (g : GridIx) (sfn : BitVec 10) (slot : BitVec 5) (symbol : Fin 14) (s : State) : Host.Outcome State Fault Refusal :=
  .next (if gridRuns s g.val && decide (slot.toNat < slotsPerFrame (gridMu s g.val)) then
      (let tl := (symbolAt s g sfn slot symbol.val).toNat
       let t0 := (symbolAt s g sfn slot 0).toNat
       let s1 := runToTime (tl - t1aMin s) s
       clearSymbol (dlBase s1 g.val) (dlStreams s1 g.val) (slotPos s1 g.val t0) symbol.val (dlStreams s1 g.val) s1)
    else s)

/-! ### Rushes (09 R280, R281) -/

/-- Streams that a capture copies. -/
def capStreams (s : State) (c : Capture) : List Nat :=
  (List.range (ulStreams s c.grid.val)).filter fun k => c.mask.getLsbD k
/-- Bytes of a slot record. -/
def capBytes (s : State) (c : Capture) : Nat := 32 + (capStreams s c).length * 184576

/-- A capture with new contents, and its end: SERVED with the bytes written. -/
def setCapture (c : Capture) (s : State) : State :=
  { s with radio := { s.radio with captures := s.radio.captures.map fun x => if x.ref = c.ref then c else x } }
def endCapture (c : Capture) (s : State) : State :=
  finish c.ref (okStatus false false s) 0 0 c.written 0 []
    { s with radio := { s.radio with captures := s.radio.captures.filter (fun x => decide (x.ref ≠ c.ref)),
                                     rushes := s.radio.rushes.filter fun x => decide (x.grid ≠ c.grid) } }

/-- The capture ends once its slots are used up or no further record fits. -/
def checkCapture (c : Capture) (s : State) : State :=
  if c.left = some 0 ∨ c.room < c.written + capBytes s c then endCapture c s else setCapture c s

/-- The active capture of a grid. -/
def captureOf (s : State) (g : Nat) : Option Capture := s.radio.captures.find? fun c => decide (c.grid.val = g)

/-- Check 13 of RUSHES_CTRL and its effect. -/
def rushesGo (r : DRef) (d : BitVec 512) (s : State) : State :=
  let g := field (dOpw d 0) 1 0
  let stop := (dOpw d 0).getLsbD 2
  if field (dOpw d 0) 15 3 ≠ 0 ∨ dBits d 320 192 ≠ 0 then refuse r 0x10 s
  else if rdb s 0x30320 0 = false then finish r (okStatus false false s) 4 0 0 0 [] s
  else match captureOf s g with
    | some c =>
      if stop then (let t := endCapture c s; finish r (okStatus false false t) 0 0 0 0 [] t)
      else finish r (okStatus false false s) 3 0 0 0 [] s
    | none =>
      if stop then finish r (okStatus false false s) 0 0 0 0 [] s
      else
        let c : Capture :=
          { ref := r, grid := Fin.ofNat 4 g, mask := BitVec.ofNat 16 (field (dOpw d 0) 31 16),
            left := if dOpw d 1 = 0 then none else some (dOpw d 1).toNat, addr := dAddr1 d, dev := dA1Dev d, room := dLen1 d, written := 0 }
        checkCapture c (markStarted r { s with radio := { s.radio with captures := s.radio.captures ++ [c] } })

/-- RUSHES_CTRL. -/
def execRushesCtrl (r : DRef) (s : State) : Host.Outcome State Fault Refusal :=
  .next (runDesc r 0x56 (fun _ _ => { out1 := true }) (rushesGo r) s)

/-- The slot header of a record. -/
def capHeader (c : Capture) (x : RushDue) (incomplete : Bool) : List Byte :=
  let t := counterAt x.t0
  leBytes 4 (slotWord x.grid.val x.sfn.toNat x.slot.toNat) ++ leBytes 2 c.mask.toNat ++ leBytes 1 (bnat incomplete) ++ [0] ++
    leBytes 4 t.sec.toNat ++ leBytes 4 t.ns.toNat ++ zeros 16

/-- Bytes go to a capture buffer, host or device. -/
def capWrite (c : Capture) (bs : List Byte) (s : State) : State :=
  let a := c.addr + BitVec.ofNat 64 c.written
  if c.dev then devWrite a.toNat bs s
  else putBatch c.ref.pair ⟨[(a, bs)], none⟩ s

/-- RUSHES_COPY: the landing buffers of a slot are copied, then its header; a copy not finished in time is INCOMPLETE. -/
def execRushesCopy (g : GridIx) (sfn : BitVec 10) (slot : BitVec 5) (inTime : Bool) (s : State) : Host.Outcome State Fault Refusal :=
  .next (match s.radio.rushes.find? fun x => decide (x.grid = g) && decide (x.sfn = sfn) && decide (x.slot = slot) with
    | none => s
    | some x =>
      let s1 : State := { s with radio := { s.radio with rushes := s.radio.rushes.filter fun y => decide (y ≠ x) } }
      match captureOf s1 g.val with
      | none => s1
      | some c =>
        let pos := slotPos s1 g.val x.t0
        let data := (capStreams s1 c).flatMap fun k => memRead s1 (symbolBuf (ulBase s1 g.val) (ulStreams s1 g.val) pos k 0) 184576
        let s2 := capWrite c (data ++ capHeader c x (!inTime)) s1
        let s3 := if inTime then s2 else bump 0x3033C 1 s2
        checkCapture { c with written := c.written + capBytes s1 c, left := c.left.map fun n => n - 1 } s3)

/-! ### Delay measurement (08 R234) -/

/-- Device time at the calibration point as whole ns, `ps` of board delay before (negative: after) now; which way the fraction
rounds is a free value (log 1). -/
def delayStamp (s : State) (p : Nat) (ps : Int) : Nat :=
  let u : Int := 1000 * (portUnits s p : Int) - ps * unitsNs
  (u / (1000 * unitsNs : Nat)).toNat + (if u % (1000 * unitsNs : Nat) = 0 then 0 else (freshVal s).toNat % 2)

/-- RX and TX delay of a fronthaul port in ps. -/
def fhRxDelay (s : State) (p : Nat) : Nat := rdf s (0x200C0 + 4 * p) 31 16
def fhTxDelay (s : State) (p : Nat) : Nat := rdf s (0x200C0 + 4 * p) 15 0

/-- A request is answered with its own ingress time. -/
def delayAnswer (p : Nat) (id : Byte) (s : State) : State :=
  useFree (fhSend p (.fhDelay p (fhHeader s p none) 2 id (delayStamp s p (fhRxDelay s p)) 0) s)
/-- A remote request makes the port send its own request with its egress time. -/
def delayAsk (p : Nat) (id : Byte) (s : State) : State :=
  useFree (fhSend p (.fhDelay p (fhHeader s p none) 0 id (delayStamp s p (-(fhTxDelay s p : Int))) 0) s)

/-- ECPRI_DELAY_REQUEST: such a frame has been received and accepted. -/
def execEcpriDelayRequest (port : Fin 8) (measId : Byte) (s : State) : Host.Outcome State Fault Refusal :=
  .next (if fhPortEn s port then delayAnswer port measId (bump (fhReg port 0x20) 1 s) else s)

/-- ECPRI_REMOTE_REQUEST. -/
def execEcpriRemoteRequest (port : Fin 8) (measId : Byte) (s : State) : Host.Outcome State Fault Refusal :=
  .next (if fhPortEn s port then delayAsk port measId (bump (fhReg port 0x20) 1 s) else s)

/-- FH_LINK_CHANGE. -/
def execFhLinkChange (port : Fin 8) (up : Bool) (s : State) : Host.Outcome State Fault Refusal :=
  .next (if fhLinkUp s port = up then s else raise fhEvent 0 (wrf 0xD0000 port port (bnat up) s))

/-! ### Received frames (08 R231–R245) -/

/-- A frame is discarded and counted. -/
def fhDiscard (p : Nat) (s : State) : State := bump (fhReg p 0x24) 1 s

/-- The two PTP addresses (02 R57). -/
def ptpMacs : List Nat := [0x011B19000000, 0x0180C200000E]

/-- The VLAN tag is what the port wants. -/
def fhVlanOk (s : State) (p : Nat) (v : Option (BitVec 12)) : Bool := match v with
  | none => !rdb s (fhReg p 0) 2
  | some x => rdb s (fhReg p 0) 2 && decide (x.toNat = rdf s (fhReg p 0) 23 12)

/-- The eCPRI common header passes, and the E bit of types 0 and 2 (R233); a type 2 message counts as passing. -/
def ecpriOk (f : FhFrame) : Bool :=
  decide (f.revision = 1) && f.reservedZero && !f.concat && f.payloadLenOk && (match f.msg with
    | .uplane _ _ e _ _ _ _ _ _ _ _ => e
    | .cplane => true
    | .delay _ _ => true
    | .other _ => false)

/-- The sequence ID of an uplink eAxC ID is compared with the last (R243). The table holds the last plus 1; 0: none yet. -/
def seqCheck (p : Nat) (eaxc : BitVec 16) (seq : Byte) (s : State) : State :=
  let k := seqKey p eaxc false
  let old := tabGet (fun _ => 0) s.radio.seqRx k
  let t : State := { s with radio := { s.radio with seqRx := tabSet (fun _ => 0) s.radio.seqRx k (seq.toNat + 1) } }
  if old = 0 ∨ old % 256 = seq.toNat then t else raise fhEvent 3 (bump (fhReg p 0x34) 1 t)

/-- Mantissa width of a received section, where the section may be taken (R239). -/
def sectionWidth (s : State) (p : Nat) (x : USection) : Option Nat :=
  if fhStatic s p then some (ulWidth s p)
  else if x.compMeth ≠ 1 then none
  else match x.compWidth.toNat with
    | 9 => some 9 | 12 => some 12 | 14 => some 14 | 0 => some 16 | _ => none

/-- PRBs of a section: all of the carrier where numPrbu is 0. -/
def sectionPrbs (s : State) (g : Nat) (x : USection) : Nat := if x.numPrb = 0 then prbCount s g else x.numPrb

/-- A section breaks R242. -/
def sectionBad (s : State) (g : Nat) (x : USection) : Bool :=
  x.rb || x.symInc || decide (prbCount s g < x.startPrb + sectionPrbs s g x)

/-- PRBs from `k` on land in the buffer at `a`. -/
def landPrbs (p w a : Nat) : Nat → List (Byte × List Byte) → State → State
  | _, [], s => s
  | k, (e, bs) :: xs, s =>
    let r := prbExpand w e bs
    landPrbs p w a (k + 1) xs (bump (fhReg p 0x3C) r.2 (putPrb a k r.1 s))

/-- The frame number nearest to now whose last eight bits are `frame`. -/
def nearFrame (s : State) (g frame : Nat) : Int :=
  let now := (slotAt s g (nowUnits s)).1
  let d := ((frame : Int) - now) % 256
  if d < 128 then now + d else now + d - 256

/-- The uplink slot is suppressed: an uplink chain of it fell to a scene change, and no other is armed for it (02 R47). -/
def slotDark (s : State) (g : Nat) (frame : Int) (slot : Nat) : Bool :=
  let sfn := (frame % 1024).toNat
  let key := (g * 1024 + sfn) * 32 + slot
  (s.radio.dark.any fun x => decide (x.1 = key) && decide (s.clk - x.2 < 1280 * ticksMs)) &&
    !(s.chains.any fun c => decide (c.grid.val = g) && decide (c.sfn.toNat = sfn) && decide (c.slot.toNat = slot) &&
      decide (chainKind c.chain ≤ 1) && !c.ended)

/-- A section of a mapped uplink message of slot (`frame`, `slot`) and symbol `l`: lands, or is discarded and counted. -/
def landSection (w : Word) (frame : Int) (slot l : Nat) (x : USection) (s : State) : State :=
  let p := eaxcPort w
  let g := eaxcGrid w
  match sectionWidth s p x with
  | none => fhDiscard p s
  | some wd =>
    if sectionBad s g x || slotDark s g frame slot then fhDiscard p s
    else
      let rx : Int := 1000 * (portUnits s p : Int) - fhRxDelay s p * unitsNs
      let t0 := slotStartAt s g frame slot
      let tl : Int := 1000 * ((t0 + symbolUnits (gridMu s g) l : Nat) : Int)
      if rx < tl + 1000 * (rdf s 0xD0010 15 0 * 10 * unitsNs : Nat) then bump (fhReg p 0x2C) 1 s
      else if tl + 1000 * (rdf s 0xD0014 15 0 * 10 * unitsNs : Nat) < rx then raise fhEvent 1 (bump (fhReg p 0x30) 1 s)
      else
        let here := if w.getLsbD 26 then nowUnits s else t0
        landPrbs p wd (symbolBuf (ulBase s g) (ulStreams s g) (slotPos s g here) (eaxcStream w) l) x.startPrb
          (x.prbs.take (sectionPrbs s g x)) s

def landSections (w : Word) (frame : Int) (slot l : Nat) : List USection → State → State
  | [], s => s
  | x :: xs, s => landSections w frame slot l xs (landSection w frame slot l x s)

/-- The map entry of an uplink eAxC ID on a port. -/
def upEntry (s : State) (p : Nat) (eaxc : BitVec 16) : Option Word :=
  (eaxcLive s).find? fun w => eaxcUp w && decide (eaxcPort w = p) && decide (w.setWidth 16 = eaxc)

/-- An uplink U-plane message of a mapped eAxC ID. A slot or symbol number outside the grid's numerology discards the frame
(log 65). -/
def uplaneReceive (p : Nat) (eaxc : BitVec 16) (seq : Byte) (version : BitVec 3) (filter : BitVec 4) (frame sub slot symbol : Nat)
    (xs : List USection) (s : State) : State :=
  match upEntry s p eaxc with
  | none => bump (fhReg p 0x28) 1 s
  | some w =>
    let t := seqCheck p eaxc seq s
    let mu := gridMu t (eaxcGrid w)
    if version ≠ 1 ∨ filter ≠ filterOf t w ∨ 9 < sub ∨ 2 ^ mu ≤ slot ∨ 13 < symbol then fhDiscard p t
    else landSections w (nearFrame t (eaxcGrid w) frame) (sub * 2 ^ mu + slot) symbol xs t

/-- An accepted eCPRI message. -/
def ecpriReceive (p : Nat) (m : Ecpri) (s : State) : State := match m with
  | .uplane eaxc seq _ downlink version filter frame sub slot symbol xs =>
    if downlink then fhDiscard p s else uplaneReceive p eaxc seq version filter frame.toNat sub.toNat slot.toNat symbol.toNat xs s
  | .cplane => fhDiscard p s
  | .delay action id =>
    if action = 0 then delayAnswer p id s else if action = 3 then delayAsk p id s else if action = 2 then s else fhDiscard p s
  | .other _ => fhDiscard p s

/-- A frame with a good FCS, in the order of R232. -/
def fhGood (p : Nat) (f : FhFrame) (s : State) : State :=
  if f.length < 64 ∨ fhLimit s p < f.length then fhDiscard p s
  else if f.etherType = 0x88F7 then ptpAtPort p f.ptp s
  else if f.etherType ≠ 0xAEFE then fhDiscard p s
  else if (fhMac s p :: ptpMacs).contains f.dst.toNat = false ∨ fhVlanOk s p f.vlan = false ∨ ecpriOk f = false then fhDiscard p s
  else ecpriReceive p f.msg s

/-- FH_FRAME_RECEIVE. -/
def execFhFrameReceive (port : Fin 8) (frame : FhFrame) (s : State) : Host.Outcome State Fault Refusal :=
  .next (if fhPortEn s port then
      (if frame.fcsOk then fhGood port frame (bump (fhReg port 0x20) 1 s) else fhDiscard port s)
    else s)

end Sys2Proof.Machine
end

