-- ==== Sys2Proof/Machine/Take.lean ====
section
/-! DEFINITION. Take jobs and slates: TAKE_RUN and TAKE_RESUME, the start and the restart of a job, SLATE_ARM, and slates
that fire or are waited for in vain (12 R353–R358; 13 R391–R395; 14 R406–R409). -/

namespace Sys2Proof.Machine

/-! ### TAKE_RUN and TAKE_RESUME (13 R395; 14 R406) -/

/-- The model that a MODEL_ID names, where it is loaded in a TAKE partition. -/
def takeModel (s : State) (id : Nat) : Option Loaded := match modelOf s id with
  | some l => if partKind s l.part = 3 then some l else none
  | none => none

/-- A raw exact contribution without LOCKED (13 R388). -/
def rawUnlocked (s : State) (l : Option Loaded) : Bool := match l with
  | some l => !detLock s && (imageColls l.img.raw).any fun c => decide (c.fmt = 4)
  | none => false

/-- OPW0 and OPW1 of a take. -/
def takeGroup (d : BitVec 512) : Fin 16 := Fin.ofNat 16 (field (dOpw d 0) 19 16)
def takeAtSlate (d : BitVec 512) : Bool := (dOpw d 0).getLsbD 20
def takeStart (d : BitVec 512) : Nat := if takeAtSlate d then field (dOpw d 1) 14 0 else 0
/-- The token of a TAKE_RESUME. -/
def takeToken (d : BitVec 512) : Dword := BitVec.ofNat 64 ((dOpw d 3).toNat + 2 ^ 32 * (dOpw d 7).toNat)

/-- Reserved bits of a take, and fields outside their ranges. -/
def takeMalformed (d : BitVec 512) (resume : Bool) : Bool :=
  decide (field (dOpw d 0) 31 21 ≠ 0) || decide (field (dOpw d 1) 31 15 ≠ 0) || decide (field (dOpw d 2) 31 16 ≠ 0) ||
    (takeAtSlate d && decide (takeStart d = 0)) || (!resume && decide (takeToken d ≠ 0)) ||
    (!dDigest d && (decide (dOpw d 4 ≠ 0) || decide (dOpw d 5 ≠ 0)))

/-- Jobs that wait in a partition's queue. -/
def takeQueue (s : State) (p : Nat) : List Job := s.jobs.filter fun j => decide (j.part = p) && !j.running

/-- A job; serial number and buffer of its first checkpoint follow its token, else they are free values (log 1). -/
def newJob (r : DRef) (d : BitVec 512) (l : Loaded) (tok : Option Token) (input : List Byte) (s : State) : Job :=
  { ref := r, image := l.num, part := l.part, running := false, layer := match tok with
      | some t => t.layer
      | none => 0,
    layers := Config.modelLayers l.img.raw, every := field (dOpw d 2) 15 0, token := tok,
    serial := match tok with
      | some t => t.serial + 1
      | none => (freshVal s).setWidth 8,
    buf := match tok with
      | some t => !t.buf
      | none => (freshVal s).getLsbD 8,
    ckpt := 0, retakes := 0, faultRef := 0, retaking := false, restoring := false, group := takeGroup d,
    start := BitVec.ofNat 16 (takeStart d), waiting := false, waitFrom := 0, slate := 0, colls := 0, arrived := false,
    det := dDet d, digest := dDigest d, lastDigest := 0, input, output := [], sagTold := false }

/-- The interim record of a take consumed under the sag warning, with the queue position in PROGRESS (12 R358; 03 R99). -/
def sagQueued (j : Job) (ahead : Nat) (s : State) : State :=
  if sagWarn s then interim j.ref 0x50 ahead (setJob { j with sagTold := true } s) else s

/-- A take is queued, or refused where the queue is full (12 R353, R356). -/
def queueTake (r : DRef) (d : BitVec 512) (l : Loaded) (tok : Option Token) (input : List Byte) (s : State) : State :=
  let ahead := (takeQueue s l.part).length
  if 256 ≤ ahead then finish r (okStatus false false s) 3 0 0 0 [] (bump 0x30490 1 s)
  else
    let j := newJob r d l tok input s
    let t := markStarted r (peakDepth 4 { useFree s with jobs := s.jobs ++ [j] })
    sagQueued j ahead (if ahead = 0 then t else interim r (okStatus false false t) ahead t)

/-- The digest of the token's buffer, recomputed, is the token's (14 R406). -/
def tokenStands (s : State) (l : Loaded) : Bool := match l.token with
  | some t => decide (bufferDigest s l t.buf = t.digest)
  | none => true

/-- Check 13 of a take, its input, and its queueing; `run` takes the served input. -/
def takeGo (r : DRef) (d : BitVec 512) (resume : Bool) (dma : Dma) (s : State) : State :=
  if takeMalformed d resume then refuse r 0x10 s
  else match takeModel s (field (dOpw d 0) 15 0) with
    | none => refuse r 0x42 s
    | some l =>
      if groupUsable s (takeGroup d).val = false ∨ (dDigest d = true ∧ (dOpw d 6).toNat / 8 < Config.modelLayers l.img.raw) then
        refuse r 0x42 s
      else if resume = false ∨ takeToken d = 0 then withInput r d dma (queueTake r d l none) s
      else if takeToken d ≠ tokenWord l.token ∨ (s.jobs.any fun j => j.running && decide (j.image = l.num)) = true then refuse r 0x42 s
      else if tokenStands s l = false then finish r 0x21 7 0 0 (lastUe s) [] s
      else withInput r d dma (queueTake r d l l.token) s

/-- What a take adds to the checks. -/
def takeRules (s : State) (d : BitVec 512) : OpRules :=
  let l := takeModel s (field (dOpw d 0) 15 0)
  { in0 := true, out1 := true, badMode := detConflict s d l || rawUnlocked s l }

/-- TAKE_RUN. -/
def execTakeRun (r : DRef) (input : Dma) (s : State) : Host.Outcome State Fault Refusal :=
  .next (runDesc r 0x40 takeRules (fun d s => takeGo r d false input s) s)

/-- TAKE_RESUME; the read of its input is answered with data, or not. -/
def execTakeResume (r : DRef) (answered : Bool) (input : List Byte) (s : State) : Host.Outcome State Fault Refusal :=
  .next (runDesc r 0x41 takeRules (fun d s => takeGo r d true (if answered then .data input else .error) s) s)

/-! ### Starting a job (12 R357; 13 R395) -/

/-- A job that waits begins to run. -/
def startJob (j : Job) (s : State) : State := startLayer { j with running := true, waiting := false, slate := j.start } s

/-- TAKE_JOB_START: the next job of a partition without a running one starts; one that starts at a slate waits for it. -/
def execTakeJobStart (p : Fin 8) (s : State) : Host.Outcome State Fault Refusal :=
  .next (if partKind s p ≠ 3 ∨ (jobOn s p).isSome then s
    else match takeQueue s p with
      | [] => s
      | j :: _ => match jobLoad s j with
        | none => s
        | some l =>
          if j.waiting || roleFenced s l then s
          else if j.start = 0 then startJob j s
          else setJob { j with waiting := true, waitFrom := s.clk } s)

/-- RETAKE_RESTART: the job of partition `p` restarts from its current token. It has restored, and waits for the layer barrier
that starts layer LAYER (14 R407, R409). -/
def execRetakeRestart (p : Fin 8) (s : State) : Host.Outcome State Fault Refusal :=
  .next (match jobOn s p with
    | none => s
    | some j => match jobLoad s j with
      | none => s
      | some l =>
        if j.retaking = false ∨ roleFenced s l = true then s
        else
          let layer := match j.token with
            | some t => t.layer
            | none => 0
          let k := { j with retaking := false, restoring := true, layer, arrived := false, colls := 0 }
          let b := barrierOf s j.group layer
          runColls 1 p (putBarrier { b with halted := true } (retakeFlag (setJob k s))))

/-! ### SLATE_ARM (13 R393) -/

/-- T of a SLATE_ARM, in units. -/
def slateTime (d : BitVec 512) : Nat :=
  ((dOpw d 1).toNat + 2 ^ 32 * field (dOpw d 2) 15 0) * unitsS + (dOpw d 3).toNat * unitsNs

/-- Reserved bits of a SLATE_ARM, and fields outside their ranges. -/
def slateMalformed (d : BitVec 512) : Bool :=
  decide (field (dOpw d 0) 15 0 = 0) || decide (32767 < field (dOpw d 0) 15 0) || decide (field (dOpw d 0) 31 20 ≠ 0) ||
    decide (field (dOpw d 2) 31 16 ≠ 0) || decide (1000000000 ≤ (dOpw d 3).toNat) || decide (dBits d 384 128 ≠ 0)

/-- The coordinator arms itself and sends ARM down the tree. -/
def slateArmed (r : DRef) (g : Fin 16) (id t : Nat) (s : State) : State :=
  let s1 := markStarted r (armSlate { group := g, id := BitVec.ofNat 16 id, time := t, acks := [], ref := some r } s)
  let kids := groupChildren s1 g.val
  let s2 := sendAll g 1 id (armPayload t none) kids s1
  if anyUnreached s1 1 kids then breakGroup g id 0x23 s2 else s2

/-- Check 13 of SLATE_ARM and its effect. -/
def slateArmGo (r : DRef) (d : BitVec 512) (s : State) : State :=
  let g := takeGroup d
  let id := field (dOpw d 0) 15 0
  if slateMalformed d then refuse r 0x10 s
  else if groupUsable s g.val = false ∨ groupCoord s g.val = false then refuse r 0x42 s
  else if slateTime d < nowUnits s + slateLead s then refuse r 0x33 s
  else if s.splice.slates.any (slateIs g id) then refuse r 0x42 s
  else if 64 ≤ s.splice.slates.length then finish r (okStatus true false s) 3 0 0 0 [] s
  else slateArmed r g id (slateTime d) s

/-- SLATE_ARM. -/
def execSlateArm (r : DRef) (s : State) : Host.Outcome State Fault Refusal :=
  .next (runDesc r 0x42 (fun _ _ => { timeDep := true }) (slateArmGo r) s)

/-! ### Slates that fire (13 R391, R393, R394) -/

/-- The slate leaves the armed ones. -/
def removeSlate (x : Slate) (s : State) : State :=
  { s with splice := { s.splice with slates := s.splice.slates.filter fun y => decide (y ≠ x) } }

/-- Jobs that wait for the slate start. -/
def startWaiting (g : Fin 16) (id : Nat) : List Job → State → State
  | [], s => s
  | j :: js, s =>
    startWaiting g id js
      (if j.waiting = true ∧ j.group = g ∧ j.start.toNat = id ∧ (jobOn s j.part).isNone = true then startJob j s else s)

/-- The coordinator's descriptor completes: SLATE_ID and the number of chips fired. -/
def slateRecord (x : Slate) (s : State) : State := match x.ref with
  | some r => finish r (okStatus true false s) 0 (BitVec.ofNat 64 (x.id.toNat + 2 ^ 32 * groupSize s x.group.val)) 0 0 [] s
  | none => s

/-- The group's job whose layer barrier the slate is goes on. -/
def barrierSlate (x : Slate) (s : State) : State := match groupJob s x.group with
  | some j => if j.arrived = true ∧ j.slate = x.id ∧ j.retaking = false then barrierFire j s else s
  | none => s

/-- The slate fires on this chip. -/
def fireSlate (x : Slate) (s : State) : State :=
  let t := slateRecord x (removeSlate x (bump 0xB0024 1 s))
  if 32768 ≤ x.id.toNat then barrierSlate x t else startWaiting x.group x.id.toNat t.jobs t

/-- Every child has acknowledged; a barrier's ARM needs no acknowledgement. -/
def slateAcked (s : State) (x : Slate) : Bool :=
  decide (32768 ≤ x.id.toNat) || (groupChildren s x.group.val).all fun c => x.acks.contains (BitVec.ofNat 14 c)

/-- A slate reaches its T, where it is still armed: on the coordinator an ACK that is missing breaks it. -/
def slateDue (x : Slate) (s : State) : State :=
  if s.splice.slates.contains x = false then s
  else if x.ref.isSome && !slateAcked s x then breakGroup x.group x.id.toNat 0x23 s
  else fireSlate x s

/-- A slate put in its place by SLATE_ID. -/
def orderSlate (x : Slate) : List Slate → List Slate
  | [] => [x]
  | y :: ys => if x.id.toNat ≤ y.id.toNat then x :: y :: ys else y :: orderSlate x ys

/-- The slates of the same T with a lower SLATE_ID, in ascending order (13 R391). -/
def slatesBefore (x : Slate) (l : List Slate) : List Slate :=
  (l.filter fun y => decide (y.time = x.time) && decide (y.id.toNat < x.id.toNat)).foldr orderSlate []

def slatesDue : List Slate → State → State
  | [], s => s
  | x :: xs, s => slatesDue xs (slateDue x s)

/-- SLATE_FIRE: the counter reaches T; slates with the same T fire on the same edge, in ascending SLATE_ID. -/
def execSlateFire (group : Fin 16) (slate : BitVec 16) (s : State) : Host.Outcome State Fault Refusal :=
  .next (match s.splice.slates.find? fun x => decide (x.group = group) && decide (x.id = slate) with
    | none => s
    | some x => slatesDue (slatesBefore x s.splice.slates ++ [x]) (runToTime x.time s))

/-- SLATE_WAIT_EXPIRY: START_SLATE is not armed on this chip in time. -/
def execSlateWaitExpiry (p : Fin 8) (s : State) : Host.Outcome State Fault Refusal :=
  .next (match (takeQueue s p).head? with
    | none => s
    | some j =>
      if j.waiting = true ∧ (s.splice.slates.any (slateIs j.group j.start.toNat)) = false then
        (let t := runToClk (j.waitFrom + (rd s 0xB0020).toNat * ticksS) s
         finish j.ref 0x23 7 0 0 0 [] (dropJob j.ref t))
      else s)

end Sys2Proof.Machine
end

