-- ==== Sys2Proof/Machine/Splice.lean ====
section
/-! DEFINITION. The Splice fabric: training, flits, error counters and fences of links, delivery of messages in order, the time
exchange, and what each kind of message does on arrival (13 R373–R394). -/

namespace Sys2Proof.Machine

/-! ### Links (13 R374, R379–R381) -/

/-- The chip at the far end of a link. -/
def linkPeer (s : State) (l : Nat) : Nat := rdf s (linkReg l 4) 29 16

/-- LINK_TRAIN_DONE: trained, and the peer's chip number exchanged. -/
def execLinkTrainDone (l : Fin 12) (peer : BitVec 14) (s : State) : Host.Outcome State Fault Refusal :=
  .next (if linkState s l = 1 then setLinkState l 2 (wrf (linkReg l 4) 29 16 peer.toNat s) else s)

/-- LINK_TRAIN_RETRY: every 200 ms in TRAIN. -/
def execLinkTrainRetry (l : Fin 12) (s : State) : Host.Outcome State Fault Refusal :=
  .next (if linkState s l = 1 then
      (let t := runToClk ((linkOf s l).trainAt + 200 * ticksMs) s
       emit (.spliceLink l 0 0) (setLink l { linkOf t l with trainAt := t.clk } t))
    else s)

/-- LINK_CAL_DONE: the link is UP. -/
def execLinkCalDone (l : Fin 12) (s : State) : Host.Outcome State Fault Refusal :=
  .next (if linkState s l = 2 then setLinkState l 3 s else s)

/-- The higher of a link's two error counters. -/
def linkErr (s : State) (l : Nat) : Nat := max (rdf s (linkReg l 8) 7 0) (rdf s (linkReg l 0xC) 7 0)

/-- The parent link of a follower now. -/
def parentLink (s : State) : Nat := if s.splice.altParent then rdf s 0xB0010 9 6 else rdf s 0xB0010 5 2

/-- A message that has lost its link goes on its alternate route. One of priority 0 without one breaks every slate armed in its
group; one of a collective without one ends the group's take (R381 steps 2 and 3; R390). -/
def reroute (m : SMsg) (s : State) : State :=
  match pickLink s m.dst.toNat (prioOf m.kind.toNat) with
  | some l => linkPut l m s
  | none =>
    if groupUsable s m.group.val = false then s
    else if 1 ≤ m.kind.toNat ∧ m.kind.toNat ≤ 4 then breakGroup m.group 0 0x23 s
    else if m.kind.toNat = 5 ∨ m.kind.toNat = 6 then breakGroup m.group 0 0x22 s
    else s

def rerouteAll : List SMsg → State → State
  | [], s => s
  | m :: ms, s => rerouteAll ms (reroute m s)

/-- The fence of a link: waiting messages, then unacknowledged copies, go on their alternate routes; a follower that loses its
parent so loses its source (R381, R385). -/
def fenceLink (l : Nat) (s : State) : State :=
  let x := linkOf s l
  let s1 := report ⟨.link (Fin.ofNat 12 l), false, 2, 0, .none⟩
    (raise spliceEvent 3 (setLinkState l 5 (setLink l { x with queue := [], replay := [] } s)))
  let s2 := rerouteAll (x.replay.map Prod.fst) (rerouteAll x.queue s1)
  if timeFollow s2 && decide (parentLink s2 = l) then loseSource s2 else s2

/-- What a counter's rise from `old` brings (R380). -/
def linkJudge (l old : Nat) (s : State) : State :=
  let n := linkErr s l
  let s1 := if old < 96 ∧ 96 ≤ n then report ⟨.link (Fin.ofNat 12 l), true, 1, 0, .none⟩ (raise spliceEvent 1 s) else s
  if 255 ≤ n then (if linkState s1 l = 5 then s1 else fenceLink l s1)
  else if 128 ≤ n ∧ linkState s1 l = 3 then raise spliceEvent 2 (setLinkState l 4 s1)
  else s1

/-- An error counter rises by 1, up to 255. -/
def linkErrUp (l o : Nat) (s : State) : State := wr (linkReg l o) (BitVec.ofNat 32 (min 255 ((rd s (linkReg l o)).toNat + 1))) s

/-- The far end has taken `n` more flits. -/
def ackFlits : Nat → List (SMsg × Nat) → List (SMsg × Nat)
  | _, [] => []
  | n, (m, k) :: xs => if k ≤ n then ackFlits (n - k) xs else (m, k - n) :: xs

/-- A link carries flits. -/
def linkCarries (s : State) (l : Nat) : Bool := linkUsable s l || decide (linkState s l = 2)

/-- FLIT_RECEIVE: `replay` tells that the far end asks for a replay, `acked` how many flits it acknowledges. A message inside has
a row of its own. -/
def execFlitReceive (l : Fin 12) (crcOk : Bool) (replay : Bool) (acked : Nat) (s : State) : Host.Outcome State Fault Refusal :=
  .next (if linkCarries s l = false then s
    else
      let old := linkErr s l
      if crcOk = false then linkJudge l old (emit (.spliceLink l 1 0) (linkErrUp l 0xC s))
      else
        let x := linkOf s l
        let s1 := setLink l { x with replay := ackFlits acked x.replay } s
        let s2 := linkDrain l (x.queue.length + 1) s1
        if replay then linkJudge l old (emit (.spliceLink l 2 (replayFill (linkOf s2 l))) (bump (linkReg l 0x10) 1 (linkErrUp l 8 s2)))
        else s2)

/-- Both counters of a link lose 1; below 96 again, DEGRADED becomes UP. -/
def decayLink (l : Nat) (s : State) : State :=
  let s1 := wrf (linkReg l 0xC) 7 0 (rdf s (linkReg l 0xC) 7 0 - 1) (wrf (linkReg l 8) 7 0 (rdf s (linkReg l 8) 7 0 - 1) s)
  if linkState s1 l = 4 ∧ linkErr s1 l < 96 then setLinkState l 3 s1 else s1

def decayLinks : Nat → State → State
  | 0, s => s
  | l + 1, s => decayLink l (decayLinks l s)

/-- ERR_DECAY: every ERR_CFG.DECAY ms. -/
def execErrDecay (s : State) : Host.Outcome State Fault Refusal :=
  let d := rdf s 0xB0018 15 0 * ticksMs
  .next (decayLinks 12 (runToClk ((s.clk / d + 1) * d) s))

/-! ### What a message does at its destination -/

/-- Positive acknowledgement, up to the parent. -/
def ackUp (g : Fin 16) (id : Nat) (s : State) : State := match groupParent s g.val with
  | some p => if canSend s p 2 then sendMsg (groupMsg g p 2 id true []) s else breakGroup g 0 0x23 s
  | none => s

/-- This chip may not arm a slate at `t` (13 R385, R393 step 3; the PATH_CAL rule is a follower's, log 72). -/
def refusesArm (s : State) (t : Nat) : Bool :=
  decide (t ≤ nowUnits s) || !timeLocked s || decide (64 ≤ s.splice.slates.length) ||
    (timeFollow s && !rdb s 0xB0014 0 && decide (rdf s 0xB0010 31 16 * ticksMs < s.clk - s.splice.uncalFrom))

/-- The total digest that a barrier's ARM brings goes to the group's job. -/
def barrierDigest (g : Fin 16) (id : Nat) (sum : Nat) (s : State) : State := match groupJob s g with
  | some j => if j.arrived then setJob { j with slate := BitVec.ofNat 16 id, lastDigest := BitVec.ofNat 64 sum } s else s
  | none => s

/-- ARM: the member arms, sends it on and acknowledges once its children have; or it refuses. -/
def armTake (m : SMsg) (s : State) : State :=
  let g := m.group
  let id := m.tag.toNat % 65536
  let t := leAt m.payload 0 16
  if groupUsable s g.val = false ∨ groupCoord s g.val = true then s
  else if refusesArm s t then breakSlate g id 0x23 s
  else
    let x : Slate := { group := g, id := BitVec.ofNat 16 id, time := t, acks := [], ref := none }
    let kids := groupChildren s g.val
    let s1 := armSlate x s
    let s2 := if 32768 ≤ id then barrierDigest g id (leAt m.payload 16 8) s1 else s1
    let s3 := sendAll g 1 id m.payload kids s2
    if anyUnreached s3 1 kids then breakGroup g id 0x23 s3
    else if slateAcked s3 x && decide (id < 32768) then ackUp g id s3
    else s3

/-- ACK: a child has armed, or it breaks a slate. -/
def ackTake (m : SMsg) (s : State) : State :=
  let g := m.group
  let id := m.tag.toNat % 65536
  let code := leAt m.payload 0 1
  if groupUsable s g.val = false then s
  else if code ≠ 0 then
    (if code = 0xFF ∧ groupCoord s g.val = true then breakGroup g 0 0xFF (wrf (groupReg g.val) 2 2 1 s) else breakGroup g id code s)
  else match s.splice.slates.find? fun x => decide (x.group = g) && decide (x.id.toNat = id) with
    | none => s
    | some x =>
      let y := { x with acks := if x.acks.contains m.src then x.acks else x.acks ++ [m.src] }
      let t : State := { s with splice := { s.splice with slates := s.splice.slates.map fun z => if z = x then y else z } }
      if slateAcked t y && decide (id < 32768) then ackUp g id t else t

/-- BREAK: the member disarms, its dependent work ends, and the BREAK goes on down. -/
def breakTake (m : SMsg) (s : State) : State :=
  let g := m.group
  let id := m.tag.toNat % 65536
  let code := leAt m.payload 0 1
  if groupValid s g.val = false ∨ groupMember s g.val = false then s
  else
    let s1 := if code = 0xFF then wrf (groupReg g.val) 2 2 1 s else s
    let s2 := countBreak (disarm g id s1.splice.slates s1)
    let s3 := endDependents g id code true s2.jobs s2
    sendAll g 3 id m.payload (groupChildren s3 g.val) s3

/-- ARRIVE: a child has arrived at a layer's barrier. -/
def arriveTake (m : SMsg) (s : State) : State :=
  let g := m.group
  if groupUsable s g.val = false ∨ (groupChildren s g.val).contains m.src.toNat = false then s
  else
    let b := barrierOf s g (m.tag.toNat % 65536)
    if b.arrived.contains m.src then s
    else groupGo g (putBarrier { b with arrived := b.arrived ++ [m.src], sum := b.sum + BitVec.ofNat 64 (leAt m.payload 0 8) } s)

/-- REDUCE: a child's contribution to a collective. -/
def reduceTake (m : SMsg) (s : State) : State :=
  let g := m.group
  if groupUsable s g.val = false ∨ (groupChildren s g.val).contains m.src.toNat = false then s
  else
    let k := collOf s g m.tag.toNat
    groupGo g (putColl { k with arrivals := k.arrivals ++ [(some m.src, m.payload, m.last)] } s)

/-- The root's bits are all here: they overwrite the buffer, and the collective has ended. -/
def bcastDone (g : Fin 16) (i : Nat) (bs : List Byte) (s : State) : State := match groupJob s g with
  | none => dropColl g i s
  | some j => match jobLoad s j with
    | none => s
    | some l => match (imageColls l.img.raw)[i]? with
      | none => s
      | some c => groupGo g (endColl j l i c bs s)

/-- BCAST: part of the root's result, sent on down. -/
def bcastTake (m : SMsg) (s : State) : State :=
  let g := m.group
  if groupUsable s g.val = false ∨ groupCoord s g.val = true then s
  else
    let i := m.tag.toNat
    let k := collOf s g i
    let kids := groupChildren s g.val
    let s1 := putColl { k with down := k.down ++ m.payload } s
    let s2 := passOn g i m.last m.payload kids s1
    let s3 := if anyUnreached s2 6 kids then breakGroup g 0 0x22 s2 else s2
    if m.last then bcastDone g i (k.down ++ m.payload) s3 else s3
where
  passOn (g : Fin 16) (i : Nat) (last : Bool) (bs : List Byte) : List Nat → State → State
    | [], s => s
    | c :: cs, s => passOn g i last bs cs (sendMsg (groupMsg g c 6 i last bs) s)

/-- TIME: at a follower, from its parent, an offset measurement (R383); from another chip, a request that is answered. -/
def timeTake (l : Nat) (m : SMsg) (offset : Offset) (s : State) : State :=
  if timeFollow s && decide (parentLink s = l) then
    measure offset { s with splice := { s.splice with lastTime := s.clk }, time := { s.time with srcLost := false } }
  else sendMsg { m with dst := m.src, last := true, payload := [] } s

/-- What a message does at its destination, by KIND. DATA has no use that the spec names here (log 73). -/
def handleMsg (l : Nat) (offset : Offset) (m : SMsg) (s : State) : State :=
  match m.kind.toNat with
  | 0 => timeTake l m offset s
  | 1 => armTake m s
  | 2 => ackTake m s
  | 3 => breakTake m s
  | 4 => arriveTake m s
  | 5 => reduceTake m s
  | 6 => bcastTake m s
  | _ => s

/-! ### Delivery in order (13 R377, R378, R382) -/

/-- Key of a source and priority. -/
def msgKey (m : SMsg) : Nat := 4 * m.src.toNat + prioOf m.kind.toNat

def nextSeq (s : State) (key : Nat) : Nat := tabGet (fun _ => 0) s.splice.seqRx key
def setNextSeq (key v : Nat) (s : State) : State :=
  { s with splice := { s.splice with seqRx := tabSet (fun _ => 0) s.splice.seqRx key (v % 65536) } }

/-- A message is delivered, and its number is behind. -/
def deliverOne (l : Nat) (offset : Offset) (m : SMsg) (s : State) : State :=
  handleMsg l offset m (setNextSeq (msgKey m) (m.seq.toNat + 1) s)

/-- Early messages of a source and priority that are next are delivered; `n` bounds them. The time exchange gives no offset to one
that was held. -/
def deliverEarly (key : Nat) : Nat → State → State
  | 0, s => s
  | n + 1, s =>
    match s.splice.early.find? fun x => decide (msgKey x.1 = key) && decide (x.1.seq.toNat = nextSeq s key) with
    | none => s
    | some x =>
      let t : State := { s with splice := { s.splice with early := s.splice.early.filter fun y => decide (y ≠ x) } }
      deliverEarly key n
        (if x.1.kind = 0 then setNextSeq key (x.1.seq.toNat + 1) t else deliverOne 12 0 x.1 t)

/-- How far a message's number lies ahead of the one that is due. -/
def seqAhead (s : State) (m : SMsg) : Nat := (m.seq.toNat + 65536 - nextSeq s (msgKey m)) % 65536

/-- A message for this chip: delivered if it is due, held if it is early within the window, else discarded. -/
def recvHere (l : Nat) (offset : Offset) (m : SMsg) (s : State) : State :=
  let d := seqAhead s m
  if d = 0 then deliverEarly (msgKey m) 256 (deliverOne l offset m s)
  else if 32768 ≤ d ∨ (s.splice.early.any fun x => decide (msgKey x.1 = msgKey m) && decide (x.1.seq = m.seq)) = true then
    bump 0xB002C 1 s
  else if d < 256 then { s with splice := { s.splice with early := s.splice.early ++ [(m, s.clk)] } }
  else s

/-- A message of another chip goes on its way; at a chip that has no route for it the steps of R381 apply. -/
def relay (m : SMsg) (s : State) : State :=
  match pickLink s m.dst.toNat (prioOf m.kind.toNat) with
  | some l =>
    let w := wireMsg l m s
    linkPut l w.1 w.2
  | none => reroute m s

/-- The decoded message, where its payload is no block or decodes. -/
def decodeMsg (m : SMsg) : Option SMsg :=
  if m.coded then (codecDecode m.payload).map fun raw => { m with coded := false, payload := raw } else some m

/-- A block that fails its checks (13 R382; 07 R222): the group's work here ends with MEM_UNCORRECTABLE. -/
def decodeFailed (l : Nat) (m : SMsg) (s : State) : State :=
  let e := 9 + 2 * (l / 3)
  let t := report ⟨.codec (Fin.ofNat 16 e), false, 1, 0, .none⟩ (bump (0x9010C + 16 * e) 1 s)
  match groupJob t m.group with
  | some j => endOwner (.job (Fin.ofNat 8 j.part)) 0x21 0 t
  | none => t

/-- Payload bytes received over a link. -/
def countRx (l n : Nat) (s : State) : State :=
  let x := linkOf s l
  bump (linkReg l 0x18) ((x.rxRem + n) / 1024) (setLink l { x with rxRem := (x.rxRem + n) % 1024 } s)

/-- A message of KIND `kind` has arrived whole over link `l`. -/
def recvMsg (l kind : Nat) (offset : Offset) (m : SMsg) (s : State) : State :=
  if linkUsable s l = false ∨ m.kind.toNat ≠ kind then s
  else
    let s1 := countRx l m.payload.length s
    match decodeMsg m with
    | none => decodeFailed l m s1
    | some x =>
      let s2 := if m.coded then codecCount (9 + 2 * (l / 3)) x.payload.length m.payload.length false s1 else s1
      if m.dst.toNat = chipNum s then recvHere l offset x s2 else relay x s2

/-- TIME_MESSAGE. -/
def execTimeMessage (l : Fin 12) (m : SMsg) (offset : Offset) (s : State) : Host.Outcome State Fault Refusal :=
  .next (recvMsg l 0 offset m s)
/-- ARM_MESSAGE. -/
def execArmMessage (l : Fin 12) (m : SMsg) (s : State) : Host.Outcome State Fault Refusal := .next (recvMsg l 1 0 m s)
/-- ACK_MESSAGE. -/
def execAckMessage (l : Fin 12) (m : SMsg) (s : State) : Host.Outcome State Fault Refusal := .next (recvMsg l 2 0 m s)
/-- BREAK_MESSAGE. -/
def execBreakMessage (l : Fin 12) (m : SMsg) (s : State) : Host.Outcome State Fault Refusal := .next (recvMsg l 3 0 m s)
/-- ARRIVE_MESSAGE. -/
def execArriveMessage (l : Fin 12) (m : SMsg) (s : State) : Host.Outcome State Fault Refusal := .next (recvMsg l 4 0 m s)
/-- REDUCE_MESSAGE. -/
def execReduceMessage (l : Fin 12) (m : SMsg) (s : State) : Host.Outcome State Fault Refusal := .next (recvMsg l 5 0 m s)
/-- BCAST_MESSAGE. -/
def execBcastMessage (l : Fin 12) (m : SMsg) (s : State) : Host.Outcome State Fault Refusal := .next (recvMsg l 6 0 m s)
/-- DATA_MESSAGE. -/
def execDataMessage (l : Fin 12) (m : SMsg) (s : State) : Host.Outcome State Fault Refusal := .next (recvMsg l 7 0 m s)

/-- The early message of a source and priority that comes first. -/
def firstEarly (s : State) (key : Nat) : List (SMsg × Nat) → Option (SMsg × Nat)
  | [] => none
  | x :: xs => match firstEarly s key xs with
    | none => if msgKey x.1 = key then some x else none
    | some y => if msgKey x.1 = key ∧ seqAhead s x.1 ≤ seqAhead s y.1 then some x else some y

/-- E2E_GAP: a gap before messages held is left unfilled for 50 µs. -/
def execE2eGap (src : BitVec 14) (prio : Fin 3) (s : State) : Host.Outcome State Fault Refusal :=
  let key := 4 * src.toNat + prio.val
  .next (match firstEarly s key s.splice.early with
    | none => s
    | some x =>
      let from_ := (s.splice.early.filter fun y => decide (msgKey y.1 = key)).foldl (fun a y => min a y.2) x.2
      let t := bump 0xB0030 1 (runToClk (from_ + 50 * ticksUs) s)
      deliverEarly key 256 (setNextSeq key x.1.seq.toNat t))

/-! ### Time over the fabric (13 R383, R384) -/

/-- TIME_EXCHANGE_SEND: a follower's exchange with its parent. -/
def execTimeExchangeSend (s : State) : Host.Outcome State Fault Refusal :=
  .next (if timeFollow s then sendMsg (groupMsg 0 (linkPeer s (parentLink s)) 0 0 true []) s else s)

/-- PATH_CORRECTION: path correction with the root is complete over `depth` hops. -/
def execPathCorrection (depth : Nat) (s : State) : Host.Outcome State Fault Refusal :=
  .next (if timeFollow s && decide (timeState s = 3) then
      (let t := wrf 0xB0014 7 4 (min depth 15) s
       if depth ≤ 8 then raise spliceEvent 5 (wrf 0xB0014 0 0 1 t)
       else if rdb t 0xB0014 0 then
         (let u := wrf 0xB0014 0 0 0 t
          { u with splice := { u.splice with uncalFrom := u.clk } })
       else t)
    else s)

/-! ### Joining a group (13 R387) -/

/-- GROUP_JOIN: a child reports its settings; a difference breaks the group on every member. -/
def execGroupJoin (m : Fin 16) (child : BitVec 14) (base : BitVec 14) (size : BitVec 15) (fanout : BitVec 4) (locked lock : Bool)
    (s : State) : Host.Outcome State Fault Refusal :=
  let g := m.val
  .next (if groupUsable s g = false ∨ (groupChildren s g).contains child.toNat = false then s
    else if base.toNat = groupBase s g ∧ size.toNat = groupSize s g ∧ fanout.toNat = groupFanout s g ∧ locked = groupLocked s g ∧
        lock = detLock s then s
    else
      let t := wrf (groupReg g) 2 2 1 s
      if groupCoord s g then breakGroup m 0 0xFF t
      else sendAll m 3 0 (leBytes 1 0xFF) (groupChildren s g) (breakSlate m 0 0xFF t))

end Sys2Proof.Machine
end

