-- ==== Sys2Proof/Machine/Vector.lean ====
section
/-! DEFINITION. The vector engine, the lane-end tree and the reduction unit (04 R124–R130, 05 R152, R166). -/

namespace Sys2Proof.Machine

/-- Vector and mask registers; an unlisted one holds 0. -/
def getV (x : Tile) (k : Nat) : BitVec 2048 := tabGet (fun _ => 0) x.v k
def setV (k : Nat) (v : BitVec 2048) (x : Tile) : Tile := { x with v := tabSet (fun _ => 0) x.v k v }
def getM (x : Tile) (k : Nat) : BitVec 64 := tabGet (fun _ => 0) x.m k
def setM (k : Nat) (v : BitVec 64) (x : Tile) : Tile := { x with m := tabSet (fun _ => 0) x.m k v }

/-- Lane `i` of a vector. -/
def lane (v : BitVec 2048) (i : Nat) : Word := v.extractLsb' (32 * i) 32
/-- A vector from its lanes, lane 0 first. -/
def ofLanes (ls : List Word) : BitVec 2048 := BitVec.ofNat 2048 (leNat (ls.flatMap fun w => leBytes 4 w.toNat))
/-- The lanes of a vector. -/
def lanes (v : BitVec 2048) : List Word := (List.range 64).map (lane v)

/-- C1 code uses V16–V31 and M4–M7 only, and no RUFEED or RUREAD (05 R166). -/
def c1Reg (t : Thr) (k : Fin 32) : Bool := decide (t = 0) || decide (16 ≤ k.val)

/-- Lane types (05 R148): 0 FP32, 1 INT32, 2 two INT16, 3 two BF16, 4 two FP16. -/
def lanePacked (typ : Nat) : Bool := decide (2 ≤ typ)
/-- The float format of a lane type. -/
def laneFmt (typ : Nat) : FFmt := match typ with
  | 0 => fp32 | 3 => bf16 | _ => fp16
/-- The lane type is an integer type. -/
def laneInt (typ : Nat) : Bool := decide (typ = 1) || decide (typ = 2)
/-- Bits of an element of a lane type. -/
def laneBits (typ : Nat) : Nat := if typ < 2 then 32 else 16

/-- Apply a function of one element to a whole lane, half by half for packed types (04 R125). -/
def perElem (typ : Nat) (g : Nat → Nat → Nat → Nat) (a b c : Word) : Word :=
  if lanePacked typ then
    BitVec.ofNat 32 (g (a.toNat / 65536) (b.toNat / 65536) (c.toNat / 65536) % 65536 * 65536
      + g (a.toNat % 65536) (b.toNat % 65536) (c.toNat % 65536) % 65536)
  else BitVec.ofNat 32 (g a.toNat b.toNat c.toNat)

/-- a + b, a × b and a × b + c on one element (04 R125–R127). -/
def elemAdd (typ : Nat) (sb : Bool) (a b : Nat) : Nat :=
  if laneInt typ then narrow (laneBits typ) sb (signedOf (laneBits typ) a + signedOf (laneBits typ) b)
  else fEncode (laneFmt typ) false (fAdd (fDecode (laneFmt typ) a) (fDecode (laneFmt typ) b))
def elemMul (typ : Nat) (sb : Bool) (a b : Nat) : Nat :=
  if laneInt typ then narrow (laneBits typ) sb (signedOf (laneBits typ) a * signedOf (laneBits typ) b)
  else fEncode (laneFmt typ) false (fMul (fDecode (laneFmt typ) a) (fDecode (laneFmt typ) b))
def elemFma (typ : Nat) (sb : Bool) (a b c : Nat) : Nat :=
  if laneInt typ then
    narrow (laneBits typ) sb (signedOf (laneBits typ) a * signedOf (laneBits typ) b + signedOf (laneBits typ) c)
  else
    fEncode (laneFmt typ) false
      (fAdd (fMul (fDecode (laneFmt typ) a) (fDecode (laneFmt typ) b)) (fDecode (laneFmt typ) c))
/-- Minimum or maximum of two elements (04 R126). -/
def elemMinMax (typ : Nat) (mx : Bool) (a b : Nat) : Nat :=
  if laneInt typ then
    (if decide (signedOf (laneBits typ) a < signedOf (laneBits typ) b) = mx then b else a)
  else fEncode (laneFmt typ) false (fMinMax mx (fDecode (laneFmt typ) a) (fDecode (laneFmt typ) b))
/-- The order of two elements; none where one is NaN. -/
def elemCompare (typ a b : Nat) : Option Ordering :=
  if laneInt typ then some (compare (signedOf (laneBits typ) a) (signedOf (laneBits typ) b))
  else fCompare (fDecode (laneFmt typ) a) (fDecode (laneFmt typ) b)
/-- A VCMP condition: EQ, NE, LT, LE, GT, GE (04 R126, 05 R152). -/
def elemCond (k : Nat) : Option Ordering → Bool
  | none => decide (k = 1)
  | some .lt => decide (k = 1 ∨ k = 2 ∨ k = 3)
  | some .eq => decide (k = 0 ∨ k = 3 ∨ k = 5)
  | some .gt => decide (k = 1 ∨ k = 4 ∨ k = 5)
/-- The mask bit of a lane: both halves meet the condition for packed types (04 R125). -/
def laneCond (typ k : Nat) (a b : Word) : Bool :=
  if lanePacked typ then
    elemCond k (elemCompare typ (a.toNat / 65536) (b.toNat / 65536)) &&
      elemCond k (elemCompare typ (a.toNat % 65536) (b.toNat % 65536))
  else elemCond k (elemCompare typ a.toNat b.toNat)

/-- An instruction that acts on the tile's vector state alone. -/
def vecStep (n : TileIx) (t : Thr) (legal : Bool) (f : Thread → Tile → Tile) (s : State) : State :=
  coreStep n t legal (fun s => .ok (setTile n (f (threadOf s n t) (tileOf s n)) s)) s

/-- A masked lane keeps its destination value (04 R125). -/
def masked (men : Bool) (m : BitVec 64) (old new : List Word) : List Word :=
  ((List.range 64).zip (old.zip new)).map fun x => if !men || m.getLsbD x.1 then x.2.2 else x.2.1

/-- A lane-wise arithmetic operation with its optional write mask. -/
def vecArith (n : TileIx) (t : Thr) (f : VecF) (g : Nat → Nat → Nat → Nat) (s : State) : State :=
  vecStep n t (decide (f.typ.toNat ≤ 4) && c1Reg t f.vd && c1Reg t f.va && c1Reg t f.vb &&
      (f.men || decide (f.msk = 0)) && (!f.men || decide (t = 0) || decide (4 ≤ f.msk.val)))
    (fun _ x =>
      let old := lanes (getV x f.vd)
      let new := ((lanes (getV x f.va)).zip ((lanes (getV x f.vb)).zip old)).map
        fun l => perElem f.typ.toNat g l.1 l.2.1 l.2.2
      setV f.vd (ofLanes (masked f.men (getM x f.msk) old new)) x) s

/-- VADD, VMUL, VFMA, VMIN, VMAX (04 R125). -/
def execVadd (n : TileIx) (t : Thr) (f : VecF) (s : State) : Host.Outcome State Fault Refusal :=
  .next (vecArith n t f (fun a b _ => elemAdd f.typ.toNat f.s a b) s)
def execVmul (n : TileIx) (t : Thr) (f : VecF) (s : State) : Host.Outcome State Fault Refusal :=
  .next (vecArith n t f (fun a b _ => elemMul f.typ.toNat f.s a b) s)
def execVfma (n : TileIx) (t : Thr) (f : VecF) (s : State) : Host.Outcome State Fault Refusal :=
  .next (vecArith n t f (fun a b c => elemFma f.typ.toNat f.s a b c) s)
def execVmin (n : TileIx) (t : Thr) (f : VecF) (s : State) : Host.Outcome State Fault Refusal :=
  .next (vecArith n t f (fun a b _ => elemMinMax f.typ.toNat false a b) s)
def execVmax (n : TileIx) (t : Thr) (f : VecF) (s : State) : Host.Outcome State Fault Refusal :=
  .next (vecArith n t f (fun a b _ => elemMinMax f.typ.toNat true a b) s)

/-- VCMP: mask VD[2:0] = VA MK VB; VD[4:3] and MEN are 0 (05 R152). -/
def execVcmp (n : TileIx) (t : Thr) (f : VecF) (s : State) : Host.Outcome State Fault Refusal :=
  .next (vecStep n t (decide (f.typ.toNat ≤ 4) && decide (f.vd.val < 8) && !f.men && !f.s && decide (f.msk.val ≤ 5) &&
      c1Reg t f.va && c1Reg t f.vb && (decide (t = 0) || decide (4 ≤ f.vd.val)))
    (fun _ x =>
      setM f.vd (BitVec.ofNat 64
        (((List.range 64).filter fun i =>
          laneCond f.typ.toNat f.msk (lane (getV x f.va) i) (lane (getV x f.vb) i)).foldl (fun a i => a + 2 ^ i) 0)) x) s)

/-- VSEL: per lane VA where the bit of mask MK is 1, else VB. -/
def execVsel (n : TileIx) (t : Thr) (f : VecF) (s : State) : Host.Outcome State Fault Refusal :=
  .next (vecStep n t (decide (f.typ.toNat ≤ 4) && !f.men && !f.s && c1Reg t f.vd && c1Reg t f.va && c1Reg t f.vb &&
      (decide (t = 0) || decide (4 ≤ f.msk.val)))
    (fun _ x =>
      setV f.vd (ofLanes (masked true (getM x f.msk) (lanes (getV x f.vb)) (lanes (getV x f.va)))) x) s)

/-! ### Loads and stores (04 R124; log 16) -/

/-- Bytes per element of a memory format: INT8, INT16, E4M3, E5M2, FP16, BF16, 32-bit. -/
def vmemBytes (k : Nat) : Nat := match k with
  | 0 => 1 | 1 => 2 | 2 => 1 | 3 => 1 | 4 => 2 | 5 => 2 | _ => 4
/-- The float format of a memory format. -/
def vmemFmt (k : Nat) : FFmt := match k with
  | 2 => e4m3 | 3 => e5m2 | 4 => fp16 | _ => bf16
/-- An element of memory as a lane: integers widen to INT32, floats to FP32. -/
def vmemLoad (k v : Nat) : Word :=
  if k ≤ 1 then BitVec.ofInt 32 (signedOf (8 * vmemBytes k) v)
  else if k = 6 then BitVec.ofNat 32 v
  else BitVec.ofNat 32 (fEncode fp32 false (fDecode (vmemFmt k) v))
/-- A lane as an element of memory, under bit S (04 R118). -/
def vmemStore (k : Nat) (sb : Bool) (w : Word) : Nat :=
  if k ≤ 1 then narrow (8 * vmemBytes k) sb w.toInt
  else if k = 6 then w.toNat
  else fEncode (vmemFmt k) sb (fDecode fp32 w.toNat)

/-- VLD: 64 elements from H(VB[2:0]) (05 R152). Alignment is free (04 R131, 05 R156). -/
def execVld (n : TileIx) (t : Thr) (f : VecF) (s : State) : Host.Outcome State Fault Refusal :=
  .next (coreStep n t (decide (f.typ.toNat ≤ 6) && !f.s && !f.men && decide (f.msk = 0) && decide (f.va = 0) &&
      decide (f.vb.val < 8) && c1Reg t f.vd)
    (fun s =>
      let k := f.typ.toNat
      let a := (getH (threadOf s n t) f.vb).toNat
      match loadCheck s n a (64 * vmemBytes k) 1 with
      | some c => .error c
      | none =>
        let bs := memRead s (lsAddr n + a) (64 * vmemBytes k)
        .ok (bankStall n f.lost (setTile n (setV f.vd (ofLanes ((List.range 64).map fun i =>
          vmemLoad k (leAt bs (i * vmemBytes k) (vmemBytes k)))) (tileOf s n)) s))) s)

/-- VST: 64 elements to H(VB[2:0]) from VD. -/
def execVst (n : TileIx) (t : Thr) (f : VecF) (s : State) : Host.Outcome State Fault Refusal :=
  .next (coreStep n t (decide (f.typ.toNat ≤ 6) && !f.men && decide (f.msk = 0) && decide (f.va = 0) &&
      decide (f.vb.val < 8) && c1Reg t f.vd)
    (fun s =>
      let k := f.typ.toNat
      let a := (getH (threadOf s n t) f.vb).toNat
      match addrCheck a (64 * vmemBytes k) 1 with
      | some c => .error c
      | none =>
        .ok (bankStall n f.lost (memPut (lsAddr n + a)
          ((lanes (getV (tileOf s n) f.vd)).flatMap fun w => leBytes (vmemBytes k) (vmemStore k f.s w)) s))) s)

/-- Addresses of a gather or scatter: H(VB[2:0]) + the 32-bit offsets in VA. -/
def gatherAddrs (y : Thread) (x : Tile) (f : VecF) : List Nat :=
  (lanes (getV x f.va)).map fun o => (getH y f.vb + o).toNat

/-- The first exception of a list of accesses. -/
def firstTrap (g : Nat → Option Nat) : List Nat → Option Nat
  | [] => none
  | a :: as => match g a with
    | some c => some c
    | none => firstTrap g as

/-- VGTH. -/
def execVgth (n : TileIx) (t : Thr) (f : VecF) (s : State) : Host.Outcome State Fault Refusal :=
  .next (coreStep n t (decide (f.typ.toNat ≤ 6) && !f.s && !f.men && decide (f.msk = 0) && decide (f.vb.val < 8) &&
      c1Reg t f.vd && c1Reg t f.va)
    (fun s =>
      let k := f.typ.toNat
      let as := gatherAddrs (threadOf s n t) (tileOf s n) f
      match firstTrap (fun a => loadCheck s n a (vmemBytes k) 1) as with
      | some c => .error c
      | none =>
        .ok (bankStall n f.lost
          (setTile n (setV f.vd (ofLanes (as.map fun a => vmemLoad k (lsLoad s n a (vmemBytes k)))) (tileOf s n)) s))) s)

/-- Stores of a scatter, lane 0 first, unsaturated (05 R161). -/
def scatter (n k : Nat) : List (Nat × Word) → State → State
  | [], s => s
  | (a, w) :: t, s => scatter n k t (lsStore n a (vmemBytes k) (vmemStore k false w) s)

/-- VSCT: lanes in ascending order (log 16). -/
def execVsct (n : TileIx) (t : Thr) (f : VecF) (s : State) : Host.Outcome State Fault Refusal :=
  .next (coreStep n t (decide (f.typ.toNat ≤ 6) && !f.s && !f.men && decide (f.msk = 0) && decide (f.vb.val < 8) &&
      c1Reg t f.vd && c1Reg t f.va)
    (fun s =>
      let k := f.typ.toNat
      let as := gatherAddrs (threadOf s n t) (tileOf s n) f
      match firstTrap (fun a => addrCheck a (vmemBytes k) 1) as with
      | some c => .error c
      | none => .ok (bankStall n f.lost (scatter n k (as.zip (lanes (getV (tileOf s n) f.vd))) s))) s)

/-! ### The lane-end tree (04 R128) -/

/-- One level of the tree: adjacent results combine. -/
def treeLevel (g : Nat → Nat → Nat) : List Nat → List Nat
  | a :: b :: t => g a b :: treeLevel g t
  | l => l

/-- The fixed binary tree over 64 lanes. -/
def tree64 (g : Nat → Nat → Nat) (ls : List Nat) : Nat :=
  (treeLevel g (treeLevel g (treeLevel g (treeLevel g (treeLevel g (treeLevel g ls)))))).headD 0

/-- The tree's result for elements of a lane type: SUM, MIN or MAX; with the exact option a float sum is rounded once. -/
def treeVal (typ op : Nat) (ex sb : Bool) (ls : List Nat) : Nat :=
  if op = 0 then
    if laneInt typ then narrow (laneBits typ) sb ((ls.map (signedOf (laneBits typ))).foldl (· + ·) 0)
    else if ex then fEncodeSum (laneFmt typ) sb (exVal ((ls.map (fDecode (laneFmt typ))).foldl exAdd {}))
    else tree64 (elemAdd typ false) ls
  else tree64 (elemMinMax typ (decide (op = 2))) ls

/-- What a masked lane contributes: the identity of the operation (04 R128). -/
def treeId (typ op : Nat) : Nat :=
  if op = 0 then 0
  else if laneInt typ then (if op = 1 then 2 ^ (laneBits typ - 1) - 1 else 2 ^ (laneBits typ - 1))
  else fEncode (laneFmt typ) false (.inf (decide (op = 2)))

/-- The elements that the tree reduces: whole lanes, or one half of each lane of a packed type, under a mask where there is
one. -/
def treeElems (typ op : Nat) (high : Bool) (mask : Option (BitVec 64)) (v : BitVec 2048) : List Nat :=
  ((List.range 64).zip (lanes v)).map fun x =>
    if (match mask with
      | some m => m.getLsbD x.1
      | none => true) then
      (if lanePacked typ then (if high then x.2.toNat / 65536 else x.2.toNat % 65536) else x.2.toNat)
    else treeId typ op

/-- The word that VTREE gives. The spec selects no half of a packed type, no mask register where MEN = 1, and nothing above a
16-bit result: `pick` is which half and the upper half, `mask` the mask (log 17). -/
def treeWord (f : VecF) (pick : Dword) (mask : BitVec 64) (v : BitVec 2048) : Word :=
  let r := treeVal f.typ.toNat (f.msk.val % 4) (decide (4 ≤ f.msk.val)) f.s
    (treeElems f.typ.toNat (f.msk.val % 4) (pick.getLsbD 16) (if f.men then some mask else none) v)
  if lanePacked f.typ.toNat then BitVec.ofNat 32 (pick.toNat % 65536 * 65536 + r % 65536) else BitVec.ofNat 32 r

/-- VTREE: to D(VD[3:0]), or to lane 0 of VB where VD[4] = 1. -/
def execVtree (n : TileIx) (t : Thr) (f : VecF) (s : State) : Host.Outcome State Fault Refusal :=
  .next (coreStep n t (decide (f.typ.toNat ≤ 4) && decide (f.msk.val % 4 ≤ 2) && c1Reg t f.va &&
      (decide (16 ≤ f.vd.val) || decide (f.vb = 0)) && (decide (f.vd.val < 16) || c1Reg t f.vb))
    (fun s =>
      let x := tileOf s n
      let r := treeWord f (freshVal s) (freshVal (useFree s)) (getV x f.va)
      let s1 := if lanePacked f.typ.toNat || f.men then useFree (useFree s) else s
      .ok (if f.vd.val < 16 then setThread n t (setD f.vd r (threadOf s1 n t)) s1
        else setTile n (setV f.vb (ofLanes (r :: (lanes (getV x f.vb)).drop 1)) (tileOf s1 n)) s1)) s)

/-! ### The reduction unit (04 R129, R130) -/

/-- Whether value `b` beats the winner `a` of ARGMIN (`mx` false) or ARGMAX: strictly, and a NaN beats a number. -/
def argBeats (typ : Nat) (mx : Bool) (a b : Nat) : Bool :=
  match elemCompare typ a b with
  | some .lt => mx
  | some .gt => !mx
  | some .eq => false
  | none => decide (fDecode (laneFmt typ) a ≠ .nan) && decide (fDecode (laneFmt typ) b = .nan)

/-- One lane takes one value. -/
def ruLane (op typ : Nat) (ex : Bool) (i : Nat) (w : Word) (r : RedUnit) : RedUnit :=
  let first := !r.busy
  let old := (tabGet (fun _ => (0 : Word)) r.val i).toNat
  if op = 0 then
    if ex then
      { r with ex := tabSet (fun _ => {}) r.ex i (exAdd (tabGet (fun _ => {}) r.ex i)
          (if laneInt typ then fInt w.toInt else fDecode fp32 w.toNat)) }
    else { r with val := tabSet (fun _ => 0) r.val i (BitVec.ofNat 32 (elemAdd typ false old w.toNat)) }
  else if op ≤ 2 then
    let v : Word := if first then w else BitVec.ofNat 32 (elemMinMax typ (decide (op = 2)) old w.toNat)
    { r with val := tabSet (fun _ => 0) r.val i v }
  else if first || argBeats typ (decide (op = 4)) old w.toNat then
    { r with val := tabSet (fun _ => 0) r.val i w, idx := tabSet (fun _ => 0) r.idx i r.count }
  else r

/-- A vector taken by the unit; its ordinal saturates (04 R130). -/
def ruFeed (op typ : Nat) (ex : Bool) (ls : List Word) (r : RedUnit) : RedUnit :=
  let r1 := ((List.range 64).zip ls).foldl (fun r x => ruLane op typ ex x.1 x.2 r) r
  { r1 with busy := true, op := op, typ := typ, exact := ex,
            count := if r.count = 0xFFFFFFFF then r.count else r.count + 1 }

/-- Raw exact partials, 80 bytes for each lane, added exactly (04 R121, R129). -/
def ruPartials (bs : List Byte) (r : RedUnit) : RedUnit :=
  let r1 := (List.range 64).foldl (fun (r : RedUnit) i =>
    { r with ex := tabSet (fun _ => {}) r.ex i (exAddEx (tabGet (fun _ => {}) r.ex i) (exOfBytes (bs.drop (80 * i)))) }) r
  { r1 with busy := true, op := 0, exact := true, count := if r.count = 0xFFFFFFFF then r.count else r.count + 1 }

/-- What a RUFEED from the local store reads: 256 bytes of lanes, or 5,120 bytes of raw exact partials (04 R129). -/
def ruBytesIn (partials : Bool) : Nat := if partials then 5120 else 256

/-- RUFEED from VA, or from H(VB[2:0]): 256 bytes of lanes or, in an exact SUM, 64 raw exact partials, which no field of the
instruction selects (log 17). Packed lane types have no stated lane accumulator: each such lane takes a free value
(log 17). -/
def execRufeed (n : TileIx) (t : Thr) (f : FeedF) (s : State) : Host.Outcome State Fault Refusal :=
  .next (coreStep n t (decide (f.typ.toNat ≤ 4) && decide (f.msk.val ≤ 4) && decide (f.vd.val ≤ 1) && !f.men && !f.s &&
      decide (t = 0) && (decide (f.vb.val < 16) || decide (f.va = 0)) &&
      (decide (16 ≤ f.vb.val) || decide (f.vb = 0)) && decide (f.vb.val % 16 < 8))
    (fun s =>
      let x := tileOf s n
      let a := (getH (threadOf s n t) (f.vb.val % 8)).toNat
      let fromLs := decide (16 ≤ f.vb.val)
      let raw := f.partials && fromLs && decide (f.msk = 0) && decide (f.vd.val = 1)
      match (if fromLs then loadCheck s n a (ruBytesIn raw) 1 else none) with
      | some c => .error c
      | none =>
        let ls := if fromLs then (List.range 64).map fun i => BitVec.ofNat 32 (lsLoad s n (a + 4 * i) 4)
          else lanes (getV x f.va)
        let packed := lanePacked f.typ.toNat && !raw
        let fv : List Word := (List.range 64).map fun i => (Config.freeValue (s.free + i)).setWidth 32
        let r : RedUnit := if raw then ruPartials (memRead s (lsAddr n + a) 5120) x.ru
          else if packed then
            { ruFeed 0 1 false [] x.ru with val := tabSetMany (fun _ => (0 : Word)) x.ru.val 0 fv }
          else ruFeed f.msk f.typ.toNat (decide (f.vd.val = 1)) ls x.ru
        let s1 := if packed then { s with free := s.free + 64 } else s
        let s2 := bankStall n (if fromLs then f.lost else 0) (setTile n { tileOf s1 n with ru := r } s1)
        .ok (if 3 ≤ f.msk.val ∧ x.ru.count = 0xFFFFFFFE then raise (tileReg n 8) 3 s2 else s2)) s)

/-- Bytes per element of RUREAD in a lane type. -/
def ruBytes (typ : Nat) : Nat := if typ < 2 then 4 else 2

/-- One lane read out in a lane type, where R118 or R123 has the conversion (log 17). -/
def ruRead (r : RedUnit) (typ : Nat) (sb : Bool) (i : Nat) : Option (List Byte) :=
  let w := ruBytes typ
  if r.exact && decide (r.op = 0) then
    let x : Exact := tabGet (fun _ => {}) r.ex i
    if laneInt typ then (if laneInt r.typ then some (leBytes w (narrow (laneBits typ) sb (exInt x 0))) else none)
    else some (leBytes w (fEncodeSum (laneFmt typ) sb (exVal x)))
  else
    let v : Word := tabGet (fun _ => 0) r.val i
    if laneInt typ then
      (if laneInt r.typ then some (leBytes w (narrow (laneBits typ) sb v.toInt)) else none)
    else if laneInt r.typ then none
    else some (leBytes w (fEncode (laneFmt typ) sb (fDecode fp32 v.toNat)))

/-- The lanes read out one after another; a lane without a conversion is a free value. -/
def ruReadAll (r : RedUnit) (typ : Nat) (sb : Bool) (free : Nat) : List Byte :=
  (List.range 64).flatMap fun i => match ruRead r typ sb i with
    | some bs => bs
    | none => leBytes (ruBytes typ) (Config.freeValue (free + i)).toNat

/-- RUREAD to H(VB[2:0]); after ARGMIN and ARGMAX the 64 indices follow the values (log 17). VD[0] = 1 clears. -/
def execRuread (n : TileIx) (t : Thr) (f : VecF) (s : State) : Host.Outcome State Fault Refusal :=
  .next (coreStep n t (decide (f.typ.toNat ≤ 4) && decide (f.vd.val ≤ 1) && decide (f.vb.val < 8) && !f.men &&
      decide (f.msk = 0) && decide (f.va = 0) && decide (t = 0))
    (fun s =>
      let x := tileOf s n
      let k := f.typ.toNat
      let a := (getH (threadOf s n t) f.vb).toNat
      let idx := if 3 ≤ x.ru.op then
        (List.range 64).flatMap fun i => leBytes 4 (tabGet (fun _ => (0 : Word)) x.ru.idx i).toNat else []
      let bs := ruReadAll x.ru k f.s s.free ++ idx
      match addrCheck a bs.length 1 with
      | some c => .error c
      | none =>
        let s1 : State := bankStall n f.lost { memPut (lsAddr n + a) bs s with free := s.free + 64 }
        .ok (if f.vd.val = 1 then setTile n { tileOf s1 n with ru := {} } s1 else s1)) s)

end Sys2Proof.Machine
end

