-- ==== Sys2Proof/Machine/Dispatch.lean ====
section
/-! DEFINITION. The dispatcher: one arm per command, a call of its meaning. -/

namespace Sys2Proof.Machine

/-- The effect of a command on everything but the queue of commands. -/
def exec (i : Instr) (s : State) : Host.Outcome State Fault Refusal :=
  match i with
  | .regWrite off size val => Sys2Proof.Machine.execRegWrite off size val s
  | .rcRead off size => Sys2Proof.Machine.execRcRead off size s
  | .setupLock val => Sys2Proof.Machine.execSetupLock val s
  | .timeNowFracRead wide => Sys2Proof.Machine.execTimeNowFracRead wide s
  | .hbmRateWrite c val => Sys2Proof.Machine.execHbmRateWrite c val s
  | .hbmTrainingDone c => Sys2Proof.Machine.execHbmTrainingDone c s
  | .marginStart c val => Sys2Proof.Machine.execMarginStart c val s
  | .marginDone c points trained => Sys2Proof.Machine.execMarginDone c points trained s
  | .sqDoorbell f page val => Sys2Proof.Machine.execSqDoorbell f page val s
  | .cqDoorbell f page val => Sys2Proof.Machine.execCqDoorbell f page val s
  | .inertDoorbellWrite f page off size => Sys2Proof.Machine.execInertDoorbellWrite f page off size s
  | .modTimeExpiry p => Sys2Proof.Machine.execModTimeExpiry p s
  | .functionLevelReset f => Sys2Proof.Machine.execFunctionLevelReset f s
  | .vfDisable f => Sys2Proof.Machine.execVfDisable f s
  | .busMasterClear f => Sys2Proof.Machine.execBusMasterClear f s
  | .busMasterSet f => Sys2Proof.Machine.execBusMasterSet f s
  | .busMasterHoldExpiry f => Sys2Proof.Machine.execBusMasterHoldExpiry f s
  | .descriptorFetch p d => Sys2Proof.Machine.execDescriptorFetch p d s
  | .descriptorPhaseRetry p d => Sys2Proof.Machine.execDescriptorPhaseRetry p d s
  | .descriptorReadError p => Sys2Proof.Machine.execDescriptorReadError p s
  | .badDescriptor r => Sys2Proof.Machine.execBadDescriptor r s
  | .nop r => Sys2Proof.Machine.execNop r s
  | .phyUlTti r body => Sys2Proof.Machine.execPhyUlTti r body s
  | .phyDlTti r body => Sys2Proof.Machine.execPhyDlTti r body s
  | .phyUlDci r body => Sys2Proof.Machine.execPhyUlDci r body s
  | .phyTxData r tb => Sys2Proof.Machine.execPhyTxData r tb s
  | .flowScore r vectors => Sys2Proof.Machine.execFlowScore r vectors s
  | .flowVerdictSet r entries => Sys2Proof.Machine.execFlowVerdictSet r entries s
  | .fileOpen r => Sys2Proof.Machine.execFileOpen r s
  | .fileChunk r chunk => Sys2Proof.Machine.execFileChunk r chunk s
  | .fileClose r => Sys2Proof.Machine.execFileClose r s
  | .fileAbort r => Sys2Proof.Machine.execFileAbort r s
  | .takeRun r input => Sys2Proof.Machine.execTakeRun r input s
  | .takeResume r answered input => Sys2Proof.Machine.execTakeResume r answered input s
  | .slateArm r => Sys2Proof.Machine.execSlateArm r s
  | .loadModel r image => Sys2Proof.Machine.execLoadModel r image s
  | .loadRxpack r pack => Sys2Proof.Machine.execLoadRxpack r pack s
  | .loadCallsheet r image => Sys2Proof.Machine.execLoadCallsheet r image s
  | .unload r => Sys2Proof.Machine.execUnload r s
  | .timeRearm r => Sys2Proof.Machine.execTimeRearm r s
  | .acceptPair r => Sys2Proof.Machine.execAcceptPair r s
  | .rushesCtrl r => Sys2Proof.Machine.execRushesCtrl r s
  | .syncMessageReceive twoStep offset => Sys2Proof.Machine.execSyncMessageReceive twoStep offset s
  | .followUpReceive offset => Sys2Proof.Machine.execFollowUpReceive offset s
  | .announceReceive a => Sys2Proof.Machine.execAnnounceReceive a s
  | .delayReqReceive port => Sys2Proof.Machine.execDelayReqReceive port s
  | .delayRespReceive offset => Sys2Proof.Machine.execDelayRespReceive offset s
  | .ptpSyncSend port => Sys2Proof.Machine.execPtpSyncSend port s
  | .ptpAnnounceSend port => Sys2Proof.Machine.execPtpAnnounceSend port s
  | .delayReqSend => Sys2Proof.Machine.execDelayReqSend s
  | .sourceLost => Sys2Proof.Machine.execSourceLost s
  | .holdoverExpired => Sys2Proof.Machine.execHoldoverExpired s
  | .sceneEnd => Sys2Proof.Machine.execSceneEnd s
  | .ppsInEdge => Sys2Proof.Machine.execPpsInEdge s
  | .ppsOutPulse => Sys2Proof.Machine.execPpsOutPulse s
  | .cueFire g sfn slot chain step => Sys2Proof.Machine.execCueFire g sfn slot chain step s
  | .rtcRewrite => Sys2Proof.Machine.execRtcRewrite s
  | .hoRefInterval ref cycles => Sys2Proof.Machine.execHoRefInterval ref cycles s
  | .xtalStop => Sys2Proof.Machine.execXtalStop s
  | .add n t f => Sys2Proof.Machine.execAdd n t f s
  | .sub n t f => Sys2Proof.Machine.execSub n t f s
  | .mul n t f => Sys2Proof.Machine.execMul n t f s
  | .mulh n t f => Sys2Proof.Machine.execMulh n t f s
  | .mac n t f => Sys2Proof.Machine.execMac n t f s
  | .macz n t f => Sys2Proof.Machine.execMacz n t f s
  | .accrd n t f => Sys2Proof.Machine.execAccrd n t f s
  | .and n t f => Sys2Proof.Machine.execAnd n t f s
  | .or n t f => Sys2Proof.Machine.execOr n t f s
  | .xor n t f => Sys2Proof.Machine.execXor n t f s
  | .shl n t f => Sys2Proof.Machine.execShl n t f s
  | .shr n t f => Sys2Proof.Machine.execShr n t f s
  | .shra n t f => Sys2Proof.Machine.execShra n t f s
  | .min n t f => Sys2Proof.Machine.execMin n t f s
  | .max n t f => Sys2Proof.Machine.execMax n t f s
  | .abs n t f => Sys2Proof.Machine.execAbs n t f s
  | .neg n t f => Sys2Proof.Machine.execNeg n t f s
  | .cmp n t f => Sys2Proof.Machine.execCmp n t f s
  | .csel n t c dst sa sb => Sys2Proof.Machine.execCsel n t c dst sa sb s
  | .add2 n t f => Sys2Proof.Machine.execAdd2 n t f s
  | .sub2 n t f => Sys2Proof.Machine.execSub2 n t f s
  | .min2 n t f => Sys2Proof.Machine.execMin2 n t f s
  | .abs2 n t f => Sys2Proof.Machine.execAbs2 n t f s
  | .mintrk n t f => Sys2Proof.Machine.execMintrk n t f s
  | .addi n t f => Sys2Proof.Machine.execAddi n t f s
  | .andi n t f => Sys2Proof.Machine.execAndi n t f s
  | .ori n t f => Sys2Proof.Machine.execOri n t f s
  | .shli n t f => Sys2Proof.Machine.execShli n t f s
  | .shri n t f => Sys2Proof.Machine.execShri n t f s
  | .shrai n t f => Sys2Proof.Machine.execShrai n t f s
  | .cmpi n t f => Sys2Proof.Machine.execCmpi n t f s
  | .ldi n t dst imm => Sys2Proof.Machine.execLdi n t dst imm s
  | .lui n t dst imm => Sys2Proof.Machine.execLui n t dst imm s
  | .ld n t f => Sys2Proof.Machine.execLd n t f s
  | .ldh n t f => Sys2Proof.Machine.execLdh n t f s
  | .ldb n t f => Sys2Proof.Machine.execLdb n t f s
  | .st n t f => Sys2Proof.Machine.execSt n t f s
  | .sth n t f => Sys2Proof.Machine.execSth n t f s
  | .stb n t f => Sys2Proof.Machine.execStb n t f s
  | .seta n t sel k imm => Sys2Proof.Machine.execSeta n t sel k imm s
  | .mva n t sel k d => Sys2Proof.Machine.execMva n t sel k d s
  | .mvd n t sel k d => Sys2Proof.Machine.execMvd n t sel k d s
  | .adda n t k imm => Sys2Proof.Machine.execAdda n t k imm s
  | .br n t c hint off slots staged => Sys2Proof.Machine.execBr n t c hint off slots staged s
  | .call n t off => Sys2Proof.Machine.execCall n t off s
  | .ret n t => Sys2Proof.Machine.execRet n t s
  | .jr n t d => Sys2Proof.Machine.execJr n t d s
  | .loop n t d len => Sys2Proof.Machine.execLoop n t d len s
  | .loopi n t count len => Sys2Proof.Machine.execLoopi n t count len s
  | .lexit n t => Sys2Proof.Machine.execLexit n t s
  | .mload n t f => Sys2Proof.Machine.execMload n t f s
  | .shadowLoadStart n a waited => Sys2Proof.Machine.execShadowLoadStart n a waited s
  | .shadowLoadComplete n a waits => Sys2Proof.Machine.execShadowLoadComplete n a waits s
  | .mpass n t f => Sys2Proof.Machine.execMpass n t f s
  | .cut n t f => Sys2Proof.Machine.execCut n t f s
  | .mread n t f => Sys2Proof.Machine.execMread n t f s
  | .mclr n t f => Sys2Proof.Machine.execMclr n t f s
  | .vld n t f => Sys2Proof.Machine.execVld n t f s
  | .vst n t f => Sys2Proof.Machine.execVst n t f s
  | .vgth n t f => Sys2Proof.Machine.execVgth n t f s
  | .vsct n t f => Sys2Proof.Machine.execVsct n t f s
  | .vadd n t f => Sys2Proof.Machine.execVadd n t f s
  | .vmul n t f => Sys2Proof.Machine.execVmul n t f s
  | .vfma n t f => Sys2Proof.Machine.execVfma n t f s
  | .vcmp n t f => Sys2Proof.Machine.execVcmp n t f s
  | .vsel n t f => Sys2Proof.Machine.execVsel n t f s
  | .vmin n t f => Sys2Proof.Machine.execVmin n t f s
  | .vmax n t f => Sys2Proof.Machine.execVmax n t f s
  | .vtree n t f => Sys2Proof.Machine.execVtree n t f s
  | .rufeed n t f => Sys2Proof.Machine.execRufeed n t f s
  | .ruread n t f => Sys2Proof.Machine.execRuread n t f s
  | .ccNop n t => Sys2Proof.Machine.execCcNop n t s
  | .halt n t => Sys2Proof.Machine.execHalt n t s
  | .threadHalted n t res => Sys2Proof.Machine.execThreadHalted n t res s
  | .sync n t units => Sys2Proof.Machine.execSync n t units s
  | .syncComplete n t => Sys2Proof.Machine.execSyncComplete n t s
  | .mfs n t f => Sys2Proof.Machine.execMfs n t f s
  | .mts n t f => Sys2Proof.Machine.execMts n t f s
  | .rpush n t f => Sys2Proof.Machine.execRpush n t f s
  | .rpushResume n t => Sys2Proof.Machine.execRpushResume n t s
  | .rpop n t f => Sys2Proof.Machine.execRpop n t f s
  | .rpopResume n t => Sys2Proof.Machine.execRpopResume n t s
  | .dkick n t f => Sys2Proof.Machine.execDkick n t f s
  | .cuewait n t f => Sys2Proof.Machine.execCuewait n t f s
  | .aadd n t f => Sys2Proof.Machine.execAadd n t f s
  | .amm n t f => Sys2Proof.Machine.execAmm n t f s
  | .dollyDescriptorStart n t => Sys2Proof.Machine.execDollyDescriptorStart n t s
  | .dollyReelPop n t => Sys2Proof.Machine.execDollyReelPop n t s
  | .dollyTransferAck n a => Sys2Proof.Machine.execDollyTransferAck n a s
  | .dollyDescriptorComplete n t => Sys2Proof.Machine.execDollyDescriptorComplete n t s
  | .lsScrub n => Sys2Proof.Machine.execLsScrub n s
  | .stepCheckExpiry g sfn slot chain step res => Sys2Proof.Machine.execStepCheckExpiry g sfn slot chain step res s
  | .windowRelease n w => Sys2Proof.Machine.execWindowRelease n w s
  | .windowOpen n w => Sys2Proof.Machine.execWindowOpen n w s
  | .suPlace n => Sys2Proof.Machine.execSuPlace n s
  | .parkLimitExpiry n cycles => Sys2Proof.Machine.execParkLimitExpiry n cycles s
  | .itemDispatch p n => Sys2Proof.Machine.execItemDispatch p n s
  | .itemComplete n t words => Sys2Proof.Machine.execItemComplete n t words s
  | .takeJobStart p => Sys2Proof.Machine.execTakeJobStart p s
  | .layerEnd p marks places output => Sys2Proof.Machine.execLayerEnd p marks places output s
  | .sheetSwitch => Sys2Proof.Machine.execSheetSwitch s
  | .sheetRelease sheet => Sys2Proof.Machine.execSheetRelease sheet s
  | .takeover n role => Sys2Proof.Machine.execTakeover n role s
  | .slotStart g => Sys2Proof.Machine.execSlotStart g s
  | .dlUplaneSend g sfn slot symbol => Sys2Proof.Machine.execDlUplaneSend g sfn slot symbol s
  | .dlWindowClose g sfn slot symbol => Sys2Proof.Machine.execDlWindowClose g sfn slot symbol s
  | .rushesCopy g sfn slot inTime => Sys2Proof.Machine.execRushesCopy g sfn slot inTime s
  | .fhFrameReceive port frame => Sys2Proof.Machine.execFhFrameReceive port frame s
  | .ecpriDelayRequest port measId => Sys2Proof.Machine.execEcpriDelayRequest port measId s
  | .ecpriRemoteRequest port measId => Sys2Proof.Machine.execEcpriRemoteRequest port measId s
  | .fhLinkChange port up => Sys2Proof.Machine.execFhLinkChange port up s
  | .lineFrameReceive port frame fcsOk => Sys2Proof.Machine.execLineFrameReceive port frame fcsOk s
  | .lineLinkChange port up => Sys2Proof.Machine.execLineLinkChange port up s
  | .flowSweep rec => Sys2Proof.Machine.execFlowSweep rec s
  | .holdCeiling rec => Sys2Proof.Machine.execHoldCeiling rec s
  | .flowVerdict rec word => Sys2Proof.Machine.execFlowVerdict rec word s
  | .tableFullReport => Sys2Proof.Machine.execTableFullReport s
  | .fileVerdict word => Sys2Proof.Machine.execFileVerdict word s
  | .fileTimeout id => Sys2Proof.Machine.execFileTimeout id s
  | .matchJob reel => Sys2Proof.Machine.execMatchJob reel s
  | .trackJob reel => Sys2Proof.Machine.execTrackJob reel s
  | .composeJob reel => Sys2Proof.Machine.execComposeJob reel s
  | .contactJob reel => Sys2Proof.Machine.execContactJob reel s
  | .engineUnitEnd e cycles => Sys2Proof.Machine.execEngineUnitEnd e cycles s
  | .wcAgeExpiry c e => Sys2Proof.Machine.execWcAgeExpiry c e s
  | .hbmRead c addr retries ok corrected work => Sys2Proof.Machine.execHbmRead c addr retries ok corrected work s
  | .atomicApply n t => Sys2Proof.Machine.execAtomicApply n t s
  | .exactAliasWrite slot data => Sys2Proof.Machine.execExactAliasWrite slot data s
  | .exactAliasRead slot => Sys2Proof.Machine.execExactAliasRead slot s
  | .codecBlockEncode e src dst len => Sys2Proof.Machine.execCodecBlockEncode e src dst len s
  | .codecBlockDecode e src dst => Sys2Proof.Machine.execCodecBlockDecode e src dst s
  | .correctableEvent u cause addr w => Sys2Proof.Machine.execCorrectableEvent u cause addr w s
  | .uncorrectableEvent u cause detail w => Sys2Proof.Machine.execUncorrectableEvent u cause detail w s
  | .retakeRestart p => Sys2Proof.Machine.execRetakeRestart p s
  | .roleRebind model role => Sys2Proof.Machine.execRoleRebind model role s
  | .ledgerCommit => Sys2Proof.Machine.execLedgerCommit s
  | .sagWarning mv => Sys2Proof.Machine.execSagWarning mv s
  | .stretchEnd => Sys2Proof.Machine.execStretchEnd s
  | .sagClear => Sys2Proof.Machine.execSagClear s
  | .sagReset => Sys2Proof.Machine.execSagReset s
  | .throttleStep tj watts => Sys2Proof.Machine.execThrottleStep tj watts s
  | .thermalTrip tj => Sys2Proof.Machine.execThermalTrip tj s
  | .thermTripRelease => Sys2Proof.Machine.execThermTripRelease s
  | .railOutOfRange rail => Sys2Proof.Machine.execRailOutOfRange rail s
  | .vbatLow mv => Sys2Proof.Machine.execVbatLow mv s
  | .mainFeedFail => Sys2Proof.Machine.execMainFeedFail s
  | .mainFeedRestored => Sys2Proof.Machine.execMainFeedRestored s
  | .holdoverSupplyDrop => Sys2Proof.Machine.execHoldoverSupplyDrop s
  | .pwrGoodFall => Sys2Proof.Machine.execPwrGoodFall s
  | .perstFall => Sys2Proof.Machine.execPerstFall s
  | .refclkSysStop => Sys2Proof.Machine.execRefclkSysStop s
  | .resetRelease sigs => Sys2Proof.Machine.execResetRelease sigs s
  | .avsComplete => Sys2Proof.Machine.execAvsComplete s
  | .avsTimeout => Sys2Proof.Machine.execAvsTimeout s
  | .dmcHeartbeat => Sys2Proof.Machine.execDmcHeartbeat s
  | .dmcHeartbeatTimeout => Sys2Proof.Machine.execDmcHeartbeatTimeout s
  | .linkTrainDone l peer => Sys2Proof.Machine.execLinkTrainDone l peer s
  | .linkTrainRetry l => Sys2Proof.Machine.execLinkTrainRetry l s
  | .linkCalDone l => Sys2Proof.Machine.execLinkCalDone l s
  | .flitReceive l crcOk replay acked => Sys2Proof.Machine.execFlitReceive l crcOk replay acked s
  | .errDecay => Sys2Proof.Machine.execErrDecay s
  | .e2eGap src prio => Sys2Proof.Machine.execE2eGap src prio s
  | .timeExchangeSend => Sys2Proof.Machine.execTimeExchangeSend s
  | .timeMessage l m offset => Sys2Proof.Machine.execTimeMessage l m offset s
  | .pathCorrection depth => Sys2Proof.Machine.execPathCorrection depth s
  | .groupJoin m child base size fanout locked lock => Sys2Proof.Machine.execGroupJoin m child base size fanout locked lock s
  | .armMessage l m => Sys2Proof.Machine.execArmMessage l m s
  | .ackMessage l m => Sys2Proof.Machine.execAckMessage l m s
  | .breakMessage l m => Sys2Proof.Machine.execBreakMessage l m s
  | .arriveMessage l m => Sys2Proof.Machine.execArriveMessage l m s
  | .reduceMessage l m => Sys2Proof.Machine.execReduceMessage l m s
  | .bcastMessage l m => Sys2Proof.Machine.execBcastMessage l m s
  | .dataMessage l m => Sys2Proof.Machine.execDataMessage l m s
  | .slateFire group slate => Sys2Proof.Machine.execSlateFire group slate s
  | .slateWaitExpiry p => Sys2Proof.Machine.execSlateWaitExpiry p s
  | .uartCharacter samples => Sys2Proof.Machine.execUartCharacter samples s
  | .recoveryWrite f => Sys2Proof.Machine.execRecoveryWrite f s
  | .recoveryInstall f keyOk sigOk flashOk => Sys2Proof.Machine.execRecoveryInstall f keyOk sigOk flashOk s
  | .recoveryStatus f => Sys2Proof.Machine.execRecoveryStatus f s
  | .recoveryFrameTimeout => Sys2Proof.Machine.execRecoveryFrameTimeout s
  | .setEndpointId eid => Sys2Proof.Machine.execSetEndpointId eid s
  | .getEndpointId => Sys2Proof.Machine.execGetEndpointId s
  | .getMctpVersionSupport => Sys2Proof.Machine.execGetMctpVersionSupport s
  | .getMessageTypeSupport => Sys2Proof.Machine.execGetMessageTypeSupport s
  | .getEndpointUuid => Sys2Proof.Machine.execGetEndpointUuid s
  | .mctpUnsupportedCmd cmd => Sys2Proof.Machine.execMctpUnsupportedCmd cmd s
  | .getTid => Sys2Proof.Machine.execGetTid s
  | .getPldmVersion typ => Sys2Proof.Machine.execGetPldmVersion typ s
  | .getPldmTypes => Sys2Proof.Machine.execGetPldmTypes s
  | .getPldmCommands typ => Sys2Proof.Machine.execGetPldmCommands typ s
  | .queryDeviceIdentifiers => Sys2Proof.Machine.execQueryDeviceIdentifiers s
  | .getFirmwareParameters => Sys2Proof.Machine.execGetFirmwareParameters s
  | .requestUpdate => Sys2Proof.Machine.execRequestUpdate s
  | .passComponentTable => Sys2Proof.Machine.execPassComponentTable s
  | .updateComponent component => Sys2Proof.Machine.execUpdateComponent component s
  | .requestFirmwareData data => Sys2Proof.Machine.execRequestFirmwareData data s
  | .transferComplete ok => Sys2Proof.Machine.execTransferComplete ok s
  | .verifyComplete keyOk sigOk => Sys2Proof.Machine.execVerifyComplete keyOk sigOk s
  | .applyComplete flashOk => Sys2Proof.Machine.execApplyComplete flashOk s
  | .activateFirmware => Sys2Proof.Machine.execActivateFirmware s
  | .getStatus => Sys2Proof.Machine.execGetStatus s
  | .cancelUpdateComponent => Sys2Proof.Machine.execCancelUpdateComponent s
  | .cancelUpdate => Sys2Proof.Machine.execCancelUpdate s
  | .getVersion => Sys2Proof.Machine.execGetVersion s
  | .getCapabilities => Sys2Proof.Machine.execGetCapabilities s
  | .negotiateAlgorithms => Sys2Proof.Machine.execNegotiateAlgorithms s
  | .getDigests => Sys2Proof.Machine.execGetDigests s
  | .getCertificate slot => Sys2Proof.Machine.execGetCertificate slot s
  | .challenge slot => Sys2Proof.Machine.execChallenge slot s
  | .getMeasurements index => Sys2Proof.Machine.execGetMeasurements index s
  | .spdmUnsupportedRequest code => Sys2Proof.Machine.execSpdmUnsupportedRequest code s
  | .extest => Sys2Proof.Machine.execExtest s
  | .idcode => Sys2Proof.Machine.execIdcode s
  | .samplePreload => Sys2Proof.Machine.execSamplePreload s
  | .clamp => Sys2Proof.Machine.execClamp s
  | .highz => Sys2Proof.Machine.execHighz s
  | .unlockChal => Sys2Proof.Machine.execUnlockChal s
  | .unlockResp valid => Sys2Proof.Machine.execUnlockResp valid s
  | .debugAccess code => Sys2Proof.Machine.execDebugAccess code s
  | .bypass code => Sys2Proof.Machine.execBypass code s
  | .tapTestLogicReset sigs => Sys2Proof.Machine.execTapTestLogicReset sigs s
  | .vfEnable f => Sys2Proof.Machine.execVfEnable f s
  | .flrComplete f => Sys2Proof.Machine.execFlrComplete f s
  | .msixUnmask f vec => Sys2Proof.Machine.execMsixUnmask f vec s
  | .undefinedOrMisalignedRead bar2 f off size => Sys2Proof.Machine.execUndefinedOrMisalignedRead bar2 f off size s
  | .fabricRootLock => Sys2Proof.Machine.execFabricRootLock s
  | .hbmStackHot c hot => Sys2Proof.Machine.execHbmStackHot c hot s
  | .avsThresholdTimeout => Sys2Proof.Machine.execAvsThresholdTimeout s

end Sys2Proof.Machine
end

