-- ==== Sys2Proof/Safety.lean ====
section
/-! DEFINITION. What a safe state is, and when a command completes, in the terms claims use. -/

namespace Sys2Proof

open Sys2Proof.Machine

/-- Every table of the state is in its canonical form: keys rising, no entry equal to what an unlisted key reads as. -/
def Machine.State.wf (s : State) : Bool :=
  tabWf regReset s.regs && tabWf memDefault s.mem.bytes && tabWf (fun _ => ({} : PairS)) s.pairs &&
    tabWf (fun _ => ({} : FuncS)) s.funcs && tabWf (fun _ => ({} : Tile)) s.tiles

/-- The loaded images have numbers of their own, all below the next one. -/
def Machine.State.loadsOk (s : State) : Bool :=
  decide ((s.loaded.map (·.num)).Nodup) && s.loaded.all fun l => decide (l.num < s.nextLoad)

/-- Memory is in its canonical form: addresses strictly rising, no entry equal to what an unlisted address reads as. -/
def Machine.Memory.wf (m : MemS) : Bool := tabWf memDefault m.bytes

/-- The command answers a next state, of which `p` holds. -/
def Machine.Completes (i : Instr) (s : State) (p : State → Prop) : Prop := ∃ t, exec i s = .next t ∧ p t

/-- Every register but those listed shows what it held. -/
def Machine.regsBut (l : List Nat) (s t : State) : Prop := ∀ o, o ∉ l → rd t o = rd s o

/-- The descriptor `d` named by `r` is consumed and not started, holds opcode `op`, is next among the MAINT descriptors if it
is one, passes the checks that the opcode's rules `o` give, and names no buffer in a fenced tile. -/
abbrev Machine.Ready (s : State) (r : DRef) (d : BitVec 512) (op : Nat) (o : OpRules) : Prop :=
  flightOf s r = some ⟨r, d, false⟩ ∧ dOpcode d = op ∧ maintTurn s ⟨r, d, false⟩ = true ∧ preCheck s r.pair d o = none ∧
    bufferFenced s d = false

/-- Every byte of memory reads as it did. -/
def Machine.memSame (s t : State) : Prop := ∀ a, memByte t a = memByte s a

/-- Every byte of memory but `n` bytes from `b` reads as it did. -/
def Machine.memBut (b n : Nat) (s t : State) : Prop := ∀ a, a < b ∨ b + n ≤ a → memByte t a = memByte s a

/-- Of the tiles only thread `t` of tile `n` differs, and nothing else of the state does. -/
def Machine.onlyThread (n : TileIx) (t : Thr) (s u : State) : Prop :=
  u = { s with tiles := u.tiles } ∧ (∀ m, m ≠ n.val → tileOf u m = tileOf s m) ∧
    tileOf u n = setThr t (threadOf u n t) (tileOf s n)

/-- The thread's next F0 instruction executes and its companion field holds no reserved bit and no transfer that raises an
exception (05 R150, R169). -/
abbrev Machine.AluReady (s : State) (n : TileIx) (t : Thr) (ct : BitVec 11) : Prop :=
  canRun s n t = true ∧ ct.getLsbD 0 = false ∧ compCheck s n (threadOf s n t) (compX ct) = none ∧
    compCheck s n (threadOf s n t) (compY ct) = none

/-- The F0 instruction completes: `z` is its thread after the operation alone; the companion transfers then move their heads
and fill or store their registers, the result in `dst` wins over a transfer into it, the thread retires, of memory only the
words stored change (05 R150), and the cycles `lost` to bank conflicts count (04 R132). -/
def Machine.AluRuns (i : Instr) (n : TileIx) (t : Thr) (ct : BitVec 11) (lost : Nat) (dst : Option (Fin 16)) (z : Thread)
    (s : State) : Prop :=
  Completes i s fun u =>
    let y := threadOf s n t
    let w := compThread s n y (compY ct) (compThread s n y (compX ct) z)
    threadOf u n t = retire (match dst with
      | some k => setD k (getD z k) w
      | none => w) ∧
    onlyThread n t (bankStall n lost (compStore n y (compY ct) (compStore n y (compX ct) s))) u

/-- The instruction completes, its thread is `z` past it, and nothing else changes. -/
def Machine.CoreRuns (i : Instr) (n : TileIx) (t : Thr) (z : Thread) (s : State) : Prop :=
  Completes i s fun u => threadOf u n t = z ∧ onlyThread n t s u

/-- The load completes: its thread is `z` past it, the cycles `lost` to bank conflicts count (04 R132), and nothing else
changes. -/
def Machine.LoadRuns (i : Instr) (n : TileIx) (t : Thr) (lost : Nat) (z : Thread) (s : State) : Prop :=
  Completes i s fun u => threadOf u n t = z ∧ onlyThread n t (bankStall n lost s) u

/-- The command completes, tile `n` is `x` after it, the cycles `lost` to bank conflicts count, and nothing else changes. -/
def Machine.TileRuns (i : Instr) (n : TileIx) (lost : Nat) (x : Tile) (s : State) : Prop :=
  Completes i s fun u =>
    tileOf u n = x ∧ (∀ m, m ≠ n.val → tileOf u m = tileOf s m) ∧ u = { bankStall n lost s with tiles := u.tiles }

/-- Of the tiles other than `n` only Dolly's lists may differ, which issue what their limits let them (06 R174). -/
def Machine.onlyDolly (n : TileIx) (s u : State) : Prop := ∀ m, m ≠ n.val → tileOf u m = { tileOf s m with dolly := (tileOf u m).dolly }

/-- The DOLLY_PEAK registers of the tiles. -/
def Machine.peakRegs : List Nat := (List.range 64).map fun k => tileReg k 0x68

/-- No byte of memory, no poison mark, no write-combining entry and no atomic differs. -/
def Machine.memKept (s u : State) : Prop :=
  u.mem = { s.mem with pcs := u.mem.pcs, codecIn := u.mem.codecIn, codecOut := u.mem.codecOut }

/-- Array `k` of tile `n` is open to an operation of thread `t` of the given kind: nothing of the thread waits there and nothing
holds it (05 R166, R167). -/
abbrev Machine.ArrayOpen (s : State) (n : TileIx) (t : Thr) (k : Nat) (kind : MatKind) : Prop :=
  opsOf t (arrOf (tileOf s n) k) = [] ∧ opBlocked (arrOf (tileOf s n) k) ⟨t, (threadOf s n t).pc, kind⟩ = false

/-- A lane-wise vector instruction names a listed lane type, registers that its thread may use, and a mask only where it is
written under one (05 R148, R166). -/
def Machine.VecOk (t : Thr) (f : VecF) : Bool :=
  decide (f.typ.toNat ≤ 4) && c1Reg t f.vd && c1Reg t f.va && c1Reg t f.vb && (f.men || decide (f.msk = 0)) &&
    (!f.men || decide (t = 0) || decide (4 ≤ f.msk.val))

/-- The lane-wise instruction completes: each lane that the mask enables takes `g` of its elements, every other lane and
register keeps its value, the thread moves on, and nothing else changes (04 R125). -/
def Machine.VecRuns (i : Instr) (n : TileIx) (t : Thr) (f : VecF) (g : Nat → Nat → Nat → Nat) (s : State) : Prop :=
  Completes i s fun u =>
    (∀ k ∈ List.range 64, lane (getV (tileOf u n) f.vd) k =
      if f.men = false ∨ (getM (tileOf s n) f.msk).getLsbD k = true then
        perElem f.typ.toNat g (lane (getV (tileOf s n) f.va) k) (lane (getV (tileOf s n) f.vb) k) (lane (getV (tileOf s n) f.vd) k)
      else lane (getV (tileOf s n) f.vd) k) ∧
    (∀ k ∈ List.range 32, k ≠ f.vd.val → getV (tileOf u n) k = getV (tileOf s n) k) ∧
    tileOf u n = setThr t (retire (threadOf s n t)) { tileOf s n with v := (tileOf u n).v } ∧
    (∀ m, m ≠ n.val → tileOf u m = tileOf s m) ∧ u = { s with tiles := u.tiles }

/-- Of the tiles only `n` differs. -/
def Machine.onlyTile (n : TileIx) (s u : State) : Prop := ∀ m, m ≠ n.val → tileOf u m = tileOf s m

/-- Every byte of memory but `w` bytes from each address of `l` reads as it did. -/
def Machine.memButs (l : List Nat) (w : Nat) (s t : State) : Prop :=
  ∀ a, (∀ b ∈ l, a < b ∨ b + w ≤ a) → memByte t a = memByte s a

/-- A result under bit S: wrapped to 32 bits, or clamped to the signed range; and whether it clamped (05 R161). -/
def Machine.satWord (sb : Bool) (v : Int) : Word :=
  BitVec.ofInt 32 (if sb then (if v < -2147483648 then -2147483648 else if 2147483647 < v then 2147483647 else v) else v)
def Machine.satFlag (sb : Bool) (v : Int) : Bool := sb && (decide (v < -2147483648) || decide (2147483647 < v))

/-- The engine is idle, it chooses handle `h` at reel `r` next, and the handle's job block, in the pool buffer of `n` bytes at `a`,
passes the checks (11 R323, R325, R326). -/
abbrev Machine.JobReady (e : Engine) (r : Nat) (h : Handle) (a n : Nat) (s : State) : Prop :=
  engOf e s = {} ∧ engineChoose e s = some (r, h) ∧ jobBuffer s ((reelOf s r).owner.getD 0) h.h = some (a, n) ∧
    blockLen e (devRead s a 64) ≤ n ∧ blockCheck e s (devRead s a (blockLen e (devRead s a 64))) = 0 ∧ inAlias a = false ∧
    s.mem.wc = []

/-- The command completes: the handle leaves its reel and its job runs from its first unit; of the rest of the state only the
class's turn, and what a TRACK job builds in its scratch buffer, change. -/
def Machine.JobStarts (i : Instr) (e : Engine) (r : Nat) (h : Handle) (a : Nat) (s : State) : Prop :=
  Completes i s fun t =>
    let n := blockLen e (devRead s a 64)
    engOf e t = { running := some (engJobOf e r ((reelOf s r).owner.getD 0) h a (devRead s a n) (devPoisoned s a n)) } ∧
    (reelOf t r).q = (reelOf s r).q.drop 1 ∧ (∀ k ∈ List.range 1024, k ≠ r → reelOf t k = reelOf s k) ∧
    t = setEng e (engOf e t) { s with reels := t.reels, rounds := t.rounds, lastReel := t.lastReel, mem := t.mem, free := t.free } ∧
    ((e = .matte ∨ leAt (devRead s a n) 0 1 ≠ 2) → t.mem = s.mem ∧ t.free = s.free)

/-- The main domain is in reset with a cause latched: registers, memory, tiles and work are as after reset; flash, fuses, the
anti-rollback mirror and the real-time clock keep what they held (14 R412, 16 R461). -/
def Machine.ResetBy (cause : Nat) (s t : State) : Prop :=
  t.board.inReset = true ∧ t.hold.cause = cause ∧ t.regs = [] ∧ t.mem = MemS.reset ∧ t.tiles = [] ∧ t.pairs = [] ∧ t.flights = [] ∧
    t.loaded = [] ∧ t.chains = [] ∧ t.items = [] ∧ t.jobs = [] ∧ t.fault = FaultS.reset ∧
    t.mgmt.flash = s.mgmt.flash ∧ t.mgmt.rowsMfw = s.mgmt.rowsMfw ∧ t.mgmt.rowsDmc = s.mgmt.rowsDmc ∧
    t.hold.mirror = s.hold.mirror ∧ t.hold.rtc = s.hold.rtc ∧ t.hold.bootCount = s.hold.bootCount

/-- Generation of the current ledger copy. -/
def Machine.ledgerGen (s : State) : Option Word := (currentCopy s.hold).map (·.1.gen)

/-- A ledger commit: the copy that was current stays, and the other becomes current with the next generation (14 R419). -/
def Machine.Committed (s t : State) : Prop :=
  ledgerGen t = some ((ledgerGen s).elim 0 (· + 1)) ∧
    ((currentCopy s.hold).all fun c => decide ((if c.2 then t.hold.copyB else t.hold.copyA) = some c.1)) = true

/-- A message of KIND `k` for this chip has come over link `l`, and is the next of its source and priority with none held behind
it (13 R375, R378). -/
abbrev Machine.MsgDue (l : Fin 12) (m : SMsg) (k : Nat) (s : State) : Prop :=
  linkUsable s l = true ∧ m.kind.toNat = k ∧ m.coded = false ∧ m.dst.toNat = chipNum s ∧ seqAhead s m = 0 ∧
    (s.splice.early.any fun x => decide (msgKey x.1 = msgKey m)) = false

/-- Its number lies behind; of registers only those listed and the link's byte counter changed. -/
def Machine.MsgTaken (l : Fin 12) (m : SMsg) (o : List Nat) (s t : State) : Prop :=
  nextSeq t (msgKey m) = (m.seq.toNat + 1) % 65536 ∧ regsBut (linkReg l 0x18 :: o) s t

/-- Messages to a chip at a priority leave by link `k` at once. -/
abbrev Machine.RoomOn (k dst prio flits : Nat) (s : State) : Prop :=
  pickLink s dst prio = some k ∧ (linkOf s k).queue = [] ∧ replayFill (linkOf s k) + flits ≤ 256

end Sys2Proof
end

