-- ==== Sys2Proof/Certificates/Slice0/Obligations.lean ====
section
/-! DEFINITION. The statements about the model that are put to proof. -/

open Sys2Proof Sys2Proof.Machine

/-- A step runs the command at the front of the queue. For every command, every queue behind it and every state, a step of
the state with that command in front of that queue is exec of that command on the state with the rest of the queue. -/
def Obligations.StepRunsFrontCommand : Prop :=
  ∀ (c : Instr) (rest : List Instr) (s : State), s.pending = c :: rest → step s = exec c { s with pending := rest }

/-- An idle step is one tick of the time clock, which adds the increment. With an empty queue and a nanosecond count below
10^9, a step answers a next state in which the counter, as a number of 2^-42 ns units, has gained exactly the total
increment of INC_NS, INC_FRAC and INC_SUB (modulo 2^48 seconds), the nanosecond count is still below 10^9, and nothing
but the counter and the tick number has changed. That an idle step is one tick is the model's choice (log 3). -/
def Obligations.IdleStepAddsIncrement : Prop :=
  ∀ s : State, s.pending = [] → s.time.counter.ns.toNat < 1000000000 →
    ∃ t, step s = .next t ∧ t = { s with clk := s.clk + 1, time := { s.time with counter := t.time.counter } } ∧
      t.time.counter.ns.toNat < 1000000000 ∧
      counterUnits t.time.counter % (2 ^ 48 * unitsS) = (counterUnits s.time.counter + incUnits s) % (2 ^ 48 * unitsS)

/-- Letting the clock run n ticks is n single ticks. For every n and every state whose counter holds fewer than 10^9
nanoseconds, the closed form by which commands that happen later let the clock run gives the state that n single ticks
of the time clock give, in every field. -/
def Obligations.ManyTicksAreRepeatedTicks : Prop :=
  ∀ (n : Nat) (s : State), s.time.counter.ns.toNat < 1000000000 → advance n s = Nat.iterate tick n s

/-- An aligned write stores the writable fields, clears W1C bits, or is discarded with an access error. Before SETUP_LOCK
a 32-bit aligned write to a register with RW/L fields that passes its range rules completes: the RW/L bits take the
written value, W1C bits written with 1 are cleared, the other bits stay, and for every register but MAP and CFG of
HBM, ATOM_CFG and FCLK, whose write starts something more, nothing else changes; one that breaks a range rule changes
nothing and is recorded as an access error. At any time a write to a register whose only writable fields are W1C
clears the bits written with 1 and changes nothing else. An aligned 64-bit write is the write of the low word, then of
the high word. A write of another size or alignment, and one at an offset that holds no register, change nothing and
are recorded with KIND 0 and KIND 3. A fenced tile takes no write: one to its registers behind STATUS changes nothing. -/
def Obligations.WriteBeforeLockStores : Prop :=
  (∀ (o : Nat) (v : Word) (s : State) (r : RegRow), hostDown s = false → locked s = false → o % 4 = 0 → regRow o = some r →
    tileBarred s o = false → r.w1s = 0 → r.wo = 0 → r.rwl ≠ 0 →
    checkWrite s o v (((rd s o &&& ~~~ r.rwl) ||| (v &&& r.rwl)) &&& ~~~ (v &&& r.w1c)) r = none →
    exec (.regWrite o 4 (v.setWidth 64)) s =
      .next (writeEffect o (rd s o) (wr o (((rd s o &&& ~~~ r.rwl) ||| (v &&& r.rwl)) &&& ~~~ (v &&& r.w1c)) s)) ∧
    (o ≠ 0xA0000 → o ≠ 0x40018 → (o < 0x100000 ∨ 0x200000 ≤ o) →
      exec (.regWrite o 4 (v.setWidth 64)) s =
        .next (wr o (((rd s o &&& ~~~ r.rwl) ||| (v &&& r.rwl)) &&& ~~~ (v &&& r.w1c)) s))) ∧
  (∀ (o : Nat) (v : Word) (s : State) (r : RegRow) (k : Nat), hostDown s = false → locked s = false → o % 4 = 0 →
    regRow o = some r → tileBarred s o = false → r.w1s = 0 → r.wo = 0 → r.rwl ≠ 0 →
    checkWrite s o v (((rd s o &&& ~~~ r.rwl) ||| (v &&& r.rwl)) &&& ~~~ (v &&& r.w1c)) r = some k →
    exec (.regWrite o 4 (v.setWidth 64)) s = .next (aerr k false 0 o s)) ∧
  (∀ (o : Nat) (v : Word) (s : State) (r : RegRow), hostDown s = false → o % 4 = 0 → regRow o = some r → tileBarred s o = false → r.w1s = 0 →
    r.wo = 0 → r.rwl = 0 → v &&& r.w1c ≠ 0 →
    exec (.regWrite o 4 (v.setWidth 64)) s = .next (wr o (rd s o &&& ~~~ (v &&& r.w1c)) s)) ∧
  (∀ (o : Nat) (v : Dword) (s : State), hostDown s = false → o % 8 = 0 →
    exec (.regWrite o 8 v) s = .next (regStore (o + 4) (v.extractLsb' 32 32) (regStore o (v.setWidth 32) s))) ∧
  (∀ (o size : Nat) (v : Dword) (s : State), hostDown s = false → ¬ (size = 4 ∧ o % 4 = 0) → ¬ (size = 8 ∧ o % 8 = 0) →
    exec (.regWrite o size v) s = .next (aerr 0 false 0 o s)) ∧
  (∀ (o : Nat) (v : Dword) (s : State), hostDown s = false → o % 4 = 0 → regRow o = none →
    exec (.regWrite o 4 v) s = .next (aerr 3 false 0 o s)) ∧
  (∀ (o : Nat) (v : Dword) (r : RegRow) (s : State), hostDown s = false → o % 4 = 0 → regRow o = some r → tileBarred s o = true →
    exec (.regWrite o 4 v) s = .next s)

/-- After the lock a write leaves every RW/L field as it was. After SETUP_LOCK a 32-bit write to a register that has RW/L
fields and no W1C, W1S or WO fields, other than the access-error registers themselves, completes with every RW/L bit
as it was, whatever was written; where the write would change such a bit, the access error has KIND 1 and names the
offset; no register but the access-error registers and the HOST event changes, nor do device memory, the tiles and the
queue. -/
def Obligations.WriteAfterLockKeepsLockedFields : Prop :=
  ∀ (o : Nat) (v : Word) (s : State) (r : RegRow), hostDown s = false → locked s = true → o % 4 = 0 → regRow o = some r →
    tileBarred s o = false → r.w1s = 0 → r.wo = 0 → r.rwl ≠ 0 → r.w1c = 0 → o ∉ [0x10024, 0x10028, hostEvent, aerrCount] →
    Completes (.regWrite o 4 (v.setWidth 64)) s (fun t =>
      rd t o &&& r.rwl = rd s o &&& r.rwl ∧ t.mem = s.mem ∧ t.tiles = s.tiles ∧ t.pending = s.pending ∧
      regsBut [0x10024, 0x10028, hostEvent, aerrCount] s t ∧
      ((v ^^^ rd s o) &&& r.rwl ≠ 0 → rd t 0x10024 = BitVec.ofNat 32 o ∧ rd t 0x10028 = 1))

/-- The first write of 1 to SETUP_LOCK.LOCK sets the lock and makes the pairs that pass the checks live. While the device
is out of reset, before the lock, a write of SETUP_LOCK with bit 0 set completes with LOCK set, and of every pair with
EN = 1 it is live from then on exactly when the pair checks pass; written with bit 0 clear, or once the lock is set,
it changes nothing. -/
def Obligations.SetupLockFreezesAndChecksPairs : Prop :=
  (∀ (v : Word) (s : State), hostDown s = false → locked s = false → v.getLsbD 0 = true →
    Completes (.setupLock v) s (fun t =>
      locked t = true ∧ (∀ p ∈ enabledPairs s, (pairOf t p).live = !lockDisables s p) ∧ t.mem = s.mem ∧ t.flights = s.flights)) ∧
  (∀ (v : Word) (s : State), v.getLsbD 0 = false ∨ locked s = true → exec (.setupLock v) s = .next s)

/-- A read returns the register and clears its RC fields, NOW_FRAC takes the latch, pages show indices; misaligned and
undefined reads give 0 and are logged. An aligned 32-bit read of a defined register other than NOW_FRAC, but for those
of a fenced tile behind STATUS, completes: it sends the four bytes of what the register shows, and afterwards the
register holds its value with the RC bits cleared, every other register its own, and the rest of the state is
unchanged. A 32-bit read of NOW_FRAC sends the fraction, a 64-bit one the fraction and the nanoseconds of one tick,
and NOW_NS, NOW_SEC_LO and NOW_SEC_HI hold that tick's counter. A 32-bit read of BAR0 by the PF at an offset that is
no multiple of 4, or at one that holds no register, completes: it sends four zero bytes, ACCESS_ERR is set, the
access-error registers name KIND 7 or 3 and the offset, the count rises by 1 unless it is at its top, and no other
register, nor memory, nor a tile changes. An aligned read of a doorbell page behind which a pair stands sends the
page's word and changes nothing else; a misaligned one sends zeros and is logged with KIND 7, and a read of an inert
page sends zeros alone. -/
def Obligations.RegisterReads : Prop :=
  (∀ (o : Nat) (s : State) (r : RegRow), hostDown s = false → o % 4 = 0 → o ≠ 0x20030 → regRow o = some r →
    tileBarred s o = false → Completes (.rcRead o 4) s (fun t =>
      t = { s with regs := t.regs, out := s.out ++ [.readData (leBytes 4 (viewReg s o).toNat)] } ∧
      rd t o = rd s o &&& ~~~ r.rc ∧ regsBut [o] s t)) ∧
  (∀ (wide : Bool) (s : State), hostDown s = false →
    Completes (.timeNowFracRead wide) s (fun t =>
      t.out = s.out ++ [.readData (leBytes 4 s.time.counter.frac.toNat ++
        (if wide then leBytes 4 s.time.counter.ns.toNat else []))] ∧
      rd t 0x20034 = s.time.counter.ns ∧ rd t 0x20038 = s.time.counter.sec.setWidth 32 ∧
      rd t 0x2003C = (s.time.counter.sec.extractLsb' 32 16).setWidth 32 ∧ regsBut [0x20034, 0x20038, 0x2003C] s t ∧
      t.mem = s.mem ∧ t.tiles = s.tiles ∧ t.time = s.time)) ∧
  (∀ (o : Nat) (s : State), hostDown s = false → (o % 4 ≠ 0 ∨ regRow o = none) →
    Completes (.undefinedOrMisalignedRead false 0 o 4) s (fun t =>
      (∃ pre, t.out = pre ++ [.readData [0, 0, 0, 0]]) ∧ rd t 0x10024 = BitVec.ofNat 32 o ∧
      rd t 0x10028 = (if o % 4 ≠ 0 then 7 else 3) ∧
      rdb t hostEvent 0 = true ∧ (rd t aerrCount).toNat = min (2 ^ 32 - 1) ((rd s aerrCount).toNat + 1) ∧
      t.mem = s.mem ∧ t.tiles = s.tiles ∧ regsBut [0x10024, 0x10028, hostEvent, aerrCount] s t)) ∧
  (∀ (f : FuncIx) (off : Nat) (p : PairIx) (s : State), reachable s f = true → pagePair s f (off / 4096) = some p → off % 4 = 0 →
    exec (.undefinedOrMisalignedRead true f off 4) s =
      .next (emit (.readData (leBytes 4 (pageWord s p (off % 4096)).toNat)) s)) ∧
  (∀ (f : FuncIx) (off size : Nat) (p : PairIx) (s : State), reachable s f = true → pagePair s f (off / 4096) = some p →
    ¬ (size = 4 ∧ off % 4 = 0) →
    exec (.undefinedOrMisalignedRead true f off size) s = .next (emit (.readData (zeros size)) (aerr 7 true f off s))) ∧
  (∀ (f : FuncIx) (off size : Nat) (s : State), reachable s f = true → pagePair s f (off / 4096) = none →
    exec (.undefinedOrMisalignedRead true f off size) s = .next (emit (.readData (zeros size)) s))

/-- Training, margining and heat of an HBM controller. Before the lock and without a margining run, an accepted write to a
controller's CFG stores the rate and takes TRAINED to 0; the end of training on a controller of the part sets TRAINED,
and a read that waited for it is made; before the lock START begins a margining run, and after it START is logged; the
end of a run clears RUN, sets DONE and the DONE event, holds the trained value and the results of the selected byte
lanes, and starts the retraining that waited; crossing 85 °C sets or clears HOT. Each leaves the contents of device
memory and the tiles as they were. -/
def Obligations.HbmCommandsComplete : Prop :=
  (∀ (c : Fin 4) (v : Word) (s : State) (r : RegRow), hostDown s = false → locked s = false → regRow (hbmReg c 4) = some r →
    r.w1s = 0 → r.wo = 0 → r.rwl ≠ 0 → r.w1c = 0 → rdb s (hbmReg c 8) 1 = false →
    checkWrite s (hbmReg c 4) v ((rd s (hbmReg c 4) &&& ~~~ r.rwl) ||| (v &&& r.rwl)) r = none →
    Completes (.hbmRateWrite c v) s (fun t =>
      rd t (hbmReg c 4) = (rd s (hbmReg c 4) &&& ~~~ r.rwl) ||| (v &&& r.rwl) ∧ rdb t (hbmReg c 8) 0 = false ∧
      t = { s with regs := t.regs } ∧ regsBut [hbmReg c 4, hbmReg c 8] s t)) ∧
  (∀ (c : Fin 4) (s : State), c.val < Config.nStacks → s.mem.heldReads = [] →
    Completes (.hbmTrainingDone c) s (fun t => rdb t (hbmReg c 8) 0 = true ∧ t = { s with regs := t.regs } ∧ regsBut [hbmReg c 8] s t)) ∧
  (∀ (c : Fin 4) (r : HeldRead) (s : State), c.val < Config.nStacks → s.mem.heldReads = [r] → r.ok = true → r.retries = 0 →
    r.corrected = false → (hbmPlace s r.addr).1 = c.val → marginHolds s c r.addr = false → r.addr < hbmSize →
    Completes (.hbmTrainingDone c) s (fun t =>
      t.mem.heldReads = [] ∧ rdb t (hbmReg c 8) 0 = true ∧
      t.out = s.out ++ [.memData (memRead s (r.addr / 32 * 32) 32) (memPoisoned t (r.addr / 32 * 32) 32)] ∧ memSame s t)) ∧
  (∀ (c : Fin 4) (v : Word) (s : State) (r : RegRow), hostDown s = false → regRow (hbmReg c 0x40) = some r →
    r.w1s = 0 → r.wo ≠ 0 → v.getLsbD 0 = true → locked s = false → rdb s (hbmReg c 8) 1 = false →
    Completes (.marginStart c v) s (fun t => rdb t (hbmReg c 8) 1 = true ∧ t = { s with regs := t.regs } ∧ regsBut [hbmReg c 8] s t)) ∧
  (∀ (c : Fin 4) (v : Word) (s : State) (r : RegRow), hostDown s = false → regRow (hbmReg c 0x40) = some r →
    r.w1s = 0 → r.wo ≠ 0 → v.getLsbD 0 = true → locked s = true →
    exec (.marginStart c v) s = .next (aerr 1 false 0 (hbmReg c 0x40) s)) ∧
  (∀ (c : Fin 4) (points : List MarginPoint) (trained : Byte) (s : State), rdb s (hbmReg c 8) 1 = true → s.mem.heldReads = [] →
    Completes (.marginDone c points trained) s (fun t =>
      rdb t (hbmReg c 8) 1 = false ∧ rdb t (hbmReg c 8) 2 = true ∧ rdb t (hbmReg c 0xC) 3 = true ∧
      rd t (hbmReg c 0x60) = trained.setWidth 32 ∧
      (∀ b ∈ List.range 4, rdb s (hbmReg c 0x44) (7 + b) = true →
        rd t (hbmReg c (0x50 + 4 * b)) = marginWord b (runPoints c points s) (Config.freeValue (s.free + b))) ∧
      (∀ b ∈ List.range 4, rdb s (hbmReg c 0x44) (7 + b) = false → rd t (hbmReg c (0x50 + 4 * b)) = rd s (hbmReg c (0x50 + 4 * b))) ∧
      rdb t (hbmReg c 8) 0 = (rdb s (hbmReg c 8) 0 && !s.mem.retrain.getLsbD c) ∧
      t.mem.bytes = s.mem.bytes ∧ t.tiles = s.tiles)) ∧
  (∀ (c : Fin 4) (hot : Bool) (s : State), c.val < Config.nStacks →
    Completes (.hbmStackHot c hot) s (fun t => rdb t (hbmReg c 8) 4 = hot ∧ t = { s with regs := t.regs } ∧ regsBut [hbmReg c 8] s t))

/-- An SQ doorbell is accepted exactly under the distance rule. After the lock, for a page of a reachable function with a
pair behind it, an SQ doorbell with value P completes. With C = SQ_CONS, d_old = (SQ_PROD − C) mod 2^16 and d_new = (P
− C) mod 2^16: for a live submission pair with d_old ≤ d_new ≤ N_sq − 1, SQ_PROD becomes P and nothing else changes;
for every other value, every event pair and every pair that is not live, the indices are unchanged, PAIR_STATUS.DB_ERR
and HOST.EVENT.DB_REJECT are set, the access error has KIND 5, and no other register, nor the pairs, memory or tiles
change. Before the lock the value is latched. -/
def Obligations.SqDoorbellAcceptance : Prop :=
  (∀ (f : FuncIx) (page : Nat) (val : Word) (p : PairIx) (s : State), reachable s f = true → locked s = true →
    pagePair s f page = some p → (pairOf s p).live = true → pairIsEvent s p = false →
    (sqProd s p - sqCons s p).toNat ≤ (val.setWidth 16 - sqCons s p).toNat →
    (val.setWidth 16 - sqCons s p).toNat ≤ sqDepth s p - 1 →
    Completes (.sqDoorbell f page val) s (fun t =>
      sqProd t p = val.setWidth 16 ∧ t = { s with regs := t.regs } ∧ regsBut [pairReg p 0x24] s t)) ∧
  (∀ (f : FuncIx) (page : Nat) (val : Word) (p : PairIx) (s : State), reachable s f = true → locked s = true →
    pagePair s f page = some p →
    ((pairOf s p).live = false ∨ pairIsEvent s p = true ∨
      (val.setWidth 16 - sqCons s p).toNat < (sqProd s p - sqCons s p).toNat ∨
      sqDepth s p - 1 < (val.setWidth 16 - sqCons s p).toNat) →
    Completes (.sqDoorbell f page val) s (fun t =>
      sqProd t p = sqProd s p ∧ sqCons t p = sqCons s p ∧ rdb t (pairReg p 0x30) 2 = true ∧ rdb t hostEvent 1 = true ∧
      rdf t 0x10028 3 0 = 5 ∧ regsBut [0x10024, 0x10028, hostEvent, aerrCount, pairReg p 0x30] s t ∧ t.pairs = s.pairs ∧
      t.mem = s.mem ∧ t.tiles = s.tiles)) ∧
  (∀ (f : FuncIx) (page : Nat) (val : Word) (p : PairIx) (s : State), reachable s f = true → locked s = false →
    pagePair s f page = some p →
    exec (.sqDoorbell f page val) s = .next (setPair p { pairOf s p with latched := some (val.setWidth 16) } s)) ∧
  (∀ (f : FuncIx) (page : Nat) (val : Word) (s : State), reachable s f = true → pagePair s f page = none →
    exec (.sqDoorbell f page val) s = .next (aerr 6 true f (pageOff page 0) s))

/-- Accepted CQ doorbells move CQ_CONS and re-arm; writes to inert pages are logged with KIND 6. After the lock, a CQ
doorbell without ARM whose value does not pass CQ_PROD sets CQ_CONS to it and changes nothing else. With ARM it also
arms the ring where no record lies beyond the value and none is pending, and where one does and INT_EN is set it sends
the message at once and leaves the ring disarmed. A value that passes CQ_PROD is rejected. A write at any offset of an
inert page of a reachable function changes nothing but the access-error registers and the HOST event, with KIND 6. -/
def Obligations.CqDoorbellAndInertPages : Prop :=
  (∀ (f : FuncIx) (page : Nat) (val : Word) (p : PairIx) (s : State), reachable s f = true → locked s = true →
    pagePair s f page = some p → cqAccepts s p (val.setWidth 16) = true → val.getLsbD 31 = false →
    Completes (.cqDoorbell f page val) s (fun t =>
      cqCons t p = val.setWidth 16 ∧ t = { s with regs := t.regs } ∧ regsBut [pairReg p 0x2C] s t)) ∧
  (∀ (f : FuncIx) (page : Nat) (val : Word) (p : PairIx) (s : State), reachable s f = true → locked s = true →
    pagePair s f page = some p → cqAccepts s p (val.setWidth 16) = true → val.getLsbD 31 = true → cqProd s p = val.setWidth 16 →
    (pairOf s p).unsignalled = 0 →
    Completes (.cqDoorbell f page val) s (fun t =>
      cqCons t p = val.setWidth 16 ∧ (pairOf t p).armed = true ∧ t.out = s.out ∧ regsBut [pairReg p 0x2C] s t)) ∧
  (∀ (f : FuncIx) (page : Nat) (val : Word) (p : PairIx) (s : State), reachable s f = true → locked s = true →
    pagePair s f page = some p → cqAccepts s p (val.setWidth 16) = true → val.getLsbD 31 = true → cqProd s p ≠ val.setWidth 16 →
    rdb s (pairReg p 0x14) 16 = true → (funcOf s (pairFunc s p)).bme = true →
    (funcOf s (pairFunc s p)).unmasked.contains (rdf s (pairReg p 0x14) 10 0) = true →
    Completes (.cqDoorbell f page val) s (fun t =>
      cqCons t p = val.setWidth 16 ∧ (pairOf t p).armed = false ∧
      t.out = s.out ++ [.msix (pairFunc s p) (rdf s (pairReg p 0x14) 10 0)] ∧ regsBut [pairReg p 0x2C] s t)) ∧
  (∀ (f : FuncIx) (page : Nat) (val : Word) (p : PairIx) (s : State), reachable s f = true → locked s = true →
    pagePair s f page = some p → cqAccepts s p (val.setWidth 16) = false →
    exec (.cqDoorbell f page val) s = .next (rejectDoorbell p f (pageOff page 8) s)) ∧
  (∀ (f : FuncIx) (page off size : Nat) (s : State), reachable s f = true → pagePair s f page = none →
    Completes (.inertDoorbellWrite f page off size) s (fun t =>
      rdf t 0x10028 3 0 = 6 ∧ rdb t hostEvent 0 = true ∧ regsBut [0x10024, 0x10028, hostEvent, aerrCount] s t ∧ t.pairs = s.pairs ∧
      t.mem = s.mem))

/-- MOD_TIME sends the pending message, and an unmasked vector delivers what waited. On an armed ring with INT_EN and
pending records, when MOD_TIME passes, the message to the ring's vector is sent where Bus Master Enable is set and the
vector is unmasked, and held in the vector's pending bit where it is masked; the ring disarms with nothing pending.
Unmasking a vector of a reachable function's table clears its pending bit and, where that was set, sends its message. -/
def Obligations.InterruptsAndMasks : Prop :=
  (∀ (p : PairIx) (s : State), rdf s (pairReg p 0x18) 31 16 ≠ 0 → (pairOf s p).armed = true → 0 < (pairOf s p).unsignalled →
    rdb s (pairReg p 0x14) 16 = true → s.clk ≤ (pairOf s p).firstPending + rdf s (pairReg p 0x18) 31 16 * ticks100ns →
    (funcOf s (pairFunc s p)).bme = true →
    Completes (.modTimeExpiry p) s (fun t =>
      t.clk = (pairOf s p).firstPending + rdf s (pairReg p 0x18) 31 16 * ticks100ns ∧
      ((funcOf s (pairFunc s p)).unmasked.contains (rdf s (pairReg p 0x14) 10 0) = true →
        t.out = s.out ++ [.msix (pairFunc s p) (rdf s (pairReg p 0x14) 10 0)]) ∧
      ((funcOf s (pairFunc s p)).unmasked.contains (rdf s (pairReg p 0x14) 10 0) = false →
        t.out = s.out ∧ (funcOf t (pairFunc s p)).pba.contains (rdf s (pairReg p 0x14) 10 0) = true) ∧
      (pairOf t p).armed = false ∧ (pairOf t p).unsignalled = 0 ∧ t.regs = s.regs ∧ t.mem = s.mem ∧ t.tiles = s.tiles)) ∧
  (∀ (f : FuncIx) (vec : Nat) (s : State), vec < msixSize s f → reachable s f = true → (funcOf s f).bme = true →
    Completes (.msixUnmask f vec) s (fun t =>
      t.out = s.out ++ (if (funcOf s f).pba.contains vec then [.msix f vec] else []) ∧ (funcOf t f).pba.contains vec = false ∧
      (funcOf t f).unmasked.contains vec = true ∧ t = { s with out := t.out, funcs := t.funcs }))

/-- Bus Master Enable, VF enable and the resets of a function. With no descriptor in flight: a Function Level Reset of a
reachable function holds it in reset, counts it, sets its event, and returns the indices of its pairs to 0;
FLR_COMPLETE ends it. Clearing Bus Master Enable records when and changes nothing else; setting it within 1 s issues
held writes and messages in order, and a record with the stamp of that moment; when 1 s has passed, or where it is set
later, held writes and waiting work are discarded. Enabling a VF makes it present; disabling it makes it absent
without counting a reset. None touches device memory or a tile. -/
def Obligations.FunctionStateChanges : Prop :=
  (∀ (f : FuncIx) (s : State), reachable s f = true → s.flights = [] →
    Completes (.functionLevelReset f) s (fun t =>
      (funcOf t f).inFlr = true ∧ rdb t hostEvent 2 = true ∧
      (rd t flrCount).toNat = min (2 ^ 32 - 1) ((rd s flrCount).toNat + 1) ∧
      (∀ p ∈ funcPairs s f, rd t (pairReg p 0x20) = 0 ∧ rd t (pairReg p 0x24) = 0 ∧ rd t (pairReg p 0x28) = 0 ∧
        rd t (pairReg p 0x2C) = 0) ∧ t.mem = s.mem ∧ t.tiles = s.tiles)) ∧
  (∀ (f : FuncIx) (s : State), (funcOf s f).inFlr = true →
    Completes (.flrComplete f) s (fun t =>
      (funcOf t f).inFlr = false ∧ t = { s with funcs := t.funcs, pairs := t.pairs } ∧
      (∀ p ∈ funcPairs s f, (pairOf t p).armed = (pairOf s p).live))) ∧
  (∀ (f : FuncIx) (s : State), (funcOf s f).bme = true →
    exec (.busMasterClear f) s = .next (setFunc f { funcOf s f with bme := false, bmeAt := s.clk } s)) ∧
  (∀ (f : FuncIx) (l : List Output) (s : State), holdOver s f = false → (funcOf s f).held.map (·.out) = l.map .out →
    (l.any fun o => match o with
      | .msix _ _ => true
      | _ => false) = false →
    (∀ p ∈ funcPairs s f, (pairOf s p).waiting = []) →
    Completes (.busMasterSet f) s (fun t =>
      t.out = s.out ++ l ∧ (funcOf t f).bme = true ∧ (funcOf t f).held = [] ∧ t.mem = s.mem ∧
      t.regs = s.regs ∧ t.tiles = s.tiles)) ∧
  (∀ (f g : FuncIx) (v p : Nat) (s : State), holdOver s f = false → (funcOf s f).held = [⟨p, .out (.msix g v)⟩] →
    (funcOf s g).unmasked.contains v = true → (∀ p ∈ funcPairs s f, (pairOf s p).waiting = []) →
    Completes (.busMasterSet f) s (fun t => t.out = s.out ++ [.msix g v] ∧ (funcOf t f).bme = true ∧ (funcOf t f).held = [])) ∧
  (∀ (f g : FuncIx) (addr : Dword) (ph lost : Bool) (r : Rec) (p : Nat) (s : State), holdOver s f = false →
    (funcOf s f).held = [⟨p, .record g addr ph lost r⟩] → (∀ p ∈ funcPairs s f, (pairOf s p).waiting = []) →
    Completes (.busMasterSet f) s (fun t =>
      t.out = s.out ++ [.hostWrite g (addr + 4) ((recBytes s ph lost r).drop 4), .hostWrite g addr ((recBytes s ph lost r).take 4)] ∧
      (funcOf t f).bme = true ∧ (funcOf t f).held = [])) ∧
  (∀ (f : FuncIx) (s : State), holdOver s f = true → s.flights = [] →
    Completes (.busMasterSet f) s (fun t =>
      t.out = s.out ∧ (funcOf t f).bme = true ∧ (funcOf t f).held = [] ∧ t.mem = s.mem ∧ t.regs = s.regs ∧ t.tiles = s.tiles ∧
      (∀ p ∈ funcPairs s f, (pairOf t p).waiting = [] ∧ (pairOf t p).reserved = 0))) ∧
  (∀ (f : FuncIx) (s : State), (funcOf s f).bme = false → s.flights = [] →
    Completes (.busMasterHoldExpiry f) s (fun t =>
      (funcOf t f).held = [] ∧ (funcOf s f).bmeAt + ticksS ≤ t.clk ∧ t.out = s.out ∧ t.mem = s.mem ∧ t.regs = s.regs ∧
      (∀ p ∈ funcPairs s f, (pairOf t p).waiting = [] ∧ (pairOf t p).reserved = 0))) ∧
  (∀ (f : FuncIx) (s : State), f ≠ 0 →
    Completes (.vfEnable f) s (fun t =>
      (funcOf t f).enabled = true ∧ t = { s with regs := t.regs, funcs := t.funcs } ∧ regsBut [0x10000] s t)) ∧
  (∀ (f : FuncIx) (s : State), f ≠ 0 → (funcOf s f).enabled = true → s.flights = [] →
    Completes (.vfDisable f) s (fun t =>
      (funcOf t f).enabled = false ∧ (funcOf t f).inFlr = false ∧ rd t flrCount = rd s flrCount ∧ t.mem = s.mem ∧
      t.tiles = s.tiles))

/-- HBM reads, ageing of a write-combining entry, and the exact alias. A read of a trained, unmargined burst that needs no
retry or correction sends the 32 bytes that memory holds with their poison marking; one that fails makes every retry
allowed, marks its 32 bytes poisoned where no write-combining entry stands for its line, counts an uncorrectable
error, sets its event and reports it for the work that reads; one at a controller that trains, or a pseudo-channel
that margins, waits. The ageing of the oldest write-combining entry of a channel removes the line's entry, and every
byte of memory reads as before; where the line cannot be read, the bytes that the entry does not cover are marked
poisoned. A write of an alias slot initialises its 96 bytes in the pool and no other byte, and a read sends its
rounded value and flags with the slot's poison; each leaves the tiles, and but for the controller's counters and
events the registers, as they were. -/
def Obligations.MemoryCommandsComplete : Prop :=
  (∀ (c : Fin 4) (addr : Nat) (work : FaultWork) (s : State), addr < hbmSize → (hbmPlace s addr).1 = c.val →
    rdb s (hbmReg c 8) 0 = true → marginHolds s c addr = false →
    Completes (.hbmRead c addr 0 true false work) s (fun t =>
      t.out = s.out ++ [.memData (memRead s (addr / 32 * 32) 32) (memPoisoned t (addr / 32 * 32) 32)] ∧ t.tiles = s.tiles ∧
      memSame s t)) ∧
  (∀ (c : Fin 4) (addr : Nat) (retries : Nat) (corrected : Bool) (work : FaultWork) (s : State), addr < hbmSize → (hbmPlace s addr).1 = c.val →
    rdb s (hbmReg c 8) 0 = true → marginHolds s c addr = false →
    Completes (.hbmRead c addr retries false corrected work) s (fun t =>
      (wcFind s (addr / 64) = none → memPoisoned t (addr / 32 * 32) 32 = true) ∧ wcFind t (addr / 64) = none ∧
      t.fault.reports = s.fault.reports ++ [⟨.hbm c, false, 2, BitVec.ofNat 64 (addr / 32 * 32), work⟩] ∧
      rdb t (hbmReg c 0xC) 1 = true ∧ (rd t (hbmReg c 0x24)).toNat = min (2 ^ 32 - 1) ((rd s (hbmReg c 0x24)).toNat + 1) ∧
      (rd t (hbmReg c 0x28)).toNat = min (2 ^ 32 - 1) ((rd s (hbmReg c 0x28)).toNat + rdf s (hbmReg c 0x1C) 3 0) ∧
      t.tiles = s.tiles ∧ memSame s t)) ∧
  (∀ (c : Fin 4) (addr : Nat) (retries : Nat) (ok corrected : Bool) (work : FaultWork) (s : State), addr < hbmSize → (hbmPlace s addr).1 = c.val →
    rdb s (hbmReg c 8) 0 = false ∨ marginHolds s c addr = true →
    exec (.hbmRead c addr retries ok corrected work) s =
      .next { s with mem := { s.mem with heldReads := s.mem.heldReads ++ [⟨c, addr, retries, ok, corrected, work⟩] } }) ∧
  (∀ (c : Fin 4) (channel : Fin 16) (e : WcEntry) (s : State), oldestEntry s c channel = some e →
    accessHeld s (64 * e.line) = false →
    Completes (.wcAgeExpiry c ⟨channel, true⟩) s (fun t =>
      wcFind t e.line = none ∧ t.regs = s.regs ∧ t.tiles = s.tiles ∧ memSame s t)) ∧
  (∀ (c : Fin 4) (channel : Fin 16) (e : WcEntry) (s : State), oldestEntry s c channel = some e →
    accessHeld s (64 * e.line) = false →
    Completes (.wcAgeExpiry c ⟨channel, false⟩) s (fun t =>
      wcFind t e.line = none ∧ rdb t (hbmReg c 0xC) 1 = true ∧
      (rd t (hbmReg c 0x24)).toNat = min (2 ^ 32 - 1) ((rd s (hbmReg c 0x24)).toNat + 1) ∧
      (∀ k ∈ List.range 64, e.mask.getLsbD k = false → memPoisoned t (64 * e.line + k) 1 = true) ∧ t.tiles = s.tiles ∧ memSame s t)) ∧
  (∀ (slot : Nat) (data : BitVec 128) (s : State), slot < slotCount s → s.mem.wc = [] →
    Completes (.exactAliasWrite slot data) s (fun t =>
      memRead t (slotAddr s slot) 96 = slotInit (leBytes 16 data.toNat) ∧ memPoisoned t (slotAddr s slot) 96 = false ∧
      t = { s with mem := t.mem } ∧
      memBut (slotAddr s slot) 96 s t)) ∧
  (∀ (slot : Nat) (s : State), slot < slotCount s →
    Completes (.exactAliasRead slot) s (fun t =>
      t = { s with out := s.out ++ [.memData (aliasRead s slot) (memPoisoned s (slotAddr s slot) 96)], free := t.free }))

/-- A fetch reads the descriptor at the consumer index, consumes it and reserves one completion slot. Where a pair's turn
to fetch has come, the PHASE is that of the lap, and FENCE finds no earlier descriptor of the ring without its final
record, the fetch completes: the 64 bytes at SQ_BASE + 64 times the index modulo the depth are read under the owner's
requester ID, SQ_CONS rises by 1, the descriptor is in flight under its old index, and one completion slot is
reserved; where the committed HORIZON is reached it moves on by at most 64 first. Behind a closed FENCE the descriptor
is not consumed. With a wrong PHASE the first read only notes that it was made; a re-read comes 2 us later, consumes
the descriptor where PHASE has come, and after the fourth that has not, refuses it as MALFORMED. A read answered with
an error consumes the entry, sets SQ_FAULT, and is logged as uncorrectable. While a pair that admits PHY alone has a
descriptor to fetch, no other pair is read. -/
def Obligations.FetchConsumesOneDescriptor : Prop :=
  (∀ (p : PairIx) (d : BitVec 512) (s : State), fetchNext s = some p.val → phaseOk s p d = true →
    (dFence d = true → fenceOpen s p = true) → (pairOf s p).horizon ≠ sqCons s p →
    Completes (.descriptorFetch p d) s (fun t =>
      sqCons t p = sqCons s p + 1 ∧ t.flights = s.flights ++ [⟨⟨p, sqCons s p⟩, d, false⟩] ∧
      (pairOf t p).reserved = (pairOf s p).reserved + 1 ∧ regsBut [pairReg p 0x20] s t ∧ t.mem = s.mem ∧ t.tiles = s.tiles ∧
      t.out = s.out ++ [.hostRead (pairFunc s p) (BitVec.ofNat 64 ((rd s (pairReg p 4)).toNat * 2 ^ 32 + (rd s (pairReg p 0)).toNat +
        64 * ((sqCons s p).toNat % sqDepth s p))) 64])) ∧
  (∀ (p : PairIx) (d : BitVec 512) (s : State), fetchNext s = some p.val → phaseOk s p d = true →
    (dFence d = true → fenceOpen s p = true) → (pairOf s p).horizon = sqCons s p →
    Completes (.descriptorFetch p d) s (fun t =>
      sqCons t p = sqCons s p + 1 ∧ t.flights = s.flights ++ [⟨⟨p, sqCons s p⟩, d, false⟩] ∧
      (pairOf t p).reserved = (pairOf s p).reserved + 1 ∧
      (pairOf t p).horizon = sqCons s p + BitVec.ofNat 16 (min 64 (sqProd s p - sqCons s p).toNat) ∧
      regsBut [pairReg p 0x20, 0x50044] s t ∧ t.mem = s.mem ∧ t.tiles = s.tiles)) ∧
  (∀ (p : PairIx) (d : BitVec 512) (s : State), fetchNext s = some p.val → phaseOk s p d = true → dFence d = true →
    fenceOpen s p = false →
    Completes (.descriptorFetch p d) s (fun t =>
      (pairOf t p).atFence = true ∧ t.flights = s.flights ∧ t.regs = s.regs ∧ t.mem = s.mem ∧ t.tiles = s.tiles)) ∧
  (∀ (p : PairIx) (d : BitVec 512) (s : State), fetchNext s = some p.val → phaseOk s p d = false →
    Completes (.descriptorFetch p d) s (fun t =>
      (pairOf t p).retries = 1 ∧ (pairOf t p).readAt = s.clk ∧ t.flights = s.flights ∧ t.regs = s.regs ∧ t.mem = s.mem ∧
      t.tiles = s.tiles)) ∧
  (∀ (p : PairIx) (d : BitVec 512) (s : State), mayFetch s p = true → 1 ≤ (pairOf s p).retries → phaseOk s p d = true →
    (dFence d = true → fenceOpen s p = true) → (pairOf s p).horizon ≠ sqCons s p →
    Completes (.descriptorPhaseRetry p d) s (fun t =>
      sqCons t p = sqCons s p + 1 ∧ t.flights = s.flights ++ [⟨⟨p, sqCons s p⟩, d, false⟩] ∧
      (pairOf t p).reserved = (pairOf s p).reserved + 1 ∧ (pairOf t p).retries = 0 ∧
      t.clk = max s.clk ((pairOf s p).readAt + 2 * ticksUs) ∧ regsBut [pairReg p 0x20] s t ∧ t.mem = s.mem ∧ t.tiles = s.tiles)) ∧
  (∀ (p : PairIx) (d : BitVec 512) (s : State), mayFetch s p = true → 1 ≤ (pairOf s p).retries → (pairOf s p).retries < 4 →
    phaseOk s p d = false →
    Completes (.descriptorPhaseRetry p d) s (fun t =>
      (pairOf t p).retries = (pairOf s p).retries + 1 ∧ (pairOf t p).readAt = t.clk ∧ t.flights = s.flights ∧ t.regs = s.regs ∧
      t.clk = max s.clk ((pairOf s p).readAt + 2 * ticksUs) ∧ t.mem = s.mem ∧ t.tiles = s.tiles)) ∧
  (∀ (p : PairIx) (d : BitVec 512) (s : State), mayFetch s p = true → 4 ≤ (pairOf s p).retries → phaseOk s p d = false →
    exec (.descriptorPhaseRetry p d) s =
      .next (refuse ⟨p, sqCons s p⟩ 0x10 (consume p d (readDesc p (runToClk ((pairOf s p).readAt + 2 * ticksUs) s))))) ∧
  (∀ (p : PairIx) (s : State), fetchNext s = some p.val ∨ (mayFetch s p = true ∧ 1 ≤ (pairOf s p).retries) →
    Completes (.descriptorReadError p) s (fun t =>
      sqCons t p = sqCons s p + 1 ∧ rdb t (pairReg p 0x30) 4 = true ∧ rdb t (pairReg p 0x30) 2 = rdb s (pairReg p 0x30) 2 ∧
      rdb t faultEvent 1 = true ∧ t.mem = s.mem ∧ t.tiles = s.tiles)) ∧
  (∀ (p q : PairIx) (d : BitVec 512) (s : State), wantsFetch s p = true → phyOnly s p = true → phyOnly s q = false →
    exec (.descriptorFetch q d) s = .next s)

/-- NOP completes with one final record in two posted writes, byte 0 last; its success value is the first of R98's list
that applies. A NOP that is ready, of a pair that was given its slot and whose function has Bus Master Enable set, and
of which nothing waits, completes: it is in flight no more, its reservation is used, CQ_PROD rises by 1, memory and
tiles are unchanged, and what leaves first is the record of 32 bytes with disposition SERVED at the slot of CQ_PROD,
bytes 4 to 31 before bytes 0 to 3. Any message that the ring's interrupt calls for comes after. The success value of a
record is TIME_COARSE for time-dependent work after the holdover limit; else OK_RETAKE for retaken work; else
OK_UNTESTED_PAIR under an accepted untested pair; else OK. -/
def Obligations.FinalRecordWritten : Prop :=
  (∀ (r : DRef) (d : BitVec 512) (s : State), Ready s r d 0 {} → (funcOf s (pairFunc s r.pair)).bme = true →
    (pairOf s r.pair).waiting = [] →
    Completes (.nop r) s (fun t =>
      flightOf t r = none ∧ (pairOf t r.pair).reserved = (pairOf s r.pair).reserved - 1 ∧ cqProd t r.pair = cqProd s r.pair + 1 ∧
      t.mem = s.mem ∧ t.tiles = s.tiles ∧
      (t.out.drop s.out.length).take 2 =
        [.hostWrite (pairFunc s r.pair)
            (BitVec.ofNat 64 ((rd s (pairReg r.pair 0xC)).toNat * 2 ^ 32 + (rd s (pairReg r.pair 8)).toNat +
              32 * ((cqProd s r.pair).toNat % cqDepth s r.pair)) + 4)
            ((recBytes s (phaseOf (cqProd s r.pair) (pairOf s r.pair).cqWrap (cqLog2 s r.pair)) (pairOf s r.pair).lost
              (descRec r d (okStatus false false s) 0)).drop 4),
         .hostWrite (pairFunc s r.pair)
            (BitVec.ofNat 64 ((rd s (pairReg r.pair 0xC)).toNat * 2 ^ 32 + (rd s (pairReg r.pair 8)).toNat +
              32 * ((cqProd s r.pair).toNat % cqDepth s r.pair)))
            ((recBytes s (phaseOf (cqProd s r.pair) (pairOf s r.pair).cqWrap (cqLog2 s r.pair)) (pairOf s r.pair).lost
              (descRec r d (okStatus false false s) 0)).take 4)])) ∧
  (∀ (retaken : Bool) (s : State), holdoverExpired s = true → okStatus true retaken s = 0x31) ∧
  (∀ (timeDep : Bool) (s : State), timeDep = false ∨ holdoverExpired s = false →
    okStatus timeDep true s = 0x01 ∧ (untested s = true → okStatus timeDep false s = 0x02) ∧
      (untested s = false → okStatus timeDep false s = 0x00))

/-- The first check of a descriptor that fails sets the status, in the order of the table, and no work is done. Checks 2
to 12 of a descriptor: an unlisted or unadmitted class gives BAD_CLASS whatever else is wrong; then an unlisted opcode
BAD_OPCODE; then an opcode of another class BAD_CLASS; then reserved bits or DET = 3 MALFORMED; then addresses
BAD_ADDRESS, lengths LENGTH, HOLD MODE_CONFLICT, an untested pair UNTESTED_PAIR, LOCKED under an untested pair
LOCK_REFUSED, the mode rules MODE_CONFLICT, and TIME_LOCKED = 0 TIME_INVALID. A descriptor that fails with a status is
refused with it and nothing else is done; one of an unlisted class, an unlisted opcode or an opcode of another class
is refused by BAD_DESCRIPTOR. -/
def Obligations.DescriptorChecksInOrder : Prop :=
  (∀ (s : State) (p : Nat) (d : BitVec 512) (o : OpRules), 5 < dClass d ∨ (classMask s p).testBit (dClass d) = false →
    preCheck s p d o = some 0x13) ∧
  (∀ (s : State) (p : Nat) (d : BitVec 512) (o : OpRules), dClass d ≤ 5 → (classMask s p).testBit (dClass d) = true →
    opClasses (dOpcode d) = none → preCheck s p d o = some 0x12) ∧
  (∀ (s : State) (p m : Nat) (d : BitVec 512) (o : OpRules), dClass d ≤ 5 → (classMask s p).testBit (dClass d) = true →
    opClasses (dOpcode d) = some m →
    preCheck s p d o =
      if m.testBit (dClass d) = false then some 0x13
      else if dBits d 11 5 ≠ 0 ∨ dBits d 24 8 ≠ 0 ∨ dDet d = 3 then some 0x10
      else if badBuffer s o.in0 (dA0Dev d) (dAddr0 d).toNat (dLen0 d) = true ∨
          badBuffer s o.out1 (dA1Dev d) (dAddr1 d).toNat (dLen1 d) = true then some 0x11
      else if (o.in0 = false ∧ dLen0 d ≠ 0) ∨ (o.out1 = false ∧ dLen1 d ≠ 0) ∨ o.badLength = true then some 0x14
      else if inHold s = true ∧ dClass d ≠ 5 then some 0x42
      else if o.untestedPair = true then some 0x40
      else if untested s = true ∧ dOpcode d ≠ 0 ∧ 1 ≤ dClass d ∧ dClass d ≤ 4 ∧ (dDet d = 2 ∨ detLock s = true) then some 0x41
      else if (dDet d = 2 ∧ detLock s = false) ∨ o.badMode = true then some 0x42
      else if o.timeDep = true ∧ timeLocked s = false then some 0x30
      else none) ∧
  (∀ (r : DRef) (op st : Nat) (o : State → BitVec 512 → OpRules) (go : BitVec 512 → State → State) (s : State) (d : BitVec 512),
    flightOf s r = some ⟨r, d, false⟩ → dOpcode d = op → maintTurn s ⟨r, d, false⟩ = true →
    preCheck s r.pair d (o s d) = some st → runDesc r op o go s = refuse r st s) ∧
  (∀ (r : DRef) (d : BitVec 512) (st : Nat) (s : State), flightOf s r = some ⟨r, d, false⟩ → classCheck s r.pair d = some st →
    exec (.badDescriptor r) s = .next (refuse r st s))

/-- TIME_REARM, ACCEPT_PAIR and UNLOAD have their effects and complete SERVED. A ready TIME_REARM with its words in order
arms the single step, by PTP where the source is one or by 1PPS where the input is enabled, and completes SERVED. A
ready ACCEPT_PAIR of scope 0 in HOLD that names the running versions takes the device to RUN with UNTESTED set; one of
scope 1 with a version pair that is not tested, while fewer than eight are held, adds it to the accepted pairs. A
ready UNLOAD that names a loaded image releases it. -/
def Obligations.MaintDescriptorsComplete : Prop :=
  (∀ (r : DRef) (d : BitVec 512) (s : State), Ready s r d 0x54 {} → dOpw d 0 = 0 → dBits d 352 160 = 0 → timeSrc s ≠ 0 →
    timeSrc s ≠ 3 → stepArmed s = false →
    Completes (.timeRearm r) s (fun t =>
      stepArmed t = true ∧ t.time.arming = .ptp ∧ flightOf t r = none ∧ t.mem = s.mem ∧ t.tiles = s.tiles)) ∧
  (∀ (r : DRef) (d : BitVec 512) (s : State), Ready s r d 0x54 {} → dOpw d 0 = 1 → dBits d 352 160 = 0 → field (dOpw d 2) 31 16 = 0 →
    rdb s 0x200E0 1 = true → stepArmed s = false →
    Completes (.timeRearm r) s (fun t =>
      stepArmed t = true ∧ t.time.arming = .pps ∧
      t.time.ppsSec = some (BitVec.ofNat 48 ((dOpw d 1).toNat + 2 ^ 32 * (dOpw d 2).toNat)) ∧ flightOf t r = none ∧
      t.mem = s.mem ∧ t.tiles = s.tiles)) ∧
  (∀ (r : DRef) (d : BitVec 512) (s : State), Ready s r d 0x55 {} → dOpw d 0 = 0 → dBits d 384 128 = 0 →
    dOpw d 1 = rd s 0xE0010 → dOpw d 2 = rd s 0xE0014 → dOpw d 3 = Config.chipId → inHold s = true →
    rdf s bootStatus 11 8 ≠ 0 → rdb s bootStatus 12 = false →
    Completes (.acceptPair r) s (fun t =>
      rdf t bootStatus 1 0 = 2 ∧ untested t = true ∧ rdb t mgmtEvent 0 = true ∧ flightOf t r = none ∧ t.mem = s.mem ∧
      t.tiles = s.tiles)) ∧
  (∀ (r : DRef) (d : BitVec 512) (s : State), Ready s r d 0x55 {} → dOpw d 0 = 1 → dBits d 384 128 = 0 → dOpw d 3 = 0 →
    toolOk s (dOpw d 1) = false → (dOpw d 2 = 0 ∨ abiRuns s (dOpw d 2) = true) → s.mgmt.accepted.length < 8 →
    Completes (.acceptPair r) s (fun t =>
      t.mgmt.accepted = s.mgmt.accepted ++ [(dOpw d 1, dOpw d 2)] ∧ untested t = true ∧ flightOf t r = none ∧
      rd t (0xE0040 + 8 * s.mgmt.accepted.length) = dOpw d 1 ∧ rd t (0xE0044 + 8 * s.mgmt.accepted.length) = dOpw d 2 ∧
      t.mem = s.mem ∧ t.tiles = s.tiles)) ∧
  (∀ (r : DRef) (d : BitVec 512) (s : State), Ready s r d 0x53 {} → field (dOpw d 0) 31 16 = 0 → (dOpw d 1).toNat ≤ 1 →
    dBits d 320 192 = 0 → s.loaded.any (unloadIs ((dOpw d 1).getLsbD 0) (field (dOpw d 0) 15 0)) = true →
    Completes (.unload r) s (fun t =>
      flightOf t r = none ∧ (∀ l ∈ t.loaded, unloadIs ((dOpw d 1).getLsbD 0) (field (dOpw d 0) 15 0) l = false) ∧ t.mem = s.mem))

/-- A ready PHY request arms its chain for its slot, and a transport block is bound to it. A ready PHY_UL_TTI, PHY_DL_TTI
or PHY_UL_DCI that names the active sheet, has steps for its kind and grid, a body in order, and a first cue that may
be armed, completes: a chain for it stands armed, not fired and not ended, with the slot start to which the cue is
bound, and the descriptor has started. A ready PHY_TX_DATA for an armed downlink request with that PDSCH PDU and no
block yet binds its bytes to it and completes; without such a request, before its slot, it waits; a second one for the
same PDU is MALFORMED. None touches memory or a tile. -/
def Obligations.PhyRequestsArmChains : Prop :=
  (∀ (r : DRef) (d : BitVec 512) (b : FapiBody) (l : Loaded) (x : StepEnt) (s : State),
    Ready s r d 0x10 { in0 := true, out1 := true, timeDep := true, badLength := bodyLenBad d || decide (dLen1 d < if isPrach d then 16384 else 196608) } →
    slotCheck s d (ulReserved d) = none → namedSheet s d = some l → chainSteps l.img (4 * bnat (isPrach d) + slGrid d) ≠ [] →
    (dA0Dev d && devPoisoned s (dAddr0 d).toNat (dLen0 d)) = false → bodyBad s d (4 * bnat (isPrach d) + slGrid d) b = false → firstStep s (chainSteps l.img (4 * bnat (isPrach d) + slGrid d)) = some x →
    0 ≤ chainT0 s (slGrid d) (slSfn d) (slSlot d) x →
    mayArm s l (slGrid d) (firedKey (slGrid d) (slSfn d) (slSlot d) (4 * bnat (isPrach d) + slGrid d))
      (chainT0 s (slGrid d) (slSfn d) (slSlot d) x).toNat (chainT0 s (slGrid d) (slSfn d) (slSlot d) x + stepCue s x)
      ((chainSteps l.img (4 * bnat (isPrach d) + slGrid d)).map fun y => (chainT0 s (slGrid d) (slSfn d) (slSlot d) x + stepCue s y.1).toNat) = true →
    Completes (.phyUlTti r (.body b)) s (fun t =>
      (∃ c ∈ t.chains, c.ref = r ∧ c.t0 = (chainT0 s (slGrid d) (slSfn d) (slSlot d) x).toNat ∧
        c.chain = 4 * bnat (isPrach d) + slGrid d ∧ c.fired = false ∧ c.ended = false ∧ c.pdus = b.pdus) ∧
      flightOf t r = some ⟨r, d, true⟩ ∧ t.regs = s.regs ∧ t.out = s.out ∧ t.mem = s.mem ∧ t.tiles = s.tiles)) ∧
  (∀ (r : DRef) (d : BitVec 512) (b : FapiBody) (l : Loaded) (x : StepEnt) (s : State),
    Ready s r d 0x11 { in0 := true, timeDep := true, badLength := bodyLenBad d } →
    slotCheck s d (dlReserved d) = none → namedSheet s d = some l → chainSteps l.img (8 + slGrid d) ≠ [] →
    (dA0Dev d && devPoisoned s (dAddr0 d).toNat (dLen0 d)) = false → bodyBad s d (8 + slGrid d) b = false → firstStep s (chainSteps l.img (8 + slGrid d)) = some x →
    0 ≤ chainT0 s (slGrid d) (slSfn d) (slSlot d) x →
    mayArm s l (slGrid d) (firedKey (slGrid d) (slSfn d) (slSlot d) (8 + slGrid d))
      (chainT0 s (slGrid d) (slSfn d) (slSlot d) x).toNat (chainT0 s (slGrid d) (slSfn d) (slSlot d) x + stepCue s x)
      ((chainSteps l.img (8 + slGrid d)).map fun y => (chainT0 s (slGrid d) (slSfn d) (slSlot d) x + stepCue s y.1).toNat) = true →
    s.radio.tx = [] →
    Completes (.phyDlTti r (.body b)) s (fun t =>
      (∃ c ∈ t.chains, c.ref = r ∧ c.t0 = (chainT0 s (slGrid d) (slSfn d) (slSlot d) x).toNat ∧
        c.chain = 8 + slGrid d ∧ c.fired = false ∧ c.ended = false ∧ c.pdus = b.pdus ∧ c.bound = [] ∧ c.got = {}) ∧
      flightOf t r = some ⟨r, d, true⟩ ∧ t.regs = s.regs ∧ t.out = s.out ∧ t.mem = s.mem ∧ t.tiles = s.tiles)) ∧
  (∀ (r : DRef) (d : BitVec 512) (b : FapiBody) (l : Loaded) (x : StepEnt) (s : State),
    Ready s r d 0x12 { in0 := true, timeDep := true, badLength := bodyLenBad d } →
    slotCheck s d (dlReserved d) = none → namedSheet s d = some l → chainSteps l.img (12 + slGrid d) ≠ [] →
    (dA0Dev d && devPoisoned s (dAddr0 d).toNat (dLen0 d)) = false → bodyBad s d (12 + slGrid d) b = false → firstStep s (chainSteps l.img (12 + slGrid d)) = some x →
    0 ≤ chainT0 s (slGrid d) (slSfn d) (slSlot d) x →
    mayArm s l (slGrid d) (firedKey (slGrid d) (slSfn d) (slSlot d) (12 + slGrid d))
      (chainT0 s (slGrid d) (slSfn d) (slSlot d) x).toNat (chainT0 s (slGrid d) (slSfn d) (slSlot d) x + stepCue s x)
      ((chainSteps l.img (12 + slGrid d)).map fun y => (chainT0 s (slGrid d) (slSfn d) (slSlot d) x + stepCue s y.1).toNat) = true →
    Completes (.phyUlDci r (.body b)) s (fun t =>
      (∃ c ∈ t.chains, c.ref = r ∧ c.t0 = (chainT0 s (slGrid d) (slSfn d) (slSlot d) x).toNat ∧
        c.chain = 12 + slGrid d ∧ c.fired = false ∧ c.ended = false ∧ c.pdus = b.pdus) ∧
      flightOf t r = some ⟨r, d, true⟩ ∧ t.regs = s.regs ∧ t.out = s.out ∧ t.mem = s.mem ∧ t.tiles = s.tiles)) ∧
  (∀ (r : DRef) (d : BitVec 512) (bs : List Byte) (s : State),
    Ready s r d 0x13 { in0 := true, timeDep := true, badLength := bodyLenBad d } →
    slotCheck s d (txReserved d) = none → (namedSheet s d).isSome = true → dA0Dev d = false → bs.length = dLen0 d → s.chains = [] →
    isBound s (slotWord (slGrid d) (slSfn d) (slSlot d)) (field (dOpw d 2) 15 0) = false →
    (nowUnits s : Int) ≤ slotBound s d →
    Completes (.phyTxData r (.data bs)) s (fun t =>
      t.radio.tx = s.radio.tx ++ [⟨r, Fin.ofNat 4 (slGrid d), BitVec.ofNat 10 (slSfn d), BitVec.ofNat 5 (slSlot d), field (dOpw d 2) 15 0, bs⟩] ∧
      flightOf t r = some ⟨r, d, true⟩ ∧ t.regs = s.regs ∧ t.out = s.out ∧ t.mem = s.mem ∧ t.tiles = s.tiles)) ∧
  (∀ (r : DRef) (d : BitVec 512) (bs : List Byte) (c : Chain) (s : State),
    Ready s r d 0x13 { in0 := true, timeDep := true, badLength := bodyLenBad d } →
    slotCheck s d (txReserved d) = none → (namedSheet s d).isSome = true → dA0Dev d = false → bs.length = dLen0 d → s.chains = [c] →
    c.grid = Fin.ofNat 4 (slGrid d) → c.sfn = BitVec.ofNat 10 (slSfn d) → c.slot = BitVec.ofNat 5 (slSlot d) → c.chain / 4 = 2 →
    c.ended = false → isPdsch c.pdus (field (dOpw d 2) 15 0) = true →
    isBound s (slotWord (slGrid d) (slSfn d) (slSlot d)) (field (dOpw d 2) 15 0) = false →
    Completes (.phyTxData r (.data bs)) s (fun t =>
      t.chains = [{ c with bound := c.bound ++ [(field (dOpw d 2) 15 0, bs)] }] ∧ flightOf t r = none ∧
      isBound t (slotWord (slGrid d) (slSfn d) (slSlot d)) (field (dOpw d 2) 15 0) = true ∧ t.mem = s.mem ∧ t.tiles = s.tiles)) ∧
  (∀ (r : DRef) (d : BitVec 512) (bs : List Byte) (s : State),
    Ready s r d 0x13 { in0 := true, timeDep := true, badLength := bodyLenBad d } →
    slotCheck s d (txReserved d) = none → (namedSheet s d).isSome = true → dA0Dev d = false → bs.length = dLen0 d →
    isBound s (slotWord (slGrid d) (slSfn d) (slSlot d)) (field (dOpw d 2) 15 0) = true →
    exec (.phyTxData r (.data bs)) s = .next (refuse r 0x10 s))

/-- While the step is armed for PTP, a complete measurement at the slave port moves the counter by the negated offset.
With a PTP slave port that is enabled, the step armed for PTP and no grid running, a Follow_Up, a Delay_Resp or a one-
step Sync that completes a measurement of offset o (in 2^-32 ns) answers a state whose counter has moved by exactly
−o, fraction included, the follower counters with it (their distance from it is unchanged); STEP_ARMED is clear,
STEP_COUNT has risen by 1, LAST_STEP_DELTA holds the movement in whole ns rounded to nearest with ties to even, and
memory and tiles are unchanged. A two-step Sync only counts as heard. At a slave port that is not enabled nothing is
received and nothing leaves. -/
def Obligations.ArmedStepMovesCounter : Prop :=
  (∀ (o : Offset) (s : State), slaveEn s = true → stepArmed s = true → s.time.arming = .ptp → s.time.running = 0 →
    Completes (.followUpReceive (some o)) s (fun t =>
      counterUnits t.time.counter = (((counterUnits s.time.counter : Int) - o * 1024) % (wrapUnits : Int)).toNat ∧
      t.time.lag1 = s.time.lag1 ∧ t.time.lagMain = s.time.lagMain ∧ stepArmed t = false ∧
      (rd t 0x20044).toNat = min (2 ^ 32 - 1) ((rd s 0x20044).toNat + 1) ∧
      rd t 0x20058 = (BitVec.ofInt 64 (roundDiv (-(o * 1024)) unitsNs)).setWidth 32 ∧
      rd t 0x2005C = (BitVec.ofInt 64 (roundDiv (-(o * 1024)) unitsNs)).extractLsb' 32 32 ∧ t.mem = s.mem ∧ t.tiles = s.tiles)) ∧
  (∀ (o : Offset) (s : State), slaveEn s = true → stepArmed s = true → s.time.arming = .ptp → s.time.running = 0 →
    Completes (.delayRespReceive (some o)) s (fun t =>
      counterUnits t.time.counter = (((counterUnits s.time.counter : Int) - o * 1024) % (wrapUnits : Int)).toNat ∧
      t.time.lag1 = s.time.lag1 ∧ t.time.lagMain = s.time.lagMain ∧ stepArmed t = false ∧
      (rd t 0x20044).toNat = min (2 ^ 32 - 1) ((rd s 0x20044).toNat + 1) ∧ t.mem = s.mem ∧ t.tiles = s.tiles)) ∧
  (∀ (o : Offset) (s : State), slaveEn s = true → stepArmed s = true → s.time.arming = .ptp → s.time.running = 0 →
    Completes (.syncMessageReceive false (some o)) s (fun t =>
      counterUnits t.time.counter = (((counterUnits s.time.counter : Int) - o * 1024) % (wrapUnits : Int)).toNat ∧
      t.time.lag1 = s.time.lag1 ∧ t.time.lagMain = s.time.lagMain ∧ stepArmed t = false ∧
      t.time.lastSync = s.clk ∧
      (rd t 0x20044).toNat = min (2 ^ 32 - 1) ((rd s 0x20044).toNat + 1) ∧ t.mem = s.mem ∧ t.tiles = s.tiles)) ∧
  (∀ (o : Option Offset) (s : State), slaveEn s = true → exec (.syncMessageReceive true o) s = .next (syncSeen (slaveFrame s))) ∧
  (∀ (c : Instr) (two : Bool) (o : Option Offset) (a : Announce) (s : State), slaveEn s = false →
    c = .syncMessageReceive two o ∨ c = .followUpReceive o ∨ c = .delayRespReceive o ∨ c = .announceReceive a ∨ c = .delayReqSend →
    exec c s = .next s)

/-- With the step not armed an offset never moves the counter; beyond JUMP_LIMIT it is refused. With a PTP slave port that
is enabled and the step not armed, no measurement moves the counter. While TIME_LOCKED is set, an offset larger than
JUMP_LIMIT is refused: TIME_JUMP_REFUSED reads 1, REFUSED_COUNT rises by 1, TIME.EVENT.TIME_JUMP_REFUSED is set, and
LOCKED becomes HOLDOVER. One equal to JUMP_LIMIT or less clears TIME_JUMP_REFUSED and leaves REFUSED_COUNT alone, in
LOCKED the state stays LOCKED, and the increment it leaves, which the spec does not fix, lies within the bounds. -/
def Obligations.ServoSlewsOrRefuses : Prop :=
  (∀ (o : Option Offset) (s : State), slaveEn s = true → stepArmed s = false →
    Completes (.followUpReceive o) s (fun t => t.time.counter = s.time.counter ∧ t.clk = s.clk ∧ t.mem = s.mem ∧ t.tiles = s.tiles)) ∧
  (∀ (o : Offset) (s : State), slaveEn s = true → stepArmed s = false → timeLocked s = true →
    beyond o (rd s 0x20014).toNat = true →
    Completes (.followUpReceive (some o)) s (fun t =>
      rdb t timeStatus 4 = true ∧ (rd t 0x20048).toNat = min (2 ^ 32 - 1) ((rd s 0x20048).toNat + 1) ∧ rdb t timeEvent 1 = true ∧
      (timeState s = 3 → timeState t = 4) ∧ t.time.counter = s.time.counter)) ∧
  (∀ (o : Offset) (s : State), slaveEn s = true → stepArmed s = false → timeLocked s = true →
    beyond o (rd s 0x20014).toNat = false → timeState s = 3 →
    Completes (.followUpReceive (some o)) s (fun t =>
      rdb t timeStatus 4 = false ∧ rd t 0x20048 = rd s 0x20048 ∧ timeState t = 3 ∧ incLow ≤ incUnits t ∧ incUnits t ≤ incHigh ∧
      t.time.counter = s.time.counter))

/-- Master ports send Sync, Announce and Delay_Resp stamped at the calibration point; the slave port sends Delay_Req and
takes the best master's Announce. A T-BC master port sends a Sync, an Announce or the answer to a Delay_Req in
ACQUIRING and later; in INVALID and COARSE nothing leaves. Each carries the counter of the die that carries the port
at the port's calibration point, its fraction rounded to 2^-16 ns, the clock class and UTC offset of the moment, the
port's domain and DA. A Delay_Req that reaches an enabled port counts as a frame; it is discarded and counted at the
slave port and at a port that is no master. An enabled slave port of a fronthaul source sends a Delay_Req of its
domain; at a line port, whose domain and destination the spec does not give, both are free. An Announce of the best
master gives the parent's clock class and UTC offset. -/
def Obligations.PtpMessages : Prop :=
  (∀ (p : Fin 8) (s : State), fhMaster s p = true → 2 ≤ timeState s →
    exec (.ptpSyncSend p) s = .next (sendPtp (8 + p) 0 (ptpPeer s p) (ptpDomain s p) s) ∧
    exec (.ptpAnnounceSend p) s = .next (sendPtp (8 + p) 11 (ptpPeer s p) (ptpDomain s p) s)) ∧
  (∀ (p : Fin 8) (s : State), fhMaster s p = false ∨ timeState s < 2 →
    exec (.ptpSyncSend p) s = .next s ∧ exec (.ptpAnnounceSend p) s = .next s) ∧
  (∀ (p : Fin 8) (s : State), fhMaster s p = true → 2 ≤ timeState s →
    exec (.delayReqReceive p) s = .next (sendPtp (8 + p) 9 (ptpPeer s p) (ptpDomain s p) (bump (fhReg p 0x20) 1 s))) ∧
  (∀ (p : Fin 8) (s : State), fhPortEn s p = true → (timeSrc s = 2 ∧ timePort s = p.val) ∨ fhMaster s p = false →
    exec (.delayReqReceive p) s = .next (bump (0x20120 + 4 * (8 + p.val)) 1 (bump (fhReg p 0x20) 1 s))) ∧
  (∀ (p : Fin 8) (s : State), fhPortEn s p = false → exec (.delayReqReceive p) s = .next s) ∧
  (∀ (k msg : Nat) (peer : Bool) (dom : Byte) (s : State),
    sendPtp k msg peer dom s = { s with out := s.out ++ [.ptp k peer (ptpSource s k) msg (counterAt (calibrated s k msg / 1000)).sec
      (counterAt (calibrated s k msg / 1000)).ns (nearest (calibrated s k msg % (1000 * unitsNs) * 2 ^ 16) (1000 * unitsNs))
      (clockClass s) (utcOffset s) dom] } ∧
    (calibrated s k msg : Int) = (1000 * (stampUnits s k : Int) +
      (if msg = 9 then -(rxDelay s k : Int) else txDelay s k) * unitsNs) % (1000 * wrapUnits : Nat)) ∧
  (∀ (s : State), slaveEn s = true → timeSrc s = 2 →
    exec .delayReqSend s = .next (sendPtp (slavePort s) 1 (ptpPeer s (timePort s)) (ptpDomain s (timePort s)) s)) ∧
  (∀ (s : State), slaveEn s = true → timeSrc s = 1 →
    Completes .delayReqSend s (fun t => ∃ dom peer, t = useFree (sendPtp (slavePort s) 1 peer dom s))) ∧
  (∀ (a : Announce) (s : State), slaveEn s = true →
    Completes (.announceReceive a) s (fun t =>
      t.time.lastAnnounce = s.clk ∧ (a.best = true → t.time.parentClass = a.clockClass ∧ t.time.parentUtc = some a.utcOffset) ∧
      (a.best = false → t.time.parentClass = s.time.parentClass ∧ t.time.parentUtc = s.time.parentUtc) ∧
      t = { (slaveFrame s) with time := t.time }))

/-- Loss of source, the holdover limit, the end of a scene change and the fabric root's lock. When the source is lost,
SOURCE_LOST is set, and LOCKED becomes HOLDOVER; where time has never been locked the state stays. After
HOLDOVER_LIMIT seconds in HOLDOVER, HOLDOVER_EXPIRED and its event are set and the state stays HOLDOVER. At the end of
a scene change SCENE_ACTIVE clears, SCENE_END is set, and no cue is suppressed any more. A fabric root without a
source that is in ACQUIRING enters LOCKED 16 exchange intervals after its zero step. None touches memory or a tile. -/
def Obligations.HoldoverAndSceneEnds : Prop :=
  (∀ (u : Nat) (s : State), lossDue s = some u → timeFollow s = false →
    Completes .sourceLost s (fun t =>
      t.time.srcLost = true ∧ rdb t timeEvent 8 = true ∧ t.clk = max s.clk u ∧ (timeState s = 3 → timeState t = 4) ∧
      (timeState s ≠ 3 → timeState t = timeState s ∧ t.time.inWindow = (if timeState s = 2 then 0 else s.time.inWindow)) ∧
      t.mem = s.mem ∧ t.tiles = s.tiles)) ∧
  (∀ (s : State), timeState s = 4 → holdoverExpired s = false →
    Completes .holdoverExpired s (fun t =>
      holdoverExpired t = true ∧ timeState t = 4 ∧ rdb t timeEvent 3 = true ∧
      t.clk = max s.clk (s.time.holdSince + (rd s 0x2001C).toNat * ticksS) ∧ regsBut [timeStatus, timeEvent] s t ∧
      t.mem = s.mem ∧ t.tiles = s.tiles)) ∧
  (∀ (s : State), sceneActive s = true →
    Completes .sceneEnd s (fun t =>
      sceneActive t = false ∧ rdb t timeEvent 6 = true ∧ t.time.tResume = [] ∧
      (∀ g u, cueSuppressed t g u = false) ∧ regsBut [timeStatus, timeEvent] s t ∧ t.mem = s.mem ∧ t.tiles = s.tiles)) ∧
  (∀ (u : Nat) (s : State), s.splice.rootFrom = some u → timeState s = 2 →
    Completes .fabricRootLock s (fun t =>
      timeState t = 3 ∧ timeLocked t = true ∧ rdb t timeEvent 0 = true ∧ t.splice.rootFrom = none ∧
      t.clk = max s.clk (u + 16 * ticksMs) ∧ t.mem = s.mem ∧ t.tiles = s.tiles))

/-- 1PPS edges, the real-time clock and the holdover references. With IN_EN set, an edge of PPS_IN is stamped into its
three registers and sets PPS_IN; where the step waits for it with the seconds supplied and no grid runs, the counter
then stands at those seconds with NS and FRAC 0. With OUT_EN set and TIME_LOCKED a pulse of the configured width
leaves. While time is locked and the crystal oscillates, the real-time clock takes device time and RTC_COARSE clears;
when it stops, RTC_COARSE is set. The cycles counted in an interval of a holdover reference decide its validity
(within ±20 ppm of nominal); where it is not the one selected nothing else changes, in HOLDOVER the increment follows
it within the bounds, and in LOCKED the interval joins the last 1,000 learnt. -/
def Obligations.PpsClockAndReferences : Prop :=
  (∀ (s : State), rdb s 0x200E0 1 = true → stepArmed s = false → timeSrc s ≠ 3 →
    Completes .ppsInEdge s (fun t =>
      rd t 0x200E4 = s.time.counter.sec.setWidth 32 ∧ rd t 0x200E8 = s.time.counter.ns ∧ rd t 0x200EC = s.time.counter.frac ∧
      rdb t timeEvent 7 = true ∧ t.time.counter = s.time.counter ∧ t.time.lastPps = s.clk ∧
      regsBut [0x200E4, 0x200E8, 0x200EC, timeEvent] s t ∧ t.mem = s.mem ∧ t.tiles = s.tiles)) ∧
  (∀ (sec : BitVec 48) (s : State), rdb s 0x200E0 1 = true → stepArmed s = true → s.time.ppsSec = some sec → s.time.running = 0 →
    Completes .ppsInEdge s (fun t =>
      t.time.counter.sec = sec ∧ t.time.counter.ns = 0 ∧ t.time.counter.frac = 0 ∧ stepArmed t = false ∧ rdb t timeEvent 7 = true ∧
      t.mem = s.mem ∧ t.tiles = s.tiles)) ∧
  (∀ (s : State), rdb s 0x200E0 0 = true → timeLocked s = true →
    Completes .ppsOutPulse s (fun t =>
      t = { s with clk := t.clk, time := { s.time with counter := t.time.counter },
                   board := { s.board with ppsUntil := t.clk + (rdf s 0x200E0 15 8 + 1) * ticksUs },
                   out := s.out ++ [.pulse pinPps (rdf s 0x200E0 15 8 + 1)] })) ∧
  (∀ (s : State), timeLocked s = true → s.hold.xtal = true →
    Completes .rtcRewrite s (fun t =>
      t.hold.rtc = counterUnits s.time.counter * 32768 / unitsS ∧ t.hold.rtcAt = s.clk ∧ t.hold.rtcCoarse = false ∧ rdb t timeStatus 7 = false ∧
      t = { s with hold := t.hold, regs := t.regs } ∧ regsBut [timeStatus] s t)) ∧
  (∀ (s : State),
    Completes .xtalStop s (fun t =>
      rdb t timeStatus 7 = true ∧ t.hold.xtal = false ∧ t.hold.rtcCoarse = true ∧ t = { s with hold := t.hold, regs := t.regs } ∧
      regsBut [timeStatus] s t)) ∧
  (∀ (ref : Fin 2) (n : Nat) (s : State), hoRef s ≠ ref.val + 1 →
    Completes (.hoRefInterval ref n) s (fun t =>
      t.time.refValid.getLsbD ref = decide (1000000 * ((n : Int) - refNominal s ref).natAbs ≤ 20 * refNominal s ref) ∧
      t = { s with time := { s.time with refValid := t.time.refValid } })) ∧
  (∀ (ref : Fin 2) (n : Nat) (s : State), hoRef s = ref.val + 1 → timeState s = 4 → refGood s ref n = true →
    Completes (.hoRefInterval ref n) s (fun t =>
      t.time.refValid.getLsbD ref = true ∧ hoRefUsed t = ref.val + 1 ∧ t.time.learnRef = s.time.learnRef ∧
      incLow ≤ incUnits t ∧ incUnits t ≤ incHigh ∧
      t.time.counter = s.time.counter ∧ regsBut [0x20020, 0x20024] s t ∧ t.mem = s.mem ∧ t.tiles = s.tiles)) ∧
  (∀ (ref : Fin 2) (n : Nat) (s : State), hoRef s = ref.val + 1 → timeState s = 3 → ptpSlave s = true → refGood s ref n = true →
    Completes (.hoRefInterval ref n) s (fun t =>
      t.time.learnRef = ((incUnits s, n) :: s.time.learnRef).take 1000 ∧
      t = { s with time := { s.time with refValid := t.time.refValid, learnRef := t.time.learnRef } }))

/-- A cue is bound to the one occurrence of its SFN in the window around the arming time, and never precedes its symbol.
For every grid, SFN, slot, symbol, offset and arming time a, the bound cue lies in [a − 2.56 s, a + 7.68 s) and
differs from the cue's time after the GPS epoch by a whole number of SFN periods; the symbol's start within the slot
is the least whole multiple of 2^-32 ns that is not before the exact start in Tc. -/
def Obligations.CueBindsToNearestOccurrence : Prop :=
  (∀ (s : State) (g sfn slot symbol : Nat) (off : Int) (a : Nat),
    (a : Int) - 256 * (frameUnits : Int) ≤ bindCue s g sfn slot symbol off a ∧
    bindCue s g sfn slot symbol off a < (a : Int) + 768 * (frameUnits : Int) ∧
    (bindCue s g sfn slot symbol off a - cueBase s g sfn slot symbol off) % (sfnPeriod : Int) = 0) ∧
  (∀ (mu l : Nat), symbolUnits mu l % 2 ^ 10 = 0 ∧ startTc mu l * 3125 * 2 ^ 42 ≤ symbolUnits mu l * 6144 ∧
    symbolUnits mu l * 6144 < startTc mu l * 3125 * 2 ^ 42 + 6144 * 2 ^ 10)

/-- ADD, SUB, MUL, MULH, NEG, ABS, SHL: the result wraps, or under S clamps and sets SV; companion transfers move beside
it. On a thread that executes, with no reserved companion bit and no transfer that traps, ADD, SUB, MUL, NEG, ABS and
SHL complete with the exact signed result wrapped to 32 bits or, under S, clamped, SV sticking exactly where it
clamped; MULH, with S clear, gives the high word of the signed product. The companion transfers read and write what
stood before, a result in D14 or D15 wins over a transfer into it, the thread moves to its next instruction with its
loops, and nothing else of the tile, of memory or of the device changes. -/
def Obligations.CoreArithmeticResults : Prop :=
  (∀ (n : TileIx) (t : Thr) (f : AluF) (s : State), AluReady s n t f.ct → 
    AluRuns (.add n t f) n t f.ct f.lost (some f.dst)
      (stickSV (satFlag f.s ((getD (threadOf s n t) f.sa).toInt + (getD (threadOf s n t) f.sb).toInt))
        (setD f.dst (satWord f.s ((getD (threadOf s n t) f.sa).toInt + (getD (threadOf s n t) f.sb).toInt)) (threadOf s n t))) s) ∧
  (∀ (n : TileIx) (t : Thr) (f : AluF) (s : State), AluReady s n t f.ct → 
    AluRuns (.sub n t f) n t f.ct f.lost (some f.dst)
      (stickSV (satFlag f.s ((getD (threadOf s n t) f.sa).toInt - (getD (threadOf s n t) f.sb).toInt))
        (setD f.dst (satWord f.s ((getD (threadOf s n t) f.sa).toInt - (getD (threadOf s n t) f.sb).toInt)) (threadOf s n t))) s) ∧
  (∀ (n : TileIx) (t : Thr) (f : AluF) (s : State), AluReady s n t f.ct → 
    AluRuns (.mul n t f) n t f.ct f.lost (some f.dst)
      (stickSV (satFlag f.s ((getD (threadOf s n t) f.sa).toInt * (getD (threadOf s n t) f.sb).toInt))
        (setD f.dst (satWord f.s ((getD (threadOf s n t) f.sa).toInt * (getD (threadOf s n t) f.sb).toInt)) (threadOf s n t))) s) ∧
  (∀ (n : TileIx) (t : Thr) (f : AluF) (s : State), AluReady s n t f.ct → f.s = false → 
    AluRuns (.mulh n t f) n t f.ct f.lost (some f.dst)
      (stickSV (false)
        (setD f.dst (BitVec.ofInt 32 ((getD (threadOf s n t) f.sa).toInt * (getD (threadOf s n t) f.sb).toInt / 2 ^ 32)) (threadOf s n t))) s) ∧
  (∀ (n : TileIx) (t : Thr) (f : AluF) (s : State), AluReady s n t f.ct → f.sb = 0 →
    AluRuns (.neg n t f) n t f.ct f.lost (some f.dst)
      (stickSV (satFlag f.s (-(getD (threadOf s n t) f.sa).toInt))
        (setD f.dst (satWord f.s (-(getD (threadOf s n t) f.sa).toInt)) (threadOf s n t))) s) ∧
  (∀ (n : TileIx) (t : Thr) (f : AluF) (s : State), AluReady s n t f.ct → f.sb = 0 →
    AluRuns (.abs n t f) n t f.ct f.lost (some f.dst)
      (stickSV (satFlag f.s (if (getD (threadOf s n t) f.sa).toInt < 0 then -(getD (threadOf s n t) f.sa).toInt else (getD (threadOf s n t) f.sa).toInt))
        (setD f.dst (satWord f.s (if (getD (threadOf s n t) f.sa).toInt < 0 then -(getD (threadOf s n t) f.sa).toInt else (getD (threadOf s n t) f.sa).toInt)) (threadOf s n t))) s) ∧
  (∀ (n : TileIx) (t : Thr) (f : AluF) (s : State), AluReady s n t f.ct → 
    AluRuns (.shl n t f) n t f.ct f.lost (some f.dst)
      (stickSV (satFlag f.s ((getD (threadOf s n t) f.sa).toInt * 2 ^ ((getD (threadOf s n t) f.sb).toNat % 64)))
        (setD f.dst (satWord f.s ((getD (threadOf s n t) f.sa).toInt * 2 ^ ((getD (threadOf s n t) f.sb).toNat % 64))) (threadOf s n t))) s)

/-- AND, OR, XOR, SHR, SHRA, MIN, MAX, CMP, CSEL: the result words and the flags. On a thread that executes, with no
reserved companion bit, S clear and no transfer that traps: the bitwise operations, the shifts right by SB[5:0] (32 or
more gives 0 or the sign), and the signed minimum and maximum write their word and leave every flag; CMP sets Z, N
(signed less) and C (unsigned less), leaves SV and every register; CSEL writes SA where the condition of the flags
holds, else SB. Transfers, retirement and the frame are as for the arithmetic. -/
def Obligations.CoreLogicResults : Prop :=
  (∀ (n : TileIx) (t : Thr) (f : AluF) (s : State), AluReady s n t f.ct → f.s = false → 
    AluRuns (.and n t f) n t f.ct f.lost (some f.dst)
      (stickSV (false)
        (setD f.dst ((getD (threadOf s n t) f.sa) &&& (getD (threadOf s n t) f.sb)) (threadOf s n t))) s) ∧
  (∀ (n : TileIx) (t : Thr) (f : AluF) (s : State), AluReady s n t f.ct → f.s = false → 
    AluRuns (.or n t f) n t f.ct f.lost (some f.dst)
      (stickSV (false)
        (setD f.dst ((getD (threadOf s n t) f.sa) ||| (getD (threadOf s n t) f.sb)) (threadOf s n t))) s) ∧
  (∀ (n : TileIx) (t : Thr) (f : AluF) (s : State), AluReady s n t f.ct → f.s = false → 
    AluRuns (.xor n t f) n t f.ct f.lost (some f.dst)
      (stickSV (false)
        (setD f.dst ((getD (threadOf s n t) f.sa) ^^^ (getD (threadOf s n t) f.sb)) (threadOf s n t))) s) ∧
  (∀ (n : TileIx) (t : Thr) (f : AluF) (s : State), AluReady s n t f.ct → f.s = false → 
    AluRuns (.shr n t f) n t f.ct f.lost (some f.dst)
      (stickSV (false)
        (setD f.dst (if 32 ≤ (getD (threadOf s n t) f.sb).toNat % 64 then 0 else (getD (threadOf s n t) f.sa) >>> ((getD (threadOf s n t) f.sb).toNat % 64)) (threadOf s n t))) s) ∧
  (∀ (n : TileIx) (t : Thr) (f : AluF) (s : State), AluReady s n t f.ct → f.s = false → 
    AluRuns (.shra n t f) n t f.ct f.lost (some f.dst)
      (stickSV (false)
        (setD f.dst (BitVec.ofInt 32 ((getD (threadOf s n t) f.sa).toInt / 2 ^ ((getD (threadOf s n t) f.sb).toNat % 64))) (threadOf s n t))) s) ∧
  (∀ (n : TileIx) (t : Thr) (f : AluF) (s : State), AluReady s n t f.ct → f.s = false → 
    AluRuns (.min n t f) n t f.ct f.lost (some f.dst)
      (stickSV (false)
        (setD f.dst (BitVec.ofInt 32 (min (getD (threadOf s n t) f.sa).toInt (getD (threadOf s n t) f.sb).toInt)) (threadOf s n t))) s) ∧
  (∀ (n : TileIx) (t : Thr) (f : AluF) (s : State), AluReady s n t f.ct → f.s = false → 
    AluRuns (.max n t f) n t f.ct f.lost (some f.dst)
      (stickSV (false)
        (setD f.dst (BitVec.ofInt 32 (max (getD (threadOf s n t) f.sa).toInt (getD (threadOf s n t) f.sb).toInt)) (threadOf s n t))) s) ∧
  (∀ (n : TileIx) (t : Thr) (f : AluF) (s : State), AluReady s n t f.ct → f.s = false → f.dst = 0 →
    AluRuns (.cmp n t f) n t f.ct f.lost none
      ({ threadOf s n t with flags := flagBits (decide ((getD (threadOf s n t) f.sa) = (getD (threadOf s n t) f.sb))) (decide ((getD (threadOf s n t) f.sa).toInt < (getD (threadOf s n t) f.sb).toInt)) (decide ((getD (threadOf s n t) f.sa).toNat < (getD (threadOf s n t) f.sb).toNat)) (flagSV (threadOf s n t)) }) s) ∧
  (∀ (n : TileIx) (t : Thr) (c : Cond) (dst sa sb : Fin 16) (s : State), canRun s n t = true →
    CoreRuns (.csel n t c dst sa sb) n t
      (retire (setD dst (if condHolds (threadOf s n t) c then getD (threadOf s n t) sa else getD (threadOf s n t) sb) (threadOf s n t))) s)

/-- MAC, MACZ, ACCRD and the paired 16-bit operations. MAC adds the product to the accumulator that DST names and MACZ
replaces it, wrapped to 72 bits or, under S, clamped with SV; no data register changes but by a transfer. ACCRD writes
the accumulator shifted right and rounded to nearest with ties to even, wrapped or clamped. ADD2, SUB2 and ABS2 work
per signed half, each wrapped or clamped; MIN2 gives the signed minimum per half; MINTRK updates the two minima and C.
Conditions, transfers, retirement and the frame are as for the arithmetic. -/
def Obligations.CoreMacAndPairs : Prop :=
  (∀ (n : TileIx) (t : Thr) (f : AluF) (s : State), AluReady s n t f.ct → f.dst.val < 2 →
    AluRuns (.mac n t f) n t f.ct f.lost none
      (stickSV (f.s && clamps 72 ((getAcc (threadOf s n t) f.dst).toInt + (getD (threadOf s n t) f.sa).toInt * (getD (threadOf s n t) f.sb).toInt))
        (setAcc f.dst (BitVec.ofInt 72 (if f.s then clampInt (-(2 ^ 71)) (2 ^ 71 - 1) ((getAcc (threadOf s n t) f.dst).toInt + (getD (threadOf s n t) f.sa).toInt * (getD (threadOf s n t) f.sb).toInt)
          else (getAcc (threadOf s n t) f.dst).toInt + (getD (threadOf s n t) f.sa).toInt * (getD (threadOf s n t) f.sb).toInt)) (threadOf s n t))) s) ∧
  (∀ (n : TileIx) (t : Thr) (f : AluF) (s : State), AluReady s n t f.ct → f.dst.val < 2 →
    AluRuns (.macz n t f) n t f.ct f.lost none
      (setAcc f.dst (BitVec.ofInt 72 ((getD (threadOf s n t) f.sa).toInt * (getD (threadOf s n t) f.sb).toInt)) (stickSV false (threadOf s n t))) s) ∧
  (∀ (n : TileIx) (t : Thr) (f : AluF) (s : State), AluReady s n t f.ct → f.sa.val < 4 →
    AluRuns (.accrd n t f) n t f.ct f.lost (some f.dst)
      (stickSV (satFlag f.s (rneInt (getAcc (threadOf s n t) (f.sa.val % 2)).toInt (f.sb.val + 16 * (f.sa.val / 2))))
        (setD f.dst (satWord f.s (rneInt (getAcc (threadOf s n t) (f.sa.val % 2)).toInt (f.sb.val + 16 * (f.sa.val / 2)))) (threadOf s n t))) s) ∧
  (∀ (n : TileIx) (t : Thr) (f : AluF) (s : State), AluReady s n t f.ct → 
    AluRuns (.add2 n t f) n t f.ct f.lost (some f.dst)
      (stickSV (f.s && (clamps 16 (hiHalf (getD (threadOf s n t) f.sa) + hiHalf (getD (threadOf s n t) f.sb)) || clamps 16 (loHalf (getD (threadOf s n t) f.sa) + loHalf (getD (threadOf s n t) f.sb))))
        (setD f.dst ((sat16x2 f.s (hiHalf (getD (threadOf s n t) f.sa) + hiHalf (getD (threadOf s n t) f.sb)) (loHalf (getD (threadOf s n t) f.sa) + loHalf (getD (threadOf s n t) f.sb))).1) (threadOf s n t))) s) ∧
  (∀ (n : TileIx) (t : Thr) (f : AluF) (s : State), AluReady s n t f.ct → 
    AluRuns (.sub2 n t f) n t f.ct f.lost (some f.dst)
      (stickSV (f.s && (clamps 16 (hiHalf (getD (threadOf s n t) f.sa) - hiHalf (getD (threadOf s n t) f.sb)) || clamps 16 (loHalf (getD (threadOf s n t) f.sa) - loHalf (getD (threadOf s n t) f.sb))))
        (setD f.dst ((sat16x2 f.s (hiHalf (getD (threadOf s n t) f.sa) - hiHalf (getD (threadOf s n t) f.sb)) (loHalf (getD (threadOf s n t) f.sa) - loHalf (getD (threadOf s n t) f.sb))).1) (threadOf s n t))) s) ∧
  (∀ (n : TileIx) (t : Thr) (f : AluF) (s : State), AluReady s n t f.ct → f.s = false → 
    AluRuns (.min2 n t f) n t f.ct f.lost (some f.dst)
      (stickSV (false)
        (setD f.dst (BitVec.ofInt 16 (min (hiHalf (getD (threadOf s n t) f.sa)) (hiHalf (getD (threadOf s n t) f.sb))) ++ BitVec.ofInt 16 (min (loHalf (getD (threadOf s n t) f.sa)) (loHalf (getD (threadOf s n t) f.sb)))) (threadOf s n t))) s) ∧
  (∀ (n : TileIx) (t : Thr) (f : AluF) (s : State), AluReady s n t f.ct → f.sb = 0 →
    AluRuns (.abs2 n t f) n t f.ct f.lost (some f.dst)
      (stickSV (f.s && (decide (hiHalf (getD (threadOf s n t) f.sa) = -32768) || decide (loHalf (getD (threadOf s n t) f.sa) = -32768)))
        (setD f.dst ((sat16x2 f.s (hiHalf (getD (threadOf s n t) f.sa)).natAbs (loHalf (getD (threadOf s n t) f.sa)).natAbs).1) (threadOf s n t))) s) ∧
  (∀ (n : TileIx) (t : Thr) (f : AluF) (s : State), AluReady s n t f.ct → f.s = false → 
    AluRuns (.mintrk n t f) n t f.ct f.lost (some f.dst)
      (setC (decide (min (loHalf (getD (threadOf s n t) f.sb)).natAbs 32767 < (getD (threadOf s n t) f.sa).toNat % 65536))
        (setD f.dst (if min (loHalf (getD (threadOf s n t) f.sb)).natAbs 32767 < (getD (threadOf s n t) f.sa).toNat % 65536 then
            BitVec.ofNat 32 ((getD (threadOf s n t) f.sa).toNat % 65536 * 65536 + min (loHalf (getD (threadOf s n t) f.sb)).natAbs 32767)
          else if min (loHalf (getD (threadOf s n t) f.sb)).natAbs 32767 < (getD (threadOf s n t) f.sa).toNat / 65536 then
            BitVec.ofNat 32 (min (loHalf (getD (threadOf s n t) f.sb)).natAbs 32767 * 65536 + (getD (threadOf s n t) f.sa).toNat % 65536)
          else (getD (threadOf s n t) f.sa)) (threadOf s n t))) s)

/-- The immediate forms: sign-extended operands, shifts by IMM15[5:0], CMPI, LDI and LUI. On a thread that executes, ADDI
adds the sign-extended immediate with the wrap or clamp of S; ANDI and ORI take it sign-extended; the shifts move by
IMM15[5:0]; CMPI sets Z, N and C and leaves SV; LDI writes its immediate sign-extended and LUI the high half alone.
Each moves the thread past it and changes nothing else of the device. -/
def Obligations.CoreImmediates : Prop :=
  (∀ (n : TileIx) (t : Thr) (f : ImmF) (s : State), canRun s n t = true → 
    CoreRuns (.addi n t f) n t (retire
      (stickSV (satFlag f.s ((getD (threadOf s n t) f.sa).toInt + f.imm.toInt))
        (setD f.dst (satWord f.s ((getD (threadOf s n t) f.sa).toInt + f.imm.toInt)) (threadOf s n t)))) s) ∧
  (∀ (n : TileIx) (t : Thr) (f : ImmF) (s : State), canRun s n t = true → f.s = false → 
    CoreRuns (.andi n t f) n t (retire
      (stickSV (false)
        (setD f.dst ((getD (threadOf s n t) f.sa) &&& f.imm.signExtend 32) (threadOf s n t)))) s) ∧
  (∀ (n : TileIx) (t : Thr) (f : ImmF) (s : State), canRun s n t = true → f.s = false → 
    CoreRuns (.ori n t f) n t (retire
      (stickSV (false)
        (setD f.dst ((getD (threadOf s n t) f.sa) ||| f.imm.signExtend 32) (threadOf s n t)))) s) ∧
  (∀ (n : TileIx) (t : Thr) (f : ImmF) (s : State), canRun s n t = true → 
    CoreRuns (.shli n t f) n t (retire
      (stickSV (satFlag f.s ((getD (threadOf s n t) f.sa).toInt * 2 ^ (f.imm.toNat % 64)))
        (setD f.dst (satWord f.s ((getD (threadOf s n t) f.sa).toInt * 2 ^ (f.imm.toNat % 64))) (threadOf s n t)))) s) ∧
  (∀ (n : TileIx) (t : Thr) (f : ImmF) (s : State), canRun s n t = true → f.s = false → 
    CoreRuns (.shri n t f) n t (retire
      (stickSV (false)
        (setD f.dst (if 32 ≤ (f.imm.toNat % 64) then 0 else (getD (threadOf s n t) f.sa) >>> (f.imm.toNat % 64)) (threadOf s n t)))) s) ∧
  (∀ (n : TileIx) (t : Thr) (f : ImmF) (s : State), canRun s n t = true → f.s = false → 
    CoreRuns (.shrai n t f) n t (retire
      (stickSV (false)
        (setD f.dst (BitVec.ofInt 32 ((getD (threadOf s n t) f.sa).toInt / 2 ^ (f.imm.toNat % 64))) (threadOf s n t)))) s) ∧
  (∀ (n : TileIx) (t : Thr) (f : ImmF) (s : State), canRun s n t = true → f.s = false → f.dst = 0 →
    CoreRuns (.cmpi n t f) n t (retire
      ({ threadOf s n t with flags := flagBits (decide ((getD (threadOf s n t) f.sa).toInt = f.imm.toInt)) (decide ((getD (threadOf s n t) f.sa).toInt < f.imm.toInt)) (decide ((getD (threadOf s n t) f.sa).toNat < (f.imm.signExtend 32).toNat)) (flagSV (threadOf s n t)) })) s) ∧
  (∀ (n : TileIx) (t : Thr) (dst : Fin 16) (imm : BitVec 16) (s : State), canRun s n t = true →
    CoreRuns (.ldi n t dst imm) n t (retire (setD dst (BitVec.ofInt 32 imm.toInt) (threadOf s n t))) s) ∧
  (∀ (n : TileIx) (t : Thr) (dst : Fin 16) (imm : BitVec 16) (s : State), canRun s n t = true →
    CoreRuns (.lui n t dst imm) n t (retire (setD dst (imm ++ (getD (threadOf s n t) dst).setWidth 16) (threadOf s n t))) s)

/-- Loads and stores of the control core: the bytes at the address the head gives, sign-extended, and no other byte
changed. On a thread that executes, with the access inside the local store, aligned and, for a load, not poisoned, LD,
LDH and LDB write the register with the little-endian bytes at the address, sign-extended; ST, STH and STB store the
low bytes of the register at the address and leave every other byte of memory. The address is the head, or the head
plus the immediate, and the head moves on as AM says; an immediate that AM does not use is 0; the cycles lost to bank
conflicts count in BANK_STALL, and nothing else changes. -/
def Obligations.CoreLoadsAndStores : Prop :=
  (∀ (n : TileIx) (t : Thr) (f : MemF) (s : State), canRun s n t = true → memLegal f = true →
    loadCheck s n (memAddr (threadOf s n t) f 4).1.toNat 4 4 = none →
    LoadRuns (.ld n t f) n t f.lost (retire (setD f.reg
      (BitVec.ofInt 32 (signedOf 32 (leNat (memRead s (lsAddr n + (memAddr (threadOf s n t) f 4).1.toNat) 4))))
      (memAddr (threadOf s n t) f 4).2)) s) ∧
  (∀ (n : TileIx) (t : Thr) (f : MemF) (s : State), canRun s n t = true → memLegal f = true →
    loadCheck s n (memAddr (threadOf s n t) f 2).1.toNat 2 2 = none →
    LoadRuns (.ldh n t f) n t f.lost (retire (setD f.reg
      (BitVec.ofInt 32 (signedOf 16 (leNat (memRead s (lsAddr n + (memAddr (threadOf s n t) f 2).1.toNat) 2))))
      (memAddr (threadOf s n t) f 2).2)) s) ∧
  (∀ (n : TileIx) (t : Thr) (f : MemF) (s : State), canRun s n t = true → memLegal f = true →
    loadCheck s n (memAddr (threadOf s n t) f 1).1.toNat 1 1 = none →
    LoadRuns (.ldb n t f) n t f.lost (retire (setD f.reg
      (BitVec.ofInt 32 (signedOf 8 (leNat (memRead s (lsAddr n + (memAddr (threadOf s n t) f 1).1.toNat) 1))))
      (memAddr (threadOf s n t) f 1).2)) s) ∧
  (∀ (n : TileIx) (t : Thr) (f : MemF) (s : State), canRun s n t = true → memLegal f = true →
    addrCheck (memAddr (threadOf s n t) f 4).1.toNat 4 4 = none →
    Completes (.st n t f) s (fun u =>
      threadOf u n t = retire (memAddr (threadOf s n t) f 4).2 ∧
      onlyThread n t { bankStall n f.lost s with mem := u.mem } u ∧
      (s.mem.wc = [] → memRead u (lsAddr n + (memAddr (threadOf s n t) f 4).1.toNat) 4 = leBytes 4 (getD (threadOf s n t) f.reg).toNat) ∧
      memBut (lsAddr n + (memAddr (threadOf s n t) f 4).1.toNat) 4 s u)) ∧
  (∀ (n : TileIx) (t : Thr) (f : MemF) (s : State), canRun s n t = true → memLegal f = true →
    addrCheck (memAddr (threadOf s n t) f 2).1.toNat 2 2 = none →
    Completes (.sth n t f) s (fun u =>
      threadOf u n t = retire (memAddr (threadOf s n t) f 2).2 ∧
      onlyThread n t { bankStall n f.lost s with mem := u.mem } u ∧
      (s.mem.wc = [] → memRead u (lsAddr n + (memAddr (threadOf s n t) f 2).1.toNat) 2 = leBytes 2 (getD (threadOf s n t) f.reg).toNat) ∧
      memBut (lsAddr n + (memAddr (threadOf s n t) f 2).1.toNat) 2 s u)) ∧
  (∀ (n : TileIx) (t : Thr) (f : MemF) (s : State), canRun s n t = true → memLegal f = true →
    addrCheck (memAddr (threadOf s n t) f 1).1.toNat 1 1 = none →
    Completes (.stb n t f) s (fun u =>
      threadOf u n t = retire (memAddr (threadOf s n t) f 1).2 ∧
      onlyThread n t { bankStall n f.lost s with mem := u.mem } u ∧
      (s.mem.wc = [] → memRead u (lsAddr n + (memAddr (threadOf s n t) f 1).1.toNat) 1 = leBytes 1 (getD (threadOf s n t) f.reg).toNat) ∧
      memBut (lsAddr n + (memAddr (threadOf s n t) f 1).1.toNat) 1 s u)) ∧
  (∀ (n : TileIx) (lost : Nat) (s : State),
    (rd (bankStall n lost s) (tileReg n 0x1C)).toNat = min (2 ^ 32 - 1) ((rd s (tileReg n 0x1C)).toNat + lost) ∧
    regsBut [tileReg n 0x1C] s (bankStall n lost s) ∧ bankStall n lost s = { s with regs := (bankStall n lost s).regs })

/-- SETA, MVA, MVD and ADDA, and how a head moves inside its window. SETA writes an address register with its immediate,
sign-extended for a step register and zero-extended otherwise; MVA and MVD move between data and address registers;
ADDA moves a head by its signed immediate. Without reverse-carry addressing a head moves by plain addition where its
extent is 0, and else inside [base, base + extent) by one wrap at either end. -/
def Obligations.CoreAddressRegisters : Prop :=
  (∀ (n : TileIx) (t : Thr) (sel : ASel) (k : Fin 8) (imm : BitVec 22) (s : State), canRun s n t = true →
    CoreRuns (.seta n t sel k imm) n t (retire (setA sel k (if sel = .s then BitVec.ofInt 32 imm.toInt else BitVec.ofNat 32 imm.toNat) (threadOf s n t))) s) ∧
  (∀ (n : TileIx) (t : Thr) (sel : ASel) (k : Fin 8) (d : Fin 16) (s : State), canRun s n t = true →
    CoreRuns (.mva n t sel k d) n t (retire (setA sel k (getD (threadOf s n t) d) (threadOf s n t))) s ∧
    CoreRuns (.mvd n t sel k d) n t (retire (setD d (getA (threadOf s n t) sel k) (threadOf s n t))) s) ∧
  (∀ (n : TileIx) (t : Thr) (k : Fin 8) (imm : BitVec 22) (s : State), canRun s n t = true →
    CoreRuns (.adda n t k imm) n t (retire (setH k (nextHead (threadOf s n t) k imm.toInt) (threadOf s n t))) s) ∧
  (∀ (y : Thread) (k : Nat) (step : Int), (amodeNow y).getLsbD k = false →
    (getE y k = 0 → nextHead y k step = BitVec.ofInt 32 ((getH y k).toNat + step)) ∧
    (getE y k ≠ 0 → (getW y k).toNat + (getE y k).toNat < 2 ^ 32 → (getW y k).toNat ≤ (getH y k).toNat →
      (getH y k).toNat < (getW y k).toNat + (getE y k).toNat → step.natAbs ≤ (getE y k).toNat →
      (getW y k).toNat ≤ (nextHead y k step).toNat ∧ (nextHead y k step).toNat < (getW y k).toNat + (getE y k).toNat ∧
      ((nextHead y k step).toNat - ((getH y k).toNat + step)) % ((getE y k).toNat : Int) = 0))

/-- Branches, calls, returns and loops set the next PC and the loop and call stacks. BR goes to its target and pops the
loop levels that the target lies outside of where its condition holds, else it moves past; a conditional one moves the
epoch, and where the hint was wrong its discarded slots are counted. CALL pushes the next index while fewer than 8 are
held, RET goes to the last one pushed; JR goes to D[14:0]. LOOP and LOOPI push a level of END + 1 instructions while
fewer than 4 are held, and skip the body for a count of 0. LEXIT makes the innermost count 1. None of them touches a
register of the thread beyond these, memory or another thread. -/
def Obligations.CoreBranchesAndLoops : Prop :=
  (∀ (n : TileIx) (t : Thr) (c : Cond) (hint : Bool) (off : BitVec 21) (slots : Fin 5) (staged : Nat) (s : State),
    canRun s n t = true → (c = .al ∨ condHolds (threadOf s n t) c = hint) →
    CoreRuns (.br n t c hint off slots staged) n t
      (if condHolds (threadOf s n t) c then
        { threadOf s n t with amodeLate := (threadOf s n t).amodeLate - 1, epoch := (threadOf s n t).epoch + (if c = .al then 0 else 1), pc := (threadOf s n t).pc + off.setWidth 15, loops := leaveLoops ((threadOf s n t).pc + off.setWidth 15) (threadOf s n t).loops }
       else retire { threadOf s n t with epoch := (threadOf s n t).epoch + (if c = .al then 0 else 1) }) s) ∧
  (∀ (n : TileIx) (t : Thr) (c : Cond) (hint : Bool) (off : BitVec 21) (slots : Fin 5) (staged : Nat) (s : State),
    canRun s n t = true → c ≠ .al → condHolds (threadOf s n t) c ≠ hint →
    Completes (.br n t c hint off slots staged) s (fun u =>
      (threadOf u n t).pc = (if condHolds (threadOf s n t) c then (threadOf s n t).pc + off.setWidth 15
        else (retire (threadOf s n t)).pc) ∧ (threadOf u n t).epoch = (threadOf s n t).epoch + 1 ∧
      (rd u (tileReg n 0x50)).toNat = min (2 ^ 32 - 1) ((rd s (tileReg n 0x50)).toNat + (slots.val + staged)) ∧
      onlyThread n t { s with regs := u.regs } u ∧ regsBut [tileReg n 0x50] s u)) ∧
  (∀ (n : TileIx) (t : Thr) (off : BitVec 21) (s : State), canRun s n t = true → (threadOf s n t).calls.length < 8 →
    CoreRuns (.call n t off) n t
      { threadOf s n t with amodeLate := (threadOf s n t).amodeLate - 1, calls := ((threadOf s n t).pc + 1) :: (threadOf s n t).calls, pc := (threadOf s n t).pc + off.setWidth 15 } s) ∧
  (∀ (n : TileIx) (t : Thr) (a : BitVec 15) (l : List (BitVec 15)) (s : State), canRun s n t = true → (threadOf s n t).calls = a :: l →
    CoreRuns (.ret n t) n t { threadOf s n t with amodeLate := (threadOf s n t).amodeLate - 1, calls := l, pc := a } s) ∧
  (∀ (n : TileIx) (t : Thr) (d : Fin 16) (s : State), canRun s n t = true →
    CoreRuns (.jr n t d) n t
      { threadOf s n t with amodeLate := (threadOf s n t).amodeLate - 1, pc := (getD (threadOf s n t) d).setWidth 15, loops := leaveLoops ((getD (threadOf s n t) d).setWidth 15) (threadOf s n t).loops } s) ∧
  (∀ (n : TileIx) (t : Thr) (d : Fin 16) (len : BitVec 9) (s : State), canRun s n t = true → getD (threadOf s n t) d ≠ 0 →
    (threadOf s n t).loops.length < 4 →
    CoreRuns (.loop n t d len) n t
      { threadOf s n t with amodeLate := (threadOf s n t).amodeLate - 1, pc := (threadOf s n t).pc + 1, loops := ⟨(threadOf s n t).pc + 1, (threadOf s n t).pc + 1 + len.setWidth 15, (getD (threadOf s n t) d).toNat⟩ :: (threadOf s n t).loops } s) ∧
  (∀ (n : TileIx) (t : Thr) (count : BitVec 12) (len : BitVec 9) (s : State), canRun s n t = true →
    (count ≠ 0 → (threadOf s n t).loops.length < 4) →
    CoreRuns (.loopi n t count len) n t
      (if count = 0 then { threadOf s n t with amodeLate := (threadOf s n t).amodeLate - 1, pc := (threadOf s n t).pc + 2 + len.setWidth 15 }
       else { threadOf s n t with amodeLate := (threadOf s n t).amodeLate - 1, pc := (threadOf s n t).pc + 1, loops := ⟨(threadOf s n t).pc + 1, (threadOf s n t).pc + 1 + len.setWidth 15, count.toNat⟩ :: (threadOf s n t).loops }) s) ∧
  (∀ (n : TileIx) (t : Thr) (l : LoopLevel) (ls : List LoopLevel) (s : State), canRun s n t = true → (threadOf s n t).loops = l :: ls →
    CoreRuns (.lexit n t) n t { threadOf s n t with amodeLate := (threadOf s n t).amodeLate - 1, pc := (threadOf s n t).pc + 1, loops := { l with count := 1 } :: ls } s)

/-- An exception stops its thread with the cause and PC recorded and tells the fault unit; a thread that does not execute
is left alone. An instruction that breaks a reserved field, sets S where it is not used, or gives an immediate where
AM uses none, a misaligned access, a fifth loop level, a ninth call or a return without a call stops its thread,
records the cause and the PC in the tile, sets the thread's exception bit, reports an uncorrectable event, and changes
no other register, nor memory. A command of a thread that does not run, of a fenced tile, or of a stalled one changes
nothing. -/
def Obligations.CoreExceptions : Prop :=
  (∀ (n : TileIx) (t : Thr) (f : AluF) (s : State), canRun s n t = true → f.ct.getLsbD 0 = true →
    Completes (.add n t f) s (fun u =>
      (threadOf u n t).run = .stopped ∧ rdf u (tileReg n 0x44) (4 * t.val + 3) (4 * t.val) = excIllegal ∧
      rd u (tileReg n (0x48 + 4 * t.val)) = (threadOf s n t).pc.setWidth 32 ∧ rdb u (tileReg n 0x40) (2 + t.val) = true ∧
      u.fault.reports.length = s.fault.reports.length + 1 ∧
      regsBut [tileReg n 0x44, tileReg n (0x48 + 4 * t.val), tileReg n 0x40] s u ∧ u.mem = s.mem)) ∧
  (∀ (c : Instr) (n : TileIx) (t : Thr) (f : AluF) (g : ImmF) (s : State), canRun s n t = true → f.s = true → g.s = true →
    c = .mulh n t f ∨ c = .and n t f ∨ c = .or n t f ∨ c = .xor n t f ∨ c = .shr n t f ∨ c = .shra n t f ∨ c = .min n t f ∨
      c = .max n t f ∨ c = .min2 n t f ∨ c = .mintrk n t f ∨ c = .cmp n t f ∨ c = .andi n t g ∨ c = .ori n t g ∨
      c = .shri n t g ∨ c = .shrai n t g ∨ c = .cmpi n t g →
    exec c s = .next (coreTrap n t excIllegal s)) ∧
  (∀ (n : TileIx) (t : Thr) (f : MemF) (s : State), canRun s n t = true → f.am.toNat % 2 = 1 → f.imm ≠ 0 →
    exec (.ld n t f) s = .next (coreTrap n t excIllegal s) ∧ exec (.st n t f) s = .next (coreTrap n t excIllegal s)) ∧
  (∀ (n : TileIx) (t : Thr) (f : MemF) (s : State), canRun s n t = true →
    memLegal f = true → addrCheck (memAddr (threadOf s n t) f 4).1.toNat 4 4 = some excAlign →
    Completes (.st n t f) s (fun u =>
      (threadOf u n t).run = .stopped ∧ rdf u (tileReg n 0x44) (4 * t.val + 3) (4 * t.val) = excAlign ∧
      rd u (tileReg n (0x48 + 4 * t.val)) = (threadOf s n t).pc.setWidth 32 ∧ u.mem = s.mem)) ∧
  (∀ (n : TileIx) (t : Thr) (d : Fin 16) (len : BitVec 9) (s : State), canRun s n t = true → getD (threadOf s n t) d ≠ 0 →
    4 ≤ (threadOf s n t).loops.length → exec (.loop n t d len) s = .next (coreTrap n t excLoopOvf s)) ∧
  (∀ (n : TileIx) (t : Thr) (off : BitVec 21) (s : State), canRun s n t = true → 8 ≤ (threadOf s n t).calls.length →
    exec (.call n t off) s = .next (coreTrap n t excCallStack s)) ∧
  (∀ (n : TileIx) (t : Thr) (s : State), canRun s n t = true → (threadOf s n t).calls = [] →
    exec (.ret n t) s = .next (coreTrap n t excCallStack s)) ∧
  (∀ (n : TileIx) (t : Thr) (f : AluF) (s : State), canRun s n t = false → exec (.add n t f) s = .next s)

/-- MLOAD hands a load to its array, which starts, completes into the shadow slot, and CUT swaps the slots. On a thread
that executes, MLOAD with its weights inside the local store hands an array that is open to it the load and moves on;
behind a load, a hold or earlier operations of the thread it is queued, and with 8 queued the thread stalls at it. The
waiting load starts with its bytes as the local store holds them and counts the waited cycles; it completes into the
shadow slot, whose accumulators stay, with the PHY bit set exactly where call-sheet code on C0 issued it, and lets the
windows that are released know where C1 did. A CUT of arrays without loads or queued operations of its thread swaps
the slots of exactly the arrays named and counts one per array; with one outstanding the thread waits, and the
completion that ends the wait swaps the slots, counts the cycles waited and moves the thread on. -/
def Obligations.ShadowLoadsAndCuts : Prop :=
  (∀ (n : TileIx) (t : Thr) (f : MatF) (k : Nat) (s : State), canRun s n t = true → oneArray f.amask = some k → f.opnd = 0 → f.s = false →
    ArrayOpen s n t k (.load (getH (threadOf s n t) f.hx).toNat (getD (threadOf s n t) f.dp) (decide (t = 0) && phyCode (threadOf s n t))) →
    loadCheck s n (getH (threadOf s n t) f.hx).toNat (loadBytes (getD (threadOf s n t) f.dp)) 64 = none →
    TileRuns (.mload n t f) n f.lost (setThr t (retire (threadOf s n t)) (setArr k
      { arrOf (tileOf s n) k with load := .waiting (getH (threadOf s n t) f.hx).toNat (getD (threadOf s n t) f.dp) t (decide (t = 0) && phyCode (threadOf s n t)) (threadOf s n t).pc } (tileOf s n))) s) ∧
  (∀ (n : TileIx) (t : Thr) (f : MatF) (k : Nat) (s : State), canRun s n t = true → oneArray f.amask = some k → f.opnd = 0 → f.s = false →
    (arrOf (tileOf s n) k).load ≠ .idle → (opsOf t (arrOf (tileOf s n) k)).length < 8 →
    loadCheck s n (getH (threadOf s n t) f.hx).toNat (loadBytes (getD (threadOf s n t) f.dp)) 64 = none →
    TileRuns (.mload n t f) n 0 (setThr t (retire (threadOf s n t)) (setArr k
      { arrOf (tileOf s n) k with queue := (arrOf (tileOf s n) k).queue ++ [⟨t, (threadOf s n t).pc,
          .load (getH (threadOf s n t) f.hx).toNat (getD (threadOf s n t) f.dp) (decide (t = 0) && phyCode (threadOf s n t))⟩] } (tileOf s n))) s) ∧
  (∀ (n : TileIx) (t : Thr) (f : MatF) (k : Nat) (s : State), canRun s n t = true → oneArray f.amask = some k → f.opnd = 0 → f.hx = 0 →
    f.s = false → 8 ≤ (opsOf t (arrOf (tileOf s n) k)).length →
    exec (.mload n t f) s = .next s ∧ exec (.mpass n t f) s = .next s ∧ exec (.mread n t f) s = .next s ∧ exec (.mclr n t f) s = .next s) ∧
  (∀ (n : TileIx) (k : Fin 4) (waited : Nat) (h : Nat) (w : Word) (t : Thr) (phy : Bool) (pc : BitVec 15) (s : State),
    (arrOf (tileOf s n) k).load = .waiting h w t phy pc → fenced s n = false → memPoisoned s (lsAddr n + h) (loadBytes w) = false →
    Completes (.shadowLoadStart n k waited) s (fun u =>
      tileOf u n = setArr k { arrOf (tileOf s n) k with load := .loading (memRead s (lsAddr n + h) (loadBytes w)) w t phy } (tileOf s n) ∧
      onlyTile n s u ∧ (rd u (tileReg n 0x18)).toNat = min (2 ^ 32 - 1) ((rd s (tileReg n 0x18)).toNat + waited) ∧
      regsBut [tileReg n 0x18] s u ∧ u = { s with tiles := u.tiles, regs := u.regs })) ∧
  (∀ (n : TileIx) (k : Fin 4) (waited held : Nat) (bs : List Byte) (w : Word) (t : Thr) (ph : Bool) (s : State),
    (arrOf (tileOf s n) k).load = .loading bs w t ph → fenced s n = false → (arrOf (tileOf s n) k).queue = [] →
    ((threadOf s n 0).run = .running ∨ (threadOf s n 0).run = .stopped) →
    ((threadOf s n 1).run = .running ∨ (threadOf s n 1).run = .stopped) →
    Completes (.shadowLoadComplete n k ⟨waited, held⟩) s (fun u =>
      tileOf u n = setArr k
        (setShadow { shadowCtx (arrOf (tileOf s n) k) with weights := tabSetMany (fun _ => 0) [] 0 bs, word := w, phy := ph }
          { arrOf (tileOf s n) k with load := .idle }) (tileOf s n) ∧ onlyTile n s u ∧
      u.windows = (if t = 1 then s.windows.map (fun x => if x.tile = n.val ∧ x.released = true then
        { x with loaded := x.loaded ||| BitVec.ofNat 4 (2 ^ k.val) } else x) else s.windows) ∧
      u = { s with tiles := u.tiles, windows := u.windows })) ∧
  (∀ (n : TileIx) (k : Fin 4) (waited held : Nat) (bs : List Byte) (w : Word) (ph : Bool) (s : State),
    (arrOf (tileOf s n) k).load = .loading bs w 0 ph → fenced s n = false → (arrOf (tileOf s n) k).queue = [] →
    (threadOf s n 0).run = .waiting (.cut (BitVec.ofNat 4 (2 ^ k.val))) →
    ((threadOf s n 1).run = .running ∨ (threadOf s n 1).run = .stopped) → s.windows = [] →
    Completes (.shadowLoadComplete n k ⟨waited, held⟩) s (fun u =>
      threadOf u n 0 = retire { threadOf s n 0 with run := .running } ∧
      arrOf (tileOf u n) k = cutArray (setShadow { shadowCtx (arrOf (tileOf s n) k) with weights := tabSetMany (fun _ => 0) [] 0 bs, word := w, phy := ph }
          { arrOf (tileOf s n) k with load := .idle }) ∧
      (rd u (tileReg n 0x14)).toNat = min (2 ^ 32 - 1) ((rd s (tileReg n 0x14)).toNat + waited) ∧
      (rd u (tileReg n 0x10)).toNat = min (2 ^ 32 - 1) ((rd s (tileReg n 0x10)).toNat + 1) ∧ onlyTile n s u ∧
      regsBut [tileReg n 0x10, tileReg n 0x14] s u ∧ u = { s with tiles := u.tiles, regs := u.regs })) ∧
  (∀ (n : TileIx) (t : Thr) (f : MatF) (s : State), canRun s n t = true → f.amask ≠ 0 → f.opnd = 0 → f.hx = 0 → f.dp = 0 → f.s = false →
    (∀ k ∈ List.range 4, (arrOf (tileOf s n) k).queue = [] ∧ (f.amask.getLsbD k = true → (arrOf (tileOf s n) k).load = .idle)) →
    (t = 1 ∨ s.windows = []) →
    Completes (.cut n t f) s (fun u =>
      tileOf u n = setThr t (retire (threadOf s n t))
        { tileOf s n with a0 := (if f.amask.getLsbD 0 then cutArray (tileOf s n).a0 else (tileOf s n).a0), a1 := (if f.amask.getLsbD 1 then cutArray (tileOf s n).a1 else (tileOf s n).a1), a2 := (if f.amask.getLsbD 2 then cutArray (tileOf s n).a2 else (tileOf s n).a2), a3 := (if f.amask.getLsbD 3 then cutArray (tileOf s n).a3 else (tileOf s n).a3) } ∧
      onlyTile n s u ∧ (rd u (tileReg n 0x10)).toNat = min (2 ^ 32 - 1) ((rd s (tileReg n 0x10)).toNat + maskCount f.amask) ∧
      regsBut [tileReg n 0x10] s u ∧ u = { s with tiles := u.tiles, regs := u.regs })) ∧
  (∀ (n : TileIx) (t : Thr) (f : MatF) (k : Nat) (s : State), canRun s n t = true → k < 4 → f.amask.getLsbD k = true → f.opnd = 0 → f.hx = 0 →
    f.dp = 0 → f.s = false → (arrOf (tileOf s n) k).load ≠ .idle ∨ opsOf t (arrOf (tileOf s n) k) ≠ [] →
    exec (.cut n t f) s = .next (setThread n t { threadOf s n t with run := .waiting (.cut f.amask) } s))

/-- An INT8 pass leaves in each accumulator of its row the dot product of weights and inputs; read-out stores it and MCLR
clears it. MPASS of an array open to its thread completes for every context with enabled cells whose inputs lie in the
local store: the active context of the named array takes the wavefronts of the mode, through the cells that its mask
entry enables, and nothing else of the tile changes; a context without an enabled cell, or idle, changes no
accumulator and counts in EMPTY_PASS. An operation of C1 on a PHY context is held at the array and its thread goes on;
a CUT of the array counts the cycles held and starts it. For one wavefront in mode NORMAL and format INT8 without
exact accumulation, column j of the row named holds the sum over the 64 inputs of weight times input, added to what it
held under ACCUMULATE, modulo 2^32. MREAD stores the rows at the head and no other byte; MCLR clears exactly the rows
named. -/
def Obligations.MatrixPassResults : Prop :=
  (∀ (n : TileIx) (t : Thr) (f : MatF) (k : Nat) (s : State), canRun s n t = true → oneArray f.amask = some k →
    f.opnd.toNat % 32 = 0 → f.s = false → opsOf t (arrOf (tileOf s n) k) = [] → suHeld t (activeCtx (arrOf (tileOf s n) k)) = false →
    emptyPass (activeCtx (arrOf (tileOf s n) k)) (maskEntry s (threadOf s n t).image (threadOf s n t).role (ctxMaskIx (activeCtx (arrOf (tileOf s n) k)))) = false →
    passCheck s n (waveBytes (ctxMode (activeCtx (arrOf (tileOf s n) k)))) (getH (threadOf s n t) f.hx).toNat
      (getS (threadOf s n t) f.hx).toInt (f.opnd.toNat / 64 + 1) = none →
    TileRuns (.mpass n t f) n f.lost (setThr t (retire (threadOf s n t)) (setArr k
      (setActive (passWaves s n (ctxExact s (activeCtx (arrOf (tileOf s n) k))) (f.opnd.getLsbD 5)
        (fun i j => if ctxMode (activeCtx (arrOf (tileOf s n) k)) = 2 then
          cellOn (maskEntry s (threadOf s n t).image (threadOf s n t).role (ctxMaskIx (activeCtx (arrOf (tileOf s n) k)))) i j else true)
        (getH (threadOf s n t) f.hx).toNat (getS (threadOf s n t) f.hx).toInt ((getD (threadOf s n t) f.dp).toNat % 256)
        (f.opnd.toNat / 64 + 1) (activeCtx (arrOf (tileOf s n) k))) (arrOf (tileOf s n) k)) (tileOf s n))) s) ∧
  (∀ (n : TileIx) (t : Thr) (f : MatF) (k : Nat) (s : State), canRun s n t = true → oneArray f.amask = some k →
    f.opnd.toNat % 32 = 0 → f.s = false → opsOf t (arrOf (tileOf s n) k) = [] → suHeld t (activeCtx (arrOf (tileOf s n) k)) = false →
    ctxMode (activeCtx (arrOf (tileOf s n) k)) = 3 →
    Completes (.mpass n t f) s (fun u =>
      tileOf u n = setThr t (retire (threadOf s n t)) (tileOf s n) ∧ onlyTile n s u ∧
      (rd u (tileReg n 0x24)).toNat = min (2 ^ 32 - 1) ((rd s (tileReg n 0x24)).toNat + (f.opnd.toNat / 64 + 1)) ∧
      rdb u (tileReg n 8) 2 = true ∧ regsBut [tileReg n 8, tileReg n 0x1C, tileReg n 0x24] s u ∧ u.mem = s.mem)) ∧
  (∀ (n : TileIx) (f : MatF) (k : Nat) (s : State), canRun s n 1 = true → oneArray f.amask = some k →
    f.opnd = 0 → f.hx = 0 → f.s = false → (activeCtx (arrOf (tileOf s n) k)).phy = true → (opsOf 1 (arrOf (tileOf s n) k)).length < 8 →
    field (getD (threadOf s n 1) f.dp) 24 21 ≤ 9 →
    passCheck s n (waveBytes (ctxMode (activeCtx (arrOf (tileOf s n) k)))) (getH (threadOf s n 1) f.hx).toNat (getS (threadOf s n 1) f.hx).toInt 1 = none →
    addrCheck (getH (threadOf s n 1) f.hx).toNat
      (32 * readBytes (field (getD (threadOf s n 1) f.dp) 24 21) * (field (getD (threadOf s n 1) f.dp) 15 8 + 1)) 64 = none →
    TileRuns (.mpass n 1 f) n 0 (setThr 1 (retire (threadOf s n 1)) (setArr k
      { arrOf (tileOf s n) k with queue := (arrOf (tileOf s n) k).queue ++ [⟨1, (threadOf s n 1).pc, .pass (getH (threadOf s n 1) f.hx).toNat
          (getS (threadOf s n 1) f.hx).toInt ((getD (threadOf s n 1) f.dp).toNat % 256) 1 false (threadOf s n 1).image (threadOf s n 1).role⟩] } (tileOf s n))) s ∧
    TileRuns (.mread n 1 f) n 0 (setThr 1 (retire (threadOf s n 1)) (setArr k
      { arrOf (tileOf s n) k with queue := (arrOf (tileOf s n) k).queue ++ [⟨1, (threadOf s n 1).pc, .read (getH (threadOf s n 1) f.hx).toNat
          (getD (threadOf s n 1) f.dp) false⟩] } (tileOf s n))) s ∧
    TileRuns (.mclr n 1 f) n 0 (setThr 1 (retire (threadOf s n 1)) (setArr k
      { arrOf (tileOf s n) k with queue := (arrOf (tileOf s n) k).queue ++ [⟨1, (threadOf s n 1).pc, .clear (getD (threadOf s n 1) f.dp)⟩] } (tileOf s n))) s) ∧
  (∀ (n : TileIx) (f : MatF) (k : Nat) (p : Word) (pc : BitVec 15) (s : State), canRun s n 0 = true → oneArray f.amask = some k → f.opnd = 0 →
    f.hx = 0 → f.dp = 0 → f.s = false → (activeCtx (arrOf (tileOf s n) k)).phy = true → (shadowCtx (arrOf (tileOf s n) k)).phy = false →
    (arrOf (tileOf s n) k).load = .idle → (arrOf (tileOf s n) k).queue = [⟨1, pc, .clear p⟩] → s.windows = [] →
    Completes (.cut n 0 f) s (fun u =>
      (arrOf (tileOf u n) k).queue = [] ∧ (arrOf (tileOf u n) k).active = !(arrOf (tileOf s n) k).active ∧
      (rd u (tileReg n 0x54)).toNat = min (2 ^ 32 - 1) ((rd s (tileReg n 0x54)).toNat + f.lost) ∧ onlyTile n s u ∧
      regsBut [tileReg n 0x10, tileReg n 0x54] s u ∧ u = { s with tiles := u.tiles, regs := u.regs })) ∧
  (∀ (c : Ctx) (acc : Bool) (row j : Nat) (inp : List Byte), ctxMode c = 0 → ctxFmt c = 0 → row < 256 → j < 32 →
    tabGet (fun _ => (0 : Word)) (wavefront false acc row inp (fun _ _ => true) c).acc (32 * row + j) =
      BitVec.ofInt 32 ((List.range 64).foldl (fun v e => v +
          signedOf 8 (tabGet (fun _ => (0 : Byte)) c.weights (64 * (e / 2) + 2 * j + e % 2)).toNat * signedOf 8 (leAt inp e 1))
        (if acc then (tabGet (fun _ => (0 : Word)) c.acc (32 * row + j)).toInt else 0))) ∧
  (∀ (n : TileIx) (t : Thr) (f : MatF) (k : Nat) (s : State), canRun s n t = true → oneArray f.amask = some k → f.opnd = 0 →
    opsOf t (arrOf (tileOf s n) k) = [] → suHeld t (activeCtx (arrOf (tileOf s n) k)) = false → field (getD (threadOf s n t) f.dp) 24 21 ≤ 9 →
    addrCheck (getH (threadOf s n t) f.hx).toNat
      (32 * readBytes (field (getD (threadOf s n t) f.dp) 24 21) * (field (getD (threadOf s n t) f.dp) 15 8 + 1)) 64 = none →
    Completes (.mread n t f) s (fun u =>
      tileOf u n = setThr t (retire (threadOf s n t)) (tileOf s n) ∧ onlyTile n s u ∧
      u = { bankStall n f.lost s with tiles := u.tiles, mem := u.mem, free := u.free } ∧
      memBut (lsAddr n + (getH (threadOf s n t) f.hx).toNat)
        (32 * readBytes (field (getD (threadOf s n t) f.dp) 24 21) * (field (getD (threadOf s n t) f.dp) 15 8 + 1)) s u ∧
      (s.mem.wc = [] → field (getD (threadOf s n t) f.dp) 24 21 = 0 → field (getD (threadOf s n t) f.dp) 20 16 = 0 →
        ctxFloat (activeCtx (arrOf (tileOf s n) k)) = false → ctxExact s (activeCtx (arrOf (tileOf s n) k)) = false →
        memRead u (lsAddr n + (getH (threadOf s n t) f.hx).toNat) 4 =
          leBytes 4 (tabGet (fun _ => (0 : Word)) (activeCtx (arrOf (tileOf s n) k)).acc (32 * (field (getD (threadOf s n t) f.dp) 7 0))).toNat))) ∧
  (∀ (n : TileIx) (t : Thr) (f : MatF) (k : Nat) (s : State), canRun s n t = true → oneArray f.amask = some k → f.opnd = 0 → f.hx = 0 →
    f.s = false → opsOf t (arrOf (tileOf s n) k) = [] → suHeld t (activeCtx (arrOf (tileOf s n) k)) = false → ctxExact s (activeCtx (arrOf (tileOf s n) k)) = false →
    Completes (.mclr n t f) s (fun u =>
      (∀ r ∈ List.range 256, ∀ j ∈ List.range 32,
        tabGet (fun _ => (0 : Word)) (activeCtx (arrOf (tileOf u n) k)).acc (32 * r + j) =
          if (List.range (field (getD (threadOf s n t) f.dp) 15 8 + 1)).any (fun i => decide ((field (getD (threadOf s n t) f.dp) 7 0 + i) % 256 = r))
          then 0 else tabGet (fun _ => (0 : Word)) (activeCtx (arrOf (tileOf s n) k)).acc (32 * r + j)) ∧
      threadOf u n t = retire (threadOf s n t) ∧ onlyTile n s u ∧ u = { bankStall n f.lost s with tiles := u.tiles }))

/-- Lane-wise vector operations: each enabled lane takes its result, a masked lane keeps its value. On a thread that
executes and with registers that it may use, VADD, VMUL, VFMA, VMIN and VMAX write each lane of VD that the mask
enables with the operation of its elements (halves for packed types) and leave the others; VCMP writes the mask whose
bit i is the condition on lane i; VSEL takes VA where the mask bit is 1, else VB. Only the destination register and
the thread's next instruction change. -/
def Obligations.VectorLaneResults : Prop :=
  (∀ (n : TileIx) (t : Thr) (f : VecF) (s : State), canRun s n t = true → VecOk t f = true →
    VecRuns (.vadd n t f) n t f (fun a b _ => elemAdd f.typ.toNat f.s a b) s ∧
    VecRuns (.vmul n t f) n t f (fun a b _ => elemMul f.typ.toNat f.s a b) s ∧
    VecRuns (.vfma n t f) n t f (fun a b c => elemFma f.typ.toNat f.s a b c) s ∧
    VecRuns (.vmin n t f) n t f (fun a b _ => elemMinMax f.typ.toNat false a b) s ∧
    VecRuns (.vmax n t f) n t f (fun a b _ => elemMinMax f.typ.toNat true a b) s) ∧
  (∀ (a b : Nat), a < 2 ^ 32 → b < 2 ^ 32 →
    elemAdd 1 false a b = (a + b) % 2 ^ 32 ∧ elemMul 1 false a b = a * b % 2 ^ 32 ∧
    elemMinMax 1 false a b = (if signedOf 32 b ≤ signedOf 32 a then b else a) ∧
    elemMinMax 1 true a b = (if signedOf 32 a < signedOf 32 b then b else a)) ∧
  (∀ (n : TileIx) (t : Thr) (f : VecF) (s : State), canRun s n t = true → f.typ.toNat ≤ 4 → f.vd.val < 8 → f.men = false → f.s = false → f.msk.val ≤ 5 →
    c1Reg t f.va = true → c1Reg t f.vb = true → (t = 0 ∨ 4 ≤ f.vd.val) →
    Completes (.vcmp n t f) s (fun u =>
      (∀ i ∈ List.range 64, (getM (tileOf u n) f.vd).getLsbD i =
        laneCond f.typ.toNat f.msk (lane (getV (tileOf s n) f.va) i) (lane (getV (tileOf s n) f.vb) i)) ∧
      tileOf u n = setThr t (retire (threadOf s n t)) { tileOf s n with m := (tileOf u n).m } ∧
      (∀ k ∈ List.range 8, k ≠ f.vd.val → getM (tileOf u n) k = getM (tileOf s n) k) ∧ onlyTile n s u ∧ u = { s with tiles := u.tiles })) ∧
  (∀ (n : TileIx) (t : Thr) (f : VecF) (s : State), canRun s n t = true → f.typ.toNat ≤ 4 → f.men = false → f.s = false → c1Reg t f.vd = true →
    c1Reg t f.va = true → c1Reg t f.vb = true → (t = 0 ∨ 4 ≤ f.msk.val) →
    Completes (.vsel n t f) s (fun u =>
      (∀ i ∈ List.range 64, lane (getV (tileOf u n) f.vd) i =
        if (getM (tileOf s n) f.msk).getLsbD i then lane (getV (tileOf s n) f.va) i else lane (getV (tileOf s n) f.vb) i) ∧
      tileOf u n = setThr t (retire (threadOf s n t)) { tileOf s n with v := (tileOf u n).v } ∧
      (∀ k ∈ List.range 32, k ≠ f.vd.val → getV (tileOf u n) k = getV (tileOf s n) k) ∧ onlyTile n s u ∧ u = { s with tiles := u.tiles }))

/-- Vector loads, stores, gathers and scatters move 64 elements, converted, and touch no other byte. On a thread that
executes and may use the registers, with every element inside the local store (and, for a load, not poisoned): VLD and
VGTH write each lane with the element at its address, converted; VST and VSCT store each lane converted, VST 64
elements in a row, and leave every byte outside the elements as it was; a scatter's lane 63 is stored last. The thread
moves on, the cycles lost to bank conflicts count, and nothing else changes. -/
def Obligations.VectorMemoryResults : Prop :=
  (∀ (n : TileIx) (t : Thr) (f : VecF) (s : State), canRun s n t = true → f.typ.toNat ≤ 6 → f.s = false → f.men = false → f.msk = 0 → f.va = 0 →
    f.vb.val < 8 → c1Reg t f.vd = true →
    loadCheck s n (getH (threadOf s n t) f.vb).toNat (64 * vmemBytes f.typ.toNat) 1 = none →
    Completes (.vld n t f) s (fun u =>
      (∀ i ∈ List.range 64, lane (getV (tileOf u n) f.vd) i = vmemLoad f.typ.toNat
        (leNat (memRead s (lsAddr n + (getH (threadOf s n t) f.vb).toNat + i * vmemBytes f.typ.toNat) (vmemBytes f.typ.toNat)))) ∧
      tileOf u n = setThr t (retire (threadOf s n t)) { tileOf s n with v := (tileOf u n).v } ∧
      (∀ k ∈ List.range 32, k ≠ f.vd.val → getV (tileOf u n) k = getV (tileOf s n) k) ∧ onlyTile n s u ∧ u = { bankStall n f.lost s with tiles := u.tiles })) ∧
  (∀ (n : TileIx) (t : Thr) (f : VecF) (s : State), canRun s n t = true → f.typ.toNat ≤ 6 → f.men = false → f.msk = 0 → f.va = 0 →
    f.vb.val < 8 → c1Reg t f.vd = true →
    addrCheck (getH (threadOf s n t) f.vb).toNat (64 * vmemBytes f.typ.toNat) 1 = none →
    Completes (.vst n t f) s (fun u =>
      (s.mem.wc = [] → ∀ i ∈ List.range 64,
        leNat (memRead u (lsAddr n + (getH (threadOf s n t) f.vb).toNat + i * vmemBytes f.typ.toNat) (vmemBytes f.typ.toNat)) =
          vmemStore f.typ.toNat f.s (lane (getV (tileOf s n) f.vd) i) % 2 ^ (8 * vmemBytes f.typ.toNat)) ∧
      memBut (lsAddr n + (getH (threadOf s n t) f.vb).toNat) (64 * vmemBytes f.typ.toNat) s u ∧
      tileOf u n = setThr t (retire (threadOf s n t)) (tileOf s n) ∧ onlyTile n s u ∧ u = { bankStall n f.lost s with tiles := u.tiles, mem := u.mem })) ∧
  (∀ (n : TileIx) (t : Thr) (f : VecF) (s : State), canRun s n t = true → f.typ.toNat ≤ 6 → f.s = false → f.men = false → f.msk = 0 →
    f.vb.val < 8 → c1Reg t f.vd = true → c1Reg t f.va = true →
    (∀ i ∈ List.range 64, loadCheck s n (getH (threadOf s n t) f.vb + lane (getV (tileOf s n) f.va) i).toNat (vmemBytes f.typ.toNat) 1 = none) →
    Completes (.vgth n t f) s (fun u =>
      (∀ i ∈ List.range 64, lane (getV (tileOf u n) f.vd) i = vmemLoad f.typ.toNat
        (leNat (memRead s (lsAddr n + (getH (threadOf s n t) f.vb + lane (getV (tileOf s n) f.va) i).toNat) (vmemBytes f.typ.toNat)))) ∧
      tileOf u n = setThr t (retire (threadOf s n t)) { tileOf s n with v := (tileOf u n).v } ∧ onlyTile n s u ∧
      u = { bankStall n f.lost s with tiles := u.tiles })) ∧
  (∀ (n : TileIx) (t : Thr) (f : VecF) (s : State), canRun s n t = true → f.typ.toNat ≤ 6 → f.s = false → f.men = false → f.msk = 0 →
    f.vb.val < 8 → c1Reg t f.vd = true → c1Reg t f.va = true →
    (∀ i ∈ List.range 64, addrCheck (getH (threadOf s n t) f.vb + lane (getV (tileOf s n) f.va) i).toNat (vmemBytes f.typ.toNat) 1 = none) →
    Completes (.vsct n t f) s (fun u =>
      (s.mem.wc = [] →
        leNat (memRead u (lsAddr n + (getH (threadOf s n t) f.vb + lane (getV (tileOf s n) f.va) 63).toNat) (vmemBytes f.typ.toNat)) =
          vmemStore f.typ.toNat false (lane (getV (tileOf s n) f.vd) 63) % 2 ^ (8 * vmemBytes f.typ.toNat)) ∧
      memButs ((List.range 64).map fun i => lsAddr n + (getH (threadOf s n t) f.vb + lane (getV (tileOf s n) f.va) i).toNat)
        (vmemBytes f.typ.toNat) s u ∧
      tileOf u n = setThr t (retire (threadOf s n t)) (tileOf s n) ∧ onlyTile n s u ∧ u = { bankStall n f.lost s with tiles := u.tiles, mem := u.mem }))

/-- The lane-end tree sums 64 lanes, the reduction unit takes a vector lane by lane, and its read-out stores the lanes. On
a thread that executes, VTREE SUM of INT32 lanes to a data register gives the sum of the 64 lanes modulo 2^32, or
clamped under S. RUFEED of C0 from a vector register or the local store: a SUM of INT32 adds each lane to the unit's,
the first vector of a MIN or MAX is taken as it stands and the next ones lane by lane, the unit is busy, its ordinal
counts, and ARGMIN keeps the lower ordinal on a tie. RUREAD stores the 64 lanes at the head, an ARG form with the 64
indices behind, clears the unit where asked, and touches no other byte. -/
def Obligations.TreeAndReductionUnit : Prop :=
  (∀ (n : TileIx) (t : Thr) (f : VecF) (s : State), canRun s n t = true → f.typ = 1 → f.msk = 0 → f.men = false → c1Reg t f.va = true →
    f.vd.val < 16 → f.vb = 0 →
    CoreRuns (.vtree n t f) n t (retire (setD f.vd
      (satWord f.s ((List.range 64).foldl (fun v i => v + (lane (getV (tileOf s n) f.va) i).toInt) 0)) (threadOf s n t))) s) ∧
  (∀ (n : TileIx) (f : VecF) (raw : Bool) (s : State), canRun s n 0 = true → f.typ = 1 → f.msk.val ≤ 4 → f.vd = 0 → f.men = false → f.s = false →
    (f.vb = 0 ∨ (16 ≤ f.vb.val ∧ f.vb.val < 24 ∧ f.va = 0 ∧ loadCheck s n (getH (threadOf s n 0) (f.vb.val % 8)).toNat 256 1 = none)) →
    ¬ (3 ≤ f.msk.val ∧ (tileOf s n).ru.count = 0xFFFFFFFE) →
    Completes (.rufeed n 0 { f with partials := raw }) s (fun u =>
      (tileOf u n).ru.busy = true ∧ (tileOf u n).ru.op = f.msk.val ∧ (tileOf u n).ru.typ = 1 ∧
      (tileOf u n).ru.count = (if (tileOf s n).ru.count = 0xFFFFFFFF then 0xFFFFFFFF else (tileOf s n).ru.count + 1) ∧
      (∀ i ∈ List.range 64,
        let old := tabGet (fun _ => (0 : Word)) (tileOf s n).ru.val i;
        let new := if 16 ≤ f.vb.val then BitVec.ofNat 32 (leNat (memRead s (lsAddr n + ((getH (threadOf s n 0) (f.vb.val % 8)).toNat + 4 * i)) 4))
          else lane (getV (tileOf s n) f.va) i;
        tabGet (fun _ => (0 : Word)) (tileOf u n).ru.val i =
          (if f.msk = 0 then old + new
          else if (tileOf s n).ru.busy = false then new
          else if f.msk = 1 ∨ f.msk = 3 then (if new.toInt < old.toInt then new else old)
          else (if old.toInt < new.toInt then new else old))) ∧
      tileOf u n = setThr 0 (retire (threadOf s n 0)) { tileOf s n with ru := (tileOf u n).ru } ∧ onlyTile n s u ∧
      u = { bankStall n (if 16 ≤ f.vb.val then f.lost else 0) s with tiles := u.tiles })) ∧
  (∀ (n : TileIx) (f : VecF) (s : State), canRun s n 0 = true → f.typ = 1 → f.msk = 0 → f.vd.val ≤ 1 → f.men = false → f.va = 0 → f.vb.val < 8 →
    (tileOf s n).ru.typ = 1 → (tileOf s n).ru.exact = false →
    addrCheck (getH (threadOf s n 0) f.vb).toNat (if 3 ≤ (tileOf s n).ru.op then 512 else 256) 1 = none →
    Completes (.ruread n 0 f) s (fun u =>
      (s.mem.wc = [] → ∀ i ∈ List.range 64,
        memRead u (lsAddr n + (getH (threadOf s n 0) f.vb).toNat + 4 * i) 4 = leBytes 4 (tabGet (fun _ => (0 : Word)) (tileOf s n).ru.val i).toNat ∧
        (3 ≤ (tileOf s n).ru.op → memRead u (lsAddr n + (getH (threadOf s n 0) f.vb).toNat + 256 + 4 * i) 4 =
          leBytes 4 (tabGet (fun _ => (0 : Word)) (tileOf s n).ru.idx i).toNat)) ∧
      memBut (lsAddr n + (getH (threadOf s n 0) f.vb).toNat) (if 3 ≤ (tileOf s n).ru.op then 512 else 256) s u ∧
      (tileOf u n).ru = (if f.vd = 1 then {} else (tileOf s n).ru) ∧
      tileOf u n = setThr 0 (retire (threadOf s n 0)) { tileOf s n with ru := (tileOf u n).ru } ∧ onlyTile n s u ∧
      u = { bankStall n f.lost s with tiles := u.tiles, mem := u.mem, free := u.free }))

/-- NOP, HALT, SYNC, MFS and MTS on a thread that executes, and what the end of a halt or a wait does. NOP moves on. HALT
moves on and halts; once nothing of the thread is outstanding it is stopped, and a step of a chain that is not the
LAST is done, with the instant and what its code staged kept, while its chain goes on. SYNC moves on where the units
named hold no operation of the thread, else it waits, and moves on once they hold none. MFS writes D with the special
register named (FLAGS, AMODE, LCNT, the stack depths, EPOCH, CYCLE, TNOW_NS, TNOW_SEC, THREAD) and a read of TNOW_NS
latches the seconds; MTS writes FLAGS or AMODE; up to three instructions behind it still use the old AMODE, how many
is free (the model's choice, log 11). No other thread, tile, register or byte of memory changes. -/
def Obligations.ThreadInstructions : Prop :=
  (∀ (n : TileIx) (t : Thr) (s : State), canRun s n t = true → CoreRuns (.ccNop n t) n t (retire (threadOf s n t)) s) ∧
  (∀ (n : TileIx) (t : Thr) (s : State), canRun s n t = true →
    CoreRuns (.halt n t) n t { retire (threadOf s n t) with run := .halting } s) ∧
  (∀ (n : TileIx) (t : Thr) (res : ChainResult) (s : State), (threadOf s n t).run = .halting → syncDone s n t 0xFF = true →
    phyCode (threadOf s n t) = false → CoreRuns (.threadHalted n t res) n t { threadOf s n t with run := .stopped } s) ∧
  (∀ (n : TileIx) (t : Thr) (res : ChainResult) (r : DRef) (ix : Nat) (c : Chain) (x : StepRun) (s : State),
    (threadOf s n t).run = .halting → syncDone s n t 0xFF = true → (threadOf s n t).owner = .chain r ix → chainOf s r = some c →
    (c.steps.find? fun x => decide (x.ix = ix)) = some x → x.ent.last = false → res.blocks = [] → res.prach = [] →
    Completes (.threadHalted n t res) s (fun u =>
      chainOf u r = some { haltNow ix (nowUnits s) (setStep c ix .done) with got := ((chainOf u r).getD c).got } ∧
      ((chainOf u r).getD c).got.staged = (c.got.staged ++ res.staged).eraseDups ∧
      threadOf u n t = { threadOf s n t with run := .stopped } ∧
      onlyThread n t { s with chains := u.chains, windows := u.windows, regs := u.regs } u ∧ regsBut [0x30034] s u)) ∧
  (∀ (n : TileIx) (t : Thr) (units : Byte) (s : State), canRun s n t = true → syncDone s n t units = true →
    CoreRuns (.sync n t units) n t (retire (threadOf s n t)) s) ∧
  (∀ (n : TileIx) (t : Thr) (units : Byte) (s : State), canRun s n t = true → syncDone s n t units = false →
    CoreRuns (.sync n t units) n t { threadOf s n t with run := .waiting (.sync units) } s) ∧
  (∀ (n : TileIx) (t : Thr) (units : Byte) (s : State), (threadOf s n t).run = .waiting (.sync units) → syncDone s n t units = true →
    CoreRuns (.syncComplete n t) n t (retire { threadOf s n t with run := .running }) s) ∧
  (∀ (n : TileIx) (t : Thr) (f : SysF) (cycles : Nat) (s : State), canRun s n t = true → f.opnd.toNat ≤ 9 → f.hx = 0 →
    CoreRuns (.mfs n t { f with cycles }) n t (retire (setD f.d
      (if f.opnd = 0 then ((threadOf s n t).flags.setWidth 32)
       else if f.opnd = 1 then ((threadOf s n t).amode.setWidth 32)
       else if f.opnd = 2 then BitVec.ofNat 32 (((threadOf s n t).loops.head?.map LoopLevel.count).getD 0)
       else if f.opnd = 3 then BitVec.ofNat 32 (threadOf s n t).loops.length
       else if f.opnd = 4 then BitVec.ofNat 32 (threadOf s n t).calls.length
       else if f.opnd = 5 then ((threadOf s n t).epoch.setWidth 32)
       else if f.opnd = 6 then (threadOf s n t).cycle + BitVec.ofNat 32 cycles
       else if f.opnd = 7 then (mainCounter s).ns
       else if f.opnd = 8 then (threadOf s n t).tnowSec
       else BitVec.ofNat 32 t.val)
      (if f.opnd = 7 then { threadOf s n t with tnowSec := (mainCounter s).sec.setWidth 32 }
       else if f.opnd = 6 then { threadOf s n t with cycle := (threadOf s n t).cycle + BitVec.ofNat 32 cycles } else threadOf s n t))) s) ∧
  (∀ (n : TileIx) (t : Thr) (f : SysF) (s : State), canRun s n t = true → f.hx = 0 → f.opnd = 0 →
    CoreRuns (.mts n t f) n t (retire { threadOf s n t with flags := (getD (threadOf s n t) f.d).setWidth 4 }) s) ∧
  (∀ (n : TileIx) (t : Thr) (f : SysF) (s : State), canRun s n t = true → f.hx = 0 → f.opnd = 1 →
    Completes (.mts n t f) s (fun u =>
      (threadOf u n t).amodeLate ≤ 3 ∧
      threadOf u n t = { retire (threadOf s n t) with amode := (getD (threadOf s n t) f.d).setWidth 8, amodeWas := amodeNow (threadOf s n t), amodeLate := (threadOf u n t).amodeLate } ∧
      onlyThread n t { s with free := u.free } u))

/-- RPUSH and RPOP move handles first in first out; a full or empty reel makes the thread wait; a tile outside the sets is
rejected. On a thread that executes: RPUSH by a producer whose turn it is (space in the reel, and no lower tile
waiting to push) appends the low half of D and moves on; else it waits, and its handle enters when its turn comes.
RPOP by a consumer whose turn it is takes the oldest handle to D, zero-extended; on an empty reel, or behind a lower
tile that waits to pop, it waits, and takes a handle when its turn comes. No other reel, thread, register or byte
changes. A push or pop by a tile outside the reel's set leaves the reel, counts, sets the event and is reported as an
uncorrectable event; the popping thread waits. -/
def Obligations.ReelInstructions : Prop :=
  (∀ (n : TileIx) (t : Thr) (f : SysF) (s : State), canRun s n t = true → f.opnd.toNat < 1024 → f.hx = 0 →
    (reelOf s f.opnd.toNat).prod.getLsbD n = true → pushTurn s f.opnd.toNat n = true →
    Completes (.rpush n t f) s (fun u =>
      reelOf u f.opnd.toNat = { reelOf s f.opnd.toNat with q := (reelOf s f.opnd.toNat).q ++ [handleFrom s n t ((getD (threadOf s n t) f.d).setWidth 16)] } ∧
      (∀ k ∈ List.range 1024, k ≠ f.opnd.toNat → reelOf u k = reelOf s k) ∧
      threadOf u n t = retire (threadOf s n t) ∧ onlyThread n t { s with reels := u.reels } u)) ∧
  (∀ (n : TileIx) (t : Thr) (f : SysF) (s : State), canRun s n t = true → f.opnd.toNat < 1024 → f.hx = 0 →
    (reelOf s f.opnd.toNat).prod.getLsbD n = true → pushTurn s f.opnd.toNat n = false →
    CoreRuns (.rpush n t f) n t { threadOf s n t with run := .waiting (.rpush f.opnd.toNat ((getD (threadOf s n t) f.d).setWidth 16)) } s) ∧
  (∀ (n : TileIx) (t : Thr) (f : SysF) (s : State), canRun s n t = true → f.opnd.toNat < 1024 → f.hx = 0 →
    (reelOf s f.opnd.toNat).prod.getLsbD n = false →
    Completes (.rpush n t f) s (fun u =>
      u.reels = s.reels ∧ (rd u 0x3003C).toNat = min (2 ^ 32 - 1) ((rd s 0x3003C).toNat + 1) ∧ rdb u directorEvent 4 = true ∧
      regsBut [0x3003C, directorEvent] s u ∧
      u.fault.reports = s.fault.reports ++ [⟨.tile n, false, 5, BitVec.ofNat 64 f.opnd.toNat, ownerWork s (threadOf s n t).owner⟩] ∧
      threadOf u n t = retire (threadOf s n t) ∧ u.mem = s.mem)) ∧
  (∀ (n : TileIx) (t : Thr) (r : Nat) (h : BitVec 16) (s : State), (threadOf s n t).run = .waiting (.rpush r h) →
    pushTurn s r n = true →
    Completes (.rpushResume n t) s (fun u =>
      reelOf u r = { reelOf s r with q := (reelOf s r).q ++ [handleFrom s n t h] } ∧
      threadOf u n t = retire { threadOf s n t with run := .running } ∧ onlyThread n t { s with reels := u.reels } u)) ∧
  (∀ (n : TileIx) (t : Thr) (f : SysF) (h : Handle) (q : List Handle) (s : State), canRun s n t = true → f.opnd.toNat < 1024 → f.hx = 0 →
    (reelOf s f.opnd.toNat).cons.getLsbD n = true → (reelOf s f.opnd.toNat).q = h :: q → popTurn s f.opnd.toNat n = true →
    Completes (.rpop n t f) s (fun u =>
      reelOf u f.opnd.toNat = { reelOf s f.opnd.toNat with q := q } ∧
      (∀ k ∈ List.range 1024, k ≠ f.opnd.toNat → reelOf u k = reelOf s k) ∧
      threadOf u n t = retire (setD f.d (h.h.setWidth 32) (threadOf s n t)) ∧ onlyThread n t { s with reels := u.reels } u)) ∧
  (∀ (n : TileIx) (t : Thr) (f : SysF) (s : State), canRun s n t = true → f.opnd.toNat < 1024 → f.hx = 0 →
    (reelOf s f.opnd.toNat).cons.getLsbD n = true → (reelOf s f.opnd.toNat).q = [] ∨ popTurn s f.opnd.toNat n = false →
    CoreRuns (.rpop n t f) n t { threadOf s n t with run := .waiting (.rpop f.opnd.toNat f.d) } s) ∧
  (∀ (n : TileIx) (t : Thr) (f : SysF) (s : State), canRun s n t = true → f.opnd.toNat < 1024 → f.hx = 0 →
    (reelOf s f.opnd.toNat).cons.getLsbD n = false →
    Completes (.rpop n t f) s (fun u =>
      u.reels = s.reels ∧ (rd u 0x3003C).toNat = min (2 ^ 32 - 1) ((rd s 0x3003C).toNat + 1) ∧ rdb u directorEvent 4 = true ∧
      regsBut [0x3003C, directorEvent] s u ∧
      u.fault.reports = s.fault.reports ++ [⟨.tile n, false, 5, BitVec.ofNat 64 f.opnd.toNat, ownerWork s (threadOf s n t).owner⟩] ∧
      threadOf u n t = { threadOf s n t with run := .waiting .rejected } ∧ u.mem = s.mem)) ∧
  (∀ (n : TileIx) (t : Thr) (r : Nat) (d : Fin 16) (h : Handle) (q : List Handle) (s : State),
    (threadOf s n t).run = .waiting (.rpop r d) → (reelOf s r).q = h :: q → popTurn s r n = true →
    Completes (.rpopResume n t) s (fun u =>
      reelOf u r = { reelOf s r with q := q } ∧
      threadOf u n t = setD d (h.h.setWidth 32) (retire { threadOf s n t with run := .running }) ∧
      onlyThread n t { s with reels := u.reels } u)) ∧
  (∀ (r n : Nat) (s : State),
    (pushTurn s r n = true ↔ (reelOf s r).q.length < 64 ∧
      ∀ x ∈ s.tiles, x.1 < n → thrPushes r x.2.c0 = false ∧ thrPushes r x.2.c1 = false) ∧
    (popTurn s r n = true ↔ ∀ x ∈ s.tiles, x.1 < n → (reelOf s r).cons.getLsbD x.1 = true →
      thrPops r x.2.c0 = false ∧ thrPops r x.2.c1 = false ∧ ∀ l ∈ x.2.dolly, l.atReel ≠ some r))

/-- CUEWAIT, DKICK, AADD and AMM as they issue, and an integer atomic as it is applied. CUEWAIT binds the cue word of D
and D + 1 to its nearest occurrence: a cue that lies ahead or is now makes C0 wait for it; one that has passed sets C
and moves on, and is a schedule violation of a chain. DKICK hands Dolly a new list at the head named and moves on.
AADD and AMM with a legal type and an aligned target queue one operation and move on. With 8 of the thread on their
way DKICK, AADD and AMM stall. Applying the oldest operation of a thread, an INT32 one to HBM with no combined writes,
replaces its four bytes with the wrapped sum, the minimum or the maximum of what stood there and the operand, touches
no other byte, and counts. -/
def Obligations.CueWaitsAndAtomics : Prop :=
  (∀ (n : TileIx) (f : SysF) (s : State), canRun s n 0 = true → f.opnd.toNat ≤ 1 → f.hx = 0 →
    (nowUnits s : Int) ≤ cueWordTime s (pairVal s (threadOf s n 0) f.d) (nowUnits s) →
    Completes (.cuewait n 0 f) s (fun u =>
      threadOf u n 0 = { threadOf s n 0 with run := .waiting (.cue (cueWordTime s (pairVal s (threadOf s n 0) f.d) (nowUnits s)).toNat (f.opnd.getLsbD 0)) } ∧
      onlyThread n 0 { s with free := u.free } u)) ∧
  (∀ (n : TileIx) (f : SysF) (s : State), canRun s n 0 = true → f.opnd.toNat ≤ 1 → f.hx = 0 → phyCode (threadOf s n 0) = false →
    cueWordTime s (pairVal s (threadOf s n 0) f.d) (nowUnits s) < (nowUnits s : Int) →
    Completes (.cuewait n 0 f) s (fun u =>
      threadOf u n 0 = setC true (retire (threadOf s n 0)) ∧ onlyThread n 0 { s with free := u.free } u)) ∧
  (∀ (n : TileIx) (f : SysF) (r : DRef) (step : Nat) (c : Chain) (s : State), canRun s n 0 = true → f.opnd.toNat ≤ 1 → f.hx = 0 →
    (threadOf s n 0).owner = .chain r step → chainOf s r = some c →
    cueWordTime s (pairVal s (threadOf s n 0) f.d) (nowUnits s) < (nowUnits s : Int) →
    Completes (.cuewait n 0 f) s (fun u =>
      chainOf u r = none ∧ rdb u directorEvent 0 = true ∧
      rd u 0x30040 = BitVec.ofNat 32 (c.chain % 256 + 256 * (step % 256) + 65536))) ∧
  (∀ (n : TileIx) (t : Thr) (f : SysF) (s : State), canRun s n t = true → f.d = 0 → f.opnd = 0 →
    (getH (threadOf s n t) f.hx).toNat < lsSize → ((tileOf s n).dolly.filter fun l => decide (l.thr = t)).length < 8 →
    TileRuns (.dkick n t f) n 0 (setThr t (retire (threadOf s n t))
      { tileOf s n with dolly := (tileOf s n).dolly ++ [⟨t, (getH (threadOf s n t) f.hx).toNat, 0, [], none, false, ownerClass s (threadOf s n t).owner, (threadOf s n t).owner⟩] }) s) ∧
  (∀ (n : TileIx) (t : Thr) (f : SysF) (a : Nat) (s : State), canRun s n t = true → f.opnd.toNat ≤ 3 →
    addrCheck (getH (threadOf s n t) f.hx).toNat (atomBytes f.opnd.toNat) (atomBytes f.opnd.toNat) = none →
    atomTarget s (threadOf s n t) 0 f.opnd.toNat (getH (threadOf s n t) f.hx).toNat = some a → a % atomBytes f.opnd.toNat = 0 →
    (s.mem.atomics.filter fun o => decide (o.tile = n) && decide (o.thr = t)).length < 8 →
    Completes (.aadd n t f) s (fun u =>
      u.mem = { s.mem with atomics := s.mem.atomics ++ [⟨n, t, a, 0, f.opnd.toNat, if f.opnd = 3 then pairVal s (threadOf s n t) f.d else (getD (threadOf s n t) f.d).setWidth 64⟩] } ∧
      threadOf u n t = retire (threadOf s n t) ∧ onlyThread n t { s with mem := u.mem, free := u.free } u)) ∧
  (∀ (n : TileIx) (t : Thr) (f : SysF) (a : Nat) (s : State), canRun s n t = true → f.opnd.toNat < 16 → 2 ≤ f.opnd.toNat % 8 →
    f.opnd.toNat % 8 ≤ 3 →
    addrCheck (getH (threadOf s n t) f.hx).toNat (atomBytes (f.opnd.toNat % 8)) (atomBytes (f.opnd.toNat % 8)) = none →
    atomTarget s (threadOf s n t) (if f.opnd.getLsbD 3 then 2 else 1) (f.opnd.toNat % 8) (getH (threadOf s n t) f.hx).toNat = some a → a % atomBytes (f.opnd.toNat % 8) = 0 →
    (s.mem.atomics.filter fun o => decide (o.tile = n) && decide (o.thr = t)).length < 8 →
    Completes (.amm n t f) s (fun u =>
      u.mem = { s.mem with atomics := s.mem.atomics ++ [⟨n, t, a, if f.opnd.getLsbD 3 then 2 else 1, f.opnd.toNat % 8, if f.opnd.toNat % 8 = 3 then pairVal s (threadOf s n t) f.d else (getD (threadOf s n t) f.d).setWidth 64⟩] } ∧
      threadOf u n t = retire (threadOf s n t) ∧ onlyThread n t { s with mem := u.mem, free := u.free } u)) ∧
  (∀ (n : TileIx) (t : Thr) (f : SysF) (s : State), canRun s n t = true → f.d = 0 → f.opnd = 0 →
    8 ≤ ((tileOf s n).dolly.filter fun l => decide (l.thr = t)).length →
    8 ≤ (s.mem.atomics.filter fun o => decide (o.tile = n) && decide (o.thr = t)).length →
    exec (.dkick n t f) s = .next s ∧ exec (.aadd n t f) s = .next s ∧ exec (.amm n t f) s = .next s) ∧
  (∀ (n : TileIx) (t : Thr) (o : AtomOp) (s : State),
    (s.mem.atomics.find? fun a => decide (a.tile = n) && decide (a.thr = t)) = some o → o.typ = 2 → o.op ≤ 2 → o.addr + 4 ≤ hbmSize →
    s.mem.wc = [] → accessHeld s o.addr = false →
    Completes (.atomicApply n t) s (fun u =>
      memRead u o.addr 4 = leBytes 4 ((BitVec.ofInt 32
        (if o.op = 0 then signedOf 32 (leNat (memRead s o.addr 4)) + signedOf 32 o.val.toNat
         else if o.op = 1 then min (signedOf 32 (leNat (memRead s o.addr 4))) (signedOf 32 o.val.toNat)
         else max (signedOf 32 (leNat (memRead s o.addr 4))) (signedOf 32 o.val.toNat))).toNat) ∧
      memBut o.addr 4 s u ∧ u.mem.atomics = s.mem.atomics.erase o ∧
      (rd u (hbmReg (hbmPlace s o.addr).1 0x30)).toNat = min (2 ^ 32 - 1) ((rd s (hbmReg (hbmPlace s o.addr).1 0x30)).toNat + 1) ∧
      regsBut [hbmReg (hbmPlace s o.addr).1 0x30] s u ∧ u = { s with mem := u.mem, regs := u.regs }))

/-- A list's descriptor starts with its transfers cut and bounded by 256 outstanding, or stops its list with a cause. On a
tile that is in service, the next descriptor of a thread's list that passes its checks starts: the list moves on, ends
with LAST, and the transfers outstanding on the tile never pass 256. One that waits at its source reel starts when it
is the tile's turn at a handle, taken from the reel's head and naming the address by the buffer table of the image
that owns the reel. A descriptor that breaks a rule starts nothing: its list ends, DOLLY_ERR holds cause and position
and STATUS tells it. The transfer whose turn it is, when acknowledged, is out of the list and writes no byte but its
destination's; the cycles lost to bank conflicts count. A descriptor whose transfers are all done leaves the list, and
its PUSH enters the reel of a producer. No other tile but for what its own lists may now issue, and no other register,
changes. -/
def Obligations.DollyListSteps : Prop :=
  (∀ (n : TileIx) (t : Thr) (l : DollyList) (s : State), listOf (tileOf s n) t = some l → l.ended = false → l.atReel = none →
    fenced s n = false → ddOffset l + 32 ≤ lsSize →
    (ddFence (memRead s (lsAddr n + ddOffset l) 32) = false ∨ l.jobs = []) →
    ddCheck s (memRead s (lsAddr n + ddOffset l) 32) = 0 → ddSrcReel (memRead s (lsAddr n + ddOffset l) 32) = false →
    outstandingOf (fun _ => true) (tileOf s n) ≤ 256 →
    Completes (.dollyDescriptorStart n t) s (fun u =>
      outstandingOf (fun _ => true) (tileOf u n) ≤ 256 ∧ outstandingOf (fun _ => true) (tileOf u n) ≤ (rd u (tileReg n 0x68)).toNat ∧
      (listOf (tileOf u n) t).map (fun k => (k.pos, k.ended, k.jobs.length)) =
        some (l.pos + 1, ddLast (memRead s (lsAddr n + ddOffset l) 32), l.jobs.length + 1) ∧
      ((listOf (tileOf u n) t).bind fun k => (k.jobs[l.jobs.length]?).map fun j => j.outstanding ++ j.todo) =
        some (ddJob s (memRead s (lsAddr n + ddOffset l) 32) (ddSrc (memRead s (lsAddr n + ddOffset l) 32)) (ddOffset l)).todo ∧
      regsBut peakRegs s u ∧ memKept s u ∧ onlyDolly n s u ∧
      tileOf u n = { tileOf s n with dolly := (tileOf u n).dolly } ∧
      u = { s with tiles := u.tiles, regs := u.regs, mem := u.mem, rounds := u.rounds })) ∧
  (∀ (n : TileIx) (t : Thr) (l : DollyList) (s : State), listOf (tileOf s n) t = some l → l.ended = false → l.atReel = none →
    fenced s n = false → ddOffset l + 32 ≤ lsSize →
    (ddFence (memRead s (lsAddr n + ddOffset l) 32) = false ∨ l.jobs = []) →
    ddCheck s (memRead s (lsAddr n + ddOffset l) 32) ≠ 0 →
    Completes (.dollyDescriptorStart n t) s (fun u =>
      (rd u (tileReg n 0x64)).toNat = ddCheck s (memRead s (lsAddr n + ddOffset l) 32) + 65536 * (l.pos % 65536) ∧
      rdb u (tileReg n 0x60) 16 = true ∧ regsBut (tileReg n 0x60 :: tileReg n 0x64 :: peakRegs) s u ∧ memKept s u ∧
      u.fault.reports = s.fault.reports ++
        [⟨.tile n, false, 4, BitVec.ofNat 64 (ddCheck s (memRead s (lsAddr n + ddOffset l) 32) + 65536 * (l.pos % 65536)), ownerWork s l.owner⟩])) ∧
  (∀ (n : TileIx) (t : Thr) (l : DollyList) (s : State), listOf (tileOf s n) t = some l → l.atReel = none → l.ended = true →
    exec (.dollyDescriptorStart n t) s = .next s) ∧
  (∀ (n : TileIx) (t : Thr) (l : DollyList) (h : Handle) (q : List Handle) (b : Nat) (s : State), listOf (tileOf s n) t = some l →
    l.atReel.isSome = true → (reelOf s (ddSreel (memRead s (lsAddr n + ddOffset l) 32))).q = h :: q →
    (reelOf s (ddSreel (memRead s (lsAddr n + ddOffset l) 32))).cons.getLsbD n = true → popTurn s (ddSreel (memRead s (lsAddr n + ddOffset l) 32)) n = true →
    handleAddr s (ddSreel (memRead s (lsAddr n + ddOffset l) 32)) h.h = some b →
    (b + ddSrc (memRead s (lsAddr n + ddOffset l) 32)) % 16 = 0 →
    ddSrcOut s (memRead s (lsAddr n + ddOffset l) 32) (b + ddSrc (memRead s (lsAddr n + ddOffset l) 32)) = false →
    Completes (.dollyReelPop n t) s (fun u =>
      (reelOf u (ddSreel (memRead s (lsAddr n + ddOffset l) 32))).q = q ∧
      ((listOf (tileOf u n) t).map fun k => (k.pos, k.atReel, k.ended)) = some (l.pos + 1, none, ddLast (memRead s (lsAddr n + ddOffset l) 32)) ∧
      ((listOf (tileOf u n) t).bind fun k => (k.jobs[l.jobs.length]?).map fun j => j.outstanding ++ j.todo) =
        some (ddJob s (memRead s (lsAddr n + ddOffset l) 32) (b + ddSrc (memRead s (lsAddr n + ddOffset l) 32)) (ddOffset l)).todo ∧
      regsBut peakRegs s u ∧ memKept s u ∧ onlyDolly n s u)) ∧
  (∀ (n : TileIx) (t : Thr) (lost : Nat) (l : DollyList) (j : DollyJob) (x : Xfer) (js : List DollyJob) (s : State),
    listOf (tileOf s n) t = some l → takeXfer (ackable s n t) l.jobs = some (j, x, js) → poolBase ≤ x.dst → inAlias x.dst = false →
    inFenced s x.dst = false → inAlias x.src = false → j.move = .copy → s.mem.wc = [] →
    Completes (.dollyTransferAck n ⟨t, lost⟩) s (fun u =>
      memBut x.dst x.len s u ∧ memRead u x.dst x.len = memRead s x.src x.len ∧ onlyDolly n s u ∧
      (rd u (tileReg n 0x1C)).toNat = min (2 ^ 32 - 1) ((rd s (tileReg n 0x1C)).toNat + lost) ∧ regsBut (tileReg n 0x1C :: peakRegs) s u)) ∧
  (∀ (n : TileIx) (t : Thr) (lost : Nat) (l : DollyList) (w : Word) (j : DollyJob) (x : Xfer) (js : List DollyJob) (s : State),
    listOf (tileOf s n) t = some l → takeXfer (ackable s n t) l.jobs = some (j, x, js) → j.move = .fill w → poolBase ≤ x.dst →
    inAlias x.dst = false → inFenced s x.dst = false → s.mem.wc = [] →
    Completes (.dollyTransferAck n ⟨t, lost⟩) s (fun u =>
      memBut x.dst (4 * (x.len / 4)) s u ∧ regsBut (tileReg n 0x1C :: peakRegs) s u ∧
      ((List.range (x.len / 4)).all fun k => decide (memRead u (x.dst + 4 * k) 4 = leBytes 4 w.toNat)) = true)) ∧
  (∀ (n : TileIx) (t : Thr) (l : DollyList) (j : DollyJob) (js : List DollyJob) (s : State), listOf (tileOf s n) t = some l →
    l.jobs = j :: js → jobDone j = true → j.push = none →
    exec (.dollyDescriptorComplete n t) s = .next (putList n t { l with jobs := js } s)) ∧
  (∀ (n : TileIx) (t : Thr) (l : DollyList) (j : DollyJob) (js : List DollyJob) (r : Nat) (h : BitVec 16) (s : State),
    listOf (tileOf s n) t = some l → l.jobs = j :: js → jobDone j = true → j.push = some (r, h) →
    (reelOf s r).prod.getLsbD n = true → (reelOf s r).q.length + pushesWaiting s r (fun m => decide (m < n)) < 64 →
    Completes (.dollyDescriptorComplete n t) s (fun u =>
      (reelOf u r).q = (reelOf s r).q ++ [handleBy n l.cls l.owner h] ∧ regsBut peakRegs s u ∧ memKept s u ∧ onlyDolly n s u ∧
      (js = [] → l.ended = true → (tileOf u n).dolly.length + 1 = (tileOf s n).dolly.length))) ∧
  (∀ (n : TileIx) (s : State), 0 < rdf s (tileReg n 0x28) 15 0 →
    Completes (.lsScrub n) s (fun u =>
      s.clk < u.clk ∧ u.clk ≤ s.clk + rdf s (tileReg n 0x28) 15 0 * ticksMs ∧ u.clk % (rdf s (tileReg n 0x28) 15 0 * ticksMs) = 0 ∧
      u = { s with clk := u.clk, time := u.time }))

/-- Every block that the codec encodes passes the decoder's checks and decodes to the raw bytes, and is never longer than
the raw form. For every 1 to 4,096 raw bytes, whatever table the encoder chooses: the block decodes, with every check
of the header, of the token and mantissa planes and of the CRC passed, to exactly those bytes; its length is at most
that of the raw form, 16 bytes of header and the bytes padded to a multiple of 16, and the form is raw exactly where
no table's block is shorter. -/
def Obligations.CodecRoundTrip : Prop :=
  (∀ (raw : List Byte), 1 ≤ raw.length → raw.length ≤ 4096 → codecDecode (codecEncode raw).1 = some raw) ∧
  (∀ (raw : List Byte), 1 ≤ raw.length → raw.length ≤ 4096 →
    (codecEncode raw).1.length ≤ 16 + 16 * ceilDiv raw.length 16 ∧
    ((codecEncode raw).2 = false → (codecEncode raw).1.length < 16 + 16 * ceilDiv raw.length 16))

/-- A codec engine encodes or decodes the block at the front of its input queue; acknowledged, the block's bytes and no
other are written. For the block at the front of an engine's input queue, with room at its output, the engine encodes
the bytes at the stream's source into the block that the encoder gives, or decodes a block that passes its checks to
its raw bytes; they join the output queue, the stream goes on behind them, and memory reads as it did. A block that
fails a check becomes RAWLEN bytes of 0 that are poisoned, is counted and is reported. When the last transfer of the
block in front of the output queue is acknowledged, its bytes are written at its destination, poisoned where it is,
and no other byte changes. -/
def Obligations.CodecBlocksInMemory : Prop :=
  (∀ (e : Fin 16) (src dst len : Nat) (b : CodecBlk) (j : DollyJob) (s : State), codecHead s (2 * e.val) src dst = some (b, j) →
    len = min 4096 j.stream.len → inAlias src = false → inFenced s src = false →
    Completes (.codecBlockEncode e src dst len) s (fun u =>
      codecOut u (2 * e.val) = codecOut s (2 * e.val) ++ [⟨b, dst, (codecEncode (memRead s src len)).1, devPoisoned s src len⟩] ∧
      memSame s u ∧ u.mem.poison = s.mem.poison ∧
      regsBut [0x90100 + 16 * e.val, 0x90104 + 16 * e.val, 0x90108 + 16 * e.val] s u ∧
      u = { s with mem := u.mem, regs := u.regs, tiles := u.tiles, rounds := u.rounds })) ∧
  (∀ (e : Fin 16) (src dst : Nat) (raw : List Byte) (b : CodecBlk) (j : DollyJob) (s : State),
    codecHead s (2 * e.val + 1) src dst = some (b, j) → inAlias src = false → inFenced s src = false →
    src + 16 + codecPayLen (memRead s src 16) ≤ hbmSize →
    codecDecode (memRead s src (16 + codecPayLen (memRead s src 16))) = some raw →
    Completes (.codecBlockDecode e src dst) s (fun u =>
      codecOut u (2 * e.val + 1) = codecOut s (2 * e.val + 1) ++
        [⟨b, dst, raw.take j.stream.len, devPoisoned s src (16 + codecPayLen (memRead s src 16))⟩] ∧
      memSame s u ∧ u.mem.poison = s.mem.poison ∧ regsBut [0x90100 + 16 * e.val, 0x90104 + 16 * e.val] s u ∧
      u = { s with mem := u.mem, regs := u.regs, tiles := u.tiles, rounds := u.rounds })) ∧
  (∀ (e : Fin 16) (src dst : Nat) (b : CodecBlk) (j : DollyJob) (s : State), codecHead s (2 * e.val + 1) src dst = some (b, j) →
    inAlias src = false → inFenced s src = false → src + 16 + codecPayLen (memRead s src 16) ≤ hbmSize →
    codecDecode (memRead s src (16 + codecPayLen (memRead s src 16))) = none →
    Completes (.codecBlockDecode e src dst) s (fun u =>
      codecOut u (2 * e.val + 1) = codecOut s (2 * e.val + 1) ++
        [⟨b, dst, zeros (min (codecRawLen (memRead s src 16)) j.stream.len), true⟩] ∧ memSame s u ∧
      (rd u (0x9010C + 16 * e)).toNat = min (2 ^ 32 - 1) ((rd s (0x9010C + 16 * e)).toNat + 1) ∧
      u.fault.reports = s.fault.reports ++ [⟨.codec e, false, 1, BitVec.ofNat 64 src, .none⟩])) ∧
  (∀ (n : TileIx) (t : Thr) (lost k : Nat) (l : DollyList) (j : DollyJob) (x : Xfer) (js : List DollyJob) (o : CodecOut) (os : List CodecOut)
    (s : State), listOf (tileOf s n) t = some l → takeXfer (ackable s n t) l.jobs = some (j, x, js) → jobPipe j = some k →
    ((j.outstanding.erase x).any fun y => decide (y.blk = x.blk)) = false → codecOut s k = o :: os →
    poolBase ≤ o.dst → inAlias o.dst = false → inFenced s o.dst = false → s.mem.wc = [] →
    Completes (.dollyTransferAck n ⟨t, lost⟩) s (fun u =>
      memRead u o.dst o.bytes.length = o.bytes ∧ memBut o.dst o.bytes.length s u ∧ codecOut u k = os ∧
      (o.bytes ≠ [] → memPoisoned u o.dst o.bytes.length = o.bad) ∧ onlyDolly n s u ∧ regsBut (tileReg n 0x1C :: peakRegs) s u)) ∧
  (∀ (n : TileIx) (t : Thr) (lost k : Nat) (l : DollyList) (j : DollyJob) (x : Xfer) (js : List DollyJob) (s : State),
    listOf (tileOf s n) t = some l → takeXfer (ackable s n t) l.jobs = some (j, x, js) → jobPipe j = some k →
    ((j.outstanding.erase x).any fun y => decide (y.blk = x.blk)) = true →
    exec (.dollyTransferAck n ⟨t, lost⟩) s = .next (bankStall n lost (putList n t { l with jobs := js } s)))

/-- FLOW_SCORE queues its vectors; FLOW_VERDICT_SET accounts for every entry; files open, take chunks, close and abort. A
ready FLOW_SCORE whose model is loaded and whose queue has room appends one item of N vectors, in order, behind every
other; a full queue ends it. FLOW_VERDICT_SET applies its entries in order, and what it reports as applied, not found
and skipped adds up to their number. FILE_OPEN gives the lowest free FILE_ID or is refused for capacity; FILE_CHUNK
stages the bytes at their number; FILE_CLOSE queues the file's whole chunks in order and marks it queued; FILE_ABORT
drops the file. Only a descriptor of the function that opened the file reaches it. Each ends or starts as said, and no
tile changes. -/
def Obligations.ScoringAndFileDescriptors : Prop :=
  (∀ (r : DRef) (d : BitVec 512) (dma : Dma) (bs : List Byte) (l : Loaded) (s : State),
    Ready s r d 0x20 { in0 := true, out1 := true, badLength := decide (dLen0 d % 128 ≠ 0) || decide (dLen0 d = 0) || decide (128 * 4096 < dLen0 d) || decide (dLen1 d ≠ dLen0 d / 32), badMode := detConflict s d (scoreModel s (field (dOpw d 0) 15 0)) } →
    field (dOpw d 0) 31 16 = 0 → dBits d 288 224 = 0 → scoreModel s (field (dOpw d 0) 15 0) = some l → inputOf s d dma = .bytes bs →
    (dClass d = 1 ∨ backlog s l ≤ rdf s 0x60020 15 0) → queueLen s l.part (dClass d) < 16384 →
    Completes (.flowScore r dma) s (fun t =>
      t.items = s.items ++ [{ num := s.nextItem, src := .desc r, cls := dClass d, image := l.num, part := l.part, total := dLen0 d / 128, done := 0, on := none, input := bs, out := [], parkedAt := none, leaving := none, sagTold := false }] ∧
      t.nextItem = s.nextItem + 1 ∧ flightOf t r = some ⟨r, d, true⟩ ∧ t.tiles = s.tiles ∧ (dA0Dev d = false → t.mem = s.mem))) ∧
  (∀ (r : DRef) (d : BitVec 512) (dma : Dma) (bs : List Byte) (c : SetCounts) (u : State) (s : State),
    Ready s r d 0x21 { in0 := true, badLength := decide (dLen0 d = 0) || decide (dLen0 d % 64 ≠ 0) || decide (262144 < dLen0 d) } →
    dBits d 256 256 = 0 → dA0Dev d = false → inputOf s d dma = .bytes bs → setEntries (dLen0 d / 64) bs {} s = (c, u) →
    exec (.flowVerdictSet r dma) s = .next (finish r (okStatus false false u) (if c.applied = dLen0 d / 64 then 0 else 1)
      (BitVec.ofNat 64 (c.applied + 2 ^ 32 * (c.missing % 65536) + 2 ^ 48 * (c.skipped % 65536))) c.applied 0 [] u)) ∧
  (∀ (n : Nat) (bs : List Byte) (c : SetCounts) (s : State), n ≤ 4096 →
    (setEntries n bs c s).1.applied + (setEntries n bs c s).1.missing + (setEntries n bs c s).1.skipped =
      c.applied + c.missing + c.skipped + n ∧ c.applied ≤ (setEntries n bs c s).1.applied) ∧
  (∀ (r : DRef) (d : BitVec 512) (k : Nat) (s : State), Ready s r d 0x30 {} → field (dOpw d 0) 31 3 = 0 → dBits d 320 192 = 0 →
    (dOpw d 1).toNat ≤ 65536 * profChunks s (field (dOpw d 0) 2 0) → freeFile s = some k →
    Completes (.fileOpen r) s (fun t =>
      k < 1024 ∧ fileOf s k = none ∧ (∀ j ∈ List.range k, (fileOf s j).isSome = true) ∧
      fileOf t k = some { id := k, func := pairFunc s r.pair, profile := field (dOpw d 0) 2 0, chunks := [], close := none, flow := none, queued := false, whole := false, last := s.clk } ∧
      (∀ j ∈ List.range 1024, j ≠ k → fileOf t j = fileOf s j) ∧ flightOf t r = none ∧ t.mem = s.mem ∧ t.tiles = s.tiles)) ∧
  (∀ (r : DRef) (d : BitVec 512) (s : State), Ready s r d 0x30 {} → field (dOpw d 0) 31 3 = 0 → dBits d 320 192 = 0 →
    (dOpw d 1).toNat ≤ 65536 * profChunks s (field (dOpw d 0) 2 0) → freeFile s = none →
    exec (.fileOpen r) s = .next (finish r (okStatus false false s) 3 0 0 0 [] (bump 0x3048C 1 s))) ∧
  (∀ (r : DRef) (d : BitVec 512) (dma : Dma) (bs : List Byte) (f : FileX) (s : State),
    Ready s r d 0x31 { in0 := true, badLength := decide (dLen0 d = 0) || decide (65536 < dLen0 d) } → fileReserved d 2 = false →
    fileFor s r (field (dOpw d 0) 15 0) = some f → f.queued = false → (dOpw d 1).toNat < profChunks s f.profile →
    inputOf (touchFile f s) d dma = .bytes bs →
    Completes (.fileChunk r dma) s (fun t =>
      ((fileOf t f.id).map fun g => tabGet (fun _ => []) g.chunks (dOpw d 1).toNat) = some bs ∧
      ((fileOf t f.id).map fun g => (g.queued, g.func, g.profile, g.last)) = some (false, f.func, f.profile, s.clk) ∧
      (∀ j ∈ List.range 1024, j ≠ f.id → fileOf t j = fileOf s j) ∧ flightOf t r = none ∧ t.tiles = s.tiles ∧
      (dA0Dev d = false → t.mem = s.mem))) ∧
  (∀ (r : DRef) (d : BitVec 512) (f : FileX) (l : Loaded) (s : State),
    Ready s r d 0x32 { badMode := detConflict s d (closeModel s r d) } → fileReserved d 2 = false →
    fileFor s r (field (dOpw d 0) 15 0) = some f → f.queued = false → scoreModel s (profModel s f.profile) = some l → filesWaiting s < 64 →
    Completes (.fileClose r) s (fun t =>
      t.items = s.items ++ [{ num := s.nextItem, src := .file f.id, cls := 3, image := l.num, part := l.part, total := (goodChunks (dOpw d 1).toNat f.chunks).length, done := 0, on := none, input := (goodChunks (dOpw d 1).toNat f.chunks).flatMap (·.2), out := [], parkedAt := none, leaving := none, sagTold := false }] ∧
      ((fileOf t f.id).map fun g => (g.queued, g.close, g.whole)) = some (true, some r, decide ((goodChunks (dOpw d 1).toNat f.chunks).length = (dOpw d 1).toNat)) ∧
      flightOf t r = some ⟨r, d, true⟩ ∧ t.mem = s.mem ∧ t.tiles = s.tiles)) ∧
  (∀ (r : DRef) (d : BitVec 512) (f : FileX) (s : State), Ready s r d 0x33 {} → fileReserved d 1 = false →
    fileFor s r (field (dOpw d 0) 15 0) = some f → f.queued = false →
    Completes (.fileAbort r) s (fun t =>
      fileOf t f.id = none ∧ (∀ j ∈ List.range 1024, j ≠ f.id → fileOf t j = fileOf s j) ∧ flightOf t r = none ∧ t.mem = s.mem ∧
      t.tiles = s.tiles)) ∧
  (∀ (r : DRef) (k : Nat) (f : FileX) (s : State), fileFor s r k = some f → f.func = pairFunc s r.pair ∧ f.flow = none ∧ f.id = k)

/-- A well-formed image or pack that is admitted is loaded under its ID; a take is queued; a slate is armed; a capture
begins. A ready LOAD_MODEL or LOAD_CALLSHEET whose image passes every check of its bytes (whether a Dolly template
marks a buffer twice, the claims and the shadow-load times, which the spec gives no layout for, are open and decide)
and is admitted is loaded with its tiles and reels, and completes; a pack that is in order under an active sheet is
the one current pack of its ID. TAKE_RUN appends a job for its model to the queue, from layer 0; TAKE_RESUME one from
its current token, where the token's buffer still has the token's digest; where it has not it ends with
MEM_UNCORRECTABLE. SLATE_ARM of a coordinator arms its slate in time. RUSHES_CTRL begins a capture of a grid. -/
def Obligations.LoadsAndTakes : Prop :=
  (∀ (r : DRef) (d : BitVec 512) (dma : Dma) (bs : List Byte) (tiles reels : List Nat) (s : State),
    Ready s r d 0x50 { in0 := true, badLength := imageLenBad d, untestedPair := inputUntested s d dma } → dA0Dev d = false →
    inputOf s d dma = .bytes bs → field (dOpw d 0) 15 0 ≠ 0 → field (dOpw d 0) 31 16 = 0 → field (dOpw d 1) 31 3 = 0 →
    dBits d 320 192 = 0 → (imageHeaderOk 2 bs && dirOk 2 bs && tablesOk bs) = true →
    ((readImage bs).code.all fun x => codeOk false x.2) = true → ((readImage bs).codeSu.all (codeOk true)) = true →
    s.loadsOk = true →
    admitModel s (field (dOpw d 0) 15 0) (field (dOpw d 1) 2 0) (readImage bs) = .ok tiles reels →
    Completes (.loadModel r dma) s (fun t =>
      (Config.digestMarkedTwice bs = true → t = refuse r 0x10 s) ∧
      (Config.digestMarkedTwice bs = false → flightOf t r = none ∧
        modelOf t (field (dOpw d 0) 15 0) = some { num := s.nextLoad, id := BitVec.ofNat 16 (field (dOpw d 0) 15 0), part := field (dOpw d 1) 2 0, img := readImage bs, state := .active, tiles := tiles, reels := reels, c1 := (readImage bs).codeSu.isSome, copy := boundCopy (readImage bs) reels, hbmShare := Config.claimsHbm (sectD bs 9 none), token := none } ∧
        t.mem = s.mem))) ∧
  (∀ (r : DRef) (d : BitVec 512) (dma : Dma) (bs : List Byte) (s : State),
    Ready s r d 0x52 { in0 := true, badLength := imageLenBad d, untestedPair := inputUntested s d dma, timeDep := (dOpw d 0).getLsbD 16 } →
    dA0Dev d = false → inputOf s d dma = .bytes bs → field (dOpw d 0) 15 0 ≠ 0 → field (dOpw d 0) 31 16 = 0 → dOpw d 1 = 0 →
    dBits d 320 192 = 0 → (imageHeaderOk 1 bs && dirOk 1 bs && tablesOk bs) = true →
    ((readImage bs).code.all fun x => codeOk false x.2) = true → ((readImage bs).codeSu.all (codeOk true)) = true →
    s.loadsOk = true →
    Completes (.loadCallsheet r dma) s (fun t =>
      (Config.digestMarkedTwice bs = true → t = refuse r 0x10 s) ∧
      (Config.digestMarkedTwice bs = false → admitSheet s false (readImage bs) = .ok ((members s ((phyPart s).getD 0)).take (readImage bs).roles) (freeReels s (readImage bs).reels) →
        flightOf t r = none ∧ (t.loaded.any fun l => decide (l.num = s.nextLoad) && decide (l.id.toNat = field (dOpw d 0) 15 0) && decide (l.state = .active) && decide (l.img.raw = bs) && decide (l.tiles = (members s ((phyPart s).getD 0)).take (readImage bs).roles) && decide (l.reels = freeReels s (readImage bs).reels)) = true ∧
        (t.loaded.filter fun l => decide (l.img.kind = 1) && decide (l.state = .active)).length = 1 ∧ t.radio.harq = [] ∧ t.mem = s.mem))) ∧
  (∀ (r : DRef) (d : BitVec 512) (dma : Dma) (bs : List Byte) (s : State),
    Ready s r d 0x51 { in0 := true, badLength := decide (dLen0 d = 0) || decide (0x1000000 < dLen0 d), untestedPair := packUntested s d dma } →
    isDrop d = false → field (dOpw d 0) 15 0 ≠ 0 → field (dOpw d 0) 31 17 = 0 → dBits d 288 224 = 0 → inputOf s d dma = .bytes bs →
    packOk (field (dOpw d 0) 15 0) bs = true → (activeLoad s).isSome = true →
    ((packsNow s).filter fun p => decide (p.id.toNat ≠ field (dOpw d 0) 15 0)).length < 2 →
    Completes (.loadRxpack r dma) s (fun t =>
      flightOf t r = none ∧ ((packsNow t).filter fun p => decide (p.id.toNat = field (dOpw d 0) 15 0)).map (fun p => p.raw) = [bs] ∧
      ((packsNow t).filter fun p => decide (p.id.toNat ≠ field (dOpw d 0) 15 0)) = ((packsNow s).filter fun p => decide (p.id.toNat ≠ field (dOpw d 0) 15 0)) ∧
      t.loaded = s.loaded ∧ t.tiles = s.tiles ∧ (dA0Dev d = false → t.mem = s.mem))) ∧
  (∀ (r : DRef) (d : BitVec 512) (dma : Dma) (bs : List Byte) (l : Loaded) (s : State), Ready s r d 0x40 (takeRules s d) →
    takeMalformed d false = false → takeModel s (field (dOpw d 0) 15 0) = some l → groupUsable s (takeGroup d).val = true →
    (dDigest d = true → Config.modelLayers l.img.raw ≤ (dOpw d 6).toNat / 8) → inputOf s d dma = .bytes bs →
    (takeQueue s l.part).length < 256 → sagWarn s = false →
    Completes (.takeRun r dma) s (fun t =>
      (t.jobs.map fun j => (j.ref, j.image, j.part, j.running, j.layer, j.token, j.input)) =
        (s.jobs.map fun j => (j.ref, j.image, j.part, j.running, j.layer, j.token, j.input)) ++ [(r, l.num, l.part, false, 0, none, bs)] ∧
      flightOf t r = some ⟨r, d, true⟩ ∧ t.tiles = s.tiles ∧ (dA0Dev d = false → t.mem = s.mem))) ∧
  (∀ (r : DRef) (d : BitVec 512) (answered : Bool) (input bs : List Byte) (l : Loaded) (k : Token) (s : State), Ready s r d 0x41 (takeRules s d) →
    takeMalformed d true = false → takeModel s (field (dOpw d 0) 15 0) = some l → groupUsable s (takeGroup d).val = true →
    (dDigest d = true → Config.modelLayers l.img.raw ≤ (dOpw d 6).toNat / 8) → inputOf s d (if answered then .data input else .error) = .bytes bs →
    l.token = some k → takeToken d = tokenWord l.token → takeToken d ≠ 0 → (s.jobs.any fun j => j.running && decide (j.image = l.num)) = false →
    (takeQueue s l.part).length < 256 → sagWarn s = false →
    Completes (.takeResume r answered input) s (fun t =>
      (bufferDigest s l k.buf = k.digest →
        (t.jobs.map fun j => (j.ref, j.image, j.part, j.running, j.layer, j.token, j.input)) =
          (s.jobs.map fun j => (j.ref, j.image, j.part, j.running, j.layer, j.token, j.input)) ++ [(r, l.num, l.part, false, k.layer, some k, bs)] ∧
        flightOf t r = some ⟨r, d, true⟩ ∧ t.tiles = s.tiles ∧ (dA0Dev d = false → t.mem = s.mem)) ∧
      (bufferDigest s l k.buf ≠ k.digest → t = finish r 0x21 7 0 0 (lastUe s) [] s))) ∧
  (∀ (r : DRef) (d : BitVec 512) (s : State), Ready s r d 0x42 { timeDep := true } → slateMalformed d = false →
    groupUsable s (takeGroup d).val = true → groupCoord s (takeGroup d).val = true → nowUnits s + slateLead s ≤ slateTime d →
    s.splice.slates.any (slateIs (takeGroup d) (field (dOpw d 0) 15 0)) = false → s.splice.slates.length < 64 →
    anyUnreached s 1 (groupChildren s (takeGroup d).val) = false →
    Completes (.slateArm r) s (fun t =>
      t.splice.slates = s.splice.slates ++ [{ group := takeGroup d, id := BitVec.ofNat 16 (field (dOpw d 0) 15 0), time := slateTime d, acks := [], ref := some r }] ∧
      flightOf t r = some ⟨r, d, true⟩ ∧ t.mem = s.mem ∧ t.tiles = s.tiles)) ∧
  (∀ (r : DRef) (d : BitVec 512) (c : Capture) (s : State), Ready s r d 0x56 { out1 := true } → field (dOpw d 0) 15 3 = 0 →
    dBits d 320 192 = 0 → rdb s 0x30320 0 = true → captureOf s (field (dOpw d 0) 1 0) = none → (dOpw d 0).getLsbD 2 = false →
    c = { ref := r, grid := Fin.ofNat 4 (field (dOpw d 0) 1 0), mask := BitVec.ofNat 16 (field (dOpw d 0) 31 16), left := if dOpw d 1 = 0 then none else some (dOpw d 1).toNat, addr := dAddr1 d, dev := dA1Dev d, room := dLen1 d, written := 0 } →
    capBytes s c ≤ dLen1 d →
    Completes (.rushesCtrl r) s (fun t =>
      captureOf t (field (dOpw d 0) 1 0) = some c ∧ flightOf t r = some ⟨r, d, true⟩ ∧ t.mem = s.mem ∧ t.tiles = s.tiles ∧ t.regs = s.regs))

/-- A cue starts its step on C0 with cleared registers, a CUEWAIT goes on, a missed CHECK or deadline aborts the chain.
The cue of an armed step whose tile is in service and whose C0 is stopped fires no earlier than its time: the step
runs, its chain has fired, and C0 runs from the step's entry with every register 0 and both stacks empty. The cue that
a running step waits for lets it go on, and so does the earliest one that other work waits for. The deadline cue takes
the chain away, with a schedule violation where it was not done. A step not done by its CHECK is a schedule violation:
the chain ends, and SCHED_LAST names chain, step and cause; a step that is done is left alone. -/
def Obligations.CuesStartAndCheckSteps : Prop :=
  (∀ (g : GridIx) (sfn : BitVec 10) (slot : BitVec 5) (ch : Fin 16) (step : Nat) (c : Chain) (x : StepRun) (l : Loaded) (s : State),
    slotChain s g sfn slot ch = some c → chainOf s c.ref = some c → loadedNum s c.image = some l → step < l.img.steps.length →
    (c.steps.find? fun x => decide (x.ix = step)) = some x → x.state = .armed → fenced s x.tile = false →
    (threadOf s x.tile 0).run = .stopped → tooSoon s c x.tile = false → 0 < incUnits s → x.cue + incUnits s < 2 ^ 48 * unitsS → x.tile < 64 →
    Completes (.cueFire g sfn slot ch step) s (fun t =>
      chainOf t c.ref = some { setSeen step (seenNow s c) (setStep c step .running) with fired := true } ∧ x.cue ≤ nowUnits t ∧
      threadOf t x.tile 0 = { run := .running, owner := .chain c.ref step, image := c.image, role := x.ent.role, pc := x.ent.entry } ∧
      threadOf t x.tile 1 = threadOf s x.tile 1 ∧ onlyTile (Fin.ofNat 64 x.tile) s t ∧ t.mem = s.mem ∧ t.flights = s.flights)) ∧
  (∀ (g : GridIx) (sfn : BitVec 10) (slot : BitVec 5) (ch : Fin 16) (step : Nat) (c : Chain) (x : StepRun) (l : Loaded) (u : Nat) (b : Bool) (s : State),
    slotChain s g sfn slot ch = some c → loadedNum s c.image = some l → step < l.img.steps.length →
    (c.steps.find? fun x => decide (x.ix = step)) = some x → x.state = .running → (threadOf s x.tile 0).run = .waiting (.cue u b) →
    0 < incUnits s → u + incUnits s < 2 ^ 48 * unitsS →
    Completes (.cueFire g sfn slot ch step) s (fun t =>
      threadOf t x.tile 0 = retire { threadOf s x.tile 0 with run := .running } ∧ u ≤ nowUnits t ∧
      t = { s with tiles := t.tiles, clk := t.clk, time := t.time })) ∧
  (∀ (g : GridIx) (sfn : BitVec 10) (slot : BitVec 5) (ch : Fin 16) (step n u w : Nat) (b : Bool) (s : State), slotChain s g sfn slot ch = none →
    earliestWait s.tiles = some (n, w) → (threadOf s n 0).run = .waiting (.cue u b) → 0 < incUnits s → u + incUnits s < 2 ^ 48 * unitsS →
    Completes (.cueFire g sfn slot ch step) s (fun t =>
      threadOf t n 0 = retire { threadOf s n 0 with run := .running } ∧ u ≤ nowUnits t ∧
      t = { s with tiles := t.tiles, clk := t.clk, time := t.time })) ∧
  (∀ (g : GridIx) (sfn : BitVec 10) (slot : BitVec 5) (ch : Fin 16) (step : Nat) (c : Chain) (l : Loaded) (s : State),
    slotChain s g sfn slot ch = some c → loadedNum s c.image = some l → l.img.steps.length ≤ step → 0 < incUnits s →
    c.deadline + incUnits s < 2 ^ 48 * unitsS →
    Completes (.cueFire g sfn slot ch step) s (fun t =>
      c.deadline ≤ nowUnits t ∧ (t.chains.all fun k => decide (k.ref ≠ c.ref)) = true ∧
      ((chainOf s c.ref).isSome = true → rdb t directorEvent 0 = true))) ∧
  (∀ (g : GridIx) (sfn : BitVec 10) (slot : BitVec 5) (ch : Fin 16) (step : Nat) (res : ChainResult) (c : Chain) (x : StepRun) (s : State),
    slotChain s g sfn slot ch = some c → chainOf s c.ref = some c → (c.steps.find? fun x => decide (x.ix = step)) = some x →
    x.state ≠ .done → 0 < incUnits s → x.cue + x.ent.check * unitsNs + incUnits s < 2 ^ 48 * unitsS →
    Completes (.stepCheckExpiry g sfn slot ch step res) s (fun t =>
      x.cue + x.ent.check * unitsNs ≤ nowUnits t ∧ chainOf t c.ref = none ∧
      rd t 0x30040 = BitVec.ofNat 32 (c.chain % 256 + 256 * (step % 256)) ∧ rdb t directorEvent 0 = true)) ∧
  (∀ (g : GridIx) (sfn : BitVec 10) (slot : BitVec 5) (ch : Fin 16) (step : Nat) (res : ChainResult) (c : Chain) (x : StepRun) (s : State),
    slotChain s g sfn slot ch = some c → (c.steps.find? fun x => decide (x.ix = step)) = some x → x.state = .done →
    exec (.stepCheckExpiry g sfn slot ch step res) s = .next s)

/-- Items are picked class by class within credits, placed and completed; windows release and open arrays to them; roles
move off fenced tiles. The class picked requests; a class with credit left comes before those without, and among those
with credit the lowest number wins. A dispatched item runs from word 0 of its model's code on C0, a second-unit item
on C1. WINDOW_RELEASE clears the PHY bit of exactly the arrays' shadow contexts; WINDOW_OPEN cuts those that are
loaded and idle. A parked item whose limit passes returns to the head of its queue, once the operations of its thread
are complete. An item whose last words have come leaves, with its words. TAKEOVER and ROLE_REBIND put a fenced role on
a standby or free tile. While the sag warning lasts none is placed. -/
def Obligations.WindowsAndSecondUnit : Prop :=
  (∀ (r : Round) (req : Nat → Bool) (c : Nat) (s : State), pickClass s r req = some c →
    req c = true ∧ 1 ≤ c ∧ c ≤ 5 ∧ (sagWarn s = true → c ≠ 4) ∧ ([1, 2, 3, 4, 5].all fun k => !(req k && !(decide (k = 4) && sagWarn s)) || decide (creditLeft s r k = 0) || (decide (0 < creditLeft s r c) && decide (c ≤ k))) = true) ∧
  (∀ (p : Fin 8) (n : TileIx) (c : Nat) (i : Item) (l : Loaded) (s : State), partKind s p = 2 → (members s p).contains n.val = true →
    (threadOf s n 0).run = .stopped → itemOn s n 0 = none →
    pickClass s (roundOf s p) (fun c => decide (c ≤ 3) && ((nextItem s p c).any (canStart s n))) = some c →
    nextItem s p c = some i → loadedNum s i.image = some l →
    Completes (.itemDispatch p n) s (fun t =>
      itemOf t i.num = some { i with on := some (n, 0), parkedAt := none, leaving := none } ∧
      threadOf t n 0 = { run := .running, owner := .item i.num, image := i.image, role := roleOn l n, pc := 0 } ∧ onlyTile n s t ∧
      t.mem = s.mem ∧ t.flights = s.flights)) ∧
  (∀ (n : TileIx) (q c : Nat) (i : Item) (s : State), suFrom s = some q → suTileFree s n = true → sagWarn s = false →
    pickClass s (roundOf s 8) (fun c => decide (c ≤ 3) && ((nextItem s q c).any fun i => (itemSu s i).isSome)) = some c →
    nextItem s q c = some i →
    Completes (.suPlace n) s (fun t =>
      itemOf t i.num = some { i with on := some (n, 1), parkedAt := none, leaving := none } ∧
      threadOf t n 1 = { run := .running, owner := .item i.num, image := i.image, role := 0, pc := BitVec.ofNat 15 (suEntry ((itemSu s i).getD [])) } ∧
      threadOf t n 0 = threadOf s n 0 ∧ (rd t 0x30024).toNat = min (2 ^ 32 - 1) ((rd s 0x30024).toNat + 1) ∧ onlyTile n s t ∧ t.mem = s.mem)) ∧
  (∀ (n : TileIx) (s : State), sagWarn s = true → exec (.suPlace n) s = .next s ∧ (∀ w ∈ List.range 9, exec (.windowRelease n ⟨w, 0⟩) s = .next s ∧ exec (.windowOpen n ⟨w, 0⟩) s = .next s)) ∧
  (∀ (n : TileIx) (w held : Nat) (x : WinRun) (s : State), windowAt s n w = some x → (suFrom s).isSome = true → (suItem s n).isSome = true →
    sagWarn s = false → x.released = false → (∀ k ∈ List.range 4, (arrOf (tileOf s n) k).queue = []) →
    Completes (.windowRelease n ⟨w, held⟩) s (fun t =>
      (∀ k ∈ List.range 4, shadowCtx (arrOf (tileOf t n) k) =
        if x.win.amask.getLsbD k then { shadowCtx (arrOf (tileOf s n) k) with phy := false } else shadowCtx (arrOf (tileOf s n) k)) ∧
      (∀ k ∈ List.range 4, activeCtx (arrOf (tileOf t n) k) = activeCtx (arrOf (tileOf s n) k)) ∧
      t.windows = (s.windows.map fun y => if y = x then { x with released := true } else y) ∧
      (tileOf t n).c0 = (tileOf s n).c0 ∧ (tileOf t n).c1 = (tileOf s n).c1 ∧ onlyTile n s t ∧ t.regs = s.regs ∧ t.mem = s.mem)) ∧
  (∀ (n : TileIx) (w held : Nat) (x : WinRun) (m : BitVec 4) (s : State), windowAt s n w = some x → (suFrom s).isSome = true →
    (suItem s n).isSome = true → sagWarn s = false → x.released = true → x.opened = 0 → (∀ k ∈ List.range 4, (arrOf (tileOf s n) k).queue = []) →
    m = x.win.amask &&& x.loaded &&& idleArrays (tileOf s n) → m ≠ 0 → 
    nowUnits (runToTime (x.cue + x.win.opens * unitsNs) s) < x.cue + x.win.close * unitsNs →
    Completes (.windowOpen n ⟨w, held⟩) s (fun t =>
      tileOf t n = cutTile m (tileOf s n) ∧ t.windows = (s.windows.map fun y => if y = x then { x with opened := m, held := m } else y) ∧
      onlyTile n s t ∧ t.mem = s.mem ∧ ((itemOn t n 1).all fun i => i.parkedAt.isNone) = true)) ∧
  (∀ (n : TileIx) (cycles : Nat) (i : Item) (at_ : Nat) (s : State), itemOn s n 1 = some i → itemOf s i.num = some i → i.parkedAt = some at_ → syncDone s n 1 0xFF = true →
    Completes (.parkLimitExpiry n cycles) s (fun t =>
      (t.items.head?.map fun j => (j.num, j.src, j.cls, j.on, j.parkedAt)) = some (i.num, i.src, i.cls, none, none) ∧
      (t.items.head?.all fun j => decide (i.done ≤ j.done) && decide (j.total = i.total)) = true ∧ (threadOf t n 1).run = .stopped ∧
      rdb t directorEvent 3 = true ∧ at_ + rdf s 0x30010 15 8 * ticksUs ≤ t.clk ∧ t.mem = s.mem ∧ onlyTile n s t)) ∧
  (∀ (n : TileIx) (cycles : Nat) (i : Item) (at_ : Nat) (s : State), itemOn s n 1 = some i → itemOf s i.num = some i → i.parkedAt = some at_ →
    syncDone s n 1 0xFF = false → i.leaving = none →
    Completes (.parkLimitExpiry n cycles) s (fun t =>
      itemOf t i.num = some { i with leaving := some (0, cycles) } ∧ (threadOf t n 1).run = .halting ∧ (threadOf t n 1).owner = .item i.num ∧
      (t.windows.all fun w => decide (w.tile ≠ n.val) || decide (w.opened = 0)) = true ∧ t.mem = s.mem ∧ onlyTile n s t)) ∧
  (∀ (n : TileIx) (t : Thr) (res : ChainResult) (k cycles : Nat) (i : Item) (s : State), (threadOf s n t).run = .halting → syncDone s n t 0xFF = true →
    (threadOf s n t).owner = .item k → itemOf s k = some i → i.num = k → i.on = some (n, t) → i.leaving = some (0, cycles) →
    Completes (.threadHalted n t res) s (fun u =>
      (u.items.head?.map fun j => (j.num, j.src, j.cls, j.on, j.leaving)) = some (i.num, i.src, i.cls, none, none) ∧ rdb u directorEvent 3 = true ∧
      (rd u 0x3002C).toNat = min (2 ^ 32 - 1) ((rd s 0x3002C).toNat + cycles) ∧ (threadOf u n t).run = .stopped ∧ u.mem = s.mem)) ∧
  (∀ (n : TileIx) (t : Thr) (ws : List Word) (i : Item) (r : DRef) (s : State), itemOn s n t = some i → (threadOf s n t).run = .stopped →
    i.src = .desc r → i.done + ws.length = i.total →
    Completes (.itemComplete n t ws) s (fun u =>
      itemOf u i.num = none ∧ flightOf u r = none ∧ (threadOf u n t).owner = .none)) ∧
  (∀ (n : TileIx) (role : Nat) (l : Loaded) (s : State), fencedSheet s role = some l → (standbys s l.part).contains n.val = true →
    (s.loaded.any fun x => decide (x.img.kind = 1) && x.tiles.contains n.val) = false → itemOn s n 1 = none → s.loadsOk = true →
    Completes (.takeover n role) s (fun t =>
      (t.loaded.map fun x => (x.num, x.tiles)) = (s.loaded.map fun x => (x.num, if x.img.kind = 1 ∧ x.tiles.contains (l.tiles.getD role 0) = true then x.tiles.map (fun m => if m = l.tiles.getD role 0 then n.val else m) else x.tiles)) ∧
      rdb t directorEvent 2 = true ∧ onlyTile n s t ∧ t.mem = s.mem ∧ t.items = s.items)) ∧
  (∀ (model : BitVec 16) (role n : Nat) (l : Loaded) (s : State), (s.loaded.find? fun l => decide (l.img.kind = 2) && decide (l.id = model) && decide (l.state ≠ .lost) && ((l.tiles[role]?).any (fenced s))) = some l →
    rebindTile s l = some n →
    Completes (.roleRebind model role) s (fun t =>
      (t.loaded.map fun x => (x.num, x.tiles)) = (s.loaded.map fun x => (x.num, if x.num = l.num then l.tiles.set role n else x.tiles)) ∧
      fenced s n = false ∧ l.tiles.contains n = false ∧ tileOf t n = { tileOf s n with prog := (tileOf t n).prog } ∧ t.items = s.items ∧
      t.jobs = s.jobs ∧ t.regs = s.regs ∧ t.mem = s.mem))

/-- A job starts on its roles' tiles, a layer ends at a barrier whose slate fires into the next layer, and sheets switch.
TAKE_JOB_START starts the queue's head on C0 of every role's tile from word 0, or makes it wait for its slate.
LAYER_END of a coordinator with no collective left and every child arrived arms the barrier's slate a lead ahead with
the layer's digest, the sum of its blocks' CRCs, and the digest of the checkpoint buffer. SLATE_FIRE takes the slate
away at its time, counts it and completes its descriptor; one of a lower ID at the same time fires first; a missing
ACK breaks it instead. A barrier's slate starts the next layer or serves the job. A retake restarts from its token's
layer. A job whose slate does not come ends. SHEET_SWITCH makes the staged sheet the one active; SHEET_RELEASE frees a
sheet whose chains are over. -/
def Obligations.TakeJobsAndSlates : Prop :=
  (∀ (p : Fin 8) (j : Job) (js : List Job) (l : Loaded) (s : State), partKind s p = 3 → jobOn s p = none → takeQueue s p = j :: js →
    jobLoad s j = some l → j.waiting = false → roleFenced s l = false → j.start = 0 →
    Completes (.takeJobStart p) s (fun t =>
      (jobOn t p).map (fun k => (k.ref, k.running, k.layer, k.colls)) = some (j.ref, true, j.layer, 0) ∧
      (l.tiles.all fun n => decide ((threadOf t n 0).run = .running) && decide ((threadOf t n 0).owner = .job p) && decide ((threadOf t n 0).pc = 0)) = true ∧
      t.mem = s.mem ∧ t.flights = s.flights)) ∧
  (∀ (p : Fin 8) (j : Job) (js : List Job) (l : Loaded) (s : State), partKind s p = 3 → jobOn s p = none → takeQueue s p = j :: js →
    jobLoad s j = some l → j.waiting = false → roleFenced s l = false → j.start ≠ 0 →
    Completes (.takeJobStart p) s (fun t => t = { s with jobs := t.jobs } ∧
      (takeQueue t p).head?.map (fun k => (k.ref, k.waiting, k.waitFrom)) = some (j.ref, true, s.clk))) ∧
  (∀ (p : Fin 8) (marks : List Nat) (places : List BlockPlace) (output : List Byte) (j : Job) (l : Loaded) (s : State), jobOn s p = some j →
    jobLoad s j = some l → j.retaking = false → j.restoring = false → j.arrived = false → (barrierOf s j.group j.layer).halted = false →
    rolesHalted s l = true → (layerColls l j.layer)[j.colls]? = none → groupParent s j.group.val = none →
    ((groupChildren s j.group.val).all fun c => (barrierOf s j.group j.layer).arrived.contains (BitVec.ofNat 14 c)) = true →
    s.splice.slates.length < 64 → anyUnreached s 1 (groupChildren s j.group.val) = false →
    Completes (.layerEnd p marks places output) s (fun t =>
      t.splice.slates = s.splice.slates ++ [{ group := j.group, id := BitVec.ofNat 16 (reservedSlate j.group s).1, time := nowUnits s + slateLead s, acks := [], ref := none }] ∧
      (jobOn t p).map (fun k => (k.arrived, k.slate, k.lastDigest, k.ckpt)) =
        some (true, BitVec.ofNat 16 (reservedSlate j.group s).1, (barrierOf s j.group j.layer).sum + partialDigest s (marks.zip places), bufferDigest s l j.buf) ∧ t.mem = s.mem ∧ t.tiles = s.tiles)) ∧
  (∀ (p : Fin 8) (marks : List Nat) (places : List BlockPlace) (output : List Byte) (j : Job) (l : Loaded) (s : State), jobOn s p = some j →
    jobLoad s j = some l → j.retaking = false → j.restoring = false → j.arrived = false → (barrierOf s j.group j.layer).halted = false →
    rolesHalted s l = true → (layerColls l j.layer)[j.colls]? = none →
    ((groupChildren s j.group.val).all fun c => (barrierOf s j.group j.layer).arrived.contains (BitVec.ofNat 14 c)) = false →
    Completes (.layerEnd p marks places output) s (fun t =>
      barrierOf t j.group j.layer = { barrierOf s j.group j.layer with halted := true, sum := (barrierOf s j.group j.layer).sum + partialDigest s (marks.zip places), group := j.group, layer := j.layer } ∧
      t = { s with jobs := t.jobs, splice := t.splice } ∧ t.splice.slates = s.splice.slates)) ∧
  (∀ (g : Fin 16) (id : BitVec 16) (x : Slate) (s : State), (s.splice.slates.find? fun x => decide (x.group = g) && decide (x.id = id)) = some x → slatesBefore x s.splice.slates = [] →
    (x.ref = none ∨ slateAcked s x = true) → id.toNat < 32768 → (s.jobs.all fun j => !j.waiting) = true → 0 < incUnits s →
    x.time + incUnits s < 2 ^ 48 * unitsS →
    Completes (.slateFire g id) s (fun t =>
      x.time ≤ nowUnits t ∧ t.splice.slates = s.splice.slates.filter (fun y => decide (y ≠ x)) ∧
      (rd t 0xB0024).toNat = min (2 ^ 32 - 1) ((rd s 0xB0024).toNat + 1) ∧ (x.ref.all fun r => (flightOf t r).isNone) = true ∧
      t.jobs = s.jobs ∧ t.mem = s.mem ∧ t.tiles = s.tiles)) ∧
  (∀ (g : Fin 16) (id : BitVec 16) (x y : Slate) (s : State), s.splice.slates = [x, y] → x.group = g → x.id = id → y.time = x.time → y.id.toNat < id.toNat →
    id.toNat < 32768 → x.ref = none → y.ref = none → s.jobs = [] →
    Completes (.slateFire g id) s (fun t =>
      t.splice.slates = [] ∧ (rd t 0xB0024).toNat = min (2 ^ 32 - 1) ((rd s 0xB0024).toNat + 2) ∧ t.mem = s.mem ∧ t.tiles = s.tiles)) ∧
  (∀ (g : Fin 16) (id : BitVec 16) (x : Slate) (r : DRef) (s : State), (s.splice.slates.find? fun x => decide (x.group = g) && decide (x.id = id)) = some x → slatesBefore x s.splice.slates = [] →
    x.ref = some r → slateAcked s x = false → groupCoord s g.val = true → s.jobs = [] →
    Completes (.slateFire g id) s (fun t =>
      (t.splice.slates.any (slateIs g id.toNat)) = false ∧ rdb t spliceEvent 4 = true ∧ flightOf t r = none ∧ t.mem = s.mem)) ∧
  (∀ (g : Fin 16) (id : BitVec 16) (x : Slate) (j : Job) (l : Loaded) (s : State), (s.splice.slates.find? fun x => decide (x.group = g) && decide (x.id = id)) = some x → slatesBefore x s.splice.slates = [] →
    x.ref = none → 32768 ≤ id.toNat → groupJob s g = some j → j.arrived = true → j.slate = id → j.retaking = false → j.restoring = false →
    jobLoad s j = some l → j.every = 0 → j.layer + 1 < j.layers →
    Completes (.slateFire g id) s (fun t =>
      (groupJob t g).map (fun k => (k.ref, k.layer, k.arrived)) = some (j.ref, j.layer + 1, false) ∧
      (l.tiles.all fun n => decide ((threadOf t n 0).run = .running) && decide ((threadOf t n 0).owner = .job (Fin.ofNat 8 j.part))) = true ∧ t.mem = s.mem)) ∧
  (∀ (g : Fin 16) (id : BitVec 16) (x : Slate) (j : Job) (l : Loaded) (s : State), (s.splice.slates.find? fun x => decide (x.group = g) && decide (x.id = id)) = some x → slatesBefore x s.splice.slates = [] →
    x.ref = none → 32768 ≤ id.toNat → groupJob s g = some j → j.arrived = true → j.slate = id → j.retaking = false → j.restoring = false →
    jobLoad s j = some l → j.every = 0 → j.layers ≤ j.layer + 1 →
    Completes (.slateFire g id) s (fun t =>
      (t.jobs.all fun k => decide (k.ref ≠ j.ref)) = true ∧ flightOf t j.ref = none ∧ (t.splice.colls.all fun k => decide (k.group ≠ g)) = true)) ∧
  (∀ (p : Fin 8) (j : Job) (l : Loaded) (s : State), jobOn s p = some j → jobLoad s j = some l → j.retaking = true → roleFenced s l = false →
    groupParent s j.group.val = none → s.splice.slates.length < 64 → anyUnreached s 1 (groupChildren s j.group.val) = false →
    Completes (.retakeRestart p) s (fun t =>
      (jobOn t p).map (fun k => (k.ref, k.retaking, k.restoring, k.layer)) = some (j.ref, false, true, (j.token.map Token.layer).getD 0) ∧
      rdf t 0x50000 8 8 = bnat (t.jobs.any (·.retaking)) ∧ t.mem = s.mem ∧ t.tiles = s.tiles)) ∧
  (∀ (p : Fin 8) (j : Job) (s : State), (takeQueue s p).head? = some j → j.waiting = true →
    (s.splice.slates.any (slateIs j.group j.start.toNat)) = false →
    Completes (.slateWaitExpiry p) s (fun t =>
      (t.jobs.all fun k => decide (k.ref ≠ j.ref)) = true ∧ flightOf t j.ref = none ∧ j.waitFrom + (rd s 0xB0020).toNat * ticksS ≤ t.clk ∧
      t.mem = s.mem ∧ t.tiles = s.tiles)) ∧
  (∀ (num u : Nat) (l : Loaded) (s : State), nextStaged s s.loaded = some (num, u) → loadedNum s num = some l → s.loadsOk = true →
    Completes (.sheetSwitch) s (fun t =>
      loadedNum t num = some { l with state := .active } ∧
      (t.loaded.all fun k => decide (k.num = num) || !(decide (k.img.kind = 1) && decide (k.state = .active))) = true ∧
      t.radio.harq = [] ∧ t.mem = s.mem ∧ t.regs = s.regs ∧ t.flights = s.flights)) ∧
  (∀ (id : BitVec 16) (l : Loaded) (s : State),
    (s.loaded.find? fun l => decide (l.img.kind = 1) && decide (l.id = id) && decide (l.state = .releasing)) = some l →
    ((s.chains.filter fun c => decide (c.image = l.num)).all (·.ended)) = true →
    Completes (.sheetRelease id) s (fun t =>
      t.loaded = s.loaded.filter (fun x => decide (x.num ≠ l.num)) ∧ t.chains = s.chains.filter (fun c => decide (c.image ≠ l.num)) ∧
      (l.reels.all fun r => decide (reelOf t r = {})) = true ∧ t.mem = s.mem ∧ t.tiles = s.tiles ∧ t.regs = s.regs))

/-- A slot begins with its landing bitmaps clear and late transport blocks refused; a symbol's staged PRBs go out in its
window, then are cleared. SLOT_START of a running grid lets time come to the next slot, notes it, clears the bitmap of
every symbol buffer of its landing position and leaves no transport block waiting for it. DL_UPLANE_SEND waits for the
window, sends from memory without changing it, and sends nothing once the window has closed. The staged PRBs are split
into runs of at most a frame's size that cover exactly them. DL_WINDOW_CLOSE clears the symbol's bitmap of every
stream and no other byte. RUSHES_COPY writes the slot's buffers and header behind what the capture holds and counts a
copy that is late. -/
def Obligations.SlotsAndDownlinkWindows : Prop :=
  (∀ (g : GridIx) (s : State), gridRuns s g.val = true → s.mem.wc = [] → 0 < incUnits s →
    (nextSlot s g.val).1 + incUnits s < 2 ^ 48 * unitsS →
    Completes (.slotStart g) s (fun t =>
      (nextSlot s g.val).1 ≤ nowUnits t ∧ tabGet (fun _ => 0) t.radio.begun g.val = (nextSlot s g.val).1 ∧
      (t.radio.tx.all fun w => !(decide (w.grid = g) && decide (w.sfn.toNat = (nextSlot s g.val).2.1) && decide (w.slot.toNat = (nextSlot s g.val).2.2))) = true ∧
      (∀ k ∈ List.range (14 * ulStreams s g.val), memRead t (symbolBuf (ulBase s g.val) (ulStreams s g.val) (slotPos s g.val (nextSlot s g.val).1) 0 k) 64 = zeros 64) ∧
      memButs ((List.range (14 * ulStreams s g.val)).map fun k => symbolBuf (ulBase s g.val) (ulStreams s g.val) (slotPos s g.val (nextSlot s g.val).1) 0 k) 64 s t ∧
      t.tiles = s.tiles)) ∧
  (∀ (g : GridIx) (sfn : BitVec 10) (slot : BitVec 5) (symbol : Fin 14) (s : State), gridRuns s g.val = true →
    slot.toNat < slotsPerFrame (gridMu s g.val) → 0 < incUnits s →
    (symbolAt s g sfn slot symbol.val).toNat + incUnits s < 2 ^ 48 * unitsS →
    Completes (.dlUplaneSend g sfn slot symbol) s (fun t =>
      (symbolAt s g sfn slot symbol.val).toNat ≤ nowUnits t + t1aMax s ∧ s.out = t.out.take s.out.length ∧
      (0 < nowUnits s → (symbolAt s g sfn slot symbol.val).toNat < nowUnits s + t1aMin s → t.out = s.out) ∧
      t.mem = s.mem ∧ t.tiles = s.tiles ∧ t.flights = s.flights)) ∧
  (∀ (m : Nat) (ks : List Nat), 1 ≤ m →
    ((prbRuns m [] ks).flatMap fun r => (List.range r.2).map fun i => r.1 + i) = ks ∧ ((prbRuns m [] ks).all fun r => decide (1 ≤ r.2) && decide (r.2 ≤ m)) = true) ∧
  (∀ (g : GridIx) (sfn : BitVec 10) (slot : BitVec 5) (symbol : Fin 14) (s : State), gridRuns s g.val = true →
    slot.toNat < slotsPerFrame (gridMu s g.val) → s.mem.wc = [] →
    Completes (.dlWindowClose g sfn slot symbol) s (fun t =>
      (∀ k ∈ List.range (dlStreams s g.val), memRead t (symbolBuf (dlBase s g.val) (dlStreams s g.val) (slotPos s g.val (symbolAt s g sfn slot 0).toNat) k symbol.val) 64 = zeros 64) ∧
      memButs ((List.range (dlStreams s g.val)).map fun k => symbolBuf (dlBase s g.val) (dlStreams s g.val) (slotPos s g.val (symbolAt s g sfn slot 0).toNat) k symbol.val) 64 s t ∧
      t.regs = s.regs ∧ t.tiles = s.tiles ∧ t.out = s.out)) ∧
  (∀ (g : GridIx) (sfn : BitVec 10) (slot : BitVec 5) (inTime : Bool) (x : RushDue) (c : Capture) (s : State),
    (s.radio.rushes.find? fun x => decide (x.grid = g) && decide (x.sfn = sfn) && decide (x.slot = slot)) = some x →
    captureOf s g.val = some c → c.dev = false → (funcOf s (pairFunc s c.ref.pair)).bme = true → (pairOf s c.ref.pair).waiting = [] → c.left = none →
    c.written + 2 * capBytes s c ≤ c.room →
    Completes (.rushesCopy g sfn slot inTime) s (fun t =>
      captureOf t g.val = some { c with written := c.written + capBytes s c } ∧ t.radio.rushes = s.radio.rushes.filter (fun y => decide (y ≠ x)) ∧
      t.out = s.out ++ [.hostWrite (pairFunc s c.ref.pair) (c.addr + BitVec.ofNat 64 c.written) (((capStreams s c).flatMap fun k => memRead s (symbolBuf (ulBase s g.val) (ulStreams s g.val) (slotPos s g.val x.t0) k 0) 184576) ++ capHeader c x (!inTime))] ∧
      (rd t 0x3033C).toNat = (if inTime then (rd s 0x3033C).toNat else min (2 ^ 32 - 1) ((rd s 0x3033C).toNat + 1)) ∧ t.mem = s.mem))

/-- A received frame is counted, discarded, answered or landed; block floating point keeps what fits; a landed PRB reads
back. On an enabled port a frame with a bad FCS is counted as discarded and has no other effect; a good one is
counted. A U-plane message of an eAxC ID that is not mapped counts as that; a mapped one passes the sequence check and
its sections land in order. A delay request is answered with the ingress time, a remote request with a request of the
port's own, where the link is up. A change of the link shows in STATUS and sets its event. Values that fit the
mantissa width pass compression and expansion exactly, without a clamp. A PRB that lands reads back with its bit set,
and the buffer's other bytes stand. -/
def Obligations.FronthaulReceiveAndDelay : Prop :=
  (∀ (port : Fin 8) (f : FhFrame) (s : State), fhPortEn s port = true → f.fcsOk = false →
    exec (.fhFrameReceive port f) s = .next (bump (fhReg port 0x24) 1 s)) ∧
  (∀ (port : Fin 8) (f : FhFrame) (eaxc : BitVec 16) (seq : Byte) (fi : BitVec 4) (fr : Byte) (sub : BitVec 4) (slot symbol : BitVec 6) (xs : List USection) (v : BitVec 3) (s : State),
    fhPortEn s port = true → f.fcsOk = true → 64 ≤ f.length → f.length ≤ fhLimit s port → f.etherType = 0xAEFE →
    (fhMac s port :: ptpMacs).contains f.dst.toNat = true → fhVlanOk s port f.vlan = true → ecpriOk f = true →
    f.msg = .uplane eaxc seq true false v fi fr sub slot symbol xs → upEntry s port eaxc = none →
    Completes (.fhFrameReceive port f) s (fun t =>
      (rd t (fhReg port 0x28)).toNat = min (2 ^ 32 - 1) ((rd s (fhReg port 0x28)).toNat + 1) ∧
      (rd t (fhReg port 0x20)).toNat = min (2 ^ 32 - 1) ((rd s (fhReg port 0x20)).toNat + 1) ∧
      regsBut [fhReg port 0x20, fhReg port 0x28] s t ∧ t = { s with regs := t.regs })) ∧
  (∀ (port : Fin 8) (f : FhFrame) (eaxc : BitVec 16) (seq : Byte) (fr : Byte) (sub : BitVec 4) (slot symbol : BitVec 6) (xs : List USection) (w : Word) (s : State),
    fhPortEn s port = true → f.fcsOk = true → 64 ≤ f.length → f.length ≤ fhLimit s port → f.etherType = 0xAEFE →
    (fhMac s port :: ptpMacs).contains f.dst.toNat = true → fhVlanOk s port f.vlan = true → ecpriOk f = true →
    f.msg = .uplane eaxc seq true false 1 0 fr sub slot symbol xs → upEntry s port eaxc = some w → w.getLsbD 26 = false →
    sub.toNat ≤ 9 → slot.toNat < 2 ^ gridMu s (eaxcGrid w) → symbol.toNat ≤ 13 →
    exec (.fhFrameReceive port f) s = .next (landSections w (nearFrame s (eaxcGrid w) fr.toNat) (sub.toNat * 2 ^ gridMu s (eaxcGrid w) + slot.toNat) symbol.toNat xs
      (seqCheck port eaxc seq (bump (fhReg port 0x20) 1 s)))) ∧
  (∀ (port : Fin 8) (id : Byte) (s : State), fhPortEn s port = true → fhLinkUp s port = true →
    Completes (.ecpriDelayRequest port id) s (fun t =>
      t.out = s.out ++ [.fhDelay port (fhHeader s port none) 2 id (delayStamp s port (fhRxDelay s port)) 0] ∧
      (rd t (fhReg port 0x20)).toNat = min (2 ^ 32 - 1) ((rd s (fhReg port 0x20)).toNat + 1) ∧ regsBut [fhReg port 0x20] s t ∧
      t = { s with out := t.out, regs := t.regs, free := s.free + 1 })) ∧
  (∀ (port : Fin 8) (id : Byte) (s : State), fhPortEn s port = true → fhLinkUp s port = true →
    Completes (.ecpriRemoteRequest port id) s (fun t =>
      t.out = s.out ++ [.fhDelay port (fhHeader s port none) 0 id (delayStamp s port (-(fhTxDelay s port : Int))) 0] ∧
      (rd t (fhReg port 0x20)).toNat = min (2 ^ 32 - 1) ((rd s (fhReg port 0x20)).toNat + 1) ∧ regsBut [fhReg port 0x20] s t ∧
      t = { s with out := t.out, regs := t.regs, free := s.free + 1 })) ∧
  (∀ (port : Fin 8) (up : Bool) (s : State), fhLinkUp s port ≠ up →
    Completes (.fhLinkChange port up) s (fun t =>
      fhLinkUp t port = up ∧ (∀ q ∈ List.range 8, q ≠ port.val → fhLinkUp t q = fhLinkUp s q) ∧ rdb t fhEvent 0 = true ∧
      regsBut [0xD0000, fhEvent] s t ∧ t.mem = s.mem ∧ t.tiles = s.tiles)) ∧
  (∀ (w : Nat) (xs : List Int), w ∈ [9, 12, 14, 16] → xs.length = 24 →
    (xs.all fun x => decide (-(2 ^ (w - 1) : Int) ≤ x) && decide (x < 2 ^ (w - 1))) = true →
    (prbBytes w xs).2 = 0 ∧ ((prbBytes w xs).1.head?.map fun e => prbExpand w e ((prbBytes w xs).1.drop 1)) = some (xs, 0)) ∧
  (∀ (a k : Nat) (xs : List Int) (s : State), k < 273 → xs.length = 24 → (xs.all fun x => decide (-32768 ≤ x) && decide (x ≤ 32767)) = true →
    s.mem.wc = [] →
    getPrb (putPrb a k xs s) a k = xs ∧ prbSet (putPrb a k xs s) a k = true ∧
    (∀ j ∈ List.range 273, j ≠ k → getPrb (putPrb a k xs s) a j = getPrb s a j ∧ prbSet (putPrb a k xs s) a j = prbSet s a j))

/-- Frames are counted, forwarded to the partner or given to their flow's record; records age, hold, take verdicts and are
freed; files end. A frame at a port that is off, or of a bad length, is counted as discarded and goes nowhere. With
the flow front stopped and PASS set a good frame leaves by the partner port with its FCS. A packet whose key has a
record goes to that record. A packet adds one to its direction's count, saturating. The sweep ends an idle record and
frees an ended one. At its ceiling a hold ends with no packet kept. A verdict ends the outstanding request; a word
that is none is counted. TABLE_FULL_REPORT clears what it reports. A file's verdict or its timeout takes the file
away. -/
def Obligations.LinePortsAndFlowRecords : Prop :=
  (∀ (port : Fin 8) (f : List Byte) (ok : Bool) (s : State), hostDown s = false →
    (lineOn s port = false ∨ f.length < 60 ∨ 9212 < f.length) →
    exec (.lineFrameReceive port f ok) s = .next (bump (lineReg port 8) 1 s)) ∧
  (∀ (port : Fin 8) (f : List Byte) (s : State), hostDown s = false → lineOn s port = true → lineOn s (partner port) = true →
    mirrorEn s = false → 60 ≤ f.length → f.length ≤ 9212 → beAt f 12 2 ≠ 0x8808 → flowRuns s = false → rdb s 0xC0000 2 = true →
    rdb s 0x200F0 port = false → timeSrc s ≠ 1 →
    Completes (.lineFrameReceive port f true) s (fun t =>
      t.out = s.out ++ [.lineTx (partner port) (f ++ fcsBytes false f)] ∧
      (rd t (lineReg port 0)).toNat = min (2 ^ 32 - 1) ((rd s (lineReg port 0)).toNat + 1) ∧
      (rd t (lineReg port 0x10)).toNat = min (2 ^ 32 - 1) ((rd s (lineReg port 0x10)).toNat + 1) ∧
      (rd t (lineReg (partner port) 0xC)).toNat = min (2 ^ 32 - 1) ((rd s (lineReg (partner port) 0xC)).toNat + 1) ∧
      regsBut [lineReg port 0, lineReg port 0x10, lineReg (partner port) 0xC] s t ∧ t = { s with regs := t.regs, out := t.out })) ∧
  (∀ (port : Fin 8) (f : List Byte) (p : Pkt) (i : Nat) (s : State), hostDown s = false → lineOn s port = true → mirrorEn s = false →
    60 ≤ f.length → f.length ≤ 9212 → beAt f 12 2 ≠ 0x8808 → flowRuns s = true → parseFrame s f = (.ip p, false) →
    findRec s (flowBucket s (pktKey p)) (pktKey p) = some i → frState (flowRec s i) = 1 →
    exec (.lineFrameReceive port f true) s = .next (flowPacket i false port f p (bump (lineReg port 0) 1 s))) ∧
  (∀ (b : Bool) (p : Pkt) (iat : Nat) (r : List Byte), r.length = 128 → p.ip.len < 65536 →
    leAt (recStats b p iat r) (64 + 4 * bnat b) 4 = min (2 ^ 32 - 1) (leAt r (64 + 4 * bnat b) 4 + 1) ∧
    leAt (recStats b p iat r) (68 - 4 * bnat b) 4 = leAt r (68 - 4 * bnat b) 4 ∧
    leAt (recStats b p iat r) (72 + 5 * bnat b) 5 = min (2 ^ 40 - 1) (leAt r (72 + 5 * bnat b) 5 + p.ip.len) ∧
    (recStats b p iat r).take 64 = r.take 64 ∧ (recStats b p iat r).length = 128) ∧
  (∀ (port : Fin 8) (up : Bool) (s : State), s.board.inReset = false →
    Completes (.lineLinkChange port up) s (fun t =>
      rdb t 0xC0004 port = up ∧ (∀ q ∈ List.range 8, q ≠ port.val → rdb t 0xC0004 q = rdb s 0xC0004 q) ∧ regsBut [0xC0004] s t ∧
      t = { s with regs := t.regs })) ∧
  (∀ (i : Nat) (s : State), flowRuns s = true → i < 2 ^ ftLog2 s → frState (flowRec s i) = 1 →
    polIdleS s (frPolicy (flowRec s i)) * ticksS < s.clk - (flowX s i).lastClk → 2 ≤ polMode s (frPolicy (flowRec s i)) →
    s.mem.wc = [] → flowAddr s i + 128 ≤ hbmSize → flowAddr s i % 64 = 0 →
    Completes (.flowSweep i) s (fun t =>
      flowRec t i = frSetState 2 (flowRec s i) ∧ frState (flowRec t i) = 2 ∧ memBut (flowAddr s i) 128 s t ∧ t.flow = s.flow ∧ t.out = s.out)) ∧
  (∀ (i : Nat) (s : State), flowRuns s = true → i < 2 ^ ftLog2 s → frState (flowRec s i) = 2 → frHeld (flowRec s i) = false →
    rdf s 0x6001C 15 8 * (ticksS / 4) < s.clk - (flowX s i).lastClk → s.mem.wc = [] → flowAddr s i + 128 ≤ hbmSize →
    flowAddr s i % 64 = 0 →
    Completes (.flowSweep i) s (fun t =>
      frState (flowRec t i) = 0 ∧ frVerdict (flowRec t i) = 0 ∧ frSticky (flowRec t i) = false ∧ flowX t i = {} ∧
      memBut (flowAddr s i) 128 s t ∧ t.out = s.out)) ∧
  (∀ (i : Nat) (s : State), frHeld (flowRec s i) = true → (flowX s i).held ≠ [] →
    Completes (.holdCeiling i) s (fun t =>
      (flowX t i).held = [] ∧ (flowX t i).late = (flowX s i).request.isSome ∧
      (flowX s i).holdAt + polHoldUs s (frPolicy (flowRec s i)) * ticksUs ≤ t.clk ∧ t.tiles = s.tiles ∧ t.items = s.items)) ∧
  (∀ (i k trig : Nat) (w : Word) (it : Item) (s : State), (flowX s i).request = some k → itemOf s k = some it → it.src = .flow i trig →
    Completes (.flowVerdict i w) s (fun t =>
      (flowX t i).request = none ∧ (flowX t i).late = false ∧ itemOf t k = none ∧
      (verdictOk w.toNat = false → (rd t 0x60824).toNat = min (2 ^ 32 - 1) ((rd s 0x60824).toNat + 1) ∧ rdb t flowEvent 3 = true))) ∧
  (∀ (s : State), s.flow.fullPass ≤ 2 ^ 32 →
    Completes (.tableFullReport) s (fun t =>
      t.flow.fullPass = 0 ∧ t.flow.fullDrop = 0 ∧ t.flow.files = s.flow.files ∧ t.mem = s.mem ∧ t.tiles = s.tiles ∧
      (s.flow.fullPass = 0 → s.flow.fullDrop = 0 → t.out = s.out ∧ t.regs = s.regs))) ∧
  (∀ (w : Word) (i : Item) (f : FileX) (r : DRef) (s : State), currentFile s = some i → i.src = .file f.id → fileOf s f.id = some f → f.close = some r →
    Completes (.fileVerdict w) s (fun t =>
      fileOf t f.id = none ∧ itemOf t i.num = none ∧ flightOf t r = none ∧
      (verdictOk w.toNat = false → rdb t flowEvent 3 = true) ∧ t.mem = s.mem)) ∧
  (∀ (id : BitVec 16) (f : FileX) (s : State), fileOf s id.toNat = some f → f.queued = false → f.flow = none →
    Completes (.fileTimeout id) s (fun t =>
      fileOf t id.toNat = none ∧ f.last + rdf s 0x6001C 31 16 * ticksS ≤ t.clk ∧
      (rd t 0x60840).toNat = min (2 ^ 32 - 1) ((rd s 0x60840).toNat + 1) ∧ regsBut [0x60840] s t ∧ t.mem = s.mem ∧ t.items = s.items))

/-- BEST and SECOND of a query are the nearest and the second nearest reference, ties to the lower index; absent where
none is left. For every query and list of references, BEST is a reference at a finite distance with no nearer one and
none as near at a lower index, and it is absent exactly where every reference is at an infinite distance. SECOND is
such a reference among those other than BEST, never nearer than BEST, and it is absent exactly where the rest are at
an infinite distance, so with one reference. -/
def Obligations.NearestReferences : Prop :=
  (∀ (f : Bool) (q : List Byte) (rs : List (List Byte)), 0 < rs.length →
    ((top2 f q rs).1 = none ↔ (∀ k ∈ List.range rs.length, distance f q (rs.getD k []) = none))) ∧
  (∀ (f : Bool) (q : List Byte) (rs : List (List Byte)) (i d : Nat), (top2 f q rs).1 = some (i, d) →
    i < rs.length ∧ distance f q (rs.getD i []) = some d ∧
    (∀ k ∈ List.range rs.length, ∀ e ∈ (distance f q (rs.getD k [])).toList, d ≤ e ∧ (k < i → d < e))) ∧
  (∀ (f : Bool) (q : List Byte) (rs : List (List Byte)) (i d j e : Nat), top2 f q rs = (some (i, d), some (j, e)) →
    j < rs.length ∧ j ≠ i ∧ distance f q (rs.getD j []) = some e ∧ d ≤ e ∧
    (∀ k ∈ List.range rs.length, k ≠ i → ∀ x ∈ (distance f q (rs.getD k [])).toList, e ≤ x ∧ (k < j → e < x))) ∧
  (∀ (f : Bool) (q : List Byte) (rs : List (List Byte)) (i d : Nat), (top2 f q rs).1 = some (i, d) →
    ((top2 f q rs).2 = none ↔ (∀ k ∈ List.range rs.length, k ≠ i → distance f q (rs.getD k []) = none)))

/-- An engine takes a checked job off its reel, PHY first, runs it unit by unit, suspends at most one, and ends it with
STATUS and a done push. An idle engine whose next job block passes its checks pops the handle and runs the job, for
each of the four kinds; a job that fails its checks writes STATUS and its counts and nothing else, and counts in
JOB_ERR. A unit that is not the last leaves the job running; where PHY work waits the job is the one suspended. The
last unit writes STATUS and the counts and pushes the handle. PHY work is chosen first; with a job suspended nothing
else is. A sample at a whole pixel is that pixel; a point off the image has status 4. A solid layer hides what is
under it and a clear one nothing. -/
def Obligations.EngineJobs : Prop :=
  (∀ (r : Fin 1024) (h : Handle) (a n : Nat) (s : State), JobReady .continuity r.val h a n s → leAt (devRead s a 1) 0 1 = 1 →
    JobStarts (.matchJob r) .continuity r.val h a s) ∧
  (∀ (r : Fin 1024) (h : Handle) (a n : Nat) (s : State), JobReady .continuity r.val h a n s → leAt (devRead s a 1) 0 1 = 2 →
    JobStarts (.trackJob r) .continuity r.val h a s) ∧
  (∀ (r : Fin 1024) (h : Handle) (a n : Nat) (s : State), JobReady .matte r.val h a n s → leAt (devRead s a 1) 0 1 = 1 →
    JobStarts (.composeJob r) .matte r.val h a s) ∧
  (∀ (r : Fin 1024) (h : Handle) (a n : Nat) (s : State), JobReady .matte r.val h a n s → leAt (devRead s a 1) 0 1 = 2 →
    JobStarts (.contactJob r) .matte r.val h a s) ∧
  (∀ (r : Fin 1024) (h : Handle) (a n d : Nat) (s : State), engOf .continuity s = {} → engineChoose .continuity s = some (r.val, h) →
    jobBuffer s ((reelOf s r.val).owner.getD 0) h.h = some (a, n) → 64 ≤ n → inAlias a = false → s.mem.wc = [] →
    leAt (devRead s a 1) 0 1 ≠ 2 → blockCheck .continuity s (devRead s a 64) ≠ 0 →
    doneReel s ((reelOf s r.val).owner.getD 0) r.val = some d → (reelOf s d).q.length + pushesWaiting s d (fun _ => true) < 64 →
    Completes (.matchJob r) s (fun t =>
      engOf .continuity t = {} ∧ t.matte = s.matte ∧
      t.mem = (putFields a [(48, leBytes 1 (blockCheck .continuity s (devRead s a 64))), (52, zeros 4)] s).mem ∧
      (rd t 0x70018).toNat = min (2 ^ 32 - 1) ((rd s 0x70018).toNat + 1) ∧ rdb t 0x70008 0 = true ∧
      regsBut [0x70008, if h.phy then 0x70010 else 0x70014, 0x70018] s t ∧ t.out = s.out)) ∧
  (∀ (e : Engine) (c : Nat) (j : EngJob) (s : State), (engOf e s).running = some j → j.done + 1 < j.total →
    ((readyReels e s).any fun x => x.2.phy) = false →
    Completes (.engineUnitEnd e c) s (fun t =>
      t = setEng e { engOf e s with running := some { (runUnit e j s).1 with done := j.done + 1 } } (runUnit e j s).2)) ∧
  (∀ (e : Engine) (c : Nat) (j : EngJob) (s : State), engOf e s = { running := some j } → j.done + 1 < j.total → j.phy = false →
    ((readyReels e s).any fun x => x.2.phy) = true →
    Completes (.engineUnitEnd e c) s (fun t =>
      let k := { (runUnit e j s).1 with done := j.done + 1 };
      ((engOf e t).suspended = some k ∧ ((engOf e t).running.all fun x => x.phy) = true) ∨ engOf e t = { running := some k })) ∧
  (∀ (e : Engine) (c d : Nat) (j : EngJob) (s : State), engOf e s = { running := some j } → j.total ≤ j.done + 1 →
    readyReels e s = [] → doneReel s j.image j.reel = some d → (reelOf s d).q.length + pushesWaiting s d (fun _ => true) < 64 → (reelOf s d).engine ≠ engCode e →
    Completes (.engineUnitEnd e c) s (fun t =>
      let k := (runUnit e j s).1;
      engOf e t = {} ∧
      (reelOf t d).q = (reelOf s d).q ++ [{ h := k.handle, tile := k.tile, cls := k.cls, phy := k.phy, owner := k.owner }] ∧
      t.mem = (putFields k.addr (statusFields e k.block (if k.poisoned then 0x21 else 0) k.count k.skipped) (runUnit e j s).2).mem ∧
      (rd t (engBase e + if j.phy then 0x10 else 0x14)).toNat =
        min (2 ^ 32 - 1) ((rd s (engBase e + if j.phy then 0x10 else 0x14)).toNat + 1))) ∧
  (∀ (e : Engine) (s : State), ((readyReels e s).any fun x => x.2.phy) = true → ((engineChoose e s).any fun x => x.2.phy) = true) ∧
  (∀ (e : Engine) (s : State), (engOf e s).suspended.isSome = true → ((readyReels e s).any fun x => x.2.phy) = false →
    engineChoose e s = none) ∧
  (∀ (j : EngJob) (s : State), mNq j.block = 1 → j.total = 1 → j.done = 0 → mNr j.block ≤ 1024 → 0 < mNr j.block →
    poolBase ≤ mMaddr j.block → mMaddr j.block + 16 ≤ mCaddr j.block → mCaddr j.block + 2 ≤ poolBase + poolSize → hbmSize ≤ poolBase →
    memRead (matchUnit j s).2 (mMaddr j.block) 16 = matchEntry (mFmt j.block) (top2 (mFmt j.block)
      (devRead s (mQaddr j.block) (mSize j.block)) (descriptors s (mRaddr j.block) (mSize j.block) (mNr j.block)))) ∧
  (∀ (im : Pixels) (x y : Int), (sample im (256 * x) (256 * y)).1 = (pixelAt im x y).1) ∧
  (∀ (bs : List Byte) (p0 p1 : List Pixels) (pt : List Byte), offImage bs (signedOf 32 (leAt pt 0 4)) (signedOf 32 (leAt pt 4 4)) = true →
    (trackPoint bs p0 p1 pt).2.2 = 4 ∧ leAt (trackPoint bs p0 p1 pt).1 8 1 = 4 ∧ leAt (trackPoint bs p0 p1 pt).1 0 4 = leAt pt 0 4 ∧
    leAt (trackPoint bs p0 p1 pt).1 4 4 = leAt pt 4 4) ∧
  (∀ (l : Layer) (p d : Px), l.alpha ≤ 255 → p.a ≤ 255 → l.key = false →
    (p.a = 255 → l.alpha = 255 → overPx l p d = { p with bad := p.bad || d.bad }) ∧
    (p.a * l.alpha = 0 → overPx l p d = { d with bad := p.bad || d.bad }))

/-- The canvas is cut into tiles of 64 by 64; layers under the topmost covering OPAQUE one are skipped, the others
fetched, and both are counted. Every pixel of the canvas lies in exactly one tile, and a tile begins at multiples of
64 and is cut to the canvas. A layer covers a tile exactly when it has every pixel of the tile's part in the canvas,
and intersects it exactly when it has one of them. Of a tile's layers, those at or above the topmost covering OPAQUE
one that intersect it are fetched, and those below it that do are skipped; with none that covers, all are fetched that
intersect. A unit adds both numbers to FETCHED and SKIPPED and to the two registers. -/
def Obligations.LayersFetchedAndSkipped : Prop :=
  (∀ (bs : List Byte) (x y : Nat), x < cW bs → y < cH bs →
    y / 64 * tilesAcross bs + x / 64 < composeUnits bs ∧
    (∀ u ∈ List.range (composeUnits bs), ((x, y) ∈ boxPixels (tileBox bs u)) ↔ u = y / 64 * tilesAcross bs + x / 64)) ∧
  (∀ (bs : List Byte) (u : Nat), u < composeUnits bs →
    (tileBox bs u).1 % 64 = 0 ∧ (tileBox bs u).2.1 % 64 = 0 ∧ (tileBox bs u).1 < cW bs ∧ (tileBox bs u).2.1 < cH bs ∧
    (tileBox bs u).2.2.1 = min (cW bs) ((tileBox bs u).1 + 64) ∧ (tileBox bs u).2.2.2 = min (cH bs) ((tileBox bs u).2.1 + 64)) ∧
  (∀ (b : Nat × Nat × Nat × Nat) (l : Layer), b.1 < b.2.2.1 → b.2.1 < b.2.2.2 → 0 < l.w → 0 < l.h →
    layerCovers b l = ((boxPixels b).all fun q => hasPixel l q.1 q.2) ∧ layerMeets b l = ((boxPixels b).any fun q => hasPixel l q.1 q.2)) ∧
  (∀ (b : Nat × Nat × Nat × Nat) (ls : List Layer) (n : Nat), (n = 0 ∨ ((ls[n]?).any fun k => k.solid && layerCovers b k) = true) →
    ((ls.drop (n + 1)).any fun k => k.solid && layerCovers b k) = false →
    fetchSplit b ls = ((ls.drop n).filter (layerMeets b), (ls.take n).filter (layerMeets b))) ∧
  (∀ (j : EngJob) (s : State),
    let f := fetchSplit (tileBox j.block j.done) (layersOf j.block);
    let u := composeUnit j s;
    u.1.count = j.count + f.1.length ∧ u.1.skipped = j.skipped + f.2.length ∧
    (rd u.2 0x80020).toNat = min (2 ^ 32 - 1) ((rd s 0x80020).toNat + f.1.length) ∧
    (rd u.2 0x80024).toNat = min (2 ^ 32 - 1) ((rd s 0x80024).toNat + f.2.length))

/-- Fault events are counted, logged and fence tiles; sags, heat and supply act as ruled; resets keep the holdover domain;
release checks it. An event is one of the unit that holds its address. It adds one to its counter and, where it is
logged, writes the next log entry with its unit, KIND and CAUSE; a single one within the window is only counted; a
lasting or uncorrectable tile fault in SERVICE mode fences the tile. A commit keeps the current copy and makes the
other current. The warning, its end and its clearing set and clear what R411 says; throttling moves the clock by 50
MHz between the floor and FCLK. Each cause of reset leaves the main domain as after reset with its cause latched,
after a commit but for a sag. A cell, feed or regulator event changes only what it names. At release the holdover
check decides INTACT and BOOT_COUNT. -/
def Obligations.FaultsSupplyAndReset : Prop :=
  (∀ (u v : FaultUnit) (cause : Byte) (a : Dword) (w : FaultWork) (k : Nat) (s : State), homeUnit s u a.toNat = v → s.board.inReset = false → unitFenced s v = false →
    reported s v true cause = true → ceLasting s (histOf s (unitKey v)) = false → (histOf s (unitKey v)).logged = some k →
    s.clk - k < ceWindow s →
    Completes (.correctableEvent u cause a w) s (fun t =>
      (rd t 0x50034).toNat = min (2 ^ 32 - 1) ((rd s 0x50034).toNat + 1) ∧ rdb t faultEvent 0 = true ∧
      regsBut [0x50034, faultEvent] s t ∧ (histOf t (unitKey v)).times.head? = some s.clk ∧ (histOf t (unitKey v)).run = false ∧
      t = { s with regs := t.regs, fault := t.fault, funcs := t.funcs, out := t.out })) ∧
  (∀ (u v : FaultUnit) (cause : Byte) (a : Dword) (w : FaultWork) (s : State), homeUnit s u a.toNat = v → s.board.inReset = false → unitFenced s v = false →
    ceLasting s (histOf s (unitKey v)) = false → (histOf s (unitKey v)).logged = none →
    Completes (.correctableEvent u cause a w) s (fun t =>
      let q := rdf s 0x50028 15 0;
      let e := 0x51000 + 32 * (q % 256);
      rdf t 0x50028 15 0 = (q + 1) % 65536 ∧ rd t e = BitVec.ofNat 32 (q + 65536 * ((unitCode v).1 + 256 * (unitCode v).2)) ∧
      rdf t (e + 4) 7 0 = 1 ∧ rdf t (e + 4) 15 8 = cause.toNat ∧ rdf t (e + 4) 23 16 = 0 ∧
      (rd t 0x50034).toNat = min (2 ^ 32 - 1) ((rd s 0x50034).toNat + 1) ∧ t.fault.dirty = true ∧ t.mem = s.mem ∧ t.tiles = s.tiles)) ∧
  (∀ (u v : FaultUnit) (cause : Byte) (a : Dword) (w : FaultWork) (s : State), homeUnit s u a.toNat = v → s.board.inReset = false → unitFenced s v = false →
    ceLasting s (histOf s (unitKey v)) = true → (histOf s (unitKey v)).run = false → eventMode s v w ≠ 1 →
    Completes (.correctableEvent u cause a w) s (fun t =>
      let e := 0x51000 + 32 * (rdf s 0x50028 15 0 % 256);
      rdb t faultEvent 2 = true ∧ rdf t (e + 4) 7 0 = 3 ∧ rdf t (e + 4) 15 8 = cause.toNat ∧
      (∀ n ∈ List.finRange 64, v = .tile n → fenced t n = true ∧ (threadOf t n 0).run = .stopped ∧ (threadOf t n 1).run = .stopped))) ∧
  (∀ (n : TileIx) (cause : Byte) (d : Dword) (w : FaultWork) (s : State), s.board.inReset = false → fenced s n = false →
    eventMode s (.tile n) w ≠ 1 →
    Completes (.uncorrectableEvent (.tile n) cause d w) s (fun t =>
      let e := 0x51000 + 32 * (rdf s 0x50028 15 0 % 256);
      fenced t n = true ∧ (threadOf t n 0).run = .stopped ∧ (threadOf t n 1).run = .stopped ∧ rdb t faultEvent 1 = true ∧
      rdf t (e + 4) 7 0 = 2 ∧ rdf t (e + 4) 15 8 = cause.toNat ∧ rdf t (e + 4) 23 16 = 1)) ∧
  (∀ (c k : Fin 4) (cause : Byte) (d : Dword) (s : State), s.board.inReset = false → homeUnit s (.hbm c) d.toNat = .hbm k → reported s (.hbm k) false cause = false →
    d.toNat < hbmSize →
    Completes (.uncorrectableEvent (.hbm c) cause d .none) s (fun t =>
      let e := 0x51000 + 32 * (rdf s 0x50028 15 0 % 256);
      memPoisoned t (d.toNat / 32 * 32) 32 = true ∧ rdb t (hbmReg k 0xC) 1 = true ∧ rdb t faultEvent 1 = true ∧
      rdf t (e + 4) 7 0 = 2 ∧ rdf t (e + 4) 23 16 = 0 ∧
      (rd t 0x50038).toNat = min (2 ^ 32 - 1) ((rd s 0x50038).toNat + 1) ∧ memSame s t ∧ t.tiles = s.tiles)) ∧
  (∀ (s : State), s.fault.dirty = true → Completes (.ledgerCommit) s (fun t =>
    Committed s t ∧ t.fault.dirty = false ∧ regsBut [0x50044] s t ∧ t = { s with regs := t.regs, hold := t.hold, fault := t.fault })) ∧
  (∀ (s : State), s.fault.dirty = false → exec (.ledgerCommit) s = .next s) ∧
  (∀ (mv : Nat) (s : State), s.board.inReset = false → vBase s ≤ mv + vWarn s → vBase s ≤ mv + vReset s → 0 < mv → mv < 2 ^ 32 →
    Completes (.sagWarning mv) s (fun t =>
      (rd t 0x40034).toNat = (if rd s 0x40034 = 0 then mv else min mv (rd s 0x40034).toNat) ∧ regsBut [0x40034] s t ∧
      t = { s with regs := t.regs })) ∧
  (∀ (mv : Nat) (s : State), s.board.inReset = false → mv + vWarn s < vBase s → rdb s gafferStatus 0 = false →
    (s.items.any (onPhyTile s)) = false → (s.jobs.any fun j => j.running) = false →
    Completes (.sagWarning mv) s (fun t =>
      rdb t gafferStatus 0 = true ∧ rdb t gafferStatus 1 = true ∧ rdb t gafferEvent 0 = true ∧ t.board.aboveFrom = none ∧
      (rd t 0x40050).toNat = min (2 ^ 32 - 1) ((rd s 0x40050).toNat + 1) ∧ Committed s t ∧
      (mv + vReset s < vBase s → (rd t 0x40054).toNat = min (2 ^ 32 - 1) ((rd s 0x40054).toNat + 1)) ∧
      (∀ n ∈ List.range 64, n < Config.nTiles → tileOf t n = (if tileRole s n ≠ 0 ∧ partKind s (tilePart s n) = 3 then { tileOf s n with stalled := true } else tileOf s n)) ∧
      t.mem = s.mem ∧ t.items.length = s.items.length)) ∧
  (∀ (s : State), rdb s gafferStatus 1 = true → ticksUs ≤ s.clk →
    Completes (.stretchEnd) s (fun t =>
      rdb t gafferStatus 1 = false ∧ rdb t gafferStatus 0 = rdb s gafferStatus 0 ∧ t.board.aboveFrom = some (s.clk - ticksUs) ∧
      regsBut [gafferStatus] s t)) ∧
  (∀ (k : Nat) (s : State), s.board.aboveFrom = some k → rdb s gafferStatus 0 = true → rdb s gafferStatus 1 = false →
    Completes (.sagClear) s (fun t =>
      rdb t gafferStatus 0 = false ∧ rdb t gafferEvent 1 = true ∧ k + (rd s 0x40014).toNat * ticksUs ≤ t.clk ∧ t.mem = s.mem ∧
      (∀ n ∈ List.range 64, n < Config.nTiles → tileRole s n ≠ 0 → partKind s (tilePart s n) = 3 → tileOf t n = { tileOf s n with stalled := false }))) ∧
  (∀ (tj : Byte) (w : Nat) (s : State), s.board.inReset = false → w < 2 ^ 32 →
    Completes (.throttleStep tj w) s (fun t =>
      let f := (rd s 0x40038).toNat;
      let hot := (rd s 0x40024).toNat ≤ tj.toNat ∨ (rd s 0x40020).toNat < w;
      (hot → (rd t 0x40038).toNat = max (min f (clockFloor s)) (f - 50)) ∧
      (¬ hot → tj.toNat + 3 < (rd s 0x40024).toNat → 100 * w ≤ 95 * (rd s 0x40020).toNat →
        (rd t 0x40038).toNat = min (max f (rdf s 0x40018 10 0)) (f + 50)) ∧
      (¬ hot → (rd s 0x40024).toNat ≤ tj.toNat + 3 → (rd t 0x40038).toNat = f) ∧
      (rd t 0x4003C).toNat = tj.toNat ∧ (rd t 0x40040).toNat = w ∧ rdb t gafferStatus 2 = decide ((rd s 0x40024).toNat ≤ tj.toNat) ∧
      (105 ≤ tj.toNat → rdb t gafferEvent 3 = true) ∧ t.clk % ticksMs = 0 ∧ t.mem = s.mem ∧ t.tiles = s.tiles)) ∧
  (∀ (s : State), s.board.inReset = false → Completes (.sagReset) s (fun t => ResetBy 1 s t ∧ t.hold = { s.hold with cause := 1 })) ∧
  (∀ (tj : Byte) (s : State), s.board.inReset = false → 115 ≤ tj.toNat →
    Completes (.thermalTrip tj) s (fun t => ResetBy 2 s t ∧ Committed s t ∧ t.board.thermTripN = false ∧ ∃ pre, t.out = pre ++ [.pin 1 false])) ∧
  (∀ (s : State), s.board.thermTripN = false → s.board.pwrGood = false →
    Completes (.thermTripRelease) s (fun t =>
      t.board.thermTripN = true ∧ s.board.pwrAt + 10 * ticksMs ≤ t.clk ∧ t.mem = s.mem ∧ t.hold = s.hold ∧ ∃ pre, t.out = pre ++ [.pin 1 true])) ∧
  (∀ (rail : BitVec 4) (s : State), s.board.inReset = false →
    Completes (.railOutOfRange rail) s (fun t =>
      rdb t gafferEvent 5 = true ∧ reported t .gaffer true 5 = true ∧ regsBut [gafferEvent] s t ∧
      t = { s with regs := t.regs, fault := t.fault, funcs := t.funcs, out := t.out })) ∧
  (∀ (mv : Nat) (s : State), s.board.inReset = false →
    Completes (.vbatLow mv) s (fun t =>
      t.hold = { s.hold with vbat := mv } ∧ (mv < 2500 → rdb t gafferEvent 4 = true) ∧ (2500 ≤ mv → t.regs = s.regs) ∧
      regsBut [gafferEvent] s t ∧ t = { s with regs := t.regs, hold := t.hold, funcs := t.funcs, out := t.out })) ∧
  (∀ (s : State), exec (.mainFeedFail) s = .next { s with hold := { s.hold with onMain := false } } ∧
    exec (.mainFeedRestored) s = .next { s with hold := { s.hold with onMain := true } } ∧
    exec (.holdoverSupplyDrop) s = .next { s with hold := { s.hold with intact := false } } ∧
    exec (.avsComplete) s = .next { s with board := { s.board with avs := none } }) ∧
  (∀ (s : State), s.board.inReset = false → s.board.pwrGood = true →
    Completes (.pwrGoodFall) s (fun t => ResetBy 0 s t ∧ Committed s t ∧ t.board.pwrGood = false ∧ t.mgmt.unlocked = false)) ∧
  (∀ (s : State), s.board.inReset = false →
    Completes (.perstFall) s (fun t => ResetBy 3 s t ∧ Committed s t ∧ t.board.perstN = false) ∧
    Completes (.refclkSysStop) s (fun t => ResetBy 0 s t ∧ Committed s t ∧ t.board.refSys = false) ∧
    Completes (.avsTimeout) s (fun t => ResetBy 4 s t ∧ Committed s t)) ∧
  (∀ (s : State), s.board.inReset = true →
    Completes (.sagReset) s (fun t => t.hold = s.hold ∧ t.regs = s.regs) ∧ Completes (.perstFall) s (fun t => t.hold = s.hold ∧ t.regs = s.regs)) ∧
  (∀ (a : Avs) (s : State), s.board.avs = some a →
    vBase s = min a.old a.new ∧
    Completes (.avsThresholdTimeout) s (fun t => t.board.avs = none ∧ a.since + ticksMs ≤ t.clk ∧ t.mem = s.mem ∧ t.hold = s.hold)) ∧
  (∀ (s : State), s.mgmt.dmc.isSome = true →
    exec (.dmcHeartbeat) s = .next { s with mgmt := { s.mgmt with beat := s.clk } }) ∧
  (∀ (s : State), s.mgmt.dmc.isSome = true → s.board.inReset = false →
    Completes (.dmcHeartbeatTimeout) s (fun t => ResetBy 4 s t ∧ Committed s t ∧ s.mgmt.beat + 100 * ticksMs ≤ t.clk)) ∧
  (∀ (sigs : List (Bool × Bool)) (s : State), s.board.inReset = true → s.hold.onMain = true → s.board.thermTripN = true → s.mgmt.scanHold = false →
    Completes (.resetRelease sigs) s (fun t =>
      let ok := s.hold.intact && s.hold.canary && (currentCopy s.hold).isSome;
      t.board.inReset = false ∧ t.hold.intact = true ∧ t.hold.canary = true ∧ (currentCopy t.hold).isSome = true ∧
      t.hold.bootCount = (if ok then s.hold.bootCount + 1 else 1) ∧ rdb t 0x50040 0 = ok ∧ rdb t 0x50040 1 = s.hold.intact ∧
      (ok = false → rdb t faultEvent 6 = true) ∧ (t.mgmt.recovery = true ∨ t.mgmt.mfw.isSome = true))) ∧
  (∀ (sigs : List (Bool × Bool)) (s : State), s.board.inReset = true → (s.hold.onMain = false ∨ s.board.thermTripN = false) →
    exec (.resetRelease sigs) s = .next s)

/-- Links train, count errors, degrade and fence; messages are delivered once and in order; each kind has its effect;
groups break on a difference. Training ends in CAL with the peer's number, calibration in UP; training not done is
begun again. A bad flit adds one to RX_ERR and is asked for again; at 128 UP becomes DEGRADED, at 255 a link is
FENCED; the decay takes one off and ends DEGRADED. A message for another chip goes on; one delivered before is
discarded and counted; an early one is held, a gap unfilled for 50 µs skipped and counted. A due ARM arms the slate on
a member that may, and is refused else; ACK notes the child; BREAK disarms; ARRIVE, REDUCE and BCAST join what has
come; TIME measures or is answered; DATA changes nothing. A report of other group settings breaks the group. -/
def Obligations.SpliceFabric : Prop :=
  (∀ (l : Fin 12) (peer : BitVec 14) (s : State), linkState s l = 1 →
    Completes (.linkTrainDone l peer) s (fun t =>
      linkState t l = 2 ∧ linkPeer t l = peer.toNat ∧ rdb t spliceEvent 0 = true ∧ regsBut [linkReg l 4, 0xB0004, spliceEvent] s t ∧
      t = { s with regs := t.regs, funcs := t.funcs, out := t.out })) ∧
  (∀ (l : Fin 12) (s : State), linkState s l = 1 →
    Completes (.linkTrainRetry l) s (fun t =>
      (linkOf t l).trainAt = t.clk ∧ (linkOf s l).trainAt + 200 * ticksMs ≤ t.clk ∧ linkState t l = 1 ∧ t.mem = s.mem ∧
      ∃ pre, t.out = pre ++ [.spliceLink l 0 0])) ∧
  (∀ (l : Fin 12) (s : State), linkState s l = 2 →
    Completes (.linkCalDone l) s (fun t =>
      linkState t l = 3 ∧ linkUsable t l = true ∧ rdb t 0xB0004 l = true ∧ regsBut [linkReg l 4, 0xB0004, spliceEvent] s t ∧
      t = { s with regs := t.regs, funcs := t.funcs, out := t.out })) ∧
  (∀ (l : Fin 12) (replay : Bool) (n : Nat) (s : State), linkCarries s l = true → linkErr s l < 95 →
    (rd s (linkReg l 0xC)).toNat < 256 →
    Completes (.flitReceive l false replay n) s (fun t =>
      (rd t (linkReg l 0xC)).toNat = min 255 ((rd s (linkReg l 0xC)).toNat + 1) ∧ regsBut [linkReg l 0xC] s t ∧
      t = { s with regs := t.regs, out := s.out ++ [.spliceLink l 1 0] })) ∧
  (∀ (l : Fin 12) (replay : Bool) (n : Nat) (s : State), linkState s l = 3 → rd s (linkReg l 0xC) = 127 → rdf s (linkReg l 8) 7 0 ≤ 127 →
    Completes (.flitReceive l false replay n) s (fun t =>
      linkState t l = 4 ∧ rdb t spliceEvent 2 = true ∧ (rd t (linkReg l 0xC)).toNat = 128 ∧ linkUsable t l = true)) ∧
  (∀ (l : Fin 12) (replay : Bool) (n : Nat) (s : State), linkUsable s l = true → rd s (linkReg l 0xC) = 254 →
    (linkOf s l).queue = [] → (linkOf s l).replay = [] →
    Completes (.flitReceive l false replay n) s (fun t => linkState t l = 5 ∧ rdb t spliceEvent 3 = true ∧ linkUsable t l = false)) ∧
  (∀ (l : Fin 12) (n : Nat) (s : State), linkUsable s l = true → (linkOf s l).queue = [] →
    Completes (.flitReceive l true false n) s (fun t =>
      (linkOf t l).replay = ackFlits n (linkOf s l).replay ∧ t.regs = s.regs ∧ t.out = s.out ∧ t.mem = s.mem)) ∧
  (∀ (s : State), Completes (.errDecay) s (fun t =>
    ∀ l ∈ List.range 12, rdf t (linkReg l 8) 7 0 = rdf s (linkReg l 8) 7 0 - 1 ∧ rdf t (linkReg l 0xC) 7 0 = rdf s (linkReg l 0xC) 7 0 - 1 ∧
      linkState t l = (if linkState s l = 4 ∧ linkErr s l ≤ 96 then 3 else linkState s l))) ∧
  (∀ (l k : Fin 12) (m : SMsg) (s : State), linkUsable s l = true → m.kind.toNat = 7 → m.coded = false → m.dst.toNat ≠ chipNum s →
    rdb s (linkReg k 0) 1 = false → RoomOn k m.dst.toNat 2 (flitsOf m) s →
    Completes (.dataMessage l m) s (fun t =>
      t.out = s.out ++ [.splice k m] ∧ t.splice.seqRx = s.splice.seqRx ∧ regsBut [linkReg l 0x18, linkReg k 0x14] s t ∧
      t = { s with regs := t.regs, out := t.out, splice := { s.splice with links := t.splice.links } })) ∧
  (∀ (l : Fin 12) (m : SMsg) (s : State), linkUsable s l = true → m.kind.toNat = 7 → m.coded = false → m.dst.toNat = chipNum s →
    32768 ≤ seqAhead s m →
    Completes (.dataMessage l m) s (fun t =>
      (rd t 0xB002C).toNat = min (2 ^ 32 - 1) ((rd s 0xB002C).toNat + 1) ∧ regsBut [linkReg l 0x18, 0xB002C] s t ∧
      t = { s with regs := t.regs, splice := { s.splice with links := t.splice.links } })) ∧
  (∀ (l : Fin 12) (m : SMsg) (s : State), linkUsable s l = true → m.kind.toNat = 7 → m.coded = false → m.dst.toNat = chipNum s →
    0 < seqAhead s m → seqAhead s m < 256 → (s.splice.early.any fun x => decide (msgKey x.1 = msgKey m)) = false →
    Completes (.dataMessage l m) s (fun t =>
      t.splice.early = s.splice.early ++ [(m, s.clk)] ∧ t.splice.seqRx = s.splice.seqRx ∧ regsBut [linkReg l 0x18] s t ∧ t.out = s.out)) ∧
  (∀ (m : SMsg) (k : Nat) (s : State), s.splice.early = [(m, k)] → m.kind.toNat = 7 →
    Completes (.e2eGap m.src 2) s (fun t =>
      t.splice.early = [] ∧ nextSeq t (msgKey m) = (m.seq.toNat + 1) % 65536 ∧ k + 50 * ticksUs ≤ t.clk ∧
      (rd t 0xB0030).toNat = min (2 ^ 32 - 1) ((rd s 0xB0030).toNat + 1) ∧ t.mem = s.mem ∧ t.items = s.items)) ∧
  (∀ (l : Fin 12) (m : SMsg) (s : State), MsgDue l m 7 s →
    Completes (.dataMessage l m) s (fun t =>
      MsgTaken l m [] s t ∧ t = { s with regs := t.regs, splice := { s.splice with links := t.splice.links, seqRx := t.splice.seqRx } })) ∧
  (∀ (l : Fin 12) (m : SMsg) (o : Offset) (s : State), MsgDue l m 0 s → timeFollow s = true → parentLink s = l →
    Completes (.timeMessage l m o) s (fun t =>
      nextSeq t (msgKey m) = (m.seq.toNat + 1) % 65536 ∧ t.splice.lastTime = s.clk ∧ t.mem = s.mem ∧ t.splice.slates = s.splice.slates)) ∧
  (∀ (l k : Fin 12) (m : SMsg) (o : Offset) (s : State), MsgDue l m 0 s → timeFollow s = false → RoomOn k m.src.toNat 0 1 s →
    Completes (.timeMessage l m o) s (fun t =>
      MsgTaken l m [linkReg k 0x14] s t ∧
      (∃ pre, t.out = pre ++ [.splice k { m with dst := m.src, src := BitVec.ofNat 14 (chipNum s), last := true, payload := [], seq := BitVec.ofNat 16 (tabGet (fun _ => 0) s.splice.seqTx (4 * m.src.toNat)) }]) ∧
      t.time = s.time)) ∧
  (∀ (k : Fin 12) (s : State), timeFollow s = true → RoomOn k (linkPeer s (parentLink s)) 0 1 s →
    Completes (.timeExchangeSend) s (fun t =>
      (t.out.any fun x => match x with | .splice l m => decide (l = k.val ∧ m.kind = 0 ∧ m.dst.toNat = linkPeer s (parentLink s) % 16384) | _ => false) = true ∧
      regsBut [linkReg k 0x14] s t ∧ t.time = s.time)) ∧
  (∀ (d : Nat) (s : State), timeFollow s = true → timeState s = 3 → d ≤ 8 →
    Completes (.pathCorrection d) s (fun t =>
      rdb t 0xB0014 0 = true ∧ rdf t 0xB0014 7 4 = d ∧ rdb t spliceEvent 5 = true ∧ regsBut [0xB0014, spliceEvent] s t ∧
      t = { s with regs := t.regs, funcs := t.funcs, out := t.out })) ∧
  (∀ (d : Nat) (s : State), timeFollow s = true → timeState s = 3 → 8 < d →
    Completes (.pathCorrection d) s (fun t =>
      rdb t 0xB0014 0 = false ∧ rdf t 0xB0014 7 4 = min d 15 ∧ regsBut [0xB0014] s t ∧
      (rdb s 0xB0014 0 = true → t.splice.uncalFrom = s.clk) ∧ t.out = s.out)) ∧
  (∀ (l : Fin 12) (m : SMsg) (s : State), MsgDue l m 1 s → groupUsable s m.group.val = true → groupCoord s m.group.val = false →
    refusesArm s (leAt m.payload 0 16) = false → m.tag.toNat % 65536 < 32768 →
    ((groupParent s m.group.val).all fun p => canSend s p 2) = true →
    anyUnreached s 1 (groupChildren s m.group.val) = false →
    Completes (.armMessage l m) s (fun t =>
      t.splice.slates = s.splice.slates ++ [{ group := m.group, id := BitVec.ofNat 16 (m.tag.toNat % 65536), time := leAt m.payload 0 16, acks := [], ref := none }] ∧
      nextSeq t (msgKey m) = (m.seq.toNat + 1) % 65536 ∧ t.jobs = s.jobs ∧ t.mem = s.mem)) ∧
  (∀ (l : Fin 12) (m : SMsg) (s : State), MsgDue l m 1 s → groupUsable s m.group.val = true → groupRank s m.group.val ≠ 0 →
    refusesArm s (leAt m.payload 0 16) = true →
    Completes (.armMessage l m) s (fun t =>
      t.splice.slates = s.splice.slates ∧ nextSeq t (msgKey m) = (m.seq.toNat + 1) % 65536 ∧ t.jobs = s.jobs ∧ t.mem = s.mem)) ∧
  (∀ (l : Fin 12) (m : SMsg) (x : Slate) (s : State), MsgDue l m 2 s → groupUsable s m.group.val = true → groupCoord s m.group.val = true →
    leAt m.payload 0 1 = 0 → s.splice.slates = [x] → x.group = m.group → x.id.toNat = m.tag.toNat % 65536 → x.acks.contains m.src = false →
    Completes (.ackMessage l m) s (fun t =>
      t.splice.slates = [{ x with acks := x.acks ++ [m.src] }] ∧ MsgTaken l m [] s t ∧ t.out = s.out)) ∧
  (∀ (l : Fin 12) (m : SMsg) (s : State), MsgDue l m 3 s → groupValid s m.group.val = true → groupMember s m.group.val = true →
    (s.jobs.all fun j => decide (j.group ≠ m.group)) = true →
    Completes (.breakMessage l m) s (fun t =>
      t.splice.slates = s.splice.slates.filter (fun x => !slateIs m.group (m.tag.toNat % 65536) x) ∧
      nextSeq t (msgKey m) = (m.seq.toNat + 1) % 65536 ∧ rdb t spliceEvent 4 = true ∧
      (rd t 0xB0028).toNat = min (2 ^ 32 - 1) ((rd s 0xB0028).toNat + 1) ∧
      (leAt m.payload 0 1 = 0xFF → groupBroken t m.group.val = true) ∧ t.mem = s.mem)) ∧
  (∀ (l : Fin 12) (m : SMsg) (s : State), MsgDue l m 4 s → groupUsable s m.group.val = true →
    (groupChildren s m.group.val).contains m.src.toNat = true → groupJob s m.group = none →
    (barrierOf s m.group (m.tag.toNat % 65536)).arrived.contains m.src = false →
    Completes (.arriveMessage l m) s (fun t =>
      let b := barrierOf s m.group (m.tag.toNat % 65536);
      let c := barrierOf t m.group (m.tag.toNat % 65536);
      c.arrived = b.arrived ++ [m.src] ∧ c.sum = b.sum + BitVec.ofNat 64 (leAt m.payload 0 8) ∧ c.halted = b.halted ∧
      MsgTaken l m [] s t ∧ t.out = s.out ∧ t.mem = s.mem)) ∧
  (∀ (l : Fin 12) (m : SMsg) (s : State), MsgDue l m 5 s → groupUsable s m.group.val = true →
    (groupChildren s m.group.val).contains m.src.toNat = true → groupJob s m.group = none →
    Completes (.reduceMessage l m) s (fun t =>
      (collOf t m.group m.tag.toNat).arrivals = (collOf s m.group m.tag.toNat).arrivals ++ [(some m.src, m.payload, m.last)] ∧
      MsgTaken l m [] s t ∧ t.out = s.out ∧ t.mem = s.mem)) ∧
  (∀ (l : Fin 12) (m : SMsg) (s : State), MsgDue l m 6 s → groupUsable s m.group.val = true → groupCoord s m.group.val = false →
    m.last = false → groupChildren s m.group.val = [] →
    Completes (.bcastMessage l m) s (fun t =>
      (collOf t m.group m.tag.toNat).down = (collOf s m.group m.tag.toNat).down ++ m.payload ∧ MsgTaken l m [] s t ∧ t.out = s.out ∧
      t.mem = s.mem)) ∧
  (∀ (g : Fin 16) (child base : BitVec 14) (size : BitVec 15) (fanout : BitVec 4) (locked lock : Bool) (s : State),
    (groupUsable s g.val = false ∨ (base.toNat = groupBase s g.val ∧ size.toNat = groupSize s g.val ∧ fanout.toNat = groupFanout s g.val ∧ locked = groupLocked s g.val ∧ lock = detLock s)) →
    exec (.groupJoin g child base size fanout locked lock) s = .next s) ∧
  (∀ (g : Fin 16) (child base : BitVec 14) (size : BitVec 15) (fanout : BitVec 4) (locked lock : Bool) (s : State), groupUsable s g.val = true →
    (groupChildren s g.val).contains child.toNat = true → (s.jobs.all fun j => decide (j.group ≠ g)) = true →
    (base.toNat ≠ groupBase s g.val ∨ size.toNat ≠ groupSize s g.val ∨ fanout.toNat ≠ groupFanout s g.val ∨ locked ≠ groupLocked s g.val ∨ lock ≠ detLock s) →
    Completes (.groupJoin g child base size fanout locked lock) s (fun t =>
      groupBroken t g.val = true ∧ groupUsable t g.val = false ∧ t.mem = s.mem))

/-- Characters are received, framed and judged; recovery frames write, install and report; the TAP's instructions select,
unlock, hold and release. A character with a high stop bit is counted under the firmware and joins the console's frame
in recovery, where only 0xA5 begins one; one with a low stop bit counts as a framing error, and as a break if all bits
are low. A WRITE stores its payload, an INSTALL of a valid image puts it into the slot's region and resets with cause
4, STATUS reports the floors; a bad frame is refused with reason 1 or 2 and changes nothing. EXTEST, CLAMP and HIGHZ
commit and hold the main domain in reset; leaving the scan boots it. A right response unlocks at a reset; codes that
are not available select BYPASS and are counted. -/
def Obligations.ConsoleAndJtagPort : Prop :=
  (∀ (c : Byte) (s : State), s.board.inReset = false → s.mgmt.recovery = false → rdb s 0xE0080 12 = true → s.mgmt.uartWait = false →
    Completes (.uartCharacter (List.replicate 16 false ++ (List.range 8).flatMap (fun k => List.replicate 16 (c.getLsbD k)) ++ List.replicate 16 true)) s (fun t =>
      (rd t 0xE0084).toNat = min (2 ^ 32 - 1) ((rd s 0xE0084).toNat + 1) ∧ regsBut [0xE0084] s t ∧ t = { s with regs := t.regs })) ∧
  (∀ (c : Byte) (s : State), s.board.inReset = false → s.mgmt.recovery = false → rdb s 0xE0080 12 = true → s.mgmt.uartWait = false →
    Completes (.uartCharacter (List.replicate 16 false ++ (List.range 8).flatMap (fun k => List.replicate 16 (c.getLsbD k)) ++ List.replicate 16 false)) s (fun t =>
      (rd t 0xE0088).toNat = min (2 ^ 32 - 1) ((rd s 0xE0088).toNat + 1) ∧ rdb t mgmtEvent 4 = true ∧
      t.mgmt.uartWait = decide (c = 0) ∧
      (rd t 0xE0090).toNat = (if c = 0 then min (2 ^ 32 - 1) ((rd s 0xE0090).toNat + 1) else (rd s 0xE0090).toNat) ∧
      regsBut [0xE0084, 0xE0088, 0xE0090, mgmtEvent] s t)) ∧
  (∀ (c : Byte) (s : State), s.board.inReset = false → s.mgmt.recovery = true → s.mgmt.uartWait = false → s.mgmt.uartRx.length < 64 →
    Completes (.uartCharacter (List.replicate 16 false ++ (List.range 8).flatMap (fun k => List.replicate 16 (c.getLsbD k)) ++ List.replicate 16 true)) s (fun t =>
      t.mgmt.uartRx = (if s.mgmt.uartRx = [] ∧ c ≠ 0xA5 then [] else s.mgmt.uartRx ++ [c]) ∧ t.regs = s.regs ∧ t.out = s.out)) ∧
  (∀ (f : RecFrame) (s : State), s.mgmt.recovery = true → f.typ = 1 → f.crc.toNat = frameCrc f → f.len.toNat ≤ 1024 →
    f.payload.length = f.len.toNat → f.offset.toNat + f.len.toNat ≤ 0x800000 →
    Completes (.recoveryWrite f) s (fun t =>
      recRead t.mgmt f.offset.toNat f.len.toNat = f.payload ∧ t.mgmt.uartRx = [] ∧ t.out = s.out ++ [.uart [6]] ∧
      t = { s with mgmt := { s.mgmt with uartRx := [], recBuf := t.mgmt.recBuf }, out := t.out })) ∧
  (∀ (f : RecFrame) (s : State), s.mgmt.recovery = true →
    (f.crc.toNat ≠ frameCrc f ∨ f.payload.length ≠ f.len.toNat ∨ (f.typ = 1 ∧ 1024 < f.len.toNat) ∨ (f.typ ≠ 1 ∧ 0 < f.len.toNat)) →
    (∀ i ∈ [Instr.recoveryWrite f, Instr.recoveryInstall f true true true, Instr.recoveryStatus f], Completes i s (fun t =>
      (t = s ∨ t.out = s.out ++ [.uart [0x15, if f.crc.toNat ≠ frameCrc f then 1 else 2]]) ∧ t.mgmt.flash = s.mgmt.flash ∧
      t.mgmt.recBuf = s.mgmt.recBuf ∧ t.regs = s.regs))) ∧
  (∀ (f : RecFrame) (k p : Bool) (s : State), s.mgmt.recovery = true → s.board.inReset = false → f.typ = 2 → f.crc.toNat = frameCrc f →
    f.len = 0 → f.payload = [] → f.offset.toNat < 2 →
    imageFail s ((recImage s.mgmt).take ((recImage s.mgmt).length - 96)) (decide (leAt (recImage s.mgmt) 4 1 = 2)) k p = 0 →
    Completes (.recoveryInstall f k p true) s (fun t =>
      let img := recImage s.mgmt;
      flashRead t.mgmt (regionAt (2 * f.offset.toNat + (if leAt img 4 1 = 2 then 1 else 0))) img.length = img ∧
      (currentCfg t.mgmt).1.active = decide (f.offset.toNat = 1) ∧ (currentCfg t.mgmt).1.trial = false ∧
      t.board.inReset = true ∧ t.hold.cause = 4 ∧ t.out = s.out ++ [.uart [6]])) ∧
  (∀ (f : RecFrame) (p : Bool) (s : State), s.mgmt.recovery = true → f.typ = 2 → f.crc.toNat = frameCrc f → f.len = 0 → f.payload = [] →
    f.offset.toNat < 2 →
    Completes (.recoveryInstall f false p true) s (fun t => t.out = s.out ++ [.uart [0x15, 3]] ∧ t.mgmt.flash = s.mgmt.flash ∧ t.regs = s.regs)) ∧
  (∀ (f : RecFrame) (s : State), s.mgmt.recovery = true → f.typ = 3 → f.crc.toNat = frameCrc f → f.len = 0 → f.payload = [] →
    Completes (.recoveryStatus f) s (fun t =>
      t.out = s.out ++ [.uart (6 :: (leBytes 1 (floorOf s false) ++ leBytes 1 (floorOf s true) ++ ((List.range 4).map fun k => BitVec.ofNat 8 (rdf s 0xE0028 (4 * k + 3) (4 * k))) ++ zeros 2))] ∧
      t = { s with mgmt := { s.mgmt with uartRx := [] }, out := t.out })) ∧
  (∀ (s : State), s.mgmt.recovery = true → s.mgmt.uartRx ≠ [] →
    Completes (.recoveryFrameTimeout) s (fun t =>
      t.mgmt.uartRx = [] ∧ t.clk = s.clk + 100 * ticksMs ∧ (∃ pre, t.out = pre ++ [.uart [0x15, 1]]) ∧ t.mgmt.recBuf = s.mgmt.recBuf)) ∧
  (∀ (s : State), s.board.inReset = false →
    Completes (.extest) s (fun t => ResetBy 5 s t ∧ Committed s t ∧ t.mgmt.ir = .extest ∧ t.mgmt.scanHold = true) ∧
    Completes (.clamp) s (fun t => ResetBy 5 s t ∧ Committed s t ∧ t.mgmt.ir = .clamp ∧ t.mgmt.scanHold = true) ∧
    Completes (.highz) s (fun t => ResetBy 5 s t ∧ Committed s t ∧ t.mgmt.ir = .highz ∧ t.mgmt.scanHold = true)) ∧
  (∀ (s : State), exec (.idcode) s = .next { s with mgmt := { s.mgmt with ir := .idcode }, out := s.out ++ [.jtag 32 0x171649AB] } ∧
    exec (.samplePreload) s = .next { s with mgmt := { s.mgmt with ir := .sample } } ∧
    exec (.bypass 0xFF) s = .next { s with mgmt := { s.mgmt with ir := .bypass } }) ∧
  (∀ (s : State), s.mgmt.jtagMode = 1 →
    Completes (.unlockChal) s (fun t =>
      t.mgmt.ir = .unlockChal ∧ (t.mgmt.nonce.map List.length) = some 4 ∧ t.mgmt.unlocked = s.mgmt.unlocked ∧
      (t.out.any fun x => match x with | .jtag n v => decide (n = 512 ∧ v % 2 ^ 256 = Config.serialNumber.toNat) | _ => false) = true ∧
      t.regs = s.regs ∧ t.board = s.board)) ∧
  (∀ (s : State), s.mgmt.jtagMode = 1 → s.mgmt.nonce.isSome = true → s.board.inReset = false →
    Completes (.unlockResp true) s (fun t => t.mgmt.unlocked = true ∧ t.mgmt.nonce = none ∧ ResetBy 5 s t ∧ Committed s t) ∧
    Completes (.unlockResp false) s (fun t => t.mgmt.unlocked = s.mgmt.unlocked ∧ t.mgmt.nonce = none ∧ t.regs = s.regs ∧ t.board = s.board)) ∧
  (∀ (code : Byte) (s : State), debugOpen s.mgmt = true → 0x20 ≤ code.toNat → code.toNat ≤ 0x3F →
    Completes (.debugAccess code) s (fun t =>
      t.mgmt.ir = .debug code ∧ rdb t mgmtEvent 3 = true ∧ regsBut [mgmtEvent] s t ∧
      t = { s with regs := t.regs, mgmt := { s.mgmt with ir := .debug code }, funcs := t.funcs, out := t.out })) ∧
  (∀ (code : Byte) (s : State), code ≠ 0xFF → jtagListed s.mgmt code = false →
    Completes (.bypass code) s (fun t =>
      t.mgmt.ir = .bypass ∧ (rd t 0xE00C4).toNat = min (2 ^ 32 - 1) ((rd s 0xE00C4).toNat + 1) ∧ regsBut [0xE00C4] s t ∧
      t = { s with regs := t.regs, mgmt := { s.mgmt with ir := .bypass } }) ∧
    Completes (.debugAccess code) s (fun t =>
      t.mgmt.ir = .bypass ∧ (rd t 0xE00C4).toNat = min (2 ^ 32 - 1) ((rd s 0xE00C4).toNat + 1) ∧ regsBut [0xE00C4] s t ∧
      t = { s with regs := t.regs, mgmt := { s.mgmt with ir := .bypass } })) ∧
  (∀ (s : State), s.mgmt.jtagMode ≠ 1 →
    Completes (.unlockChal) s (fun t => t.mgmt.ir = .bypass ∧ t.mgmt.unlocked = s.mgmt.unlocked ∧ regsBut [0xE00C4] s t) ∧
    Completes (.unlockResp true) s (fun t => t.mgmt.ir = .bypass ∧ t.mgmt.unlocked = s.mgmt.unlocked ∧ regsBut [0xE00C4] s t)) ∧
  (∀ (sigs : List (Bool × Bool)) (s : State), s.mgmt.scanHold = true → s.board.inReset = true → s.hold.onMain = true → s.board.thermTripN = true →
    s.board.pwrGood = true → s.board.perstN = true → s.board.refSys = true → s.board.testEn = false →
    Completes (.tapTestLogicReset sigs) s (fun t =>
      t.mgmt.ir = .idcode ∧ t.mgmt.scanHold = false ∧ t.board.inReset = false ∧ t.hold.intact = true ∧
      (t.mgmt.recovery = true ∨ t.mgmt.mfw.isSome = true))) ∧
  (∀ (sigs : List (Bool × Bool)) (s : State), s.mgmt.scanHold = false →
    exec (.tapTestLogicReset sigs) s = .next { s with mgmt := { s.mgmt with ir := .idcode } })

/-- MCTP, PLDM and SPDM requests are answered with the values ruled; an update writes the spare slot and activates it on
trial. A control request is answered by running firmware; PLDM and SPDM only once an EID is assigned, and else nothing
happens. The base commands report types and versions. The update goes from IDLE over LEARN, READY, DOWNLOAD, VERIFY
and APPLY back; data goes into the slot that is not ACTIVE; VERIFY succeeds exactly where the image passes its checks;
ACTIVATE makes that slot ACTIVE, on trial with three tries; a command out of its state changes nothing. SPDM
negotiates in order, and a signed answer carries its block. Completion and response codes, command codes and the
update's states are the model's choice (log entries 79 and 80). -/
def Obligations.ManagementAnswers : Prop :=
  (∀ (s : State), mgmtUp s = true →
    exec (.getEndpointId) s = .next (emit (.smb 0 0 [(rd s 0xE00A4).setWidth 8]) s) ∧
    exec (.getMctpVersionSupport) s = .next (emit (.smb 0 0 [1, 3]) s) ∧
    exec (.getMessageTypeSupport) s = .next (emit (.smb 0 0 [0, 1, 5]) s) ∧
    exec (.getEndpointUuid) s = .next (emit (.smb 0 0 (leBytes 16 Config.deviceUuid.toNat)) s) ∧
    exec (.mctpUnsupportedCmd 0x33) s = .next (emit (.smb 0 5 [0x33]) s)) ∧
  (∀ (e : Byte) (s : State), mgmtUp s = true → e ≠ 0 → e ≠ 0xFF →
    Completes (.setEndpointId e) s (fun t =>
      (rd t 0xE00A4).toNat = e.toNat ∧ t.mgmt.eidSet = true ∧ pldmUp t = true ∧ regsBut [0xE00A4] s t ∧ t.out = s.out ++ [.smb 0 0 [e]])) ∧
  (∀ (s : State), pldmUp s = false →
    exec (.getTid) s = .next s ∧ exec (.getPldmTypes) s = .next s ∧ exec (.getPldmVersion 5) s = .next s ∧ exec (.getPldmCommands 0) s = .next s ∧
    exec (.queryDeviceIdentifiers) s = .next s ∧ exec (.getFirmwareParameters) s = .next s ∧ exec (.requestUpdate) s = .next s ∧
    exec (.activateFirmware) s = .next s ∧ exec (.getStatus) s = .next s ∧ exec (.getVersion) s = .next s ∧
    exec (.challenge 0) s = .next s ∧ exec (.getMeasurements 1) s = .next s ∧ exec (.spdmUnsupportedRequest 1) s = .next s) ∧
  (∀ (s : State), pldmUp s = true →
    exec (.getTid) s = .next (emit (.smb 1 0 [Config.pldmTid]) s) ∧
    exec (.getPldmTypes) s = .next (emit (.smb 1 0 [0, 5]) s) ∧
    exec (.getPldmVersion 5) s = .next (emit (.smb 1 0 [1, 1]) s) ∧
    exec (.getPldmCommands 0) s = .next (emit (.smb 1 0 [2, 3, 4, 5]) s) ∧
    exec (.getPldmCommands 7) s = .next (emit (.smb 1 2 []) s) ∧
    exec (.queryDeviceIdentifiers) s = .next (emit (.smb 1 0 Config.deviceIds) s) ∧
    exec (.getFirmwareParameters) s = .next (emit (.smb 1 0 ([1, 0] ++ leBytes 4 (rd s 0xE0010).toNat ++ [2, 0] ++ leBytes 4 (rd s 0xE0014).toNat)) s) ∧
    exec (.getStatus) s = .next (emit (.smb 1 0 [BitVec.ofNat 8 (pldmState s)]) s)) ∧
  (∀ (s : State), pldmUp s = true → pldmState s = 0 → (currentCfg s.mgmt).1.trial = false →
    Completes (.requestUpdate) s (fun t =>
      pldmState t = 1 ∧ t.mgmt.pldm = some { component := 0, received := 0, written := [] } ∧ regsBut [0xE00A8] s t ∧
      t = { s with regs := t.regs, mgmt := { s.mgmt with pldm := t.mgmt.pldm }, out := s.out ++ [.smb 1 0 []] })) ∧
  (∀ (s : State), pldmUp s = true → ((currentCfg s.mgmt).1.trial = true ∨ pldmState s ≠ 0) →
    exec (.requestUpdate) s = .next (emit (.smb 1 4 []) s)) ∧
  (∀ (p : Pldm) (s : State), pldmUp s = true → s.mgmt.pldm = some p → pldmState s = 1 →
    Completes (.passComponentTable) s (fun t => pldmState t = 2 ∧ t.mgmt.pldm = some p ∧ regsBut [0xE00A8] s t ∧ t.mgmt.flash = s.mgmt.flash)) ∧
  (∀ (p : Pldm) (c : BitVec 16) (s : State), pldmUp s = true → s.mgmt.pldm = some p → pldmState s = 2 → (c = 1 ∨ c = 2) →
    Completes (.updateComponent c) s (fun t =>
      pldmState t = 3 ∧ t.mgmt.pldm = some { p with component := c.toNat, received := 0 } ∧ regsBut [0xE00A8] s t ∧ t.mgmt.flash = s.mgmt.flash)) ∧
  (∀ (p : Pldm) (bs : List Byte) (s : State), pldmUp s = true → s.mgmt.pldm = some p → pldmState s = 3 → bs.length ≤ 1024 →
    p.received + bs.length ≤ 0x400000 →
    Completes (.requestFirmwareData bs) s (fun t =>
      flashRead t.mgmt (spareRegion s.mgmt p.component + p.received) bs.length = bs ∧
      t.mgmt.pldm = some { p with received := p.received + bs.length } ∧ pldmState t = 3 ∧ t.regs = s.regs ∧ t.out = s.out)) ∧
  (∀ (p : Pldm) (ok : Bool) (s : State), pldmUp s = true → s.mgmt.pldm = some p → pldmState s = 3 →
    Completes (.transferComplete ok) s (fun t => pldmState t = (if ok then 4 else 2) ∧ t.mgmt.pldm = some p ∧ t.mgmt.flash = s.mgmt.flash)) ∧
  (∀ (p : Pldm) (k g : Bool) (s : State), pldmUp s = true → s.mgmt.pldm = some p → pldmState s = 4 →
    Completes (.verifyComplete k g) s (fun t =>
      (pldmState t = 5 ↔ imageFail s (imageBytes s.mgmt (spareRegion s.mgmt p.component)) (decide (p.component = 2)) k g = 0) ∧
      (pldmState t = 5 ∨ pldmState t = 2) ∧ t.mgmt.pldm = some p ∧ t.mgmt.flash = s.mgmt.flash)) ∧
  (∀ (p : Pldm) (s : State), pldmUp s = true → s.mgmt.pldm = some p → pldmState s = 5 →
    Completes (.applyComplete true) s (fun t =>
      pldmState t = 2 ∧ t.mgmt.pldm = some { p with written := p.written ++ [p.component] } ∧ rdb t mgmtEvent 1 = true ∧
      t.mgmt.flash = s.mgmt.flash) ∧
    Completes (.applyComplete false) s (fun t => pldmState t = 2 ∧ t.mgmt.pldm = some p ∧ t.mgmt.flash = s.mgmt.flash)) ∧
  (∀ (p : Pldm) (s : State), pldmUp s = true → s.mgmt.pldm = some p → pldmState s = 2 → p.written ≠ [] →
    Completes (.activateFirmware) s (fun t =>
      pldmState t = 0 ∧ t.mgmt.pldm = none ∧ rdb t mgmtEvent 2 = true ∧ rdb t 0xE0024 4 = true ∧
      (currentCfg t.mgmt).1 = { gen := (if noCfg s.mgmt then 1 else (currentCfg s.mgmt).1.gen + 1), active := spareSlot s.mgmt, trial := true, tries := 3 })) ∧
  (∀ (p : Pldm) (s : State), pldmUp s = true → s.mgmt.pldm = some p → (pldmState s = 3 ∨ pldmState s = 4 ∨ pldmState s = 5) →
    Completes (.cancelUpdateComponent) s (fun t => pldmState t = 2 ∧ t.mgmt.pldm = some p ∧ t.mgmt.flash = s.mgmt.flash) ∧
    Completes (.cancelUpdate) s (fun t => pldmState t = 0 ∧ t.mgmt.pldm = none ∧ t.mgmt.flash = s.mgmt.flash)) ∧
  (∀ (s : State), pldmUp s = true → s.mgmt.pldm = none →
    exec (.passComponentTable) s = .next (emit (.smb 1 1 []) s) ∧ exec (.updateComponent 1) s = .next (emit (.smb 1 1 []) s) ∧
    exec (.transferComplete true) s = .next (emit (.smb 1 1 []) s) ∧ exec (.activateFirmware) s = .next (emit (.smb 1 1 []) s)) ∧
  (∀ (s : State), pldmUp s = true →
    Completes (.getVersion) s (fun t =>
      t.mgmt.spdmVersion = true ∧ t.mgmt.spdmCaps = false ∧ t.mgmt.spdmAlgs = false ∧ t.regs = s.regs ∧ t.out = s.out ++ [.smb 5 4 [0x12]]) ∧
    (s.mgmt.spdmVersion = true → Completes (.getCapabilities) s (fun t =>
      t.mgmt.spdmCaps = true ∧ t.mgmt.spdmAlgs = false ∧ t.regs = s.regs ∧ t.out = s.out ++ [.smb 5 0x61 (leBytes 4 0x16)])) ∧
    (s.mgmt.spdmCaps = true → Completes (.negotiateAlgorithms) s (fun t =>
      t.mgmt.spdmAlgs = true ∧ t.regs = s.regs ∧ t.out = s.out ++ [.smb 5 0x63 (leBytes 4 0x80 ++ leBytes 4 2 ++ leBytes 4 4)])) ∧
    exec (.spdmUnsupportedRequest 0x99) s = .next (emit (.smb 5 0x7F [7, 0x99]) s)) ∧
  (∀ (s : State), pldmUp s = true → s.mgmt.spdmAlgs = true →
    exec (.getDigests) s = .next (emit (.smb 5 1 (1 :: digestBytes (Config.sha384 Config.certChain))) s) ∧
    exec (.getCertificate 0) s = .next (emit (.smb 5 2 Config.certChain) s) ∧
    exec (.getCertificate 1) s = .next (emit (.smb 5 0x7F [1]) s) ∧
    Completes (.challenge 0) s (fun t =>
      t = { s with free := t.free, out := s.out ++ [.smb 5 3 (digestBytes (Config.sha384 Config.certChain) ++ freeSignature s)] })) ∧
  (∀ (i : Byte) (s : State), pldmUp s = true → s.mgmt.spdmAlgs = true → i.toNat ≤ 5 → i ≠ 0 →
    Completes (.getMeasurements i) s (fun t =>
      t = { s with free := t.free, out := s.out ++ [.smb 5 0x60 (i :: measureBlock s i.toNat ++ freeSignature s)] })) ∧
  (∀ (s : State), pldmUp s = true → s.mgmt.spdmAlgs = false →
    exec (.getDigests) s = .next (emit (.smb 5 0x7F [4]) s) ∧ exec (.challenge 0) s = .next (emit (.smb 5 0x7F [4]) s) ∧
    exec (.getMeasurements 1) s = .next (emit (.smb 5 0x7F [4]) s))

/-- Every command keeps the tables of registers, memory, pairs, functions and tiles in their canonical form. From every
state whose registers, memory bytes, pairs, functions and tiles are held in the canonical form, keys strictly rising
and no entry equal to what an unlisted key reads as, a step gives a state that holds them so; so equal contents are
equal data. The canonical form is the model's own way of holding what the spec gives the device. -/
def Obligations.CanonicalFormKept : Prop :=
  ∀ (s t : State), s.wf = true → step s = .next t → t.wf = true

/-- The state after reset is in the canonical form, with an empty queue and nothing loaded or in flight. After reset every
table is in the canonical form, the loaded images have numbers of their own, and nothing waits, is loaded, runs or is
in flight. -/
def Obligations.ResetIsCanonical : Prop :=
  State.reset.wf = true ∧ State.reset.loadsOk = true ∧ State.reset.pending = [] ∧ State.reset.loaded = [] ∧ State.reset.flights = [] ∧
    State.reset.chains = [] ∧ State.reset.items = [] ∧ State.reset.jobs = [] ∧ (∀ n ∈ List.range 64, fenced State.reset n = false)
end

