-- ==== Sys2Proof/Laws/Bits.lean ====
section
/-! SUPPORT. What a bit field of a register word reads as after another has been set. -/

namespace Sys2Proof.Machine

theorem testBit_field (w : Word) (hi lo i : Nat) :
    (field w hi lo).testBit i = (decide (i < hi - lo + 1) && w.getLsbD (lo + i)) := by
  simp [field, Nat.testBit_mod_two_pow, Nat.testBit_div_two_pow, BitVec.getLsbD, Nat.add_comm]

/-- Bit `i` of a word whose field [hi:lo] has been set to `v`. -/
theorem getLsbD_setField (w : Word) (hi lo v i : Nat) (h : hi < 32) (hl : lo ≤ hi) :
    (setField w hi lo v).getLsbD i = if lo ≤ i ∧ i ≤ hi then v.testBit (i - lo) else w.getLsbD i := by
  unfold setField
  simp only [BitVec.getLsbD_or, BitVec.getLsbD_and, BitVec.getLsbD_not, BitVec.getLsbD_ofNat, Nat.testBit_mul_two_pow,
    Nat.testBit_two_pow_sub_one, Nat.testBit_mod_two_pow]
  by_cases h1 : i < 32
  · by_cases h2 : lo ≤ i
    · by_cases h3 : i ≤ hi
      · have : i - lo < hi - lo + 1 := by omega
        simp [h1, h2, h3, this]
      · have : ¬ i - lo < hi - lo + 1 := by omega
        simp [h1, h3, this]
    · simp [h1, h2]
  · have h4 : ¬ i ≤ hi := by omega
    have h5 : w.getLsbD i = false := BitVec.getLsbD_of_ge _ _ (by omega)
    simp [h1, h4, h5]

theorem field_setField (w : Word) (hi lo v : Nat) (h : hi < 32) (hl : lo ≤ hi) :
    field (setField w hi lo v) hi lo = v % 2 ^ (hi - lo + 1) := by
  apply Nat.eq_of_testBit_eq
  intro i
  rw [testBit_field, Nat.testBit_mod_two_pow, getLsbD_setField _ _ _ _ _ h hl]
  by_cases hi' : i < hi - lo + 1
  · have : lo + i ≤ hi := by omega
    simp [hi', this]
  · simp [hi']

theorem field_setField_other (w : Word) (hi lo v hi' lo' : Nat) (h : hi < 32) (hl : lo ≤ hi) (hl' : lo' ≤ hi') (hd : hi' < lo ∨ hi < lo') :
    field (setField w hi lo v) hi' lo' = field w hi' lo' := by
  apply Nat.eq_of_testBit_eq
  intro i
  rw [testBit_field, testBit_field, getLsbD_setField _ _ _ _ _ h hl]
  by_cases hi'' : i < hi' - lo' + 1
  · rw [if_neg (by omega)]
  · simp [hi'']

end Sys2Proof.Machine
end

