-- ==== Sys2Proof/Laws/Tab.lean ====
section
/-! SUPPORT. What reading, writing and the canonical form of the sparse tables have to do with one another. -/

namespace Sys2Proof.Machine

variable {α : Type}

theorem tabFind_tabPut (t : Tab α) (k j : Nat) (v : α) :
    tabFind (tabPut t k v) j = if j = k then some v else tabFind t j := by
  induction t with
  | nil => simp [tabPut, tabFind]
  | cons x t ih =>
    obtain ⟨i, w⟩ := x
    simp only [tabPut]
    split
    · simp [tabFind]
    · split <;> simp [tabFind, ih] <;> grind

theorem tabFind_tabDel (t : Tab α) (k j : Nat) :
    tabFind (tabDel t k) j = if j = k then none else tabFind t j := by
  induction t with
  | nil => simp [tabDel, tabFind]
  | cons x t ih =>
    obtain ⟨i, w⟩ := x
    simp only [tabDel]
    split <;> simp [tabFind, ih] <;> grind

variable [DecidableEq α]

/-- A read after a write: the value written at its key, what was there at any other. -/
theorem tabGet_tabSet (d : Nat → α) (t : Tab α) (k j : Nat) (v : α) :
    tabGet d (tabSet d t k v) j = if j = k then v else tabGet d t j := by
  unfold tabGet tabSet
  split
  · rw [tabFind_tabDel]; split <;> simp_all
  · rw [tabFind_tabPut]; split <;> simp_all

@[simp] theorem tabGet_tabSet_same (d : Nat → α) (t : Tab α) (k : Nat) (v : α) :
    tabGet d (tabSet d t k v) k = v := by simp [tabGet_tabSet]

theorem tabGet_tabSet_other (d : Nat → α) (t : Tab α) {k j : Nat} (v : α) (h : j ≠ k) :
    tabGet d (tabSet d t k v) j = tabGet d t j := by simp [tabGet_tabSet, h]

/-- Reading after writing consecutive keys. -/
theorem tabGet_tabSetMany (d : Nat → α) (vs : List α) (t : Tab α) (k j : Nat) :
    tabGet d (tabSetMany d t k vs) j = if k ≤ j ∧ j < k + vs.length then vs.getD (j - k) (d j) else tabGet d t j := by
  induction vs generalizing t k with
  | nil => simp [tabSetMany]
  | cons v vs ih =>
    simp only [tabSetMany, ih, tabGet_tabSet, List.length_cons]
    rcases Nat.lt_trichotomy j k with h | h | h
    · rw [if_neg (by omega), if_neg (by omega), if_neg (by omega)]
    · subst h; simp
    · obtain ⟨i, rfl⟩ : ∃ i, j = k + 1 + i := ⟨j - k - 1, by omega⟩
      by_cases hi : i < vs.length
      · rw [if_pos (by omega), if_pos (by omega)]
        simp [show k + 1 + i - k = i + 1 by omega]
      · rw [if_neg (by omega), if_neg (by omega), if_neg (by omega)]

omit [DecidableEq α] in
theorem tabGetMany_length (d : Nat → α) (t : Tab α) (k n : Nat) : (tabGetMany d t k n).length = n := by
  induction n generalizing k <;> simp_all [tabGetMany]

/-! ### The canonical form -/

theorem tabWfFrom_tabPut (d : Nat → α) (t : Tab α) {lo k : Nat} {v : α} (h : tabWfFrom d lo t = true) (hk : lo ≤ k)
    (hv : v ≠ d k) : tabWfFrom d lo (tabPut t k v) = true := by
  induction t generalizing lo with
  | nil => simp [tabPut, tabWfFrom, hk, hv]
  | cons x t ih =>
    obtain ⟨i, w⟩ := x
    have h' := h
    simp only [tabWfFrom, Bool.and_eq_true, decide_eq_true_eq] at h
    simp only [tabPut]
    split
    · simp only [tabWfFrom, Bool.and_eq_true, decide_eq_true_eq]
      exact ⟨⟨hk, hv⟩, ⟨by omega, h.1.2⟩, h.2⟩
    · split
      · subst_vars; simp_all [tabWfFrom]
      · simp only [tabWfFrom, Bool.and_eq_true, decide_eq_true_eq]
        exact ⟨h.1, ih h.2 (by omega)⟩

theorem tabWfFrom_mono (d : Nat → α) (t : Tab α) {lo lo' : Nat} (h : tabWfFrom d lo t = true) (hl : lo' ≤ lo) :
    tabWfFrom d lo' t = true := by
  cases t with
  | nil => rfl
  | cons x t =>
    simp only [tabWfFrom, Bool.and_eq_true, decide_eq_true_eq] at h ⊢
    exact ⟨⟨by omega, h.1.2⟩, h.2⟩

theorem tabWfFrom_tabDel (d : Nat → α) (t : Tab α) {lo k : Nat} (h : tabWfFrom d lo t = true) :
    tabWfFrom d lo (tabDel t k) = true := by
  induction t generalizing lo with
  | nil => rfl
  | cons x t ih =>
    obtain ⟨i, w⟩ := x
    simp only [tabWfFrom, Bool.and_eq_true, decide_eq_true_eq] at h
    simp only [tabDel]
    split
    · exact tabWfFrom_mono d _ (ih h.2) (by omega)
    · simp only [tabWfFrom, Bool.and_eq_true, decide_eq_true_eq]
      exact ⟨h.1, ih h.2⟩

/-- A write keeps the canonical form. -/
theorem tabWf_tabSet (d : Nat → α) (t : Tab α) (k : Nat) (v : α) (h : tabWf d t = true) :
    tabWf d (tabSet d t k v) = true := by
  unfold tabSet
  split
  · exact tabWfFrom_tabDel d t h
  · exact tabWfFrom_tabPut d t h (Nat.zero_le _) (by assumption)

/-- No entry of a canonical table is what an unlisted key reads as. -/
theorem tabWfFrom_entry (d : Nat → α) (t : Tab α) {lo : Nat} (h : tabWfFrom d lo t = true) : ∀ x ∈ t, x.2 ≠ d x.1 := by
  induction t generalizing lo with
  | nil => simp
  | cons y t ih =>
    simp only [tabWfFrom, Bool.and_eq_true, decide_eq_true_eq] at h
    intro x hx
    rcases List.mem_cons.1 hx with rfl | hx
    · exact h.1.2
    · exact ih h.2 x hx

/-- Entries put at other keys leave a canonical table, where every unlisted key reads the same. -/
theorem tabWf_foldl_tabPut (v₀ : α) (g : Nat → Nat) (xs acc : Tab α) (hx : ∀ x ∈ xs, x.2 ≠ v₀)
    (h : tabWf (fun _ => v₀) acc = true) :
    tabWf (fun _ => v₀) (xs.foldl (fun a x => tabPut a (g x.1) x.2) acc) = true := by
  induction xs generalizing acc with
  | nil => exact h
  | cons x xs ih =>
    exact ih _ (fun y hy => hx y (List.mem_cons_of_mem _ hy))
      (tabWfFrom_tabPut _ _ h (Nat.zero_le _) (hx x List.mem_cons_self))

theorem tabWf_tabSetMany (d : Nat → α) (vs : List α) (t : Tab α) (k : Nat) (h : tabWf d t = true) :
    tabWf d (tabSetMany d t k vs) = true := by
  induction vs generalizing t k with
  | nil => exact h
  | cons v vs ih => exact ih _ _ (tabWf_tabSet d t k v h)

end Sys2Proof.Machine
end

