-- ==== Sys2Proof/Laws/State.lean ====
section
/-! SUPPORT. What each elementary update of the state does to each of its fields, and what a register, a pair, a function or
a tile reads as after it. -/

namespace Sys2Proof.Machine

/-! `wr` leaves every field but `regs`. -/

@[simp] theorem wr_clk (o : Nat) (v : Word) (s : State) : (wr o v s).clk = s.clk := rfl
@[simp] theorem wr_time (o : Nat) (v : Word) (s : State) : (wr o v s).time = s.time := rfl
@[simp] theorem wr_pairs (o : Nat) (v : Word) (s : State) : (wr o v s).pairs = s.pairs := rfl
@[simp] theorem wr_funcs (o : Nat) (v : Word) (s : State) : (wr o v s).funcs = s.funcs := rfl
@[simp] theorem wr_flights (o : Nat) (v : Word) (s : State) : (wr o v s).flights = s.flights := rfl
@[simp] theorem wr_mem (o : Nat) (v : Word) (s : State) : (wr o v s).mem = s.mem := rfl
@[simp] theorem wr_tiles (o : Nat) (v : Word) (s : State) : (wr o v s).tiles = s.tiles := rfl
@[simp] theorem wr_reels (o : Nat) (v : Word) (s : State) : (wr o v s).reels = s.reels := rfl
@[simp] theorem wr_loaded (o : Nat) (v : Word) (s : State) : (wr o v s).loaded = s.loaded := rfl
@[simp] theorem wr_nextLoad (o : Nat) (v : Word) (s : State) : (wr o v s).nextLoad = s.nextLoad := rfl
@[simp] theorem wr_chains (o : Nat) (v : Word) (s : State) : (wr o v s).chains = s.chains := rfl
@[simp] theorem wr_items (o : Nat) (v : Word) (s : State) : (wr o v s).items = s.items := rfl
@[simp] theorem wr_nextItem (o : Nat) (v : Word) (s : State) : (wr o v s).nextItem = s.nextItem := rfl
@[simp] theorem wr_windows (o : Nat) (v : Word) (s : State) : (wr o v s).windows = s.windows := rfl
@[simp] theorem wr_jobs (o : Nat) (v : Word) (s : State) : (wr o v s).jobs = s.jobs := rfl
@[simp] theorem wr_rounds (o : Nat) (v : Word) (s : State) : (wr o v s).rounds = s.rounds := rfl
@[simp] theorem wr_lastReel (o : Nat) (v : Word) (s : State) : (wr o v s).lastReel = s.lastReel := rfl
@[simp] theorem wr_radio (o : Nat) (v : Word) (s : State) : (wr o v s).radio = s.radio := rfl
@[simp] theorem wr_flow (o : Nat) (v : Word) (s : State) : (wr o v s).flow = s.flow := rfl
@[simp] theorem wr_cont (o : Nat) (v : Word) (s : State) : (wr o v s).cont = s.cont := rfl
@[simp] theorem wr_matte (o : Nat) (v : Word) (s : State) : (wr o v s).matte = s.matte := rfl
@[simp] theorem wr_splice (o : Nat) (v : Word) (s : State) : (wr o v s).splice = s.splice := rfl
@[simp] theorem wr_fault (o : Nat) (v : Word) (s : State) : (wr o v s).fault = s.fault := rfl
@[simp] theorem wr_hold (o : Nat) (v : Word) (s : State) : (wr o v s).hold = s.hold := rfl
@[simp] theorem wr_mgmt (o : Nat) (v : Word) (s : State) : (wr o v s).mgmt = s.mgmt := rfl
@[simp] theorem wr_board (o : Nat) (v : Word) (s : State) : (wr o v s).board = s.board := rfl
@[simp] theorem wr_free (o : Nat) (v : Word) (s : State) : (wr o v s).free = s.free := rfl
@[simp] theorem wr_out (o : Nat) (v : Word) (s : State) : (wr o v s).out = s.out := rfl
@[simp] theorem wr_fetchTurn (o : Nat) (v : Word) (s : State) : (wr o v s).fetchTurn = s.fetchTurn := rfl
@[simp] theorem wr_pending (o : Nat) (v : Word) (s : State) : (wr o v s).pending = s.pending := rfl

/-! `setPair` leaves every field but `pairs`. -/

@[simp] theorem setPair_regs (p : Nat) (x : PairS) (s : State) : (setPair p x s).regs = s.regs := rfl
@[simp] theorem setPair_clk (p : Nat) (x : PairS) (s : State) : (setPair p x s).clk = s.clk := rfl
@[simp] theorem setPair_time (p : Nat) (x : PairS) (s : State) : (setPair p x s).time = s.time := rfl
@[simp] theorem setPair_funcs (p : Nat) (x : PairS) (s : State) : (setPair p x s).funcs = s.funcs := rfl
@[simp] theorem setPair_flights (p : Nat) (x : PairS) (s : State) : (setPair p x s).flights = s.flights := rfl
@[simp] theorem setPair_mem (p : Nat) (x : PairS) (s : State) : (setPair p x s).mem = s.mem := rfl
@[simp] theorem setPair_tiles (p : Nat) (x : PairS) (s : State) : (setPair p x s).tiles = s.tiles := rfl
@[simp] theorem setPair_reels (p : Nat) (x : PairS) (s : State) : (setPair p x s).reels = s.reels := rfl
@[simp] theorem setPair_loaded (p : Nat) (x : PairS) (s : State) : (setPair p x s).loaded = s.loaded := rfl
@[simp] theorem setPair_nextLoad (p : Nat) (x : PairS) (s : State) : (setPair p x s).nextLoad = s.nextLoad := rfl
@[simp] theorem setPair_chains (p : Nat) (x : PairS) (s : State) : (setPair p x s).chains = s.chains := rfl
@[simp] theorem setPair_items (p : Nat) (x : PairS) (s : State) : (setPair p x s).items = s.items := rfl
@[simp] theorem setPair_nextItem (p : Nat) (x : PairS) (s : State) : (setPair p x s).nextItem = s.nextItem := rfl
@[simp] theorem setPair_windows (p : Nat) (x : PairS) (s : State) : (setPair p x s).windows = s.windows := rfl
@[simp] theorem setPair_jobs (p : Nat) (x : PairS) (s : State) : (setPair p x s).jobs = s.jobs := rfl
@[simp] theorem setPair_rounds (p : Nat) (x : PairS) (s : State) : (setPair p x s).rounds = s.rounds := rfl
@[simp] theorem setPair_lastReel (p : Nat) (x : PairS) (s : State) : (setPair p x s).lastReel = s.lastReel := rfl
@[simp] theorem setPair_radio (p : Nat) (x : PairS) (s : State) : (setPair p x s).radio = s.radio := rfl
@[simp] theorem setPair_flow (p : Nat) (x : PairS) (s : State) : (setPair p x s).flow = s.flow := rfl
@[simp] theorem setPair_cont (p : Nat) (x : PairS) (s : State) : (setPair p x s).cont = s.cont := rfl
@[simp] theorem setPair_matte (p : Nat) (x : PairS) (s : State) : (setPair p x s).matte = s.matte := rfl
@[simp] theorem setPair_splice (p : Nat) (x : PairS) (s : State) : (setPair p x s).splice = s.splice := rfl
@[simp] theorem setPair_fault (p : Nat) (x : PairS) (s : State) : (setPair p x s).fault = s.fault := rfl
@[simp] theorem setPair_hold (p : Nat) (x : PairS) (s : State) : (setPair p x s).hold = s.hold := rfl
@[simp] theorem setPair_mgmt (p : Nat) (x : PairS) (s : State) : (setPair p x s).mgmt = s.mgmt := rfl
@[simp] theorem setPair_board (p : Nat) (x : PairS) (s : State) : (setPair p x s).board = s.board := rfl
@[simp] theorem setPair_free (p : Nat) (x : PairS) (s : State) : (setPair p x s).free = s.free := rfl
@[simp] theorem setPair_out (p : Nat) (x : PairS) (s : State) : (setPair p x s).out = s.out := rfl
@[simp] theorem setPair_fetchTurn (p : Nat) (x : PairS) (s : State) : (setPair p x s).fetchTurn = s.fetchTurn := rfl
@[simp] theorem setPair_pending (p : Nat) (x : PairS) (s : State) : (setPair p x s).pending = s.pending := rfl

/-! `setFunc` leaves every field but `funcs`. -/

@[simp] theorem setFunc_regs (f : Nat) (x : FuncS) (s : State) : (setFunc f x s).regs = s.regs := rfl
@[simp] theorem setFunc_clk (f : Nat) (x : FuncS) (s : State) : (setFunc f x s).clk = s.clk := rfl
@[simp] theorem setFunc_time (f : Nat) (x : FuncS) (s : State) : (setFunc f x s).time = s.time := rfl
@[simp] theorem setFunc_pairs (f : Nat) (x : FuncS) (s : State) : (setFunc f x s).pairs = s.pairs := rfl
@[simp] theorem setFunc_flights (f : Nat) (x : FuncS) (s : State) : (setFunc f x s).flights = s.flights := rfl
@[simp] theorem setFunc_mem (f : Nat) (x : FuncS) (s : State) : (setFunc f x s).mem = s.mem := rfl
@[simp] theorem setFunc_tiles (f : Nat) (x : FuncS) (s : State) : (setFunc f x s).tiles = s.tiles := rfl
@[simp] theorem setFunc_reels (f : Nat) (x : FuncS) (s : State) : (setFunc f x s).reels = s.reels := rfl
@[simp] theorem setFunc_loaded (f : Nat) (x : FuncS) (s : State) : (setFunc f x s).loaded = s.loaded := rfl
@[simp] theorem setFunc_nextLoad (f : Nat) (x : FuncS) (s : State) : (setFunc f x s).nextLoad = s.nextLoad := rfl
@[simp] theorem setFunc_chains (f : Nat) (x : FuncS) (s : State) : (setFunc f x s).chains = s.chains := rfl
@[simp] theorem setFunc_items (f : Nat) (x : FuncS) (s : State) : (setFunc f x s).items = s.items := rfl
@[simp] theorem setFunc_nextItem (f : Nat) (x : FuncS) (s : State) : (setFunc f x s).nextItem = s.nextItem := rfl
@[simp] theorem setFunc_windows (f : Nat) (x : FuncS) (s : State) : (setFunc f x s).windows = s.windows := rfl
@[simp] theorem setFunc_jobs (f : Nat) (x : FuncS) (s : State) : (setFunc f x s).jobs = s.jobs := rfl
@[simp] theorem setFunc_rounds (f : Nat) (x : FuncS) (s : State) : (setFunc f x s).rounds = s.rounds := rfl
@[simp] theorem setFunc_lastReel (f : Nat) (x : FuncS) (s : State) : (setFunc f x s).lastReel = s.lastReel := rfl
@[simp] theorem setFunc_radio (f : Nat) (x : FuncS) (s : State) : (setFunc f x s).radio = s.radio := rfl
@[simp] theorem setFunc_flow (f : Nat) (x : FuncS) (s : State) : (setFunc f x s).flow = s.flow := rfl
@[simp] theorem setFunc_cont (f : Nat) (x : FuncS) (s : State) : (setFunc f x s).cont = s.cont := rfl
@[simp] theorem setFunc_matte (f : Nat) (x : FuncS) (s : State) : (setFunc f x s).matte = s.matte := rfl
@[simp] theorem setFunc_splice (f : Nat) (x : FuncS) (s : State) : (setFunc f x s).splice = s.splice := rfl
@[simp] theorem setFunc_fault (f : Nat) (x : FuncS) (s : State) : (setFunc f x s).fault = s.fault := rfl
@[simp] theorem setFunc_hold (f : Nat) (x : FuncS) (s : State) : (setFunc f x s).hold = s.hold := rfl
@[simp] theorem setFunc_mgmt (f : Nat) (x : FuncS) (s : State) : (setFunc f x s).mgmt = s.mgmt := rfl
@[simp] theorem setFunc_board (f : Nat) (x : FuncS) (s : State) : (setFunc f x s).board = s.board := rfl
@[simp] theorem setFunc_free (f : Nat) (x : FuncS) (s : State) : (setFunc f x s).free = s.free := rfl
@[simp] theorem setFunc_out (f : Nat) (x : FuncS) (s : State) : (setFunc f x s).out = s.out := rfl
@[simp] theorem setFunc_fetchTurn (f : Nat) (x : FuncS) (s : State) : (setFunc f x s).fetchTurn = s.fetchTurn := rfl
@[simp] theorem setFunc_pending (f : Nat) (x : FuncS) (s : State) : (setFunc f x s).pending = s.pending := rfl

/-! `setTile` leaves every field but `tiles`. -/

@[simp] theorem setTile_regs (n : Nat) (x : Tile) (s : State) : (setTile n x s).regs = s.regs := rfl
@[simp] theorem setTile_clk (n : Nat) (x : Tile) (s : State) : (setTile n x s).clk = s.clk := rfl
@[simp] theorem setTile_time (n : Nat) (x : Tile) (s : State) : (setTile n x s).time = s.time := rfl
@[simp] theorem setTile_pairs (n : Nat) (x : Tile) (s : State) : (setTile n x s).pairs = s.pairs := rfl
@[simp] theorem setTile_funcs (n : Nat) (x : Tile) (s : State) : (setTile n x s).funcs = s.funcs := rfl
@[simp] theorem setTile_flights (n : Nat) (x : Tile) (s : State) : (setTile n x s).flights = s.flights := rfl
@[simp] theorem setTile_mem (n : Nat) (x : Tile) (s : State) : (setTile n x s).mem = s.mem := rfl
@[simp] theorem setTile_reels (n : Nat) (x : Tile) (s : State) : (setTile n x s).reels = s.reels := rfl
@[simp] theorem setTile_loaded (n : Nat) (x : Tile) (s : State) : (setTile n x s).loaded = s.loaded := rfl
@[simp] theorem setTile_nextLoad (n : Nat) (x : Tile) (s : State) : (setTile n x s).nextLoad = s.nextLoad := rfl
@[simp] theorem setTile_chains (n : Nat) (x : Tile) (s : State) : (setTile n x s).chains = s.chains := rfl
@[simp] theorem setTile_items (n : Nat) (x : Tile) (s : State) : (setTile n x s).items = s.items := rfl
@[simp] theorem setTile_nextItem (n : Nat) (x : Tile) (s : State) : (setTile n x s).nextItem = s.nextItem := rfl
@[simp] theorem setTile_windows (n : Nat) (x : Tile) (s : State) : (setTile n x s).windows = s.windows := rfl
@[simp] theorem setTile_jobs (n : Nat) (x : Tile) (s : State) : (setTile n x s).jobs = s.jobs := rfl
@[simp] theorem setTile_rounds (n : Nat) (x : Tile) (s : State) : (setTile n x s).rounds = s.rounds := rfl
@[simp] theorem setTile_lastReel (n : Nat) (x : Tile) (s : State) : (setTile n x s).lastReel = s.lastReel := rfl
@[simp] theorem setTile_radio (n : Nat) (x : Tile) (s : State) : (setTile n x s).radio = s.radio := rfl
@[simp] theorem setTile_flow (n : Nat) (x : Tile) (s : State) : (setTile n x s).flow = s.flow := rfl
@[simp] theorem setTile_cont (n : Nat) (x : Tile) (s : State) : (setTile n x s).cont = s.cont := rfl
@[simp] theorem setTile_matte (n : Nat) (x : Tile) (s : State) : (setTile n x s).matte = s.matte := rfl
@[simp] theorem setTile_splice (n : Nat) (x : Tile) (s : State) : (setTile n x s).splice = s.splice := rfl
@[simp] theorem setTile_fault (n : Nat) (x : Tile) (s : State) : (setTile n x s).fault = s.fault := rfl
@[simp] theorem setTile_hold (n : Nat) (x : Tile) (s : State) : (setTile n x s).hold = s.hold := rfl
@[simp] theorem setTile_mgmt (n : Nat) (x : Tile) (s : State) : (setTile n x s).mgmt = s.mgmt := rfl
@[simp] theorem setTile_board (n : Nat) (x : Tile) (s : State) : (setTile n x s).board = s.board := rfl
@[simp] theorem setTile_free (n : Nat) (x : Tile) (s : State) : (setTile n x s).free = s.free := rfl
@[simp] theorem setTile_out (n : Nat) (x : Tile) (s : State) : (setTile n x s).out = s.out := rfl
@[simp] theorem setTile_fetchTurn (n : Nat) (x : Tile) (s : State) : (setTile n x s).fetchTurn = s.fetchTurn := rfl
@[simp] theorem setTile_pending (n : Nat) (x : Tile) (s : State) : (setTile n x s).pending = s.pending := rfl

/-! `setThread` leaves every field but `tiles`. -/

@[simp] theorem setThread_regs (n : Nat) (t : Thr) (y : Thread) (s : State) : (setThread n t y s).regs = s.regs := rfl
@[simp] theorem setThread_clk (n : Nat) (t : Thr) (y : Thread) (s : State) : (setThread n t y s).clk = s.clk := rfl
@[simp] theorem setThread_time (n : Nat) (t : Thr) (y : Thread) (s : State) : (setThread n t y s).time = s.time := rfl
@[simp] theorem setThread_pairs (n : Nat) (t : Thr) (y : Thread) (s : State) : (setThread n t y s).pairs = s.pairs := rfl
@[simp] theorem setThread_funcs (n : Nat) (t : Thr) (y : Thread) (s : State) : (setThread n t y s).funcs = s.funcs := rfl
@[simp] theorem setThread_flights (n : Nat) (t : Thr) (y : Thread) (s : State) : (setThread n t y s).flights = s.flights := rfl
@[simp] theorem setThread_mem (n : Nat) (t : Thr) (y : Thread) (s : State) : (setThread n t y s).mem = s.mem := rfl
@[simp] theorem setThread_reels (n : Nat) (t : Thr) (y : Thread) (s : State) : (setThread n t y s).reels = s.reels := rfl
@[simp] theorem setThread_loaded (n : Nat) (t : Thr) (y : Thread) (s : State) : (setThread n t y s).loaded = s.loaded := rfl
@[simp] theorem setThread_nextLoad (n : Nat) (t : Thr) (y : Thread) (s : State) : (setThread n t y s).nextLoad = s.nextLoad := rfl
@[simp] theorem setThread_chains (n : Nat) (t : Thr) (y : Thread) (s : State) : (setThread n t y s).chains = s.chains := rfl
@[simp] theorem setThread_items (n : Nat) (t : Thr) (y : Thread) (s : State) : (setThread n t y s).items = s.items := rfl
@[simp] theorem setThread_nextItem (n : Nat) (t : Thr) (y : Thread) (s : State) : (setThread n t y s).nextItem = s.nextItem := rfl
@[simp] theorem setThread_windows (n : Nat) (t : Thr) (y : Thread) (s : State) : (setThread n t y s).windows = s.windows := rfl
@[simp] theorem setThread_jobs (n : Nat) (t : Thr) (y : Thread) (s : State) : (setThread n t y s).jobs = s.jobs := rfl
@[simp] theorem setThread_rounds (n : Nat) (t : Thr) (y : Thread) (s : State) : (setThread n t y s).rounds = s.rounds := rfl
@[simp] theorem setThread_lastReel (n : Nat) (t : Thr) (y : Thread) (s : State) : (setThread n t y s).lastReel = s.lastReel := rfl
@[simp] theorem setThread_radio (n : Nat) (t : Thr) (y : Thread) (s : State) : (setThread n t y s).radio = s.radio := rfl
@[simp] theorem setThread_flow (n : Nat) (t : Thr) (y : Thread) (s : State) : (setThread n t y s).flow = s.flow := rfl
@[simp] theorem setThread_cont (n : Nat) (t : Thr) (y : Thread) (s : State) : (setThread n t y s).cont = s.cont := rfl
@[simp] theorem setThread_matte (n : Nat) (t : Thr) (y : Thread) (s : State) : (setThread n t y s).matte = s.matte := rfl
@[simp] theorem setThread_splice (n : Nat) (t : Thr) (y : Thread) (s : State) : (setThread n t y s).splice = s.splice := rfl
@[simp] theorem setThread_fault (n : Nat) (t : Thr) (y : Thread) (s : State) : (setThread n t y s).fault = s.fault := rfl
@[simp] theorem setThread_hold (n : Nat) (t : Thr) (y : Thread) (s : State) : (setThread n t y s).hold = s.hold := rfl
@[simp] theorem setThread_mgmt (n : Nat) (t : Thr) (y : Thread) (s : State) : (setThread n t y s).mgmt = s.mgmt := rfl
@[simp] theorem setThread_board (n : Nat) (t : Thr) (y : Thread) (s : State) : (setThread n t y s).board = s.board := rfl
@[simp] theorem setThread_free (n : Nat) (t : Thr) (y : Thread) (s : State) : (setThread n t y s).free = s.free := rfl
@[simp] theorem setThread_out (n : Nat) (t : Thr) (y : Thread) (s : State) : (setThread n t y s).out = s.out := rfl
@[simp] theorem setThread_fetchTurn (n : Nat) (t : Thr) (y : Thread) (s : State) : (setThread n t y s).fetchTurn = s.fetchTurn := rfl
@[simp] theorem setThread_pending (n : Nat) (t : Thr) (y : Thread) (s : State) : (setThread n t y s).pending = s.pending := rfl

/-! `emit` leaves every field but `out`. -/

@[simp] theorem emit_regs (o : Output) (s : State) : (emit o s).regs = s.regs := rfl
@[simp] theorem emit_clk (o : Output) (s : State) : (emit o s).clk = s.clk := rfl
@[simp] theorem emit_time (o : Output) (s : State) : (emit o s).time = s.time := rfl
@[simp] theorem emit_pairs (o : Output) (s : State) : (emit o s).pairs = s.pairs := rfl
@[simp] theorem emit_funcs (o : Output) (s : State) : (emit o s).funcs = s.funcs := rfl
@[simp] theorem emit_flights (o : Output) (s : State) : (emit o s).flights = s.flights := rfl
@[simp] theorem emit_mem (o : Output) (s : State) : (emit o s).mem = s.mem := rfl
@[simp] theorem emit_tiles (o : Output) (s : State) : (emit o s).tiles = s.tiles := rfl
@[simp] theorem emit_reels (o : Output) (s : State) : (emit o s).reels = s.reels := rfl
@[simp] theorem emit_loaded (o : Output) (s : State) : (emit o s).loaded = s.loaded := rfl
@[simp] theorem emit_nextLoad (o : Output) (s : State) : (emit o s).nextLoad = s.nextLoad := rfl
@[simp] theorem emit_chains (o : Output) (s : State) : (emit o s).chains = s.chains := rfl
@[simp] theorem emit_items (o : Output) (s : State) : (emit o s).items = s.items := rfl
@[simp] theorem emit_nextItem (o : Output) (s : State) : (emit o s).nextItem = s.nextItem := rfl
@[simp] theorem emit_windows (o : Output) (s : State) : (emit o s).windows = s.windows := rfl
@[simp] theorem emit_jobs (o : Output) (s : State) : (emit o s).jobs = s.jobs := rfl
@[simp] theorem emit_rounds (o : Output) (s : State) : (emit o s).rounds = s.rounds := rfl
@[simp] theorem emit_lastReel (o : Output) (s : State) : (emit o s).lastReel = s.lastReel := rfl
@[simp] theorem emit_radio (o : Output) (s : State) : (emit o s).radio = s.radio := rfl
@[simp] theorem emit_flow (o : Output) (s : State) : (emit o s).flow = s.flow := rfl
@[simp] theorem emit_cont (o : Output) (s : State) : (emit o s).cont = s.cont := rfl
@[simp] theorem emit_matte (o : Output) (s : State) : (emit o s).matte = s.matte := rfl
@[simp] theorem emit_splice (o : Output) (s : State) : (emit o s).splice = s.splice := rfl
@[simp] theorem emit_fault (o : Output) (s : State) : (emit o s).fault = s.fault := rfl
@[simp] theorem emit_hold (o : Output) (s : State) : (emit o s).hold = s.hold := rfl
@[simp] theorem emit_mgmt (o : Output) (s : State) : (emit o s).mgmt = s.mgmt := rfl
@[simp] theorem emit_board (o : Output) (s : State) : (emit o s).board = s.board := rfl
@[simp] theorem emit_free (o : Output) (s : State) : (emit o s).free = s.free := rfl
@[simp] theorem emit_fetchTurn (o : Output) (s : State) : (emit o s).fetchTurn = s.fetchTurn := rfl
@[simp] theorem emit_pending (o : Output) (s : State) : (emit o s).pending = s.pending := rfl

/-! `memPut` leaves every field but `mem`. -/

@[simp] theorem memPut_regs (a : Nat) (bs : List Byte) (s : State) : (memPut a bs s).regs = s.regs := rfl
@[simp] theorem memPut_clk (a : Nat) (bs : List Byte) (s : State) : (memPut a bs s).clk = s.clk := rfl
@[simp] theorem memPut_time (a : Nat) (bs : List Byte) (s : State) : (memPut a bs s).time = s.time := rfl
@[simp] theorem memPut_pairs (a : Nat) (bs : List Byte) (s : State) : (memPut a bs s).pairs = s.pairs := rfl
@[simp] theorem memPut_funcs (a : Nat) (bs : List Byte) (s : State) : (memPut a bs s).funcs = s.funcs := rfl
@[simp] theorem memPut_flights (a : Nat) (bs : List Byte) (s : State) : (memPut a bs s).flights = s.flights := rfl
@[simp] theorem memPut_tiles (a : Nat) (bs : List Byte) (s : State) : (memPut a bs s).tiles = s.tiles := rfl
@[simp] theorem memPut_reels (a : Nat) (bs : List Byte) (s : State) : (memPut a bs s).reels = s.reels := rfl
@[simp] theorem memPut_loaded (a : Nat) (bs : List Byte) (s : State) : (memPut a bs s).loaded = s.loaded := rfl
@[simp] theorem memPut_nextLoad (a : Nat) (bs : List Byte) (s : State) : (memPut a bs s).nextLoad = s.nextLoad := rfl
@[simp] theorem memPut_chains (a : Nat) (bs : List Byte) (s : State) : (memPut a bs s).chains = s.chains := rfl
@[simp] theorem memPut_items (a : Nat) (bs : List Byte) (s : State) : (memPut a bs s).items = s.items := rfl
@[simp] theorem memPut_nextItem (a : Nat) (bs : List Byte) (s : State) : (memPut a bs s).nextItem = s.nextItem := rfl
@[simp] theorem memPut_windows (a : Nat) (bs : List Byte) (s : State) : (memPut a bs s).windows = s.windows := rfl
@[simp] theorem memPut_jobs (a : Nat) (bs : List Byte) (s : State) : (memPut a bs s).jobs = s.jobs := rfl
@[simp] theorem memPut_rounds (a : Nat) (bs : List Byte) (s : State) : (memPut a bs s).rounds = s.rounds := rfl
@[simp] theorem memPut_lastReel (a : Nat) (bs : List Byte) (s : State) : (memPut a bs s).lastReel = s.lastReel := rfl
@[simp] theorem memPut_radio (a : Nat) (bs : List Byte) (s : State) : (memPut a bs s).radio = s.radio := rfl
@[simp] theorem memPut_flow (a : Nat) (bs : List Byte) (s : State) : (memPut a bs s).flow = s.flow := rfl
@[simp] theorem memPut_cont (a : Nat) (bs : List Byte) (s : State) : (memPut a bs s).cont = s.cont := rfl
@[simp] theorem memPut_matte (a : Nat) (bs : List Byte) (s : State) : (memPut a bs s).matte = s.matte := rfl
@[simp] theorem memPut_splice (a : Nat) (bs : List Byte) (s : State) : (memPut a bs s).splice = s.splice := rfl
@[simp] theorem memPut_fault (a : Nat) (bs : List Byte) (s : State) : (memPut a bs s).fault = s.fault := rfl
@[simp] theorem memPut_hold (a : Nat) (bs : List Byte) (s : State) : (memPut a bs s).hold = s.hold := rfl
@[simp] theorem memPut_mgmt (a : Nat) (bs : List Byte) (s : State) : (memPut a bs s).mgmt = s.mgmt := rfl
@[simp] theorem memPut_board (a : Nat) (bs : List Byte) (s : State) : (memPut a bs s).board = s.board := rfl
@[simp] theorem memPut_free (a : Nat) (bs : List Byte) (s : State) : (memPut a bs s).free = s.free := rfl
@[simp] theorem memPut_out (a : Nat) (bs : List Byte) (s : State) : (memPut a bs s).out = s.out := rfl
@[simp] theorem memPut_fetchTurn (a : Nat) (bs : List Byte) (s : State) : (memPut a bs s).fetchTurn = s.fetchTurn := rfl
@[simp] theorem memPut_pending (a : Nat) (bs : List Byte) (s : State) : (memPut a bs s).pending = s.pending := rfl

/-! `memMark` leaves every field but `mem`. -/

@[simp] theorem memMark_regs (a n : Nat) (s : State) : (memMark a n s).regs = s.regs := rfl
@[simp] theorem memMark_clk (a n : Nat) (s : State) : (memMark a n s).clk = s.clk := rfl
@[simp] theorem memMark_time (a n : Nat) (s : State) : (memMark a n s).time = s.time := rfl
@[simp] theorem memMark_pairs (a n : Nat) (s : State) : (memMark a n s).pairs = s.pairs := rfl
@[simp] theorem memMark_funcs (a n : Nat) (s : State) : (memMark a n s).funcs = s.funcs := rfl
@[simp] theorem memMark_flights (a n : Nat) (s : State) : (memMark a n s).flights = s.flights := rfl
@[simp] theorem memMark_tiles (a n : Nat) (s : State) : (memMark a n s).tiles = s.tiles := rfl
@[simp] theorem memMark_reels (a n : Nat) (s : State) : (memMark a n s).reels = s.reels := rfl
@[simp] theorem memMark_loaded (a n : Nat) (s : State) : (memMark a n s).loaded = s.loaded := rfl
@[simp] theorem memMark_nextLoad (a n : Nat) (s : State) : (memMark a n s).nextLoad = s.nextLoad := rfl
@[simp] theorem memMark_chains (a n : Nat) (s : State) : (memMark a n s).chains = s.chains := rfl
@[simp] theorem memMark_items (a n : Nat) (s : State) : (memMark a n s).items = s.items := rfl
@[simp] theorem memMark_nextItem (a n : Nat) (s : State) : (memMark a n s).nextItem = s.nextItem := rfl
@[simp] theorem memMark_windows (a n : Nat) (s : State) : (memMark a n s).windows = s.windows := rfl
@[simp] theorem memMark_jobs (a n : Nat) (s : State) : (memMark a n s).jobs = s.jobs := rfl
@[simp] theorem memMark_rounds (a n : Nat) (s : State) : (memMark a n s).rounds = s.rounds := rfl
@[simp] theorem memMark_lastReel (a n : Nat) (s : State) : (memMark a n s).lastReel = s.lastReel := rfl
@[simp] theorem memMark_radio (a n : Nat) (s : State) : (memMark a n s).radio = s.radio := rfl
@[simp] theorem memMark_flow (a n : Nat) (s : State) : (memMark a n s).flow = s.flow := rfl
@[simp] theorem memMark_cont (a n : Nat) (s : State) : (memMark a n s).cont = s.cont := rfl
@[simp] theorem memMark_matte (a n : Nat) (s : State) : (memMark a n s).matte = s.matte := rfl
@[simp] theorem memMark_splice (a n : Nat) (s : State) : (memMark a n s).splice = s.splice := rfl
@[simp] theorem memMark_fault (a n : Nat) (s : State) : (memMark a n s).fault = s.fault := rfl
@[simp] theorem memMark_hold (a n : Nat) (s : State) : (memMark a n s).hold = s.hold := rfl
@[simp] theorem memMark_mgmt (a n : Nat) (s : State) : (memMark a n s).mgmt = s.mgmt := rfl
@[simp] theorem memMark_board (a n : Nat) (s : State) : (memMark a n s).board = s.board := rfl
@[simp] theorem memMark_free (a n : Nat) (s : State) : (memMark a n s).free = s.free := rfl
@[simp] theorem memMark_out (a n : Nat) (s : State) : (memMark a n s).out = s.out := rfl
@[simp] theorem memMark_fetchTurn (a n : Nat) (s : State) : (memMark a n s).fetchTurn = s.fetchTurn := rfl
@[simp] theorem memMark_pending (a n : Nat) (s : State) : (memMark a n s).pending = s.pending := rfl

/-! `useFree` leaves every field but `free`. -/

@[simp] theorem useFree_regs (s : State) : (useFree s).regs = s.regs := rfl
@[simp] theorem useFree_clk (s : State) : (useFree s).clk = s.clk := rfl
@[simp] theorem useFree_time (s : State) : (useFree s).time = s.time := rfl
@[simp] theorem useFree_pairs (s : State) : (useFree s).pairs = s.pairs := rfl
@[simp] theorem useFree_funcs (s : State) : (useFree s).funcs = s.funcs := rfl
@[simp] theorem useFree_flights (s : State) : (useFree s).flights = s.flights := rfl
@[simp] theorem useFree_mem (s : State) : (useFree s).mem = s.mem := rfl
@[simp] theorem useFree_tiles (s : State) : (useFree s).tiles = s.tiles := rfl
@[simp] theorem useFree_reels (s : State) : (useFree s).reels = s.reels := rfl
@[simp] theorem useFree_loaded (s : State) : (useFree s).loaded = s.loaded := rfl
@[simp] theorem useFree_nextLoad (s : State) : (useFree s).nextLoad = s.nextLoad := rfl
@[simp] theorem useFree_chains (s : State) : (useFree s).chains = s.chains := rfl
@[simp] theorem useFree_items (s : State) : (useFree s).items = s.items := rfl
@[simp] theorem useFree_nextItem (s : State) : (useFree s).nextItem = s.nextItem := rfl
@[simp] theorem useFree_windows (s : State) : (useFree s).windows = s.windows := rfl
@[simp] theorem useFree_jobs (s : State) : (useFree s).jobs = s.jobs := rfl
@[simp] theorem useFree_rounds (s : State) : (useFree s).rounds = s.rounds := rfl
@[simp] theorem useFree_lastReel (s : State) : (useFree s).lastReel = s.lastReel := rfl
@[simp] theorem useFree_radio (s : State) : (useFree s).radio = s.radio := rfl
@[simp] theorem useFree_flow (s : State) : (useFree s).flow = s.flow := rfl
@[simp] theorem useFree_cont (s : State) : (useFree s).cont = s.cont := rfl
@[simp] theorem useFree_matte (s : State) : (useFree s).matte = s.matte := rfl
@[simp] theorem useFree_splice (s : State) : (useFree s).splice = s.splice := rfl
@[simp] theorem useFree_fault (s : State) : (useFree s).fault = s.fault := rfl
@[simp] theorem useFree_hold (s : State) : (useFree s).hold = s.hold := rfl
@[simp] theorem useFree_mgmt (s : State) : (useFree s).mgmt = s.mgmt := rfl
@[simp] theorem useFree_board (s : State) : (useFree s).board = s.board := rfl
@[simp] theorem useFree_out (s : State) : (useFree s).out = s.out := rfl
@[simp] theorem useFree_fetchTurn (s : State) : (useFree s).fetchTurn = s.fetchTurn := rfl
@[simp] theorem useFree_pending (s : State) : (useFree s).pending = s.pending := rfl

/-! `report` leaves every field but `fault`. -/

@[simp] theorem report_regs (x : Report) (s : State) : (report x s).regs = s.regs := rfl
@[simp] theorem report_clk (x : Report) (s : State) : (report x s).clk = s.clk := rfl
@[simp] theorem report_time (x : Report) (s : State) : (report x s).time = s.time := rfl
@[simp] theorem report_pairs (x : Report) (s : State) : (report x s).pairs = s.pairs := rfl
@[simp] theorem report_funcs (x : Report) (s : State) : (report x s).funcs = s.funcs := rfl
@[simp] theorem report_flights (x : Report) (s : State) : (report x s).flights = s.flights := rfl
@[simp] theorem report_mem (x : Report) (s : State) : (report x s).mem = s.mem := rfl
@[simp] theorem report_tiles (x : Report) (s : State) : (report x s).tiles = s.tiles := rfl
@[simp] theorem report_reels (x : Report) (s : State) : (report x s).reels = s.reels := rfl
@[simp] theorem report_loaded (x : Report) (s : State) : (report x s).loaded = s.loaded := rfl
@[simp] theorem report_nextLoad (x : Report) (s : State) : (report x s).nextLoad = s.nextLoad := rfl
@[simp] theorem report_chains (x : Report) (s : State) : (report x s).chains = s.chains := rfl
@[simp] theorem report_items (x : Report) (s : State) : (report x s).items = s.items := rfl
@[simp] theorem report_nextItem (x : Report) (s : State) : (report x s).nextItem = s.nextItem := rfl
@[simp] theorem report_windows (x : Report) (s : State) : (report x s).windows = s.windows := rfl
@[simp] theorem report_jobs (x : Report) (s : State) : (report x s).jobs = s.jobs := rfl
@[simp] theorem report_rounds (x : Report) (s : State) : (report x s).rounds = s.rounds := rfl
@[simp] theorem report_lastReel (x : Report) (s : State) : (report x s).lastReel = s.lastReel := rfl
@[simp] theorem report_radio (x : Report) (s : State) : (report x s).radio = s.radio := rfl
@[simp] theorem report_flow (x : Report) (s : State) : (report x s).flow = s.flow := rfl
@[simp] theorem report_cont (x : Report) (s : State) : (report x s).cont = s.cont := rfl
@[simp] theorem report_matte (x : Report) (s : State) : (report x s).matte = s.matte := rfl
@[simp] theorem report_splice (x : Report) (s : State) : (report x s).splice = s.splice := rfl
@[simp] theorem report_hold (x : Report) (s : State) : (report x s).hold = s.hold := rfl
@[simp] theorem report_mgmt (x : Report) (s : State) : (report x s).mgmt = s.mgmt := rfl
@[simp] theorem report_board (x : Report) (s : State) : (report x s).board = s.board := rfl
@[simp] theorem report_free (x : Report) (s : State) : (report x s).free = s.free := rfl
@[simp] theorem report_out (x : Report) (s : State) : (report x s).out = s.out := rfl
@[simp] theorem report_fetchTurn (x : Report) (s : State) : (report x s).fetchTurn = s.fetchTurn := rfl
@[simp] theorem report_pending (x : Report) (s : State) : (report x s).pending = s.pending := rfl

/-! `tick` leaves every field but `clk` and `time`. -/

@[simp] theorem tick_regs (s : State) : (tick s).regs = s.regs := rfl
@[simp] theorem tick_pairs (s : State) : (tick s).pairs = s.pairs := rfl
@[simp] theorem tick_funcs (s : State) : (tick s).funcs = s.funcs := rfl
@[simp] theorem tick_flights (s : State) : (tick s).flights = s.flights := rfl
@[simp] theorem tick_mem (s : State) : (tick s).mem = s.mem := rfl
@[simp] theorem tick_tiles (s : State) : (tick s).tiles = s.tiles := rfl
@[simp] theorem tick_reels (s : State) : (tick s).reels = s.reels := rfl
@[simp] theorem tick_loaded (s : State) : (tick s).loaded = s.loaded := rfl
@[simp] theorem tick_nextLoad (s : State) : (tick s).nextLoad = s.nextLoad := rfl
@[simp] theorem tick_chains (s : State) : (tick s).chains = s.chains := rfl
@[simp] theorem tick_items (s : State) : (tick s).items = s.items := rfl
@[simp] theorem tick_nextItem (s : State) : (tick s).nextItem = s.nextItem := rfl
@[simp] theorem tick_windows (s : State) : (tick s).windows = s.windows := rfl
@[simp] theorem tick_jobs (s : State) : (tick s).jobs = s.jobs := rfl
@[simp] theorem tick_rounds (s : State) : (tick s).rounds = s.rounds := rfl
@[simp] theorem tick_lastReel (s : State) : (tick s).lastReel = s.lastReel := rfl
@[simp] theorem tick_radio (s : State) : (tick s).radio = s.radio := rfl
@[simp] theorem tick_flow (s : State) : (tick s).flow = s.flow := rfl
@[simp] theorem tick_cont (s : State) : (tick s).cont = s.cont := rfl
@[simp] theorem tick_matte (s : State) : (tick s).matte = s.matte := rfl
@[simp] theorem tick_splice (s : State) : (tick s).splice = s.splice := rfl
@[simp] theorem tick_fault (s : State) : (tick s).fault = s.fault := rfl
@[simp] theorem tick_hold (s : State) : (tick s).hold = s.hold := rfl
@[simp] theorem tick_mgmt (s : State) : (tick s).mgmt = s.mgmt := rfl
@[simp] theorem tick_board (s : State) : (tick s).board = s.board := rfl
@[simp] theorem tick_free (s : State) : (tick s).free = s.free := rfl
@[simp] theorem tick_out (s : State) : (tick s).out = s.out := rfl
@[simp] theorem tick_fetchTurn (s : State) : (tick s).fetchTurn = s.fetchTurn := rfl
@[simp] theorem tick_pending (s : State) : (tick s).pending = s.pending := rfl

/-! ### Reading after writing -/

theorem rd_wr (o p : Nat) (v : Word) (s : State) : rd (wr o v s) p = if p = o then v else rd s p := tabGet_tabSet ..
@[simp] theorem rd_wr_same (o : Nat) (v : Word) (s : State) : rd (wr o v s) o = v := by simp [rd_wr]
theorem rd_wr_other {o p : Nat} (v : Word) (s : State) (h : p ≠ o) : rd (wr o v s) p = rd s p := by simp [rd_wr, h]

theorem pairOf_setPair (p q : Nat) (x : PairS) (s : State) : pairOf (setPair p x s) q = if q = p then x else pairOf s q :=
  tabGet_tabSet ..
@[simp] theorem pairOf_setPair_same (p : Nat) (x : PairS) (s : State) : pairOf (setPair p x s) p = x := by simp [pairOf_setPair]
theorem funcOf_setFunc (f g : Nat) (x : FuncS) (s : State) : funcOf (setFunc f x s) g = if g = f then x else funcOf s g :=
  tabGet_tabSet ..
@[simp] theorem funcOf_setFunc_same (f : Nat) (x : FuncS) (s : State) : funcOf (setFunc f x s) f = x := by simp [funcOf_setFunc]
theorem tileOf_setTile (n m : Nat) (x : Tile) (s : State) : tileOf (setTile n x s) m = if m = n then x else tileOf s m :=
  tabGet_tabSet ..
@[simp] theorem tileOf_setTile_same (n : Nat) (x : Tile) (s : State) : tileOf (setTile n x s) n = x := by simp [tileOf_setTile]
@[simp] theorem thrOf_setThr_same (t : Thr) (y : Thread) (x : Tile) : thrOf (setThr t y x) t = y := by
  unfold thrOf setThr; split <;> rfl
@[simp] theorem threadOf_setThread_same (n : Nat) (t : Thr) (y : Thread) (s : State) : threadOf (setThread n t y s) n t = y := by
  simp [threadOf, setThread]

@[simp] theorem pairOf_wr (o : Nat) (v : Word) (q : Nat) (s : State) : pairOf (wr o v s) q = pairOf s q := rfl
@[simp] theorem funcOf_wr (o : Nat) (v : Word) (q : Nat) (s : State) : funcOf (wr o v s) q = funcOf s q := rfl
@[simp] theorem tileOf_wr (o : Nat) (v : Word) (q : Nat) (s : State) : tileOf (wr o v s) q = tileOf s q := rfl
@[simp] theorem rd_setPair (p : Nat) (x : PairS) (q : Nat) (s : State) : rd (setPair p x s) q = rd s q := rfl
@[simp] theorem funcOf_setPair (p : Nat) (x : PairS) (q : Nat) (s : State) : funcOf (setPair p x s) q = funcOf s q := rfl
@[simp] theorem tileOf_setPair (p : Nat) (x : PairS) (q : Nat) (s : State) : tileOf (setPair p x s) q = tileOf s q := rfl
@[simp] theorem rd_setFunc (f : Nat) (x : FuncS) (q : Nat) (s : State) : rd (setFunc f x s) q = rd s q := rfl
@[simp] theorem pairOf_setFunc (f : Nat) (x : FuncS) (q : Nat) (s : State) : pairOf (setFunc f x s) q = pairOf s q := rfl
@[simp] theorem tileOf_setFunc (f : Nat) (x : FuncS) (q : Nat) (s : State) : tileOf (setFunc f x s) q = tileOf s q := rfl
@[simp] theorem rd_setTile (n : Nat) (x : Tile) (q : Nat) (s : State) : rd (setTile n x s) q = rd s q := rfl
@[simp] theorem pairOf_setTile (n : Nat) (x : Tile) (q : Nat) (s : State) : pairOf (setTile n x s) q = pairOf s q := rfl
@[simp] theorem funcOf_setTile (n : Nat) (x : Tile) (q : Nat) (s : State) : funcOf (setTile n x s) q = funcOf s q := rfl
@[simp] theorem rd_setThread (n : Nat) (t : Thr) (y : Thread) (q : Nat) (s : State) : rd (setThread n t y s) q = rd s q := rfl
@[simp] theorem pairOf_setThread (n : Nat) (t : Thr) (y : Thread) (q : Nat) (s : State) : pairOf (setThread n t y s) q = pairOf s q := rfl
@[simp] theorem funcOf_setThread (n : Nat) (t : Thr) (y : Thread) (q : Nat) (s : State) : funcOf (setThread n t y s) q = funcOf s q := rfl
@[simp] theorem rd_emit (o : Output) (q : Nat) (s : State) : rd (emit o s) q = rd s q := rfl
@[simp] theorem pairOf_emit (o : Output) (q : Nat) (s : State) : pairOf (emit o s) q = pairOf s q := rfl
@[simp] theorem funcOf_emit (o : Output) (q : Nat) (s : State) : funcOf (emit o s) q = funcOf s q := rfl
@[simp] theorem tileOf_emit (o : Output) (q : Nat) (s : State) : tileOf (emit o s) q = tileOf s q := rfl
@[simp] theorem rd_memPut (a : Nat) (bs : List Byte) (q : Nat) (s : State) : rd (memPut a bs s) q = rd s q := rfl
@[simp] theorem pairOf_memPut (a : Nat) (bs : List Byte) (q : Nat) (s : State) : pairOf (memPut a bs s) q = pairOf s q := rfl
@[simp] theorem funcOf_memPut (a : Nat) (bs : List Byte) (q : Nat) (s : State) : funcOf (memPut a bs s) q = funcOf s q := rfl
@[simp] theorem tileOf_memPut (a : Nat) (bs : List Byte) (q : Nat) (s : State) : tileOf (memPut a bs s) q = tileOf s q := rfl
@[simp] theorem rd_memMark (a n : Nat) (q : Nat) (s : State) : rd (memMark a n s) q = rd s q := rfl
@[simp] theorem pairOf_memMark (a n : Nat) (q : Nat) (s : State) : pairOf (memMark a n s) q = pairOf s q := rfl
@[simp] theorem funcOf_memMark (a n : Nat) (q : Nat) (s : State) : funcOf (memMark a n s) q = funcOf s q := rfl
@[simp] theorem tileOf_memMark (a n : Nat) (q : Nat) (s : State) : tileOf (memMark a n s) q = tileOf s q := rfl
@[simp] theorem rd_useFree (q : Nat) (s : State) : rd (useFree s) q = rd s q := rfl
@[simp] theorem pairOf_useFree (q : Nat) (s : State) : pairOf (useFree s) q = pairOf s q := rfl
@[simp] theorem funcOf_useFree (q : Nat) (s : State) : funcOf (useFree s) q = funcOf s q := rfl
@[simp] theorem tileOf_useFree (q : Nat) (s : State) : tileOf (useFree s) q = tileOf s q := rfl
@[simp] theorem rd_report (x : Report) (q : Nat) (s : State) : rd (report x s) q = rd s q := rfl
@[simp] theorem pairOf_report (x : Report) (q : Nat) (s : State) : pairOf (report x s) q = pairOf s q := rfl
@[simp] theorem funcOf_report (x : Report) (q : Nat) (s : State) : funcOf (report x s) q = funcOf s q := rfl
@[simp] theorem tileOf_report (x : Report) (q : Nat) (s : State) : tileOf (report x s) q = tileOf s q := rfl
@[simp] theorem rd_tick (q : Nat) (s : State) : rd (tick s) q = rd s q := rfl
@[simp] theorem pairOf_tick (q : Nat) (s : State) : pairOf (tick s) q = pairOf s q := rfl
@[simp] theorem funcOf_tick (q : Nat) (s : State) : funcOf (tick s) q = funcOf s q := rfl
@[simp] theorem tileOf_tick (q : Nat) (s : State) : tileOf (tick s) q = tileOf s q := rfl

/-! ### Operations made of those -/

theorem wrf_eq (o hi lo v : Nat) (s : State) : wrf o hi lo v s = wr o (setField (rd s o) hi lo v) s := rfl
theorem bump_eq (o n : Nat) (s : State) : bump o n s = wr o (BitVec.ofNat 32 (min (2 ^ 32 - 1) ((rd s o).toNat + n))) s := rfl
theorem bumpWrap_eq (o : Nat) (s : State) : bumpWrap o s = wr o (rd s o + 1) s := rfl
theorem rd_bump (o n : Nat) (s : State) (p : Nat) :
    rd (bump o n s) p = if p = o then BitVec.ofNat 32 (min (2 ^ 32 - 1) ((rd s o).toNat + n)) else rd s p := rd_wr ..
theorem rd_wrf (o hi lo v : Nat) (s : State) (p : Nat) :
    rd (wrf o hi lo v s) p = if p = o then setField (rd s o) hi lo v else rd s p := rd_wr ..

theorem rdb_wr (o b : Nat) (v : Word) (s : State) (p : Nat) :
    rdb (wr o v s) p b = if p = o then v.getLsbD b else rdb s p b := by
  unfold rdb; rw [rd_wr]; split <;> rfl
theorem rdf_wr (o hi lo : Nat) (v : Word) (s : State) (p : Nat) :
    rdf (wr o v s) p hi lo = if p = o then field v hi lo else rdf s p hi lo := by
  unfold rdf; rw [rd_wr]; split <;> rfl
/-- Bit `b` of a register after field [hi:lo] of a register has been written. -/
theorem rdb_wrf (o hi lo v : Nat) (s : State) (p b : Nat) (h : hi < 32) (hl : lo ≤ hi) :
    rdb (wrf o hi lo v s) p b = if p = o ∧ lo ≤ b ∧ b ≤ hi then v.testBit (b - lo) else rdb s p b := by
  unfold rdb
  rw [rd_wrf]
  by_cases hp : p = o
  · subst hp; simp [getLsbD_setField _ _ _ _ _ h hl]
  · simp [hp]
theorem rdf_wrf_same (o hi lo v : Nat) (s : State) (h : hi < 32) (hl : lo ≤ hi) :
    rdf (wrf o hi lo v s) o hi lo = v % 2 ^ (hi - lo + 1) := by
  unfold rdf; rw [rd_wrf]; simp [field_setField _ _ _ _ h hl]

/-- A write or message issued touches nothing but the log of what left and the functions' pending bits. -/
theorem issue_frame (o : HeldOut) (s : State) :
    issue o s = { s with out := (issue o s).out, funcs := (issue o s).funcs } := by
  unfold issue; split
  · split
    · rfl
    · split <;> rfl
  · rfl
  · rfl

theorem issueOrHold_frame (p : Nat) (f : FuncIx) (o : HeldOut) (s : State) :
    issueOrHold p f o s = { s with out := (issueOrHold p f o s).out, funcs := (issueOrHold p f o s).funcs } := by
  unfold issueOrHold; split
  · exact issue_frame ..
  · rfl

/-- Raising an event bit touches the EVENT register, and by its message the log and the functions. -/
theorem raise_frame (o b : Nat) (s : State) :
    raise o b s = { s with regs := (raise o b s).regs, out := (raise o b s).out, funcs := (raise o b s).funcs } := by
  unfold raise; split
  · rfl
  · dsimp only
    split
    · rw [issueOrHold_frame]; rfl
    · rfl

theorem rd_issue (o : HeldOut) (s : State) (p : Nat) : rd (issue o s) p = rd s p := by rw [issue_frame]; rfl
theorem rd_issueOrHold (q : Nat) (f : FuncIx) (o : HeldOut) (s : State) (p : Nat) :
    rd (issueOrHold q f o s) p = rd s p := by rw [issueOrHold_frame]; rfl

/-- After raising bit `b` of the register at `o`, that bit is set there, and every other register is unchanged. -/
theorem rd_raise (o b : Nat) (s : State) (p : Nat) :
    rd (raise o b s) p = if p = o ∧ rdb s o b = false then rd s o ||| BitVec.ofNat 32 (2 ^ b) else rd s p := by
  unfold raise
  cases h : rdb s o b
  · simp only [Bool.false_eq_true, if_false, and_true]
    split
    · rw [rd_issueOrHold, rd_wr]
    · rw [rd_wr]
  · simp

theorem rdb_raise_other (o b : Nat) (s : State) (p c : Nat) (h : p ≠ o) : rdb (raise o b s) p c = rdb s p c := by
  unfold rdb; rw [rd_raise, if_neg (by simp [h])]

theorem rdb_raise (o b : Nat) (s : State) (h : b < 32) : rdb (raise o b s) o b = true := by
  unfold rdb
  rw [rd_raise]
  cases hb : rdb s o b
  · rw [if_pos ⟨rfl, rfl⟩, BitVec.getLsbD_or, BitVec.getLsbD_ofNat]; simp [h, Nat.testBit_two_pow_self]
  · simpa [rdb] using hb

/-- An access error touches its four registers and the HOST event, and by its message the log and the functions. -/
theorem aerr_frame (k : Nat) (b : Bool) (f : FuncIx) (off : Nat) (s : State) :
    aerr k b f off s = { s with regs := (aerr k b f off s).regs, out := (aerr k b f off s).out, funcs := (aerr k b f off s).funcs } := by
  unfold aerr; rw [raise_frame]; rfl

theorem rd_aerr_other (k : Nat) (b : Bool) (f : FuncIx) (off : Nat) (s : State) (p : Nat)
    (h : p ∉ [0x10024, 0x10028, hostEvent, aerrCount]) : rd (aerr k b f off s) p = rd s p := by
  simp only [List.mem_cons, List.not_mem_nil, or_false, not_or] at h
  unfold aerr
  rw [rd_raise, if_neg (by simp [h.2.2.1]), rd_wr, if_neg h.2.1, rd_wr, if_neg h.1, rd_bump, if_neg h.2.2.2]

/-! ### Memory keeps its canonical form -/

theorem memPut_wf (a : Nat) (bs : List Byte) (s : State) (h : tabWf memDefault s.mem.bytes = true) :
    tabWf memDefault (memPut a bs s).mem.bytes = true := tabWf_tabSetMany _ _ _ _ h

theorem wcStore_wf (e : WcEntry) (n : Nat) (s : State) (h : tabWf memDefault s.mem.bytes = true) :
    tabWf memDefault (wcStore e n s).mem.bytes = true := by
  induction n generalizing s with
  | zero => exact h
  | succ n ih => simp only [wcStore]; apply ih; split; exacts [memPut_wf _ _ _ h, h]

theorem wcFlush_wf (e : WcEntry) (s : State) (h : tabWf memDefault s.mem.bytes = true) :
    tabWf memDefault (wcFlush e s).mem.bytes = true := wcStore_wf _ _ _ h

theorem wcEvict_wf (a : Nat) (s : State) (h : tabWf memDefault s.mem.bytes = true) :
    tabWf memDefault (wcEvict a s).mem.bytes = true := by
  unfold wcEvict
  split
  · exact h
  · split
    · exact wcFlush_wf _ _ h
    · exact h

theorem wcOpen_wf (a : Nat) (s : State) (h : tabWf memDefault s.mem.bytes = true) :
    tabWf memDefault (wcOpen a s).mem.bytes = true := by
  unfold wcOpen
  split
  · exact h
  · exact wcEvict_wf a s h

theorem wcFull_wf (line : Nat) (s : State) (h : tabWf memDefault s.mem.bytes = true) :
    tabWf memDefault (wcFull line s).mem.bytes = true := by
  unfold wcFull
  split
  · split
    · exact wcFlush_wf _ _ h
    · exact h
  · exact h

theorem wcWrite_wf (a : Nat) (bs : List Byte) (s : State) (h : tabWf memDefault s.mem.bytes = true) :
    tabWf memDefault (wcWrite a bs s).mem.bytes = true := by
  unfold wcWrite
  split
  · exact memPut_wf _ _ _ h
  · exact wcFull_wf _ _ (wcOpen_wf a s h)

theorem hbmWrite_wf (n a : Nat) (bs : List Byte) (s : State) (h : tabWf memDefault s.mem.bytes = true) :
    tabWf memDefault (hbmWrite n a bs s).mem.bytes = true := by
  induction n generalizing a bs s with
  | zero => exact h
  | succ n ih => simp only [hbmWrite]; split; exacts [h, ih _ _ _ (wcWrite_wf _ _ _ h)]

/-- Every write to device memory keeps the canonical form. -/
theorem memWrite_wf (a : Nat) (bs : List Byte) (s : State) (h : tabWf memDefault s.mem.bytes = true) :
    tabWf memDefault (memWrite a bs s).mem.bytes = true := by
  unfold memWrite; split; exacts [hbmWrite_wf _ _ _ _ h, memPut_wf _ _ _ h]

/-- Reading device memory keeps the canonical form. -/
theorem memTouch_wf (a len : Nat) (s : State) (h : tabWf memDefault s.mem.bytes = true) :
    tabWf memDefault (memTouch a len s).mem.bytes = true := by
  have key : ∀ n line s, tabWf memDefault (State.mem s).bytes = true →
      tabWf memDefault (wcFlushLines n line s).mem.bytes = true := by
    intro n
    induction n with
    | zero => intro _ _ h; exact h
    | succ n ih =>
      intro line s h
      simp only [wcFlushLines]
      apply ih
      unfold wcFlushLine
      split
      exacts [wcFlush_wf _ _ h, h]
  unfold memTouch
  split
  exacts [key _ _ _ h, h]

theorem reset_mem_wf : tabWf memDefault State.reset.mem.bytes = true := rfl

end Sys2Proof.Machine
end

