-- ==== Sys2Proof/Laws/Frame.lean ====
section
/-! SUPPORT. What an operation can do, said once: which parts of the state it may change, and that it keeps the canonical form
of every table. -/

namespace Sys2Proof.Machine

/-- The parts of the state. -/
inductive Fld where
  | regs | clk | time | pairs | funcs | flights | mem | tiles | reels | loaded | nextLoad | chains | items | nextItem
  | windows | jobs | rounds | lastReel | radio | flow | cont | matte | splice | fault | hold | mgmt | board | free | out
  | fetchTurn | pending
  deriving DecidableEq, Repr

/-- The part is the same in both states. -/
def sameFld (s t : State) : Fld → Prop
  | .regs => t.regs = s.regs
  | .clk => t.clk = s.clk
  | .time => t.time = s.time
  | .pairs => t.pairs = s.pairs
  | .funcs => t.funcs = s.funcs
  | .flights => t.flights = s.flights
  | .mem => t.mem = s.mem
  | .tiles => t.tiles = s.tiles
  | .reels => t.reels = s.reels
  | .loaded => t.loaded = s.loaded
  | .nextLoad => t.nextLoad = s.nextLoad
  | .chains => t.chains = s.chains
  | .items => t.items = s.items
  | .nextItem => t.nextItem = s.nextItem
  | .windows => t.windows = s.windows
  | .jobs => t.jobs = s.jobs
  | .rounds => t.rounds = s.rounds
  | .lastReel => t.lastReel = s.lastReel
  | .radio => t.radio = s.radio
  | .flow => t.flow = s.flow
  | .cont => t.cont = s.cont
  | .matte => t.matte = s.matte
  | .splice => t.splice = s.splice
  | .fault => t.fault = s.fault
  | .hold => t.hold = s.hold
  | .mgmt => t.mgmt = s.mgmt
  | .board => t.board = s.board
  | .free => t.free = s.free
  | .out => t.out = s.out
  | .fetchTurn => t.fetchTurn = s.fetchTurn
  | .pending => t.pending = s.pending

/-- Every part of the first list is in the second. -/
def Fld.within (m l : List Fld) : Bool := m.all fun f => decide (f ∈ l)

/-- Containment of lists of parts is transitive. -/
theorem within_of_within {m l k : List Fld} (h1 : Fld.within m l = true) (h2 : Fld.within l k = true) : Fld.within m k = true := by
  simp only [Fld.within, List.all_eq_true, decide_eq_true_eq] at *
  exact fun f hf => h2 f (h1 f hf)

/-- From `s` to `t` only parts listed change, and the tables keep their canonical form. -/
structure Does (l : List Fld) (s t : State) : Prop where
  wf : s.wf = true → t.wf = true
  same : ∀ f, f ∉ l → sameFld s t f

theorem Does.refl (l : List Fld) (s : State) : Does l s s := ⟨id, fun f _ => by cases f <;> rfl⟩

/-- One operation after another. -/
theorem Does.trans {l m : List Fld} {s t u : State} (h1 : Does l s t) (h2 : Does m t u) (hm : Fld.within m l = true) :
    Does l s u := by
  refine ⟨fun h => h2.1 (h1.1 h), fun f hf => ?_⟩
  have hf2 : f ∉ m := fun h => hf (by simpa using List.all_eq_true.1 hm f h)
  have a := h1.2 f hf
  have b := h2.2 f hf2
  cases f <;> exact Eq.trans b a

theorem Does.mono {l m : List Fld} {s t : State} (h : Does m s t) (hm : Fld.within m l = true) : Does l s t :=
  (Does.refl l s).trans h hm

/-- The canonical form depends on five tables. -/
theorem wf_congr {s t : State} (h : s.wf = true) (h1 : t.regs = s.regs) (h2 : t.mem.bytes = s.mem.bytes) (h3 : t.pairs = s.pairs)
    (h4 : t.funcs = s.funcs) (h5 : t.tiles = s.tiles) : t.wf = true := by
  simpa only [State.wf, h1, h2, h3, h4, h5] using h

/-- A record update that leaves the five tables. -/
theorem Does.congr {l : List Fld} {s t u : State} (h : Does l s t) (h1 : u.regs = t.regs) (h2 : u.mem.bytes = t.mem.bytes)
    (h3 : u.pairs = t.pairs) (h4 : u.funcs = t.funcs) (h5 : u.tiles = t.tiles) (hf : ∀ f, f ∉ l → sameFld t u f) : Does l s u :=
  ⟨fun hs => wf_congr (h.1 hs) h1 h2 h3 h4 h5, fun f hl => by
    have a := h.2 f hl
    have b := hf f hl
    cases f <;> exact Eq.trans b a⟩

/-- The same for an update written out. -/
theorem Does.upd {l : List Fld} {s t : State} {clk : Nat} {time : TimeS} {flights : List Flight} {mem : MemS} {reels :
    Tab Reel} {loaded : List Loaded} {nextLoad : Nat} {chains : List Chain} {items : List Item} {nextItem : Nat}
    {windows : List WinRun} {jobs : List Job} {rounds : Tab Round} {lastReel : Tab Nat} {radio : RadioS} {flow :
    FlowS} {cont : EngineS} {matte : EngineS} {splice : SpliceS} {fault : FaultS} {hold : Holdover} {mgmt : MgmtS}
    {board : BoardS} {free : Nat} {out : List Output} {fetchTurn : Nat} {pending : List Instr} (h : Does l s t) (hm : mem.bytes =
    t.mem.bytes) (hf : ∀ f, f ∉ l → sameFld t (State.mk t.regs clk time t.pairs t.funcs flights mem t.tiles reels
    loaded nextLoad chains items nextItem windows jobs rounds lastReel radio flow cont matte splice fault hold mgmt
    board free out fetchTurn pending) f) : Does l s (State.mk t.regs clk time t.pairs t.funcs flights mem t.tiles reels loaded
    nextLoad chains items nextItem windows jobs rounds lastReel radio flow cont matte splice fault hold mgmt board
    free out fetchTurn pending) := Does.congr h rfl hm rfl rfl rfl hf

/-- Operations folded over a list. -/
theorem Does.foldl {α : Type} {l : List Fld} {f : State → α → State} (hf : ∀ s x, Does l s (f s x)) (xs : List α) (s : State) :
    Does l s (xs.foldl f s) := by
  induction xs generalizing s with
  | nil => exact Does.refl l s
  | cons x xs ih => exact (hf s x).trans (ih (f s x)) (by simp [Fld.within])

/-! ### The elementary updates -/

theorem wr_does {fs₀ s₀ o v s} (h₀ : Does fs₀ s₀ s) (hf₀ : Fld.within [.regs] fs₀ = true) :
    Does fs₀ s₀ (wr o v s) := by
  refine h₀.trans ?_ hf₀
  refine ⟨fun h => ?_, fun f hf => by cases f <;> first | rfl | simp at hf⟩
  simp only [State.wf, Bool.and_eq_true] at h ⊢
  exact ⟨⟨⟨⟨tabWf_tabSet _ _ _ _ h.1.1.1.1, h.1.1.1.2⟩, h.1.1.2⟩, h.1.2⟩, h.2⟩
theorem setPair_does {fs₀ s₀ p x s} (h₀ : Does fs₀ s₀ s) (hf₀ : Fld.within [.pairs] fs₀ = true) :
    Does fs₀ s₀ (setPair p x s) := by
  refine h₀.trans ?_ hf₀
  refine ⟨fun h => ?_, fun f hf => by cases f <;> first | rfl | simp at hf⟩
  simp only [State.wf, Bool.and_eq_true] at h ⊢
  exact ⟨⟨⟨h.1.1.1, tabWf_tabSet _ _ _ _ h.1.1.2⟩, h.1.2⟩, h.2⟩
theorem setFunc_does {fs₀ s₀ f x s} (h₀ : Does fs₀ s₀ s) (hf₀ : Fld.within [.funcs] fs₀ = true) :
    Does fs₀ s₀ (setFunc f x s) := by
  refine h₀.trans ?_ hf₀
  refine ⟨fun h => ?_, fun f hf => by cases f <;> first | rfl | simp at hf⟩
  simp only [State.wf, Bool.and_eq_true] at h ⊢
  exact ⟨⟨⟨h.1.1.1, h.1.1.2⟩, tabWf_tabSet _ _ _ _ h.1.2⟩, h.2⟩
theorem setTile_does {fs₀ s₀ n x s} (h₀ : Does fs₀ s₀ s) (hf₀ : Fld.within [.tiles] fs₀ = true) :
    Does fs₀ s₀ (setTile n x s) := by
  refine h₀.trans ?_ hf₀
  refine ⟨fun h => ?_, fun f hf => by cases f <;> first | rfl | simp at hf⟩
  simp only [State.wf, Bool.and_eq_true] at h ⊢
  exact ⟨h.1, tabWf_tabSet _ _ _ _ h.2⟩
theorem memPut_does {fs₀ s₀ a bs s} (h₀ : Does fs₀ s₀ s) (hf₀ : Fld.within [.mem] fs₀ = true) :
    Does fs₀ s₀ (memPut a bs s) := by
  refine h₀.trans ?_ hf₀
  refine ⟨fun h => ?_, fun f hf => by cases f <;> first | rfl | simp at hf⟩
  simp only [State.wf, Bool.and_eq_true] at h ⊢
  exact ⟨⟨⟨⟨h.1.1.1.1, tabWf_tabSetMany _ _ _ _ h.1.1.1.2⟩, h.1.1.2⟩, h.1.2⟩, h.2⟩

end Sys2Proof.Machine
end

