-- ==== Sys2Proof/Laws/DoesShared.lean ====
section
/-! SUPPORT. What each operation can do: the shared operations.
Each lemma lists the parts of the state its operation may change; the parts not listed stay, and the tables keep their
canonical form (`Does`). The lemma of a command says it of every next state the command answers. -/

set_option linter.all false

namespace Sys2Proof.Machine

/-! ### Ops -/

theorem useFree_does {fs₀ s₀ s} (h₀ : Does fs₀ s₀ s) (hf₀ : Fld.within [.free] fs₀ = true) :
    Does fs₀ s₀ (useFree s) := by
  refine h₀.trans ?_ hf₀
  clear h₀ hf₀
  unfold useFree
  try dsimp only
  all_goals repeat'
    first
    | with_reducible exact Does.refl _ _
    | decide
    | split
    | ((with_reducible refine Does.upd ?_ ?_ ?_); (on_goal 2 => exact rfl); (on_goal 2 => (intro f hf; cases f <;> first | exact absurd (by decide) hf | dsimp only [sameFld])))

theorem wrf_does {fs₀ s₀ o hi lo v s} (h₀ : Does fs₀ s₀ s) (hf₀ : Fld.within [.regs] fs₀ = true) :
    Does fs₀ s₀ (wrf o hi lo v s) := by
  refine h₀.trans ?_ hf₀
  clear h₀ hf₀
  unfold wrf
  try dsimp only
  all_goals repeat'
    first
    | with_reducible exact Does.refl _ _
    | decide
    | with_reducible apply wr_does
    | split

theorem wrMany_does {fs₀ s₀ o x2 x3} (h₀ : Does fs₀ s₀ x3) (hf₀ : Fld.within [.regs] fs₀ = true) :
    Does fs₀ s₀ (wrMany o x2 x3) := by
  refine h₀.trans ?_ hf₀
  clear h₀ hf₀
  fun_induction wrMany o x2 x3
  all_goals try dsimp +zetaDelta only
  all_goals repeat'
    first
    | with_reducible exact Does.refl _ _
    | decide
    | with_reducible refine Does.trans ?_ (by assumption) ?_
    | with_reducible apply wr_does
    | split

theorem bump_does {fs₀ s₀ o n s} (h₀ : Does fs₀ s₀ s) (hf₀ : Fld.within [.regs] fs₀ = true) :
    Does fs₀ s₀ (bump o n s) := by
  refine h₀.trans ?_ hf₀
  clear h₀ hf₀
  unfold bump
  try dsimp only
  all_goals repeat'
    first
    | with_reducible exact Does.refl _ _
    | decide
    | with_reducible apply wr_does
    | split

theorem bumpWrap_does {fs₀ s₀ o s} (h₀ : Does fs₀ s₀ s) (hf₀ : Fld.within [.regs] fs₀ = true) :
    Does fs₀ s₀ (bumpWrap o s) := by
  refine h₀.trans ?_ hf₀
  clear h₀ hf₀
  unfold bumpWrap
  try dsimp only
  all_goals repeat'
    first
    | with_reducible exact Does.refl _ _
    | decide
    | with_reducible apply wr_does
    | split

theorem peak_does {fs₀ s₀ o v s} (h₀ : Does fs₀ s₀ s) (hf₀ : Fld.within [.regs] fs₀ = true) :
    Does fs₀ s₀ (peak o v s) := by
  refine h₀.trans ?_ hf₀
  clear h₀ hf₀
  unfold peak
  try dsimp only
  all_goals repeat'
    first
    | with_reducible exact Does.refl _ _
    | decide
    | with_reducible apply wr_does
    | split

theorem emit_does {fs₀ s₀ o s} (h₀ : Does fs₀ s₀ s) (hf₀ : Fld.within [.out] fs₀ = true) :
    Does fs₀ s₀ (emit o s) := by
  refine h₀.trans ?_ hf₀
  clear h₀ hf₀
  unfold emit
  try dsimp only
  all_goals repeat'
    first
    | with_reducible exact Does.refl _ _
    | decide
    | split
    | ((with_reducible refine Does.upd ?_ ?_ ?_); (on_goal 2 => exact rfl); (on_goal 2 => (intro f hf; cases f <;> first | exact absurd (by decide) hf | dsimp only [sameFld])))

theorem tick_does {fs₀ s₀ s} (h₀ : Does fs₀ s₀ s) (hf₀ : Fld.within [.clk, .time] fs₀ = true) :
    Does fs₀ s₀ (tick s) := by
  refine h₀.trans ?_ hf₀
  clear h₀ hf₀
  unfold tick
  try dsimp only
  all_goals repeat'
    first
    | with_reducible exact Does.refl _ _
    | decide
    | split
    | ((with_reducible refine Does.upd ?_ ?_ ?_); (on_goal 2 => exact rfl); (on_goal 2 => (intro f hf; cases f <;> first | exact absurd (by decide) hf | dsimp only [sameFld])))

theorem advance_does {fs₀ s₀ n s} (h₀ : Does fs₀ s₀ s) (hf₀ : Fld.within [.clk, .time] fs₀ = true) :
    Does fs₀ s₀ (advance n s) := by
  refine h₀.trans ?_ hf₀
  clear h₀ hf₀
  unfold advance
  try dsimp only
  all_goals repeat'
    first
    | with_reducible exact Does.refl _ _
    | decide
    | split
    | ((with_reducible refine Does.upd ?_ ?_ ?_); (on_goal 2 => exact rfl); (on_goal 2 => (intro f hf; cases f <;> first | exact absurd (by decide) hf | dsimp only [sameFld])))

theorem runToClk_does {fs₀ s₀ t s} (h₀ : Does fs₀ s₀ s) (hf₀ : Fld.within [.clk, .time] fs₀ = true) :
    Does fs₀ s₀ (runToClk t s) := by
  refine h₀.trans ?_ hf₀
  clear h₀ hf₀
  unfold runToClk
  try dsimp only
  all_goals repeat'
    first
    | with_reducible exact Does.refl _ _
    | decide
    | with_reducible apply advance_does
    | split

theorem runToTime_does {fs₀ s₀ u s} (h₀ : Does fs₀ s₀ s) (hf₀ : Fld.within [.clk, .time] fs₀ = true) :
    Does fs₀ s₀ (runToTime u s) := by
  refine h₀.trans ?_ hf₀
  clear h₀ hf₀
  unfold runToTime
  try dsimp only
  all_goals repeat'
    first
    | with_reducible exact Does.refl _ _
    | decide
    | with_reducible apply advance_does
    | split

theorem issue_does {fs₀ s₀ o s} (h₀ : Does fs₀ s₀ s) (hf₀ : Fld.within [.funcs, .out] fs₀ = true) :
    Does fs₀ s₀ (issue o s) := by
  refine h₀.trans ?_ hf₀
  clear h₀ hf₀
  unfold issue
  try dsimp only
  all_goals repeat'
    first
    | with_reducible exact Does.refl _ _
    | decide
    | with_reducible apply emit_does
    | with_reducible apply setFunc_does
    | split

theorem issueOrHold_does {fs₀ s₀ p f o s} (h₀ : Does fs₀ s₀ s) (hf₀ : Fld.within [.funcs, .out] fs₀ = true) :
    Does fs₀ s₀ (issueOrHold p f o s) := by
  refine h₀.trans ?_ hf₀
  clear h₀ hf₀
  unfold issueOrHold
  try dsimp only
  all_goals repeat'
    first
    | with_reducible exact Does.refl _ _
    | decide
    | with_reducible apply issue_does
    | with_reducible apply setFunc_does
    | split

theorem signalPair_does {fs₀ s₀ p s} (h₀ : Does fs₀ s₀ s) (hf₀ : Fld.within [.pairs, .funcs, .out] fs₀ = true) :
    Does fs₀ s₀ (signalPair p s) := by
  refine h₀.trans ?_ hf₀
  clear h₀ hf₀
  unfold signalPair
  try dsimp only
  all_goals repeat'
    first
    | with_reducible exact Does.refl _ _
    | decide
    | with_reducible apply issueOrHold_does
    | with_reducible apply setPair_does
    | split

theorem maybeSignal_does {fs₀ s₀ p s} (h₀ : Does fs₀ s₀ s) (hf₀ : Fld.within [.pairs, .funcs, .out] fs₀ = true) :
    Does fs₀ s₀ (maybeSignal p s) := by
  refine h₀.trans ?_ hf₀
  clear h₀ hf₀
  unfold maybeSignal
  try dsimp only
  all_goals repeat'
    first
    | with_reducible exact Does.refl _ _
    | decide
    | with_reducible apply signalPair_does
    | split

theorem raise_does {fs₀ s₀ o b s} (h₀ : Does fs₀ s₀ s) (hf₀ : Fld.within [.regs, .funcs, .out] fs₀ = true) :
    Does fs₀ s₀ (raise o b s) := by
  refine h₀.trans ?_ hf₀
  clear h₀ hf₀
  unfold raise
  try dsimp only
  all_goals repeat'
    first
    | with_reducible exact Does.refl _ _
    | decide
    | with_reducible apply issueOrHold_does
    | with_reducible apply wr_does
    | split

theorem aerr_does {fs₀ s₀ kind bar2 f off s} (h₀ : Does fs₀ s₀ s) (hf₀ : Fld.within [.regs, .funcs, .out] fs₀ = true) :
    Does fs₀ s₀ (aerr kind bar2 f off s) := by
  refine h₀.trans ?_ hf₀
  clear h₀ hf₀
  unfold aerr
  try dsimp only
  all_goals repeat'
    first
    | with_reducible exact Does.refl _ _
    | decide
    | with_reducible apply raise_does
    | with_reducible apply bump_does
    | with_reducible apply wr_does
    | split

theorem countRec_does {fs₀ s₀ r s} (h₀ : Does fs₀ s₀ s) (hf₀ : Fld.within [.regs] fs₀ = true) :
    Does fs₀ s₀ (countRec r s) := by
  refine h₀.trans ?_ hf₀
  clear h₀ hf₀
  unfold countRec
  try dsimp only
  all_goals repeat'
    first
    | with_reducible exact Does.refl _ _
    | decide
    | with_reducible apply bump_does
    | split

theorem writeRec_does {fs₀ s₀ p r s} (h₀ : Does fs₀ s₀ s) (hf₀ : Fld.within [.regs, .pairs, .funcs, .out] fs₀ = true) :
    Does fs₀ s₀ (writeRec p r s) := by
  refine h₀.trans ?_ hf₀
  clear h₀ hf₀
  unfold writeRec
  try dsimp only
  all_goals repeat'
    first
    | with_reducible exact Does.refl _ _
    | decide
    | with_reducible apply maybeSignal_does
    | with_reducible apply issueOrHold_does
    | with_reducible apply setPair_does
    | with_reducible apply wr_does
    | split

theorem issueData_does {fs₀ s₀ p x2 x3} (h₀ : Does fs₀ s₀ x3) (hf₀ : Fld.within [.funcs, .out] fs₀ = true) :
    Does fs₀ s₀ (issueData p x2 x3) := by
  refine h₀.trans ?_ hf₀
  clear h₀ hf₀
  fun_induction issueData p x2 x3
  all_goals try dsimp +zetaDelta only
  all_goals repeat'
    first
    | with_reducible exact Does.refl _ _
    | decide
    | with_reducible refine Does.trans ?_ (by assumption) ?_
    | with_reducible apply issueOrHold_does
    | split

theorem putRec_does {fs₀ s₀ p r s} (h₀ : Does fs₀ s₀ s) (hf₀ : Fld.within [.regs, .pairs, .funcs, .out] fs₀ = true) :
    Does fs₀ s₀ (putRec p r s) := by
  refine h₀.trans ?_ hf₀
  clear h₀ hf₀
  unfold putRec
  try dsimp only
  all_goals repeat'
    first
    | with_reducible exact Does.refl _ _
    | decide
    | with_reducible apply writeRec_does
    | with_reducible apply bump_does
    | split

theorem putBatch_does {fs₀ s₀ p b s} (h₀ : Does fs₀ s₀ s) (hf₀ : Fld.within [.regs, .pairs, .funcs, .out] fs₀ = true) :
    Does fs₀ s₀ (putBatch p b s) := by
  refine h₀.trans ?_ hf₀
  clear h₀ hf₀
  unfold putBatch
  try dsimp only
  all_goals repeat'
    first
    | with_reducible exact Does.refl _ _
    | decide
    | with_reducible apply putRec_does
    | with_reducible apply issueData_does
    | with_reducible apply setPair_does
    | split

theorem eventRec_does {fs₀ s₀ p r s} (h₀ : Does fs₀ s₀ s) (hf₀ : Fld.within [.regs, .pairs, .funcs, .out] fs₀ = true) :
    Does fs₀ s₀ (eventRec p r s) := by
  refine h₀.trans ?_ hf₀
  clear h₀ hf₀
  unfold eventRec
  try dsimp only
  all_goals repeat'
    first
    | with_reducible exact Does.refl _ _
    | decide
    | with_reducible apply writeRec_does
    | with_reducible apply setPair_does
    | with_reducible apply bump_does
    | split

theorem eventRecord_does {fs₀ s₀ p r s} (h₀ : Does fs₀ s₀ s) (hf₀ : Fld.within [.regs, .pairs, .funcs, .out] fs₀ = true) :
    Does fs₀ s₀ (eventRecord p r s) := by
  refine h₀.trans ?_ hf₀
  clear h₀ hf₀
  unfold eventRecord
  try dsimp only
  all_goals repeat'
    first
    | with_reducible exact Does.refl _ _
    | decide
    | with_reducible apply eventRec_does
    | with_reducible apply countRec_does
    | split

theorem markStarted_does {fs₀ s₀ r s} (h₀ : Does fs₀ s₀ s) (hf₀ : Fld.within [.flights] fs₀ = true) :
    Does fs₀ s₀ (markStarted r s) := by
  refine h₀.trans ?_ hf₀
  clear h₀ hf₀
  unfold markStarted
  try dsimp only
  all_goals repeat'
    first
    | with_reducible exact Does.refl _ _
    | decide
    | split
    | ((with_reducible refine Does.upd ?_ ?_ ?_); (on_goal 2 => exact rfl); (on_goal 2 => (intro f hf; cases f <;> first | exact absurd (by decide) hf | dsimp only [sameFld])))

theorem finish_does {fs₀ s₀ r status disp result progress faultRef data s} (h₀ : Does fs₀ s₀ s) (hf₀ : Fld.within [.regs,
      .pairs, .funcs, .flights, .fault, .out] fs₀ = true) :
    Does fs₀ s₀ (finish r status disp result progress faultRef data s) := by
  refine h₀.trans ?_ hf₀
  clear h₀ hf₀
  unfold finish
  try dsimp only
  all_goals repeat'
    first
    | with_reducible exact Does.refl _ _
    | decide
    | with_reducible apply putBatch_does
    | with_reducible apply countRec_does
    | split
    | ((with_reducible refine Does.upd ?_ ?_ ?_); (on_goal 2 => exact rfl); (on_goal 2 => (intro f hf; cases f <;> first | exact absurd (by decide) hf | dsimp only [sameFld])))

theorem interim_does {fs₀ s₀ r status progress s} (h₀ : Does fs₀ s₀ s) (hf₀ : Fld.within [.regs, .pairs, .funcs,
      .out] fs₀ = true) :
    Does fs₀ s₀ (interim r status progress s) := by
  refine h₀.trans ?_ hf₀
  clear h₀ hf₀
  unfold interim
  try dsimp only
  all_goals repeat'
    first
    | with_reducible exact Does.refl _ _
    | decide
    | with_reducible apply putBatch_does
    | with_reducible apply countRec_does
    | with_reducible apply bump_does
    | split

theorem refuse_does {fs₀ s₀ r status s} (h₀ : Does fs₀ s₀ s) (hf₀ : Fld.within [.regs, .pairs, .funcs, .flights, .fault,
      .out] fs₀ = true) :
    Does fs₀ s₀ (refuse r status s) := by
  refine h₀.trans ?_ hf₀
  clear h₀ hf₀
  unfold refuse
  try dsimp only
  all_goals repeat'
    first
    | with_reducible exact Does.refl _ _
    | decide
    | with_reducible apply finish_does
    | split

theorem report_does {fs₀ s₀ x s} (h₀ : Does fs₀ s₀ s) (hf₀ : Fld.within [.fault] fs₀ = true) :
    Does fs₀ s₀ (report x s) := by
  refine h₀.trans ?_ hf₀
  clear h₀ hf₀
  unfold report
  try dsimp only
  all_goals repeat'
    first
    | with_reducible exact Does.refl _ _
    | decide
    | split
    | ((with_reducible refine Does.upd ?_ ?_ ?_); (on_goal 2 => exact rfl); (on_goal 2 => (intro f hf; cases f <;> first | exact absurd (by decide) hf | dsimp only [sameFld])))

theorem logFault_does {fs₀ s₀ u kind cause action mode ids detail s} (h₀ : Does fs₀ s₀ s) (hf₀ : Fld.within [.regs,
      .fault] fs₀ = true) :
    Does fs₀ s₀ (logFault u kind cause action mode ids detail s) := by
  refine h₀.trans ?_ hf₀
  clear h₀ hf₀
  unfold logFault
  try dsimp only
  all_goals repeat'
    first
    | with_reducible exact Does.refl _ _
    | decide
    | with_reducible apply wrMany_does
    | with_reducible apply wr_does
    | split
    | ((with_reducible refine Does.upd ?_ ?_ ?_); (on_goal 2 => exact rfl); (on_goal 2 => (intro f hf; cases f <;> first | exact absurd (by decide) hf | dsimp only [sameFld])))

theorem logDmaError_does {fs₀ s₀ r tagged s} (h₀ : Does fs₀ s₀ s) (hf₀ : Fld.within [.regs, .funcs, .fault, .out] fs₀ = true) :
    Does fs₀ s₀ (logDmaError r tagged s) := by
  refine h₀.trans ?_ hf₀
  clear h₀ hf₀
  unfold logDmaError
  try dsimp only
  all_goals repeat'
    first
    | with_reducible exact Does.refl _ _
    | decide
    | with_reducible apply logFault_does
    | with_reducible apply raise_does
    | with_reducible apply bump_does
    | split

theorem memMark_does {fs₀ s₀ a n s} (h₀ : Does fs₀ s₀ s) (hf₀ : Fld.within [.mem] fs₀ = true) :
    Does fs₀ s₀ (memMark a n s) := by
  refine h₀.trans ?_ hf₀
  clear h₀ hf₀
  unfold memMark
  try dsimp only
  all_goals repeat'
    first
    | with_reducible exact Does.refl _ _
    | decide
    | split
    | ((with_reducible refine Does.upd ?_ ?_ ?_); (on_goal 2 => exact rfl); (on_goal 2 => (intro f hf; cases f <;> first | exact absurd (by decide) hf | dsimp only [sameFld])))

theorem wcStore_does {fs₀ s₀ e x2 x3} (h₀ : Does fs₀ s₀ x3) (hf₀ : Fld.within [.mem] fs₀ = true) :
    Does fs₀ s₀ (wcStore e x2 x3) := by
  refine h₀.trans ?_ hf₀
  clear h₀ hf₀
  fun_induction wcStore e x2 x3
  all_goals try dsimp +zetaDelta only
  all_goals repeat'
    first
    | with_reducible exact Does.refl _ _
    | decide
    | with_reducible refine Does.trans ?_ (by assumption) ?_
    | with_reducible apply memPut_does
    | split

theorem wcFlush_does {fs₀ s₀ e s} (h₀ : Does fs₀ s₀ s) (hf₀ : Fld.within [.mem] fs₀ = true) :
    Does fs₀ s₀ (wcFlush e s) := by
  refine h₀.trans ?_ hf₀
  clear h₀ hf₀
  unfold wcFlush
  try dsimp only
  all_goals repeat'
    first
    | with_reducible exact Does.refl _ _
    | decide
    | with_reducible apply wcStore_does
    | split
    | ((with_reducible refine Does.upd ?_ ?_ ?_); (on_goal 2 => exact rfl); (on_goal 2 => (intro f hf; cases f <;> first | exact absurd (by decide) hf | dsimp only [sameFld])))

theorem wcFlushBad_does {fs₀ s₀ e s} (h₀ : Does fs₀ s₀ s) (hf₀ : Fld.within [.mem] fs₀ = true) :
    Does fs₀ s₀ (wcFlushBad e s) := by
  refine h₀.trans ?_ hf₀
  clear h₀ hf₀
  unfold wcFlushBad
  try dsimp only
  all_goals repeat'
    first
    | with_reducible exact Does.refl _ _
    | decide
    | with_reducible apply wcFlush_does
    | with_reducible apply memMark_does
    | split

theorem wcFlushLine_does {fs₀ s₀ line s} (h₀ : Does fs₀ s₀ s) (hf₀ : Fld.within [.mem] fs₀ = true) :
    Does fs₀ s₀ (wcFlushLine line s) := by
  refine h₀.trans ?_ hf₀
  clear h₀ hf₀
  unfold wcFlushLine
  try dsimp only
  all_goals repeat'
    first
    | with_reducible exact Does.refl _ _
    | decide
    | with_reducible apply wcFlush_does
    | split

theorem wcEvict_does {fs₀ s₀ a s} (h₀ : Does fs₀ s₀ s) (hf₀ : Fld.within [.regs, .mem] fs₀ = true) :
    Does fs₀ s₀ (wcEvict a s) := by
  refine h₀.trans ?_ hf₀
  clear h₀ hf₀
  unfold wcEvict
  try dsimp only
  all_goals repeat'
    first
    | with_reducible exact Does.refl _ _
    | decide
    | with_reducible apply wcFlush_does
    | with_reducible apply bump_does
    | split

theorem wcOpen_does {fs₀ s₀ a s} (h₀ : Does fs₀ s₀ s) (hf₀ : Fld.within [.regs, .mem] fs₀ = true) :
    Does fs₀ s₀ (wcOpen a s) := by
  refine h₀.trans ?_ hf₀
  clear h₀ hf₀
  unfold wcOpen
  try dsimp only
  all_goals repeat'
    first
    | with_reducible exact Does.refl _ _
    | decide
    | with_reducible apply wcEvict_does
    | split
    | ((with_reducible refine Does.upd ?_ ?_ ?_); (on_goal 2 => exact rfl); (on_goal 2 => (intro f hf; cases f <;> first | exact absurd (by decide) hf | dsimp only [sameFld])))

theorem wcPut_does {fs₀ s₀ a bs s} (h₀ : Does fs₀ s₀ s) (hf₀ : Fld.within [.mem] fs₀ = true) :
    Does fs₀ s₀ (wcPut a bs s) := by
  refine h₀.trans ?_ hf₀
  clear h₀ hf₀
  unfold wcPut
  try dsimp only
  all_goals repeat'
    first
    | with_reducible exact Does.refl _ _
    | decide
    | split
    | ((with_reducible refine Does.upd ?_ ?_ ?_); (on_goal 2 => exact rfl); (on_goal 2 => (intro f hf; cases f <;> first | exact absurd (by decide) hf | dsimp only [sameFld])))

theorem wcFull_does {fs₀ s₀ line s} (h₀ : Does fs₀ s₀ s) (hf₀ : Fld.within [.mem] fs₀ = true) :
    Does fs₀ s₀ (wcFull line s) := by
  refine h₀.trans ?_ hf₀
  clear h₀ hf₀
  unfold wcFull
  try dsimp only
  all_goals repeat'
    first
    | with_reducible exact Does.refl _ _
    | decide
    | with_reducible apply wcFlush_does
    | split

theorem wcWrite_does {fs₀ s₀ a bs s} (h₀ : Does fs₀ s₀ s) (hf₀ : Fld.within [.regs, .mem] fs₀ = true) :
    Does fs₀ s₀ (wcWrite a bs s) := by
  refine h₀.trans ?_ hf₀
  clear h₀ hf₀
  unfold wcWrite
  try dsimp only
  all_goals repeat'
    first
    | with_reducible exact Does.refl _ _
    | decide
    | with_reducible apply wcFull_does
    | with_reducible apply wcPut_does
    | with_reducible apply wcOpen_does
    | with_reducible apply memPut_does
    | split
    | ((with_reducible refine Does.upd ?_ ?_ ?_); (on_goal 2 => exact rfl); (on_goal 2 => (intro f hf; cases f <;> first | exact absurd (by decide) hf | dsimp only [sameFld])))

theorem hbmWrite_does {fs₀ s₀ x1 x2 x3 x4} (h₀ : Does fs₀ s₀ x4) (hf₀ : Fld.within [.regs, .mem] fs₀ = true) :
    Does fs₀ s₀ (hbmWrite x1 x2 x3 x4) := by
  refine h₀.trans ?_ hf₀
  clear h₀ hf₀
  fun_induction hbmWrite x1 x2 x3 x4
  all_goals try dsimp +zetaDelta only
  all_goals repeat'
    first
    | with_reducible exact Does.refl _ _
    | decide
    | with_reducible refine Does.trans ?_ (by assumption) ?_
    | with_reducible apply wcWrite_does
    | split

theorem memWrite_does {fs₀ s₀ a bs s} (h₀ : Does fs₀ s₀ s) (hf₀ : Fld.within [.regs, .mem] fs₀ = true) :
    Does fs₀ s₀ (memWrite a bs s) := by
  refine h₀.trans ?_ hf₀
  clear h₀ hf₀
  unfold memWrite
  try dsimp only
  all_goals repeat'
    first
    | with_reducible exact Does.refl _ _
    | decide
    | with_reducible apply hbmWrite_does
    | with_reducible apply memPut_does
    | split

theorem wcFlushLines_does {fs₀ s₀ x1 x2 x3} (h₀ : Does fs₀ s₀ x3) (hf₀ : Fld.within [.mem] fs₀ = true) :
    Does fs₀ s₀ (wcFlushLines x1 x2 x3) := by
  refine h₀.trans ?_ hf₀
  clear h₀ hf₀
  fun_induction wcFlushLines x1 x2 x3
  all_goals try dsimp +zetaDelta only
  all_goals repeat'
    first
    | with_reducible exact Does.refl _ _
    | decide
    | with_reducible refine Does.trans ?_ (by assumption) ?_
    | with_reducible apply wcFlushLine_does
    | split

theorem memTouch_does {fs₀ s₀ a len s} (h₀ : Does fs₀ s₀ s) (hf₀ : Fld.within [.mem] fs₀ = true) :
    Does fs₀ s₀ (memTouch a len s) := by
  refine h₀.trans ?_ hf₀
  clear h₀ hf₀
  unfold memTouch
  try dsimp only
  all_goals repeat'
    first
    | with_reducible exact Does.refl _ _
    | decide
    | with_reducible apply wcFlushLines_does
    | split

theorem setThread_does {fs₀ s₀ n t y s} (h₀ : Does fs₀ s₀ s) (hf₀ : Fld.within [.tiles] fs₀ = true) :
    Does fs₀ s₀ (setThread n t y s) := by
  refine h₀.trans ?_ hf₀
  clear h₀ hf₀
  unfold setThread
  try dsimp only
  all_goals repeat'
    first
    | with_reducible exact Does.refl _ _
    | decide
    | with_reducible apply setTile_does
    | split

/-! ### FlowRec -/

theorem setFlowRec_does {fs₀ s₀ i r s} (h₀ : Does fs₀ s₀ s) (hf₀ : Fld.within [.regs, .mem] fs₀ = true) :
    Does fs₀ s₀ (setFlowRec i r s) := by
  refine h₀.trans ?_ hf₀
  clear h₀ hf₀
  unfold setFlowRec
  try dsimp only
  all_goals repeat'
    first
    | with_reducible exact Does.refl _ _
    | decide
    | with_reducible apply memWrite_does
    | split

theorem setFlowX_does {fs₀ s₀ i x s} (h₀ : Does fs₀ s₀ s) (hf₀ : Fld.within [.flow] fs₀ = true) :
    Does fs₀ s₀ (setFlowX i x s) := by
  refine h₀.trans ?_ hf₀
  clear h₀ hf₀
  unfold setFlowX
  try dsimp only
  all_goals repeat'
    first
    | with_reducible exact Does.refl _ _
    | decide
    | split
    | ((with_reducible refine Does.upd ?_ ?_ ?_); (on_goal 2 => exact rfl); (on_goal 2 => (intro f hf; cases f <;> first | exact absurd (by decide) hf | dsimp only [sameFld])))

theorem flowRecordBy_does {fs₀ s₀ r cls status disp progress result faultRef s} (h₀ : Does fs₀ s₀ s)
      (hf₀ : Fld.within [.regs, .pairs, .funcs, .out] fs₀ = true) :
    Does fs₀ s₀ (flowRecordBy r cls status disp progress result faultRef s) := by
  refine h₀.trans ?_ hf₀
  clear h₀ hf₀
  unfold flowRecordBy
  try dsimp only
  all_goals repeat'
    first
    | with_reducible exact Does.refl _ _
    | decide
    | with_reducible apply eventRecord_does
    | with_reducible apply putBatch_does
    | split

theorem flowRecordResult_does {fs₀ s₀ i cls status disp progress result faultRef s} (h₀ : Does fs₀ s₀ s)
      (hf₀ : Fld.within [.regs, .pairs, .funcs, .out] fs₀ = true) :
    Does fs₀ s₀ (flowRecordResult i cls status disp progress result faultRef s) := by
  refine h₀.trans ?_ hf₀
  clear h₀ hf₀
  unfold flowRecordResult
  try dsimp only
  all_goals repeat'
    first
    | with_reducible exact Does.refl _ _
    | decide
    | with_reducible apply flowRecordBy_does
    | split

theorem flowRecordEvent_does {fs₀ s₀ i cls status disp progress low faultRef s} (h₀ : Does fs₀ s₀ s)
      (hf₀ : Fld.within [.regs, .pairs, .funcs, .out] fs₀ = true) :
    Does fs₀ s₀ (flowRecordEvent i cls status disp progress low faultRef s) := by
  refine h₀.trans ?_ hf₀
  clear h₀ hf₀
  unfold flowRecordEvent
  try dsimp only
  all_goals repeat'
    first
    | with_reducible exact Does.refl _ _
    | decide
    | with_reducible apply flowRecordResult_does
    | split

theorem dropOrphan_does {fs₀ s₀ k s} (h₀ : Does fs₀ s₀ s) (hf₀ : Fld.within [.flow] fs₀ = true) :
    Does fs₀ s₀ (dropOrphan k s) := by
  refine h₀.trans ?_ hf₀
  clear h₀ hf₀
  unfold dropOrphan
  try dsimp only
  all_goals repeat'
    first
    | with_reducible exact Does.refl _ _
    | decide
    | split
    | ((with_reducible refine Does.upd ?_ ?_ ?_); (on_goal 2 => exact rfl); (on_goal 2 => (intro f hf; cases f <;> first | exact absurd (by decide) hf | dsimp only [sameFld])))

theorem requestRecord_does {fs₀ s₀ k i cls status disp progress low faultRef s} (h₀ : Does fs₀ s₀ s)
      (hf₀ : Fld.within [.regs, .pairs, .funcs, .flow, .out] fs₀ = true) :
    Does fs₀ s₀ (requestRecord k i cls status disp progress low faultRef s) := by
  refine h₀.trans ?_ hf₀
  clear h₀ hf₀
  unfold requestRecord
  try dsimp only
  all_goals repeat'
    first
    | with_reducible exact Does.refl _ _
    | decide
    | with_reducible apply dropOrphan_does
    | with_reducible apply flowRecordEvent_does
    | with_reducible apply flowRecordBy_does
    | split

theorem orphanRec_does {fs₀ s₀ i s} (h₀ : Does fs₀ s₀ s) (hf₀ : Fld.within [.flow] fs₀ = true) :
    Does fs₀ s₀ (orphanRec i s) := by
  refine h₀.trans ?_ hf₀
  clear h₀ hf₀
  unfold orphanRec
  try dsimp only
  all_goals repeat'
    first
    | with_reducible exact Does.refl _ _
    | decide
    | split
    | ((with_reducible refine Does.upd ?_ ?_ ?_); (on_goal 2 => exact rfl); (on_goal 2 => (intro f hf; cases f <;> first | exact absurd (by decide) hf | dsimp only [sameFld])))

/-! ### ExactSlot -/

theorem aliasWrite_does {fs₀ s₀ k data s} (h₀ : Does fs₀ s₀ s) (hf₀ : Fld.within [.mem] fs₀ = true) :
    Does fs₀ s₀ (aliasWrite k data s) := by
  refine h₀.trans ?_ hf₀
  clear h₀ hf₀
  unfold aliasWrite
  try dsimp only
  all_goals repeat'
    first
    | with_reducible exact Does.refl _ _
    | decide
    | with_reducible apply memPut_does
    | split

theorem aliasWrites_does {fs₀ s₀ x1 x2 x3 x4} (h₀ : Does fs₀ s₀ x4) (hf₀ : Fld.within [.mem] fs₀ = true) :
    Does fs₀ s₀ (aliasWrites x1 x2 x3 x4) := by
  refine h₀.trans ?_ hf₀
  clear h₀ hf₀
  fun_induction aliasWrites x1 x2 x3 x4
  all_goals try dsimp +zetaDelta only
  all_goals repeat'
    first
    | with_reducible exact Does.refl _ _
    | decide
    | with_reducible refine Does.trans ?_ (by assumption) ?_
    | with_reducible apply aliasWrite_does
    | split

theorem devTouch_does {fs₀ s₀ a len s} (h₀ : Does fs₀ s₀ s) (hf₀ : Fld.within [.mem, .free] fs₀ = true) :
    Does fs₀ s₀ (devTouch a len s) := by
  refine h₀.trans ?_ hf₀
  clear h₀ hf₀
  unfold devTouch
  try dsimp only
  all_goals repeat'
    first
    | with_reducible exact Does.refl _ _
    | decide
    | with_reducible apply memTouch_does
    | split
    | ((with_reducible refine Does.upd ?_ ?_ ?_); (on_goal 2 => exact rfl); (on_goal 2 => (intro f hf; cases f <;> first | exact absurd (by decide) hf | dsimp only [sameFld])))

theorem devWrite_does {fs₀ s₀ a bs s} (h₀ : Does fs₀ s₀ s) (hf₀ : Fld.within [.regs, .mem] fs₀ = true) :
    Does fs₀ s₀ (devWrite a bs s) := by
  refine h₀.trans ?_ hf₀
  clear h₀ hf₀
  unfold devWrite
  try dsimp only
  all_goals repeat'
    first
    | with_reducible exact Does.refl _ _
    | decide
    | with_reducible apply aliasWrites_does
    | with_reducible apply memWrite_does
    | split

/-! ### SpliceOps -/

theorem codecKib_does {fs₀ s₀ o key n s} (h₀ : Does fs₀ s₀ s) (hf₀ : Fld.within [.regs, .mem] fs₀ = true) :
    Does fs₀ s₀ (codecKib o key n s) := by
  refine h₀.trans ?_ hf₀
  clear h₀ hf₀
  unfold codecKib
  try dsimp only
  all_goals repeat'
    first
    | with_reducible exact Does.refl _ _
    | decide
    | with_reducible apply bump_does
    | split
    | ((with_reducible refine Does.upd ?_ ?_ ?_); (on_goal 2 => exact rfl); (on_goal 2 => (intro f hf; cases f <;> first | exact absurd (by decide) hf | dsimp only [sameFld])))

theorem codecCount_does {fs₀ s₀ e raw coded isRaw s} (h₀ : Does fs₀ s₀ s) (hf₀ : Fld.within [.regs, .mem] fs₀ = true) :
    Does fs₀ s₀ (codecCount e raw coded isRaw s) := by
  refine h₀.trans ?_ hf₀
  clear h₀ hf₀
  unfold codecCount
  try dsimp only
  all_goals repeat'
    first
    | with_reducible exact Does.refl _ _
    | decide
    | with_reducible apply codecKib_does
    | with_reducible apply bump_does
    | split

theorem setLink_does {fs₀ s₀ l x s} (h₀ : Does fs₀ s₀ s) (hf₀ : Fld.within [.splice] fs₀ = true) :
    Does fs₀ s₀ (setLink l x s) := by
  refine h₀.trans ?_ hf₀
  clear h₀ hf₀
  unfold setLink
  try dsimp only
  all_goals repeat'
    first
    | with_reducible exact Does.refl _ _
    | decide
    | split
    | ((with_reducible refine Does.upd ?_ ?_ ?_); (on_goal 2 => exact rfl); (on_goal 2 => (intro f hf; cases f <;> first | exact absurd (by decide) hf | dsimp only [sameFld])))

theorem setLinkState_does {fs₀ s₀ l st s} (h₀ : Does fs₀ s₀ s) (hf₀ : Fld.within [.regs, .funcs, .out] fs₀ = true) :
    Does fs₀ s₀ (setLinkState l st s) := by
  refine h₀.trans ?_ hf₀
  clear h₀ hf₀
  unfold setLinkState
  try dsimp only
  all_goals repeat'
    first
    | with_reducible exact Does.refl _ _
    | decide
    | with_reducible apply raise_does
    | with_reducible apply wrf_does
    | split

theorem linkStart_does {fs₀ s₀ l m s} (h₀ : Does fs₀ s₀ s) (hf₀ : Fld.within [.regs, .splice, .out] fs₀ = true) :
    Does fs₀ s₀ (linkStart l m s) := by
  refine h₀.trans ?_ hf₀
  clear h₀ hf₀
  unfold linkStart
  try dsimp only
  all_goals repeat'
    first
    | with_reducible exact Does.refl _ _
    | decide
    | with_reducible apply setLink_does
    | with_reducible apply emit_does
    | with_reducible apply bump_does
    | split

theorem linkDrain_does {fs₀ s₀ l x2 x3} (h₀ : Does fs₀ s₀ x3) (hf₀ : Fld.within [.regs, .splice, .out] fs₀ = true) :
    Does fs₀ s₀ (linkDrain l x2 x3) := by
  refine h₀.trans ?_ hf₀
  clear h₀ hf₀
  fun_induction linkDrain l x2 x3
  all_goals try dsimp +zetaDelta only
  all_goals repeat'
    first
    | with_reducible exact Does.refl _ _
    | decide
    | with_reducible refine Does.trans ?_ (by assumption) ?_
    | with_reducible apply linkStart_does
    | with_reducible apply setLink_does
    | split

theorem linkPut_does {fs₀ s₀ l m s} (h₀ : Does fs₀ s₀ s) (hf₀ : Fld.within [.regs, .splice, .out] fs₀ = true) :
    Does fs₀ s₀ (linkPut l m s) := by
  refine h₀.trans ?_ hf₀
  clear h₀ hf₀
  unfold linkPut
  try dsimp only
  all_goals repeat'
    first
    | with_reducible exact Does.refl _ _
    | decide
    | with_reducible apply linkDrain_does
    | with_reducible apply setLink_does
    | split

theorem wireMsg_does {fs₀ s₀ l m s} (h₀ : Does fs₀ s₀ s) (hf₀ : Fld.within [.regs, .mem, .free] fs₀ = true) :
    Does fs₀ s₀ (wireMsg l m s).2 := by
  refine h₀.trans ?_ hf₀
  clear h₀ hf₀
  unfold wireMsg
  try dsimp only
  all_goals repeat'
    first
    | with_reducible exact Does.refl _ _
    | decide
    | with_reducible apply codecCount_does
    | with_reducible apply useFree_does
    | split

theorem sendMsg_does {fs₀ s₀ m s} (h₀ : Does fs₀ s₀ s) (hf₀ : Fld.within [.regs, .mem, .splice, .free, .out] fs₀ = true) :
    Does fs₀ s₀ (sendMsg m s) := by
  refine h₀.trans ?_ hf₀
  clear h₀ hf₀
  unfold sendMsg
  try dsimp only
  all_goals repeat'
    first
    | with_reducible exact Does.refl _ _
    | decide
    | with_reducible apply wireMsg_does
    | with_reducible apply linkPut_does
    | split
    | (obtain rfl := congrArg Prod.snd ‹wireMsg _ _ _ = _›)
    | ((with_reducible refine Does.upd ?_ ?_ ?_); (on_goal 2 => exact rfl); (on_goal 2 => (intro f hf; cases f <;> first | exact absurd (by decide) hf | dsimp only [sameFld])))

theorem sendAll_does {fs₀ s₀ g kind tag payload x5 x6} (h₀ : Does fs₀ s₀ x6) (hf₀ : Fld.within [.regs, .mem, .splice, .free,
      .out] fs₀ = true) :
    Does fs₀ s₀ (sendAll g kind tag payload x5 x6) := by
  refine h₀.trans ?_ hf₀
  clear h₀ hf₀
  fun_induction sendAll g kind tag payload x5 x6
  all_goals try dsimp +zetaDelta only
  all_goals repeat'
    first
    | with_reducible exact Does.refl _ _
    | decide
    | with_reducible refine Does.trans ?_ (by assumption) ?_
    | with_reducible apply sendMsg_does
    | split

theorem disarm_does {fs₀ s₀ g id x3 x4} (h₀ : Does fs₀ s₀ x4) (hf₀ : Fld.within [.regs, .pairs, .funcs, .flights, .splice,
      .fault, .out] fs₀ = true) :
    Does fs₀ s₀ (disarm g id x3 x4) := by
  refine h₀.trans ?_ hf₀
  clear h₀ hf₀
  fun_induction disarm g id x3 x4
  all_goals try dsimp +zetaDelta only
  all_goals repeat'
    first
    | with_reducible exact Does.refl _ _
    | decide
    | with_reducible refine Does.trans ?_ (by assumption) ?_
    | with_reducible apply finish_does
    | split
    | ((with_reducible refine Does.upd ?_ ?_ ?_); (on_goal 2 => exact rfl); (on_goal 2 => (intro f hf; cases f <;> first | exact absurd (by decide) hf | dsimp only [sameFld])))

theorem countBreak_does {fs₀ s₀ s} (h₀ : Does fs₀ s₀ s) (hf₀ : Fld.within [.regs, .funcs, .out] fs₀ = true) :
    Does fs₀ s₀ (countBreak s) := by
  refine h₀.trans ?_ hf₀
  clear h₀ hf₀
  unfold countBreak
  try dsimp only
  all_goals repeat'
    first
    | with_reducible exact Does.refl _ _
    | decide
    | with_reducible apply raise_does
    | with_reducible apply bump_does
    | split

theorem breakSlate_does {fs₀ s₀ g id status s} (h₀ : Does fs₀ s₀ s) (hf₀ : Fld.within [.regs, .pairs, .funcs, .flights, .mem,
      .splice, .fault, .free, .out] fs₀ = true) :
    Does fs₀ s₀ (breakSlate g id status s) := by
  refine h₀.trans ?_ hf₀
  clear h₀ hf₀
  unfold breakSlate
  try dsimp only
  all_goals repeat'
    first
    | with_reducible exact Does.refl _ _
    | decide
    | with_reducible apply countBreak_does
    | with_reducible apply disarm_does
    | with_reducible apply sendAll_does
    | with_reducible apply sendMsg_does
    | split

theorem clearGroup_does {fs₀ s₀ g s} (h₀ : Does fs₀ s₀ s) (hf₀ : Fld.within [.splice] fs₀ = true) :
    Does fs₀ s₀ (clearGroup g s) := by
  refine h₀.trans ?_ hf₀
  clear h₀ hf₀
  unfold clearGroup
  try dsimp only
  all_goals repeat'
    first
    | with_reducible exact Does.refl _ _
    | decide
    | split
    | ((with_reducible refine Does.upd ?_ ?_ ?_); (on_goal 2 => exact rfl); (on_goal 2 => (intro f hf; cases f <;> first | exact absurd (by decide) hf | dsimp only [sameFld])))

/-! ### Uplink -/

theorem setChain_does {fs₀ s₀ c s} (h₀ : Does fs₀ s₀ s) (hf₀ : Fld.within [.chains] fs₀ = true) :
    Does fs₀ s₀ (setChain c s) := by
  refine h₀.trans ?_ hf₀
  clear h₀ hf₀
  unfold setChain
  try dsimp only
  all_goals repeat'
    first
    | with_reducible exact Does.refl _ _
    | decide
    | split
    | ((with_reducible refine Does.upd ?_ ?_ ?_); (on_goal 2 => exact rfl); (on_goal 2 => (intro f hf; cases f <;> first | exact absurd (by decide) hf | dsimp only [sameFld])))

theorem setGot_does {fs₀ s₀ c g s} (h₀ : Does fs₀ s₀ s) (hf₀ : Fld.within [.chains] fs₀ = true) :
    Does fs₀ s₀ (setGot c g s) := by
  refine h₀.trans ?_ hf₀
  clear h₀ hf₀
  unfold setGot
  try dsimp only
  all_goals repeat'
    first
    | with_reducible exact Does.refl _ _
    | decide
    | with_reducible apply setChain_does
    | split

theorem harqPut_does {fs₀ s₀ cap g p h s} (h₀ : Does fs₀ s₀ s) (hf₀ : Fld.within [.radio] fs₀ = true) :
    Does fs₀ s₀ (harqPut cap g p h s) := by
  refine h₀.trans ?_ hf₀
  clear h₀ hf₀
  unfold harqPut
  try dsimp only
  all_goals repeat'
    first
    | with_reducible exact Does.refl _ _
    | decide
    | split
    | ((with_reducible refine Does.upd ?_ ?_ ?_); (on_goal 2 => exact rfl); (on_goal 2 => (intro f hf; cases f <;> first | exact absurd (by decide) hf | dsimp only [sameFld])))

theorem harqKeep_does {fs₀ s₀ c p cb soft s} (h₀ : Does fs₀ s₀ s) (hf₀ : Fld.within [.radio] fs₀ = true) :
    Does fs₀ s₀ (harqKeep c p cb soft s) := by
  refine h₀.trans ?_ hf₀
  clear h₀ hf₀
  unfold harqKeep
  try dsimp only
  all_goals repeat'
    first
    | with_reducible exact Does.refl _ _
    | decide
    | with_reducible apply harqPut_does
    | split

theorem harqPassed_does {fs₀ s₀ c p s} (h₀ : Does fs₀ s₀ s) (hf₀ : Fld.within [.radio] fs₀ = true) :
    Does fs₀ s₀ (harqPassed c p s) := by
  refine h₀.trans ?_ hf₀
  clear h₀ hf₀
  unfold harqPassed
  try dsimp only
  all_goals repeat'
    first
    | with_reducible exact Does.refl _ _
    | decide
    | split
    | ((with_reducible refine Does.upd ?_ ?_ ?_); (on_goal 2 => exact rfl); (on_goal 2 => (intro f hf; cases f <;> first | exact absurd (by decide) hf | dsimp only [sameFld])))

theorem harqRestore_does {fs₀ s₀ c s} (h₀ : Does fs₀ s₀ s) (hf₀ : Fld.within [.radio] fs₀ = true) :
    Does fs₀ s₀ (harqRestore c s) := by
  refine h₀.trans ?_ hf₀
  clear h₀ hf₀
  unfold harqRestore
  try dsimp only
  all_goals repeat'
    first
    | with_reducible exact Does.refl _ _
    | decide
    | split
    | ((with_reducible refine Does.upd ?_ ?_ ?_); (on_goal 2 => exact rfl); (on_goal 2 => (intro f hf; cases f <;> first | exact absurd (by decide) hf | dsimp only [sameFld])))

theorem beginPdu_does {fs₀ s₀ c k p s} (h₀ : Does fs₀ s₀ s) (hf₀ : Fld.within [.chains, .radio] fs₀ = true) :
    Does fs₀ s₀ (beginPdu c k p s) := by
  refine h₀.trans ?_ hf₀
  clear h₀ hf₀
  unfold beginPdu
  try dsimp only
  all_goals repeat'
    first
    | with_reducible exact Does.refl _ _
    | decide
    | with_reducible apply harqPut_does
    | with_reducible apply setGot_does
    | split

theorem deliverGot_does {fs₀ s₀ c p x s} (h₀ : Does fs₀ s₀ s) (hf₀ : Fld.within [.chains, .radio] fs₀ = true) :
    Does fs₀ s₀ (deliverGot c p x s) := by
  refine h₀.trans ?_ hf₀
  clear h₀ hf₀
  unfold deliverGot
  try dsimp only
  all_goals repeat'
    first
    | with_reducible exact Does.refl _ _
    | decide
    | with_reducible apply harqPassed_does
    | with_reducible apply setGot_does
    | split

theorem decodeBlock_does {fs₀ s₀ c p b s} (h₀ : Does fs₀ s₀ s) (hf₀ : Fld.within [.regs, .chains, .radio] fs₀ = true) :
    Does fs₀ s₀ (decodeBlock c p b s) := by
  refine h₀.trans ?_ hf₀
  clear h₀ hf₀
  unfold decodeBlock
  try dsimp only
  all_goals repeat'
    first
    | with_reducible exact Does.refl _ _
    | decide
    | with_reducible apply deliverGot_does
    | with_reducible apply harqKeep_does
    | with_reducible apply bump_does
    | split

theorem plainBlock_does {fs₀ s₀ c p b passed s} (h₀ : Does fs₀ s₀ s) (hf₀ : Fld.within [.chains, .radio] fs₀ = true) :
    Does fs₀ s₀ (plainBlock c p b passed s) := by
  refine h₀.trans ?_ hf₀
  clear h₀ hf₀
  unfold plainBlock
  try dsimp only
  all_goals repeat'
    first
    | with_reducible exact Does.refl _ _
    | decide
    | with_reducible apply deliverGot_does
    | split

theorem judgeBlock_does {fs₀ s₀ c p b s} (h₀ : Does fs₀ s₀ s) (hf₀ : Fld.within [.regs, .chains, .radio] fs₀ = true) :
    Does fs₀ s₀ (judgeBlock c p b s) := by
  refine h₀.trans ?_ hf₀
  clear h₀ hf₀
  unfold judgeBlock
  try dsimp only
  all_goals repeat'
    first
    | with_reducible exact Does.refl _ _
    | decide
    | with_reducible apply plainBlock_does
    | with_reducible apply decodeBlock_does
    | split

theorem deliverBlock_does {fs₀ s₀ r b s} (h₀ : Does fs₀ s₀ s) (hf₀ : Fld.within [.regs, .chains, .radio] fs₀ = true) :
    Does fs₀ s₀ (deliverBlock r b s) := by
  refine h₀.trans ?_ hf₀
  clear h₀ hf₀
  unfold deliverBlock
  try dsimp only
  all_goals repeat'
    first
    | with_reducible exact Does.refl _ _
    | decide
    | with_reducible apply judgeBlock_does
    | with_reducible apply beginPdu_does
    | split

theorem deliverBlocks_does {fs₀ s₀ r x2 x3} (h₀ : Does fs₀ s₀ x3) (hf₀ : Fld.within [.regs, .chains, .radio] fs₀ = true) :
    Does fs₀ s₀ (deliverBlocks r x2 x3) := by
  refine h₀.trans ?_ hf₀
  clear h₀ hf₀
  fun_induction deliverBlocks r x2 x3
  all_goals try dsimp +zetaDelta only
  all_goals repeat'
    first
    | with_reducible exact Does.refl _ _
    | decide
    | with_reducible refine Does.trans ?_ (by assumption) ?_
    | with_reducible apply deliverBlock_does
    | split

theorem deliverRa_does {fs₀ s₀ r x s} (h₀ : Does fs₀ s₀ s) (hf₀ : Fld.within [.regs, .chains] fs₀ = true) :
    Does fs₀ s₀ (deliverRa r x s) := by
  refine h₀.trans ?_ hf₀
  clear h₀ hf₀
  unfold deliverRa
  try dsimp only
  all_goals repeat'
    first
    | with_reducible exact Does.refl _ _
    | decide
    | with_reducible apply setGot_does
    | with_reducible apply bump_does
    | split

theorem deliverRas_does {fs₀ s₀ r x2 x3} (h₀ : Does fs₀ s₀ x3) (hf₀ : Fld.within [.regs, .chains] fs₀ = true) :
    Does fs₀ s₀ (deliverRas r x2 x3) := by
  refine h₀.trans ?_ hf₀
  clear h₀ hf₀
  fun_induction deliverRas r x2 x3
  all_goals try dsimp +zetaDelta only
  all_goals repeat'
    first
    | with_reducible exact Does.refl _ _
    | decide
    | with_reducible refine Does.trans ?_ (by assumption) ?_
    | with_reducible apply deliverRa_does
    | split

theorem deliverPlain_does {fs₀ s₀ c seen res s} (h₀ : Does fs₀ s₀ s) (hf₀ : Fld.within [.chains] fs₀ = true) :
    Does fs₀ s₀ (deliverPlain c seen res s) := by
  refine h₀.trans ?_ hf₀
  clear h₀ hf₀
  unfold deliverPlain
  try dsimp only
  all_goals repeat'
    first
    | with_reducible exact Does.refl _ _
    | decide
    | with_reducible apply setGot_does
    | split

theorem deliver_does {fs₀ s₀ r seen res s} (h₀ : Does fs₀ s₀ s) (hf₀ : Fld.within [.regs, .chains, .radio] fs₀ = true) :
    Does fs₀ s₀ (deliver r seen res s) := by
  refine h₀.trans ?_ hf₀
  clear h₀ hf₀
  unfold deliver
  try dsimp only
  all_goals repeat'
    first
    | with_reducible exact Does.refl _ _
    | decide
    | with_reducible apply deliverPlain_does
    | with_reducible apply deliverRas_does
    | with_reducible apply deliverBlocks_does
    | split

theorem deliverFree_does {fs₀ s₀ r s} (h₀ : Does fs₀ s₀ s) (hf₀ : Fld.within [.regs, .chains, .radio, .free] fs₀ = true) :
    Does fs₀ s₀ (deliverFree r s) := by
  refine h₀.trans ?_ hf₀
  clear h₀ hf₀
  unfold deliverFree
  try dsimp only
  all_goals repeat'
    first
    | with_reducible exact Does.refl _ _
    | decide
    | with_reducible apply deliver_does
    | with_reducible apply useFree_does
    | split

/-! ### Operands -/

theorem lsStore_does {fs₀ s₀ n a len v s} (h₀ : Does fs₀ s₀ s) (hf₀ : Fld.within [.mem] fs₀ = true) :
    Does fs₀ s₀ (lsStore n a len v s) := by
  refine h₀.trans ?_ hf₀
  clear h₀ hf₀
  unfold lsStore
  try dsimp only
  all_goals repeat'
    first
    | with_reducible exact Does.refl _ _
    | decide
    | with_reducible apply memPut_does
    | split

theorem compStore_does {fs₀ s₀ n y0 c s} (h₀ : Does fs₀ s₀ s) (hf₀ : Fld.within [.mem] fs₀ = true) :
    Does fs₀ s₀ (compStore n y0 c s) := by
  refine h₀.trans ?_ hf₀
  clear h₀ hf₀
  unfold compStore
  try dsimp only
  all_goals repeat'
    first
    | with_reducible exact Does.refl _ _
    | decide
    | with_reducible apply lsStore_does
    | split

end Sys2Proof.Machine
end

