-- ==== Sys2Proof/Laws/DoesWork.lean ====
section
/-! SUPPORT. What each operation can do: descriptors, completions, the ledger, boot and time.
Each lemma lists the parts of the state its operation may change; the parts not listed stay, and the tables keep their
canonical form (`Does`). The lemma of a command says it of every next state the command answers. -/

set_option linter.all false

namespace Sys2Proof.Machine

/-! ### Work -/

theorem finishOut_does {fs₀ s₀ r status disp result progress ref bytes s} (h₀ : Does fs₀ s₀ s) (hf₀ : Fld.within [.regs,
      .pairs, .funcs, .flights, .mem, .fault, .out] fs₀ = true) :
    Does fs₀ s₀ (finishOut r status disp result progress ref bytes s) := by
  refine h₀.trans ?_ hf₀
  clear h₀ hf₀
  unfold finishOut
  try dsimp only
  all_goals repeat'
    first
    | with_reducible exact Does.refl _ _
    | decide
    | with_reducible apply devWrite_does
    | with_reducible apply finish_does
    | split

theorem stopThread_does {fs₀ s₀ n t s} (h₀ : Does fs₀ s₀ s) (hf₀ : Fld.within [.tiles] fs₀ = true) :
    Does fs₀ s₀ (stopThread n t s) := by
  refine h₀.trans ?_ hf₀
  clear h₀ hf₀
  unfold stopThread
  try dsimp only
  all_goals repeat'
    first
    | with_reducible exact Does.refl _ _
    | decide
    | with_reducible apply setThread_does
    | split

theorem startThread_does {fs₀ s₀ n t owner image role entry s} (h₀ : Does fs₀ s₀ s) (hf₀ : Fld.within [.regs,
      .tiles] fs₀ = true) :
    Does fs₀ s₀ (startThread n t owner image role entry s) := by
  refine h₀.trans ?_ hf₀
  clear h₀ hf₀
  unfold startThread
  try dsimp only
  all_goals repeat'
    first
    | with_reducible exact Does.refl _ _
    | decide
    | with_reducible apply setThread_does
    | with_reducible apply wrf_does
    | with_reducible apply wr_does
    | split

theorem setReel_does {fs₀ s₀ r x s} (h₀ : Does fs₀ s₀ s) (hf₀ : Fld.within [.reels] fs₀ = true) :
    Does fs₀ s₀ (setReel r x s) := by
  refine h₀.trans ?_ hf₀
  clear h₀ hf₀
  unfold setReel
  try dsimp only
  all_goals repeat'
    first
    | with_reducible exact Does.refl _ _
    | decide
    | split
    | ((with_reducible refine Does.upd ?_ ?_ ?_); (on_goal 2 => exact rfl); (on_goal 2 => (intro f hf; cases f <;> first | exact absurd (by decide) hf | dsimp only [sameFld])))

theorem emptyReels_does {fs₀ s₀ tiles x2 x3} (h₀ : Does fs₀ s₀ x3) (hf₀ : Fld.within [.reels] fs₀ = true) :
    Does fs₀ s₀ (emptyReels tiles x2 x3) := by
  refine h₀.trans ?_ hf₀
  clear h₀ hf₀
  fun_induction emptyReels tiles x2 x3
  all_goals try dsimp +zetaDelta only
  all_goals repeat'
    first
    | with_reducible exact Does.refl _ _
    | decide
    | with_reducible refine Does.trans ?_ (by assumption) ?_
    | with_reducible apply setReel_does
    | split

theorem clearBitmaps_does {fs₀ s₀ base streams pos x4 x5} (h₀ : Does fs₀ s₀ x5) (hf₀ : Fld.within [.mem] fs₀ = true) :
    Does fs₀ s₀ (clearBitmaps base streams pos x4 x5) := by
  refine h₀.trans ?_ hf₀
  clear h₀ hf₀
  fun_induction clearBitmaps base streams pos x4 x5
  all_goals try dsimp +zetaDelta only
  all_goals repeat'
    first
    | with_reducible exact Does.refl _ _
    | decide
    | with_reducible refine Does.trans ?_ (by assumption) ?_
    | with_reducible apply memPut_does
    | split

theorem clearStaging_does {fs₀ s₀ g t0 s} (h₀ : Does fs₀ s₀ s) (hf₀ : Fld.within [.mem] fs₀ = true) :
    Does fs₀ s₀ (clearStaging g t0 s) := by
  refine h₀.trans ?_ hf₀
  clear h₀ hf₀
  unfold clearStaging
  try dsimp only
  all_goals repeat'
    first
    | with_reducible exact Does.refl _ _
    | decide
    | with_reducible apply clearBitmaps_does
    | split

theorem stopSteps_does {fs₀ s₀ x1 x2} (h₀ : Does fs₀ s₀ x2) (hf₀ : Fld.within [.tiles] fs₀ = true) :
    Does fs₀ s₀ (stopSteps x1 x2) := by
  refine h₀.trans ?_ hf₀
  clear h₀ hf₀
  fun_induction stopSteps x1 x2
  all_goals try dsimp +zetaDelta only
  all_goals repeat'
    first
    | with_reducible exact Does.refl _ _
    | decide
    | with_reducible refine Does.trans ?_ (by assumption) ?_
    | with_reducible apply stopThread_does
    | split

theorem countWindows_does {fs₀ s₀ x1 x2} (h₀ : Does fs₀ s₀ x2) (hf₀ : Fld.within [.regs] fs₀ = true) :
    Does fs₀ s₀ (countWindows x1 x2) := by
  refine h₀.trans ?_ hf₀
  clear h₀ hf₀
  fun_induction countWindows x1 x2
  all_goals try dsimp +zetaDelta only
  all_goals repeat'
    first
    | with_reducible exact Does.refl _ _
    | decide
    | with_reducible refine Does.trans ?_ (by assumption) ?_
    | with_reducible apply bump_does
    | split

theorem dropWindows_does {fs₀ s₀ f s} (h₀ : Does fs₀ s₀ s) (hf₀ : Fld.within [.regs, .windows] fs₀ = true) :
    Does fs₀ s₀ (dropWindows f s) := by
  refine h₀.trans ?_ hf₀
  clear h₀ hf₀
  unfold dropWindows
  try dsimp only
  all_goals repeat'
    first
    | with_reducible exact Does.refl _ _
    | decide
    | with_reducible apply countWindows_does
    | split
    | ((with_reducible refine Does.upd ?_ ?_ ?_); (on_goal 2 => exact rfl); (on_goal 2 => (intro f hf; cases f <;> first | exact absurd (by decide) hf | dsimp only [sameFld])))

theorem haltChain_does {fs₀ s₀ c s} (h₀ : Does fs₀ s₀ s) (hf₀ : Fld.within [.regs, .mem, .tiles, .reels, .chains, .windows,
      .radio] fs₀ = true) :
    Does fs₀ s₀ (haltChain c s) := by
  refine h₀.trans ?_ hf₀
  clear h₀ hf₀
  unfold haltChain
  try dsimp only
  all_goals repeat'
    first
    | with_reducible exact Does.refl _ _
    | decide
    | with_reducible apply dropWindows_does
    | with_reducible apply stopSteps_does
    | with_reducible apply clearStaging_does
    | with_reducible apply emptyReels_does
    | with_reducible apply harqRestore_does
    | with_reducible apply setChain_does
    | split

theorem useMeas_does {fs₀ s₀ c s} (h₀ : Does fs₀ s₀ s) (hf₀ : Fld.within [.free] fs₀ = true) :
    Does fs₀ s₀ (useMeas c s) := by
  refine h₀.trans ?_ hf₀
  clear h₀ hf₀
  unfold useMeas
  try dsimp only
  all_goals repeat'
    first
    | with_reducible exact Does.refl _ _
    | decide
    | split
    | ((with_reducible refine Does.upd ?_ ?_ ?_); (on_goal 2 => exact rfl); (on_goal 2 => (intro f hf; cases f <;> first | exact absurd (by decide) hf | dsimp only [sameFld])))

theorem abortChain_does {fs₀ s₀ r status ref s} (h₀ : Does fs₀ s₀ s) (hf₀ : Fld.within [.regs, .pairs, .funcs, .flights,
      .mem, .tiles, .reels, .chains, .windows, .radio, .fault, .free, .out] fs₀ = true) :
    Does fs₀ s₀ (abortChain r status ref s) := by
  refine h₀.trans ?_ hf₀
  clear h₀ hf₀
  unfold abortChain
  try dsimp only
  all_goals repeat'
    first
    | with_reducible exact Does.refl _ _
    | decide
    | with_reducible apply useMeas_does
    | with_reducible apply haltChain_does
    | with_reducible apply finishOut_does
    | split

theorem abortCounted_does {fs₀ s₀ r step cause status ref s} (h₀ : Does fs₀ s₀ s) (hf₀ : Fld.within [.regs, .pairs, .funcs,
      .flights, .mem, .tiles, .reels, .chains, .windows, .radio, .fault, .free, .out] fs₀ = true) :
    Does fs₀ s₀ (abortCounted r step cause status ref s) := by
  refine h₀.trans ?_ hf₀
  clear h₀ hf₀
  unfold abortCounted
  try dsimp only
  all_goals repeat'
    first
    | with_reducible exact Does.refl _ _
    | decide
    | with_reducible apply abortChain_does
    | with_reducible apply raise_does
    | with_reducible apply bump_does
    | with_reducible apply wr_does
    | split

theorem violate_does {fs₀ s₀ r step cause s} (h₀ : Does fs₀ s₀ s) (hf₀ : Fld.within [.regs, .pairs, .funcs, .flights, .mem,
      .tiles, .reels, .chains, .windows, .radio, .fault, .free, .out] fs₀ = true) :
    Does fs₀ s₀ (violate r step cause s) := by
  refine h₀.trans ?_ hf₀
  clear h₀ hf₀
  unfold violate
  try dsimp only
  all_goals repeat'
    first
    | with_reducible exact Does.refl _ _
    | decide
    | with_reducible apply abortCounted_does
    | split

theorem violateFree_does {fs₀ s₀ r step cause s} (h₀ : Does fs₀ s₀ s) (hf₀ : Fld.within [.regs, .pairs, .funcs, .flights,
      .mem, .tiles, .reels, .chains, .windows, .radio, .fault, .free, .out] fs₀ = true) :
    Does fs₀ s₀ (violateFree r step cause s) := by
  refine h₀.trans ?_ hf₀
  clear h₀ hf₀
  unfold violateFree
  try dsimp only
  all_goals repeat'
    first
    | with_reducible exact Does.refl _ _
    | decide
    | with_reducible apply violate_does
    | with_reducible apply deliverFree_does
    | split

theorem fenceAbort_does {fs₀ s₀ c step ref s} (h₀ : Does fs₀ s₀ s) (hf₀ : Fld.within [.regs, .pairs, .funcs, .flights, .mem,
      .tiles, .reels, .chains, .windows, .radio, .fault, .free, .out] fs₀ = true) :
    Does fs₀ s₀ (fenceAbort c step ref s) := by
  refine h₀.trans ?_ hf₀
  clear h₀ hf₀
  unfold fenceAbort
  try dsimp only
  all_goals repeat'
    first
    | with_reducible exact Does.refl _ _
    | decide
    | with_reducible apply abortCounted_does
    | with_reducible apply deliverFree_does
    | with_reducible apply useFree_does
    | split

theorem setItem_does {fs₀ s₀ i s} (h₀ : Does fs₀ s₀ s) (hf₀ : Fld.within [.items] fs₀ = true) :
    Does fs₀ s₀ (setItem i s) := by
  refine h₀.trans ?_ hf₀
  clear h₀ hf₀
  unfold setItem
  try dsimp only
  all_goals repeat'
    first
    | with_reducible exact Does.refl _ _
    | decide
    | split
    | ((with_reducible refine Does.upd ?_ ?_ ?_); (on_goal 2 => exact rfl); (on_goal 2 => (intro f hf; cases f <;> first | exact absurd (by decide) hf | dsimp only [sameFld])))

theorem freeReelList_does {fs₀ s₀ x1 x2} (h₀ : Does fs₀ s₀ x2) (hf₀ : Fld.within [.reels] fs₀ = true) :
    Does fs₀ s₀ (freeReelList x1 x2) := by
  refine h₀.trans ?_ hf₀
  clear h₀ hf₀
  fun_induction freeReelList x1 x2
  all_goals try dsimp +zetaDelta only
  all_goals repeat'
    first
    | with_reducible exact Does.refl _ _
    | decide
    | with_reducible refine Does.trans ?_ (by assumption) ?_
    | with_reducible apply setReel_does
    | split

theorem freeLoad_does {fs₀ s₀ l s} (h₀ : Does fs₀ s₀ s) (hf₀ : Fld.within [.reels, .loaded] fs₀ = true) :
    Does fs₀ s₀ (freeLoad l s) := by
  refine h₀.trans ?_ hf₀
  clear h₀ hf₀
  unfold freeLoad
  try dsimp only
  all_goals repeat'
    first
    | with_reducible exact Does.refl _ _
    | decide
    | with_reducible apply freeReelList_does
    | split
    | ((with_reducible refine Does.upd ?_ ?_ ?_); (on_goal 2 => exact rfl); (on_goal 2 => (intro f hf; cases f <;> first | exact absurd (by decide) hf | dsimp only [sameFld])))

theorem reapModels_does {fs₀ s₀ x1 x2} (h₀ : Does fs₀ s₀ x2) (hf₀ : Fld.within [.reels, .loaded] fs₀ = true) :
    Does fs₀ s₀ (reapModels x1 x2) := by
  refine h₀.trans ?_ hf₀
  clear h₀ hf₀
  fun_induction reapModels x1 x2
  all_goals try dsimp +zetaDelta only
  all_goals repeat'
    first
    | with_reducible exact Does.refl _ _
    | decide
    | with_reducible refine Does.trans ?_ (by assumption) ?_
    | with_reducible apply freeLoad_does
    | split

theorem dropItem_does {fs₀ s₀ k s} (h₀ : Does fs₀ s₀ s) (hf₀ : Fld.within [.reels, .loaded, .items] fs₀ = true) :
    Does fs₀ s₀ (dropItem k s) := by
  refine h₀.trans ?_ hf₀
  clear h₀ hf₀
  unfold dropItem
  try dsimp only
  all_goals repeat'
    first
    | with_reducible exact Does.refl _ _
    | decide
    | with_reducible apply reapModels_does
    | split
    | ((with_reducible refine Does.upd ?_ ?_ ?_); (on_goal 2 => exact rfl); (on_goal 2 => (intro f hf; cases f <;> first | exact absurd (by decide) hf | dsimp only [sameFld])))

theorem stopItem_does {fs₀ s₀ i s} (h₀ : Does fs₀ s₀ s) (hf₀ : Fld.within [.tiles] fs₀ = true) :
    Does fs₀ s₀ (stopItem i s) := by
  refine h₀.trans ?_ hf₀
  clear h₀ hf₀
  unfold stopItem
  try dsimp only
  all_goals repeat'
    first
    | with_reducible exact Does.refl _ _
    | decide
    | with_reducible apply stopThread_does
    | split

theorem setFile_does {fs₀ s₀ x s} (h₀ : Does fs₀ s₀ s) (hf₀ : Fld.within [.flow] fs₀ = true) :
    Does fs₀ s₀ (setFile x s) := by
  refine h₀.trans ?_ hf₀
  clear h₀ hf₀
  unfold setFile
  try dsimp only
  all_goals repeat'
    first
    | with_reducible exact Does.refl _ _
    | decide
    | split
    | ((with_reducible refine Does.upd ?_ ?_ ?_); (on_goal 2 => exact rfl); (on_goal 2 => (intro f hf; cases f <;> first | exact absurd (by decide) hf | dsimp only [sameFld])))

theorem dropFile_does {fs₀ s₀ id s} (h₀ : Does fs₀ s₀ s) (hf₀ : Fld.within [.flow] fs₀ = true) :
    Does fs₀ s₀ (dropFile id s) := by
  refine h₀.trans ?_ hf₀
  clear h₀ hf₀
  unfold dropFile
  try dsimp only
  all_goals repeat'
    first
    | with_reducible exact Does.refl _ _
    | decide
    | split
    | ((with_reducible refine Does.upd ?_ ?_ ?_); (on_goal 2 => exact rfl); (on_goal 2 => (intro f hf; cases f <;> first | exact absurd (by decide) hf | dsimp only [sameFld])))

theorem clearRequest_does {fs₀ s₀ i k lost s} (h₀ : Does fs₀ s₀ s) (hf₀ : Fld.within [.flow] fs₀ = true) :
    Does fs₀ s₀ (clearRequest i k lost s) := by
  refine h₀.trans ?_ hf₀
  clear h₀ hf₀
  unfold clearRequest
  try dsimp only
  all_goals repeat'
    first
    | with_reducible exact Does.refl _ _
    | decide
    | with_reducible apply setFlowX_does
    | split

theorem haltItem_does {fs₀ s₀ i s} (h₀ : Does fs₀ s₀ s) (hf₀ : Fld.within [.regs, .tiles, .windows, .free] fs₀ = true) :
    Does fs₀ s₀ (haltItem i s) := by
  refine h₀.trans ?_ hf₀
  clear h₀ hf₀
  unfold haltItem
  try dsimp only
  all_goals repeat'
    first
    | with_reducible exact Does.refl _ _
    | decide
    | with_reducible apply stopItem_does
    | with_reducible apply dropWindows_does
    | split
    | ((with_reducible refine Does.upd ?_ ?_ ?_); (on_goal 2 => exact rfl); (on_goal 2 => (intro f hf; cases f <;> first | exact absurd (by decide) hf | dsimp only [sameFld])))

theorem endItemFault_does {fs₀ s₀ k status ref s} (h₀ : Does fs₀ s₀ s) (hf₀ : Fld.within [.regs, .pairs, .funcs, .flights,
      .mem, .tiles, .reels, .loaded, .items, .windows, .flow, .fault, .free, .out] fs₀ = true) :
    Does fs₀ s₀ (endItemFault k status ref s) := by
  refine h₀.trans ?_ hf₀
  clear h₀ hf₀
  unfold endItemFault
  try dsimp only
  all_goals repeat'
    first
    | with_reducible exact Does.refl _ _
    | decide
    | with_reducible apply haltItem_does
    | with_reducible apply clearRequest_does
    | with_reducible apply dropFile_does
    | with_reducible apply dropItem_does
    | with_reducible apply finishOut_does
    | with_reducible apply requestRecord_does
    | with_reducible apply flowRecordResult_does
    | with_reducible apply finish_does
    | split

theorem peakDepth_does {fs₀ s₀ c s} (h₀ : Does fs₀ s₀ s) (hf₀ : Fld.within [.regs] fs₀ = true) :
    Does fs₀ s₀ (peakDepth c s) := by
  refine h₀.trans ?_ hf₀
  clear h₀ hf₀
  unfold peakDepth
  try dsimp only
  all_goals repeat'
    first
    | with_reducible exact Does.refl _ _
    | decide
    | with_reducible apply peak_does
    | split

theorem requeueBy_does {fs₀ s₀ k status cycles s} (h₀ : Does fs₀ s₀ s) (hf₀ : Fld.within [.regs, .pairs, .funcs, .tiles,
      .items, .windows, .free, .out] fs₀ = true) :
    Does fs₀ s₀ (requeueBy k status cycles s) := by
  refine h₀.trans ?_ hf₀
  clear h₀ hf₀
  unfold requeueBy
  try dsimp only
  all_goals repeat'
    first
    | with_reducible exact Does.refl _ _
    | decide
    | with_reducible apply peakDepth_does
    | with_reducible apply haltItem_does
    | with_reducible apply interim_does
    | with_reducible apply raise_does
    | with_reducible apply bump_does
    | split
    | ((with_reducible refine Does.upd ?_ ?_ ?_); (on_goal 2 => exact rfl); (on_goal 2 => (intro f hf; cases f <;> first | exact absurd (by decide) hf | dsimp only [sameFld])))

theorem endShed_does {fs₀ s₀ i0 s} (h₀ : Does fs₀ s₀ s) (hf₀ : Fld.within [.regs, .pairs, .funcs, .flights, .mem, .tiles,
      .reels, .loaded, .items, .windows, .flow, .fault, .free, .out] fs₀ = true) :
    Does fs₀ s₀ (endShed i0 s) := by
  refine h₀.trans ?_ hf₀
  clear h₀ hf₀
  unfold endShed
  try dsimp only
  all_goals repeat'
    first
    | with_reducible exact Does.refl _ _
    | decide
    | with_reducible apply haltItem_does
    | with_reducible apply clearRequest_does
    | with_reducible apply dropItem_does
    | with_reducible apply finishOut_does
    | with_reducible apply requestRecord_does
    | split

theorem leaveItem_does {fs₀ s₀ k status cycles s} (h₀ : Does fs₀ s₀ s) (hf₀ : Fld.within [.regs, .pairs, .funcs, .flights,
      .mem, .tiles, .reels, .loaded, .items, .windows, .flow, .fault, .free, .out] fs₀ = true) :
    Does fs₀ s₀ (leaveItem k status cycles s) := by
  refine h₀.trans ?_ hf₀
  clear h₀ hf₀
  unfold leaveItem
  try dsimp only
  all_goals repeat'
    first
    | with_reducible exact Does.refl _ _
    | decide
    | with_reducible apply endShed_does
    | with_reducible apply requeueBy_does
    | split

theorem beginLeave_does {fs₀ s₀ i status cycles s} (h₀ : Does fs₀ s₀ s) (hf₀ : Fld.within [.regs, .tiles, .items,
      .windows] fs₀ = true) :
    Does fs₀ s₀ (beginLeave i status cycles s) := by
  refine h₀.trans ?_ hf₀
  clear h₀ hf₀
  unfold beginLeave
  try dsimp only
  all_goals repeat'
    first
    | with_reducible exact Does.refl _ _
    | decide
    | with_reducible apply setItem_does
    | with_reducible apply dropWindows_does
    | with_reducible apply setThread_does
    | split

theorem returnItem_does {fs₀ s₀ k status cycles s} (h₀ : Does fs₀ s₀ s) (hf₀ : Fld.within [.regs, .pairs, .funcs, .flights,
      .mem, .tiles, .reels, .loaded, .items, .windows, .flow, .fault, .free, .out] fs₀ = true) :
    Does fs₀ s₀ (returnItem k status cycles s) := by
  refine h₀.trans ?_ hf₀
  clear h₀ hf₀
  unfold returnItem
  try dsimp only
  all_goals repeat'
    first
    | with_reducible exact Does.refl _ _
    | decide
    | with_reducible apply beginLeave_does
    | with_reducible apply leaveItem_does
    | split

theorem requeueItem_does {fs₀ s₀ k status s} (h₀ : Does fs₀ s₀ s) (hf₀ : Fld.within [.regs, .pairs, .funcs, .flights, .mem,
      .tiles, .reels, .loaded, .items, .windows, .flow, .fault, .free, .out] fs₀ = true) :
    Does fs₀ s₀ (requeueItem k status s) := by
  refine h₀.trans ?_ hf₀
  clear h₀ hf₀
  unfold requeueItem
  try dsimp only
  all_goals repeat'
    first
    | with_reducible exact Does.refl _ _
    | decide
    | with_reducible apply returnItem_does
    | with_reducible apply useFree_does
    | split

theorem setJob_does {fs₀ s₀ j s} (h₀ : Does fs₀ s₀ s) (hf₀ : Fld.within [.jobs] fs₀ = true) :
    Does fs₀ s₀ (setJob j s) := by
  refine h₀.trans ?_ hf₀
  clear h₀ hf₀
  unfold setJob
  try dsimp only
  all_goals repeat'
    first
    | with_reducible exact Does.refl _ _
    | decide
    | split
    | ((with_reducible refine Does.upd ?_ ?_ ?_); (on_goal 2 => exact rfl); (on_goal 2 => (intro f hf; cases f <;> first | exact absurd (by decide) hf | dsimp only [sameFld])))

theorem dropJob_does {fs₀ s₀ r s} (h₀ : Does fs₀ s₀ s) (hf₀ : Fld.within [.reels, .loaded, .jobs] fs₀ = true) :
    Does fs₀ s₀ (dropJob r s) := by
  refine h₀.trans ?_ hf₀
  clear h₀ hf₀
  unfold dropJob
  try dsimp only
  all_goals repeat'
    first
    | with_reducible exact Does.refl _ _
    | decide
    | with_reducible apply reapModels_does
    | split
    | ((with_reducible refine Does.upd ?_ ?_ ?_); (on_goal 2 => exact rfl); (on_goal 2 => (intro f hf; cases f <;> first | exact absurd (by decide) hf | dsimp only [sameFld])))

theorem stopTiles_does {fs₀ s₀ x1 x2} (h₀ : Does fs₀ s₀ x2) (hf₀ : Fld.within [.tiles] fs₀ = true) :
    Does fs₀ s₀ (stopTiles x1 x2) := by
  refine h₀.trans ?_ hf₀
  clear h₀ hf₀
  fun_induction stopTiles x1 x2
  all_goals try dsimp +zetaDelta only
  all_goals repeat'
    first
    | with_reducible exact Does.refl _ _
    | decide
    | with_reducible refine Does.trans ?_ (by assumption) ?_
    | with_reducible apply stopThread_does
    | split

theorem stopPart_does {fs₀ s₀ p s} (h₀ : Does fs₀ s₀ s) (hf₀ : Fld.within [.tiles] fs₀ = true) :
    Does fs₀ s₀ (stopPart p s) := by
  refine h₀.trans ?_ hf₀
  clear h₀ hf₀
  unfold stopPart
  try dsimp only
  all_goals repeat'
    first
    | with_reducible exact Does.refl _ _
    | decide
    | with_reducible apply stopTiles_does
    | split

theorem retakeFlag_does {fs₀ s₀ s} (h₀ : Does fs₀ s₀ s) (hf₀ : Fld.within [.regs] fs₀ = true) :
    Does fs₀ s₀ (retakeFlag s) := by
  refine h₀.trans ?_ hf₀
  clear h₀ hf₀
  unfold retakeFlag
  try dsimp only
  all_goals repeat'
    first
    | with_reducible exact Does.refl _ _
    | decide
    | with_reducible apply wrf_does
    | split

theorem endJobFault_does {fs₀ s₀ j status ref s} (h₀ : Does fs₀ s₀ s) (hf₀ : Fld.within [.regs, .pairs, .funcs, .flights,
      .tiles, .reels, .loaded, .jobs, .splice, .fault, .out] fs₀ = true) :
    Does fs₀ s₀ (endJobFault j status ref s) := by
  refine h₀.trans ?_ hf₀
  clear h₀ hf₀
  unfold endJobFault
  try dsimp only
  all_goals repeat'
    first
    | with_reducible exact Does.refl _ _
    | decide
    | with_reducible apply retakeFlag_does
    | with_reducible apply stopPart_does
    | with_reducible apply dropJob_does
    | with_reducible apply clearGroup_does
    | with_reducible apply finish_does
    | split

theorem endJobBreak_does {fs₀ s₀ j status ref s} (h₀ : Does fs₀ s₀ s) (hf₀ : Fld.within [.regs, .pairs, .funcs, .flights,
      .mem, .tiles, .reels, .loaded, .jobs, .splice, .fault, .free, .out] fs₀ = true) :
    Does fs₀ s₀ (endJobBreak j status ref s) := by
  refine h₀.trans ?_ hf₀
  clear h₀ hf₀
  unfold endJobBreak
  try dsimp only
  all_goals repeat'
    first
    | with_reducible exact Does.refl _ _
    | decide
    | with_reducible apply endJobFault_does
    | with_reducible apply breakSlate_does
    | split

theorem retake_does {fs₀ s₀ p status ref begins s} (h₀ : Does fs₀ s₀ s) (hf₀ : Fld.within [.regs, .pairs, .funcs, .flights,
      .mem, .tiles, .reels, .loaded, .jobs, .splice, .fault, .free, .out] fs₀ = true) :
    Does fs₀ s₀ (retake p status ref begins s) := by
  refine h₀.trans ?_ hf₀
  clear h₀ hf₀
  unfold retake
  try dsimp only
  all_goals repeat'
    first
    | with_reducible exact Does.refl _ _
    | decide
    | with_reducible apply endJobBreak_does
    | with_reducible apply retakeFlag_does
    | with_reducible apply stopPart_does
    | with_reducible apply setJob_does
    | with_reducible apply clearGroup_does
    | with_reducible apply breakSlate_does
    | with_reducible apply raise_does
    | with_reducible apply bump_does
    | split

theorem endOwner_does {fs₀ s₀ o status ref s} (h₀ : Does fs₀ s₀ s) (hf₀ : Fld.within [.regs, .pairs, .funcs, .flights, .mem,
      .tiles, .reels, .loaded, .chains, .items, .windows, .jobs, .radio, .flow, .splice, .fault, .free, .out] fs₀ = true) :
    Does fs₀ s₀ (endOwner o status ref s) := by
  refine h₀.trans ?_ hf₀
  clear h₀ hf₀
  unfold endOwner
  try dsimp only
  all_goals repeat'
    first
    | with_reducible exact Does.refl _ _
    | decide
    | with_reducible apply retake_does
    | with_reducible apply endJobBreak_does
    | with_reducible apply endItemFault_does
    | with_reducible apply abortChain_does
    | with_reducible apply deliverFree_does
    | split

theorem fenceChains_does {fs₀ s₀ n ref x3 x4} (h₀ : Does fs₀ s₀ x4) (hf₀ : Fld.within [.regs, .pairs, .funcs, .flights, .mem,
      .tiles, .reels, .chains, .windows, .radio, .fault, .free, .out] fs₀ = true) :
    Does fs₀ s₀ (fenceChains n ref x3 x4) := by
  refine h₀.trans ?_ hf₀
  clear h₀ hf₀
  fun_induction fenceChains n ref x3 x4
  all_goals try dsimp +zetaDelta only
  all_goals repeat'
    first
    | with_reducible exact Does.refl _ _
    | decide
    | with_reducible refine Does.trans ?_ (by assumption) ?_
    | with_reducible apply fenceAbort_does
    | split

theorem fenceItems_does {fs₀ s₀ n ref x3 x4} (h₀ : Does fs₀ s₀ x4) (hf₀ : Fld.within [.regs, .pairs, .funcs, .flights, .mem,
      .tiles, .reels, .loaded, .items, .windows, .flow, .fault, .free, .out] fs₀ = true) :
    Does fs₀ s₀ (fenceItems n ref x3 x4) := by
  refine h₀.trans ?_ hf₀
  clear h₀ hf₀
  fun_induction fenceItems n ref x3 x4
  all_goals try dsimp +zetaDelta only
  all_goals repeat'
    first
    | with_reducible exact Does.refl _ _
    | decide
    | with_reducible refine Does.trans ?_ (by assumption) ?_
    | with_reducible apply requeueItem_does
    | with_reducible apply endItemFault_does
    | split

theorem fenceBuffers_does {fs₀ s₀ n ref x3 x4} (h₀ : Does fs₀ s₀ x4) (hf₀ : Fld.within [.regs, .pairs, .funcs, .flights,
      .fault, .out] fs₀ = true) :
    Does fs₀ s₀ (fenceBuffers n ref x3 x4) := by
  refine h₀.trans ?_ hf₀
  clear h₀ hf₀
  fun_induction fenceBuffers n ref x3 x4
  all_goals try dsimp +zetaDelta only
  all_goals repeat'
    first
    | with_reducible exact Does.refl _ _
    | decide
    | with_reducible refine Does.trans ?_ (by assumption) ?_
    | with_reducible apply finish_does
    | split

theorem fenceUnits_does {fs₀ s₀ n s} (h₀ : Does fs₀ s₀ s) (hf₀ : Fld.within [.mem, .tiles] fs₀ = true) :
    Does fs₀ s₀ (fenceUnits n s) := by
  refine h₀.trans ?_ hf₀
  clear h₀ hf₀
  unfold fenceUnits
  try dsimp only
  all_goals repeat'
    first
    | with_reducible exact Does.refl _ _
    | decide
    | with_reducible apply setTile_does
    | split
    | ((with_reducible refine Does.upd ?_ ?_ ?_); (on_goal 2 => exact rfl); (on_goal 2 => (intro f hf; cases f <;> first | exact absurd (by decide) hf | dsimp only [sameFld])))

theorem markFenced_does {fs₀ s₀ n s2} (h₀ : Does fs₀ s₀ s2) (hf₀ : Fld.within [.regs, .funcs, .fault, .out] fs₀ = true) :
    Does fs₀ s₀ (markFenced n s2) := by
  refine h₀.trans ?_ hf₀
  clear h₀ hf₀
  unfold markFenced
  try dsimp only
  all_goals repeat'
    first
    | with_reducible exact Does.refl _ _
    | decide
    | with_reducible apply raise_does
    | with_reducible apply wrf_does
    | with_reducible apply wr_does
    | split
    | ((with_reducible refine Does.upd ?_ ?_ ?_); (on_goal 2 => exact rfl); (on_goal 2 => (intro f hf; cases f <;> first | exact absurd (by decide) hf | dsimp only [sameFld])))

theorem fenceTile_does {fs₀ s₀ n ref s} (h₀ : Does fs₀ s₀ s) (hf₀ : Fld.within [.regs, .pairs, .funcs, .flights, .mem,
      .tiles, .reels, .loaded, .chains, .items, .windows, .jobs, .radio, .flow, .splice, .fault, .free, .out] fs₀ = true) :
    Does fs₀ s₀ (fenceTile n ref s) := by
  refine h₀.trans ?_ hf₀
  clear h₀ hf₀
  unfold fenceTile
  try dsimp only
  all_goals repeat'
    first
    | with_reducible exact Does.refl _ _
    | decide
    | with_reducible apply markFenced_does
    | with_reducible apply fenceUnits_does
    | with_reducible apply fenceBuffers_does
    | with_reducible apply fenceItems_does
    | with_reducible apply fenceChains_does
    | with_reducible apply endJobBreak_does
    | with_reducible apply stopThread_does
    | split

/-! ### Ledger -/

theorem ledgerCommit_does {fs₀ s₀ s} (h₀ : Does fs₀ s₀ s) (hf₀ : Fld.within [.regs, .fault, .hold] fs₀ = true) :
    Does fs₀ s₀ (ledgerCommit s) := by
  refine h₀.trans ?_ hf₀
  clear h₀ hf₀
  unfold ledgerCommit
  try dsimp only
  all_goals repeat'
    first
    | with_reducible exact Does.refl _ _
    | decide
    | with_reducible apply wr_does
    | split
    | ((with_reducible refine Does.upd ?_ ?_ ?_); (on_goal 2 => exact rfl); (on_goal 2 => (intro f hf; cases f <;> first | exact absurd (by decide) hf | dsimp only [sameFld])))

theorem ledgerZero_does {fs₀ s₀ x1 x2} (h₀ : Does fs₀ s₀ x2) (hf₀ : Fld.within [.regs, .pairs, .fault, .hold] fs₀ = true) :
    Does fs₀ s₀ (ledgerZero x1 x2) := by
  refine h₀.trans ?_ hf₀
  clear h₀ hf₀
  fun_induction ledgerZero x1 x2
  all_goals try dsimp +zetaDelta only
  all_goals repeat'
    first
    | with_reducible exact Does.refl _ _
    | decide
    | with_reducible refine Does.trans ?_ (by assumption) ?_
    | with_reducible apply ledgerCommit_does
    | with_reducible apply setPair_does
    | split

theorem wrBytes_does {fs₀ s₀ o x2 x3 x4} (h₀ : Does fs₀ s₀ x4) (hf₀ : Fld.within [.regs] fs₀ = true) :
    Does fs₀ s₀ (wrBytes o x2 x3 x4) := by
  refine h₀.trans ?_ hf₀
  clear h₀ hf₀
  fun_induction wrBytes o x2 x3 x4
  all_goals try dsimp +zetaDelta only
  all_goals repeat'
    first
    | with_reducible exact Does.refl _ _
    | decide
    | with_reducible refine Does.trans ?_ (by assumption) ?_
    | with_reducible apply wr_does
    | split

theorem mainReset_does {fs₀ s₀ cause s} (h₀ : Does fs₀ s₀ s)
    (hf₀ : Fld.within [.regs, .time, .pairs, .funcs, .flights, .mem, .tiles, .reels, .loaded, .nextLoad, .chains, .items,
      .nextItem,
      .windows, .jobs, .rounds, .lastReel, .radio, .flow, .cont, .matte, .splice, .fault, .hold, .mgmt, .board,
      .fetchTurn] fs₀ = true) :
    Does fs₀ s₀ (mainReset cause s) := by
  refine h₀.trans ?_ hf₀
  clear h₀ hf₀
  unfold mainReset
  split
  · exact Does.refl _ _
  · refine ⟨fun _ => rfl, fun f hf => ?_⟩
    cases f <;> first | exact absurd (by decide) hf | dsimp only [sameFld]

theorem commitReset_does {fs₀ s₀ cause s} (h₀ : Does fs₀ s₀ s) (hf₀ : Fld.within [.regs, .clk, .time, .pairs, .funcs,
      .flights, .mem, .tiles, .reels, .loaded, .nextLoad, .chains, .items, .nextItem, .windows, .jobs, .rounds, .lastReel,
      .radio, .flow, .cont, .matte, .splice, .fault, .hold, .mgmt, .board, .free, .out, .fetchTurn, .pending] fs₀ = true) :
    Does fs₀ s₀ (commitReset cause s) := by
  refine h₀.trans ?_ hf₀
  clear h₀ hf₀
  unfold commitReset
  try dsimp only
  all_goals repeat'
    first
    | with_reducible exact Does.refl _ _
    | decide
    | with_reducible apply mainReset_does
    | with_reducible apply ledgerCommit_does
    | split

theorem execLedgerCommit_does {fs₀ s₀ s t₀} (h₀ : Does fs₀ s₀ s) (e₀ : execLedgerCommit s = .next t₀)
    (hf₀ : Fld.within [.regs, .fault, .hold] fs₀ = true) : Does fs₀ s₀ t₀ := by
  refine h₀.trans ?_ hf₀
  clear h₀ hf₀
  unfold execLedgerCommit at e₀
  (try dsimp only at e₀)
  first
  | cases e₀
  | ((repeat' split at e₀) <;> cases e₀)
  all_goals repeat'
    first
    | with_reducible exact Does.refl _ _
    | decide
    | with_reducible apply ledgerCommit_does
    | split

/-! ### Boot -/

theorem setFloorRegs_does {fs₀ s₀ s} (h₀ : Does fs₀ s₀ s) (hf₀ : Fld.within [.regs] fs₀ = true) :
    Does fs₀ s₀ (setFloorRegs s) := by
  refine h₀.trans ?_ hf₀
  clear h₀ hf₀
  unfold setFloorRegs
  try dsimp only
  all_goals repeat'
    first
    | with_reducible exact Does.refl _ _
    | decide
    | with_reducible apply wr_does
    | split

theorem raiseFloor_does {fs₀ s₀ dmc r s} (h₀ : Does fs₀ s₀ s) (hf₀ : Fld.within [.hold, .mgmt] fs₀ = true) :
    Does fs₀ s₀ (raiseFloor dmc r s).1 := by
  refine h₀.trans ?_ hf₀
  clear h₀ hf₀
  unfold raiseFloor
  try dsimp only
  all_goals repeat'
    first
    | with_reducible exact Does.refl _ _
    | decide
    | split
    | ((with_reducible refine Does.upd ?_ ?_ ?_); (on_goal 2 => exact rfl); (on_goal 2 => (intro f hf; cases f <;> first | exact absurd (by decide) hf | dsimp only [sameFld])))

theorem revokeKeys_does {fs₀ s₀ r s} (h₀ : Does fs₀ s₀ s) (hf₀ : Fld.within [.mgmt] fs₀ = true) :
    Does fs₀ s₀ (revokeKeys r s) := by
  refine h₀.trans ?_ hf₀
  clear h₀ hf₀
  unfold revokeKeys
  try dsimp only
  all_goals repeat'
    first
    | with_reducible exact Does.refl _ _
    | decide
    | split
    | ((with_reducible refine Does.upd ?_ ?_ ?_); (on_goal 2 => exact rfl); (on_goal 2 => (intro f hf; cases f <;> first | exact absurd (by decide) hf | dsimp only [sameFld])))

theorem bootCommit_does {fs₀ s₀ s} (h₀ : Does fs₀ s₀ s) (hf₀ : Fld.within [.regs, .hold, .mgmt] fs₀ = true) :
    Does fs₀ s₀ (bootCommit s) := by
  refine h₀.trans ?_ hf₀
  clear h₀ hf₀
  unfold bootCommit
  try dsimp only
  all_goals repeat'
    first
    | with_reducible exact Does.refl _ _
    | decide
    | with_reducible apply revokeKeys_does
    | with_reducible apply raiseFloor_does
    | with_reducible apply setFloorRegs_does
    | with_reducible apply wrf_does
    | split
    | (obtain rfl := congrArg Prod.fst ‹raiseFloor _ _ _ = _›)
    | ((with_reducible refine Does.upd ?_ ?_ ?_); (on_goal 2 => exact rfl); (on_goal 2 => (intro f hf; cases f <;> first | exact absurd (by decide) hf | dsimp only [sameFld])))

theorem holdoverCheck_does {fs₀ s₀ s} (h₀ : Does fs₀ s₀ s) (hf₀ : Fld.within [.regs, .funcs, .hold, .out] fs₀ = true) :
    Does fs₀ s₀ (holdoverCheck s) := by
  refine h₀.trans ?_ hf₀
  clear h₀ hf₀
  unfold holdoverCheck
  dsimp only
  with_reducible refine Does.upd ?_ ?_ ?_
  · split
    · with_reducible apply wrBytes_does
      · exact wr_does (wr_does (Does.refl _ _) rfl) rfl
      · decide
    · with_reducible apply raise_does
      · exact wr_does (wr_does (Does.refl _ _) rfl) rfl
      · decide
  · split <;> exact rfl
  · intro f hf
    split <;> (cases f <;> first | exact absurd (by decide) hf | dsimp only [sameFld])

theorem calibrate_does {fs₀ s₀ s} (h₀ : Does fs₀ s₀ s) (hf₀ : Fld.within [.time, .free] fs₀ = true) :
    Does fs₀ s₀ (calibrate s) := by
  refine h₀.trans ?_ hf₀
  clear h₀ hf₀
  unfold calibrate
  try dsimp only
  all_goals repeat'
    first
    | with_reducible exact Does.refl _ _
    | decide
    | split
    | ((with_reducible refine Does.upd ?_ ?_ ?_); (on_goal 2 => exact rfl); (on_goal 2 => (intro f hf; cases f <;> first | exact absurd (by decide) hf | dsimp only [sameFld])))

theorem seedTime_does {fs₀ s₀ ok s} (h₀ : Does fs₀ s₀ s) (hf₀ : Fld.within [.regs, .time] fs₀ = true) :
    Does fs₀ s₀ (seedTime ok s) := by
  refine h₀.trans ?_ hf₀
  clear h₀ hf₀
  unfold seedTime
  try dsimp only
  all_goals repeat'
    first
    | with_reducible exact Does.refl _ _
    | decide
    | with_reducible apply wr_does
    | split
    | ((with_reducible refine Does.upd ?_ ?_ ?_); (on_goal 2 => exact rfl); (on_goal 2 => (intro f hf; cases f <;> first | exact absurd (by decide) hf | dsimp only [sameFld])))

theorem trainAll_does {fs₀ s₀ x1 x2} (h₀ : Does fs₀ s₀ x2) (hf₀ : Fld.within [.regs] fs₀ = true) :
    Does fs₀ s₀ (trainAll x1 x2) := by
  refine h₀.trans ?_ hf₀
  clear h₀ hf₀
  fun_induction trainAll x1 x2
  all_goals try dsimp +zetaDelta only
  all_goals repeat'
    first
    | with_reducible exact Does.refl _ _
    | decide
    | with_reducible refine Does.trans ?_ (by assumption) ?_
    | with_reducible apply wrf_does
    | split

theorem bootStart_does {fs₀ s₀ s} (h₀ : Does fs₀ s₀ s) (hf₀ : Fld.within [.regs, .time, .funcs, .hold, .board, .free,
      .out] fs₀ = true) :
    Does fs₀ s₀ (bootStart s) := by
  refine h₀.trans ?_ hf₀
  clear h₀ hf₀
  unfold bootStart
  try dsimp only
  all_goals repeat'
    first
    | with_reducible exact Does.refl _ _
    | decide
    | with_reducible apply seedTime_does
    | with_reducible apply calibrate_does
    | with_reducible apply holdoverCheck_does
    | with_reducible apply wr_does
    | split
    | ((with_reducible refine Does.upd ?_ ?_ ?_); (on_goal 2 => exact rfl); (on_goal 2 => (intro f hf; cases f <;> first | exact absurd (by decide) hf | dsimp only [sameFld])))

theorem setMfw_does {fs₀ s₀ r s} (h₀ : Does fs₀ s₀ s) (hf₀ : Fld.within [.mgmt] fs₀ = true) :
    Does fs₀ s₀ (setMfw r s) := by
  refine h₀.trans ?_ hf₀
  clear h₀ hf₀
  unfold setMfw
  try dsimp only
  all_goals repeat'
    first
    | with_reducible exact Does.refl _ _
    | decide
    | split
    | ((with_reducible refine Does.upd ?_ ?_ ?_); (on_goal 2 => exact rfl); (on_goal 2 => (intro f hf; cases f <;> first | exact absurd (by decide) hf | dsimp only [sameFld])))

theorem bootRegs_does {fs₀ s₀ active trial tries fails status s} (h₀ : Does fs₀ s₀ s) (hf₀ : Fld.within [.regs] fs₀ = true) :
    Does fs₀ s₀ (bootRegs active trial tries fails status s) := by
  refine h₀.trans ?_ hf₀
  clear h₀ hf₀
  unfold bootRegs
  try dsimp only
  all_goals repeat'
    first
    | with_reducible exact Does.refl _ _
    | decide
    | with_reducible apply wr_does
    | split

theorem bootDmc_does {fs₀ s₀ holdBad other fails active trial tries sigs s} (h₀ : Does fs₀ s₀ s) (hf₀ : Fld.within [.regs,
      .mgmt, .board, .out] fs₀ = true) :
    Does fs₀ s₀ (bootDmc holdBad other fails active trial tries sigs s) := by
  refine h₀.trans ?_ hf₀
  clear h₀ hf₀
  unfold bootDmc
  try dsimp only
  all_goals repeat'
    first
    | with_reducible exact Does.refl _ _
    | decide
    | with_reducible apply bootRegs_does
    | with_reducible apply trainAll_does
    | with_reducible apply setFloorRegs_does
    | with_reducible apply emit_does
    | split
    | ((with_reducible refine Does.upd ?_ ?_ ?_); (on_goal 2 => exact rfl); (on_goal 2 => (intro f hf; cases f <;> first | exact absurd (by decide) hf | dsimp only [sameFld])))

theorem bootUp_does {fs₀ s₀ sigs s} (h₀ : Does fs₀ s₀ s) (hf₀ : Fld.within [.regs, .time, .funcs, .hold, .mgmt, .board,
      .free, .out] fs₀ = true) :
    Does fs₀ s₀ (bootUp sigs s) := by
  refine h₀.trans ?_ hf₀
  clear h₀ hf₀
  unfold bootUp
  try dsimp only
  all_goals repeat'
    first
    | with_reducible exact Does.refl _ _
    | decide
    | with_reducible apply bootDmc_does
    | with_reducible apply setMfw_does
    | with_reducible apply bootStart_does
    | with_reducible apply wr_does
    | split
    | ((with_reducible refine Does.upd ?_ ?_ ?_); (on_goal 2 => exact rfl); (on_goal 2 => (intro f hf; cases f <;> first | exact absurd (by decide) hf | dsimp only [sameFld])))

/-! ### Time -/

theorem setInc_does {fs₀ s₀ u s} (h₀ : Does fs₀ s₀ s) (hf₀ : Fld.within [.regs] fs₀ = true) :
    Does fs₀ s₀ (setInc u s) := by
  refine h₀.trans ?_ hf₀
  clear h₀ hf₀
  unfold setInc
  try dsimp only
  all_goals repeat'
    first
    | with_reducible exact Does.refl _ _
    | decide
    | with_reducible apply wr_does
    | split

theorem freeInc_does {fs₀ s₀ s} (h₀ : Does fs₀ s₀ s) (hf₀ : Fld.within [.regs, .free] fs₀ = true) :
    Does fs₀ s₀ (freeInc s) := by
  refine h₀.trans ?_ hf₀
  clear h₀ hf₀
  unfold freeInc
  try dsimp only
  all_goals repeat'
    first
    | with_reducible exact Does.refl _ _
    | decide
    | with_reducible apply setInc_does
    | with_reducible apply useFree_does
    | split

theorem learnNow_does {fs₀ s₀ s} (h₀ : Does fs₀ s₀ s) (hf₀ : Fld.within [.time] fs₀ = true) :
    Does fs₀ s₀ (learnNow s) := by
  refine h₀.trans ?_ hf₀
  clear h₀ hf₀
  unfold learnNow
  try dsimp only
  all_goals repeat'
    first
    | with_reducible exact Does.refl _ _
    | decide
    | split
    | ((with_reducible refine Does.upd ?_ ?_ ?_); (on_goal 2 => exact rfl); (on_goal 2 => (intro f hf; cases f <;> first | exact absurd (by decide) hf | dsimp only [sameFld])))

theorem holdAverage_does {fs₀ s₀ s} (h₀ : Does fs₀ s₀ s) (hf₀ : Fld.within [.regs, .free] fs₀ = true) :
    Does fs₀ s₀ (holdAverage s) := by
  refine h₀.trans ?_ hf₀
  clear h₀ hf₀
  unfold holdAverage
  try dsimp only
  all_goals repeat'
    first
    | with_reducible exact Does.refl _ _
    | decide
    | with_reducible apply setInc_does
    | with_reducible apply useFree_does
    | split

theorem followRef_does {fs₀ s₀ cycles s} (h₀ : Does fs₀ s₀ s) (hf₀ : Fld.within [.regs, .free] fs₀ = true) :
    Does fs₀ s₀ (followRef cycles s) := by
  refine h₀.trans ?_ hf₀
  clear h₀ hf₀
  unfold followRef
  try dsimp only
  all_goals repeat'
    first
    | with_reducible exact Does.refl _ _
    | decide
    | with_reducible apply freeInc_does
    | with_reducible apply setInc_does
    | with_reducible apply useFree_does
    | split

theorem holdInc_does {fs₀ s₀ s} (h₀ : Does fs₀ s₀ s) (hf₀ : Fld.within [.regs, .free] fs₀ = true) :
    Does fs₀ s₀ (holdInc s) := by
  refine h₀.trans ?_ hf₀
  clear h₀ hf₀
  unfold holdInc
  try dsimp only
  all_goals repeat'
    first
    | with_reducible exact Does.refl _ _
    | decide
    | with_reducible apply followRef_does
    | with_reducible apply holdAverage_does
    | split

theorem enterLocked_does {fs₀ s₀ s} (h₀ : Does fs₀ s₀ s) (hf₀ : Fld.within [.regs, .time, .funcs, .out] fs₀ = true) :
    Does fs₀ s₀ (enterLocked s) := by
  refine h₀.trans ?_ hf₀
  clear h₀ hf₀
  unfold enterLocked
  try dsimp only
  all_goals repeat'
    first
    | with_reducible exact Does.refl _ _
    | decide
    | with_reducible apply raise_does
    | with_reducible apply wrf_does
    | split
    | ((with_reducible refine Does.upd ?_ ?_ ?_); (on_goal 2 => exact rfl); (on_goal 2 => (intro f hf; cases f <;> first | exact absurd (by decide) hf | dsimp only [sameFld])))

theorem enterHoldover_does {fs₀ s₀ s} (h₀ : Does fs₀ s₀ s) (hf₀ : Fld.within [.regs, .time, .funcs, .free, .out] fs₀ = true) :
    Does fs₀ s₀ (enterHoldover s) := by
  refine h₀.trans ?_ hf₀
  clear h₀ hf₀
  unfold enterHoldover
  try dsimp only
  all_goals repeat'
    first
    | with_reducible exact Does.refl _ _
    | decide
    | with_reducible apply holdInc_does
    | with_reducible apply learnNow_does
    | with_reducible apply raise_does
    | with_reducible apply wrf_does
    | split
    | ((with_reducible refine Does.upd ?_ ?_ ?_); (on_goal 2 => exact rfl); (on_goal 2 => (intro f hf; cases f <;> first | exact absurd (by decide) hf | dsimp only [sameFld])))

theorem markDark_does {fs₀ s₀ c s} (h₀ : Does fs₀ s₀ s) (hf₀ : Fld.within [.radio] fs₀ = true) :
    Does fs₀ s₀ (markDark c s) := by
  refine h₀.trans ?_ hf₀
  clear h₀ hf₀
  unfold markDark
  try dsimp only
  all_goals repeat'
    first
    | with_reducible exact Does.refl _ _
    | decide
    | split
    | ((with_reducible refine Does.upd ?_ ?_ ?_); (on_goal 2 => exact rfl); (on_goal 2 => (intro f hf; cases f <;> first | exact absurd (by decide) hf | dsimp only [sameFld])))

theorem suppressChain_does {fs₀ s₀ c s} (h₀ : Does fs₀ s₀ s) (hf₀ : Fld.within [.regs, .pairs, .funcs, .flights, .chains,
      .windows, .radio, .fault, .out] fs₀ = true) :
    Does fs₀ s₀ (suppressChain c s) := by
  refine h₀.trans ?_ hf₀
  clear h₀ hf₀
  unfold suppressChain
  try dsimp only
  all_goals repeat'
    first
    | with_reducible exact Does.refl _ _
    | decide
    | with_reducible apply markDark_does
    | with_reducible apply dropWindows_does
    | with_reducible apply refuse_does
    | split
    | ((with_reducible refine Does.upd ?_ ?_ ?_); (on_goal 2 => exact rfl); (on_goal 2 => (intro f hf; cases f <;> first | exact absurd (by decide) hf | dsimp only [sameFld])))

theorem judgeChains_does {fs₀ s₀ t0 x2 x3} (h₀ : Does fs₀ s₀ x3) (hf₀ : Fld.within [.regs, .pairs, .funcs, .flights, .mem,
      .tiles, .reels, .chains, .windows, .radio, .fault, .free, .out] fs₀ = true) :
    Does fs₀ s₀ (judgeChains t0 x2 x3) := by
  refine h₀.trans ?_ hf₀
  clear h₀ hf₀
  fun_induction judgeChains t0 x2 x3
  all_goals try dsimp +zetaDelta only
  all_goals repeat'
    first
    | with_reducible exact Does.refl _ _
    | decide
    | with_reducible refine Does.trans ?_ (by assumption) ?_
    | with_reducible apply suppressChain_does
    | with_reducible apply markDark_does
    | with_reducible apply abortChain_does
    | with_reducible apply deliverFree_does
    | split

theorem sceneStart_does {fs₀ s₀ t0 t1 s} (h₀ : Does fs₀ s₀ s) (hf₀ : Fld.within [.regs, .time, .pairs, .funcs, .flights,
      .mem, .tiles, .reels, .chains, .windows, .radio, .fault, .free, .out] fs₀ = true) :
    Does fs₀ s₀ (sceneStart t0 t1 s) := by
  refine h₀.trans ?_ hf₀
  clear h₀ hf₀
  unfold sceneStart
  try dsimp only
  all_goals repeat'
    first
    | with_reducible exact Does.refl _ _
    | decide
    | with_reducible apply judgeChains_does
    | with_reducible apply raise_does
    | with_reducible apply wrf_does
    | split
    | ((with_reducible refine Does.upd ?_ ?_ ?_); (on_goal 2 => exact rfl); (on_goal 2 => (intro f hf; cases f <;> first | exact absurd (by decide) hf | dsimp only [sameFld])))

theorem applyStep_does {fs₀ s₀ delta s} (h₀ : Does fs₀ s₀ s) (hf₀ : Fld.within [.regs, .time, .pairs, .funcs, .flights, .mem,
      .tiles, .reels, .chains, .windows, .radio, .fault, .free, .out] fs₀ = true) :
    Does fs₀ s₀ (applyStep delta s) := by
  refine h₀.trans ?_ hf₀
  clear h₀ hf₀
  unfold applyStep
  try dsimp only
  all_goals repeat'
    first
    | with_reducible exact Does.refl _ _
    | decide
    | with_reducible apply sceneStart_does
    | with_reducible apply enterLocked_does
    | with_reducible apply learnNow_does
    | with_reducible apply raise_does
    | with_reducible apply bump_does
    | with_reducible apply wrMany_does
    | with_reducible apply wrf_does
    | split
    | ((with_reducible refine Does.upd ?_ ?_ ?_); (on_goal 2 => exact rfl); (on_goal 2 => (intro f hf; cases f <;> first | exact absurd (by decide) hf | dsimp only [sameFld])))

theorem rearm_does {fs₀ s₀ pps sec s} (h₀ : Does fs₀ s₀ s) (hf₀ : Fld.within [.regs, .time] fs₀ = true) :
    Does fs₀ s₀ (rearm pps sec s) := by
  refine h₀.trans ?_ hf₀
  clear h₀ hf₀
  unfold rearm
  try dsimp only
  all_goals repeat'
    first
    | with_reducible exact Does.refl _ _
    | decide
    | with_reducible apply wrf_does
    | split
    | ((with_reducible refine Does.upd ?_ ?_ ?_); (on_goal 2 => exact rfl); (on_goal 2 => (intro f hf; cases f <;> first | exact absurd (by decide) hf | dsimp only [sameFld])))

theorem setOffset_does {fs₀ s₀ o s} (h₀ : Does fs₀ s₀ s) (hf₀ : Fld.within [.regs, .free] fs₀ = true) :
    Does fs₀ s₀ (setOffset o s) := by
  refine h₀.trans ?_ hf₀
  clear h₀ hf₀
  unfold setOffset
  try dsimp only
  all_goals repeat'
    first
    | with_reducible exact Does.refl _ _
    | decide
    | with_reducible apply wr_does
    | with_reducible apply useFree_does
    | split

theorem refuseOffset_does {fs₀ s₀ s} (h₀ : Does fs₀ s₀ s) (hf₀ : Fld.within [.regs, .time, .funcs, .fault, .free,
      .out] fs₀ = true) :
    Does fs₀ s₀ (refuseOffset s) := by
  refine h₀.trans ?_ hf₀
  clear h₀ hf₀
  unfold refuseOffset
  try dsimp only
  all_goals repeat'
    first
    | with_reducible exact Does.refl _ _
    | decide
    | with_reducible apply enterHoldover_does
    | with_reducible apply report_does
    | with_reducible apply raise_does
    | with_reducible apply bump_does
    | with_reducible apply wrf_does
    | split
    | ((with_reducible refine Does.upd ?_ ?_ ?_); (on_goal 2 => exact rfl); (on_goal 2 => (intro f hf; cases f <;> first | exact absurd (by decide) hf | dsimp only [sameFld])))

theorem acceptOffset_does {fs₀ s₀ o s} (h₀ : Does fs₀ s₀ s) (hf₀ : Fld.within [.regs, .time, .funcs, .free, .out] fs₀ = true) :
    Does fs₀ s₀ (acceptOffset o s) := by
  refine h₀.trans ?_ hf₀
  clear h₀ hf₀
  unfold acceptOffset
  try dsimp only
  all_goals repeat'
    first
    | with_reducible exact Does.refl _ _
    | decide
    | with_reducible apply enterLocked_does
    | with_reducible apply learnNow_does
    | with_reducible apply freeInc_does
    | with_reducible apply wrf_does
    | split
    | ((with_reducible refine Does.upd ?_ ?_ ?_); (on_goal 2 => exact rfl); (on_goal 2 => (intro f hf; cases f <;> first | exact absurd (by decide) hf | dsimp only [sameFld])))

theorem measure_does {fs₀ s₀ o s} (h₀ : Does fs₀ s₀ s) (hf₀ : Fld.within [.regs, .time, .pairs, .funcs, .flights, .mem,
      .tiles, .reels, .chains, .windows, .radio, .fault, .free, .out] fs₀ = true) :
    Does fs₀ s₀ (measure o s) := by
  refine h₀.trans ?_ hf₀
  clear h₀ hf₀
  unfold measure
  try dsimp only
  all_goals repeat'
    first
    | with_reducible exact Does.refl _ _
    | decide
    | with_reducible apply acceptOffset_does
    | with_reducible apply refuseOffset_does
    | with_reducible apply setOffset_does
    | with_reducible apply applyStep_does
    | split

theorem measureSome_does {fs₀ s₀ o s} (h₀ : Does fs₀ s₀ s) (hf₀ : Fld.within [.regs, .time, .pairs, .funcs, .flights, .mem,
      .tiles, .reels, .chains, .windows, .radio, .fault, .free, .out] fs₀ = true) :
    Does fs₀ s₀ (measureSome o s) := by
  refine h₀.trans ?_ hf₀
  clear h₀ hf₀
  unfold measureSome
  try dsimp only
  all_goals repeat'
    first
    | with_reducible exact Does.refl _ _
    | decide
    | with_reducible apply measure_does
    | split

theorem sourceBack_does {fs₀ s₀ s} (h₀ : Does fs₀ s₀ s) (hf₀ : Fld.within [.time] fs₀ = true) :
    Does fs₀ s₀ (sourceBack s) := by
  refine h₀.trans ?_ hf₀
  clear h₀ hf₀
  unfold sourceBack
  try dsimp only
  all_goals repeat'
    first
    | with_reducible exact Does.refl _ _
    | decide
    | split
    | ((with_reducible refine Does.upd ?_ ?_ ?_); (on_goal 2 => exact rfl); (on_goal 2 => (intro f hf; cases f <;> first | exact absurd (by decide) hf | dsimp only [sameFld])))

theorem syncSeen_does {fs₀ s₀ s} (h₀ : Does fs₀ s₀ s) (hf₀ : Fld.within [.time] fs₀ = true) :
    Does fs₀ s₀ (syncSeen s) := by
  refine h₀.trans ?_ hf₀
  clear h₀ hf₀
  unfold syncSeen
  try dsimp only
  all_goals repeat'
    first
    | with_reducible exact Does.refl _ _
    | decide
    | with_reducible apply sourceBack_does
    | split
    | ((with_reducible refine Does.upd ?_ ?_ ?_); (on_goal 2 => exact rfl); (on_goal 2 => (intro f hf; cases f <;> first | exact absurd (by decide) hf | dsimp only [sameFld])))

theorem takeSync_does {fs₀ s₀ twoStep offset s} (h₀ : Does fs₀ s₀ s) (hf₀ : Fld.within [.regs, .time, .pairs, .funcs,
      .flights, .mem, .tiles, .reels, .chains, .windows, .radio, .fault, .free, .out] fs₀ = true) :
    Does fs₀ s₀ (takeSync twoStep offset s) := by
  refine h₀.trans ?_ hf₀
  clear h₀ hf₀
  unfold takeSync
  try dsimp only
  all_goals repeat'
    first
    | with_reducible exact Does.refl _ _
    | decide
    | with_reducible apply syncSeen_does
    | with_reducible apply measureSome_does
    | split

theorem takeAnnounce_does {fs₀ s₀ a s} (h₀ : Does fs₀ s₀ s) (hf₀ : Fld.within [.time] fs₀ = true) :
    Does fs₀ s₀ (takeAnnounce a s) := by
  refine h₀.trans ?_ hf₀
  clear h₀ hf₀
  unfold takeAnnounce
  try dsimp only
  all_goals repeat'
    first
    | with_reducible exact Does.refl _ _
    | decide
    | with_reducible apply sourceBack_does
    | split
    | ((with_reducible refine Does.upd ?_ ?_ ?_); (on_goal 2 => exact rfl); (on_goal 2 => (intro f hf; cases f <;> first | exact absurd (by decide) hf | dsimp only [sameFld])))

theorem slaveFrame_does {fs₀ s₀ s} (h₀ : Does fs₀ s₀ s) (hf₀ : Fld.within [.regs] fs₀ = true) :
    Does fs₀ s₀ (slaveFrame s) := by
  refine h₀.trans ?_ hf₀
  clear h₀ hf₀
  unfold slaveFrame
  try dsimp only
  all_goals repeat'
    first
    | with_reducible exact Does.refl _ _
    | decide
    | with_reducible apply bump_does
    | split

theorem sendPtp_does {fs₀ s₀ k msg peer domain s} (h₀ : Does fs₀ s₀ s) (hf₀ : Fld.within [.out] fs₀ = true) :
    Does fs₀ s₀ (sendPtp k msg peer domain s) := by
  refine h₀.trans ?_ hf₀
  clear h₀ hf₀
  unfold sendPtp
  try dsimp only
  all_goals repeat'
    first
    | with_reducible exact Does.refl _ _
    | decide
    | with_reducible apply emit_does
    | split

theorem masterSend_does {fs₀ s₀ p msg s} (h₀ : Does fs₀ s₀ s) (hf₀ : Fld.within [.out] fs₀ = true) :
    Does fs₀ s₀ (masterSend p msg s) := by
  refine h₀.trans ?_ hf₀
  clear h₀ hf₀
  unfold masterSend
  try dsimp only
  all_goals repeat'
    first
    | with_reducible exact Does.refl _ _
    | decide
    | with_reducible apply sendPtp_does
    | split

theorem ptpDiscard_does {fs₀ s₀ k s} (h₀ : Does fs₀ s₀ s) (hf₀ : Fld.within [.regs] fs₀ = true) :
    Does fs₀ s₀ (ptpDiscard k s) := by
  refine h₀.trans ?_ hf₀
  clear h₀ hf₀
  unfold ptpDiscard
  try dsimp only
  all_goals repeat'
    first
    | with_reducible exact Does.refl _ _
    | decide
    | with_reducible apply bump_does
    | split

theorem ptpAtPort_does {fs₀ s₀ p m s} (h₀ : Does fs₀ s₀ s) (hf₀ : Fld.within [.regs, .time, .pairs, .funcs, .flights, .mem,
      .tiles, .reels, .chains, .windows, .radio, .fault, .free, .out] fs₀ = true) :
    Does fs₀ s₀ (ptpAtPort p m s) := by
  refine h₀.trans ?_ hf₀
  clear h₀ hf₀
  unfold ptpAtPort
  try dsimp only
  all_goals repeat'
    first
    | with_reducible exact Does.refl _ _
    | decide
    | with_reducible apply ptpDiscard_does
    | with_reducible apply masterSend_does
    | with_reducible apply takeAnnounce_does
    | with_reducible apply takeSync_does
    | with_reducible apply measureSome_does
    | split

theorem loseParent_does {fs₀ s₀ s} (h₀ : Does fs₀ s₀ s) (hf₀ : Fld.within [.regs, .funcs, .splice, .out] fs₀ = true) :
    Does fs₀ s₀ (loseParent s) := by
  refine h₀.trans ?_ hf₀
  clear h₀ hf₀
  unfold loseParent
  try dsimp only
  all_goals repeat'
    first
    | with_reducible exact Does.refl _ _
    | decide
    | with_reducible apply raise_does
    | with_reducible apply wrf_does
    | split
    | ((with_reducible refine Does.upd ?_ ?_ ?_); (on_goal 2 => exact rfl); (on_goal 2 => (intro f hf; cases f <;> first | exact absurd (by decide) hf | dsimp only [sameFld])))

theorem loseSource_does {fs₀ s₀ s} (h₀ : Does fs₀ s₀ s) (hf₀ : Fld.within [.regs, .time, .funcs, .splice, .fault, .free,
      .out] fs₀ = true) :
    Does fs₀ s₀ (loseSource s) := by
  refine h₀.trans ?_ hf₀
  clear h₀ hf₀
  unfold loseSource
  try dsimp only
  all_goals repeat'
    first
    | with_reducible exact Does.refl _ _
    | decide
    | with_reducible apply loseParent_does
    | with_reducible apply enterHoldover_does
    | with_reducible apply report_does
    | with_reducible apply raise_does
    | split
    | ((with_reducible refine Does.upd ?_ ?_ ?_); (on_goal 2 => exact rfl); (on_goal 2 => (intro f hf; cases f <;> first | exact absurd (by decide) hf | dsimp only [sameFld])))

theorem dropResume_does {fs₀ s₀ s} (h₀ : Does fs₀ s₀ s) (hf₀ : Fld.within [.time] fs₀ = true) :
    Does fs₀ s₀ (dropResume s) := by
  refine h₀.trans ?_ hf₀
  clear h₀ hf₀
  unfold dropResume
  try dsimp only
  all_goals repeat'
    first
    | with_reducible exact Does.refl _ _
    | decide
    | split
    | ((with_reducible refine Does.upd ?_ ?_ ?_); (on_goal 2 => exact rfl); (on_goal 2 => (intro f hf; cases f <;> first | exact absurd (by decide) hf | dsimp only [sameFld])))

theorem pulsePps_does {fs₀ s₀ us s} (h₀ : Does fs₀ s₀ s) (hf₀ : Fld.within [.board, .out] fs₀ = true) :
    Does fs₀ s₀ (pulsePps us s) := by
  refine h₀.trans ?_ hf₀
  clear h₀ hf₀
  unfold pulsePps
  try dsimp only
  all_goals repeat'
    first
    | with_reducible exact Does.refl _ _
    | decide
    | with_reducible apply emit_does
    | split
    | ((with_reducible refine Does.upd ?_ ?_ ?_); (on_goal 2 => exact rfl); (on_goal 2 => (intro f hf; cases f <;> first | exact absurd (by decide) hf | dsimp only [sameFld])))

theorem runToDie_does {fs₀ s₀ u s} (h₀ : Does fs₀ s₀ s) (hf₀ : Fld.within [.clk, .time] fs₀ = true) :
    Does fs₀ s₀ (runToDie u s) := by
  refine h₀.trans ?_ hf₀
  clear h₀ hf₀
  unfold runToDie
  try dsimp only
  all_goals repeat'
    first
    | with_reducible exact Does.refl _ _
    | decide
    | with_reducible apply advance_does
    | split

theorem learnRefNow_does {fs₀ s₀ cycles s} (h₀ : Does fs₀ s₀ s) (hf₀ : Fld.within [.time] fs₀ = true) :
    Does fs₀ s₀ (learnRefNow cycles s) := by
  refine h₀.trans ?_ hf₀
  clear h₀ hf₀
  unfold learnRefNow
  try dsimp only
  all_goals repeat'
    first
    | with_reducible exact Does.refl _ _
    | decide
    | split
    | ((with_reducible refine Does.upd ?_ ?_ ?_); (on_goal 2 => exact rfl); (on_goal 2 => (intro f hf; cases f <;> first | exact absurd (by decide) hf | dsimp only [sameFld])))

theorem rootStepped_does {fs₀ s₀ s} (h₀ : Does fs₀ s₀ s) (hf₀ : Fld.within [.splice] fs₀ = true) :
    Does fs₀ s₀ (rootStepped s) := by
  refine h₀.trans ?_ hf₀
  clear h₀ hf₀
  unfold rootStepped
  try dsimp only
  all_goals repeat'
    first
    | with_reducible exact Does.refl _ _
    | decide
    | split
    | ((with_reducible refine Does.upd ?_ ?_ ?_); (on_goal 2 => exact rfl); (on_goal 2 => (intro f hf; cases f <;> first | exact absurd (by decide) hf | dsimp only [sameFld])))

theorem lockRoot_does {fs₀ s₀ s} (h₀ : Does fs₀ s₀ s) (hf₀ : Fld.within [.regs, .time, .funcs, .out] fs₀ = true) :
    Does fs₀ s₀ (lockRoot s) := by
  refine h₀.trans ?_ hf₀
  clear h₀ hf₀
  unfold lockRoot
  try dsimp only
  all_goals repeat'
    first
    | with_reducible exact Does.refl _ _
    | decide
    | with_reducible apply enterLocked_does
    | split

theorem execSyncMessageReceive_does {fs₀ s₀ twoStep offset s t₀} (h₀ : Does fs₀ s₀ s) (e₀ : execSyncMessageReceive twoStep offset s = .next t₀)
    (hf₀ : Fld.within [.regs, .time, .pairs, .funcs, .flights, .mem, .tiles, .reels, .chains, .windows, .radio, .fault,
      .free, .out] fs₀ = true) : Does fs₀ s₀ t₀ := by
  refine h₀.trans ?_ hf₀
  clear h₀ hf₀
  unfold execSyncMessageReceive at e₀
  (try dsimp only at e₀)
  first
  | cases e₀
  | ((repeat' split at e₀) <;> cases e₀)
  all_goals repeat'
    first
    | with_reducible exact Does.refl _ _
    | decide
    | with_reducible apply slaveFrame_does
    | with_reducible apply takeSync_does
    | split

theorem execFollowUpReceive_does {fs₀ s₀ offset s t₀} (h₀ : Does fs₀ s₀ s) (e₀ : execFollowUpReceive offset s = .next t₀)
    (hf₀ : Fld.within [.regs, .time, .pairs, .funcs, .flights, .mem, .tiles, .reels, .chains, .windows, .radio, .fault,
      .free, .out] fs₀ = true) : Does fs₀ s₀ t₀ := by
  refine h₀.trans ?_ hf₀
  clear h₀ hf₀
  unfold execFollowUpReceive at e₀
  (try dsimp only at e₀)
  first
  | cases e₀
  | ((repeat' split at e₀) <;> cases e₀)
  all_goals repeat'
    first
    | with_reducible exact Does.refl _ _
    | decide
    | with_reducible apply slaveFrame_does
    | with_reducible apply measureSome_does
    | split

theorem execDelayRespReceive_does {fs₀ s₀ offset s t₀} (h₀ : Does fs₀ s₀ s) (e₀ : execDelayRespReceive offset s = .next t₀)
    (hf₀ : Fld.within [.regs, .time, .pairs, .funcs, .flights, .mem, .tiles, .reels, .chains, .windows, .radio, .fault,
      .free, .out] fs₀ = true) : Does fs₀ s₀ t₀ := by
  refine h₀.trans ?_ hf₀
  clear h₀ hf₀
  unfold execDelayRespReceive at e₀
  (try dsimp only at e₀)
  first
  | cases e₀
  | ((repeat' split at e₀) <;> cases e₀)
  all_goals repeat'
    first
    | with_reducible exact Does.refl _ _
    | decide
    | with_reducible apply slaveFrame_does
    | with_reducible apply measureSome_does
    | split

theorem execAnnounceReceive_does {fs₀ s₀ a s t₀} (h₀ : Does fs₀ s₀ s) (e₀ : execAnnounceReceive a s = .next t₀)
    (hf₀ : Fld.within [.regs, .time] fs₀ = true) : Does fs₀ s₀ t₀ := by
  refine h₀.trans ?_ hf₀
  clear h₀ hf₀
  unfold execAnnounceReceive at e₀
  (try dsimp only at e₀)
  first
  | cases e₀
  | ((repeat' split at e₀) <;> cases e₀)
  all_goals repeat'
    first
    | with_reducible exact Does.refl _ _
    | decide
    | with_reducible apply slaveFrame_does
    | with_reducible apply takeAnnounce_does
    | split

theorem execDelayReqReceive_does {fs₀ s₀ port s t₀} (h₀ : Does fs₀ s₀ s) (e₀ : execDelayReqReceive port s = .next t₀)
    (hf₀ : Fld.within [.regs, .time, .pairs, .funcs, .flights, .mem, .tiles, .reels, .chains, .windows, .radio, .fault,
      .free, .out] fs₀ = true) : Does fs₀ s₀ t₀ := by
  refine h₀.trans ?_ hf₀
  clear h₀ hf₀
  unfold execDelayReqReceive at e₀
  (try dsimp only at e₀)
  first
  | cases e₀
  | ((repeat' split at e₀) <;> cases e₀)
  all_goals repeat'
    first
    | with_reducible exact Does.refl _ _
    | decide
    | with_reducible apply ptpAtPort_does
    | with_reducible apply bump_does
    | split

theorem execPtpSyncSend_does {fs₀ s₀ port s t₀} (h₀ : Does fs₀ s₀ s) (e₀ : execPtpSyncSend port s = .next t₀)
    (hf₀ : Fld.within [.out] fs₀ = true) : Does fs₀ s₀ t₀ := by
  refine h₀.trans ?_ hf₀
  clear h₀ hf₀
  unfold execPtpSyncSend at e₀
  (try dsimp only at e₀)
  first
  | cases e₀
  | ((repeat' split at e₀) <;> cases e₀)
  all_goals repeat'
    first
    | with_reducible exact Does.refl _ _
    | decide
    | with_reducible apply masterSend_does
    | split

theorem execPtpAnnounceSend_does {fs₀ s₀ port s t₀} (h₀ : Does fs₀ s₀ s) (e₀ : execPtpAnnounceSend port s = .next t₀)
    (hf₀ : Fld.within [.out] fs₀ = true) : Does fs₀ s₀ t₀ := by
  refine h₀.trans ?_ hf₀
  clear h₀ hf₀
  unfold execPtpAnnounceSend at e₀
  (try dsimp only at e₀)
  first
  | cases e₀
  | ((repeat' split at e₀) <;> cases e₀)
  all_goals repeat'
    first
    | with_reducible exact Does.refl _ _
    | decide
    | with_reducible apply masterSend_does
    | split

theorem execDelayReqSend_does {fs₀ s₀ s t₀} (h₀ : Does fs₀ s₀ s) (e₀ : execDelayReqSend s = .next t₀)
    (hf₀ : Fld.within [.free, .out] fs₀ = true) : Does fs₀ s₀ t₀ := by
  refine h₀.trans ?_ hf₀
  clear h₀ hf₀
  unfold execDelayReqSend at e₀
  (try dsimp only at e₀)
  first
  | cases e₀
  | ((repeat' split at e₀) <;> cases e₀)
  all_goals repeat'
    first
    | with_reducible exact Does.refl _ _
    | decide
    | with_reducible apply sendPtp_does
    | with_reducible apply useFree_does
    | split

theorem execSourceLost_does {fs₀ s₀ s t₀} (h₀ : Does fs₀ s₀ s) (e₀ : execSourceLost s = .next t₀)
    (hf₀ : Fld.within [.regs, .clk, .time, .funcs, .splice, .fault, .free, .out] fs₀ = true) : Does fs₀ s₀ t₀ := by
  refine h₀.trans ?_ hf₀
  clear h₀ hf₀
  unfold execSourceLost at e₀
  (try dsimp only at e₀)
  first
  | cases e₀
  | ((repeat' split at e₀) <;> cases e₀)
  all_goals repeat'
    first
    | with_reducible exact Does.refl _ _
    | decide
    | with_reducible apply loseSource_does
    | with_reducible apply runToClk_does
    | split

theorem execHoldoverExpired_does {fs₀ s₀ s t₀} (h₀ : Does fs₀ s₀ s) (e₀ : execHoldoverExpired s = .next t₀)
    (hf₀ : Fld.within [.regs, .clk, .time, .funcs, .out] fs₀ = true) : Does fs₀ s₀ t₀ := by
  refine h₀.trans ?_ hf₀
  clear h₀ hf₀
  unfold execHoldoverExpired at e₀
  (try dsimp only at e₀)
  first
  | cases e₀
  | ((repeat' split at e₀) <;> cases e₀)
  all_goals repeat'
    first
    | with_reducible exact Does.refl _ _
    | decide
    | with_reducible apply raise_does
    | with_reducible apply runToClk_does
    | with_reducible apply wrf_does
    | split

theorem execSceneEnd_does {fs₀ s₀ s t₀} (h₀ : Does fs₀ s₀ s) (e₀ : execSceneEnd s = .next t₀)
    (hf₀ : Fld.within [.regs, .clk, .time, .funcs, .out] fs₀ = true) : Does fs₀ s₀ t₀ := by
  refine h₀.trans ?_ hf₀
  clear h₀ hf₀
  unfold execSceneEnd at e₀
  (try dsimp only at e₀)
  first
  | cases e₀
  | ((repeat' split at e₀) <;> cases e₀)
  all_goals repeat'
    first
    | with_reducible exact Does.refl _ _
    | decide
    | with_reducible apply dropResume_does
    | with_reducible apply raise_does
    | with_reducible apply runToTime_does
    | with_reducible apply wrf_does
    | split

theorem execPpsInEdge_does {fs₀ s₀ s t₀} (h₀ : Does fs₀ s₀ s) (e₀ : execPpsInEdge s = .next t₀)
    (hf₀ : Fld.within [.regs, .time, .pairs, .funcs, .flights, .mem, .tiles, .reels, .chains, .windows, .radio, .fault,
      .free, .out] fs₀ = true) : Does fs₀ s₀ t₀ := by
  refine h₀.trans ?_ hf₀
  clear h₀ hf₀
  unfold execPpsInEdge at e₀
  (try dsimp only at e₀)
  first
  | cases e₀
  | ((repeat' split at e₀) <;> cases e₀)
  all_goals repeat'
    first
    | with_reducible exact Does.refl _ _
    | decide
    | with_reducible apply measure_does
    | with_reducible apply applyStep_does
    | with_reducible apply raise_does
    | with_reducible apply wrMany_does
    | split
    | ((with_reducible refine Does.upd ?_ ?_ ?_); (on_goal 2 => exact rfl); (on_goal 2 => (intro f hf; cases f <;> first | exact absurd (by decide) hf | dsimp only [sameFld])))

theorem execPpsOutPulse_does {fs₀ s₀ s t₀} (h₀ : Does fs₀ s₀ s) (e₀ : execPpsOutPulse s = .next t₀)
    (hf₀ : Fld.within [.clk, .time, .board, .out] fs₀ = true) : Does fs₀ s₀ t₀ := by
  refine h₀.trans ?_ hf₀
  clear h₀ hf₀
  unfold execPpsOutPulse at e₀
  (try dsimp only at e₀)
  first
  | cases e₀
  | ((repeat' split at e₀) <;> cases e₀)
  all_goals repeat'
    first
    | with_reducible exact Does.refl _ _
    | decide
    | with_reducible apply runToDie_does
    | with_reducible apply pulsePps_does
    | split

theorem execRtcRewrite_does {fs₀ s₀ s t₀} (h₀ : Does fs₀ s₀ s) (e₀ : execRtcRewrite s = .next t₀)
    (hf₀ : Fld.within [.regs, .hold, .free] fs₀ = true) : Does fs₀ s₀ t₀ := by
  refine h₀.trans ?_ hf₀
  clear h₀ hf₀
  unfold execRtcRewrite at e₀
  (try dsimp only at e₀)
  first
  | cases e₀
  | ((repeat' split at e₀) <;> cases e₀)
  all_goals repeat'
    first
    | with_reducible exact Does.refl _ _
    | decide
    | with_reducible apply wrf_does
    | with_reducible apply useFree_does
    | split
    | ((with_reducible refine Does.upd ?_ ?_ ?_); (on_goal 2 => exact rfl); (on_goal 2 => (intro f hf; cases f <;> first | exact absurd (by decide) hf | dsimp only [sameFld])))

theorem execXtalStop_does {fs₀ s₀ s t₀} (h₀ : Does fs₀ s₀ s) (e₀ : execXtalStop s = .next t₀)
    (hf₀ : Fld.within [.regs, .hold] fs₀ = true) : Does fs₀ s₀ t₀ := by
  refine h₀.trans ?_ hf₀
  clear h₀ hf₀
  unfold execXtalStop at e₀
  (try dsimp only at e₀)
  first
  | cases e₀
  | ((repeat' split at e₀) <;> cases e₀)
  all_goals repeat'
    first
    | with_reducible exact Does.refl _ _
    | decide
    | with_reducible apply wrf_does
    | split
    | ((with_reducible refine Does.upd ?_ ?_ ?_); (on_goal 2 => exact rfl); (on_goal 2 => (intro f hf; cases f <;> first | exact absurd (by decide) hf | dsimp only [sameFld])))

theorem execHoRefInterval_does {fs₀ s₀ ref cycles s t₀} (h₀ : Does fs₀ s₀ s) (e₀ : execHoRefInterval ref cycles s = .next t₀)
    (hf₀ : Fld.within [.regs, .time, .free] fs₀ = true) : Does fs₀ s₀ t₀ := by
  refine h₀.trans ?_ hf₀
  clear h₀ hf₀
  unfold execHoRefInterval at e₀
  (try dsimp only at e₀)
  first
  | cases e₀
  | ((repeat' split at e₀) <;> cases e₀)
  all_goals repeat'
    first
    | with_reducible exact Does.refl _ _
    | decide
    | with_reducible apply learnRefNow_does
    | with_reducible apply followRef_does
    | with_reducible apply holdAverage_does
    | with_reducible apply learnNow_does
    | split
    | ((with_reducible refine Does.upd ?_ ?_ ?_); (on_goal 2 => exact rfl); (on_goal 2 => (intro f hf; cases f <;> first | exact absurd (by decide) hf | dsimp only [sameFld])))

theorem execFabricRootLock_does {fs₀ s₀ s t₀} (h₀ : Does fs₀ s₀ s) (e₀ : execFabricRootLock s = .next t₀)
    (hf₀ : Fld.within [.regs, .clk, .time, .funcs, .splice, .out] fs₀ = true) : Does fs₀ s₀ t₀ := by
  refine h₀.trans ?_ hf₀
  clear h₀ hf₀
  unfold execFabricRootLock at e₀
  (try dsimp only at e₀)
  first
  | cases e₀
  | ((repeat' split at e₀) <;> cases e₀)
  all_goals repeat'
    first
    | with_reducible exact Does.refl _ _
    | decide
    | with_reducible apply lockRoot_does
    | with_reducible apply rootStepped_does
    | with_reducible apply runToClk_does
    | split

/-! ### Desc -/

theorem passTurn_does {fs₀ s₀ p s} (h₀ : Does fs₀ s₀ s) (hf₀ : Fld.within [.fetchTurn] fs₀ = true) :
    Does fs₀ s₀ (passTurn p s) := by
  refine h₀.trans ?_ hf₀
  clear h₀ hf₀
  unfold passTurn
  try dsimp only
  all_goals repeat'
    first
    | with_reducible exact Does.refl _ _
    | decide
    | split
    | ((with_reducible refine Does.upd ?_ ?_ ?_); (on_goal 2 => exact rfl); (on_goal 2 => (intro f hf; cases f <;> first | exact absurd (by decide) hf | dsimp only [sameFld])))

theorem readDesc_does {fs₀ s₀ p s} (h₀ : Does fs₀ s₀ s) (hf₀ : Fld.within [.out] fs₀ = true) :
    Does fs₀ s₀ (readDesc p s) := by
  refine h₀.trans ?_ hf₀
  clear h₀ hf₀
  unfold readDesc
  try dsimp only
  all_goals repeat'
    first
    | with_reducible exact Does.refl _ _
    | decide
    | with_reducible apply emit_does
    | split

theorem moveHorizon_does {fs₀ s₀ p s} (h₀ : Does fs₀ s₀ s) (hf₀ : Fld.within [.regs, .pairs, .fault, .hold] fs₀ = true) :
    Does fs₀ s₀ (moveHorizon p s) := by
  refine h₀.trans ?_ hf₀
  clear h₀ hf₀
  unfold moveHorizon
  try dsimp only
  all_goals repeat'
    first
    | with_reducible exact Does.refl _ _
    | decide
    | with_reducible apply ledgerCommit_does
    | with_reducible apply setPair_does
    | split

theorem consume_does {fs₀ s₀ p d s} (h₀ : Does fs₀ s₀ s) (hf₀ : Fld.within [.regs, .pairs, .flights, .fault,
      .hold] fs₀ = true) :
    Does fs₀ s₀ (consume p d s) := by
  refine h₀.trans ?_ hf₀
  clear h₀ hf₀
  unfold consume
  try dsimp only
  all_goals repeat'
    first
    | with_reducible exact Does.refl _ _
    | decide
    | with_reducible apply moveHorizon_does
    | with_reducible apply setPair_does
    | with_reducible apply wr_does
    | split
    | ((with_reducible refine Does.upd ?_ ?_ ?_); (on_goal 2 => exact rfl); (on_goal 2 => (intro f hf; cases f <;> first | exact absurd (by decide) hf | dsimp only [sameFld])))

theorem takeDesc_does {fs₀ s₀ p d s} (h₀ : Does fs₀ s₀ s) (hf₀ : Fld.within [.regs, .pairs, .flights, .fault,
      .hold] fs₀ = true) :
    Does fs₀ s₀ (takeDesc p d s) := by
  refine h₀.trans ?_ hf₀
  clear h₀ hf₀
  unfold takeDesc
  try dsimp only
  all_goals repeat'
    first
    | with_reducible exact Does.refl _ _
    | decide
    | with_reducible apply consume_does
    | with_reducible apply setPair_does
    | split

theorem badRead_does {fs₀ s₀ p s} (h₀ : Does fs₀ s₀ s) (hf₀ : Fld.within [.regs, .pairs, .funcs, .flights, .fault, .hold,
      .out] fs₀ = true) :
    Does fs₀ s₀ (badRead p s) := by
  refine h₀.trans ?_ hf₀
  clear h₀ hf₀
  unfold badRead
  try dsimp only
  all_goals repeat'
    first
    | with_reducible exact Does.refl _ _
    | decide
    | with_reducible apply consume_does
    | with_reducible apply readDesc_does
    | with_reducible apply logDmaError_does
    | with_reducible apply finish_does
    | with_reducible apply wrf_does
    | split

theorem inputError_does {fs₀ s₀ r s} (h₀ : Does fs₀ s₀ s) (hf₀ : Fld.within [.regs, .pairs, .funcs, .flights, .fault,
      .out] fs₀ = true) :
    Does fs₀ s₀ (inputError r s) := by
  refine h₀.trans ?_ hf₀
  clear h₀ hf₀
  unfold inputError
  try dsimp only
  all_goals repeat'
    first
    | with_reducible exact Does.refl _ _
    | decide
    | with_reducible apply logDmaError_does
    | with_reducible apply finish_does
    | split

/-- An opcode's effect on its input, or the record of an input that cannot be read. -/
theorem withInput_does {fs₀ s₀ r d dma go s} (h₀ : Does fs₀ s₀ s)
    (hgo : ∀ bs t, Does fs₀ s₀ t → Does fs₀ s₀ (go bs t)) (hf₀ : Fld.within [.regs, .pairs, .funcs, .flights, .mem, .fault,
      .free, .out] fs₀ = true) :
    Does fs₀ s₀ (withInput r d dma go s) := by
  unfold withInput
  split
  · exact inputError_does h₀ (within_of_within (by decide) hf₀)
  · exact finish_does h₀ (within_of_within (by decide) hf₀)
  · refine hgo _ _ ?_
    split
    · exact devTouch_does h₀ (within_of_within (by decide) hf₀)
    · exact h₀

/-- A descriptor that passes its checks does what its opcode does; one that does not ends. -/
theorem runDesc_does {fs₀ s₀ r op o go s} (h₀ : Does fs₀ s₀ s)
    (hgo : ∀ d t, Does fs₀ s₀ t → Does fs₀ s₀ (go d t)) (hf₀ : Fld.within [.regs, .pairs, .funcs, .flights, .fault,
      .out] fs₀ = true) :
    Does fs₀ s₀ (runDesc r op o go s) := by
  unfold runDesc
  split
  · exact h₀
  · split
    · exact h₀
    · split
      · exact refuse_does h₀ (within_of_within (by decide) hf₀)
      · split
        · exact refuse_does h₀ (within_of_within (by decide) hf₀)
        · exact hgo _ _ h₀

theorem timeRearmGo_does {fs₀ s₀ r d s} (h₀ : Does fs₀ s₀ s) (hf₀ : Fld.within [.regs, .time, .pairs, .funcs, .flights,
      .fault, .out] fs₀ = true) :
    Does fs₀ s₀ (timeRearmGo r d s) := by
  refine h₀.trans ?_ hf₀
  clear h₀ hf₀
  unfold timeRearmGo
  try dsimp only
  all_goals repeat'
    first
    | with_reducible exact Does.refl _ _
    | decide
    | with_reducible apply rearm_does
    | with_reducible apply refuse_does
    | with_reducible apply finish_does
    | split

theorem acceptBoot_does {fs₀ s₀ r d s} (h₀ : Does fs₀ s₀ s) (hf₀ : Fld.within [.regs, .pairs, .funcs, .flights, .fault,
      .out] fs₀ = true) :
    Does fs₀ s₀ (acceptBoot r d s) := by
  refine h₀.trans ?_ hf₀
  clear h₀ hf₀
  unfold acceptBoot
  try dsimp only
  all_goals repeat'
    first
    | with_reducible exact Does.refl _ _
    | decide
    | with_reducible apply refuse_does
    | with_reducible apply finish_does
    | with_reducible apply raise_does
    | with_reducible apply wrf_does
    | split

theorem acceptLoad_does {fs₀ s₀ r d s} (h₀ : Does fs₀ s₀ s) (hf₀ : Fld.within [.regs, .pairs, .funcs, .flights, .fault,
      .mgmt, .out] fs₀ = true) :
    Does fs₀ s₀ (acceptLoad r d s) := by
  refine h₀.trans ?_ hf₀
  clear h₀ hf₀
  unfold acceptLoad
  try dsimp only
  all_goals repeat'
    first
    | with_reducible exact Does.refl _ _
    | decide
    | with_reducible apply refuse_does
    | with_reducible apply finish_does
    | with_reducible apply wrMany_does
    | with_reducible apply wrf_does
    | split
    | ((with_reducible refine Does.upd ?_ ?_ ?_); (on_goal 2 => exact rfl); (on_goal 2 => (intro f hf; cases f <;> first | exact absurd (by decide) hf | dsimp only [sameFld])))

theorem acceptPairGo_does {fs₀ s₀ r d s} (h₀ : Does fs₀ s₀ s) (hf₀ : Fld.within [.regs, .pairs, .funcs, .flights, .fault,
      .mgmt, .out] fs₀ = true) :
    Does fs₀ s₀ (acceptPairGo r d s) := by
  refine h₀.trans ?_ hf₀
  clear h₀ hf₀
  unfold acceptPairGo
  try dsimp only
  all_goals repeat'
    first
    | with_reducible exact Does.refl _ _
    | decide
    | with_reducible apply acceptLoad_does
    | with_reducible apply acceptBoot_does
    | with_reducible apply refuse_does
    | split

theorem execDescriptorFetch_does {fs₀ s₀ p d s t₀} (h₀ : Does fs₀ s₀ s) (e₀ : execDescriptorFetch p d s = .next t₀)
    (hf₀ : Fld.within [.regs, .pairs, .flights, .fault, .hold, .out, .fetchTurn] fs₀ = true) : Does fs₀ s₀ t₀ := by
  refine h₀.trans ?_ hf₀
  clear h₀ hf₀
  unfold execDescriptorFetch at e₀
  (try dsimp only at e₀)
  first
  | cases e₀
  | ((repeat' split at e₀) <;> cases e₀)
  all_goals repeat'
    first
    | with_reducible exact Does.refl _ _
    | decide
    | with_reducible apply takeDesc_does
    | with_reducible apply readDesc_does
    | with_reducible apply passTurn_does
    | with_reducible apply setPair_does
    | split

theorem execDescriptorPhaseRetry_does {fs₀ s₀ p d s t₀} (h₀ : Does fs₀ s₀ s) (e₀ : execDescriptorPhaseRetry p d s = .next t₀)
    (hf₀ : Fld.within [.regs, .clk, .time, .pairs, .funcs, .flights, .fault, .hold, .out] fs₀ = true) : Does fs₀ s₀ t₀ := by
  refine h₀.trans ?_ hf₀
  clear h₀ hf₀
  unfold execDescriptorPhaseRetry at e₀
  (try dsimp only at e₀)
  first
  | cases e₀
  | ((repeat' split at e₀) <;> cases e₀)
  all_goals repeat'
    first
    | with_reducible exact Does.refl _ _
    | decide
    | with_reducible apply takeDesc_does
    | with_reducible apply consume_does
    | with_reducible apply readDesc_does
    | with_reducible apply refuse_does
    | with_reducible apply runToClk_does
    | with_reducible apply setPair_does
    | split

theorem execDescriptorReadError_does {fs₀ s₀ p s t₀} (h₀ : Does fs₀ s₀ s) (e₀ : execDescriptorReadError p s = .next t₀)
    (hf₀ : Fld.within [.regs, .clk, .time, .pairs, .funcs, .flights, .fault, .hold, .out,
      .fetchTurn] fs₀ = true) : Does fs₀ s₀ t₀ := by
  refine h₀.trans ?_ hf₀
  clear h₀ hf₀
  unfold execDescriptorReadError at e₀
  (try dsimp only at e₀)
  first
  | cases e₀
  | ((repeat' split at e₀) <;> cases e₀)
  all_goals repeat'
    first
    | with_reducible exact Does.refl _ _
    | decide
    | with_reducible apply badRead_does
    | with_reducible apply passTurn_does
    | with_reducible apply runToClk_does
    | split

theorem execBadDescriptor_does {fs₀ s₀ r s t₀} (h₀ : Does fs₀ s₀ s) (e₀ : execBadDescriptor r s = .next t₀)
    (hf₀ : Fld.within [.regs, .pairs, .funcs, .flights, .fault, .out] fs₀ = true) : Does fs₀ s₀ t₀ := by
  refine h₀.trans ?_ hf₀
  clear h₀ hf₀
  unfold execBadDescriptor at e₀
  (try dsimp only at e₀)
  first
  | cases e₀
  | ((repeat' split at e₀) <;> cases e₀)
  all_goals repeat'
    first
    | with_reducible exact Does.refl _ _
    | decide
    | with_reducible apply refuse_does
    | split

theorem execNop_does {fs₀ s₀ r s t₀} (h₀ : Does fs₀ s₀ s) (e₀ : execNop r s = .next t₀)
    (hf₀ : Fld.within [.regs, .pairs, .funcs, .flights, .fault, .out] fs₀ = true) : Does fs₀ s₀ t₀ := by
  refine h₀.trans ?_ hf₀
  clear h₀ hf₀
  unfold execNop at e₀
  (try dsimp only at e₀)
  first
  | cases e₀
  | ((repeat' split at e₀) <;> cases e₀)
  all_goals repeat'
    first
    | with_reducible exact Does.refl _ _
    | decide
    | with_reducible apply runDesc_does
    | with_reducible apply finish_does
    | with_reducible assumption
    | (intro a b h)
    | split

theorem execTimeRearm_does {fs₀ s₀ r s t₀} (h₀ : Does fs₀ s₀ s) (e₀ : execTimeRearm r s = .next t₀)
    (hf₀ : Fld.within [.regs, .time, .pairs, .funcs, .flights, .fault, .out] fs₀ = true) : Does fs₀ s₀ t₀ := by
  refine h₀.trans ?_ hf₀
  clear h₀ hf₀
  unfold execTimeRearm at e₀
  (try dsimp only at e₀)
  first
  | cases e₀
  | ((repeat' split at e₀) <;> cases e₀)
  all_goals repeat'
    first
    | with_reducible exact Does.refl _ _
    | decide
    | with_reducible apply timeRearmGo_does
    | with_reducible apply runDesc_does
    | with_reducible assumption
    | (intro a b h)
    | split

theorem execAcceptPair_does {fs₀ s₀ r s t₀} (h₀ : Does fs₀ s₀ s) (e₀ : execAcceptPair r s = .next t₀)
    (hf₀ : Fld.within [.regs, .pairs, .funcs, .flights, .fault, .mgmt, .out] fs₀ = true) : Does fs₀ s₀ t₀ := by
  refine h₀.trans ?_ hf₀
  clear h₀ hf₀
  unfold execAcceptPair at e₀
  (try dsimp only at e₀)
  first
  | cases e₀
  | ((repeat' split at e₀) <;> cases e₀)
  all_goals repeat'
    first
    | with_reducible exact Does.refl _ _
    | decide
    | with_reducible apply acceptPairGo_does
    | with_reducible apply runDesc_does
    | with_reducible assumption
    | (intro a b h)
    | split

end Sys2Proof.Machine
end

