-- ==== Sys2Proof/Laws/DoesCores.lean ====
section
/-! SUPPORT. What each operation can do: the rings, references, loading, the matrix arrays and the cores system commands.
Each lemma lists the parts of the state its operation may change; the parts not listed stay, and the tables keep their
canonical form (`Does`). The lemma of a command says it of every next state the command answers. -/

set_option linter.all false

namespace Sys2Proof.Machine

/-! ### Rings -/

theorem rejectDoorbell_does {fs₀ s₀ p f off s} (h₀ : Does fs₀ s₀ s) (hf₀ : Fld.within [.regs, .funcs, .out] fs₀ = true) :
    Does fs₀ s₀ (rejectDoorbell p f off s) := by
  refine h₀.trans ?_ hf₀
  clear h₀ hf₀
  unfold rejectDoorbell
  try dsimp only
  all_goals repeat'
    first
    | with_reducible exact Does.refl _ _
    | decide
    | with_reducible apply aerr_does
    | with_reducible apply raise_does
    | with_reducible apply wrf_does
    | split

theorem sqRing_does {fs₀ s₀ p v f off s} (h₀ : Does fs₀ s₀ s) (hf₀ : Fld.within [.regs, .funcs, .out] fs₀ = true) :
    Does fs₀ s₀ (sqRing p v f off s) := by
  refine h₀.trans ?_ hf₀
  clear h₀ hf₀
  unfold sqRing
  try dsimp only
  all_goals repeat'
    first
    | with_reducible exact Does.refl _ _
    | decide
    | with_reducible apply rejectDoorbell_does
    | with_reducible apply wr_does
    | split

theorem rearmRing_does {fs₀ s₀ p v s} (h₀ : Does fs₀ s₀ s) (hf₀ : Fld.within [.pairs, .funcs, .out] fs₀ = true) :
    Does fs₀ s₀ (rearmRing p v s) := by
  refine h₀.trans ?_ hf₀
  clear h₀ hf₀
  unfold rearmRing
  try dsimp only
  all_goals repeat'
    first
    | with_reducible exact Does.refl _ _
    | decide
    | with_reducible apply maybeSignal_does
    | with_reducible apply signalPair_does
    | with_reducible apply setPair_does
    | split

theorem cancelItems_does {fs₀ s₀ src x2 x3} (h₀ : Does fs₀ s₀ x3) (hf₀ : Fld.within [.tiles, .reels, .loaded,
      .items] fs₀ = true) :
    Does fs₀ s₀ (cancelItems src x2 x3) := by
  refine h₀.trans ?_ hf₀
  clear h₀ hf₀
  fun_induction cancelItems src x2 x3
  all_goals try dsimp +zetaDelta only
  all_goals repeat'
    first
    | with_reducible exact Does.refl _ _
    | decide
    | with_reducible refine Does.trans ?_ (by assumption) ?_
    | with_reducible apply stopItem_does
    | with_reducible apply dropItem_does
    | split

theorem cancelJob_does {fs₀ s₀ r s} (h₀ : Does fs₀ s₀ s) (hf₀ : Fld.within [.regs, .tiles, .reels, .loaded, .jobs,
      .splice] fs₀ = true) :
    Does fs₀ s₀ (cancelJob r s) := by
  refine h₀.trans ?_ hf₀
  clear h₀ hf₀
  unfold cancelJob
  try dsimp only
  all_goals repeat'
    first
    | with_reducible exact Does.refl _ _
    | decide
    | with_reducible apply retakeFlag_does
    | with_reducible apply stopPart_does
    | with_reducible apply dropJob_does
    | with_reducible apply clearGroup_does
    | split

theorem cancelFile_does {fs₀ s₀ r s} (h₀ : Does fs₀ s₀ s) (hf₀ : Fld.within [.tiles, .reels, .loaded, .items,
      .flow] fs₀ = true) :
    Does fs₀ s₀ (cancelFile r s) := by
  refine h₀.trans ?_ hf₀
  clear h₀ hf₀
  unfold cancelFile
  try dsimp only
  all_goals repeat'
    first
    | with_reducible exact Does.refl _ _
    | decide
    | with_reducible apply cancelItems_does
    | with_reducible apply dropFile_does
    | split

theorem cancelWork_does {fs₀ s₀ r s} (h₀ : Does fs₀ s₀ s) (hf₀ : Fld.within [.regs, .flights, .mem, .tiles, .reels, .loaded,
      .chains, .items, .windows, .jobs, .radio, .flow, .splice] fs₀ = true) :
    Does fs₀ s₀ (cancelWork r s) := by
  refine h₀.trans ?_ hf₀
  clear h₀ hf₀
  unfold cancelWork
  try dsimp only
  all_goals repeat'
    first
    | with_reducible exact Does.refl _ _
    | decide
    | with_reducible apply cancelFile_does
    | with_reducible apply cancelJob_does
    | with_reducible apply cancelItems_does
    | with_reducible apply haltChain_does
    | split
    | ((with_reducible refine Does.upd ?_ ?_ ?_); (on_goal 2 => exact rfl); (on_goal 2 => (intro f hf; cases f <;> first | exact absurd (by decide) hf | dsimp only [sameFld])))

theorem cancelAll_does {fs₀ s₀ x1 x2} (h₀ : Does fs₀ s₀ x2) (hf₀ : Fld.within [.regs, .flights, .mem, .tiles, .reels,
      .loaded, .chains, .items, .windows, .jobs, .radio, .flow, .splice] fs₀ = true) :
    Does fs₀ s₀ (cancelAll x1 x2) := by
  refine h₀.trans ?_ hf₀
  clear h₀ hf₀
  fun_induction cancelAll x1 x2
  all_goals try dsimp +zetaDelta only
  all_goals repeat'
    first
    | with_reducible exact Does.refl _ _
    | decide
    | with_reducible refine Does.trans ?_ (by assumption) ?_
    | with_reducible apply cancelWork_does
    | split

theorem cancelFunc_does {fs₀ s₀ f s} (h₀ : Does fs₀ s₀ s) (hf₀ : Fld.within [.regs, .funcs, .flights, .mem, .tiles, .reels,
      .loaded, .chains, .items, .windows, .jobs, .radio, .flow, .splice] fs₀ = true) :
    Does fs₀ s₀ (cancelFunc f s) := by
  refine h₀.trans ?_ hf₀
  clear h₀ hf₀
  unfold cancelFunc
  try dsimp only
  all_goals repeat'
    first
    | with_reducible exact Does.refl _ _
    | decide
    | with_reducible apply cancelAll_does
    | with_reducible apply setFunc_does
    | split

theorem zeroPair_does {fs₀ s₀ p s} (h₀ : Does fs₀ s₀ s) (hf₀ : Fld.within [.regs, .pairs] fs₀ = true) :
    Does fs₀ s₀ (zeroPair p s) := by
  refine h₀.trans ?_ hf₀
  clear h₀ hf₀
  unfold zeroPair
  try dsimp only
  all_goals repeat'
    first
    | with_reducible exact Does.refl _ _
    | decide
    | with_reducible apply setPair_does
    | with_reducible apply wr_does
    | split

theorem zeroPairs_does {fs₀ s₀ x1 x2} (h₀ : Does fs₀ s₀ x2) (hf₀ : Fld.within [.regs, .pairs] fs₀ = true) :
    Does fs₀ s₀ (zeroPairs x1 x2) := by
  refine h₀.trans ?_ hf₀
  clear h₀ hf₀
  fun_induction zeroPairs x1 x2
  all_goals try dsimp +zetaDelta only
  all_goals repeat'
    first
    | with_reducible exact Does.refl _ _
    | decide
    | with_reducible refine Does.trans ?_ (by assumption) ?_
    | with_reducible apply zeroPair_does
    | split

theorem armPairs_does {fs₀ s₀ x1 x2} (h₀ : Does fs₀ s₀ x2) (hf₀ : Fld.within [.pairs] fs₀ = true) :
    Does fs₀ s₀ (armPairs x1 x2) := by
  refine h₀.trans ?_ hf₀
  clear h₀ hf₀
  fun_induction armPairs x1 x2
  all_goals try dsimp +zetaDelta only
  all_goals repeat'
    first
    | with_reducible exact Does.refl _ _
    | decide
    | with_reducible refine Does.trans ?_ (by assumption) ?_
    | with_reducible apply setPair_does
    | split

theorem resetFunc_does {fs₀ s₀ f s} (h₀ : Does fs₀ s₀ s) (hf₀ : Fld.within [.regs, .pairs, .funcs, .flights, .mem, .tiles,
      .reels, .loaded, .chains, .items, .windows, .jobs, .radio, .flow, .splice, .fault, .hold] fs₀ = true) :
    Does fs₀ s₀ (resetFunc f s) := by
  refine h₀.trans ?_ hf₀
  clear h₀ hf₀
  unfold resetFunc
  try dsimp only
  all_goals repeat'
    first
    | with_reducible exact Does.refl _ _
    | decide
    | with_reducible apply zeroPairs_does
    | with_reducible apply cancelFunc_does
    | with_reducible apply ledgerZero_does
    | with_reducible apply setFunc_does
    | split

theorem countVfs_does {fs₀ s₀ s} (h₀ : Does fs₀ s₀ s) (hf₀ : Fld.within [.regs] fs₀ = true) :
    Does fs₀ s₀ (countVfs s) := by
  refine h₀.trans ?_ hf₀
  clear h₀ hf₀
  unfold countVfs
  try dsimp only
  all_goals repeat'
    first
    | with_reducible exact Does.refl _ _
    | decide
    | with_reducible apply wrf_does
    | split

theorem issueHeld_does {fs₀ s₀ x1 x2} (h₀ : Does fs₀ s₀ x2) (hf₀ : Fld.within [.funcs, .out] fs₀ = true) :
    Does fs₀ s₀ (issueHeld x1 x2) := by
  refine h₀.trans ?_ hf₀
  clear h₀ hf₀
  fun_induction issueHeld x1 x2
  all_goals try dsimp +zetaDelta only
  all_goals repeat'
    first
    | with_reducible exact Does.refl _ _
    | decide
    | with_reducible refine Does.trans ?_ (by assumption) ?_
    | with_reducible apply issue_does
    | split

theorem putWaiting_does {fs₀ s₀ p x2 x3} (h₀ : Does fs₀ s₀ x3) (hf₀ : Fld.within [.regs, .pairs, .funcs, .out] fs₀ = true) :
    Does fs₀ s₀ (putWaiting p x2 x3) := by
  refine h₀.trans ?_ hf₀
  clear h₀ hf₀
  fun_induction putWaiting p x2 x3
  all_goals try dsimp +zetaDelta only
  all_goals repeat'
    first
    | with_reducible exact Does.refl _ _
    | decide
    | with_reducible refine Does.trans ?_ (by assumption) ?_
    | with_reducible apply putBatch_does
    | split

theorem flushPairs_does {fs₀ s₀ x1 x2} (h₀ : Does fs₀ s₀ x2) (hf₀ : Fld.within [.regs, .pairs, .funcs, .out] fs₀ = true) :
    Does fs₀ s₀ (flushPairs x1 x2) := by
  refine h₀.trans ?_ hf₀
  clear h₀ hf₀
  fun_induction flushPairs x1 x2
  all_goals try dsimp +zetaDelta only
  all_goals repeat'
    first
    | with_reducible exact Does.refl _ _
    | decide
    | with_reducible refine Does.trans ?_ (by assumption) ?_
    | with_reducible apply putWaiting_does
    | with_reducible apply setPair_does
    | split

theorem dropWaiting_does {fs₀ s₀ x1 x2} (h₀ : Does fs₀ s₀ x2) (hf₀ : Fld.within [.pairs] fs₀ = true) :
    Does fs₀ s₀ (dropWaiting x1 x2) := by
  refine h₀.trans ?_ hf₀
  clear h₀ hf₀
  fun_induction dropWaiting x1 x2
  all_goals try dsimp +zetaDelta only
  all_goals repeat'
    first
    | with_reducible exact Does.refl _ _
    | decide
    | with_reducible refine Does.trans ?_ (by assumption) ?_
    | with_reducible apply setPair_does
    | split

theorem discardHeld_does {fs₀ s₀ f s} (h₀ : Does fs₀ s₀ s) (hf₀ : Fld.within [.regs, .pairs, .funcs, .flights, .mem, .tiles,
      .reels, .loaded, .chains, .items, .windows, .jobs, .radio, .flow, .splice] fs₀ = true) :
    Does fs₀ s₀ (discardHeld f s) := by
  refine h₀.trans ?_ hf₀
  clear h₀ hf₀
  unfold discardHeld
  try dsimp only
  all_goals repeat'
    first
    | with_reducible exact Does.refl _ _
    | decide
    | with_reducible apply dropWaiting_does
    | with_reducible apply cancelFunc_does
    | split

theorem masterOn_does {fs₀ s₀ f s} (h₀ : Does fs₀ s₀ s) (hf₀ : Fld.within [.regs, .pairs, .funcs, .out] fs₀ = true) :
    Does fs₀ s₀ (masterOn f s) := by
  refine h₀.trans ?_ hf₀
  clear h₀ hf₀
  unfold masterOn
  try dsimp only
  all_goals repeat'
    first
    | with_reducible exact Does.refl _ _
    | decide
    | with_reducible apply flushPairs_does
    | with_reducible apply issueHeld_does
    | with_reducible apply setFunc_does
    | split

theorem execSqDoorbell_does {fs₀ s₀ f page val s t₀} (h₀ : Does fs₀ s₀ s) (e₀ : execSqDoorbell f page val s = .next t₀)
    (hf₀ : Fld.within [.regs, .pairs, .funcs, .out] fs₀ = true) : Does fs₀ s₀ t₀ := by
  refine h₀.trans ?_ hf₀
  clear h₀ hf₀
  unfold execSqDoorbell at e₀
  (try dsimp only at e₀)
  first
  | cases e₀
  | ((repeat' split at e₀) <;> cases e₀)
  all_goals repeat'
    first
    | with_reducible exact Does.refl _ _
    | decide
    | with_reducible apply sqRing_does
    | with_reducible apply aerr_does
    | with_reducible apply setPair_does
    | split

theorem execCqDoorbell_does {fs₀ s₀ f page val s t₀} (h₀ : Does fs₀ s₀ s) (e₀ : execCqDoorbell f page val s = .next t₀)
    (hf₀ : Fld.within [.regs, .pairs, .funcs, .out] fs₀ = true) : Does fs₀ s₀ t₀ := by
  refine h₀.trans ?_ hf₀
  clear h₀ hf₀
  unfold execCqDoorbell at e₀
  (try dsimp only at e₀)
  first
  | cases e₀
  | ((repeat' split at e₀) <;> cases e₀)
  all_goals repeat'
    first
    | with_reducible exact Does.refl _ _
    | decide
    | with_reducible apply rearmRing_does
    | with_reducible apply rejectDoorbell_does
    | with_reducible apply aerr_does
    | with_reducible apply wr_does
    | split

theorem execInertDoorbellWrite_does {fs₀ s₀ f page off size s t₀} (h₀ : Does fs₀ s₀ s) (e₀ : execInertDoorbellWrite f page off size s = .next t₀)
    (hf₀ : Fld.within [.regs, .funcs, .out] fs₀ = true) : Does fs₀ s₀ t₀ := by
  refine h₀.trans ?_ hf₀
  clear h₀ hf₀
  unfold execInertDoorbellWrite at e₀
  (try dsimp only at e₀)
  first
  | cases e₀
  | ((repeat' split at e₀) <;> cases e₀)
  all_goals repeat'
    first
    | with_reducible exact Does.refl _ _
    | decide
    | with_reducible apply aerr_does
    | split

theorem execModTimeExpiry_does {fs₀ s₀ p s t₀} (h₀ : Does fs₀ s₀ s) (e₀ : execModTimeExpiry p s = .next t₀)
    (hf₀ : Fld.within [.clk, .time, .pairs, .funcs, .out] fs₀ = true) : Does fs₀ s₀ t₀ := by
  refine h₀.trans ?_ hf₀
  clear h₀ hf₀
  unfold execModTimeExpiry at e₀
  (try dsimp only at e₀)
  first
  | cases e₀
  | ((repeat' split at e₀) <;> cases e₀)
  all_goals repeat'
    first
    | with_reducible exact Does.refl _ _
    | decide
    | with_reducible apply maybeSignal_does
    | with_reducible apply runToClk_does
    | split

theorem execFunctionLevelReset_does {fs₀ s₀ f s t₀} (h₀ : Does fs₀ s₀ s) (e₀ : execFunctionLevelReset f s = .next t₀)
    (hf₀ : Fld.within [.regs, .pairs, .funcs, .flights, .mem, .tiles, .reels, .loaded, .chains, .items, .windows, .jobs,
      .radio, .flow, .splice, .fault, .hold, .out] fs₀ = true) : Does fs₀ s₀ t₀ := by
  refine h₀.trans ?_ hf₀
  clear h₀ hf₀
  unfold execFunctionLevelReset at e₀
  (try dsimp only at e₀)
  first
  | cases e₀
  | ((repeat' split at e₀) <;> cases e₀)
  all_goals repeat'
    first
    | with_reducible exact Does.refl _ _
    | decide
    | with_reducible apply resetFunc_does
    | with_reducible apply raise_does
    | with_reducible apply setFunc_does
    | with_reducible apply bump_does
    | split

theorem execFlrComplete_does {fs₀ s₀ f s t₀} (h₀ : Does fs₀ s₀ s) (e₀ : execFlrComplete f s = .next t₀)
    (hf₀ : Fld.within [.pairs, .funcs] fs₀ = true) : Does fs₀ s₀ t₀ := by
  refine h₀.trans ?_ hf₀
  clear h₀ hf₀
  unfold execFlrComplete at e₀
  (try dsimp only at e₀)
  first
  | cases e₀
  | ((repeat' split at e₀) <;> cases e₀)
  all_goals repeat'
    first
    | with_reducible exact Does.refl _ _
    | decide
    | with_reducible apply armPairs_does
    | with_reducible apply setFunc_does
    | split

theorem execVfDisable_does {fs₀ s₀ f s t₀} (h₀ : Does fs₀ s₀ s) (e₀ : execVfDisable f s = .next t₀)
    (hf₀ : Fld.within [.regs, .pairs, .funcs, .flights, .mem, .tiles, .reels, .loaded, .chains, .items, .windows, .jobs,
      .radio, .flow, .splice, .fault, .hold] fs₀ = true) : Does fs₀ s₀ t₀ := by
  refine h₀.trans ?_ hf₀
  clear h₀ hf₀
  unfold execVfDisable at e₀
  (try dsimp only at e₀)
  first
  | cases e₀
  | ((repeat' split at e₀) <;> cases e₀)
  all_goals repeat'
    first
    | with_reducible exact Does.refl _ _
    | decide
    | with_reducible apply countVfs_does
    | with_reducible apply resetFunc_does
    | with_reducible apply armPairs_does
    | with_reducible apply setFunc_does
    | split

theorem execVfEnable_does {fs₀ s₀ f s t₀} (h₀ : Does fs₀ s₀ s) (e₀ : execVfEnable f s = .next t₀)
    (hf₀ : Fld.within [.regs, .funcs] fs₀ = true) : Does fs₀ s₀ t₀ := by
  refine h₀.trans ?_ hf₀
  clear h₀ hf₀
  unfold execVfEnable at e₀
  (try dsimp only at e₀)
  first
  | cases e₀
  | ((repeat' split at e₀) <;> cases e₀)
  all_goals repeat'
    first
    | with_reducible exact Does.refl _ _
    | decide
    | with_reducible apply countVfs_does
    | with_reducible apply setFunc_does
    | split

theorem execBusMasterClear_does {fs₀ s₀ f s t₀} (h₀ : Does fs₀ s₀ s) (e₀ : execBusMasterClear f s = .next t₀)
    (hf₀ : Fld.within [.funcs] fs₀ = true) : Does fs₀ s₀ t₀ := by
  refine h₀.trans ?_ hf₀
  clear h₀ hf₀
  unfold execBusMasterClear at e₀
  (try dsimp only at e₀)
  first
  | cases e₀
  | ((repeat' split at e₀) <;> cases e₀)
  all_goals repeat'
    first
    | with_reducible exact Does.refl _ _
    | decide
    | with_reducible apply setFunc_does
    | split

theorem execBusMasterSet_does {fs₀ s₀ f s t₀} (h₀ : Does fs₀ s₀ s) (e₀ : execBusMasterSet f s = .next t₀)
    (hf₀ : Fld.within [.regs, .pairs, .funcs, .flights, .mem, .tiles, .reels, .loaded, .chains, .items, .windows, .jobs,
      .radio, .flow, .splice, .out] fs₀ = true) : Does fs₀ s₀ t₀ := by
  refine h₀.trans ?_ hf₀
  clear h₀ hf₀
  unfold execBusMasterSet at e₀
  (try dsimp only at e₀)
  first
  | cases e₀
  | ((repeat' split at e₀) <;> cases e₀)
  all_goals repeat'
    first
    | with_reducible exact Does.refl _ _
    | decide
    | with_reducible apply masterOn_does
    | with_reducible apply discardHeld_does
    | split

theorem execBusMasterHoldExpiry_does {fs₀ s₀ f s t₀} (h₀ : Does fs₀ s₀ s) (e₀ : execBusMasterHoldExpiry f s = .next t₀)
    (hf₀ : Fld.within [.regs, .clk, .time, .pairs, .funcs, .flights, .mem, .tiles, .reels, .loaded, .chains, .items,
      .windows, .jobs, .radio, .flow, .splice] fs₀ = true) : Does fs₀ s₀ t₀ := by
  refine h₀.trans ?_ hf₀
  clear h₀ hf₀
  unfold execBusMasterHoldExpiry at e₀
  (try dsimp only at e₀)
  first
  | cases e₀
  | ((repeat' split at e₀) <;> cases e₀)
  all_goals repeat'
    first
    | with_reducible exact Does.refl _ _
    | decide
    | with_reducible apply discardHeld_does
    | with_reducible apply runToClk_does
    | split

theorem execMsixUnmask_does {fs₀ s₀ f vec s t₀} (h₀ : Does fs₀ s₀ s) (e₀ : execMsixUnmask f vec s = .next t₀)
    (hf₀ : Fld.within [.funcs, .out] fs₀ = true) : Does fs₀ s₀ t₀ := by
  refine h₀.trans ?_ hf₀
  clear h₀ hf₀
  unfold execMsixUnmask at e₀
  (try dsimp only at e₀)
  first
  | cases e₀
  | ((repeat' split at e₀) <;> cases e₀)
  all_goals repeat'
    first
    | with_reducible exact Does.refl _ _
    | decide
    | with_reducible apply issueOrHold_does
    | with_reducible apply setFunc_does
    | split

/-! ### Lock -/

theorem lockPair_does {fs₀ s₀ s0 p s} (h₀ : Does fs₀ s₀ s) (hf₀ : Fld.within [.regs, .pairs, .funcs, .out] fs₀ = true) :
    Does fs₀ s₀ (lockPair s0 p s) := by
  refine h₀.trans ?_ hf₀
  clear h₀ hf₀
  unfold lockPair
  try dsimp only
  all_goals repeat'
    first
    | with_reducible exact Does.refl _ _
    | decide
    | with_reducible apply raise_does
    | with_reducible apply setPair_does
    | with_reducible apply wrf_does
    | split

theorem lockPairs_does {fs₀ s₀ s0 x2 x3} (h₀ : Does fs₀ s₀ x3) (hf₀ : Fld.within [.regs, .pairs, .funcs, .out] fs₀ = true) :
    Does fs₀ s₀ (lockPairs s0 x2 x3) := by
  refine h₀.trans ?_ hf₀
  clear h₀ hf₀
  fun_induction lockPairs s0 x2 x3
  all_goals try dsimp +zetaDelta only
  all_goals repeat'
    first
    | with_reducible exact Does.refl _ _
    | decide
    | with_reducible refine Does.trans ?_ (by assumption) ?_
    | with_reducible apply lockPair_does
    | split

theorem keepPages_does {fs₀ s₀ s0 x2 x3} (h₀ : Does fs₀ s₀ x3) (hf₀ : Fld.within [.funcs] fs₀ = true) :
    Does fs₀ s₀ (keepPages s0 x2 x3) := by
  refine h₀.trans ?_ hf₀
  clear h₀ hf₀
  fun_induction keepPages s0 x2 x3
  all_goals try dsimp +zetaDelta only
  all_goals repeat'
    first
    | with_reducible exact Does.refl _ _
    | decide
    | with_reducible refine Does.trans ?_ (by assumption) ?_
    | with_reducible apply setFunc_does
    | split

theorem lostPair_does {fs₀ s₀ q p s} (h₀ : Does fs₀ s₀ s) (hf₀ : Fld.within [.regs, .pairs, .funcs, .fault, .out] fs₀ = true) :
    Does fs₀ s₀ (lostPair q p s) := by
  refine h₀.trans ?_ hf₀
  clear h₀ hf₀
  unfold lostPair
  try dsimp only
  all_goals repeat'
    first
    | with_reducible exact Does.refl _ _
    | decide
    | with_reducible apply logFault_does
    | with_reducible apply eventRecord_does
    | split

theorem lostPairs_does {fs₀ s₀ q x2 x3} (h₀ : Does fs₀ s₀ x3) (hf₀ : Fld.within [.regs, .pairs, .funcs, .fault,
      .out] fs₀ = true) :
    Does fs₀ s₀ (lostPairs q x2 x3) := by
  refine h₀.trans ?_ hf₀
  clear h₀ hf₀
  fun_induction lostPairs q x2 x3
  all_goals try dsimp +zetaDelta only
  all_goals repeat'
    first
    | with_reducible exact Does.refl _ _
    | decide
    | with_reducible refine Does.trans ?_ (by assumption) ?_
    | with_reducible apply lostPair_does
    | split

theorem lostReport_does {fs₀ s₀ s} (h₀ : Does fs₀ s₀ s) (hf₀ : Fld.within [.regs, .pairs, .funcs, .fault, .out] fs₀ = true) :
    Does fs₀ s₀ (lostReport s) := by
  refine h₀.trans ?_ hf₀
  clear h₀ hf₀
  unfold lostReport
  try dsimp only
  all_goals repeat'
    first
    | with_reducible exact Does.refl _ _
    | decide
    | with_reducible apply lostPairs_does
    | with_reducible apply logFault_does
    | with_reducible apply eventRecord_does
    | split

theorem eaxcCheck_does {fs₀ s₀ x1 x2 x3 x4} (h₀ : Does fs₀ s₀ x4) (hf₀ : Fld.within [.regs, .funcs, .out] fs₀ = true) :
    Does fs₀ s₀ (eaxcCheck x1 x2 x3 x4) := by
  refine h₀.trans ?_ hf₀
  clear h₀ hf₀
  fun_induction eaxcCheck x1 x2 x3 x4
  all_goals try dsimp +zetaDelta only
  all_goals repeat'
    first
    | with_reducible exact Does.refl _ _
    | decide
    | with_reducible refine Does.trans ?_ (by assumption) ?_
    | with_reducible apply raise_does
    | with_reducible apply wrf_does
    | split

theorem flowCheck_does {fs₀ s₀ s} (h₀ : Does fs₀ s₀ s) (hf₀ : Fld.within [.regs, .funcs, .out] fs₀ = true) :
    Does fs₀ s₀ (flowCheck s) := by
  refine h₀.trans ?_ hf₀
  clear h₀ hf₀
  unfold flowCheck
  try dsimp only
  all_goals repeat'
    first
    | with_reducible exact Does.refl _ _
    | decide
    | with_reducible apply raise_does
    | with_reducible apply wrf_does
    | split

theorem trainLinks_does {fs₀ s₀ x1 x2} (h₀ : Does fs₀ s₀ x2) (hf₀ : Fld.within [.regs, .funcs, .splice, .out] fs₀ = true) :
    Does fs₀ s₀ (trainLinks x1 x2) := by
  refine h₀.trans ?_ hf₀
  clear h₀ hf₀
  fun_induction trainLinks x1 x2
  all_goals try dsimp +zetaDelta only
  all_goals repeat'
    first
    | with_reducible exact Does.refl _ _
    | decide
    | with_reducible refine Does.trans ?_ (by assumption) ?_
    | with_reducible apply setLinkState_does
    | with_reducible apply setLink_does
    | split

theorem rootSteps_does {fs₀ s₀ s} (h₀ : Does fs₀ s₀ s) (hf₀ : Fld.within [.splice] fs₀ = true) :
    Does fs₀ s₀ (rootSteps s) := by
  refine h₀.trans ?_ hf₀
  clear h₀ hf₀
  unfold rootSteps
  try dsimp only
  all_goals repeat'
    first
    | with_reducible exact Does.refl _ _
    | decide
    | split
    | ((with_reducible refine Does.upd ?_ ?_ ?_); (on_goal 2 => exact rfl); (on_goal 2 => (intro f hf; cases f <;> first | exact absurd (by decide) hf | dsimp only [sameFld])))

theorem fabricLock_does {fs₀ s₀ s} (h₀ : Does fs₀ s₀ s) (hf₀ : Fld.within [.regs, .time, .pairs, .funcs, .flights, .mem,
      .tiles, .reels, .chains, .windows, .radio, .splice, .fault, .free, .out] fs₀ = true) :
    Does fs₀ s₀ (fabricLock s) := by
  refine h₀.trans ?_ hf₀
  clear h₀ hf₀
  unfold fabricLock
  try dsimp only
  all_goals repeat'
    first
    | with_reducible exact Does.refl _ _
    | decide
    | with_reducible apply rootSteps_does
    | with_reducible apply applyStep_does
    | with_reducible apply wrf_does
    | split

theorem formGroup_does {fs₀ s₀ g s} (h₀ : Does fs₀ s₀ s) (hf₀ : Fld.within [.regs] fs₀ = true) :
    Does fs₀ s₀ (formGroup g s) := by
  refine h₀.trans ?_ hf₀
  clear h₀ hf₀
  unfold formGroup
  try dsimp only
  all_goals repeat'
    first
    | with_reducible exact Does.refl _ _
    | decide
    | with_reducible apply wrf_does
    | split

theorem formGroups_does {fs₀ s₀ x1 x2} (h₀ : Does fs₀ s₀ x2) (hf₀ : Fld.within [.regs] fs₀ = true) :
    Does fs₀ s₀ (formGroups x1 x2) := by
  refine h₀.trans ?_ hf₀
  clear h₀ hf₀
  fun_induction formGroups x1 x2
  all_goals try dsimp +zetaDelta only
  all_goals repeat'
    first
    | with_reducible exact Does.refl _ _
    | decide
    | with_reducible refine Does.trans ?_ (by assumption) ?_
    | with_reducible apply formGroup_does
    | split

theorem latchedRing_does {fs₀ s₀ p s} (h₀ : Does fs₀ s₀ s) (hf₀ : Fld.within [.regs, .pairs, .funcs, .out] fs₀ = true) :
    Does fs₀ s₀ (latchedRing p s) := by
  refine h₀.trans ?_ hf₀
  clear h₀ hf₀
  unfold latchedRing
  try dsimp only
  all_goals repeat'
    first
    | with_reducible exact Does.refl _ _
    | decide
    | with_reducible apply sqRing_does
    | with_reducible apply setPair_does
    | split

theorem latchedRings_does {fs₀ s₀ x1 x2} (h₀ : Does fs₀ s₀ x2) (hf₀ : Fld.within [.regs, .pairs, .funcs, .out] fs₀ = true) :
    Does fs₀ s₀ (latchedRings x1 x2) := by
  refine h₀.trans ?_ hf₀
  clear h₀ hf₀
  fun_induction latchedRings x1 x2
  all_goals try dsimp +zetaDelta only
  all_goals repeat'
    first
    | with_reducible exact Does.refl _ _
    | decide
    | with_reducible refine Does.trans ?_ (by assumption) ?_
    | with_reducible apply latchedRing_does
    | split

theorem applyLock_does {fs₀ s₀ s} (h₀ : Does fs₀ s₀ s) (hf₀ : Fld.within [.regs, .time, .pairs, .funcs, .flights, .mem,
      .tiles, .reels, .chains, .windows, .radio, .splice, .fault, .hold, .mgmt, .free, .out] fs₀ = true) :
    Does fs₀ s₀ (applyLock s) := by
  refine h₀.trans ?_ hf₀
  clear h₀ hf₀
  unfold applyLock
  try dsimp only
  all_goals repeat'
    first
    | with_reducible exact Does.refl _ _
    | decide
    | with_reducible apply latchedRings_does
    | with_reducible apply formGroups_does
    | with_reducible apply fabricLock_does
    | with_reducible apply trainLinks_does
    | with_reducible apply flowCheck_does
    | with_reducible apply eaxcCheck_does
    | with_reducible apply lostReport_does
    | with_reducible apply keepPages_does
    | with_reducible apply lockPairs_does
    | with_reducible apply bootCommit_does
    | with_reducible apply wrf_does
    | split

/-! ### Hbm -/

theorem grantTo_does {fs₀ s₀ k c s} (h₀ : Does fs₀ s₀ s) (hf₀ : Fld.within [.rounds] fs₀ = true) :
    Does fs₀ s₀ (grantTo k c s) := by
  refine h₀.trans ?_ hf₀
  clear h₀ hf₀
  unfold grantTo
  try dsimp only
  all_goals repeat'
    first
    | with_reducible exact Does.refl _ _
    | decide
    | split
    | ((with_reducible refine Does.upd ?_ ?_ ?_); (on_goal 2 => exact rfl); (on_goal 2 => (intro f hf; cases f <;> first | exact absurd (by decide) hf | dsimp only [sameFld])))

theorem setRq_does {fs₀ s₀ k q s} (h₀ : Does fs₀ s₀ s) (hf₀ : Fld.within [.mem] fs₀ = true) :
    Does fs₀ s₀ (setRq k q s) := by
  refine h₀.trans ?_ hf₀
  clear h₀ hf₀
  unfold setRq
  try dsimp only
  all_goals repeat'
    first
    | with_reducible exact Does.refl _ _
    | decide
    | split
    | ((with_reducible refine Does.upd ?_ ?_ ?_); (on_goal 2 => exact rfl); (on_goal 2 => (intro f hf; cases f <;> first | exact absurd (by decide) hf | dsimp only [sameFld])))

theorem rqPush_does {fs₀ s₀ r s} (h₀ : Does fs₀ s₀ s) (hf₀ : Fld.within [.mem] fs₀ = true) :
    Does fs₀ s₀ (rqPush r s) := by
  refine h₀.trans ?_ hf₀
  clear h₀ hf₀
  unfold rqPush
  try dsimp only
  all_goals repeat'
    first
    | with_reducible exact Does.refl _ _
    | decide
    | with_reducible apply setRq_does
    | split

theorem rqIssue_does {fs₀ s₀ k r s} (h₀ : Does fs₀ s₀ s) (hf₀ : Fld.within [.mem, .rounds] fs₀ = true) :
    Does fs₀ s₀ (rqIssue k r s) := by
  refine h₀.trans ?_ hf₀
  clear h₀ hf₀
  unfold rqIssue
  try dsimp only
  all_goals repeat'
    first
    | with_reducible exact Does.refl _ _
    | decide
    | with_reducible apply setRq_does
    | with_reducible apply grantTo_does
    | split

theorem reInterleave_does {fs₀ s₀ old new s} (h₀ : Does fs₀ s₀ s) (hf₀ : Fld.within [.mem] fs₀ = true) :
    Does fs₀ s₀ (reInterleave old new s) := by
  refine h₀.trans ?_ hf₀
  refine ⟨fun h => ?_, fun f hf => by cases f <;> first | rfl | simp at hf⟩
  simp only [State.wf, Bool.and_eq_true] at h ⊢
  have hb := h.1.1.1.2
  exact ⟨⟨⟨⟨h.1.1.1.1, tabWf_foldl_tabPut 0 (movedAddr old new) s.mem.bytes [] (tabWfFrom_entry memDefault _ hb) rfl⟩, h.1.1.2⟩,
    h.1.2⟩, h.2⟩

/-! ### Load -/

theorem loadCode_does {fs₀ s₀ l role n s} (h₀ : Does fs₀ s₀ s) (hf₀ : Fld.within [.tiles] fs₀ = true) :
    Does fs₀ s₀ (loadCode l role n s) := by
  refine h₀.trans ?_ hf₀
  clear h₀ hf₀
  unfold loadCode
  try dsimp only
  all_goals repeat'
    first
    | with_reducible exact Does.refl _ _
    | decide
    | with_reducible apply setTile_does
    | split

theorem loadCodes_does {fs₀ s₀ l x2 x3 x4} (h₀ : Does fs₀ s₀ x4) (hf₀ : Fld.within [.tiles] fs₀ = true) :
    Does fs₀ s₀ (loadCodes l x2 x3 x4) := by
  refine h₀.trans ?_ hf₀
  clear h₀ hf₀
  fun_induction loadCodes l x2 x3 x4
  all_goals try dsimp +zetaDelta only
  all_goals repeat'
    first
    | with_reducible exact Does.refl _ _
    | decide
    | with_reducible refine Does.trans ?_ (by assumption) ?_
    | with_reducible apply loadCode_does
    | split

theorem bindReels_does {fs₀ s₀ num tiles x3 x4} (h₀ : Does fs₀ s₀ x4) (hf₀ : Fld.within [.reels] fs₀ = true) :
    Does fs₀ s₀ (bindReels num tiles x3 x4) := by
  refine h₀.trans ?_ hf₀
  clear h₀ hf₀
  fun_induction bindReels num tiles x3 x4
  all_goals try dsimp +zetaDelta only
  all_goals repeat'
    first
    | with_reducible exact Does.refl _ _
    | decide
    | with_reducible refine Does.trans ?_ (by assumption) ?_
    | with_reducible apply setReel_does
    | split

theorem install_does {fs₀ s₀ l s} (h₀ : Does fs₀ s₀ s) (hf₀ : Fld.within [.reels, .loaded, .nextLoad] fs₀ = true) :
    Does fs₀ s₀ (install l s) := by
  refine h₀.trans ?_ hf₀
  clear h₀ hf₀
  unfold install
  try dsimp only
  all_goals repeat'
    first
    | with_reducible exact Does.refl _ _
    | decide
    | with_reducible apply bindReels_does
    | split
    | ((with_reducible refine Does.upd ?_ ?_ ?_); (on_goal 2 => exact rfl); (on_goal 2 => (intro f hf; cases f <;> first | exact absurd (by decide) hf | dsimp only [sameFld])))

theorem setLoads_does {fs₀ s₀ f st s} (h₀ : Does fs₀ s₀ s) (hf₀ : Fld.within [.loaded] fs₀ = true) :
    Does fs₀ s₀ (setLoads f st s) := by
  refine h₀.trans ?_ hf₀
  clear h₀ hf₀
  unfold setLoads
  try dsimp only
  all_goals repeat'
    first
    | with_reducible exact Does.refl _ _
    | decide
    | split
    | ((with_reducible refine Does.upd ?_ ?_ ?_); (on_goal 2 => exact rfl); (on_goal 2 => (intro f hf; cases f <;> first | exact absurd (by decide) hf | dsimp only [sameFld])))

theorem refuseFull_does {fs₀ s₀ r s} (h₀ : Does fs₀ s₀ s) (hf₀ : Fld.within [.regs, .pairs, .funcs, .flights, .fault,
      .out] fs₀ = true) :
    Does fs₀ s₀ (refuseFull r s) := by
  refine h₀.trans ?_ hf₀
  clear h₀ hf₀
  unfold refuseFull
  try dsimp only
  all_goals repeat'
    first
    | with_reducible exact Does.refl _ _
    | decide
    | with_reducible apply finish_does
    | split

theorem activate_does {fs₀ s₀ num s} (h₀ : Does fs₀ s₀ s) (hf₀ : Fld.within [.tiles, .loaded, .radio] fs₀ = true) :
    Does fs₀ s₀ (activate num s) := by
  refine h₀.trans ?_ hf₀
  clear h₀ hf₀
  unfold activate
  try dsimp only
  all_goals repeat'
    first
    | with_reducible exact Does.refl _ _
    | decide
    | with_reducible apply setLoads_does
    | with_reducible apply loadCodes_does
    | split
    | ((with_reducible refine Does.upd ?_ ?_ ?_); (on_goal 2 => exact rfl); (on_goal 2 => (intro f hf; cases f <;> first | exact absurd (by decide) hf | dsimp only [sameFld])))

theorem sheetServed_does {fs₀ s₀ r d i tiles reels s} (h₀ : Does fs₀ s₀ s) (hf₀ : Fld.within [.regs, .pairs, .funcs,
      .flights, .tiles, .reels, .loaded, .nextLoad, .radio, .fault, .out] fs₀ = true) :
    Does fs₀ s₀ (sheetServed r d i tiles reels s) := by
  refine h₀.trans ?_ hf₀
  clear h₀ hf₀
  unfold sheetServed
  try dsimp only
  all_goals repeat'
    first
    | with_reducible exact Does.refl _ _
    | decide
    | with_reducible apply activate_does
    | with_reducible apply install_does
    | with_reducible apply finish_does
    | split

theorem sheetGo_does {fs₀ s₀ r d bs s} (h₀ : Does fs₀ s₀ s) (hf₀ : Fld.within [.regs, .pairs, .funcs, .flights, .tiles,
      .reels, .loaded, .nextLoad, .radio, .fault, .out] fs₀ = true) :
    Does fs₀ s₀ (sheetGo r d bs s) := by
  refine h₀.trans ?_ hf₀
  clear h₀ hf₀
  unfold sheetGo
  try dsimp only
  all_goals repeat'
    first
    | with_reducible exact Does.refl _ _
    | decide
    | with_reducible apply sheetServed_does
    | with_reducible apply refuseFull_does
    | with_reducible apply refuse_does
    | split

theorem modelGo_does {fs₀ s₀ r d bs s} (h₀ : Does fs₀ s₀ s) (hf₀ : Fld.within [.regs, .pairs, .funcs, .flights, .tiles,
      .reels, .loaded, .nextLoad, .fault, .out] fs₀ = true) :
    Does fs₀ s₀ (modelGo r d bs s) := by
  refine h₀.trans ?_ hf₀
  clear h₀ hf₀
  unfold modelGo
  try dsimp only
  all_goals repeat'
    first
    | with_reducible exact Does.refl _ _
    | decide
    | with_reducible apply refuseFull_does
    | with_reducible apply setLoads_does
    | with_reducible apply install_does
    | with_reducible apply loadCodes_does
    | with_reducible apply reapModels_does
    | with_reducible apply refuse_does
    | with_reducible apply finish_does
    | split

theorem unloadGo_does {fs₀ s₀ r d s} (h₀ : Does fs₀ s₀ s) (hf₀ : Fld.within [.regs, .pairs, .funcs, .flights, .reels,
      .loaded, .fault, .out] fs₀ = true) :
    Does fs₀ s₀ (unloadGo r d s) := by
  refine h₀.trans ?_ hf₀
  clear h₀ hf₀
  unfold unloadGo
  try dsimp only
  all_goals repeat'
    first
    | with_reducible exact Does.refl _ _
    | decide
    | with_reducible apply setLoads_does
    | with_reducible apply reapModels_does
    | with_reducible apply refuse_does
    | with_reducible apply finish_does
    | split

theorem dropChains_does {fs₀ s₀ n s} (h₀ : Does fs₀ s₀ s) (hf₀ : Fld.within [.chains] fs₀ = true) :
    Does fs₀ s₀ (dropChains n s) := by
  refine h₀.trans ?_ hf₀
  clear h₀ hf₀
  unfold dropChains
  try dsimp only
  all_goals repeat'
    first
    | with_reducible exact Does.refl _ _
    | decide
    | split
    | ((with_reducible refine Does.upd ?_ ?_ ?_); (on_goal 2 => exact rfl); (on_goal 2 => (intro f hf; cases f <;> first | exact absurd (by decide) hf | dsimp only [sameFld])))

theorem dropOldPacks_does {fs₀ s₀ s} (h₀ : Does fs₀ s₀ s) (hf₀ : Fld.within [.radio] fs₀ = true) :
    Does fs₀ s₀ (dropOldPacks s) := by
  refine h₀.trans ?_ hf₀
  clear h₀ hf₀
  unfold dropOldPacks
  try dsimp only
  all_goals repeat'
    first
    | with_reducible exact Does.refl _ _
    | decide
    | split
    | ((with_reducible refine Does.upd ?_ ?_ ?_); (on_goal 2 => exact rfl); (on_goal 2 => (intro f hf; cases f <;> first | exact absurd (by decide) hf | dsimp only [sameFld])))

theorem agePack_does {fs₀ s₀ id s} (h₀ : Does fs₀ s₀ s) (hf₀ : Fld.within [.radio] fs₀ = true) :
    Does fs₀ s₀ (agePack id s) := by
  refine h₀.trans ?_ hf₀
  clear h₀ hf₀
  unfold agePack
  try dsimp only
  all_goals repeat'
    first
    | with_reducible exact Does.refl _ _
    | decide
    | with_reducible apply dropOldPacks_does
    | split
    | ((with_reducible refine Does.upd ?_ ?_ ?_); (on_goal 2 => exact rfl); (on_goal 2 => (intro f hf; cases f <;> first | exact absurd (by decide) hf | dsimp only [sameFld])))

theorem packServed_does {fs₀ s₀ r d id bs s} (h₀ : Does fs₀ s₀ s) (hf₀ : Fld.within [.regs, .pairs, .funcs, .flights,
      .nextLoad, .radio, .fault, .out] fs₀ = true) :
    Does fs₀ s₀ (packServed r d id bs s) := by
  refine h₀.trans ?_ hf₀
  clear h₀ hf₀
  unfold packServed
  try dsimp only
  all_goals repeat'
    first
    | with_reducible exact Does.refl _ _
    | decide
    | with_reducible apply agePack_does
    | with_reducible apply finish_does
    | split
    | ((with_reducible refine Does.upd ?_ ?_ ?_); (on_goal 2 => exact rfl); (on_goal 2 => (intro f hf; cases f <;> first | exact absurd (by decide) hf | dsimp only [sameFld])))

theorem rxpackGo_does {fs₀ s₀ r d bs s} (h₀ : Does fs₀ s₀ s) (hf₀ : Fld.within [.regs, .pairs, .funcs, .flights, .nextLoad,
      .radio, .fault, .out] fs₀ = true) :
    Does fs₀ s₀ (rxpackGo r d bs s) := by
  refine h₀.trans ?_ hf₀
  clear h₀ hf₀
  unfold rxpackGo
  try dsimp only
  all_goals repeat'
    first
    | with_reducible exact Does.refl _ _
    | decide
    | with_reducible apply packServed_does
    | with_reducible apply refuseFull_does
    | with_reducible apply refuse_does
    | split

theorem rxpackDrop_does {fs₀ s₀ r id s} (h₀ : Does fs₀ s₀ s) (hf₀ : Fld.within [.regs, .pairs, .funcs, .flights, .radio,
      .fault, .out] fs₀ = true) :
    Does fs₀ s₀ (rxpackDrop r id s) := by
  refine h₀.trans ?_ hf₀
  clear h₀ hf₀
  unfold rxpackDrop
  try dsimp only
  all_goals repeat'
    first
    | with_reducible exact Does.refl _ _
    | decide
    | with_reducible apply agePack_does
    | with_reducible apply refuse_does
    | with_reducible apply finish_does
    | split

theorem execLoadCallsheet_does {fs₀ s₀ r image s t₀} (h₀ : Does fs₀ s₀ s) (e₀ : execLoadCallsheet r image s = .next t₀)
    (hf₀ : Fld.within [.regs, .pairs, .funcs, .flights, .mem, .tiles, .reels, .loaded, .nextLoad, .radio, .fault, .free,
      .out] fs₀ = true) : Does fs₀ s₀ t₀ := by
  refine h₀.trans ?_ hf₀
  clear h₀ hf₀
  unfold execLoadCallsheet at e₀
  (try dsimp only at e₀)
  first
  | cases e₀
  | ((repeat' split at e₀) <;> cases e₀)
  all_goals repeat'
    first
    | with_reducible exact Does.refl _ _
    | decide
    | with_reducible apply sheetGo_does
    | with_reducible apply withInput_does
    | with_reducible apply runDesc_does
    | with_reducible assumption
    | (intro a b h)
    | split

theorem execLoadModel_does {fs₀ s₀ r image s t₀} (h₀ : Does fs₀ s₀ s) (e₀ : execLoadModel r image s = .next t₀)
    (hf₀ : Fld.within [.regs, .pairs, .funcs, .flights, .mem, .tiles, .reels, .loaded, .nextLoad, .fault, .free,
      .out] fs₀ = true) : Does fs₀ s₀ t₀ := by
  refine h₀.trans ?_ hf₀
  clear h₀ hf₀
  unfold execLoadModel at e₀
  (try dsimp only at e₀)
  first
  | cases e₀
  | ((repeat' split at e₀) <;> cases e₀)
  all_goals repeat'
    first
    | with_reducible exact Does.refl _ _
    | decide
    | with_reducible apply modelGo_does
    | with_reducible apply withInput_does
    | with_reducible apply runDesc_does
    | with_reducible assumption
    | (intro a b h)
    | split

theorem execUnload_does {fs₀ s₀ r s t₀} (h₀ : Does fs₀ s₀ s) (e₀ : execUnload r s = .next t₀)
    (hf₀ : Fld.within [.regs, .pairs, .funcs, .flights, .reels, .loaded, .fault, .out] fs₀ = true) : Does fs₀ s₀ t₀ := by
  refine h₀.trans ?_ hf₀
  clear h₀ hf₀
  unfold execUnload at e₀
  (try dsimp only at e₀)
  first
  | cases e₀
  | ((repeat' split at e₀) <;> cases e₀)
  all_goals repeat'
    first
    | with_reducible exact Does.refl _ _
    | decide
    | with_reducible apply unloadGo_does
    | with_reducible apply runDesc_does
    | with_reducible assumption
    | (intro a b h)
    | split

theorem execSheetSwitch_does {fs₀ s₀ s t₀} (h₀ : Does fs₀ s₀ s) (e₀ : execSheetSwitch s = .next t₀)
    (hf₀ : Fld.within [.clk, .time, .tiles, .loaded, .radio] fs₀ = true) : Does fs₀ s₀ t₀ := by
  refine h₀.trans ?_ hf₀
  clear h₀ hf₀
  unfold execSheetSwitch at e₀
  (try dsimp only at e₀)
  first
  | cases e₀
  | ((repeat' split at e₀) <;> cases e₀)
  all_goals repeat'
    first
    | with_reducible exact Does.refl _ _
    | decide
    | with_reducible apply activate_does
    | with_reducible apply runToTime_does
    | split

theorem execSheetRelease_does {fs₀ s₀ sheet s t₀} (h₀ : Does fs₀ s₀ s) (e₀ : execSheetRelease sheet s = .next t₀)
    (hf₀ : Fld.within [.clk, .time, .reels, .loaded, .chains] fs₀ = true) : Does fs₀ s₀ t₀ := by
  refine h₀.trans ?_ hf₀
  clear h₀ hf₀
  unfold execSheetRelease at e₀
  (try dsimp only at e₀)
  first
  | cases e₀
  | ((repeat' split at e₀) <;> cases e₀)
  all_goals repeat'
    first
    | with_reducible exact Does.refl _ _
    | decide
    | with_reducible apply dropChains_does
    | with_reducible apply freeLoad_does
    | with_reducible apply runToTime_does
    | split

theorem execLoadRxpack_does {fs₀ s₀ r pack s t₀} (h₀ : Does fs₀ s₀ s) (e₀ : execLoadRxpack r pack s = .next t₀)
    (hf₀ : Fld.within [.regs, .pairs, .funcs, .flights, .mem, .nextLoad, .radio, .fault, .free,
      .out] fs₀ = true) : Does fs₀ s₀ t₀ := by
  refine h₀.trans ?_ hf₀
  clear h₀ hf₀
  unfold execLoadRxpack at e₀
  (try dsimp only at e₀)
  first
  | cases e₀
  | ((repeat' split at e₀) <;> cases e₀)
  all_goals repeat'
    first
    | with_reducible exact Does.refl _ _
    | decide
    | with_reducible apply rxpackDrop_does
    | with_reducible apply rxpackGo_does
    | with_reducible apply withInput_does
    | with_reducible apply runDesc_does
    | with_reducible apply refuse_does
    | with_reducible assumption
    | (intro a b h)
    | split

/-! ### CoreOps -/

theorem coreTrapAt_does {fs₀ s₀ n t code pc s} (h₀ : Does fs₀ s₀ s) (hf₀ : Fld.within [.regs, .pairs, .funcs, .flights, .mem,
      .tiles, .reels, .loaded, .chains, .items, .windows, .jobs, .radio, .flow, .splice, .fault, .free, .out] fs₀ = true) :
    Does fs₀ s₀ (coreTrapAt n t code pc s) := by
  refine h₀.trans ?_ hf₀
  clear h₀ hf₀
  unfold coreTrapAt
  try dsimp only
  all_goals repeat'
    first
    | with_reducible exact Does.refl _ _
    | decide
    | with_reducible apply endOwner_does
    | with_reducible apply setThread_does
    | with_reducible apply report_does
    | with_reducible apply wrf_does
    | with_reducible apply wr_does
    | split

theorem coreTrap_does {fs₀ s₀ n t code s} (h₀ : Does fs₀ s₀ s) (hf₀ : Fld.within [.regs, .pairs, .funcs, .flights, .mem,
      .tiles, .reels, .loaded, .chains, .items, .windows, .jobs, .radio, .flow, .splice, .fault, .free, .out] fs₀ = true) :
    Does fs₀ s₀ (coreTrap n t code s) := by
  refine h₀.trans ?_ hf₀
  clear h₀ hf₀
  unfold coreTrap
  try dsimp only
  all_goals repeat'
    first
    | with_reducible exact Does.refl _ _
    | decide
    | with_reducible apply coreTrapAt_does
    | split

/-- An instruction of a thread does what its effect does, retires, and otherwise what an exception does. -/
theorem coreStep_does {fs₀ s₀ n t legal f s} (h₀ : Does fs₀ s₀ s)
    (hf : ∀ a b, f a = .ok b → Does fs₀ s₀ a → Does fs₀ s₀ b) (hf₀ : Fld.within [.regs, .pairs, .funcs, .flights, .mem,
      .tiles, .reels, .loaded, .chains, .items, .windows, .jobs, .radio, .flow, .splice, .fault, .free, .out] fs₀ = true) :
    Does fs₀ s₀ (coreStep n t legal f s) := by
  unfold coreStep
  split
  · split
    · split
      · rename_i e
        exact setThread_does (hf _ _ e h₀) (within_of_within (by decide) hf₀)
      · exact coreTrap_does h₀ hf₀
    · exact coreTrap_does h₀ hf₀
  · exact h₀

theorem bankStall_does {fs₀ s₀ n lost s} (h₀ : Does fs₀ s₀ s) (hf₀ : Fld.within [.regs] fs₀ = true) :
    Does fs₀ s₀ (bankStall n lost s) := by
  refine h₀.trans ?_ hf₀
  clear h₀ hf₀
  unfold bankStall
  try dsimp only
  all_goals repeat'
    first
    | with_reducible exact Does.refl _ _
    | decide
    | with_reducible apply bump_does
    | split

theorem coreReg_does {fs₀ s₀ n t legal f s} (h₀ : Does fs₀ s₀ s) (hf₀ : Fld.within [.regs, .pairs, .funcs, .flights, .mem,
      .tiles, .reels, .loaded, .chains, .items, .windows, .jobs, .radio, .flow, .splice, .fault, .free, .out] fs₀ = true) :
    Does fs₀ s₀ (coreReg n t legal f s) := by
  unfold coreReg
  refine coreStep_does h₀ (fun a b e h => ?_) hf₀
  cases e
  exact setThread_does h (within_of_within (by decide) hf₀)

/-! ### Matrix -/

theorem runPass_does {fs₀ s₀ n k h st row count acc image role s} (h₀ : Does fs₀ s₀ s) (hf₀ : Fld.within [.regs, .funcs,
      .tiles, .out] fs₀ = true) :
    Does fs₀ s₀ (runPass n k h st row count acc image role s) := by
  refine h₀.trans ?_ hf₀
  clear h₀ hf₀
  unfold runPass
  try dsimp only
  all_goals repeat'
    first
    | with_reducible exact Does.refl _ _
    | decide
    | with_reducible apply setTile_does
    | with_reducible apply raise_does
    | with_reducible apply bump_does
    | split

theorem runRead_does {fs₀ s₀ n k h p sb s} (h₀ : Does fs₀ s₀ s) (hf₀ : Fld.within [.mem, .free] fs₀ = true) :
    Does fs₀ s₀ (runRead n k h p sb s) := by
  refine h₀.trans ?_ hf₀
  clear h₀ hf₀
  unfold runRead
  try dsimp only
  all_goals repeat'
    first
    | with_reducible exact Does.refl _ _
    | decide
    | with_reducible apply memPut_does
    | split
    | ((with_reducible refine Does.upd ?_ ?_ ?_); (on_goal 2 => exact rfl); (on_goal 2 => (intro f hf; cases f <;> first | exact absurd (by decide) hf | dsimp only [sameFld])))

theorem runClear_does {fs₀ s₀ n k p s} (h₀ : Does fs₀ s₀ s) (hf₀ : Fld.within [.tiles] fs₀ = true) :
    Does fs₀ s₀ (runClear n k p s) := by
  refine h₀.trans ?_ hf₀
  clear h₀ hf₀
  unfold runClear
  try dsimp only
  all_goals repeat'
    first
    | with_reducible exact Does.refl _ _
    | decide
    | with_reducible apply setTile_does
    | split

theorem runOp_does {fs₀ s₀ n k o s} (h₀ : Does fs₀ s₀ s) (hf₀ : Fld.within [.regs, .funcs, .mem, .tiles, .free,
      .out] fs₀ = true) :
    Does fs₀ s₀ (runOp n k o s) := by
  refine h₀.trans ?_ hf₀
  clear h₀ hf₀
  unfold runOp
  try dsimp only
  all_goals repeat'
    first
    | with_reducible exact Does.refl _ _
    | decide
    | with_reducible apply runClear_does
    | with_reducible apply runRead_does
    | with_reducible apply runPass_does
    | with_reducible apply setTile_does
    | split

theorem queueOp_does {fs₀ s₀ n k o s} (h₀ : Does fs₀ s₀ s) (hf₀ : Fld.within [.tiles] fs₀ = true) :
    Does fs₀ s₀ (queueOp n k o s) := by
  refine h₀.trans ?_ hf₀
  clear h₀ hf₀
  unfold queueOp
  try dsimp only
  all_goals repeat'
    first
    | with_reducible exact Does.refl _ _
    | decide
    | with_reducible apply setTile_does
    | split

theorem startQueued_does {fs₀ s₀ n k o s} (h₀ : Does fs₀ s₀ s) (hf₀ : Fld.within [.regs, .pairs, .funcs, .flights, .mem,
      .tiles, .reels, .loaded, .chains, .items, .windows, .jobs, .radio, .flow, .splice, .fault, .free, .out] fs₀ = true) :
    Does fs₀ s₀ (startQueued n k o s) := by
  refine h₀.trans ?_ hf₀
  clear h₀ hf₀
  unfold startQueued
  try dsimp only
  all_goals repeat'
    first
    | with_reducible exact Does.refl _ _
    | decide
    | with_reducible apply runOp_does
    | with_reducible apply coreTrapAt_does
    | with_reducible apply setTile_does
    | split

theorem pumpThr_does {fs₀ s₀ n k t x4 x5} (h₀ : Does fs₀ s₀ x5) (hf₀ : Fld.within [.regs, .pairs, .funcs, .flights, .mem,
      .tiles, .reels, .loaded, .chains, .items, .windows, .jobs, .radio, .flow, .splice, .fault, .free, .out] fs₀ = true) :
    Does fs₀ s₀ (pumpThr n k t x4 x5) := by
  refine h₀.trans ?_ hf₀
  clear h₀ hf₀
  fun_induction pumpThr n k t x4 x5
  all_goals try dsimp +zetaDelta only
  all_goals repeat'
    first
    | with_reducible exact Does.refl _ _
    | decide
    | with_reducible refine Does.trans ?_ (by assumption) ?_
    | with_reducible apply startQueued_does
    | split

theorem pumpArr_does {fs₀ s₀ n k s} (h₀ : Does fs₀ s₀ s) (hf₀ : Fld.within [.regs, .pairs, .funcs, .flights, .mem, .tiles,
      .reels, .loaded, .chains, .items, .windows, .jobs, .radio, .flow, .splice, .fault, .free, .out] fs₀ = true) :
    Does fs₀ s₀ (pumpArr n k s) := by
  refine h₀.trans ?_ hf₀
  clear h₀ hf₀
  unfold pumpArr
  try dsimp only
  all_goals repeat'
    first
    | with_reducible exact Does.refl _ _
    | decide
    | with_reducible apply pumpThr_does
    | split

theorem pumpMask_does {fs₀ s₀ n m s} (h₀ : Does fs₀ s₀ s) (hf₀ : Fld.within [.regs, .pairs, .funcs, .flights, .mem, .tiles,
      .reels, .loaded, .chains, .items, .windows, .jobs, .radio, .flow, .splice, .fault, .free, .out] fs₀ = true) :
    Does fs₀ s₀ (pumpMask n m s) := by
  refine h₀.trans ?_ hf₀
  refine Does.foldl (fun s k => ?_) _ _
  split
  · exact pumpArr_does (Does.refl _ _) (by decide)
  · exact Does.refl _ _

theorem matIssue_does {fs₀ s₀ n t k legal lost kind s} (h₀ : Does fs₀ s₀ s) (hf₀ : Fld.within [.regs, .pairs, .funcs,
      .flights, .mem, .tiles, .reels, .loaded, .chains, .items, .windows, .jobs, .radio, .flow, .splice, .fault, .free,
      .out] fs₀ = true) :
    Does fs₀ s₀ (matIssue n t k legal lost kind s) := by
  refine h₀.trans ?_ hf₀
  clear h₀ hf₀
  unfold matIssue
  try dsimp only
  all_goals repeat'
    first
    | with_reducible exact Does.refl _ _
    | decide
    | with_reducible apply queueOp_does
    | with_reducible apply runOp_does
    | with_reducible apply coreStep_does
    | with_reducible apply bankStall_does
    | with_reducible assumption
    | (intro a b e h; (try dsimp only at e); (repeat' split at e); all_goals cases e)
    | split

theorem countHeld_does {fs₀ s₀ n m held s} (h₀ : Does fs₀ s₀ s) (hf₀ : Fld.within [.regs] fs₀ = true) :
    Does fs₀ s₀ (countHeld n m held s) := by
  refine h₀.trans ?_ hf₀
  clear h₀ hf₀
  unfold countHeld
  try dsimp only
  all_goals repeat'
    first
    | with_reducible exact Does.refl _ _
    | decide
    | with_reducible apply bump_does
    | split

theorem doCut_does {fs₀ s₀ n m s} (h₀ : Does fs₀ s₀ s) (hf₀ : Fld.within [.regs, .tiles] fs₀ = true) :
    Does fs₀ s₀ (doCut n m s) := by
  refine h₀.trans ?_ hf₀
  clear h₀ hf₀
  unfold doCut
  try dsimp only
  all_goals repeat'
    first
    | with_reducible exact Does.refl _ _
    | decide
    | with_reducible apply setTile_does
    | with_reducible apply bump_does
    | split

theorem closeWindows_does {fs₀ s₀ n m s} (h₀ : Does fs₀ s₀ s) (hf₀ : Fld.within [.regs, .items, .windows] fs₀ = true) :
    Does fs₀ s₀ (closeWindows n m s) := by
  refine h₀.trans ?_ hf₀
  clear h₀ hf₀
  unfold closeWindows
  try dsimp only
  all_goals repeat'
    first
    | with_reducible exact Does.refl _ _
    | decide
    | with_reducible apply dropWindows_does
    | split
    | ((with_reducible refine Does.upd ?_ ?_ ?_); (on_goal 2 => exact rfl); (on_goal 2 => (intro f hf; cases f <;> first | exact absurd (by decide) hf | dsimp only [sameFld])))

theorem closeUnopened_does {fs₀ s₀ n m s} (h₀ : Does fs₀ s₀ s) (hf₀ : Fld.within [.regs, .windows] fs₀ = true) :
    Does fs₀ s₀ (closeUnopened n m s) := by
  refine h₀.trans ?_ hf₀
  clear h₀ hf₀
  unfold closeUnopened
  try dsimp only
  all_goals repeat'
    first
    | with_reducible exact Does.refl _ _
    | decide
    | with_reducible apply dropWindows_does
    | split

theorem cutThrough_does {fs₀ s₀ n t m s} (h₀ : Does fs₀ s₀ s) (hf₀ : Fld.within [.regs, .tiles, .items, .windows] fs₀ = true) :
    Does fs₀ s₀ (cutThrough n t m s) := by
  refine h₀.trans ?_ hf₀
  clear h₀ hf₀
  unfold cutThrough
  try dsimp only
  all_goals repeat'
    first
    | with_reducible exact Does.refl _ _
    | decide
    | with_reducible apply closeUnopened_does
    | with_reducible apply closeWindows_does
    | with_reducible apply doCut_does
    | split

theorem cutPump_does {fs₀ s₀ n t m held s} (h₀ : Does fs₀ s₀ s) (hf₀ : Fld.within [.regs, .pairs, .funcs, .flights, .mem,
      .tiles, .reels, .loaded, .chains, .items, .windows, .jobs, .radio, .flow, .splice, .fault, .free, .out] fs₀ = true) :
    Does fs₀ s₀ (cutPump n t m held s) := by
  refine h₀.trans ?_ hf₀
  clear h₀ hf₀
  unfold cutPump
  try dsimp only
  all_goals repeat'
    first
    | with_reducible exact Does.refl _ _
    | decide
    | with_reducible apply cutThrough_does
    | with_reducible apply countHeld_does
    | with_reducible apply pumpMask_does
    | split

theorem releaseCut_does {fs₀ s₀ n t waited held s} (h₀ : Does fs₀ s₀ s) (hf₀ : Fld.within [.regs, .pairs, .funcs, .flights,
      .mem, .tiles, .reels, .loaded, .chains, .items, .windows, .jobs, .radio, .flow, .splice, .fault, .free,
      .out] fs₀ = true) :
    Does fs₀ s₀ (releaseCut n t waited held s) := by
  refine h₀.trans ?_ hf₀
  clear h₀ hf₀
  unfold releaseCut
  try dsimp only
  all_goals repeat'
    first
    | with_reducible exact Does.refl _ _
    | decide
    | with_reducible apply cutPump_does
    | with_reducible apply setThread_does
    | with_reducible apply bump_does
    | split

theorem windowLoaded_does {fs₀ s₀ n k s} (h₀ : Does fs₀ s₀ s) (hf₀ : Fld.within [.windows] fs₀ = true) :
    Does fs₀ s₀ (windowLoaded n k s) := by
  refine h₀.trans ?_ hf₀
  clear h₀ hf₀
  unfold windowLoaded
  try dsimp only
  all_goals repeat'
    first
    | with_reducible exact Does.refl _ _
    | decide
    | split
    | ((with_reducible refine Does.upd ?_ ?_ ?_); (on_goal 2 => exact rfl); (on_goal 2 => (intro f hf; cases f <;> first | exact absurd (by decide) hf | dsimp only [sameFld])))

theorem execShadowLoadStart_does {fs₀ s₀ n k waited s t₀} (h₀ : Does fs₀ s₀ s) (e₀ : execShadowLoadStart n k waited s = .next t₀)
    (hf₀ : Fld.within [.regs, .pairs, .funcs, .flights, .mem, .tiles, .reels, .loaded, .chains, .items, .windows, .jobs,
      .radio, .flow, .splice, .fault, .free, .out] fs₀ = true) : Does fs₀ s₀ t₀ := by
  refine h₀.trans ?_ hf₀
  clear h₀ hf₀
  unfold execShadowLoadStart at e₀
  (try dsimp only at e₀)
  first
  | cases e₀
  | ((repeat' split at e₀) <;> cases e₀)
  all_goals repeat'
    first
    | with_reducible exact Does.refl _ _
    | decide
    | with_reducible apply coreTrapAt_does
    | with_reducible apply setTile_does
    | with_reducible apply bump_does
    | split

theorem execMload_does {fs₀ s₀ n t f s t₀} (h₀ : Does fs₀ s₀ s) (e₀ : execMload n t f s = .next t₀)
    (hf₀ : Fld.within [.regs, .pairs, .funcs, .flights, .mem, .tiles, .reels, .loaded, .chains, .items, .windows, .jobs,
      .radio, .flow, .splice, .fault, .free, .out] fs₀ = true) : Does fs₀ s₀ t₀ := by
  refine h₀.trans ?_ hf₀
  clear h₀ hf₀
  unfold execMload at e₀
  (try dsimp only at e₀)
  first
  | cases e₀
  | ((repeat' split at e₀) <;> cases e₀)
  all_goals repeat'
    first
    | with_reducible exact Does.refl _ _
    | decide
    | with_reducible apply matIssue_does
    | with_reducible apply coreStep_does
    | with_reducible assumption
    | (intro a b e h; (try dsimp only at e); (repeat' split at e); all_goals cases e)
    | split

theorem execMpass_does {fs₀ s₀ n t f s t₀} (h₀ : Does fs₀ s₀ s) (e₀ : execMpass n t f s = .next t₀)
    (hf₀ : Fld.within [.regs, .pairs, .funcs, .flights, .mem, .tiles, .reels, .loaded, .chains, .items, .windows, .jobs,
      .radio, .flow, .splice, .fault, .free, .out] fs₀ = true) : Does fs₀ s₀ t₀ := by
  refine h₀.trans ?_ hf₀
  clear h₀ hf₀
  unfold execMpass at e₀
  (try dsimp only at e₀)
  first
  | cases e₀
  | ((repeat' split at e₀) <;> cases e₀)
  all_goals repeat'
    first
    | with_reducible exact Does.refl _ _
    | decide
    | with_reducible apply matIssue_does
    | with_reducible apply coreStep_does
    | with_reducible assumption
    | (intro a b e h; (try dsimp only at e); (repeat' split at e); all_goals cases e)
    | split

theorem execMread_does {fs₀ s₀ n t f s t₀} (h₀ : Does fs₀ s₀ s) (e₀ : execMread n t f s = .next t₀)
    (hf₀ : Fld.within [.regs, .pairs, .funcs, .flights, .mem, .tiles, .reels, .loaded, .chains, .items, .windows, .jobs,
      .radio, .flow, .splice, .fault, .free, .out] fs₀ = true) : Does fs₀ s₀ t₀ := by
  refine h₀.trans ?_ hf₀
  clear h₀ hf₀
  unfold execMread at e₀
  (try dsimp only at e₀)
  first
  | cases e₀
  | ((repeat' split at e₀) <;> cases e₀)
  all_goals repeat'
    first
    | with_reducible exact Does.refl _ _
    | decide
    | with_reducible apply matIssue_does
    | with_reducible apply coreStep_does
    | with_reducible assumption
    | (intro a b e h; (try dsimp only at e); (repeat' split at e); all_goals cases e)
    | split

theorem execMclr_does {fs₀ s₀ n t f s t₀} (h₀ : Does fs₀ s₀ s) (e₀ : execMclr n t f s = .next t₀)
    (hf₀ : Fld.within [.regs, .pairs, .funcs, .flights, .mem, .tiles, .reels, .loaded, .chains, .items, .windows, .jobs,
      .radio, .flow, .splice, .fault, .free, .out] fs₀ = true) : Does fs₀ s₀ t₀ := by
  refine h₀.trans ?_ hf₀
  clear h₀ hf₀
  unfold execMclr at e₀
  (try dsimp only at e₀)
  first
  | cases e₀
  | ((repeat' split at e₀) <;> cases e₀)
  all_goals repeat'
    first
    | with_reducible exact Does.refl _ _
    | decide
    | with_reducible apply matIssue_does
    | with_reducible apply coreStep_does
    | with_reducible assumption
    | (intro a b e h; (try dsimp only at e); (repeat' split at e); all_goals cases e)
    | split

theorem execCut_does {fs₀ s₀ n t f s t₀} (h₀ : Does fs₀ s₀ s) (e₀ : execCut n t f s = .next t₀)
    (hf₀ : Fld.within [.regs, .pairs, .funcs, .flights, .mem, .tiles, .reels, .loaded, .chains, .items, .windows, .jobs,
      .radio, .flow, .splice, .fault, .free, .out] fs₀ = true) : Does fs₀ s₀ t₀ := by
  refine h₀.trans ?_ hf₀
  clear h₀ hf₀
  unfold execCut at e₀
  (try dsimp only at e₀)
  first
  | cases e₀
  | ((repeat' split at e₀) <;> cases e₀)
  all_goals repeat'
    first
    | with_reducible exact Does.refl _ _
    | decide
    | with_reducible apply cutPump_does
    | with_reducible apply coreStep_does
    | with_reducible apply setThread_does
    | with_reducible assumption
    | (intro a b e h; (try dsimp only at e); (repeat' split at e); all_goals cases e)
    | split

theorem execShadowLoadComplete_does {fs₀ s₀ n k waits s t₀} (h₀ : Does fs₀ s₀ s) (e₀ : execShadowLoadComplete n k waits s = .next t₀)
    (hf₀ : Fld.within [.regs, .pairs, .funcs, .flights, .mem, .tiles, .reels, .loaded, .chains, .items, .windows, .jobs,
      .radio, .flow, .splice, .fault, .free, .out] fs₀ = true) : Does fs₀ s₀ t₀ := by
  refine h₀.trans ?_ hf₀
  clear h₀ hf₀
  unfold execShadowLoadComplete at e₀
  (try dsimp only at e₀)
  first
  | cases e₀
  | ((repeat' split at e₀) <;> cases e₀)
  all_goals repeat'
    first
    | with_reducible exact Does.refl _ _
    | decide
    | with_reducible apply windowLoaded_does
    | with_reducible apply releaseCut_does
    | with_reducible apply pumpArr_does
    | with_reducible apply setTile_does
    | split

/-! ### CoreSys -/

theorem resume_does {fs₀ s₀ n t f s} (h₀ : Does fs₀ s₀ s) (hf₀ : Fld.within [.tiles] fs₀ = true) :
    Does fs₀ s₀ (resume n t f s) := by
  refine h₀.trans ?_ hf₀
  clear h₀ hf₀
  unfold resume
  try dsimp only
  all_goals repeat'
    first
    | with_reducible exact Does.refl _ _
    | decide
    | with_reducible apply setThread_does
    | split

theorem pushReel_does {fs₀ s₀ r h s} (h₀ : Does fs₀ s₀ s) (hf₀ : Fld.within [.reels] fs₀ = true) :
    Does fs₀ s₀ (pushReel r h s) := by
  refine h₀.trans ?_ hf₀
  clear h₀ hf₀
  unfold pushReel
  try dsimp only
  all_goals repeat'
    first
    | with_reducible exact Does.refl _ _
    | decide
    | with_reducible apply setReel_does
    | split

theorem reelReject_does {fs₀ s₀ n r w s} (h₀ : Does fs₀ s₀ s) (hf₀ : Fld.within [.regs, .funcs, .fault, .out] fs₀ = true) :
    Does fs₀ s₀ (reelReject n r w s) := by
  refine h₀.trans ?_ hf₀
  clear h₀ hf₀
  unfold reelReject
  try dsimp only
  all_goals repeat'
    first
    | with_reducible exact Does.refl _ _
    | decide
    | with_reducible apply report_does
    | with_reducible apply raise_does
    | with_reducible apply bump_does
    | split

theorem popTo_does {fs₀ s₀ n t d r s} (h₀ : Does fs₀ s₀ s) (hf₀ : Fld.within [.tiles, .reels] fs₀ = true) :
    Does fs₀ s₀ (popTo n t d r s) := by
  refine h₀.trans ?_ hf₀
  clear h₀ hf₀
  unfold popTo
  try dsimp only
  all_goals repeat'
    first
    | with_reducible exact Does.refl _ _
    | decide
    | with_reducible apply setReel_does
    | with_reducible apply setThread_does
    | split

theorem usePair_does {fs₀ s₀ d s} (h₀ : Does fs₀ s₀ s) (hf₀ : Fld.within [.free] fs₀ = true) :
    Does fs₀ s₀ (usePair d s) := by
  refine h₀.trans ?_ hf₀
  clear h₀ hf₀
  unfold usePair
  try dsimp only
  all_goals repeat'
    first
    | with_reducible exact Does.refl _ _
    | decide
    | with_reducible apply useFree_does
    | split

theorem atomIssue_does {fs₀ s₀ n t f legal op s} (h₀ : Does fs₀ s₀ s) (hf₀ : Fld.within [.regs, .pairs, .funcs, .flights,
      .mem, .tiles, .reels, .loaded, .chains, .items, .windows, .jobs, .radio, .flow, .splice, .fault, .free,
      .out] fs₀ = true) :
    Does fs₀ s₀ (atomIssue n t f legal op s) := by
  refine h₀.trans ?_ hf₀
  clear h₀ hf₀
  unfold atomIssue
  split
  · exact Does.refl _ _
  refine coreStep_does (Does.refl _ _) (fun a b e h => ?_) (by decide)
  dsimp only at e
  repeat' split at e
  all_goals cases e
  all_goals
    refine h.trans ?_ (m := [.regs, .pairs, .funcs, .flights, .mem, .tiles, .reels, .loaded, .chains, .items, .windows,
      .jobs, .radio, .flow, .splice, .fault, .free, .out]) (by decide)
    with_reducible refine Does.upd ?_ ?_ ?_
    · first
      | with_reducible exact Does.refl _ _
      | (with_reducible apply usePair_does
         · exact Does.refl _ _
         · decide)
    · rfl
    · intro f hf
      cases f <;> first | exact absurd (by decide) hf | dsimp only [sameFld]

theorem putKeep_does {fs₀ s₀ a bs s} (h₀ : Does fs₀ s₀ s) (hf₀ : Fld.within [.mem] fs₀ = true) :
    Does fs₀ s₀ (putKeep a bs s) := by
  refine h₀.trans ?_ hf₀
  clear h₀ hf₀
  unfold putKeep
  try dsimp only
  all_goals repeat'
    first
    | with_reducible exact Does.refl _ _
    | decide
    | with_reducible apply memMark_does
    | with_reducible apply memPut_does
    | split

theorem applyAtom_does {fs₀ s₀ o s} (h₀ : Does fs₀ s₀ s) (hf₀ : Fld.within [.regs, .funcs, .mem, .out] fs₀ = true) :
    Does fs₀ s₀ (applyAtom o s) := by
  refine h₀.trans ?_ hf₀
  clear h₀ hf₀
  unfold applyAtom
  try dsimp only
  all_goals repeat'
    first
    | with_reducible exact Does.refl _ _
    | decide
    | with_reducible apply putKeep_does
    | with_reducible apply wcFlushLine_does
    | with_reducible apply raise_does
    | with_reducible apply bump_does
    | split

theorem execCcNop_does {fs₀ s₀ n t s t₀} (h₀ : Does fs₀ s₀ s) (e₀ : execCcNop n t s = .next t₀)
    (hf₀ : Fld.within [.regs, .pairs, .funcs, .flights, .mem, .tiles, .reels, .loaded, .chains, .items, .windows, .jobs,
      .radio, .flow, .splice, .fault, .free, .out] fs₀ = true) : Does fs₀ s₀ t₀ := by
  refine h₀.trans ?_ hf₀
  clear h₀ hf₀
  unfold execCcNop at e₀
  (try dsimp only at e₀)
  first
  | cases e₀
  | ((repeat' split at e₀) <;> cases e₀)
  all_goals repeat'
    first
    | with_reducible exact Does.refl _ _
    | decide
    | with_reducible apply coreReg_does
    | split

theorem execHalt_does {fs₀ s₀ n t s t₀} (h₀ : Does fs₀ s₀ s) (e₀ : execHalt n t s = .next t₀)
    (hf₀ : Fld.within [.tiles] fs₀ = true) : Does fs₀ s₀ t₀ := by
  refine h₀.trans ?_ hf₀
  clear h₀ hf₀
  unfold execHalt at e₀
  (try dsimp only at e₀)
  first
  | cases e₀
  | ((repeat' split at e₀) <;> cases e₀)
  all_goals repeat'
    first
    | with_reducible exact Does.refl _ _
    | decide
    | with_reducible apply setThread_does
    | split

theorem execSync_does {fs₀ s₀ n t units s t₀} (h₀ : Does fs₀ s₀ s) (e₀ : execSync n t units s = .next t₀)
    (hf₀ : Fld.within [.regs, .pairs, .funcs, .flights, .mem, .tiles, .reels, .loaded, .chains, .items, .windows, .jobs,
      .radio, .flow, .splice, .fault, .free, .out] fs₀ = true) : Does fs₀ s₀ t₀ := by
  refine h₀.trans ?_ hf₀
  clear h₀ hf₀
  unfold execSync at e₀
  (try dsimp only at e₀)
  first
  | cases e₀
  | ((repeat' split at e₀) <;> cases e₀)
  all_goals repeat'
    first
    | with_reducible exact Does.refl _ _
    | decide
    | with_reducible apply coreReg_does
    | with_reducible apply setThread_does
    | split

theorem execSyncComplete_does {fs₀ s₀ n t s t₀} (h₀ : Does fs₀ s₀ s) (e₀ : execSyncComplete n t s = .next t₀)
    (hf₀ : Fld.within [.tiles] fs₀ = true) : Does fs₀ s₀ t₀ := by
  refine h₀.trans ?_ hf₀
  clear h₀ hf₀
  unfold execSyncComplete at e₀
  (try dsimp only at e₀)
  first
  | cases e₀
  | ((repeat' split at e₀) <;> cases e₀)
  all_goals repeat'
    first
    | with_reducible exact Does.refl _ _
    | decide
    | with_reducible apply resume_does
    | split

theorem execMfs_does {fs₀ s₀ n t f s t₀} (h₀ : Does fs₀ s₀ s) (e₀ : execMfs n t f s = .next t₀)
    (hf₀ : Fld.within [.regs, .pairs, .funcs, .flights, .mem, .tiles, .reels, .loaded, .chains, .items, .windows, .jobs,
      .radio, .flow, .splice, .fault, .free, .out] fs₀ = true) : Does fs₀ s₀ t₀ := by
  refine h₀.trans ?_ hf₀
  clear h₀ hf₀
  unfold execMfs at e₀
  (try dsimp only at e₀)
  first
  | cases e₀
  | ((repeat' split at e₀) <;> cases e₀)
  all_goals repeat'
    first
    | with_reducible exact Does.refl _ _
    | decide
    | with_reducible apply coreStep_does
    | with_reducible apply setThread_does
    | with_reducible assumption
    | (intro a b e h; (try dsimp only at e); (repeat' split at e); all_goals cases e)
    | split

theorem execMts_does {fs₀ s₀ n t f s t₀} (h₀ : Does fs₀ s₀ s) (e₀ : execMts n t f s = .next t₀)
    (hf₀ : Fld.within [.regs, .pairs, .funcs, .flights, .mem, .tiles, .reels, .loaded, .chains, .items, .windows, .jobs,
      .radio, .flow, .splice, .fault, .free, .out] fs₀ = true) : Does fs₀ s₀ t₀ := by
  refine h₀.trans ?_ hf₀
  clear h₀ hf₀
  unfold execMts at e₀
  (try dsimp only at e₀)
  first
  | cases e₀
  | ((repeat' split at e₀) <;> cases e₀)
  all_goals repeat'
    first
    | with_reducible exact Does.refl _ _
    | decide
    | with_reducible apply coreStep_does
    | with_reducible apply setThread_does
    | with_reducible apply useFree_does
    | with_reducible assumption
    | (intro a b e h; (try dsimp only at e); (repeat' split at e); all_goals cases e)
    | split

theorem execRpush_does {fs₀ s₀ n t f s t₀} (h₀ : Does fs₀ s₀ s) (e₀ : execRpush n t f s = .next t₀)
    (hf₀ : Fld.within [.regs, .pairs, .funcs, .flights, .mem, .tiles, .reels, .loaded, .chains, .items, .windows, .jobs,
      .radio, .flow, .splice, .fault, .free, .out] fs₀ = true) : Does fs₀ s₀ t₀ := by
  refine h₀.trans ?_ hf₀
  clear h₀ hf₀
  unfold execRpush at e₀
  (try dsimp only at e₀)
  first
  | cases e₀
  | ((repeat' split at e₀) <;> cases e₀)
  all_goals repeat'
    first
    | with_reducible exact Does.refl _ _
    | decide
    | with_reducible apply reelReject_does
    | with_reducible apply pushReel_does
    | with_reducible apply coreStep_does
    | with_reducible apply setThread_does
    | with_reducible assumption
    | (intro a b e h; (try dsimp only at e); (repeat' split at e); all_goals cases e)
    | split

theorem execRpushResume_does {fs₀ s₀ n t s t₀} (h₀ : Does fs₀ s₀ s) (e₀ : execRpushResume n t s = .next t₀)
    (hf₀ : Fld.within [.tiles, .reels] fs₀ = true) : Does fs₀ s₀ t₀ := by
  refine h₀.trans ?_ hf₀
  clear h₀ hf₀
  unfold execRpushResume at e₀
  (try dsimp only at e₀)
  first
  | cases e₀
  | ((repeat' split at e₀) <;> cases e₀)
  all_goals repeat'
    first
    | with_reducible exact Does.refl _ _
    | decide
    | with_reducible apply pushReel_does
    | with_reducible apply resume_does
    | split

theorem execRpop_does {fs₀ s₀ n t f s t₀} (h₀ : Does fs₀ s₀ s) (e₀ : execRpop n t f s = .next t₀)
    (hf₀ : Fld.within [.regs, .pairs, .funcs, .flights, .mem, .tiles, .reels, .loaded, .chains, .items, .windows, .jobs,
      .radio, .flow, .splice, .fault, .free, .out] fs₀ = true) : Does fs₀ s₀ t₀ := by
  refine h₀.trans ?_ hf₀
  clear h₀ hf₀
  unfold execRpop at e₀
  (try dsimp only at e₀)
  first
  | cases e₀
  | ((repeat' split at e₀) <;> cases e₀)
  all_goals repeat'
    first
    | with_reducible exact Does.refl _ _
    | decide
    | with_reducible apply popTo_does
    | with_reducible apply reelReject_does
    | with_reducible apply coreStep_does
    | with_reducible apply setThread_does
    | with_reducible assumption
    | (intro a b e h; (try dsimp only at e); (repeat' split at e); all_goals cases e)
    | split

theorem execRpopResume_does {fs₀ s₀ n t s t₀} (h₀ : Does fs₀ s₀ s) (e₀ : execRpopResume n t s = .next t₀)
    (hf₀ : Fld.within [.tiles, .reels] fs₀ = true) : Does fs₀ s₀ t₀ := by
  refine h₀.trans ?_ hf₀
  clear h₀ hf₀
  unfold execRpopResume at e₀
  (try dsimp only at e₀)
  first
  | cases e₀
  | ((repeat' split at e₀) <;> cases e₀)
  all_goals repeat'
    first
    | with_reducible exact Does.refl _ _
    | decide
    | with_reducible apply popTo_does
    | with_reducible apply resume_does
    | split

theorem execDkick_does {fs₀ s₀ n t f s t₀} (h₀ : Does fs₀ s₀ s) (e₀ : execDkick n t f s = .next t₀)
    (hf₀ : Fld.within [.regs, .pairs, .funcs, .flights, .mem, .tiles, .reels, .loaded, .chains, .items, .windows, .jobs,
      .radio, .flow, .splice, .fault, .free, .out] fs₀ = true) : Does fs₀ s₀ t₀ := by
  refine h₀.trans ?_ hf₀
  clear h₀ hf₀
  unfold execDkick at e₀
  (try dsimp only at e₀)
  first
  | cases e₀
  | ((repeat' split at e₀) <;> cases e₀)
  all_goals repeat'
    first
    | with_reducible exact Does.refl _ _
    | decide
    | with_reducible apply coreStep_does
    | with_reducible apply setTile_does
    | with_reducible assumption
    | (intro a b e h; (try dsimp only at e); (repeat' split at e); all_goals cases e)
    | split

theorem execCuewait_does {fs₀ s₀ n t f s t₀} (h₀ : Does fs₀ s₀ s) (e₀ : execCuewait n t f s = .next t₀)
    (hf₀ : Fld.within [.regs, .pairs, .funcs, .flights, .mem, .tiles, .reels, .loaded, .chains, .items, .windows, .jobs,
      .radio, .flow, .splice, .fault, .free, .out] fs₀ = true) : Does fs₀ s₀ t₀ := by
  refine h₀.trans ?_ hf₀
  clear h₀ hf₀
  unfold execCuewait at e₀
  (try dsimp only at e₀)
  first
  | cases e₀
  | ((repeat' split at e₀) <;> cases e₀)
  all_goals repeat'
    first
    | with_reducible exact Does.refl _ _
    | decide
    | with_reducible apply usePair_does
    | with_reducible apply coreStep_does
    | with_reducible apply violateFree_does
    | with_reducible apply setThread_does
    | with_reducible assumption
    | (intro a b e h; (try dsimp only at e); (repeat' split at e); all_goals cases e)
    | split

theorem execAadd_does {fs₀ s₀ n t f s t₀} (h₀ : Does fs₀ s₀ s) (e₀ : execAadd n t f s = .next t₀)
    (hf₀ : Fld.within [.regs, .pairs, .funcs, .flights, .mem, .tiles, .reels, .loaded, .chains, .items, .windows, .jobs,
      .radio, .flow, .splice, .fault, .free, .out] fs₀ = true) : Does fs₀ s₀ t₀ := by
  refine h₀.trans ?_ hf₀
  clear h₀ hf₀
  unfold execAadd at e₀
  (try dsimp only at e₀)
  first
  | cases e₀
  | ((repeat' split at e₀) <;> cases e₀)
  all_goals repeat'
    first
    | with_reducible exact Does.refl _ _
    | decide
    | with_reducible apply atomIssue_does
    | split

theorem execAmm_does {fs₀ s₀ n t f s t₀} (h₀ : Does fs₀ s₀ s) (e₀ : execAmm n t f s = .next t₀)
    (hf₀ : Fld.within [.regs, .pairs, .funcs, .flights, .mem, .tiles, .reels, .loaded, .chains, .items, .windows, .jobs,
      .radio, .flow, .splice, .fault, .free, .out] fs₀ = true) : Does fs₀ s₀ t₀ := by
  refine h₀.trans ?_ hf₀
  clear h₀ hf₀
  unfold execAmm at e₀
  (try dsimp only at e₀)
  first
  | cases e₀
  | ((repeat' split at e₀) <;> cases e₀)
  all_goals repeat'
    first
    | with_reducible exact Does.refl _ _
    | decide
    | with_reducible apply atomIssue_does
    | split

theorem execAtomicApply_does {fs₀ s₀ n t s t₀} (h₀ : Does fs₀ s₀ s) (e₀ : execAtomicApply n t s = .next t₀)
    (hf₀ : Fld.within [.regs, .funcs, .mem, .out] fs₀ = true) : Does fs₀ s₀ t₀ := by
  refine h₀.trans ?_ hf₀
  clear h₀ hf₀
  unfold execAtomicApply at e₀
  (try dsimp only at e₀)
  first
  | cases e₀
  | ((repeat' split at e₀) <;> cases e₀)
  all_goals repeat'
    first
    | with_reducible exact Does.refl _ _
    | decide
    | with_reducible apply applyAtom_does
    | split
    | ((with_reducible refine Does.upd ?_ ?_ ?_); (on_goal 2 => exact rfl); (on_goal 2 => (intro f hf; cases f <;> first | exact absurd (by decide) hf | dsimp only [sameFld])))

/-! ### Dolly -/

theorem setListOf_does {fs₀ s₀ n t new s} (h₀ : Does fs₀ s₀ s) (hf₀ : Fld.within [.tiles] fs₀ = true) :
    Does fs₀ s₀ (setListOf n t new s) := by
  refine h₀.trans ?_ hf₀
  clear h₀ hf₀
  unfold setListOf
  try dsimp only
  all_goals repeat'
    first
    | with_reducible exact Does.refl _ _
    | decide
    | with_reducible apply setTile_does
    | split

theorem issueXfer_does {fs₀ s₀ n t s t₀} (h₀ : Does fs₀ s₀ s) (e₀ : issueXfer n t s = some t₀)
    (hf₀ : Fld.within [.mem, .tiles] fs₀ = true) : Does fs₀ s₀ t₀ := by
  unfold issueXfer at e₀
  repeat' split at e₀
  all_goals cases e₀
  exact rqPush_does (setListOf_does h₀ (within_of_within (by decide) hf₀)) (within_of_within (by decide) hf₀)

theorem issueAll_does {fs₀ s₀ n t k s} (h₀ : Does fs₀ s₀ s) (hf₀ : Fld.within [.mem, .tiles] fs₀ = true) :
    Does fs₀ s₀ (issueAll n t k s) := by
  induction k generalizing s with
  | zero => exact h₀
  | succ k ih =>
    unfold issueAll
    split
    · rename_i e
      exact ih (issueXfer_does h₀ e (within_of_within (by decide) hf₀))
    · exact h₀

theorem setCodecIn_does {fs₀ s₀ k l s} (h₀ : Does fs₀ s₀ s) (hf₀ : Fld.within [.mem] fs₀ = true) :
    Does fs₀ s₀ (setCodecIn k l s) := by
  refine h₀.trans ?_ hf₀
  clear h₀ hf₀
  unfold setCodecIn
  try dsimp only
  all_goals repeat'
    first
    | with_reducible exact Does.refl _ _
    | decide
    | split
    | ((with_reducible refine Does.upd ?_ ?_ ?_); (on_goal 2 => exact rfl); (on_goal 2 => (intro f hf; cases f <;> first | exact absurd (by decide) hf | dsimp only [sameFld])))

theorem setCodecOut_does {fs₀ s₀ k l s} (h₀ : Does fs₀ s₀ s) (hf₀ : Fld.within [.mem] fs₀ = true) :
    Does fs₀ s₀ (setCodecOut k l s) := by
  refine h₀.trans ?_ hf₀
  clear h₀ hf₀
  unfold setCodecOut
  try dsimp only
  all_goals repeat'
    first
    | with_reducible exact Does.refl _ _
    | decide
    | split
    | ((with_reducible refine Does.upd ?_ ?_ ?_); (on_goal 2 => exact rfl); (on_goal 2 => (intro f hf; cases f <;> first | exact absurd (by decide) hf | dsimp only [sameFld])))

theorem countFed_does {fs₀ s₀ b s} (h₀ : Does fs₀ s₀ s) (hf₀ : Fld.within [.tiles] fs₀ = true) :
    Does fs₀ s₀ (countFed b s) := by
  refine h₀.trans ?_ hf₀
  clear h₀ hf₀
  unfold countFed
  try dsimp only
  all_goals repeat'
    first
    | with_reducible exact Does.refl _ _
    | decide
    | with_reducible apply setListOf_does
    | split

theorem acceptBlock_does {fs₀ s₀ k s t₀} (h₀ : Does fs₀ s₀ s) (e₀ : acceptBlock k s = some t₀)
    (hf₀ : Fld.within [.mem, .tiles, .rounds] fs₀ = true) : Does fs₀ s₀ t₀ := by
  unfold acceptBlock at e₀
  split at e₀
  · cases e₀
  · dsimp only at e₀
    split at e₀
    · cases e₀
    · simp only [Option.map_eq_some_iff] at e₀
      obtain ⟨x, _, rfl⟩ := e₀
      refine setCodecIn_does (countFed_does ?_ (within_of_within (by decide) hf₀)) (within_of_within (by decide) hf₀)
      split
      · exact h₀
      · exact grantTo_does h₀ (within_of_within (by decide) hf₀)

theorem feedPipe_does {fs₀ s₀ k m s} (h₀ : Does fs₀ s₀ s) (hf₀ : Fld.within [.mem, .tiles, .rounds] fs₀ = true) :
    Does fs₀ s₀ (feedPipe k m s) := by
  induction m generalizing s with
  | zero => exact h₀
  | succ m ih =>
    unfold feedPipe
    split
    · rename_i e
      exact ih (acceptBlock_does h₀ e (within_of_within (by decide) hf₀))
    · exact h₀

theorem feedPipes_does {fs₀ s₀ x1 x2} (h₀ : Does fs₀ s₀ x2) (hf₀ : Fld.within [.mem, .tiles, .rounds] fs₀ = true) :
    Does fs₀ s₀ (feedPipes x1 x2) := by
  refine h₀.trans ?_ hf₀
  clear h₀ hf₀
  fun_induction feedPipes x1 x2
  all_goals try dsimp +zetaDelta only
  all_goals repeat'
    first
    | with_reducible exact Does.refl _ _
    | decide
    | with_reducible refine Does.trans ?_ (by assumption) ?_
    | with_reducible apply feedPipe_does
    | split

theorem pumpTile_does {fs₀ s₀ n s} (h₀ : Does fs₀ s₀ s) (hf₀ : Fld.within [.regs, .mem, .tiles, .rounds] fs₀ = true) :
    Does fs₀ s₀ (pumpTile n s) := by
  refine h₀.trans ?_ hf₀
  clear h₀ hf₀
  unfold pumpTile
  try dsimp only
  all_goals repeat'
    first
    | with_reducible exact Does.refl _ _
    | decide
    | with_reducible apply feedPipes_does
    | with_reducible apply issueAll_does
    | with_reducible apply peak_does
    | split

theorem pumpTiles_does {fs₀ s₀ x1 x2} (h₀ : Does fs₀ s₀ x2) (hf₀ : Fld.within [.regs, .mem, .tiles, .rounds] fs₀ = true) :
    Does fs₀ s₀ (pumpTiles x1 x2) := by
  refine h₀.trans ?_ hf₀
  clear h₀ hf₀
  fun_induction pumpTiles x1 x2
  all_goals try dsimp +zetaDelta only
  all_goals repeat'
    first
    | with_reducible exact Does.refl _ _
    | decide
    | with_reducible refine Does.trans ?_ (by assumption) ?_
    | with_reducible apply pumpTile_does
    | split

theorem pumpDolly_does {fs₀ s₀ s} (h₀ : Does fs₀ s₀ s) (hf₀ : Fld.within [.regs, .mem, .tiles, .rounds] fs₀ = true) :
    Does fs₀ s₀ (pumpDolly s) := by
  refine h₀.trans ?_ hf₀
  clear h₀ hf₀
  unfold pumpDolly
  try dsimp only
  all_goals repeat'
    first
    | with_reducible exact Does.refl _ _
    | decide
    | with_reducible apply pumpTiles_does
    | split

theorem putList_does {fs₀ s₀ n t l s} (h₀ : Does fs₀ s₀ s) (hf₀ : Fld.within [.regs, .mem, .tiles, .rounds] fs₀ = true) :
    Does fs₀ s₀ (putList n t l s) := by
  refine h₀.trans ?_ hf₀
  clear h₀ hf₀
  unfold putList
  try dsimp only
  all_goals repeat'
    first
    | with_reducible exact Does.refl _ _
    | decide
    | with_reducible apply pumpDolly_does
    | with_reducible apply setListOf_does
    | split

theorem dollyError_does {fs₀ s₀ n t l cause s} (h₀ : Does fs₀ s₀ s) (hf₀ : Fld.within [.regs, .mem, .tiles, .rounds,
      .fault] fs₀ = true) :
    Does fs₀ s₀ (dollyError n t l cause s) := by
  refine h₀.trans ?_ hf₀
  clear h₀ hf₀
  unfold dollyError
  try dsimp only
  all_goals repeat'
    first
    | with_reducible exact Does.refl _ _
    | decide
    | with_reducible apply putList_does
    | with_reducible apply report_does
    | with_reducible apply wrf_does
    | with_reducible apply wr_does
    | split

theorem dollyBegin_does {fs₀ s₀ n t l d a s} (h₀ : Does fs₀ s₀ s) (hf₀ : Fld.within [.regs, .mem, .tiles, .rounds] fs₀ = true) :
    Does fs₀ s₀ (dollyBegin n t l d a s) := by
  refine h₀.trans ?_ hf₀
  clear h₀ hf₀
  unfold dollyBegin
  try dsimp only
  all_goals repeat'
    first
    | with_reducible exact Does.refl _ _
    | decide
    | with_reducible apply putList_does
    | split

theorem dollyPop_does {fs₀ s₀ n t l d s} (h₀ : Does fs₀ s₀ s) (hf₀ : Fld.within [.regs, .mem, .tiles, .reels, .rounds,
      .fault] fs₀ = true) :
    Does fs₀ s₀ (dollyPop n t l d s) := by
  refine h₀.trans ?_ hf₀
  clear h₀ hf₀
  unfold dollyPop
  try dsimp only
  all_goals repeat'
    first
    | with_reducible exact Does.refl _ _
    | decide
    | with_reducible apply dollyBegin_does
    | with_reducible apply dollyError_does
    | with_reducible apply putList_does
    | with_reducible apply setReel_does
    | split

theorem copyMarks_does {fs₀ s₀ marks src dst len x5 x6} (h₀ : Does fs₀ s₀ x6) (hf₀ : Fld.within [.mem] fs₀ = true) :
    Does fs₀ s₀ (copyMarks marks src dst len x5 x6) := by
  refine h₀.trans ?_ hf₀
  clear h₀ hf₀
  fun_induction copyMarks marks src dst len x5 x6
  all_goals try dsimp +zetaDelta only
  all_goals repeat'
    first
    | with_reducible exact Does.refl _ _
    | decide
    | with_reducible refine Does.trans ?_ (by assumption) ?_
    | with_reducible apply memMark_does
    | split

theorem doXfer_does {fs₀ s₀ m x s} (h₀ : Does fs₀ s₀ s) (hf₀ : Fld.within [.regs, .mem, .free] fs₀ = true) :
    Does fs₀ s₀ (doXfer m x s) := by
  refine h₀.trans ?_ hf₀
  clear h₀ hf₀
  unfold doXfer
  try dsimp only
  all_goals repeat'
    first
    | with_reducible exact Does.refl _ _
    | decide
    | with_reducible apply copyMarks_does
    | with_reducible apply devWrite_does
    | with_reducible apply devTouch_does
    | with_reducible apply memTouch_does
    | with_reducible apply memMark_does
    | split

theorem writeBlock_does {fs₀ s₀ o s} (h₀ : Does fs₀ s₀ s) (hf₀ : Fld.within [.regs, .mem] fs₀ = true) :
    Does fs₀ s₀ (writeBlock o s) := by
  refine h₀.trans ?_ hf₀
  clear h₀ hf₀
  unfold writeBlock
  try dsimp only
  all_goals repeat'
    first
    | with_reducible exact Does.refl _ _
    | decide
    | with_reducible apply devWrite_does
    | with_reducible apply memTouch_does
    | with_reducible apply memMark_does
    | split

theorem issueRequest_does {fs₀ s₀ side s} (h₀ : Does fs₀ s₀ s) (hf₀ : Fld.within [.mem, .rounds] fs₀ = true) :
    Does fs₀ s₀ (issueRequest side s) := by
  refine h₀.trans ?_ hf₀
  clear h₀ hf₀
  unfold issueRequest
  try dsimp only
  all_goals repeat'
    first
    | with_reducible exact Does.refl _ _
    | decide
    | with_reducible apply rqIssue_does
    | split

theorem ackXfer_does {fs₀ s₀ j x s} (h₀ : Does fs₀ s₀ s) (hf₀ : Fld.within [.regs, .mem, .rounds, .free] fs₀ = true) :
    Does fs₀ s₀ (ackXfer j x s) := by
  refine h₀.trans ?_ hf₀
  clear h₀ hf₀
  unfold ackXfer
  try dsimp only
  all_goals repeat'
    first
    | with_reducible exact Does.refl _ _
    | decide
    | with_reducible apply issueRequest_does
    | with_reducible apply writeBlock_does
    | with_reducible apply doXfer_does
    | with_reducible apply setCodecOut_does
    | split

theorem enginePush_does {fs₀ s₀ r lim h s} (h₀ : Does fs₀ s₀ s) (hf₀ : Fld.within [.regs, .pairs, .funcs, .flights, .mem,
      .tiles, .reels, .chains, .windows, .radio, .fault, .free, .out] fs₀ = true) :
    Does fs₀ s₀ (enginePush r lim h s) := by
  refine h₀.trans ?_ hf₀
  clear h₀ hf₀
  unfold enginePush
  try dsimp only
  all_goals repeat'
    first
    | with_reducible exact Does.refl _ _
    | decide
    | with_reducible apply pushReel_does
    | with_reducible apply violateFree_does
    | with_reducible apply setReel_does
    | with_reducible apply raise_does
    | with_reducible apply bump_does
    | split

theorem dollyPush_does {fs₀ s₀ n l r h s} (h₀ : Does fs₀ s₀ s) (hf₀ : Fld.within [.regs, .pairs, .funcs, .flights, .mem,
      .tiles, .reels, .chains, .windows, .radio, .fault, .free, .out] fs₀ = true) :
    Does fs₀ s₀ (dollyPush n l r h s) := by
  refine h₀.trans ?_ hf₀
  clear h₀ hf₀
  unfold dollyPush
  try dsimp only
  all_goals repeat'
    first
    | with_reducible exact Does.refl _ _
    | decide
    | with_reducible apply enginePush_does
    | with_reducible apply reelReject_does
    | split

theorem setStream_does {fs₀ s₀ b f s} (h₀ : Does fs₀ s₀ s) (hf₀ : Fld.within [.tiles] fs₀ = true) :
    Does fs₀ s₀ (setStream b f s) := by
  refine h₀.trans ?_ hf₀
  clear h₀ hf₀
  unfold setStream
  try dsimp only
  all_goals repeat'
    first
    | with_reducible exact Does.refl _ _
    | decide
    | with_reducible apply setListOf_does
    | split

theorem putOut_does {fs₀ s₀ k b o j src dst raw s} (h₀ : Does fs₀ s₀ s) (hf₀ : Fld.within [.mem, .tiles, .rounds] fs₀ = true) :
    Does fs₀ s₀ (putOut k b o j src dst raw s) := by
  refine h₀.trans ?_ hf₀
  clear h₀ hf₀
  unfold putOut
  try dsimp only
  all_goals repeat'
    first
    | with_reducible exact Does.refl _ _
    | decide
    | with_reducible apply setStream_does
    | with_reducible apply feedPipe_does
    | with_reducible apply setCodecOut_does
    | with_reducible apply setCodecIn_does
    | split

theorem endStream_does {fs₀ s₀ k b s} (h₀ : Does fs₀ s₀ s) (hf₀ : Fld.within [.mem, .tiles] fs₀ = true) :
    Does fs₀ s₀ (endStream k b s) := by
  refine h₀.trans ?_ hf₀
  clear h₀ hf₀
  unfold endStream
  try dsimp only
  all_goals repeat'
    first
    | with_reducible exact Does.refl _ _
    | decide
    | with_reducible apply setStream_does
    | with_reducible apply setCodecIn_does
    | split

theorem decodeGood_does {fs₀ s₀ e b j src dst size raw s} (h₀ : Does fs₀ s₀ s) (hf₀ : Fld.within [.regs, .mem, .tiles,
      .rounds, .free] fs₀ = true) :
    Does fs₀ s₀ (decodeGood e b j src dst size raw s) := by
  refine h₀.trans ?_ hf₀
  clear h₀ hf₀
  unfold decodeGood
  try dsimp only
  all_goals repeat'
    first
    | with_reducible exact Does.refl _ _
    | decide
    | with_reducible apply putOut_does
    | with_reducible apply codecCount_does
    | with_reducible apply devTouch_does
    | split

theorem decodeBad_does {fs₀ s₀ e b j src dst size rawLen s} (h₀ : Does fs₀ s₀ s) (hf₀ : Fld.within [.regs, .mem, .tiles,
      .rounds, .fault, .free] fs₀ = true) :
    Does fs₀ s₀ (decodeBad e b j src dst size rawLen s) := by
  refine h₀.trans ?_ hf₀
  clear h₀ hf₀
  unfold decodeBad
  try dsimp only
  all_goals repeat'
    first
    | with_reducible exact Does.refl _ _
    | decide
    | with_reducible apply putOut_does
    | with_reducible apply codecKib_does
    | with_reducible apply devTouch_does
    | with_reducible apply report_does
    | with_reducible apply bump_does
    | split

theorem execDollyDescriptorStart_does {fs₀ s₀ n t s t₀} (h₀ : Does fs₀ s₀ s) (e₀ : execDollyDescriptorStart n t s = .next t₀)
    (hf₀ : Fld.within [.regs, .funcs, .mem, .tiles, .reels, .rounds, .fault, .out] fs₀ = true) : Does fs₀ s₀ t₀ := by
  refine h₀.trans ?_ hf₀
  clear h₀ hf₀
  unfold execDollyDescriptorStart at e₀
  (try dsimp only at e₀)
  first
  | cases e₀
  | ((repeat' split at e₀) <;> cases e₀)
  all_goals repeat'
    first
    | with_reducible exact Does.refl _ _
    | decide
    | with_reducible apply dollyPop_does
    | with_reducible apply dollyBegin_does
    | with_reducible apply dollyError_does
    | with_reducible apply putList_does
    | with_reducible apply reelReject_does
    | split

theorem execDollyReelPop_does {fs₀ s₀ n t s t₀} (h₀ : Does fs₀ s₀ s) (e₀ : execDollyReelPop n t s = .next t₀)
    (hf₀ : Fld.within [.regs, .mem, .tiles, .reels, .rounds, .fault] fs₀ = true) : Does fs₀ s₀ t₀ := by
  refine h₀.trans ?_ hf₀
  clear h₀ hf₀
  unfold execDollyReelPop at e₀
  (try dsimp only at e₀)
  first
  | cases e₀
  | ((repeat' split at e₀) <;> cases e₀)
  all_goals repeat'
    first
    | with_reducible exact Does.refl _ _
    | decide
    | with_reducible apply dollyPop_does
    | split

theorem execDollyTransferAck_does {fs₀ s₀ n a s t₀} (h₀ : Does fs₀ s₀ s) (e₀ : execDollyTransferAck n a s = .next t₀)
    (hf₀ : Fld.within [.regs, .mem, .tiles, .rounds, .free] fs₀ = true) : Does fs₀ s₀ t₀ := by
  refine h₀.trans ?_ hf₀
  clear h₀ hf₀
  unfold execDollyTransferAck at e₀
  (try dsimp only at e₀)
  first
  | cases e₀
  | ((repeat' split at e₀) <;> cases e₀)
  all_goals repeat'
    first
    | with_reducible exact Does.refl _ _
    | decide
    | with_reducible apply ackXfer_does
    | with_reducible apply putList_does
    | with_reducible apply bankStall_does
    | split

theorem execDollyDescriptorComplete_does {fs₀ s₀ n t s t₀} (h₀ : Does fs₀ s₀ s) (e₀ : execDollyDescriptorComplete n t s = .next t₀)
    (hf₀ : Fld.within [.regs, .pairs, .funcs, .flights, .mem, .tiles, .reels, .chains, .windows, .rounds, .radio, .fault,
      .free, .out] fs₀ = true) : Does fs₀ s₀ t₀ := by
  refine h₀.trans ?_ hf₀
  clear h₀ hf₀
  unfold execDollyDescriptorComplete at e₀
  (try dsimp only at e₀)
  first
  | cases e₀
  | ((repeat' split at e₀) <;> cases e₀)
  all_goals repeat'
    first
    | with_reducible exact Does.refl _ _
    | decide
    | with_reducible apply dollyPush_does
    | with_reducible apply putList_does
    | split

theorem execLsScrub_does {fs₀ s₀ n s t₀} (h₀ : Does fs₀ s₀ s) (e₀ : execLsScrub n s = .next t₀)
    (hf₀ : Fld.within [.clk, .time] fs₀ = true) : Does fs₀ s₀ t₀ := by
  refine h₀.trans ?_ hf₀
  clear h₀ hf₀
  unfold execLsScrub at e₀
  (try dsimp only at e₀)
  first
  | cases e₀
  | ((repeat' split at e₀) <;> cases e₀)
  all_goals repeat'
    first
    | with_reducible exact Does.refl _ _
    | decide
    | with_reducible apply runToClk_does
    | split

theorem execCodecBlockEncode_does {fs₀ s₀ e src dst len s t₀} (h₀ : Does fs₀ s₀ s) (e₀ : execCodecBlockEncode e src dst len s = .next t₀)
    (hf₀ : Fld.within [.regs, .mem, .tiles, .rounds, .free] fs₀ = true) : Does fs₀ s₀ t₀ := by
  refine h₀.trans ?_ hf₀
  clear h₀ hf₀
  unfold execCodecBlockEncode at e₀
  (try dsimp only at e₀)
  first
  | cases e₀
  | ((repeat' split at e₀) <;> cases e₀)
  all_goals repeat'
    first
    | with_reducible exact Does.refl _ _
    | decide
    | with_reducible apply putOut_does
    | with_reducible apply codecCount_does
    | with_reducible apply devTouch_does
    | split

theorem execCodecBlockDecode_does {fs₀ s₀ e src dst s t₀} (h₀ : Does fs₀ s₀ s) (e₀ : execCodecBlockDecode e src dst s = .next t₀)
    (hf₀ : Fld.within [.regs, .mem, .tiles, .rounds, .fault, .free] fs₀ = true) : Does fs₀ s₀ t₀ := by
  refine h₀.trans ?_ hf₀
  clear h₀ hf₀
  unfold execCodecBlockDecode at e₀
  (try dsimp only at e₀)
  first
  | cases e₀
  | ((repeat' split at e₀) <;> cases e₀)
  all_goals repeat'
    first
    | with_reducible exact Does.refl _ _
    | decide
    | with_reducible apply decodeBad_does
    | with_reducible apply decodeGood_does
    | with_reducible apply endStream_does
    | split

end Sys2Proof.Machine
end

