-- ==== Sys2Proof/Laws/DoesDirector.lean ====
section
/-! SUPPORT. What each operation can do: collections, the console, the cores, PHY chains and the director.
Each lemma lists the parts of the state its operation may change; the parts not listed stay, and the tables keep their
canonical form (`Does`). The lemma of a command says it of every next state the command answers. -/

set_option linter.all false

namespace Sys2Proof.Machine

/-! ### Collect -/

theorem dropColl_does {fs₀ s₀ g i s} (h₀ : Does fs₀ s₀ s) (hf₀ : Fld.within [.splice] fs₀ = true) :
    Does fs₀ s₀ (dropColl g i s) := by
  refine h₀.trans ?_ hf₀
  clear h₀ hf₀
  unfold dropColl
  try dsimp only
  all_goals repeat'
    first
    | with_reducible exact Does.refl _ _
    | decide
    | split
    | ((with_reducible refine Does.upd ?_ ?_ ?_); (on_goal 2 => exact rfl); (on_goal 2 => (intro f hf; cases f <;> first | exact absurd (by decide) hf | dsimp only [sameFld])))

theorem putColl_does {fs₀ s₀ k s} (h₀ : Does fs₀ s₀ s) (hf₀ : Fld.within [.splice] fs₀ = true) :
    Does fs₀ s₀ (putColl k s) := by
  refine h₀.trans ?_ hf₀
  clear h₀ hf₀
  unfold putColl
  try dsimp only
  all_goals repeat'
    first
    | with_reducible exact Does.refl _ _
    | decide
    | with_reducible apply dropColl_does
    | split
    | ((with_reducible refine Does.upd ?_ ?_ ?_); (on_goal 2 => exact rfl); (on_goal 2 => (intro f hf; cases f <;> first | exact absurd (by decide) hf | dsimp only [sameFld])))

theorem dropBarrier_does {fs₀ s₀ g layer s} (h₀ : Does fs₀ s₀ s) (hf₀ : Fld.within [.splice] fs₀ = true) :
    Does fs₀ s₀ (dropBarrier g layer s) := by
  refine h₀.trans ?_ hf₀
  clear h₀ hf₀
  unfold dropBarrier
  try dsimp only
  all_goals repeat'
    first
    | with_reducible exact Does.refl _ _
    | decide
    | split
    | ((with_reducible refine Does.upd ?_ ?_ ?_); (on_goal 2 => exact rfl); (on_goal 2 => (intro f hf; cases f <;> first | exact absurd (by decide) hf | dsimp only [sameFld])))

theorem putBarrier_does {fs₀ s₀ b s} (h₀ : Does fs₀ s₀ s) (hf₀ : Fld.within [.splice] fs₀ = true) :
    Does fs₀ s₀ (putBarrier b s) := by
  refine h₀.trans ?_ hf₀
  clear h₀ hf₀
  unfold putBarrier
  try dsimp only
  all_goals repeat'
    first
    | with_reducible exact Does.refl _ _
    | decide
    | with_reducible apply dropBarrier_does
    | split
    | ((with_reducible refine Does.upd ?_ ?_ ?_); (on_goal 2 => exact rfl); (on_goal 2 => (intro f hf; cases f <;> first | exact absurd (by decide) hf | dsimp only [sameFld])))

theorem logForeignRetake_does {fs₀ s₀ j s} (h₀ : Does fs₀ s₀ s) (hf₀ : Fld.within [.regs, .funcs, .fault, .out] fs₀ = true) :
    Does fs₀ s₀ (logForeignRetake j s) := by
  refine h₀.trans ?_ hf₀
  clear h₀ hf₀
  unfold logForeignRetake
  try dsimp only
  all_goals repeat'
    first
    | with_reducible exact Does.refl _ _
    | decide
    | with_reducible apply logFault_does
    | with_reducible apply raise_does
    | with_reducible apply bump_does
    | split

theorem endDependent_does {fs₀ s₀ j code foreign s} (h₀ : Does fs₀ s₀ s) (hf₀ : Fld.within [.regs, .pairs, .funcs, .flights,
      .mem, .tiles, .reels, .loaded, .jobs, .splice, .fault, .free, .out] fs₀ = true) :
    Does fs₀ s₀ (endDependent j code foreign s) := by
  refine h₀.trans ?_ hf₀
  clear h₀ hf₀
  unfold endDependent
  try dsimp only
  all_goals repeat'
    first
    | with_reducible exact Does.refl _ _
    | decide
    | with_reducible apply logForeignRetake_does
    | with_reducible apply retake_does
    | with_reducible apply endJobFault_does
    | with_reducible apply raise_does
    | split

theorem endDependents_does {fs₀ s₀ g id code foreign x5 x6} (h₀ : Does fs₀ s₀ x6) (hf₀ : Fld.within [.regs, .pairs, .funcs,
      .flights, .mem, .tiles, .reels, .loaded, .jobs, .splice, .fault, .free, .out] fs₀ = true) :
    Does fs₀ s₀ (endDependents g id code foreign x5 x6) := by
  refine h₀.trans ?_ hf₀
  clear h₀ hf₀
  fun_induction endDependents g id code foreign x5 x6
  all_goals try dsimp +zetaDelta only
  all_goals repeat'
    first
    | with_reducible exact Does.refl _ _
    | decide
    | with_reducible refine Does.trans ?_ (by assumption) ?_
    | with_reducible apply endDependent_does
    | with_reducible apply dropJob_does
    | with_reducible apply finish_does
    | split

theorem breakGroup_does {fs₀ s₀ g id code s} (h₀ : Does fs₀ s₀ s) (hf₀ : Fld.within [.regs, .pairs, .funcs, .flights, .mem,
      .tiles, .reels, .loaded, .jobs, .splice, .fault, .free, .out] fs₀ = true) :
    Does fs₀ s₀ (breakGroup g id code s) := by
  refine h₀.trans ?_ hf₀
  clear h₀ hf₀
  unfold breakGroup
  try dsimp only
  all_goals repeat'
    first
    | with_reducible exact Does.refl _ _
    | decide
    | with_reducible apply endDependents_does
    | with_reducible apply breakSlate_does
    | split

theorem sendPieces_does {fs₀ s₀ g dst kind tag x5 x6} (h₀ : Does fs₀ s₀ x6) (hf₀ : Fld.within [.regs, .mem, .splice, .free,
      .out] fs₀ = true) :
    Does fs₀ s₀ (sendPieces g dst kind tag x5 x6) := by
  refine h₀.trans ?_ hf₀
  clear h₀ hf₀
  fun_induction sendPieces g dst kind tag x5 x6
  all_goals try dsimp +zetaDelta only
  all_goals repeat'
    first
    | with_reducible exact Does.refl _ _
    | decide
    | with_reducible refine Does.trans ?_ (by assumption) ?_
    | with_reducible apply sendMsg_does
    | split

theorem sendPiecesAll_does {fs₀ s₀ g kind tag ps x5 x6} (h₀ : Does fs₀ s₀ x6) (hf₀ : Fld.within [.regs, .mem, .splice, .free,
      .out] fs₀ = true) :
    Does fs₀ s₀ (sendPiecesAll g kind tag ps x5 x6) := by
  refine h₀.trans ?_ hf₀
  clear h₀ hf₀
  fun_induction sendPiecesAll g kind tag ps x5 x6
  all_goals try dsimp +zetaDelta only
  all_goals repeat'
    first
    | with_reducible exact Does.refl _ _
    | decide
    | with_reducible refine Does.trans ?_ (by assumption) ?_
    | with_reducible apply sendPieces_does
    | split

theorem sendColl_does {fs₀ s₀ g kind tag bs dsts s} (h₀ : Does fs₀ s₀ s) (hf₀ : Fld.within [.regs, .pairs, .funcs, .flights,
      .mem, .tiles, .reels, .loaded, .jobs, .splice, .fault, .free, .out] fs₀ = true) :
    Does fs₀ s₀ (sendColl g kind tag bs dsts s) := by
  refine h₀.trans ?_ hf₀
  clear h₀ hf₀
  unfold sendColl
  try dsimp only
  all_goals repeat'
    first
    | with_reducible exact Does.refl _ _
    | decide
    | with_reducible apply sendPiecesAll_does
    | with_reducible apply breakGroup_does
    | split

theorem reservedSlate_does {fs₀ s₀ g s} (h₀ : Does fs₀ s₀ s) (hf₀ : Fld.within [.splice] fs₀ = true) :
    Does fs₀ s₀ (reservedSlate g s).2 := by
  refine h₀.trans ?_ hf₀
  clear h₀ hf₀
  unfold reservedSlate
  try dsimp only
  all_goals repeat'
    first
    | with_reducible exact Does.refl _ _
    | decide
    | split
    | ((with_reducible refine Does.upd ?_ ?_ ?_); (on_goal 2 => exact rfl); (on_goal 2 => (intro f hf; cases f <;> first | exact absurd (by decide) hf | dsimp only [sameFld])))

theorem armSlate_does {fs₀ s₀ x s} (h₀ : Does fs₀ s₀ s) (hf₀ : Fld.within [.splice] fs₀ = true) :
    Does fs₀ s₀ (armSlate x s) := by
  refine h₀.trans ?_ hf₀
  clear h₀ hf₀
  unfold armSlate
  try dsimp only
  all_goals repeat'
    first
    | with_reducible exact Does.refl _ _
    | decide
    | split
    | ((with_reducible refine Does.upd ?_ ?_ ?_); (on_goal 2 => exact rfl); (on_goal 2 => (intro f hf; cases f <;> first | exact absurd (by decide) hf | dsimp only [sameFld])))

theorem armBarrier_does {fs₀ s₀ j sum s} (h₀ : Does fs₀ s₀ s) (hf₀ : Fld.within [.regs, .pairs, .funcs, .flights, .mem,
      .tiles, .reels, .loaded, .jobs, .splice, .fault, .free, .out] fs₀ = true) :
    Does fs₀ s₀ (armBarrier j sum s) := by
  refine h₀.trans ?_ hf₀
  clear h₀ hf₀
  unfold armBarrier
  try dsimp only
  all_goals repeat'
    first
    | with_reducible exact Does.refl _ _
    | decide
    | with_reducible apply armSlate_does
    | with_reducible apply reservedSlate_does
    | with_reducible apply breakGroup_does
    | with_reducible apply setJob_does
    | with_reducible apply sendAll_does
    | split
    | (obtain rfl := congrArg Prod.snd ‹reservedSlate _ _ = _›)

theorem arrive_does {fs₀ s₀ j s} (h₀ : Does fs₀ s₀ s) (hf₀ : Fld.within [.regs, .pairs, .funcs, .flights, .mem, .tiles,
      .reels, .loaded, .jobs, .splice, .fault, .free, .out] fs₀ = true) :
    Does fs₀ s₀ (arrive j s) := by
  refine h₀.trans ?_ hf₀
  clear h₀ hf₀
  unfold arrive
  try dsimp only
  all_goals repeat'
    first
    | with_reducible exact Does.refl _ _
    | decide
    | with_reducible apply armBarrier_does
    | with_reducible apply breakGroup_does
    | with_reducible apply dropBarrier_does
    | with_reducible apply setJob_does
    | with_reducible apply sendMsg_does
    | split

theorem contribute_does {fs₀ s₀ l g i c s} (h₀ : Does fs₀ s₀ s) (hf₀ : Fld.within [.mem, .splice] fs₀ = true) :
    Does fs₀ s₀ (contribute l g i c s) := by
  refine h₀.trans ?_ hf₀
  clear h₀ hf₀
  unfold contribute
  try dsimp only
  all_goals repeat'
    first
    | with_reducible exact Does.refl _ _
    | decide
    | with_reducible apply putColl_does
    | with_reducible apply memTouch_does
    | split

theorem endColl_does {fs₀ s₀ j l i c bs s} (h₀ : Does fs₀ s₀ s) (hf₀ : Fld.within [.regs, .mem, .jobs, .splice] fs₀ = true) :
    Does fs₀ s₀ (endColl j l i c bs s) := by
  refine h₀.trans ?_ hf₀
  clear h₀ hf₀
  unfold endColl
  try dsimp only
  all_goals repeat'
    first
    | with_reducible exact Does.refl _ _
    | decide
    | with_reducible apply dropColl_does
    | with_reducible apply setJob_does
    | with_reducible apply memWrite_does
    | split

theorem finishUp_does {fs₀ s₀ j l i c s} (h₀ : Does fs₀ s₀ s) (hf₀ : Fld.within [.regs, .pairs, .funcs, .flights, .mem,
      .tiles, .reels, .loaded, .jobs, .splice, .fault, .free, .out] fs₀ = true) :
    Does fs₀ s₀ (finishUp j l i c s) := by
  refine h₀.trans ?_ hf₀
  clear h₀ hf₀
  unfold finishUp
  try dsimp only
  all_goals repeat'
    first
    | with_reducible exact Does.refl _ _
    | decide
    | with_reducible apply endColl_does
    | with_reducible apply sendColl_does
    | with_reducible apply putColl_does
    | split

theorem runColls_does {fs₀ s₀ x1 x2 x3} (h₀ : Does fs₀ s₀ x3) (hf₀ : Fld.within [.regs, .pairs, .funcs, .flights, .mem,
      .tiles, .reels, .loaded, .chains, .items, .windows, .jobs, .radio, .flow, .splice, .fault, .free, .out] fs₀ = true) :
    Does fs₀ s₀ (runColls x1 x2 x3) := by
  refine h₀.trans ?_ hf₀
  clear h₀ hf₀
  fun_induction runColls x1 x2 x3
  all_goals try dsimp +zetaDelta only
  all_goals repeat'
    first
    | with_reducible exact Does.refl _ _
    | decide
    | with_reducible refine Does.trans ?_ (by assumption) ?_
    | with_reducible apply finishUp_does
    | with_reducible apply contribute_does
    | with_reducible apply arrive_does
    | with_reducible apply endOwner_does
    | split

theorem groupGo_does {fs₀ s₀ g s} (h₀ : Does fs₀ s₀ s) (hf₀ : Fld.within [.regs, .pairs, .funcs, .flights, .mem, .tiles,
      .reels, .loaded, .chains, .items, .windows, .jobs, .radio, .flow, .splice, .fault, .free, .out] fs₀ = true) :
    Does fs₀ s₀ (groupGo g s) := by
  refine h₀.trans ?_ hf₀
  clear h₀ hf₀
  unfold groupGo
  try dsimp only
  all_goals repeat'
    first
    | with_reducible exact Does.refl _ _
    | decide
    | with_reducible apply runColls_does
    | split

theorem startRoles_does {fs₀ s₀ l p x3 x4 x5} (h₀ : Does fs₀ s₀ x5) (hf₀ : Fld.within [.regs, .tiles] fs₀ = true) :
    Does fs₀ s₀ (startRoles l p x3 x4 x5) := by
  refine h₀.trans ?_ hf₀
  clear h₀ hf₀
  fun_induction startRoles l p x3 x4 x5
  all_goals try dsimp +zetaDelta only
  all_goals repeat'
    first
    | with_reducible exact Does.refl _ _
    | decide
    | with_reducible refine Does.trans ?_ (by assumption) ?_
    | with_reducible apply loadCode_does
    | with_reducible apply startThread_does
    | split

theorem startLayer_does {fs₀ s₀ j s} (h₀ : Does fs₀ s₀ s) (hf₀ : Fld.within [.regs, .tiles, .jobs] fs₀ = true) :
    Does fs₀ s₀ (startLayer j s) := by
  refine h₀.trans ?_ hf₀
  clear h₀ hf₀
  unfold startLayer
  try dsimp only
  all_goals repeat'
    first
    | with_reducible exact Does.refl _ _
    | decide
    | with_reducible apply startRoles_does
    | with_reducible apply setJob_does
    | split

theorem makeToken_does {fs₀ s₀ j l s} (h₀ : Does fs₀ s₀ s) (hf₀ : Fld.within [.loaded, .jobs] fs₀ = true) :
    Does fs₀ s₀ (makeToken j l s).2 := by
  refine h₀.trans ?_ hf₀
  clear h₀ hf₀
  unfold makeToken
  try dsimp only
  all_goals repeat'
    first
    | with_reducible exact Does.refl _ _
    | decide
    | with_reducible apply setJob_does
    | split
    | ((with_reducible refine Does.upd ?_ ?_ ?_); (on_goal 2 => exact rfl); (on_goal 2 => (intro f hf; cases f <;> first | exact absurd (by decide) hf | dsimp only [sameFld])))

theorem writeDigest_does {fs₀ s₀ j s} (h₀ : Does fs₀ s₀ s) (hf₀ : Fld.within [.regs, .pairs, .funcs, .out] fs₀ = true) :
    Does fs₀ s₀ (writeDigest j s) := by
  refine h₀.trans ?_ hf₀
  clear h₀ hf₀
  unfold writeDigest
  try dsimp only
  all_goals repeat'
    first
    | with_reducible exact Does.refl _ _
    | decide
    | with_reducible apply putBatch_does
    | split

theorem jobServed_does {fs₀ s₀ j s} (h₀ : Does fs₀ s₀ s) (hf₀ : Fld.within [.regs, .pairs, .funcs, .flights, .mem, .reels,
      .loaded, .jobs, .splice, .fault, .out] fs₀ = true) :
    Does fs₀ s₀ (jobServed j s) := by
  refine h₀.trans ?_ hf₀
  clear h₀ hf₀
  unfold jobServed
  try dsimp only
  all_goals repeat'
    first
    | with_reducible exact Does.refl _ _
    | decide
    | with_reducible apply dropJob_does
    | with_reducible apply finishOut_does
    | with_reducible apply clearGroup_does
    | split

theorem barrierFire_does {fs₀ s₀ j s} (h₀ : Does fs₀ s₀ s) (hf₀ : Fld.within [.regs, .pairs, .funcs, .flights, .mem, .tiles,
      .reels, .loaded, .jobs, .splice, .fault, .out] fs₀ = true) :
    Does fs₀ s₀ (barrierFire j s) := by
  refine h₀.trans ?_ hf₀
  clear h₀ hf₀
  unfold barrierFire
  try dsimp only
  all_goals repeat'
    first
    | with_reducible exact Does.refl _ _
    | decide
    | with_reducible apply jobServed_does
    | with_reducible apply writeDigest_does
    | with_reducible apply makeToken_does
    | with_reducible apply startLayer_does
    | with_reducible apply setJob_does
    | split
    | (obtain rfl := congrArg Prod.snd ‹makeToken _ _ _ = _›)

theorem execLayerEnd_does {fs₀ s₀ p marks places output s t₀} (h₀ : Does fs₀ s₀ s) (e₀ : execLayerEnd p marks places output s = .next t₀)
    (hf₀ : Fld.within [.regs, .pairs, .funcs, .flights, .mem, .tiles, .reels, .loaded, .chains, .items, .windows, .jobs,
      .radio, .flow, .splice, .fault, .free, .out] fs₀ = true) : Does fs₀ s₀ t₀ := by
  refine h₀.trans ?_ hf₀
  clear h₀ hf₀
  unfold execLayerEnd at e₀
  (try dsimp only at e₀)
  first
  | cases e₀
  | ((repeat' split at e₀) <;> cases e₀)
  all_goals repeat'
    first
    | with_reducible exact Does.refl _ _
    | decide
    | with_reducible apply runColls_does
    | with_reducible apply putBarrier_does
    | with_reducible apply setJob_does
    | split

/-! ### Console -/

theorem consoleReply_does {fs₀ s₀ bs s} (h₀ : Does fs₀ s₀ s) (hf₀ : Fld.within [.out] fs₀ = true) :
    Does fs₀ s₀ (consoleReply bs s) := by
  refine h₀.trans ?_ hf₀
  clear h₀ hf₀
  unfold consoleReply
  try dsimp only
  all_goals repeat'
    first
    | with_reducible exact Does.refl _ _
    | decide
    | with_reducible apply emit_does
    | split

theorem abortFrame_does {fs₀ s₀ s} (h₀ : Does fs₀ s₀ s) (hf₀ : Fld.within [.mgmt, .out] fs₀ = true) :
    Does fs₀ s₀ (abortFrame s) := by
  refine h₀.trans ?_ hf₀
  clear h₀ hf₀
  unfold abortFrame
  try dsimp only
  all_goals repeat'
    first
    | with_reducible exact Does.refl _ _
    | decide
    | with_reducible apply consoleReply_does
    | split
    | ((with_reducible refine Does.upd ?_ ?_ ?_); (on_goal 2 => exact rfl); (on_goal 2 => (intro f hf; cases f <;> first | exact absurd (by decide) hf | dsimp only [sameFld])))

theorem consoleChar_does {fs₀ s₀ c bad s} (h₀ : Does fs₀ s₀ s) (hf₀ : Fld.within [.regs, .mgmt, .out] fs₀ = true) :
    Does fs₀ s₀ (consoleChar c bad s) := by
  refine h₀.trans ?_ hf₀
  clear h₀ hf₀
  unfold consoleChar
  try dsimp only
  all_goals repeat'
    first
    | with_reducible exact Does.refl _ _
    | decide
    | with_reducible apply abortFrame_does
    | with_reducible apply bump_does
    | split
    | ((with_reducible refine Does.upd ?_ ?_ ?_); (on_goal 2 => exact rfl); (on_goal 2 => (intro f hf; cases f <;> first | exact absurd (by decide) hf | dsimp only [sameFld])))

theorem storeChar_does {fs₀ s₀ c bad s} (h₀ : Does fs₀ s₀ s) (hf₀ : Fld.within [.regs, .mgmt, .out] fs₀ = true) :
    Does fs₀ s₀ (storeChar c bad s) := by
  refine h₀.trans ?_ hf₀
  clear h₀ hf₀
  unfold storeChar
  try dsimp only
  all_goals repeat'
    first
    | with_reducible exact Does.refl _ _
    | decide
    | with_reducible apply consoleChar_does
    | with_reducible apply bump_does
    | split

theorem framingError_does {fs₀ s₀ c s} (h₀ : Does fs₀ s₀ s) (hf₀ : Fld.within [.regs, .funcs, .mgmt, .out] fs₀ = true) :
    Does fs₀ s₀ (framingError c s) := by
  refine h₀.trans ?_ hf₀
  clear h₀ hf₀
  unfold framingError
  try dsimp only
  all_goals repeat'
    first
    | with_reducible exact Does.refl _ _
    | decide
    | with_reducible apply storeChar_does
    | with_reducible apply raise_does
    | with_reducible apply bump_does
    | split
    | ((with_reducible refine Does.upd ?_ ?_ ?_); (on_goal 2 => exact rfl); (on_goal 2 => (intro f hf; cases f <;> first | exact absurd (by decide) hf | dsimp only [sameFld])))

theorem takeFrame_does {fs₀ s₀ s} (h₀ : Does fs₀ s₀ s) (hf₀ : Fld.within [.mgmt] fs₀ = true) :
    Does fs₀ s₀ (takeFrame s) := by
  refine h₀.trans ?_ hf₀
  clear h₀ hf₀
  unfold takeFrame
  try dsimp only
  all_goals repeat'
    first
    | with_reducible exact Does.refl _ _
    | decide
    | split
    | ((with_reducible refine Does.upd ?_ ?_ ?_); (on_goal 2 => exact rfl); (on_goal 2 => (intro f hf; cases f <;> first | exact absurd (by decide) hf | dsimp only [sameFld])))

theorem installImage_does {fs₀ s₀ slot img s} (h₀ : Does fs₀ s₀ s) (hf₀ : Fld.within [.regs, .clk, .time, .pairs, .funcs,
      .flights, .mem, .tiles, .reels, .loaded, .nextLoad, .chains, .items, .nextItem, .windows, .jobs, .rounds, .lastReel,
      .radio, .flow, .cont, .matte, .splice, .fault, .hold, .mgmt, .board, .free, .out, .fetchTurn, .pending] fs₀ = true) :
    Does fs₀ s₀ (installImage slot img s) := by
  refine h₀.trans ?_ hf₀
  clear h₀ hf₀
  unfold installImage
  try dsimp only
  all_goals repeat'
    first
    | with_reducible exact Does.refl _ _
    | decide
    | with_reducible apply consoleReply_does
    | with_reducible apply mainReset_does
    | split
    | ((with_reducible refine Does.upd ?_ ?_ ?_); (on_goal 2 => exact rfl); (on_goal 2 => (intro f hf; cases f <;> first | exact absurd (by decide) hf | dsimp only [sameFld])))

theorem execUartCharacter_does {fs₀ s₀ samples s t₀} (h₀ : Does fs₀ s₀ s) (e₀ : execUartCharacter samples s = .next t₀)
    (hf₀ : Fld.within [.regs, .funcs, .mgmt, .out] fs₀ = true) : Does fs₀ s₀ t₀ := by
  refine h₀.trans ?_ hf₀
  clear h₀ hf₀
  unfold execUartCharacter at e₀
  (try dsimp only at e₀)
  first
  | cases e₀
  | ((repeat' split at e₀) <;> cases e₀)
  all_goals repeat'
    first
    | with_reducible exact Does.refl _ _
    | decide
    | with_reducible apply framingError_does
    | with_reducible apply storeChar_does
    | split
    | ((with_reducible refine Does.upd ?_ ?_ ?_); (on_goal 2 => exact rfl); (on_goal 2 => (intro f hf; cases f <;> first | exact absurd (by decide) hf | dsimp only [sameFld])))

theorem execRecoveryWrite_does {fs₀ s₀ f s t₀} (h₀ : Does fs₀ s₀ s) (e₀ : execRecoveryWrite f s = .next t₀)
    (hf₀ : Fld.within [.mgmt, .out] fs₀ = true) : Does fs₀ s₀ t₀ := by
  refine h₀.trans ?_ hf₀
  clear h₀ hf₀
  unfold execRecoveryWrite at e₀
  (try dsimp only at e₀)
  first
  | cases e₀
  | ((repeat' split at e₀) <;> cases e₀)
  all_goals repeat'
    first
    | with_reducible exact Does.refl _ _
    | decide
    | with_reducible apply takeFrame_does
    | with_reducible apply consoleReply_does
    | split
    | ((with_reducible refine Does.upd ?_ ?_ ?_); (on_goal 2 => exact rfl); (on_goal 2 => (intro f hf; cases f <;> first | exact absurd (by decide) hf | dsimp only [sameFld])))

theorem execRecoveryInstall_does {fs₀ s₀ f keyOk sigOk flashOk s t₀} (h₀ : Does fs₀ s₀ s) (e₀ : execRecoveryInstall f keyOk sigOk flashOk s = .next t₀)
    (hf₀ : Fld.within [.regs, .clk, .time, .pairs, .funcs, .flights, .mem, .tiles, .reels, .loaded, .nextLoad, .chains,
      .items, .nextItem, .windows, .jobs, .rounds, .lastReel, .radio, .flow, .cont, .matte, .splice, .fault, .hold, .mgmt,
      .board, .free, .out, .fetchTurn, .pending] fs₀ = true) : Does fs₀ s₀ t₀ := by
  refine h₀.trans ?_ hf₀
  clear h₀ hf₀
  unfold execRecoveryInstall at e₀
  (try dsimp only at e₀)
  first
  | cases e₀
  | ((repeat' split at e₀) <;> cases e₀)
  all_goals repeat'
    first
    | with_reducible exact Does.refl _ _
    | decide
    | with_reducible apply installImage_does
    | with_reducible apply takeFrame_does
    | with_reducible apply consoleReply_does
    | split

theorem execRecoveryStatus_does {fs₀ s₀ f s t₀} (h₀ : Does fs₀ s₀ s) (e₀ : execRecoveryStatus f s = .next t₀)
    (hf₀ : Fld.within [.mgmt, .out] fs₀ = true) : Does fs₀ s₀ t₀ := by
  refine h₀.trans ?_ hf₀
  clear h₀ hf₀
  unfold execRecoveryStatus at e₀
  (try dsimp only at e₀)
  first
  | cases e₀
  | ((repeat' split at e₀) <;> cases e₀)
  all_goals repeat'
    first
    | with_reducible exact Does.refl _ _
    | decide
    | with_reducible apply takeFrame_does
    | with_reducible apply consoleReply_does
    | split

theorem execRecoveryFrameTimeout_does {fs₀ s₀ s t₀} (h₀ : Does fs₀ s₀ s) (e₀ : execRecoveryFrameTimeout s = .next t₀)
    (hf₀ : Fld.within [.clk, .time, .mgmt, .out] fs₀ = true) : Does fs₀ s₀ t₀ := by
  refine h₀.trans ?_ hf₀
  clear h₀ hf₀
  unfold execRecoveryFrameTimeout at e₀
  (try dsimp only at e₀)
  first
  | cases e₀
  | ((repeat' split at e₀) <;> cases e₀)
  all_goals repeat'
    first
    | with_reducible exact Does.refl _ _
    | decide
    | with_reducible apply abortFrame_does
    | with_reducible apply runToClk_does
    | split

/-! ### CoreAlu -/

theorem aluExec_does {fs₀ s₀ n t ct lost legal dst op s} (h₀ : Does fs₀ s₀ s) (hf₀ : Fld.within [.regs, .pairs, .funcs,
      .flights, .mem, .tiles, .reels, .loaded, .chains, .items, .windows, .jobs, .radio, .flow, .splice, .fault, .free,
      .out] fs₀ = true) :
    Does fs₀ s₀ (aluExec n t ct lost legal dst op s) := by
  unfold aluExec
  refine coreStep_does h₀ (fun a b e h => ?_) (within_of_within (by decide) hf₀)
  dsimp only at e
  repeat' split at e
  all_goals cases e
  all_goals
    exact bankStall_does (setThread_does (compStore_does (compStore_does h (within_of_within (by decide) hf₀))
      (within_of_within (by decide) hf₀)) (within_of_within (by decide) hf₀)) (within_of_within (by decide) hf₀)

theorem aluBin_does {fs₀ s₀ n t f g s} (h₀ : Does fs₀ s₀ s) (hf₀ : Fld.within [.regs, .pairs, .funcs, .flights, .mem, .tiles,
      .reels, .loaded, .chains, .items, .windows, .jobs, .radio, .flow, .splice, .fault, .free, .out] fs₀ = true) :
    Does fs₀ s₀ (aluBin n t f g s) := by
  refine h₀.trans ?_ hf₀
  clear h₀ hf₀
  unfold aluBin
  try dsimp only
  all_goals repeat'
    first
    | with_reducible exact Does.refl _ _
    | decide
    | with_reducible apply aluExec_does
    | split

theorem aluPlain_does {fs₀ s₀ n t f g s} (h₀ : Does fs₀ s₀ s) (hf₀ : Fld.within [.regs, .pairs, .funcs, .flights, .mem,
      .tiles, .reels, .loaded, .chains, .items, .windows, .jobs, .radio, .flow, .splice, .fault, .free, .out] fs₀ = true) :
    Does fs₀ s₀ (aluPlain n t f g s) := by
  refine h₀.trans ?_ hf₀
  clear h₀ hf₀
  unfold aluPlain
  try dsimp only
  all_goals repeat'
    first
    | with_reducible exact Does.refl _ _
    | decide
    | with_reducible apply aluExec_does
    | split

theorem aluUn_does {fs₀ s₀ n t f g s} (h₀ : Does fs₀ s₀ s) (hf₀ : Fld.within [.regs, .pairs, .funcs, .flights, .mem, .tiles,
      .reels, .loaded, .chains, .items, .windows, .jobs, .radio, .flow, .splice, .fault, .free, .out] fs₀ = true) :
    Does fs₀ s₀ (aluUn n t f g s) := by
  refine h₀.trans ?_ hf₀
  clear h₀ hf₀
  unfold aluUn
  try dsimp only
  all_goals repeat'
    first
    | with_reducible exact Does.refl _ _
    | decide
    | with_reducible apply aluExec_does
    | split

theorem macExec_does {fs₀ s₀ n t f keep s} (h₀ : Does fs₀ s₀ s) (hf₀ : Fld.within [.regs, .pairs, .funcs, .flights, .mem,
      .tiles, .reels, .loaded, .chains, .items, .windows, .jobs, .radio, .flow, .splice, .fault, .free, .out] fs₀ = true) :
    Does fs₀ s₀ (macExec n t f keep s) := by
  refine h₀.trans ?_ hf₀
  clear h₀ hf₀
  unfold macExec
  try dsimp only
  all_goals repeat'
    first
    | with_reducible exact Does.refl _ _
    | decide
    | with_reducible apply aluExec_does
    | split

theorem immExec_does {fs₀ s₀ n t f g s} (h₀ : Does fs₀ s₀ s) (hf₀ : Fld.within [.regs, .pairs, .funcs, .flights, .mem,
      .tiles, .reels, .loaded, .chains, .items, .windows, .jobs, .radio, .flow, .splice, .fault, .free, .out] fs₀ = true) :
    Does fs₀ s₀ (immExec n t f g s) := by
  refine h₀.trans ?_ hf₀
  clear h₀ hf₀
  unfold immExec
  try dsimp only
  all_goals repeat'
    first
    | with_reducible exact Does.refl _ _
    | decide
    | with_reducible apply coreReg_does
    | split

theorem immPlain_does {fs₀ s₀ n t f g s} (h₀ : Does fs₀ s₀ s) (hf₀ : Fld.within [.regs, .pairs, .funcs, .flights, .mem,
      .tiles, .reels, .loaded, .chains, .items, .windows, .jobs, .radio, .flow, .splice, .fault, .free, .out] fs₀ = true) :
    Does fs₀ s₀ (immPlain n t f g s) := by
  refine h₀.trans ?_ hf₀
  clear h₀ hf₀
  unfold immPlain
  try dsimp only
  all_goals repeat'
    first
    | with_reducible exact Does.refl _ _
    | decide
    | with_reducible apply coreReg_does
    | split

theorem execAdd_does {fs₀ s₀ n t f s t₀} (h₀ : Does fs₀ s₀ s) (e₀ : execAdd n t f s = .next t₀)
    (hf₀ : Fld.within [.regs, .pairs, .funcs, .flights, .mem, .tiles, .reels, .loaded, .chains, .items, .windows, .jobs,
      .radio, .flow, .splice, .fault, .free, .out] fs₀ = true) : Does fs₀ s₀ t₀ := by
  refine h₀.trans ?_ hf₀
  clear h₀ hf₀
  unfold execAdd at e₀
  (try dsimp only at e₀)
  first
  | cases e₀
  | ((repeat' split at e₀) <;> cases e₀)
  all_goals repeat'
    first
    | with_reducible exact Does.refl _ _
    | decide
    | with_reducible apply aluBin_does
    | split

theorem execSub_does {fs₀ s₀ n t f s t₀} (h₀ : Does fs₀ s₀ s) (e₀ : execSub n t f s = .next t₀)
    (hf₀ : Fld.within [.regs, .pairs, .funcs, .flights, .mem, .tiles, .reels, .loaded, .chains, .items, .windows, .jobs,
      .radio, .flow, .splice, .fault, .free, .out] fs₀ = true) : Does fs₀ s₀ t₀ := by
  refine h₀.trans ?_ hf₀
  clear h₀ hf₀
  unfold execSub at e₀
  (try dsimp only at e₀)
  first
  | cases e₀
  | ((repeat' split at e₀) <;> cases e₀)
  all_goals repeat'
    first
    | with_reducible exact Does.refl _ _
    | decide
    | with_reducible apply aluBin_does
    | split

theorem execMul_does {fs₀ s₀ n t f s t₀} (h₀ : Does fs₀ s₀ s) (e₀ : execMul n t f s = .next t₀)
    (hf₀ : Fld.within [.regs, .pairs, .funcs, .flights, .mem, .tiles, .reels, .loaded, .chains, .items, .windows, .jobs,
      .radio, .flow, .splice, .fault, .free, .out] fs₀ = true) : Does fs₀ s₀ t₀ := by
  refine h₀.trans ?_ hf₀
  clear h₀ hf₀
  unfold execMul at e₀
  (try dsimp only at e₀)
  first
  | cases e₀
  | ((repeat' split at e₀) <;> cases e₀)
  all_goals repeat'
    first
    | with_reducible exact Does.refl _ _
    | decide
    | with_reducible apply aluBin_does
    | split

theorem execMulh_does {fs₀ s₀ n t f s t₀} (h₀ : Does fs₀ s₀ s) (e₀ : execMulh n t f s = .next t₀)
    (hf₀ : Fld.within [.regs, .pairs, .funcs, .flights, .mem, .tiles, .reels, .loaded, .chains, .items, .windows, .jobs,
      .radio, .flow, .splice, .fault, .free, .out] fs₀ = true) : Does fs₀ s₀ t₀ := by
  refine h₀.trans ?_ hf₀
  clear h₀ hf₀
  unfold execMulh at e₀
  (try dsimp only at e₀)
  first
  | cases e₀
  | ((repeat' split at e₀) <;> cases e₀)
  all_goals repeat'
    first
    | with_reducible exact Does.refl _ _
    | decide
    | with_reducible apply aluPlain_does
    | split

theorem execMac_does {fs₀ s₀ n t f s t₀} (h₀ : Does fs₀ s₀ s) (e₀ : execMac n t f s = .next t₀)
    (hf₀ : Fld.within [.regs, .pairs, .funcs, .flights, .mem, .tiles, .reels, .loaded, .chains, .items, .windows, .jobs,
      .radio, .flow, .splice, .fault, .free, .out] fs₀ = true) : Does fs₀ s₀ t₀ := by
  refine h₀.trans ?_ hf₀
  clear h₀ hf₀
  unfold execMac at e₀
  (try dsimp only at e₀)
  first
  | cases e₀
  | ((repeat' split at e₀) <;> cases e₀)
  all_goals repeat'
    first
    | with_reducible exact Does.refl _ _
    | decide
    | with_reducible apply macExec_does
    | split

theorem execMacz_does {fs₀ s₀ n t f s t₀} (h₀ : Does fs₀ s₀ s) (e₀ : execMacz n t f s = .next t₀)
    (hf₀ : Fld.within [.regs, .pairs, .funcs, .flights, .mem, .tiles, .reels, .loaded, .chains, .items, .windows, .jobs,
      .radio, .flow, .splice, .fault, .free, .out] fs₀ = true) : Does fs₀ s₀ t₀ := by
  refine h₀.trans ?_ hf₀
  clear h₀ hf₀
  unfold execMacz at e₀
  (try dsimp only at e₀)
  first
  | cases e₀
  | ((repeat' split at e₀) <;> cases e₀)
  all_goals repeat'
    first
    | with_reducible exact Does.refl _ _
    | decide
    | with_reducible apply macExec_does
    | split

theorem execAccrd_does {fs₀ s₀ n t f s t₀} (h₀ : Does fs₀ s₀ s) (e₀ : execAccrd n t f s = .next t₀)
    (hf₀ : Fld.within [.regs, .pairs, .funcs, .flights, .mem, .tiles, .reels, .loaded, .chains, .items, .windows, .jobs,
      .radio, .flow, .splice, .fault, .free, .out] fs₀ = true) : Does fs₀ s₀ t₀ := by
  refine h₀.trans ?_ hf₀
  clear h₀ hf₀
  unfold execAccrd at e₀
  (try dsimp only at e₀)
  first
  | cases e₀
  | ((repeat' split at e₀) <;> cases e₀)
  all_goals repeat'
    first
    | with_reducible exact Does.refl _ _
    | decide
    | with_reducible apply aluExec_does
    | split

theorem execAnd_does {fs₀ s₀ n t f s t₀} (h₀ : Does fs₀ s₀ s) (e₀ : execAnd n t f s = .next t₀)
    (hf₀ : Fld.within [.regs, .pairs, .funcs, .flights, .mem, .tiles, .reels, .loaded, .chains, .items, .windows, .jobs,
      .radio, .flow, .splice, .fault, .free, .out] fs₀ = true) : Does fs₀ s₀ t₀ := by
  refine h₀.trans ?_ hf₀
  clear h₀ hf₀
  unfold execAnd at e₀
  (try dsimp only at e₀)
  first
  | cases e₀
  | ((repeat' split at e₀) <;> cases e₀)
  all_goals repeat'
    first
    | with_reducible exact Does.refl _ _
    | decide
    | with_reducible apply aluPlain_does
    | split

theorem execOr_does {fs₀ s₀ n t f s t₀} (h₀ : Does fs₀ s₀ s) (e₀ : execOr n t f s = .next t₀)
    (hf₀ : Fld.within [.regs, .pairs, .funcs, .flights, .mem, .tiles, .reels, .loaded, .chains, .items, .windows, .jobs,
      .radio, .flow, .splice, .fault, .free, .out] fs₀ = true) : Does fs₀ s₀ t₀ := by
  refine h₀.trans ?_ hf₀
  clear h₀ hf₀
  unfold execOr at e₀
  (try dsimp only at e₀)
  first
  | cases e₀
  | ((repeat' split at e₀) <;> cases e₀)
  all_goals repeat'
    first
    | with_reducible exact Does.refl _ _
    | decide
    | with_reducible apply aluPlain_does
    | split

theorem execXor_does {fs₀ s₀ n t f s t₀} (h₀ : Does fs₀ s₀ s) (e₀ : execXor n t f s = .next t₀)
    (hf₀ : Fld.within [.regs, .pairs, .funcs, .flights, .mem, .tiles, .reels, .loaded, .chains, .items, .windows, .jobs,
      .radio, .flow, .splice, .fault, .free, .out] fs₀ = true) : Does fs₀ s₀ t₀ := by
  refine h₀.trans ?_ hf₀
  clear h₀ hf₀
  unfold execXor at e₀
  (try dsimp only at e₀)
  first
  | cases e₀
  | ((repeat' split at e₀) <;> cases e₀)
  all_goals repeat'
    first
    | with_reducible exact Does.refl _ _
    | decide
    | with_reducible apply aluPlain_does
    | split

theorem execShl_does {fs₀ s₀ n t f s t₀} (h₀ : Does fs₀ s₀ s) (e₀ : execShl n t f s = .next t₀)
    (hf₀ : Fld.within [.regs, .pairs, .funcs, .flights, .mem, .tiles, .reels, .loaded, .chains, .items, .windows, .jobs,
      .radio, .flow, .splice, .fault, .free, .out] fs₀ = true) : Does fs₀ s₀ t₀ := by
  refine h₀.trans ?_ hf₀
  clear h₀ hf₀
  unfold execShl at e₀
  (try dsimp only at e₀)
  first
  | cases e₀
  | ((repeat' split at e₀) <;> cases e₀)
  all_goals repeat'
    first
    | with_reducible exact Does.refl _ _
    | decide
    | with_reducible apply aluBin_does
    | split

theorem execShr_does {fs₀ s₀ n t f s t₀} (h₀ : Does fs₀ s₀ s) (e₀ : execShr n t f s = .next t₀)
    (hf₀ : Fld.within [.regs, .pairs, .funcs, .flights, .mem, .tiles, .reels, .loaded, .chains, .items, .windows, .jobs,
      .radio, .flow, .splice, .fault, .free, .out] fs₀ = true) : Does fs₀ s₀ t₀ := by
  refine h₀.trans ?_ hf₀
  clear h₀ hf₀
  unfold execShr at e₀
  (try dsimp only at e₀)
  first
  | cases e₀
  | ((repeat' split at e₀) <;> cases e₀)
  all_goals repeat'
    first
    | with_reducible exact Does.refl _ _
    | decide
    | with_reducible apply aluPlain_does
    | split

theorem execShra_does {fs₀ s₀ n t f s t₀} (h₀ : Does fs₀ s₀ s) (e₀ : execShra n t f s = .next t₀)
    (hf₀ : Fld.within [.regs, .pairs, .funcs, .flights, .mem, .tiles, .reels, .loaded, .chains, .items, .windows, .jobs,
      .radio, .flow, .splice, .fault, .free, .out] fs₀ = true) : Does fs₀ s₀ t₀ := by
  refine h₀.trans ?_ hf₀
  clear h₀ hf₀
  unfold execShra at e₀
  (try dsimp only at e₀)
  first
  | cases e₀
  | ((repeat' split at e₀) <;> cases e₀)
  all_goals repeat'
    first
    | with_reducible exact Does.refl _ _
    | decide
    | with_reducible apply aluPlain_does
    | split

theorem execMin_does {fs₀ s₀ n t f s t₀} (h₀ : Does fs₀ s₀ s) (e₀ : execMin n t f s = .next t₀)
    (hf₀ : Fld.within [.regs, .pairs, .funcs, .flights, .mem, .tiles, .reels, .loaded, .chains, .items, .windows, .jobs,
      .radio, .flow, .splice, .fault, .free, .out] fs₀ = true) : Does fs₀ s₀ t₀ := by
  refine h₀.trans ?_ hf₀
  clear h₀ hf₀
  unfold execMin at e₀
  (try dsimp only at e₀)
  first
  | cases e₀
  | ((repeat' split at e₀) <;> cases e₀)
  all_goals repeat'
    first
    | with_reducible exact Does.refl _ _
    | decide
    | with_reducible apply aluPlain_does
    | split

theorem execMax_does {fs₀ s₀ n t f s t₀} (h₀ : Does fs₀ s₀ s) (e₀ : execMax n t f s = .next t₀)
    (hf₀ : Fld.within [.regs, .pairs, .funcs, .flights, .mem, .tiles, .reels, .loaded, .chains, .items, .windows, .jobs,
      .radio, .flow, .splice, .fault, .free, .out] fs₀ = true) : Does fs₀ s₀ t₀ := by
  refine h₀.trans ?_ hf₀
  clear h₀ hf₀
  unfold execMax at e₀
  (try dsimp only at e₀)
  first
  | cases e₀
  | ((repeat' split at e₀) <;> cases e₀)
  all_goals repeat'
    first
    | with_reducible exact Does.refl _ _
    | decide
    | with_reducible apply aluPlain_does
    | split

theorem execAbs_does {fs₀ s₀ n t f s t₀} (h₀ : Does fs₀ s₀ s) (e₀ : execAbs n t f s = .next t₀)
    (hf₀ : Fld.within [.regs, .pairs, .funcs, .flights, .mem, .tiles, .reels, .loaded, .chains, .items, .windows, .jobs,
      .radio, .flow, .splice, .fault, .free, .out] fs₀ = true) : Does fs₀ s₀ t₀ := by
  refine h₀.trans ?_ hf₀
  clear h₀ hf₀
  unfold execAbs at e₀
  (try dsimp only at e₀)
  first
  | cases e₀
  | ((repeat' split at e₀) <;> cases e₀)
  all_goals repeat'
    first
    | with_reducible exact Does.refl _ _
    | decide
    | with_reducible apply aluUn_does
    | split

theorem execNeg_does {fs₀ s₀ n t f s t₀} (h₀ : Does fs₀ s₀ s) (e₀ : execNeg n t f s = .next t₀)
    (hf₀ : Fld.within [.regs, .pairs, .funcs, .flights, .mem, .tiles, .reels, .loaded, .chains, .items, .windows, .jobs,
      .radio, .flow, .splice, .fault, .free, .out] fs₀ = true) : Does fs₀ s₀ t₀ := by
  refine h₀.trans ?_ hf₀
  clear h₀ hf₀
  unfold execNeg at e₀
  (try dsimp only at e₀)
  first
  | cases e₀
  | ((repeat' split at e₀) <;> cases e₀)
  all_goals repeat'
    first
    | with_reducible exact Does.refl _ _
    | decide
    | with_reducible apply aluUn_does
    | split

theorem execCmp_does {fs₀ s₀ n t f s t₀} (h₀ : Does fs₀ s₀ s) (e₀ : execCmp n t f s = .next t₀)
    (hf₀ : Fld.within [.regs, .pairs, .funcs, .flights, .mem, .tiles, .reels, .loaded, .chains, .items, .windows, .jobs,
      .radio, .flow, .splice, .fault, .free, .out] fs₀ = true) : Does fs₀ s₀ t₀ := by
  refine h₀.trans ?_ hf₀
  clear h₀ hf₀
  unfold execCmp at e₀
  (try dsimp only at e₀)
  first
  | cases e₀
  | ((repeat' split at e₀) <;> cases e₀)
  all_goals repeat'
    first
    | with_reducible exact Does.refl _ _
    | decide
    | with_reducible apply aluExec_does
    | split

theorem execCsel_does {fs₀ s₀ n t c dst sa sb s t₀} (h₀ : Does fs₀ s₀ s) (e₀ : execCsel n t c dst sa sb s = .next t₀)
    (hf₀ : Fld.within [.regs, .pairs, .funcs, .flights, .mem, .tiles, .reels, .loaded, .chains, .items, .windows, .jobs,
      .radio, .flow, .splice, .fault, .free, .out] fs₀ = true) : Does fs₀ s₀ t₀ := by
  refine h₀.trans ?_ hf₀
  clear h₀ hf₀
  unfold execCsel at e₀
  (try dsimp only at e₀)
  first
  | cases e₀
  | ((repeat' split at e₀) <;> cases e₀)
  all_goals repeat'
    first
    | with_reducible exact Does.refl _ _
    | decide
    | with_reducible apply coreReg_does
    | split

theorem execAdd2_does {fs₀ s₀ n t f s t₀} (h₀ : Does fs₀ s₀ s) (e₀ : execAdd2 n t f s = .next t₀)
    (hf₀ : Fld.within [.regs, .pairs, .funcs, .flights, .mem, .tiles, .reels, .loaded, .chains, .items, .windows, .jobs,
      .radio, .flow, .splice, .fault, .free, .out] fs₀ = true) : Does fs₀ s₀ t₀ := by
  refine h₀.trans ?_ hf₀
  clear h₀ hf₀
  unfold execAdd2 at e₀
  (try dsimp only at e₀)
  first
  | cases e₀
  | ((repeat' split at e₀) <;> cases e₀)
  all_goals repeat'
    first
    | with_reducible exact Does.refl _ _
    | decide
    | with_reducible apply aluBin_does
    | split

theorem execSub2_does {fs₀ s₀ n t f s t₀} (h₀ : Does fs₀ s₀ s) (e₀ : execSub2 n t f s = .next t₀)
    (hf₀ : Fld.within [.regs, .pairs, .funcs, .flights, .mem, .tiles, .reels, .loaded, .chains, .items, .windows, .jobs,
      .radio, .flow, .splice, .fault, .free, .out] fs₀ = true) : Does fs₀ s₀ t₀ := by
  refine h₀.trans ?_ hf₀
  clear h₀ hf₀
  unfold execSub2 at e₀
  (try dsimp only at e₀)
  first
  | cases e₀
  | ((repeat' split at e₀) <;> cases e₀)
  all_goals repeat'
    first
    | with_reducible exact Does.refl _ _
    | decide
    | with_reducible apply aluBin_does
    | split

theorem execMin2_does {fs₀ s₀ n t f s t₀} (h₀ : Does fs₀ s₀ s) (e₀ : execMin2 n t f s = .next t₀)
    (hf₀ : Fld.within [.regs, .pairs, .funcs, .flights, .mem, .tiles, .reels, .loaded, .chains, .items, .windows, .jobs,
      .radio, .flow, .splice, .fault, .free, .out] fs₀ = true) : Does fs₀ s₀ t₀ := by
  refine h₀.trans ?_ hf₀
  clear h₀ hf₀
  unfold execMin2 at e₀
  (try dsimp only at e₀)
  first
  | cases e₀
  | ((repeat' split at e₀) <;> cases e₀)
  all_goals repeat'
    first
    | with_reducible exact Does.refl _ _
    | decide
    | with_reducible apply aluPlain_does
    | split

theorem execAbs2_does {fs₀ s₀ n t f s t₀} (h₀ : Does fs₀ s₀ s) (e₀ : execAbs2 n t f s = .next t₀)
    (hf₀ : Fld.within [.regs, .pairs, .funcs, .flights, .mem, .tiles, .reels, .loaded, .chains, .items, .windows, .jobs,
      .radio, .flow, .splice, .fault, .free, .out] fs₀ = true) : Does fs₀ s₀ t₀ := by
  refine h₀.trans ?_ hf₀
  clear h₀ hf₀
  unfold execAbs2 at e₀
  (try dsimp only at e₀)
  first
  | cases e₀
  | ((repeat' split at e₀) <;> cases e₀)
  all_goals repeat'
    first
    | with_reducible exact Does.refl _ _
    | decide
    | with_reducible apply aluUn_does
    | split

theorem execMintrk_does {fs₀ s₀ n t f s t₀} (h₀ : Does fs₀ s₀ s) (e₀ : execMintrk n t f s = .next t₀)
    (hf₀ : Fld.within [.regs, .pairs, .funcs, .flights, .mem, .tiles, .reels, .loaded, .chains, .items, .windows, .jobs,
      .radio, .flow, .splice, .fault, .free, .out] fs₀ = true) : Does fs₀ s₀ t₀ := by
  refine h₀.trans ?_ hf₀
  clear h₀ hf₀
  unfold execMintrk at e₀
  (try dsimp only at e₀)
  first
  | cases e₀
  | ((repeat' split at e₀) <;> cases e₀)
  all_goals repeat'
    first
    | with_reducible exact Does.refl _ _
    | decide
    | with_reducible apply aluExec_does
    | split

theorem execAddi_does {fs₀ s₀ n t f s t₀} (h₀ : Does fs₀ s₀ s) (e₀ : execAddi n t f s = .next t₀)
    (hf₀ : Fld.within [.regs, .pairs, .funcs, .flights, .mem, .tiles, .reels, .loaded, .chains, .items, .windows, .jobs,
      .radio, .flow, .splice, .fault, .free, .out] fs₀ = true) : Does fs₀ s₀ t₀ := by
  refine h₀.trans ?_ hf₀
  clear h₀ hf₀
  unfold execAddi at e₀
  (try dsimp only at e₀)
  first
  | cases e₀
  | ((repeat' split at e₀) <;> cases e₀)
  all_goals repeat'
    first
    | with_reducible exact Does.refl _ _
    | decide
    | with_reducible apply immExec_does
    | split

theorem execAndi_does {fs₀ s₀ n t f s t₀} (h₀ : Does fs₀ s₀ s) (e₀ : execAndi n t f s = .next t₀)
    (hf₀ : Fld.within [.regs, .pairs, .funcs, .flights, .mem, .tiles, .reels, .loaded, .chains, .items, .windows, .jobs,
      .radio, .flow, .splice, .fault, .free, .out] fs₀ = true) : Does fs₀ s₀ t₀ := by
  refine h₀.trans ?_ hf₀
  clear h₀ hf₀
  unfold execAndi at e₀
  (try dsimp only at e₀)
  first
  | cases e₀
  | ((repeat' split at e₀) <;> cases e₀)
  all_goals repeat'
    first
    | with_reducible exact Does.refl _ _
    | decide
    | with_reducible apply immPlain_does
    | split

theorem execOri_does {fs₀ s₀ n t f s t₀} (h₀ : Does fs₀ s₀ s) (e₀ : execOri n t f s = .next t₀)
    (hf₀ : Fld.within [.regs, .pairs, .funcs, .flights, .mem, .tiles, .reels, .loaded, .chains, .items, .windows, .jobs,
      .radio, .flow, .splice, .fault, .free, .out] fs₀ = true) : Does fs₀ s₀ t₀ := by
  refine h₀.trans ?_ hf₀
  clear h₀ hf₀
  unfold execOri at e₀
  (try dsimp only at e₀)
  first
  | cases e₀
  | ((repeat' split at e₀) <;> cases e₀)
  all_goals repeat'
    first
    | with_reducible exact Does.refl _ _
    | decide
    | with_reducible apply immPlain_does
    | split

theorem execShli_does {fs₀ s₀ n t f s t₀} (h₀ : Does fs₀ s₀ s) (e₀ : execShli n t f s = .next t₀)
    (hf₀ : Fld.within [.regs, .pairs, .funcs, .flights, .mem, .tiles, .reels, .loaded, .chains, .items, .windows, .jobs,
      .radio, .flow, .splice, .fault, .free, .out] fs₀ = true) : Does fs₀ s₀ t₀ := by
  refine h₀.trans ?_ hf₀
  clear h₀ hf₀
  unfold execShli at e₀
  (try dsimp only at e₀)
  first
  | cases e₀
  | ((repeat' split at e₀) <;> cases e₀)
  all_goals repeat'
    first
    | with_reducible exact Does.refl _ _
    | decide
    | with_reducible apply immExec_does
    | split

theorem execShri_does {fs₀ s₀ n t f s t₀} (h₀ : Does fs₀ s₀ s) (e₀ : execShri n t f s = .next t₀)
    (hf₀ : Fld.within [.regs, .pairs, .funcs, .flights, .mem, .tiles, .reels, .loaded, .chains, .items, .windows, .jobs,
      .radio, .flow, .splice, .fault, .free, .out] fs₀ = true) : Does fs₀ s₀ t₀ := by
  refine h₀.trans ?_ hf₀
  clear h₀ hf₀
  unfold execShri at e₀
  (try dsimp only at e₀)
  first
  | cases e₀
  | ((repeat' split at e₀) <;> cases e₀)
  all_goals repeat'
    first
    | with_reducible exact Does.refl _ _
    | decide
    | with_reducible apply immPlain_does
    | split

theorem execShrai_does {fs₀ s₀ n t f s t₀} (h₀ : Does fs₀ s₀ s) (e₀ : execShrai n t f s = .next t₀)
    (hf₀ : Fld.within [.regs, .pairs, .funcs, .flights, .mem, .tiles, .reels, .loaded, .chains, .items, .windows, .jobs,
      .radio, .flow, .splice, .fault, .free, .out] fs₀ = true) : Does fs₀ s₀ t₀ := by
  refine h₀.trans ?_ hf₀
  clear h₀ hf₀
  unfold execShrai at e₀
  (try dsimp only at e₀)
  first
  | cases e₀
  | ((repeat' split at e₀) <;> cases e₀)
  all_goals repeat'
    first
    | with_reducible exact Does.refl _ _
    | decide
    | with_reducible apply immPlain_does
    | split

theorem execCmpi_does {fs₀ s₀ n t f s t₀} (h₀ : Does fs₀ s₀ s) (e₀ : execCmpi n t f s = .next t₀)
    (hf₀ : Fld.within [.regs, .pairs, .funcs, .flights, .mem, .tiles, .reels, .loaded, .chains, .items, .windows, .jobs,
      .radio, .flow, .splice, .fault, .free, .out] fs₀ = true) : Does fs₀ s₀ t₀ := by
  refine h₀.trans ?_ hf₀
  clear h₀ hf₀
  unfold execCmpi at e₀
  (try dsimp only at e₀)
  first
  | cases e₀
  | ((repeat' split at e₀) <;> cases e₀)
  all_goals repeat'
    first
    | with_reducible exact Does.refl _ _
    | decide
    | with_reducible apply coreReg_does
    | split

theorem execLdi_does {fs₀ s₀ n t dst imm s t₀} (h₀ : Does fs₀ s₀ s) (e₀ : execLdi n t dst imm s = .next t₀)
    (hf₀ : Fld.within [.regs, .pairs, .funcs, .flights, .mem, .tiles, .reels, .loaded, .chains, .items, .windows, .jobs,
      .radio, .flow, .splice, .fault, .free, .out] fs₀ = true) : Does fs₀ s₀ t₀ := by
  refine h₀.trans ?_ hf₀
  clear h₀ hf₀
  unfold execLdi at e₀
  (try dsimp only at e₀)
  first
  | cases e₀
  | ((repeat' split at e₀) <;> cases e₀)
  all_goals repeat'
    first
    | with_reducible exact Does.refl _ _
    | decide
    | with_reducible apply coreReg_does
    | split

theorem execLui_does {fs₀ s₀ n t dst imm s t₀} (h₀ : Does fs₀ s₀ s) (e₀ : execLui n t dst imm s = .next t₀)
    (hf₀ : Fld.within [.regs, .pairs, .funcs, .flights, .mem, .tiles, .reels, .loaded, .chains, .items, .windows, .jobs,
      .radio, .flow, .splice, .fault, .free, .out] fs₀ = true) : Does fs₀ s₀ t₀ := by
  refine h₀.trans ?_ hf₀
  clear h₀ hf₀
  unfold execLui at e₀
  (try dsimp only at e₀)
  first
  | cases e₀
  | ((repeat' split at e₀) <;> cases e₀)
  all_goals repeat'
    first
    | with_reducible exact Does.refl _ _
    | decide
    | with_reducible apply coreReg_does
    | split

/-! ### CoreFlow -/

theorem flowExec_does {fs₀ s₀ n t legal f s} (h₀ : Does fs₀ s₀ s) (hf₀ : Fld.within [.regs, .pairs, .funcs, .flights, .mem,
      .tiles, .reels, .loaded, .chains, .items, .windows, .jobs, .radio, .flow, .splice, .fault, .free, .out] fs₀ = true) :
    Does fs₀ s₀ (flowExec n t legal f s) := by
  refine h₀.trans ?_ hf₀
  clear h₀ hf₀
  unfold flowExec
  try dsimp only
  all_goals repeat'
    first
    | with_reducible exact Does.refl _ _
    | decide
    | with_reducible apply coreTrap_does
    | with_reducible apply setThread_does
    | split

theorem execBr_does {fs₀ s₀ n t c hint off slots staged s t₀} (h₀ : Does fs₀ s₀ s) (e₀ : execBr n t c hint off slots staged s = .next t₀)
    (hf₀ : Fld.within [.regs, .pairs, .funcs, .flights, .mem, .tiles, .reels, .loaded, .chains, .items, .windows, .jobs,
      .radio, .flow, .splice, .fault, .free, .out] fs₀ = true) : Does fs₀ s₀ t₀ := by
  refine h₀.trans ?_ hf₀
  clear h₀ hf₀
  unfold execBr at e₀
  (try dsimp only at e₀)
  first
  | cases e₀
  | ((repeat' split at e₀) <;> cases e₀)
  all_goals repeat'
    first
    | with_reducible exact Does.refl _ _
    | decide
    | with_reducible apply flowExec_does
    | with_reducible apply bump_does
    | split

theorem execCall_does {fs₀ s₀ n t off s t₀} (h₀ : Does fs₀ s₀ s) (e₀ : execCall n t off s = .next t₀)
    (hf₀ : Fld.within [.regs, .pairs, .funcs, .flights, .mem, .tiles, .reels, .loaded, .chains, .items, .windows, .jobs,
      .radio, .flow, .splice, .fault, .free, .out] fs₀ = true) : Does fs₀ s₀ t₀ := by
  refine h₀.trans ?_ hf₀
  clear h₀ hf₀
  unfold execCall at e₀
  (try dsimp only at e₀)
  first
  | cases e₀
  | ((repeat' split at e₀) <;> cases e₀)
  all_goals repeat'
    first
    | with_reducible exact Does.refl _ _
    | decide
    | with_reducible apply flowExec_does
    | split

theorem execRet_does {fs₀ s₀ n t s t₀} (h₀ : Does fs₀ s₀ s) (e₀ : execRet n t s = .next t₀)
    (hf₀ : Fld.within [.regs, .pairs, .funcs, .flights, .mem, .tiles, .reels, .loaded, .chains, .items, .windows, .jobs,
      .radio, .flow, .splice, .fault, .free, .out] fs₀ = true) : Does fs₀ s₀ t₀ := by
  refine h₀.trans ?_ hf₀
  clear h₀ hf₀
  unfold execRet at e₀
  (try dsimp only at e₀)
  first
  | cases e₀
  | ((repeat' split at e₀) <;> cases e₀)
  all_goals repeat'
    first
    | with_reducible exact Does.refl _ _
    | decide
    | with_reducible apply flowExec_does
    | split

theorem execJr_does {fs₀ s₀ n t d s t₀} (h₀ : Does fs₀ s₀ s) (e₀ : execJr n t d s = .next t₀)
    (hf₀ : Fld.within [.regs, .pairs, .funcs, .flights, .mem, .tiles, .reels, .loaded, .chains, .items, .windows, .jobs,
      .radio, .flow, .splice, .fault, .free, .out] fs₀ = true) : Does fs₀ s₀ t₀ := by
  refine h₀.trans ?_ hf₀
  clear h₀ hf₀
  unfold execJr at e₀
  (try dsimp only at e₀)
  first
  | cases e₀
  | ((repeat' split at e₀) <;> cases e₀)
  all_goals repeat'
    first
    | with_reducible exact Does.refl _ _
    | decide
    | with_reducible apply flowExec_does
    | split

theorem execLoop_does {fs₀ s₀ n t d len s t₀} (h₀ : Does fs₀ s₀ s) (e₀ : execLoop n t d len s = .next t₀)
    (hf₀ : Fld.within [.regs, .pairs, .funcs, .flights, .mem, .tiles, .reels, .loaded, .chains, .items, .windows, .jobs,
      .radio, .flow, .splice, .fault, .free, .out] fs₀ = true) : Does fs₀ s₀ t₀ := by
  refine h₀.trans ?_ hf₀
  clear h₀ hf₀
  unfold execLoop at e₀
  (try dsimp only at e₀)
  first
  | cases e₀
  | ((repeat' split at e₀) <;> cases e₀)
  all_goals repeat'
    first
    | with_reducible exact Does.refl _ _
    | decide
    | with_reducible apply flowExec_does
    | split

theorem execLoopi_does {fs₀ s₀ n t count len s t₀} (h₀ : Does fs₀ s₀ s) (e₀ : execLoopi n t count len s = .next t₀)
    (hf₀ : Fld.within [.regs, .pairs, .funcs, .flights, .mem, .tiles, .reels, .loaded, .chains, .items, .windows, .jobs,
      .radio, .flow, .splice, .fault, .free, .out] fs₀ = true) : Does fs₀ s₀ t₀ := by
  refine h₀.trans ?_ hf₀
  clear h₀ hf₀
  unfold execLoopi at e₀
  (try dsimp only at e₀)
  first
  | cases e₀
  | ((repeat' split at e₀) <;> cases e₀)
  all_goals repeat'
    first
    | with_reducible exact Does.refl _ _
    | decide
    | with_reducible apply flowExec_does
    | split

theorem execLexit_does {fs₀ s₀ n t s t₀} (h₀ : Does fs₀ s₀ s) (e₀ : execLexit n t s = .next t₀)
    (hf₀ : Fld.within [.regs, .pairs, .funcs, .flights, .mem, .tiles, .reels, .loaded, .chains, .items, .windows, .jobs,
      .radio, .flow, .splice, .fault, .free, .out] fs₀ = true) : Does fs₀ s₀ t₀ := by
  refine h₀.trans ?_ hf₀
  clear h₀ hf₀
  unfold execLexit at e₀
  (try dsimp only at e₀)
  first
  | cases e₀
  | ((repeat' split at e₀) <;> cases e₀)
  all_goals repeat'
    first
    | with_reducible exact Does.refl _ _
    | decide
    | with_reducible apply flowExec_does
    | split

/-! ### CoreMem -/

theorem loadExec_does {fs₀ s₀ n t f size s} (h₀ : Does fs₀ s₀ s) (hf₀ : Fld.within [.regs, .pairs, .funcs, .flights, .mem,
      .tiles, .reels, .loaded, .chains, .items, .windows, .jobs, .radio, .flow, .splice, .fault, .free, .out] fs₀ = true) :
    Does fs₀ s₀ (loadExec n t f size s) := by
  refine h₀.trans ?_ hf₀
  clear h₀ hf₀
  unfold loadExec
  try dsimp only
  all_goals repeat'
    first
    | with_reducible exact Does.refl _ _
    | decide
    | with_reducible apply coreStep_does
    | with_reducible apply bankStall_does
    | with_reducible apply setThread_does
    | with_reducible assumption
    | (intro a b e h; (try dsimp only at e); (repeat' split at e); all_goals cases e)
    | split

theorem storeExec_does {fs₀ s₀ n t f size s} (h₀ : Does fs₀ s₀ s) (hf₀ : Fld.within [.regs, .pairs, .funcs, .flights, .mem,
      .tiles, .reels, .loaded, .chains, .items, .windows, .jobs, .radio, .flow, .splice, .fault, .free, .out] fs₀ = true) :
    Does fs₀ s₀ (storeExec n t f size s) := by
  refine h₀.trans ?_ hf₀
  clear h₀ hf₀
  unfold storeExec
  try dsimp only
  all_goals repeat'
    first
    | with_reducible exact Does.refl _ _
    | decide
    | with_reducible apply coreStep_does
    | with_reducible apply bankStall_does
    | with_reducible apply lsStore_does
    | with_reducible apply setThread_does
    | with_reducible assumption
    | (intro a b e h; (try dsimp only at e); (repeat' split at e); all_goals cases e)
    | split

theorem execLd_does {fs₀ s₀ n t f s t₀} (h₀ : Does fs₀ s₀ s) (e₀ : execLd n t f s = .next t₀)
    (hf₀ : Fld.within [.regs, .pairs, .funcs, .flights, .mem, .tiles, .reels, .loaded, .chains, .items, .windows, .jobs,
      .radio, .flow, .splice, .fault, .free, .out] fs₀ = true) : Does fs₀ s₀ t₀ := by
  refine h₀.trans ?_ hf₀
  clear h₀ hf₀
  unfold execLd at e₀
  (try dsimp only at e₀)
  first
  | cases e₀
  | ((repeat' split at e₀) <;> cases e₀)
  all_goals repeat'
    first
    | with_reducible exact Does.refl _ _
    | decide
    | with_reducible apply loadExec_does
    | split

theorem execLdh_does {fs₀ s₀ n t f s t₀} (h₀ : Does fs₀ s₀ s) (e₀ : execLdh n t f s = .next t₀)
    (hf₀ : Fld.within [.regs, .pairs, .funcs, .flights, .mem, .tiles, .reels, .loaded, .chains, .items, .windows, .jobs,
      .radio, .flow, .splice, .fault, .free, .out] fs₀ = true) : Does fs₀ s₀ t₀ := by
  refine h₀.trans ?_ hf₀
  clear h₀ hf₀
  unfold execLdh at e₀
  (try dsimp only at e₀)
  first
  | cases e₀
  | ((repeat' split at e₀) <;> cases e₀)
  all_goals repeat'
    first
    | with_reducible exact Does.refl _ _
    | decide
    | with_reducible apply loadExec_does
    | split

theorem execLdb_does {fs₀ s₀ n t f s t₀} (h₀ : Does fs₀ s₀ s) (e₀ : execLdb n t f s = .next t₀)
    (hf₀ : Fld.within [.regs, .pairs, .funcs, .flights, .mem, .tiles, .reels, .loaded, .chains, .items, .windows, .jobs,
      .radio, .flow, .splice, .fault, .free, .out] fs₀ = true) : Does fs₀ s₀ t₀ := by
  refine h₀.trans ?_ hf₀
  clear h₀ hf₀
  unfold execLdb at e₀
  (try dsimp only at e₀)
  first
  | cases e₀
  | ((repeat' split at e₀) <;> cases e₀)
  all_goals repeat'
    first
    | with_reducible exact Does.refl _ _
    | decide
    | with_reducible apply loadExec_does
    | split

theorem execSt_does {fs₀ s₀ n t f s t₀} (h₀ : Does fs₀ s₀ s) (e₀ : execSt n t f s = .next t₀)
    (hf₀ : Fld.within [.regs, .pairs, .funcs, .flights, .mem, .tiles, .reels, .loaded, .chains, .items, .windows, .jobs,
      .radio, .flow, .splice, .fault, .free, .out] fs₀ = true) : Does fs₀ s₀ t₀ := by
  refine h₀.trans ?_ hf₀
  clear h₀ hf₀
  unfold execSt at e₀
  (try dsimp only at e₀)
  first
  | cases e₀
  | ((repeat' split at e₀) <;> cases e₀)
  all_goals repeat'
    first
    | with_reducible exact Does.refl _ _
    | decide
    | with_reducible apply storeExec_does
    | split

theorem execSth_does {fs₀ s₀ n t f s t₀} (h₀ : Does fs₀ s₀ s) (e₀ : execSth n t f s = .next t₀)
    (hf₀ : Fld.within [.regs, .pairs, .funcs, .flights, .mem, .tiles, .reels, .loaded, .chains, .items, .windows, .jobs,
      .radio, .flow, .splice, .fault, .free, .out] fs₀ = true) : Does fs₀ s₀ t₀ := by
  refine h₀.trans ?_ hf₀
  clear h₀ hf₀
  unfold execSth at e₀
  (try dsimp only at e₀)
  first
  | cases e₀
  | ((repeat' split at e₀) <;> cases e₀)
  all_goals repeat'
    first
    | with_reducible exact Does.refl _ _
    | decide
    | with_reducible apply storeExec_does
    | split

theorem execStb_does {fs₀ s₀ n t f s t₀} (h₀ : Does fs₀ s₀ s) (e₀ : execStb n t f s = .next t₀)
    (hf₀ : Fld.within [.regs, .pairs, .funcs, .flights, .mem, .tiles, .reels, .loaded, .chains, .items, .windows, .jobs,
      .radio, .flow, .splice, .fault, .free, .out] fs₀ = true) : Does fs₀ s₀ t₀ := by
  refine h₀.trans ?_ hf₀
  clear h₀ hf₀
  unfold execStb at e₀
  (try dsimp only at e₀)
  first
  | cases e₀
  | ((repeat' split at e₀) <;> cases e₀)
  all_goals repeat'
    first
    | with_reducible exact Does.refl _ _
    | decide
    | with_reducible apply storeExec_does
    | split

theorem execSeta_does {fs₀ s₀ n t sel k imm s t₀} (h₀ : Does fs₀ s₀ s) (e₀ : execSeta n t sel k imm s = .next t₀)
    (hf₀ : Fld.within [.regs, .pairs, .funcs, .flights, .mem, .tiles, .reels, .loaded, .chains, .items, .windows, .jobs,
      .radio, .flow, .splice, .fault, .free, .out] fs₀ = true) : Does fs₀ s₀ t₀ := by
  refine h₀.trans ?_ hf₀
  clear h₀ hf₀
  unfold execSeta at e₀
  (try dsimp only at e₀)
  first
  | cases e₀
  | ((repeat' split at e₀) <;> cases e₀)
  all_goals repeat'
    first
    | with_reducible exact Does.refl _ _
    | decide
    | with_reducible apply coreReg_does
    | split

theorem execMva_does {fs₀ s₀ n t sel k d s t₀} (h₀ : Does fs₀ s₀ s) (e₀ : execMva n t sel k d s = .next t₀)
    (hf₀ : Fld.within [.regs, .pairs, .funcs, .flights, .mem, .tiles, .reels, .loaded, .chains, .items, .windows, .jobs,
      .radio, .flow, .splice, .fault, .free, .out] fs₀ = true) : Does fs₀ s₀ t₀ := by
  refine h₀.trans ?_ hf₀
  clear h₀ hf₀
  unfold execMva at e₀
  (try dsimp only at e₀)
  first
  | cases e₀
  | ((repeat' split at e₀) <;> cases e₀)
  all_goals repeat'
    first
    | with_reducible exact Does.refl _ _
    | decide
    | with_reducible apply coreReg_does
    | split

theorem execMvd_does {fs₀ s₀ n t sel k d s t₀} (h₀ : Does fs₀ s₀ s) (e₀ : execMvd n t sel k d s = .next t₀)
    (hf₀ : Fld.within [.regs, .pairs, .funcs, .flights, .mem, .tiles, .reels, .loaded, .chains, .items, .windows, .jobs,
      .radio, .flow, .splice, .fault, .free, .out] fs₀ = true) : Does fs₀ s₀ t₀ := by
  refine h₀.trans ?_ hf₀
  clear h₀ hf₀
  unfold execMvd at e₀
  (try dsimp only at e₀)
  first
  | cases e₀
  | ((repeat' split at e₀) <;> cases e₀)
  all_goals repeat'
    first
    | with_reducible exact Does.refl _ _
    | decide
    | with_reducible apply coreReg_does
    | split

theorem execAdda_does {fs₀ s₀ n t k imm s t₀} (h₀ : Does fs₀ s₀ s) (e₀ : execAdda n t k imm s = .next t₀)
    (hf₀ : Fld.within [.regs, .pairs, .funcs, .flights, .mem, .tiles, .reels, .loaded, .chains, .items, .windows, .jobs,
      .radio, .flow, .splice, .fault, .free, .out] fs₀ = true) : Does fs₀ s₀ t₀ := by
  refine h₀.trans ?_ hf₀
  clear h₀ hf₀
  unfold execAdda at e₀
  (try dsimp only at e₀)
  first
  | cases e₀
  | ((repeat' split at e₀) <;> cases e₀)
  all_goals repeat'
    first
    | with_reducible exact Does.refl _ _
    | decide
    | with_reducible apply coreReg_does
    | split

/-! ### Phy -/

theorem bindBlock_does {fs₀ s₀ c k tb s} (h₀ : Does fs₀ s₀ s) (hf₀ : Fld.within [.chains, .radio] fs₀ = true) :
    Does fs₀ s₀ (bindBlock c k tb s) := by
  refine h₀.trans ?_ hf₀
  clear h₀ hf₀
  unfold bindBlock
  try dsimp only
  all_goals repeat'
    first
    | with_reducible exact Does.refl _ _
    | decide
    | with_reducible apply setChain_does
    | split
    | ((with_reducible refine Does.upd ?_ ?_ ?_); (on_goal 2 => exact rfl); (on_goal 2 => (intro f hf; cases f <;> first | exact absurd (by decide) hf | dsimp only [sameFld])))

theorem bindWaiting_does {fs₀ s₀ ref x2 x3} (h₀ : Does fs₀ s₀ x3) (hf₀ : Fld.within [.regs, .pairs, .funcs, .flights,
      .chains, .radio, .fault, .out] fs₀ = true) :
    Does fs₀ s₀ (bindWaiting ref x2 x3) := by
  refine h₀.trans ?_ hf₀
  clear h₀ hf₀
  fun_induction bindWaiting ref x2 x3
  all_goals try dsimp +zetaDelta only
  all_goals repeat'
    first
    | with_reducible exact Does.refl _ _
    | decide
    | with_reducible refine Does.trans ?_ (by assumption) ?_
    | with_reducible apply bindBlock_does
    | with_reducible apply refuse_does
    | with_reducible apply finish_does
    | split
    | ((with_reducible refine Does.upd ?_ ?_ ?_); (on_goal 2 => exact rfl); (on_goal 2 => (intro f hf; cases f <;> first | exact absurd (by decide) hf | dsimp only [sameFld])))

theorem armChain_does {fs₀ s₀ r d l chain pdus t0 s} (h₀ : Does fs₀ s₀ s) (hf₀ : Fld.within [.regs, .pairs, .funcs, .flights,
      .chains, .radio, .fault, .out] fs₀ = true) :
    Does fs₀ s₀ (armChain r d l chain pdus t0 s) := by
  refine h₀.trans ?_ hf₀
  clear h₀ hf₀
  unfold armChain
  try dsimp only
  all_goals repeat'
    first
    | with_reducible exact Does.refl _ _
    | decide
    | with_reducible apply bindWaiting_does
    | with_reducible apply markStarted_does
    | split
    | ((with_reducible refine Does.upd ?_ ?_ ?_); (on_goal 2 => exact rfl); (on_goal 2 => (intro f hf; cases f <;> first | exact absurd (by decide) hf | dsimp only [sameFld])))

theorem phyArm_does {fs₀ s₀ r d l chain b s} (h₀ : Does fs₀ s₀ s) (hf₀ : Fld.within [.regs, .pairs, .funcs, .flights,
      .chains, .radio, .fault, .out] fs₀ = true) :
    Does fs₀ s₀ (phyArm r d l chain b s) := by
  refine h₀.trans ?_ hf₀
  clear h₀ hf₀
  unfold phyArm
  try dsimp only
  all_goals repeat'
    first
    | with_reducible exact Does.refl _ _
    | decide
    | with_reducible apply armChain_does
    | with_reducible apply refuse_does
    | split

theorem phyGo_does {fs₀ s₀ r kind reserved body d s} (h₀ : Does fs₀ s₀ s) (hf₀ : Fld.within [.regs, .pairs, .funcs, .flights,
      .chains, .radio, .fault, .out] fs₀ = true) :
    Does fs₀ s₀ (phyGo r kind reserved body d s) := by
  refine h₀.trans ?_ hf₀
  clear h₀ hf₀
  unfold phyGo
  try dsimp only
  all_goals repeat'
    first
    | with_reducible exact Does.refl _ _
    | decide
    | with_reducible apply phyArm_does
    | with_reducible apply inputError_does
    | with_reducible apply refuse_does
    | with_reducible apply finish_does
    | split

theorem txGo_does {fs₀ s₀ r d bs s} (h₀ : Does fs₀ s₀ s) (hf₀ : Fld.within [.regs, .pairs, .funcs, .flights, .chains, .radio,
      .fault, .out] fs₀ = true) :
    Does fs₀ s₀ (txGo r d bs s) := by
  refine h₀.trans ?_ hf₀
  clear h₀ hf₀
  unfold txGo
  try dsimp only
  all_goals repeat'
    first
    | with_reducible exact Does.refl _ _
    | decide
    | with_reducible apply bindBlock_does
    | with_reducible apply refuse_does
    | with_reducible apply finish_does
    | with_reducible apply markStarted_does
    | split
    | ((with_reducible refine Does.upd ?_ ?_ ?_); (on_goal 2 => exact rfl); (on_goal 2 => (intro f hf; cases f <;> first | exact absurd (by decide) hf | dsimp only [sameFld])))

theorem rxDone_does {fs₀ s₀ c s} (h₀ : Does fs₀ s₀ s) (hf₀ : Fld.within [.regs, .pairs, .funcs, .flights, .mem, .fault,
      .free, .out] fs₀ = true) :
    Does fs₀ s₀ (rxDone c s) := by
  refine h₀.trans ?_ hf₀
  clear h₀ hf₀
  unfold rxDone
  try dsimp only
  all_goals repeat'
    first
    | with_reducible exact Does.refl _ _
    | decide
    | with_reducible apply useMeas_does
    | with_reducible apply finishOut_does
    | split

theorem dlDone_does {fs₀ s₀ c s} (h₀ : Does fs₀ s₀ s) (hf₀ : Fld.within [.regs, .pairs, .funcs, .flights, .fault,
      .out] fs₀ = true) :
    Does fs₀ s₀ (dlDone c s) := by
  refine h₀.trans ?_ hf₀
  clear h₀ hf₀
  unfold dlDone
  try dsimp only
  all_goals repeat'
    first
    | with_reducible exact Does.refl _ _
    | decide
    | with_reducible apply finish_does
    | split

theorem chainDone_does {fs₀ s₀ r s0} (h₀ : Does fs₀ s₀ s0) (hf₀ : Fld.within [.regs, .pairs, .funcs, .flights, .mem, .chains,
      .radio, .fault, .free, .out] fs₀ = true) :
    Does fs₀ s₀ (chainDone r s0) := by
  refine h₀.trans ?_ hf₀
  clear h₀ hf₀
  unfold chainDone
  try dsimp only
  all_goals repeat'
    first
    | with_reducible exact Does.refl _ _
    | decide
    | with_reducible apply dlDone_does
    | with_reducible apply rxDone_does
    | with_reducible apply deliverBlocks_does
    | with_reducible apply setChain_does
    | split

theorem execPhyUlTti_does {fs₀ s₀ r body s t₀} (h₀ : Does fs₀ s₀ s) (e₀ : execPhyUlTti r body s = .next t₀)
    (hf₀ : Fld.within [.regs, .pairs, .funcs, .flights, .chains, .radio, .fault, .out] fs₀ = true) : Does fs₀ s₀ t₀ := by
  refine h₀.trans ?_ hf₀
  clear h₀ hf₀
  unfold execPhyUlTti at e₀
  (try dsimp only at e₀)
  first
  | cases e₀
  | ((repeat' split at e₀) <;> cases e₀)
  all_goals repeat'
    first
    | with_reducible exact Does.refl _ _
    | decide
    | with_reducible apply phyGo_does
    | with_reducible apply runDesc_does
    | with_reducible assumption
    | (intro a b h)
    | split

theorem execPhyDlTti_does {fs₀ s₀ r body s t₀} (h₀ : Does fs₀ s₀ s) (e₀ : execPhyDlTti r body s = .next t₀)
    (hf₀ : Fld.within [.regs, .pairs, .funcs, .flights, .chains, .radio, .fault, .out] fs₀ = true) : Does fs₀ s₀ t₀ := by
  refine h₀.trans ?_ hf₀
  clear h₀ hf₀
  unfold execPhyDlTti at e₀
  (try dsimp only at e₀)
  first
  | cases e₀
  | ((repeat' split at e₀) <;> cases e₀)
  all_goals repeat'
    first
    | with_reducible exact Does.refl _ _
    | decide
    | with_reducible apply phyGo_does
    | with_reducible apply runDesc_does
    | with_reducible assumption
    | (intro a b h)
    | split

theorem execPhyUlDci_does {fs₀ s₀ r body s t₀} (h₀ : Does fs₀ s₀ s) (e₀ : execPhyUlDci r body s = .next t₀)
    (hf₀ : Fld.within [.regs, .pairs, .funcs, .flights, .chains, .radio, .fault, .out] fs₀ = true) : Does fs₀ s₀ t₀ := by
  refine h₀.trans ?_ hf₀
  clear h₀ hf₀
  unfold execPhyUlDci at e₀
  (try dsimp only at e₀)
  first
  | cases e₀
  | ((repeat' split at e₀) <;> cases e₀)
  all_goals repeat'
    first
    | with_reducible exact Does.refl _ _
    | decide
    | with_reducible apply phyGo_does
    | with_reducible apply runDesc_does
    | with_reducible assumption
    | (intro a b h)
    | split

theorem execPhyTxData_does {fs₀ s₀ r tb s t₀} (h₀ : Does fs₀ s₀ s) (e₀ : execPhyTxData r tb s = .next t₀)
    (hf₀ : Fld.within [.regs, .pairs, .funcs, .flights, .mem, .chains, .radio, .fault, .free,
      .out] fs₀ = true) : Does fs₀ s₀ t₀ := by
  refine h₀.trans ?_ hf₀
  clear h₀ hf₀
  unfold execPhyTxData at e₀
  (try dsimp only at e₀)
  first
  | cases e₀
  | ((repeat' split at e₀) <;> cases e₀)
  all_goals repeat'
    first
    | with_reducible exact Does.refl _ _
    | decide
    | with_reducible apply txGo_does
    | with_reducible apply withInput_does
    | with_reducible apply runDesc_does
    | with_reducible apply refuse_does
    | with_reducible assumption
    | (intro a b h)
    | split

/-! ### Fronthaul -/

theorem seqUse_does {fs₀ s₀ p eaxc down s} (h₀ : Does fs₀ s₀ s) (hf₀ : Fld.within [.radio] fs₀ = true) :
    Does fs₀ s₀ (seqUse p eaxc down s) := by
  refine h₀.trans ?_ hf₀
  clear h₀ hf₀
  unfold seqUse
  try dsimp only
  all_goals repeat'
    first
    | with_reducible exact Does.refl _ _
    | decide
    | split
    | ((with_reducible refine Does.upd ?_ ?_ ?_); (on_goal 2 => exact rfl); (on_goal 2 => (intro f hf; cases f <;> first | exact absurd (by decide) hf | dsimp only [sameFld])))

theorem putPrb_does {fs₀ s₀ a k xs s} (h₀ : Does fs₀ s₀ s) (hf₀ : Fld.within [.mem] fs₀ = true) :
    Does fs₀ s₀ (putPrb a k xs s) := by
  refine h₀.trans ?_ hf₀
  clear h₀ hf₀
  unfold putPrb
  try dsimp only
  all_goals repeat'
    first
    | with_reducible exact Does.refl _ _
    | decide
    | with_reducible apply memPut_does
    | split

theorem fhSend_does {fs₀ s₀ p o s} (h₀ : Does fs₀ s₀ s) (hf₀ : Fld.within [.regs, .out] fs₀ = true) :
    Does fs₀ s₀ (fhSend p o s) := by
  refine h₀.trans ?_ hf₀
  clear h₀ hf₀
  unfold fhSend
  try dsimp only
  all_goals repeat'
    first
    | with_reducible exact Does.refl _ _
    | decide
    | with_reducible apply emit_does
    | with_reducible apply bump_does
    | split

theorem fhSendSeq_does {fs₀ s₀ p eaxc down o s} (h₀ : Does fs₀ s₀ s) (hf₀ : Fld.within [.regs, .radio, .out] fs₀ = true) :
    Does fs₀ s₀ (fhSendSeq p eaxc down o s) := by
  refine h₀.trans ?_ hf₀
  clear h₀ hf₀
  unfold fhSendSeq
  try dsimp only
  all_goals repeat'
    first
    | with_reducible exact Does.refl _ _
    | decide
    | with_reducible apply fhSend_does
    | with_reducible apply seqUse_does
    | split

theorem cplaneSends_does {fs₀ s₀ c ix x3 x4} (h₀ : Does fs₀ s₀ x4) (hf₀ : Fld.within [.regs, .radio, .out] fs₀ = true) :
    Does fs₀ s₀ (cplaneSends c ix x3 x4) := by
  refine h₀.trans ?_ hf₀
  clear h₀ hf₀
  fun_induction cplaneSends c ix x3 x4
  all_goals try dsimp +zetaDelta only
  all_goals repeat'
    first
    | with_reducible exact Does.refl _ _
    | decide
    | with_reducible refine Does.trans ?_ (by assumption) ?_
    | with_reducible apply fhSendSeq_does
    | split

theorem cplaneAt_does {fs₀ s₀ c ix s} (h₀ : Does fs₀ s₀ s) (hf₀ : Fld.within [.regs, .radio, .out] fs₀ = true) :
    Does fs₀ s₀ (cplaneAt c ix s) := by
  refine h₀.trans ?_ hf₀
  clear h₀ hf₀
  unfold cplaneAt
  try dsimp only
  all_goals repeat'
    first
    | with_reducible exact Does.refl _ _
    | decide
    | with_reducible apply cplaneSends_does
    | split

/-! ### Director -/

theorem offerWindows_does {fs₀ s₀ c x l s} (h₀ : Does fs₀ s₀ s) (hf₀ : Fld.within [.regs, .windows] fs₀ = true) :
    Does fs₀ s₀ (offerWindows c x l s) := by
  refine h₀.trans ?_ hf₀
  clear h₀ hf₀
  unfold offerWindows
  try dsimp only
  all_goals repeat'
    first
    | with_reducible exact Does.refl _ _
    | decide
    | with_reducible apply bump_does
    | split
    | ((with_reducible refine Does.upd ?_ ?_ ?_); (on_goal 2 => exact rfl); (on_goal 2 => (intro f hf; cases f <;> first | exact absurd (by decide) hf | dsimp only [sameFld])))

theorem rememberFired_does {fs₀ s₀ c s} (h₀ : Does fs₀ s₀ s) (hf₀ : Fld.within [.time] fs₀ = true) :
    Does fs₀ s₀ (rememberFired c s) := by
  refine h₀.trans ?_ hf₀
  clear h₀ hf₀
  unfold rememberFired
  try dsimp only
  all_goals repeat'
    first
    | with_reducible exact Does.refl _ _
    | decide
    | split
    | ((with_reducible refine Does.upd ?_ ?_ ?_); (on_goal 2 => exact rfl); (on_goal 2 => (intro f hf; cases f <;> first | exact absurd (by decide) hf | dsimp only [sameFld])))

theorem startStep_does {fs₀ s₀ c x s} (h₀ : Does fs₀ s₀ s) (hf₀ : Fld.within [.regs, .time, .tiles, .chains, .windows,
      .radio, .out] fs₀ = true) :
    Does fs₀ s₀ (startStep c x s) := by
  refine h₀.trans ?_ hf₀
  clear h₀ hf₀
  unfold startStep
  try dsimp only
  all_goals repeat'
    first
    | with_reducible exact Does.refl _ _
    | decide
    | with_reducible apply rememberFired_does
    | with_reducible apply offerWindows_does
    | with_reducible apply cplaneAt_does
    | with_reducible apply loadCode_does
    | with_reducible apply startThread_does
    | with_reducible apply setChain_does
    | split

theorem overrun_does {fs₀ s₀ n s} (h₀ : Does fs₀ s₀ s) (hf₀ : Fld.within [.regs, .pairs, .funcs, .flights, .mem, .tiles,
      .reels, .chains, .windows, .radio, .fault, .free, .out] fs₀ = true) :
    Does fs₀ s₀ (overrun n s) := by
  refine h₀.trans ?_ hf₀
  clear h₀ hf₀
  unfold overrun
  try dsimp only
  all_goals repeat'
    first
    | with_reducible exact Does.refl _ _
    | decide
    | with_reducible apply violateFree_does
    | with_reducible apply stopThread_does
    | split

theorem cueResume_does {fs₀ s₀ n s} (h₀ : Does fs₀ s₀ s) (hf₀ : Fld.within [.clk, .time, .tiles] fs₀ = true) :
    Does fs₀ s₀ (cueResume n s) := by
  refine h₀.trans ?_ hf₀
  clear h₀ hf₀
  unfold cueResume
  try dsimp only
  all_goals repeat'
    first
    | with_reducible exact Does.refl _ _
    | decide
    | with_reducible apply setThread_does
    | with_reducible apply runToTime_does
    | split

theorem fireOn_does {fs₀ s₀ r x s} (h₀ : Does fs₀ s₀ s) (hf₀ : Fld.within [.regs, .time, .pairs, .funcs, .flights, .mem,
      .tiles, .reels, .chains, .windows, .radio, .fault, .free, .out] fs₀ = true) :
    Does fs₀ s₀ (fireOn r x s) := by
  refine h₀.trans ?_ hf₀
  clear h₀ hf₀
  unfold fireOn
  try dsimp only
  all_goals repeat'
    first
    | with_reducible exact Does.refl _ _
    | decide
    | with_reducible apply startStep_does
    | with_reducible apply fenceAbort_does
    | split

theorem fireStep_does {fs₀ s₀ r x s} (h₀ : Does fs₀ s₀ s) (hf₀ : Fld.within [.regs, .clk, .time, .pairs, .funcs, .flights,
      .mem, .tiles, .reels, .chains, .windows, .radio, .fault, .free, .out] fs₀ = true) :
    Does fs₀ s₀ (fireStep r x s) := by
  refine h₀.trans ?_ hf₀
  clear h₀ hf₀
  unfold fireStep
  try dsimp only
  all_goals repeat'
    first
    | with_reducible exact Does.refl _ _
    | decide
    | with_reducible apply fireOn_does
    | with_reducible apply overrun_does
    | with_reducible apply runToTime_does
    | split

theorem queueRushes_does {fs₀ s₀ c s} (h₀ : Does fs₀ s₀ s) (hf₀ : Fld.within [.radio] fs₀ = true) :
    Does fs₀ s₀ (queueRushes c s) := by
  refine h₀.trans ?_ hf₀
  clear h₀ hf₀
  unfold queueRushes
  try dsimp only
  all_goals repeat'
    first
    | with_reducible exact Does.refl _ _
    | decide
    | split
    | ((with_reducible refine Does.upd ?_ ?_ ?_); (on_goal 2 => exact rfl); (on_goal 2 => (intro f hf; cases f <;> first | exact absurd (by decide) hf | dsimp only [sameFld])))

theorem missDeadline_does {fs₀ s₀ r s} (h₀ : Does fs₀ s₀ s) (hf₀ : Fld.within [.regs, .pairs, .funcs, .flights, .mem, .tiles,
      .reels, .chains, .windows, .radio, .fault, .free, .out] fs₀ = true) :
    Does fs₀ s₀ (missDeadline r s) := by
  refine h₀.trans ?_ hf₀
  clear h₀ hf₀
  unfold missDeadline
  try dsimp only
  all_goals repeat'
    first
    | with_reducible exact Does.refl _ _
    | decide
    | with_reducible apply violateFree_does
    | split

theorem dropChain_does {fs₀ s₀ r s} (h₀ : Does fs₀ s₀ s) (hf₀ : Fld.within [.chains, .radio] fs₀ = true) :
    Does fs₀ s₀ (dropChain r s) := by
  refine h₀.trans ?_ hf₀
  clear h₀ hf₀
  unfold dropChain
  try dsimp only
  all_goals repeat'
    first
    | with_reducible exact Does.refl _ _
    | decide
    | with_reducible apply dropOldPacks_does
    | split
    | ((with_reducible refine Does.upd ?_ ?_ ?_); (on_goal 2 => exact rfl); (on_goal 2 => (intro f hf; cases f <;> first | exact absurd (by decide) hf | dsimp only [sameFld])))

theorem fireDeadline_does {fs₀ s₀ c s} (h₀ : Does fs₀ s₀ s) (hf₀ : Fld.within [.regs, .clk, .time, .pairs, .funcs, .flights,
      .mem, .tiles, .reels, .chains, .windows, .radio, .fault, .free, .out] fs₀ = true) :
    Does fs₀ s₀ (fireDeadline c s) := by
  refine h₀.trans ?_ hf₀
  clear h₀ hf₀
  unfold fireDeadline
  try dsimp only
  all_goals repeat'
    first
    | with_reducible exact Does.refl _ _
    | decide
    | with_reducible apply dropChain_does
    | with_reducible apply missDeadline_does
    | with_reducible apply queueRushes_does
    | with_reducible apply runToTime_does
    | split

theorem fireWaiting_does {fs₀ s₀ s} (h₀ : Does fs₀ s₀ s) (hf₀ : Fld.within [.clk, .time, .tiles] fs₀ = true) :
    Does fs₀ s₀ (fireWaiting s) := by
  refine h₀.trans ?_ hf₀
  clear h₀ hf₀
  unfold fireWaiting
  try dsimp only
  all_goals repeat'
    first
    | with_reducible exact Does.refl _ _
    | decide
    | with_reducible apply cueResume_does
    | split

theorem stepDone_does {fs₀ s₀ r x res s} (h₀ : Does fs₀ s₀ s) (hf₀ : Fld.within [.regs, .pairs, .funcs, .flights, .mem,
      .chains, .radio, .fault, .free, .out] fs₀ = true) :
    Does fs₀ s₀ (stepDone r x res s) := by
  refine h₀.trans ?_ hf₀
  clear h₀ hf₀
  unfold stepDone
  try dsimp only
  all_goals repeat'
    first
    | with_reducible exact Does.refl _ _
    | decide
    | with_reducible apply chainDone_does
    | with_reducible apply deliver_does
    | split

theorem stepHalted_does {fs₀ s₀ n r ix res s} (h₀ : Does fs₀ s₀ s) (hf₀ : Fld.within [.regs, .pairs, .funcs, .flights, .mem,
      .chains, .windows, .radio, .fault, .free, .out] fs₀ = true) :
    Does fs₀ s₀ (stepHalted n r ix res s) := by
  refine h₀.trans ?_ hf₀
  clear h₀ hf₀
  unfold stepHalted
  try dsimp only
  all_goals repeat'
    first
    | with_reducible exact Does.refl _ _
    | decide
    | with_reducible apply stepDone_does
    | with_reducible apply dropWindows_does
    | with_reducible apply setChain_does
    | split

theorem itemHalted_does {fs₀ s₀ k s} (h₀ : Does fs₀ s₀ s) (hf₀ : Fld.within [.regs, .pairs, .funcs, .flights, .mem, .tiles,
      .reels, .loaded, .items, .windows, .flow, .fault, .free, .out] fs₀ = true) :
    Does fs₀ s₀ (itemHalted k s) := by
  refine h₀.trans ?_ hf₀
  clear h₀ hf₀
  unfold itemHalted
  try dsimp only
  all_goals repeat'
    first
    | with_reducible exact Does.refl _ _
    | decide
    | with_reducible apply leaveItem_does
    | split

theorem placeItem_does {fs₀ s₀ i n t role entry s} (h₀ : Does fs₀ s₀ s) (hf₀ : Fld.within [.regs, .tiles, .items] fs₀ = true) :
    Does fs₀ s₀ (placeItem i n t role entry s) := by
  refine h₀.trans ?_ hf₀
  clear h₀ hf₀
  unfold placeItem
  try dsimp only
  all_goals repeat'
    first
    | with_reducible exact Does.refl _ _
    | decide
    | with_reducible apply setItem_does
    | with_reducible apply startThread_does
    | split

theorem loadSu_does {fs₀ s₀ code n s} (h₀ : Does fs₀ s₀ s) (hf₀ : Fld.within [.tiles] fs₀ = true) :
    Does fs₀ s₀ (loadSu code n s) := by
  refine h₀.trans ?_ hf₀
  clear h₀ hf₀
  unfold loadSu
  try dsimp only
  all_goals repeat'
    first
    | with_reducible exact Does.refl _ _
    | decide
    | with_reducible apply setTile_does
    | split

theorem setWindow_does {fs₀ s₀ old new s} (h₀ : Does fs₀ s₀ s) (hf₀ : Fld.within [.windows] fs₀ = true) :
    Does fs₀ s₀ (setWindow old new s) := by
  refine h₀.trans ?_ hf₀
  clear h₀ hf₀
  unfold setWindow
  try dsimp only
  all_goals repeat'
    first
    | with_reducible exact Does.refl _ _
    | decide
    | split
    | ((with_reducible refine Does.upd ?_ ?_ ?_); (on_goal 2 => exact rfl); (on_goal 2 => (intro f hf; cases f <;> first | exact absurd (by decide) hf | dsimp only [sameFld])))

theorem releaseShadows_does {fs₀ s₀ n m held s0} (h₀ : Does fs₀ s₀ s0) (hf₀ : Fld.within [.regs, .pairs, .funcs, .flights,
      .mem, .tiles, .reels, .loaded, .chains, .items, .windows, .jobs, .radio, .flow, .splice, .fault, .free,
      .out] fs₀ = true) :
    Does fs₀ s₀ (releaseShadows n m held s0) := by
  refine h₀.trans ?_ hf₀
  clear h₀ hf₀
  unfold releaseShadows
  try dsimp only
  all_goals repeat'
    first
    | with_reducible exact Does.refl _ _
    | decide
    | with_reducible apply countHeld_does
    | with_reducible apply pumpMask_does
    | with_reducible apply setTile_does
    | split

theorem openWindow_does {fs₀ s₀ n x m held s} (h₀ : Does fs₀ s₀ s) (hf₀ : Fld.within [.regs, .pairs, .funcs, .flights, .mem,
      .tiles, .reels, .loaded, .chains, .items, .windows, .jobs, .radio, .flow, .splice, .fault, .free, .out] fs₀ = true) :
    Does fs₀ s₀ (openWindow n x m held s) := by
  refine h₀.trans ?_ hf₀
  clear h₀ hf₀
  unfold openWindow
  try dsimp only
  all_goals repeat'
    first
    | with_reducible exact Does.refl _ _
    | decide
    | with_reducible apply setWindow_does
    | with_reducible apply doCut_does
    | with_reducible apply countHeld_does
    | with_reducible apply pumpMask_does
    | with_reducible apply setItem_does
    | with_reducible apply bump_does
    | with_reducible apply useFree_does
    | split

theorem retileReels_does {fs₀ s₀ tiles x2 x3} (h₀ : Does fs₀ s₀ x3) (hf₀ : Fld.within [.reels] fs₀ = true) :
    Does fs₀ s₀ (retileReels tiles x2 x3) := by
  refine h₀.trans ?_ hf₀
  clear h₀ hf₀
  fun_induction retileReels tiles x2 x3
  all_goals try dsimp +zetaDelta only
  all_goals repeat'
    first
    | with_reducible exact Does.refl _ _
    | decide
    | with_reducible refine Does.trans ?_ (by assumption) ?_
    | with_reducible apply setReel_does
    | split

theorem retile_does {fs₀ s₀ l tiles s} (h₀ : Does fs₀ s₀ s) (hf₀ : Fld.within [.reels, .loaded] fs₀ = true) :
    Does fs₀ s₀ (retile l tiles s) := by
  refine h₀.trans ?_ hf₀
  clear h₀ hf₀
  unfold retile
  try dsimp only
  all_goals repeat'
    first
    | with_reducible exact Does.refl _ _
    | decide
    | with_reducible apply retileReels_does
    | split
    | ((with_reducible refine Does.upd ?_ ?_ ?_); (on_goal 2 => exact rfl); (on_goal 2 => (intro f hf; cases f <;> first | exact absurd (by decide) hf | dsimp only [sameFld])))

theorem retileSheets_does {fs₀ s₀ old n x3 x4} (h₀ : Does fs₀ s₀ x4) (hf₀ : Fld.within [.reels, .loaded] fs₀ = true) :
    Does fs₀ s₀ (retileSheets old n x3 x4) := by
  refine h₀.trans ?_ hf₀
  clear h₀ hf₀
  fun_induction retileSheets old n x3 x4
  all_goals try dsimp +zetaDelta only
  all_goals repeat'
    first
    | with_reducible exact Does.refl _ _
    | decide
    | with_reducible refine Does.trans ?_ (by assumption) ?_
    | with_reducible apply retile_does
    | split

theorem retileChains_does {fs₀ s₀ old n f s} (h₀ : Does fs₀ s₀ s) (hf₀ : Fld.within [.chains] fs₀ = true) :
    Does fs₀ s₀ (retileChains old n f s) := by
  refine h₀.trans ?_ hf₀
  clear h₀ hf₀
  unfold retileChains
  try dsimp only
  all_goals repeat'
    first
    | with_reducible exact Does.refl _ _
    | decide
    | split
    | ((with_reducible refine Does.upd ?_ ?_ ?_); (on_goal 2 => exact rfl); (on_goal 2 => (intro f hf; cases f <;> first | exact absurd (by decide) hf | dsimp only [sameFld])))

theorem standIn_does {fs₀ s₀ l role old n s} (h₀ : Does fs₀ s₀ s) (hf₀ : Fld.within [.regs, .funcs, .tiles, .reels, .loaded,
      .chains, .fault, .out] fs₀ = true) :
    Does fs₀ s₀ (standIn l role old n s) := by
  refine h₀.trans ?_ hf₀
  clear h₀ hf₀
  unfold standIn
  try dsimp only
  all_goals repeat'
    first
    | with_reducible exact Does.refl _ _
    | decide
    | with_reducible apply retileChains_does
    | with_reducible apply retileSheets_does
    | with_reducible apply loadCode_does
    | with_reducible apply raise_does
    | split
    | ((with_reducible refine Does.upd ?_ ?_ ?_); (on_goal 2 => exact rfl); (on_goal 2 => (intro f hf; cases f <;> first | exact absurd (by decide) hf | dsimp only [sameFld])))

theorem endItems_does {fs₀ s₀ ref x2 x3} (h₀ : Does fs₀ s₀ x3) (hf₀ : Fld.within [.regs, .pairs, .funcs, .flights, .mem,
      .tiles, .reels, .loaded, .items, .windows, .flow, .fault, .free, .out] fs₀ = true) :
    Does fs₀ s₀ (endItems ref x2 x3) := by
  refine h₀.trans ?_ hf₀
  clear h₀ hf₀
  fun_induction endItems ref x2 x3
  all_goals try dsimp +zetaDelta only
  all_goals repeat'
    first
    | with_reducible exact Does.refl _ _
    | decide
    | with_reducible refine Does.trans ?_ (by assumption) ?_
    | with_reducible apply endItemFault_does
    | split

theorem endLostJob_does {fs₀ s₀ j ref s} (h₀ : Does fs₀ s₀ s) (hf₀ : Fld.within [.regs, .pairs, .funcs, .flights, .mem,
      .tiles, .reels, .loaded, .jobs, .splice, .fault, .free, .out] fs₀ = true) :
    Does fs₀ s₀ (endLostJob j ref s) := by
  refine h₀.trans ?_ hf₀
  clear h₀ hf₀
  unfold endLostJob
  try dsimp only
  all_goals repeat'
    first
    | with_reducible exact Does.refl _ _
    | decide
    | with_reducible apply endJobBreak_does
    | with_reducible apply dropJob_does
    | with_reducible apply finish_does
    | with_reducible apply raise_does
    | split

theorem endLostJobs_does {fs₀ s₀ ref x2 x3} (h₀ : Does fs₀ s₀ x3) (hf₀ : Fld.within [.regs, .pairs, .funcs, .flights, .mem,
      .tiles, .reels, .loaded, .jobs, .splice, .fault, .free, .out] fs₀ = true) :
    Does fs₀ s₀ (endLostJobs ref x2 x3) := by
  refine h₀.trans ?_ hf₀
  clear h₀ hf₀
  fun_induction endLostJobs ref x2 x3
  all_goals try dsimp +zetaDelta only
  all_goals repeat'
    first
    | with_reducible exact Does.refl _ _
    | decide
    | with_reducible refine Does.trans ?_ (by assumption) ?_
    | with_reducible apply endLostJob_does
    | split

theorem loseModel_does {fs₀ s₀ l s} (h₀ : Does fs₀ s₀ s) (hf₀ : Fld.within [.regs, .pairs, .funcs, .flights, .mem, .tiles,
      .reels, .loaded, .items, .windows, .jobs, .flow, .splice, .fault, .free, .out] fs₀ = true) :
    Does fs₀ s₀ (loseModel l s) := by
  refine h₀.trans ?_ hf₀
  clear h₀ hf₀
  unfold loseModel
  try dsimp only
  all_goals repeat'
    first
    | with_reducible exact Does.refl _ _
    | decide
    | with_reducible apply endLostJobs_does
    | with_reducible apply endItems_does
    | with_reducible apply setLoads_does
    | with_reducible apply raise_does
    | split

theorem execCueFire_does {fs₀ s₀ g sfn slot chain step s t₀} (h₀ : Does fs₀ s₀ s) (e₀ : execCueFire g sfn slot chain step s = .next t₀)
    (hf₀ : Fld.within [.regs, .clk, .time, .pairs, .funcs, .flights, .mem, .tiles, .reels, .chains, .windows, .radio, .fault,
      .free, .out] fs₀ = true) : Does fs₀ s₀ t₀ := by
  refine h₀.trans ?_ hf₀
  clear h₀ hf₀
  unfold execCueFire at e₀
  (try dsimp only at e₀)
  first
  | cases e₀
  | ((repeat' split at e₀) <;> cases e₀)
  all_goals repeat'
    first
    | with_reducible exact Does.refl _ _
    | decide
    | with_reducible apply fireWaiting_does
    | with_reducible apply fireDeadline_does
    | with_reducible apply fireStep_does
    | with_reducible apply cueResume_does
    | split

theorem execStepCheckExpiry_does {fs₀ s₀ g sfn slot chain step res s t₀} (h₀ : Does fs₀ s₀ s) (e₀ : execStepCheckExpiry g sfn slot chain step res s = .next t₀)
    (hf₀ : Fld.within [.regs, .clk, .time, .pairs, .funcs, .flights, .mem, .tiles, .reels, .chains, .windows, .radio, .fault,
      .free, .out] fs₀ = true) : Does fs₀ s₀ t₀ := by
  refine h₀.trans ?_ hf₀
  clear h₀ hf₀
  unfold execStepCheckExpiry at e₀
  (try dsimp only at e₀)
  first
  | cases e₀
  | ((repeat' split at e₀) <;> cases e₀)
  all_goals repeat'
    first
    | with_reducible exact Does.refl _ _
    | decide
    | with_reducible apply violate_does
    | with_reducible apply deliver_does
    | with_reducible apply runToTime_does
    | split

theorem execThreadHalted_does {fs₀ s₀ n t res s t₀} (h₀ : Does fs₀ s₀ s) (e₀ : execThreadHalted n t res s = .next t₀)
    (hf₀ : Fld.within [.regs, .pairs, .funcs, .flights, .mem, .tiles, .reels, .loaded, .chains, .items, .windows, .radio,
      .flow, .fault, .free, .out] fs₀ = true) : Does fs₀ s₀ t₀ := by
  refine h₀.trans ?_ hf₀
  clear h₀ hf₀
  unfold execThreadHalted at e₀
  (try dsimp only at e₀)
  first
  | cases e₀
  | ((repeat' split at e₀) <;> cases e₀)
  all_goals repeat'
    first
    | with_reducible exact Does.refl _ _
    | decide
    | with_reducible apply itemHalted_does
    | with_reducible apply stepHalted_does
    | with_reducible apply setThread_does
    | split

theorem execSuPlace_does {fs₀ s₀ n s t₀} (h₀ : Does fs₀ s₀ s) (e₀ : execSuPlace n s = .next t₀)
    (hf₀ : Fld.within [.regs, .tiles, .items, .rounds] fs₀ = true) : Does fs₀ s₀ t₀ := by
  refine h₀.trans ?_ hf₀
  clear h₀ hf₀
  unfold execSuPlace at e₀
  (try dsimp only at e₀)
  first
  | cases e₀
  | ((repeat' split at e₀) <;> cases e₀)
  all_goals repeat'
    first
    | with_reducible exact Does.refl _ _
    | decide
    | with_reducible apply loadSu_does
    | with_reducible apply placeItem_does
    | with_reducible apply grantTo_does
    | with_reducible apply bump_does
    | split

theorem execWindowRelease_does {fs₀ s₀ n w s t₀} (h₀ : Does fs₀ s₀ s) (e₀ : execWindowRelease n w s = .next t₀)
    (hf₀ : Fld.within [.regs, .clk, .time, .pairs, .funcs, .flights, .mem, .tiles, .reels, .loaded, .chains, .items,
      .windows, .jobs, .radio, .flow, .splice, .fault, .free, .out] fs₀ = true) : Does fs₀ s₀ t₀ := by
  refine h₀.trans ?_ hf₀
  clear h₀ hf₀
  unfold execWindowRelease at e₀
  (try dsimp only at e₀)
  first
  | cases e₀
  | ((repeat' split at e₀) <;> cases e₀)
  all_goals repeat'
    first
    | with_reducible exact Does.refl _ _
    | decide
    | with_reducible apply releaseShadows_does
    | with_reducible apply setWindow_does
    | with_reducible apply runToTime_does
    | split

theorem execWindowOpen_does {fs₀ s₀ n w s t₀} (h₀ : Does fs₀ s₀ s) (e₀ : execWindowOpen n w s = .next t₀)
    (hf₀ : Fld.within [.regs, .clk, .time, .pairs, .funcs, .flights, .mem, .tiles, .reels, .loaded, .chains, .items,
      .windows, .jobs, .radio, .flow, .splice, .fault, .free, .out] fs₀ = true) : Does fs₀ s₀ t₀ := by
  refine h₀.trans ?_ hf₀
  clear h₀ hf₀
  unfold execWindowOpen at e₀
  (try dsimp only at e₀)
  first
  | cases e₀
  | ((repeat' split at e₀) <;> cases e₀)
  all_goals repeat'
    first
    | with_reducible exact Does.refl _ _
    | decide
    | with_reducible apply openWindow_does
    | with_reducible apply runToTime_does
    | split

theorem execParkLimitExpiry_does {fs₀ s₀ n cycles s t₀} (h₀ : Does fs₀ s₀ s) (e₀ : execParkLimitExpiry n cycles s = .next t₀)
    (hf₀ : Fld.within [.regs, .clk, .time, .pairs, .funcs, .flights, .mem, .tiles, .reels, .loaded, .items, .windows, .flow,
      .fault, .free, .out] fs₀ = true) : Does fs₀ s₀ t₀ := by
  refine h₀.trans ?_ hf₀
  clear h₀ hf₀
  unfold execParkLimitExpiry at e₀
  (try dsimp only at e₀)
  first
  | cases e₀
  | ((repeat' split at e₀) <;> cases e₀)
  all_goals repeat'
    first
    | with_reducible exact Does.refl _ _
    | decide
    | with_reducible apply returnItem_does
    | with_reducible apply runToClk_does
    | split

theorem execItemDispatch_does {fs₀ s₀ p n s t₀} (h₀ : Does fs₀ s₀ s) (e₀ : execItemDispatch p n s = .next t₀)
    (hf₀ : Fld.within [.regs, .tiles, .items, .rounds] fs₀ = true) : Does fs₀ s₀ t₀ := by
  refine h₀.trans ?_ hf₀
  clear h₀ hf₀
  unfold execItemDispatch at e₀
  (try dsimp only at e₀)
  first
  | cases e₀
  | ((repeat' split at e₀) <;> cases e₀)
  all_goals repeat'
    first
    | with_reducible exact Does.refl _ _
    | decide
    | with_reducible apply placeItem_does
    | with_reducible apply loadCode_does
    | with_reducible apply grantTo_does
    | split

theorem execTakeover_does {fs₀ s₀ n role s t₀} (h₀ : Does fs₀ s₀ s) (e₀ : execTakeover n role s = .next t₀)
    (hf₀ : Fld.within [.regs, .pairs, .funcs, .flights, .mem, .tiles, .reels, .loaded, .chains, .items, .windows, .flow,
      .fault, .free, .out] fs₀ = true) : Does fs₀ s₀ t₀ := by
  refine h₀.trans ?_ hf₀
  clear h₀ hf₀
  unfold execTakeover at e₀
  (try dsimp only at e₀)
  first
  | cases e₀
  | ((repeat' split at e₀) <;> cases e₀)
  all_goals repeat'
    first
    | with_reducible exact Does.refl _ _
    | decide
    | with_reducible apply standIn_does
    | with_reducible apply requeueItem_does
    | split

theorem execRoleRebind_does {fs₀ s₀ model role s t₀} (h₀ : Does fs₀ s₀ s) (e₀ : execRoleRebind model role s = .next t₀)
    (hf₀ : Fld.within [.regs, .pairs, .funcs, .flights, .mem, .tiles, .reels, .loaded, .items, .windows, .jobs, .flow,
      .splice, .fault, .free, .out] fs₀ = true) : Does fs₀ s₀ t₀ := by
  refine h₀.trans ?_ hf₀
  clear h₀ hf₀
  unfold execRoleRebind at e₀
  (try dsimp only at e₀)
  first
  | cases e₀
  | ((repeat' split at e₀) <;> cases e₀)
  all_goals repeat'
    first
    | with_reducible exact Does.refl _ _
    | decide
    | with_reducible apply loseModel_does
    | with_reducible apply retile_does
    | with_reducible apply loadCode_does
    | split

end Sys2Proof.Machine
end

