-- ==== Sys2Proof/Laws/DoesEngines.lean ====
section
/-! SUPPORT. What each operation can do: cues, the engines, host registers, memory and faults.
Each lemma lists the parts of the state its operation may change; the parts not listed stay, and the tables keep their
canonical form (`Does`). The lemma of a command says it of every next state the command answers. -/

set_option linter.all false

namespace Sys2Proof.Machine

/-! ### Match -/

theorem putEntry_does {fs₀ s₀ a bs bad s} (h₀ : Does fs₀ s₀ s) (hf₀ : Fld.within [.regs, .mem] fs₀ = true) :
    Does fs₀ s₀ (putEntry a bs bad s) := by
  refine h₀.trans ?_ hf₀
  clear h₀ hf₀
  unfold putEntry
  try dsimp only
  all_goals repeat'
    first
    | with_reducible exact Does.refl _ _
    | decide
    | with_reducible apply devWrite_does
    | with_reducible apply memTouch_does
    | with_reducible apply memMark_does
    | split

theorem putEntries_does {fs₀ s₀ x1 x2} (h₀ : Does fs₀ s₀ x2) (hf₀ : Fld.within [.regs, .mem] fs₀ = true) :
    Does fs₀ s₀ (putEntries x1 x2) := by
  refine h₀.trans ?_ hf₀
  clear h₀ hf₀
  fun_induction putEntries x1 x2
  all_goals try dsimp +zetaDelta only
  all_goals repeat'
    first
    | with_reducible exact Does.refl _ _
    | decide
    | with_reducible refine Does.trans ?_ (by assumption) ?_
    | with_reducible apply putEntry_does
    | split

theorem touchAll_does {fs₀ s₀ x1 x2} (h₀ : Does fs₀ s₀ x2) (hf₀ : Fld.within [.mem, .free] fs₀ = true) :
    Does fs₀ s₀ (touchAll x1 x2) := by
  refine h₀.trans ?_ hf₀
  clear h₀ hf₀
  fun_induction touchAll x1 x2
  all_goals try dsimp +zetaDelta only
  all_goals repeat'
    first
    | with_reducible exact Does.refl _ _
    | decide
    | with_reducible refine Does.trans ?_ (by assumption) ?_
    | with_reducible apply devTouch_does
    | split

theorem matchLast_does {fs₀ s₀ j rs bad s0 s} (h₀ : Does fs₀ s₀ s) (hf₀ : Fld.within [.regs, .mem] fs₀ = true) :
    Does fs₀ s₀ (matchLast j rs bad s0 s).2 := by
  refine h₀.trans ?_ hf₀
  clear h₀ hf₀
  unfold matchLast
  try dsimp only
  all_goals repeat'
    first
    | with_reducible exact Does.refl _ _
    | decide
    | with_reducible apply putEntries_does
    | split

theorem matchUnit_does {fs₀ s₀ j s} (h₀ : Does fs₀ s₀ s) (hf₀ : Fld.within [.regs, .mem, .free] fs₀ = true) :
    Does fs₀ s₀ (matchUnit j s).2 := by
  refine h₀.trans ?_ hf₀
  clear h₀ hf₀
  unfold matchUnit
  try dsimp only
  all_goals repeat'
    first
    | with_reducible exact Does.refl _ _
    | decide
    | with_reducible apply matchLast_does
    | with_reducible apply touchAll_does
    | with_reducible apply putEntries_does
    | split
    | (obtain rfl := congrArg Prod.snd ‹matchLast _ _ _ _ _ = _›)

/-! ### Track -/

theorem buildScratch_does {fs₀ s₀ bs s} (h₀ : Does fs₀ s₀ s) (hf₀ : Fld.within [.regs, .mem, .free] fs₀ = true) :
    Does fs₀ s₀ (buildScratch bs s) := by
  refine h₀.trans ?_ hf₀
  clear h₀ hf₀
  unfold buildScratch
  try dsimp only
  all_goals repeat'
    first
    | with_reducible exact Does.refl _ _
    | decide
    | with_reducible apply touchAll_does
    | with_reducible apply devWrite_does
    | split
    | ((with_reducible refine Does.upd ?_ ?_ ?_); (on_goal 2 => exact rfl); (on_goal 2 => (intro f hf; cases f <;> first | exact absurd (by decide) hf | dsimp only [sameFld])))

theorem trackUnit_does {fs₀ s₀ j s} (h₀ : Does fs₀ s₀ s) (hf₀ : Fld.within [.regs, .mem, .free] fs₀ = true) :
    Does fs₀ s₀ (trackUnit j s).2 := by
  refine h₀.trans ?_ hf₀
  clear h₀ hf₀
  unfold trackUnit
  try dsimp only
  all_goals repeat'
    first
    | with_reducible exact Does.refl _ _
    | decide
    | with_reducible apply putEntry_does
    | with_reducible apply devTouch_does
    | with_reducible apply bump_does
    | split
    | ((with_reducible refine Does.upd ?_ ?_ ?_); (on_goal 2 => exact rfl); (on_goal 2 => (intro f hf; cases f <;> first | exact absurd (by decide) hf | dsimp only [sameFld])))

/-! ### Compose -/

theorem composeUnit_does {fs₀ s₀ j s} (h₀ : Does fs₀ s₀ s) (hf₀ : Fld.within [.regs, .mem, .free] fs₀ = true) :
    Does fs₀ s₀ (composeUnit j s).2 := by
  refine h₀.trans ?_ hf₀
  clear h₀ hf₀
  unfold composeUnit
  try dsimp only
  all_goals repeat'
    first
    | with_reducible exact Does.refl _ _
    | decide
    | with_reducible apply touchAll_does
    | with_reducible apply putEntries_does
    | with_reducible apply bump_does
    | split

theorem contactUnit_does {fs₀ s₀ j s} (h₀ : Does fs₀ s₀ s) (hf₀ : Fld.within [.regs, .mem, .free] fs₀ = true) :
    Does fs₀ s₀ (contactUnit j s).2 := by
  refine h₀.trans ?_ hf₀
  clear h₀ hf₀
  unfold contactUnit
  try dsimp only
  all_goals repeat'
    first
    | with_reducible exact Does.refl _ _
    | decide
    | with_reducible apply touchAll_does
    | with_reducible apply putEntries_does
    | with_reducible apply putEntry_does
    | split

/-! ### Engines -/

theorem setEng_does {fs₀ s₀ e x s} (h₀ : Does fs₀ s₀ s) (hf₀ : Fld.within [.cont, .matte] fs₀ = true) :
    Does fs₀ s₀ (setEng e x s) := by
  refine h₀.trans ?_ hf₀
  clear h₀ hf₀
  unfold setEng
  try dsimp only
  all_goals repeat'
    first
    | with_reducible exact Does.refl _ _
    | decide
    | split
    | ((with_reducible refine Does.upd ?_ ?_ ?_); (on_goal 2 => exact rfl); (on_goal 2 => (intro f hf; cases f <;> first | exact absurd (by decide) hf | dsimp only [sameFld])))

theorem putFields_does {fs₀ s₀ a x2 x3} (h₀ : Does fs₀ s₀ x3) (hf₀ : Fld.within [.regs, .mem] fs₀ = true) :
    Does fs₀ s₀ (putFields a x2 x3) := by
  refine h₀.trans ?_ hf₀
  clear h₀ hf₀
  fun_induction putFields a x2 x3
  all_goals try dsimp +zetaDelta only
  all_goals repeat'
    first
    | with_reducible exact Does.refl _ _
    | decide
    | with_reducible refine Does.trans ?_ (by assumption) ?_
    | with_reducible apply devWrite_does
    | split

theorem donePush_does {fs₀ s₀ e j s} (h₀ : Does fs₀ s₀ s) (hf₀ : Fld.within [.regs, .pairs, .funcs, .flights, .mem, .tiles,
      .reels, .chains, .windows, .radio, .fault, .free, .out] fs₀ = true) :
    Does fs₀ s₀ (donePush e j s) := by
  refine h₀.trans ?_ hf₀
  clear h₀ hf₀
  unfold donePush
  try dsimp only
  all_goals repeat'
    first
    | with_reducible exact Does.refl _ _
    | decide
    | with_reducible apply enginePush_does
    | with_reducible apply pushReel_does
    | with_reducible apply setReel_does
    | with_reducible apply report_does
    | with_reducible apply raise_does
    | with_reducible apply bump_does
    | split

theorem endEngJob_does {fs₀ s₀ e j status s} (h₀ : Does fs₀ s₀ s) (hf₀ : Fld.within [.regs, .pairs, .funcs, .flights, .mem,
      .tiles, .reels, .chains, .windows, .radio, .fault, .free, .out] fs₀ = true) :
    Does fs₀ s₀ (endEngJob e j status s) := by
  refine h₀.trans ?_ hf₀
  clear h₀ hf₀
  unfold endEngJob
  try dsimp only
  all_goals repeat'
    first
    | with_reducible exact Does.refl _ _
    | decide
    | with_reducible apply donePush_does
    | with_reducible apply putFields_does
    | with_reducible apply bump_does
    | split

theorem failEngJob_does {fs₀ s₀ e j status s} (h₀ : Does fs₀ s₀ s) (hf₀ : Fld.within [.regs, .pairs, .funcs, .flights, .mem,
      .tiles, .reels, .chains, .windows, .radio, .fault, .free, .out] fs₀ = true) :
    Does fs₀ s₀ (failEngJob e j status s) := by
  refine h₀.trans ?_ hf₀
  clear h₀ hf₀
  unfold failEngJob
  try dsimp only
  all_goals repeat'
    first
    | with_reducible exact Does.refl _ _
    | decide
    | with_reducible apply endEngJob_does
    | with_reducible apply raise_does
    | with_reducible apply bump_does
    | split

theorem prepare_does {fs₀ s₀ e bs s} (h₀ : Does fs₀ s₀ s) (hf₀ : Fld.within [.regs, .mem, .free] fs₀ = true) :
    Does fs₀ s₀ (prepare e bs s) := by
  refine h₀.trans ?_ hf₀
  clear h₀ hf₀
  unfold prepare
  try dsimp only
  all_goals repeat'
    first
    | with_reducible exact Does.refl _ _
    | decide
    | with_reducible apply buildScratch_does
    | split

theorem startEngJob_does {fs₀ s₀ e r h s} (h₀ : Does fs₀ s₀ s) (hf₀ : Fld.within [.regs, .pairs, .funcs, .flights, .mem,
      .tiles, .reels, .chains, .windows, .radio, .cont, .matte, .fault, .free, .out] fs₀ = true) :
    Does fs₀ s₀ (startEngJob e r h s) := by
  refine h₀.trans ?_ hf₀
  clear h₀ hf₀
  unfold startEngJob
  try dsimp only
  all_goals repeat'
    first
    | with_reducible exact Does.refl _ _
    | decide
    | with_reducible apply prepare_does
    | with_reducible apply failEngJob_does
    | with_reducible apply donePush_does
    | with_reducible apply setEng_does
    | with_reducible apply devTouch_does
    | with_reducible apply raise_does
    | with_reducible apply bump_does
    | split

theorem takeJob_does {fs₀ s₀ e r h s} (h₀ : Does fs₀ s₀ s) (hf₀ : Fld.within [.regs, .pairs, .funcs, .flights, .mem, .tiles,
      .reels, .chains, .windows, .rounds, .lastReel, .radio, .cont, .matte, .fault, .free, .out] fs₀ = true) :
    Does fs₀ s₀ (takeJob e r h s) := by
  refine h₀.trans ?_ hf₀
  clear h₀ hf₀
  unfold takeJob
  try dsimp only
  all_goals repeat'
    first
    | with_reducible exact Does.refl _ _
    | decide
    | with_reducible apply startEngJob_does
    | with_reducible apply grantTo_does
    | with_reducible apply setReel_does
    | split
    | ((with_reducible refine Does.upd ?_ ?_ ?_); (on_goal 2 => exact rfl); (on_goal 2 => (intro f hf; cases f <;> first | exact absurd (by decide) hf | dsimp only [sameFld])))

theorem refill_does {fs₀ s₀ e x2 x3} (h₀ : Does fs₀ s₀ x3) (hf₀ : Fld.within [.regs, .pairs, .funcs, .flights, .mem, .tiles,
      .reels, .chains, .windows, .rounds, .lastReel, .radio, .cont, .matte, .fault, .free, .out] fs₀ = true) :
    Does fs₀ s₀ (refill e x2 x3) := by
  refine h₀.trans ?_ hf₀
  clear h₀ hf₀
  fun_induction refill e x2 x3
  all_goals try dsimp +zetaDelta only
  all_goals repeat'
    first
    | with_reducible exact Does.refl _ _
    | decide
    | with_reducible refine Does.trans ?_ (by assumption) ?_
    | with_reducible apply takeJob_does
    | with_reducible apply setEng_does
    | split

theorem boundary_does {fs₀ s₀ e cycles s} (h₀ : Does fs₀ s₀ s) (hf₀ : Fld.within [.regs, .pairs, .funcs, .flights, .mem,
      .tiles, .reels, .chains, .windows, .rounds, .lastReel, .radio, .cont, .matte, .fault, .free, .out] fs₀ = true) :
    Does fs₀ s₀ (boundary e cycles s) := by
  refine h₀.trans ?_ hf₀
  clear h₀ hf₀
  unfold boundary
  try dsimp only
  all_goals repeat'
    first
    | with_reducible exact Does.refl _ _
    | decide
    | with_reducible apply refill_does
    | with_reducible apply setEng_does
    | with_reducible apply peak_does
    | split

theorem popJob_does {fs₀ s₀ e r op s} (h₀ : Does fs₀ s₀ s) (hf₀ : Fld.within [.regs, .pairs, .funcs, .flights, .mem, .tiles,
      .reels, .chains, .windows, .rounds, .lastReel, .radio, .cont, .matte, .fault, .free, .out] fs₀ = true) :
    Does fs₀ s₀ (popJob e r op s) := by
  refine h₀.trans ?_ hf₀
  clear h₀ hf₀
  unfold popJob
  try dsimp only
  all_goals repeat'
    first
    | with_reducible exact Does.refl _ _
    | decide
    | with_reducible apply takeJob_does
    | split

theorem runUnit_does {fs₀ s₀ e j s} (h₀ : Does fs₀ s₀ s) (hf₀ : Fld.within [.regs, .mem, .free] fs₀ = true) :
    Does fs₀ s₀ (runUnit e j s).2 := by
  refine h₀.trans ?_ hf₀
  clear h₀ hf₀
  unfold runUnit
  try dsimp only
  all_goals repeat'
    first
    | with_reducible exact Does.refl _ _
    | decide
    | with_reducible apply contactUnit_does
    | with_reducible apply composeUnit_does
    | with_reducible apply trackUnit_does
    | with_reducible apply matchUnit_does
    | split
    | (obtain rfl := congrArg Prod.snd ‹contactUnit _ _ = _›)
    | (obtain rfl := congrArg Prod.snd ‹composeUnit _ _ = _›)
    | (obtain rfl := congrArg Prod.snd ‹trackUnit _ _ = _›)
    | (obtain rfl := congrArg Prod.snd ‹matchUnit _ _ = _›)

theorem execMatchJob_does {fs₀ s₀ reel s t₀} (h₀ : Does fs₀ s₀ s) (e₀ : execMatchJob reel s = .next t₀)
    (hf₀ : Fld.within [.regs, .pairs, .funcs, .flights, .mem, .tiles, .reels, .chains, .windows, .rounds, .lastReel, .radio,
      .cont, .matte, .fault, .free, .out] fs₀ = true) : Does fs₀ s₀ t₀ := by
  refine h₀.trans ?_ hf₀
  clear h₀ hf₀
  unfold execMatchJob at e₀
  (try dsimp only at e₀)
  first
  | cases e₀
  | ((repeat' split at e₀) <;> cases e₀)
  all_goals repeat'
    first
    | with_reducible exact Does.refl _ _
    | decide
    | with_reducible apply popJob_does
    | split

theorem execTrackJob_does {fs₀ s₀ reel s t₀} (h₀ : Does fs₀ s₀ s) (e₀ : execTrackJob reel s = .next t₀)
    (hf₀ : Fld.within [.regs, .pairs, .funcs, .flights, .mem, .tiles, .reels, .chains, .windows, .rounds, .lastReel, .radio,
      .cont, .matte, .fault, .free, .out] fs₀ = true) : Does fs₀ s₀ t₀ := by
  refine h₀.trans ?_ hf₀
  clear h₀ hf₀
  unfold execTrackJob at e₀
  (try dsimp only at e₀)
  first
  | cases e₀
  | ((repeat' split at e₀) <;> cases e₀)
  all_goals repeat'
    first
    | with_reducible exact Does.refl _ _
    | decide
    | with_reducible apply popJob_does
    | split

theorem execComposeJob_does {fs₀ s₀ reel s t₀} (h₀ : Does fs₀ s₀ s) (e₀ : execComposeJob reel s = .next t₀)
    (hf₀ : Fld.within [.regs, .pairs, .funcs, .flights, .mem, .tiles, .reels, .chains, .windows, .rounds, .lastReel, .radio,
      .cont, .matte, .fault, .free, .out] fs₀ = true) : Does fs₀ s₀ t₀ := by
  refine h₀.trans ?_ hf₀
  clear h₀ hf₀
  unfold execComposeJob at e₀
  (try dsimp only at e₀)
  first
  | cases e₀
  | ((repeat' split at e₀) <;> cases e₀)
  all_goals repeat'
    first
    | with_reducible exact Does.refl _ _
    | decide
    | with_reducible apply popJob_does
    | split

theorem execContactJob_does {fs₀ s₀ reel s t₀} (h₀ : Does fs₀ s₀ s) (e₀ : execContactJob reel s = .next t₀)
    (hf₀ : Fld.within [.regs, .pairs, .funcs, .flights, .mem, .tiles, .reels, .chains, .windows, .rounds, .lastReel, .radio,
      .cont, .matte, .fault, .free, .out] fs₀ = true) : Does fs₀ s₀ t₀ := by
  refine h₀.trans ?_ hf₀
  clear h₀ hf₀
  unfold execContactJob at e₀
  (try dsimp only at e₀)
  first
  | cases e₀
  | ((repeat' split at e₀) <;> cases e₀)
  all_goals repeat'
    first
    | with_reducible exact Does.refl _ _
    | decide
    | with_reducible apply popJob_does
    | split

theorem execEngineUnitEnd_does {fs₀ s₀ e cycles s t₀} (h₀ : Does fs₀ s₀ s) (e₀ : execEngineUnitEnd e cycles s = .next t₀)
    (hf₀ : Fld.within [.regs, .pairs, .funcs, .flights, .mem, .tiles, .reels, .chains, .windows, .rounds, .lastReel, .radio,
      .cont, .matte, .fault, .free, .out] fs₀ = true) : Does fs₀ s₀ t₀ := by
  refine h₀.trans ?_ hf₀
  clear h₀ hf₀
  unfold execEngineUnitEnd at e₀
  (try dsimp only at e₀)
  first
  | cases e₀
  | ((repeat' split at e₀) <;> cases e₀)
  all_goals repeat'
    first
    | with_reducible exact Does.refl _ _
    | decide
    | with_reducible apply runUnit_does
    | with_reducible apply boundary_does
    | with_reducible apply endEngJob_does
    | with_reducible apply setEng_does
    | split
    | (obtain rfl := congrArg Prod.snd ‹runUnit _ _ _ = _›)

/-! ### HostReg -/

theorem latchNow_does {fs₀ s₀ s} (h₀ : Does fs₀ s₀ s) (hf₀ : Fld.within [.regs] fs₀ = true) :
    Does fs₀ s₀ (latchNow s) := by
  refine h₀.trans ?_ hf₀
  clear h₀ hf₀
  unfold latchNow
  try dsimp only
  all_goals repeat'
    first
    | with_reducible exact Does.refl _ _
    | decide
    | with_reducible apply wr_does
    | split

theorem readEffect_does {fs₀ s₀ o s} (h₀ : Does fs₀ s₀ s) (hf₀ : Fld.within [.regs] fs₀ = true) :
    Does fs₀ s₀ (readEffect o s) := by
  refine h₀.trans ?_ hf₀
  clear h₀ hf₀
  unfold readEffect
  try dsimp only
  all_goals repeat'
    first
    | with_reducible exact Does.refl _ _
    | decide
    | with_reducible apply latchNow_does
    | with_reducible apply wr_does
    | split

theorem readOne_does {fs₀ s₀ o off s} (h₀ : Does fs₀ s₀ s) (hf₀ : Fld.within [.regs, .funcs, .free, .out] fs₀ = true) :
    Does fs₀ s₀ (readOne o off s).2 := by
  refine h₀.trans ?_ hf₀
  clear h₀ hf₀
  unfold readOne
  try dsimp only
  all_goals repeat'
    first
    | with_reducible exact Does.refl _ _
    | decide
    | with_reducible apply readEffect_does
    | with_reducible apply aerr_does
    | with_reducible apply useFree_does
    | split

theorem barRead_does {fs₀ s₀ off size s} (h₀ : Does fs₀ s₀ s) (hf₀ : Fld.within [.regs, .funcs, .free, .out] fs₀ = true) :
    Does fs₀ s₀ (barRead off size s) := by
  refine h₀.trans ?_ hf₀
  clear h₀ hf₀
  unfold barRead
  try dsimp only
  all_goals repeat'
    first
    | with_reducible exact Does.refl _ _
    | decide
    | with_reducible apply readOne_does
    | with_reducible apply aerr_does
    | with_reducible apply emit_does
    | split
    | (obtain rfl := congrArg Prod.snd ‹readOne _ _ _ = _›)

theorem pageRead_does {fs₀ s₀ f off size s} (h₀ : Does fs₀ s₀ s) (hf₀ : Fld.within [.regs, .funcs, .out] fs₀ = true) :
    Does fs₀ s₀ (pageRead f off size s) := by
  refine h₀.trans ?_ hf₀
  clear h₀ hf₀
  unfold pageRead
  try dsimp only
  all_goals repeat'
    first
    | with_reducible exact Does.refl _ _
    | decide
    | with_reducible apply aerr_does
    | with_reducible apply emit_does
    | split

theorem retrain_does {fs₀ s₀ c s} (h₀ : Does fs₀ s₀ s) (hf₀ : Fld.within [.regs, .mem] fs₀ = true) :
    Does fs₀ s₀ (retrain c s) := by
  refine h₀.trans ?_ hf₀
  clear h₀ hf₀
  unfold retrain
  try dsimp only
  all_goals repeat'
    first
    | with_reducible exact Does.refl _ _
    | decide
    | with_reducible apply wrf_does
    | split
    | ((with_reducible refine Does.upd ?_ ?_ ?_); (on_goal 2 => exact rfl); (on_goal 2 => (intro f hf; cases f <;> first | exact absurd (by decide) hf | dsimp only [sameFld])))

theorem writeEffect_does {fs₀ s₀ o old s} (h₀ : Does fs₀ s₀ s) (hf₀ : Fld.within [.regs, .mem] fs₀ = true) :
    Does fs₀ s₀ (writeEffect o old s) := by
  refine h₀.trans ?_ hf₀
  clear h₀ hf₀
  unfold writeEffect
  try dsimp only
  all_goals repeat'
    first
    | with_reducible exact Does.refl _ _
    | decide
    | with_reducible apply retrain_does
    | with_reducible apply reInterleave_does
    | with_reducible apply wr_does
    | split

theorem marginWrite_does {fs₀ s₀ c off v s} (h₀ : Does fs₀ s₀ s) (hf₀ : Fld.within [.regs, .funcs, .out] fs₀ = true) :
    Does fs₀ s₀ (marginWrite c off v s) := by
  refine h₀.trans ?_ hf₀
  clear h₀ hf₀
  unfold marginWrite
  try dsimp only
  all_goals repeat'
    first
    | with_reducible exact Does.refl _ _
    | decide
    | with_reducible apply aerr_does
    | with_reducible apply wrf_does
    | split

theorem storeOpen_does {fs₀ s₀ o v r s} (h₀ : Does fs₀ s₀ s) (hf₀ : Fld.within [.regs, .funcs, .mem, .out] fs₀ = true) :
    Does fs₀ s₀ (storeOpen o v r s) := by
  refine h₀.trans ?_ hf₀
  clear h₀ hf₀
  unfold storeOpen
  try dsimp only
  all_goals repeat'
    first
    | with_reducible exact Does.refl _ _
    | decide
    | with_reducible apply writeEffect_does
    | with_reducible apply aerr_does
    | with_reducible apply wr_does
    | split

theorem storeLocked_does {fs₀ s₀ o v r s} (h₀ : Does fs₀ s₀ s) (hf₀ : Fld.within [.regs, .funcs, .out] fs₀ = true) :
    Does fs₀ s₀ (storeLocked o v r s) := by
  refine h₀.trans ?_ hf₀
  clear h₀ hf₀
  unfold storeLocked
  try dsimp only
  all_goals repeat'
    first
    | with_reducible exact Does.refl _ _
    | decide
    | with_reducible apply aerr_does
    | with_reducible apply wr_does
    | split

theorem regStore_does {fs₀ s₀ o v s} (h₀ : Does fs₀ s₀ s) (hf₀ : Fld.within [.regs, .time, .pairs, .funcs, .flights, .mem,
      .tiles, .reels, .chains, .windows, .radio, .splice, .fault, .hold, .mgmt, .free, .out] fs₀ = true) :
    Does fs₀ s₀ (regStore o v s) := by
  refine h₀.trans ?_ hf₀
  clear h₀ hf₀
  unfold regStore
  try dsimp only
  all_goals repeat'
    first
    | with_reducible exact Does.refl _ _
    | decide
    | with_reducible apply storeLocked_does
    | with_reducible apply storeOpen_does
    | with_reducible apply marginWrite_does
    | with_reducible apply applyLock_does
    | with_reducible apply aerr_does
    | split

theorem barWrite_does {fs₀ s₀ off size val s} (h₀ : Does fs₀ s₀ s) (hf₀ : Fld.within [.regs, .time, .pairs, .funcs, .flights,
      .mem, .tiles, .reels, .chains, .windows, .radio, .splice, .fault, .hold, .mgmt, .free, .out] fs₀ = true) :
    Does fs₀ s₀ (barWrite off size val s) := by
  refine h₀.trans ?_ hf₀
  clear h₀ hf₀
  unfold barWrite
  try dsimp only
  all_goals repeat'
    first
    | with_reducible exact Does.refl _ _
    | decide
    | with_reducible apply regStore_does
    | with_reducible apply aerr_does
    | split

theorem execRcRead_does {fs₀ s₀ off size s t₀} (h₀ : Does fs₀ s₀ s) (e₀ : execRcRead off size s = .next t₀)
    (hf₀ : Fld.within [.regs, .funcs, .free, .out] fs₀ = true) : Does fs₀ s₀ t₀ := by
  refine h₀.trans ?_ hf₀
  clear h₀ hf₀
  unfold execRcRead at e₀
  (try dsimp only at e₀)
  first
  | cases e₀
  | ((repeat' split at e₀) <;> cases e₀)
  all_goals repeat'
    first
    | with_reducible exact Does.refl _ _
    | decide
    | with_reducible apply barRead_does
    | split

theorem execTimeNowFracRead_does {fs₀ s₀ wide s t₀} (h₀ : Does fs₀ s₀ s) (e₀ : execTimeNowFracRead wide s = .next t₀)
    (hf₀ : Fld.within [.regs, .funcs, .free, .out] fs₀ = true) : Does fs₀ s₀ t₀ := by
  refine h₀.trans ?_ hf₀
  clear h₀ hf₀
  unfold execTimeNowFracRead at e₀
  (try dsimp only at e₀)
  first
  | cases e₀
  | ((repeat' split at e₀) <;> cases e₀)
  all_goals repeat'
    first
    | with_reducible exact Does.refl _ _
    | decide
    | with_reducible apply barRead_does
    | split

theorem execUndefinedOrMisalignedRead_does {fs₀ s₀ bar2 f off size s t₀} (h₀ : Does fs₀ s₀ s) (e₀ : execUndefinedOrMisalignedRead bar2 f off size s = .next t₀)
    (hf₀ : Fld.within [.regs, .funcs, .free, .out] fs₀ = true) : Does fs₀ s₀ t₀ := by
  refine h₀.trans ?_ hf₀
  clear h₀ hf₀
  unfold execUndefinedOrMisalignedRead at e₀
  (try dsimp only at e₀)
  first
  | cases e₀
  | ((repeat' split at e₀) <;> cases e₀)
  all_goals repeat'
    first
    | with_reducible exact Does.refl _ _
    | decide
    | with_reducible apply pageRead_does
    | with_reducible apply barRead_does
    | split

theorem execRegWrite_does {fs₀ s₀ off size val s t₀} (h₀ : Does fs₀ s₀ s) (e₀ : execRegWrite off size val s = .next t₀)
    (hf₀ : Fld.within [.regs, .time, .pairs, .funcs, .flights, .mem, .tiles, .reels, .chains, .windows, .radio, .splice,
      .fault, .hold, .mgmt, .free, .out] fs₀ = true) : Does fs₀ s₀ t₀ := by
  refine h₀.trans ?_ hf₀
  clear h₀ hf₀
  unfold execRegWrite at e₀
  (try dsimp only at e₀)
  first
  | cases e₀
  | ((repeat' split at e₀) <;> cases e₀)
  all_goals repeat'
    first
    | with_reducible exact Does.refl _ _
    | decide
    | with_reducible apply barWrite_does
    | split

theorem execSetupLock_does {fs₀ s₀ val s t₀} (h₀ : Does fs₀ s₀ s) (e₀ : execSetupLock val s = .next t₀)
    (hf₀ : Fld.within [.regs, .time, .pairs, .funcs, .flights, .mem, .tiles, .reels, .chains, .windows, .radio, .splice,
      .fault, .hold, .mgmt, .free, .out] fs₀ = true) : Does fs₀ s₀ t₀ := by
  refine h₀.trans ?_ hf₀
  clear h₀ hf₀
  unfold execSetupLock at e₀
  (try dsimp only at e₀)
  first
  | cases e₀
  | ((repeat' split at e₀) <;> cases e₀)
  all_goals repeat'
    first
    | with_reducible exact Does.refl _ _
    | decide
    | with_reducible apply applyLock_does
    | split

theorem execHbmRateWrite_does {fs₀ s₀ c val s t₀} (h₀ : Does fs₀ s₀ s) (e₀ : execHbmRateWrite c val s = .next t₀)
    (hf₀ : Fld.within [.regs, .time, .pairs, .funcs, .flights, .mem, .tiles, .reels, .chains, .windows, .radio, .splice,
      .fault, .hold, .mgmt, .free, .out] fs₀ = true) : Does fs₀ s₀ t₀ := by
  refine h₀.trans ?_ hf₀
  clear h₀ hf₀
  unfold execHbmRateWrite at e₀
  (try dsimp only at e₀)
  first
  | cases e₀
  | ((repeat' split at e₀) <;> cases e₀)
  all_goals repeat'
    first
    | with_reducible exact Does.refl _ _
    | decide
    | with_reducible apply regStore_does
    | split

theorem execMarginStart_does {fs₀ s₀ c val s t₀} (h₀ : Does fs₀ s₀ s) (e₀ : execMarginStart c val s = .next t₀)
    (hf₀ : Fld.within [.regs, .time, .pairs, .funcs, .flights, .mem, .tiles, .reels, .chains, .windows, .radio, .splice,
      .fault, .hold, .mgmt, .free, .out] fs₀ = true) : Does fs₀ s₀ t₀ := by
  refine h₀.trans ?_ hf₀
  clear h₀ hf₀
  unfold execMarginStart at e₀
  (try dsimp only at e₀)
  first
  | cases e₀
  | ((repeat' split at e₀) <;> cases e₀)
  all_goals repeat'
    first
    | with_reducible exact Does.refl _ _
    | decide
    | with_reducible apply regStore_does
    | split

/-! ### Memory -/

theorem hbmCe_does {fs₀ s₀ c addr h w s} (h₀ : Does fs₀ s₀ s) (hf₀ : Fld.within [.regs, .funcs, .fault, .out] fs₀ = true) :
    Does fs₀ s₀ (hbmCe c addr h w s) := by
  refine h₀.trans ?_ hf₀
  clear h₀ hf₀
  unfold hbmCe
  try dsimp only
  all_goals repeat'
    first
    | with_reducible exact Does.refl _ _
    | decide
    | with_reducible apply report_does
    | with_reducible apply raise_does
    | with_reducible apply bump_does
    | split

theorem hbmUe_does {fs₀ s₀ c addr h w s} (h₀ : Does fs₀ s₀ s) (hf₀ : Fld.within [.regs, .funcs, .fault, .out] fs₀ = true) :
    Does fs₀ s₀ (hbmUe c addr h w s) := by
  refine h₀.trans ?_ hf₀
  clear h₀ hf₀
  unfold hbmUe
  try dsimp only
  all_goals repeat'
    first
    | with_reducible exact Does.refl _ _
    | decide
    | with_reducible apply report_does
    | with_reducible apply raise_does
    | with_reducible apply bump_does
    | split

theorem markFailed_does {fs₀ s₀ addr s} (h₀ : Does fs₀ s₀ s) (hf₀ : Fld.within [.mem] fs₀ = true) :
    Does fs₀ s₀ (markFailed addr s) := by
  refine h₀.trans ?_ hf₀
  clear h₀ hf₀
  unfold markFailed
  try dsimp only
  all_goals repeat'
    first
    | with_reducible exact Does.refl _ _
    | decide
    | with_reducible apply wcFlushBad_does
    | with_reducible apply memMark_does
    | split

theorem countRetries_does {fs₀ s₀ c addr n s} (h₀ : Does fs₀ s₀ s) (hf₀ : Fld.within [.regs, .funcs, .mem, .out] fs₀ = true) :
    Does fs₀ s₀ (countRetries c addr n s) := by
  refine h₀.trans ?_ hf₀
  clear h₀ hf₀
  unfold countRetries
  try dsimp only
  all_goals repeat'
    first
    | with_reducible exact Does.refl _ _
    | decide
    | with_reducible apply raise_does
    | with_reducible apply bump_does
    | split
    | ((with_reducible refine Does.upd ?_ ?_ ?_); (on_goal 2 => exact rfl); (on_goal 2 => (intro f hf; cases f <;> first | exact absurd (by decide) hf | dsimp only [sameFld])))

theorem readBurst_does {fs₀ s₀ r s} (h₀ : Does fs₀ s₀ s) (hf₀ : Fld.within [.regs, .funcs, .mem, .fault, .out] fs₀ = true) :
    Does fs₀ s₀ (readBurst r s) := by
  refine h₀.trans ?_ hf₀
  clear h₀ hf₀
  unfold readBurst
  try dsimp only
  all_goals repeat'
    first
    | with_reducible exact Does.refl _ _
    | decide
    | with_reducible apply countRetries_does
    | with_reducible apply markFailed_does
    | with_reducible apply hbmUe_does
    | with_reducible apply hbmCe_does
    | with_reducible apply memTouch_does
    | with_reducible apply emit_does
    | split

theorem readBursts_does {fs₀ s₀ x1 x2} (h₀ : Does fs₀ s₀ x2) (hf₀ : Fld.within [.regs, .funcs, .mem, .fault, .out] fs₀ = true) :
    Does fs₀ s₀ (readBursts x1 x2) := by
  refine h₀.trans ?_ hf₀
  clear h₀ hf₀
  fun_induction readBursts x1 x2
  all_goals try dsimp +zetaDelta only
  all_goals repeat'
    first
    | with_reducible exact Does.refl _ _
    | decide
    | with_reducible refine Does.trans ?_ (by assumption) ?_
    | with_reducible apply readBurst_does
    | split

theorem releaseReads_does {fs₀ s₀ s} (h₀ : Does fs₀ s₀ s) (hf₀ : Fld.within [.regs, .funcs, .mem, .fault, .out] fs₀ = true) :
    Does fs₀ s₀ (releaseReads s) := by
  refine h₀.trans ?_ hf₀
  clear h₀ hf₀
  unfold releaseReads
  try dsimp only
  all_goals repeat'
    first
    | with_reducible exact Does.refl _ _
    | decide
    | with_reducible apply readBursts_does
    | split
    | ((with_reducible refine Does.upd ?_ ?_ ?_); (on_goal 2 => exact rfl); (on_goal 2 => (intro f hf; cases f <;> first | exact absurd (by decide) hf | dsimp only [sameFld])))

theorem marginResults_does {fs₀ s₀ c pts x3 x4} (h₀ : Does fs₀ s₀ x4) (hf₀ : Fld.within [.regs] fs₀ = true) :
    Does fs₀ s₀ (marginResults c pts x3 x4) := by
  refine h₀.trans ?_ hf₀
  clear h₀ hf₀
  fun_induction marginResults c pts x3 x4
  all_goals try dsimp +zetaDelta only
  all_goals repeat'
    first
    | with_reducible exact Does.refl _ _
    | decide
    | with_reducible refine Does.trans ?_ (by assumption) ?_
    | with_reducible apply wr_does
    | split

theorem endMargin_does {fs₀ s₀ c points trained s} (h₀ : Does fs₀ s₀ s) (hf₀ : Fld.within [.regs, .funcs, .free,
      .out] fs₀ = true) :
    Does fs₀ s₀ (endMargin c points trained s) := by
  refine h₀.trans ?_ hf₀
  clear h₀ hf₀
  unfold endMargin
  try dsimp only
  all_goals repeat'
    first
    | with_reducible exact Does.refl _ _
    | decide
    | with_reducible apply marginResults_does
    | with_reducible apply raise_does
    | with_reducible apply wrf_does
    | with_reducible apply wr_does
    | split
    | ((with_reducible refine Does.upd ?_ ?_ ?_); (on_goal 2 => exact rfl); (on_goal 2 => (intro f hf; cases f <;> first | exact absurd (by decide) hf | dsimp only [sameFld])))

theorem flushAged_does {fs₀ s₀ c e lineOk s} (h₀ : Does fs₀ s₀ s) (hf₀ : Fld.within [.regs, .funcs, .mem, .fault,
      .out] fs₀ = true) :
    Does fs₀ s₀ (flushAged c e lineOk s) := by
  refine h₀.trans ?_ hf₀
  clear h₀ hf₀
  unfold flushAged
  try dsimp only
  all_goals repeat'
    first
    | with_reducible exact Does.refl _ _
    | decide
    | with_reducible apply hbmUe_does
    | with_reducible apply wcFlushBad_does
    | with_reducible apply wcFlush_does
    | split

theorem execHbmRead_does {fs₀ s₀ c addr retries ok corrected work s t₀} (h₀ : Does fs₀ s₀ s) (e₀ : execHbmRead c addr retries ok corrected work s = .next t₀)
    (hf₀ : Fld.within [.regs, .funcs, .mem, .fault, .out] fs₀ = true) : Does fs₀ s₀ t₀ := by
  refine h₀.trans ?_ hf₀
  clear h₀ hf₀
  unfold execHbmRead at e₀
  (try dsimp only at e₀)
  first
  | cases e₀
  | ((repeat' split at e₀) <;> cases e₀)
  all_goals repeat'
    first
    | with_reducible exact Does.refl _ _
    | decide
    | with_reducible apply readBurst_does
    | split
    | ((with_reducible refine Does.upd ?_ ?_ ?_); (on_goal 2 => exact rfl); (on_goal 2 => (intro f hf; cases f <;> first | exact absurd (by decide) hf | dsimp only [sameFld])))

theorem execHbmTrainingDone_does {fs₀ s₀ c s t₀} (h₀ : Does fs₀ s₀ s) (e₀ : execHbmTrainingDone c s = .next t₀)
    (hf₀ : Fld.within [.regs, .funcs, .mem, .fault, .out] fs₀ = true) : Does fs₀ s₀ t₀ := by
  refine h₀.trans ?_ hf₀
  clear h₀ hf₀
  unfold execHbmTrainingDone at e₀
  (try dsimp only at e₀)
  first
  | cases e₀
  | ((repeat' split at e₀) <;> cases e₀)
  all_goals repeat'
    first
    | with_reducible exact Does.refl _ _
    | decide
    | with_reducible apply releaseReads_does
    | with_reducible apply wrf_does
    | split

theorem execMarginDone_does {fs₀ s₀ c points trained s t₀} (h₀ : Does fs₀ s₀ s) (e₀ : execMarginDone c points trained s = .next t₀)
    (hf₀ : Fld.within [.regs, .funcs, .mem, .fault, .free, .out] fs₀ = true) : Does fs₀ s₀ t₀ := by
  refine h₀.trans ?_ hf₀
  clear h₀ hf₀
  unfold execMarginDone at e₀
  (try dsimp only at e₀)
  first
  | cases e₀
  | ((repeat' split at e₀) <;> cases e₀)
  all_goals repeat'
    first
    | with_reducible exact Does.refl _ _
    | decide
    | with_reducible apply endMargin_does
    | with_reducible apply releaseReads_does
    | with_reducible apply retrain_does
    | split
    | ((with_reducible refine Does.upd ?_ ?_ ?_); (on_goal 2 => exact rfl); (on_goal 2 => (intro f hf; cases f <;> first | exact absurd (by decide) hf | dsimp only [sameFld])))

theorem execWcAgeExpiry_does {fs₀ s₀ c a s t₀} (h₀ : Does fs₀ s₀ s) (e₀ : execWcAgeExpiry c a s = .next t₀)
    (hf₀ : Fld.within [.regs, .clk, .time, .funcs, .mem, .fault, .out] fs₀ = true) : Does fs₀ s₀ t₀ := by
  refine h₀.trans ?_ hf₀
  clear h₀ hf₀
  unfold execWcAgeExpiry at e₀
  (try dsimp only at e₀)
  first
  | cases e₀
  | ((repeat' split at e₀) <;> cases e₀)
  all_goals repeat'
    first
    | with_reducible exact Does.refl _ _
    | decide
    | with_reducible apply flushAged_does
    | with_reducible apply runToClk_does
    | split

theorem execHbmStackHot_does {fs₀ s₀ c hot s t₀} (h₀ : Does fs₀ s₀ s) (e₀ : execHbmStackHot c hot s = .next t₀)
    (hf₀ : Fld.within [.regs] fs₀ = true) : Does fs₀ s₀ t₀ := by
  refine h₀.trans ?_ hf₀
  clear h₀ hf₀
  unfold execHbmStackHot at e₀
  (try dsimp only at e₀)
  first
  | cases e₀
  | ((repeat' split at e₀) <;> cases e₀)
  all_goals repeat'
    first
    | with_reducible exact Does.refl _ _
    | decide
    | with_reducible apply wrf_does
    | split

theorem execExactAliasWrite_does {fs₀ s₀ slot data s t₀} (h₀ : Does fs₀ s₀ s) (e₀ : execExactAliasWrite slot data s = .next t₀)
    (hf₀ : Fld.within [.mem] fs₀ = true) : Does fs₀ s₀ t₀ := by
  refine h₀.trans ?_ hf₀
  clear h₀ hf₀
  unfold execExactAliasWrite at e₀
  (try dsimp only at e₀)
  first
  | cases e₀
  | ((repeat' split at e₀) <;> cases e₀)
  all_goals repeat'
    first
    | with_reducible exact Does.refl _ _
    | decide
    | with_reducible apply aliasWrite_does
    | split

theorem execExactAliasRead_does {fs₀ s₀ slot s t₀} (h₀ : Does fs₀ s₀ s) (e₀ : execExactAliasRead slot s = .next t₀)
    (hf₀ : Fld.within [.free, .out] fs₀ = true) : Does fs₀ s₀ t₀ := by
  refine h₀.trans ?_ hf₀
  clear h₀ hf₀
  unfold execExactAliasRead at e₀
  (try dsimp only at e₀)
  first
  | cases e₀
  | ((repeat' split at e₀) <;> cases e₀)
  all_goals repeat'
    first
    | with_reducible exact Does.refl _ _
    | decide
    | with_reducible apply emit_does
    | split
    | ((with_reducible refine Does.upd ?_ ?_ ?_); (on_goal 2 => exact rfl); (on_goal 2 => (intro f hf; cases f <;> first | exact absurd (by decide) hf | dsimp only [sameFld])))

/-! ### Faults -/

theorem takeReport_does {fs₀ s₀ u c cause s} (h₀ : Does fs₀ s₀ s) (hf₀ : Fld.within [.fault] fs₀ = true) :
    Does fs₀ s₀ (takeReport u c cause s) := by
  refine h₀.trans ?_ hf₀
  clear h₀ hf₀
  unfold takeReport
  try dsimp only
  all_goals repeat'
    first
    | with_reducible exact Does.refl _ _
    | decide
    | split
    | ((with_reducible refine Does.upd ?_ ?_ ?_); (on_goal 2 => exact rfl); (on_goal 2 => (intro f hf; cases f <;> first | exact absurd (by decide) hf | dsimp only [sameFld])))

theorem unitCe_does {fs₀ s₀ u s} (h₀ : Does fs₀ s₀ s) (hf₀ : Fld.within [.regs, .funcs, .out] fs₀ = true) :
    Does fs₀ s₀ (unitCe u s) := by
  refine h₀.trans ?_ hf₀
  clear h₀ hf₀
  unfold unitCe
  try dsimp only
  all_goals repeat'
    first
    | with_reducible exact Does.refl _ _
    | decide
    | with_reducible apply raise_does
    | with_reducible apply bump_does
    | split

theorem unitUe_does {fs₀ s₀ u cause a s} (h₀ : Does fs₀ s₀ s) (hf₀ : Fld.within [.regs, .funcs, .mem, .out] fs₀ = true) :
    Does fs₀ s₀ (unitUe u cause a s) := by
  refine h₀.trans ?_ hf₀
  clear h₀ hf₀
  unfold unitUe
  try dsimp only
  all_goals repeat'
    first
    | with_reducible exact Does.refl _ _
    | decide
    | with_reducible apply memMark_does
    | with_reducible apply raise_does
    | with_reducible apply bump_does
    | split

theorem implicate_does {fs₀ s₀ n s} (h₀ : Does fs₀ s₀ s) (hf₀ : Fld.within [.fault] fs₀ = true) :
    Does fs₀ s₀ (implicate n s) := by
  refine h₀.trans ?_ hf₀
  clear h₀ hf₀
  unfold implicate
  try dsimp only
  all_goals repeat'
    first
    | with_reducible exact Does.refl _ _
    | decide
    | split
    | ((with_reducible refine Does.upd ?_ ?_ ?_); (on_goal 2 => exact rfl); (on_goal 2 => (intro f hf; cases f <;> first | exact absurd (by decide) hf | dsimp only [sameFld])))

theorem setHist_does {fs₀ s₀ k h s} (h₀ : Does fs₀ s₀ s) (hf₀ : Fld.within [.fault] fs₀ = true) :
    Does fs₀ s₀ (setHist k h s) := by
  refine h₀.trans ?_ hf₀
  clear h₀ hf₀
  unfold setHist
  try dsimp only
  all_goals repeat'
    first
    | with_reducible exact Does.refl _ _
    | decide
    | split
    | ((with_reducible refine Does.upd ?_ ?_ ?_); (on_goal 2 => exact rfl); (on_goal 2 => (intro f hf; cases f <;> first | exact absurd (by decide) hf | dsimp only [sameFld])))

theorem lastingTile_does {fs₀ s₀ n mode ids cause s} (h₀ : Does fs₀ s₀ s) (hf₀ : Fld.within [.regs, .pairs, .funcs, .flights,
      .mem, .tiles, .reels, .loaded, .chains, .items, .windows, .jobs, .radio, .flow, .splice, .fault, .free,
      .out] fs₀ = true) :
    Does fs₀ s₀ (lastingTile n mode ids cause s) := by
  refine h₀.trans ?_ hf₀
  clear h₀ hf₀
  unfold lastingTile
  try dsimp only
  all_goals repeat'
    first
    | with_reducible exact Does.refl _ _
    | decide
    | with_reducible apply implicate_does
    | with_reducible apply fenceTile_does
    | with_reducible apply retake_does
    | with_reducible apply logFault_does
    | split

theorem correctable_does {fs₀ s₀ u cause addr w s} (h₀ : Does fs₀ s₀ s) (hf₀ : Fld.within [.regs, .pairs, .funcs, .flights,
      .mem, .tiles, .reels, .loaded, .chains, .items, .windows, .jobs, .radio, .flow, .splice, .fault, .free,
      .out] fs₀ = true) :
    Does fs₀ s₀ (correctable u cause addr w s) := by
  refine h₀.trans ?_ hf₀
  clear h₀ hf₀
  unfold correctable
  try dsimp only
  all_goals repeat'
    first
    | with_reducible exact Does.refl _ _
    | decide
    | with_reducible apply lastingTile_does
    | with_reducible apply setHist_does
    | with_reducible apply logFault_does
    | with_reducible apply raise_does
    | with_reducible apply bump_does
    | split

theorem tileUe_does {fs₀ s₀ n cause mode ids d s} (h₀ : Does fs₀ s₀ s) (hf₀ : Fld.within [.regs, .pairs, .funcs, .flights,
      .mem, .tiles, .reels, .loaded, .chains, .items, .windows, .jobs, .radio, .flow, .splice, .fault, .free,
      .out] fs₀ = true) :
    Does fs₀ s₀ (tileUe n cause mode ids d s) := by
  refine h₀.trans ?_ hf₀
  clear h₀ hf₀
  unfold tileUe
  try dsimp only
  all_goals repeat'
    first
    | with_reducible exact Does.refl _ _
    | decide
    | with_reducible apply implicate_does
    | with_reducible apply fenceTile_does
    | with_reducible apply retake_does
    | with_reducible apply logFault_does
    | split

theorem dataUe_does {fs₀ s₀ u cause mode ids d w s} (h₀ : Does fs₀ s₀ s) (hf₀ : Fld.within [.regs, .pairs, .funcs, .flights,
      .mem, .tiles, .reels, .loaded, .chains, .items, .windows, .jobs, .radio, .flow, .splice, .fault, .free,
      .out] fs₀ = true) :
    Does fs₀ s₀ (dataUe u cause mode ids d w s) := by
  refine h₀.trans ?_ hf₀
  clear h₀ hf₀
  unfold dataUe
  try dsimp only
  all_goals repeat'
    first
    | with_reducible exact Does.refl _ _
    | decide
    | with_reducible apply endOwner_does
    | with_reducible apply retake_does
    | with_reducible apply endJobFault_does
    | with_reducible apply endItemFault_does
    | with_reducible apply logFault_does
    | split

theorem uncorrectable_does {fs₀ s₀ u cause detail w s} (h₀ : Does fs₀ s₀ s) (hf₀ : Fld.within [.regs, .pairs, .funcs,
      .flights, .mem, .tiles, .reels, .loaded, .chains, .items, .windows, .jobs, .radio, .flow, .splice, .fault, .free,
      .out] fs₀ = true) :
    Does fs₀ s₀ (uncorrectable u cause detail w s) := by
  refine h₀.trans ?_ hf₀
  clear h₀ hf₀
  unfold uncorrectable
  try dsimp only
  all_goals repeat'
    first
    | with_reducible exact Does.refl _ _
    | decide
    | with_reducible apply dataUe_does
    | with_reducible apply tileUe_does
    | with_reducible apply logFault_does
    | with_reducible apply raise_does
    | with_reducible apply bump_does
    | split

theorem execCorrectableEvent_does {fs₀ s₀ u cause addr w s t₀} (h₀ : Does fs₀ s₀ s) (e₀ : execCorrectableEvent u cause addr w s = .next t₀)
    (hf₀ : Fld.within [.regs, .pairs, .funcs, .flights, .mem, .tiles, .reels, .loaded, .chains, .items, .windows, .jobs,
      .radio, .flow, .splice, .fault, .free, .out] fs₀ = true) : Does fs₀ s₀ t₀ := by
  refine h₀.trans ?_ hf₀
  clear h₀ hf₀
  unfold execCorrectableEvent at e₀
  (try dsimp only at e₀)
  first
  | cases e₀
  | ((repeat' split at e₀) <;> cases e₀)
  all_goals repeat'
    first
    | with_reducible exact Does.refl _ _
    | decide
    | with_reducible apply correctable_does
    | with_reducible apply unitCe_does
    | with_reducible apply takeReport_does
    | split

theorem execUncorrectableEvent_does {fs₀ s₀ u cause detail w s t₀} (h₀ : Does fs₀ s₀ s) (e₀ : execUncorrectableEvent u cause detail w s = .next t₀)
    (hf₀ : Fld.within [.regs, .pairs, .funcs, .flights, .mem, .tiles, .reels, .loaded, .chains, .items, .windows, .jobs,
      .radio, .flow, .splice, .fault, .free, .out] fs₀ = true) : Does fs₀ s₀ t₀ := by
  refine h₀.trans ?_ hf₀
  clear h₀ hf₀
  unfold execUncorrectableEvent at e₀
  (try dsimp only at e₀)
  first
  | cases e₀
  | ((repeat' split at e₀) <;> cases e₀)
  all_goals repeat'
    first
    | with_reducible exact Does.refl _ _
    | decide
    | with_reducible apply uncorrectable_does
    | with_reducible apply unitUe_does
    | with_reducible apply takeReport_does
    | split

end Sys2Proof.Machine
end

