-- ==== Sys2Proof/Laws/DoesFlow.lean ====
section
/-! SUPPORT. What each operation can do: flow, file descriptors, JTAG, management and power.
Each lemma lists the parts of the state its operation may change; the parts not listed stay, and the tables keep their
canonical form (`Does`). The lemma of a command says it of every next state the command answers. -/

set_option linter.all false

namespace Sys2Proof.Machine

/-! ### Flow -/

theorem sendFrame_does {fs₀ s₀ k bad f s} (h₀ : Does fs₀ s₀ s) (hf₀ : Fld.within [.regs, .out] fs₀ = true) :
    Does fs₀ s₀ (sendFrame k bad f s) := by
  refine h₀.trans ?_ hf₀
  clear h₀ hf₀
  unfold sendFrame
  try dsimp only
  all_goals repeat'
    first
    | with_reducible exact Does.refl _ _
    | decide
    | with_reducible apply emit_does
    | with_reducible apply bump_does
    | split

theorem forward_does {fs₀ s₀ k bad f arrived s} (h₀ : Does fs₀ s₀ s) (hf₀ : Fld.within [.regs, .free, .out] fs₀ = true) :
    Does fs₀ s₀ (forward k bad f arrived s) := by
  refine h₀.trans ?_ hf₀
  clear h₀ hf₀
  unfold forward
  try dsimp only
  all_goals repeat'
    first
    | with_reducible exact Does.refl _ _
    | decide
    | with_reducible apply sendFrame_does
    | with_reducible apply useFree_does
    | split

theorem forwardNow_does {fs₀ s₀ k bad f s} (h₀ : Does fs₀ s₀ s) (hf₀ : Fld.within [.regs, .free, .out] fs₀ = true) :
    Does fs₀ s₀ (forwardNow k bad f s) := by
  refine h₀.trans ?_ hf₀
  clear h₀ hf₀
  unfold forwardNow
  try dsimp only
  all_goals repeat'
    first
    | with_reducible exact Does.refl _ _
    | decide
    | with_reducible apply forward_does
    | split

theorem unscoredPolicy_does {fs₀ s₀ k bad f s} (h₀ : Does fs₀ s₀ s) (hf₀ : Fld.within [.regs, .free, .out] fs₀ = true) :
    Does fs₀ s₀ (unscoredPolicy k bad f s) := by
  refine h₀.trans ?_ hf₀
  clear h₀ hf₀
  unfold unscoredPolicy
  try dsimp only
  all_goals repeat'
    first
    | with_reducible exact Does.refl _ _
    | decide
    | with_reducible apply forwardNow_does
    | with_reducible apply bump_does
    | split

theorem mirrorCopy_does {fs₀ s₀ f s} (h₀ : Does fs₀ s₀ s) (hf₀ : Fld.within [.regs, .flow, .out] fs₀ = true) :
    Does fs₀ s₀ (mirrorCopy f s) := by
  refine h₀.trans ?_ hf₀
  clear h₀ hf₀
  unfold mirrorCopy
  try dsimp only
  all_goals repeat'
    first
    | with_reducible exact Does.refl _ _
    | decide
    | with_reducible apply sendFrame_does
    | with_reducible apply bump_does
    | split
    | ((with_reducible refine Does.upd ?_ ?_ ?_); (on_goal 2 => exact rfl); (on_goal 2 => (intro f hf; cases f <;> first | exact absurd (by decide) hf | dsimp only [sameFld])))

theorem updRec_does {fs₀ s₀ i g s} (h₀ : Does fs₀ s₀ s) (hf₀ : Fld.within [.regs, .mem] fs₀ = true) :
    Does fs₀ s₀ (updRec i g s) := by
  refine h₀.trans ?_ hf₀
  clear h₀ hf₀
  unfold updRec
  try dsimp only
  all_goals repeat'
    first
    | with_reducible exact Does.refl _ _
    | decide
    | with_reducible apply setFlowRec_does
    | split

theorem treat_does {fs₀ s₀ i p s} (h₀ : Does fs₀ s₀ s) (hf₀ : Fld.within [.regs, .flow, .free, .out] fs₀ = true) :
    Does fs₀ s₀ (treat i p s) := by
  refine h₀.trans ?_ hf₀
  clear h₀ hf₀
  unfold treat
  try dsimp only
  all_goals repeat'
    first
    | with_reducible exact Does.refl _ _
    | decide
    | with_reducible apply mirrorCopy_does
    | with_reducible apply forward_does
    | split

theorem treatLate_does {fs₀ s₀ i p s} (h₀ : Does fs₀ s₀ s) (hf₀ : Fld.within [.regs, .flow, .free, .out] fs₀ = true) :
    Does fs₀ s₀ (treatLate i p s) := by
  refine h₀.trans ?_ hf₀
  clear h₀ hf₀
  unfold treatLate
  try dsimp only
  all_goals repeat'
    first
    | with_reducible exact Does.refl _ _
    | decide
    | with_reducible apply forward_does
    | with_reducible apply setFlowX_does
    | split

theorem treatAll_does {fs₀ s₀ i x2 x3} (h₀ : Does fs₀ s₀ x3) (hf₀ : Fld.within [.regs, .flow, .free, .out] fs₀ = true) :
    Does fs₀ s₀ (treatAll i x2 x3) := by
  refine h₀.trans ?_ hf₀
  clear h₀ hf₀
  fun_induction treatAll i x2 x3
  all_goals try dsimp +zetaDelta only
  all_goals repeat'
    first
    | with_reducible exact Does.refl _ _
    | decide
    | with_reducible refine Does.trans ?_ (by assumption) ?_
    | with_reducible apply treat_does
    | split

theorem treatLateAll_does {fs₀ s₀ i x2 x3} (h₀ : Does fs₀ s₀ x3) (hf₀ : Fld.within [.regs, .flow, .free, .out] fs₀ = true) :
    Does fs₀ s₀ (treatLateAll i x2 x3) := by
  refine h₀.trans ?_ hf₀
  clear h₀ hf₀
  fun_induction treatLateAll i x2 x3
  all_goals try dsimp +zetaDelta only
  all_goals repeat'
    first
    | with_reducible exact Does.refl _ _
    | decide
    | with_reducible refine Does.trans ?_ (by assumption) ?_
    | with_reducible apply treatLate_does
    | split

theorem holdPkt_does {fs₀ s₀ i p s} (h₀ : Does fs₀ s₀ s) (hf₀ : Fld.within [.regs, .mem, .flow] fs₀ = true) :
    Does fs₀ s₀ (holdPkt i p s) := by
  refine h₀.trans ?_ hf₀
  clear h₀ hf₀
  unfold holdPkt
  try dsimp only
  all_goals repeat'
    first
    | with_reducible exact Does.refl _ _
    | decide
    | with_reducible apply updRec_does
    | with_reducible apply setFlowX_does
    | split
    | ((with_reducible refine Does.upd ?_ ?_ ?_); (on_goal 2 => exact rfl); (on_goal 2 => (intro f hf; cases f <;> first | exact absurd (by decide) hf | dsimp only [sameFld])))

theorem clearHold_does {fs₀ s₀ i s} (h₀ : Does fs₀ s₀ s) (hf₀ : Fld.within [.regs, .mem, .flow] fs₀ = true) :
    Does fs₀ s₀ (clearHold i s) := by
  refine h₀.trans ?_ hf₀
  clear h₀ hf₀
  unfold clearHold
  try dsimp only
  all_goals repeat'
    first
    | with_reducible exact Does.refl _ _
    | decide
    | with_reducible apply updRec_does
    | with_reducible apply setFlowX_does
    | split
    | ((with_reducible refine Does.upd ?_ ?_ ?_); (on_goal 2 => exact rfl); (on_goal 2 => (intro f hf; cases f <;> first | exact absurd (by decide) hf | dsimp only [sameFld])))

theorem countHoldEnd_does {fs₀ s₀ i why s} (h₀ : Does fs₀ s₀ s) (hf₀ : Fld.within [.regs, .funcs, .out] fs₀ = true) :
    Does fs₀ s₀ (countHoldEnd i why s) := by
  refine h₀.trans ?_ hf₀
  clear h₀ hf₀
  unfold countHoldEnd
  try dsimp only
  all_goals repeat'
    first
    | with_reducible exact Does.refl _ _
    | decide
    | with_reducible apply raise_does
    | with_reducible apply bump_does
    | split

theorem endHoldLate_does {fs₀ s₀ i arriving why s} (h₀ : Does fs₀ s₀ s) (hf₀ : Fld.within [.regs, .funcs, .mem, .flow, .free,
      .out] fs₀ = true) :
    Does fs₀ s₀ (endHoldLate i arriving why s) := by
  refine h₀.trans ?_ hf₀
  clear h₀ hf₀
  unfold endHoldLate
  try dsimp only
  all_goals repeat'
    first
    | with_reducible exact Does.refl _ _
    | decide
    | with_reducible apply countHoldEnd_does
    | with_reducible apply clearHold_does
    | with_reducible apply treatLateAll_does
    | with_reducible apply updRec_does
    | with_reducible apply setFlowX_does
    | split

theorem releaseHold_does {fs₀ s₀ i s} (h₀ : Does fs₀ s₀ s) (hf₀ : Fld.within [.regs, .mem, .flow, .free, .out] fs₀ = true) :
    Does fs₀ s₀ (releaseHold i s) := by
  refine h₀.trans ?_ hf₀
  clear h₀ hf₀
  unfold releaseHold
  try dsimp only
  all_goals repeat'
    first
    | with_reducible exact Does.refl _ _
    | decide
    | with_reducible apply clearHold_does
    | with_reducible apply treatAll_does
    | split

theorem startHold_does {fs₀ s₀ i p s} (h₀ : Does fs₀ s₀ s) (hf₀ : Fld.within [.regs, .funcs, .mem, .flow, .free,
      .out] fs₀ = true) :
    Does fs₀ s₀ (startHold i p s) := by
  refine h₀.trans ?_ hf₀
  clear h₀ hf₀
  unfold startHold
  try dsimp only
  all_goals repeat'
    first
    | with_reducible exact Does.refl _ _
    | decide
    | with_reducible apply endHoldLate_does
    | with_reducible apply holdPkt_does
    | with_reducible apply setFlowX_does
    | split

theorem addHold_does {fs₀ s₀ i p s} (h₀ : Does fs₀ s₀ s) (hf₀ : Fld.within [.regs, .funcs, .mem, .flow, .free,
      .out] fs₀ = true) :
    Does fs₀ s₀ (addHold i p s) := by
  refine h₀.trans ?_ hf₀
  clear h₀ hf₀
  unfold addHold
  try dsimp only
  all_goals repeat'
    first
    | with_reducible exact Does.refl _ _
    | decide
    | with_reducible apply endHoldLate_does
    | with_reducible apply holdPkt_does
    | split

theorem sampleObserve_does {fs₀ s₀ l s} (h₀ : Does fs₀ s₀ s) (hf₀ : Fld.within [.flow, .free] fs₀ = true) :
    Does fs₀ s₀ (sampleObserve l s).2 := by
  refine h₀.trans ?_ hf₀
  clear h₀ hf₀
  unfold sampleObserve
  try dsimp only
  all_goals repeat'
    first
    | with_reducible exact Does.refl _ _
    | decide
    | with_reducible apply useFree_does
    | split
    | ((with_reducible refine Does.upd ?_ ?_ ?_); (on_goal 2 => exact rfl); (on_goal 2 => (intro f hf; cases f <;> first | exact absurd (by decide) hf | dsimp only [sameFld])))

theorem pushItem_does {fs₀ s₀ src c l total input s} (h₀ : Does fs₀ s₀ s) (hf₀ : Fld.within [.regs, .items,
      .nextItem] fs₀ = true) :
    Does fs₀ s₀ (pushItem src c l total input s) := by
  refine h₀.trans ?_ hf₀
  clear h₀ hf₀
  unfold pushItem
  try dsimp only
  all_goals repeat'
    first
    | with_reducible exact Does.refl _ _
    | decide
    | with_reducible apply peakDepth_does
    | split
    | ((with_reducible refine Does.upd ?_ ?_ ?_); (on_goal 2 => exact rfl); (on_goal 2 => (intro f hf; cases f <;> first | exact absurd (by decide) hf | dsimp only [sameFld])))

theorem enqueue_does {fs₀ s₀ src c l total input s} (h₀ : Does fs₀ s₀ s) (hf₀ : Fld.within [.regs, .funcs, .items, .nextItem,
      .flow, .free, .out] fs₀ = true) :
    Does fs₀ s₀ (enqueue src c l total input s).2 := by
  refine h₀.trans ?_ hf₀
  clear h₀ hf₀
  unfold enqueue
  try dsimp only
  all_goals repeat'
    first
    | with_reducible exact Does.refl _ _
    | decide
    | with_reducible apply pushItem_does
    | with_reducible apply sampleObserve_does
    | with_reducible apply raise_does
    | with_reducible apply bump_does
    | split
    | (obtain rfl := congrArg Prod.snd ‹sampleObserve _ _ = _›)

theorem gateFail_does {fs₀ s₀ i low progress s} (h₀ : Does fs₀ s₀ s) (hf₀ : Fld.within [.regs, .pairs, .funcs, .mem, .flow,
      .free, .out] fs₀ = true) :
    Does fs₀ s₀ (gateFail i low progress s) := by
  refine h₀.trans ?_ hf₀
  clear h₀ hf₀
  unfold gateFail
  try dsimp only
  all_goals repeat'
    first
    | with_reducible exact Does.refl _ _
    | decide
    | with_reducible apply endHoldLate_does
    | with_reducible apply updRec_does
    | with_reducible apply flowRecordEvent_does
    | with_reducible apply setFlowX_does
    | split

theorem trigger_does {fs₀ s₀ i trig byPkt s} (h₀ : Does fs₀ s₀ s) (hf₀ : Fld.within [.regs, .pairs, .funcs, .mem, .items,
      .nextItem, .flow, .free, .out] fs₀ = true) :
    Does fs₀ s₀ (trigger i trig byPkt s) := by
  refine h₀.trans ?_ hf₀
  clear h₀ hf₀
  unfold trigger
  try dsimp only
  all_goals repeat'
    first
    | with_reducible exact Does.refl _ _
    | decide
    | with_reducible apply gateFail_does
    | with_reducible apply enqueue_does
    | with_reducible apply flowRecordEvent_does
    | with_reducible apply setFlowX_does
    | with_reducible apply bump_does
    | split
    | (obtain rfl := congrArg Prod.snd ‹enqueue _ _ _ _ _ _ = _›)

theorem applyVerdict_does {fs₀ s₀ i c w trig s} (h₀ : Does fs₀ s₀ s) (hf₀ : Fld.within [.regs, .pairs, .funcs, .mem, .flow,
      .free, .out] fs₀ = true) :
    Does fs₀ s₀ (applyVerdict i c w trig s) := by
  refine h₀.trans ?_ hf₀
  clear h₀ hf₀
  unfold applyVerdict
  try dsimp only
  all_goals repeat'
    first
    | with_reducible exact Does.refl _ _
    | decide
    | with_reducible apply releaseHold_does
    | with_reducible apply updRec_does
    | with_reducible apply flowRecordEvent_does
    | with_reducible apply setFlowX_does
    | split

theorem invalidVerdict_does {fs₀ s₀ i k c trig alive s} (h₀ : Does fs₀ s₀ s) (hf₀ : Fld.within [.regs, .pairs, .funcs, .mem,
      .flow, .free, .out] fs₀ = true) :
    Does fs₀ s₀ (invalidVerdict i k c trig alive s) := by
  refine h₀.trans ?_ hf₀
  clear h₀ hf₀
  unfold invalidVerdict
  try dsimp only
  all_goals repeat'
    first
    | with_reducible exact Does.refl _ _
    | decide
    | with_reducible apply gateFail_does
    | with_reducible apply requestRecord_does
    | with_reducible apply setFlowX_does
    | with_reducible apply raise_does
    | with_reducible apply bump_does
    | split

theorem presentVerdict_does {fs₀ s₀ i k c w trig s} (h₀ : Does fs₀ s₀ s) (hf₀ : Fld.within [.regs, .pairs, .funcs, .mem,
      .flow, .free, .out] fs₀ = true) :
    Does fs₀ s₀ (presentVerdict i k c w trig s) := by
  refine h₀.trans ?_ hf₀
  clear h₀ hf₀
  unfold presentVerdict
  try dsimp only
  all_goals repeat'
    first
    | with_reducible exact Does.refl _ _
    | decide
    | with_reducible apply invalidVerdict_does
    | with_reducible apply applyVerdict_does
    | with_reducible apply requestRecord_does
    | split

theorem newRec_does {fs₀ s₀ i key policy s} (h₀ : Does fs₀ s₀ s) (hf₀ : Fld.within [.regs, .mem, .flow] fs₀ = true) :
    Does fs₀ s₀ (newRec i key policy s) := by
  refine h₀.trans ?_ hf₀
  clear h₀ hf₀
  unfold newRec
  try dsimp only
  all_goals repeat'
    first
    | with_reducible exact Does.refl _ _
    | decide
    | with_reducible apply orphanRec_does
    | with_reducible apply setFlowX_does
    | with_reducible apply setFlowRec_does
    | with_reducible apply bump_does
    | split

theorem countPacket_does {fs₀ s₀ i port b p s} (h₀ : Does fs₀ s₀ s) (hf₀ : Fld.within [.regs, .mem, .flow] fs₀ = true) :
    Does fs₀ s₀ (countPacket i port b p s) := by
  refine h₀.trans ?_ hf₀
  clear h₀ hf₀
  unfold countPacket
  try dsimp only
  all_goals repeat'
    first
    | with_reducible exact Does.refl _ _
    | decide
    | with_reducible apply setFlowX_does
    | with_reducible apply setFlowRec_does
    | split

theorem endExtract_does {fs₀ s₀ i s} (h₀ : Does fs₀ s₀ s) (hf₀ : Fld.within [.regs, .mem, .flow] fs₀ = true) :
    Does fs₀ s₀ (endExtract i s) := by
  refine h₀.trans ?_ hf₀
  clear h₀ hf₀
  unfold endExtract
  try dsimp only
  all_goals repeat'
    first
    | with_reducible exact Does.refl _ _
    | decide
    | with_reducible apply updRec_does
    | with_reducible apply setFlowX_does
    | split

theorem extractFull_does {fs₀ s₀ i s} (h₀ : Does fs₀ s₀ s) (hf₀ : Fld.within [.regs, .pairs, .funcs, .out] fs₀ = true) :
    Does fs₀ s₀ (extractFull i s) := by
  refine h₀.trans ?_ hf₀
  clear h₀ hf₀
  unfold extractFull
  try dsimp only
  all_goals repeat'
    first
    | with_reducible exact Does.refl _ _
    | decide
    | with_reducible apply flowRecordEvent_does
    | with_reducible apply bump_does
    | split

theorem closeExtract_does {fs₀ s₀ i e gap s} (h₀ : Does fs₀ s₀ s) (hf₀ : Fld.within [.regs, .pairs, .funcs, .mem, .items,
      .nextItem, .flow, .out] fs₀ = true) :
    Does fs₀ s₀ (closeExtract i e gap s) := by
  refine h₀.trans ?_ hf₀
  clear h₀ hf₀
  unfold closeExtract
  try dsimp only
  all_goals repeat'
    first
    | with_reducible exact Does.refl _ _
    | decide
    | with_reducible apply extractFull_does
    | with_reducible apply endExtract_does
    | with_reducible apply pushItem_does
    | with_reducible apply dropFile_does
    | with_reducible apply setFile_does
    | with_reducible apply flowRecordEvent_does
    | split

theorem extractBytes_does {fs₀ s₀ i x2 x3 x4} (h₀ : Does fs₀ s₀ x4) (hf₀ : Fld.within [.regs, .pairs, .funcs, .mem, .items,
      .nextItem, .flow, .out] fs₀ = true) :
    Does fs₀ s₀ (extractBytes i x2 x3 x4) := by
  refine h₀.trans ?_ hf₀
  clear h₀ hf₀
  fun_induction extractBytes i x2 x3 x4
  all_goals try dsimp +zetaDelta only
  all_goals repeat'
    first
    | with_reducible exact Does.refl _ _
    | decide
    | with_reducible refine Does.trans ?_ (by assumption) ?_
    | with_reducible apply closeExtract_does
    | with_reducible apply setFile_does
    | with_reducible apply setFlowX_does
    | split

theorem extractSegment_does {fs₀ s₀ i e seq bytes s} (h₀ : Does fs₀ s₀ s) (hf₀ : Fld.within [.regs, .pairs, .funcs, .mem,
      .items, .nextItem, .flow, .out] fs₀ = true) :
    Does fs₀ s₀ (extractSegment i e seq bytes s) := by
  refine h₀.trans ?_ hf₀
  clear h₀ hf₀
  unfold extractSegment
  try dsimp only
  all_goals repeat'
    first
    | with_reducible exact Does.refl _ _
    | decide
    | with_reducible apply extractBytes_does
    | with_reducible apply closeExtract_does
    | split

theorem startExtractAs_does {fs₀ s₀ i seq id s} (h₀ : Does fs₀ s₀ s) (hf₀ : Fld.within [.regs, .pairs, .funcs, .mem, .flow,
      .out] fs₀ = true) :
    Does fs₀ s₀ (startExtractAs i seq id s) := by
  refine h₀.trans ?_ hf₀
  clear h₀ hf₀
  unfold startExtractAs
  try dsimp only
  all_goals repeat'
    first
    | with_reducible exact Does.refl _ _
    | decide
    | with_reducible apply extractFull_does
    | with_reducible apply updRec_does
    | with_reducible apply setFlowX_does
    | split
    | ((with_reducible refine Does.upd ?_ ?_ ?_); (on_goal 2 => exact rfl); (on_goal 2 => (intro f hf; cases f <;> first | exact absurd (by decide) hf | dsimp only [sameFld])))

theorem startExtract_does {fs₀ s₀ i seq s} (h₀ : Does fs₀ s₀ s) (hf₀ : Fld.within [.regs, .pairs, .funcs, .mem, .flow,
      .out] fs₀ = true) :
    Does fs₀ s₀ (startExtract i seq s) := by
  refine h₀.trans ?_ hf₀
  clear h₀ hf₀
  unfold startExtract
  try dsimp only
  all_goals repeat'
    first
    | with_reducible exact Does.refl _ _
    | decide
    | with_reducible apply startExtractAs_does
    | split

theorem extractPacket_does {fs₀ s₀ i b f p s} (h₀ : Does fs₀ s₀ s) (hf₀ : Fld.within [.regs, .pairs, .funcs, .mem, .items,
      .nextItem, .flow, .out] fs₀ = true) :
    Does fs₀ s₀ (extractPacket i b f p s) := by
  refine h₀.trans ?_ hf₀
  clear h₀ hf₀
  unfold extractPacket
  try dsimp only
  all_goals repeat'
    first
    | with_reducible exact Does.refl _ _
    | decide
    | with_reducible apply startExtract_does
    | with_reducible apply extractSegment_does
    | split

theorem extractEnd_does {fs₀ s₀ i s} (h₀ : Does fs₀ s₀ s) (hf₀ : Fld.within [.regs, .pairs, .funcs, .mem, .items, .nextItem,
      .flow, .out] fs₀ = true) :
    Does fs₀ s₀ (extractEnd i s) := by
  refine h₀.trans ?_ hf₀
  clear h₀ hf₀
  unfold extractEnd
  try dsimp only
  all_goals repeat'
    first
    | with_reducible exact Does.refl _ _
    | decide
    | with_reducible apply closeExtract_does
    | split

theorem tableFull_does {fs₀ s₀ k b f s} (h₀ : Does fs₀ s₀ s) (hf₀ : Fld.within [.regs, .funcs, .flow, .free, .out] fs₀ = true) :
    Does fs₀ s₀ (tableFull k b f s) := by
  refine h₀.trans ?_ hf₀
  clear h₀ hf₀
  unfold tableFull
  try dsimp only
  all_goals repeat'
    first
    | with_reducible exact Does.refl _ _
    | decide
    | with_reducible apply forwardNow_does
    | with_reducible apply raise_does
    | with_reducible apply bump_does
    | split
    | ((with_reducible refine Does.upd ?_ ?_ ?_); (on_goal 2 => exact rfl); (on_goal 2 => (intro f hf; cases f <;> first | exact absurd (by decide) hf | dsimp only [sameFld])))

theorem placePacket_does {fs₀ s₀ i p starts s} (h₀ : Does fs₀ s₀ s) (hf₀ : Fld.within [.regs, .funcs, .mem, .flow, .free,
      .out] fs₀ = true) :
    Does fs₀ s₀ (placePacket i p starts s) := by
  refine h₀.trans ?_ hf₀
  clear h₀ hf₀
  unfold placePacket
  try dsimp only
  all_goals repeat'
    first
    | with_reducible exact Does.refl _ _
    | decide
    | with_reducible apply addHold_does
    | with_reducible apply startHold_does
    | with_reducible apply treatLate_does
    | with_reducible apply treat_does
    | split

theorem lateIf_does {fs₀ s₀ i started s} (h₀ : Does fs₀ s₀ s) (hf₀ : Fld.within [.flow] fs₀ = true) :
    Does fs₀ s₀ (lateIf i started s) := by
  refine h₀.trans ?_ hf₀
  clear h₀ hf₀
  unfold lateIf
  try dsimp only
  all_goals repeat'
    first
    | with_reducible exact Does.refl _ _
    | decide
    | with_reducible apply setFlowX_does
    | split

theorem packetTriggers_does {fs₀ s₀ i firstN everyM started ends s} (h₀ : Does fs₀ s₀ s) (hf₀ : Fld.within [.regs, .pairs,
      .funcs, .mem, .items, .nextItem, .flow, .free, .out] fs₀ = true) :
    Does fs₀ s₀ (packetTriggers i firstN everyM started ends s) := by
  refine h₀.trans ?_ hf₀
  clear h₀ hf₀
  unfold packetTriggers
  try dsimp only
  all_goals repeat'
    first
    | with_reducible exact Does.refl _ _
    | decide
    | with_reducible apply lateIf_does
    | with_reducible apply trigger_does
    | split

theorem flowPacket_does {fs₀ s₀ i fresh k f p s} (h₀ : Does fs₀ s₀ s) (hf₀ : Fld.within [.regs, .pairs, .funcs, .mem, .items,
      .nextItem, .flow, .free, .out] fs₀ = true) :
    Does fs₀ s₀ (flowPacket i fresh k f p s) := by
  refine h₀.trans ?_ hf₀
  clear h₀ hf₀
  unfold flowPacket
  try dsimp only
  all_goals repeat'
    first
    | with_reducible exact Does.refl _ _
    | decide
    | with_reducible apply packetTriggers_does
    | with_reducible apply placePacket_does
    | with_reducible apply extractEnd_does
    | with_reducible apply extractPacket_does
    | with_reducible apply countPacket_does
    | with_reducible apply flowRecordEvent_does
    | with_reducible apply bump_does
    | split

theorem keyedPacket_does {fs₀ s₀ k f p s} (h₀ : Does fs₀ s₀ s) (hf₀ : Fld.within [.regs, .pairs, .funcs, .mem, .items,
      .nextItem, .flow, .free, .out] fs₀ = true) :
    Does fs₀ s₀ (keyedPacket k f p s) := by
  refine h₀.trans ?_ hf₀
  clear h₀ hf₀
  unfold keyedPacket
  try dsimp only
  all_goals repeat'
    first
    | with_reducible exact Does.refl _ _
    | decide
    | with_reducible apply flowPacket_does
    | with_reducible apply tableFull_does
    | with_reducible apply newRec_does
    | split

theorem slavePtp_does {fs₀ s₀ k f o s} (h₀ : Does fs₀ s₀ s) (hf₀ : Fld.within [.regs] fs₀ = true) :
    Does fs₀ s₀ (slavePtp k f o s).2 := by
  refine h₀.trans ?_ hf₀
  clear h₀ hf₀
  unfold slavePtp
  try dsimp only
  all_goals repeat'
    first
    | with_reducible exact Does.refl _ _
    | decide
    | with_reducible apply bump_does
    | split

theorem frontFrame_does {fs₀ s₀ k f x s} (h₀ : Does fs₀ s₀ s) (hf₀ : Fld.within [.regs, .pairs, .funcs, .mem, .items,
      .nextItem, .flow, .free, .out] fs₀ = true) :
    Does fs₀ s₀ (frontFrame k f x s) := by
  refine h₀.trans ?_ hf₀
  clear h₀ hf₀
  unfold frontFrame
  try dsimp only
  all_goals repeat'
    first
    | with_reducible exact Does.refl _ _
    | decide
    | with_reducible apply keyedPacket_does
    | with_reducible apply forwardNow_does
    | with_reducible apply bump_does
    | split

theorem goodFrame_does {fs₀ s₀ k f s} (h₀ : Does fs₀ s₀ s) (hf₀ : Fld.within [.regs, .pairs, .funcs, .mem, .items, .nextItem,
      .flow, .free, .out] fs₀ = true) :
    Does fs₀ s₀ (goodFrame k f s) := by
  refine h₀.trans ?_ hf₀
  clear h₀ hf₀
  unfold goodFrame
  try dsimp only
  all_goals repeat'
    first
    | with_reducible exact Does.refl _ _
    | decide
    | with_reducible apply frontFrame_does
    | with_reducible apply slavePtp_does
    | with_reducible apply unscoredPolicy_does
    | with_reducible apply bump_does
    | split
    | (obtain rfl := congrArg Prod.snd ‹slavePtp _ _ _ _ = _›)

theorem badFrame_does {fs₀ s₀ k f s} (h₀ : Does fs₀ s₀ s) (hf₀ : Fld.within [.regs, .free, .out] fs₀ = true) :
    Does fs₀ s₀ (badFrame k f s) := by
  refine h₀.trans ?_ hf₀
  clear h₀ hf₀
  unfold badFrame
  try dsimp only
  all_goals repeat'
    first
    | with_reducible exact Does.refl _ _
    | decide
    | with_reducible apply unscoredPolicy_does
    | with_reducible apply forwardNow_does
    | with_reducible apply bump_does
    | split

theorem idleEnd_does {fs₀ s₀ i s} (h₀ : Does fs₀ s₀ s) (hf₀ : Fld.within [.regs, .pairs, .funcs, .mem, .items, .nextItem,
      .flow, .free, .out] fs₀ = true) :
    Does fs₀ s₀ (idleEnd i s) := by
  refine h₀.trans ?_ hf₀
  clear h₀ hf₀
  unfold idleEnd
  try dsimp only
  all_goals repeat'
    first
    | with_reducible exact Does.refl _ _
    | decide
    | with_reducible apply trigger_does
    | with_reducible apply updRec_does
    | split

theorem freeRec_does {fs₀ s₀ i s} (h₀ : Does fs₀ s₀ s) (hf₀ : Fld.within [.regs, .mem, .flow] fs₀ = true) :
    Does fs₀ s₀ (freeRec i s) := by
  refine h₀.trans ?_ hf₀
  clear h₀ hf₀
  unfold freeRec
  try dsimp only
  all_goals repeat'
    first
    | with_reducible exact Does.refl _ _
    | decide
    | with_reducible apply updRec_does
    | with_reducible apply orphanRec_does
    | with_reducible apply setFlowX_does
    | split

theorem fullRecord_does {fs₀ s₀ disp n b s} (h₀ : Does fs₀ s₀ s) (hf₀ : Fld.within [.regs, .pairs, .funcs, .out] fs₀ = true) :
    Does fs₀ s₀ (fullRecord disp n b s) := by
  refine h₀.trans ?_ hf₀
  clear h₀ hf₀
  unfold fullRecord
  try dsimp only
  all_goals repeat'
    first
    | with_reducible exact Does.refl _ _
    | decide
    | with_reducible apply eventRecord_does
    | split

theorem setVerdict_does {fs₀ s₀ i e s} (h₀ : Does fs₀ s₀ s) (hf₀ : Fld.within [.regs, .mem, .flow, .free, .out] fs₀ = true) :
    Does fs₀ s₀ (setVerdict i e s) := by
  refine h₀.trans ?_ hf₀
  clear h₀ hf₀
  unfold setVerdict
  try dsimp only
  all_goals repeat'
    first
    | with_reducible exact Does.refl _ _
    | decide
    | with_reducible apply releaseHold_does
    | with_reducible apply updRec_does
    | split

theorem entryRec_does {fs₀ s₀ e s} (h₀ : Does fs₀ s₀ s) (hf₀ : Fld.within [.regs, .mem, .flow] fs₀ = true) :
    Does fs₀ s₀ (entryRec e s).2 := by
  refine h₀.trans ?_ hf₀
  clear h₀ hf₀
  unfold entryRec
  try dsimp only
  all_goals repeat'
    first
    | with_reducible exact Does.refl _ _
    | decide
    | with_reducible apply newRec_does
    | split

theorem setEntries_does {fs₀ s₀ x1 x2 x3 x4} (h₀ : Does fs₀ s₀ x4) (hf₀ : Fld.within [.regs, .mem, .flow, .free,
      .out] fs₀ = true) :
    Does fs₀ s₀ (setEntries x1 x2 x3 x4).2 := by
  refine h₀.trans ?_ hf₀
  clear h₀ hf₀
  fun_induction setEntries x1 x2 x3 x4
  all_goals try dsimp +zetaDelta only
  all_goals repeat'
    first
    | with_reducible exact Does.refl _ _
    | decide
    | with_reducible refine Does.trans ?_ (by assumption) ?_
    | with_reducible apply entryRec_does
    | with_reducible apply setVerdict_does
    | split
    | (obtain rfl := congrArg Prod.snd ‹entryRec _ _ = _›)

theorem verdictSetGo_does {fs₀ s₀ r d bs s} (h₀ : Does fs₀ s₀ s) (hf₀ : Fld.within [.regs, .pairs, .funcs, .flights, .mem,
      .flow, .fault, .free, .out] fs₀ = true) :
    Does fs₀ s₀ (verdictSetGo r d bs s) := by
  refine h₀.trans ?_ hf₀
  clear h₀ hf₀
  unfold verdictSetGo
  try dsimp only
  all_goals repeat'
    first
    | with_reducible exact Does.refl _ _
    | decide
    | with_reducible apply setEntries_does
    | with_reducible apply finish_does
    | split
    | (obtain rfl := congrArg Prod.snd ‹setEntries _ _ _ _ = _›)

theorem execFlowVerdict_does {fs₀ s₀ rec word s t₀} (h₀ : Does fs₀ s₀ s) (e₀ : execFlowVerdict rec word s = .next t₀)
    (hf₀ : Fld.within [.regs, .pairs, .funcs, .mem, .tiles, .reels, .loaded, .items, .flow, .free,
      .out] fs₀ = true) : Does fs₀ s₀ t₀ := by
  refine h₀.trans ?_ hf₀
  clear h₀ hf₀
  unfold execFlowVerdict at e₀
  (try dsimp only at e₀)
  first
  | cases e₀
  | ((repeat' split at e₀) <;> cases e₀)
  all_goals repeat'
    first
    | with_reducible exact Does.refl _ _
    | decide
    | with_reducible apply presentVerdict_does
    | with_reducible apply stopItem_does
    | with_reducible apply dropItem_does
    | split

theorem execHoldCeiling_does {fs₀ s₀ rec s t₀} (h₀ : Does fs₀ s₀ s) (e₀ : execHoldCeiling rec s = .next t₀)
    (hf₀ : Fld.within [.regs, .clk, .time, .funcs, .mem, .flow, .free, .out] fs₀ = true) : Does fs₀ s₀ t₀ := by
  refine h₀.trans ?_ hf₀
  clear h₀ hf₀
  unfold execHoldCeiling at e₀
  (try dsimp only at e₀)
  first
  | cases e₀
  | ((repeat' split at e₀) <;> cases e₀)
  all_goals repeat'
    first
    | with_reducible exact Does.refl _ _
    | decide
    | with_reducible apply endHoldLate_does
    | with_reducible apply runToClk_does
    | split

theorem execLineFrameReceive_does {fs₀ s₀ port frame fcsOk s t₀} (h₀ : Does fs₀ s₀ s) (e₀ : execLineFrameReceive port frame fcsOk s = .next t₀)
    (hf₀ : Fld.within [.regs, .pairs, .funcs, .mem, .items, .nextItem, .flow, .free, .out] fs₀ = true) : Does fs₀ s₀ t₀ := by
  refine h₀.trans ?_ hf₀
  clear h₀ hf₀
  unfold execLineFrameReceive at e₀
  (try dsimp only at e₀)
  first
  | cases e₀
  | ((repeat' split at e₀) <;> cases e₀)
  all_goals repeat'
    first
    | with_reducible exact Does.refl _ _
    | decide
    | with_reducible apply badFrame_does
    | with_reducible apply goodFrame_does
    | with_reducible apply bump_does
    | split

theorem execLineLinkChange_does {fs₀ s₀ port up s t₀} (h₀ : Does fs₀ s₀ s) (e₀ : execLineLinkChange port up s = .next t₀)
    (hf₀ : Fld.within [.regs] fs₀ = true) : Does fs₀ s₀ t₀ := by
  refine h₀.trans ?_ hf₀
  clear h₀ hf₀
  unfold execLineLinkChange at e₀
  (try dsimp only at e₀)
  first
  | cases e₀
  | ((repeat' split at e₀) <;> cases e₀)
  all_goals repeat'
    first
    | with_reducible exact Does.refl _ _
    | decide
    | with_reducible apply wrf_does
    | split

theorem execFlowSweep_does {fs₀ s₀ rec s t₀} (h₀ : Does fs₀ s₀ s) (e₀ : execFlowSweep rec s = .next t₀)
    (hf₀ : Fld.within [.regs, .pairs, .funcs, .mem, .items, .nextItem, .flow, .free, .out] fs₀ = true) : Does fs₀ s₀ t₀ := by
  refine h₀.trans ?_ hf₀
  clear h₀ hf₀
  unfold execFlowSweep at e₀
  (try dsimp only at e₀)
  first
  | cases e₀
  | ((repeat' split at e₀) <;> cases e₀)
  all_goals repeat'
    first
    | with_reducible exact Does.refl _ _
    | decide
    | with_reducible apply freeRec_does
    | with_reducible apply idleEnd_does
    | split

theorem execTableFullReport_does {fs₀ s₀ s t₀} (h₀ : Does fs₀ s₀ s) (e₀ : execTableFullReport s = .next t₀)
    (hf₀ : Fld.within [.regs, .pairs, .funcs, .flow, .out] fs₀ = true) : Does fs₀ s₀ t₀ := by
  refine h₀.trans ?_ hf₀
  clear h₀ hf₀
  unfold execTableFullReport at e₀
  (try dsimp only at e₀)
  first
  | cases e₀
  | ((repeat' split at e₀) <;> cases e₀)
  all_goals repeat'
    first
    | with_reducible exact Does.refl _ _
    | decide
    | with_reducible apply fullRecord_does
    | split
    | ((with_reducible refine Does.upd ?_ ?_ ?_); (on_goal 2 => exact rfl); (on_goal 2 => (intro f hf; cases f <;> first | exact absurd (by decide) hf | dsimp only [sameFld])))

theorem execFlowVerdictSet_does {fs₀ s₀ r entries s t₀} (h₀ : Does fs₀ s₀ s) (e₀ : execFlowVerdictSet r entries s = .next t₀)
    (hf₀ : Fld.within [.regs, .pairs, .funcs, .flights, .mem, .flow, .fault, .free, .out] fs₀ = true) : Does fs₀ s₀ t₀ := by
  refine h₀.trans ?_ hf₀
  clear h₀ hf₀
  unfold execFlowVerdictSet at e₀
  (try dsimp only at e₀)
  first
  | cases e₀
  | ((repeat' split at e₀) <;> cases e₀)
  all_goals repeat'
    first
    | with_reducible exact Does.refl _ _
    | decide
    | with_reducible apply verdictSetGo_does
    | with_reducible apply withInput_does
    | with_reducible apply runDesc_does
    | with_reducible apply refuse_does
    | with_reducible assumption
    | (intro a b h)
    | split

/-! ### Files -/

theorem scoreVectors_does {fs₀ s₀ r d l bs s} (h₀ : Does fs₀ s₀ s) (hf₀ : Fld.within [.regs, .pairs, .funcs, .flights,
      .items, .nextItem, .flow, .fault, .free, .out] fs₀ = true) :
    Does fs₀ s₀ (scoreVectors r d l bs s) := by
  refine h₀.trans ?_ hf₀
  clear h₀ hf₀
  unfold scoreVectors
  try dsimp only
  all_goals repeat'
    first
    | with_reducible exact Does.refl _ _
    | decide
    | with_reducible apply enqueue_does
    | with_reducible apply interim_does
    | with_reducible apply finish_does
    | with_reducible apply markStarted_does
    | split
    | (obtain rfl := congrArg Prod.snd ‹enqueue _ _ _ _ _ _ = _›)

theorem flowScoreGo_does {fs₀ s₀ r d dma s} (h₀ : Does fs₀ s₀ s) (hf₀ : Fld.within [.regs, .pairs, .funcs, .flights, .mem,
      .items, .nextItem, .flow, .fault, .free, .out] fs₀ = true) :
    Does fs₀ s₀ (flowScoreGo r d dma s) := by
  refine h₀.trans ?_ hf₀
  clear h₀ hf₀
  unfold flowScoreGo
  try dsimp only
  all_goals repeat'
    first
    | with_reducible exact Does.refl _ _
    | decide
    | with_reducible apply scoreVectors_does
    | with_reducible apply withInput_does
    | with_reducible apply refuse_does
    | with_reducible assumption
    | (intro a b h)
    | split

theorem openFile_does {fs₀ s₀ r profile id s} (h₀ : Does fs₀ s₀ s) (hf₀ : Fld.within [.flow] fs₀ = true) :
    Does fs₀ s₀ (openFile r profile id s) := by
  refine h₀.trans ?_ hf₀
  clear h₀ hf₀
  unfold openFile
  try dsimp only
  all_goals repeat'
    first
    | with_reducible exact Does.refl _ _
    | decide
    | split
    | ((with_reducible refine Does.upd ?_ ?_ ?_); (on_goal 2 => exact rfl); (on_goal 2 => (intro f hf; cases f <;> first | exact absurd (by decide) hf | dsimp only [sameFld])))

theorem fileOpenGo_does {fs₀ s₀ r d s} (h₀ : Does fs₀ s₀ s) (hf₀ : Fld.within [.regs, .pairs, .funcs, .flights, .flow,
      .fault, .out] fs₀ = true) :
    Does fs₀ s₀ (fileOpenGo r d s) := by
  refine h₀.trans ?_ hf₀
  clear h₀ hf₀
  unfold fileOpenGo
  try dsimp only
  all_goals repeat'
    first
    | with_reducible exact Does.refl _ _
    | decide
    | with_reducible apply openFile_does
    | with_reducible apply refuse_does
    | with_reducible apply finish_does
    | with_reducible apply bump_does
    | split

theorem touchFile_does {fs₀ s₀ f s} (h₀ : Does fs₀ s₀ s) (hf₀ : Fld.within [.flow] fs₀ = true) :
    Does fs₀ s₀ (touchFile f s) := by
  refine h₀.trans ?_ hf₀
  clear h₀ hf₀
  unfold touchFile
  try dsimp only
  all_goals repeat'
    first
    | with_reducible exact Does.refl _ _
    | decide
    | with_reducible apply setFile_does
    | split

theorem stageChunk_does {fs₀ s₀ r f k bs s} (h₀ : Does fs₀ s₀ s) (hf₀ : Fld.within [.regs, .pairs, .funcs, .flights, .flow,
      .fault, .out] fs₀ = true) :
    Does fs₀ s₀ (stageChunk r f k bs s) := by
  refine h₀.trans ?_ hf₀
  clear h₀ hf₀
  unfold stageChunk
  try dsimp only
  all_goals repeat'
    first
    | with_reducible exact Does.refl _ _
    | decide
    | with_reducible apply setFile_does
    | with_reducible apply finish_does
    | split

theorem fileChunkGo_does {fs₀ s₀ r d dma s} (h₀ : Does fs₀ s₀ s) (hf₀ : Fld.within [.regs, .pairs, .funcs, .flights, .mem,
      .flow, .fault, .free, .out] fs₀ = true) :
    Does fs₀ s₀ (fileChunkGo r d dma s) := by
  refine h₀.trans ?_ hf₀
  clear h₀ hf₀
  unfold fileChunkGo
  try dsimp only
  all_goals repeat'
    first
    | with_reducible exact Does.refl _ _
    | decide
    | with_reducible apply stageChunk_does
    | with_reducible apply touchFile_does
    | with_reducible apply withInput_does
    | with_reducible apply refuse_does
    | with_reducible apply finish_does
    | with_reducible assumption
    | (intro a b h)
    | split

theorem queueClose_does {fs₀ s₀ r f c l s} (h₀ : Does fs₀ s₀ s) (hf₀ : Fld.within [.regs, .pairs, .funcs, .flights, .items,
      .nextItem, .flow, .out] fs₀ = true) :
    Does fs₀ s₀ (queueClose r f c l s) := by
  refine h₀.trans ?_ hf₀
  clear h₀ hf₀
  unfold queueClose
  try dsimp only
  all_goals repeat'
    first
    | with_reducible exact Does.refl _ _
    | decide
    | with_reducible apply pushItem_does
    | with_reducible apply setFile_does
    | with_reducible apply interim_does
    | with_reducible apply markStarted_does
    | split

theorem fileCloseGo_does {fs₀ s₀ r d s} (h₀ : Does fs₀ s₀ s) (hf₀ : Fld.within [.regs, .pairs, .funcs, .flights, .items,
      .nextItem, .flow, .fault, .out] fs₀ = true) :
    Does fs₀ s₀ (fileCloseGo r d s) := by
  refine h₀.trans ?_ hf₀
  clear h₀ hf₀
  unfold fileCloseGo
  try dsimp only
  all_goals repeat'
    first
    | with_reducible exact Does.refl _ _
    | decide
    | with_reducible apply queueClose_does
    | with_reducible apply touchFile_does
    | with_reducible apply refuse_does
    | with_reducible apply finish_does
    | with_reducible apply bump_does
    | split

theorem fileAbortGo_does {fs₀ s₀ r d s} (h₀ : Does fs₀ s₀ s) (hf₀ : Fld.within [.regs, .pairs, .funcs, .flights, .flow,
      .fault, .out] fs₀ = true) :
    Does fs₀ s₀ (fileAbortGo r d s) := by
  refine h₀.trans ?_ hf₀
  clear h₀ hf₀
  unfold fileAbortGo
  try dsimp only
  all_goals repeat'
    first
    | with_reducible exact Does.refl _ _
    | decide
    | with_reducible apply dropFile_does
    | with_reducible apply refuse_does
    | with_reducible apply finish_does
    | split

theorem countInvalid_does {fs₀ s₀ w s} (h₀ : Does fs₀ s₀ s) (hf₀ : Fld.within [.regs, .funcs, .out] fs₀ = true) :
    Does fs₀ s₀ (countInvalid w s) := by
  refine h₀.trans ?_ hf₀
  clear h₀ hf₀
  unfold countInvalid
  try dsimp only
  all_goals repeat'
    first
    | with_reducible exact Does.refl _ _
    | decide
    | with_reducible apply raise_does
    | with_reducible apply bump_does
    | split

theorem fileToFlow_does {fs₀ s₀ i f w s} (h₀ : Does fs₀ s₀ s) (hf₀ : Fld.within [.regs, .mem] fs₀ = true) :
    Does fs₀ s₀ (fileToFlow i f w s) := by
  refine h₀.trans ?_ hf₀
  clear h₀ hf₀
  unfold fileToFlow
  try dsimp only
  all_goals repeat'
    first
    | with_reducible exact Does.refl _ _
    | decide
    | with_reducible apply updRec_does
    | split

theorem fileScored_does {fs₀ s₀ i f w s} (h₀ : Does fs₀ s₀ s) (hf₀ : Fld.within [.regs, .pairs, .funcs, .flights, .mem,
      .tiles, .reels, .loaded, .items, .flow, .fault, .out] fs₀ = true) :
    Does fs₀ s₀ (fileScored i f w s) := by
  refine h₀.trans ?_ hf₀
  clear h₀ hf₀
  unfold fileScored
  try dsimp only
  all_goals repeat'
    first
    | with_reducible exact Does.refl _ _
    | decide
    | with_reducible apply fileToFlow_does
    | with_reducible apply countInvalid_does
    | with_reducible apply dropFile_does
    | with_reducible apply stopItem_does
    | with_reducible apply dropItem_does
    | with_reducible apply flowRecordEvent_does
    | with_reducible apply finish_does
    | split

theorem itemDone_does {fs₀ s₀ i words s} (h₀ : Does fs₀ s₀ s) (hf₀ : Fld.within [.regs, .pairs, .funcs, .flights, .mem,
      .tiles, .reels, .loaded, .items, .flow, .fault, .free, .out] fs₀ = true) :
    Does fs₀ s₀ (itemDone i words s) := by
  refine h₀.trans ?_ hf₀
  clear h₀ hf₀
  unfold itemDone
  try dsimp only
  all_goals repeat'
    first
    | with_reducible exact Does.refl _ _
    | decide
    | with_reducible apply fileScored_does
    | with_reducible apply presentVerdict_does
    | with_reducible apply stopItem_does
    | with_reducible apply dropItem_does
    | with_reducible apply finishOut_does
    | split

theorem execFlowScore_does {fs₀ s₀ r vectors s t₀} (h₀ : Does fs₀ s₀ s) (e₀ : execFlowScore r vectors s = .next t₀)
    (hf₀ : Fld.within [.regs, .pairs, .funcs, .flights, .mem, .items, .nextItem, .flow, .fault, .free,
      .out] fs₀ = true) : Does fs₀ s₀ t₀ := by
  refine h₀.trans ?_ hf₀
  clear h₀ hf₀
  unfold execFlowScore at e₀
  (try dsimp only at e₀)
  first
  | cases e₀
  | ((repeat' split at e₀) <;> cases e₀)
  all_goals repeat'
    first
    | with_reducible exact Does.refl _ _
    | decide
    | with_reducible apply flowScoreGo_does
    | with_reducible apply runDesc_does
    | with_reducible assumption
    | (intro a b h)
    | split

theorem execFileOpen_does {fs₀ s₀ r s t₀} (h₀ : Does fs₀ s₀ s) (e₀ : execFileOpen r s = .next t₀)
    (hf₀ : Fld.within [.regs, .pairs, .funcs, .flights, .flow, .fault, .out] fs₀ = true) : Does fs₀ s₀ t₀ := by
  refine h₀.trans ?_ hf₀
  clear h₀ hf₀
  unfold execFileOpen at e₀
  (try dsimp only at e₀)
  first
  | cases e₀
  | ((repeat' split at e₀) <;> cases e₀)
  all_goals repeat'
    first
    | with_reducible exact Does.refl _ _
    | decide
    | with_reducible apply fileOpenGo_does
    | with_reducible apply runDesc_does
    | with_reducible assumption
    | (intro a b h)
    | split

theorem execFileChunk_does {fs₀ s₀ r chunk s t₀} (h₀ : Does fs₀ s₀ s) (e₀ : execFileChunk r chunk s = .next t₀)
    (hf₀ : Fld.within [.regs, .pairs, .funcs, .flights, .mem, .flow, .fault, .free, .out] fs₀ = true) : Does fs₀ s₀ t₀ := by
  refine h₀.trans ?_ hf₀
  clear h₀ hf₀
  unfold execFileChunk at e₀
  (try dsimp only at e₀)
  first
  | cases e₀
  | ((repeat' split at e₀) <;> cases e₀)
  all_goals repeat'
    first
    | with_reducible exact Does.refl _ _
    | decide
    | with_reducible apply fileChunkGo_does
    | with_reducible apply runDesc_does
    | with_reducible assumption
    | (intro a b h)
    | split

theorem execFileClose_does {fs₀ s₀ r s t₀} (h₀ : Does fs₀ s₀ s) (e₀ : execFileClose r s = .next t₀)
    (hf₀ : Fld.within [.regs, .pairs, .funcs, .flights, .items, .nextItem, .flow, .fault,
      .out] fs₀ = true) : Does fs₀ s₀ t₀ := by
  refine h₀.trans ?_ hf₀
  clear h₀ hf₀
  unfold execFileClose at e₀
  (try dsimp only at e₀)
  first
  | cases e₀
  | ((repeat' split at e₀) <;> cases e₀)
  all_goals repeat'
    first
    | with_reducible exact Does.refl _ _
    | decide
    | with_reducible apply fileCloseGo_does
    | with_reducible apply runDesc_does
    | with_reducible assumption
    | (intro a b h)
    | split

theorem execFileAbort_does {fs₀ s₀ r s t₀} (h₀ : Does fs₀ s₀ s) (e₀ : execFileAbort r s = .next t₀)
    (hf₀ : Fld.within [.regs, .pairs, .funcs, .flights, .flow, .fault, .out] fs₀ = true) : Does fs₀ s₀ t₀ := by
  refine h₀.trans ?_ hf₀
  clear h₀ hf₀
  unfold execFileAbort at e₀
  (try dsimp only at e₀)
  first
  | cases e₀
  | ((repeat' split at e₀) <;> cases e₀)
  all_goals repeat'
    first
    | with_reducible exact Does.refl _ _
    | decide
    | with_reducible apply fileAbortGo_does
    | with_reducible apply runDesc_does
    | with_reducible assumption
    | (intro a b h)
    | split

theorem execFileTimeout_does {fs₀ s₀ id s t₀} (h₀ : Does fs₀ s₀ s) (e₀ : execFileTimeout id s = .next t₀)
    (hf₀ : Fld.within [.regs, .clk, .time, .mem, .flow] fs₀ = true) : Does fs₀ s₀ t₀ := by
  refine h₀.trans ?_ hf₀
  clear h₀ hf₀
  unfold execFileTimeout at e₀
  (try dsimp only at e₀)
  first
  | cases e₀
  | ((repeat' split at e₀) <;> cases e₀)
  all_goals repeat'
    first
    | with_reducible exact Does.refl _ _
    | decide
    | with_reducible apply endExtract_does
    | with_reducible apply dropFile_does
    | with_reducible apply runToClk_does
    | with_reducible apply bump_does
    | split

theorem execFileVerdict_does {fs₀ s₀ word s t₀} (h₀ : Does fs₀ s₀ s) (e₀ : execFileVerdict word s = .next t₀)
    (hf₀ : Fld.within [.regs, .pairs, .funcs, .flights, .mem, .tiles, .reels, .loaded, .items, .flow, .fault,
      .out] fs₀ = true) : Does fs₀ s₀ t₀ := by
  refine h₀.trans ?_ hf₀
  clear h₀ hf₀
  unfold execFileVerdict at e₀
  (try dsimp only at e₀)
  first
  | cases e₀
  | ((repeat' split at e₀) <;> cases e₀)
  all_goals repeat'
    first
    | with_reducible exact Does.refl _ _
    | decide
    | with_reducible apply fileScored_does
    | split

theorem execItemComplete_does {fs₀ s₀ n t words s t₀} (h₀ : Does fs₀ s₀ s) (e₀ : execItemComplete n t words s = .next t₀)
    (hf₀ : Fld.within [.regs, .pairs, .funcs, .flights, .mem, .tiles, .reels, .loaded, .items, .flow, .fault, .free,
      .out] fs₀ = true) : Does fs₀ s₀ t₀ := by
  refine h₀.trans ?_ hf₀
  clear h₀ hf₀
  unfold execItemComplete at e₀
  (try dsimp only at e₀)
  first
  | cases e₀
  | ((repeat' split at e₀) <;> cases e₀)
  all_goals repeat'
    first
    | with_reducible exact Does.refl _ _
    | decide
    | with_reducible apply itemDone_does
    | split

/-! ### Jtag -/

theorem setIr_does {fs₀ s₀ i s} (h₀ : Does fs₀ s₀ s) (hf₀ : Fld.within [.mgmt] fs₀ = true) :
    Does fs₀ s₀ (setIr i s) := by
  refine h₀.trans ?_ hf₀
  clear h₀ hf₀
  unfold setIr
  try dsimp only
  all_goals repeat'
    first
    | with_reducible exact Does.refl _ _
    | decide
    | split
    | ((with_reducible refine Does.upd ?_ ?_ ?_); (on_goal 2 => exact rfl); (on_goal 2 => (intro f hf; cases f <;> first | exact absurd (by decide) hf | dsimp only [sameFld])))

theorem denied_does {fs₀ s₀ s} (h₀ : Does fs₀ s₀ s) (hf₀ : Fld.within [.regs, .mgmt] fs₀ = true) :
    Does fs₀ s₀ (denied s) := by
  refine h₀.trans ?_ hf₀
  clear h₀ hf₀
  unfold denied
  try dsimp only
  all_goals repeat'
    first
    | with_reducible exact Does.refl _ _
    | decide
    | with_reducible apply setIr_does
    | with_reducible apply bump_does
    | split

theorem scanHeld_does {fs₀ s₀ i s} (h₀ : Does fs₀ s₀ s) (hf₀ : Fld.within [.regs, .clk, .time, .pairs, .funcs, .flights,
      .mem, .tiles, .reels, .loaded, .nextLoad, .chains, .items, .nextItem, .windows, .jobs, .rounds, .lastReel, .radio,
      .flow, .cont, .matte, .splice, .fault, .hold, .mgmt, .board, .free, .out, .fetchTurn, .pending] fs₀ = true) :
    Does fs₀ s₀ (scanHeld i s) := by
  refine h₀.trans ?_ hf₀
  clear h₀ hf₀
  unfold scanHeld
  try dsimp only
  all_goals repeat'
    first
    | with_reducible exact Does.refl _ _
    | decide
    | with_reducible apply setIr_does
    | with_reducible apply commitReset_does
    | split
    | ((with_reducible refine Does.upd ?_ ?_ ?_); (on_goal 2 => exact rfl); (on_goal 2 => (intro f hf; cases f <;> first | exact absurd (by decide) hf | dsimp only [sameFld])))

theorem execExtest_does {fs₀ s₀ s t₀} (h₀ : Does fs₀ s₀ s) (e₀ : execExtest s = .next t₀)
    (hf₀ : Fld.within [.regs, .clk, .time, .pairs, .funcs, .flights, .mem, .tiles, .reels, .loaded, .nextLoad, .chains,
      .items, .nextItem, .windows, .jobs, .rounds, .lastReel, .radio, .flow, .cont, .matte, .splice, .fault, .hold, .mgmt,
      .board, .free, .out, .fetchTurn, .pending] fs₀ = true) : Does fs₀ s₀ t₀ := by
  refine h₀.trans ?_ hf₀
  clear h₀ hf₀
  unfold execExtest at e₀
  (try dsimp only at e₀)
  first
  | cases e₀
  | ((repeat' split at e₀) <;> cases e₀)
  all_goals repeat'
    first
    | with_reducible exact Does.refl _ _
    | decide
    | with_reducible apply scanHeld_does
    | split

theorem execClamp_does {fs₀ s₀ s t₀} (h₀ : Does fs₀ s₀ s) (e₀ : execClamp s = .next t₀)
    (hf₀ : Fld.within [.regs, .clk, .time, .pairs, .funcs, .flights, .mem, .tiles, .reels, .loaded, .nextLoad, .chains,
      .items, .nextItem, .windows, .jobs, .rounds, .lastReel, .radio, .flow, .cont, .matte, .splice, .fault, .hold, .mgmt,
      .board, .free, .out, .fetchTurn, .pending] fs₀ = true) : Does fs₀ s₀ t₀ := by
  refine h₀.trans ?_ hf₀
  clear h₀ hf₀
  unfold execClamp at e₀
  (try dsimp only at e₀)
  first
  | cases e₀
  | ((repeat' split at e₀) <;> cases e₀)
  all_goals repeat'
    first
    | with_reducible exact Does.refl _ _
    | decide
    | with_reducible apply scanHeld_does
    | split

theorem execHighz_does {fs₀ s₀ s t₀} (h₀ : Does fs₀ s₀ s) (e₀ : execHighz s = .next t₀)
    (hf₀ : Fld.within [.regs, .clk, .time, .pairs, .funcs, .flights, .mem, .tiles, .reels, .loaded, .nextLoad, .chains,
      .items, .nextItem, .windows, .jobs, .rounds, .lastReel, .radio, .flow, .cont, .matte, .splice, .fault, .hold, .mgmt,
      .board, .free, .out, .fetchTurn, .pending] fs₀ = true) : Does fs₀ s₀ t₀ := by
  refine h₀.trans ?_ hf₀
  clear h₀ hf₀
  unfold execHighz at e₀
  (try dsimp only at e₀)
  first
  | cases e₀
  | ((repeat' split at e₀) <;> cases e₀)
  all_goals repeat'
    first
    | with_reducible exact Does.refl _ _
    | decide
    | with_reducible apply scanHeld_does
    | split

theorem execIdcode_does {fs₀ s₀ s t₀} (h₀ : Does fs₀ s₀ s) (e₀ : execIdcode s = .next t₀)
    (hf₀ : Fld.within [.mgmt, .out] fs₀ = true) : Does fs₀ s₀ t₀ := by
  refine h₀.trans ?_ hf₀
  clear h₀ hf₀
  unfold execIdcode at e₀
  (try dsimp only at e₀)
  first
  | cases e₀
  | ((repeat' split at e₀) <;> cases e₀)
  all_goals repeat'
    first
    | with_reducible exact Does.refl _ _
    | decide
    | with_reducible apply setIr_does
    | with_reducible apply emit_does
    | split

theorem execSamplePreload_does {fs₀ s₀ s t₀} (h₀ : Does fs₀ s₀ s) (e₀ : execSamplePreload s = .next t₀)
    (hf₀ : Fld.within [.mgmt] fs₀ = true) : Does fs₀ s₀ t₀ := by
  refine h₀.trans ?_ hf₀
  clear h₀ hf₀
  unfold execSamplePreload at e₀
  (try dsimp only at e₀)
  first
  | cases e₀
  | ((repeat' split at e₀) <;> cases e₀)
  all_goals repeat'
    first
    | with_reducible exact Does.refl _ _
    | decide
    | with_reducible apply setIr_does
    | split

theorem execUnlockChal_does {fs₀ s₀ s t₀} (h₀ : Does fs₀ s₀ s) (e₀ : execUnlockChal s = .next t₀)
    (hf₀ : Fld.within [.regs, .mgmt, .free, .out] fs₀ = true) : Does fs₀ s₀ t₀ := by
  refine h₀.trans ?_ hf₀
  clear h₀ hf₀
  unfold execUnlockChal at e₀
  (try dsimp only at e₀)
  first
  | cases e₀
  | ((repeat' split at e₀) <;> cases e₀)
  all_goals repeat'
    first
    | with_reducible exact Does.refl _ _
    | decide
    | with_reducible apply denied_does
    | with_reducible apply setIr_does
    | with_reducible apply emit_does
    | split
    | ((with_reducible refine Does.upd ?_ ?_ ?_); (on_goal 2 => exact rfl); (on_goal 2 => (intro f hf; cases f <;> first | exact absurd (by decide) hf | dsimp only [sameFld])))

theorem execUnlockResp_does {fs₀ s₀ valid s t₀} (h₀ : Does fs₀ s₀ s) (e₀ : execUnlockResp valid s = .next t₀)
    (hf₀ : Fld.within [.regs, .clk, .time, .pairs, .funcs, .flights, .mem, .tiles, .reels, .loaded, .nextLoad, .chains,
      .items, .nextItem, .windows, .jobs, .rounds, .lastReel, .radio, .flow, .cont, .matte, .splice, .fault, .hold, .mgmt,
      .board, .free, .out, .fetchTurn, .pending] fs₀ = true) : Does fs₀ s₀ t₀ := by
  refine h₀.trans ?_ hf₀
  clear h₀ hf₀
  unfold execUnlockResp at e₀
  (try dsimp only at e₀)
  first
  | cases e₀
  | ((repeat' split at e₀) <;> cases e₀)
  all_goals repeat'
    first
    | with_reducible exact Does.refl _ _
    | decide
    | with_reducible apply denied_does
    | with_reducible apply setIr_does
    | with_reducible apply commitReset_does
    | split
    | ((with_reducible refine Does.upd ?_ ?_ ?_); (on_goal 2 => exact rfl); (on_goal 2 => (intro f hf; cases f <;> first | exact absurd (by decide) hf | dsimp only [sameFld])))

theorem execDebugAccess_does {fs₀ s₀ code s t₀} (h₀ : Does fs₀ s₀ s) (e₀ : execDebugAccess code s = .next t₀)
    (hf₀ : Fld.within [.regs, .funcs, .mgmt, .out] fs₀ = true) : Does fs₀ s₀ t₀ := by
  refine h₀.trans ?_ hf₀
  clear h₀ hf₀
  unfold execDebugAccess at e₀
  (try dsimp only at e₀)
  first
  | cases e₀
  | ((repeat' split at e₀) <;> cases e₀)
  all_goals repeat'
    first
    | with_reducible exact Does.refl _ _
    | decide
    | with_reducible apply denied_does
    | with_reducible apply setIr_does
    | with_reducible apply raise_does
    | split

theorem execBypass_does {fs₀ s₀ code s t₀} (h₀ : Does fs₀ s₀ s) (e₀ : execBypass code s = .next t₀)
    (hf₀ : Fld.within [.regs, .mgmt] fs₀ = true) : Does fs₀ s₀ t₀ := by
  refine h₀.trans ?_ hf₀
  clear h₀ hf₀
  unfold execBypass at e₀
  (try dsimp only at e₀)
  first
  | cases e₀
  | ((repeat' split at e₀) <;> cases e₀)
  all_goals repeat'
    first
    | with_reducible exact Does.refl _ _
    | decide
    | with_reducible apply denied_does
    | with_reducible apply setIr_does
    | split

theorem execTapTestLogicReset_does {fs₀ s₀ sigs s t₀} (h₀ : Does fs₀ s₀ s) (e₀ : execTapTestLogicReset sigs s = .next t₀)
    (hf₀ : Fld.within [.regs, .time, .funcs, .hold, .mgmt, .board, .free, .out] fs₀ = true) : Does fs₀ s₀ t₀ := by
  refine h₀.trans ?_ hf₀
  clear h₀ hf₀
  unfold execTapTestLogicReset at e₀
  (try dsimp only at e₀)
  first
  | cases e₀
  | ((repeat' split at e₀) <;> cases e₀)
  all_goals repeat'
    first
    | with_reducible exact Does.refl _ _
    | decide
    | with_reducible apply setIr_does
    | with_reducible apply bootUp_does
    | split
    | ((with_reducible refine Does.upd ?_ ?_ ?_); (on_goal 2 => exact rfl); (on_goal 2 => (intro f hf; cases f <;> first | exact absurd (by decide) hf | dsimp only [sameFld])))

/-! ### Mgmt -/

theorem ctlReply_does {fs₀ s₀ code bs s} (h₀ : Does fs₀ s₀ s) (hf₀ : Fld.within [.out] fs₀ = true) :
    Does fs₀ s₀ (ctlReply code bs s) := by
  refine h₀.trans ?_ hf₀
  clear h₀ hf₀
  unfold ctlReply
  try dsimp only
  all_goals repeat'
    first
    | with_reducible exact Does.refl _ _
    | decide
    | with_reducible apply emit_does
    | split

theorem pldmReply_does {fs₀ s₀ code bs s} (h₀ : Does fs₀ s₀ s) (hf₀ : Fld.within [.out] fs₀ = true) :
    Does fs₀ s₀ (pldmReply code bs s) := by
  refine h₀.trans ?_ hf₀
  clear h₀ hf₀
  unfold pldmReply
  try dsimp only
  all_goals repeat'
    first
    | with_reducible exact Does.refl _ _
    | decide
    | with_reducible apply emit_does
    | split

theorem inPldm_does {fs₀ s₀ l f s} (h₀ : Does fs₀ s₀ s) (hf : ∀ p t, Does fs₀ s₀ t → Does fs₀ s₀ (f p t))
    (hf₀ : Fld.within [.out] fs₀ = true) : Does fs₀ s₀ (inPldm l f s) := by
  unfold inPldm
  split
  · exact h₀
  · split
    · split
      · exact hf _ _ h₀
      · exact pldmReply_does h₀ (within_of_within (by decide) hf₀)
    · exact pldmReply_does h₀ (within_of_within (by decide) hf₀)

theorem setPldm_does {fs₀ s₀ st p s} (h₀ : Does fs₀ s₀ s) (hf₀ : Fld.within [.regs, .mgmt] fs₀ = true) :
    Does fs₀ s₀ (setPldm st p s) := by
  refine h₀.trans ?_ hf₀
  clear h₀ hf₀
  unfold setPldm
  try dsimp only
  all_goals repeat'
    first
    | with_reducible exact Does.refl _ _
    | decide
    | with_reducible apply wr_does
    | split
    | ((with_reducible refine Does.upd ?_ ?_ ?_); (on_goal 2 => exact rfl); (on_goal 2 => (intro f hf; cases f <;> first | exact absurd (by decide) hf | dsimp only [sameFld])))

theorem spdmReply_does {fs₀ s₀ code bs s} (h₀ : Does fs₀ s₀ s) (hf₀ : Fld.within [.out] fs₀ = true) :
    Does fs₀ s₀ (spdmReply code bs s) := by
  refine h₀.trans ?_ hf₀
  clear h₀ hf₀
  unfold spdmReply
  try dsimp only
  all_goals repeat'
    first
    | with_reducible exact Does.refl _ _
    | decide
    | with_reducible apply emit_does
    | split

theorem spdmError_does {fs₀ s₀ e s} (h₀ : Does fs₀ s₀ s) (hf₀ : Fld.within [.out] fs₀ = true) :
    Does fs₀ s₀ (spdmError e s) := by
  refine h₀.trans ?_ hf₀
  clear h₀ hf₀
  unfold spdmError
  try dsimp only
  all_goals repeat'
    first
    | with_reducible exact Does.refl _ _
    | decide
    | with_reducible apply spdmReply_does
    | split

theorem negotiated_does {fs₀ s₀ f s} (h₀ : Does fs₀ s₀ s) (hf : ∀ t, Does fs₀ s₀ t → Does fs₀ s₀ (f t))
    (hf₀ : Fld.within [.out] fs₀ = true) : Does fs₀ s₀ (negotiated f s) := by
  unfold negotiated
  split
  · exact h₀
  · split
    · exact hf _ h₀
    · exact spdmError_does h₀ (within_of_within (by decide) hf₀)

theorem signed_does {fs₀ s₀ code bs s} (h₀ : Does fs₀ s₀ s) (hf₀ : Fld.within [.free, .out] fs₀ = true) :
    Does fs₀ s₀ (signed code bs s) := by
  refine h₀.trans ?_ hf₀
  clear h₀ hf₀
  unfold signed
  try dsimp only
  all_goals repeat'
    first
    | with_reducible exact Does.refl _ _
    | decide
    | with_reducible apply spdmReply_does
    | split
    | ((with_reducible refine Does.upd ?_ ?_ ?_); (on_goal 2 => exact rfl); (on_goal 2 => (intro f hf; cases f <;> first | exact absurd (by decide) hf | dsimp only [sameFld])))

theorem execSetEndpointId_does {fs₀ s₀ eid s t₀} (h₀ : Does fs₀ s₀ s) (e₀ : execSetEndpointId eid s = .next t₀)
    (hf₀ : Fld.within [.regs, .mgmt, .out] fs₀ = true) : Does fs₀ s₀ t₀ := by
  refine h₀.trans ?_ hf₀
  clear h₀ hf₀
  unfold execSetEndpointId at e₀
  (try dsimp only at e₀)
  first
  | cases e₀
  | ((repeat' split at e₀) <;> cases e₀)
  all_goals repeat'
    first
    | with_reducible exact Does.refl _ _
    | decide
    | with_reducible apply ctlReply_does
    | with_reducible apply wr_does
    | split
    | ((with_reducible refine Does.upd ?_ ?_ ?_); (on_goal 2 => exact rfl); (on_goal 2 => (intro f hf; cases f <;> first | exact absurd (by decide) hf | dsimp only [sameFld])))

theorem execGetEndpointId_does {fs₀ s₀ s t₀} (h₀ : Does fs₀ s₀ s) (e₀ : execGetEndpointId s = .next t₀)
    (hf₀ : Fld.within [.out] fs₀ = true) : Does fs₀ s₀ t₀ := by
  refine h₀.trans ?_ hf₀
  clear h₀ hf₀
  unfold execGetEndpointId at e₀
  (try dsimp only at e₀)
  first
  | cases e₀
  | ((repeat' split at e₀) <;> cases e₀)
  all_goals repeat'
    first
    | with_reducible exact Does.refl _ _
    | decide
    | with_reducible apply ctlReply_does
    | split

theorem execGetMctpVersionSupport_does {fs₀ s₀ s t₀} (h₀ : Does fs₀ s₀ s) (e₀ : execGetMctpVersionSupport s = .next t₀)
    (hf₀ : Fld.within [.out] fs₀ = true) : Does fs₀ s₀ t₀ := by
  refine h₀.trans ?_ hf₀
  clear h₀ hf₀
  unfold execGetMctpVersionSupport at e₀
  (try dsimp only at e₀)
  first
  | cases e₀
  | ((repeat' split at e₀) <;> cases e₀)
  all_goals repeat'
    first
    | with_reducible exact Does.refl _ _
    | decide
    | with_reducible apply ctlReply_does
    | split

theorem execGetMessageTypeSupport_does {fs₀ s₀ s t₀} (h₀ : Does fs₀ s₀ s) (e₀ : execGetMessageTypeSupport s = .next t₀)
    (hf₀ : Fld.within [.out] fs₀ = true) : Does fs₀ s₀ t₀ := by
  refine h₀.trans ?_ hf₀
  clear h₀ hf₀
  unfold execGetMessageTypeSupport at e₀
  (try dsimp only at e₀)
  first
  | cases e₀
  | ((repeat' split at e₀) <;> cases e₀)
  all_goals repeat'
    first
    | with_reducible exact Does.refl _ _
    | decide
    | with_reducible apply ctlReply_does
    | split

theorem execGetEndpointUuid_does {fs₀ s₀ s t₀} (h₀ : Does fs₀ s₀ s) (e₀ : execGetEndpointUuid s = .next t₀)
    (hf₀ : Fld.within [.out] fs₀ = true) : Does fs₀ s₀ t₀ := by
  refine h₀.trans ?_ hf₀
  clear h₀ hf₀
  unfold execGetEndpointUuid at e₀
  (try dsimp only at e₀)
  first
  | cases e₀
  | ((repeat' split at e₀) <;> cases e₀)
  all_goals repeat'
    first
    | with_reducible exact Does.refl _ _
    | decide
    | with_reducible apply ctlReply_does
    | split

theorem execMctpUnsupportedCmd_does {fs₀ s₀ cmd s t₀} (h₀ : Does fs₀ s₀ s) (e₀ : execMctpUnsupportedCmd cmd s = .next t₀)
    (hf₀ : Fld.within [.out] fs₀ = true) : Does fs₀ s₀ t₀ := by
  refine h₀.trans ?_ hf₀
  clear h₀ hf₀
  unfold execMctpUnsupportedCmd at e₀
  (try dsimp only at e₀)
  first
  | cases e₀
  | ((repeat' split at e₀) <;> cases e₀)
  all_goals repeat'
    first
    | with_reducible exact Does.refl _ _
    | decide
    | with_reducible apply ctlReply_does
    | split

theorem execGetTid_does {fs₀ s₀ s t₀} (h₀ : Does fs₀ s₀ s) (e₀ : execGetTid s = .next t₀)
    (hf₀ : Fld.within [.out] fs₀ = true) : Does fs₀ s₀ t₀ := by
  refine h₀.trans ?_ hf₀
  clear h₀ hf₀
  unfold execGetTid at e₀
  (try dsimp only at e₀)
  first
  | cases e₀
  | ((repeat' split at e₀) <;> cases e₀)
  all_goals repeat'
    first
    | with_reducible exact Does.refl _ _
    | decide
    | with_reducible apply pldmReply_does
    | split

theorem execGetPldmVersion_does {fs₀ s₀ typ s t₀} (h₀ : Does fs₀ s₀ s) (e₀ : execGetPldmVersion typ s = .next t₀)
    (hf₀ : Fld.within [.out] fs₀ = true) : Does fs₀ s₀ t₀ := by
  refine h₀.trans ?_ hf₀
  clear h₀ hf₀
  unfold execGetPldmVersion at e₀
  (try dsimp only at e₀)
  first
  | cases e₀
  | ((repeat' split at e₀) <;> cases e₀)
  all_goals repeat'
    first
    | with_reducible exact Does.refl _ _
    | decide
    | with_reducible apply pldmReply_does
    | split

theorem execGetPldmTypes_does {fs₀ s₀ s t₀} (h₀ : Does fs₀ s₀ s) (e₀ : execGetPldmTypes s = .next t₀)
    (hf₀ : Fld.within [.out] fs₀ = true) : Does fs₀ s₀ t₀ := by
  refine h₀.trans ?_ hf₀
  clear h₀ hf₀
  unfold execGetPldmTypes at e₀
  (try dsimp only at e₀)
  first
  | cases e₀
  | ((repeat' split at e₀) <;> cases e₀)
  all_goals repeat'
    first
    | with_reducible exact Does.refl _ _
    | decide
    | with_reducible apply pldmReply_does
    | split

theorem execGetPldmCommands_does {fs₀ s₀ typ s t₀} (h₀ : Does fs₀ s₀ s) (e₀ : execGetPldmCommands typ s = .next t₀)
    (hf₀ : Fld.within [.out] fs₀ = true) : Does fs₀ s₀ t₀ := by
  refine h₀.trans ?_ hf₀
  clear h₀ hf₀
  unfold execGetPldmCommands at e₀
  (try dsimp only at e₀)
  first
  | cases e₀
  | ((repeat' split at e₀) <;> cases e₀)
  all_goals repeat'
    first
    | with_reducible exact Does.refl _ _
    | decide
    | with_reducible apply pldmReply_does
    | split

theorem execQueryDeviceIdentifiers_does {fs₀ s₀ s t₀} (h₀ : Does fs₀ s₀ s) (e₀ : execQueryDeviceIdentifiers s = .next t₀)
    (hf₀ : Fld.within [.out] fs₀ = true) : Does fs₀ s₀ t₀ := by
  refine h₀.trans ?_ hf₀
  clear h₀ hf₀
  unfold execQueryDeviceIdentifiers at e₀
  (try dsimp only at e₀)
  first
  | cases e₀
  | ((repeat' split at e₀) <;> cases e₀)
  all_goals repeat'
    first
    | with_reducible exact Does.refl _ _
    | decide
    | with_reducible apply pldmReply_does
    | split

theorem execGetFirmwareParameters_does {fs₀ s₀ s t₀} (h₀ : Does fs₀ s₀ s) (e₀ : execGetFirmwareParameters s = .next t₀)
    (hf₀ : Fld.within [.out] fs₀ = true) : Does fs₀ s₀ t₀ := by
  refine h₀.trans ?_ hf₀
  clear h₀ hf₀
  unfold execGetFirmwareParameters at e₀
  (try dsimp only at e₀)
  first
  | cases e₀
  | ((repeat' split at e₀) <;> cases e₀)
  all_goals repeat'
    first
    | with_reducible exact Does.refl _ _
    | decide
    | with_reducible apply pldmReply_does
    | split

theorem execRequestUpdate_does {fs₀ s₀ s t₀} (h₀ : Does fs₀ s₀ s) (e₀ : execRequestUpdate s = .next t₀)
    (hf₀ : Fld.within [.regs, .mgmt, .out] fs₀ = true) : Does fs₀ s₀ t₀ := by
  refine h₀.trans ?_ hf₀
  clear h₀ hf₀
  unfold execRequestUpdate at e₀
  (try dsimp only at e₀)
  first
  | cases e₀
  | ((repeat' split at e₀) <;> cases e₀)
  all_goals repeat'
    first
    | with_reducible exact Does.refl _ _
    | decide
    | with_reducible apply setPldm_does
    | with_reducible apply pldmReply_does
    | split

theorem execPassComponentTable_does {fs₀ s₀ s t₀} (h₀ : Does fs₀ s₀ s) (e₀ : execPassComponentTable s = .next t₀)
    (hf₀ : Fld.within [.regs, .mgmt, .out] fs₀ = true) : Does fs₀ s₀ t₀ := by
  refine h₀.trans ?_ hf₀
  clear h₀ hf₀
  unfold execPassComponentTable at e₀
  (try dsimp only at e₀)
  first
  | cases e₀
  | ((repeat' split at e₀) <;> cases e₀)
  all_goals repeat'
    first
    | with_reducible exact Does.refl _ _
    | decide
    | with_reducible apply inPldm_does
    | with_reducible apply setPldm_does
    | with_reducible apply pldmReply_does
    | with_reducible assumption
    | (intro a b h)
    | split

theorem execUpdateComponent_does {fs₀ s₀ component s t₀} (h₀ : Does fs₀ s₀ s) (e₀ : execUpdateComponent component s = .next t₀)
    (hf₀ : Fld.within [.regs, .mgmt, .out] fs₀ = true) : Does fs₀ s₀ t₀ := by
  refine h₀.trans ?_ hf₀
  clear h₀ hf₀
  unfold execUpdateComponent at e₀
  (try dsimp only at e₀)
  first
  | cases e₀
  | ((repeat' split at e₀) <;> cases e₀)
  all_goals repeat'
    first
    | with_reducible exact Does.refl _ _
    | decide
    | with_reducible apply inPldm_does
    | with_reducible apply setPldm_does
    | with_reducible apply pldmReply_does
    | with_reducible assumption
    | (intro a b h)
    | split

theorem execRequestFirmwareData_does {fs₀ s₀ data s t₀} (h₀ : Does fs₀ s₀ s) (e₀ : execRequestFirmwareData data s = .next t₀)
    (hf₀ : Fld.within [.regs, .mgmt, .out] fs₀ = true) : Does fs₀ s₀ t₀ := by
  refine h₀.trans ?_ hf₀
  clear h₀ hf₀
  unfold execRequestFirmwareData at e₀
  (try dsimp only at e₀)
  first
  | cases e₀
  | ((repeat' split at e₀) <;> cases e₀)
  all_goals repeat'
    first
    | with_reducible exact Does.refl _ _
    | decide
    | with_reducible apply inPldm_does
    | with_reducible apply setPldm_does
    | with_reducible assumption
    | (intro a b h)
    | split
    | ((with_reducible refine Does.upd ?_ ?_ ?_); (on_goal 2 => exact rfl); (on_goal 2 => (intro f hf; cases f <;> first | exact absurd (by decide) hf | dsimp only [sameFld])))

theorem execTransferComplete_does {fs₀ s₀ ok s t₀} (h₀ : Does fs₀ s₀ s) (e₀ : execTransferComplete ok s = .next t₀)
    (hf₀ : Fld.within [.regs, .mgmt, .out] fs₀ = true) : Does fs₀ s₀ t₀ := by
  refine h₀.trans ?_ hf₀
  clear h₀ hf₀
  unfold execTransferComplete at e₀
  (try dsimp only at e₀)
  first
  | cases e₀
  | ((repeat' split at e₀) <;> cases e₀)
  all_goals repeat'
    first
    | with_reducible exact Does.refl _ _
    | decide
    | with_reducible apply inPldm_does
    | with_reducible apply setPldm_does
    | with_reducible apply pldmReply_does
    | with_reducible assumption
    | (intro a b h)
    | split

theorem execVerifyComplete_does {fs₀ s₀ keyOk sigOk s t₀} (h₀ : Does fs₀ s₀ s) (e₀ : execVerifyComplete keyOk sigOk s = .next t₀)
    (hf₀ : Fld.within [.regs, .mgmt, .out] fs₀ = true) : Does fs₀ s₀ t₀ := by
  refine h₀.trans ?_ hf₀
  clear h₀ hf₀
  unfold execVerifyComplete at e₀
  (try dsimp only at e₀)
  first
  | cases e₀
  | ((repeat' split at e₀) <;> cases e₀)
  all_goals repeat'
    first
    | with_reducible exact Does.refl _ _
    | decide
    | with_reducible apply inPldm_does
    | with_reducible apply setPldm_does
    | with_reducible apply pldmReply_does
    | with_reducible assumption
    | (intro a b h)
    | split

theorem execApplyComplete_does {fs₀ s₀ flashOk s t₀} (h₀ : Does fs₀ s₀ s) (e₀ : execApplyComplete flashOk s = .next t₀)
    (hf₀ : Fld.within [.regs, .funcs, .mgmt, .out] fs₀ = true) : Does fs₀ s₀ t₀ := by
  refine h₀.trans ?_ hf₀
  clear h₀ hf₀
  unfold execApplyComplete at e₀
  (try dsimp only at e₀)
  first
  | cases e₀
  | ((repeat' split at e₀) <;> cases e₀)
  all_goals repeat'
    first
    | with_reducible exact Does.refl _ _
    | decide
    | with_reducible apply inPldm_does
    | with_reducible apply setPldm_does
    | with_reducible apply pldmReply_does
    | with_reducible apply raise_does
    | with_reducible assumption
    | (intro a b h)
    | split

theorem execActivateFirmware_does {fs₀ s₀ s t₀} (h₀ : Does fs₀ s₀ s) (e₀ : execActivateFirmware s = .next t₀)
    (hf₀ : Fld.within [.regs, .funcs, .mgmt, .out] fs₀ = true) : Does fs₀ s₀ t₀ := by
  refine h₀.trans ?_ hf₀
  clear h₀ hf₀
  unfold execActivateFirmware at e₀
  (try dsimp only at e₀)
  first
  | cases e₀
  | ((repeat' split at e₀) <;> cases e₀)
  all_goals repeat'
    first
    | with_reducible exact Does.refl _ _
    | decide
    | with_reducible apply inPldm_does
    | with_reducible apply setPldm_does
    | with_reducible apply pldmReply_does
    | with_reducible apply raise_does
    | with_reducible apply wrf_does
    | with_reducible assumption
    | (intro a b h)
    | split
    | ((with_reducible refine Does.upd ?_ ?_ ?_); (on_goal 2 => exact rfl); (on_goal 2 => (intro f hf; cases f <;> first | exact absurd (by decide) hf | dsimp only [sameFld])))

theorem execGetStatus_does {fs₀ s₀ s t₀} (h₀ : Does fs₀ s₀ s) (e₀ : execGetStatus s = .next t₀)
    (hf₀ : Fld.within [.out] fs₀ = true) : Does fs₀ s₀ t₀ := by
  refine h₀.trans ?_ hf₀
  clear h₀ hf₀
  unfold execGetStatus at e₀
  (try dsimp only at e₀)
  first
  | cases e₀
  | ((repeat' split at e₀) <;> cases e₀)
  all_goals repeat'
    first
    | with_reducible exact Does.refl _ _
    | decide
    | with_reducible apply pldmReply_does
    | split

theorem execCancelUpdateComponent_does {fs₀ s₀ s t₀} (h₀ : Does fs₀ s₀ s) (e₀ : execCancelUpdateComponent s = .next t₀)
    (hf₀ : Fld.within [.regs, .mgmt, .out] fs₀ = true) : Does fs₀ s₀ t₀ := by
  refine h₀.trans ?_ hf₀
  clear h₀ hf₀
  unfold execCancelUpdateComponent at e₀
  (try dsimp only at e₀)
  first
  | cases e₀
  | ((repeat' split at e₀) <;> cases e₀)
  all_goals repeat'
    first
    | with_reducible exact Does.refl _ _
    | decide
    | with_reducible apply inPldm_does
    | with_reducible apply setPldm_does
    | with_reducible apply pldmReply_does
    | with_reducible assumption
    | (intro a b h)
    | split

theorem execCancelUpdate_does {fs₀ s₀ s t₀} (h₀ : Does fs₀ s₀ s) (e₀ : execCancelUpdate s = .next t₀)
    (hf₀ : Fld.within [.regs, .mgmt, .out] fs₀ = true) : Does fs₀ s₀ t₀ := by
  refine h₀.trans ?_ hf₀
  clear h₀ hf₀
  unfold execCancelUpdate at e₀
  (try dsimp only at e₀)
  first
  | cases e₀
  | ((repeat' split at e₀) <;> cases e₀)
  all_goals repeat'
    first
    | with_reducible exact Does.refl _ _
    | decide
    | with_reducible apply inPldm_does
    | with_reducible apply setPldm_does
    | with_reducible apply pldmReply_does
    | with_reducible assumption
    | (intro a b h)
    | split

theorem execGetVersion_does {fs₀ s₀ s t₀} (h₀ : Does fs₀ s₀ s) (e₀ : execGetVersion s = .next t₀)
    (hf₀ : Fld.within [.mgmt, .out] fs₀ = true) : Does fs₀ s₀ t₀ := by
  refine h₀.trans ?_ hf₀
  clear h₀ hf₀
  unfold execGetVersion at e₀
  (try dsimp only at e₀)
  first
  | cases e₀
  | ((repeat' split at e₀) <;> cases e₀)
  all_goals repeat'
    first
    | with_reducible exact Does.refl _ _
    | decide
    | with_reducible apply spdmReply_does
    | split
    | ((with_reducible refine Does.upd ?_ ?_ ?_); (on_goal 2 => exact rfl); (on_goal 2 => (intro f hf; cases f <;> first | exact absurd (by decide) hf | dsimp only [sameFld])))

theorem execGetCapabilities_does {fs₀ s₀ s t₀} (h₀ : Does fs₀ s₀ s) (e₀ : execGetCapabilities s = .next t₀)
    (hf₀ : Fld.within [.mgmt, .out] fs₀ = true) : Does fs₀ s₀ t₀ := by
  refine h₀.trans ?_ hf₀
  clear h₀ hf₀
  unfold execGetCapabilities at e₀
  (try dsimp only at e₀)
  first
  | cases e₀
  | ((repeat' split at e₀) <;> cases e₀)
  all_goals repeat'
    first
    | with_reducible exact Does.refl _ _
    | decide
    | with_reducible apply spdmError_does
    | with_reducible apply spdmReply_does
    | split
    | ((with_reducible refine Does.upd ?_ ?_ ?_); (on_goal 2 => exact rfl); (on_goal 2 => (intro f hf; cases f <;> first | exact absurd (by decide) hf | dsimp only [sameFld])))

theorem execNegotiateAlgorithms_does {fs₀ s₀ s t₀} (h₀ : Does fs₀ s₀ s) (e₀ : execNegotiateAlgorithms s = .next t₀)
    (hf₀ : Fld.within [.mgmt, .out] fs₀ = true) : Does fs₀ s₀ t₀ := by
  refine h₀.trans ?_ hf₀
  clear h₀ hf₀
  unfold execNegotiateAlgorithms at e₀
  (try dsimp only at e₀)
  first
  | cases e₀
  | ((repeat' split at e₀) <;> cases e₀)
  all_goals repeat'
    first
    | with_reducible exact Does.refl _ _
    | decide
    | with_reducible apply spdmError_does
    | with_reducible apply spdmReply_does
    | split
    | ((with_reducible refine Does.upd ?_ ?_ ?_); (on_goal 2 => exact rfl); (on_goal 2 => (intro f hf; cases f <;> first | exact absurd (by decide) hf | dsimp only [sameFld])))

theorem execGetDigests_does {fs₀ s₀ s t₀} (h₀ : Does fs₀ s₀ s) (e₀ : execGetDigests s = .next t₀)
    (hf₀ : Fld.within [.out] fs₀ = true) : Does fs₀ s₀ t₀ := by
  refine h₀.trans ?_ hf₀
  clear h₀ hf₀
  unfold execGetDigests at e₀
  (try dsimp only at e₀)
  first
  | cases e₀
  | ((repeat' split at e₀) <;> cases e₀)
  all_goals repeat'
    first
    | with_reducible exact Does.refl _ _
    | decide
    | with_reducible apply negotiated_does
    | with_reducible apply spdmReply_does
    | with_reducible assumption
    | (intro b h)
    | split

theorem execGetCertificate_does {fs₀ s₀ slot s t₀} (h₀ : Does fs₀ s₀ s) (e₀ : execGetCertificate slot s = .next t₀)
    (hf₀ : Fld.within [.out] fs₀ = true) : Does fs₀ s₀ t₀ := by
  refine h₀.trans ?_ hf₀
  clear h₀ hf₀
  unfold execGetCertificate at e₀
  (try dsimp only at e₀)
  first
  | cases e₀
  | ((repeat' split at e₀) <;> cases e₀)
  all_goals repeat'
    first
    | with_reducible exact Does.refl _ _
    | decide
    | with_reducible apply negotiated_does
    | with_reducible apply spdmError_does
    | with_reducible apply spdmReply_does
    | with_reducible assumption
    | (intro b h)
    | split

theorem execChallenge_does {fs₀ s₀ slot s t₀} (h₀ : Does fs₀ s₀ s) (e₀ : execChallenge slot s = .next t₀)
    (hf₀ : Fld.within [.free, .out] fs₀ = true) : Does fs₀ s₀ t₀ := by
  refine h₀.trans ?_ hf₀
  clear h₀ hf₀
  unfold execChallenge at e₀
  (try dsimp only at e₀)
  first
  | cases e₀
  | ((repeat' split at e₀) <;> cases e₀)
  all_goals repeat'
    first
    | with_reducible exact Does.refl _ _
    | decide
    | with_reducible apply negotiated_does
    | with_reducible apply signed_does
    | with_reducible apply spdmError_does
    | with_reducible assumption
    | (intro b h)
    | split

theorem execGetMeasurements_does {fs₀ s₀ index s t₀} (h₀ : Does fs₀ s₀ s) (e₀ : execGetMeasurements index s = .next t₀)
    (hf₀ : Fld.within [.free, .out] fs₀ = true) : Does fs₀ s₀ t₀ := by
  refine h₀.trans ?_ hf₀
  clear h₀ hf₀
  unfold execGetMeasurements at e₀
  (try dsimp only at e₀)
  first
  | cases e₀
  | ((repeat' split at e₀) <;> cases e₀)
  all_goals repeat'
    first
    | with_reducible exact Does.refl _ _
    | decide
    | with_reducible apply negotiated_does
    | with_reducible apply signed_does
    | with_reducible apply spdmError_does
    | with_reducible assumption
    | (intro b h)
    | split

theorem execSpdmUnsupportedRequest_does {fs₀ s₀ code s t₀} (h₀ : Does fs₀ s₀ s) (e₀ : execSpdmUnsupportedRequest code s = .next t₀)
    (hf₀ : Fld.within [.out] fs₀ = true) : Does fs₀ s₀ t₀ := by
  refine h₀.trans ?_ hf₀
  clear h₀ hf₀
  unfold execSpdmUnsupportedRequest at e₀
  (try dsimp only at e₀)
  first
  | cases e₀
  | ((repeat' split at e₀) <;> cases e₀)
  all_goals repeat'
    first
    | with_reducible exact Does.refl _ _
    | decide
    | with_reducible apply spdmReply_does
    | split

/-! ### Power -/

theorem vddMin_does {fs₀ s₀ mv s} (h₀ : Does fs₀ s₀ s) (hf₀ : Fld.within [.regs] fs₀ = true) :
    Does fs₀ s₀ (vddMin mv s) := by
  refine h₀.trans ?_ hf₀
  clear h₀ hf₀
  unfold vddMin
  try dsimp only
  all_goals repeat'
    first
    | with_reducible exact Does.refl _ _
    | decide
    | with_reducible apply wr_does
    | split

theorem shedItem_does {fs₀ s₀ i s} (h₀ : Does fs₀ s₀ s) (hf₀ : Fld.within [.regs, .pairs, .funcs, .flights, .mem, .tiles,
      .reels, .loaded, .items, .windows, .flow, .fault, .free, .out] fs₀ = true) :
    Does fs₀ s₀ (shedItem i s) := by
  refine h₀.trans ?_ hf₀
  clear h₀ hf₀
  unfold shedItem
  try dsimp only
  all_goals repeat'
    first
    | with_reducible exact Does.refl _ _
    | decide
    | with_reducible apply requeueItem_does
    | split

theorem shedItems_does {fs₀ s₀ x1 x2} (h₀ : Does fs₀ s₀ x2) (hf₀ : Fld.within [.regs, .pairs, .funcs, .flights, .mem, .tiles,
      .reels, .loaded, .items, .windows, .flow, .fault, .free, .out] fs₀ = true) :
    Does fs₀ s₀ (shedItems x1 x2) := by
  refine h₀.trans ?_ hf₀
  clear h₀ hf₀
  fun_induction shedItems x1 x2
  all_goals try dsimp +zetaDelta only
  all_goals repeat'
    first
    | with_reducible exact Does.refl _ _
    | decide
    | with_reducible refine Does.trans ?_ (by assumption) ?_
    | with_reducible apply shedItem_does
    | split

theorem stallTake_does {fs₀ s₀ v x2 x3} (h₀ : Does fs₀ s₀ x3) (hf₀ : Fld.within [.tiles] fs₀ = true) :
    Does fs₀ s₀ (stallTake v x2 x3) := by
  refine h₀.trans ?_ hf₀
  clear h₀ hf₀
  fun_induction stallTake v x2 x3
  all_goals try dsimp +zetaDelta only
  all_goals repeat'
    first
    | with_reducible exact Does.refl _ _
    | decide
    | with_reducible refine Does.trans ?_ (by assumption) ?_
    | with_reducible apply setTile_does
    | split

theorem sagJob_does {fs₀ s₀ j s} (h₀ : Does fs₀ s₀ s) (hf₀ : Fld.within [.regs, .pairs, .funcs, .jobs, .out] fs₀ = true) :
    Does fs₀ s₀ (sagJob j s) := by
  refine h₀.trans ?_ hf₀
  clear h₀ hf₀
  unfold sagJob
  try dsimp only
  all_goals repeat'
    first
    | with_reducible exact Does.refl _ _
    | decide
    | with_reducible apply setJob_does
    | with_reducible apply interim_does
    | split

theorem sagJobs_does {fs₀ s₀ x1 x2} (h₀ : Does fs₀ s₀ x2) (hf₀ : Fld.within [.regs, .pairs, .funcs, .jobs, .out] fs₀ = true) :
    Does fs₀ s₀ (sagJobs x1 x2) := by
  refine h₀.trans ?_ hf₀
  clear h₀ hf₀
  fun_induction sagJobs x1 x2
  all_goals try dsimp +zetaDelta only
  all_goals repeat'
    first
    | with_reducible exact Does.refl _ _
    | decide
    | with_reducible refine Does.trans ?_ (by assumption) ?_
    | with_reducible apply sagJob_does
    | split

theorem clearSagTold_does {fs₀ s₀ s} (h₀ : Does fs₀ s₀ s) (hf₀ : Fld.within [.items, .jobs] fs₀ = true) :
    Does fs₀ s₀ (clearSagTold s) := by
  refine h₀.trans ?_ hf₀
  clear h₀ hf₀
  unfold clearSagTold
  try dsimp only
  all_goals repeat'
    first
    | with_reducible exact Does.refl _ _
    | decide
    | split
    | ((with_reducible refine Does.upd ?_ ?_ ?_); (on_goal 2 => exact rfl); (on_goal 2 => (intro f hf; cases f <;> first | exact absurd (by decide) hf | dsimp only [sameFld])))

theorem sagAssert_does {fs₀ s₀ s} (h₀ : Does fs₀ s₀ s) (hf₀ : Fld.within [.regs, .pairs, .funcs, .flights, .mem, .tiles,
      .reels, .loaded, .items, .windows, .jobs, .flow, .fault, .hold, .free, .out] fs₀ = true) :
    Does fs₀ s₀ (sagAssert s) := by
  refine h₀.trans ?_ hf₀
  clear h₀ hf₀
  unfold sagAssert
  try dsimp only
  all_goals repeat'
    first
    | with_reducible exact Does.refl _ _
    | decide
    | with_reducible apply clearSagTold_does
    | with_reducible apply sagJobs_does
    | with_reducible apply stallTake_does
    | with_reducible apply shedItems_does
    | with_reducible apply ledgerCommit_does
    | with_reducible apply report_does
    | with_reducible apply raise_does
    | with_reducible apply bump_does
    | with_reducible apply wrf_does
    | split

theorem atFloor_does {fs₀ s₀ v s} (h₀ : Does fs₀ s₀ s) (hf₀ : Fld.within [.regs, .fault] fs₀ = true) :
    Does fs₀ s₀ (atFloor v s) := by
  refine h₀.trans ?_ hf₀
  clear h₀ hf₀
  unfold atFloor
  try dsimp only
  all_goals repeat'
    first
    | with_reducible exact Does.refl _ _
    | decide
    | with_reducible apply report_does
    | with_reducible apply wrf_does
    | split

theorem throttle_does {fs₀ s₀ tj watts s} (h₀ : Does fs₀ s₀ s) (hf₀ : Fld.within [.regs, .funcs, .fault, .out] fs₀ = true) :
    Does fs₀ s₀ (throttle tj watts s) := by
  refine h₀.trans ?_ hf₀
  clear h₀ hf₀
  unfold throttle
  try dsimp only
  all_goals repeat'
    first
    | with_reducible exact Does.refl _ _
    | decide
    | with_reducible apply atFloor_does
    | with_reducible apply raise_does
    | with_reducible apply bump_does
    | with_reducible apply wrf_does
    | with_reducible apply wr_does
    | split

theorem driveTrip_does {fs₀ s₀ v s} (h₀ : Does fs₀ s₀ s) (hf₀ : Fld.within [.board, .out] fs₀ = true) :
    Does fs₀ s₀ (driveTrip v s) := by
  refine h₀.trans ?_ hf₀
  clear h₀ hf₀
  unfold driveTrip
  try dsimp only
  all_goals repeat'
    first
    | with_reducible exact Does.refl _ _
    | decide
    | with_reducible apply emit_does
    | split
    | ((with_reducible refine Does.upd ?_ ?_ ?_); (on_goal 2 => exact rfl); (on_goal 2 => (intro f hf; cases f <;> first | exact absurd (by decide) hf | dsimp only [sameFld])))

theorem dropAvs_does {fs₀ s₀ s} (h₀ : Does fs₀ s₀ s) (hf₀ : Fld.within [.board] fs₀ = true) :
    Does fs₀ s₀ (dropAvs s) := by
  refine h₀.trans ?_ hf₀
  clear h₀ hf₀
  unfold dropAvs
  try dsimp only
  all_goals repeat'
    first
    | with_reducible exact Does.refl _ _
    | decide
    | split
    | ((with_reducible refine Does.upd ?_ ?_ ?_); (on_goal 2 => exact rfl); (on_goal 2 => (intro f hf; cases f <;> first | exact absurd (by decide) hf | dsimp only [sameFld])))

theorem execSagWarning_does {fs₀ s₀ mv s t₀} (h₀ : Does fs₀ s₀ s) (e₀ : execSagWarning mv s = .next t₀)
    (hf₀ : Fld.within [.regs, .pairs, .funcs, .flights, .mem, .tiles, .reels, .loaded, .items, .windows, .jobs, .flow,
      .fault, .hold, .board, .free, .out] fs₀ = true) : Does fs₀ s₀ t₀ := by
  refine h₀.trans ?_ hf₀
  clear h₀ hf₀
  unfold execSagWarning at e₀
  (try dsimp only at e₀)
  first
  | cases e₀
  | ((repeat' split at e₀) <;> cases e₀)
  all_goals repeat'
    first
    | with_reducible exact Does.refl _ _
    | decide
    | with_reducible apply sagAssert_does
    | with_reducible apply vddMin_does
    | with_reducible apply bump_does
    | with_reducible apply wrf_does
    | split
    | ((with_reducible refine Does.upd ?_ ?_ ?_); (on_goal 2 => exact rfl); (on_goal 2 => (intro f hf; cases f <;> first | exact absurd (by decide) hf | dsimp only [sameFld])))

theorem execStretchEnd_does {fs₀ s₀ s t₀} (h₀ : Does fs₀ s₀ s) (e₀ : execStretchEnd s = .next t₀)
    (hf₀ : Fld.within [.regs, .board] fs₀ = true) : Does fs₀ s₀ t₀ := by
  refine h₀.trans ?_ hf₀
  clear h₀ hf₀
  unfold execStretchEnd at e₀
  (try dsimp only at e₀)
  first
  | cases e₀
  | ((repeat' split at e₀) <;> cases e₀)
  all_goals repeat'
    first
    | with_reducible exact Does.refl _ _
    | decide
    | with_reducible apply wrf_does
    | split
    | ((with_reducible refine Does.upd ?_ ?_ ?_); (on_goal 2 => exact rfl); (on_goal 2 => (intro f hf; cases f <;> first | exact absurd (by decide) hf | dsimp only [sameFld])))

theorem execSagClear_does {fs₀ s₀ s t₀} (h₀ : Does fs₀ s₀ s) (e₀ : execSagClear s = .next t₀)
    (hf₀ : Fld.within [.regs, .clk, .time, .funcs, .tiles, .board, .out] fs₀ = true) : Does fs₀ s₀ t₀ := by
  refine h₀.trans ?_ hf₀
  clear h₀ hf₀
  unfold execSagClear at e₀
  (try dsimp only at e₀)
  first
  | cases e₀
  | ((repeat' split at e₀) <;> cases e₀)
  all_goals repeat'
    first
    | with_reducible exact Does.refl _ _
    | decide
    | with_reducible apply stallTake_does
    | with_reducible apply raise_does
    | with_reducible apply runToClk_does
    | with_reducible apply wrf_does
    | split
    | ((with_reducible refine Does.upd ?_ ?_ ?_); (on_goal 2 => exact rfl); (on_goal 2 => (intro f hf; cases f <;> first | exact absurd (by decide) hf | dsimp only [sameFld])))

theorem execSagReset_does {fs₀ s₀ s t₀} (h₀ : Does fs₀ s₀ s) (e₀ : execSagReset s = .next t₀)
    (hf₀ : Fld.within [.regs, .clk, .time, .pairs, .funcs, .flights, .mem, .tiles, .reels, .loaded, .nextLoad, .chains,
      .items, .nextItem, .windows, .jobs, .rounds, .lastReel, .radio, .flow, .cont, .matte, .splice, .fault, .hold, .mgmt,
      .board, .free, .out, .fetchTurn, .pending] fs₀ = true) : Does fs₀ s₀ t₀ := by
  refine h₀.trans ?_ hf₀
  clear h₀ hf₀
  unfold execSagReset at e₀
  (try dsimp only at e₀)
  first
  | cases e₀
  | ((repeat' split at e₀) <;> cases e₀)
  all_goals repeat'
    first
    | with_reducible exact Does.refl _ _
    | decide
    | with_reducible apply mainReset_does
    | split

theorem execThrottleStep_does {fs₀ s₀ tj watts s t₀} (h₀ : Does fs₀ s₀ s) (e₀ : execThrottleStep tj watts s = .next t₀)
    (hf₀ : Fld.within [.regs, .clk, .time, .funcs, .fault, .out] fs₀ = true) : Does fs₀ s₀ t₀ := by
  refine h₀.trans ?_ hf₀
  clear h₀ hf₀
  unfold execThrottleStep at e₀
  (try dsimp only at e₀)
  first
  | cases e₀
  | ((repeat' split at e₀) <;> cases e₀)
  all_goals repeat'
    first
    | with_reducible exact Does.refl _ _
    | decide
    | with_reducible apply throttle_does
    | with_reducible apply runToClk_does
    | split

theorem execThermalTrip_does {fs₀ s₀ tj s t₀} (h₀ : Does fs₀ s₀ s) (e₀ : execThermalTrip tj s = .next t₀)
    (hf₀ : Fld.within [.regs, .clk, .time, .pairs, .funcs, .flights, .mem, .tiles, .reels, .loaded, .nextLoad, .chains,
      .items, .nextItem, .windows, .jobs, .rounds, .lastReel, .radio, .flow, .cont, .matte, .splice, .fault, .hold, .mgmt,
      .board, .free, .out, .fetchTurn, .pending] fs₀ = true) : Does fs₀ s₀ t₀ := by
  refine h₀.trans ?_ hf₀
  clear h₀ hf₀
  unfold execThermalTrip at e₀
  (try dsimp only at e₀)
  first
  | cases e₀
  | ((repeat' split at e₀) <;> cases e₀)
  all_goals repeat'
    first
    | with_reducible exact Does.refl _ _
    | decide
    | with_reducible apply commitReset_does
    | with_reducible apply logFault_does
    | with_reducible apply raise_does
    | with_reducible apply emit_does
    | with_reducible apply bump_does
    | split
    | ((with_reducible refine Does.upd ?_ ?_ ?_); (on_goal 2 => exact rfl); (on_goal 2 => (intro f hf; cases f <;> first | exact absurd (by decide) hf | dsimp only [sameFld])))

theorem execThermTripRelease_does {fs₀ s₀ s t₀} (h₀ : Does fs₀ s₀ s) (e₀ : execThermTripRelease s = .next t₀)
    (hf₀ : Fld.within [.clk, .time, .board, .out] fs₀ = true) : Does fs₀ s₀ t₀ := by
  refine h₀.trans ?_ hf₀
  clear h₀ hf₀
  unfold execThermTripRelease at e₀
  (try dsimp only at e₀)
  first
  | cases e₀
  | ((repeat' split at e₀) <;> cases e₀)
  all_goals repeat'
    first
    | with_reducible exact Does.refl _ _
    | decide
    | with_reducible apply driveTrip_does
    | with_reducible apply runToClk_does
    | split

theorem execRailOutOfRange_does {fs₀ s₀ rail s t₀} (h₀ : Does fs₀ s₀ s) (e₀ : execRailOutOfRange rail s = .next t₀)
    (hf₀ : Fld.within [.regs, .funcs, .fault, .out] fs₀ = true) : Does fs₀ s₀ t₀ := by
  refine h₀.trans ?_ hf₀
  clear h₀ hf₀
  unfold execRailOutOfRange at e₀
  (try dsimp only at e₀)
  first
  | cases e₀
  | ((repeat' split at e₀) <;> cases e₀)
  all_goals repeat'
    first
    | with_reducible exact Does.refl _ _
    | decide
    | with_reducible apply report_does
    | with_reducible apply raise_does
    | split

theorem execVbatLow_does {fs₀ s₀ mv s t₀} (h₀ : Does fs₀ s₀ s) (e₀ : execVbatLow mv s = .next t₀)
    (hf₀ : Fld.within [.regs, .funcs, .hold, .out] fs₀ = true) : Does fs₀ s₀ t₀ := by
  refine h₀.trans ?_ hf₀
  clear h₀ hf₀
  unfold execVbatLow at e₀
  (try dsimp only at e₀)
  first
  | cases e₀
  | ((repeat' split at e₀) <;> cases e₀)
  all_goals repeat'
    first
    | with_reducible exact Does.refl _ _
    | decide
    | with_reducible apply raise_does
    | split
    | ((with_reducible refine Does.upd ?_ ?_ ?_); (on_goal 2 => exact rfl); (on_goal 2 => (intro f hf; cases f <;> first | exact absurd (by decide) hf | dsimp only [sameFld])))

theorem execMainFeedFail_does {fs₀ s₀ s t₀} (h₀ : Does fs₀ s₀ s) (e₀ : execMainFeedFail s = .next t₀)
    (hf₀ : Fld.within [.hold] fs₀ = true) : Does fs₀ s₀ t₀ := by
  refine h₀.trans ?_ hf₀
  clear h₀ hf₀
  unfold execMainFeedFail at e₀
  (try dsimp only at e₀)
  first
  | cases e₀
  | ((repeat' split at e₀) <;> cases e₀)
  all_goals repeat'
    first
    | with_reducible exact Does.refl _ _
    | decide
    | split
    | ((with_reducible refine Does.upd ?_ ?_ ?_); (on_goal 2 => exact rfl); (on_goal 2 => (intro f hf; cases f <;> first | exact absurd (by decide) hf | dsimp only [sameFld])))

theorem execMainFeedRestored_does {fs₀ s₀ s t₀} (h₀ : Does fs₀ s₀ s) (e₀ : execMainFeedRestored s = .next t₀)
    (hf₀ : Fld.within [.hold] fs₀ = true) : Does fs₀ s₀ t₀ := by
  refine h₀.trans ?_ hf₀
  clear h₀ hf₀
  unfold execMainFeedRestored at e₀
  (try dsimp only at e₀)
  first
  | cases e₀
  | ((repeat' split at e₀) <;> cases e₀)
  all_goals repeat'
    first
    | with_reducible exact Does.refl _ _
    | decide
    | split
    | ((with_reducible refine Does.upd ?_ ?_ ?_); (on_goal 2 => exact rfl); (on_goal 2 => (intro f hf; cases f <;> first | exact absurd (by decide) hf | dsimp only [sameFld])))

theorem execHoldoverSupplyDrop_does {fs₀ s₀ s t₀} (h₀ : Does fs₀ s₀ s) (e₀ : execHoldoverSupplyDrop s = .next t₀)
    (hf₀ : Fld.within [.hold] fs₀ = true) : Does fs₀ s₀ t₀ := by
  refine h₀.trans ?_ hf₀
  clear h₀ hf₀
  unfold execHoldoverSupplyDrop at e₀
  (try dsimp only at e₀)
  first
  | cases e₀
  | ((repeat' split at e₀) <;> cases e₀)
  all_goals repeat'
    first
    | with_reducible exact Does.refl _ _
    | decide
    | split
    | ((with_reducible refine Does.upd ?_ ?_ ?_); (on_goal 2 => exact rfl); (on_goal 2 => (intro f hf; cases f <;> first | exact absurd (by decide) hf | dsimp only [sameFld])))

theorem execPwrGoodFall_does {fs₀ s₀ s t₀} (h₀ : Does fs₀ s₀ s) (e₀ : execPwrGoodFall s = .next t₀)
    (hf₀ : Fld.within [.regs, .clk, .time, .pairs, .funcs, .flights, .mem, .tiles, .reels, .loaded, .nextLoad, .chains,
      .items, .nextItem, .windows, .jobs, .rounds, .lastReel, .radio, .flow, .cont, .matte, .splice, .fault, .hold, .mgmt,
      .board, .free, .out, .fetchTurn, .pending] fs₀ = true) : Does fs₀ s₀ t₀ := by
  refine h₀.trans ?_ hf₀
  clear h₀ hf₀
  unfold execPwrGoodFall at e₀
  (try dsimp only at e₀)
  first
  | cases e₀
  | ((repeat' split at e₀) <;> cases e₀)
  all_goals repeat'
    first
    | with_reducible exact Does.refl _ _
    | decide
    | with_reducible apply commitReset_does
    | split
    | ((with_reducible refine Does.upd ?_ ?_ ?_); (on_goal 2 => exact rfl); (on_goal 2 => (intro f hf; cases f <;> first | exact absurd (by decide) hf | dsimp only [sameFld])))

theorem execPerstFall_does {fs₀ s₀ s t₀} (h₀ : Does fs₀ s₀ s) (e₀ : execPerstFall s = .next t₀)
    (hf₀ : Fld.within [.regs, .clk, .time, .pairs, .funcs, .flights, .mem, .tiles, .reels, .loaded, .nextLoad, .chains,
      .items, .nextItem, .windows, .jobs, .rounds, .lastReel, .radio, .flow, .cont, .matte, .splice, .fault, .hold, .mgmt,
      .board, .free, .out, .fetchTurn, .pending] fs₀ = true) : Does fs₀ s₀ t₀ := by
  refine h₀.trans ?_ hf₀
  clear h₀ hf₀
  unfold execPerstFall at e₀
  (try dsimp only at e₀)
  first
  | cases e₀
  | ((repeat' split at e₀) <;> cases e₀)
  all_goals repeat'
    first
    | with_reducible exact Does.refl _ _
    | decide
    | with_reducible apply commitReset_does
    | split
    | ((with_reducible refine Does.upd ?_ ?_ ?_); (on_goal 2 => exact rfl); (on_goal 2 => (intro f hf; cases f <;> first | exact absurd (by decide) hf | dsimp only [sameFld])))

theorem execRefclkSysStop_does {fs₀ s₀ s t₀} (h₀ : Does fs₀ s₀ s) (e₀ : execRefclkSysStop s = .next t₀)
    (hf₀ : Fld.within [.regs, .clk, .time, .pairs, .funcs, .flights, .mem, .tiles, .reels, .loaded, .nextLoad, .chains,
      .items, .nextItem, .windows, .jobs, .rounds, .lastReel, .radio, .flow, .cont, .matte, .splice, .fault, .hold, .mgmt,
      .board, .free, .out, .fetchTurn, .pending] fs₀ = true) : Does fs₀ s₀ t₀ := by
  refine h₀.trans ?_ hf₀
  clear h₀ hf₀
  unfold execRefclkSysStop at e₀
  (try dsimp only at e₀)
  first
  | cases e₀
  | ((repeat' split at e₀) <;> cases e₀)
  all_goals repeat'
    first
    | with_reducible exact Does.refl _ _
    | decide
    | with_reducible apply commitReset_does
    | split
    | ((with_reducible refine Does.upd ?_ ?_ ?_); (on_goal 2 => exact rfl); (on_goal 2 => (intro f hf; cases f <;> first | exact absurd (by decide) hf | dsimp only [sameFld])))

theorem execResetRelease_does {fs₀ s₀ sigs s t₀} (h₀ : Does fs₀ s₀ s) (e₀ : execResetRelease sigs s = .next t₀)
    (hf₀ : Fld.within [.regs, .time, .funcs, .hold, .mgmt, .board, .free, .out] fs₀ = true) : Does fs₀ s₀ t₀ := by
  refine h₀.trans ?_ hf₀
  clear h₀ hf₀
  unfold execResetRelease at e₀
  (try dsimp only at e₀)
  first
  | cases e₀
  | ((repeat' split at e₀) <;> cases e₀)
  all_goals repeat'
    first
    | with_reducible exact Does.refl _ _
    | decide
    | with_reducible apply bootUp_does
    | split
    | ((with_reducible refine Does.upd ?_ ?_ ?_); (on_goal 2 => exact rfl); (on_goal 2 => (intro f hf; cases f <;> first | exact absurd (by decide) hf | dsimp only [sameFld])))

theorem execAvsComplete_does {fs₀ s₀ s t₀} (h₀ : Does fs₀ s₀ s) (e₀ : execAvsComplete s = .next t₀)
    (hf₀ : Fld.within [.board] fs₀ = true) : Does fs₀ s₀ t₀ := by
  refine h₀.trans ?_ hf₀
  clear h₀ hf₀
  unfold execAvsComplete at e₀
  (try dsimp only at e₀)
  first
  | cases e₀
  | ((repeat' split at e₀) <;> cases e₀)
  all_goals repeat'
    first
    | with_reducible exact Does.refl _ _
    | decide
    | split
    | ((with_reducible refine Does.upd ?_ ?_ ?_); (on_goal 2 => exact rfl); (on_goal 2 => (intro f hf; cases f <;> first | exact absurd (by decide) hf | dsimp only [sameFld])))

theorem execAvsTimeout_does {fs₀ s₀ s t₀} (h₀ : Does fs₀ s₀ s) (e₀ : execAvsTimeout s = .next t₀)
    (hf₀ : Fld.within [.regs, .clk, .time, .pairs, .funcs, .flights, .mem, .tiles, .reels, .loaded, .nextLoad, .chains,
      .items, .nextItem, .windows, .jobs, .rounds, .lastReel, .radio, .flow, .cont, .matte, .splice, .fault, .hold, .mgmt,
      .board, .free, .out, .fetchTurn, .pending] fs₀ = true) : Does fs₀ s₀ t₀ := by
  refine h₀.trans ?_ hf₀
  clear h₀ hf₀
  unfold execAvsTimeout at e₀
  (try dsimp only at e₀)
  first
  | cases e₀
  | ((repeat' split at e₀) <;> cases e₀)
  all_goals repeat'
    first
    | with_reducible exact Does.refl _ _
    | decide
    | with_reducible apply commitReset_does
    | split

theorem execAvsThresholdTimeout_does {fs₀ s₀ s t₀} (h₀ : Does fs₀ s₀ s) (e₀ : execAvsThresholdTimeout s = .next t₀)
    (hf₀ : Fld.within [.clk, .time, .board] fs₀ = true) : Does fs₀ s₀ t₀ := by
  refine h₀.trans ?_ hf₀
  clear h₀ hf₀
  unfold execAvsThresholdTimeout at e₀
  (try dsimp only at e₀)
  first
  | cases e₀
  | ((repeat' split at e₀) <;> cases e₀)
  all_goals repeat'
    first
    | with_reducible exact Does.refl _ _
    | decide
    | with_reducible apply dropAvs_does
    | with_reducible apply runToClk_does
    | split

theorem execDmcHeartbeat_does {fs₀ s₀ s t₀} (h₀ : Does fs₀ s₀ s) (e₀ : execDmcHeartbeat s = .next t₀)
    (hf₀ : Fld.within [.mgmt] fs₀ = true) : Does fs₀ s₀ t₀ := by
  refine h₀.trans ?_ hf₀
  clear h₀ hf₀
  unfold execDmcHeartbeat at e₀
  (try dsimp only at e₀)
  first
  | cases e₀
  | ((repeat' split at e₀) <;> cases e₀)
  all_goals repeat'
    first
    | with_reducible exact Does.refl _ _
    | decide
    | split
    | ((with_reducible refine Does.upd ?_ ?_ ?_); (on_goal 2 => exact rfl); (on_goal 2 => (intro f hf; cases f <;> first | exact absurd (by decide) hf | dsimp only [sameFld])))

theorem execDmcHeartbeatTimeout_does {fs₀ s₀ s t₀} (h₀ : Does fs₀ s₀ s) (e₀ : execDmcHeartbeatTimeout s = .next t₀)
    (hf₀ : Fld.within [.regs, .clk, .time, .pairs, .funcs, .flights, .mem, .tiles, .reels, .loaded, .nextLoad, .chains,
      .items, .nextItem, .windows, .jobs, .rounds, .lastReel, .radio, .flow, .cont, .matte, .splice, .fault, .hold, .mgmt,
      .board, .free, .out, .fetchTurn, .pending] fs₀ = true) : Does fs₀ s₀ t₀ := by
  refine h₀.trans ?_ hf₀
  clear h₀ hf₀
  unfold execDmcHeartbeatTimeout at e₀
  (try dsimp only at e₀)
  first
  | cases e₀
  | ((repeat' split at e₀) <;> cases e₀)
  all_goals repeat'
    first
    | with_reducible exact Does.refl _ _
    | decide
    | with_reducible apply commitReset_does
    | with_reducible apply runToClk_does
    | split

end Sys2Proof.Machine
end

