-- ==== Sys2Proof/Laws/DoesRadio.lean ====
section
/-! SUPPORT. What each operation can do: the radio, takes, the splice and the vector unit.
Each lemma lists the parts of the state its operation may change; the parts not listed stay, and the tables keep their
canonical form (`Does`). The lemma of a command says it of every next state the command answers. -/

set_option linter.all false

namespace Sys2Proof.Machine

/-! ### Radio -/

theorem expireTx_does {fs₀ s₀ g sfn slot x4 x5} (h₀ : Does fs₀ s₀ x5) (hf₀ : Fld.within [.regs, .pairs, .funcs, .flights,
      .radio, .fault, .out] fs₀ = true) :
    Does fs₀ s₀ (expireTx g sfn slot x4 x5) := by
  refine h₀.trans ?_ hf₀
  clear h₀ hf₀
  fun_induction expireTx g sfn slot x4 x5
  all_goals try dsimp +zetaDelta only
  all_goals repeat'
    first
    | with_reducible exact Does.refl _ _
    | decide
    | with_reducible refine Does.trans ?_ (by assumption) ?_
    | with_reducible apply refuse_does
    | split
    | ((with_reducible refine Does.upd ?_ ?_ ?_); (on_goal 2 => exact rfl); (on_goal 2 => (intro f hf; cases f <;> first | exact absurd (by decide) hf | dsimp only [sameFld])))

theorem slotEvent_does {fs₀ s₀ g sfn slot t0 s} (h₀ : Does fs₀ s₀ s) (hf₀ : Fld.within [.regs, .pairs, .funcs,
      .out] fs₀ = true) :
    Does fs₀ s₀ (slotEvent g sfn slot t0 s) := by
  refine h₀.trans ?_ hf₀
  clear h₀ hf₀
  unfold slotEvent
  try dsimp only
  all_goals repeat'
    first
    | with_reducible exact Does.refl _ _
    | decide
    | with_reducible apply eventRec_does
    | split

theorem setBegun_does {fs₀ s₀ g t0 s} (h₀ : Does fs₀ s₀ s) (hf₀ : Fld.within [.radio] fs₀ = true) :
    Does fs₀ s₀ (setBegun g t0 s) := by
  refine h₀.trans ?_ hf₀
  clear h₀ hf₀
  unfold setBegun
  try dsimp only
  all_goals repeat'
    first
    | with_reducible exact Does.refl _ _
    | decide
    | split
    | ((with_reducible refine Does.upd ?_ ?_ ?_); (on_goal 2 => exact rfl); (on_goal 2 => (intro f hf; cases f <;> first | exact absurd (by decide) hf | dsimp only [sameFld])))

theorem clearLanding_does {fs₀ s₀ g t0 s} (h₀ : Does fs₀ s₀ s) (hf₀ : Fld.within [.mem] fs₀ = true) :
    Does fs₀ s₀ (clearLanding g t0 s) := by
  refine h₀.trans ?_ hf₀
  clear h₀ hf₀
  unfold clearLanding
  try dsimp only
  all_goals repeat'
    first
    | with_reducible exact Does.refl _ _
    | decide
    | with_reducible apply clearBitmaps_does
    | split

theorem expireWaits_does {fs₀ s₀ g sfn slot s} (h₀ : Does fs₀ s₀ s) (hf₀ : Fld.within [.regs, .pairs, .funcs, .flights,
      .radio, .fault, .out] fs₀ = true) :
    Does fs₀ s₀ (expireWaits g sfn slot s) := by
  refine h₀.trans ?_ hf₀
  clear h₀ hf₀
  unfold expireWaits
  try dsimp only
  all_goals repeat'
    first
    | with_reducible exact Does.refl _ _
    | decide
    | with_reducible apply expireTx_does
    | split
    | ((with_reducible refine Does.upd ?_ ?_ ?_); (on_goal 2 => exact rfl); (on_goal 2 => (intro f hf; cases f <;> first | exact absurd (by decide) hf | dsimp only [sameFld])))

theorem beginSlot_does {fs₀ s₀ g x s} (h₀ : Does fs₀ s₀ s) (hf₀ : Fld.within [.regs, .pairs, .funcs, .flights, .mem, .radio,
      .fault, .out] fs₀ = true) :
    Does fs₀ s₀ (beginSlot g x s) := by
  refine h₀.trans ?_ hf₀
  clear h₀ hf₀
  unfold beginSlot
  try dsimp only
  all_goals repeat'
    first
    | with_reducible exact Does.refl _ _
    | decide
    | with_reducible apply expireWaits_does
    | with_reducible apply clearLanding_does
    | with_reducible apply setBegun_does
    | with_reducible apply slotEvent_does
    | split

theorem uplaneSends_does {fs₀ s₀ w a sfn slot symbol late rs s} (h₀ : Does fs₀ s₀ s) (hf₀ : Fld.within [.regs, .radio,
      .out] fs₀ = true) :
    Does fs₀ s₀ (uplaneSends w a sfn slot symbol late rs s) := by
  refine h₀.trans ?_ hf₀
  clear h₀ hf₀
  induction rs generalizing s with
  | nil => exact Does.refl _ _
  | cons x xs ih =>
    rw [uplaneSends]
    refine Does.trans ?_ ih (by decide)
    split
    · exact bump_does (Does.refl _ _) (by decide)
    · exact bump_does (fhSendSeq_does (Does.refl _ _) (by decide)) (by decide)

theorem uplaneEntries_does {fs₀ s₀ g pos sfn slot symbol late x7 x8} (h₀ : Does fs₀ s₀ x8) (hf₀ : Fld.within [.regs, .radio,
      .out] fs₀ = true) :
    Does fs₀ s₀ (uplaneEntries g pos sfn slot symbol late x7 x8) := by
  refine h₀.trans ?_ hf₀
  clear h₀ hf₀
  fun_induction uplaneEntries g pos sfn slot symbol late x7 x8
  all_goals try dsimp +zetaDelta only
  all_goals repeat'
    first
    | with_reducible exact Does.refl _ _
    | decide
    | with_reducible refine Does.trans ?_ (by assumption) ?_
    | with_reducible apply uplaneSends_does
    | split

theorem clearSymbol_does {fs₀ s₀ base streams pos symbol x5 x6} (h₀ : Does fs₀ s₀ x6) (hf₀ : Fld.within [.mem] fs₀ = true) :
    Does fs₀ s₀ (clearSymbol base streams pos symbol x5 x6) := by
  refine h₀.trans ?_ hf₀
  clear h₀ hf₀
  fun_induction clearSymbol base streams pos symbol x5 x6
  all_goals try dsimp +zetaDelta only
  all_goals repeat'
    first
    | with_reducible exact Does.refl _ _
    | decide
    | with_reducible refine Does.trans ?_ (by assumption) ?_
    | with_reducible apply memPut_does
    | split

theorem setCapture_does {fs₀ s₀ c s} (h₀ : Does fs₀ s₀ s) (hf₀ : Fld.within [.radio] fs₀ = true) :
    Does fs₀ s₀ (setCapture c s) := by
  refine h₀.trans ?_ hf₀
  clear h₀ hf₀
  unfold setCapture
  try dsimp only
  all_goals repeat'
    first
    | with_reducible exact Does.refl _ _
    | decide
    | split
    | ((with_reducible refine Does.upd ?_ ?_ ?_); (on_goal 2 => exact rfl); (on_goal 2 => (intro f hf; cases f <;> first | exact absurd (by decide) hf | dsimp only [sameFld])))

theorem endCapture_does {fs₀ s₀ c s} (h₀ : Does fs₀ s₀ s) (hf₀ : Fld.within [.regs, .pairs, .funcs, .flights, .radio, .fault,
      .out] fs₀ = true) :
    Does fs₀ s₀ (endCapture c s) := by
  refine h₀.trans ?_ hf₀
  clear h₀ hf₀
  unfold endCapture
  try dsimp only
  all_goals repeat'
    first
    | with_reducible exact Does.refl _ _
    | decide
    | with_reducible apply finish_does
    | split
    | ((with_reducible refine Does.upd ?_ ?_ ?_); (on_goal 2 => exact rfl); (on_goal 2 => (intro f hf; cases f <;> first | exact absurd (by decide) hf | dsimp only [sameFld])))

theorem checkCapture_does {fs₀ s₀ c s} (h₀ : Does fs₀ s₀ s) (hf₀ : Fld.within [.regs, .pairs, .funcs, .flights, .radio,
      .fault, .out] fs₀ = true) :
    Does fs₀ s₀ (checkCapture c s) := by
  refine h₀.trans ?_ hf₀
  clear h₀ hf₀
  unfold checkCapture
  try dsimp only
  all_goals repeat'
    first
    | with_reducible exact Does.refl _ _
    | decide
    | with_reducible apply endCapture_does
    | with_reducible apply setCapture_does
    | split

theorem rushesGo_does {fs₀ s₀ r d s} (h₀ : Does fs₀ s₀ s) (hf₀ : Fld.within [.regs, .pairs, .funcs, .flights, .radio, .fault,
      .out] fs₀ = true) :
    Does fs₀ s₀ (rushesGo r d s) := by
  refine h₀.trans ?_ hf₀
  clear h₀ hf₀
  unfold rushesGo
  try dsimp only
  all_goals repeat'
    first
    | with_reducible exact Does.refl _ _
    | decide
    | with_reducible apply checkCapture_does
    | with_reducible apply endCapture_does
    | with_reducible apply refuse_does
    | with_reducible apply finish_does
    | with_reducible apply markStarted_does
    | split
    | ((with_reducible refine Does.upd ?_ ?_ ?_); (on_goal 2 => exact rfl); (on_goal 2 => (intro f hf; cases f <;> first | exact absurd (by decide) hf | dsimp only [sameFld])))

theorem capWrite_does {fs₀ s₀ c bs s} (h₀ : Does fs₀ s₀ s) (hf₀ : Fld.within [.regs, .pairs, .funcs, .mem, .out] fs₀ = true) :
    Does fs₀ s₀ (capWrite c bs s) := by
  refine h₀.trans ?_ hf₀
  clear h₀ hf₀
  unfold capWrite
  try dsimp only
  all_goals repeat'
    first
    | with_reducible exact Does.refl _ _
    | decide
    | with_reducible apply devWrite_does
    | with_reducible apply putBatch_does
    | split

theorem delayAnswer_does {fs₀ s₀ p id s} (h₀ : Does fs₀ s₀ s) (hf₀ : Fld.within [.regs, .free, .out] fs₀ = true) :
    Does fs₀ s₀ (delayAnswer p id s) := by
  refine h₀.trans ?_ hf₀
  clear h₀ hf₀
  unfold delayAnswer
  try dsimp only
  all_goals repeat'
    first
    | with_reducible exact Does.refl _ _
    | decide
    | with_reducible apply fhSend_does
    | with_reducible apply useFree_does
    | split

theorem delayAsk_does {fs₀ s₀ p id s} (h₀ : Does fs₀ s₀ s) (hf₀ : Fld.within [.regs, .free, .out] fs₀ = true) :
    Does fs₀ s₀ (delayAsk p id s) := by
  refine h₀.trans ?_ hf₀
  clear h₀ hf₀
  unfold delayAsk
  try dsimp only
  all_goals repeat'
    first
    | with_reducible exact Does.refl _ _
    | decide
    | with_reducible apply fhSend_does
    | with_reducible apply useFree_does
    | split

theorem fhDiscard_does {fs₀ s₀ p s} (h₀ : Does fs₀ s₀ s) (hf₀ : Fld.within [.regs] fs₀ = true) :
    Does fs₀ s₀ (fhDiscard p s) := by
  refine h₀.trans ?_ hf₀
  clear h₀ hf₀
  unfold fhDiscard
  try dsimp only
  all_goals repeat'
    first
    | with_reducible exact Does.refl _ _
    | decide
    | with_reducible apply bump_does
    | split

theorem seqCheck_does {fs₀ s₀ p eaxc seq s} (h₀ : Does fs₀ s₀ s) (hf₀ : Fld.within [.regs, .funcs, .radio, .out] fs₀ = true) :
    Does fs₀ s₀ (seqCheck p eaxc seq s) := by
  refine h₀.trans ?_ hf₀
  clear h₀ hf₀
  unfold seqCheck
  try dsimp only
  all_goals repeat'
    first
    | with_reducible exact Does.refl _ _
    | decide
    | with_reducible apply raise_does
    | with_reducible apply bump_does
    | split
    | ((with_reducible refine Does.upd ?_ ?_ ?_); (on_goal 2 => exact rfl); (on_goal 2 => (intro f hf; cases f <;> first | exact absurd (by decide) hf | dsimp only [sameFld])))

theorem landPrbs_does {fs₀ s₀ p w a x4 x5 x6} (h₀ : Does fs₀ s₀ x6) (hf₀ : Fld.within [.regs, .mem] fs₀ = true) :
    Does fs₀ s₀ (landPrbs p w a x4 x5 x6) := by
  refine h₀.trans ?_ hf₀
  clear h₀ hf₀
  fun_induction landPrbs p w a x4 x5 x6
  all_goals try dsimp +zetaDelta only
  all_goals repeat'
    first
    | with_reducible exact Does.refl _ _
    | decide
    | with_reducible refine Does.trans ?_ (by assumption) ?_
    | with_reducible apply putPrb_does
    | with_reducible apply bump_does
    | split

theorem landSection_does {fs₀ s₀ w frame slot l x s} (h₀ : Does fs₀ s₀ s) (hf₀ : Fld.within [.regs, .funcs, .mem,
      .out] fs₀ = true) :
    Does fs₀ s₀ (landSection w frame slot l x s) := by
  refine h₀.trans ?_ hf₀
  clear h₀ hf₀
  unfold landSection
  try dsimp only
  all_goals repeat'
    first
    | with_reducible exact Does.refl _ _
    | decide
    | with_reducible apply landPrbs_does
    | with_reducible apply fhDiscard_does
    | with_reducible apply raise_does
    | with_reducible apply bump_does
    | split

theorem landSections_does {fs₀ s₀ w frame slot l x5 x6} (h₀ : Does fs₀ s₀ x6) (hf₀ : Fld.within [.regs, .funcs, .mem,
      .out] fs₀ = true) :
    Does fs₀ s₀ (landSections w frame slot l x5 x6) := by
  refine h₀.trans ?_ hf₀
  clear h₀ hf₀
  fun_induction landSections w frame slot l x5 x6
  all_goals try dsimp +zetaDelta only
  all_goals repeat'
    first
    | with_reducible exact Does.refl _ _
    | decide
    | with_reducible refine Does.trans ?_ (by assumption) ?_
    | with_reducible apply landSection_does
    | split

theorem uplaneReceive_does {fs₀ s₀ p eaxc seq version filter frame sub slot symbol xs s} (h₀ : Does fs₀ s₀ s)
      (hf₀ : Fld.within [.regs, .funcs, .mem, .radio, .out] fs₀ = true) :
    Does fs₀ s₀ (uplaneReceive p eaxc seq version filter frame sub slot symbol xs s) := by
  refine h₀.trans ?_ hf₀
  clear h₀ hf₀
  unfold uplaneReceive
  try dsimp only
  all_goals repeat'
    first
    | with_reducible exact Does.refl _ _
    | decide
    | with_reducible apply landSections_does
    | with_reducible apply seqCheck_does
    | with_reducible apply fhDiscard_does
    | with_reducible apply bump_does
    | split

theorem ecpriReceive_does {fs₀ s₀ p m s} (h₀ : Does fs₀ s₀ s) (hf₀ : Fld.within [.regs, .funcs, .mem, .radio, .free,
      .out] fs₀ = true) :
    Does fs₀ s₀ (ecpriReceive p m s) := by
  refine h₀.trans ?_ hf₀
  clear h₀ hf₀
  unfold ecpriReceive
  try dsimp only
  all_goals repeat'
    first
    | with_reducible exact Does.refl _ _
    | decide
    | with_reducible apply uplaneReceive_does
    | with_reducible apply fhDiscard_does
    | with_reducible apply delayAsk_does
    | with_reducible apply delayAnswer_does
    | split

theorem fhGood_does {fs₀ s₀ p f s} (h₀ : Does fs₀ s₀ s) (hf₀ : Fld.within [.regs, .time, .pairs, .funcs, .flights, .mem,
      .tiles, .reels, .chains, .windows, .radio, .fault, .free, .out] fs₀ = true) :
    Does fs₀ s₀ (fhGood p f s) := by
  refine h₀.trans ?_ hf₀
  clear h₀ hf₀
  unfold fhGood
  try dsimp only
  all_goals repeat'
    first
    | with_reducible exact Does.refl _ _
    | decide
    | with_reducible apply ecpriReceive_does
    | with_reducible apply fhDiscard_does
    | with_reducible apply ptpAtPort_does
    | split

theorem execSlotStart_does {fs₀ s₀ g s t₀} (h₀ : Does fs₀ s₀ s) (e₀ : execSlotStart g s = .next t₀)
    (hf₀ : Fld.within [.regs, .clk, .time, .pairs, .funcs, .flights, .mem, .radio, .fault,
      .out] fs₀ = true) : Does fs₀ s₀ t₀ := by
  refine h₀.trans ?_ hf₀
  clear h₀ hf₀
  unfold execSlotStart at e₀
  (try dsimp only at e₀)
  first
  | cases e₀
  | ((repeat' split at e₀) <;> cases e₀)
  all_goals repeat'
    first
    | with_reducible exact Does.refl _ _
    | decide
    | with_reducible apply beginSlot_does
    | with_reducible apply runToTime_does
    | split

theorem execDlUplaneSend_does {fs₀ s₀ g sfn slot symbol s t₀} (h₀ : Does fs₀ s₀ s) (e₀ : execDlUplaneSend g sfn slot symbol s = .next t₀)
    (hf₀ : Fld.within [.regs, .clk, .time, .radio, .out] fs₀ = true) : Does fs₀ s₀ t₀ := by
  refine h₀.trans ?_ hf₀
  clear h₀ hf₀
  unfold execDlUplaneSend at e₀
  (try dsimp only at e₀)
  first
  | cases e₀
  | ((repeat' split at e₀) <;> cases e₀)
  all_goals repeat'
    first
    | with_reducible exact Does.refl _ _
    | decide
    | with_reducible apply uplaneEntries_does
    | with_reducible apply runToTime_does
    | split

theorem execDlWindowClose_does {fs₀ s₀ g sfn slot symbol s t₀} (h₀ : Does fs₀ s₀ s) (e₀ : execDlWindowClose g sfn slot symbol s = .next t₀)
    (hf₀ : Fld.within [.clk, .time, .mem] fs₀ = true) : Does fs₀ s₀ t₀ := by
  refine h₀.trans ?_ hf₀
  clear h₀ hf₀
  unfold execDlWindowClose at e₀
  (try dsimp only at e₀)
  first
  | cases e₀
  | ((repeat' split at e₀) <;> cases e₀)
  all_goals repeat'
    first
    | with_reducible exact Does.refl _ _
    | decide
    | with_reducible apply clearSymbol_does
    | with_reducible apply runToTime_does
    | split

theorem execRushesCtrl_does {fs₀ s₀ r s t₀} (h₀ : Does fs₀ s₀ s) (e₀ : execRushesCtrl r s = .next t₀)
    (hf₀ : Fld.within [.regs, .pairs, .funcs, .flights, .radio, .fault, .out] fs₀ = true) : Does fs₀ s₀ t₀ := by
  refine h₀.trans ?_ hf₀
  clear h₀ hf₀
  unfold execRushesCtrl at e₀
  (try dsimp only at e₀)
  first
  | cases e₀
  | ((repeat' split at e₀) <;> cases e₀)
  all_goals repeat'
    first
    | with_reducible exact Does.refl _ _
    | decide
    | with_reducible apply rushesGo_does
    | with_reducible apply runDesc_does
    | with_reducible assumption
    | (intro a b h)
    | split

theorem execRushesCopy_does {fs₀ s₀ g sfn slot inTime s t₀} (h₀ : Does fs₀ s₀ s) (e₀ : execRushesCopy g sfn slot inTime s = .next t₀)
    (hf₀ : Fld.within [.regs, .pairs, .funcs, .flights, .mem, .radio, .fault, .out] fs₀ = true) : Does fs₀ s₀ t₀ := by
  refine h₀.trans ?_ hf₀
  clear h₀ hf₀
  unfold execRushesCopy at e₀
  (try dsimp only at e₀)
  first
  | cases e₀
  | ((repeat' split at e₀) <;> cases e₀)
  all_goals repeat'
    first
    | with_reducible exact Does.refl _ _
    | decide
    | with_reducible apply capWrite_does
    | with_reducible apply checkCapture_does
    | with_reducible apply bump_does
    | split
    | ((with_reducible refine Does.upd ?_ ?_ ?_); (on_goal 2 => exact rfl); (on_goal 2 => (intro f hf; cases f <;> first | exact absurd (by decide) hf | dsimp only [sameFld])))

theorem execEcpriDelayRequest_does {fs₀ s₀ port measId s t₀} (h₀ : Does fs₀ s₀ s) (e₀ : execEcpriDelayRequest port measId s = .next t₀)
    (hf₀ : Fld.within [.regs, .free, .out] fs₀ = true) : Does fs₀ s₀ t₀ := by
  refine h₀.trans ?_ hf₀
  clear h₀ hf₀
  unfold execEcpriDelayRequest at e₀
  (try dsimp only at e₀)
  first
  | cases e₀
  | ((repeat' split at e₀) <;> cases e₀)
  all_goals repeat'
    first
    | with_reducible exact Does.refl _ _
    | decide
    | with_reducible apply delayAnswer_does
    | with_reducible apply bump_does
    | split

theorem execEcpriRemoteRequest_does {fs₀ s₀ port measId s t₀} (h₀ : Does fs₀ s₀ s) (e₀ : execEcpriRemoteRequest port measId s = .next t₀)
    (hf₀ : Fld.within [.regs, .free, .out] fs₀ = true) : Does fs₀ s₀ t₀ := by
  refine h₀.trans ?_ hf₀
  clear h₀ hf₀
  unfold execEcpriRemoteRequest at e₀
  (try dsimp only at e₀)
  first
  | cases e₀
  | ((repeat' split at e₀) <;> cases e₀)
  all_goals repeat'
    first
    | with_reducible exact Does.refl _ _
    | decide
    | with_reducible apply delayAsk_does
    | with_reducible apply bump_does
    | split

theorem execFhLinkChange_does {fs₀ s₀ port up s t₀} (h₀ : Does fs₀ s₀ s) (e₀ : execFhLinkChange port up s = .next t₀)
    (hf₀ : Fld.within [.regs, .funcs, .out] fs₀ = true) : Does fs₀ s₀ t₀ := by
  refine h₀.trans ?_ hf₀
  clear h₀ hf₀
  unfold execFhLinkChange at e₀
  (try dsimp only at e₀)
  first
  | cases e₀
  | ((repeat' split at e₀) <;> cases e₀)
  all_goals repeat'
    first
    | with_reducible exact Does.refl _ _
    | decide
    | with_reducible apply raise_does
    | with_reducible apply wrf_does
    | split

theorem execFhFrameReceive_does {fs₀ s₀ port frame s t₀} (h₀ : Does fs₀ s₀ s) (e₀ : execFhFrameReceive port frame s = .next t₀)
    (hf₀ : Fld.within [.regs, .time, .pairs, .funcs, .flights, .mem, .tiles, .reels, .chains, .windows, .radio, .fault,
      .free, .out] fs₀ = true) : Does fs₀ s₀ t₀ := by
  refine h₀.trans ?_ hf₀
  clear h₀ hf₀
  unfold execFhFrameReceive at e₀
  (try dsimp only at e₀)
  first
  | cases e₀
  | ((repeat' split at e₀) <;> cases e₀)
  all_goals repeat'
    first
    | with_reducible exact Does.refl _ _
    | decide
    | with_reducible apply fhGood_does
    | with_reducible apply fhDiscard_does
    | with_reducible apply bump_does
    | split

/-! ### Take -/

theorem sagQueued_does {fs₀ s₀ j ahead s} (h₀ : Does fs₀ s₀ s) (hf₀ : Fld.within [.regs, .pairs, .funcs, .jobs,
      .out] fs₀ = true) :
    Does fs₀ s₀ (sagQueued j ahead s) := by
  refine h₀.trans ?_ hf₀
  clear h₀ hf₀
  unfold sagQueued
  try dsimp only
  all_goals repeat'
    first
    | with_reducible exact Does.refl _ _
    | decide
    | with_reducible apply setJob_does
    | with_reducible apply interim_does
    | split

theorem queueTake_does {fs₀ s₀ r d l tok input s} (h₀ : Does fs₀ s₀ s) (hf₀ : Fld.within [.regs, .pairs, .funcs, .flights,
      .jobs, .fault, .free, .out] fs₀ = true) :
    Does fs₀ s₀ (queueTake r d l tok input s) := by
  refine h₀.trans ?_ hf₀
  clear h₀ hf₀
  unfold queueTake
  try dsimp only
  all_goals repeat'
    first
    | with_reducible exact Does.refl _ _
    | decide
    | with_reducible apply sagQueued_does
    | with_reducible apply peakDepth_does
    | with_reducible apply interim_does
    | with_reducible apply finish_does
    | with_reducible apply markStarted_does
    | with_reducible apply bump_does
    | with_reducible apply useFree_does
    | split
    | ((with_reducible refine Does.upd ?_ ?_ ?_); (on_goal 2 => exact rfl); (on_goal 2 => (intro f hf; cases f <;> first | exact absurd (by decide) hf | dsimp only [sameFld])))

theorem takeGo_does {fs₀ s₀ r d resume dma s} (h₀ : Does fs₀ s₀ s) (hf₀ : Fld.within [.regs, .pairs, .funcs, .flights, .mem,
      .jobs, .fault, .free, .out] fs₀ = true) :
    Does fs₀ s₀ (takeGo r d resume dma s) := by
  refine h₀.trans ?_ hf₀
  clear h₀ hf₀
  unfold takeGo
  try dsimp only
  all_goals repeat'
    first
    | with_reducible exact Does.refl _ _
    | decide
    | with_reducible apply queueTake_does
    | with_reducible apply withInput_does
    | with_reducible apply refuse_does
    | with_reducible apply finish_does
    | with_reducible assumption
    | (intro a b h)
    | split

theorem startJob_does {fs₀ s₀ j s} (h₀ : Does fs₀ s₀ s) (hf₀ : Fld.within [.regs, .tiles, .jobs] fs₀ = true) :
    Does fs₀ s₀ (startJob j s) := by
  refine h₀.trans ?_ hf₀
  clear h₀ hf₀
  unfold startJob
  try dsimp only
  all_goals repeat'
    first
    | with_reducible exact Does.refl _ _
    | decide
    | with_reducible apply startLayer_does
    | split

theorem slateArmed_does {fs₀ s₀ r g id t s} (h₀ : Does fs₀ s₀ s) (hf₀ : Fld.within [.regs, .pairs, .funcs, .flights, .mem,
      .tiles, .reels, .loaded, .jobs, .splice, .fault, .free, .out] fs₀ = true) :
    Does fs₀ s₀ (slateArmed r g id t s) := by
  refine h₀.trans ?_ hf₀
  clear h₀ hf₀
  unfold slateArmed
  try dsimp only
  all_goals repeat'
    first
    | with_reducible exact Does.refl _ _
    | decide
    | with_reducible apply armSlate_does
    | with_reducible apply breakGroup_does
    | with_reducible apply sendAll_does
    | with_reducible apply markStarted_does
    | split

theorem slateArmGo_does {fs₀ s₀ r d s} (h₀ : Does fs₀ s₀ s) (hf₀ : Fld.within [.regs, .pairs, .funcs, .flights, .mem, .tiles,
      .reels, .loaded, .jobs, .splice, .fault, .free, .out] fs₀ = true) :
    Does fs₀ s₀ (slateArmGo r d s) := by
  refine h₀.trans ?_ hf₀
  clear h₀ hf₀
  unfold slateArmGo
  try dsimp only
  all_goals repeat'
    first
    | with_reducible exact Does.refl _ _
    | decide
    | with_reducible apply slateArmed_does
    | with_reducible apply refuse_does
    | with_reducible apply finish_does
    | split

theorem removeSlate_does {fs₀ s₀ x s} (h₀ : Does fs₀ s₀ s) (hf₀ : Fld.within [.splice] fs₀ = true) :
    Does fs₀ s₀ (removeSlate x s) := by
  refine h₀.trans ?_ hf₀
  clear h₀ hf₀
  unfold removeSlate
  try dsimp only
  all_goals repeat'
    first
    | with_reducible exact Does.refl _ _
    | decide
    | split
    | ((with_reducible refine Does.upd ?_ ?_ ?_); (on_goal 2 => exact rfl); (on_goal 2 => (intro f hf; cases f <;> first | exact absurd (by decide) hf | dsimp only [sameFld])))

theorem startWaiting_does {fs₀ s₀ g id x3 x4} (h₀ : Does fs₀ s₀ x4) (hf₀ : Fld.within [.regs, .tiles, .jobs] fs₀ = true) :
    Does fs₀ s₀ (startWaiting g id x3 x4) := by
  refine h₀.trans ?_ hf₀
  clear h₀ hf₀
  fun_induction startWaiting g id x3 x4
  all_goals try dsimp +zetaDelta only
  all_goals repeat'
    first
    | with_reducible exact Does.refl _ _
    | decide
    | with_reducible refine Does.trans ?_ (by assumption) ?_
    | with_reducible apply startJob_does
    | split

theorem slateRecord_does {fs₀ s₀ x s} (h₀ : Does fs₀ s₀ s) (hf₀ : Fld.within [.regs, .pairs, .funcs, .flights, .fault,
      .out] fs₀ = true) :
    Does fs₀ s₀ (slateRecord x s) := by
  refine h₀.trans ?_ hf₀
  clear h₀ hf₀
  unfold slateRecord
  try dsimp only
  all_goals repeat'
    first
    | with_reducible exact Does.refl _ _
    | decide
    | with_reducible apply finish_does
    | split

theorem barrierSlate_does {fs₀ s₀ x s} (h₀ : Does fs₀ s₀ s) (hf₀ : Fld.within [.regs, .pairs, .funcs, .flights, .mem, .tiles,
      .reels, .loaded, .jobs, .splice, .fault, .out] fs₀ = true) :
    Does fs₀ s₀ (barrierSlate x s) := by
  refine h₀.trans ?_ hf₀
  clear h₀ hf₀
  unfold barrierSlate
  try dsimp only
  all_goals repeat'
    first
    | with_reducible exact Does.refl _ _
    | decide
    | with_reducible apply barrierFire_does
    | split

theorem fireSlate_does {fs₀ s₀ x s} (h₀ : Does fs₀ s₀ s) (hf₀ : Fld.within [.regs, .pairs, .funcs, .flights, .mem, .tiles,
      .reels, .loaded, .jobs, .splice, .fault, .out] fs₀ = true) :
    Does fs₀ s₀ (fireSlate x s) := by
  refine h₀.trans ?_ hf₀
  clear h₀ hf₀
  unfold fireSlate
  try dsimp only
  all_goals repeat'
    first
    | with_reducible exact Does.refl _ _
    | decide
    | with_reducible apply barrierSlate_does
    | with_reducible apply slateRecord_does
    | with_reducible apply startWaiting_does
    | with_reducible apply removeSlate_does
    | with_reducible apply bump_does
    | split

theorem slateDue_does {fs₀ s₀ x s} (h₀ : Does fs₀ s₀ s) (hf₀ : Fld.within [.regs, .pairs, .funcs, .flights, .mem, .tiles,
      .reels, .loaded, .jobs, .splice, .fault, .free, .out] fs₀ = true) :
    Does fs₀ s₀ (slateDue x s) := by
  refine h₀.trans ?_ hf₀
  clear h₀ hf₀
  unfold slateDue
  try dsimp only
  all_goals repeat'
    first
    | with_reducible exact Does.refl _ _
    | decide
    | with_reducible apply fireSlate_does
    | with_reducible apply breakGroup_does
    | split

theorem slatesDue_does {fs₀ s₀ x1 x2} (h₀ : Does fs₀ s₀ x2) (hf₀ : Fld.within [.regs, .pairs, .funcs, .flights, .mem, .tiles,
      .reels, .loaded, .jobs, .splice, .fault, .free, .out] fs₀ = true) :
    Does fs₀ s₀ (slatesDue x1 x2) := by
  refine h₀.trans ?_ hf₀
  clear h₀ hf₀
  fun_induction slatesDue x1 x2
  all_goals try dsimp +zetaDelta only
  all_goals repeat'
    first
    | with_reducible exact Does.refl _ _
    | decide
    | with_reducible refine Does.trans ?_ (by assumption) ?_
    | with_reducible apply slateDue_does
    | split

theorem execTakeRun_does {fs₀ s₀ r input s t₀} (h₀ : Does fs₀ s₀ s) (e₀ : execTakeRun r input s = .next t₀)
    (hf₀ : Fld.within [.regs, .pairs, .funcs, .flights, .mem, .jobs, .fault, .free, .out] fs₀ = true) : Does fs₀ s₀ t₀ := by
  refine h₀.trans ?_ hf₀
  clear h₀ hf₀
  unfold execTakeRun at e₀
  (try dsimp only at e₀)
  first
  | cases e₀
  | ((repeat' split at e₀) <;> cases e₀)
  all_goals repeat'
    first
    | with_reducible exact Does.refl _ _
    | decide
    | with_reducible apply takeGo_does
    | with_reducible apply runDesc_does
    | with_reducible assumption
    | (intro a b h)
    | split

theorem execTakeResume_does {fs₀ s₀ r answered input s t₀} (h₀ : Does fs₀ s₀ s) (e₀ : execTakeResume r answered input s = .next t₀)
    (hf₀ : Fld.within [.regs, .pairs, .funcs, .flights, .mem, .jobs, .fault, .free, .out] fs₀ = true) : Does fs₀ s₀ t₀ := by
  refine h₀.trans ?_ hf₀
  clear h₀ hf₀
  unfold execTakeResume at e₀
  (try dsimp only at e₀)
  first
  | cases e₀
  | ((repeat' split at e₀) <;> cases e₀)
  all_goals repeat'
    first
    | with_reducible exact Does.refl _ _
    | decide
    | with_reducible apply takeGo_does
    | with_reducible apply runDesc_does
    | with_reducible assumption
    | (intro a b h)
    | split

theorem execTakeJobStart_does {fs₀ s₀ p s t₀} (h₀ : Does fs₀ s₀ s) (e₀ : execTakeJobStart p s = .next t₀)
    (hf₀ : Fld.within [.regs, .tiles, .jobs] fs₀ = true) : Does fs₀ s₀ t₀ := by
  refine h₀.trans ?_ hf₀
  clear h₀ hf₀
  unfold execTakeJobStart at e₀
  (try dsimp only at e₀)
  first
  | cases e₀
  | ((repeat' split at e₀) <;> cases e₀)
  all_goals repeat'
    first
    | with_reducible exact Does.refl _ _
    | decide
    | with_reducible apply startJob_does
    | with_reducible apply setJob_does
    | split

theorem execRetakeRestart_does {fs₀ s₀ p s t₀} (h₀ : Does fs₀ s₀ s) (e₀ : execRetakeRestart p s = .next t₀)
    (hf₀ : Fld.within [.regs, .pairs, .funcs, .flights, .mem, .tiles, .reels, .loaded, .chains, .items, .windows, .jobs,
      .radio, .flow, .splice, .fault, .free, .out] fs₀ = true) : Does fs₀ s₀ t₀ := by
  refine h₀.trans ?_ hf₀
  clear h₀ hf₀
  unfold execRetakeRestart at e₀
  (try dsimp only at e₀)
  first
  | cases e₀
  | ((repeat' split at e₀) <;> cases e₀)
  all_goals repeat'
    first
    | with_reducible exact Does.refl _ _
    | decide
    | with_reducible apply runColls_does
    | with_reducible apply putBarrier_does
    | with_reducible apply retakeFlag_does
    | with_reducible apply setJob_does
    | split

theorem execSlateArm_does {fs₀ s₀ r s t₀} (h₀ : Does fs₀ s₀ s) (e₀ : execSlateArm r s = .next t₀)
    (hf₀ : Fld.within [.regs, .pairs, .funcs, .flights, .mem, .tiles, .reels, .loaded, .jobs, .splice, .fault, .free,
      .out] fs₀ = true) : Does fs₀ s₀ t₀ := by
  refine h₀.trans ?_ hf₀
  clear h₀ hf₀
  unfold execSlateArm at e₀
  (try dsimp only at e₀)
  first
  | cases e₀
  | ((repeat' split at e₀) <;> cases e₀)
  all_goals repeat'
    first
    | with_reducible exact Does.refl _ _
    | decide
    | with_reducible apply slateArmGo_does
    | with_reducible apply runDesc_does
    | with_reducible assumption
    | (intro a b h)
    | split

theorem execSlateFire_does {fs₀ s₀ group slate s t₀} (h₀ : Does fs₀ s₀ s) (e₀ : execSlateFire group slate s = .next t₀)
    (hf₀ : Fld.within [.regs, .clk, .time, .pairs, .funcs, .flights, .mem, .tiles, .reels, .loaded, .jobs, .splice, .fault,
      .free, .out] fs₀ = true) : Does fs₀ s₀ t₀ := by
  refine h₀.trans ?_ hf₀
  clear h₀ hf₀
  unfold execSlateFire at e₀
  (try dsimp only at e₀)
  first
  | cases e₀
  | ((repeat' split at e₀) <;> cases e₀)
  all_goals repeat'
    first
    | with_reducible exact Does.refl _ _
    | decide
    | with_reducible apply slatesDue_does
    | with_reducible apply runToTime_does
    | split

theorem execSlateWaitExpiry_does {fs₀ s₀ p s t₀} (h₀ : Does fs₀ s₀ s) (e₀ : execSlateWaitExpiry p s = .next t₀)
    (hf₀ : Fld.within [.regs, .clk, .time, .pairs, .funcs, .flights, .reels, .loaded, .jobs, .fault,
      .out] fs₀ = true) : Does fs₀ s₀ t₀ := by
  refine h₀.trans ?_ hf₀
  clear h₀ hf₀
  unfold execSlateWaitExpiry at e₀
  (try dsimp only at e₀)
  first
  | cases e₀
  | ((repeat' split at e₀) <;> cases e₀)
  all_goals repeat'
    first
    | with_reducible exact Does.refl _ _
    | decide
    | with_reducible apply dropJob_does
    | with_reducible apply finish_does
    | with_reducible apply runToClk_does
    | split

/-! ### Splice -/

theorem reroute_does {fs₀ s₀ m s} (h₀ : Does fs₀ s₀ s) (hf₀ : Fld.within [.regs, .pairs, .funcs, .flights, .mem, .tiles,
      .reels, .loaded, .jobs, .splice, .fault, .free, .out] fs₀ = true) :
    Does fs₀ s₀ (reroute m s) := by
  refine h₀.trans ?_ hf₀
  clear h₀ hf₀
  unfold reroute
  try dsimp only
  all_goals repeat'
    first
    | with_reducible exact Does.refl _ _
    | decide
    | with_reducible apply breakGroup_does
    | with_reducible apply linkPut_does
    | split

theorem rerouteAll_does {fs₀ s₀ x1 x2} (h₀ : Does fs₀ s₀ x2) (hf₀ : Fld.within [.regs, .pairs, .funcs, .flights, .mem,
      .tiles, .reels, .loaded, .jobs, .splice, .fault, .free, .out] fs₀ = true) :
    Does fs₀ s₀ (rerouteAll x1 x2) := by
  refine h₀.trans ?_ hf₀
  clear h₀ hf₀
  fun_induction rerouteAll x1 x2
  all_goals try dsimp +zetaDelta only
  all_goals repeat'
    first
    | with_reducible exact Does.refl _ _
    | decide
    | with_reducible refine Does.trans ?_ (by assumption) ?_
    | with_reducible apply reroute_does
    | split

theorem fenceLink_does {fs₀ s₀ l s} (h₀ : Does fs₀ s₀ s) (hf₀ : Fld.within [.regs, .time, .pairs, .funcs, .flights, .mem,
      .tiles, .reels, .loaded, .jobs, .splice, .fault, .free, .out] fs₀ = true) :
    Does fs₀ s₀ (fenceLink l s) := by
  refine h₀.trans ?_ hf₀
  clear h₀ hf₀
  unfold fenceLink
  try dsimp only
  all_goals repeat'
    first
    | with_reducible exact Does.refl _ _
    | decide
    | with_reducible apply rerouteAll_does
    | with_reducible apply loseSource_does
    | with_reducible apply setLinkState_does
    | with_reducible apply setLink_does
    | with_reducible apply report_does
    | with_reducible apply raise_does
    | split

theorem linkJudge_does {fs₀ s₀ l old s} (h₀ : Does fs₀ s₀ s) (hf₀ : Fld.within [.regs, .time, .pairs, .funcs, .flights, .mem,
      .tiles, .reels, .loaded, .jobs, .splice, .fault, .free, .out] fs₀ = true) :
    Does fs₀ s₀ (linkJudge l old s) := by
  refine h₀.trans ?_ hf₀
  clear h₀ hf₀
  unfold linkJudge
  try dsimp only
  all_goals repeat'
    first
    | with_reducible exact Does.refl _ _
    | decide
    | with_reducible apply fenceLink_does
    | with_reducible apply setLinkState_does
    | with_reducible apply report_does
    | with_reducible apply raise_does
    | split

theorem linkErrUp_does {fs₀ s₀ l o s} (h₀ : Does fs₀ s₀ s) (hf₀ : Fld.within [.regs] fs₀ = true) :
    Does fs₀ s₀ (linkErrUp l o s) := by
  refine h₀.trans ?_ hf₀
  clear h₀ hf₀
  unfold linkErrUp
  try dsimp only
  all_goals repeat'
    first
    | with_reducible exact Does.refl _ _
    | decide
    | with_reducible apply wr_does
    | split

theorem decayLink_does {fs₀ s₀ l s} (h₀ : Does fs₀ s₀ s) (hf₀ : Fld.within [.regs, .funcs, .out] fs₀ = true) :
    Does fs₀ s₀ (decayLink l s) := by
  refine h₀.trans ?_ hf₀
  clear h₀ hf₀
  unfold decayLink
  try dsimp only
  all_goals repeat'
    first
    | with_reducible exact Does.refl _ _
    | decide
    | with_reducible apply setLinkState_does
    | with_reducible apply wrf_does
    | split

theorem decayLinks_does {fs₀ s₀ x1 x2} (h₀ : Does fs₀ s₀ x2) (hf₀ : Fld.within [.regs, .funcs, .out] fs₀ = true) :
    Does fs₀ s₀ (decayLinks x1 x2) := by
  refine h₀.trans ?_ hf₀
  clear h₀ hf₀
  fun_induction decayLinks x1 x2
  all_goals try dsimp +zetaDelta only
  all_goals repeat'
    first
    | with_reducible exact Does.refl _ _
    | decide
    | with_reducible refine Does.trans ?_ (by assumption) ?_
    | with_reducible apply decayLink_does
    | split

theorem ackUp_does {fs₀ s₀ g id s} (h₀ : Does fs₀ s₀ s) (hf₀ : Fld.within [.regs, .pairs, .funcs, .flights, .mem, .tiles,
      .reels, .loaded, .jobs, .splice, .fault, .free, .out] fs₀ = true) :
    Does fs₀ s₀ (ackUp g id s) := by
  refine h₀.trans ?_ hf₀
  clear h₀ hf₀
  unfold ackUp
  try dsimp only
  all_goals repeat'
    first
    | with_reducible exact Does.refl _ _
    | decide
    | with_reducible apply breakGroup_does
    | with_reducible apply sendMsg_does
    | split

theorem barrierDigest_does {fs₀ s₀ g id sum s} (h₀ : Does fs₀ s₀ s) (hf₀ : Fld.within [.jobs] fs₀ = true) :
    Does fs₀ s₀ (barrierDigest g id sum s) := by
  refine h₀.trans ?_ hf₀
  clear h₀ hf₀
  unfold barrierDigest
  try dsimp only
  all_goals repeat'
    first
    | with_reducible exact Does.refl _ _
    | decide
    | with_reducible apply setJob_does
    | split

theorem armTake_does {fs₀ s₀ m s} (h₀ : Does fs₀ s₀ s) (hf₀ : Fld.within [.regs, .pairs, .funcs, .flights, .mem, .tiles,
      .reels, .loaded, .jobs, .splice, .fault, .free, .out] fs₀ = true) :
    Does fs₀ s₀ (armTake m s) := by
  refine h₀.trans ?_ hf₀
  clear h₀ hf₀
  unfold armTake
  try dsimp only
  all_goals repeat'
    first
    | with_reducible exact Does.refl _ _
    | decide
    | with_reducible apply barrierDigest_does
    | with_reducible apply ackUp_does
    | with_reducible apply armSlate_does
    | with_reducible apply breakGroup_does
    | with_reducible apply breakSlate_does
    | with_reducible apply sendAll_does
    | split

theorem ackTake_does {fs₀ s₀ m s} (h₀ : Does fs₀ s₀ s) (hf₀ : Fld.within [.regs, .pairs, .funcs, .flights, .mem, .tiles,
      .reels, .loaded, .jobs, .splice, .fault, .free, .out] fs₀ = true) :
    Does fs₀ s₀ (ackTake m s) := by
  refine h₀.trans ?_ hf₀
  clear h₀ hf₀
  unfold ackTake
  try dsimp only
  all_goals repeat'
    first
    | with_reducible exact Does.refl _ _
    | decide
    | with_reducible apply ackUp_does
    | with_reducible apply breakGroup_does
    | with_reducible apply wrf_does
    | split
    | ((with_reducible refine Does.upd ?_ ?_ ?_); (on_goal 2 => exact rfl); (on_goal 2 => (intro f hf; cases f <;> first | exact absurd (by decide) hf | dsimp only [sameFld])))

theorem breakTake_does {fs₀ s₀ m s} (h₀ : Does fs₀ s₀ s) (hf₀ : Fld.within [.regs, .pairs, .funcs, .flights, .mem, .tiles,
      .reels, .loaded, .jobs, .splice, .fault, .free, .out] fs₀ = true) :
    Does fs₀ s₀ (breakTake m s) := by
  refine h₀.trans ?_ hf₀
  clear h₀ hf₀
  unfold breakTake
  try dsimp only
  all_goals repeat'
    first
    | with_reducible exact Does.refl _ _
    | decide
    | with_reducible apply endDependents_does
    | with_reducible apply countBreak_does
    | with_reducible apply disarm_does
    | with_reducible apply sendAll_does
    | with_reducible apply wrf_does
    | split

theorem arriveTake_does {fs₀ s₀ m s} (h₀ : Does fs₀ s₀ s) (hf₀ : Fld.within [.regs, .pairs, .funcs, .flights, .mem, .tiles,
      .reels, .loaded, .chains, .items, .windows, .jobs, .radio, .flow, .splice, .fault, .free, .out] fs₀ = true) :
    Does fs₀ s₀ (arriveTake m s) := by
  refine h₀.trans ?_ hf₀
  clear h₀ hf₀
  unfold arriveTake
  try dsimp only
  all_goals repeat'
    first
    | with_reducible exact Does.refl _ _
    | decide
    | with_reducible apply groupGo_does
    | with_reducible apply putBarrier_does
    | split

theorem bcastTake_passOn_does {fs₀ s₀ g i last bs x5 x6} (h₀ : Does fs₀ s₀ x6) (hf₀ : Fld.within [.regs, .mem, .splice,
      .free, .out] fs₀ = true) :
    Does fs₀ s₀ (bcastTake.passOn g i last bs x5 x6) := by
  refine h₀.trans ?_ hf₀
  clear h₀ hf₀
  fun_induction bcastTake.passOn g i last bs x5 x6
  all_goals try dsimp +zetaDelta only
  all_goals repeat'
    first
    | with_reducible exact Does.refl _ _
    | decide
    | with_reducible refine Does.trans ?_ (by assumption) ?_
    | with_reducible apply sendMsg_does
    | split

theorem reduceTake_does {fs₀ s₀ m s} (h₀ : Does fs₀ s₀ s) (hf₀ : Fld.within [.regs, .pairs, .funcs, .flights, .mem, .tiles,
      .reels, .loaded, .chains, .items, .windows, .jobs, .radio, .flow, .splice, .fault, .free, .out] fs₀ = true) :
    Does fs₀ s₀ (reduceTake m s) := by
  refine h₀.trans ?_ hf₀
  clear h₀ hf₀
  unfold reduceTake
  try dsimp only
  all_goals repeat'
    first
    | with_reducible exact Does.refl _ _
    | decide
    | with_reducible apply groupGo_does
    | with_reducible apply putColl_does
    | split

theorem bcastDone_does {fs₀ s₀ g i bs s} (h₀ : Does fs₀ s₀ s) (hf₀ : Fld.within [.regs, .pairs, .funcs, .flights, .mem,
      .tiles, .reels, .loaded, .chains, .items, .windows, .jobs, .radio, .flow, .splice, .fault, .free, .out] fs₀ = true) :
    Does fs₀ s₀ (bcastDone g i bs s) := by
  refine h₀.trans ?_ hf₀
  clear h₀ hf₀
  unfold bcastDone
  try dsimp only
  all_goals repeat'
    first
    | with_reducible exact Does.refl _ _
    | decide
    | with_reducible apply groupGo_does
    | with_reducible apply endColl_does
    | with_reducible apply dropColl_does
    | split

theorem bcastTake_does {fs₀ s₀ m s} (h₀ : Does fs₀ s₀ s) (hf₀ : Fld.within [.regs, .pairs, .funcs, .flights, .mem, .tiles,
      .reels, .loaded, .chains, .items, .windows, .jobs, .radio, .flow, .splice, .fault, .free, .out] fs₀ = true) :
    Does fs₀ s₀ (bcastTake m s) := by
  refine h₀.trans ?_ hf₀
  clear h₀ hf₀
  unfold bcastTake
  try dsimp only
  all_goals repeat'
    first
    | with_reducible exact Does.refl _ _
    | decide
    | with_reducible apply bcastTake_passOn_does
    | with_reducible apply bcastDone_does
    | with_reducible apply breakGroup_does
    | with_reducible apply putColl_does
    | split

theorem timeTake_does {fs₀ s₀ l m offset s} (h₀ : Does fs₀ s₀ s) (hf₀ : Fld.within [.regs, .time, .pairs, .funcs, .flights,
      .mem, .tiles, .reels, .chains, .windows, .radio, .splice, .fault, .free, .out] fs₀ = true) :
    Does fs₀ s₀ (timeTake l m offset s) := by
  refine h₀.trans ?_ hf₀
  clear h₀ hf₀
  unfold timeTake
  try dsimp only
  all_goals repeat'
    first
    | with_reducible exact Does.refl _ _
    | decide
    | with_reducible apply measure_does
    | with_reducible apply sendMsg_does
    | split
    | ((with_reducible refine Does.upd ?_ ?_ ?_); (on_goal 2 => exact rfl); (on_goal 2 => (intro f hf; cases f <;> first | exact absurd (by decide) hf | dsimp only [sameFld])))

theorem handleMsg_does {fs₀ s₀ l offset m s} (h₀ : Does fs₀ s₀ s) (hf₀ : Fld.within [.regs, .time, .pairs, .funcs, .flights,
      .mem, .tiles, .reels, .loaded, .chains, .items, .windows, .jobs, .radio, .flow, .splice, .fault, .free,
      .out] fs₀ = true) :
    Does fs₀ s₀ (handleMsg l offset m s) := by
  refine h₀.trans ?_ hf₀
  clear h₀ hf₀
  unfold handleMsg
  try dsimp only
  all_goals repeat'
    first
    | with_reducible exact Does.refl _ _
    | decide
    | with_reducible apply timeTake_does
    | with_reducible apply bcastTake_does
    | with_reducible apply reduceTake_does
    | with_reducible apply arriveTake_does
    | with_reducible apply breakTake_does
    | with_reducible apply ackTake_does
    | with_reducible apply armTake_does
    | split

theorem setNextSeq_does {fs₀ s₀ key v s} (h₀ : Does fs₀ s₀ s) (hf₀ : Fld.within [.splice] fs₀ = true) :
    Does fs₀ s₀ (setNextSeq key v s) := by
  refine h₀.trans ?_ hf₀
  clear h₀ hf₀
  unfold setNextSeq
  try dsimp only
  all_goals repeat'
    first
    | with_reducible exact Does.refl _ _
    | decide
    | split
    | ((with_reducible refine Does.upd ?_ ?_ ?_); (on_goal 2 => exact rfl); (on_goal 2 => (intro f hf; cases f <;> first | exact absurd (by decide) hf | dsimp only [sameFld])))

theorem deliverOne_does {fs₀ s₀ l offset m s} (h₀ : Does fs₀ s₀ s) (hf₀ : Fld.within [.regs, .time, .pairs, .funcs, .flights,
      .mem, .tiles, .reels, .loaded, .chains, .items, .windows, .jobs, .radio, .flow, .splice, .fault, .free,
      .out] fs₀ = true) :
    Does fs₀ s₀ (deliverOne l offset m s) := by
  refine h₀.trans ?_ hf₀
  clear h₀ hf₀
  unfold deliverOne
  try dsimp only
  all_goals repeat'
    first
    | with_reducible exact Does.refl _ _
    | decide
    | with_reducible apply setNextSeq_does
    | with_reducible apply handleMsg_does
    | split

theorem deliverEarly_does {fs₀ s₀ key x2 x3} (h₀ : Does fs₀ s₀ x3) (hf₀ : Fld.within [.regs, .time, .pairs, .funcs, .flights,
      .mem, .tiles, .reels, .loaded, .chains, .items, .windows, .jobs, .radio, .flow, .splice, .fault, .free,
      .out] fs₀ = true) :
    Does fs₀ s₀ (deliverEarly key x2 x3) := by
  refine h₀.trans ?_ hf₀
  clear h₀ hf₀
  fun_induction deliverEarly key x2 x3
  all_goals try dsimp +zetaDelta only
  all_goals repeat'
    first
    | with_reducible exact Does.refl _ _
    | decide
    | with_reducible refine Does.trans ?_ (by assumption) ?_
    | with_reducible apply deliverOne_does
    | with_reducible apply setNextSeq_does
    | split
    | ((with_reducible refine Does.upd ?_ ?_ ?_); (on_goal 2 => exact rfl); (on_goal 2 => (intro f hf; cases f <;> first | exact absurd (by decide) hf | dsimp only [sameFld])))

theorem recvHere_does {fs₀ s₀ l offset m s} (h₀ : Does fs₀ s₀ s) (hf₀ : Fld.within [.regs, .time, .pairs, .funcs, .flights,
      .mem, .tiles, .reels, .loaded, .chains, .items, .windows, .jobs, .radio, .flow, .splice, .fault, .free,
      .out] fs₀ = true) :
    Does fs₀ s₀ (recvHere l offset m s) := by
  refine h₀.trans ?_ hf₀
  clear h₀ hf₀
  unfold recvHere
  try dsimp only
  all_goals repeat'
    first
    | with_reducible exact Does.refl _ _
    | decide
    | with_reducible apply deliverEarly_does
    | with_reducible apply deliverOne_does
    | with_reducible apply bump_does
    | split
    | ((with_reducible refine Does.upd ?_ ?_ ?_); (on_goal 2 => exact rfl); (on_goal 2 => (intro f hf; cases f <;> first | exact absurd (by decide) hf | dsimp only [sameFld])))

theorem relay_does {fs₀ s₀ m s} (h₀ : Does fs₀ s₀ s) (hf₀ : Fld.within [.regs, .pairs, .funcs, .flights, .mem, .tiles,
      .reels, .loaded, .jobs, .splice, .fault, .free, .out] fs₀ = true) :
    Does fs₀ s₀ (relay m s) := by
  refine h₀.trans ?_ hf₀
  clear h₀ hf₀
  unfold relay
  try dsimp only
  all_goals repeat'
    first
    | with_reducible exact Does.refl _ _
    | decide
    | with_reducible apply reroute_does
    | with_reducible apply wireMsg_does
    | with_reducible apply linkPut_does
    | split
    | (obtain rfl := congrArg Prod.snd ‹wireMsg _ _ _ = _›)

theorem decodeFailed_does {fs₀ s₀ l m s} (h₀ : Does fs₀ s₀ s) (hf₀ : Fld.within [.regs, .pairs, .funcs, .flights, .mem,
      .tiles, .reels, .loaded, .chains, .items, .windows, .jobs, .radio, .flow, .splice, .fault, .free, .out] fs₀ = true) :
    Does fs₀ s₀ (decodeFailed l m s) := by
  refine h₀.trans ?_ hf₀
  clear h₀ hf₀
  unfold decodeFailed
  try dsimp only
  all_goals repeat'
    first
    | with_reducible exact Does.refl _ _
    | decide
    | with_reducible apply endOwner_does
    | with_reducible apply report_does
    | with_reducible apply bump_does
    | split

theorem countRx_does {fs₀ s₀ l n s} (h₀ : Does fs₀ s₀ s) (hf₀ : Fld.within [.regs, .splice] fs₀ = true) :
    Does fs₀ s₀ (countRx l n s) := by
  refine h₀.trans ?_ hf₀
  clear h₀ hf₀
  unfold countRx
  try dsimp only
  all_goals repeat'
    first
    | with_reducible exact Does.refl _ _
    | decide
    | with_reducible apply setLink_does
    | with_reducible apply bump_does
    | split

theorem recvMsg_does {fs₀ s₀ l kind offset m s} (h₀ : Does fs₀ s₀ s) (hf₀ : Fld.within [.regs, .time, .pairs, .funcs,
      .flights, .mem, .tiles, .reels, .loaded, .chains, .items, .windows, .jobs, .radio, .flow, .splice, .fault, .free,
      .out] fs₀ = true) :
    Does fs₀ s₀ (recvMsg l kind offset m s) := by
  refine h₀.trans ?_ hf₀
  clear h₀ hf₀
  unfold recvMsg
  try dsimp only
  all_goals repeat'
    first
    | with_reducible exact Does.refl _ _
    | decide
    | with_reducible apply countRx_does
    | with_reducible apply decodeFailed_does
    | with_reducible apply relay_does
    | with_reducible apply recvHere_does
    | with_reducible apply codecCount_does
    | split

theorem execLinkTrainDone_does {fs₀ s₀ l peer s t₀} (h₀ : Does fs₀ s₀ s) (e₀ : execLinkTrainDone l peer s = .next t₀)
    (hf₀ : Fld.within [.regs, .funcs, .out] fs₀ = true) : Does fs₀ s₀ t₀ := by
  refine h₀.trans ?_ hf₀
  clear h₀ hf₀
  unfold execLinkTrainDone at e₀
  (try dsimp only at e₀)
  first
  | cases e₀
  | ((repeat' split at e₀) <;> cases e₀)
  all_goals repeat'
    first
    | with_reducible exact Does.refl _ _
    | decide
    | with_reducible apply setLinkState_does
    | with_reducible apply wrf_does
    | split

theorem execLinkTrainRetry_does {fs₀ s₀ l s t₀} (h₀ : Does fs₀ s₀ s) (e₀ : execLinkTrainRetry l s = .next t₀)
    (hf₀ : Fld.within [.clk, .time, .splice, .out] fs₀ = true) : Does fs₀ s₀ t₀ := by
  refine h₀.trans ?_ hf₀
  clear h₀ hf₀
  unfold execLinkTrainRetry at e₀
  (try dsimp only at e₀)
  first
  | cases e₀
  | ((repeat' split at e₀) <;> cases e₀)
  all_goals repeat'
    first
    | with_reducible exact Does.refl _ _
    | decide
    | with_reducible apply setLink_does
    | with_reducible apply runToClk_does
    | with_reducible apply emit_does
    | split

theorem execLinkCalDone_does {fs₀ s₀ l s t₀} (h₀ : Does fs₀ s₀ s) (e₀ : execLinkCalDone l s = .next t₀)
    (hf₀ : Fld.within [.regs, .funcs, .out] fs₀ = true) : Does fs₀ s₀ t₀ := by
  refine h₀.trans ?_ hf₀
  clear h₀ hf₀
  unfold execLinkCalDone at e₀
  (try dsimp only at e₀)
  first
  | cases e₀
  | ((repeat' split at e₀) <;> cases e₀)
  all_goals repeat'
    first
    | with_reducible exact Does.refl _ _
    | decide
    | with_reducible apply setLinkState_does
    | split

theorem execFlitReceive_does {fs₀ s₀ l crcOk replay acked s t₀} (h₀ : Does fs₀ s₀ s) (e₀ : execFlitReceive l crcOk replay acked s = .next t₀)
    (hf₀ : Fld.within [.regs, .time, .pairs, .funcs, .flights, .mem, .tiles, .reels, .loaded, .jobs, .splice, .fault, .free,
      .out] fs₀ = true) : Does fs₀ s₀ t₀ := by
  refine h₀.trans ?_ hf₀
  clear h₀ hf₀
  unfold execFlitReceive at e₀
  (try dsimp only at e₀)
  first
  | cases e₀
  | ((repeat' split at e₀) <;> cases e₀)
  all_goals repeat'
    first
    | with_reducible exact Does.refl _ _
    | decide
    | with_reducible apply linkErrUp_does
    | with_reducible apply linkJudge_does
    | with_reducible apply linkDrain_does
    | with_reducible apply setLink_does
    | with_reducible apply emit_does
    | with_reducible apply bump_does
    | split

theorem execErrDecay_does {fs₀ s₀ s t₀} (h₀ : Does fs₀ s₀ s) (e₀ : execErrDecay s = .next t₀)
    (hf₀ : Fld.within [.regs, .clk, .time, .funcs, .out] fs₀ = true) : Does fs₀ s₀ t₀ := by
  refine h₀.trans ?_ hf₀
  clear h₀ hf₀
  unfold execErrDecay at e₀
  (try dsimp only at e₀)
  first
  | cases e₀
  | ((repeat' split at e₀) <;> cases e₀)
  all_goals repeat'
    first
    | with_reducible exact Does.refl _ _
    | decide
    | with_reducible apply decayLinks_does
    | with_reducible apply runToClk_does
    | split

theorem execTimeMessage_does {fs₀ s₀ l m offset s t₀} (h₀ : Does fs₀ s₀ s) (e₀ : execTimeMessage l m offset s = .next t₀)
    (hf₀ : Fld.within [.regs, .time, .pairs, .funcs, .flights, .mem, .tiles, .reels, .loaded, .chains, .items, .windows,
      .jobs, .radio, .flow, .splice, .fault, .free, .out] fs₀ = true) : Does fs₀ s₀ t₀ := by
  refine h₀.trans ?_ hf₀
  clear h₀ hf₀
  unfold execTimeMessage at e₀
  (try dsimp only at e₀)
  first
  | cases e₀
  | ((repeat' split at e₀) <;> cases e₀)
  all_goals repeat'
    first
    | with_reducible exact Does.refl _ _
    | decide
    | with_reducible apply recvMsg_does
    | split

theorem execArmMessage_does {fs₀ s₀ l m s t₀} (h₀ : Does fs₀ s₀ s) (e₀ : execArmMessage l m s = .next t₀)
    (hf₀ : Fld.within [.regs, .time, .pairs, .funcs, .flights, .mem, .tiles, .reels, .loaded, .chains, .items, .windows,
      .jobs, .radio, .flow, .splice, .fault, .free, .out] fs₀ = true) : Does fs₀ s₀ t₀ := by
  refine h₀.trans ?_ hf₀
  clear h₀ hf₀
  unfold execArmMessage at e₀
  (try dsimp only at e₀)
  first
  | cases e₀
  | ((repeat' split at e₀) <;> cases e₀)
  all_goals repeat'
    first
    | with_reducible exact Does.refl _ _
    | decide
    | with_reducible apply recvMsg_does
    | split

theorem execAckMessage_does {fs₀ s₀ l m s t₀} (h₀ : Does fs₀ s₀ s) (e₀ : execAckMessage l m s = .next t₀)
    (hf₀ : Fld.within [.regs, .time, .pairs, .funcs, .flights, .mem, .tiles, .reels, .loaded, .chains, .items, .windows,
      .jobs, .radio, .flow, .splice, .fault, .free, .out] fs₀ = true) : Does fs₀ s₀ t₀ := by
  refine h₀.trans ?_ hf₀
  clear h₀ hf₀
  unfold execAckMessage at e₀
  (try dsimp only at e₀)
  first
  | cases e₀
  | ((repeat' split at e₀) <;> cases e₀)
  all_goals repeat'
    first
    | with_reducible exact Does.refl _ _
    | decide
    | with_reducible apply recvMsg_does
    | split

theorem execBreakMessage_does {fs₀ s₀ l m s t₀} (h₀ : Does fs₀ s₀ s) (e₀ : execBreakMessage l m s = .next t₀)
    (hf₀ : Fld.within [.regs, .time, .pairs, .funcs, .flights, .mem, .tiles, .reels, .loaded, .chains, .items, .windows,
      .jobs, .radio, .flow, .splice, .fault, .free, .out] fs₀ = true) : Does fs₀ s₀ t₀ := by
  refine h₀.trans ?_ hf₀
  clear h₀ hf₀
  unfold execBreakMessage at e₀
  (try dsimp only at e₀)
  first
  | cases e₀
  | ((repeat' split at e₀) <;> cases e₀)
  all_goals repeat'
    first
    | with_reducible exact Does.refl _ _
    | decide
    | with_reducible apply recvMsg_does
    | split

theorem execArriveMessage_does {fs₀ s₀ l m s t₀} (h₀ : Does fs₀ s₀ s) (e₀ : execArriveMessage l m s = .next t₀)
    (hf₀ : Fld.within [.regs, .time, .pairs, .funcs, .flights, .mem, .tiles, .reels, .loaded, .chains, .items, .windows,
      .jobs, .radio, .flow, .splice, .fault, .free, .out] fs₀ = true) : Does fs₀ s₀ t₀ := by
  refine h₀.trans ?_ hf₀
  clear h₀ hf₀
  unfold execArriveMessage at e₀
  (try dsimp only at e₀)
  first
  | cases e₀
  | ((repeat' split at e₀) <;> cases e₀)
  all_goals repeat'
    first
    | with_reducible exact Does.refl _ _
    | decide
    | with_reducible apply recvMsg_does
    | split

theorem execReduceMessage_does {fs₀ s₀ l m s t₀} (h₀ : Does fs₀ s₀ s) (e₀ : execReduceMessage l m s = .next t₀)
    (hf₀ : Fld.within [.regs, .time, .pairs, .funcs, .flights, .mem, .tiles, .reels, .loaded, .chains, .items, .windows,
      .jobs, .radio, .flow, .splice, .fault, .free, .out] fs₀ = true) : Does fs₀ s₀ t₀ := by
  refine h₀.trans ?_ hf₀
  clear h₀ hf₀
  unfold execReduceMessage at e₀
  (try dsimp only at e₀)
  first
  | cases e₀
  | ((repeat' split at e₀) <;> cases e₀)
  all_goals repeat'
    first
    | with_reducible exact Does.refl _ _
    | decide
    | with_reducible apply recvMsg_does
    | split

theorem execBcastMessage_does {fs₀ s₀ l m s t₀} (h₀ : Does fs₀ s₀ s) (e₀ : execBcastMessage l m s = .next t₀)
    (hf₀ : Fld.within [.regs, .time, .pairs, .funcs, .flights, .mem, .tiles, .reels, .loaded, .chains, .items, .windows,
      .jobs, .radio, .flow, .splice, .fault, .free, .out] fs₀ = true) : Does fs₀ s₀ t₀ := by
  refine h₀.trans ?_ hf₀
  clear h₀ hf₀
  unfold execBcastMessage at e₀
  (try dsimp only at e₀)
  first
  | cases e₀
  | ((repeat' split at e₀) <;> cases e₀)
  all_goals repeat'
    first
    | with_reducible exact Does.refl _ _
    | decide
    | with_reducible apply recvMsg_does
    | split

theorem execDataMessage_does {fs₀ s₀ l m s t₀} (h₀ : Does fs₀ s₀ s) (e₀ : execDataMessage l m s = .next t₀)
    (hf₀ : Fld.within [.regs, .time, .pairs, .funcs, .flights, .mem, .tiles, .reels, .loaded, .chains, .items, .windows,
      .jobs, .radio, .flow, .splice, .fault, .free, .out] fs₀ = true) : Does fs₀ s₀ t₀ := by
  refine h₀.trans ?_ hf₀
  clear h₀ hf₀
  unfold execDataMessage at e₀
  (try dsimp only at e₀)
  first
  | cases e₀
  | ((repeat' split at e₀) <;> cases e₀)
  all_goals repeat'
    first
    | with_reducible exact Does.refl _ _
    | decide
    | with_reducible apply recvMsg_does
    | split

theorem execE2eGap_does {fs₀ s₀ src prio s t₀} (h₀ : Does fs₀ s₀ s) (e₀ : execE2eGap src prio s = .next t₀)
    (hf₀ : Fld.within [.regs, .clk, .time, .pairs, .funcs, .flights, .mem, .tiles, .reels, .loaded, .chains, .items,
      .windows, .jobs, .radio, .flow, .splice, .fault, .free, .out] fs₀ = true) : Does fs₀ s₀ t₀ := by
  refine h₀.trans ?_ hf₀
  clear h₀ hf₀
  unfold execE2eGap at e₀
  (try dsimp only at e₀)
  first
  | cases e₀
  | ((repeat' split at e₀) <;> cases e₀)
  all_goals repeat'
    first
    | with_reducible exact Does.refl _ _
    | decide
    | with_reducible apply deliverEarly_does
    | with_reducible apply setNextSeq_does
    | with_reducible apply runToClk_does
    | with_reducible apply bump_does
    | split

theorem execTimeExchangeSend_does {fs₀ s₀ s t₀} (h₀ : Does fs₀ s₀ s) (e₀ : execTimeExchangeSend s = .next t₀)
    (hf₀ : Fld.within [.regs, .mem, .splice, .free, .out] fs₀ = true) : Does fs₀ s₀ t₀ := by
  refine h₀.trans ?_ hf₀
  clear h₀ hf₀
  unfold execTimeExchangeSend at e₀
  (try dsimp only at e₀)
  first
  | cases e₀
  | ((repeat' split at e₀) <;> cases e₀)
  all_goals repeat'
    first
    | with_reducible exact Does.refl _ _
    | decide
    | with_reducible apply sendMsg_does
    | split

theorem execPathCorrection_does {fs₀ s₀ depth s t₀} (h₀ : Does fs₀ s₀ s) (e₀ : execPathCorrection depth s = .next t₀)
    (hf₀ : Fld.within [.regs, .funcs, .splice, .out] fs₀ = true) : Does fs₀ s₀ t₀ := by
  refine h₀.trans ?_ hf₀
  clear h₀ hf₀
  unfold execPathCorrection at e₀
  (try dsimp only at e₀)
  first
  | cases e₀
  | ((repeat' split at e₀) <;> cases e₀)
  all_goals repeat'
    first
    | with_reducible exact Does.refl _ _
    | decide
    | with_reducible apply raise_does
    | with_reducible apply wrf_does
    | split
    | ((with_reducible refine Does.upd ?_ ?_ ?_); (on_goal 2 => exact rfl); (on_goal 2 => (intro f hf; cases f <;> first | exact absurd (by decide) hf | dsimp only [sameFld])))

theorem execGroupJoin_does {fs₀ s₀ m child base size fanout locked lock s t₀} (h₀ : Does fs₀ s₀ s) (e₀ : execGroupJoin m child base size fanout locked lock s = .next t₀)
    (hf₀ : Fld.within [.regs, .pairs, .funcs, .flights, .mem, .tiles, .reels, .loaded, .jobs, .splice, .fault, .free,
      .out] fs₀ = true) : Does fs₀ s₀ t₀ := by
  refine h₀.trans ?_ hf₀
  clear h₀ hf₀
  unfold execGroupJoin at e₀
  (try dsimp only at e₀)
  first
  | cases e₀
  | ((repeat' split at e₀) <;> cases e₀)
  all_goals repeat'
    first
    | with_reducible exact Does.refl _ _
    | decide
    | with_reducible apply breakGroup_does
    | with_reducible apply breakSlate_does
    | with_reducible apply sendAll_does
    | with_reducible apply wrf_does
    | split

/-! ### Vector -/

theorem vecStep_does {fs₀ s₀ n t legal f s} (h₀ : Does fs₀ s₀ s) (hf₀ : Fld.within [.regs, .pairs, .funcs, .flights, .mem,
      .tiles, .reels, .loaded, .chains, .items, .windows, .jobs, .radio, .flow, .splice, .fault, .free, .out] fs₀ = true) :
    Does fs₀ s₀ (vecStep n t legal f s) := by
  refine h₀.trans ?_ hf₀
  clear h₀ hf₀
  unfold vecStep
  try dsimp only
  all_goals repeat'
    first
    | with_reducible exact Does.refl _ _
    | decide
    | with_reducible apply coreStep_does
    | with_reducible apply setTile_does
    | with_reducible assumption
    | (intro a b e h; (try dsimp only at e); (repeat' split at e); all_goals cases e)
    | split

theorem vecArith_does {fs₀ s₀ n t f g s} (h₀ : Does fs₀ s₀ s) (hf₀ : Fld.within [.regs, .pairs, .funcs, .flights, .mem,
      .tiles, .reels, .loaded, .chains, .items, .windows, .jobs, .radio, .flow, .splice, .fault, .free, .out] fs₀ = true) :
    Does fs₀ s₀ (vecArith n t f g s) := by
  refine h₀.trans ?_ hf₀
  clear h₀ hf₀
  unfold vecArith
  try dsimp only
  all_goals repeat'
    first
    | with_reducible exact Does.refl _ _
    | decide
    | with_reducible apply vecStep_does
    | split

theorem scatter_does {fs₀ s₀ n k x3 x4} (h₀ : Does fs₀ s₀ x4) (hf₀ : Fld.within [.mem] fs₀ = true) :
    Does fs₀ s₀ (scatter n k x3 x4) := by
  refine h₀.trans ?_ hf₀
  clear h₀ hf₀
  fun_induction scatter n k x3 x4
  all_goals try dsimp +zetaDelta only
  all_goals repeat'
    first
    | with_reducible exact Does.refl _ _
    | decide
    | with_reducible refine Does.trans ?_ (by assumption) ?_
    | with_reducible apply lsStore_does
    | split

theorem execVadd_does {fs₀ s₀ n t f s t₀} (h₀ : Does fs₀ s₀ s) (e₀ : execVadd n t f s = .next t₀)
    (hf₀ : Fld.within [.regs, .pairs, .funcs, .flights, .mem, .tiles, .reels, .loaded, .chains, .items, .windows, .jobs,
      .radio, .flow, .splice, .fault, .free, .out] fs₀ = true) : Does fs₀ s₀ t₀ := by
  refine h₀.trans ?_ hf₀
  clear h₀ hf₀
  unfold execVadd at e₀
  (try dsimp only at e₀)
  first
  | cases e₀
  | ((repeat' split at e₀) <;> cases e₀)
  all_goals repeat'
    first
    | with_reducible exact Does.refl _ _
    | decide
    | with_reducible apply vecArith_does
    | split

theorem execVmul_does {fs₀ s₀ n t f s t₀} (h₀ : Does fs₀ s₀ s) (e₀ : execVmul n t f s = .next t₀)
    (hf₀ : Fld.within [.regs, .pairs, .funcs, .flights, .mem, .tiles, .reels, .loaded, .chains, .items, .windows, .jobs,
      .radio, .flow, .splice, .fault, .free, .out] fs₀ = true) : Does fs₀ s₀ t₀ := by
  refine h₀.trans ?_ hf₀
  clear h₀ hf₀
  unfold execVmul at e₀
  (try dsimp only at e₀)
  first
  | cases e₀
  | ((repeat' split at e₀) <;> cases e₀)
  all_goals repeat'
    first
    | with_reducible exact Does.refl _ _
    | decide
    | with_reducible apply vecArith_does
    | split

theorem execVfma_does {fs₀ s₀ n t f s t₀} (h₀ : Does fs₀ s₀ s) (e₀ : execVfma n t f s = .next t₀)
    (hf₀ : Fld.within [.regs, .pairs, .funcs, .flights, .mem, .tiles, .reels, .loaded, .chains, .items, .windows, .jobs,
      .radio, .flow, .splice, .fault, .free, .out] fs₀ = true) : Does fs₀ s₀ t₀ := by
  refine h₀.trans ?_ hf₀
  clear h₀ hf₀
  unfold execVfma at e₀
  (try dsimp only at e₀)
  first
  | cases e₀
  | ((repeat' split at e₀) <;> cases e₀)
  all_goals repeat'
    first
    | with_reducible exact Does.refl _ _
    | decide
    | with_reducible apply vecArith_does
    | split

theorem execVmin_does {fs₀ s₀ n t f s t₀} (h₀ : Does fs₀ s₀ s) (e₀ : execVmin n t f s = .next t₀)
    (hf₀ : Fld.within [.regs, .pairs, .funcs, .flights, .mem, .tiles, .reels, .loaded, .chains, .items, .windows, .jobs,
      .radio, .flow, .splice, .fault, .free, .out] fs₀ = true) : Does fs₀ s₀ t₀ := by
  refine h₀.trans ?_ hf₀
  clear h₀ hf₀
  unfold execVmin at e₀
  (try dsimp only at e₀)
  first
  | cases e₀
  | ((repeat' split at e₀) <;> cases e₀)
  all_goals repeat'
    first
    | with_reducible exact Does.refl _ _
    | decide
    | with_reducible apply vecArith_does
    | split

theorem execVmax_does {fs₀ s₀ n t f s t₀} (h₀ : Does fs₀ s₀ s) (e₀ : execVmax n t f s = .next t₀)
    (hf₀ : Fld.within [.regs, .pairs, .funcs, .flights, .mem, .tiles, .reels, .loaded, .chains, .items, .windows, .jobs,
      .radio, .flow, .splice, .fault, .free, .out] fs₀ = true) : Does fs₀ s₀ t₀ := by
  refine h₀.trans ?_ hf₀
  clear h₀ hf₀
  unfold execVmax at e₀
  (try dsimp only at e₀)
  first
  | cases e₀
  | ((repeat' split at e₀) <;> cases e₀)
  all_goals repeat'
    first
    | with_reducible exact Does.refl _ _
    | decide
    | with_reducible apply vecArith_does
    | split

theorem execVcmp_does {fs₀ s₀ n t f s t₀} (h₀ : Does fs₀ s₀ s) (e₀ : execVcmp n t f s = .next t₀)
    (hf₀ : Fld.within [.regs, .pairs, .funcs, .flights, .mem, .tiles, .reels, .loaded, .chains, .items, .windows, .jobs,
      .radio, .flow, .splice, .fault, .free, .out] fs₀ = true) : Does fs₀ s₀ t₀ := by
  refine h₀.trans ?_ hf₀
  clear h₀ hf₀
  unfold execVcmp at e₀
  (try dsimp only at e₀)
  first
  | cases e₀
  | ((repeat' split at e₀) <;> cases e₀)
  all_goals repeat'
    first
    | with_reducible exact Does.refl _ _
    | decide
    | with_reducible apply vecStep_does
    | split

theorem execVsel_does {fs₀ s₀ n t f s t₀} (h₀ : Does fs₀ s₀ s) (e₀ : execVsel n t f s = .next t₀)
    (hf₀ : Fld.within [.regs, .pairs, .funcs, .flights, .mem, .tiles, .reels, .loaded, .chains, .items, .windows, .jobs,
      .radio, .flow, .splice, .fault, .free, .out] fs₀ = true) : Does fs₀ s₀ t₀ := by
  refine h₀.trans ?_ hf₀
  clear h₀ hf₀
  unfold execVsel at e₀
  (try dsimp only at e₀)
  first
  | cases e₀
  | ((repeat' split at e₀) <;> cases e₀)
  all_goals repeat'
    first
    | with_reducible exact Does.refl _ _
    | decide
    | with_reducible apply vecStep_does
    | split

theorem execVld_does {fs₀ s₀ n t f s t₀} (h₀ : Does fs₀ s₀ s) (e₀ : execVld n t f s = .next t₀)
    (hf₀ : Fld.within [.regs, .pairs, .funcs, .flights, .mem, .tiles, .reels, .loaded, .chains, .items, .windows, .jobs,
      .radio, .flow, .splice, .fault, .free, .out] fs₀ = true) : Does fs₀ s₀ t₀ := by
  refine h₀.trans ?_ hf₀
  clear h₀ hf₀
  unfold execVld at e₀
  (try dsimp only at e₀)
  first
  | cases e₀
  | ((repeat' split at e₀) <;> cases e₀)
  all_goals repeat'
    first
    | with_reducible exact Does.refl _ _
    | decide
    | with_reducible apply coreStep_does
    | with_reducible apply bankStall_does
    | with_reducible apply setTile_does
    | with_reducible assumption
    | (intro a b e h; (try dsimp only at e); (repeat' split at e); all_goals cases e)
    | split

theorem execVst_does {fs₀ s₀ n t f s t₀} (h₀ : Does fs₀ s₀ s) (e₀ : execVst n t f s = .next t₀)
    (hf₀ : Fld.within [.regs, .pairs, .funcs, .flights, .mem, .tiles, .reels, .loaded, .chains, .items, .windows, .jobs,
      .radio, .flow, .splice, .fault, .free, .out] fs₀ = true) : Does fs₀ s₀ t₀ := by
  refine h₀.trans ?_ hf₀
  clear h₀ hf₀
  unfold execVst at e₀
  (try dsimp only at e₀)
  first
  | cases e₀
  | ((repeat' split at e₀) <;> cases e₀)
  all_goals repeat'
    first
    | with_reducible exact Does.refl _ _
    | decide
    | with_reducible apply coreStep_does
    | with_reducible apply bankStall_does
    | with_reducible apply memPut_does
    | with_reducible assumption
    | (intro a b e h; (try dsimp only at e); (repeat' split at e); all_goals cases e)
    | split

theorem execVgth_does {fs₀ s₀ n t f s t₀} (h₀ : Does fs₀ s₀ s) (e₀ : execVgth n t f s = .next t₀)
    (hf₀ : Fld.within [.regs, .pairs, .funcs, .flights, .mem, .tiles, .reels, .loaded, .chains, .items, .windows, .jobs,
      .radio, .flow, .splice, .fault, .free, .out] fs₀ = true) : Does fs₀ s₀ t₀ := by
  refine h₀.trans ?_ hf₀
  clear h₀ hf₀
  unfold execVgth at e₀
  (try dsimp only at e₀)
  first
  | cases e₀
  | ((repeat' split at e₀) <;> cases e₀)
  all_goals repeat'
    first
    | with_reducible exact Does.refl _ _
    | decide
    | with_reducible apply coreStep_does
    | with_reducible apply bankStall_does
    | with_reducible apply setTile_does
    | with_reducible assumption
    | (intro a b e h; (try dsimp only at e); (repeat' split at e); all_goals cases e)
    | split

theorem execVsct_does {fs₀ s₀ n t f s t₀} (h₀ : Does fs₀ s₀ s) (e₀ : execVsct n t f s = .next t₀)
    (hf₀ : Fld.within [.regs, .pairs, .funcs, .flights, .mem, .tiles, .reels, .loaded, .chains, .items, .windows, .jobs,
      .radio, .flow, .splice, .fault, .free, .out] fs₀ = true) : Does fs₀ s₀ t₀ := by
  refine h₀.trans ?_ hf₀
  clear h₀ hf₀
  unfold execVsct at e₀
  (try dsimp only at e₀)
  first
  | cases e₀
  | ((repeat' split at e₀) <;> cases e₀)
  all_goals repeat'
    first
    | with_reducible exact Does.refl _ _
    | decide
    | with_reducible apply scatter_does
    | with_reducible apply coreStep_does
    | with_reducible apply bankStall_does
    | with_reducible assumption
    | (intro a b e h; (try dsimp only at e); (repeat' split at e); all_goals cases e)
    | split

theorem execVtree_does {fs₀ s₀ n t f s t₀} (h₀ : Does fs₀ s₀ s) (e₀ : execVtree n t f s = .next t₀)
    (hf₀ : Fld.within [.regs, .pairs, .funcs, .flights, .mem, .tiles, .reels, .loaded, .chains, .items, .windows, .jobs,
      .radio, .flow, .splice, .fault, .free, .out] fs₀ = true) : Does fs₀ s₀ t₀ := by
  refine h₀.trans ?_ hf₀
  clear h₀ hf₀
  unfold execVtree at e₀
  (try dsimp only at e₀)
  first
  | cases e₀
  | ((repeat' split at e₀) <;> cases e₀)
  all_goals repeat'
    first
    | with_reducible exact Does.refl _ _
    | decide
    | with_reducible apply coreStep_does
    | with_reducible apply setThread_does
    | with_reducible apply setTile_does
    | with_reducible apply useFree_does
    | with_reducible assumption
    | (intro a b e h; (try dsimp only at e); (repeat' split at e); all_goals cases e)
    | split

theorem execRufeed_does {fs₀ s₀ n t f s t₀} (h₀ : Does fs₀ s₀ s) (e₀ : execRufeed n t f s = .next t₀)
    (hf₀ : Fld.within [.regs, .pairs, .funcs, .flights, .mem, .tiles, .reels, .loaded, .chains, .items, .windows, .jobs,
      .radio, .flow, .splice, .fault, .free, .out] fs₀ = true) : Does fs₀ s₀ t₀ := by
  refine h₀.trans ?_ hf₀
  clear h₀ hf₀
  unfold execRufeed at e₀
  (try dsimp only at e₀)
  first
  | cases e₀
  | ((repeat' split at e₀) <;> cases e₀)
  all_goals repeat'
    first
    | with_reducible exact Does.refl _ _
    | decide
    | with_reducible apply coreStep_does
    | with_reducible apply bankStall_does
    | with_reducible apply setTile_does
    | with_reducible apply raise_does
    | with_reducible assumption
    | (intro a b e h; (try dsimp only at e); (repeat' split at e); all_goals cases e)
    | split
    | ((with_reducible refine Does.upd ?_ ?_ ?_); (on_goal 2 => exact rfl); (on_goal 2 => (intro f hf; cases f <;> first | exact absurd (by decide) hf | dsimp only [sameFld])))

theorem execRuread_does {fs₀ s₀ n t f s t₀} (h₀ : Does fs₀ s₀ s) (e₀ : execRuread n t f s = .next t₀)
    (hf₀ : Fld.within [.regs, .pairs, .funcs, .flights, .mem, .tiles, .reels, .loaded, .chains, .items, .windows, .jobs,
      .radio, .flow, .splice, .fault, .free, .out] fs₀ = true) : Does fs₀ s₀ t₀ := by
  refine h₀.trans ?_ hf₀
  clear h₀ hf₀
  unfold execRuread at e₀
  (try dsimp only at e₀)
  first
  | cases e₀
  | ((repeat' split at e₀) <;> cases e₀)
  all_goals repeat'
    first
    | with_reducible exact Does.refl _ _
    | decide
    | with_reducible apply coreStep_does
    | with_reducible apply bankStall_does
    | with_reducible apply setTile_does
    | with_reducible apply memPut_does
    | with_reducible assumption
    | (intro a b e h; (try dsimp only at e); (repeat' split at e); all_goals cases e)
    | split
    | ((with_reducible refine Does.upd ?_ ?_ ?_); (on_goal 2 => exact rfl); (on_goal 2 => (intro f hf; cases f <;> first | exact absurd (by decide) hf | dsimp only [sameFld])))

end Sys2Proof.Machine
end

