-- ==== Sys2Proof/Tests/Slice0.lean ====
section
/-! SUPPORT. Tests: ill-formed commands that WellFormed refuses, worked examples of the spec, and for every statement about states
of some kind a state that meets its hypotheses. -/

set_option Elab.async false
set_option maxRecDepth 100000

open Sys2Proof Sys2Proof.Machine

namespace Sys2Proof.Test

/-- A descriptor of an opcode and class, with OPW words; `flags` holds bits [31:16]. -/
def desc (op cls flags addr0 len0 len1 addr1 : Nat) (opw : List Nat) : BitVec 512 :=
  BitVec.ofNat 512 (op + 2 ^ 8 * cls + 2 ^ 16 * flags + 2 ^ 32 * 0x55 + 2 ^ 64 * addr0 + 2 ^ 128 * len0 + 2 ^ 160 * len1 +
    2 ^ 192 * addr1 + 2 ^ 256 * opw.foldr (fun w a => w + 2 ^ 32 * a) 0)

/-- Registers of a locked device whose pair 2 is an enabled submission pair of 64 entries that admits every class, in LOCKED
time. -/
def regs : List (Nat × Word) := [(8, 1), (pairReg 2 0x10, 0x3F000631), (0x20004, 0xB)]

/-- Descriptor `d` consumed at index 0 of pair 2 of such a device. -/
def flying (d : BitVec 512) : State :=
  { State.reset with regs := regs, pairs := [(2, { live := true, reserved := 1 })], funcs := [(0, { bme := true })],
                     flights := [⟨⟨2, 0⟩, d, false⟩] }

/-- Its reference. -/
abbrev ref : DRef := ⟨2, 0⟩

/-- A step of a chain: the step of role 0 at symbol 0. -/
def stp (chain : Nat) : StepEnt :=
  { role := 0, chain, entry := 0, symbol := 0, last := true, offset := 0, check := 0, deadline := 500000 }

/-- An image of a kind with some steps. -/
def img (kind : Nat) (steps : List StepEnt) : Image :=
  { kind, tool := 0, abi := 0, roles := 1, standbyOk := false, overlap := 4, lsBytes := 0, poolBytes := 0, reels := 0, buffers := 0,
    fMin := 0, hbmMin := 0, code := [(0, [1, 2])], codeSu := none, masktab := [], buftab := [], reeltab := [], reloc := [], steps,
    windows := [], raw := [] }

/-- The active sheet 7 with chains of kinds 0, 2 and 3 on grid 0. -/
def sheet : Loaded :=
  { num := 1, id := 7, part := 0, img := img 1 [stp 0, stp 8, stp 12], state := .active, tiles := [0], reels := [], c1 := false,
    copy := [], hbmShare := 0, token := none }

/-- GRID 0, SFN 661, SLOT 0: the frame that begins 10 ms after the time of `armed`. -/
abbrev slotW : Nat := 4 * 661

/-- A PHY descriptor before its slot. -/
def armed (d : BitVec 512) : State :=
  { flying d with regs := (0x20080, 1) :: regs, loaded := [sheet],
                  time := { TimeS.reset with counter := ⟨1000000000, 0, 0, 0⟩, running := 1 } }

/-- A body without PDUs. -/
def tti : FapiBody := { lengthOk := true, sfn := 661, slot := 0, pdus := [] }
/-- A PDSCH PDU, and a PUSCH PDU of one code block. -/
def pdschPdu : FapiPdu :=
  { fieldsOk := true, beam := false, handle := 1, mu := 0, extendedCp := false, bwpStart := 0, bwpSize := 0, chan := .pdsch 1 2 2 }
def puschPdu : FapiPdu :=
  { pdschPdu with chan := .pusch { dfts := false, layers := 1, qm := 2, dmrs := 4, dmrsExtra := 0, typeB := false, reps := 1, uci := false, rnti := 1, harq := 0, newData := true, codeBlocks := 1, graph2 := false, lift := 2, filler := 0, tbBytes := 1, alloc := [] } }

/-- An armed downlink chain of that slot. -/
def dlChain : Chain :=
  { ref := ⟨2, 9⟩, image := 1, grid := 0, sfn := 661, slot := 0, chain := 8, steps := [], t0 := 0, deadline := 0, fired := false,
    pdus := [pdschPdu], bound := [], pack := none, rushes := false, got := {}, ended := false }

/-- A running thread with some registers. -/
def thread0 : Thread :=
  { run := .running, pc := 5, d := [(1, 0x7FFFFFF0), (2, 0x12345), (14, 9)], h := [(0, 16), (1, 64), (5, 96)], loops := [⟨1, 20, 3⟩],
    calls := [9] }

/-- A device whose thread C0 of tile 0 is as given. -/
def coreWith (y : Thread) : State := { State.reset with tiles := [(0, { c0 := y })] }
abbrev core0 : State := coreWith thread0
/-- A matrix instruction on array A0 with head H0 and its parameters in D1. -/
abbrev mat (opnd : BitVec 14) : MatF := ⟨false, 1, 0, 1, opnd, 0⟩
/-- A tile whose array A0 holds INT8 weights of 3 in rows 0 and 1 and whose C0 runs. -/
def matTile : Tile :=
  { a0 := { slot0 := { weights := tabSetMany (fun _ => 0) [] 0 (List.replicate 128 3) } },
    c0 := { thread0 with d := [(1, 2)], h := [] } }
/-- Its device, with inputs of 5 at address 0. -/
def matState : State :=
  { State.reset with tiles := [(0, matTile)],
                     mem := { MemS.reset with bytes := tabSetMany memDefault [] (lsAddr 0) (List.replicate 64 5) } }

/-- A device with vectors V1 and V2, offsets of 4 per lane in V4 and a mask M2 of the even lanes. -/
def vecState : State :=
  { State.reset with tiles := [(0, { c0 := thread0, v := [(1, ofLanes ((List.range 64).map fun i => BitVec.ofNat 32 (i * 0x04010203))),
      (2, ofLanes ((List.range 64).map fun i => BitVec.ofNat 32 (0xFFFFFF00 + i))),
      (4, ofLanes ((List.range 64).map fun i => BitVec.ofNat 32 (4 * i)))], m := [(2, 0x5555555555555555)] })] }

/-- One whose thread C1 runs. -/
abbrev core1 : State := { State.reset with tiles := [(0, { c1 := thread0 })] }

/-- The chain of `dlChain` with a step that runs on tile 0. -/
def chain9 : Chain := { dlChain with steps := [⟨{ stp 8 with last := false }, 0, 0, 0, .running, none, []⟩] }
/-- A device 10 ms before the frame of `slotW`. -/
def cueState : State := { State.reset with time := { TimeS.reset with counter := ⟨1000000000, 0, 0, 0⟩ } }
/-- A device whose C0 of tile 0 runs an image with an aperture of 4 KiB at 0x1000. -/
def atomState : State :=
  { core0 with loaded := [{ sheet with num := 0, img := { sheet.img with buftab := [⟨0x1000, 0x1000, 0, 0⟩] } }] }

/-- What the code of a step reports that has nothing to report. -/
def noResult : ChainResult :=
  { reads := [], blocks := [], meas := [], uci := [], srs := [], prach := [], staged := [] }

/-- A device whose C0 of tile 0 has a list of one COPY of 512 bytes at address 0, with some flags and a row length off by
`x`. -/
def dollyState (flags x : Nat) : State :=
  let reel := flags / 4 % 2
  let bs := leBytes 1 0 ++ leBytes 1 flags ++ leBytes 2 (3 * reel) ++ leBytes 4 0 ++ leBytes 6 ((1 - reel) * lsAddr 0) ++
    leBytes 6 (lsAddr 0 + 0x1000) ++ leBytes 4 (512 + x) ++ zeros 8
  { State.reset with tiles := [(0, { c0 := thread0, dolly := [⟨0, 0, 0, [], none, false, 0, .none⟩] })],
                     mem := { MemS.reset with bytes := tabSetMany memDefault [] (lsAddr 0) bs } }

/-- Streams of a codec engine of tile 0: 32 bytes to encode, 64 bytes to decode, and 128 in two transfers. -/
def encJob : DollyJob :=
  ⟨.encode, true, none, [], [⟨lsAddr 0, 0x1000, 32, 0⟩], ⟨lsAddr 0, 0x1000, 32, 0⟩, 0, 0, 1⟩
def decJob : DollyJob :=
  ⟨.decode, true, none, [], [⟨0x1000, lsAddr 0 + 0x1000, 64, 0⟩], ⟨0x1000, lsAddr 0 + 0x1000, 64, 0⟩, 0, 0, 1⟩
def decJob2 : DollyJob :=
  ⟨.decode, true, none, [], [⟨0x1000, lsAddr 0 + 0x1000, 64, 0⟩, ⟨0x1040, lsAddr 0 + 0x1040, 64, 0⟩], ⟨0x1000, lsAddr 0 + 0x1000, 128, 0⟩, 0, 0, 1⟩
def codecList (j : DollyJob) : DollyList := ⟨0, 0, 1, [j], none, true, 0, .none⟩
/-- An encoded block of zeros at 0x1000, or nothing there. -/
def codecBytes (on : Bool) : List Byte := if on then (codecEncode (List.replicate 64 0)).1 else []
/-- A device with such a stream, its block in the input queue of a pipeline, and some bytes at 0x1000. -/
def codecState (j : DollyJob) (bs : List Byte) (pipe : Nat) : State :=
  { State.reset with regs := [(hbmReg 0 8, 1)], tiles := [(0, { dolly := [codecList j] })],
                     mem := { MemS.reset with bytes := tabSetMany memDefault [] 0x1000 bs, codecIn := [(pipe, [⟨0, 0, 0, 0⟩])] } }

/-- Model 9, loaded in partition 1. -/
def model9 : Loaded :=
  { num := 2, id := 9, part := 1, img := img 2 [], state := .active, tiles := [0], reels := [], c1 := false, copy := [],
    hbmShare := 0, token := none }
/-- A file with one chunk of a byte. -/
def file0 : FileX :=
  { id := 0, func := 0, profile := 0, chunks := [(0, [7])], close := none, flow := none, queued := false, whole := false, last := 0 }
/-- A device with descriptor `d` in flight whose partition 1 scores with model 9. -/
def scoring (d : BitVec 512) : State :=
  { flying d with regs := [(0x30204, 2), (0x60400, 0x80009)] ++ regs, loaded := [model9] }
/-- An item of that model. -/
def item0 : Item :=
  { num := 0, src := .desc ⟨2, 7⟩, cls := 2, image := 2, part := 1, total := 1, done := 0, on := none, input := [], out := [],
    parkedAt := none, leaving := none, sagTold := false }
/-- One with an open file. -/
def filing (d : BitVec 512) : State :=
  { scoring d with flow := { (scoring d).flow with files := [file0] } }

/-- A container of a kind with sections of (type, bytes), role 0 each, and some header counts. -/
def container (kind : Nat) (sects : List (Nat × List Byte)) : List Byte :=
  let n := sects.length
  let offs := (List.range n).map fun k => 64 + 16 * n + ((sects.take k).map fun x => x.2.length).sum
  let dir := (sects.zip offs).flatMap fun x => leBytes 2 x.1.1 ++ leBytes 2 0 ++ leBytes 4 x.2 ++ leBytes 4 x.1.2.length ++ zeros 4
  let bs := leBytes 4 0x0C115EE7 ++ leBytes 1 kind ++ leBytes 1 1 ++ leBytes 2 n ++ leBytes 4 5 ++ leBytes 4 0x100 ++ leBytes 2 1 ++
    leBytes 1 0 ++ leBytes 1 1 ++ zeros 44 ++ dir ++ sects.flatMap (·.2)
  putAt bs 40 (leBytes 4 (crcAt bs 40))
/-- A model whose code is one HALT. -/
def model1 : List Byte := container 2 [(1, leBytes 4 0xE1000000)]
/-- A sheet with one downlink step of grid 0. -/
def sheet1 : List Byte :=
  container 1 [(1, leBytes 4 0xE1000000), (7, [0, 0, 0, 0, 16, 0, 0, 0] ++ zeros 16)]
def modelDesc : BitVec 512 := desc 0x50 5 1 0x1000 model1.length 0 0 [9, 1]
def sheetDesc : BitVec 512 := desc 0x52 5 1 0x1000 sheet1.length 0 0 [7]
/-- A pack 3 with its four sections. -/
def pack1 : List Byte :=
  let dir := [(1, 128, 0), (2, 128, 0), (3, 0, 144), (4, 0, 256)].flatMap fun (x : Nat × Nat × Nat) =>
    leBytes 2 x.1 ++ zeros 2 ++ leBytes 4 x.2.1 ++ leBytes 4 x.2.2 ++ zeros 4
  let bs := leBytes 4 0x0C119AC4 ++ [1, 4] ++ leBytes 2 3 ++ leBytes 4 5 ++ [1, 2, 1, 1] ++ zeros 48 ++ dir ++ zeros 128
  putAt bs 16 (leBytes 4 (crcAt bs 16))
def packDesc : BitVec 512 := desc 0x51 5 1 0x1000 pack1.length 0 0 [3]
/-- A device with descriptor `d` in flight, tile 0 in partition 1, and the pair of toolchain 5 and ABI 0 accepted. -/
def loading (d : BitVec 512) : State :=
  { flying d with regs := [(0x30204, 2), (0x30100, 0x11), (0xE0018, 0xFFFF0000)] ++ regs,
                  mgmt := { (flying d).mgmt with accepted := [(5, 0x100)] } }
def token0 : Token := { layer := 3, model := 9, serial := 1, buf := false, digest := 7 }
def resumeDesc : BitVec 512 :=
  let w := (tokenWord (some token0)).toNat
  desc 0x41 4 1 0x1000 2 0 0 [9, 0, 0, w % 2 ^ 32, 0, 0, 0, w / 2 ^ 32]
/-- A device whose partition 1 takes with model 9, and whose group 0 is this chip alone. -/
def taking (d : BitVec 512) : State :=
  { scoring d with regs := [(0x30204, 3), (0xB0400, 0x11), (0xB0408, 1)] ++ regs }

/-- The chain of `dlChain` with an armed step on tile 0, and a device that holds such a chain. -/
def chainA : Chain := { dlChain with steps := [⟨stp 8, 0, 0, 0, .armed, none, []⟩] }
def chained (c : Chain) : State := { State.reset with regs := regs, loaded := [sheet], chains := [c] }
/-- Model 9 with a C1 variant. -/
def model9su : Loaded := { model9 with img := { model9.img with codeSu := some [1, 2] } }
/-- A device whose PHY partition 0 has tile 2 and lends C1 to the score partition 1, which has tile 0 and model 9. -/
def sued : State :=
  { State.reset with regs := [(0x30200, 0x10101), (0x30204, 2), (0x30100, 0x11), (0x30108, 0x10)] ++ regs,
                     loaded := [model9su], items := [item0] }
/-- A window on array A0 of tile 2, before its release and before it opens. -/
def win0 : WinRun :=
  { tile := 2, ref := ⟨2, 9⟩, win := { role := 0, amask := 1, step := 0, release := 0, opens := 10, close := 100 }, cue := 0,
    released := false, loaded := 1, opened := 0, held := 0 }
def win1 : WinRun := { win0 with released := true }
/-- A device with that window and an item on C1 of tile 2. -/
def windowed (w : WinRun) : State :=
  { sued with loaded := [{ sheet with img := { sheet.img with windows := [w.win] } }, model9], chains := [dlChain],
              items := [{ item0 with on := some (2, 1) }], windows := [w] }

/-- A queued take of model 9 in partition 1, and a device with some jobs whose group 0 is this chip alone. -/
def job0 : Job :=
  { ref := ⟨2, 0⟩, image := 2, part := 1, running := false, layer := 0, layers := 1, every := 0, token := none, serial := 0,
    buf := false, ckpt := 0, retakes := 0, faultRef := 0, retaking := false, restoring := false, group := 0, start := 0,
    waiting := false, waitFrom := 0, slate := 0, colls := 0, arrived := false, det := 0, digest := false, lastDigest := 0,
    input := [], output := [], sagTold := false }
def jobbed (js : List Job) : State := { taking (desc 0x40 4 1 0 0 0 0 [9]) with jobs := js }
/-- Slate 5 of group 0. -/
def slate0 : Slate := { group := 0, id := 5, time := 2 ^ 42, acks := [], ref := none }

/-- A capture of grid 0 without streams. -/
def cap0 : Capture :=
  { ref := ⟨2, 0⟩, grid := 0, mask := 0, left := none, addr := 0x2000, dev := false, room := 100, written := 0 }
/-- A U-plane frame of eAxC ID 5, and a device whose port 0 is enabled with its link up. -/
def frame0 : FhFrame :=
  { fcsOk := true, length := 64, dst := 0, vlan := none, etherType := 0xAEFE, revision := 1, reservedZero := true, concat := false,
    payloadLenOk := true, ptp := .other 15, msg := .uplane 5 1 true false 1 0 0 0 0 0 [] }
def fhState : State := { State.reset with regs := [(0xD0000, 1), (0xD0100, 1)] ++ regs }

/-- A device whose line ports 0 and 1 are enabled with PASS set. -/
def lineState : State := { State.reset with regs := [(8, 1), (0x20004, 0xB), (0xC0000, 0x304)] }
/-- A frame of 60 bytes with a UDP packet from port 1000 of 10.0.0.1 to port 2000 of 10.0.0.2. -/
def frame4 : List Byte := (List.range 60).map fun k =>
  BitVec.ofNat 8 (0x02000000000102000000000208004500002e00000000401166bd0a0000010a00000203e807d0001a0000000000000000000000000000000000000000 / 2 ^ (8 * (59 - k)))
/-- Its packet. -/
def pkt4 : Pkt :=
  { vid := 0, ip := { v6 := false, src := mapped [10, 0, 0, 1], dst := mapped [10, 0, 0, 2], proto := 17, ttl := 64, tos := 0,
                      len := 46, frag := false, cutChain := false, trunc := false, off := 14, l4 := 34, stop := 60 },
    l4 := { sport := 1000, dport := 2000 }, tunnel := 0, tunnelId := 0, udp := none }
/-- The same device with its flow front running over a table of 1,024 records at 0 and a policy 0 of mode 2; the first record of the
packet's bucket has its key and state `n`. -/
def flowState (n : Nat) : State :=
  let s := { lineState with
    regs := [(8, 1), (0x20004, 0xB), (0x60000, 1), (0x60010, 10), (0x60200, 2), (0xC0000, 0x304), (0xE0000, 2)] }
  let r := pktKey pkt4 ++ leBytes 1 n
  { s with mem := { MemS.reset with bytes := tabSetMany memDefault [] (flowAddr s (8 * flowBucket s (pktKey pkt4))) r } }

/-- Blocks of the four kinds of job: a query against two references, a point on images of 16 by 16, a canvas of one pixel and a
sheet of one cell, and some bytes that they use. -/
def matchBlk : List Byte :=
  [1, 0, 0, 0, 1, 0, 0, 0, 2, 0, 0, 0, 0, 1] ++ zeros 10 ++ leBytes 6 (poolBase + 0x1000) ++ leBytes 6 (poolBase + 0x1100) ++
    leBytes 6 (poolBase + 0x1200) ++ leBytes 6 (poolBase + 0x1300) ++ zeros 16
def trackBlk : List Byte :=
  [2, 0, 1, 5, 1, 0, 0, 0, 16, 0, 16, 0, 16, 0, 0, 0] ++ leBytes 6 (poolBase + 0x1000) ++ leBytes 6 (poolBase + 0x1100) ++
    leBytes 6 (poolBase + 0x2000) ++ leBytes 6 (poolBase + 0x2100) ++ leBytes 4 1 ++ leBytes 6 (poolBase + 0x3000) ++ zeros 14
def composeBlk : List Byte :=
  [1, 5, 1, 0, 1, 0, 1, 0, 0, 0, 0, 0, 1, 0, 0, 0] ++ leBytes 6 (poolBase + 0x1000) ++ zeros 42 ++
    leBytes 6 (poolBase + 0x1100) ++ [3, 0, 1, 0, 1, 0, 0, 0, 0, 0, 1, 0, 0, 0, 255] ++ zeros 11
def contactBlk : List Byte :=
  [2, 5, 0, 0, 8, 0, 8, 0, 1, 0, 1, 0, 8, 0, 0, 0] ++ leBytes 6 (poolBase + 0x1000) ++ zeros 22 ++
    leBytes 6 (poolBase + 0x1200) ++ leBytes 6 (poolBase + 0x1300) ++ zeros 8
def jobBytes : List Byte := leBytes 6 (poolBase + 0x1100) ++ [1, 0, 1, 0, 1, 0, 0, 0, 1, 0]
/-- A device whose image 1 has a handle of job block `bs` on reel 4, for the engine of code `code`, and reel 5 for its end. -/
def jobState (code : Byte) (bs : List Byte) : State :=
  let m := tabSetMany memDefault (tabSetMany memDefault [] poolBase bs) (poolBase + 0x1200) jobBytes
  { State.reset with
    loaded := [{ sheet with img := { sheet.img with buftab := [⟨poolBase, 0x400, 0, 0⟩] }, reels := [4, 5] }],
    reels := [(4, { q := [{ h := 0, cls := 2 }], owner := some 1, engine := code }), (5, { owner := some 1, engine := 3 })],
    mem := { MemS.reset with bytes := m } }
/-- A job of such a block, from its start. -/
def jobOf (e : Engine) (bs : List Byte) : EngJob := engJobOf e 4 1 { h := 0, cls := 2 } poolBase bs false

/-- A device whose tile 0 is a member of a TAKE partition 1 in SERVICE mode, 5 ms after power-up. -/
def takeState : State :=
  { State.reset with clk := 5 * ticksMs, regs := [(8, 1), (0x30100, 0x11), (0x30204, 3)], tiles := [(0, { c0 := thread0 })] }
/-- A history of correctable events that a window holds, and one logged just now. -/
def burst : CeHist := { times := List.replicate 8 (5 * ticksMs), logged := none, run := false }
/-- A device under a sag warning whose supply has been good from power-up on. -/
def sagState : State :=
  let x : Tile := { stalled := true }
  { takeState with regs := [(8, 1), (0x30100, 0x11), (0x30204, 3), (gafferStatus, 1)], tiles := [(0, x)],
                   board := { BoardS.reset with aboveFrom := some 0 } }
/-- A device in reset, with a cause. -/
def downState : State :=
  { State.reset with board := { BoardS.reset with inReset := true }, hold := { Holdover.reset with cause := 3 } }

/-- Chip `c` of a group 0 of two chips, with link 3 UP that reaches both. -/
def spliceState (c : Nat) : State :=
  { State.reset with
    regs := [(8, 1), (0x20004, 0xB), (0xB0000, BitVec.ofNat 32 c), (linkReg 3 4, 3), (0xB0400, 0x21), (0xB0408, 2), (0xB8000, 0x2030203)] }
/-- The same with some more registers set. -/
def spliceWith (c : Nat) (l : List (Nat × Word)) : State := l.foldl (fun s x => wr x.1 x.2 s) (spliceState c)
/-- A message of group 0. -/
def splMsg (dst src kind tag : Nat) (payload : List Byte) : SMsg :=
  { dst := BitVec.ofNat 14 dst, src := BitVec.ofNat 14 src, kind := BitVec.ofNat 4 kind, coded := false, last := false, group := 0,
    seq := 0, tag := BitVec.ofNat 32 tag, payload }

/-- The line samples of a character with some stop level. -/
def charSamples (c : Byte) (stop : Bool) : List Bool :=
  List.replicate 16 false ++ (List.range 8).flatMap (fun k => List.replicate 16 (c.getLsbD k)) ++ List.replicate 16 stop
/-- A device with its UART enabled, and one in the recovery console with one character received. -/
def uartState : State := { State.reset with regs := [(0xE0080, 0x1000)] }
def recoveryState : State :=
  { State.reset with mgmt := { MgmtS.reset with mfw := none, recovery := true, uartRx := [0xA5] } }
/-- A frame with the right CRC. -/
def recFrame (typ offset : Nat) (bs : List Byte) : RecFrame :=
  let f : RecFrame := { typ := BitVec.ofNat 8 typ, len := BitVec.ofNat 16 bs.length, offset := BitVec.ofNat 32 offset, payload := bs, crc := 0 }
  { f with crc := BitVec.ofNat 32 (frameCrc f) }
/-- A DMC image without a body, as R425 lays it out. -/
def dmcImage : List Byte := leBytes 4 0x0C11B007 ++ [2, 1, 0, 0] ++ zeros 6 ++ leBytes 2 (Config.chipId.toNat / 65536) ++ zeros 336
/-- A recovery console that has received it. -/
def installState : State :=
  { recoveryState with mgmt := { recoveryState.mgmt with recBuf := tabSetMany (fun _ => 0) [] 0 dmcImage } }
/-- A device whose management endpoint has an EID, in a state of the update's state machine. -/
def eidState (st : Nat) (p : Option Pldm) : State := setPldm st p { State.reset with mgmt := { MgmtS.reset with eidSet := true } }
/-- One whose SPDM algorithms are agreed. -/
def spdmState : State :=
  { State.reset with mgmt := { MgmtS.reset with eidSet := true, spdmVersion := true, spdmCaps := true, spdmAlgs := true } }
def scanState : State := { downState with mgmt := { MgmtS.reset with scanHold := true } }

end Sys2Proof.Test

open Sys2Proof.Test

/-- A state whose files take every FILE_ID has none free. -/
theorem full_files (s : State) (h : s.flow.files = (List.range 1024).map fun k => { file0 with id := k }) : freeFile s = none := by
  refine List.find?_eq_none.2 fun k hk => ?_
  rw [List.mem_range] at hk
  simp only [fileOf, h, List.find?_map, Option.isNone_map, List.find?_isSome, Bool.not_eq_true, Option.isNone_eq_false_iff]
  exact ⟨k, List.mem_range.2 hk, by simp⟩

/-! ### Ill-formed commands, one for each check that can refuse one; the part has every tile, stack and slot number that the syntax
can name -/

theorem test_wf_tiles : ∀ n : TileIx, tileOk n = true := by decide
theorem test_wf_stacks : ∀ c : Fin 4, stackOk c = true := by decide
theorem test_wf_squash : ∀ k : Fin 5, squashOk k = true := by decide
theorem test_wf_bar : WellFormed (.rcRead 0x1000000 4) = false ∧ WellFormed (.rcRead 0xFFFFFC 4) = true := by decide
theorem test_wf_bar_size : WellFormed (.regWrite 0 65 0) = false ∧ WellFormed (.regWrite 0 0 0) = false := by decide
theorem test_wf_page : WellFormed (.sqDoorbell 0 256 0) = false ∧ WellFormed (.sqDoorbell 0 255 0) = true := by decide
theorem test_wf_page_off : WellFormed (.inertDoorbellWrite 0 0 4096 4) = false := by decide
theorem test_wf_record : WellFormed (.flowSweep (2 ^ 26)) = false ∧ WellFormed (.flowSweep (2 ^ 26 - 1)) = true := by decide
theorem test_wf_slot : WellFormed (.exactAliasRead (2 ^ 32)) = false := by decide
theorem test_wf_block : WellFormed (.codecBlockEncode 0 0 0 4097) = false ∧ WellFormed (.codecBlockEncode 0 0 0 0) = false := by decide
theorem test_wf_frame : WellFormed (.lineFrameReceive 0 (zeros 13) true) = false := by decide
theorem test_wf_payload : payloadOk (splMsg 0 1 7 0 (List.replicate 4113 0)) = false := by decide +kernel
theorem test_wf_vector : WellFormed (.msixUnmask 0 2048) = false := by decide
theorem test_wf_samples : WellFormed (.uartCharacter []) = false := by decide
theorem test_wf_part : partOk (List.replicate 1025 0) = false := by decide +kernel
theorem test_wf_frame_rec : recFrameOk { recFrame 1 0 [] with payload := List.replicate 1025 0 } = false := by decide +kernel
theorem test_wf_points : pointsOk (List.replicate 257 none) = false := by decide +kernel
theorem test_wf_blocks : blocksOk [0] [⟨0x1000, 257⟩] = false := by decide
theorem test_wf_marks : blocksOk [0, 1] [⟨0x1000, 256⟩] = false := by decide

/-! ### The table gives no command any bits -/

theorem test_decode_none : decodeTableWord 32 0x12345678 = none := rfl

/-! ### Code words, written out from the fields of their format (05 R148, R152) -/

/-- 000 00000 1 0011 0001 0010 0: ADD.S D3, D1, D2. -/
theorem test_code_add : decodeCode 0 0 0x00989000 = some (.add 0 0 ⟨true, 3, 1, 2, 0, 0⟩) := by decide
/-- 001 00000 0 0011 0001 5: ADDI D3, D1, 5. -/
theorem test_code_addi : decodeCode 0 0 0x20188005 = some (.addi 0 0 ⟨false, 3, 1, 5⟩) := by decide
/-- 010 00000 0 0011 010 01 0: LD.X D3 at H2, AM 1. -/
theorem test_code_ld : decodeCode 0 0 0x401A4000 = some (.ld 0 0 ⟨false, 3, 2, 1, 0, 0⟩) := by decide
/-- 011 01 001 00 −1: SETA S1, −1. -/
theorem test_code_seta : decodeCode 0 0 0x693FFFFF = some (.seta 0 0 .s 1 0x3FFFFF) := by decide
/-- 100 000 0011 0 6: BR.LT +6; 100 101 8 0: LOOPI 8, END 0. -/
theorem test_code_flow : decodeCode 0 0 0x80C00006 = some (.br 0 0 .lt false 6 0 0) ∧
    decodeCode 0 1 0x94001000 = some (.loopi 0 1 8 0) := by decide
/-- 101 001 0 0001 000 0001 0x20: MPASS on A0, D1. -/
theorem test_code_mpass : decodeCode 0 0 0xA4204020 = some (.mpass 0 0 ⟨false, 1, 0, 1, 0x20, 0⟩) := by decide
/-- 110 00100 0 00011 00001 00010 0 000 0 001: VADD V3, V1, V2, INT32. -/
theorem test_code_vadd : decodeCode 0 0 0xC40C2201 = some (.vadd 0 0 ⟨false, 3, 1, 2, false, 0, 1, 0⟩) := by decide
/-- 111 00101 0010 000 5: RPUSH reel 5, D2. -/
theorem test_code_rpush : decodeCode 0 0 0xE5100005 = some (.rpush 0 0 ⟨2, 0, 5⟩) := by decide
/-- OP 24 of F0 and COND 11 of BR are unlisted. -/
theorem test_code_unlisted : decodeCode 0 0 0x18000000 = none ∧ decodeCode 0 0 0x82C00000 = none := by decide

/-! ### Worked examples of the spec -/

/-- 02, SFN, slot and symbol from a TAI time: the cue of GRID 0, SFN 766, SLOT 15, SYMBOL 4, OFFSET 11,091. -/
theorem test_example_cue :
    bindCue (wr 0x20080 3 State.reset) 0 766 15 4 11091 (1780165694500000000 * 2 ^ 42) =
      1780165694507654320 * 2 ^ 42 + 0x2AAAAAAB * 2 ^ 10 := by decide +kernel
/-- 07, locating a byte. -/
theorem test_example_place : hbmPlace State.reset 0x12345600 = (3, 11, 0) := by decide +kernel
/-- 07, decoding a short block, with the CRC of its 32 bytes. -/
theorem test_example_block :
    let out : List Byte := zeros 10 ++ [0x80, 0x3F] ++ zeros 6 ++ [0x00, 0x3F, 0x40, 0xBF] ++ zeros 10
    codecDecode ([0x1F, 0x00, 0x10, 0x00, 0x01, 0xC7, 0x04, 0x00] ++ leBytes 4 (crc32 out) ++ zeros 4 ++
      [0x52, 0x47, 0x20, 0x01, 0, 0, 3] ++ zeros 9) = some out := by decide +kernel
/-- 11, matching two page descriptors: the tests and CONF of both queries. -/
theorem test_example_match :
    ratioOk 205 20 (some (1, 40)) = true ∧ matchConf (some (0, 20), some (1, 40)) = 127 ∧
      ratioOk 205 25 (some (2, 33)) = true ∧ matchConf (some (0, 25), some (2, 33)) = 61 := by decide
/-- 11, composing a page: the logo pixel over white. -/
theorem test_example_compose :
    overPx { layerOf [] 0 with key := true, solid := false, alpha := 255, kcb := 43, kcr := 21, tIn := 40, tOut := 120 }
      ⟨40, 200, 60, 255, false⟩ ⟨255, 255, 255, 255, false⟩ = ⟨148, 228, 158, 255, false⟩ := by decide +kernel
/-- 08, one uplink PRB: mantissas 0x1F3 and 0x0FF under exponent 3. -/
theorem test_example_expand : bfpExpand 3 (-13) = (-104, false) ∧ bfpExpand 3 255 = (2040, false) := by decide
/-- 13, one exact sum: the wire form of 1.0, 2^24 and −2^24. -/
theorem test_example_wire :
    exWire { value := 2 ^ 272 } = [0x22, 1, 1] ∧ exWire { value := 2 ^ 296 } = [0x25, 1, 1] ∧ exWire { value := -(2 ^ 296) } = [0x25, 1, 0xFF] := by decide +kernel

/-! ### States that meet the hypotheses of the statements -/

theorem test_StepRunsFrontCommand_1 :
    ∃ (c : Instr) (rest : List Instr) (s : State),
      s.pending = c :: rest :=
  ⟨.ledgerCommit, [.stretchEnd], { State.reset with pending := [.ledgerCommit, .stretchEnd] }, by decide +kernel⟩

theorem test_IdleStepAddsIncrement_1 :
    ∃ (s : State),
      s.pending = [] ∧
      s.time.counter.ns.toNat < 1000000000 :=
  ⟨State.reset, by decide +kernel⟩

theorem test_ManyTicksAreRepeatedTicks_1 :
    ∃ (s : State),
      s.time.counter.ns.toNat < 1000000000 :=
  ⟨State.reset, by decide +kernel⟩

theorem test_WriteBeforeLockStores_1 :
    ∃ (o : Nat) (v : Word) (s : State) (r : RegRow),
      hostDown s = false ∧
      locked s = false ∧
      o % 4 = 0 ∧
      regRow o = some r ∧
      tileBarred s o = false ∧
      r.w1s = 0 ∧
      r.wo = 0 ∧
      r.rwl ≠ 0 ∧
      checkWrite s o v (((rd s o &&& ~~~ r.rwl) ||| (v &&& r.rwl)) &&& ~~~ (v &&& r.w1c)) r = none :=
  ⟨0x20010, 0x0A, State.reset, (regRow 0x20010).getD { base := 0 }, by decide +kernel⟩

theorem test_WriteBeforeLockStores_2 :
    ∃ (o : Nat) (v : Word) (s : State) (r : RegRow) (k : Nat),
      hostDown s = false ∧
      locked s = false ∧
      o % 4 = 0 ∧
      regRow o = some r ∧
      tileBarred s o = false ∧
      r.w1s = 0 ∧
      r.wo = 0 ∧
      r.rwl ≠ 0 ∧
      checkWrite s o v (((rd s o &&& ~~~ r.rwl) ||| (v &&& r.rwl)) &&& ~~~ (v &&& r.w1c)) r = some k :=
  ⟨0x20020, 0, State.reset, (regRow 0x20020).getD { base := 0 }, 4, by decide +kernel⟩

theorem test_WriteBeforeLockStores_3 :
    ∃ (o : Nat) (v : Word) (s : State) (r : RegRow),
      hostDown s = false ∧
      o % 4 = 0 ∧
      regRow o = some r ∧
      tileBarred s o = false ∧
      r.w1s = 0 ∧
      r.wo = 0 ∧
      r.rwl = 0 ∧
      v &&& r.w1c ≠ 0 :=
  ⟨0x10008, 1, State.reset, (regRow 0x10008).getD { base := 0 }, by decide +kernel⟩

theorem test_WriteBeforeLockStores_4 :
    ∃ (o : Nat) (s : State),
      hostDown s = false ∧
      o % 8 = 0 :=
  ⟨0x20020, State.reset, by decide +kernel⟩

theorem test_WriteBeforeLockStores_5 :
    ∃ (o : Nat) (size : Nat) (s : State),
      hostDown s = false ∧
      (¬ (size = 4 ∧ o % 4 = 0)) ∧
      (¬ (size = 8 ∧ o % 8 = 0)) :=
  ⟨0x20022, 4, State.reset, by decide +kernel⟩

theorem test_WriteBeforeLockStores_6 :
    ∃ (o : Nat) (s : State),
      hostDown s = false ∧
      o % 4 = 0 ∧
      regRow o = none :=
  ⟨0x3FC, State.reset, by decide +kernel⟩

theorem test_WriteBeforeLockStores_7 :
    ∃ (o : Nat) (r : RegRow) (s : State),
      hostDown s = false ∧
      o % 4 = 0 ∧
      regRow o = some r ∧
      tileBarred s o = true :=
  ⟨0x200028, (regRow 0x200028).getD { base := 0 }, { State.reset with regs := [(0x200004, 1)] }, by decide +kernel⟩

theorem test_WriteAfterLockKeepsLockedFields_1 :
    ∃ (o : Nat) (s : State) (r : RegRow),
      hostDown s = false ∧
      locked s = true ∧
      o % 4 = 0 ∧
      regRow o = some r ∧
      tileBarred s o = false ∧
      r.w1s = 0 ∧
      r.wo = 0 ∧
      r.rwl ≠ 0 ∧
      r.w1c = 0 ∧
      o ∉ [0x10024, 0x10028, hostEvent, aerrCount] :=
  ⟨0x20010, { State.reset with regs := [(8, 1)] }, (regRow 0x20010).getD { base := 0 }, by decide +kernel⟩

theorem test_SetupLockFreezesAndChecksPairs_1 :
    ∃ (v : Word) (s : State),
      hostDown s = false ∧
      locked s = false ∧
      v.getLsbD 0 = true :=
  ⟨1, State.reset, by decide +kernel⟩

theorem test_SetupLockFreezesAndChecksPairs_2 :
    ∃ (v : Word) (s : State),
      (v.getLsbD 0 = false ∨ locked s = true) :=
  ⟨0, State.reset, by decide +kernel⟩

theorem test_RegisterReads_1 :
    ∃ (o : Nat) (s : State) (r : RegRow),
      hostDown s = false ∧
      o % 4 = 0 ∧
      o ≠ 0x20030 ∧
      regRow o = some r ∧
      tileBarred s o = false :=
  ⟨0x20004, State.reset, (regRow 0x20004).getD { base := 0 }, by decide +kernel⟩

theorem test_RegisterReads_2 :
    ∃ (s : State),
      hostDown s = false :=
  ⟨State.reset, by decide +kernel⟩

theorem test_RegisterReads_3 :
    ∃ (o : Nat) (s : State),
      hostDown s = false ∧
      (o % 4 ≠ 0 ∨ regRow o = none) :=
  ⟨0x20022, State.reset, by decide +kernel⟩

theorem test_RegisterReads_4 :
    ∃ (f : FuncIx) (off : Nat) (p : PairIx) (s : State),
      reachable s f = true ∧
      pagePair s f (off / 4096) = some p ∧
      off % 4 = 0 :=
  ⟨0, 8, 0, State.reset, by decide +kernel⟩

theorem test_RegisterReads_5 :
    ∃ (f : FuncIx) (off : Nat) (size : Nat) (p : PairIx) (s : State),
      reachable s f = true ∧
      pagePair s f (off / 4096) = some p ∧
      (¬ (size = 4 ∧ off % 4 = 0)) :=
  ⟨0, 9, 4, 0, State.reset, by decide +kernel⟩

theorem test_RegisterReads_6 :
    ∃ (f : FuncIx) (off : Nat) (s : State),
      reachable s f = true ∧
      pagePair s f (off / 4096) = none :=
  ⟨0, 0x100000, State.reset, by decide +kernel⟩

theorem test_HbmCommandsComplete_1 :
    ∃ (c : Fin 4) (v : Word) (s : State) (r : RegRow),
      hostDown s = false ∧
      locked s = false ∧
      regRow (hbmReg c 4) = some r ∧
      r.w1s = 0 ∧
      r.wo = 0 ∧
      r.rwl ≠ 0 ∧
      r.w1c = 0 ∧
      rdb s (hbmReg c 8) 1 = false ∧
      checkWrite s (hbmReg c 4) v ((rd s (hbmReg c 4) &&& ~~~ r.rwl) ||| (v &&& r.rwl)) r = none :=
  ⟨1, 1, State.reset, (regRow (hbmReg 1 4)).getD { base := 0 }, by decide +kernel⟩

theorem test_HbmCommandsComplete_2 :
    ∃ (c : Fin 4) (s : State),
      c.val < Config.nStacks ∧
      s.mem.heldReads = [] :=
  ⟨3, State.reset, by decide +kernel⟩

theorem test_HbmCommandsComplete_3 :
    ∃ (c : Fin 4) (r : HeldRead) (s : State),
      c.val < Config.nStacks ∧
      s.mem.heldReads = [r] ∧
      r.ok = true ∧
      r.retries = 0 ∧
      r.corrected = false ∧
      (hbmPlace s r.addr).1 = c.val ∧
      marginHolds s c r.addr = false ∧
      r.addr < hbmSize :=
  ⟨0, ⟨0, 64, 0, true, false, .none⟩, { State.reset with mem := { MemS.reset with heldReads := [⟨0, 64, 0, true, false, .none⟩] } }, by decide +kernel⟩

theorem test_HbmCommandsComplete_4 :
    ∃ (c : Fin 4) (v : Word) (s : State) (r : RegRow),
      hostDown s = false ∧
      regRow (hbmReg c 0x40) = some r ∧
      r.w1s = 0 ∧
      r.wo ≠ 0 ∧
      v.getLsbD 0 = true ∧
      locked s = false ∧
      rdb s (hbmReg c 8) 1 = false :=
  ⟨2, 1, State.reset, (regRow (hbmReg 2 0x40)).getD { base := 0 }, by decide +kernel⟩

theorem test_HbmCommandsComplete_5 :
    ∃ (c : Fin 4) (v : Word) (s : State) (r : RegRow),
      hostDown s = false ∧
      regRow (hbmReg c 0x40) = some r ∧
      r.w1s = 0 ∧
      r.wo ≠ 0 ∧
      v.getLsbD 0 = true ∧
      locked s = true :=
  ⟨2, 1, { State.reset with regs := [(8, 1)] }, (regRow (hbmReg 2 0x40)).getD { base := 0 }, by decide +kernel⟩

theorem test_HbmCommandsComplete_6 :
    ∃ (c : Fin 4) (s : State),
      rdb s (hbmReg c 8) 1 = true ∧
      s.mem.heldReads = [] :=
  ⟨0, { State.reset with regs := [(hbmReg 0 8, 2), (hbmReg 0 0x44, 0x80), (hbmReg 0 0x48, 0x101FE)] }, by decide +kernel⟩

theorem test_HbmCommandsComplete_7 :
    ∃ (c : Fin 4),
      c.val < Config.nStacks :=
  ⟨1, by decide +kernel⟩

theorem test_SqDoorbellAcceptance_1 :
    ∃ (f : FuncIx) (page : Nat) (val : Word) (p : PairIx) (s : State),
      reachable s f = true ∧
      locked s = true ∧
      pagePair s f page = some p ∧
      (pairOf s p).live = true ∧
      pairIsEvent s p = false ∧
      (sqProd s p - sqCons s p).toNat ≤ (val.setWidth 16 - sqCons s p).toNat ∧
      (val.setWidth 16 - sqCons s p).toNat ≤ sqDepth s p - 1 :=
  ⟨0, 2, 63, 2, { State.reset with regs := [(8, 1), (pairReg 2 0x10, 0x631)], pairs := [(2, { live := true })] }, by decide +kernel⟩

theorem test_SqDoorbellAcceptance_2 :
    ∃ (f : FuncIx) (page : Nat) (val : Word) (p : PairIx) (s : State),
      reachable s f = true ∧
      locked s = true ∧
      pagePair s f page = some p ∧
      ((pairOf s p).live = false ∨ pairIsEvent s p = true ∨ (val.setWidth 16 - sqCons s p).toNat < (sqProd s p - sqCons s p).toNat ∨ sqDepth s p - 1 < (val.setWidth 16 - sqCons s p).toNat) :=
  ⟨0, 2, 64, 2, { State.reset with regs := [(8, 1), (pairReg 2 0x10, 0x631)], pairs := [(2, { live := true })] }, by decide +kernel⟩

theorem test_SqDoorbellAcceptance_3 :
    ∃ (f : FuncIx) (page : Nat) (p : PairIx) (s : State),
      reachable s f = true ∧
      locked s = false ∧
      pagePair s f page = some p :=
  ⟨0, 2, 2, State.reset, by decide +kernel⟩

theorem test_SqDoorbellAcceptance_4 :
    ∃ (f : FuncIx) (page : Nat) (s : State),
      reachable s f = true ∧
      pagePair s f page = none :=
  ⟨0, 256, State.reset, by decide +kernel⟩

theorem test_CqDoorbellAndInertPages_1 :
    ∃ (f : FuncIx) (page : Nat) (val : Word) (p : PairIx) (s : State),
      reachable s f = true ∧
      locked s = true ∧
      pagePair s f page = some p ∧
      cqAccepts s p (val.setWidth 16) = true ∧
      val.getLsbD 31 = false :=
  ⟨0, 2, 0, 2, { State.reset with regs := [(8, 1), (pairReg 2 0x10, 0x631)], pairs := [(2, { live := true })] }, by decide +kernel⟩

theorem test_CqDoorbellAndInertPages_2 :
    ∃ (f : FuncIx) (page : Nat) (val : Word) (p : PairIx) (s : State),
      reachable s f = true ∧
      locked s = true ∧
      pagePair s f page = some p ∧
      cqAccepts s p (val.setWidth 16) = true ∧
      val.getLsbD 31 = true ∧
      cqProd s p = val.setWidth 16 ∧
      (pairOf s p).unsignalled = 0 :=
  ⟨0, 2, 0x80000000, 2, { State.reset with regs := [(8, 1), (pairReg 2 0x10, 0x631)], pairs := [(2, { live := true })] }, by decide +kernel⟩

theorem test_CqDoorbellAndInertPages_3 :
    ∃ (f : FuncIx) (page : Nat) (val : Word) (p : PairIx) (s : State),
      reachable s f = true ∧
      locked s = true ∧
      pagePair s f page = some p ∧
      cqAccepts s p (val.setWidth 16) = true ∧
      val.getLsbD 31 = true ∧
      cqProd s p ≠ val.setWidth 16 ∧
      rdb s (pairReg p 0x14) 16 = true ∧
      (funcOf s (pairFunc s p)).bme = true ∧
      (funcOf s (pairFunc s p)).unmasked.contains (rdf s (pairReg p 0x14) 10 0) = true :=
  ⟨0, 2, 0x80000000, 2, { State.reset with regs := [(8, 1), (pairReg 2 0x10, 0x631), (pairReg 2 0x14, 0x10007), (pairReg 2 0x28, 1)], pairs := [(2, { live := true })], funcs := [(0, { bme := true, unmasked := [7] })] }, by decide +kernel⟩

theorem test_CqDoorbellAndInertPages_4 :
    ∃ (f : FuncIx) (page : Nat) (val : Word) (p : PairIx) (s : State),
      reachable s f = true ∧
      locked s = true ∧
      pagePair s f page = some p ∧
      cqAccepts s p (val.setWidth 16) = false :=
  ⟨0, 2, 1, 2, { State.reset with regs := [(8, 1), (pairReg 2 0x10, 0x631)], pairs := [(2, { live := true })] }, by decide +kernel⟩

theorem test_CqDoorbellAndInertPages_5 :
    ∃ (f : FuncIx) (page : Nat) (s : State),
      reachable s f = true ∧
      pagePair s f page = none :=
  ⟨0, 256, State.reset, by decide +kernel⟩

theorem test_InterruptsAndMasks_1 :
    ∃ (p : PairIx) (s : State),
      rdf s (pairReg p 0x18) 31 16 ≠ 0 ∧
      (pairOf s p).armed = true ∧
      0 < (pairOf s p).unsignalled ∧
      rdb s (pairReg p 0x14) 16 = true ∧
      s.clk ≤ (pairOf s p).firstPending + rdf s (pairReg p 0x18) 31 16 * ticks100ns ∧
      (funcOf s (pairFunc s p)).bme = true :=
  ⟨2, { State.reset with regs := [(pairReg 2 0x14, 0x10007), (pairReg 2 0x18, 0x10000)], pairs := [(2, { armed := true, unsignalled := 1 })], funcs := [(0, { bme := true })] }, by decide +kernel⟩

theorem test_InterruptsAndMasks_2 :
    ∃ (f : FuncIx) (vec : Nat) (s : State),
      vec < msixSize s f ∧
      reachable s f = true ∧
      (funcOf s f).bme = true :=
  ⟨0, 7, { State.reset with funcs := [(0, { bme := true, pba := [7] })] }, by decide +kernel⟩

theorem test_FunctionStateChanges_1 :
    ∃ (f : FuncIx) (s : State),
      reachable s f = true ∧
      s.flights = [] :=
  ⟨0, State.reset, by decide +kernel⟩

theorem test_FunctionStateChanges_2 :
    ∃ (f : FuncIx) (s : State),
      (funcOf s f).inFlr = true :=
  ⟨3, { State.reset with funcs := [(3, { inFlr := true })] }, by decide +kernel⟩

theorem test_FunctionStateChanges_3 :
    ∃ (f : FuncIx) (s : State),
      (funcOf s f).bme = true :=
  ⟨3, { State.reset with funcs := [(3, { bme := true })] }, by decide +kernel⟩

theorem test_FunctionStateChanges_4 :
    ∃ (f : FuncIx) (l : List Output) (s : State),
      holdOver s f = false ∧
      (funcOf s f).held.map (·.out) = l.map .out ∧
      (l.any fun o => match o with | .msix _ _ => true | _ => false) = false ∧
      (∀ p ∈ funcPairs s f, (pairOf s p).waiting = []) :=
  ⟨0, [.pin 0 true], { State.reset with funcs := [(0, { held := [⟨2, .out (.pin 0 true)⟩] })] }, by decide +kernel⟩

theorem test_FunctionStateChanges_5 :
    ∃ (f : FuncIx) (g : FuncIx) (v : Nat) (p : Nat) (s : State),
      holdOver s f = false ∧
      (funcOf s f).held = [⟨p, .out (.msix g v)⟩] ∧
      (funcOf s g).unmasked.contains v = true ∧
      (∀ p ∈ funcPairs s f, (pairOf s p).waiting = []) :=
  ⟨0, 0, 7, 2, { State.reset with funcs := [(0, { held := [⟨2, .out (.msix 0 7)⟩], unmasked := [7] })] }, by decide +kernel⟩

theorem test_FunctionStateChanges_6 :
    ∃ (f : FuncIx) (g : FuncIx) (addr : Dword) (ph : Bool) (lost : Bool) (r : Rec) (p : Nat) (s : State),
      holdOver s f = false ∧
      (funcOf s f).held = [⟨p, .record g addr ph lost r⟩] ∧
      (∀ p ∈ funcPairs s f, (pairOf s p).waiting = []) :=
  ⟨0, 0, 0x1000, true, false, descRec ref 0 0 0, 2, { State.reset with funcs := [(0, { held := [⟨2, .record 0 0x1000 true false (descRec ref 0 0 0)⟩] })] }, by decide +kernel⟩

theorem test_FunctionStateChanges_7 :
    ∃ (f : FuncIx) (s : State),
      holdOver s f = true ∧
      s.flights = [] :=
  ⟨0, { State.reset with clk := ticksS, funcs := [(0, { held := [⟨2, .out (.pin 0 true)⟩] })] }, by decide +kernel⟩

theorem test_FunctionStateChanges_8 :
    ∃ (f : FuncIx) (s : State),
      (funcOf s f).bme = false ∧
      s.flights = [] :=
  ⟨0, { State.reset with funcs := [(0, { held := [⟨2, .out (.pin 0 true)⟩] })] }, by decide +kernel⟩

theorem test_FunctionStateChanges_9 :
    ∃ (f : FuncIx),
      f ≠ 0 :=
  ⟨5, by decide +kernel⟩

theorem test_FunctionStateChanges_10 :
    ∃ (f : FuncIx) (s : State),
      f ≠ 0 ∧
      (funcOf s f).enabled = true ∧
      s.flights = [] :=
  ⟨5, { State.reset with funcs := [(5, { enabled := true })] }, by decide +kernel⟩

theorem test_MemoryCommandsComplete_1 :
    ∃ (c : Fin 4) (addr : Nat) (s : State),
      addr < hbmSize ∧
      (hbmPlace s addr).1 = c.val ∧
      rdb s (hbmReg c 8) 0 = true ∧
      marginHolds s c addr = false :=
  ⟨0, 64, { State.reset with regs := [(hbmReg 0 8, 1)] }, by decide +kernel⟩

theorem test_MemoryCommandsComplete_2 :
    ∃ (c : Fin 4) (addr : Nat) (s : State),
      addr < hbmSize ∧
      (hbmPlace s addr).1 = c.val ∧
      rdb s (hbmReg c 8) 0 = true ∧
      marginHolds s c addr = false :=
  ⟨0, 64, { State.reset with regs := [(hbmReg 0 8, 1)] }, by decide +kernel⟩

theorem test_MemoryCommandsComplete_3 :
    ∃ (c : Fin 4) (addr : Nat) (s : State),
      addr < hbmSize ∧
      (hbmPlace s addr).1 = c.val ∧
      (rdb s (hbmReg c 8) 0 = false ∨ marginHolds s c addr = true) :=
  ⟨0, 64, State.reset, by decide +kernel⟩

theorem test_MemoryCommandsComplete_4 :
    ∃ (c : Fin 4) (channel : Fin 16) (e : WcEntry) (s : State),
      oldestEntry s c channel = some e ∧
      accessHeld s (64 * e.line) = false :=
  ⟨0, 0, ⟨0, 1, 5, 0⟩, { State.reset with regs := [(hbmReg 0 8, 1)], mem := { MemS.reset with wc := [⟨0, 1, 5, 0⟩] } }, by decide +kernel⟩

theorem test_MemoryCommandsComplete_5 :
    ∃ (c : Fin 4) (channel : Fin 16) (e : WcEntry) (s : State),
      oldestEntry s c channel = some e ∧
      accessHeld s (64 * e.line) = false :=
  ⟨0, 0, ⟨0, 1, 5, 0⟩, { State.reset with regs := [(hbmReg 0 8, 1)], mem := { MemS.reset with wc := [⟨0, 1, 5, 0⟩] } }, by decide +kernel⟩

theorem test_MemoryCommandsComplete_6 :
    ∃ (slot : Nat) (s : State),
      slot < slotCount s ∧
      s.mem.wc = [] :=
  ⟨1, { State.reset with regs := [(0xA0004, 100)] }, by decide +kernel⟩

theorem test_MemoryCommandsComplete_7 :
    ∃ (slot : Nat) (s : State),
      slot < slotCount s :=
  ⟨1, { State.reset with regs := [(0xA0004, 100)] }, by decide +kernel⟩

theorem test_FetchConsumesOneDescriptor_1 :
    ∃ (p : PairIx) (d : BitVec 512) (s : State),
      fetchNext s = some p.val ∧
      phaseOk s p d = true ∧
      (dFence d = true → fenceOpen s p = true) ∧
      (pairOf s p).horizon ≠ sqCons s p :=
  ⟨2, desc 0 5 1 0 0 0 0 [], { State.reset with regs := (pairReg 2 0x24, 1) :: regs, pairs := [(2, { live := true, horizon := 9 })], funcs := [(0, { bme := true })] }, by decide +kernel⟩

theorem test_FetchConsumesOneDescriptor_2 :
    ∃ (p : PairIx) (d : BitVec 512) (s : State),
      fetchNext s = some p.val ∧
      phaseOk s p d = true ∧
      (dFence d = true → fenceOpen s p = true) ∧
      (pairOf s p).horizon = sqCons s p :=
  ⟨2, desc 0 5 1 0 0 0 0 [], { State.reset with regs := (pairReg 2 0x24, 1) :: regs, pairs := [(2, { live := true })], funcs := [(0, { bme := true })] }, by decide +kernel⟩

theorem test_FetchConsumesOneDescriptor_3 :
    ∃ (p : PairIx) (d : BitVec 512) (s : State),
      fetchNext s = some p.val ∧
      phaseOk s p d = true ∧
      dFence d = true ∧
      fenceOpen s p = false :=
  ⟨2, desc 0 5 3 0 0 0 0 [], { State.reset with regs := (pairReg 2 0x24, 1) :: regs, pairs := [(2, { live := true })], funcs := [(0, { bme := true })], flights := [⟨⟨2, 9⟩, 0, false⟩] }, by decide +kernel⟩

theorem test_FetchConsumesOneDescriptor_4 :
    ∃ (p : PairIx) (d : BitVec 512) (s : State),
      fetchNext s = some p.val ∧
      phaseOk s p d = false :=
  ⟨2, desc 0 5 0 0 0 0 0 [], { State.reset with regs := (pairReg 2 0x24, 1) :: regs, pairs := [(2, { live := true })], funcs := [(0, { bme := true })] }, by decide +kernel⟩

theorem test_FetchConsumesOneDescriptor_5 :
    ∃ (p : PairIx) (d : BitVec 512) (s : State),
      mayFetch s p = true ∧
      1 ≤ (pairOf s p).retries ∧
      phaseOk s p d = true ∧
      (dFence d = true → fenceOpen s p = true) ∧
      (pairOf s p).horizon ≠ sqCons s p :=
  ⟨2, desc 0 5 1 0 0 0 0 [], { State.reset with regs := (pairReg 2 0x24, 1) :: regs, pairs := [(2, { live := true, horizon := 9, retries := 2 })], funcs := [(0, { bme := true })] }, by decide +kernel⟩

theorem test_FetchConsumesOneDescriptor_6 :
    ∃ (p : PairIx) (d : BitVec 512) (s : State),
      mayFetch s p = true ∧
      1 ≤ (pairOf s p).retries ∧
      (pairOf s p).retries < 4 ∧
      phaseOk s p d = false :=
  ⟨2, desc 0 5 0 0 0 0 0 [], { State.reset with regs := (pairReg 2 0x24, 1) :: regs, pairs := [(2, { live := true, retries := 3 })], funcs := [(0, { bme := true })] }, by decide +kernel⟩

theorem test_FetchConsumesOneDescriptor_7 :
    ∃ (p : PairIx) (d : BitVec 512) (s : State),
      mayFetch s p = true ∧
      4 ≤ (pairOf s p).retries ∧
      phaseOk s p d = false :=
  ⟨2, desc 0 5 0 0 0 0 0 [], { State.reset with regs := (pairReg 2 0x24, 1) :: regs, pairs := [(2, { live := true, retries := 4 })], funcs := [(0, { bme := true })] }, by decide +kernel⟩

theorem test_FetchConsumesOneDescriptor_8 :
    ∃ (p : PairIx) (s : State),
      (fetchNext s = some p.val ∨ (mayFetch s p = true ∧ 1 ≤ (pairOf s p).retries)) :=
  ⟨2, { State.reset with regs := (pairReg 2 0x24, 1) :: regs, pairs := [(2, { live := true })], funcs := [(0, { bme := true })] }, by decide +kernel⟩

theorem test_FetchConsumesOneDescriptor_9 :
    ∃ (p : PairIx) (q : PairIx) (s : State),
      wantsFetch s p = true ∧
      phyOnly s p = true ∧
      phyOnly s q = false :=
  ⟨2, 3, { State.reset with regs := [(8, 1), (pairReg 2 0x10, 0x1000631), (pairReg 2 0x24, 1)], pairs := [(2, { live := true })], funcs := [(0, { bme := true })] }, by decide +kernel⟩

theorem test_FinalRecordWritten_1 :
    ∃ (r : DRef) (d : BitVec 512) (s : State),
      Ready s r d 0 {} ∧
      (funcOf s (pairFunc s r.pair)).bme = true ∧
      (pairOf s r.pair).waiting = [] :=
  ⟨ref, desc 0 5 1 0 0 0 0 [], flying (desc 0 5 1 0 0 0 0 []), by decide +kernel⟩

theorem test_FinalRecordWritten_2 :
    ∃ (s : State),
      holdoverExpired s = true :=
  ⟨{ State.reset with regs := [(0x20004, 0x20)] }, by decide +kernel⟩

theorem test_FinalRecordWritten_3 :
    ∃ (timeDep : Bool) (s : State),
      (timeDep = false ∨ holdoverExpired s = false) :=
  ⟨true, State.reset, by decide +kernel⟩

theorem test_DescriptorChecksInOrder_1 :
    ∃ (s : State) (p : Nat) (d : BitVec 512),
      (5 < dClass d ∨ (classMask s p).testBit (dClass d) = false) :=
  ⟨State.reset, 2, desc 0 6 1 0 0 0 0 [], by decide +kernel⟩

theorem test_DescriptorChecksInOrder_2 :
    ∃ (s : State) (p : Nat) (d : BitVec 512),
      dClass d ≤ 5 ∧
      (classMask s p).testBit (dClass d) = true ∧
      opClasses (dOpcode d) = none :=
  ⟨flying 0, 2, desc 0x60 5 1 0 0 0 0 [], by decide +kernel⟩

theorem test_DescriptorChecksInOrder_3 :
    ∃ (s : State) (p : Nat) (m : Nat) (d : BitVec 512),
      dClass d ≤ 5 ∧
      (classMask s p).testBit (dClass d) = true ∧
      opClasses (dOpcode d) = some m :=
  ⟨flying 0, 2, 0x3F, desc 0 5 1 0 0 0 0 [], by decide +kernel⟩

theorem test_DescriptorChecksInOrder_4 :
    ∃ (r : DRef) (op : Nat) (st : Nat) (o : State → BitVec 512 → OpRules) (s : State) (d : BitVec 512),
      flightOf s r = some ⟨r, d, false⟩ ∧
      dOpcode d = op ∧
      maintTurn s ⟨r, d, false⟩ = true ∧
      preCheck s r.pair d (o s d) = some st :=
  ⟨ref, 0, 0x13, fun _ _ => {}, flying (desc 0 6 1 0 0 0 0 []), desc 0 6 1 0 0 0 0 [], by decide +kernel⟩

theorem test_DescriptorChecksInOrder_5 :
    ∃ (r : DRef) (d : BitVec 512) (st : Nat) (s : State),
      flightOf s r = some ⟨r, d, false⟩ ∧
      classCheck s r.pair d = some st :=
  ⟨ref, desc 0x60 5 1 0 0 0 0 [], 0x12, flying (desc 0x60 5 1 0 0 0 0 []), by decide +kernel⟩

theorem test_MaintDescriptorsComplete_1 :
    ∃ (r : DRef) (d : BitVec 512) (s : State),
      Ready s r d 0x54 {} ∧
      dOpw d 0 = 0 ∧
      dBits d 352 160 = 0 ∧
      timeSrc s ≠ 0 ∧
      timeSrc s ≠ 3 ∧
      stepArmed s = false :=
  ⟨ref, desc 0x54 5 1 0 0 0 0 [], { flying (desc 0x54 5 1 0 0 0 0 []) with regs := (srcCfg, 1) :: regs }, by decide +kernel⟩

theorem test_MaintDescriptorsComplete_2 :
    ∃ (r : DRef) (d : BitVec 512) (s : State),
      Ready s r d 0x54 {} ∧
      dOpw d 0 = 1 ∧
      dBits d 352 160 = 0 ∧
      field (dOpw d 2) 31 16 = 0 ∧
      rdb s 0x200E0 1 = true ∧
      stepArmed s = false :=
  ⟨ref, desc 0x54 5 1 0 0 0 0 [1, 7, 1], { flying (desc 0x54 5 1 0 0 0 0 [1, 7, 1]) with regs := (0x200E0, 2) :: regs }, by decide +kernel⟩

theorem test_MaintDescriptorsComplete_3 :
    ∃ (r : DRef) (d : BitVec 512) (s : State),
      Ready s r d 0x55 {} ∧
      dOpw d 0 = 0 ∧
      dBits d 384 128 = 0 ∧
      dOpw d 1 = rd s 0xE0010 ∧
      dOpw d 2 = rd s 0xE0014 ∧
      dOpw d 3 = Config.chipId ∧
      inHold s = true ∧
      rdf s bootStatus 11 8 ≠ 0 ∧
      rdb s bootStatus 12 = false :=
  ⟨ref, desc 0x55 5 1 0 0 0 0 [0, 0, 0, 0x71640B00], { flying (desc 0x55 5 1 0 0 0 0 [0, 0, 0, 0x71640B00]) with regs := (bootStatus, 0x101) :: regs }, by decide +kernel⟩

theorem test_MaintDescriptorsComplete_4 :
    ∃ (r : DRef) (d : BitVec 512) (s : State),
      Ready s r d 0x55 {} ∧
      dOpw d 0 = 1 ∧
      dBits d 384 128 = 0 ∧
      dOpw d 3 = 0 ∧
      toolOk s (dOpw d 1) = false ∧
      (dOpw d 2 = 0 ∨ abiRuns s (dOpw d 2) = true) ∧
      s.mgmt.accepted.length < 8 :=
  ⟨ref, desc 0x55 5 1 0 0 0 0 [1, 5, 0, 0], flying (desc 0x55 5 1 0 0 0 0 [1, 5, 0, 0]), by decide +kernel⟩

theorem test_MaintDescriptorsComplete_5 :
    ∃ (r : DRef) (d : BitVec 512) (s : State),
      Ready s r d 0x53 {} ∧
      field (dOpw d 0) 31 16 = 0 ∧
      (dOpw d 1).toNat ≤ 1 ∧
      dBits d 320 192 = 0 ∧
      s.loaded.any (unloadIs ((dOpw d 1).getLsbD 0) (field (dOpw d 0) 15 0)) = true :=
  ⟨ref, desc 0x53 5 1 0 0 0 0 [7, 0], { flying (desc 0x53 5 1 0 0 0 0 [7, 0]) with loaded := [sheet] }, by decide +kernel⟩

theorem test_PhyRequestsArmChains_1 :
    ∃ (r : DRef) (d : BitVec 512) (b : FapiBody) (l : Loaded) (x : StepEnt) (s : State),
      Ready s r d 0x10 { in0 := true, out1 := true, timeDep := true, badLength := bodyLenBad d || decide (dLen1 d < if isPrach d then 16384 else 196608) } ∧
      slotCheck s d (ulReserved d) = none ∧
      namedSheet s d = some l ∧
      chainSteps l.img (4 * bnat (isPrach d) + slGrid d) ≠ [] ∧
      (dA0Dev d && devPoisoned s (dAddr0 d).toNat (dLen0 d)) = false ∧
      bodyBad s d (4 * bnat (isPrach d) + slGrid d) b = false ∧
      firstStep s (chainSteps l.img (4 * bnat (isPrach d) + slGrid d)) = some x ∧
      0 ≤ chainT0 s (slGrid d) (slSfn d) (slSlot d) x ∧
      mayArm s l (slGrid d) (firedKey (slGrid d) (slSfn d) (slSlot d) (4 * bnat (isPrach d) + slGrid d)) (chainT0 s (slGrid d) (slSfn d) (slSlot d) x).toNat (chainT0 s (slGrid d) (slSfn d) (slSlot d) x + stepCue s x) ((chainSteps l.img (4 * bnat (isPrach d) + slGrid d)).map fun y => (chainT0 s (slGrid d) (slSfn d) (slSlot d) x + stepCue s y.1).toNat) = true :=
  ⟨ref, desc 0x10 0 1 0x1000 64 196608 0x2000 [slotW, 7, 0, 0], tti, sheet, (sheet.img.steps.headD (stp 0)), armed (desc 0x10 0 1 0x1000 64 196608 0x2000 [slotW, 7, 0, 0]), by decide +kernel⟩

theorem test_PhyRequestsArmChains_2 :
    ∃ (r : DRef) (d : BitVec 512) (b : FapiBody) (l : Loaded) (x : StepEnt) (s : State),
      Ready s r d 0x11 { in0 := true, timeDep := true, badLength := bodyLenBad d } ∧
      slotCheck s d (dlReserved d) = none ∧
      namedSheet s d = some l ∧
      chainSteps l.img (8 + slGrid d) ≠ [] ∧
      (dA0Dev d && devPoisoned s (dAddr0 d).toNat (dLen0 d)) = false ∧
      bodyBad s d (8 + slGrid d) b = false ∧
      firstStep s (chainSteps l.img (8 + slGrid d)) = some x ∧
      0 ≤ chainT0 s (slGrid d) (slSfn d) (slSlot d) x ∧
      mayArm s l (slGrid d) (firedKey (slGrid d) (slSfn d) (slSlot d) (8 + slGrid d)) (chainT0 s (slGrid d) (slSfn d) (slSlot d) x).toNat (chainT0 s (slGrid d) (slSfn d) (slSlot d) x + stepCue s x) ((chainSteps l.img (8 + slGrid d)).map fun y => (chainT0 s (slGrid d) (slSfn d) (slSlot d) x + stepCue s y.1).toNat) = true ∧
      s.radio.tx = [] :=
  ⟨ref, desc 0x11 0 1 0x1000 64 0 0 [slotW, 7, 0, 0], tti, sheet, (sheet.img.steps.getD 1 (stp 0)), armed (desc 0x11 0 1 0x1000 64 0 0 [slotW, 7, 0, 0]), by decide +kernel⟩

theorem test_PhyRequestsArmChains_3 :
    ∃ (r : DRef) (d : BitVec 512) (b : FapiBody) (l : Loaded) (x : StepEnt) (s : State),
      Ready s r d 0x12 { in0 := true, timeDep := true, badLength := bodyLenBad d } ∧
      slotCheck s d (dlReserved d) = none ∧
      namedSheet s d = some l ∧
      chainSteps l.img (12 + slGrid d) ≠ [] ∧
      (dA0Dev d && devPoisoned s (dAddr0 d).toNat (dLen0 d)) = false ∧
      bodyBad s d (12 + slGrid d) b = false ∧
      firstStep s (chainSteps l.img (12 + slGrid d)) = some x ∧
      0 ≤ chainT0 s (slGrid d) (slSfn d) (slSlot d) x ∧
      mayArm s l (slGrid d) (firedKey (slGrid d) (slSfn d) (slSlot d) (12 + slGrid d)) (chainT0 s (slGrid d) (slSfn d) (slSlot d) x).toNat (chainT0 s (slGrid d) (slSfn d) (slSlot d) x + stepCue s x) ((chainSteps l.img (12 + slGrid d)).map fun y => (chainT0 s (slGrid d) (slSfn d) (slSlot d) x + stepCue s y.1).toNat) = true :=
  ⟨ref, desc 0x12 0 1 0x1000 64 0 0 [slotW, 7, 0, 0], tti, sheet, (sheet.img.steps.getD 2 (stp 0)), armed (desc 0x12 0 1 0x1000 64 0 0 [slotW, 7, 0, 0]), by decide +kernel⟩

theorem test_PhyRequestsArmChains_4 :
    ∃ (r : DRef) (d : BitVec 512) (bs : List Byte) (s : State),
      Ready s r d 0x13 { in0 := true, timeDep := true, badLength := bodyLenBad d } ∧
      slotCheck s d (txReserved d) = none ∧
      (namedSheet s d).isSome = true ∧
      dA0Dev d = false ∧
      bs.length = dLen0 d ∧
      s.chains = [] ∧
      isBound s (slotWord (slGrid d) (slSfn d) (slSlot d)) (field (dOpw d 2) 15 0) = false ∧
      (nowUnits s : Int) ≤ slotBound s d :=
  ⟨ref, desc 0x13 0 1 0x1000 2 0 0 [slotW, 7, 0, 0], [1, 2], armed (desc 0x13 0 1 0x1000 2 0 0 [slotW, 7, 0, 0]), by decide +kernel⟩

theorem test_PhyRequestsArmChains_5 :
    ∃ (r : DRef) (d : BitVec 512) (bs : List Byte) (c : Chain) (s : State),
      Ready s r d 0x13 { in0 := true, timeDep := true, badLength := bodyLenBad d } ∧
      slotCheck s d (txReserved d) = none ∧
      (namedSheet s d).isSome = true ∧
      dA0Dev d = false ∧
      bs.length = dLen0 d ∧
      s.chains = [c] ∧
      c.grid = Fin.ofNat 4 (slGrid d) ∧
      c.sfn = BitVec.ofNat 10 (slSfn d) ∧
      c.slot = BitVec.ofNat 5 (slSlot d) ∧
      c.chain / 4 = 2 ∧
      c.ended = false ∧
      isPdsch c.pdus (field (dOpw d 2) 15 0) = true ∧
      isBound s (slotWord (slGrid d) (slSfn d) (slSlot d)) (field (dOpw d 2) 15 0) = false :=
  ⟨ref, desc 0x13 0 1 0x1000 2 0 0 [slotW, 7, 0, 0], [1, 2], dlChain, { armed (desc 0x13 0 1 0x1000 2 0 0 [slotW, 7, 0, 0]) with chains := [dlChain] }, by decide +kernel⟩

theorem test_PhyRequestsArmChains_6 :
    ∃ (r : DRef) (d : BitVec 512) (bs : List Byte) (s : State),
      Ready s r d 0x13 { in0 := true, timeDep := true, badLength := bodyLenBad d } ∧
      slotCheck s d (txReserved d) = none ∧
      (namedSheet s d).isSome = true ∧
      dA0Dev d = false ∧
      bs.length = dLen0 d ∧
      isBound s (slotWord (slGrid d) (slSfn d) (slSlot d)) (field (dOpw d 2) 15 0) = true :=
  ⟨ref, desc 0x13 0 1 0x1000 2 0 0 [slotW, 7, 0, 0], [1, 2], { armed (desc 0x13 0 1 0x1000 2 0 0 [slotW, 7, 0, 0]) with radio := { (armed 0).radio with bound := [(slotWord 0 661 0, 0)] } }, by decide +kernel⟩

theorem test_ArmedStepMovesCounter_1 :
    ∃ (s : State),
      slaveEn s = true ∧
      stepArmed s = true ∧
      s.time.arming = .ptp ∧
      s.time.running = 0 :=
  ⟨{ State.reset with regs := [(srcCfg, 1), (0xC0000, 0x100)] }, by decide +kernel⟩

theorem test_ArmedStepMovesCounter_2 :
    ∃ (s : State),
      slaveEn s = true ∧
      stepArmed s = true ∧
      s.time.arming = .ptp ∧
      s.time.running = 0 :=
  ⟨{ State.reset with regs := [(srcCfg, 2), (0xD0100, 1)] }, by decide +kernel⟩

theorem test_ArmedStepMovesCounter_3 :
    ∃ (s : State),
      slaveEn s = true ∧
      stepArmed s = true ∧
      s.time.arming = .ptp ∧
      s.time.running = 0 :=
  ⟨{ State.reset with regs := [(srcCfg, 1), (0xC0000, 0x100)] }, by decide +kernel⟩

theorem test_ArmedStepMovesCounter_4 :
    ∃ (s : State),
      slaveEn s = true :=
  ⟨{ State.reset with regs := [(srcCfg, 1), (0xC0000, 0x100)] }, by decide +kernel⟩

theorem test_ArmedStepMovesCounter_5 :
    ∃ (c : Instr) (two : Bool) (o : Option Offset) (a : Announce) (s : State),
      slaveEn s = false ∧
      (c = .syncMessageReceive two o ∨ c = .followUpReceive o ∨ c = .delayRespReceive o ∨ c = .announceReceive a ∨ c = .delayReqSend) :=
  ⟨.delayReqSend, true, none, ⟨6, 37, true⟩, { State.reset with regs := [(srcCfg, 2)] }, ⟨rfl, by decide⟩⟩

theorem test_ServoSlewsOrRefuses_1 :
    ∃ (s : State),
      slaveEn s = true ∧
      stepArmed s = false :=
  ⟨{ State.reset with regs := [(srcCfg, 1), (0xC0000, 0x100), (timeStatus, 3)] }, by decide +kernel⟩

theorem test_ServoSlewsOrRefuses_2 :
    ∃ (o : Offset) (s : State),
      slaveEn s = true ∧
      stepArmed s = false ∧
      timeLocked s = true ∧
      beyond o (rd s 0x20014).toNat = true :=
  ⟨2 ^ 60, { State.reset with regs := [(srcCfg, 1), (0xC0000, 0x100), (timeStatus, 0xB), (0x20014, 1000)] }, by decide +kernel⟩

theorem test_ServoSlewsOrRefuses_3 :
    ∃ (o : Offset) (s : State),
      slaveEn s = true ∧
      stepArmed s = false ∧
      timeLocked s = true ∧
      beyond o (rd s 0x20014).toNat = false ∧
      timeState s = 3 :=
  ⟨1000 * 2 ^ 32, { State.reset with regs := [(srcCfg, 1), (0xC0000, 0x100), (timeStatus, 0xB), (0x20014, 1000)] }, by decide +kernel⟩

theorem test_PtpMessages_1 :
    ∃ (p : Fin 8) (s : State),
      fhMaster s p = true ∧
      2 ≤ timeState s :=
  ⟨2, { State.reset with regs := [(0xD0180, 1), (0x20108, 0x1801), (timeStatus, 0xB)] }, by decide +kernel⟩

theorem test_PtpMessages_2 :
    ∃ (p : Fin 8) (s : State),
      (fhMaster s p = false ∨ timeState s < 2) :=
  ⟨2, State.reset, by decide +kernel⟩

theorem test_PtpMessages_3 :
    ∃ (p : Fin 8) (s : State),
      fhMaster s p = true ∧
      2 ≤ timeState s :=
  ⟨2, { State.reset with regs := [(0xD0180, 1), (0x20108, 0x1801), (timeStatus, 0xB)] }, by decide +kernel⟩

theorem test_PtpMessages_4 :
    ∃ (p : Fin 8) (s : State),
      fhPortEn s p = true ∧
      (timeSrc s = 2 ∧ timePort s = p.val) ∨ fhMaster s p = false :=
  ⟨1, { State.reset with regs := [(srcCfg, 0x12), (0xD0140, 1)] }, by decide +kernel⟩

theorem test_PtpMessages_5 :
    ∃ (p : Fin 8) (s : State),
      fhPortEn s p = false :=
  ⟨1, State.reset, by decide +kernel⟩

theorem test_PtpMessages_7 :
    ∃ (s : State),
      slaveEn s = true ∧
      timeSrc s = 2 :=
  ⟨{ State.reset with regs := [(srcCfg, 0x12), (0xD0140, 1)] }, by decide +kernel⟩

theorem test_PtpMessages_8 :
    ∃ (s : State),
      slaveEn s = true ∧
      timeSrc s = 1 :=
  ⟨{ State.reset with regs := [(srcCfg, 0x11), (0xC0000, 0x200)] }, by decide +kernel⟩

theorem test_PtpMessages_9 :
    ∃ (s : State),
      slaveEn s = true :=
  ⟨{ State.reset with regs := [(srcCfg, 1), (0xC0000, 0x100)] }, by decide +kernel⟩

theorem test_HoldoverAndSceneEnds_1 :
    ∃ (u : Nat) (s : State),
      lossDue s = some u ∧
      timeFollow s = false :=
  ⟨300000000, { State.reset with regs := [(srcCfg, 1), (0xC0000, 0x100), (timeStatus, 0xB)] }, by decide +kernel⟩

theorem test_HoldoverAndSceneEnds_2 :
    ∃ (s : State),
      timeState s = 4 ∧
      holdoverExpired s = false :=
  ⟨{ State.reset with regs := [(timeStatus, 0xC)] }, by decide +kernel⟩

theorem test_HoldoverAndSceneEnds_3 :
    ∃ (s : State),
      sceneActive s = true :=
  ⟨{ State.reset with regs := [(timeStatus, 0x103)], time := { TimeS.reset with tResume := [(0, 2 ^ 60)] } }, by decide +kernel⟩

theorem test_HoldoverAndSceneEnds_4 :
    ∃ (u : Nat) (s : State),
      s.splice.rootFrom = some u ∧
      timeState s = 2 :=
  ⟨5, { State.reset with regs := [(timeStatus, 2)], splice := { SpliceS.reset with rootFrom := some 5 } }, by decide +kernel⟩

theorem test_PpsClockAndReferences_1 :
    ∃ (s : State),
      rdb s 0x200E0 1 = true ∧
      stepArmed s = false ∧
      timeSrc s ≠ 3 :=
  ⟨{ State.reset with regs := [(0x200E0, 2), (timeStatus, 3)] }, by decide +kernel⟩

theorem test_PpsClockAndReferences_2 :
    ∃ (sec : BitVec 48) (s : State),
      rdb s 0x200E0 1 = true ∧
      stepArmed s = true ∧
      s.time.ppsSec = some sec ∧
      s.time.running = 0 :=
  ⟨77, { State.reset with regs := [(0x200E0, 2)], time := { TimeS.reset with arming := .pps, ppsSec := some 77, counter := ⟨5, 6, 7, 8⟩ } }, by decide +kernel⟩

theorem test_PpsClockAndReferences_3 :
    ∃ (s : State),
      rdb s 0x200E0 0 = true ∧
      timeLocked s = true :=
  ⟨{ State.reset with regs := [(0x200E0, 1), (timeStatus, 0xB)] }, by decide +kernel⟩

theorem test_PpsClockAndReferences_4 :
    ∃ (s : State),
      timeLocked s = true ∧
      s.hold.xtal = true :=
  ⟨{ State.reset with regs := [(timeStatus, 0x8B)] }, by decide +kernel⟩

theorem test_PpsClockAndReferences_6 :
    ∃ (ref : Fin 2) (s : State),
      hoRef s ≠ ref.val + 1 :=
  ⟨1, State.reset, by decide +kernel⟩

theorem test_PpsClockAndReferences_7 :
    ∃ (ref : Fin 2) (n : Nat) (s : State),
      hoRef s = ref.val + 1 ∧
      timeState s = 4 ∧
      refGood s ref n = true :=
  ⟨0, 10000000, { State.reset with regs := [(srcCfg, 0x101), (timeStatus, 0xC)] }, by decide +kernel⟩

theorem test_PpsClockAndReferences_8 :
    ∃ (ref : Fin 2) (n : Nat) (s : State),
      hoRef s = ref.val + 1 ∧
      timeState s = 3 ∧
      ptpSlave s = true ∧
      refGood s ref n = true :=
  ⟨0, 10000000, { State.reset with regs := [(srcCfg, 0x101), (timeStatus, 0xB)] }, by decide +kernel⟩

theorem test_CoreArithmeticResults_1 :
    ∃ (n : TileIx) (t : Thr) (f : AluF) (s : State),
      AluReady s n t f.ct :=
  ⟨0, 0, ⟨true, 3, 1, 2, 0x612, 3⟩, core0, by decide +kernel⟩

theorem test_CoreArithmeticResults_2 :
    ∃ (n : TileIx) (t : Thr) (f : AluF) (s : State),
      AluReady s n t f.ct :=
  ⟨0, 0, ⟨true, 3, 1, 2, 0x612, 3⟩, core0, by decide +kernel⟩

theorem test_CoreArithmeticResults_3 :
    ∃ (n : TileIx) (t : Thr) (f : AluF) (s : State),
      AluReady s n t f.ct :=
  ⟨0, 0, ⟨true, 3, 1, 2, 0x612, 3⟩, core0, by decide +kernel⟩

theorem test_CoreArithmeticResults_4 :
    ∃ (n : TileIx) (t : Thr) (f : AluF) (s : State),
      AluReady s n t f.ct ∧
      f.s = false :=
  ⟨0, 0, ⟨false, 3, 1, 2, 0x612, 3⟩, core0, by decide +kernel⟩

theorem test_CoreArithmeticResults_5 :
    ∃ (n : TileIx) (t : Thr) (f : AluF) (s : State),
      AluReady s n t f.ct ∧
      f.sb = 0 :=
  ⟨0, 0, ⟨true, 3, 1, 0, 0x612, 3⟩, core0, by decide +kernel⟩

theorem test_CoreArithmeticResults_6 :
    ∃ (n : TileIx) (t : Thr) (f : AluF) (s : State),
      AluReady s n t f.ct ∧
      f.sb = 0 :=
  ⟨0, 0, ⟨true, 3, 1, 0, 0, 0⟩, core0, by decide +kernel⟩

theorem test_CoreArithmeticResults_7 :
    ∃ (n : TileIx) (t : Thr) (f : AluF) (s : State),
      AluReady s n t f.ct :=
  ⟨0, 0, ⟨true, 3, 1, 2, 0x612, 3⟩, core0, by decide +kernel⟩

theorem test_CoreLogicResults_1 :
    ∃ (n : TileIx) (t : Thr) (f : AluF) (s : State),
      AluReady s n t f.ct ∧
      f.s = false :=
  ⟨0, 0, ⟨false, 3, 1, 2, 0x434, 2⟩, core0, by decide +kernel⟩

theorem test_CoreLogicResults_2 :
    ∃ (n : TileIx) (t : Thr) (f : AluF) (s : State),
      AluReady s n t f.ct ∧
      f.s = false :=
  ⟨0, 0, ⟨false, 3, 1, 2, 0x434, 2⟩, core0, by decide +kernel⟩

theorem test_CoreLogicResults_3 :
    ∃ (n : TileIx) (t : Thr) (f : AluF) (s : State),
      AluReady s n t f.ct ∧
      f.s = false :=
  ⟨0, 0, ⟨false, 3, 1, 2, 0x434, 2⟩, core0, by decide +kernel⟩

theorem test_CoreLogicResults_4 :
    ∃ (n : TileIx) (t : Thr) (f : AluF) (s : State),
      AluReady s n t f.ct ∧
      f.s = false :=
  ⟨0, 0, ⟨false, 3, 1, 2, 0x434, 2⟩, core0, by decide +kernel⟩

theorem test_CoreLogicResults_5 :
    ∃ (n : TileIx) (t : Thr) (f : AluF) (s : State),
      AluReady s n t f.ct ∧
      f.s = false :=
  ⟨0, 0, ⟨false, 3, 1, 2, 0x434, 2⟩, core0, by decide +kernel⟩

theorem test_CoreLogicResults_6 :
    ∃ (n : TileIx) (t : Thr) (f : AluF) (s : State),
      AluReady s n t f.ct ∧
      f.s = false :=
  ⟨0, 0, ⟨false, 3, 1, 2, 0x434, 2⟩, core0, by decide +kernel⟩

theorem test_CoreLogicResults_7 :
    ∃ (n : TileIx) (t : Thr) (f : AluF) (s : State),
      AluReady s n t f.ct ∧
      f.s = false :=
  ⟨0, 0, ⟨false, 3, 1, 2, 0x434, 2⟩, core0, by decide +kernel⟩

theorem test_CoreLogicResults_8 :
    ∃ (n : TileIx) (t : Thr) (f : AluF) (s : State),
      AluReady s n t f.ct ∧
      f.s = false ∧
      f.dst = 0 :=
  ⟨0, 0, ⟨false, 0, 1, 2, 0x434, 2⟩, core0, by decide +kernel⟩

theorem test_CoreLogicResults_9 :
    ∃ (n : TileIx) (t : Thr) (s : State),
      canRun s n t = true :=
  ⟨0, 0, core0, by decide +kernel⟩

theorem test_CoreMacAndPairs_1 :
    ∃ (n : TileIx) (t : Thr) (f : AluF) (s : State),
      AluReady s n t f.ct ∧
      f.dst.val < 2 :=
  ⟨0, 0, ⟨true, 1, 1, 2, 0x434, 2⟩, core0, by decide +kernel⟩

theorem test_CoreMacAndPairs_2 :
    ∃ (n : TileIx) (t : Thr) (f : AluF) (s : State),
      AluReady s n t f.ct ∧
      f.dst.val < 2 :=
  ⟨0, 0, ⟨true, 1, 1, 2, 0x434, 2⟩, core0, by decide +kernel⟩

theorem test_CoreMacAndPairs_3 :
    ∃ (n : TileIx) (t : Thr) (f : AluF) (s : State),
      AluReady s n t f.ct ∧
      f.sa.val < 4 :=
  ⟨0, 0, ⟨true, 3, 1, 2, 0x612, 3⟩, core0, by decide +kernel⟩

theorem test_CoreMacAndPairs_4 :
    ∃ (n : TileIx) (t : Thr) (f : AluF) (s : State),
      AluReady s n t f.ct :=
  ⟨0, 0, ⟨true, 3, 1, 2, 0x612, 3⟩, core0, by decide +kernel⟩

theorem test_CoreMacAndPairs_5 :
    ∃ (n : TileIx) (t : Thr) (f : AluF) (s : State),
      AluReady s n t f.ct :=
  ⟨0, 0, ⟨true, 3, 1, 2, 0x612, 3⟩, core0, by decide +kernel⟩

theorem test_CoreMacAndPairs_6 :
    ∃ (n : TileIx) (t : Thr) (f : AluF) (s : State),
      AluReady s n t f.ct ∧
      f.s = false :=
  ⟨0, 0, ⟨false, 3, 1, 2, 0x612, 3⟩, core0, by decide +kernel⟩

theorem test_CoreMacAndPairs_7 :
    ∃ (n : TileIx) (t : Thr) (f : AluF) (s : State),
      AluReady s n t f.ct ∧
      f.sb = 0 :=
  ⟨0, 0, ⟨true, 3, 1, 0, 0x434, 2⟩, core0, by decide +kernel⟩

theorem test_CoreMacAndPairs_8 :
    ∃ (n : TileIx) (t : Thr) (f : AluF) (s : State),
      AluReady s n t f.ct ∧
      f.s = false :=
  ⟨0, 0, ⟨false, 3, 1, 2, 0x612, 3⟩, core0, by decide +kernel⟩

theorem test_CoreImmediates_1 :
    ∃ (n : TileIx) (t : Thr) (s : State),
      canRun s n t = true :=
  ⟨0, 1, core1, by decide +kernel⟩

theorem test_CoreImmediates_2 :
    ∃ (n : TileIx) (t : Thr) (f : ImmF) (s : State),
      canRun s n t = true ∧
      f.s = false :=
  ⟨0, 1, ⟨false, 3, 1, 0x7FFF⟩, core1, by decide +kernel⟩

theorem test_CoreImmediates_3 :
    ∃ (n : TileIx) (t : Thr) (f : ImmF) (s : State),
      canRun s n t = true ∧
      f.s = false :=
  ⟨0, 1, ⟨false, 3, 1, 0x7FFF⟩, core1, by decide +kernel⟩

theorem test_CoreImmediates_4 :
    ∃ (n : TileIx) (t : Thr) (s : State),
      canRun s n t = true :=
  ⟨0, 1, core1, by decide +kernel⟩

theorem test_CoreImmediates_5 :
    ∃ (n : TileIx) (t : Thr) (f : ImmF) (s : State),
      canRun s n t = true ∧
      f.s = false :=
  ⟨0, 1, ⟨false, 3, 1, 0x7FFF⟩, core1, by decide +kernel⟩

theorem test_CoreImmediates_6 :
    ∃ (n : TileIx) (t : Thr) (f : ImmF) (s : State),
      canRun s n t = true ∧
      f.s = false :=
  ⟨0, 1, ⟨false, 3, 1, 0x7FFF⟩, core1, by decide +kernel⟩

theorem test_CoreImmediates_7 :
    ∃ (n : TileIx) (t : Thr) (f : ImmF) (s : State),
      canRun s n t = true ∧
      f.s = false ∧
      f.dst = 0 :=
  ⟨0, 1, ⟨false, 0, 1, 0x7FFF⟩, core1, by decide +kernel⟩

theorem test_CoreImmediates_8 :
    ∃ (n : TileIx) (t : Thr) (s : State),
      canRun s n t = true :=
  ⟨0, 1, core1, by decide +kernel⟩

theorem test_CoreImmediates_9 :
    ∃ (n : TileIx) (t : Thr) (s : State),
      canRun s n t = true :=
  ⟨0, 1, core1, by decide +kernel⟩

theorem test_CoreLoadsAndStores_1 :
    ∃ (n : TileIx) (t : Thr) (f : MemF) (s : State),
      canRun s n t = true ∧
      memLegal f = true ∧
      loadCheck s n (memAddr (threadOf s n t) f 4).1.toNat 4 4 = none :=
  ⟨0, 0, ⟨false, 3, 1, 3, 0, 2⟩, core0, by decide +kernel⟩

theorem test_CoreLoadsAndStores_2 :
    ∃ (n : TileIx) (t : Thr) (f : MemF) (s : State),
      canRun s n t = true ∧
      memLegal f = true ∧
      loadCheck s n (memAddr (threadOf s n t) f 2).1.toNat 2 2 = none :=
  ⟨0, 0, ⟨false, 3, 1, 3, 0, 2⟩, core0, by decide +kernel⟩

theorem test_CoreLoadsAndStores_3 :
    ∃ (n : TileIx) (t : Thr) (f : MemF) (s : State),
      canRun s n t = true ∧
      memLegal f = true ∧
      loadCheck s n (memAddr (threadOf s n t) f 1).1.toNat 1 1 = none :=
  ⟨0, 0, ⟨false, 3, 1, 3, 0, 2⟩, core0, by decide +kernel⟩

theorem test_CoreLoadsAndStores_4 :
    ∃ (n : TileIx) (t : Thr) (f : MemF) (s : State),
      canRun s n t = true ∧
      memLegal f = true ∧
      addrCheck (memAddr (threadOf s n t) f 4).1.toNat 4 4 = none :=
  ⟨0, 0, ⟨false, 3, 1, 3, 0, 2⟩, core0, by decide +kernel⟩

theorem test_CoreLoadsAndStores_5 :
    ∃ (n : TileIx) (t : Thr) (f : MemF) (s : State),
      canRun s n t = true ∧
      memLegal f = true ∧
      addrCheck (memAddr (threadOf s n t) f 2).1.toNat 2 2 = none :=
  ⟨0, 0, ⟨false, 3, 1, 3, 0, 2⟩, core0, by decide +kernel⟩

theorem test_CoreLoadsAndStores_6 :
    ∃ (n : TileIx) (t : Thr) (f : MemF) (s : State),
      canRun s n t = true ∧
      memLegal f = true ∧
      addrCheck (memAddr (threadOf s n t) f 1).1.toNat 1 1 = none :=
  ⟨0, 0, ⟨false, 3, 1, 3, 0, 2⟩, core0, by decide +kernel⟩

theorem test_CoreAddressRegisters_1 :
    ∃ (n : TileIx) (t : Thr) (s : State),
      canRun s n t = true :=
  ⟨0, 0, core0, by decide +kernel⟩

theorem test_CoreAddressRegisters_2 :
    ∃ (n : TileIx) (t : Thr) (s : State),
      canRun s n t = true :=
  ⟨0, 0, core0, by decide +kernel⟩

theorem test_CoreAddressRegisters_3 :
    ∃ (n : TileIx) (t : Thr) (s : State),
      canRun s n t = true :=
  ⟨0, 0, core0, by decide +kernel⟩

theorem test_CoreAddressRegisters_4 :
    ∃ (y : Thread) (k : Nat),
      (amodeNow y).getLsbD k = false :=
  ⟨{}, 1, by decide +kernel⟩

theorem test_CoreBranchesAndLoops_1 :
    ∃ (n : TileIx) (t : Thr) (c : Cond) (hint : Bool) (s : State),
      canRun s n t = true ∧
      (c = .al ∨ condHolds (threadOf s n t) c = hint) :=
  ⟨0, 0, .eq, false, core0, by decide +kernel⟩

theorem test_CoreBranchesAndLoops_2 :
    ∃ (n : TileIx) (t : Thr) (c : Cond) (hint : Bool) (s : State),
      canRun s n t = true ∧
      c ≠ .al ∧
      condHolds (threadOf s n t) c ≠ hint :=
  ⟨0, 0, .eq, true, core0, by decide +kernel⟩

theorem test_CoreBranchesAndLoops_3 :
    ∃ (n : TileIx) (t : Thr) (s : State),
      canRun s n t = true ∧
      (threadOf s n t).calls.length < 8 :=
  ⟨0, 0, core0, by decide +kernel⟩

theorem test_CoreBranchesAndLoops_4 :
    ∃ (n : TileIx) (t : Thr) (a : BitVec 15) (l : List (BitVec 15)) (s : State),
      canRun s n t = true ∧
      (threadOf s n t).calls = a :: l :=
  ⟨0, 0, 9, [], core0, by decide +kernel⟩

theorem test_CoreBranchesAndLoops_5 :
    ∃ (n : TileIx) (t : Thr) (s : State),
      canRun s n t = true :=
  ⟨0, 0, core0, by decide +kernel⟩

theorem test_CoreBranchesAndLoops_6 :
    ∃ (n : TileIx) (t : Thr) (d : Fin 16) (s : State),
      canRun s n t = true ∧
      getD (threadOf s n t) d ≠ 0 ∧
      (threadOf s n t).loops.length < 4 :=
  ⟨0, 0, 1, core0, by decide +kernel⟩

theorem test_CoreBranchesAndLoops_7 :
    ∃ (n : TileIx) (t : Thr) (count : BitVec 12) (s : State),
      canRun s n t = true ∧
      (count ≠ 0 → (threadOf s n t).loops.length < 4) :=
  ⟨0, 0, 5, core0, by decide +kernel⟩

theorem test_CoreBranchesAndLoops_8 :
    ∃ (n : TileIx) (t : Thr) (l : LoopLevel) (ls : List LoopLevel) (s : State),
      canRun s n t = true ∧
      (threadOf s n t).loops = l :: ls :=
  ⟨0, 0, ⟨1, 20, 3⟩, [], core0, by decide +kernel⟩

theorem test_CoreExceptions_1 :
    ∃ (n : TileIx) (t : Thr) (f : AluF) (s : State),
      canRun s n t = true ∧
      f.ct.getLsbD 0 = true :=
  ⟨0, 0, ⟨true, 3, 1, 2, 1, 0⟩, core0, by decide +kernel⟩

theorem test_CoreExceptions_2 :
    ∃ (c : Instr) (n : TileIx) (t : Thr) (f : AluF) (g : ImmF) (s : State),
      canRun s n t = true ∧
      f.s = true ∧
      g.s = true ∧
      (c = .mulh n t f ∨ c = .and n t f ∨ c = .or n t f ∨ c = .xor n t f ∨ c = .shr n t f ∨ c = .shra n t f ∨ c = .min n t f ∨ c = .max n t f ∨ c = .min2 n t f ∨ c = .mintrk n t f ∨ c = .cmp n t f ∨ c = .andi n t g ∨ c = .ori n t g ∨ c = .shri n t g ∨ c = .shrai n t g ∨ c = .cmpi n t g) :=
  ⟨.shrai 0 0 ⟨true, 3, 1, 2⟩, 0, 0, ⟨true, 3, 1, 2, 0, 0⟩, ⟨true, 3, 1, 2⟩, core0, by decide +kernel⟩

theorem test_CoreExceptions_3 :
    ∃ (n : TileIx) (t : Thr) (f : MemF) (s : State),
      canRun s n t = true ∧
      f.am.toNat % 2 = 1 ∧
      f.imm ≠ 0 :=
  ⟨0, 0, ⟨false, 3, 1, 3, 5, 0⟩, core0, by decide +kernel⟩

theorem test_CoreExceptions_4 :
    ∃ (n : TileIx) (t : Thr) (f : MemF) (s : State),
      canRun s n t = true ∧
      memLegal f = true ∧
      addrCheck (memAddr (threadOf s n t) f 4).1.toNat 4 4 = some excAlign :=
  ⟨0, 0, ⟨false, 3, 1, 0, 5, 0⟩, core0, by decide +kernel⟩

theorem test_CoreExceptions_5 :
    ∃ (n : TileIx) (t : Thr) (d : Fin 16) (s : State),
      canRun s n t = true ∧
      getD (threadOf s n t) d ≠ 0 ∧
      4 ≤ (threadOf s n t).loops.length :=
  ⟨0, 0, 1, coreWith { thread0 with loops := List.replicate 4 ⟨1, 2, 3⟩ }, by decide +kernel⟩

theorem test_CoreExceptions_6 :
    ∃ (n : TileIx) (t : Thr) (s : State),
      canRun s n t = true ∧
      8 ≤ (threadOf s n t).calls.length :=
  ⟨0, 0, coreWith { thread0 with calls := List.replicate 8 3 }, by decide +kernel⟩

theorem test_CoreExceptions_7 :
    ∃ (n : TileIx) (t : Thr) (s : State),
      canRun s n t = true ∧
      (threadOf s n t).calls = [] :=
  ⟨0, 0, coreWith { thread0 with calls := [] }, by decide +kernel⟩

theorem test_CoreExceptions_8 :
    ∃ (n : TileIx) (t : Thr) (s : State),
      canRun s n t = false :=
  ⟨0, 0, State.reset, by decide +kernel⟩

theorem test_ShadowLoadsAndCuts_1 :
    ∃ (n : TileIx) (t : Thr) (f : MatF) (k : Nat) (s : State),
      canRun s n t = true ∧
      oneArray f.amask = some k ∧
      f.opnd = 0 ∧
      f.s = false ∧
      ArrayOpen s n t k (.load (getH (threadOf s n t) f.hx).toNat (getD (threadOf s n t) f.dp) (decide (t = 0) && phyCode (threadOf s n t))) ∧
      loadCheck s n (getH (threadOf s n t) f.hx).toNat (loadBytes (getD (threadOf s n t) f.dp)) 64 = none :=
  ⟨0, 0, { mat 0 with lost := 2 }, 0, matState, by decide +kernel⟩

theorem test_ShadowLoadsAndCuts_2 :
    ∃ (n : TileIx) (t : Thr) (f : MatF) (k : Nat) (s : State),
      canRun s n t = true ∧
      oneArray f.amask = some k ∧
      f.opnd = 0 ∧
      f.s = false ∧
      (arrOf (tileOf s n) k).load ≠ .idle ∧
      (opsOf t (arrOf (tileOf s n) k)).length < 8 ∧
      loadCheck s n (getH (threadOf s n t) f.hx).toNat (loadBytes (getD (threadOf s n t) f.dp)) 64 = none :=
  ⟨0, 0, mat 0, 0, { matState with tiles := [(0, { matTile with a0 := { load := .loading [] 0 0 false } })] }, by decide +kernel⟩

theorem test_ShadowLoadsAndCuts_3 :
    ∃ (n : TileIx) (t : Thr) (f : MatF) (k : Nat) (s : State),
      canRun s n t = true ∧
      oneArray f.amask = some k ∧
      f.opnd = 0 ∧
      f.hx = 0 ∧
      f.s = false ∧
      8 ≤ (opsOf t (arrOf (tileOf s n) k)).length :=
  ⟨0, 0, mat 0, 0, { matState with tiles := [(0, { matTile with a0 := { queue := List.replicate 8 ⟨0, 3, .clear 0⟩ } })] }, by decide +kernel⟩

theorem test_ShadowLoadsAndCuts_4 :
    ∃ (n : TileIx) (k : Fin 4) (h : Nat) (w : Word) (t : Thr) (phy : Bool) (pc : BitVec 15) (s : State),
      (arrOf (tileOf s n) k).load = .waiting h w t phy pc ∧
      fenced s n = false ∧
      memPoisoned s (lsAddr n + h) (loadBytes w) = false :=
  ⟨0, 0, 0, 0, 0, true, 3, { matState with tiles := [(0, { matTile with a0 := { load := .waiting 0 0 0 true 3 } })] }, by decide +kernel⟩

theorem test_ShadowLoadsAndCuts_5 :
    ∃ (n : TileIx) (k : Fin 4) (bs : List Byte) (w : Word) (t : Thr) (ph : Bool) (s : State),
      (arrOf (tileOf s n) k).load = .loading bs w t ph ∧
      fenced s n = false ∧
      (arrOf (tileOf s n) k).queue = [] ∧
      ((threadOf s n 0).run = .running ∨ (threadOf s n 0).run = .stopped) ∧
      ((threadOf s n 1).run = .running ∨ (threadOf s n 1).run = .stopped) :=
  ⟨0, 0, [1, 2], 0, 0, false, { matState with tiles := [(0, { matTile with a0 := { load := .loading [1, 2] 0 0 false } })] }, by decide +kernel⟩

theorem test_ShadowLoadsAndCuts_6 :
    ∃ (n : TileIx) (k : Fin 4) (bs : List Byte) (w : Word) (ph : Bool) (s : State),
      (arrOf (tileOf s n) k).load = .loading bs w 0 ph ∧
      fenced s n = false ∧
      (arrOf (tileOf s n) k).queue = [] ∧
      (threadOf s n 0).run = .waiting (.cut (BitVec.ofNat 4 (2 ^ k.val))) ∧
      ((threadOf s n 1).run = .running ∨ (threadOf s n 1).run = .stopped) ∧
      s.windows = [] :=
  ⟨0, 0, [1, 2], 0, true, { matState with tiles := [(0, { matTile with a0 := { load := .loading [1, 2] 0 0 true }, c0 := { thread0 with run := .waiting (.cut 1) } })] }, by decide +kernel⟩

theorem test_ShadowLoadsAndCuts_7 :
    ∃ (n : TileIx) (t : Thr) (f : MatF) (s : State),
      canRun s n t = true ∧
      f.amask ≠ 0 ∧
      f.opnd = 0 ∧
      f.hx = 0 ∧
      f.dp = 0 ∧
      f.s = false ∧
      (∀ k ∈ List.range 4, (arrOf (tileOf s n) k).queue = [] ∧ (f.amask.getLsbD k = true → (arrOf (tileOf s n) k).load = .idle)) ∧
      (t = 1 ∨ s.windows = []) :=
  ⟨0, 0, ⟨false, 5, 0, 0, 0, 0⟩, matState, by decide +kernel⟩

theorem test_ShadowLoadsAndCuts_8 :
    ∃ (n : TileIx) (t : Thr) (f : MatF) (k : Nat) (s : State),
      canRun s n t = true ∧
      k < 4 ∧
      f.amask.getLsbD k = true ∧
      f.opnd = 0 ∧
      f.hx = 0 ∧
      f.dp = 0 ∧
      f.s = false ∧
      (arrOf (tileOf s n) k).load ≠ .idle ∨ opsOf t (arrOf (tileOf s n) k) ≠ [] :=
  ⟨0, 0, ⟨false, 1, 0, 0, 0, 0⟩, 0, { matState with tiles := [(0, { matTile with a0 := { load := .loading [] 0 0 false } })] }, by decide +kernel⟩

theorem test_MatrixPassResults_1 :
    ∃ (n : TileIx) (t : Thr) (f : MatF) (k : Nat) (s : State),
      canRun s n t = true ∧
      oneArray f.amask = some k ∧
      f.opnd.toNat % 32 = 0 ∧
      f.s = false ∧
      opsOf t (arrOf (tileOf s n) k) = [] ∧
      suHeld t (activeCtx (arrOf (tileOf s n) k)) = false ∧
      emptyPass (activeCtx (arrOf (tileOf s n) k)) (maskEntry s (threadOf s n t).image (threadOf s n t).role (ctxMaskIx (activeCtx (arrOf (tileOf s n) k)))) = false ∧
      passCheck s n (waveBytes (ctxMode (activeCtx (arrOf (tileOf s n) k)))) (getH (threadOf s n t) f.hx).toNat (getS (threadOf s n t) f.hx).toInt (f.opnd.toNat / 64 + 1) = none :=
  ⟨0, 0, { mat 0x20 with lost := 4 }, 0, matState, by decide +kernel⟩

theorem test_MatrixPassResults_2 :
    ∃ (n : TileIx) (t : Thr) (f : MatF) (k : Nat) (s : State),
      canRun s n t = true ∧
      oneArray f.amask = some k ∧
      f.opnd.toNat % 32 = 0 ∧
      f.s = false ∧
      opsOf t (arrOf (tileOf s n) k) = [] ∧
      suHeld t (activeCtx (arrOf (tileOf s n) k)) = false ∧
      ctxMode (activeCtx (arrOf (tileOf s n) k)) = 3 :=
  ⟨0, 0, mat 0x20, 0, { matState with tiles := [(0, { matTile with a0 := { slot0 := { word := 3 } } })] }, by decide +kernel⟩

theorem test_MatrixPassResults_3 :
    ∃ (n : TileIx) (f : MatF) (k : Nat) (s : State),
      canRun s n 1 = true ∧
      oneArray f.amask = some k ∧
      f.opnd = 0 ∧
      f.hx = 0 ∧
      f.s = false ∧
      (activeCtx (arrOf (tileOf s n) k)).phy = true ∧
      (opsOf 1 (arrOf (tileOf s n) k)).length < 8 ∧
      field (getD (threadOf s n 1) f.dp) 24 21 ≤ 9 ∧
      passCheck s n (waveBytes (ctxMode (activeCtx (arrOf (tileOf s n) k)))) (getH (threadOf s n 1) f.hx).toNat (getS (threadOf s n 1) f.hx).toInt 1 = none ∧
      addrCheck (getH (threadOf s n 1) f.hx).toNat (32 * readBytes (field (getD (threadOf s n 1) f.dp) 24 21) * (field (getD (threadOf s n 1) f.dp) 15 8 + 1)) 64 = none :=
  ⟨0, mat 0, 0, { State.reset with tiles := [(0, { a0 := { slot0 := { phy := true } }, c1 := { thread0 with d := [(1, 2)], h := [] } })] }, by decide +kernel⟩

theorem test_MatrixPassResults_4 :
    ∃ (n : TileIx) (f : MatF) (k : Nat) (p : Word) (pc : BitVec 15) (s : State),
      canRun s n 0 = true ∧
      oneArray f.amask = some k ∧
      f.opnd = 0 ∧
      f.hx = 0 ∧
      f.dp = 0 ∧
      f.s = false ∧
      (activeCtx (arrOf (tileOf s n) k)).phy = true ∧
      (shadowCtx (arrOf (tileOf s n) k)).phy = false ∧
      (arrOf (tileOf s n) k).load = .idle ∧
      (arrOf (tileOf s n) k).queue = [⟨1, pc, .clear p⟩] ∧
      s.windows = [] :=
  ⟨0, ⟨false, 1, 0, 0, 0, 9⟩, 0, 0, 3, { State.reset with tiles := [(0, { a0 := { slot0 := { phy := true }, queue := [⟨1, 3, .clear 0⟩] }, c0 := thread0 })] }, by decide +kernel⟩

theorem test_MatrixPassResults_5 :
    ∃ (c : Ctx) (row : Nat) (j : Nat),
      ctxMode c = 0 ∧
      ctxFmt c = 0 ∧
      row < 256 ∧
      j < 32 :=
  ⟨{}, 7, 9, by decide +kernel⟩

theorem test_MatrixPassResults_6 :
    ∃ (n : TileIx) (t : Thr) (f : MatF) (k : Nat) (s : State),
      canRun s n t = true ∧
      oneArray f.amask = some k ∧
      f.opnd = 0 ∧
      opsOf t (arrOf (tileOf s n) k) = [] ∧
      suHeld t (activeCtx (arrOf (tileOf s n) k)) = false ∧
      field (getD (threadOf s n t) f.dp) 24 21 ≤ 9 ∧
      addrCheck (getH (threadOf s n t) f.hx).toNat (32 * readBytes (field (getD (threadOf s n t) f.dp) 24 21) * (field (getD (threadOf s n t) f.dp) 15 8 + 1)) 64 = none :=
  ⟨0, 0, mat 0, 0, { matState with tiles := [(0, { matTile with a0 := { slot0 := { acc := [(64, 0x12345678)] } } })] }, by decide +kernel⟩

theorem test_MatrixPassResults_7 :
    ∃ (n : TileIx) (t : Thr) (f : MatF) (k : Nat) (s : State),
      canRun s n t = true ∧
      oneArray f.amask = some k ∧
      f.opnd = 0 ∧
      f.hx = 0 ∧
      f.s = false ∧
      opsOf t (arrOf (tileOf s n) k) = [] ∧
      suHeld t (activeCtx (arrOf (tileOf s n) k)) = false ∧
      ctxExact s (activeCtx (arrOf (tileOf s n) k)) = false :=
  ⟨0, 0, mat 0, 0, { matState with tiles := [(0, { matTile with a0 := { slot0 := { acc := [(64, 0x12345678), (96, 5)] } } })] }, by decide +kernel⟩

theorem test_VectorLaneResults_1 :
    ∃ (n : TileIx) (t : Thr) (f : VecF) (s : State),
      canRun s n t = true ∧
      VecOk t f = true :=
  ⟨0, 0, ⟨true, 3, 1, 2, true, 2, 1, 0⟩, vecState, by decide +kernel⟩

theorem test_VectorLaneResults_2 :
    ∃ (a : Nat) (b : Nat),
      a < 2 ^ 32 ∧
      b < 2 ^ 32 :=
  ⟨0xFFFFFFFF, 5, by decide +kernel⟩

theorem test_VectorLaneResults_3 :
    ∃ (n : TileIx) (t : Thr) (f : VecF) (s : State),
      canRun s n t = true ∧
      f.typ.toNat ≤ 4 ∧
      f.vd.val < 8 ∧
      f.men = false ∧
      f.s = false ∧
      f.msk.val ≤ 5 ∧
      c1Reg t f.va = true ∧
      c1Reg t f.vb = true ∧
      (t = 0 ∨ 4 ≤ f.vd.val) :=
  ⟨0, 0, ⟨false, 3, 1, 2, false, 2, 1, 0⟩, vecState, by decide +kernel⟩

theorem test_VectorLaneResults_4 :
    ∃ (n : TileIx) (t : Thr) (f : VecF) (s : State),
      canRun s n t = true ∧
      f.typ.toNat ≤ 4 ∧
      f.men = false ∧
      f.s = false ∧
      c1Reg t f.vd = true ∧
      c1Reg t f.va = true ∧
      c1Reg t f.vb = true ∧
      (t = 0 ∨ 4 ≤ f.msk.val) :=
  ⟨0, 0, ⟨false, 3, 1, 2, false, 2, 1, 0⟩, vecState, by decide +kernel⟩

theorem test_VectorMemoryResults_1 :
    ∃ (n : TileIx) (t : Thr) (f : VecF) (s : State),
      canRun s n t = true ∧
      f.typ.toNat ≤ 6 ∧
      f.s = false ∧
      f.men = false ∧
      f.msk = 0 ∧
      f.va = 0 ∧
      f.vb.val < 8 ∧
      c1Reg t f.vd = true ∧
      loadCheck s n (getH (threadOf s n t) f.vb).toNat (64 * vmemBytes f.typ.toNat) 1 = none :=
  ⟨0, 0, ⟨false, 3, 0, 1, false, 0, 1, 2⟩, vecState, by decide +kernel⟩

theorem test_VectorMemoryResults_2 :
    ∃ (n : TileIx) (t : Thr) (f : VecF) (s : State),
      canRun s n t = true ∧
      f.typ.toNat ≤ 6 ∧
      f.men = false ∧
      f.msk = 0 ∧
      f.va = 0 ∧
      f.vb.val < 8 ∧
      c1Reg t f.vd = true ∧
      addrCheck (getH (threadOf s n t) f.vb).toNat (64 * vmemBytes f.typ.toNat) 1 = none :=
  ⟨0, 0, ⟨false, 1, 0, 1, false, 0, 1, 0⟩, vecState, by decide +kernel⟩

theorem test_VectorMemoryResults_3 :
    ∃ (n : TileIx) (t : Thr) (f : VecF) (s : State),
      canRun s n t = true ∧
      f.typ.toNat ≤ 6 ∧
      f.s = false ∧
      f.men = false ∧
      f.msk = 0 ∧
      f.vb.val < 8 ∧
      c1Reg t f.vd = true ∧
      c1Reg t f.va = true ∧
      (∀ i ∈ List.range 64, loadCheck s n (getH (threadOf s n t) f.vb + lane (getV (tileOf s n) f.va) i).toNat (vmemBytes f.typ.toNat) 1 = none) :=
  ⟨0, 0, ⟨false, 3, 4, 1, false, 0, 1, 0⟩, vecState, by decide +kernel⟩

theorem test_VectorMemoryResults_4 :
    ∃ (n : TileIx) (t : Thr) (f : VecF) (s : State),
      canRun s n t = true ∧
      f.typ.toNat ≤ 6 ∧
      f.s = false ∧
      f.men = false ∧
      f.msk = 0 ∧
      f.vb.val < 8 ∧
      c1Reg t f.vd = true ∧
      c1Reg t f.va = true ∧
      (∀ i ∈ List.range 64, addrCheck (getH (threadOf s n t) f.vb + lane (getV (tileOf s n) f.va) i).toNat (vmemBytes f.typ.toNat) 1 = none) :=
  ⟨0, 0, ⟨false, 1, 4, 1, false, 0, 1, 0⟩, vecState, by decide +kernel⟩

theorem test_TreeAndReductionUnit_1 :
    ∃ (n : TileIx) (t : Thr) (f : VecF) (s : State),
      canRun s n t = true ∧
      f.typ = 1 ∧
      f.msk = 0 ∧
      f.men = false ∧
      c1Reg t f.va = true ∧
      f.vd.val < 16 ∧
      f.vb = 0 :=
  ⟨0, 0, ⟨true, 3, 1, 0, false, 0, 1, 0⟩, vecState, by decide +kernel⟩

theorem test_TreeAndReductionUnit_2 :
    ∃ (n : TileIx) (f : VecF) (s : State),
      canRun s n 0 = true ∧
      f.typ = 1 ∧
      f.msk.val ≤ 4 ∧
      f.vd = 0 ∧
      f.men = false ∧
      f.s = false ∧
      (f.vb = 0 ∨ (16 ≤ f.vb.val ∧ f.vb.val < 24 ∧ f.va = 0 ∧ loadCheck s n (getH (threadOf s n 0) (f.vb.val % 8)).toNat 256 1 = none)) ∧
      (¬ (3 ≤ f.msk.val ∧ (tileOf s n).ru.count = 0xFFFFFFFE)) :=
  ⟨0, ⟨false, 0, 1, 0, false, 3, 1, 0⟩, vecState, by decide +kernel⟩

theorem test_TreeAndReductionUnit_3 :
    ∃ (n : TileIx) (f : VecF) (s : State),
      canRun s n 0 = true ∧
      f.typ = 1 ∧
      f.msk = 0 ∧
      f.vd.val ≤ 1 ∧
      f.men = false ∧
      f.va = 0 ∧
      f.vb.val < 8 ∧
      (tileOf s n).ru.typ = 1 ∧
      (tileOf s n).ru.exact = false ∧
      addrCheck (getH (threadOf s n 0) f.vb).toNat (if 3 ≤ (tileOf s n).ru.op then 512 else 256) 1 = none :=
  ⟨0, ⟨false, 1, 0, 1, false, 0, 1, 0⟩, { vecState with tiles := [(0, { tileOf vecState 0 with ru := { busy := true, op := 4, typ := 1, val := [(0, 5), (3, 0xFFFFFFF0)], idx := [(3, 2)] } })] }, by decide +kernel⟩

theorem test_ThreadInstructions_1 :
    ∃ (n : TileIx) (t : Thr) (s : State),
      canRun s n t = true :=
  ⟨0, 0, core0, by decide +kernel⟩

theorem test_ThreadInstructions_2 :
    ∃ (n : TileIx) (t : Thr) (s : State),
      canRun s n t = true :=
  ⟨0, 0, core0, by decide +kernel⟩

theorem test_ThreadInstructions_3 :
    ∃ (n : TileIx) (t : Thr) (s : State),
      (threadOf s n t).run = .halting ∧
      syncDone s n t 0xFF = true ∧
      phyCode (threadOf s n t) = false :=
  ⟨0, 0, coreWith { thread0 with run := .halting }, by decide +kernel⟩

theorem test_ThreadInstructions_4 :
    ∃ (n : TileIx) (t : Thr) (res : ChainResult) (r : DRef) (ix : Nat) (c : Chain) (x : StepRun) (s : State),
      (threadOf s n t).run = .halting ∧
      syncDone s n t 0xFF = true ∧
      (threadOf s n t).owner = .chain r ix ∧
      chainOf s r = some c ∧
      (c.steps.find? fun x => decide (x.ix = ix)) = some x ∧
      x.ent.last = false ∧
      res.blocks = [] ∧
      res.prach = [] :=
  ⟨0, 0, noResult, ⟨2, 9⟩, 0, chain9, ⟨{ stp 8 with last := false }, 0, 0, 0, .running, none, []⟩, { coreWith { thread0 with run := .halting, owner := .chain ⟨2, 9⟩ 0 } with chains := [chain9] }, by decide +kernel⟩

theorem test_ThreadInstructions_5 :
    ∃ (n : TileIx) (t : Thr) (units : Byte) (s : State),
      canRun s n t = true ∧
      syncDone s n t units = true :=
  ⟨0, 0, 0xFF, core0, by decide +kernel⟩

theorem test_ThreadInstructions_6 :
    ∃ (n : TileIx) (t : Thr) (units : Byte) (s : State),
      canRun s n t = true ∧
      syncDone s n t units = false :=
  ⟨0, 0, 1, { matState with tiles := [(0, { matTile with a0 := { load := .loading [] 0 0 false } })] }, by decide +kernel⟩

theorem test_ThreadInstructions_7 :
    ∃ (n : TileIx) (t : Thr) (units : Byte) (s : State),
      (threadOf s n t).run = .waiting (.sync units) ∧
      syncDone s n t units = true :=
  ⟨0, 0, 0xFF, coreWith { thread0 with run := .waiting (.sync 0xFF) }, by decide +kernel⟩

theorem test_ThreadInstructions_8 :
    ∃ (n : TileIx) (t : Thr) (f : SysF) (s : State),
      canRun s n t = true ∧
      f.opnd.toNat ≤ 9 ∧
      f.hx = 0 :=
  ⟨0, 0, ⟨3, 0, 2⟩, core0, by decide +kernel⟩

theorem test_ThreadInstructions_9 :
    ∃ (n : TileIx) (t : Thr) (f : SysF) (s : State),
      canRun s n t = true ∧
      f.hx = 0 ∧
      f.opnd = 0 :=
  ⟨0, 0, ⟨2, 0, 0⟩, core0, by decide +kernel⟩

theorem test_ThreadInstructions_10 :
    ∃ (n : TileIx) (t : Thr) (f : SysF) (s : State),
      canRun s n t = true ∧
      f.hx = 0 ∧
      f.opnd = 1 :=
  ⟨0, 0, ⟨2, 0, 1⟩, core0, by decide +kernel⟩

theorem test_ReelInstructions_1 :
    ∃ (n : TileIx) (t : Thr) (f : SysF) (s : State),
      canRun s n t = true ∧
      f.opnd.toNat < 1024 ∧
      f.hx = 0 ∧
      (reelOf s f.opnd.toNat).prod.getLsbD n = true ∧
      pushTurn s f.opnd.toNat n = true :=
  ⟨0, 0, ⟨2, 0, 3⟩, { core0 with reels := [(3, { prod := 1, q := [{ h := 7 }] })] }, by decide +kernel⟩

theorem test_ReelInstructions_2 :
    ∃ (n : TileIx) (t : Thr) (f : SysF) (s : State),
      canRun s n t = true ∧
      f.opnd.toNat < 1024 ∧
      f.hx = 0 ∧
      (reelOf s f.opnd.toNat).prod.getLsbD n = true ∧
      pushTurn s f.opnd.toNat n = false :=
  ⟨0, 0, ⟨2, 0, 3⟩, { core0 with reels := [(3, { prod := 1, q := List.replicate 64 { h := 7 } })] }, by decide +kernel⟩

theorem test_ReelInstructions_3 :
    ∃ (n : TileIx) (t : Thr) (f : SysF) (s : State),
      canRun s n t = true ∧
      f.opnd.toNat < 1024 ∧
      f.hx = 0 ∧
      (reelOf s f.opnd.toNat).prod.getLsbD n = false :=
  ⟨0, 0, ⟨2, 0, 3⟩, core0, by decide +kernel⟩

theorem test_ReelInstructions_4 :
    ∃ (n : TileIx) (t : Thr) (r : Nat) (h : BitVec 16) (s : State),
      (threadOf s n t).run = .waiting (.rpush r h) ∧
      pushTurn s r n = true :=
  ⟨0, 0, 3, 9, coreWith { thread0 with run := .waiting (.rpush 3 9) }, by decide +kernel⟩

theorem test_ReelInstructions_5 :
    ∃ (n : TileIx) (t : Thr) (f : SysF) (h : Handle) (q : List Handle) (s : State),
      canRun s n t = true ∧
      f.opnd.toNat < 1024 ∧
      f.hx = 0 ∧
      (reelOf s f.opnd.toNat).cons.getLsbD n = true ∧
      (reelOf s f.opnd.toNat).q = h :: q ∧
      popTurn s f.opnd.toNat n = true :=
  ⟨0, 0, ⟨2, 0, 3⟩, { h := 7 }, [{ h := 8 }], { core0 with reels := [(3, { cons := 1, q := [{ h := 7 }, { h := 8 }] })] }, by decide +kernel⟩

theorem test_ReelInstructions_6 :
    ∃ (n : TileIx) (t : Thr) (f : SysF) (s : State),
      canRun s n t = true ∧
      f.opnd.toNat < 1024 ∧
      f.hx = 0 ∧
      (reelOf s f.opnd.toNat).cons.getLsbD n = true ∧
      (reelOf s f.opnd.toNat).q = [] ∨ popTurn s f.opnd.toNat n = false :=
  ⟨0, 0, ⟨2, 0, 3⟩, { core0 with reels := [(3, { cons := 1 })] }, by decide +kernel⟩

theorem test_ReelInstructions_7 :
    ∃ (n : TileIx) (t : Thr) (f : SysF) (s : State),
      canRun s n t = true ∧
      f.opnd.toNat < 1024 ∧
      f.hx = 0 ∧
      (reelOf s f.opnd.toNat).cons.getLsbD n = false :=
  ⟨0, 0, ⟨2, 0, 3⟩, core0, by decide +kernel⟩

theorem test_ReelInstructions_8 :
    ∃ (n : TileIx) (t : Thr) (r : Nat) (d : Fin 16) (h : Handle) (q : List Handle) (s : State),
      (threadOf s n t).run = .waiting (.rpop r d) ∧
      (reelOf s r).q = h :: q ∧
      popTurn s r n = true :=
  ⟨0, 0, 3, 2, { h := 7 }, [], { coreWith { thread0 with run := .waiting (.rpop 3 2) } with reels := [(3, { cons := 1, q := [{ h := 7 }] })] }, by decide +kernel⟩

theorem test_CueWaitsAndAtomics_1 :
    ∃ (n : TileIx) (f : SysF) (s : State),
      canRun s n 0 = true ∧
      f.opnd.toNat ≤ 1 ∧
      f.hx = 0 ∧
      (nowUnits s : Int) ≤ cueWordTime s (pairVal s (threadOf s n 0) f.d) (nowUnits s) :=
  ⟨0, ⟨2, 0, 1⟩, { cueState with tiles := [(0, { c0 := { thread0 with d := [(2, slotW + 0x20000)] } })] }, by decide +kernel⟩

theorem test_CueWaitsAndAtomics_2 :
    ∃ (n : TileIx) (f : SysF) (s : State),
      canRun s n 0 = true ∧
      f.opnd.toNat ≤ 1 ∧
      f.hx = 0 ∧
      phyCode (threadOf s n 0) = false ∧
      cueWordTime s (pairVal s (threadOf s n 0) f.d) (nowUnits s) < (nowUnits s : Int) :=
  ⟨0, ⟨2, 0, 1⟩, { cueState with tiles := [(0, { c0 := { thread0 with d := [(2, slotW), (3, 0xFF000000)] } })] }, by decide +kernel⟩

theorem test_CueWaitsAndAtomics_3 :
    ∃ (n : TileIx) (f : SysF) (r : DRef) (step : Nat) (c : Chain) (s : State),
      canRun s n 0 = true ∧
      f.opnd.toNat ≤ 1 ∧
      f.hx = 0 ∧
      (threadOf s n 0).owner = .chain r step ∧
      chainOf s r = some c ∧
      cueWordTime s (pairVal s (threadOf s n 0) f.d) (nowUnits s) < (nowUnits s : Int) :=
  ⟨0, ⟨2, 0, 1⟩, ⟨2, 9⟩, 0, chain9, { cueState with chains := [chain9], tiles := [(0, { c0 := { thread0 with owner := .chain ⟨2, 9⟩ 0, d := [(2, slotW), (3, 0xFF000000)] } })] }, by decide +kernel⟩

theorem test_CueWaitsAndAtomics_4 :
    ∃ (n : TileIx) (t : Thr) (f : SysF) (s : State),
      canRun s n t = true ∧
      f.d = 0 ∧
      f.opnd = 0 ∧
      (getH (threadOf s n t) f.hx).toNat < lsSize ∧
      ((tileOf s n).dolly.filter fun l => decide (l.thr = t)).length < 8 :=
  ⟨0, 0, ⟨0, 1, 0⟩, core0, by decide +kernel⟩

theorem test_CueWaitsAndAtomics_5 :
    ∃ (n : TileIx) (t : Thr) (f : SysF) (a : Nat) (s : State),
      canRun s n t = true ∧
      f.opnd.toNat ≤ 3 ∧
      addrCheck (getH (threadOf s n t) f.hx).toNat (atomBytes f.opnd.toNat) (atomBytes f.opnd.toNat) = none ∧
      atomTarget s (threadOf s n t) 0 f.opnd.toNat (getH (threadOf s n t) f.hx).toNat = some a ∧
      a % atomBytes f.opnd.toNat = 0 ∧
      (s.mem.atomics.filter fun o => decide (o.tile = n) && decide (o.thr = t)).length < 8 :=
  ⟨0, 0, ⟨2, 1, 2⟩, 0x1040, atomState, by decide +kernel⟩

theorem test_CueWaitsAndAtomics_6 :
    ∃ (n : TileIx) (t : Thr) (f : SysF) (a : Nat) (s : State),
      canRun s n t = true ∧
      f.opnd.toNat < 16 ∧
      2 ≤ f.opnd.toNat % 8 ∧
      f.opnd.toNat % 8 ≤ 3 ∧
      addrCheck (getH (threadOf s n t) f.hx).toNat (atomBytes (f.opnd.toNat % 8)) (atomBytes (f.opnd.toNat % 8)) = none ∧
      atomTarget s (threadOf s n t) (if f.opnd.getLsbD 3 then 2 else 1) (f.opnd.toNat % 8) (getH (threadOf s n t) f.hx).toNat = some a ∧
      a % atomBytes (f.opnd.toNat % 8) = 0 ∧
      (s.mem.atomics.filter fun o => decide (o.tile = n) && decide (o.thr = t)).length < 8 :=
  ⟨0, 0, ⟨2, 1, 10⟩, 0x1040, atomState, by decide +kernel⟩

theorem test_CueWaitsAndAtomics_7 :
    ∃ (n : TileIx) (t : Thr) (f : SysF) (s : State),
      canRun s n t = true ∧
      f.d = 0 ∧
      f.opnd = 0 ∧
      8 ≤ ((tileOf s n).dolly.filter fun l => decide (l.thr = t)).length ∧
      8 ≤ (s.mem.atomics.filter fun o => decide (o.tile = n) && decide (o.thr = t)).length :=
  ⟨0, 0, ⟨0, 1, 0⟩, { State.reset with tiles := [(0, { c0 := thread0, dolly := List.replicate 8 ⟨0, 0, 0, [], none, false, 0, .none⟩ })], mem := { MemS.reset with atomics := List.replicate 8 ⟨0, 0, 0x1040, 0, 2, 1⟩ } }, by decide +kernel⟩

theorem test_CueWaitsAndAtomics_8 :
    ∃ (n : TileIx) (t : Thr) (o : AtomOp) (s : State),
      (s.mem.atomics.find? fun a => decide (a.tile = n) && decide (a.thr = t)) = some o ∧
      o.typ = 2 ∧
      o.op ≤ 2 ∧
      o.addr + 4 ≤ hbmSize ∧
      s.mem.wc = [] ∧
      accessHeld s o.addr = false :=
  ⟨0, 0, ⟨0, 0, 0x1040, 0, 2, 0xFFFFFFFF⟩, { atomState with regs := [(hbmReg 0 8, 1), (hbmReg 1 8, 1), (hbmReg 2 8, 1), (hbmReg 3 8, 1)], mem := { atomState.mem with bytes := [(0x1041, 1)], atomics := [⟨0, 0, 0x1040, 0, 2, 0xFFFFFFFF⟩] } }, by decide +kernel⟩

theorem test_DollyListSteps_1 :
    ∃ (n : TileIx) (t : Thr) (l : DollyList) (s : State),
      listOf (tileOf s n) t = some l ∧
      l.ended = false ∧
      l.atReel = none ∧
      fenced s n = false ∧
      ddOffset l + 32 ≤ lsSize ∧
      (ddFence (memRead s (lsAddr n + ddOffset l) 32) = false ∨ l.jobs = []) ∧
      ddCheck s (memRead s (lsAddr n + ddOffset l) 32) = 0 ∧
      ddSrcReel (memRead s (lsAddr n + ddOffset l) 32) = false ∧
      outstandingOf (fun _ => true) (tileOf s n) ≤ 256 :=
  ⟨0, 0, ⟨0, 0, 0, [], none, false, 0, .none⟩, dollyState 0x02 0, by decide +kernel⟩

theorem test_DollyListSteps_2 :
    ∃ (n : TileIx) (t : Thr) (l : DollyList) (s : State),
      listOf (tileOf s n) t = some l ∧
      l.ended = false ∧
      l.atReel = none ∧
      fenced s n = false ∧
      ddOffset l + 32 ≤ lsSize ∧
      (ddFence (memRead s (lsAddr n + ddOffset l) 32) = false ∨ l.jobs = []) ∧
      ddCheck s (memRead s (lsAddr n + ddOffset l) 32) ≠ 0 :=
  ⟨0, 0, ⟨0, 0, 0, [], none, false, 0, .none⟩, dollyState 0x31 0, by decide +kernel⟩

theorem test_DollyListSteps_3 :
    ∃ (n : TileIx) (t : Thr) (l : DollyList) (s : State),
      listOf (tileOf s n) t = some l ∧
      l.atReel = none ∧
      l.ended = true :=
  ⟨0, 0, ⟨0, 0, 0, [], none, true, 0, .none⟩, { State.reset with tiles := [(0, { dolly := [⟨0, 0, 0, [], none, true, 0, .none⟩] })] }, by decide +kernel⟩

theorem test_DollyListSteps_4 :
    ∃ (n : TileIx) (t : Thr) (l : DollyList) (h : Handle) (q : List Handle) (b : Nat) (s : State),
      listOf (tileOf s n) t = some l ∧
      l.atReel.isSome = true ∧
      (reelOf s (ddSreel (memRead s (lsAddr n + ddOffset l) 32))).q = h :: q ∧
      (reelOf s (ddSreel (memRead s (lsAddr n + ddOffset l) 32))).cons.getLsbD n = true ∧
      popTurn s (ddSreel (memRead s (lsAddr n + ddOffset l) 32)) n = true ∧
      handleAddr s (ddSreel (memRead s (lsAddr n + ddOffset l) 32)) h.h = some b ∧
      (b + ddSrc (memRead s (lsAddr n + ddOffset l) 32)) % 16 = 0 ∧
      ddSrcOut s (memRead s (lsAddr n + ddOffset l) 32) (b + ddSrc (memRead s (lsAddr n + ddOffset l) 32)) = false :=
  ⟨0, 0, ⟨0, 0, 0, [], some 3, false, 0, .none⟩, { h := 0 }, [], 0x1000, { dollyState 0x05 0 with tiles := [(0, { c0 := thread0, dolly := [⟨0, 0, 0, [], some 3, false, 0, .none⟩] })], reels := [(3, { cons := 1, q := [{ h := 0 }], owner := some 0 })], loaded := atomState.loaded }, by decide +kernel⟩

theorem test_DollyListSteps_5 :
    ∃ (n : TileIx) (t : Thr) (l : DollyList) (j : DollyJob) (x : Xfer) (js : List DollyJob) (s : State),
      listOf (tileOf s n) t = some l ∧
      takeXfer (ackable s n t) l.jobs = some (j, x, js) ∧
      poolBase ≤ x.dst ∧
      inAlias x.dst = false ∧
      inFenced s x.dst = false ∧
      inAlias x.src = false ∧
      j.move = .copy ∧
      s.mem.wc = [] :=
  ⟨0, 0, ⟨0, 0, 1, [⟨.copy, true, none, [], [⟨lsAddr 0, lsAddr 0 + 0x1000, 32, 0⟩], ⟨0, 0, 0, 0⟩, 0, 0, 0⟩], none, true, 0, .none⟩, ⟨.copy, true, none, [], [⟨lsAddr 0, lsAddr 0 + 0x1000, 32, 0⟩], ⟨0, 0, 0, 0⟩, 0, 0, 0⟩, ⟨lsAddr 0, lsAddr 0 + 0x1000, 32, 0⟩, [⟨.copy, true, none, [], [], ⟨0, 0, 0, 0⟩, 0, 0, 0⟩], { dollyState 0 0 with tiles := [(0, { dolly := [⟨0, 0, 1, [⟨.copy, true, none, [], [⟨lsAddr 0, lsAddr 0 + 0x1000, 32, 0⟩], ⟨0, 0, 0, 0⟩, 0, 0, 0⟩], none, true, 0, .none⟩] })] }, by decide +kernel⟩

theorem test_DollyListSteps_6 :
    ∃ (n : TileIx) (t : Thr) (l : DollyList) (w : Word) (j : DollyJob) (x : Xfer) (js : List DollyJob) (s : State),
      listOf (tileOf s n) t = some l ∧
      takeXfer (ackable s n t) l.jobs = some (j, x, js) ∧
      j.move = .fill w ∧
      poolBase ≤ x.dst ∧
      inAlias x.dst = false ∧
      inFenced s x.dst = false ∧
      s.mem.wc = [] :=
  ⟨0, 0, ⟨0, 0, 1, [⟨.fill 7, true, none, [], [⟨0, lsAddr 0 + 0x1000, 32, 0⟩], ⟨0, 0, 0, 0⟩, 0, 0, 0⟩], none, true, 0, .none⟩, 7, ⟨.fill 7, true, none, [], [⟨0, lsAddr 0 + 0x1000, 32, 0⟩], ⟨0, 0, 0, 0⟩, 0, 0, 0⟩, ⟨0, lsAddr 0 + 0x1000, 32, 0⟩, [⟨.fill 7, true, none, [], [], ⟨0, 0, 0, 0⟩, 0, 0, 0⟩], { dollyState 0 0 with tiles := [(0, { dolly := [⟨0, 0, 1, [⟨.fill 7, true, none, [], [⟨0, lsAddr 0 + 0x1000, 32, 0⟩], ⟨0, 0, 0, 0⟩, 0, 0, 0⟩], none, true, 0, .none⟩] })] }, by decide +kernel⟩

theorem test_DollyListSteps_7 :
    ∃ (n : TileIx) (t : Thr) (l : DollyList) (j : DollyJob) (js : List DollyJob) (s : State),
      listOf (tileOf s n) t = some l ∧
      l.jobs = j :: js ∧
      jobDone j = true ∧
      j.push = none :=
  ⟨0, 0, ⟨0, 0, 1, [⟨.copy, true, none, [], [], ⟨0, 0, 0, 0⟩, 0, 0, 0⟩], none, true, 0, .none⟩, ⟨.copy, true, none, [], [], ⟨0, 0, 0, 0⟩, 0, 0, 0⟩, [], { State.reset with tiles := [(0, { dolly := [⟨0, 0, 1, [⟨.copy, true, none, [], [], ⟨0, 0, 0, 0⟩, 0, 0, 0⟩], none, true, 0, .none⟩] })] }, by decide +kernel⟩

theorem test_DollyListSteps_8 :
    ∃ (n : TileIx) (t : Thr) (l : DollyList) (j : DollyJob) (js : List DollyJob) (r : Nat) (h : BitVec 16) (s : State),
      listOf (tileOf s n) t = some l ∧
      l.jobs = j :: js ∧
      jobDone j = true ∧
      j.push = some (r, h) ∧
      (reelOf s r).prod.getLsbD n = true ∧
      (reelOf s r).q.length + pushesWaiting s r (fun m => decide (m < n)) < 64 :=
  ⟨0, 0, ⟨0, 0, 1, [⟨.copy, true, some (3, 9), [], [], ⟨0, 0, 0, 0⟩, 0, 0, 0⟩], none, true, 0, .none⟩, ⟨.copy, true, some (3, 9), [], [], ⟨0, 0, 0, 0⟩, 0, 0, 0⟩, [], 3, 9, { State.reset with reels := [(3, { prod := 1 })], tiles := [(0, { dolly := [⟨0, 0, 1, [⟨.copy, true, some (3, 9), [], [], ⟨0, 0, 0, 0⟩, 0, 0, 0⟩], none, true, 0, .none⟩] })] }, by decide +kernel⟩

theorem test_DollyListSteps_9 :
    ∃ (n : TileIx) (s : State),
      0 < rdf s (tileReg n 0x28) 15 0 :=
  ⟨0, { State.reset with clk := 5, regs := [(tileReg 0 0x28, 3)] }, by decide +kernel⟩

theorem test_CodecRoundTrip_1 :
    ∃ (raw : List Byte),
      1 ≤ raw.length ∧
      raw.length ≤ 4096 :=
  ⟨[0, 0, 0, 0, 7, 0, 255, 255], by decide +kernel⟩

theorem test_CodecRoundTrip_2 :
    ∃ (raw : List Byte),
      1 ≤ raw.length ∧
      raw.length ≤ 4096 :=
  ⟨[0, 0, 0, 0, 7, 0, 255, 255], by decide +kernel⟩

theorem test_CodecBlocksInMemory_1 :
    ∃ (e : Fin 16) (src : Nat) (dst : Nat) (len : Nat) (b : CodecBlk) (j : DollyJob) (s : State),
      codecHead s (2 * e.val) src dst = some (b, j) ∧
      len = min 4096 j.stream.len ∧
      inAlias src = false ∧
      inFenced s src = false :=
  ⟨0, lsAddr 0, 0x1000, 32, ⟨0, 0, 0, 0⟩, encJob, codecState encJob (codecBytes false) 0, by decide +kernel⟩

theorem test_CodecBlocksInMemory_2 :
    ∃ (e : Fin 16) (src : Nat) (dst : Nat) (raw : List Byte) (b : CodecBlk) (j : DollyJob) (s : State),
      codecHead s (2 * e.val + 1) src dst = some (b, j) ∧
      inAlias src = false ∧
      inFenced s src = false ∧
      src + 16 + codecPayLen (memRead s src 16) ≤ hbmSize ∧
      codecDecode (memRead s src (16 + codecPayLen (memRead s src 16))) = some raw :=
  ⟨0, 0x1000, lsAddr 0 + 0x1000, List.replicate 64 0, ⟨0, 0, 0, 0⟩, decJob, codecState decJob (codecBytes true) 1, by decide +kernel⟩

theorem test_CodecBlocksInMemory_3 :
    ∃ (e : Fin 16) (src : Nat) (dst : Nat) (b : CodecBlk) (j : DollyJob) (s : State),
      codecHead s (2 * e.val + 1) src dst = some (b, j) ∧
      inAlias src = false ∧
      inFenced s src = false ∧
      src + 16 + codecPayLen (memRead s src 16) ≤ hbmSize ∧
      codecDecode (memRead s src (16 + codecPayLen (memRead s src 16))) = none :=
  ⟨0, 0x1000, lsAddr 0 + 0x1000, ⟨0, 0, 0, 0⟩, decJob, codecState decJob (codecBytes false) 1, by decide +kernel⟩

theorem test_CodecBlocksInMemory_4 :
    ∃ (n : TileIx) (t : Thr) (k : Nat) (l : DollyList) (j : DollyJob) (x : Xfer) (js : List DollyJob) (o : CodecOut) (os : List CodecOut) (s : State),
      listOf (tileOf s n) t = some l ∧
      takeXfer (ackable s n t) l.jobs = some (j, x, js) ∧
      jobPipe j = some k ∧
      ((j.outstanding.erase x).any fun y => decide (y.blk = x.blk)) = false ∧
      codecOut s k = o :: os ∧
      poolBase ≤ o.dst ∧
      inAlias o.dst = false ∧
      inFenced s o.dst = false ∧
      s.mem.wc = [] :=
  ⟨0, 0, 1, { (codecList decJob) with base := 0 }, decJob, ⟨0x1000, lsAddr 0 + 0x1000, 64, 0⟩, [{ decJob with outstanding := [] }], ⟨⟨0, 0, 0, 0⟩, lsAddr 0 + 0x1000, List.replicate 64 7, true⟩, [], { codecState decJob [] 1 with mem := { MemS.reset with codecOut := [(1, [⟨⟨0, 0, 0, 0⟩, lsAddr 0 + 0x1000, List.replicate 64 7, true⟩])] } }, by decide +kernel⟩

theorem test_CodecBlocksInMemory_5 :
    ∃ (n : TileIx) (t : Thr) (k : Nat) (l : DollyList) (j : DollyJob) (x : Xfer) (js : List DollyJob) (s : State),
      listOf (tileOf s n) t = some l ∧
      takeXfer (ackable s n t) l.jobs = some (j, x, js) ∧
      jobPipe j = some k ∧
      ((j.outstanding.erase x).any fun y => decide (y.blk = x.blk)) = true :=
  ⟨0, 0, 1, { (codecList decJob2) with base := 0 }, decJob2, ⟨0x1000, lsAddr 0 + 0x1000, 64, 0⟩, [{ decJob2 with outstanding := [⟨0x1040, lsAddr 0 + 0x1040, 64, 0⟩] }], { codecState decJob2 [] 1 with mem := { MemS.reset with codecOut := [(1, [⟨⟨0, 0, 0, 0⟩, lsAddr 0 + 0x1000, List.replicate 64 7, true⟩])] } }, by decide +kernel⟩

theorem test_ScoringAndFileDescriptors_1 :
    ∃ (r : DRef) (d : BitVec 512) (dma : Dma) (bs : List Byte) (l : Loaded) (s : State),
      Ready s r d 0x20 { in0 := true, out1 := true, badLength := decide (dLen0 d % 128 ≠ 0) || decide (dLen0 d = 0) || decide (128 * 4096 < dLen0 d) || decide (dLen1 d ≠ dLen0 d / 32), badMode := detConflict s d (scoreModel s (field (dOpw d 0) 15 0)) } ∧
      field (dOpw d 0) 31 16 = 0 ∧
      dBits d 288 224 = 0 ∧
      scoreModel s (field (dOpw d 0) 15 0) = some l ∧
      inputOf s d dma = .bytes bs ∧
      (dClass d = 1 ∨ backlog s l ≤ rdf s 0x60020 15 0) ∧
      queueLen s l.part (dClass d) < 16384 :=
  ⟨ref, desc 0x20 1 1 0x1000 256 8 0x2000 [9], .data [1], (fitTo 256 [1]), model9, { scoring (desc 0x20 1 1 0x1000 256 8 0x2000 [9]) with items := [] }, by decide +kernel⟩

theorem test_ScoringAndFileDescriptors_2 :
    ∃ (r : DRef) (d : BitVec 512) (dma : Dma) (bs : List Byte) (c : SetCounts) (u : State) (s : State),
      Ready s r d 0x21 { in0 := true, badLength := decide (dLen0 d = 0) || decide (dLen0 d % 64 ≠ 0) || decide (262144 < dLen0 d) } ∧
      dBits d 256 256 = 0 ∧
      dA0Dev d = false ∧
      inputOf s d dma = .bytes bs ∧
      setEntries (dLen0 d / 64) bs {} s = (c, u) :=
  ⟨ref, desc 0x21 1 1 0x1000 64 0 0 [], .data [], (zeros 64), { skipped := 1 }, flying (desc 0x21 1 1 0x1000 64 0 0 []), flying (desc 0x21 1 1 0x1000 64 0 0 []), by decide +kernel⟩

theorem test_ScoringAndFileDescriptors_3 :
    ∃ (n : Nat),
      n ≤ 4096 :=
  ⟨3, by decide +kernel⟩

theorem test_ScoringAndFileDescriptors_4 :
    ∃ (r : DRef) (d : BitVec 512) (k : Nat) (s : State),
      Ready s r d 0x30 {} ∧
      field (dOpw d 0) 31 3 = 0 ∧
      dBits d 320 192 = 0 ∧
      (dOpw d 1).toNat ≤ 65536 * profChunks s (field (dOpw d 0) 2 0) ∧
      freeFile s = some k :=
  ⟨ref, desc 0x30 3 1 0 0 0 0 [0, 5], 0, { flying (desc 0x30 3 1 0 0 0 0 [0, 5]) with regs := (0x60400, 0x10000) :: regs }, by decide +kernel⟩

theorem test_ScoringAndFileDescriptors_5 :
    ∃ (r : DRef) (d : BitVec 512) (s : State),
      Ready s r d 0x30 {} ∧
      field (dOpw d 0) 31 3 = 0 ∧
      dBits d 320 192 = 0 ∧
      (dOpw d 1).toNat ≤ 65536 * profChunks s (field (dOpw d 0) 2 0) ∧
      freeFile s = none :=
  ⟨ref, desc 0x30 3 1 0 0 0 0 [0, 5], { flying (desc 0x30 3 1 0 0 0 0 [0, 5]) with regs := (0x60400, 0x10000) :: regs, flow := { FlowS.reset with files := (List.range 1024).map fun k => { file0 with id := k } } }, by decide +kernel, by decide +kernel, by decide +kernel, by decide +kernel, full_files _ rfl⟩

theorem test_ScoringAndFileDescriptors_6 :
    ∃ (r : DRef) (d : BitVec 512) (dma : Dma) (bs : List Byte) (f : FileX) (s : State),
      Ready s r d 0x31 { in0 := true, badLength := decide (dLen0 d = 0) || decide (65536 < dLen0 d) } ∧
      fileReserved d 2 = false ∧
      fileFor s r (field (dOpw d 0) 15 0) = some f ∧
      f.queued = false ∧
      (dOpw d 1).toNat < profChunks s f.profile ∧
      inputOf (touchFile f s) d dma = .bytes bs :=
  ⟨ref, desc 0x31 3 1 0x1000 2 0 0 [0, 5], .data [7, 8], [7, 8], file0, filing (desc 0x31 3 1 0x1000 2 0 0 [0, 5]), by decide +kernel⟩

theorem test_ScoringAndFileDescriptors_7 :
    ∃ (r : DRef) (d : BitVec 512) (f : FileX) (l : Loaded) (s : State),
      Ready s r d 0x32 { badMode := detConflict s d (closeModel s r d) } ∧
      fileReserved d 2 = false ∧
      fileFor s r (field (dOpw d 0) 15 0) = some f ∧
      f.queued = false ∧
      scoreModel s (profModel s f.profile) = some l ∧
      filesWaiting s < 64 :=
  ⟨ref, desc 0x32 3 1 0 0 0 0 [0, 1], file0, model9, filing (desc 0x32 3 1 0 0 0 0 [0, 1]), by decide +kernel⟩

theorem test_ScoringAndFileDescriptors_8 :
    ∃ (r : DRef) (d : BitVec 512) (f : FileX) (s : State),
      Ready s r d 0x33 {} ∧
      fileReserved d 1 = false ∧
      fileFor s r (field (dOpw d 0) 15 0) = some f ∧
      f.queued = false :=
  ⟨ref, desc 0x33 3 1 0 0 0 0 [0], file0, filing (desc 0x33 3 1 0 0 0 0 [0]), by decide +kernel⟩

theorem test_ScoringAndFileDescriptors_9 :
    ∃ (r : DRef) (k : Nat) (f : FileX) (s : State),
      fileFor s r k = some f :=
  ⟨ref, 0, file0, filing (desc 0x33 3 1 0 0 0 0 [0]), by decide +kernel⟩

theorem test_LoadsAndTakes_1 :
    ∃ (r : DRef) (d : BitVec 512) (dma : Dma) (bs : List Byte) (tiles : List Nat) (reels : List Nat) (s : State),
      Ready s r d 0x50 { in0 := true, badLength := imageLenBad d, untestedPair := inputUntested s d dma } ∧
      dA0Dev d = false ∧
      inputOf s d dma = .bytes bs ∧
      field (dOpw d 0) 15 0 ≠ 0 ∧
      field (dOpw d 0) 31 16 = 0 ∧
      field (dOpw d 1) 31 3 = 0 ∧
      dBits d 320 192 = 0 ∧
      (imageHeaderOk 2 bs && dirOk 2 bs && tablesOk bs) = true ∧
      ((readImage bs).code.all fun x => codeOk false x.2) = true ∧
      ((readImage bs).codeSu.all (codeOk true)) = true ∧
      s.loadsOk = true ∧
      admitModel s (field (dOpw d 0) 15 0) (field (dOpw d 1) 2 0) (readImage bs) = .ok tiles reels :=
  ⟨ref, modelDesc, .data model1, model1, [0], [], loading modelDesc, by decide +kernel⟩

theorem test_LoadsAndTakes_2 :
    ∃ (r : DRef) (d : BitVec 512) (dma : Dma) (bs : List Byte) (s : State),
      Ready s r d 0x52 { in0 := true, badLength := imageLenBad d, untestedPair := inputUntested s d dma, timeDep := (dOpw d 0).getLsbD 16 } ∧
      dA0Dev d = false ∧
      inputOf s d dma = .bytes bs ∧
      field (dOpw d 0) 15 0 ≠ 0 ∧
      field (dOpw d 0) 31 16 = 0 ∧
      dOpw d 1 = 0 ∧
      dBits d 320 192 = 0 ∧
      (imageHeaderOk 1 bs && dirOk 1 bs && tablesOk bs) = true ∧
      ((readImage bs).code.all fun x => codeOk false x.2) = true ∧
      ((readImage bs).codeSu.all (codeOk true)) = true ∧
      s.loadsOk = true :=
  ⟨ref, sheetDesc, .data sheet1, sheet1, { loading sheetDesc with regs := [(0x20080, 1), (0x30204, 1)] ++ (loading sheetDesc).regs }, by decide +kernel⟩

theorem test_LoadsAndTakes_3 :
    ∃ (r : DRef) (d : BitVec 512) (dma : Dma) (bs : List Byte) (s : State),
      Ready s r d 0x51 { in0 := true, badLength := decide (dLen0 d = 0) || decide (0x1000000 < dLen0 d), untestedPair := packUntested s d dma } ∧
      isDrop d = false ∧
      field (dOpw d 0) 15 0 ≠ 0 ∧
      field (dOpw d 0) 31 17 = 0 ∧
      dBits d 288 224 = 0 ∧
      inputOf s d dma = .bytes bs ∧
      packOk (field (dOpw d 0) 15 0) bs = true ∧
      (activeLoad s).isSome = true ∧
      ((packsNow s).filter fun p => decide (p.id.toNat ≠ field (dOpw d 0) 15 0)).length < 2 :=
  ⟨ref, packDesc, .data pack1, pack1, { loading packDesc with loaded := [sheet] }, by decide +kernel⟩

theorem test_LoadsAndTakes_4 :
    ∃ (r : DRef) (d : BitVec 512) (dma : Dma) (bs : List Byte) (l : Loaded) (s : State),
      Ready s r d 0x40 (takeRules s d) ∧
      takeMalformed d false = false ∧
      takeModel s (field (dOpw d 0) 15 0) = some l ∧
      groupUsable s (takeGroup d).val = true ∧
      (dDigest d = true → Config.modelLayers l.img.raw ≤ (dOpw d 6).toNat / 8) ∧
      inputOf s d dma = .bytes bs ∧
      (takeQueue s l.part).length < 256 ∧
      sagWarn s = false :=
  ⟨ref, desc 0x40 4 1 0x1000 2 0 0 [9], .data [1, 2], [1, 2], model9, taking (desc 0x40 4 1 0x1000 2 0 0 [9]), by decide +kernel⟩

theorem test_LoadsAndTakes_5 :
    ∃ (r : DRef) (d : BitVec 512) (answered : Bool) (input : List Byte) (bs : List Byte) (l : Loaded) (k : Token) (s : State),
      Ready s r d 0x41 (takeRules s d) ∧
      takeMalformed d true = false ∧
      takeModel s (field (dOpw d 0) 15 0) = some l ∧
      groupUsable s (takeGroup d).val = true ∧
      (dDigest d = true → Config.modelLayers l.img.raw ≤ (dOpw d 6).toNat / 8) ∧
      inputOf s d (if answered then .data input else .error) = .bytes bs ∧
      l.token = some k ∧
      takeToken d = tokenWord l.token ∧
      takeToken d ≠ 0 ∧
      (s.jobs.any fun j => j.running && decide (j.image = l.num)) = false ∧
      (takeQueue s l.part).length < 256 ∧
      sagWarn s = false :=
  ⟨ref, resumeDesc, true, [1, 2], [1, 2], { model9 with token := some token0 }, token0, { taking resumeDesc with loaded := [{ model9 with token := some token0 }] }, by decide +kernel⟩

theorem test_LoadsAndTakes_6 :
    ∃ (r : DRef) (d : BitVec 512) (s : State),
      Ready s r d 0x42 { timeDep := true } ∧
      slateMalformed d = false ∧
      groupUsable s (takeGroup d).val = true ∧
      groupCoord s (takeGroup d).val = true ∧
      nowUnits s + slateLead s ≤ slateTime d ∧
      s.splice.slates.any (slateIs (takeGroup d) (field (dOpw d 0) 15 0)) = false ∧
      s.splice.slates.length < 64 ∧
      anyUnreached s 1 (groupChildren s (takeGroup d).val) = false :=
  ⟨ref, desc 0x42 4 1 0 0 0 0 [5, 1, 0, 7], { flying (desc 0x42 4 1 0 0 0 0 [5, 1, 0, 7]) with regs := [(0xB0400, 0x11), (0xB0408, 1)] ++ regs }, by decide +kernel⟩

theorem test_LoadsAndTakes_7 :
    ∃ (r : DRef) (d : BitVec 512) (c : Capture) (s : State),
      Ready s r d 0x56 { out1 := true } ∧
      field (dOpw d 0) 15 3 = 0 ∧
      dBits d 320 192 = 0 ∧
      rdb s 0x30320 0 = true ∧
      captureOf s (field (dOpw d 0) 1 0) = none ∧
      (dOpw d 0).getLsbD 2 = false ∧
      c = { ref := r, grid := Fin.ofNat 4 (field (dOpw d 0) 1 0), mask := BitVec.ofNat 16 (field (dOpw d 0) 31 16), left := if dOpw d 1 = 0 then none else some (dOpw d 1).toNat, addr := dAddr1 d, dev := dA1Dev d, room := dLen1 d, written := 0 } ∧
      capBytes s c ≤ dLen1 d :=
  ⟨ref, desc 0x56 5 1 0 0 64 0x2000 [0], { ref := ⟨2, 0⟩, grid := 0, mask := 0, left := none, addr := 0x2000, dev := false, room := 64, written := 0 }, { flying (desc 0x56 5 1 0 0 64 0x2000 [0]) with regs := (0x30320, 1) :: regs }, by decide +kernel⟩

theorem test_CuesStartAndCheckSteps_1 :
    ∃ (g : GridIx) (sfn : BitVec 10) (slot : BitVec 5) (ch : Fin 16) (step : Nat) (c : Chain) (x : StepRun) (l : Loaded) (s : State),
      slotChain s g sfn slot ch = some c ∧
      chainOf s c.ref = some c ∧
      loadedNum s c.image = some l ∧
      step < l.img.steps.length ∧
      (c.steps.find? fun x => decide (x.ix = step)) = some x ∧
      x.state = .armed ∧
      fenced s x.tile = false ∧
      (threadOf s x.tile 0).run = .stopped ∧
      tooSoon s c x.tile = false ∧
      0 < incUnits s ∧
      x.cue + incUnits s < 2 ^ 48 * unitsS ∧
      x.tile < 64 :=
  ⟨0, 661, 0, 8, 0, chainA, ⟨stp 8, 0, 0, 0, .armed, none, []⟩, sheet, chained chainA, by decide +kernel⟩

theorem test_CuesStartAndCheckSteps_2 :
    ∃ (g : GridIx) (sfn : BitVec 10) (slot : BitVec 5) (ch : Fin 16) (step : Nat) (c : Chain) (x : StepRun) (l : Loaded) (u : Nat) (b : Bool) (s : State),
      slotChain s g sfn slot ch = some c ∧
      loadedNum s c.image = some l ∧
      step < l.img.steps.length ∧
      (c.steps.find? fun x => decide (x.ix = step)) = some x ∧
      x.state = .running ∧
      (threadOf s x.tile 0).run = .waiting (.cue u b) ∧
      0 < incUnits s ∧
      u + incUnits s < 2 ^ 48 * unitsS :=
  ⟨0, 661, 0, 8, 0, chain9, ⟨{ stp 8 with last := false }, 0, 0, 0, .running, none, []⟩, sheet, 5, false, { chained chain9 with tiles := [(0, { c0 := { thread0 with run := .waiting (.cue 5 false) } })] }, by decide +kernel⟩

theorem test_CuesStartAndCheckSteps_3 :
    ∃ (g : GridIx) (sfn : BitVec 10) (slot : BitVec 5) (ch : Fin 16) (n : Nat) (u : Nat) (w : Nat) (b : Bool) (s : State),
      slotChain s g sfn slot ch = none ∧
      earliestWait s.tiles = some (n, w) ∧
      (threadOf s n 0).run = .waiting (.cue u b) ∧
      0 < incUnits s ∧
      u + incUnits s < 2 ^ 48 * unitsS :=
  ⟨0, 661, 0, 8, 0, 5, 5, false, { chained chainA with chains := [], tiles := [(0, { c0 := { thread0 with run := .waiting (.cue 5 false) } })] }, by decide +kernel⟩

theorem test_CuesStartAndCheckSteps_4 :
    ∃ (g : GridIx) (sfn : BitVec 10) (slot : BitVec 5) (ch : Fin 16) (step : Nat) (c : Chain) (l : Loaded) (s : State),
      slotChain s g sfn slot ch = some c ∧
      loadedNum s c.image = some l ∧
      l.img.steps.length ≤ step ∧
      0 < incUnits s ∧
      c.deadline + incUnits s < 2 ^ 48 * unitsS :=
  ⟨0, 661, 0, 8, 3, chain9, sheet, chained chain9, by decide +kernel⟩

theorem test_CuesStartAndCheckSteps_5 :
    ∃ (g : GridIx) (sfn : BitVec 10) (slot : BitVec 5) (ch : Fin 16) (step : Nat) (c : Chain) (x : StepRun) (s : State),
      slotChain s g sfn slot ch = some c ∧
      chainOf s c.ref = some c ∧
      (c.steps.find? fun x => decide (x.ix = step)) = some x ∧
      x.state ≠ .done ∧
      0 < incUnits s ∧
      x.cue + x.ent.check * unitsNs + incUnits s < 2 ^ 48 * unitsS :=
  ⟨0, 661, 0, 8, 0, chain9, ⟨{ stp 8 with last := false }, 0, 0, 0, .running, none, []⟩, chained chain9, by decide +kernel⟩

theorem test_CuesStartAndCheckSteps_6 :
    ∃ (g : GridIx) (sfn : BitVec 10) (slot : BitVec 5) (ch : Fin 16) (step : Nat) (c : Chain) (x : StepRun) (s : State),
      slotChain s g sfn slot ch = some c ∧
      (c.steps.find? fun x => decide (x.ix = step)) = some x ∧
      x.state = .done :=
  ⟨0, 661, 0, 8, 0, setStep chain9 0 .done, ⟨{ stp 8 with last := false }, 0, 0, 0, .done, none, []⟩, chained (setStep chain9 0 .done), by decide +kernel⟩

theorem test_WindowsAndSecondUnit_1 :
    ∃ (r : Round) (req : Nat → Bool) (c : Nat) (s : State),
      pickClass s r req = some c :=
  ⟨{}, (fun k => k == 2 || k == 3), 2, State.reset, by decide +kernel⟩

theorem test_WindowsAndSecondUnit_2 :
    ∃ (p : Fin 8) (n : TileIx) (c : Nat) (i : Item) (l : Loaded) (s : State),
      partKind s p = 2 ∧
      (members s p).contains n.val = true ∧
      (threadOf s n 0).run = .stopped ∧
      itemOn s n 0 = none ∧
      pickClass s (roundOf s p) (fun c => decide (c ≤ 3) && ((nextItem s p c).any (canStart s n))) = some c ∧
      nextItem s p c = some i ∧
      loadedNum s i.image = some l :=
  ⟨1, 0, 2, item0, model9su, sued, by decide +kernel⟩

theorem test_WindowsAndSecondUnit_3 :
    ∃ (n : TileIx) (q : Nat) (c : Nat) (i : Item) (s : State),
      suFrom s = some q ∧
      suTileFree s n = true ∧
      sagWarn s = false ∧
      pickClass s (roundOf s 8) (fun c => decide (c ≤ 3) && ((nextItem s q c).any fun i => (itemSu s i).isSome)) = some c ∧
      nextItem s q c = some i :=
  ⟨2, 1, 2, item0, sued, by decide +kernel⟩

theorem test_WindowsAndSecondUnit_4 :
    ∃ (s : State),
      sagWarn s = true :=
  ⟨{ sued with regs := (0x40000, 1) :: sued.regs }, by decide +kernel⟩

theorem test_WindowsAndSecondUnit_5 :
    ∃ (n : TileIx) (w : Nat) (x : WinRun) (s : State),
      windowAt s n w = some x ∧
      (suFrom s).isSome = true ∧
      (suItem s n).isSome = true ∧
      sagWarn s = false ∧
      x.released = false ∧
      (∀ k ∈ List.range 4, (arrOf (tileOf s n) k).queue = []) :=
  ⟨2, 0, win0, windowed win0, by decide +kernel⟩

theorem test_WindowsAndSecondUnit_6 :
    ∃ (n : TileIx) (w : Nat) (x : WinRun) (m : BitVec 4) (s : State),
      windowAt s n w = some x ∧
      (suFrom s).isSome = true ∧
      (suItem s n).isSome = true ∧
      sagWarn s = false ∧
      x.released = true ∧
      x.opened = 0 ∧
      (∀ k ∈ List.range 4, (arrOf (tileOf s n) k).queue = []) ∧
      m = x.win.amask &&& x.loaded &&& idleArrays (tileOf s n) ∧
      m ≠ 0 ∧
      nowUnits (runToTime (x.cue + x.win.opens * unitsNs) s) < x.cue + x.win.close * unitsNs :=
  ⟨2, 0, win1, 1, { windowed win1 with regs := [(0x20024, 1), (0x20020, 0)] ++ (windowed win1).regs }, by decide +kernel⟩

theorem test_WindowsAndSecondUnit_7 :
    ∃ (n : TileIx) (i : Item) (at_ : Nat) (s : State),
      itemOn s n 1 = some i ∧
      itemOf s i.num = some i ∧
      i.parkedAt = some at_ ∧
      syncDone s n 1 0xFF = true :=
  ⟨2, { item0 with on := some (2, 1), parkedAt := some 9 }, 9, { sued with items := [{ item0 with on := some (2, 1), parkedAt := some 9 }] }, by decide +kernel⟩

theorem test_WindowsAndSecondUnit_8 :
    ∃ (n : TileIx) (i : Item) (at_ : Nat) (s : State),
      itemOn s n 1 = some i ∧
      itemOf s i.num = some i ∧
      i.parkedAt = some at_ ∧
      syncDone s n 1 0xFF = false ∧
      i.leaving = none :=
  ⟨2, { item0 with on := some (2, 1), parkedAt := some 9 }, 9, { sued with items := [{ item0 with on := some (2, 1), parkedAt := some 9 }], tiles := [(2, { a0 := { load := .loading [] 0 1 false } })] }, by decide +kernel⟩

theorem test_WindowsAndSecondUnit_9 :
    ∃ (n : TileIx) (t : Thr) (k : Nat) (cycles : Nat) (i : Item) (s : State),
      (threadOf s n t).run = .halting ∧
      syncDone s n t 0xFF = true ∧
      (threadOf s n t).owner = .item k ∧
      itemOf s k = some i ∧
      i.num = k ∧
      i.on = some (n, t) ∧
      i.leaving = some (0, cycles) :=
  ⟨2, 1, 0, 5, { item0 with on := some (2, 1), leaving := some (0, 5) }, { sued with items := [{ item0 with on := some (2, 1), leaving := some (0, 5) }], tiles := [(2, { c1 := { thread0 with run := .halting, owner := .item 0 } })] }, by decide +kernel⟩

theorem test_WindowsAndSecondUnit_10 :
    ∃ (n : TileIx) (t : Thr) (ws : List Word) (i : Item) (r : DRef) (s : State),
      itemOn s n t = some i ∧
      (threadOf s n t).run = .stopped ∧
      i.src = .desc r ∧
      i.done + ws.length = i.total :=
  ⟨0, 0, [7], { item0 with on := some (0, 0) }, ⟨2, 7⟩, { sued with items := [{ item0 with on := some (0, 0) }] }, by decide +kernel⟩

theorem test_WindowsAndSecondUnit_11 :
    ∃ (n : TileIx) (role : Nat) (l : Loaded) (s : State),
      fencedSheet s role = some l ∧
      (standbys s l.part).contains n.val = true ∧
      (s.loaded.any fun x => decide (x.img.kind = 1) && x.tiles.contains n.val) = false ∧
      itemOn s n 1 = none ∧
      s.loadsOk = true :=
  ⟨3, 0, { sheet with tiles := [2] }, { sued with nextLoad := 5, loaded := [{ sheet with tiles := [2] }], regs := [(tileReg 2 4, 1), (0x3010C, 0x20)] ++ sued.regs }, by decide +kernel⟩

theorem test_WindowsAndSecondUnit_12 :
    ∃ (model : BitVec 16) (role : Nat) (n : Nat) (l : Loaded) (s : State),
      (s.loaded.find? fun l => decide (l.img.kind = 2) && decide (l.id = model) && decide (l.state ≠ .lost) && ((l.tiles[role]?).any (fenced s))) = some l ∧
      rebindTile s l = some n :=
  ⟨9, 0, 1, model9su, { sued with regs := [(tileReg 0 4, 1), (0x30104, 0x11)] ++ sued.regs }, by decide +kernel⟩

theorem test_TakeJobsAndSlates_1 :
    ∃ (p : Fin 8) (j : Job) (js : List Job) (l : Loaded) (s : State),
      partKind s p = 3 ∧
      jobOn s p = none ∧
      takeQueue s p = j :: js ∧
      jobLoad s j = some l ∧
      j.waiting = false ∧
      roleFenced s l = false ∧
      j.start = 0 :=
  ⟨1, job0, [], model9, jobbed [job0], by decide +kernel⟩

theorem test_TakeJobsAndSlates_2 :
    ∃ (p : Fin 8) (j : Job) (js : List Job) (l : Loaded) (s : State),
      partKind s p = 3 ∧
      jobOn s p = none ∧
      takeQueue s p = j :: js ∧
      jobLoad s j = some l ∧
      j.waiting = false ∧
      roleFenced s l = false ∧
      j.start ≠ 0 :=
  ⟨1, { job0 with start := 5 }, [], model9, jobbed [{ job0 with start := 5 }], by decide +kernel⟩

theorem test_TakeJobsAndSlates_3 :
    ∃ (p : Fin 8) (j : Job) (l : Loaded) (s : State),
      jobOn s p = some j ∧
      jobLoad s j = some l ∧
      j.retaking = false ∧
      j.restoring = false ∧
      j.arrived = false ∧
      (barrierOf s j.group j.layer).halted = false ∧
      rolesHalted s l = true ∧
      (layerColls l j.layer)[j.colls]? = none ∧
      groupParent s j.group.val = none ∧
      ((groupChildren s j.group.val).all fun c => (barrierOf s j.group j.layer).arrived.contains (BitVec.ofNat 14 c)) = true ∧
      s.splice.slates.length < 64 ∧
      anyUnreached s 1 (groupChildren s j.group.val) = false :=
  ⟨1, { job0 with running := true }, model9, jobbed [{ job0 with running := true }], by decide +kernel⟩

theorem test_TakeJobsAndSlates_4 :
    ∃ (p : Fin 8) (j : Job) (l : Loaded) (s : State),
      jobOn s p = some j ∧
      jobLoad s j = some l ∧
      j.retaking = false ∧
      j.restoring = false ∧
      j.arrived = false ∧
      (barrierOf s j.group j.layer).halted = false ∧
      rolesHalted s l = true ∧
      (layerColls l j.layer)[j.colls]? = none ∧
      ((groupChildren s j.group.val).all fun c => (barrierOf s j.group j.layer).arrived.contains (BitVec.ofNat 14 c)) = false :=
  ⟨1, { job0 with running := true }, model9, { jobbed [{ job0 with running := true }] with regs := [(0xB0400, 0x21), (0xB0408, 3)] ++ (jobbed []).regs }, by decide +kernel⟩

theorem test_TakeJobsAndSlates_5 :
    ∃ (g : Fin 16) (id : BitVec 16) (x : Slate) (s : State),
      (s.splice.slates.find? fun x => decide (x.group = g) && decide (x.id = id)) = some x ∧
      slatesBefore x s.splice.slates = [] ∧
      (x.ref = none ∨ slateAcked s x = true) ∧
      id.toNat < 32768 ∧
      (s.jobs.all fun j => !j.waiting) = true ∧
      0 < incUnits s ∧
      x.time + incUnits s < 2 ^ 48 * unitsS :=
  ⟨0, 5, slate0, { jobbed [] with splice := { SpliceS.reset with slates := [slate0] } }, by decide +kernel⟩

theorem test_TakeJobsAndSlates_6 :
    ∃ (g : Fin 16) (id : BitVec 16) (x : Slate) (y : Slate) (s : State),
      s.splice.slates = [x, y] ∧
      x.group = g ∧
      x.id = id ∧
      y.time = x.time ∧
      y.id.toNat < id.toNat ∧
      id.toNat < 32768 ∧
      x.ref = none ∧
      y.ref = none ∧
      s.jobs = [] :=
  ⟨0, 5, slate0, { slate0 with group := 1, id := 3 }, { jobbed [] with splice := { SpliceS.reset with slates := [slate0, { slate0 with group := 1, id := 3 }] } }, by decide +kernel⟩

theorem test_TakeJobsAndSlates_7 :
    ∃ (g : Fin 16) (id : BitVec 16) (x : Slate) (r : DRef) (s : State),
      (s.splice.slates.find? fun x => decide (x.group = g) && decide (x.id = id)) = some x ∧
      slatesBefore x s.splice.slates = [] ∧
      x.ref = some r ∧
      slateAcked s x = false ∧
      groupCoord s g.val = true ∧
      s.jobs = [] :=
  ⟨0, 5, { slate0 with ref := some ⟨2, 0⟩ }, ⟨2, 0⟩, { taking (desc 0x42 4 1 0 0 0 0 []) with regs := [(0xB0400, 0x21), (0xB0408, 3)] ++ (taking 0).regs, splice := { SpliceS.reset with slates := [{ slate0 with ref := some ⟨2, 0⟩ }] } }, by decide +kernel⟩

theorem test_TakeJobsAndSlates_8 :
    ∃ (g : Fin 16) (id : BitVec 16) (x : Slate) (j : Job) (l : Loaded) (s : State),
      (s.splice.slates.find? fun x => decide (x.group = g) && decide (x.id = id)) = some x ∧
      slatesBefore x s.splice.slates = [] ∧
      x.ref = none ∧
      32768 ≤ id.toNat ∧
      groupJob s g = some j ∧
      j.arrived = true ∧
      j.slate = id ∧
      j.retaking = false ∧
      j.restoring = false ∧
      jobLoad s j = some l ∧
      j.every = 0 ∧
      j.layer + 1 < j.layers :=
  ⟨0, 0x8000, { slate0 with id := 0x8000 }, { job0 with running := true, arrived := true, slate := 0x8000, layers := 3 }, model9, { jobbed [{ job0 with running := true, arrived := true, slate := 0x8000, layers := 3 }] with splice := { SpliceS.reset with slates := [{ slate0 with id := 0x8000 }] } }, by decide +kernel⟩

theorem test_TakeJobsAndSlates_9 :
    ∃ (g : Fin 16) (id : BitVec 16) (x : Slate) (j : Job) (l : Loaded) (s : State),
      (s.splice.slates.find? fun x => decide (x.group = g) && decide (x.id = id)) = some x ∧
      slatesBefore x s.splice.slates = [] ∧
      x.ref = none ∧
      32768 ≤ id.toNat ∧
      groupJob s g = some j ∧
      j.arrived = true ∧
      j.slate = id ∧
      j.retaking = false ∧
      j.restoring = false ∧
      jobLoad s j = some l ∧
      j.every = 0 ∧
      j.layers ≤ j.layer + 1 :=
  ⟨0, 0x8000, { slate0 with id := 0x8000 }, { job0 with running := true, arrived := true, slate := 0x8000, layer := 2, layers := 3 }, model9, { jobbed [{ job0 with running := true, arrived := true, slate := 0x8000, layer := 2, layers := 3 }] with splice := { SpliceS.reset with slates := [{ slate0 with id := 0x8000 }] } }, by decide +kernel⟩

theorem test_TakeJobsAndSlates_10 :
    ∃ (p : Fin 8) (j : Job) (l : Loaded) (s : State),
      jobOn s p = some j ∧
      jobLoad s j = some l ∧
      j.retaking = true ∧
      roleFenced s l = false ∧
      groupParent s j.group.val = none ∧
      s.splice.slates.length < 64 ∧
      anyUnreached s 1 (groupChildren s j.group.val) = false :=
  ⟨1, { job0 with running := true, retaking := true, token := some token0, layer := 5 }, model9, jobbed [{ job0 with running := true, retaking := true, token := some token0, layer := 5 }], by decide +kernel⟩

theorem test_TakeJobsAndSlates_11 :
    ∃ (p : Fin 8) (j : Job) (s : State),
      (takeQueue s p).head? = some j ∧
      j.waiting = true ∧
      (s.splice.slates.any (slateIs j.group j.start.toNat)) = false :=
  ⟨1, { job0 with start := 5, waiting := true }, jobbed [{ job0 with start := 5, waiting := true }], by decide +kernel⟩

theorem test_TakeJobsAndSlates_12 :
    ∃ (num : Nat) (u : Nat) (l : Loaded) (s : State),
      nextStaged s s.loaded = some (num, u) ∧
      loadedNum s num = some l ∧
      s.loadsOk = true :=
  ⟨3, 1000000000010000000 * 2 ^ 42, { sheet with num := 3, state := .staged 0 661 }, { armed 0 with nextLoad := 4, loaded := [sheet, { sheet with num := 3, state := .staged 0 661 }] }, by decide +kernel⟩

theorem test_TakeJobsAndSlates_13 :
    ∃ (id : BitVec 16) (l : Loaded) (s : State),
      (s.loaded.find? fun l => decide (l.img.kind = 1) && decide (l.id = id) && decide (l.state = .releasing)) = some l ∧
      ((s.chains.filter fun c => decide (c.image = l.num)).all (·.ended)) = true :=
  ⟨7, { sheet with state := .releasing }, { jobbed [] with loaded := [{ sheet with state := .releasing }] }, by decide +kernel⟩

theorem test_SlotsAndDownlinkWindows_1 :
    ∃ (g : GridIx) (s : State),
      gridRuns s g.val = true ∧
      s.mem.wc = [] ∧
      0 < incUnits s ∧
      (nextSlot s g.val).1 + incUnits s < 2 ^ 48 * unitsS :=
  ⟨0, { armed 0 with mem := { MemS.reset with bytes := [(poolBase, 7), (poolBase + 70, 9)] } }, by decide +kernel⟩

theorem test_SlotsAndDownlinkWindows_2 :
    ∃ (g : GridIx) (sfn : BitVec 10) (slot : BitVec 5) (symbol : Fin 14) (s : State),
      gridRuns s g.val = true ∧
      slot.toNat < slotsPerFrame (gridMu s g.val) ∧
      0 < incUnits s ∧
      (symbolAt s g sfn slot symbol.val).toNat + incUnits s < 2 ^ 48 * unitsS :=
  ⟨0, 661, 0, 0, { armed 0 with mem := { MemS.reset with bytes := [(poolBase, 7)] } }, by decide +kernel⟩

theorem test_SlotsAndDownlinkWindows_3 :
    ∃ (m : Nat),
      1 ≤ m :=
  ⟨3, by decide +kernel⟩

theorem test_SlotsAndDownlinkWindows_4 :
    ∃ (g : GridIx) (slot : BitVec 5) (s : State),
      gridRuns s g.val = true ∧
      slot.toNat < slotsPerFrame (gridMu s g.val) ∧
      s.mem.wc = [] :=
  ⟨0, 0, { armed 0 with mem := { MemS.reset with bytes := [(poolBase, 7), (poolBase + 70, 9)] } }, by decide +kernel⟩

theorem test_SlotsAndDownlinkWindows_5 :
    ∃ (g : GridIx) (sfn : BitVec 10) (slot : BitVec 5) (x : RushDue) (c : Capture) (s : State),
      (s.radio.rushes.find? fun x => decide (x.grid = g) && decide (x.sfn = sfn) && decide (x.slot = slot)) = some x ∧
      captureOf s g.val = some c ∧
      c.dev = false ∧
      (funcOf s (pairFunc s c.ref.pair)).bme = true ∧
      (pairOf s c.ref.pair).waiting = [] ∧
      c.left = none ∧
      c.written + 2 * capBytes s c ≤ c.room :=
  ⟨0, 661, 0, { grid := 0, sfn := 661, slot := 0, t0 := 0 }, cap0, { flying (desc 0x56 5 1 0 0 0 0 []) with radio := { RadioS.reset with captures := [cap0], rushes := [{ grid := 0, sfn := 661, slot := 0, t0 := 0 }] } }, by decide +kernel⟩

theorem test_FronthaulReceiveAndDelay_1 :
    ∃ (port : Fin 8) (f : FhFrame) (s : State),
      fhPortEn s port = true ∧
      f.fcsOk = false :=
  ⟨0, { frame0 with fcsOk := false }, fhState, by decide +kernel⟩

theorem test_FronthaulReceiveAndDelay_2 :
    ∃ (port : Fin 8) (f : FhFrame) (eaxc : BitVec 16) (seq : Byte) (fi : BitVec 4) (fr : Byte) (sub : BitVec 4) (slot : BitVec 6) (symbol : BitVec 6) (xs : List USection) (v : BitVec 3) (s : State),
      fhPortEn s port = true ∧
      f.fcsOk = true ∧
      64 ≤ f.length ∧
      f.length ≤ fhLimit s port ∧
      f.etherType = 0xAEFE ∧
      (fhMac s port :: ptpMacs).contains f.dst.toNat = true ∧
      fhVlanOk s port f.vlan = true ∧
      ecpriOk f = true ∧
      f.msg = .uplane eaxc seq true false v fi fr sub slot symbol xs ∧
      upEntry s port eaxc = none :=
  ⟨0, frame0, 5, 1, 0, 0, 0, 0, 0, [], 1, fhState, by decide +kernel⟩

theorem test_FronthaulReceiveAndDelay_3 :
    ∃ (port : Fin 8) (f : FhFrame) (eaxc : BitVec 16) (seq : Byte) (fr : Byte) (sub : BitVec 4) (slot : BitVec 6) (symbol : BitVec 6) (xs : List USection) (w : Word) (s : State),
      fhPortEn s port = true ∧
      f.fcsOk = true ∧
      64 ≤ f.length ∧
      f.length ≤ fhLimit s port ∧
      f.etherType = 0xAEFE ∧
      (fhMac s port :: ptpMacs).contains f.dst.toNat = true ∧
      fhVlanOk s port f.vlan = true ∧
      ecpriOk f = true ∧
      f.msg = .uplane eaxc seq true false 1 0 fr sub slot symbol xs ∧
      upEntry s port eaxc = some w ∧
      w.getLsbD 26 = false ∧
      sub.toNat ≤ 9 ∧
      slot.toNat < 2 ^ gridMu s (eaxcGrid w) ∧
      symbol.toNat ≤ 13 :=
  ⟨0, frame0, 5, 1, 0, 0, 0, 0, [], 0x80000005, { fhState with regs := (eaxcReg 3, 0x80000005) :: fhState.regs }, by decide +kernel⟩

theorem test_FronthaulReceiveAndDelay_4 :
    ∃ (port : Fin 8) (s : State),
      fhPortEn s port = true ∧
      fhLinkUp s port = true :=
  ⟨0, fhState, by decide +kernel⟩

theorem test_FronthaulReceiveAndDelay_5 :
    ∃ (port : Fin 8) (s : State),
      fhPortEn s port = true ∧
      fhLinkUp s port = true :=
  ⟨0, fhState, by decide +kernel⟩

theorem test_FronthaulReceiveAndDelay_6 :
    ∃ (port : Fin 8) (up : Bool) (s : State),
      fhLinkUp s port ≠ up :=
  ⟨0, false, fhState, by decide +kernel⟩

theorem test_FronthaulReceiveAndDelay_7 :
    ∃ (w : Nat) (xs : List Int),
      w ∈ [9, 12, 14, 16] ∧
      xs.length = 24 ∧
      (xs.all fun x => decide (-(2 ^ (w - 1) : Int) ≤ x) && decide (x < 2 ^ (w - 1))) = true :=
  ⟨9, (List.range 24).map fun i => (20 * i : Int) - 250, by decide +kernel⟩

theorem test_FronthaulReceiveAndDelay_8 :
    ∃ (k : Nat) (xs : List Int) (s : State),
      k < 273 ∧
      xs.length = 24 ∧
      (xs.all fun x => decide (-32768 ≤ x) && decide (x ≤ 32767)) = true ∧
      s.mem.wc = [] :=
  ⟨17, (List.range 24).map fun i => (20 * i : Int) - 250, State.reset, by decide +kernel⟩

theorem test_LinePortsAndFlowRecords_1 :
    ∃ (port : Fin 8) (f : List Byte) (s : State),
      hostDown s = false ∧
      (lineOn s port = false ∨ f.length < 60 ∨ 9212 < f.length) :=
  ⟨0, [1], lineState, by decide +kernel⟩

theorem test_LinePortsAndFlowRecords_2 :
    ∃ (port : Fin 8) (f : List Byte) (s : State),
      hostDown s = false ∧
      lineOn s port = true ∧
      lineOn s (partner port) = true ∧
      mirrorEn s = false ∧
      60 ≤ f.length ∧
      f.length ≤ 9212 ∧
      beAt f 12 2 ≠ 0x8808 ∧
      flowRuns s = false ∧
      rdb s 0xC0000 2 = true ∧
      rdb s 0x200F0 port = false ∧
      timeSrc s ≠ 1 :=
  ⟨0, zeros 60, lineState, by decide +kernel⟩

theorem test_LinePortsAndFlowRecords_3 :
    ∃ (port : Fin 8) (f : List Byte) (p : Pkt) (i : Nat) (s : State),
      hostDown s = false ∧
      lineOn s port = true ∧
      mirrorEn s = false ∧
      60 ≤ f.length ∧
      f.length ≤ 9212 ∧
      beAt f 12 2 ≠ 0x8808 ∧
      flowRuns s = true ∧
      parseFrame s f = (.ip p, false) ∧
      findRec s (flowBucket s (pktKey p)) (pktKey p) = some i ∧
      frState (flowRec s i) = 1 :=
  ⟨0, frame4, pkt4, (8 * flowBucket (flowState 1) (pktKey pkt4)), flowState 1, by decide +kernel⟩

theorem test_LinePortsAndFlowRecords_4 :
    ∃ (p : Pkt) (r : List Byte),
      r.length = 128 ∧
      p.ip.len < 65536 :=
  ⟨pkt4, zeros 128, by decide +kernel⟩

theorem test_LinePortsAndFlowRecords_5 :
    ∃ (s : State),
      s.board.inReset = false :=
  ⟨lineState, by decide +kernel⟩

theorem test_LinePortsAndFlowRecords_6 :
    ∃ (i : Nat) (s : State),
      flowRuns s = true ∧
      i < 2 ^ ftLog2 s ∧
      frState (flowRec s i) = 1 ∧
      polIdleS s (frPolicy (flowRec s i)) * ticksS < s.clk - (flowX s i).lastClk ∧
      2 ≤ polMode s (frPolicy (flowRec s i)) ∧
      s.mem.wc = [] ∧
      flowAddr s i + 128 ≤ hbmSize ∧
      flowAddr s i % 64 = 0 :=
  ⟨5, { flowState 1 with clk := 90 * ticksS, mem := { MemS.reset with bytes := [(128 * 5 + 44, 1)] } }, by decide +kernel⟩

theorem test_LinePortsAndFlowRecords_7 :
    ∃ (i : Nat) (s : State),
      flowRuns s = true ∧
      i < 2 ^ ftLog2 s ∧
      frState (flowRec s i) = 2 ∧
      frHeld (flowRec s i) = false ∧
      rdf s 0x6001C 15 8 * (ticksS / 4) < s.clk - (flowX s i).lastClk ∧
      s.mem.wc = [] ∧
      flowAddr s i + 128 ≤ hbmSize ∧
      flowAddr s i % 64 = 0 :=
  ⟨5, { flowState 1 with clk := 900 * ticksS, mem := { MemS.reset with bytes := [(128 * 5 + 44, 0x22)] } }, by decide +kernel⟩

theorem test_LinePortsAndFlowRecords_8 :
    ∃ (i : Nat) (s : State),
      frHeld (flowRec s i) = true ∧
      (flowX s i).held ≠ [] :=
  ⟨5, { flowState 1 with mem := { MemS.reset with bytes := [(128 * 5 + 44, 5)] }, flow := { FlowS.reset with x := [(5, { held := [{ port := 0, frame := frame4, ipOff := 14, outerUdp := none, arrived := 0 }] })] } }, by decide +kernel⟩

theorem test_LinePortsAndFlowRecords_9 :
    ∃ (i : Nat) (k : Nat) (trig : Nat) (it : Item) (s : State),
      (flowX s i).request = some k ∧
      itemOf s k = some it ∧
      it.src = .flow i trig :=
  ⟨5, 0, 1, { item0 with src := .flow 5 1 }, { flowState 1 with items := [{ item0 with src := .flow 5 1 }], flow := { FlowS.reset with x := [(5, { request := some 0 })] } }, by decide +kernel⟩

theorem test_LinePortsAndFlowRecords_10 :
    ∃ (s : State),
      s.flow.fullPass ≤ 2 ^ 32 :=
  ⟨{ flowState 1 with flow := { FlowS.reset with fullPass := 3 } }, by decide +kernel⟩

theorem test_LinePortsAndFlowRecords_11 :
    ∃ (i : Item) (f : FileX) (r : DRef) (s : State),
      currentFile s = some i ∧
      i.src = .file f.id ∧
      fileOf s f.id = some f ∧
      f.close = some r :=
  ⟨{ item0 with src := .file 0, cls := 3 }, { file0 with close := some ⟨2, 0⟩, queued := true }, ⟨2, 0⟩, { filing (desc 0x32 3 1 0 0 0 0 []) with items := [{ item0 with src := .file 0, cls := 3 }], flow := { FlowS.reset with files := [{ file0 with close := some ⟨2, 0⟩, queued := true }] } }, by decide +kernel⟩

theorem test_LinePortsAndFlowRecords_12 :
    ∃ (id : BitVec 16) (f : FileX) (s : State),
      fileOf s id.toNat = some f ∧
      f.queued = false ∧
      f.flow = none :=
  ⟨0, file0, filing 0, by decide +kernel⟩

theorem test_NearestReferences_1 :
    ∃ (rs : List (List Byte)),
      0 < rs.length :=
  ⟨[[1], [2]], by decide +kernel⟩

theorem test_NearestReferences_2 :
    ∃ (f : Bool) (q : List Byte) (rs : List (List Byte)) (i : Nat) (d : Nat),
      (top2 f q rs).1 = some (i, d) :=
  ⟨false, [3], [[1], [2]], 0, 1, by decide +kernel⟩

theorem test_NearestReferences_3 :
    ∃ (f : Bool) (q : List Byte) (rs : List (List Byte)) (i : Nat) (d : Nat) (j : Nat) (e : Nat),
      top2 f q rs = (some (i, d), some (j, e)) :=
  ⟨false, [3], [[1], [2]], 0, 1, 1, 1, by decide +kernel⟩

theorem test_NearestReferences_4 :
    ∃ (f : Bool) (q : List Byte) (rs : List (List Byte)) (i : Nat) (d : Nat),
      (top2 f q rs).1 = some (i, d) :=
  ⟨false, [3], [[1]], 0, 1, by decide +kernel⟩

theorem test_EngineJobs_1 :
    ∃ (r : Fin 1024) (h : Handle) (a : Nat) (n : Nat) (s : State),
      JobReady .continuity r.val h a n s ∧
      leAt (devRead s a 1) 0 1 = 1 :=
  ⟨4, { h := 0, cls := 2 }, poolBase, 0x400, jobState 0x11 matchBlk, by decide +kernel⟩

theorem test_EngineJobs_2 :
    ∃ (r : Fin 1024) (h : Handle) (a : Nat) (n : Nat) (s : State),
      JobReady .continuity r.val h a n s ∧
      leAt (devRead s a 1) 0 1 = 2 :=
  ⟨4, { h := 0, cls := 2 }, poolBase, 0x400, jobState 0x11 trackBlk, by decide +kernel⟩

theorem test_EngineJobs_3 :
    ∃ (r : Fin 1024) (h : Handle) (a : Nat) (n : Nat) (s : State),
      JobReady .matte r.val h a n s ∧
      leAt (devRead s a 1) 0 1 = 1 :=
  ⟨4, { h := 0, cls := 2 }, poolBase, 0x400, jobState 0x12 composeBlk, by decide +kernel⟩

theorem test_EngineJobs_4 :
    ∃ (r : Fin 1024) (h : Handle) (a : Nat) (n : Nat) (s : State),
      JobReady .matte r.val h a n s ∧
      leAt (devRead s a 1) 0 1 = 2 :=
  ⟨4, { h := 0, cls := 2 }, poolBase, 0x400, jobState 0x12 contactBlk, by decide +kernel⟩

theorem test_EngineJobs_5 :
    ∃ (r : Fin 1024) (h : Handle) (a : Nat) (n : Nat) (d : Nat) (s : State),
      engOf .continuity s = {} ∧
      engineChoose .continuity s = some (r.val, h) ∧
      jobBuffer s ((reelOf s r.val).owner.getD 0) h.h = some (a, n) ∧
      64 ≤ n ∧
      inAlias a = false ∧
      s.mem.wc = [] ∧
      leAt (devRead s a 1) 0 1 ≠ 2 ∧
      blockCheck .continuity s (devRead s a 64) ≠ 0 ∧
      doneReel s ((reelOf s r.val).owner.getD 0) r.val = some d ∧
      (reelOf s d).q.length + pushesWaiting s d (fun _ => true) < 64 :=
  ⟨4, { h := 0, cls := 2 }, poolBase, 0x400, 5, jobState 0x11 (9 :: matchBlk.drop 1), by decide +kernel⟩

theorem test_EngineJobs_6 :
    ∃ (e : Engine) (j : EngJob) (s : State),
      (engOf e s).running = some j ∧
      j.done + 1 < j.total ∧
      ((readyReels e s).any fun x => x.2.phy) = false :=
  ⟨.continuity, { jobOf .continuity matchBlk with total := 2 }, { jobState 0x11 matchBlk with cont := { running := some { jobOf .continuity matchBlk with total := 2 } } }, by decide +kernel⟩

theorem test_EngineJobs_7 :
    ∃ (e : Engine) (j : EngJob) (s : State),
      engOf e s = { running := some j } ∧
      j.done + 1 < j.total ∧
      j.phy = false ∧
      ((readyReels e s).any fun x => x.2.phy) = true :=
  ⟨.continuity, { jobOf .continuity matchBlk with total := 2 }, { jobState 0x11 matchBlk with cont := { running := some { jobOf .continuity matchBlk with total := 2 } }, reels := [(4, { q := [{ h := 0, phy := true }], owner := some 1, engine := 0x11 })] }, by decide +kernel⟩

theorem test_EngineJobs_8 :
    ∃ (e : Engine) (d : Nat) (j : EngJob) (s : State),
      engOf e s = { running := some j } ∧
      j.total ≤ j.done + 1 ∧
      readyReels e s = [] ∧
      doneReel s j.image j.reel = some d ∧
      (reelOf s d).q.length + pushesWaiting s d (fun _ => true) < 64 ∧
      (reelOf s d).engine ≠ engCode e :=
  ⟨.matte, 5, jobOf .matte composeBlk, { jobState 0x12 composeBlk with reels := [(5, { owner := some 1, engine := 3 })], matte := { running := some (jobOf .matte composeBlk) } }, by decide +kernel⟩

theorem test_EngineJobs_9 :
    ∃ (e : Engine) (s : State),
      ((readyReels e s).any fun x => x.2.phy) = true :=
  ⟨.matte, { jobState 0x12 composeBlk with reels := [(3, { q := [{ h := 0, cls := 1 }], engine := 0x12 }), (4, { q := [{ h := 0, phy := true }], engine := 0x12 })] }, by decide +kernel⟩

theorem test_EngineJobs_10 :
    ∃ (e : Engine) (s : State),
      (engOf e s).suspended.isSome = true ∧
      ((readyReels e s).any fun x => x.2.phy) = false :=
  ⟨.matte, { jobState 0x12 composeBlk with matte := { suspended := some (jobOf .matte composeBlk) } }, by decide +kernel⟩

theorem test_EngineJobs_11 :
    ∃ (j : EngJob),
      mNq j.block = 1 ∧
      j.total = 1 ∧
      j.done = 0 ∧
      mNr j.block ≤ 1024 ∧
      0 < mNr j.block ∧
      poolBase ≤ mMaddr j.block ∧
      mMaddr j.block + 16 ≤ mCaddr j.block ∧
      mCaddr j.block + 2 ≤ poolBase + poolSize ∧
      hbmSize ≤ poolBase :=
  ⟨jobOf .continuity matchBlk, by decide +kernel⟩

theorem test_EngineJobs_13 :
    ∃ (bs : List Byte) (pt : List Byte),
      offImage bs (signedOf 32 (leAt pt 0 4)) (signedOf 32 (leAt pt 4 4)) = true :=
  ⟨trackBlk, leBytes 4 0x10000 ++ zeros 12, by decide +kernel⟩

theorem test_EngineJobs_14 :
    ∃ (l : Layer) (p : Px),
      l.alpha ≤ 255 ∧
      p.a ≤ 255 ∧
      l.key = false :=
  ⟨layerOf composeBlk 0, ⟨1, 2, 3, 255, false⟩, by decide +kernel⟩

theorem test_LayersFetchedAndSkipped_1 :
    ∃ (bs : List Byte) (x : Nat) (y : Nat),
      x < cW bs ∧
      y < cH bs :=
  ⟨(composeBlk.take 4 ++ [70, 0, 65, 0]), 69, 64, by decide +kernel⟩

theorem test_LayersFetchedAndSkipped_2 :
    ∃ (bs : List Byte) (u : Nat),
      u < composeUnits bs :=
  ⟨(composeBlk.take 4 ++ [70, 0, 65, 0]), 3, by decide +kernel⟩

theorem test_LayersFetchedAndSkipped_3 :
    ∃ (b : Nat × Nat × Nat × Nat) (l : Layer),
      b.1 < b.2.2.1 ∧
      b.2.1 < b.2.2.2 ∧
      0 < l.w ∧
      0 < l.h :=
  ⟨(0, 0, 1, 1), layerOf composeBlk 0, by decide +kernel⟩

theorem test_LayersFetchedAndSkipped_4 :
    ∃ (b : Nat × Nat × Nat × Nat) (ls : List Layer) (n : Nat),
      (n = 0 ∨ ((ls[n]?).any fun k => k.solid && layerCovers b k) = true) ∧
      ((ls.drop (n + 1)).any fun k => k.solid && layerCovers b k) = false :=
  ⟨(0, 0, 1, 1), layersOf composeBlk, 0, by decide +kernel⟩

theorem test_FaultsSupplyAndReset_1 :
    ∃ (u : FaultUnit) (v : FaultUnit) (cause : Byte) (a : Dword) (k : Nat) (s : State),
      homeUnit s u a.toNat = v ∧
      s.board.inReset = false ∧
      unitFenced s v = false ∧
      reported s v true cause = true ∧
      ceLasting s (histOf s (unitKey v)) = false ∧
      (histOf s (unitKey v)).logged = some k ∧
      s.clk - k < ceWindow s :=
  ⟨.hbm 1, .hbm 1, 1, 0xFFFFFFFFFFFF, 7, { takeState with fault := { FaultS.reset with reports := [⟨.hbm 1, true, 1, 0, .none⟩], hist := [(0x201, { times := [7], logged := some 7, run := false })] } }, by decide +kernel⟩

theorem test_FaultsSupplyAndReset_2 :
    ∃ (u : FaultUnit) (v : FaultUnit) (a : Dword) (s : State),
      homeUnit s u a.toNat = v ∧
      s.board.inReset = false ∧
      unitFenced s v = false ∧
      ceLasting s (histOf s (unitKey v)) = false ∧
      (histOf s (unitKey v)).logged = none :=
  ⟨.tile 0, .tile 0, 8, takeState, by decide +kernel⟩

theorem test_FaultsSupplyAndReset_3 :
    ∃ (u : FaultUnit) (v : FaultUnit) (a : Dword) (w : FaultWork) (s : State),
      homeUnit s u a.toNat = v ∧
      s.board.inReset = false ∧
      unitFenced s v = false ∧
      ceLasting s (histOf s (unitKey v)) = true ∧
      (histOf s (unitKey v)).run = false ∧
      eventMode s v w ≠ 1 :=
  ⟨.tile 0, .tile 0, 8, .none, { takeState with fault := { FaultS.reset with hist := [(0x100, burst)] } }, by decide +kernel⟩

theorem test_FaultsSupplyAndReset_4 :
    ∃ (n : TileIx) (w : FaultWork) (s : State),
      s.board.inReset = false ∧
      fenced s n = false ∧
      eventMode s (.tile n) w ≠ 1 :=
  ⟨0, .none, takeState, by decide +kernel⟩

theorem test_FaultsSupplyAndReset_5 :
    ∃ (c : Fin 4) (k : Fin 4) (cause : Byte) (d : Dword) (s : State),
      s.board.inReset = false ∧
      homeUnit s (.hbm c) d.toNat = .hbm k ∧
      reported s (.hbm k) false cause = false ∧
      d.toNat < hbmSize :=
  ⟨1, Fin.ofNat 4 (hbmPlace takeState 0x1234).1, 2, 0x1234, takeState, by decide +kernel⟩

theorem test_FaultsSupplyAndReset_6 :
    ∃ (s : State),
      s.fault.dirty = true :=
  ⟨{ takeState with fault := { FaultS.reset with dirty := true } }, by decide +kernel⟩

theorem test_FaultsSupplyAndReset_7 :
    ∃ (s : State),
      s.fault.dirty = false :=
  ⟨takeState, by decide +kernel⟩

theorem test_FaultsSupplyAndReset_8 :
    ∃ (mv : Nat) (s : State),
      s.board.inReset = false ∧
      vBase s ≤ mv + vWarn s ∧
      vBase s ≤ mv + vReset s ∧
      0 < mv ∧
      mv < 2 ^ 32 :=
  ⟨718, takeState, by decide +kernel⟩

theorem test_FaultsSupplyAndReset_9 :
    ∃ (mv : Nat) (s : State),
      s.board.inReset = false ∧
      mv + vWarn s < vBase s ∧
      rdb s gafferStatus 0 = false ∧
      (s.items.any (onPhyTile s)) = false ∧
      (s.jobs.any fun j => j.running) = false :=
  ⟨500, takeState, by decide +kernel⟩

theorem test_FaultsSupplyAndReset_10 :
    ∃ (s : State),
      rdb s gafferStatus 1 = true ∧
      ticksUs ≤ s.clk :=
  ⟨{ takeState with regs := [(gafferStatus, 3)] }, by decide +kernel⟩

theorem test_FaultsSupplyAndReset_11 :
    ∃ (k : Nat) (s : State),
      s.board.aboveFrom = some k ∧
      rdb s gafferStatus 0 = true ∧
      rdb s gafferStatus 1 = false :=
  ⟨0, sagState, by decide +kernel⟩

theorem test_FaultsSupplyAndReset_12 :
    ∃ (w : Nat) (s : State),
      s.board.inReset = false ∧
      w < 2 ^ 32 :=
  ⟨10, takeState, by decide +kernel⟩

theorem test_FaultsSupplyAndReset_13 :
    ∃ (s : State),
      s.board.inReset = false :=
  ⟨takeState, by decide +kernel⟩

theorem test_FaultsSupplyAndReset_14 :
    ∃ (tj : Byte) (s : State),
      s.board.inReset = false ∧
      115 ≤ tj.toNat :=
  ⟨115, takeState, by decide +kernel⟩

theorem test_FaultsSupplyAndReset_15 :
    ∃ (s : State),
      s.board.thermTripN = false ∧
      s.board.pwrGood = false :=
  ⟨{ downState with board := { downState.board with thermTripN := false, pwrGood := false } }, by decide +kernel⟩

theorem test_FaultsSupplyAndReset_16 :
    ∃ (s : State),
      s.board.inReset = false :=
  ⟨takeState, by decide +kernel⟩

theorem test_FaultsSupplyAndReset_17 :
    ∃ (s : State),
      s.board.inReset = false :=
  ⟨takeState, by decide +kernel⟩

theorem test_FaultsSupplyAndReset_19 :
    ∃ (s : State),
      s.board.inReset = false ∧
      s.board.pwrGood = true :=
  ⟨takeState, by decide +kernel⟩

theorem test_FaultsSupplyAndReset_20 :
    ∃ (s : State),
      s.board.inReset = false :=
  ⟨takeState, by decide +kernel⟩

theorem test_FaultsSupplyAndReset_21 :
    ∃ (s : State),
      s.board.inReset = true :=
  ⟨downState, by decide +kernel⟩

theorem test_FaultsSupplyAndReset_22 :
    ∃ (a : Avs) (s : State),
      s.board.avs = some a :=
  ⟨⟨750, 720, 0⟩, { takeState with board := { BoardS.reset with avs := some ⟨750, 720, 0⟩ } }, by decide +kernel⟩

theorem test_FaultsSupplyAndReset_23 :
    ∃ (s : State),
      s.mgmt.dmc.isSome = true :=
  ⟨takeState, by decide +kernel⟩

theorem test_FaultsSupplyAndReset_24 :
    ∃ (s : State),
      s.mgmt.dmc.isSome = true ∧
      s.board.inReset = false :=
  ⟨takeState, by decide +kernel⟩

theorem test_FaultsSupplyAndReset_25 :
    ∃ (s : State),
      s.board.inReset = true ∧
      s.hold.onMain = true ∧
      s.board.thermTripN = true ∧
      s.mgmt.scanHold = false :=
  ⟨downState, by decide +kernel⟩

theorem test_FaultsSupplyAndReset_26 :
    ∃ (s : State),
      s.board.inReset = true ∧
      (s.hold.onMain = false ∨ s.board.thermTripN = false) :=
  ⟨{ downState with hold := { downState.hold with onMain := false } }, by decide +kernel⟩

theorem test_SpliceFabric_1 :
    ∃ (l : Fin 12) (s : State),
      linkState s l = 1 :=
  ⟨3, spliceWith 1 [(linkReg 3 4, 1)], by decide +kernel⟩

theorem test_SpliceFabric_2 :
    ∃ (l : Fin 12) (s : State),
      linkState s l = 1 :=
  ⟨3, spliceWith 1 [(linkReg 3 4, 1)], by decide +kernel⟩

theorem test_SpliceFabric_3 :
    ∃ (l : Fin 12) (s : State),
      linkState s l = 2 :=
  ⟨3, spliceWith 1 [(linkReg 3 4, 2)], by decide +kernel⟩

theorem test_SpliceFabric_4 :
    ∃ (l : Fin 12) (s : State),
      linkCarries s l = true ∧
      linkErr s l < 95 ∧
      (rd s (linkReg l 0xC)).toNat < 256 :=
  ⟨3, spliceState 1, by decide +kernel⟩

theorem test_SpliceFabric_5 :
    ∃ (l : Fin 12) (s : State),
      linkState s l = 3 ∧
      rd s (linkReg l 0xC) = 127 ∧
      rdf s (linkReg l 8) 7 0 ≤ 127 :=
  ⟨3, spliceWith 1 [(linkReg 3 0xC, 127)], by decide +kernel⟩

theorem test_SpliceFabric_6 :
    ∃ (l : Fin 12) (s : State),
      linkUsable s l = true ∧
      rd s (linkReg l 0xC) = 254 ∧
      (linkOf s l).queue = [] ∧
      (linkOf s l).replay = [] :=
  ⟨3, spliceWith 1 [(linkReg 3 0xC, 254)], by decide +kernel⟩

theorem test_SpliceFabric_7 :
    ∃ (l : Fin 12) (s : State),
      linkUsable s l = true ∧
      (linkOf s l).queue = [] :=
  ⟨3, { spliceState 1 with splice := { SpliceS.reset with links := [(3, { replay := [(splMsg 0 1 7 0 [], 1)] })] } }, by decide +kernel⟩

theorem test_SpliceFabric_9 :
    ∃ (l : Fin 12) (k : Fin 12) (m : SMsg) (s : State),
      linkUsable s l = true ∧
      m.kind.toNat = 7 ∧
      m.coded = false ∧
      m.dst.toNat ≠ chipNum s ∧
      rdb s (linkReg k 0) 1 = false ∧
      RoomOn k m.dst.toNat 2 (flitsOf m) s :=
  ⟨3, 3, splMsg 0 5 7 0 [1, 2], spliceState 1, by decide +kernel⟩

theorem test_SpliceFabric_10 :
    ∃ (l : Fin 12) (m : SMsg) (s : State),
      linkUsable s l = true ∧
      m.kind.toNat = 7 ∧
      m.coded = false ∧
      m.dst.toNat = chipNum s ∧
      32768 ≤ seqAhead s m :=
  ⟨3, splMsg 1 0 7 0 [], { spliceState 1 with splice := { SpliceS.reset with seqRx := [(2, 1)] } }, by decide +kernel⟩

theorem test_SpliceFabric_11 :
    ∃ (l : Fin 12) (m : SMsg) (s : State),
      linkUsable s l = true ∧
      m.kind.toNat = 7 ∧
      m.coded = false ∧
      m.dst.toNat = chipNum s ∧
      0 < seqAhead s m ∧
      seqAhead s m < 256 ∧
      (s.splice.early.any fun x => decide (msgKey x.1 = msgKey m)) = false :=
  ⟨3, { splMsg 1 0 7 0 [] with seq := 5 }, spliceState 1, by decide +kernel⟩

theorem test_SpliceFabric_12 :
    ∃ (m : SMsg) (k : Nat) (s : State),
      s.splice.early = [(m, k)] ∧
      m.kind.toNat = 7 :=
  ⟨{ splMsg 1 0 7 0 [] with seq := 5 }, 0, { spliceState 1 with splice := { SpliceS.reset with early := [({ splMsg 1 0 7 0 [] with seq := 5 }, 0)] } }, by decide +kernel⟩

theorem test_SpliceFabric_13 :
    ∃ (l : Fin 12) (m : SMsg) (s : State),
      MsgDue l m 7 s :=
  ⟨3, splMsg 1 0 7 0 [1, 2], spliceState 1, by decide +kernel⟩

theorem test_SpliceFabric_14 :
    ∃ (l : Fin 12) (m : SMsg) (s : State),
      MsgDue l m 0 s ∧
      timeFollow s = true ∧
      parentLink s = l :=
  ⟨3, splMsg 1 0 0 0 [], spliceWith 1 [(0xB0010, 0x6400CD)], by decide +kernel⟩

theorem test_SpliceFabric_15 :
    ∃ (l : Fin 12) (k : Fin 12) (m : SMsg) (s : State),
      MsgDue l m 0 s ∧
      timeFollow s = false ∧
      RoomOn k m.src.toNat 0 1 s :=
  ⟨3, 3, splMsg 0 1 0 0 [], spliceState 0, by decide +kernel⟩

theorem test_SpliceFabric_16 :
    ∃ (k : Fin 12) (s : State),
      timeFollow s = true ∧
      RoomOn k (linkPeer s (parentLink s)) 0 1 s :=
  ⟨3, spliceWith 1 [(0xB0010, 0x6400CD)], by decide +kernel⟩

theorem test_SpliceFabric_17 :
    ∃ (d : Nat) (s : State),
      timeFollow s = true ∧
      timeState s = 3 ∧
      d ≤ 8 :=
  ⟨8, spliceWith 1 [(0xB0010, 0x6400CD)], by decide +kernel⟩

theorem test_SpliceFabric_18 :
    ∃ (d : Nat) (s : State),
      timeFollow s = true ∧
      timeState s = 3 ∧
      8 < d :=
  ⟨9, spliceWith 1 [(0xB0010, 0x6400CD), (0xB0014, 1)], by decide +kernel⟩

theorem test_SpliceFabric_19 :
    ∃ (l : Fin 12) (m : SMsg) (s : State),
      MsgDue l m 1 s ∧
      groupUsable s m.group.val = true ∧
      groupCoord s m.group.val = false ∧
      refusesArm s (leAt m.payload 0 16) = false ∧
      m.tag.toNat % 65536 < 32768 ∧
      ((groupParent s m.group.val).all fun p => canSend s p 2) = true ∧
      anyUnreached s 1 (groupChildren s m.group.val) = false :=
  ⟨3, splMsg 1 0 1 7 (leBytes 16 (2 ^ 60)), spliceState 1, by decide +kernel⟩

theorem test_SpliceFabric_20 :
    ∃ (l : Fin 12) (m : SMsg) (s : State),
      MsgDue l m 1 s ∧
      groupUsable s m.group.val = true ∧
      groupRank s m.group.val ≠ 0 ∧
      refusesArm s (leAt m.payload 0 16) = true :=
  ⟨3, splMsg 1 0 1 7 (zeros 16), spliceState 1, by decide +kernel⟩

theorem test_SpliceFabric_21 :
    ∃ (l : Fin 12) (m : SMsg) (x : Slate) (s : State),
      MsgDue l m 2 s ∧
      groupUsable s m.group.val = true ∧
      groupCoord s m.group.val = true ∧
      leAt m.payload 0 1 = 0 ∧
      s.splice.slates = [x] ∧
      x.group = m.group ∧
      x.id.toNat = m.tag.toNat % 65536 ∧
      x.acks.contains m.src = false :=
  ⟨3, splMsg 0 1 2 7 [0], { group := 0, id := 7, time := 5, acks := [], ref := none }, { spliceState 0 with splice := { SpliceS.reset with slates := [{ group := 0, id := 7, time := 5, acks := [], ref := none }] } }, by decide +kernel⟩

theorem test_SpliceFabric_22 :
    ∃ (l : Fin 12) (m : SMsg) (s : State),
      MsgDue l m 3 s ∧
      groupValid s m.group.val = true ∧
      groupMember s m.group.val = true ∧
      (s.jobs.all fun j => decide (j.group ≠ m.group)) = true :=
  ⟨3, splMsg 1 0 3 7 [0xFF], { spliceState 1 with splice := { SpliceS.reset with slates := [{ group := 0, id := 7, time := 5, acks := [], ref := none }] } }, by decide +kernel⟩

theorem test_SpliceFabric_23 :
    ∃ (l : Fin 12) (m : SMsg) (s : State),
      MsgDue l m 4 s ∧
      groupUsable s m.group.val = true ∧
      (groupChildren s m.group.val).contains m.src.toNat = true ∧
      groupJob s m.group = none ∧
      (barrierOf s m.group (m.tag.toNat % 65536)).arrived.contains m.src = false :=
  ⟨3, splMsg 0 1 4 2 (leBytes 8 77), spliceState 0, by decide +kernel⟩

theorem test_SpliceFabric_24 :
    ∃ (l : Fin 12) (m : SMsg) (s : State),
      MsgDue l m 5 s ∧
      groupUsable s m.group.val = true ∧
      (groupChildren s m.group.val).contains m.src.toNat = true ∧
      groupJob s m.group = none :=
  ⟨3, splMsg 0 1 5 0 (leBytes 4 77), spliceState 0, by decide +kernel⟩

theorem test_SpliceFabric_25 :
    ∃ (l : Fin 12) (m : SMsg) (s : State),
      MsgDue l m 6 s ∧
      groupUsable s m.group.val = true ∧
      groupCoord s m.group.val = false ∧
      m.last = false ∧
      groupChildren s m.group.val = [] :=
  ⟨3, splMsg 1 0 6 0 (leBytes 4 77), spliceState 1, by decide +kernel⟩

theorem test_SpliceFabric_26 :
    ∃ (g : Fin 16) (base : BitVec 14) (size : BitVec 15) (fanout : BitVec 4) (locked : Bool) (lock : Bool) (s : State),
      (groupUsable s g.val = false ∨ (base.toNat = groupBase s g.val ∧ size.toNat = groupSize s g.val ∧ fanout.toNat = groupFanout s g.val ∧ locked = groupLocked s g.val ∧ lock = detLock s)) :=
  ⟨0, 0, 2, 2, false, false, spliceState 0, by decide +kernel⟩

theorem test_SpliceFabric_27 :
    ∃ (g : Fin 16) (child : BitVec 14) (base : BitVec 14) (size : BitVec 15) (fanout : BitVec 4) (locked : Bool) (lock : Bool) (s : State),
      groupUsable s g.val = true ∧
      (groupChildren s g.val).contains child.toNat = true ∧
      (s.jobs.all fun j => decide (j.group ≠ g)) = true ∧
      (base.toNat ≠ groupBase s g.val ∨ size.toNat ≠ groupSize s g.val ∨ fanout.toNat ≠ groupFanout s g.val ∨ locked ≠ groupLocked s g.val ∨ lock ≠ detLock s) :=
  ⟨0, 1, 0, 3, 2, false, false, spliceState 0, by decide +kernel⟩

theorem test_ConsoleAndJtagPort_1 :
    ∃ (s : State),
      s.board.inReset = false ∧
      s.mgmt.recovery = false ∧
      rdb s 0xE0080 12 = true ∧
      s.mgmt.uartWait = false :=
  ⟨uartState, by decide +kernel⟩

theorem test_ConsoleAndJtagPort_2 :
    ∃ (s : State),
      s.board.inReset = false ∧
      s.mgmt.recovery = false ∧
      rdb s 0xE0080 12 = true ∧
      s.mgmt.uartWait = false :=
  ⟨uartState, by decide +kernel⟩

theorem test_ConsoleAndJtagPort_3 :
    ∃ (s : State),
      s.board.inReset = false ∧
      s.mgmt.recovery = true ∧
      s.mgmt.uartWait = false ∧
      s.mgmt.uartRx.length < 64 :=
  ⟨recoveryState, by decide +kernel⟩

theorem test_ConsoleAndJtagPort_4 :
    ∃ (f : RecFrame) (s : State),
      s.mgmt.recovery = true ∧
      f.typ = 1 ∧
      f.crc.toNat = frameCrc f ∧
      f.len.toNat ≤ 1024 ∧
      f.payload.length = f.len.toNat ∧
      f.offset.toNat + f.len.toNat ≤ 0x800000 :=
  ⟨recFrame 1 5 [1, 2, 3], recoveryState, by decide +kernel⟩

theorem test_ConsoleAndJtagPort_5 :
    ∃ (f : RecFrame) (s : State),
      s.mgmt.recovery = true ∧
      (f.crc.toNat ≠ frameCrc f ∨ f.payload.length ≠ f.len.toNat ∨ (f.typ = 1 ∧ 1024 < f.len.toNat) ∨ (f.typ ≠ 1 ∧ 0 < f.len.toNat)) :=
  ⟨{ recFrame 1 5 [1, 2, 3] with crc := 1 }, recoveryState, by decide +kernel⟩

theorem test_ConsoleAndJtagPort_6 :
    ∃ (f : RecFrame) (k : Bool) (p : Bool) (s : State),
      s.mgmt.recovery = true ∧
      s.board.inReset = false ∧
      f.typ = 2 ∧
      f.crc.toNat = frameCrc f ∧
      f.len = 0 ∧
      f.payload = [] ∧
      f.offset.toNat < 2 ∧
      imageFail s ((recImage s.mgmt).take ((recImage s.mgmt).length - 96)) (decide (leAt (recImage s.mgmt) 4 1 = 2)) k p = 0 :=
  ⟨recFrame 2 1 [], true, true, installState, by decide +kernel⟩

theorem test_ConsoleAndJtagPort_7 :
    ∃ (f : RecFrame) (s : State),
      s.mgmt.recovery = true ∧
      f.typ = 2 ∧
      f.crc.toNat = frameCrc f ∧
      f.len = 0 ∧
      f.payload = [] ∧
      f.offset.toNat < 2 :=
  ⟨recFrame 2 1 [], installState, by decide +kernel⟩

theorem test_ConsoleAndJtagPort_8 :
    ∃ (f : RecFrame) (s : State),
      s.mgmt.recovery = true ∧
      f.typ = 3 ∧
      f.crc.toNat = frameCrc f ∧
      f.len = 0 ∧
      f.payload = [] :=
  ⟨recFrame 3 0 [], recoveryState, by decide +kernel⟩

theorem test_ConsoleAndJtagPort_9 :
    ∃ (s : State),
      s.mgmt.recovery = true ∧
      s.mgmt.uartRx ≠ [] :=
  ⟨recoveryState, by decide +kernel⟩

theorem test_ConsoleAndJtagPort_10 :
    ∃ (s : State),
      s.board.inReset = false :=
  ⟨takeState, by decide +kernel⟩

theorem test_ConsoleAndJtagPort_12 :
    ∃ (s : State),
      s.mgmt.jtagMode = 1 :=
  ⟨takeState, by decide +kernel⟩

theorem test_ConsoleAndJtagPort_13 :
    ∃ (s : State),
      s.mgmt.jtagMode = 1 ∧
      s.mgmt.nonce.isSome = true ∧
      s.board.inReset = false :=
  ⟨{ takeState with mgmt := { takeState.mgmt with nonce := some [1, 2, 3, 4] } }, by decide +kernel⟩

theorem test_ConsoleAndJtagPort_14 :
    ∃ (code : Byte) (s : State),
      debugOpen s.mgmt = true ∧
      0x20 ≤ code.toNat ∧
      code.toNat ≤ 0x3F :=
  ⟨0x21, { takeState with mgmt := { takeState.mgmt with unlocked := true } }, by decide +kernel⟩

theorem test_ConsoleAndJtagPort_15 :
    ∃ (code : Byte) (s : State),
      code ≠ 0xFF ∧
      jtagListed s.mgmt code = false :=
  ⟨0x21, takeState, by decide +kernel⟩

theorem test_ConsoleAndJtagPort_16 :
    ∃ (s : State),
      s.mgmt.jtagMode ≠ 1 :=
  ⟨{ takeState with mgmt := { takeState.mgmt with jtagMode := 2 } }, by decide +kernel⟩

theorem test_ConsoleAndJtagPort_17 :
    ∃ (s : State),
      s.mgmt.scanHold = true ∧
      s.board.inReset = true ∧
      s.hold.onMain = true ∧
      s.board.thermTripN = true ∧
      s.board.pwrGood = true ∧
      s.board.perstN = true ∧
      s.board.refSys = true ∧
      s.board.testEn = false :=
  ⟨scanState, by decide +kernel⟩

theorem test_ConsoleAndJtagPort_18 :
    ∃ (s : State),
      s.mgmt.scanHold = false :=
  ⟨takeState, by decide +kernel⟩

theorem test_ManagementAnswers_1 :
    ∃ (s : State),
      mgmtUp s = true :=
  ⟨State.reset, by decide +kernel⟩

theorem test_ManagementAnswers_2 :
    ∃ (e : Byte) (s : State),
      mgmtUp s = true ∧
      e ≠ 0 ∧
      e ≠ 0xFF :=
  ⟨9, State.reset, by decide +kernel⟩

theorem test_ManagementAnswers_3 :
    ∃ (s : State),
      pldmUp s = false :=
  ⟨State.reset, by decide +kernel⟩

theorem test_ManagementAnswers_4 :
    ∃ (s : State),
      pldmUp s = true :=
  ⟨eidState 0 none, by decide +kernel⟩

theorem test_ManagementAnswers_5 :
    ∃ (s : State),
      pldmUp s = true ∧
      pldmState s = 0 ∧
      (currentCfg s.mgmt).1.trial = false :=
  ⟨eidState 0 none, by decide +kernel⟩

theorem test_ManagementAnswers_6 :
    ∃ (s : State),
      pldmUp s = true ∧
      ((currentCfg s.mgmt).1.trial = true ∨ pldmState s ≠ 0) :=
  ⟨eidState 1 (some ⟨0, 0, []⟩), by decide +kernel⟩

theorem test_ManagementAnswers_7 :
    ∃ (p : Pldm) (s : State),
      pldmUp s = true ∧
      s.mgmt.pldm = some p ∧
      pldmState s = 1 :=
  ⟨⟨0, 0, []⟩, eidState 1 (some ⟨0, 0, []⟩), by decide +kernel⟩

theorem test_ManagementAnswers_8 :
    ∃ (p : Pldm) (c : BitVec 16) (s : State),
      pldmUp s = true ∧
      s.mgmt.pldm = some p ∧
      pldmState s = 2 ∧
      (c = 1 ∨ c = 2) :=
  ⟨⟨0, 0, []⟩, 2, eidState 2 (some ⟨0, 0, []⟩), by decide +kernel⟩

theorem test_ManagementAnswers_9 :
    ∃ (p : Pldm) (bs : List Byte) (s : State),
      pldmUp s = true ∧
      s.mgmt.pldm = some p ∧
      pldmState s = 3 ∧
      bs.length ≤ 1024 ∧
      p.received + bs.length ≤ 0x400000 :=
  ⟨⟨1, 4, []⟩, [1, 2, 3], eidState 3 (some ⟨1, 4, []⟩), by decide +kernel⟩

theorem test_ManagementAnswers_10 :
    ∃ (p : Pldm) (s : State),
      pldmUp s = true ∧
      s.mgmt.pldm = some p ∧
      pldmState s = 3 :=
  ⟨⟨1, 4, []⟩, eidState 3 (some ⟨1, 4, []⟩), by decide +kernel⟩

theorem test_ManagementAnswers_11 :
    ∃ (p : Pldm) (s : State),
      pldmUp s = true ∧
      s.mgmt.pldm = some p ∧
      pldmState s = 4 :=
  ⟨⟨2, 4, []⟩, (let x := eidState 4 (some ⟨2, 4, []⟩); { x with mgmt := flashWrite (spareRegion x.mgmt 2) dmcImage x.mgmt }), by decide +kernel⟩

theorem test_ManagementAnswers_12 :
    ∃ (p : Pldm) (s : State),
      pldmUp s = true ∧
      s.mgmt.pldm = some p ∧
      pldmState s = 5 :=
  ⟨⟨2, 4, []⟩, eidState 5 (some ⟨2, 4, []⟩), by decide +kernel⟩

theorem test_ManagementAnswers_13 :
    ∃ (p : Pldm) (s : State),
      pldmUp s = true ∧
      s.mgmt.pldm = some p ∧
      pldmState s = 2 ∧
      p.written ≠ [] :=
  ⟨⟨2, 4, [2]⟩, eidState 2 (some ⟨2, 4, [2]⟩), by decide +kernel⟩

theorem test_ManagementAnswers_14 :
    ∃ (p : Pldm) (s : State),
      pldmUp s = true ∧
      s.mgmt.pldm = some p ∧
      (pldmState s = 3 ∨ pldmState s = 4 ∨ pldmState s = 5) :=
  ⟨⟨2, 4, []⟩, eidState 4 (some ⟨2, 4, []⟩), by decide +kernel⟩

theorem test_ManagementAnswers_15 :
    ∃ (s : State),
      pldmUp s = true ∧
      s.mgmt.pldm = none :=
  ⟨eidState 0 none, by decide +kernel⟩

theorem test_ManagementAnswers_16 :
    ∃ (s : State),
      pldmUp s = true :=
  ⟨spdmState, by decide +kernel⟩

theorem test_ManagementAnswers_17 :
    ∃ (s : State),
      pldmUp s = true ∧
      s.mgmt.spdmAlgs = true :=
  ⟨spdmState, by decide +kernel⟩

theorem test_ManagementAnswers_18 :
    ∃ (i : Byte) (s : State),
      pldmUp s = true ∧
      s.mgmt.spdmAlgs = true ∧
      i.toNat ≤ 5 ∧
      i ≠ 0 :=
  ⟨4, spdmState, by decide +kernel⟩

theorem test_ManagementAnswers_19 :
    ∃ (s : State),
      pldmUp s = true ∧
      s.mgmt.spdmAlgs = false :=
  ⟨eidState 0 none, by decide +kernel⟩

theorem test_CanonicalFormKept_1 :
    ∃ (s : State) (t : State),
      s.wf = true ∧
      step s = .next t :=
  ⟨State.reset, tick State.reset, by decide +kernel, rfl⟩
end

/-! ### Writes to BAR0: the scope statements (00 R7–R10)

A host write reaches `regStore` by its size and alignment; what `regStore` does follows from the row of the register, the
fence and the lock. Each of these choices is said once below, and the statements are put together from them. -/

section
namespace Sys2Proof.Machine

/-! #### From the command to the word -/

theorem exec_regWrite (o size : Nat) (v : Dword) {s : State} (hup : hostDown s = false) :
    exec (.regWrite o size v) s = .next (barWrite o size v s) := by
  change execRegWrite o size v s = _
  simp [execRegWrite, hup]

theorem barWrite_word {o : Nat} (v : Dword) (s : State) (ho : o % 4 = 0) :
    barWrite o 4 v s = regStore o (v.setWidth 32) s := by simp [barWrite, ho]

theorem barWrite_dword {o : Nat} (v : Dword) (s : State) (ho : o % 8 = 0) :
    barWrite o 8 v s = regStore (o + 4) (v.extractLsb' 32 32) (regStore o (v.setWidth 32) s) := by
  simp [barWrite, ho]

theorem barWrite_malformed {o size : Nat} (v : Dword) (s : State) (h4 : ¬ (size = 4 ∧ o % 4 = 0))
    (h8 : ¬ (size = 8 ∧ o % 8 = 0)) :
    barWrite o size v s = aerr 0 false 0 o s := by
  rw [barWrite, if_neg h4, if_neg h8]

theorem exec_regWrite_aligned (o : Nat) (v : Dword) {s : State} (hup : hostDown s = false) (ho : o % 4 = 0) :
    exec (.regWrite o 4 v) s = .next (regStore o (v.setWidth 32) s) := by
  rw [exec_regWrite o 4 v hup, barWrite_word v s ho]

/-- An aligned 32-bit write, whose data the command carries in 64 bits. -/
theorem exec_regWrite_word (o : Nat) (v : Word) {s : State} (hup : hostDown s = false) (ho : o % 4 = 0) :
    exec (.regWrite o 4 (v.setWidth 64)) s = .next (regStore o v s) := by
  rw [exec_regWrite_aligned o _ hup ho, BitVec.setWidth_setWidth_of_le v (by decide), BitVec.setWidth_eq]

/-! #### What a word does, by the row of its register -/

theorem regStore_undefined {o : Nat} (v : Word) (s : State) (hr : regRow o = none) : regStore o v s = aerr 3 false 0 o s := by
  simp [regStore, hr]

theorem regStore_barred {o : Nat} {r : RegRow} (v : Word) {s : State} (hr : regRow o = some r) (hb : tileBarred s o = true) :
    regStore o v s = s := by simp [regStore, hr, hb]

/-- A register without W1S and WO fields takes a word by the lock: the open way before it, where it has RW/L fields, the
locked way after it and where it has none. -/
theorem regStore_eq {o : Nat} {r : RegRow} (v : Word) {s : State} (hr : regRow o = some r) (hb : tileBarred s o = false)
    (hw1s : r.w1s = 0) (hwo : r.wo = 0) :
    regStore o v s = if r.rwl ≠ 0 ∧ locked s = false then storeOpen o v r s else storeLocked o v r s := by
  simp [regStore, hr, hb, hw1s, hwo]

/-! #### Before the lock -/

theorem storeOpen_rejected {o : Nat} {v : Word} {r : RegRow} {s : State} {k : Nat}
    (hc : checkWrite s o v (((rd s o &&& ~~~ r.rwl) ||| (v &&& r.rwl)) &&& ~~~ (v &&& r.w1c)) r = some k) :
    storeOpen o v r s = aerr k false 0 o s := by simp only [storeOpen, hc]

theorem storeOpen_accepted {o : Nat} {v : Word} {r : RegRow} {s : State}
    (hc : checkWrite s o v (((rd s o &&& ~~~ r.rwl) ||| (v &&& r.rwl)) &&& ~~~ (v &&& r.w1c)) r = none) :
    storeOpen o v r s =
      writeEffect o (rd s o) (wr o (((rd s o &&& ~~~ r.rwl) ||| (v &&& r.rwl)) &&& ~~~ (v &&& r.w1c)) s) := by
  simp only [storeOpen, hc]

/-- Before the lock an aligned 32-bit write to a register with RW/L fields is the open store. -/
theorem exec_regWrite_open {o : Nat} {v : Word} {s : State} {r : RegRow} (hup : hostDown s = false) (hopen : locked s = false)
    (ho : o % 4 = 0) (hr : regRow o = some r) (hb : tileBarred s o = false) (hw1s : r.w1s = 0) (hwo : r.wo = 0)
    (hrwl : r.rwl ≠ 0) :
    exec (.regWrite o 4 (v.setWidth 64)) s = .next (storeOpen o v r s) := by
  rw [exec_regWrite_word o v hup ho, regStore_eq v hr hb hw1s hwo, if_pos ⟨hrwl, hopen⟩]

/-- Only the HBM block, ATOM_CFG and FCLK have writes that start something more. -/
theorem writeEffect_plain {o : Nat} (old : Word) (s : State) (hatom : o ≠ 0xA0000) (hfclk : o ≠ 0x40018)
    (hhbm : o < 0x100000 ∨ 0x200000 ≤ o) : writeEffect o old s = s := by
  rw [writeEffect, if_neg (by omega), if_neg (by omega), if_neg hatom, if_neg hfclk]

/-! #### After the lock, and registers without RW/L fields -/

theorem storeLocked_of_rwl_eq_zero {o : Nat} {v : Word} {r : RegRow} (s : State) (hrwl : r.rwl = 0) (hv : v &&& r.w1c ≠ 0) :
    storeLocked o v r s = wr o (rd s o &&& ~~~ (v &&& r.w1c)) s := by
  have hsame : (v ^^^ rd s o) &&& r.rwl = 0 := by simp [hrwl]
  simp only [storeLocked, if_pos hsame, if_neg hv]

theorem storeLocked_of_w1c_eq_zero (o : Nat) (v : Word) {r : RegRow} (s : State) (hw1c : r.w1c = 0) :
    storeLocked o v r s = if (v ^^^ rd s o) &&& r.rwl = 0 then s else aerr 1 false 0 o s := by simp [storeLocked, hw1c]

/-! #### The access error -/

@[simp] theorem aerr_mem (k : Nat) (b : Bool) (f : FuncIx) (off : Nat) (s : State) : (aerr k b f off s).mem = s.mem := by
  rw [aerr_frame]
@[simp] theorem aerr_tiles (k : Nat) (b : Bool) (f : FuncIx) (off : Nat) (s : State) : (aerr k b f off s).tiles = s.tiles := by
  rw [aerr_frame]
@[simp] theorem aerr_pending (k : Nat) (b : Bool) (f : FuncIx) (off : Nat) (s : State) :
    (aerr k b f off s).pending = s.pending := by rw [aerr_frame]

/-- AERR_ADDR names the offset. -/
theorem rd_aerr_addr (k : Nat) (b : Bool) (f : FuncIx) (off : Nat) (s : State) :
    rd (aerr k b f off s) 0x10024 = BitVec.ofNat 32 off := by simp [aerr, rd_raise, rd_wr]

/-- AERR_INFO names the KIND, the BAR and the function. -/
theorem rd_aerr_info (k : Nat) (b : Bool) (f : FuncIx) (off : Nat) (s : State) :
    rd (aerr k b f off s) 0x10028 = BitVec.ofNat 32 (k + 16 * bnat b + 65536 * f.val) := by simp [aerr, rd_raise]

theorem aerr_regsBut (k : Nat) (b : Bool) (f : FuncIx) (off : Nat) (s : State) :
    regsBut [0x10024, 0x10028, hostEvent, aerrCount] s (aerr k b f off s) := fun p hp => rd_aerr_other k b f off s p hp

/-! #### The statements -/

/-- Settles O5: after the lock such a write leaves the state as it is, or records an access error, which touches none but the
registers listed. -/
theorem writeAfterLockKeepsLockedFields : Obligations.WriteAfterLockKeepsLockedFields := by
  intro o v s r hup hlock ho hr hb hw1s hwo _ hw1c hout
  have hrun : exec (.regWrite o 4 (v.setWidth 64)) s =
      .next (if (v ^^^ rd s o) &&& r.rwl = 0 then s else aerr 1 false 0 o s) := by
    rw [exec_regWrite_word o v hup ho, regStore_eq v hr hb hw1s hwo, if_neg (by simp [hlock]),
      storeLocked_of_w1c_eq_zero o v s hw1c]
  by_cases hchg : (v ^^^ rd s o) &&& r.rwl = 0
  · rw [if_pos hchg] at hrun
    exact ⟨s, hrun, rfl, rfl, rfl, rfl, fun _ _ => rfl, fun h => absurd hchg h⟩
  · rw [if_neg hchg] at hrun
    refine ⟨aerr 1 false 0 o s, hrun, ?_, aerr_mem .., aerr_tiles .., aerr_pending .., aerr_regsBut 1 false 0 o s,
      fun _ => ⟨rd_aerr_addr .., rd_aerr_info ..⟩⟩
    rw [rd_aerr_other 1 false 0 o s o hout]

/-- Settles O1: `step` reads the front of the queue. -/
theorem stepRunsFrontCommand : Obligations.StepRunsFrontCommand := by
  intro c rest s hpending
  simp only [step, hpending]

/-- Settles O4, a clause for each way that a write can go. -/
theorem writeBeforeLockStores : Obligations.WriteBeforeLockStores := by
  refine ⟨?accepted, ?rejected, ?w1cOnly, ?dword, ?malformed, ?undefined, ?barred⟩
  case accepted =>
    intro o v s r hup hopen ho hr hb hw1s hwo hrwl hc
    rw [exec_regWrite_open hup hopen ho hr hb hw1s hwo hrwl, storeOpen_accepted hc]
    exact ⟨rfl, fun hatom hfclk hhbm => by rw [writeEffect_plain _ _ hatom hfclk hhbm]⟩
  case rejected =>
    intro o v s r k hup hopen ho hr hb hw1s hwo hrwl hc
    rw [exec_regWrite_open hup hopen ho hr hb hw1s hwo hrwl, storeOpen_rejected hc]
  case w1cOnly =>
    intro o v s r hup ho hr hb hw1s hwo hrwl hv
    rw [exec_regWrite_word o v hup ho, regStore_eq v hr hb hw1s hwo, if_neg (by simp [hrwl]),
      storeLocked_of_rwl_eq_zero s hrwl hv]
  case dword =>
    intro o v s hup ho
    rw [exec_regWrite o 8 v hup, barWrite_dword v s ho]
  case malformed =>
    intro o size v s hup h4 h8
    rw [exec_regWrite o size v hup, barWrite_malformed v s h4 h8]
  case undefined =>
    intro o v s hup ho hr
    rw [exec_regWrite_aligned o v hup ho, regStore_undefined _ s hr]
  case barred =>
    intro o v r s hup ho hr hb
    rw [exec_regWrite_aligned o v hup ho, regStore_barred _ hr hb]

end Sys2Proof.Machine
end

/-! ### The time clock (02 R34–R36)

A counter is a number of 2^-42 ns units; a tick adds the total increment to it, and so does every tick that `advance` lets
pass at once. -/

section
namespace Sys2Proof.Machine

/-! #### The counter as a number -/

theorem unitsNs_eq : unitsNs = 4398046511104 := rfl
theorem unitsS_eq : unitsS = 4398046511104000000000 := rfl
theorem wrapUnits_eq : wrapUnits = 1237940039285380274899124224000000000 := rfl

/-- The counter that stands at a number of units shows it, modulo 2^48 seconds. -/
theorem counterUnits_counterAt (u : Nat) : counterUnits (counterAt u) = u % wrapUnits := by
  simp only [counterUnits, counterAt, BitVec.toNat_ofNat, unitsNs_eq, unitsS_eq, wrapUnits_eq]
  omega

/-- Numbers of units that agree modulo 2^48 seconds are the same counter. -/
theorem counterAt_congr {u v : Nat} (h : u % wrapUnits = v % wrapUnits) : counterAt u = counterAt v := by
  simp only [counterAt, Counter.mk.injEq, wrapUnits_eq] at h ⊢
  refine ⟨?sec, ?ns, ?frac, ?sub⟩ <;> apply BitVec.eq_of_toNat_eq <;> simp only [BitVec.toNat_ofNat, unitsNs_eq, unitsS_eq] <;> omega

theorem counterAt_ns_lt (u : Nat) : (counterAt u).ns.toNat < 1000000000 := by
  simp only [counterAt, BitVec.toNat_ofNat]
  omega

theorem counterAt_counterUnits {c : Counter} (hns : c.ns.toNat < 1000000000) : counterAt (counterUnits c) = c := by
  obtain ⟨sec, ns, frac, sub⟩ := c
  have hsec := sec.isLt
  have hfrac := frac.isLt
  have hsub := sub.isLt
  simp only [counterAt, counterUnits, Counter.mk.injEq] at hns ⊢
  refine ⟨?sec, ?ns, ?frac, ?sub⟩ <;> apply BitVec.eq_of_toNat_eq <;> simp only [BitVec.toNat_ofNat, unitsNs_eq, unitsS_eq] <;> omega

/-- One tick adds the increment to the number of units. -/
theorem counterTick_eq {c : Counter} {ns sub : Nat} (frac : Word) (hc : c.ns.toNat < 1000000000) (hns : ns < 256) (hsub : sub < 1024) :
    counterTick ns frac sub c = counterAt (counterUnits c + (ns * unitsNs + frac.toNat * 2 ^ 10 + sub)) := by
  obtain ⟨csec, cns, cfrac, csub⟩ := c
  have hcsec := csec.isLt
  have hcfrac := cfrac.isLt
  have hcsub := csub.isLt
  have hfrac := frac.isLt
  simp only [counterTick, counterAt, counterUnits, Counter.mk.injEq, unitsNs_eq, unitsS_eq] at hc ⊢
  have hone : (1 : BitVec 48).toNat = 1 := rfl
  refine ⟨?sec, ?ns, ?frac, ?sub⟩ <;> apply BitVec.eq_of_toNat_eq
  case sec => split <;> simp only [BitVec.toNat_add, BitVec.toNat_ofNat, hone] <;> omega
  case ns => simp only [BitVec.toNat_ofNat]; split <;> omega
  case frac => simp only [BitVec.toNat_ofNat]; omega
  case sub => simp only [BitVec.toNat_ofNat]; omega

/-! #### Ticks of the state -/

theorem incNs_lt (s : State) : incNs s < 256 := Nat.mod_lt _ (by decide)

theorem incSub_lt (s : State) : incSub s < 1024 := Nat.mod_lt _ (by decide)

/-- The state at tick `k` with the counter `c`. -/
def atClock (k : Nat) (c : Counter) (s : State) : State := { s with clk := k, time := { s.time with counter := c } }

@[simp] theorem atClock_clk (k : Nat) (c : Counter) (s : State) : (atClock k c s).clk = k := rfl
@[simp] theorem atClock_counter (k : Nat) (c : Counter) (s : State) : (atClock k c s).time.counter = c := rfl
@[simp] theorem incUnits_atClock (k : Nat) (c : Counter) (s : State) : incUnits (atClock k c s) = incUnits s := rfl
@[simp] theorem atClock_atClock (k j : Nat) (c d : Counter) (s : State) : atClock j d (atClock k c s) = atClock j d s := rfl

/-- The closed form of `n` ticks, without its case for no tick. -/
theorem advance_eq (n : Nat) {s : State} (hns : s.time.counter.ns.toNat < 1000000000) :
    advance n s = atClock (s.clk + n) (counterAt (counterUnits s.time.counter + n * incUnits s)) s := by
  unfold advance
  split
  · next h => rw [h, Nat.zero_mul, Nat.add_zero, Nat.add_zero, counterAt_counterUnits hns]; rfl
  · rfl

theorem tick_eq (s : State) :
    tick s = atClock (s.clk + 1) (counterTick (incNs s) (incFrac s) (incSub s) s.time.counter) s := rfl

theorem tick_eq_advance_one {s : State} (hns : s.time.counter.ns.toNat < 1000000000) : tick s = advance 1 s := by
  rw [advance_eq 1 hns, tick_eq, counterTick_eq (incFrac s) hns (incNs_lt s) (incSub_lt s), Nat.one_mul, incUnits]

theorem advance_ns_lt (n : Nat) {s : State} (hns : s.time.counter.ns.toNat < 1000000000) :
    (advance n s).time.counter.ns.toNat < 1000000000 := by
  rw [advance_eq n hns, atClock_counter]
  exact counterAt_ns_lt _

theorem counterAt_counterUnits_counterAt_add (u k : Nat) : counterAt (counterUnits (counterAt u) + k) = counterAt (u + k) :=
  counterAt_congr (by rw [counterUnits_counterAt, Nat.mod_add_mod])

/-- Ticks may be let pass in two parts. -/
theorem advance_add (m n : Nat) {s : State} (hns : s.time.counter.ns.toNat < 1000000000) :
    advance (m + n) s = advance n (advance m s) := by
  rw [advance_eq n (advance_ns_lt m hns), advance_eq m hns, advance_eq (m + n) hns, atClock_clk, atClock_counter,
    incUnits_atClock, atClock_atClock, counterAt_counterUnits_counterAt_add, Nat.add_mul, Nat.add_assoc, Nat.add_assoc]

theorem tick_ns_lt {s : State} (hns : s.time.counter.ns.toNat < 1000000000) : (tick s).time.counter.ns.toNat < 1000000000 := by
  rw [tick_eq_advance_one hns]
  exact advance_ns_lt 1 hns

/-! #### The statements -/

/-- Settles O2: the tick of an empty queue is the closed form for one tick. -/
theorem idleStepAddsIncrement : Obligations.IdleStepAddsIncrement := by
  intro s hpending hns
  have hstep : step s = .next (tick s) := by simp only [step, hpending]
  refine ⟨tick s, hstep, rfl, tick_ns_lt hns, ?_⟩
  rw [tick_eq_advance_one hns, advance_eq 1 hns, atClock_counter, counterUnits_counterAt, Nat.one_mul, Nat.mod_mod]

/-- Settles O3, by induction on the number of ticks. -/
theorem manyTicksAreRepeatedTicks : Obligations.ManyTicksAreRepeatedTicks := by
  intro n
  induction n with
  | zero => intro s _; simp [advance]
  | succ n ih =>
    intro s hns
    calc advance (n + 1) s = advance n (advance 1 s) := by rw [Nat.add_comm, advance_add 1 n hns]
      _ = advance n (tick s) := by rw [tick_eq_advance_one hns]
      _ = Nat.iterate tick n (tick s) := ih (tick s) (tick_ns_lt hns)
      _ = Nat.iterate tick (n + 1) s := rfl

end Sys2Proof.Machine
end

/-! ### Cues (02 R49, R53, R54) -/

section
namespace Sys2Proof.Machine

/-- A number moved by whole periods into the window that begins at `lo`. -/
theorem sub_div_mul_eq_add_emod (b lo p : Int) : b - (b - lo) / p * p = lo + (b - lo) % p := by
  rw [Int.emod_def, Int.mul_comm p]
  omega

/-- The bound cue stands in its window as far as the cue's first time stands behind the window's start, modulo the period. -/
theorem bindCue_eq (s : State) (g sfn slot symbol : Nat) (off : Int) (a : Nat) :
    bindCue s g sfn slot symbol off a = (a : Int) - 256 * (frameUnits : Int) +
      (cueBase s g sfn slot symbol off - ((a : Int) - 256 * (frameUnits : Int))) % (sfnPeriod : Int) :=
  sub_div_mul_eq_add_emod ..

theorem bindCue_sub_cueBase_emod (s : State) (g sfn slot symbol : Nat) (off : Int) (a : Nat) :
    (bindCue s g sfn slot symbol off a - cueBase s g sfn slot symbol off) % (sfnPeriod : Int) = 0 := by
  unfold bindCue
  rw [sub_sub_cancel_left, ← Int.neg_mul]
  exact Int.mul_emod_left _ _

theorem le_ceilDiv_mul {b : Nat} (a : Nat) (hb : 0 < b) : a ≤ ceilDiv a b * b := by
  have h := Nat.div_add_mod (a + b - 1) b
  have hlt := Nat.mod_lt (a + b - 1) hb
  rw [ceilDiv, Nat.mul_comm]
  omega

theorem ceilDiv_mul_lt {b : Nat} (a : Nat) (hb : 0 < b) : ceilDiv a b * b < a + b := by
  have h := Nat.div_mul_le_self (a + b - 1) b
  rw [ceilDiv]
  omega

/-- A start of `x` / 6144 · 2^32 units of 2^-32 ns, rounded up to a whole one, in 2^-42 ns units. -/
theorem roundedStart_bounds (x : Nat) : x * 2 ^ 42 ≤ ceilDiv (x * 2 ^ 32) 6144 * 2 ^ 10 * 6144 ∧
    ceilDiv (x * 2 ^ 32) 6144 * 2 ^ 10 * 6144 < x * 2 ^ 42 + 6144 * 2 ^ 10 := by
  have hle := le_ceilDiv_mul (x * 2 ^ 32) (b := 6144) (by decide)
  have hlt := ceilDiv_mul_lt (x * 2 ^ 32) (b := 6144) (by decide)
  omega

/-- Settles O24: the remainder of a period lies in it, and a quotient rounded up is the least whole number above. -/
theorem cueBindsToNearestOccurrence : Obligations.CueBindsToNearestOccurrence := by
  refine ⟨?window, ?symbol⟩
  case window =>
    intro s g sfn slot symbol off a
    have hpos : (0 : Int) < (sfnPeriod : Int) := by decide
    have hlo := Int.emod_nonneg (cueBase s g sfn slot symbol off - ((a : Int) - 256 * (frameUnits : Int))) (ne_of_gt hpos)
    have hhi := Int.emod_lt_of_pos (cueBase s g sfn slot symbol off - ((a : Int) - 256 * (frameUnits : Int))) hpos
    have hperiod : (sfnPeriod : Int) = 1024 * (frameUnits : Int) := Nat.cast_mul 1024 frameUnits
    refine ⟨?_, ?_, bindCue_sub_cueBase_emod s g sfn slot symbol off a⟩
    · rw [bindCue_eq]
      omega
    · rw [bindCue_eq]
      omega
  case symbol =>
    intro mu l
    exact ⟨Nat.mul_mod_left _ _, roundedStart_bounds (startTc mu l * 3125)⟩

end Sys2Proof.Machine
end

/-! ### What the operations of device time leave (02 R39–R46)

First the registers: which of them an operation may write, and what the fields of TIME.STATUS read after it. -/

section
namespace Sys2Proof.Machine

/-! #### Registers that an operation may write -/

theorem regsBut.refl (l : List Nat) (s : State) : regsBut l s s := fun _ _ => rfl

theorem regsBut.trans {l m : List Nat} {s t u : State} (h : regsBut l s t) (h' : regsBut m t u) (hm : m ⊆ l) : regsBut l s u :=
  fun o ho => (h' o fun hom => ho (hm hom)).trans (h o ho)

theorem regsBut.mono {l m : List Nat} {s t : State} (h : regsBut m s t) (hm : m ⊆ l) : regsBut l s t :=
  (regsBut.refl l s).trans h hm

theorem regsBut.of_regs_eq {s t : State} (h : t.regs = s.regs) (l : List Nat) : regsBut l s t :=
  fun o _ => by unfold rd; rw [h]

theorem regsBut.rdb_eq {l : List Nat} {s t : State} (h : regsBut l s t) {o : Nat} (ho : o ∉ l) (b : Nat) : rdb t o b = rdb s o b := by
  unfold rdb; rw [h o ho]

theorem regsBut.rdf_eq {l : List Nat} {s t : State} (h : regsBut l s t) {o : Nat} (ho : o ∉ l) (hi lo : Nat) :
    rdf t o hi lo = rdf s o hi lo := by
  unfold rdf; rw [h o ho]

theorem wr_regsBut (o : Nat) (v : Word) (s : State) : regsBut [o] s (wr o v s) :=
  fun _ hp => rd_wr_other v s (by simpa using hp)

theorem wrf_regsBut (o hi lo v : Nat) (s : State) : regsBut [o] s (wrf o hi lo v s) := wr_regsBut o _ s

theorem bump_regsBut (o n : Nat) (s : State) : regsBut [o] s (bump o n s) := wr_regsBut o _ s

theorem raise_regsBut (o b : Nat) (s : State) : regsBut [o] s (raise o b s) :=
  fun p hp => by rw [rd_raise, if_neg fun h => hp (by simp [h.1])]

/-- A field beside the one written keeps its value. -/
theorem rdf_wrf_disjoint (o : Nat) {hi lo hi' lo' : Nat} (v : Nat) (s : State) (h : hi < 32) (hl : lo ≤ hi) (hl' : lo' ≤ hi')
    (hd : hi' < lo ∨ hi < lo') : rdf (wrf o hi lo v s) o hi' lo' = rdf s o hi' lo' := by
  unfold rdf; rw [rd_wrf, if_pos rfl, field_setField_other _ _ _ _ _ _ h hl hl' hd]

/-- Raising an event clears no bit. -/
theorem rdb_raise_of_set {o b p c : Nat} {s : State} (h : rdb s p c = true) : rdb (raise o b s) p c = true := by
  unfold rdb at h ⊢
  rw [rd_raise]
  split
  · next hp => rw [← hp.1, BitVec.getLsbD_or, h, Bool.true_or]
  · exact h

theorem rd_bump_toNat (o n : Nat) (s : State) : (rd (bump o n s) o).toNat = min (2 ^ 32 - 1) ((rd s o).toNat + n) := by
  rw [rd_bump, if_pos rfl, BitVec.toNat_ofNat]
  omega

theorem wrf_clk (o hi lo v : Nat) (s : State) : (wrf o hi lo v s).clk = s.clk := rfl
theorem wrf_time (o hi lo v : Nat) (s : State) : (wrf o hi lo v s).time = s.time := rfl
@[simp] theorem raise_time (o b : Nat) (s : State) : (raise o b s).time = s.time := by rw [raise_frame]
@[simp] theorem raise_clk (o b : Nat) (s : State) : (raise o b s).clk = s.clk := by rw [raise_frame]
@[simp] theorem raise_mem (o b : Nat) (s : State) : (raise o b s).mem = s.mem := by rw [raise_frame]
@[simp] theorem raise_tiles (o b : Nat) (s : State) : (raise o b s).tiles = s.tiles := by rw [raise_frame]
@[simp] theorem raise_splice (o b : Nat) (s : State) : (raise o b s).splice = s.splice := by rw [raise_frame]

/-! #### The increment (02 R35, R41, R66) -/

/-- INC_FRAC, and INC_NS with INC_SUB. -/
abbrev incRegs : List Nat := [0x20020, 0x20024]

theorem setInc_regsBut (u : Nat) (s : State) : regsBut incRegs s (setInc u s) :=
  ((wr_regsBut 0x20020 _ s).mono (by decide)).trans (wr_regsBut 0x20024 _ _) (by decide)

theorem useFree_regsBut (l : List Nat) (s : State) : regsBut l s (useFree s) := regsBut.of_regs_eq rfl l

theorem field_incWord_ns {q : Nat} (r : Nat) (hq : q < 256) : field (BitVec.ofNat 32 (q + r * 256)) 7 0 = q := by
  simp only [field, BitVec.toNat_ofNat, Nat.pow_zero, Nat.div_one, Nat.reduceSub, Nat.reduceAdd, Nat.reducePow]
  omega

theorem field_incWord_sub {q r : Nat} (hq : q < 256) (hr : r < 1024) : field (BitVec.ofNat 32 (q + r * 256)) 17 8 = r := by
  simp only [field, BitVec.toNat_ofNat, Nat.reduceSub, Nat.reduceAdd, Nat.reducePow]
  omega

theorem incUnits_setInc {u : Nat} (s : State) (hu : u < 2 ^ 50) : incUnits (setInc u s) = u := by
  have hq : u / 2 ^ 42 < 256 := by omega
  have hr : u % 1024 < 1024 := Nat.mod_lt _ (by decide)
  have hword : rd (setInc u s) 0x20024 = BitVec.ofNat 32 (u / 2 ^ 42 + u % 1024 * 256) := by
    rw [setInc, rd_wr_same, Nat.mod_eq_of_lt hq]
  have hfrac : (rd (setInc u s) 0x20020).toNat = u / 1024 % 2 ^ 32 := by
    rw [setInc, rd_wr_other _ _ (by decide), rd_wr_same, BitVec.toNat_ofNat]
  rw [incUnits, incNs, incSub, incFrac, rdf, rdf, hword, hfrac, field_incWord_ns _ hq, field_incWord_sub hq hr, unitsNs_eq]
  omega

/-- The registers can hold every increment within the bounds of R41. -/
theorem incHigh_lt : incHigh < 2 ^ 50 := by decide

theorem incLow_le_incHigh : incLow ≤ incHigh := by decide

/-- The increment lies within the bounds of R41. -/
def incInBounds (s : State) : Prop := incLow ≤ incUnits s ∧ incUnits s ≤ incHigh

theorem incInBounds_setInc {u : Nat} (s : State) (hlo : incLow ≤ u) (hhi : u ≤ incHigh) : incInBounds (setInc u s) := by
  rw [incInBounds, incUnits_setInc s (lt_of_le_of_lt hhi incHigh_lt)]
  exact ⟨hlo, hhi⟩

theorem incInBounds_useFree {s : State} (h : incInBounds s) : incInBounds (useFree s) := h

theorem incInBounds_freeInc (s : State) : incInBounds (freeInc s) := by
  have hmod : (freshVal s).toNat % (incHigh - incLow + 1) < incHigh - incLow + 1 := Nat.mod_lt _ (Nat.succ_pos _)
  have hle := incLow_le_incHigh
  exact incInBounds_useFree (incInBounds_setInc s (Nat.le_add_right _ _) (by omega))

theorem incInBounds_followRef (n : Nat) (s : State) : incInBounds (followRef n s) := by
  have hclamp : ∀ u, incInBounds (setInc (max incLow (min incHigh u)) s) := fun u =>
    incInBounds_setInc s (Nat.le_max_left _ _) (Nat.max_le.2 ⟨incLow_le_incHigh, Nat.min_le_left _ _⟩)
  unfold followRef
  dsimp only
  split
  · exact incInBounds_freeInc s
  · split
    · exact hclamp _
    · exact incInBounds_useFree (hclamp _)

theorem freeInc_regsBut (s : State) : regsBut incRegs s (freeInc s) :=
  (setInc_regsBut _ s).trans (useFree_regsBut incRegs _) (List.Subset.refl _)

theorem holdAverage_regsBut (s : State) : regsBut incRegs s (holdAverage s) := by
  unfold holdAverage
  dsimp only
  split
  · exact regsBut.refl _ s
  · split
    · exact setInc_regsBut _ s
    · exact (setInc_regsBut _ s).trans (useFree_regsBut incRegs _) (List.Subset.refl _)

theorem followRef_regsBut (n : Nat) (s : State) : regsBut incRegs s (followRef n s) := by
  unfold followRef
  dsimp only
  split
  · exact freeInc_regsBut s
  · split
    · exact setInc_regsBut _ s
    · exact (setInc_regsBut _ s).trans (useFree_regsBut incRegs _) (List.Subset.refl _)

theorem holdInc_regsBut (s : State) : regsBut incRegs s (holdInc s) := by
  unfold holdInc
  split
  · exact holdAverage_regsBut s
  · exact followRef_regsBut _ s

theorem freeInc_time (s : State) : (freeInc s).time = s.time := rfl

theorem holdInc_time (s : State) : (holdInc s).time = s.time :=
  (holdInc_does (fs₀ := [.regs, .free]) (Does.refl _ s) rfl).same .time (by decide)

theorem followRef_time (n : Nat) (s : State) : (followRef n s).time = s.time :=
  (followRef_does (fs₀ := [.regs, .free]) (Does.refl _ s) rfl).same .time (by decide)

/-! #### The learning interval changes nothing but itself -/

theorem learnNow_regs (s : State) : (learnNow s).regs = s.regs := by unfold learnNow; split <;> rfl
theorem rd_learnNow (s : State) (o : Nat) : rd (learnNow s) o = rd s o := by unfold rd; rw [learnNow_regs]
theorem learnNow_clk (s : State) : (learnNow s).clk = s.clk := by unfold learnNow; split <;> rfl
theorem learnNow_time (s : State) :
    (learnNow s).time = { s.time with learn := (learnNow s).time.learn, learnFrom := (learnNow s).time.learnFrom } := by
  unfold learnNow; split <;> rfl

theorem learnNow_of_not_locked {s : State} (h : timeState s ≠ 3) : learnNow s = s := by unfold learnNow; rw [if_neg h]

/-! #### The entry to LOCKED -/

theorem enterLocked_regsBut (s : State) : regsBut [timeStatus, timeEvent] s (enterLocked s) := by
  refine regsBut.trans (t := wrf timeStatus 5 5 0 (wrf timeStatus 3 3 1 (wrf timeStatus 2 0 3 s))) ?_ (raise_regsBut timeEvent 0 _)
    (by decide)
  exact (((wrf_regsBut timeStatus 2 0 3 s).trans (wrf_regsBut timeStatus 3 3 1 _) (by decide)).trans
    (wrf_regsBut timeStatus 5 5 0 _) (by decide)).mono (by decide)

/-- TIME.STATUS after the entry to LOCKED. -/
theorem rd_enterLocked_status (s : State) :
    rd (enterLocked s) timeStatus = rd (wrf timeStatus 5 5 0 (wrf timeStatus 3 3 1 (wrf timeStatus 2 0 3 s))) timeStatus :=
  raise_regsBut timeEvent 0 _ timeStatus (by decide)

theorem timeState_enterLocked (s : State) : timeState (enterLocked s) = 3 := by
  rw [timeState, rdf, rd_enterLocked_status]
  change rdf (wrf _ _ _ _ _) _ _ _ = 3
  rw [rdf_wrf_disjoint _ _ _ (by decide) (by decide) (by decide) (by decide),
    rdf_wrf_disjoint _ _ _ (by decide) (by decide) (by decide) (by decide), rdf_wrf_same _ _ _ _ _ (by decide) (by decide)]
  rfl

theorem rdb_enterLocked_status (s : State) (b : Nat) :
    rdb (enterLocked s) timeStatus b = rdb (wrf timeStatus 5 5 0 (wrf timeStatus 3 3 1 (wrf timeStatus 2 0 3 s))) timeStatus b := by
  unfold rdb; rw [rd_enterLocked_status]

theorem timeLocked_enterLocked (s : State) : timeLocked (enterLocked s) = true := by
  rw [timeLocked, rdb_enterLocked_status, rdb_wrf _ _ _ _ _ _ _ (by decide) (by decide), if_neg (by decide),
    rdb_wrf _ _ _ _ _ _ _ (by decide) (by decide), if_pos (by decide)]
  rfl

theorem stepArmed_enterLocked (s : State) : stepArmed (enterLocked s) = stepArmed s := by
  rw [stepArmed, rdb_enterLocked_status, rdb_wrf _ _ _ _ _ _ _ (by decide) (by decide), if_neg (by decide),
    rdb_wrf _ _ _ _ _ _ _ (by decide) (by decide), if_neg (by decide), rdb_wrf _ _ _ _ _ _ _ (by decide) (by decide),
    if_neg (by decide)]
  rfl

theorem rdb_enterLocked_event_zero (s : State) : rdb (enterLocked s) timeEvent 0 = true := rdb_raise _ _ _ (by decide)

theorem enterLocked_time (s : State) :
    (enterLocked s).time = { s.time with running := if timeLocked s then s.time.running else enabledGrids s,
                                         learnFrom := s.clk, accepted := 0, inWindow := 0 } := by
  unfold enterLocked; rw [raise_time]; rfl

/-! #### LOCKED becomes HOLDOVER -/

/-- Registers that the entry to HOLDOVER writes. -/
abbrev holdoverRegs : List Nat := timeStatus :: timeEvent :: incRegs

/-- The state once STATE is HOLDOVER, before the event is raised and the increment is set. -/
def holdoverMarked (s : State) : State :=
  wrf timeStatus 2 0 4 { learnNow s with time := { (learnNow s).time with holdSince := (learnNow s).clk, accepted := 0 } }

theorem enterHoldover_eq (s : State) : enterHoldover s = holdInc (raise timeEvent 2 (holdoverMarked s)) := rfl

theorem holdoverMarked_regsBut (s : State) : regsBut [timeStatus] s (holdoverMarked s) :=
  (regsBut.of_regs_eq (learnNow_regs s) [timeStatus]).trans (wrf_regsBut timeStatus 2 0 4 _) (List.Subset.refl _)

theorem enterHoldover_regsBut (s : State) : regsBut holdoverRegs s (enterHoldover s) :=
  (((holdoverMarked_regsBut s).mono (by decide)).trans (raise_regsBut timeEvent 2 _) (by decide)).trans (holdInc_regsBut _) (by decide)

theorem rd_enterHoldover_status (s : State) : rd (enterHoldover s) timeStatus = rd (holdoverMarked s) timeStatus := by
  rw [enterHoldover_eq, holdInc_regsBut _ _ (by decide), raise_regsBut timeEvent 2 _ _ (by decide)]

theorem timeState_enterHoldover (s : State) : timeState (enterHoldover s) = 4 := by
  rw [timeState, rdf, rd_enterHoldover_status]
  exact rdf_wrf_same timeStatus 2 0 4 _ (by decide) (by decide)

theorem rdb_enterHoldover_status (s : State) {b : Nat} (hb : 2 < b) : rdb (enterHoldover s) timeStatus b = rdb s timeStatus b := by
  unfold rdb
  rw [rd_enterHoldover_status]
  change rdb (wrf _ _ _ _ _) _ _ = _
  rw [rdb_wrf _ _ _ _ _ _ _ (by decide) (by decide), if_neg (by omega)]
  exact (regsBut.of_regs_eq (learnNow_regs s) []).rdb_eq (by decide) b

theorem rdb_enterHoldover_event {s : State} {b : Nat} (h : rdb s timeEvent b = true) :
    rdb (enterHoldover s) timeEvent b = true := by
  rw [enterHoldover_eq, (holdInc_regsBut _).rdb_eq (by decide)]
  exact rdb_raise_of_set (((holdoverMarked_regsBut s).rdb_eq (by decide) b).trans h)

theorem enterHoldover_time (s : State) :
    (enterHoldover s).time = { s.time with learn := (learnNow s).time.learn, learnFrom := (learnNow s).time.learnFrom,
                                           holdSince := s.clk, accepted := 0 } := by
  rw [enterHoldover_eq, holdInc_time, raise_time, holdoverMarked, wrf_eq, wr_time, learnNow_clk, learnNow_time]

end Sys2Proof.Machine
end

/-! ### Measurements, the single step and the servo (02 R39–R43, R62) -/

section
namespace Sys2Proof.Machine

/-! #### A frame and an offset at the slave port -/

theorem slaveFrame_time (s : State) : (slaveFrame s).time = s.time := by unfold slaveFrame; split <;> rfl
theorem slaveFrame_clk (s : State) : (slaveFrame s).clk = s.clk := by unfold slaveFrame; split <;> rfl
theorem slaveFrame_mem (s : State) : (slaveFrame s).mem = s.mem := by unfold slaveFrame; split <;> rfl
theorem slaveFrame_tiles (s : State) : (slaveFrame s).tiles = s.tiles := by unfold slaveFrame; split <;> rfl

/-- A frame counts in a register of the fronthaul block alone. -/
theorem rd_slaveFrame (s : State) {o : Nat} (ho : o < 0xD0000) : rd (slaveFrame s) o = rd s o := by
  unfold slaveFrame
  split
  · exact bump_regsBut _ 1 s o (by simp only [fhReg, List.mem_singleton]; omega)
  · rfl

theorem stepArmed_slaveFrame (s : State) : stepArmed (slaveFrame s) = stepArmed s := by
  unfold stepArmed rdb; rw [rd_slaveFrame s (by decide)]
theorem timeLocked_slaveFrame (s : State) : timeLocked (slaveFrame s) = timeLocked s := by
  unfold timeLocked rdb; rw [rd_slaveFrame s (by decide)]
theorem timeState_slaveFrame (s : State) : timeState (slaveFrame s) = timeState s := by
  unfold timeState rdf; rw [rd_slaveFrame s (by decide)]

theorem setOffset_regsBut (o : Int) (s : State) : regsBut [0x20040] s (setOffset o s) := by
  unfold setOffset
  dsimp only
  split
  · exact wr_regsBut _ _ s
  · exact (wr_regsBut _ _ s).trans (useFree_regsBut [0x20040] _) (List.Subset.refl _)

/-- An offset is shown in a register and may use up a free value. -/
theorem setOffset_same (o : Int) (s : State) : Does [.regs, .free] s (setOffset o s) := setOffset_does (Does.refl _ s) rfl

theorem setOffset_time (o : Int) (s : State) : (setOffset o s).time = s.time := (setOffset_same o s).same .time (by decide)

theorem stepArmed_setOffset (o : Int) (s : State) : stepArmed (setOffset o s) = stepArmed s :=
  (setOffset_regsBut o s).rdb_eq (by decide) 6
theorem timeLocked_setOffset (o : Int) (s : State) : timeLocked (setOffset o s) = timeLocked s :=
  (setOffset_regsBut o s).rdb_eq (by decide) 3
theorem timeState_setOffset (o : Int) (s : State) : timeState (setOffset o s) = timeState s :=
  (setOffset_regsBut o s).rdf_eq (by decide) 2 0

theorem syncSeen_regs (s : State) : (syncSeen s).regs = s.regs := by unfold syncSeen sourceBack; split <;> rfl
theorem syncSeen_mem (s : State) : (syncSeen s).mem = s.mem := by unfold syncSeen sourceBack; split <;> rfl
theorem syncSeen_tiles (s : State) : (syncSeen s).tiles = s.tiles := by unfold syncSeen sourceBack; split <;> rfl
theorem syncSeen_time (s : State) :
    (syncSeen s).time = { s.time with lastSync := s.clk, srcLost := (syncSeen s).time.srcLost } := by
  unfold syncSeen sourceBack; split <;> rfl

theorem exec_followUpReceive (o : Option Offset) {s : State} (hen : slaveEn s = true) :
    exec (.followUpReceive o) s = .next (measureSome o (slaveFrame s)) := by
  change execFollowUpReceive o s = _
  rw [execFollowUpReceive, if_pos hen]

theorem exec_delayRespReceive (o : Option Offset) {s : State} (hen : slaveEn s = true) :
    exec (.delayRespReceive o) s = .next (measureSome o (slaveFrame s)) := by
  change execDelayRespReceive o s = _
  rw [execDelayRespReceive, if_pos hen]

theorem exec_syncMessageReceive (two : Bool) (o : Option Offset) {s : State} (hen : slaveEn s = true) :
    exec (.syncMessageReceive two o) s = .next (takeSync two o (slaveFrame s)) := by
  change execSyncMessageReceive two o s = _
  rw [execSyncMessageReceive, if_pos hen]

/-! #### What becomes of a measurement -/

theorem measure_of_armed (o : Int) {s : State} (harmed : stepArmed s = true) (hptp : s.time.arming = .ptp) :
    measure o s = applyStep (-(o * 1024)) (setOffset o s) := by
  simp [measure, stepArmed_setOffset, harmed, setOffset_time, hptp]

theorem measure_of_refused {o : Int} {s : State} (harmed : stepArmed s = false) (hlocked : timeLocked s = true)
    (hbeyond : beyond o (rd s 0x20014).toNat = true) : measure o s = refuseOffset (setOffset o s) := by
  have hrd : rd (setOffset o s) 0x20014 = rd s 0x20014 := setOffset_regsBut o s _ (by decide)
  simp [measure, stepArmed_setOffset, harmed, timeLocked_setOffset, hlocked, hrd, hbeyond]

theorem measure_of_accepted {o : Int} {s : State} (harmed : stepArmed s = false)
    (hwithin : (timeLocked s && beyond o (rd s 0x20014).toNat) = false) : measure o s = acceptOffset o (setOffset o s) := by
  have hrd : rd (setOffset o s) 0x20014 = rd s 0x20014 := setOffset_regsBut o s _ (by decide)
  simp only [measure, stepArmed_setOffset, harmed, timeLocked_setOffset, hrd, hwithin, Bool.false_eq_true, if_false]

/-- While the step is not armed an offset is refused or accepted. -/
theorem measure_of_not_armed (o : Int) {s : State} (harmed : stepArmed s = false) :
    measure o s = refuseOffset (setOffset o s) ∨ measure o s = acceptOffset o (setOffset o s) := by
  cases h : timeLocked s && beyond o (rd s 0x20014).toNat with
  | true =>
    obtain ⟨hlocked, hbeyond⟩ := Bool.and_eq_true_iff.1 h
    exact .inl (measure_of_refused harmed hlocked hbeyond)
  | false => exact .inr (measure_of_accepted harmed h)

/-! #### An offset refused -/

/-- The state once TIME_JUMP_REFUSED is set, the refusal is counted and its event is raised. -/
def refusalMarked (s : State) : State :=
  raise timeEvent 1 (bump 0x20048 1 (wrf timeStatus 4 4 1 { s with time := { s.time with accepted := 0 } }))

theorem refuseOffset_eq (s : State) : refuseOffset s = report ⟨.time, true, 1, 0, .none⟩
    (if timeState (refusalMarked s) = 3 then enterHoldover (refusalMarked s) else refusalMarked s) := rfl

theorem rd_refusalMarked_status (s : State) : rd (refusalMarked s) timeStatus = rd (wrf timeStatus 4 4 1 s) timeStatus := by
  rw [refusalMarked, raise_regsBut _ _ _ _ (by decide), bump_regsBut _ _ _ _ (by decide)]
  rfl

theorem timeState_refusalMarked (s : State) : timeState (refusalMarked s) = timeState s := by
  rw [timeState, rdf, rd_refusalMarked_status]
  exact rdf_wrf_disjoint timeStatus 1 s (by decide) (by decide) (by decide) (by decide)

theorem rdb_refusalMarked_refused (s : State) : rdb (refusalMarked s) timeStatus 4 = true := by
  rw [rdb, rd_refusalMarked_status]
  change rdb (wrf _ _ _ _ _) _ _ = true
  rw [rdb_wrf _ _ _ _ _ _ _ (by decide) (by decide), if_pos (by decide)]
  rfl

theorem rd_refusalMarked_count (s : State) :
    (rd (refusalMarked s) 0x20048).toNat = min (2 ^ 32 - 1) ((rd s 0x20048).toNat + 1) := by
  rw [refusalMarked, raise_regsBut _ _ _ _ (by decide), rd_bump_toNat, wrf_regsBut _ _ _ _ _ _ (by decide)]
  rfl

theorem refusalMarked_time (s : State) : (refusalMarked s).time = { s.time with accepted := 0 } := by
  rw [refusalMarked, raise_time]; rfl

theorem refuseOffset_counter (s : State) : (refuseOffset s).time.counter = s.time.counter := by
  rw [refuseOffset_eq, report_time]
  split
  · rw [enterHoldover_time, refusalMarked_time]
  · rw [refusalMarked_time]

theorem refuseOffset_shows (s : State) :
    rdb (refuseOffset s) timeStatus 4 = true ∧
    (rd (refuseOffset s) 0x20048).toNat = min (2 ^ 32 - 1) ((rd s 0x20048).toNat + 1) ∧
    rdb (refuseOffset s) timeEvent 1 = true ∧ (timeState s = 3 → timeState (refuseOffset s) = 4) := by
  have hevent : rdb (refusalMarked s) timeEvent 1 = true := rdb_raise _ _ _ (by decide)
  have hreport : ∀ (x : Report) (u : State) (o : Nat), rd (report x u) o = rd u o := fun _ _ _ => rfl
  unfold timeState rdf rdb
  simp only [refuseOffset_eq, hreport]
  split
  · next hstate =>
    refine ⟨?_, ?_, rdb_enterHoldover_event hevent, fun _ => timeState_enterHoldover _⟩
    · exact (rdb_enterHoldover_status _ (by decide)).trans (rdb_refusalMarked_refused s)
    · rw [enterHoldover_regsBut _ _ (by decide), rd_refusalMarked_count]
  · next hstate =>
    exact ⟨rdb_refusalMarked_refused s, rd_refusalMarked_count s, hevent,
      fun h => absurd ((timeState_refusalMarked s).trans h) hstate⟩

/-! #### An offset accepted -/

/-- The state once TIME_JUMP_REFUSED is clear and the servo has corrected by rate. -/
def slewed (s : State) : State := freeInc (learnNow (wrf timeStatus 4 4 0 s))

theorem slewed_regsBut (s : State) : regsBut (timeStatus :: incRegs) s (slewed s) :=
  (((wrf_regsBut timeStatus 4 4 0 s).mono (by decide)).trans (regsBut.of_regs_eq (learnNow_regs _) []) (by decide)).trans
    (freeInc_regsBut _) (by decide)

theorem rd_slewed_status (s : State) : rd (slewed s) timeStatus = rd (wrf timeStatus 4 4 0 s) timeStatus := by
  rw [slewed, freeInc_regsBut _ _ (by decide), rd_learnNow]

theorem timeState_slewed (s : State) : timeState (slewed s) = timeState s := by
  rw [timeState, rdf, rd_slewed_status]
  exact rdf_wrf_disjoint timeStatus 0 s (by decide) (by decide) (by decide) (by decide)

theorem rdb_slewed_refused (s : State) : rdb (slewed s) timeStatus 4 = false := by
  rw [rdb, rd_slewed_status]
  change rdb (wrf _ _ _ _ _) _ _ = false
  rw [rdb_wrf _ _ _ _ _ _ _ (by decide) (by decide), if_pos (by decide)]
  rfl

theorem slewed_counter (s : State) : (slewed s).time.counter = s.time.counter := by
  rw [slewed, freeInc_time, learnNow_time]; rfl

theorem acceptOffset_of_locked (o : Int) {s : State} (hstate : timeState s = 3) : acceptOffset o s = slewed s := by
  have h : timeState (freeInc (learnNow (wrf timeStatus 4 4 0 s))) = 3 := (timeState_slewed s).trans hstate
  simp only [acceptOffset, h, slewed]

theorem ite_enterLocked_counter (p : Prop) [Decidable p] (s : State) :
    (if p then enterLocked s else s).time.counter = s.time.counter := by
  split
  · rw [enterLocked_time]
  · rfl

theorem acceptOffset_counter (o : Int) (s : State) : (acceptOffset o s).time.counter = s.time.counter := by
  unfold acceptOffset
  have hslewed : (freeInc (learnNow (wrf timeStatus 4 4 0 s))).time.counter = s.time.counter := by
    rw [freeInc_time, learnNow_time]; rfl
  generalize freeInc (learnNow (wrf timeStatus 4 4 0 s)) = u at hslewed ⊢
  dsimp only
  split
  · cases beyond o (rd u 0x20018).toNat <;> exact (ite_enterLocked_counter _ _).trans hslewed
  · exact (ite_enterLocked_counter _ _).trans hslewed
  · exact hslewed

/-! #### While the step is not armed -/

theorem measure_counter_of_not_armed (o : Int) {s : State} (harmed : stepArmed s = false) :
    (measure o s).time.counter = s.time.counter := by
  rcases measure_of_not_armed o harmed with h | h
  · rw [h, refuseOffset_counter, setOffset_time]
  · rw [h, acceptOffset_counter, setOffset_time]

/-- The servo reaches registers, time state, the fault unit, the free values and the messages of events. -/
theorem measure_does_of_not_armed (o : Int) {s : State} (harmed : stepArmed s = false) :
    Does [.regs, .time, .funcs, .fault, .free, .out] s (measure o s) := by
  rcases measure_of_not_armed o harmed with h | h
  · rw [h]; exact refuseOffset_does ((setOffset_same o s).mono rfl) rfl
  · rw [h]; exact acceptOffset_does ((setOffset_same o s).mono rfl) rfl

/-- Settles O20: a measurement is refused or accepted, and each is read off its own marks. -/
theorem servoSlewsOrRefuses : Obligations.ServoSlewsOrRefuses := by
  refine ⟨?never, ?refused, ?within⟩
  case never =>
    intro o s hen harmed
    refine ⟨_, exec_followUpReceive o hen, ?_⟩
    rw [← stepArmed_slaveFrame] at harmed
    rw [← slaveFrame_time s, ← slaveFrame_clk s, ← slaveFrame_mem s, ← slaveFrame_tiles s]
    cases o with
    | none => exact ⟨rfl, rfl, rfl, rfl⟩
    | some o =>
      have hdoes := measure_does_of_not_armed o harmed
      exact ⟨measure_counter_of_not_armed o harmed, hdoes.same .clk (by decide), hdoes.same .mem (by decide),
        hdoes.same .tiles (by decide)⟩
  case refused =>
    intro o s hen harmed hlocked hbeyond
    refine ⟨_, exec_followUpReceive (some o) hen, ?_⟩
    rw [← stepArmed_slaveFrame] at harmed
    rw [← timeLocked_slaveFrame] at hlocked
    rw [← rd_slaveFrame s (by decide)] at hbeyond
    have hcounter := measure_counter_of_not_armed o harmed
    have hrun : measureSome (some o) (slaveFrame s) = refuseOffset (setOffset o (slaveFrame s)) :=
      measure_of_refused harmed hlocked hbeyond
    obtain ⟨hrefused, hcount, hevent, hstate⟩ := refuseOffset_shows (setOffset o (slaveFrame s))
    rw [timeState_setOffset, timeState_slaveFrame] at hstate
    rw [setOffset_regsBut o _ _ (by decide), rd_slaveFrame s (by decide)] at hcount
    rw [hrun]
    refine ⟨hrefused, hcount, hevent, hstate, ?_⟩
    rw [← hrun, ← slaveFrame_time s]
    exact hcounter
  case within =>
    intro o s hen harmed hlocked hwithin hstate
    refine ⟨_, exec_followUpReceive (some o) hen, ?_⟩
    rw [← stepArmed_slaveFrame] at harmed
    rw [← rd_slaveFrame s (by decide)] at hwithin
    have hstate' : timeState (setOffset o (slaveFrame s)) = 3 := by rw [timeState_setOffset, timeState_slaveFrame, hstate]
    have hrun : measureSome (some o) (slaveFrame s) = slewed (setOffset o (slaveFrame s)) := by
      rw [← acceptOffset_of_locked o hstate']
      exact measure_of_accepted harmed (by rw [hwithin, Bool.and_false])
    have hcount : rd (slewed (setOffset o (slaveFrame s))) 0x20048 = rd s 0x20048 := by
      rw [slewed_regsBut _ _ (by decide), setOffset_regsBut o _ _ (by decide), rd_slaveFrame s (by decide)]
    obtain ⟨hlow, hhigh⟩ : incInBounds (slewed (setOffset o (slaveFrame s))) := incInBounds_freeInc _
    rw [hrun]
    refine ⟨rdb_slewed_refused _, hcount, (timeState_slewed _).trans hstate', hlow, hhigh, ?_⟩
    rw [slewed_counter, setOffset_time, slaveFrame_time]

/-! #### The single step (02 R40) -/

/-- Units at which a counter stands once it has moved by `delta`. -/
def steppedUnits (delta : Int) (c : Counter) : Nat := (((counterUnits c : Int) + delta) % (wrapUnits : Int)).toNat

theorem steppedUnits_lt (delta : Int) (c : Counter) : steppedUnits delta c < wrapUnits := by
  have hpos : (0 : Int) < (wrapUnits : Int) := by decide
  have hlo := Int.emod_nonneg ((counterUnits c : Int) + delta) (ne_of_gt hpos)
  have hhi := Int.emod_lt_of_pos ((counterUnits c : Int) + delta) hpos
  unfold steppedUnits
  omega

/-- The state whose counter has moved. -/
def stepMoved (delta : Int) (s : State) : State :=
  { learnNow s with time := { (learnNow s).time with
      counter := counterAt (steppedUnits delta s.time.counter), inWindow := 0, accepted := 0, arming := .ptp, ppsSec := none } }

/-- The state once the movement is counted and shown. -/
def stepLogged (delta : Int) (s : State) : State :=
  let c := counterAt (steppedUnits delta s.time.counter)
  let d := BitVec.ofInt 64 (roundDiv delta unitsNs)
  wrMany 0x20050 [c.sec.setWidth 32, c.ns, d.setWidth 32, d.extractLsb' 32 32] (bump 0x20044 1 (stepMoved delta s))

/-- The state once the step is no longer armed and its event is raised. -/
def stepShown (delta : Int) (s : State) : State :=
  raise timeEvent 4 (wrf timeStatus 6 6 0 (wrf timeStatus 4 4 0 (stepLogged delta s)))

/-- The state after the step, before the chains of a running grid are judged. -/
def stepTaken (delta : Int) (s : State) : State :=
  if timeLocked (stepShown delta s) then
    (if timeState (stepShown delta s) = 3 then stepShown delta s else enterLocked (stepShown delta s))
  else wrf timeStatus 2 0 2 (stepShown delta s)

theorem applyStep_eq (delta : Int) (s : State) : applyStep delta s =
    sceneStart (counterUnits s.time.counter) (steppedUnits delta s.time.counter) (stepTaken delta s) := rfl

theorem stepShown_regsBut (delta : Int) (s : State) : regsBut [timeStatus, timeEvent] (stepLogged delta s) (stepShown delta s) := by
  refine regsBut.trans (t := wrf timeStatus 6 6 0 (wrf timeStatus 4 4 0 (stepLogged delta s))) ?_ (raise_regsBut timeEvent 4 _) (by decide)
  exact ((wrf_regsBut timeStatus 4 4 0 _).trans (wrf_regsBut timeStatus 6 6 0 _) (by decide)).mono (by decide)

theorem stepTaken_regsBut (delta : Int) (s : State) : regsBut [timeStatus, timeEvent] (stepLogged delta s) (stepTaken delta s) := by
  refine (stepShown_regsBut delta s).trans (m := [timeStatus, timeEvent]) ?_ (List.Subset.refl _)
  unfold stepTaken
  split
  · split
    · exact regsBut.refl _ _
    · exact enterLocked_regsBut _
  · exact (wrf_regsBut timeStatus 2 0 2 _).mono (by decide)

theorem stepArmed_stepShown (delta : Int) (s : State) : stepArmed (stepShown delta s) = false := by
  rw [stepArmed, stepShown, (raise_regsBut timeEvent 4 _).rdb_eq (by decide), rdb_wrf _ _ _ _ _ _ _ (by decide) (by decide),
    if_pos (by decide)]
  rfl

theorem stepArmed_stepTaken (delta : Int) (s : State) : stepArmed (stepTaken delta s) = false := by
  unfold stepTaken
  split
  · split
    · exact stepArmed_stepShown delta s
    · rw [stepArmed_enterLocked, stepArmed_stepShown]
  · rw [stepArmed, rdb_wrf _ _ _ _ _ _ _ (by decide) (by decide), if_neg (by decide)]
    exact stepArmed_stepShown delta s

/-- An event that stood before the step still stands. -/
theorem rdb_stepTaken_event {delta : Int} {s : State} {b : Nat} (h : rdb s timeEvent b = true) :
    rdb (stepTaken delta s) timeEvent b = true := by
  have hlogged : rdb (stepLogged delta s) timeEvent b = true := by
    unfold stepLogged
    simp only [wrMany, rdb_wr, bump_eq]
    exact ((regsBut.of_regs_eq (learnNow_regs s) []).rdb_eq (by decide) b).trans h
  have hshown : rdb (stepShown delta s) timeEvent b = true := by
    refine rdb_raise_of_set ?_
    rw [(wrf_regsBut timeStatus 6 6 0 _).rdb_eq (by decide), (wrf_regsBut timeStatus 4 4 0 _).rdb_eq (by decide), hlogged]
  unfold stepTaken
  split
  · split
    · exact hshown
    · refine rdb_raise_of_set (s := { wrf timeStatus 5 5 0 (wrf timeStatus 3 3 1 (wrf timeStatus 2 0 3 (stepShown delta s))) with
        time := _ }) ?_
      rw [← hshown]
      exact (((wrf_regsBut timeStatus 2 0 3 _).trans (wrf_regsBut timeStatus 3 3 1 _) (by decide)).trans
        (wrf_regsBut timeStatus 5 5 0 _) (by decide)).rdb_eq (by decide) b
  · rw [(wrf_regsBut timeStatus 2 0 2 _).rdb_eq (by decide), hshown]

theorem stepShown_time (delta : Int) (s : State) : (stepShown delta s).time = (stepMoved delta s).time := by
  rw [stepShown, raise_time]; rfl

theorem stepMoved_time (delta : Int) (s : State) : (stepMoved delta s).time = { s.time with
      counter := counterAt (steppedUnits delta s.time.counter), inWindow := 0, accepted := 0, arming := .ptp, ppsSec := none,
      learn := (learnNow s).time.learn, learnFrom := (learnNow s).time.learnFrom } := by
  rw [stepMoved, learnNow_time]

/-- A step that finds the time locked starts no grid. -/
theorem stepTaken_time (delta : Int) (s : State) :
    (stepTaken delta s).time = { (stepMoved delta s).time with learnFrom := (stepTaken delta s).time.learnFrom } := by
  unfold stepTaken
  split
  · next hlocked =>
    split
    · rw [stepShown_time]
    · rw [enterLocked_time, stepShown_time, if_pos hlocked]; rfl
  · rw [wrf_eq, wr_time, stepShown_time]

theorem stepShown_same (delta : Int) (s : State) : Does [.regs, .time, .funcs, .out] s (stepShown delta s) := by
  have hmoved : Does [.regs, .time, .funcs, .out] s (stepMoved delta s) :=
    (learnNow_does (Does.refl _ s) rfl).congr rfl rfl rfl rfl rfl fun f hf => by
      cases f <;> first | exact absurd (by decide) hf | rfl
  unfold stepShown stepLogged
  exact raise_does (wrf_does (wrf_does (wrMany_does (bump_does hmoved rfl) rfl) rfl) rfl) rfl

theorem stepTaken_same (delta : Int) (s : State) : Does [.regs, .time, .funcs, .out] s (stepTaken delta s) := by
  unfold stepTaken
  split
  · split
    · exact stepShown_same delta s
    · exact enterLocked_does (stepShown_same delta s) rfl
  · exact wrf_does (stepShown_same delta s) rfl

theorem sceneStart_of_not_running (t0 t1 : Nat) {s : State} (hrun : s.time.running = 0) : sceneStart t0 t1 s = s := by
  rw [sceneStart, if_pos hrun]

theorem applyStep_of_not_running (delta : Int) {s : State} (hrun : s.time.running = 0) : applyStep delta s = stepTaken delta s := by
  rw [applyStep_eq, sceneStart_of_not_running]
  rw [stepTaken_time, stepMoved_time, hrun]

/-- What a step by `delta` with no grid running leaves (02 R38, R40). -/
structure StepDone (delta : Int) (s t : State) : Prop where
  counter : t.time.counter = counterAt (steppedUnits delta s.time.counter)
  lag1 : t.time.lag1 = s.time.lag1
  lagMain : t.time.lagMain = s.time.lagMain
  armed : stepArmed t = false
  count : (rd t 0x20044).toNat = min (2 ^ 32 - 1) ((rd s 0x20044).toNat + 1)
  deltaLow : rd t 0x20058 = (BitVec.ofInt 64 (roundDiv delta unitsNs)).setWidth 32
  deltaHigh : rd t 0x2005C = (BitVec.ofInt 64 (roundDiv delta unitsNs)).extractLsb' 32 32
  mem : t.mem = s.mem
  tiles : t.tiles = s.tiles

theorem stepDone_applyStep (delta : Int) {s : State} (hrun : s.time.running = 0) : StepDone delta s (applyStep delta s) := by
  rw [applyStep_of_not_running delta hrun]
  have htime := stepTaken_time delta s
  rw [stepMoved_time] at htime
  refine ⟨by rw [htime], by rw [htime], by rw [htime], stepArmed_stepTaken delta s, ?_, ?_, ?_,
    (stepTaken_same delta s).same .mem (by decide), (stepTaken_same delta s).same .tiles (by decide)⟩
  · rw [stepTaken_regsBut delta s _ (by decide), stepLogged]
    simp only [wrMany, rd_wr, Nat.reduceEqDiff, Nat.reduceAdd, if_false]
    rw [rd_bump_toNat]
    exact congrArg (fun w : Word => min (2 ^ 32 - 1) (w.toNat + 1)) (rd_learnNow s 0x20044)
  · rw [stepTaken_regsBut delta s _ (by decide), stepLogged]
    simp [wrMany, rd_wr]
  · rw [stepTaken_regsBut delta s _ (by decide), stepLogged]
    simp [wrMany]

/-- Operations before the step that leave the counter and STEP_COUNT do not matter to it. -/
theorem StepDone.of_before {delta : Int} {s s' t : State} (h : StepDone delta s' t)
    (htime : s'.time = { s.time with lastSync := s'.time.lastSync, srcLost := s'.time.srcLost }) (hcount : rd s' 0x20044 = rd s 0x20044)
    (hmem : s'.mem = s.mem) (htiles : s'.tiles = s.tiles) : StepDone delta s t where
  counter := by rw [h.counter, htime]
  lag1 := by rw [h.lag1, htime]
  lagMain := by rw [h.lagMain, htime]
  armed := h.armed
  count := by rw [h.count, hcount]
  deltaLow := h.deltaLow
  deltaHigh := h.deltaHigh
  mem := by rw [h.mem, hmem]
  tiles := by rw [h.tiles, htiles]

theorem stepDone_measure (o : Int) {s : State} (harmed : stepArmed s = true) (hptp : s.time.arming = .ptp)
    (hrun : s.time.running = 0) : StepDone (-(o * 1024)) s (measure o s) := by
  rw [measure_of_armed o harmed hptp]
  refine (stepDone_applyStep _ (by rw [setOffset_time, hrun])).of_before ?_ ?_ ?_ ?_
  · rw [setOffset_time]
  · exact setOffset_regsBut o s _ (by decide)
  · exact (setOffset_same o s).same .mem (by decide)
  · exact (setOffset_same o s).same .tiles (by decide)

theorem StepDone.counterUnits_eq {o : Int} {s t : State} (h : StepDone (-(o * 1024)) s t) :
    counterUnits t.time.counter = (((counterUnits s.time.counter : Int) - o * 1024) % (wrapUnits : Int)).toNat := by
  rw [h.counter, counterUnits_counterAt, Nat.mod_eq_of_lt (steppedUnits_lt _ _), steppedUnits, ← Int.sub_eq_add_neg]

/-- The step that a message completes at the slave port. -/
theorem stepDone_slaveFrame (o : Int) {s : State} (harmed : stepArmed s = true) (hptp : s.time.arming = .ptp)
    (hrun : s.time.running = 0) : StepDone (-(o * 1024)) s (measure o (slaveFrame s)) := by
  refine (stepDone_measure o (s := slaveFrame s) ?_ ?_ ?_).of_before ?_ ?_ (slaveFrame_mem s) (slaveFrame_tiles s)
  · rw [stepArmed_slaveFrame, harmed]
  · rw [slaveFrame_time, hptp]
  · rw [slaveFrame_time, hrun]
  · rw [slaveFrame_time]
  · exact rd_slaveFrame s (by decide)

theorem syncSeen_slaveFrame_time (s : State) : (syncSeen (slaveFrame s)).time =
    { s.time with lastSync := s.clk, srcLost := (syncSeen (slaveFrame s)).time.srcLost } := by
  rw [syncSeen_time, slaveFrame_time, slaveFrame_clk]

theorem rd_syncSeen_slaveFrame (s : State) {o : Nat} (ho : o < 0xD0000) : rd (syncSeen (slaveFrame s)) o = rd s o := by
  rw [regsBut.of_regs_eq (syncSeen_regs _) [] o List.not_mem_nil, rd_slaveFrame s ho]

theorem stepArmed_syncSeen_slaveFrame (s : State) : stepArmed (syncSeen (slaveFrame s)) = stepArmed s := by
  unfold stepArmed rdb; rw [rd_syncSeen_slaveFrame s (by decide)]

/-- The step that a one-step Sync completes. -/
theorem stepDone_syncSeen (o : Int) {s : State} (harmed : stepArmed s = true) (hptp : s.time.arming = .ptp)
    (hrun : s.time.running = 0) : StepDone (-(o * 1024)) s (measure o (syncSeen (slaveFrame s))) := by
  have htime := syncSeen_slaveFrame_time s
  refine (stepDone_measure o (s := syncSeen (slaveFrame s)) ?_ ?_ ?_).of_before ?_ ?_ ?_ ?_
  · rw [stepArmed_syncSeen_slaveFrame, harmed]
  · rw [htime, hptp]
  · rw [htime, hrun]
  · rw [htime]
  · exact rd_syncSeen_slaveFrame s (by decide)
  · rw [syncSeen_mem, slaveFrame_mem]
  · rw [syncSeen_tiles, slaveFrame_tiles]

theorem measure_lastSync_of_armed (o : Int) {s : State} (harmed : stepArmed s = true) (hptp : s.time.arming = .ptp)
    (hrun : s.time.running = 0) : (measure o s).time.lastSync = s.time.lastSync := by
  rw [measure_of_armed o harmed hptp, applyStep_of_not_running _ (by rw [setOffset_time, hrun]), stepTaken_time, stepMoved_time,
    setOffset_time]

/-- A Sync that completes a step counts as heard. -/
theorem lastSync_syncSeen (o : Int) {s : State} (harmed : stepArmed s = true) (hptp : s.time.arming = .ptp)
    (hrun : s.time.running = 0) : (measure o (syncSeen (slaveFrame s))).time.lastSync = s.clk := by
  have htime := syncSeen_slaveFrame_time s
  rw [measure_lastSync_of_armed o (by rw [stepArmed_syncSeen_slaveFrame, harmed]) (by rw [htime, hptp]) (by rw [htime, hrun]), htime]

theorem exec_of_slave_port_off {c : Instr} {two : Bool} {o : Option Offset} {a : Announce} {s : State} (hoff : slaveEn s = false)
    (hc : c = .syncMessageReceive two o ∨ c = .followUpReceive o ∨ c = .delayRespReceive o ∨ c = .announceReceive a ∨
      c = .delayReqSend) : exec c s = .next s := by
  have hne : ¬ slaveEn s = true := by rw [hoff]; decide
  rcases hc with rfl | rfl | rfl | rfl | rfl
  · change execSyncMessageReceive two o s = _
    rw [execSyncMessageReceive, if_neg hne]
  · change execFollowUpReceive o s = _
    rw [execFollowUpReceive, if_neg hne]
  · change execDelayRespReceive o s = _
    rw [execDelayRespReceive, if_neg hne]
  · change execAnnounceReceive a s = _
    rw [execAnnounceReceive, if_neg hne]
  · change execDelayReqSend s = _
    rw [execDelayReqSend, if_neg hne]

/-- Settles O19: each message that completes a measurement takes the step. -/
theorem armedStepMovesCounter : Obligations.ArmedStepMovesCounter := by
  refine ⟨?followUp, ?delayResp, ?oneStep, ?twoStep, ?off⟩
  case followUp =>
    intro o s hen harmed hptp hrun
    have hstep := stepDone_slaveFrame o harmed hptp hrun
    exact ⟨_, exec_followUpReceive (some o) hen, hstep.counterUnits_eq, hstep.lag1, hstep.lagMain, hstep.armed, hstep.count,
      hstep.deltaLow, hstep.deltaHigh, hstep.mem, hstep.tiles⟩
  case delayResp =>
    intro o s hen harmed hptp hrun
    have hstep := stepDone_slaveFrame o harmed hptp hrun
    exact ⟨_, exec_delayRespReceive (some o) hen, hstep.counterUnits_eq, hstep.lag1, hstep.lagMain, hstep.armed, hstep.count,
      hstep.mem, hstep.tiles⟩
  case oneStep =>
    intro o s hen harmed hptp hrun
    have hstep := stepDone_syncSeen o harmed hptp hrun
    exact ⟨_, exec_syncMessageReceive false (some o) hen, hstep.counterUnits_eq, hstep.lag1, hstep.lagMain, hstep.armed,
      lastSync_syncSeen o harmed hptp hrun, hstep.count, hstep.mem, hstep.tiles⟩
  case twoStep => exact fun o s hen => exec_syncMessageReceive true o hen
  case off => exact fun c two o a s hoff hc => exec_of_slave_port_off hoff hc

end Sys2Proof.Machine
end

/-! ### Loss of source, the holdover limit, the end of a scene change and the fabric root (02 R43, R46; 13 R383) -/

section
namespace Sys2Proof.Machine

/-! #### The clock runs -/

theorem advance_regs (n : Nat) (s : State) : (advance n s).regs = s.regs := by unfold advance; split <;> rfl

theorem advance_clk (n : Nat) (s : State) : (advance n s).clk = s.clk + n := by
  unfold advance
  split
  · next h => rw [h, Nat.add_zero]
  · rfl

/-- Of the time state only the counter moves. -/
theorem advance_time (n : Nat) (s : State) :
    (advance n s).time = { s.time with counter := (advance n s).time.counter } := by unfold advance; split <;> rfl

/-- Only the clock and the counter move. -/
theorem advance_eq_atClock (n : Nat) (s : State) : advance n s = atClock (advance n s).clk (advance n s).time.counter s := by
  unfold advance; split <;> rfl

theorem runToClk_clk (u : Nat) (s : State) : (runToClk u s).clk = max s.clk u := by
  rw [runToClk, advance_clk]
  omega

theorem runToClk_regsBut (u : Nat) (s : State) (l : List Nat) : regsBut l s (runToClk u s) := regsBut.of_regs_eq (advance_regs _ s) l

theorem runToTime_regsBut (u : Nat) (s : State) (l : List Nat) : regsBut l s (runToTime u s) :=
  regsBut.of_regs_eq (advance_regs _ s) l

theorem timeState_runToClk (u : Nat) (s : State) : timeState (runToClk u s) = timeState s :=
  (runToClk_regsBut u s []).rdf_eq (by decide) 2 0

/-! #### The source is lost -/

/-- The state once the loss is noted, its event raised and the fault unit told. -/
def lossMarked (s : State) : State :=
  report ⟨.time, true, 2, 0, .none⟩ (raise timeEvent 8 { s with time := { s.time with srcLost := true } })

theorem lossMarked_time (s : State) : (lossMarked s).time = { s.time with srcLost := true } := by
  rw [lossMarked, report_time, raise_time]

theorem lossMarked_regsBut (s : State) : regsBut [timeEvent] s (lossMarked s) := raise_regsBut timeEvent 8 { s with time := _ }

theorem timeState_lossMarked (s : State) : timeState (lossMarked s) = timeState s :=
  (lossMarked_regsBut s).rdf_eq (by decide) 2 0

theorem rdb_lossMarked_event (s : State) : rdb (lossMarked s) timeEvent 8 = true := rdb_raise timeEvent 8 _ (by decide)

theorem timeFollow_lossMarked (s : State) : timeFollow (lossMarked s) = timeFollow s :=
  (lossMarked_regsBut s).rdb_eq (by decide) 0

theorem loseSource_of_locked {s : State} (hfollow : timeFollow s = false) (hstate : timeState s = 3) :
    loseSource s = enterHoldover (lossMarked s) := by
  rw [← timeFollow_lossMarked] at hfollow
  rw [← timeState_lossMarked] at hstate
  unfold lossMarked at hfollow hstate ⊢
  simp only [loseSource, hfollow, hstate, Bool.false_eq_true, if_false]

theorem loseSource_of_acquiring {s : State} (hfollow : timeFollow s = false) (hstate : timeState s = 2) :
    loseSource s = { lossMarked s with time := { (lossMarked s).time with inWindow := 0 } } := by
  rw [← timeFollow_lossMarked] at hfollow
  rw [← timeState_lossMarked] at hstate
  unfold lossMarked at hfollow hstate ⊢
  simp only [loseSource, hfollow, hstate, Bool.false_eq_true, if_false]

theorem loseSource_of_other {s : State} (hfollow : timeFollow s = false) (hlocked : timeState s ≠ 3) (hacq : timeState s ≠ 2) :
    loseSource s = lossMarked s := by
  rw [← timeFollow_lossMarked] at hfollow
  rw [← timeState_lossMarked] at hlocked hacq
  unfold lossMarked at hfollow hlocked hacq ⊢
  simp only [loseSource, hfollow, Bool.false_eq_true, if_false]

theorem exec_sourceLost {u : Nat} {s : State} (hdue : lossDue s = some u) :
    exec .sourceLost s = .next (loseSource (runToClk u s)) := by
  change execSourceLost s = _
  rw [execSourceLost, hdue]

/-! #### The other commands -/

theorem exec_holdoverExpired {s : State} (hstate : timeState s = 4) (hexp : holdoverExpired s = false) :
    exec .holdoverExpired s = .next (raise timeEvent 3 (wrf timeStatus 5 5 1
      (runToClk (s.time.holdSince + (rd s 0x2001C).toNat * ticksS) s))) := by
  change execHoldoverExpired s = _
  rw [execHoldoverExpired, if_pos ⟨hstate, hexp⟩]

theorem exec_sceneEnd {s : State} (hscene : sceneActive s = true) :
    exec .sceneEnd s = .next (raise timeEvent 6 (wrf timeStatus 8 8 0 (dropResume
      (runToTime ((s.time.tResume.map Prod.snd).foldl max 0) s)))) := by
  change execSceneEnd s = _
  rw [execSceneEnd, if_pos hscene]

theorem exec_fabricRootLock {u : Nat} {s : State} (hroot : s.splice.rootFrom = some u) :
    exec .fabricRootLock s = .next (lockRoot (rootStepped (runToClk (u + 16 * ticksMs) s))) := by
  change execFabricRootLock s = _
  rw [execFabricRootLock, hroot]

theorem cueSuppressed_of_not_active {s : State} (h : sceneActive s = false) (g u : Nat) : cueSuppressed s g u = false := by
  rw [cueSuppressed, h, Bool.false_and]

/-- A bit of TIME.STATUS set or cleared, and an event raised: no other register changes. -/
theorem statusEvent_regsBut (hi lo v b : Nat) {s t : State} (h : regsBut [timeStatus, timeEvent] s t) :
    regsBut [timeStatus, timeEvent] s (raise timeEvent b (wrf timeStatus hi lo v t)) :=
  (h.trans (wrf_regsBut timeStatus hi lo v t) (by decide)).trans (raise_regsBut timeEvent b _) (by decide)

theorem rdb_statusEvent (hi lo v b c : Nat) (s : State) :
    rdb (raise timeEvent b (wrf timeStatus hi lo v s)) timeStatus c = rdb (wrf timeStatus hi lo v s) timeStatus c :=
  (raise_regsBut timeEvent b _).rdb_eq (by decide) c

theorem dropResume_tResume (s : State) : (dropResume s).time.tResume = [] := rfl
theorem dropResume_regsBut (l : List Nat) (s : State) : regsBut l s (dropResume s) := regsBut.of_regs_eq rfl l

theorem rootStepped_clk (s : State) : (rootStepped s).clk = s.clk := rfl
theorem timeState_rootStepped (s : State) : timeState (rootStepped s) = timeState s := rfl
theorem enterLocked_clk (s : State) : (enterLocked s).clk = s.clk := by unfold enterLocked; rw [raise_clk]; rfl
theorem enterLocked_rootStepped_rootFrom (s : State) : (enterLocked (rootStepped s)).splice.rootFrom = none := by
  unfold enterLocked; rw [raise_splice]; rfl

theorem lossMarked_clk (s : State) : (lossMarked s).clk = s.clk := by rw [lossMarked, report_clk, raise_clk]

theorem enterHoldover_clk (s : State) : (enterHoldover s).clk = s.clk :=
  (enterHoldover_does (fs₀ := [.regs, .time, .funcs, .free, .out]) (Does.refl _ s) rfl).same .clk (by decide)

/-! #### The statement -/

/-- What the loss of a source of this chip's own leaves. -/
theorem loseSource_shows {s : State} (hfollow : timeFollow s = false) :
    (loseSource s).time.srcLost = true ∧ rdb (loseSource s) timeEvent 8 = true ∧ (loseSource s).clk = s.clk ∧
      (timeState s = 3 → timeState (loseSource s) = 4) ∧
      (timeState s ≠ 3 → timeState (loseSource s) = timeState s ∧
        (loseSource s).time.inWindow = if timeState s = 2 then 0 else s.time.inWindow) := by
  by_cases hlocked : timeState s = 3
  · rw [loseSource_of_locked hfollow hlocked]
    refine ⟨?_, rdb_enterHoldover_event (rdb_lossMarked_event s), ?_, fun _ => timeState_enterHoldover _, absurd hlocked⟩
    · rw [enterHoldover_time, lossMarked_time]
    · rw [enterHoldover_clk, lossMarked_clk]
  · by_cases hacq : timeState s = 2
    · rw [loseSource_of_acquiring hfollow hacq]
      exact ⟨by rw [lossMarked_time], rdb_lossMarked_event s, lossMarked_clk s, fun h => absurd h hlocked,
        fun _ => ⟨timeState_lossMarked s, by rw [if_pos hacq]⟩⟩
    · rw [loseSource_of_other hfollow hlocked hacq]
      exact ⟨by rw [lossMarked_time], rdb_lossMarked_event s, lossMarked_clk s, fun h => absurd h hlocked,
        fun _ => ⟨timeState_lossMarked s, by rw [lossMarked_time, if_neg hacq]⟩⟩

/-- Settles O22, a clause for each command. -/
theorem holdoverAndSceneEnds : Obligations.HoldoverAndSceneEnds := by
  refine ⟨?loss, ?expired, ?scene, ?root⟩
  case loss =>
    intro u s hdue hfollow
    have hrun := exec_sourceLost hdue
    have hsame := execSourceLost_does (fs₀ := [.regs, .clk, .time, .funcs, .splice, .fault, .free, .out]) (Does.refl _ s) hrun rfl
    have hfollow' : timeFollow (runToClk u s) = false := ((runToClk_regsBut u s []).rdb_eq (by decide) 0).trans hfollow
    have hwin : (runToClk u s).time.inWindow = s.time.inWindow := by rw [runToClk, advance_time]
    obtain ⟨hlost, hevent, hclk, hlocked, hother⟩ := loseSource_shows hfollow'
    rw [timeState_runToClk] at hlocked hother
    rw [hwin] at hother
    rw [runToClk_clk] at hclk
    exact ⟨_, hrun, hlost, hevent, hclk, hlocked, hother, hsame.same .mem (by decide), hsame.same .tiles (by decide)⟩
  case expired =>
    intro s hstate hexp
    have hrun := exec_holdoverExpired hstate hexp
    have hsame := execHoldoverExpired_does (fs₀ := [.regs, .clk, .time, .funcs, .out]) (Does.refl _ s) hrun rfl
    refine ⟨_, hrun, ?_, ?_, rdb_raise _ _ _ (by decide), ?_, ?_, hsame.same .mem (by decide), hsame.same .tiles (by decide)⟩
    · rw [holdoverExpired, rdb_statusEvent, rdb_wrf _ _ _ _ _ _ _ (by decide) (by decide), if_pos (by decide)]; rfl
    · rw [timeState, (raise_regsBut timeEvent 3 _).rdf_eq (by decide),
        rdf_wrf_disjoint _ _ _ (by decide) (by decide) (by decide) (by decide)]
      exact (timeState_runToClk _ s).trans hstate
    · rw [raise_clk, wrf_clk, runToClk_clk]
    · exact statusEvent_regsBut 5 5 1 3 (runToClk_regsBut _ s _)
  case scene =>
    intro s hscene
    have hrun := exec_sceneEnd hscene
    have hsame := execSceneEnd_does (fs₀ := [.regs, .clk, .time, .funcs, .out]) (Does.refl _ s) hrun rfl
    have hoff : sceneActive (raise timeEvent 6 (wrf timeStatus 8 8 0 (dropResume
        (runToTime ((s.time.tResume.map Prod.snd).foldl max 0) s)))) = false := by
      rw [sceneActive, rdb_statusEvent, rdb_wrf _ _ _ _ _ _ _ (by decide) (by decide), if_pos (by decide)]; rfl
    refine ⟨_, hrun, hoff, rdb_raise _ _ _ (by decide), ?_, cueSuppressed_of_not_active hoff, ?_, hsame.same .mem (by decide),
      hsame.same .tiles (by decide)⟩
    · rw [raise_time, wrf_time, dropResume_tResume]
    · exact statusEvent_regsBut 8 8 0 6 ((runToTime_regsBut _ s _).trans (dropResume_regsBut _ _) (List.Subset.refl _))
  case root =>
    intro u s hroot hstate
    have hrun := exec_fabricRootLock hroot
    have hacq : timeState (rootStepped (runToClk (u + 16 * ticksMs) s)) = 2 := by
      rw [timeState_rootStepped, timeState_runToClk, hstate]
    rw [lockRoot, if_pos hacq] at hrun
    have hsame := execFabricRootLock_does (fs₀ := [.regs, .clk, .time, .funcs, .splice, .out]) (Does.refl _ s) hrun rfl
    refine ⟨_, hrun, timeState_enterLocked _, timeLocked_enterLocked _, rdb_enterLocked_event_zero _,
      enterLocked_rootStepped_rootFrom _, ?_, hsame.same .mem (by decide), hsame.same .tiles (by decide)⟩
    rw [enterLocked_clk, rootStepped_clk, runToClk_clk]

end Sys2Proof.Machine
end

/-! ### PTP messages (02 R56–R63) -/

section
namespace Sys2Proof.Machine

theorem masterSend_of_master {p msg : Nat} {s : State} (hmaster : fhMaster s p = true) (hstate : 2 ≤ timeState s) :
    masterSend p msg s = sendPtp (8 + p) msg (ptpPeer s p) (ptpDomain s p) s := by
  rw [masterSend, if_pos (by rw [hmaster, decide_eq_true hstate]; rfl)]

/-- Nothing leaves a port that is no master, and none while the state is INVALID or COARSE. -/
theorem masterSend_of_silent {p : Nat} (msg : Nat) {s : State} (h : fhMaster s p = false ∨ timeState s < 2) :
    masterSend p msg s = s := by
  rw [masterSend, if_neg]
  rcases h with hmaster | hstate
  · simp [hmaster]
  · simp [Nat.not_le.2 hstate]

/-- The state once a frame has counted at fronthaul port `p` (08 R232). -/
abbrev frameAt (p : Nat) (s : State) : State := bump (fhReg p 0x20) 1 s

/-- Such a frame leaves PORT_CFG and every register below the fronthaul block. -/
theorem rd_frameAt (p : Nat) (s : State) {o : Nat} (ho : o < 0xD0000 ∨ o = 0xD0100 + 0x40 * p) : rd (frameAt p s) o = rd s o :=
  bump_regsBut _ 1 s o (by simp only [fhReg, List.mem_singleton]; omega)

theorem timeSrc_frameAt (p : Nat) (s : State) : timeSrc (frameAt p s) = timeSrc s := by
  unfold timeSrc rdf; rw [rd_frameAt p s (.inl (by decide))]
theorem timePort_frameAt (p : Nat) (s : State) : timePort (frameAt p s) = timePort s := by
  unfold timePort rdf; rw [rd_frameAt p s (.inl (by decide))]
theorem timeState_frameAt (p : Nat) (s : State) : timeState (frameAt p s) = timeState s := by
  unfold timeState rdf; rw [rd_frameAt p s (.inl (by decide))]
theorem rd_frameAt_ptpCfg (p : Fin 8) (s : State) : rd (frameAt p s) (0x20100 + 4 * p) = rd s (0x20100 + 4 * p) :=
  rd_frameAt p s (.inl (by omega))
theorem ptpPeer_frameAt (p : Fin 8) (s : State) : ptpPeer (frameAt p s) p = ptpPeer s p := by
  unfold ptpPeer rdb; rw [rd_frameAt_ptpCfg]
theorem ptpDomain_frameAt (p : Fin 8) (s : State) : ptpDomain (frameAt p s) p = ptpDomain s p := by
  unfold ptpDomain rdf; rw [rd_frameAt_ptpCfg]
theorem fhMaster_frameAt (p : Fin 8) (s : State) : fhMaster (frameAt p s) p = fhMaster s p := by
  unfold fhMaster rdb
  rw [rd_frameAt_ptpCfg, rd_frameAt p s (.inr rfl), timeSrc_frameAt, timePort_frameAt]

theorem fhPortEn_of_fhMaster {s : State} {p : Nat} (h : fhMaster s p = true) : fhPortEn s p = true := by
  simp only [fhMaster, Bool.and_eq_true] at h
  exact h.1.1

theorem not_slave_of_fhMaster {s : State} {p : Nat} (h : fhMaster s p = true) : ¬ (timeSrc s = 2 ∧ timePort s = p) := by
  simp only [fhMaster, Bool.and_eq_true, Bool.not_eq_true', Bool.and_eq_false_iff, decide_eq_false_iff_not] at h
  rintro ⟨hsrc, hport⟩
  exact h.2.elim (fun h => h hsrc) (fun h => h hport)

theorem exec_delayReqReceive {p : Fin 8} {s : State} (hen : fhPortEn s p = true) :
    exec (.delayReqReceive p) s = .next (ptpAtPort p .delayReq (frameAt p s)) := by
  change execDelayReqReceive p s = _
  rw [execDelayReqReceive, if_pos hen]

theorem ptpAtPort_delayReq_of_master {p : Nat} {s : State} (h : fhMaster s p = true) :
    ptpAtPort p .delayReq s = masterSend p 9 s := by
  simp only [ptpAtPort, if_neg (not_slave_of_fhMaster h), h, if_true]

theorem ptpAtPort_delayReq_of_not_master {p : Nat} {s : State} (h : (timeSrc s = 2 ∧ timePort s = p) ∨ fhMaster s p = false) :
    ptpAtPort p .delayReq s = ptpDiscard (8 + p) s := by
  unfold ptpAtPort
  split
  · rfl
  · next hslave => simp only [h.resolve_left hslave, Bool.false_eq_true, if_false]

theorem exec_ptpSyncSend (p : Fin 8) (s : State) : exec (.ptpSyncSend p) s = .next (masterSend p 0 s) := rfl

theorem exec_ptpAnnounceSend (p : Fin 8) (s : State) : exec (.ptpAnnounceSend p) s = .next (masterSend p 11 s) := rfl

theorem exec_delayReqSend {s : State} (hen : slaveEn s = true) :
    exec .delayReqSend s = .next (if timeSrc s = 1 then
        useFree (sendPtp (slavePort s) 1 ((freshVal s).getLsbD 8) ((freshVal s).setWidth 8) s)
      else sendPtp (slavePort s) 1 (ptpPeer s (timePort s)) (ptpDomain s (timePort s)) s) := by
  change execDelayReqSend s = _
  rw [execDelayReqSend, if_pos hen]

theorem exec_announceReceive (a : Announce) {s : State} (hen : slaveEn s = true) :
    exec (.announceReceive a) s = .next (takeAnnounce a (slaveFrame s)) := by
  change execAnnounceReceive a s = _
  rw [execAnnounceReceive, if_pos hen]

/-- The instant at the calibration point, as an integer. -/
theorem calibrated_eq (s : State) (k msg : Nat) : (calibrated s k msg : Int) = (1000 * (stampUnits s k : Int) +
    (if msg = 9 then -(rxDelay s k : Int) else txDelay s k) * unitsNs) % (1000 * wrapUnits : Nat) := by
  have hpos : ((1000 * wrapUnits : Nat) : Int) ≠ 0 := by decide
  rw [calibrated, Int.toNat_of_nonneg (Int.emod_nonneg _ hpos)]

theorem sourceBack_eq_update (s : State) : ∃ b, sourceBack s = { s with time := { s.time with srcLost := b } } := by
  unfold sourceBack
  split
  · exact ⟨false, rfl⟩
  · exact ⟨s.time.srcLost, rfl⟩

/-- An Announce is heard, and the best master's becomes the parent's. -/
theorem takeAnnounce_time (a : Announce) (s : State) : (takeAnnounce a s).time = { s.time with
      lastAnnounce := s.clk, srcLost := (takeAnnounce a s).time.srcLost,
      parentClass := if a.best then a.clockClass else s.time.parentClass,
      parentUtc := if a.best then some a.utcOffset else s.time.parentUtc } := by
  obtain ⟨b, hb⟩ := sourceBack_eq_update { s with time := { s.time with lastAnnounce := s.clk } }
  rw [takeAnnounce, hb]
  cases a.best <;> rfl

theorem takeAnnounce_eq_update (a : Announce) (s : State) : takeAnnounce a s = { s with time := (takeAnnounce a s).time } := by
  obtain ⟨b, hb⟩ := sourceBack_eq_update { s with time := { s.time with lastAnnounce := s.clk } }
  rw [takeAnnounce, hb]
  cases a.best <;> rfl

/-- Settles O21, a clause for each message. -/
theorem ptpMessages : Obligations.PtpMessages := by
  refine ⟨?send, ?silent, ?answer, ?discard, ?off, ?stamp, ?fronthaul, ?line, ?announce⟩
  case send =>
    intro p s hmaster hstate
    rw [exec_ptpSyncSend, exec_ptpAnnounceSend, masterSend_of_master hmaster hstate, masterSend_of_master hmaster hstate]
    exact ⟨rfl, rfl⟩
  case silent =>
    intro p s h
    rw [exec_ptpSyncSend, exec_ptpAnnounceSend, masterSend_of_silent 0 h, masterSend_of_silent 11 h]
    exact ⟨rfl, rfl⟩
  case answer =>
    intro p s hmaster hstate
    have hmaster' : fhMaster (frameAt p s) p = true := by rw [fhMaster_frameAt, hmaster]
    have hstate' : 2 ≤ timeState (frameAt p s) := by rwa [timeState_frameAt]
    rw [exec_delayReqReceive (fhPortEn_of_fhMaster hmaster), ptpAtPort_delayReq_of_master hmaster',
      masterSend_of_master hmaster' hstate', ptpPeer_frameAt, ptpDomain_frameAt]
  case discard =>
    intro p s hen h
    have h' : (timeSrc (frameAt p s) = 2 ∧ timePort (frameAt p s) = p) ∨ fhMaster (frameAt p s) p = false := by
      rwa [timeSrc_frameAt, timePort_frameAt, fhMaster_frameAt]
    rw [exec_delayReqReceive hen, ptpAtPort_delayReq_of_not_master h', ptpDiscard]
  case off =>
    intro p s hoff
    change execDelayReqReceive p s = _
    rw [execDelayReqReceive, if_neg (by rw [hoff]; decide)]
  case stamp => exact fun k msg peer dom s => ⟨rfl, calibrated_eq s k msg⟩
  case fronthaul =>
    intro s hen hsrc
    rw [exec_delayReqSend hen, if_neg (by rw [hsrc]; decide)]
  case line =>
    intro s hen hsrc
    have hrun := exec_delayReqSend hen
    rw [if_pos hsrc] at hrun
    exact ⟨_, hrun, _, _, rfl⟩
  case announce =>
    intro a s hen
    have htime := takeAnnounce_time a (slaveFrame s)
    rw [slaveFrame_time, slaveFrame_clk] at htime
    refine ⟨_, exec_announceReceive a hen, ?_, ?_, ?_, takeAnnounce_eq_update a (slaveFrame s)⟩
    · rw [htime]
    · intro hbest
      rw [htime, if_pos hbest, if_pos hbest]
      exact ⟨rfl, rfl⟩
    · intro hbest
      rw [htime, hbest]
      exact ⟨rfl, rfl⟩

end Sys2Proof.Machine
end

/-! ### 1PPS, the real-time clock and the holdover references (02 R44, R64–R67; 16 R465, R466) -/

section
namespace Sys2Proof.Machine

/-! #### An edge of PPS_IN -/

/-- The state once the edge is stamped, with its event raised. -/
def ppsStamped (s : State) : State :=
  raise timeEvent 7 (wrMany 0x200E4 [s.time.counter.sec.setWidth 32, s.time.counter.ns, s.time.counter.frac]
    { s with time := { s.time with lastPps := s.clk, srcLost := s.time.srcLost && decide (timeSrc s ≠ 3) } })

/-- The registers of the stamp, and TIME.EVENT. -/
abbrev ppsRegs : List Nat := [0x200E4, 0x200E8, 0x200EC, timeEvent]

theorem ppsStamped_regsBut (s : State) : regsBut ppsRegs s (ppsStamped s) := by
  refine regsBut.trans (t := wrMany 0x200E4 [_, _, _] { s with time := _ }) ?_ (raise_regsBut timeEvent 7 _) (by decide)
  refine regsBut.trans (t := { s with time := _ }) (regsBut.of_regs_eq rfl ppsRegs) (m := ppsRegs) ?_ (List.Subset.refl _)
  exact ((((wr_regsBut 0x200E4 _ _).mono (by decide)).trans (wr_regsBut 0x200E8 _ _) (by decide)).trans
    (wr_regsBut 0x200EC _ _) (by decide))

theorem ppsStamped_time (s : State) :
    (ppsStamped s).time = { s.time with lastPps := s.clk, srcLost := s.time.srcLost && decide (timeSrc s ≠ 3) } := by
  rw [ppsStamped, raise_time]; rfl

theorem ppsStamped_mem (s : State) : (ppsStamped s).mem = s.mem := by rw [ppsStamped, raise_mem]; rfl
theorem ppsStamped_tiles (s : State) : (ppsStamped s).tiles = s.tiles := by rw [ppsStamped, raise_tiles]; rfl

/-- The three registers show the counter at the edge. -/
theorem rd_ppsStamped (s : State) : rd (ppsStamped s) 0x200E4 = s.time.counter.sec.setWidth 32 ∧
    rd (ppsStamped s) 0x200E8 = s.time.counter.ns ∧ rd (ppsStamped s) 0x200EC = s.time.counter.frac := by
  refine ⟨?sec, ?ns, ?frac⟩ <;> rw [ppsStamped, raise_regsBut timeEvent 7 _ _ (by decide)] <;> simp [wrMany, rd_wr]

theorem stepArmed_ppsStamped (s : State) : stepArmed (ppsStamped s) = stepArmed s := (ppsStamped_regsBut s).rdb_eq (by decide) 6
theorem timeSrc_ppsStamped (s : State) : timeSrc (ppsStamped s) = timeSrc s := (ppsStamped_regsBut s).rdf_eq (by decide) 1 0

theorem exec_ppsInEdge_of_not_armed {s : State} (hin : rdb s 0x200E0 1 = true) (harmed : stepArmed s = false) (hsrc : timeSrc s ≠ 3) :
    exec .ppsInEdge s = .next (ppsStamped s) := by
  have harmed' : stepArmed (ppsStamped s) = false := by rw [stepArmed_ppsStamped, harmed]
  have hsrc' : timeSrc (ppsStamped s) ≠ 3 := by rwa [timeSrc_ppsStamped]
  change execPpsInEdge s = _
  unfold ppsStamped at harmed' hsrc' ⊢
  simp only [execPpsInEdge, hin, if_true, harmed', if_neg hsrc']

theorem exec_ppsInEdge_of_armed {sec : BitVec 48} {s : State} (hin : rdb s 0x200E0 1 = true) (harmed : stepArmed s = true)
    (hsec : s.time.ppsSec = some sec) :
    exec .ppsInEdge s = .next (applyStep (stepToSec s.time.counter sec) (ppsStamped s)) := by
  have harmed' : stepArmed (ppsStamped s) = true := by rw [stepArmed_ppsStamped, harmed]
  have hsec' : (ppsStamped s).time.ppsSec = some sec := by rw [ppsStamped_time, hsec]
  change execPpsInEdge s = _
  unfold ppsStamped at harmed' hsec' ⊢
  simp only [execPpsInEdge, hin, if_true, harmed', hsec']

/-- The step that the edge takes ends at the second supplied, its sub-fraction kept. -/
theorem steppedUnits_stepToSec (c : Counter) (sec : BitVec 48) :
    steppedUnits (stepToSec c sec) c = sec.toNat * unitsS + c.sub.toNat := by
  have hsec := sec.isLt
  have hsub := c.sub.isLt
  have hlt : sec.toNat * unitsS + c.sub.toNat < wrapUnits := by rw [unitsS_eq, wrapUnits_eq]; omega
  have hsum : (counterUnits c : Int) + stepToSec c sec = ((sec.toNat * unitsS + c.sub.toNat : Nat) : Int) := by
    unfold stepToSec
    dsimp only
    omega
  rw [steppedUnits, hsum, ← Int.natCast_mod, Int.toNat_natCast, Nat.mod_eq_of_lt hlt]

theorem counterAt_second (sec : BitVec 48) {sub : Nat} (hsub : sub < 1024) :
    (counterAt (sec.toNat * unitsS + sub)).sec = sec ∧ (counterAt (sec.toNat * unitsS + sub)).ns = 0 ∧
      (counterAt (sec.toNat * unitsS + sub)).frac = 0 := by
  have hsec := sec.isLt
  simp only [counterAt, unitsNs_eq, unitsS_eq]
  refine ⟨?sec, ?ns, ?frac⟩ <;> apply BitVec.eq_of_toNat_eq <;>
    simp only [BitVec.ofNat_eq_ofNat, BitVec.toNat_ofNat] <;> omega

/-! #### A pulse, and the real-time clock -/

/-- Units at which PPS_OUT rises: the next whole second, less the compensation (02 R64). -/
def ppsDue (s : State) : Nat :=
  let comp := rdf s 0x200E0 31 16 * 2 ^ 42 / 1000
  ((counterUnits s.time.counter + comp) / unitsS + 1) * unitsS - comp

theorem exec_ppsOutPulse {s : State} (hout : rdb s 0x200E0 0 = true) (hlocked : timeLocked s = true) :
    exec .ppsOutPulse s = .next (pulsePps (rdf s 0x200E0 15 8 + 1) (runToDie (ppsDue s) s)) := by
  change execPpsOutPulse s = _
  rw [execPpsOutPulse, if_pos (by rw [hout, hlocked]; rfl), ppsDue]

theorem pulsePps_clk (us : Nat) (s : State) : (pulsePps us s).clk = s.clk := rfl
theorem pulsePps_time (us : Nat) (s : State) : (pulsePps us s).time = s.time := rfl

theorem pulsePps_atClock (us k : Nat) (c : Counter) (s : State) : pulsePps us (atClock k c s) =
    { s with clk := k, time := { s.time with counter := c }, board := { s.board with ppsUntil := k + us * ticksUs },
             out := s.out ++ [.pulse pinPps us] } := rfl

/-- The real-time clock stands at `r`, its crystal oscillating. -/
def rtcTaken (r : Nat) (s : State) : State :=
  { s with hold := { s.hold with rtc := r, rtcAt := s.clk, xtal := true, rtcCoarse := false } }

theorem exec_rtcRewrite {s : State} (hlocked : timeLocked s = true) (hxtal : s.hold.xtal = true) :
    exec .rtcRewrite s = .next (wrf timeStatus 7 7 0 (rtcTaken (counterUnits s.time.counter * 32768 / unitsS) s)) := by
  change execRtcRewrite s = _
  simp only [execRtcRewrite, hlocked, hxtal, if_true, Bool.true_or, Bool.not_true, Bool.and_false, rtcTaken]

theorem wrf_rtcTaken_rtc (r : Nat) (s : State) : (wrf timeStatus 7 7 0 (rtcTaken r s)).hold.rtc = r := rfl

theorem wrf_rtcTaken_eq_update (r : Nat) (s : State) : wrf timeStatus 7 7 0 (rtcTaken r s) =
    { s with hold := (wrf timeStatus 7 7 0 (rtcTaken r s)).hold, regs := (wrf timeStatus 7 7 0 (rtcTaken r s)).regs } := rfl

theorem wrf_rtcTaken_regsBut (r : Nat) (s : State) : regsBut [timeStatus] s (wrf timeStatus 7 7 0 (rtcTaken r s)) :=
  (regsBut.of_regs_eq (t := rtcTaken r s) rfl [timeStatus]).trans (wrf_regsBut timeStatus 7 7 0 _) (List.Subset.refl _)

theorem exec_xtalStop (s : State) :
    exec .xtalStop s = .next (wrf timeStatus 7 7 1 { s with hold := { s.hold with xtal := false, rtcCoarse := true } }) := rfl

/-! #### The holdover references -/

/-- The validity bits once an interval of `n` cycles of a reference has been judged. -/
def judgedValid (ref : Fin 2) (n : Nat) (s : State) : BitVec 2 :=
  if refGood s ref n then s.time.refValid ||| BitVec.ofNat 2 (2 ^ ref.val) else s.time.refValid &&& ~~~ BitVec.ofNat 2 (2 ^ ref.val)

/-- The state that holds them. -/
def refJudged (ref : Fin 2) (n : Nat) (s : State) : State := { s with time := { s.time with refValid := judgedValid ref n s } }

theorem getLsbD_refValid_judged (ref : Fin 2) (n : Nat) (s : State) :
    (refJudged ref n s).time.refValid.getLsbD ref = refGood s ref n := by
  have hbit : (BitVec.ofNat 2 (2 ^ ref.val)).getLsbD ref.val = true := by fin_cases ref <;> rfl
  have hlt : ref.val < 2 := ref.isLt
  unfold refJudged judgedValid
  dsimp only
  cases refGood s ref n with
  | false => rw [if_neg (by decide), BitVec.getLsbD_and, BitVec.getLsbD_not, hbit, Bool.not_true, Bool.and_false, Bool.and_false]
  | true => rw [if_pos rfl, BitVec.getLsbD_or, hbit, Bool.or_true]

theorem refJudged_regsBut (l : List Nat) (ref : Fin 2) (n : Nat) (s : State) : regsBut l s (refJudged ref n s) :=
  regsBut.of_regs_eq rfl l

theorem timeState_refJudged (ref : Fin 2) (n : Nat) (s : State) : timeState (refJudged ref n s) = timeState s := rfl

/-- A reference that is not the one selected is not in use. -/
theorem hoRefUsed_ne {ref : Fin 2} {s : State} (h : hoRef s ≠ ref.val + 1) : hoRefUsed s ≠ ref.val + 1 := by
  unfold hoRefUsed
  split
  · exact h
  · omega

theorem hoRefUsed_of_valid {ref : Fin 2} {s : State} (h : hoRef s = ref.val + 1) (hvalid : s.time.refValid.getLsbD ref = true) :
    hoRefUsed s = ref.val + 1 := by
  unfold hoRefUsed
  rw [h, if_pos ⟨Nat.succ_ne_zero _, by rwa [Nat.add_sub_cancel]⟩]

theorem hoRefUsed_refJudged {ref : Fin 2} {n : Nat} {s : State} (h : hoRef s = ref.val + 1) (hgood : refGood s ref n = true) :
    hoRefUsed (refJudged ref n s) = ref.val + 1 :=
  hoRefUsed_of_valid h ((getLsbD_refValid_judged ref n s).trans hgood)

theorem hoRefUsed_followRef (n : Nat) (s : State) : hoRefUsed (followRef n s) = hoRefUsed s := by
  unfold hoRefUsed hoRef rdf
  rw [followRef_time, followRef_regsBut n s _ (by decide)]

theorem learnRefNow_of_not_locked {n : Nat} {s : State} (h : timeState s ≠ 3) : learnRefNow n s = s := by
  rw [learnRefNow, if_neg h]

/-- The state whose references have learnt one interval more. -/
def refLearnt (n : Nat) (s : State) : State :=
  { s with time := { s.time with learnRef := ((incUnits s, n) :: s.time.learnRef).take 1000 } }

theorem learnRefNow_of_locked {n : Nat} {s : State} (h : timeState s = 3) : learnRefNow n s = refLearnt n s := by
  rw [learnRefNow, if_pos h, refLearnt]

theorem incUnits_refJudged (ref : Fin 2) (n : Nat) (s : State) : incUnits (refJudged ref n s) = incUnits s := rfl

theorem exec_hoRefInterval_of_other {ref : Fin 2} (n : Nat) {s : State} (h : hoRef s ≠ ref.val + 1) :
    exec (.hoRefInterval ref n) s = .next (refJudged ref n s) := by
  have hused : hoRefUsed (refJudged ref n s) ≠ ref.val + 1 := hoRefUsed_ne h
  change execHoRefInterval ref n s = _
  unfold refJudged judgedValid at hused ⊢
  simp only [execHoRefInterval, if_neg hused, h, false_and, if_false]

theorem exec_hoRefInterval_of_holdover {ref : Fin 2} {n : Nat} {s : State} (h : hoRef s = ref.val + 1) (hstate : timeState s = 4)
    (hgood : refGood s ref n = true) : exec (.hoRefInterval ref n) s = .next (followRef n (refJudged ref n s)) := by
  have hused := hoRefUsed_refJudged h hgood
  have hne : timeState (refJudged ref n s) ≠ 3 := by rw [timeState_refJudged, hstate]; decide
  have hlearn : learnNow (refJudged ref n s) = refJudged ref n s := learnNow_of_not_locked hne
  have hlearnRef : learnRefNow n (refJudged ref n s) = refJudged ref n s := learnRefNow_of_not_locked hne
  have hzero : ¬ ref.val + 1 = 0 := Nat.succ_ne_zero _
  change execHoRefInterval ref n s = _
  unfold refJudged judgedValid at hused hlearn hlearnRef ⊢
  simp only [execHoRefInterval, hused, if_true, hlearnRef, h, hstate, true_or, and_self, ne_eq, hzero, not_false_eq_true, hlearn]

theorem exec_hoRefInterval_of_locked {ref : Fin 2} {n : Nat} {s : State} (h : hoRef s = ref.val + 1) (hstate : timeState s = 3)
    (hslave : ptpSlave s = true) (hgood : refGood s ref n = true) :
    exec (.hoRefInterval ref n) s = .next (refLearnt n (refJudged ref n s)) := by
  have hused := hoRefUsed_refJudged h hgood
  have hlearnRef : learnRefNow n (refJudged ref n s) = refLearnt n (refJudged ref n s) :=
    learnRefNow_of_locked ((timeState_refJudged ref n s).trans hstate)
  have hsrc : timeSrc s ≠ 0 := by
    intro hzero
    rw [ptpSlave, hzero] at hslave
    exact absurd hslave (by decide)
  have hnot : ¬ (hoRef s = ref.val + 1 ∧ (timeState s = 4 ∨ timeSrc s = 0 ∧ timeFollow s = false)) := by
    rw [hstate]
    rintro ⟨-, h4 | ⟨h0, -⟩⟩
    · exact absurd h4 (by decide)
    · exact hsrc h0
  change execHoRefInterval ref n s = _
  unfold refJudged judgedValid at hused hlearnRef ⊢
  simp only [execHoRefInterval, hused, if_true, hlearnRef, if_neg hnot]

/-! #### The statement -/

/-- Settles O23, a clause for each command and each state that it finds. -/
theorem ppsClockAndReferences : Obligations.PpsClockAndReferences := by
  refine ⟨?edge, ?armedEdge, ?pulse, ?rewrite, ?stop, ?other, ?holdover, ?locked⟩
  case edge =>
    intro s hin harmed hsrc
    obtain ⟨hsec, hns, hfrac⟩ := rd_ppsStamped s
    exact ⟨_, exec_ppsInEdge_of_not_armed hin harmed hsrc, hsec, hns, hfrac, rdb_raise _ _ _ (by decide), by rw [ppsStamped_time],
      by rw [ppsStamped_time], ppsStamped_regsBut s, ppsStamped_mem s, ppsStamped_tiles s⟩
  case armedEdge =>
    intro sec s hin harmed hsec hrun
    have hrun' : (ppsStamped s).time.running = 0 := by rw [ppsStamped_time, hrun]
    have hstep := stepDone_applyStep (stepToSec s.time.counter sec) hrun'
    have hevent : rdb (applyStep (stepToSec s.time.counter sec) (ppsStamped s)) timeEvent 7 = true := by
      rw [applyStep_of_not_running _ hrun']
      exact rdb_stepTaken_event (rdb_raise _ _ _ (by decide))
    have hcounter := hstep.counter
    rw [ppsStamped_time, steppedUnits_stepToSec] at hcounter
    obtain ⟨h1, h2, h3⟩ := counterAt_second sec s.time.counter.sub.isLt
    refine ⟨_, exec_ppsInEdge_of_armed hin harmed hsec, ?_, ?_, ?_, hstep.armed, hevent, hstep.mem.trans (ppsStamped_mem s),
      hstep.tiles.trans (ppsStamped_tiles s)⟩
    · rw [hcounter, h1]
    · rw [hcounter, h2]
    · rw [hcounter, h3]
  case pulse =>
    intro s hout hlocked
    refine ⟨_, exec_ppsOutPulse hout hlocked, ?_⟩
    dsimp only
    rw [runToDie, advance_eq_atClock, pulsePps_clk, pulsePps_time, atClock_clk, atClock_counter]
    exact pulsePps_atClock _ _ _ s
  case rewrite =>
    intro s hlocked hxtal
    have hstatus : rdb (wrf timeStatus 7 7 0 (rtcTaken (counterUnits s.time.counter * 32768 / unitsS) s)) timeStatus 7 = false := by
      rw [rdb_wrf _ _ _ _ _ _ _ (by decide) (by decide), if_pos (by decide)]; rfl
    exact ⟨_, exec_rtcRewrite hlocked hxtal, wrf_rtcTaken_rtc _ s, rfl, rfl, hstatus, wrf_rtcTaken_eq_update _ s,
      wrf_rtcTaken_regsBut _ s⟩
  case stop =>
    intro s
    refine ⟨_, exec_xtalStop s, ?_, rfl, rfl, rfl,
      (regsBut.of_regs_eq rfl [timeStatus]).trans (wrf_regsBut timeStatus 7 7 1 _) (List.Subset.refl _)⟩
    rw [rdb_wrf _ _ _ _ _ _ _ (by decide) (by decide), if_pos (by decide)]; rfl
  case other =>
    intro ref n s h
    exact ⟨_, exec_hoRefInterval_of_other n h, getLsbD_refValid_judged ref n s, rfl⟩
  case holdover =>
    intro ref n s h hstate hgood
    have hsame := followRef_does (fs₀ := [.regs, .free]) (cycles := n) (Does.refl _ (refJudged ref n s)) rfl
    obtain ⟨hlow, hhigh⟩ := incInBounds_followRef n (refJudged ref n s)
    refine ⟨_, exec_hoRefInterval_of_holdover h hstate hgood, ?_, ?_, ?_, hlow, hhigh, ?_,
      (refJudged_regsBut incRegs ref n s).trans (followRef_regsBut n _) (List.Subset.refl _), hsame.same .mem (by decide),
      hsame.same .tiles (by decide)⟩
    · rw [followRef_time, getLsbD_refValid_judged, hgood]
    · rw [hoRefUsed_followRef, hoRefUsed_refJudged h hgood]
    · rw [followRef_time, refJudged]
    · rw [followRef_time, refJudged]
  case locked =>
    intro ref n s h hstate hslave hgood
    refine ⟨_, exec_hoRefInterval_of_locked h hstate hslave hgood, ?_, rfl⟩
    rw [refLearnt, incUnits_refJudged, refJudged]

end Sys2Proof.Machine
end

/-! ### Maintenance descriptors (02 R44; 06 R186; 15 R439, R440)

A final record touches the registers of its pair and the counters of records alone, and takes its descriptor out of flight. -/

section
namespace Sys2Proof.Machine

/-! #### The final record -/

theorem writeRec_regsBut (p : Nat) (r : Rec) (s : State) : regsBut [pairReg p 0x28] s (writeRec p r s) := by
  intro o ho
  have hsignal : ∀ u : State, rd (maybeSignal p u) o = rd u o := fun u =>
    regsBut.of_regs_eq ((maybeSignal_does (fs₀ := [.pairs, .funcs, .out]) (Does.refl _ u) rfl).same .regs (by decide)) [] o
      List.not_mem_nil
  unfold writeRec
  dsimp only
  rw [hsignal, rd_setPair, rd_wr_other _ _ (by simpa using ho), rd_issueOrHold]

theorem issueData_regsBut (l : List Nat) (p : Nat) (data : List (Dword × List Byte)) (s : State) :
    regsBut l s (issueData p data s) :=
  regsBut.of_regs_eq ((issueData_does (fs₀ := [.funcs, .out]) (Does.refl _ s) rfl).same .regs (by decide)) l

theorem putRec_regsBut (p : Nat) (r : Rec) (s : State) : regsBut [pairReg p 0x28, pairReg p 0x38] s (putRec p r s) := by
  unfold putRec
  split
  · exact (bump_regsBut _ 1 s).mono (by simp)
  · exact (writeRec_regsBut p r s).mono (by simp)

theorem putBatch_regsBut (p : Nat) (b : Batch) (s : State) : regsBut [pairReg p 0x28, pairReg p 0x38] s (putBatch p b s) := by
  unfold putBatch
  split
  · split
    · exact (issueData_regsBut _ p b.data s).trans (putRec_regsBut p _ _) (List.Subset.refl _)
    · exact issueData_regsBut _ p b.data s
  · exact regsBut.of_regs_eq (setPair_regs ..) _

/-- Records are counted in DISP_COUNT and SAG_SHED. -/
theorem rd_countRec (r : Rec) (s : State) {o : Nat} (ho : o < 0x30000 ∨ 0x31000 ≤ o) : rd (countRec r s) o = rd s o := by
  have hdisp : rd (if r.cls < 6 ∧ r.disp < 11 then bump (0x30500 + 0x40 * r.cls + 4 * r.disp) 1 s else s) o = rd s o := by
    split
    · exact bump_regsBut _ 1 s o (by simp only [List.mem_singleton]; omega)
    · rfl
  unfold countRec
  dsimp only
  split
  · rw [bump_regsBut _ 1 _ o (by simp only [List.mem_singleton]; omega), hdisp]
  · exact hdisp

/-- The final record leaves every register but those of its pair and the counters of records. -/
theorem rd_finish (r : DRef) (status disp : Nat) (result : Dword) (progress : Nat) (faultRef : Word)
    (data : List (Dword × List Byte)) (s : State) {o : Nat} (hpair : 0x15000 ≤ o) (hcount : o < 0x30000 ∨ 0x31000 ≤ o) :
    rd (finish r status disp result progress faultRef data s) o = rd s o := by
  have hp : r.pair.val < 256 := r.pair.isLt
  unfold finish
  split
  · rfl
  · dsimp only
    rw [putBatch_regsBut _ _ _ o (by simp only [pairReg, List.mem_cons, List.not_mem_nil, or_false]; omega), rd_countRec _ _ hcount]
    rfl

theorem flightOf_finish (r : DRef) (status disp : Nat) (result : Dword) (progress : Nat) (faultRef : Word)
    (data : List (Dword × List Byte)) (s : State) : flightOf (finish r status disp result progress faultRef data s) r = none := by
  unfold finish
  split
  · next h => exact h
  · dsimp only
    unfold flightOf
    rw [(putBatch_does (fs₀ := [.regs, .pairs, .funcs, .out]) (Does.refl _ _) rfl).same .flights (by decide)]
    rw [(countRec_does (fs₀ := [.regs]) (Does.refl _ _) rfl).same .flights (by decide)]
    simp

/-- What a final record leaves of the rest of the state. -/
theorem finish_same (r : DRef) (status disp : Nat) (result : Dword) (progress : Nat) (faultRef : Word)
    (data : List (Dword × List Byte)) (s : State) :
    Does [.regs, .pairs, .funcs, .flights, .fault, .out] s (finish r status disp result progress faultRef data s) :=
  finish_does (Does.refl _ s) rfl

/-- A ready descriptor goes on to its opcode's row. -/
theorem runDesc_of_ready {r : DRef} {d : BitVec 512} {op : Nat} {o : OpRules} {s : State} (h : Ready s r d op o)
    (go : BitVec 512 → State → State) : runDesc r op (fun _ _ => o) go s = go d s := by
  obtain ⟨hflight, hop, hturn, hcheck, hfence⟩ := h
  simp [runDesc, hflight, hop, hturn, hcheck, hfence]

/-! #### TIME_REARM -/

/-- The state with the step armed. -/
def rearmed (a : Arming) (sec : Option (BitVec 48)) (s : State) : State :=
  wrf timeStatus 6 6 1 { s with time := { s.time with arming := a, ppsSec := sec } }

theorem rearm_of_not_armed (pps : Bool) (sec : BitVec 48) {s : State} (harmed : stepArmed s = false) :
    rearm pps sec s = rearmed (if pps then .pps else .ptp) (if pps then some sec else none) s := by
  rw [rearm, if_neg (by rw [harmed]; decide), rearmed]

theorem timeRearmGo_ptp (r : DRef) {d : BitVec 512} {s : State} (hmode : dOpw d 0 = 0) (hzero : dBits d 352 160 = 0)
    (hsrc : timeSrc s ≠ 0) (hsrc3 : timeSrc s ≠ 3) (harmed : stepArmed s = false) :
    timeRearmGo r d s = finish r (okStatus false false (rearmed .ptp none s)) 0 0 0 0 [] (rearmed .ptp none s) := by
  simp [timeRearmGo, hmode, hzero, hsrc, hsrc3, rearm_of_not_armed _ _ harmed]

theorem timeRearmGo_pps (r : DRef) {d : BitVec 512} {s : State} (hmode : dOpw d 0 = 1) (hzero : dBits d 352 160 = 0)
    (hhigh : field (dOpw d 2) 31 16 = 0) (hin : rdb s 0x200E0 1 = true) (harmed : stepArmed s = false) :
    timeRearmGo r d s =
      let t := rearmed .pps (some (BitVec.ofNat 48 ((dOpw d 1).toNat + 2 ^ 32 * (dOpw d 2).toNat))) s
      finish r (okStatus false false t) 0 0 0 0 [] t := by
  simp [timeRearmGo, hmode, hzero, hhigh, hin, rearm_of_not_armed _ _ harmed]

theorem exec_timeRearm {r : DRef} {d : BitVec 512} {s : State} (h : Ready s r d 0x54 {}) :
    exec (.timeRearm r) s = .next (timeRearmGo r d s) := by
  change execTimeRearm r s = _
  rw [execTimeRearm, runDesc_of_ready h]

theorem stepArmed_rearmed (a : Arming) (sec : Option (BitVec 48)) (s : State) : stepArmed (rearmed a sec s) = true := by
  rw [stepArmed, rearmed, rdb_wrf _ _ _ _ _ _ _ (by decide) (by decide), if_pos (by decide)]; rfl

/-- The step stays armed past the final record. -/
theorem rearmed_finish (r : DRef) (status : Nat) (a : Arming) (sec : Option (BitVec 48)) (s : State) :
    let t := finish r status 0 0 0 0 [] (rearmed a sec s)
    stepArmed t = true ∧ t.time.arming = a ∧ t.time.ppsSec = sec ∧ flightOf t r = none ∧ t.mem = s.mem ∧ t.tiles = s.tiles := by
  have hsame := finish_same r status 0 0 0 0 [] (rearmed a sec s)
  have htime : (finish r status 0 0 0 0 [] (rearmed a sec s)).time = (rearmed a sec s).time := hsame.same .time (by decide)
  refine ⟨?_, ?_, ?_, flightOf_finish .., hsame.same .mem (by decide), hsame.same .tiles (by decide)⟩
  · rw [stepArmed, rdb, rd_finish _ _ _ _ _ _ _ _ (by decide) (by decide)]
    exact stepArmed_rearmed a sec s
  · rw [htime]; rfl
  · rw [htime]; rfl

/-! #### ACCEPT_PAIR -/

theorem exec_acceptPair {r : DRef} {d : BitVec 512} {s : State} (h : Ready s r d 0x55 {}) :
    exec (.acceptPair r) s = .next (acceptPairGo r d s) := by
  change execAcceptPair r s = _
  rw [execAcceptPair, runDesc_of_ready h]

/-- The boot state RUN under an untested pair, its event raised. -/
def bootAccepted (s : State) : State := raise mgmtEvent 0 (wrf bootStatus 2 2 1 (wrf bootStatus 1 0 2 s))

theorem acceptPairGo_boot (r : DRef) {d : BitVec 512} {s : State} (hscope : dOpw d 0 = 0) (hzero : dBits d 384 128 = 0)
    (hmfw : dOpw d 1 = rd s 0xE0010) (hdmc : dOpw d 2 = rd s 0xE0014) (hchip : dOpw d 3 = Config.chipId) (hhold : inHold s = true)
    (hbits : rdf s bootStatus 11 8 ≠ 0) (hrun : rdb s bootStatus 12 = false) :
    acceptPairGo r d s = finish r 0x02 0 0 0 0 [] (bootAccepted s) := by
  simp [acceptPairGo, acceptBoot, bootAccepted, hscope, hzero, hmfw, hdmc, hchip, hhold, hbits, hrun]

theorem rd_bootAccepted_status (s : State) :
    rd (bootAccepted s) bootStatus = rd (wrf bootStatus 2 2 1 (wrf bootStatus 1 0 2 s)) bootStatus :=
  raise_regsBut mgmtEvent 0 _ _ (by decide)

theorem rdf_bootAccepted_state (s : State) : rdf (bootAccepted s) bootStatus 1 0 = 2 := by
  rw [rdf, rd_bootAccepted_status]
  change rdf (wrf _ _ _ _ _) _ _ _ = 2
  rw [rdf_wrf_disjoint _ _ _ (by decide) (by decide) (by decide) (by decide), rdf_wrf_same _ _ _ _ _ (by decide) (by decide)]
  rfl

theorem untested_bootAccepted (s : State) : untested (bootAccepted s) = true := by
  rw [untested, rdb, rd_bootAccepted_status]
  change rdb (wrf _ _ _ _ _) _ _ = true
  rw [rdb_wrf _ _ _ _ _ _ _ (by decide) (by decide), if_pos (by decide)]
  rfl

theorem bootAccepted_mem (s : State) : (bootAccepted s).mem = s.mem := by rw [bootAccepted, raise_mem]; rfl
theorem bootAccepted_tiles (s : State) : (bootAccepted s).tiles = s.tiles := by rw [bootAccepted, raise_tiles]; rfl

/-- A load pair held beside those accepted, with UNTESTED set. -/
def loadAccepted (tool abi : Word) (s : State) : State :=
  wrf bootStatus 2 2 1 (wrMany (0xE0040 + 8 * s.mgmt.accepted.length) [tool, abi]
    { s with mgmt := { s.mgmt with accepted := s.mgmt.accepted ++ [(tool, abi)] } })

theorem acceptPairGo_load (r : DRef) {d : BitVec 512} {s : State} (hscope : dOpw d 0 = 1) (hzero : dBits d 384 128 = 0)
    (hchip : dOpw d 3 = 0) (htool : toolOk s (dOpw d 1) = false) (habi : dOpw d 2 = 0 ∨ abiRuns s (dOpw d 2) = true)
    (hroom : s.mgmt.accepted.length < 8) :
    acceptPairGo r d s = finish r 0x02 0 0 0 0 [] (loadAccepted (dOpw d 1) (dOpw d 2) s) := by
  have habi' : ¬ (dOpw d 2 ≠ 0 ∧ abiRuns s (dOpw d 2) = false) := by
    rintro ⟨hne, hruns⟩
    rcases habi with h | h
    · exact hne h
    · rw [h] at hruns; exact absurd hruns (by decide)
  have hload : acceptLoad r d s = finish r 0x02 0 0 0 0 [] (loadAccepted (dOpw d 1) (dOpw d 2) s) := by
    simp only [acceptLoad, htool, Bool.false_eq_true, false_and, if_false, if_neg habi', if_neg (Nat.not_le.2 hroom), loadAccepted]
  simp [acceptPairGo, hscope, hzero, hchip, hload]

theorem untested_loadAccepted (tool abi : Word) (s : State) : untested (loadAccepted tool abi s) = true := by
  rw [untested, loadAccepted, rdb_wrf _ _ _ _ _ _ _ (by decide) (by decide), if_pos (by decide)]; rfl

/-- The pair stands in the registers of its place. -/
theorem rd_loadAccepted (tool abi : Word) {s : State} :
    rd (loadAccepted tool abi s) (0xE0040 + 8 * s.mgmt.accepted.length) = tool ∧
      rd (loadAccepted tool abi s) (0xE0044 + 8 * s.mgmt.accepted.length) = abi := by
  have hout : ∀ o, 0xE0040 ≤ o → o ∉ [bootStatus] := fun o ho => by simp only [bootStatus, List.mem_singleton]; omega
  constructor
  · rw [loadAccepted, wrf_regsBut _ _ _ _ _ _ (hout _ (by omega)), wrMany, wrMany, wrMany, rd_wr_other _ _ (by omega), rd_wr_same]
  · rw [loadAccepted, wrf_regsBut _ _ _ _ _ _ (hout _ (by omega)), wrMany, wrMany, wrMany,
      show 0xE0044 + 8 * s.mgmt.accepted.length = 0xE0040 + 8 * s.mgmt.accepted.length + 4 by omega, rd_wr_same]

/-! #### UNLOAD -/

theorem exec_unload {r : DRef} {d : BitVec 512} {s : State} (h : Ready s r d 0x53 {}) :
    exec (.unload r) s = .next (unloadGo r d s) := by
  change execUnload r s = _
  rw [execUnload, runDesc_of_ready h]

/-- The images named are releasing, and the models without work are freed. -/
def unloaded (model : Bool) (id : Nat) (s : State) : State :=
  reapModels (setLoads (unloadIs model id) .releasing s).loaded (setLoads (unloadIs model id) .releasing s)

theorem unloadGo_of_loaded (r : DRef) {d : BitVec 512} {s : State} (hid : field (dOpw d 0) 31 16 = 0) (hkind : (dOpw d 1).toNat ≤ 1)
    (hzero : dBits d 320 192 = 0) (hany : s.loaded.any (unloadIs ((dOpw d 1).getLsbD 0) (field (dOpw d 0) 15 0)) = true) :
    unloadGo r d s =
      let u := unloaded ((dOpw d 1).getLsbD 0) (field (dOpw d 0) 15 0) s
      finish r (okStatus false false u) 0 0 0 0 [] u := by
  simp only [unloadGo, hid, hzero, ne_eq, not_true_eq_false, false_or, or_false, if_neg (Nat.not_lt.2 hkind), hany, if_true, unloaded]

/-- An image named is no longer one that an UNLOAD names. -/
theorem unloadIs_setLoads (model : Bool) (id : Nat) (s : State) :
    ∀ l ∈ (setLoads (unloadIs model id) .releasing s).loaded, unloadIs model id l = false := by
  intro l hl
  obtain ⟨x, -, rfl⟩ := List.mem_map.1 hl
  cases h : unloadIs model id x
  · simpa using h
  · simp [unloadIs]

theorem mem_loaded_freeLoad {l x : Loaded} {s : State} (h : x ∈ (freeLoad l s).loaded) : x ∈ s.loaded := by
  unfold freeLoad at h
  rw [(freeReelList_does (fs₀ := [.reels]) (Does.refl _ _) rfl).same .loaded (by decide)] at h
  exact List.mem_of_mem_filter h

/-- Freeing models loads none. -/
theorem mem_loaded_reapModels {x : Loaded} {ls : List Loaded} {s : State} (h : x ∈ (reapModels ls s).loaded) : x ∈ s.loaded := by
  induction ls generalizing s with
  | nil => exact h
  | cons l ls ih =>
    have hstep := ih h
    split at hstep
    · exact mem_loaded_freeLoad hstep
    · exact hstep

theorem unloaded_mem (model : Bool) (id : Nat) (s : State) : (unloaded model id s).mem = s.mem :=
  (reapModels_does (fs₀ := [.reels, .loaded]) (setLoads_does (Does.refl _ s) rfl) rfl).same .mem (by decide)

/-! #### The statement -/

/-- Settles O17: each descriptor's row runs on a ready one, and its final record keeps what the row has done. -/
theorem maintDescriptorsComplete : Obligations.MaintDescriptorsComplete := by
  refine ⟨?ptp, ?pps, ?boot, ?load, ?unload⟩
  case ptp =>
    intro r d s hready hmode hzero hsrc hsrc3 harmed
    have hrun := exec_timeRearm hready
    rw [timeRearmGo_ptp r hmode hzero hsrc hsrc3 harmed] at hrun
    obtain ⟨hstep, harming, -, hflight, hmem, htiles⟩ := rearmed_finish r (okStatus false false (rearmed .ptp none s)) .ptp none s
    exact ⟨_, hrun, hstep, harming, hflight, hmem, htiles⟩
  case pps =>
    intro r d s hready hmode hzero hhigh hin harmed
    have hrun := exec_timeRearm hready
    rw [timeRearmGo_pps r hmode hzero hhigh hin harmed] at hrun
    exact ⟨_, hrun, rearmed_finish r _ .pps _ s⟩
  case boot =>
    intro r d s hready hscope hzero hmfw hdmc hchip hhold hbits hrom
    have hrun := exec_acceptPair hready
    rw [acceptPairGo_boot r hscope hzero hmfw hdmc hchip hhold hbits hrom] at hrun
    have hrd : ∀ o, 0xE0000 ≤ o → rd (finish r 0x02 0 0 0 0 [] (bootAccepted s)) o = rd (bootAccepted s) o :=
      fun o ho => rd_finish _ _ _ _ _ _ _ _ (by omega) (.inr (by omega))
    have hsame := finish_same r 0x02 0 0 0 0 [] (bootAccepted s)
    refine ⟨_, hrun, ?_, ?_, ?_, flightOf_finish .., (hsame.same .mem (by decide)).trans (bootAccepted_mem s),
      (hsame.same .tiles (by decide)).trans (bootAccepted_tiles s)⟩
    · rw [rdf, hrd _ (by decide)]; exact rdf_bootAccepted_state s
    · rw [untested, rdb, hrd _ (by decide)]; exact untested_bootAccepted s
    · rw [rdb, hrd _ (by decide)]; exact rdb_raise mgmtEvent 0 _ (by decide)
  case load =>
    intro r d s hready hscope hzero hchip htool habi hroom
    have hrun := exec_acceptPair hready
    rw [acceptPairGo_load r hscope hzero hchip htool habi hroom] at hrun
    have hrd : ∀ o, 0xE0000 ≤ o → rd (finish r 0x02 0 0 0 0 [] (loadAccepted (dOpw d 1) (dOpw d 2) s)) o =
        rd (loadAccepted (dOpw d 1) (dOpw d 2) s) o := fun o ho => rd_finish _ _ _ _ _ _ _ _ (by omega) (.inr (by omega))
    have hsame := finish_same r 0x02 0 0 0 0 [] (loadAccepted (dOpw d 1) (dOpw d 2) s)
    obtain ⟨htoolReg, habiReg⟩ := rd_loadAccepted (dOpw d 1) (dOpw d 2) (s := s)
    refine ⟨_, hrun, ?_, ?_, flightOf_finish .., ?_, ?_, hsame.same .mem (by decide), hsame.same .tiles (by decide)⟩
    · rw [hsame.same .mgmt (by decide)]; rfl
    · rw [untested, rdb, hrd _ (by decide)]; exact untested_loadAccepted _ _ s
    · rw [hrd _ (by omega), htoolReg]
    · rw [hrd _ (by omega), habiReg]
  case unload =>
    intro r d s hready hid hkind hzero hany
    have hrun := exec_unload hready
    rw [unloadGo_of_loaded r hid hkind hzero hany] at hrun
    have hsame := finish_same r (okStatus false false (unloaded ((dOpw d 1).getLsbD 0) (field (dOpw d 0) 15 0) s)) 0 0 0 0 []
      (unloaded ((dOpw d 1).getLsbD 0) (field (dOpw d 0) 15 0) s)
    refine ⟨_, hrun, flightOf_finish .., ?_, (hsame.same .mem (by decide)).trans (unloaded_mem _ _ s)⟩
    rw [hsame.same .loaded (by decide)]
    exact fun l hl => unloadIs_setLoads _ _ s l (mem_loaded_reapModels hl)

end Sys2Proof.Machine
end

/-! ### Doorbells and interrupts (03 R81–R83, R101–R104)

A doorbell is accepted, which sets one index, or rejected, which is logged; a ring's message is issued, or held. -/

section
namespace Sys2Proof.Machine

/-! #### Registers of a pair, and states that agree on a table -/

theorem le_pairReg (p o : Nat) : 0x11000 ≤ pairReg p o := by unfold pairReg; omega

theorem pairReg_inj {p o o' : Nat} : pairReg p o = pairReg p o' ↔ o = o' := by unfold pairReg; omega

theorem rd_congr {s t : State} (h : t.regs = s.regs) (o : Nat) : rd t o = rd s o := by rw [rd, h, rd]

theorem pairOf_congr {s t : State} (h : t.pairs = s.pairs) (p : Nat) : pairOf t p = pairOf s p := by rw [pairOf, h, pairOf]

theorem funcOf_congr {s t : State} (h : t.funcs = s.funcs) (f : Nat) : funcOf t f = funcOf s f := by rw [funcOf, h, funcOf]

theorem regsBut.pairFunc_eq {l : List Nat} {s t : State} (h : regsBut l s t) {p : Nat} (hp : pairReg p 0x10 ∉ l) :
    pairFunc t p = pairFunc s p := by rw [pairFunc, h.rdf_eq hp, pairFunc]

theorem setWidth_setWidth_index (v : BitVec 16) : (v.setWidth 32).setWidth 16 = v := by
  rw [BitVec.setWidth_setWidth_of_le v (by decide), BitVec.setWidth_eq]

/-! #### A doorbell rejected -/

/-- AERR_INFO.KIND. -/
theorem rdf_aerr_kind {k : Nat} (b : Bool) (f : FuncIx) (off : Nat) (s : State) (hk : k < 16) :
    rdf (aerr k b f off s) 0x10028 3 0 = k := by
  rw [rdf, rd_aerr_info, field, BitVec.toNat_ofNat]
  omega

/-- ACCESS_ERR of the HOST event. -/
theorem rdb_aerr_event (k : Nat) (b : Bool) (f : FuncIx) (off : Nat) (s : State) : rdb (aerr k b f off s) hostEvent 0 = true :=
  rdb_raise hostEvent 0 _ (by decide)

/-- What a rejection after the lock writes: the access error, DB_REJECT and DB_ERR. -/
theorem rejectDoorbell_of_locked (p : Nat) (f : FuncIx) (off : Nat) {s : State} (hlock : locked s = true) :
    rejectDoorbell p f off s = wrf (pairReg p 0x30) 2 2 1 (raise hostEvent 1 (aerr 5 true f off s)) := by
  rw [rejectDoorbell, if_pos hlock]

theorem rejectDoorbell_regsBut (p : Nat) (f : FuncIx) (off : Nat) {s : State} (hlock : locked s = true) :
    regsBut [0x10024, 0x10028, hostEvent, aerrCount, pairReg p 0x30] s (rejectDoorbell p f off s) := by
  rw [rejectDoorbell_of_locked p f off hlock]
  have hlogged : regsBut [0x10024, 0x10028, hostEvent, aerrCount] s (raise hostEvent 1 (aerr 5 true f off s)) :=
    regsBut.trans (aerr_regsBut 5 true f off s) (raise_regsBut hostEvent 1 _) (by decide)
  exact (hlogged.mono (by simp)).trans (wrf_regsBut _ _ _ _ _) (by simp)

/-- A rejection after the lock leaves the indices of the pair and shows in its three places. -/
theorem rejectDoorbell_shows (p : Nat) (f : FuncIx) (off : Nat) {s : State} (hlock : locked s = true) :
    rdb (rejectDoorbell p f off s) (pairReg p 0x30) 2 = true ∧ rdb (rejectDoorbell p f off s) hostEvent 1 = true ∧
      rdf (rejectDoorbell p f off s) 0x10028 3 0 = 5 := by
  have hreg := le_pairReg p 0x30
  have hother : ∀ o < 0x11000, rd (rejectDoorbell p f off s) o = rd (raise hostEvent 1 (aerr 5 true f off s)) o := fun o ho => by
    rw [rejectDoorbell_of_locked p f off hlock]
    exact wrf_regsBut _ _ _ _ _ _ (by simp only [List.mem_singleton]; omega)
  refine ⟨?dbErr, ?event, ?kind⟩
  case dbErr =>
    rw [rejectDoorbell_of_locked p f off hlock, rdb_wrf _ _ _ _ _ _ _ (by decide) (by decide), if_pos ⟨rfl, by decide⟩]
    rfl
  case event =>
    rw [rdb, hother _ (by decide)]
    exact rdb_raise hostEvent 1 _ (by decide)
  case kind =>
    rw [rdf, hother _ (by decide), raise_regsBut hostEvent 1 _ _ (by decide)]
    exact rdf_aerr_kind true f off s (by decide)

/-- A rejection leaves every index of its pair. -/
theorem rejectDoorbell_index (p : Nat) (f : FuncIx) (off o : Nat) {s : State} (hlock : locked s = true) (ho : o ≠ 0x30) :
    rd (rejectDoorbell p f off s) (pairReg p o) = rd s (pairReg p o) := by
  have hreg := le_pairReg p o
  refine rejectDoorbell_regsBut p f off hlock _ ?_
  simp only [hostEvent, aerrCount, List.mem_cons, List.not_mem_nil, or_false, pairReg_inj]
  omega

theorem rejectDoorbell_same (p : Nat) (f : FuncIx) (off : Nat) (s : State) :
    Does [.regs, .funcs, .out] s (rejectDoorbell p f off s) := rejectDoorbell_does (Does.refl _ s) rfl

/-! #### From the command to the doorbell -/

theorem exec_sqDoorbell_of_locked {f : FuncIx} {page : Nat} (val : Word) {p : PairIx} {s : State} (hreach : reachable s f = true)
    (hlock : locked s = true) (hpage : pagePair s f page = some p) :
    exec (.sqDoorbell f page val) s = .next (sqRing p (val.setWidth 16) f (pageOff page 0) s) := by
  change execSqDoorbell f page val s = _
  simp only [execSqDoorbell, if_pos hreach, hpage, if_pos hlock]

theorem exec_sqDoorbell_of_not_locked {f : FuncIx} {page : Nat} (val : Word) {p : PairIx} {s : State} (hreach : reachable s f = true)
    (hlock : locked s = false) (hpage : pagePair s f page = some p) :
    exec (.sqDoorbell f page val) s = .next (setPair p { pairOf s p with latched := some (val.setWidth 16) } s) := by
  change execSqDoorbell f page val s = _
  simp only [execSqDoorbell, if_pos hreach, hpage, hlock, Bool.false_eq_true, if_false]

theorem exec_sqDoorbell_of_inert {f : FuncIx} {page : Nat} (val : Word) {s : State} (hreach : reachable s f = true)
    (hpage : pagePair s f page = none) : exec (.sqDoorbell f page val) s = .next (aerr 6 true f (pageOff page 0) s) := by
  change execSqDoorbell f page val s = _
  simp only [execSqDoorbell, if_pos hreach, hpage]

theorem exec_cqDoorbell_of_accepted {f : FuncIx} {page : Nat} {val : Word} {p : PairIx} {s : State} (hreach : reachable s f = true)
    (hlock : locked s = true) (hpage : pagePair s f page = some p) (hacc : cqAccepts s p (val.setWidth 16) = true) :
    exec (.cqDoorbell f page val) s =
      .next (if val.getLsbD 31 then rearmRing p (val.setWidth 16) (wr (pairReg p 0x2C) ((val.setWidth 16).setWidth 32) s)
        else wr (pairReg p 0x2C) ((val.setWidth 16).setWidth 32) s) := by
  change execCqDoorbell f page val s = _
  simp only [execCqDoorbell, if_pos hreach, hpage, if_pos hlock, if_pos hacc]

theorem exec_cqDoorbell_of_rejected {f : FuncIx} {page : Nat} {val : Word} {p : PairIx} {s : State} (hreach : reachable s f = true)
    (hlock : locked s = true) (hpage : pagePair s f page = some p) (hrej : cqAccepts s p (val.setWidth 16) = false) :
    exec (.cqDoorbell f page val) s = .next (rejectDoorbell p f (pageOff page 8) s) := by
  change execCqDoorbell f page val s = _
  simp only [execCqDoorbell, if_pos hreach, hpage, if_pos hlock, hrej, Bool.false_eq_true, if_false]

theorem exec_inertDoorbellWrite {f : FuncIx} {page : Nat} (off size : Nat) {s : State} (hreach : reachable s f = true)
    (hpage : pagePair s f page = none) :
    exec (.inertDoorbellWrite f page off size) s = .next (aerr 6 true f (pageOff page off) s) := by
  change execInertDoorbellWrite f page off size s = _
  simp only [execInertDoorbellWrite, if_pos hreach, hpage, Option.isNone_none, if_true]

/-! #### The distance rule (03 R82) -/

theorem sqAccepts_iff (s : State) (p : Nat) (v : BitVec 16) : sqAccepts s p v = true ↔
    (pairOf s p).live = true ∧ pairIsEvent s p = false ∧ (sqProd s p - sqCons s p).toNat ≤ (v - sqCons s p).toNat ∧
      (v - sqCons s p).toNat ≤ sqDepth s p - 1 := by
  simp only [sqAccepts, Bool.and_eq_true, Bool.not_eq_true', decide_eq_true_eq, and_assoc]

theorem sqRing_of_accepted {p : Nat} {v : BitVec 16} (f : FuncIx) (off : Nat) {s : State} (h : sqAccepts s p v = true) :
    sqRing p v f off s = wr (pairReg p 0x24) (v.setWidth 32) s := by rw [sqRing, if_pos h]

theorem sqRing_of_rejected {p : Nat} {v : BitVec 16} (f : FuncIx) (off : Nat) {s : State} (h : ¬ sqAccepts s p v = true) :
    sqRing p v f off s = rejectDoorbell p f off s := by rw [sqRing, if_neg h]

/-- Settles O9: the value is accepted or rejected by the distance rule, latched before the lock, and logged on an inert page. -/
theorem sqDoorbellAcceptance : Obligations.SqDoorbellAcceptance := by
  refine ⟨?accepted, ?rejected, ?latched, ?inert⟩
  case accepted =>
    intro f page val p s hreach hlock hpage hlive hkind hold hnew
    have hacc : sqAccepts s p (val.setWidth 16) = true := (sqAccepts_iff ..).2 ⟨hlive, hkind, hold, hnew⟩
    refine ⟨wr (pairReg p 0x24) ((val.setWidth 16).setWidth 32) s, ?_, ?_, rfl, wr_regsBut _ _ _⟩
    · rw [exec_sqDoorbell_of_locked val hreach hlock hpage, sqRing_of_accepted _ _ hacc]
    · rw [sqProd, rd_wr_same, setWidth_setWidth_index]
  case rejected =>
    intro f page val p s hreach hlock hpage hbad
    have hrej : ¬ sqAccepts s p (val.setWidth 16) = true := by
      rw [sqAccepts_iff]
      rintro ⟨hlive, hkind, hold, hnew⟩
      rcases hbad with h | h | h | h
      · exact Bool.noConfusion (h.symm.trans hlive)
      · exact Bool.noConfusion (h.symm.trans hkind)
      · exact absurd hold (Nat.not_le.2 h)
      · exact absurd hnew (Nat.not_le.2 h)
    obtain ⟨hdb, hevent, hinfo⟩ := rejectDoorbell_shows p f (pageOff page 0) hlock
    have hsame := rejectDoorbell_same p f (pageOff page 0) s
    refine ⟨rejectDoorbell p f (pageOff page 0) s, ?_, ?_, ?_, hdb, hevent, hinfo, rejectDoorbell_regsBut _ _ _ hlock,
      hsame.same .pairs (by decide), hsame.same .mem (by decide), hsame.same .tiles (by decide)⟩
    · rw [exec_sqDoorbell_of_locked val hreach hlock hpage, sqRing_of_rejected _ _ hrej]
    · rw [sqProd, rejectDoorbell_index _ _ _ _ hlock (by decide), sqProd]
    · rw [sqCons, rejectDoorbell_index _ _ _ _ hlock (by decide), sqCons]
  case latched => exact fun f page val p s hreach hlock hpage => exec_sqDoorbell_of_not_locked val hreach hlock hpage
  case inert => exact fun f page val s hreach hpage => exec_sqDoorbell_of_inert val hreach hpage

/-! #### The message of a ring (03 R101) -/

/-- Vector of the ring's message. -/
abbrev ringVector (s : State) (p : Nat) : Nat := rdf s (pairReg p 0x14) 10 0

/-- The ring has signalled: it is disarmed and nothing is pending. -/
def disarmed (p : Nat) (s : State) : State := setPair p { pairOf s p with armed := false, unsignalled := 0 } s

/-- A message that may leave and whose vector is unmasked is sent. -/
theorem issueOrHold_msix_of_unmasked (p : Nat) {f : FuncIx} {v : Nat} {s : State} (hbme : (funcOf s f).bme = true)
    (hopen : (funcOf s f).unmasked.contains v = true) : issueOrHold p f (.out (.msix f v)) s = emit (.msix f v) s := by
  rw [issueOrHold, if_pos hbme]
  simp only [issue, if_pos hopen]

/-- One whose vector is masked sets the vector's pending bit. -/
theorem issueOrHold_msix_of_masked (p : Nat) {f : FuncIx} {v : Nat} {s : State} (hbme : (funcOf s f).bme = true)
    (hmask : (funcOf s f).unmasked.contains v = false) :
    (issueOrHold p f (.out (.msix f v)) s).out = s.out ∧
      (funcOf (issueOrHold p f (.out (.msix f v)) s) f).pba.contains v = true := by
  rw [issueOrHold, if_pos hbme]
  simp only [issue, hmask, Bool.false_eq_true, if_false]
  split
  · next h => exact ⟨rfl, h⟩
  · exact ⟨rfl, by simp⟩

theorem signalPair_of_unmasked {p : Nat} {s : State} (hbme : (funcOf s (pairFunc s p)).bme = true)
    (hopen : (funcOf s (pairFunc s p)).unmasked.contains (ringVector s p) = true) :
    signalPair p s = emit (.msix (pairFunc s p) (ringVector s p)) (disarmed p s) :=
  issueOrHold_msix_of_unmasked p (s := disarmed p s) hbme hopen

theorem signalPair_of_masked {p : Nat} {s : State} (hbme : (funcOf s (pairFunc s p)).bme = true)
    (hmask : (funcOf s (pairFunc s p)).unmasked.contains (ringVector s p) = false) :
    (signalPair p s).out = s.out ∧ (funcOf (signalPair p s) (pairFunc s p)).pba.contains (ringVector s p) = true :=
  issueOrHold_msix_of_masked p (s := disarmed p s) hbme hmask

/-- A ring that signals is disarmed with nothing pending. -/
theorem pairOf_signalPair (p : Nat) (s : State) : pairOf (signalPair p s) p = { pairOf s p with armed := false, unsignalled := 0 } := by
  have hpairs : (signalPair p s).pairs = (disarmed p s).pairs := by unfold signalPair; rw [issueOrHold_frame]; rfl
  rw [pairOf, hpairs]
  exact pairOf_setPair_same ..

theorem signalPair_same (p : Nat) (s : State) : Does [.pairs, .funcs, .out] s (signalPair p s) := signalPair_does (Does.refl _ s) rfl

/-- With nothing pending no message is due. -/
theorem maybeSignal_of_none_pending {p : Nat} {s : State} (h : (pairOf s p).unsignalled = 0) : maybeSignal p s = s := by
  rw [maybeSignal, signalDue, h, if_neg (by simp)]

/-- Once MOD_TIME has passed since the first pending record, the message of an armed ring is due. -/
theorem maybeSignal_of_modTime {p : Nat} {s : State} (harmed : (pairOf s p).armed = true) (hint : rdb s (pairReg p 0x14) 16 = true)
    (hpend : 0 < (pairOf s p).unsignalled) (hmod : rdf s (pairReg p 0x18) 31 16 ≠ 0)
    (htime : rdf s (pairReg p 0x18) 31 16 * ticks100ns ≤ s.clk - (pairOf s p).firstPending) : maybeSignal p s = signalPair p s := by
  rw [maybeSignal, signalDue, harmed, hint, decide_eq_true hpend, decide_eq_true hmod, decide_eq_true htime]
  simp

/-- The ring armed again. -/
def ringArmed (p : Nat) (s : State) : State := setPair p { pairOf s p with armed := true } s

theorem rearmRing_of_drained {p : Nat} {v : BitVec 16} {s : State} (hprod : cqProd s p = v) (hpend : (pairOf s p).unsignalled = 0) :
    rearmRing p v s = ringArmed p s := by
  rw [rearmRing, if_neg (by simp [hprod])]
  refine maybeSignal_of_none_pending ?_
  rw [pairOf_setPair_same]
  exact hpend

theorem rearmRing_of_beyond {p : Nat} {v : BitVec 16} {s : State} (hprod : cqProd s p ≠ v) (hint : rdb s (pairReg p 0x14) 16 = true) :
    rearmRing p v s = signalPair p (ringArmed p s) := by
  rw [rearmRing, if_pos ⟨hprod, hint⟩, ringArmed]

/-! #### CQ doorbells and inert pages -/

/-- The state with CQ_CONS at the value supplied. -/
abbrev cqMoved (p : Nat) (v : BitVec 16) (s : State) : State := wr (pairReg p 0x2C) (v.setWidth 32) s

theorem cqCons_cqMoved (p : Nat) (v : BitVec 16) (s : State) : cqCons (cqMoved p v s) p = v := by
  rw [cqCons, rd_wr_same, setWidth_setWidth_index]

theorem cqMoved_regsBut (p : Nat) (v : BitVec 16) (s : State) : regsBut [pairReg p 0x2C] s (cqMoved p v s) := wr_regsBut _ _ _

/-- The other registers of the pair stand. -/
theorem rd_cqMoved (p : Nat) (v : BitVec 16) (s : State) {o : Nat} (ho : o ≠ 0x2C) :
    rd (cqMoved p v s) (pairReg p o) = rd s (pairReg p o) := rd_wr_other _ _ fun h => ho (pairReg_inj.1 h)

/-- Settles O10: an accepted doorbell moves the index and may re-arm; the others are logged. -/
theorem cqDoorbellAndInertPages : Obligations.CqDoorbellAndInertPages := by
  refine ⟨?plain, ?arms, ?sends, ?rejected, ?inert⟩
  case plain =>
    intro f page val p s hreach hlock hpage hacc harm
    refine ⟨cqMoved p (val.setWidth 16) s, ?_, cqCons_cqMoved .., rfl, cqMoved_regsBut _ _ _⟩
    rw [exec_cqDoorbell_of_accepted hreach hlock hpage hacc, harm]
    rfl
  case arms =>
    intro f page val p s hreach hlock hpage hacc harm hprod hpend
    refine ⟨ringArmed p (cqMoved p (val.setWidth 16) s), ?_, cqCons_cqMoved .., ?_, rfl, cqMoved_regsBut _ _ _⟩
    · have hprod' : cqProd (cqMoved p (val.setWidth 16) s) p = val.setWidth 16 := by
        rw [cqProd, rd_cqMoved _ _ _ (by decide)]; exact hprod
      rw [exec_cqDoorbell_of_accepted hreach hlock hpage hacc, if_pos harm, rearmRing_of_drained hprod' hpend]
    · rw [ringArmed, pairOf_setPair_same]
  case sends =>
    intro f page val p s hreach hlock hpage hacc harm hprod hint hbme hopen
    have hfunc : pairFunc (ringArmed p (cqMoved p (val.setWidth 16) s)) p = pairFunc s p :=
      (cqMoved_regsBut p (val.setWidth 16) s).pairFunc_eq (by simp [pairReg_inj])
    have hvec : ringVector (ringArmed p (cqMoved p (val.setWidth 16) s)) p = ringVector s p :=
      (cqMoved_regsBut p (val.setWidth 16) s).rdf_eq (by simp [pairReg_inj]) 10 0
    have hsignal : signalPair p (ringArmed p (cqMoved p (val.setWidth 16) s)) =
        emit (.msix (pairFunc s p) (ringVector s p)) (disarmed p (ringArmed p (cqMoved p (val.setWidth 16) s))) := by
      rw [signalPair_of_unmasked (by rw [hfunc]; exact hbme) (by rw [hfunc, hvec]; exact hopen), hfunc, hvec]
    refine ⟨signalPair p (ringArmed p (cqMoved p (val.setWidth 16) s)), ?_, ?_, ?_, ?_, ?_⟩
    · rw [exec_cqDoorbell_of_accepted hreach hlock hpage hacc, if_pos harm, rearmRing_of_beyond ?_ ?_]
      · rw [cqProd, rd_cqMoved _ _ _ (by decide)]
        exact hprod
      · rw [rdb, rd_cqMoved _ _ _ (by decide)]
        exact hint
    · rw [hsignal]
      exact cqCons_cqMoved ..
    · rw [pairOf_signalPair]
    · rw [hsignal]
      rfl
    · rw [hsignal]
      exact cqMoved_regsBut _ _ _
  case rejected => exact fun f page val p s hreach hlock hpage hrej => exec_cqDoorbell_of_rejected hreach hlock hpage hrej
  case inert =>
    intro f page off size s hreach hpage
    have hsame : Does [.regs, .funcs, .out] s (aerr 6 true f (pageOff page off) s) := aerr_does (Does.refl _ s) rfl
    exact ⟨_, exec_inertDoorbellWrite off size hreach hpage, rdf_aerr_kind _ _ _ _ (by decide), rdb_aerr_event .., aerr_regsBut _ _ _ _ _,
      hsame.same .pairs (by decide), aerr_mem ..⟩

/-! #### MOD_TIME and MSIX_UNMASK -/

theorem runToClk_same (u : Nat) (s : State) : Does [.clk, .time] s (runToClk u s) := runToClk_does (Does.refl _ s) rfl

theorem pairOf_runToClk (u p : Nat) (s : State) : pairOf (runToClk u s) p = pairOf s p :=
  pairOf_congr ((runToClk_same u s).same .pairs (by decide)) p

theorem funcOf_runToClk (u f : Nat) (s : State) : funcOf (runToClk u s) f = funcOf s f :=
  funcOf_congr ((runToClk_same u s).same .funcs (by decide)) f

theorem rdf_runToClk (u o hi lo : Nat) (s : State) : rdf (runToClk u s) o hi lo = rdf s o hi lo :=
  (runToClk_regsBut u s []).rdf_eq List.not_mem_nil hi lo

theorem rdb_runToClk (u o b : Nat) (s : State) : rdb (runToClk u s) o b = rdb s o b :=
  (runToClk_regsBut u s []).rdb_eq List.not_mem_nil b

theorem pairFunc_runToClk (u p : Nat) (s : State) : pairFunc (runToClk u s) p = pairFunc s p :=
  (runToClk_regsBut u s []).pairFunc_eq List.not_mem_nil

/-- The tick at which MOD_TIME has passed since the ring's first pending record. -/
abbrev modTimeDue (s : State) (p : Nat) : Nat := (pairOf s p).firstPending + rdf s (pairReg p 0x18) 31 16 * ticks100ns

theorem exec_modTimeExpiry {p : PairIx} {s : State} (hmod : rdf s (pairReg p 0x18) 31 16 ≠ 0) (harmed : (pairOf s p).armed = true)
    (hpend : 0 < (pairOf s p).unsignalled) (hint : rdb s (pairReg p 0x14) 16 = true) :
    exec (.modTimeExpiry p) s = .next (signalPair p (runToClk (modTimeDue s p) s)) := by
  change execModTimeExpiry p s = _
  simp only [execModTimeExpiry]
  rw [if_pos ⟨hmod, harmed, hpend⟩, maybeSignal_of_modTime]
  · rw [pairOf_runToClk, harmed]
  · rw [rdb_runToClk, hint]
  · rw [pairOf_runToClk]; exact hpend
  · rw [rdf_runToClk]; exact hmod
  · rw [rdf_runToClk, pairOf_runToClk, runToClk_clk]
    omega

/-- The function with vector `vec` unmasked and not pending. -/
def unmaskedAt (x : FuncS) (vec : Nat) : FuncS :=
  { x with unmasked := if x.unmasked.contains vec then x.unmasked else x.unmasked ++ [vec],
           pba := x.pba.filter fun v => decide (v ≠ vec) }

theorem unmasked_unmaskedAt (x : FuncS) (vec : Nat) : (unmaskedAt x vec).unmasked.contains vec = true := by
  unfold unmaskedAt
  dsimp only
  split
  · assumption
  · simp

theorem pba_unmaskedAt (x : FuncS) (vec : Nat) : (unmaskedAt x vec).pba.contains vec = false := by simp [unmaskedAt]

theorem exec_msixUnmask {f : FuncIx} {vec : Nat} {s : State} (hvec : vec < msixSize s f) (hreach : reachable s f = true)
    (hbme : (funcOf s f).bme = true) :
    exec (.msixUnmask f vec) s =
      .next (if (funcOf s f).pba.contains vec then emit (.msix f vec) (setFunc f (unmaskedAt (funcOf s f) vec) s)
        else setFunc f (unmaskedAt (funcOf s f) vec) s) := by
  have hsend : issueOrHold 256 f (.out (.msix f vec)) (setFunc f (unmaskedAt (funcOf s f) vec) s) =
      emit (.msix f vec) (setFunc f (unmaskedAt (funcOf s f) vec) s) := by
    refine issueOrHold_msix_of_unmasked 256 ?_ ?_ <;> rw [funcOf_setFunc_same]
    · exact hbme
    · exact unmasked_unmaskedAt ..
  change execMsixUnmask f vec s = _
  unfold unmaskedAt at hsend ⊢
  simp only [execMsixUnmask, hvec, hreach, and_self, if_true, hsend]

/-- Settles O11: the message falls due when MOD_TIME has passed, and an unmasked vector sends the one that waited. -/
theorem interruptsAndMasks : Obligations.InterruptsAndMasks := by
  refine ⟨?modTime, ?unmask⟩
  case modTime =>
    intro p s hmod harmed hpend hint hclk hbme
    have hfunc := pairFunc_runToClk (modTimeDue s p) p s
    have hvec : ringVector (runToClk (modTimeDue s p) s) p = ringVector s p := rdf_runToClk ..
    have hbme' : (funcOf (runToClk (modTimeDue s p) s) (pairFunc (runToClk (modTimeDue s p) s) p)).bme = true := by
      rw [hfunc, funcOf_runToClk, hbme]
    have hrun := runToClk_same (modTimeDue s p) s
    have hsignal := signalPair_same p (runToClk (modTimeDue s p) s)
    have hout : (runToClk (modTimeDue s p) s).out = s.out := hrun.same .out (by decide)
    refine ⟨_, exec_modTimeExpiry hmod harmed hpend hint, ?clk, ?sent, ?held, ?armed, ?pending,
      (hsignal.same .regs (by decide)).trans (hrun.same .regs (by decide)),
      (hsignal.same .mem (by decide)).trans (hrun.same .mem (by decide)),
      (hsignal.same .tiles (by decide)).trans (hrun.same .tiles (by decide))⟩
    case clk => exact (hsignal.same .clk (by decide)).trans ((runToClk_clk ..).trans (Nat.max_eq_right hclk))
    case sent =>
      intro hopen
      rw [signalPair_of_unmasked hbme' (by rw [hfunc, hvec, funcOf_runToClk, hopen]), hfunc, hvec, ← hout]
      rfl
    case held =>
      intro hmask
      obtain ⟨hquiet, hpba⟩ := signalPair_of_masked hbme' (by rw [hfunc, hvec, funcOf_runToClk, hmask])
      rw [hfunc, hvec] at hpba
      exact ⟨hquiet.trans hout, hpba⟩
    case armed => rw [pairOf_signalPair]
    case pending => rw [pairOf_signalPair]
  case unmask =>
    intro f vec s hvec hreach hbme
    have hclear := pba_unmaskedAt (funcOf s f) vec
    have hopen := unmasked_unmaskedAt (funcOf s f) vec
    rw [← funcOf_setFunc_same f (unmaskedAt (funcOf s f) vec) s] at hclear hopen
    refine ⟨_, exec_msixUnmask hvec hreach hbme, ?_⟩
    split
    · exact ⟨rfl, hclear, hopen, rfl⟩
    · exact ⟨(List.append_nil _).symm, hclear, hopen, rfl⟩

end Sys2Proof.Machine
end

/-! ### Functions: resets, Bus Master Enable and VFs (03 R79, R80)

With no descriptor in flight cancelling the work of a function only discards what it holds. What each operation then does to
the registers, the pairs and the function is said once, and the statement put together from it. -/

section
namespace Sys2Proof.Machine

/-! #### Pairs of a function -/

theorem lt_of_mem_enabledPairs {s : State} {p : Nat} (h : p ∈ enabledPairs s) : p < 256 := by
  obtain ⟨x, -, hx⟩ := List.mem_filterMap.1 h
  split at hx
  · next hrange =>
    obtain ⟨hlo, hhi, -, -⟩ := hrange
    have hp : (x.1 - 0x11000) / 0x40 = p := Option.some.inj hx
    omega
  · exact absurd hx (by simp)

theorem lt_of_mem_funcPairs {s : State} {f : FuncIx} {p : Nat} (h : p ∈ funcPairs s f) : p < 256 :=
  lt_of_mem_enabledPairs (List.mem_of_mem_filter h)

theorem funcPairs_congr {s t : State} (h : t.regs = s.regs) (f : FuncIx) : funcPairs t f = funcPairs s f := by
  unfold funcPairs enabledPairs pairFunc rdf rd
  rw [h]

/-- Registers of a pair lie below the ledger's. -/
theorem pairReg_lt {p o : Nat} (hp : p < 256) (ho : o < 0x40) : pairReg p o < 0x15000 := by unfold pairReg; omega

/-! #### Work cancelled where none is in flight -/

/-- What the function holds is discarded. -/
def heldDropped (f : FuncIx) (s : State) : State := setFunc f { funcOf s f with held := [] } s

theorem cancelFunc_of_no_flights (f : FuncIx) {s : State} (h : s.flights = []) : cancelFunc f s = heldDropped f s := by
  rw [cancelFunc, h, List.filter_nil]
  rfl

/-! #### Pairs back at lap 0 -/

/-- A register that holds 0 holds 0 after a pair is zeroed: only zeros are written. -/
theorem rd_wr_of_zero (q : Nat) {s : State} {o : Nat} (h : rd s o = 0) : rd (wr q 0 s) o = 0 := by rw [rd_wr, h, ite_self]

theorem rd_zeroPair_of_zero (p : Nat) {s : State} {o : Nat} (h : rd s o = 0) : rd (zeroPair p s) o = 0 := by
  rw [zeroPair, rd_setPair]
  exact rd_wr_of_zero _ (rd_wr_of_zero _ (rd_wr_of_zero _ (rd_wr_of_zero _ h)))

theorem rd_zeroPair_index (p : Nat) (s : State) {o : Nat} (ho : o ∈ [0x20, 0x24, 0x28, 0x2C]) : rd (zeroPair p s) (pairReg p o) = 0 := by
  simp only [List.mem_cons, List.not_mem_nil, or_false] at ho
  rw [zeroPair, rd_setPair]
  rcases ho with rfl | rfl | rfl | rfl
  · exact rd_wr_same ..
  · exact rd_wr_of_zero _ (rd_wr_same ..)
  · exact rd_wr_of_zero _ (rd_wr_of_zero _ (rd_wr_same ..))
  · exact rd_wr_of_zero _ (rd_wr_of_zero _ (rd_wr_of_zero _ (rd_wr_same ..)))

theorem rd_zeroPairs_of_zero (ps : List Nat) {s : State} {o : Nat} (h : rd s o = 0) : rd (zeroPairs ps s) o = 0 := by
  induction ps generalizing s with
  | nil => exact h
  | cons p ps ih => exact ih (rd_zeroPair_of_zero p h)

/-- The indices of every pair zeroed are 0. -/
theorem rd_zeroPairs_index {ps : List Nat} {p o : Nat} (s : State) (hp : p ∈ ps) (ho : o ∈ [0x20, 0x24, 0x28, 0x2C]) :
    rd (zeroPairs ps s) (pairReg p o) = 0 := by
  induction ps generalizing s with
  | nil => exact absurd hp List.not_mem_nil
  | cons q ps ih =>
    rcases List.mem_cons.1 hp with rfl | hp
    · exact rd_zeroPairs_of_zero ps (rd_zeroPair_index p s ho)
    · exact ih (zeroPair q s) hp

theorem rd_zeroPairs_below (ps : List Nat) (s : State) {o : Nat} (ho : o < 0x11000) : rd (zeroPairs ps s) o = rd s o := by
  induction ps generalizing s with
  | nil => rfl
  | cons p ps ih =>
    have hne : ∀ k, o ≠ pairReg p k := fun k => by unfold pairReg; omega
    rw [zeroPairs, ih, zeroPair, rd_setPair, rd_wr_other _ _ (hne _), rd_wr_other _ _ (hne _), rd_wr_other _ _ (hne _),
      rd_wr_other _ _ (hne _)]

/-- The ledger's generation is the one register that a commit writes. -/
theorem ledgerCommit_regsBut (s : State) : regsBut [0x50044] s (ledgerCommit s) :=
  (regsBut.of_regs_eq (t := { s with hold := _, fault := _ }) rfl [0x50044]).trans (wr_regsBut _ _ _) (List.Subset.refl _)

theorem ledgerZero_regsBut (ps : List Nat) (s : State) : regsBut [0x50044] s (ledgerZero ps s) := by
  induction ps generalizing s with
  | nil => exact ledgerCommit_regsBut s
  | cons p ps ih => exact (regsBut.of_regs_eq (setPair_regs ..) _).trans (ih _) (List.Subset.refl _)

/-! #### A reset of a function -/

/-- The pairs of a function zeroed, what it holds discarded, and the ledger committed. -/
def pairsZeroed (f : FuncIx) (s : State) : State := ledgerZero (funcPairs s f) (zeroPairs (funcPairs s f) (heldDropped f s))

theorem resetFunc_of_no_flights (f : FuncIx) {s : State} (h : s.flights = []) :
    resetFunc f s = setFunc f { funcOf (pairsZeroed f s) f with pba := [] } (pairsZeroed f s) := by
  rw [resetFunc, cancelFunc_of_no_flights f h]
  rfl

theorem rd_resetFunc_below (f : FuncIx) {s : State} (h : s.flights = []) {o : Nat} (ho : o < 0x11000) :
    rd (resetFunc f s) o = rd s o := by
  rw [resetFunc_of_no_flights f h, rd_setFunc, pairsZeroed, ledgerZero_regsBut _ _ _ (by simp only [List.mem_singleton]; omega),
    rd_zeroPairs_below _ _ ho, heldDropped, rd_setFunc]

theorem rd_resetFunc_index {f : FuncIx} {s : State} (h : s.flights = []) {p o : Nat} (hp : p ∈ funcPairs s f)
    (ho : o ∈ [0x20, 0x24, 0x28, 0x2C]) : rd (resetFunc f s) (pairReg p o) = 0 := by
  have hlt : o < 0x40 := by
    simp only [List.mem_cons, List.not_mem_nil, or_false] at ho
    omega
  have hbelow := pairReg_lt (lt_of_mem_funcPairs hp) hlt
  rw [resetFunc_of_no_flights f h, rd_setFunc, pairsZeroed, ledgerZero_regsBut _ _ _ (by simp only [List.mem_singleton]; omega)]
  exact rd_zeroPairs_index _ hp ho

theorem resetFunc_same (f : FuncIx) {s : State} (h : s.flights = []) :
    Does [.regs, .pairs, .funcs, .fault, .hold] s (resetFunc f s) := by
  rw [resetFunc_of_no_flights f h]
  exact setFunc_does (ledgerZero_does (zeroPairs_does (setFunc_does (Does.refl _ s) rfl) rfl) rfl) rfl

/-- The reset counted, and its event raised. -/
def flrCounted (f : FuncIx) (s : State) : State := raise hostEvent 2 (bump flrCount 1 (resetFunc f s))

theorem exec_functionLevelReset {f : FuncIx} {s : State} (hreach : reachable s f = true) :
    exec (.functionLevelReset f) s = .next (setFunc f { funcOf (flrCounted f s) f with inFlr := true } (flrCounted f s)) := by
  change execFunctionLevelReset f s = _
  rw [execFunctionLevelReset, if_pos hreach]
  rfl

theorem rd_flrCounted (f : FuncIx) (s : State) {o : Nat} (ho : o ∉ [hostEvent, flrCount]) :
    rd (flrCounted f s) o = rd (resetFunc f s) o := by
  simp only [List.mem_cons, List.not_mem_nil, or_false, not_or] at ho
  rw [flrCounted, raise_regsBut _ _ _ _ (by simpa using ho.1), bump_regsBut _ _ _ _ (by simpa using ho.2)]

theorem rd_flrCounted_index {f : FuncIx} {s : State} (h : s.flights = []) {p o : Nat} (hp : p ∈ funcPairs s f)
    (ho : o ∈ [0x20, 0x24, 0x28, 0x2C]) : rd (flrCounted f s) (pairReg p o) = 0 := by
  have hreg := le_pairReg p o
  rw [rd_flrCounted f s (by simp only [List.mem_cons, List.not_mem_nil, or_false]; simp only [hostEvent, flrCount]; omega)]
  exact rd_resetFunc_index h hp ho

theorem rd_flrCounted_count (f : FuncIx) {s : State} (h : s.flights = []) :
    (rd (flrCounted f s) flrCount).toNat = min (2 ^ 32 - 1) ((rd s flrCount).toNat + 1) := by
  rw [flrCounted, raise_regsBut _ _ _ _ (by decide), rd_bump_toNat, rd_resetFunc_below f h (by decide)]

theorem flrCounted_same (f : FuncIx) {s : State} (h : s.flights = []) :
    Does [.regs, .pairs, .funcs, .fault, .hold, .out] s (flrCounted f s) :=
  raise_does (bump_does ((resetFunc_same f h).mono rfl) rfl) rfl

/-! #### Rings armed -/

theorem armPairs_frame (ps : List Nat) (s : State) : armPairs ps s = { s with pairs := (armPairs ps s).pairs } := by
  induction ps generalizing s with
  | nil => rfl
  | cons p ps ih => rw [armPairs, ih]; rfl

theorem pairOf_armPairs (ps : List Nat) (s : State) (q : Nat) :
    pairOf (armPairs ps s) q = if q ∈ ps then { pairOf s q with armed := (pairOf s q).live } else pairOf s q := by
  induction ps generalizing s with
  | nil => rfl
  | cons p ps ih =>
    rw [armPairs, ih, pairOf_setPair]
    by_cases hq : q = p <;> simp [hq]

/-! #### What was held leaves -/

/-- Bus Master Enable is set, and nothing is held any more. -/
def masterSet (f : FuncIx) (s : State) : State := setFunc f { funcOf s f with bme := true, held := [] } s

/-- Bus Master Enable is set, and what was held issued. -/
def heldIssued (f : FuncIx) (s : State) : State := issueHeld (funcOf s f).held (masterSet f s)

theorem heldIssued_same (f : FuncIx) (s : State) : Does [.funcs, .out] s (heldIssued f s) :=
  issueHeld_does (setFunc_does (Does.refl _ s) rfl) rfl

theorem funcOf_masterSet (f : FuncIx) (s : State) : funcOf (masterSet f s) f = { funcOf s f with bme := true, held := [] } :=
  funcOf_setFunc_same ..

/-- Setting Bus Master Enable unmasks no vector and masks none. -/
theorem unmasked_masterSet (f g : FuncIx) (s : State) : (funcOf (masterSet f s) g).unmasked = (funcOf s g).unmasked := by
  rw [masterSet, funcOf_setFunc]
  split
  · next hg => rw [hg]
  · rfl

/-- No batch waits: flushing pairs leaves each pair as it is. -/
theorem flushPairs_of_none_waiting {ps : List Nat} {s : State} (h : ∀ p ∈ ps, (pairOf s p).waiting = []) :
    Does [.pairs] s (flushPairs ps s) ∧ ∀ q, pairOf (flushPairs ps s) q = pairOf s q := by
  induction ps generalizing s with
  | nil => exact ⟨Does.refl _ s, fun _ => rfl⟩
  | cons p ps ih =>
    have hp : (pairOf s p).waiting = [] := h p List.mem_cons_self
    have hkeep : ∀ q, pairOf (setPair p { pairOf s p with waiting := [] } s) q = pairOf s q := fun q => by
      rw [pairOf_setPair]
      split
      · next hq => rw [hq, ← hp]
      · rfl
    obtain ⟨hsame, hpairs⟩ := ih (s := setPair p { pairOf s p with waiting := [] } s)
      fun q hq => by rw [hkeep]; exact h q (List.mem_cons_of_mem _ hq)
    rw [flushPairs, hp, putWaiting]
    exact ⟨(setPair_does (Does.refl _ s) rfl).trans hsame rfl, fun q => (hpairs q).trans (hkeep q)⟩

/-- No batch waits: what was held leaves, and then no pair changes. -/
theorem masterOn_of_none_waiting {f : FuncIx} {s : State} (h : ∀ p ∈ funcPairs s f, (pairOf s p).waiting = []) :
    Does [.pairs] (heldIssued f s) (masterOn f s) ∧ ∀ q, pairOf (masterOn f s) q = pairOf s q := by
  have hissued := heldIssued_same f s
  have hpairs := pairOf_congr (hissued.same .pairs (by decide))
  have hmaster : masterOn f s = flushPairs (funcPairs s f) (heldIssued f s) := by
    rw [← funcPairs_congr (hissued.same .regs (by decide)) f]
    rfl
  obtain ⟨hsame, hkeep⟩ := flushPairs_of_none_waiting (ps := funcPairs s f) (s := heldIssued f s) fun p hp => by rw [hpairs, h p hp]
  rw [hmaster]
  exact ⟨hsame, fun q => (hkeep q).trans (hpairs q)⟩

/-- Where what was held leaves as the outputs `l`, they go out, the function holds nothing, and the rest stands. -/
theorem masterOn_of_issued {f : FuncIx} {l : List Output} {s : State} (hwait : ∀ p ∈ funcPairs s f, (pairOf s p).waiting = [])
    (hissue : heldIssued f s = { masterSet f s with out := s.out ++ l }) :
    (masterOn f s).out = s.out ++ l ∧ (funcOf (masterOn f s) f).bme = true ∧ (funcOf (masterOn f s) f).held = [] ∧
      (masterOn f s).mem = s.mem ∧ (masterOn f s).regs = s.regs ∧ (masterOn f s).tiles = s.tiles := by
  obtain ⟨hsame, -⟩ := masterOn_of_none_waiting hwait
  rw [hissue] at hsame
  have hfunc : funcOf (masterOn f s) f = { funcOf s f with bme := true, held := [] } :=
    (funcOf_congr (hsame.same .funcs (by decide)) f).trans (funcOf_masterSet f s)
  rw [hfunc]
  exact ⟨hsame.same .out (by decide), rfl, rfl, hsame.same .mem (by decide), hsame.same .regs (by decide),
    hsame.same .tiles (by decide)⟩

/-- Held outputs that are no messages leave in their order, and nothing else changes. -/
theorem issueHeld_outputs {l : List Output} {hs : List Held} (s : State) (hout : hs.map (·.out) = l.map .out)
    (hmsix : (l.any fun o => match o with
      | .msix _ _ => true
      | _ => false) = false) : issueHeld hs s = { s with out := s.out ++ l } := by
  induction l generalizing hs s with
  | nil =>
    rw [List.map_eq_nil_iff.1 hout, issueHeld, List.append_nil]
  | cons o l ih =>
    obtain ⟨h, hs, rfl, hh, hrest⟩ := List.map_eq_cons_iff.1 hout
    rw [List.any_cons, Bool.or_eq_false_iff] at hmsix
    obtain ⟨hfirst, hothers⟩ := hmsix
    have hissue : issue h.out s = emit o s := by
      rw [hh]
      cases o with
      | msix g v => exact Bool.noConfusion (show true = false from hfirst)
      | _ => rfl
    rw [issueHeld, hissue, ih _ hrest hothers, emit, List.append_assoc]
    rfl

theorem exec_busMasterSet_of_held {f : FuncIx} {s : State} (h : holdOver s f = false) :
    exec (.busMasterSet f) s = .next (masterOn f s) := by
  change execBusMasterSet f s = _
  rw [execBusMasterSet, h]
  rfl

theorem exec_busMasterSet_of_over {f : FuncIx} {s : State} (h : holdOver s f = true) :
    exec (.busMasterSet f) s = .next (masterOn f (discardHeld f s)) := by
  change execBusMasterSet f s = _
  rw [execBusMasterSet, if_pos h]

/-! #### What was held is discarded -/

theorem dropWaiting_frame (ps : List Nat) (s : State) : dropWaiting ps s = { s with pairs := (dropWaiting ps s).pairs } := by
  induction ps generalizing s with
  | nil => rfl
  | cons p ps ih => rw [dropWaiting, ih]; rfl

theorem pairOf_dropWaiting (ps : List Nat) (s : State) (q : Nat) :
    pairOf (dropWaiting ps s) q = if q ∈ ps then { pairOf s q with waiting := [], reserved := 0 } else pairOf s q := by
  induction ps generalizing s with
  | nil => rfl
  | cons p ps ih =>
    rw [dropWaiting, ih, pairOf_setPair]
    by_cases hq : q = p <;> simp [hq]

theorem discardHeld_of_no_flights {f : FuncIx} {s : State} (h : s.flights = []) :
    discardHeld f s = dropWaiting (funcPairs s f) (heldDropped f s) := by rw [discardHeld, cancelFunc_of_no_flights f h]

/-- With no descriptor in flight only the pairs and the function change. -/
theorem discardHeld_same (f : FuncIx) {s : State} (h : s.flights = []) : Does [.pairs, .funcs] s (discardHeld f s) := by
  rw [discardHeld_of_no_flights h]
  exact dropWaiting_does (setFunc_does (Does.refl _ s) rfl) rfl

theorem held_discardHeld (f : FuncIx) {s : State} (h : s.flights = []) : (funcOf (discardHeld f s) f).held = [] := by
  rw [discardHeld_of_no_flights h, dropWaiting_frame]
  exact congrArg FuncS.held (funcOf_setFunc_same f _ s)

/-- The pairs of the function wait for nothing and have no slot reserved. -/
theorem pairOf_discardHeld {f : FuncIx} (s : State) {p : Nat} (hp : p ∈ funcPairs s f) :
    (pairOf (discardHeld f s) p).waiting = [] ∧ (pairOf (discardHeld f s) p).reserved = 0 := by
  rw [discardHeld, pairOf_dropWaiting, if_pos hp]
  exact ⟨rfl, rfl⟩

theorem exec_busMasterHoldExpiry {f : FuncIx} {s : State} (h : (funcOf s f).bme = false) :
    exec (.busMasterHoldExpiry f) s = .next (discardHeld f (runToClk ((funcOf s f).bmeAt + ticksS) s)) := by
  change execBusMasterHoldExpiry f s = _
  rw [execBusMasterHoldExpiry, if_neg (by rw [h]; decide)]

/-! #### VFs -/

theorem countVfs_regsBut (s : State) : regsBut [0x10000] s (countVfs s) := wrf_regsBut _ _ _ _ s

/-- A VF reset, with its rings armed. -/
def vfReset (f : FuncIx) (s : State) : State := armPairs (funcPairs s f) (resetFunc f s)

theorem exec_vfEnable {f : FuncIx} (s : State) (h : f ≠ 0) :
    exec (.vfEnable f) s = .next (countVfs (setFunc f { funcOf s f with enabled := true } s)) := by
  change execVfEnable f s = _
  rw [execVfEnable, if_pos h]

theorem exec_vfDisable {f : FuncIx} {s : State} (h : f ≠ 0) (hen : (funcOf s f).enabled = true) :
    exec (.vfDisable f) s =
      .next (countVfs (setFunc f { funcOf (vfReset f s) f with enabled := false, inFlr := false } (vfReset f s))) := by
  change execVfDisable f s = _
  rw [execVfDisable, if_pos ⟨h, hen⟩]
  rfl

theorem vfReset_same (f : FuncIx) {s : State} (h : s.flights = []) : Does [.regs, .pairs, .funcs, .fault, .hold] s (vfReset f s) :=
  armPairs_does (resetFunc_same f h) rfl

theorem rd_vfReset (f : FuncIx) (s : State) (o : Nat) : rd (vfReset f s) o = rd (resetFunc f s) o := by
  rw [vfReset, armPairs_frame]
  rfl

/-! #### The statement -/

/-- Settles O12, a clause for each command and what it finds. -/
theorem functionStateChanges : Obligations.FunctionStateChanges := by
  refine ⟨?flr, ?flrDone, ?clear, ?outputs, ?message, ?record, ?late, ?expiry, ?enable, ?disable⟩
  case flr =>
    intro f s hreach hflights
    have hsame := flrCounted_same f hflights
    refine ⟨_, exec_functionLevelReset hreach, ?_, rdb_raise hostEvent 2 _ (by decide), rd_flrCounted_count f hflights,
      fun p hp => ⟨rd_flrCounted_index hflights hp (by simp), rd_flrCounted_index hflights hp (by simp),
        rd_flrCounted_index hflights hp (by simp), rd_flrCounted_index hflights hp (by simp)⟩,
      hsame.same .mem (by decide), hsame.same .tiles (by decide)⟩
    rw [funcOf_setFunc_same]
  case flrDone =>
    intro f s hflr
    have hrun : exec (.flrComplete f) s = .next (armPairs (funcPairs s f) (setFunc f { funcOf s f with inFlr := false } s)) := by
      change execFlrComplete f s = _
      rw [execFlrComplete, if_pos hflr]
    refine ⟨_, hrun, ?_, ?_, fun p hp => ?_⟩
    · rw [armPairs_frame]
      exact congrArg FuncS.inFlr (funcOf_setFunc_same f _ s)
    · rw [armPairs_frame]
      rfl
    · rw [pairOf_armPairs, if_pos hp]
      rfl
  case clear =>
    intro f s hbme
    change execBusMasterClear f s = _
    rw [execBusMasterClear, if_pos hbme]
  case outputs =>
    intro f l s hover hout hmsix hwait
    exact ⟨_, exec_busMasterSet_of_held hover, masterOn_of_issued hwait (issueHeld_outputs _ hout hmsix)⟩
  case message =>
    intro f g v p s hover hheld hopen hwait
    obtain ⟨hout, hbme, hnone, -⟩ := masterOn_of_issued (l := [.msix g v]) hwait (by
      rw [heldIssued, hheld, issueHeld, issueHeld, issue, unmasked_masterSet, if_pos hopen]
      rfl)
    exact ⟨_, exec_busMasterSet_of_held hover, hout, hbme, hnone⟩
  case record =>
    intro f g addr ph lost r p s hover hheld hwait
    obtain ⟨hout, hbme, hnone, -⟩ := masterOn_of_issued
      (l := [.hostWrite g (addr + 4) ((recBytes s ph lost r).drop 4), .hostWrite g addr ((recBytes s ph lost r).take 4)]) hwait (by
        rw [heldIssued, hheld, issueHeld, issueHeld]
        exact congrArg (fun o => { masterSet f s with out := o }) (List.append_assoc s.out [_] [_]))
    exact ⟨_, exec_busMasterSet_of_held hover, hout, hbme, hnone⟩
  case late =>
    intro f s hover hflights
    have hsame := discardHeld_same f hflights
    have hpairs := funcPairs_congr (hsame.same .regs (by decide)) f
    have hwait : ∀ p ∈ funcPairs (discardHeld f s) f, (pairOf (discardHeld f s) p).waiting = [] := fun p hp =>
      (pairOf_discardHeld s (hpairs ▸ hp)).1
    obtain ⟨hout, hbme, hheld, hmem, hregs, htiles⟩ := masterOn_of_issued (l := []) hwait (by
      rw [heldIssued, held_discardHeld f hflights, issueHeld, List.append_nil]
      rfl)
    obtain ⟨-, hkeep⟩ := masterOn_of_none_waiting hwait
    rw [List.append_nil] at hout
    refine ⟨_, exec_busMasterSet_of_over hover, hout.trans (hsame.same .out (by decide)), hbme, hheld,
      hmem.trans (hsame.same .mem (by decide)), hregs.trans (hsame.same .regs (by decide)),
      htiles.trans (hsame.same .tiles (by decide)), fun p hp => ?_⟩
    rw [hkeep]
    exact pairOf_discardHeld s hp
  case expiry =>
    intro f s hbme hflights
    have hrun := runToClk_same ((funcOf s f).bmeAt + ticksS) s
    have hflights' := (hrun.same .flights (by decide)).trans hflights
    have hsame : Does [.clk, .time, .pairs, .funcs] s _ := (hrun.mono rfl).trans (discardHeld_same f hflights') rfl
    refine ⟨_, exec_busMasterHoldExpiry hbme, held_discardHeld f hflights', ?clk, hsame.same .out (by decide),
      hsame.same .mem (by decide), hsame.same .regs (by decide), fun p hp => pairOf_discardHeld _ ?pair⟩
    case clk =>
      have hclk := (discardHeld_same f hflights').same .clk (by decide)
      exact (Nat.le_max_right s.clk _).trans_eq ((runToClk_clk _ s).symm.trans hclk.symm)
    case pair => rwa [funcPairs_congr (hrun.same .regs (by decide))]
  case enable =>
    intro f s hf
    refine ⟨_, exec_vfEnable s hf, ?_, rfl, (regsBut.of_regs_eq (setFunc_regs ..) _).trans (countVfs_regsBut _) (List.Subset.refl _)⟩
    exact congrArg FuncS.enabled (funcOf_setFunc_same f _ s)
  case disable =>
    intro f s hf hen hflights
    have hsame := vfReset_same f hflights
    refine ⟨_, exec_vfDisable hf hen, ?_, ?_, ?_, hsame.same .mem (by decide), hsame.same .tiles (by decide)⟩
    · exact congrArg FuncS.enabled (funcOf_setFunc_same f _ _)
    · exact congrArg FuncS.inFlr (funcOf_setFunc_same f _ _)
    · rw [countVfs_regsBut _ _ (by decide), rd_setFunc, rd_vfReset, rd_resetFunc_below f hflights (by decide)]

end Sys2Proof.Machine
end

/-! ### Descriptors checked, and completed by NOP (03 R88–R98)

The checks are read off in their order. A final record is counted and leaves in two posted writes: what it shows is said once, for
every status. -/

section
namespace Sys2Proof.Machine

/-! #### The checks in their order (03 R88, R90) -/

theorem not_badClass {s : State} {p : Nat} {d : BitVec 512} (hcls : dClass d ≤ 5) (hmask : (classMask s p).testBit (dClass d) = true) :
    ¬ (5 < dClass d ∨ (classMask s p).testBit (dClass d) = false) := by
  rintro (h | h)
  · exact absurd hcls (Nat.not_le.2 h)
  · exact Bool.noConfusion (h.symm.trans hmask)

theorem classCheck_of_badClass {s : State} {p : Nat} {d : BitVec 512}
    (h : 5 < dClass d ∨ (classMask s p).testBit (dClass d) = false) : classCheck s p d = some 0x13 := by
  rw [classCheck, if_pos h]

theorem classCheck_of_admitted {s : State} {p : Nat} {d : BitVec 512} (hcls : dClass d ≤ 5)
    (hmask : (classMask s p).testBit (dClass d) = true) :
    classCheck s p d = (opClasses (dOpcode d)).elim (some 0x12) fun m => if m.testBit (dClass d) then none else some 0x13 := by
  rw [classCheck, if_neg (not_badClass hcls hmask)]
  cases opClasses (dOpcode d) <;> rfl

theorem preCheck_of_fails {s : State} {p : Nat} {d : BitVec 512} {st : Nat} (o : OpRules) (h : classCheck s p d = some st) :
    preCheck s p d o = some st := by rw [preCheck, h]

theorem preCheck_of_passes {s : State} {p : Nat} {d : BitVec 512} (o : OpRules) (h : classCheck s p d = none) :
    preCheck s p d o = midChecks s d o := by rw [preCheck, h]

/-- Settles O16: checks 2 to 4 are read off the class and the opcode, the later ones stand in `midChecks` in their order. -/
theorem descriptorChecksInOrder : Obligations.DescriptorChecksInOrder := by
  refine ⟨?badClass, ?unlisted, ?listed, ?refused, ?badDescriptor⟩
  case badClass => exact fun s p d o h => preCheck_of_fails o (classCheck_of_badClass h)
  case unlisted =>
    intro s p d o hcls hmask hop
    exact preCheck_of_fails o (by rw [classCheck_of_admitted hcls hmask, hop]; rfl)
  case listed =>
    intro s p m d o hcls hmask hop
    have hcheck : classCheck s p d = if m.testBit (dClass d) then none else some 0x13 := by
      rw [classCheck_of_admitted hcls hmask, hop]; rfl
    cases hbit : m.testBit (dClass d) with
    | false =>
      rw [hbit] at hcheck
      rw [if_pos rfl]
      exact preCheck_of_fails o hcheck
    | true =>
      rw [hbit] at hcheck
      rw [if_neg (by decide), preCheck_of_passes o hcheck]
      rfl
  case refused =>
    intro r op st o go s d hflight hop hturn hcheck
    simp [runDesc, hflight, hop, hturn, hcheck]
  case badDescriptor =>
    intro r d st s hflight hcheck
    change execBadDescriptor r s = _
    simp [execBadDescriptor, hflight, hcheck]

/-! #### What leaves with a record -/

/-- A message is issued or not: what has left before stays. -/
theorem issueOrHold_msix_out (p : Nat) (f g : FuncIx) (v : Nat) (s : State) :
    ∃ l, (issueOrHold p f (.out (.msix g v)) s).out = s.out ++ l := by
  simp only [issueOrHold, issue]
  split
  · split
    · exact ⟨[.msix g v], rfl⟩
    · split <;> exact ⟨[], (List.append_nil _).symm⟩
  · exact ⟨[], (List.append_nil _).symm⟩

theorem maybeSignal_out (p : Nat) (s : State) : ∃ l, (maybeSignal p s).out = s.out ++ l := by
  unfold maybeSignal
  split
  · exact issueOrHold_msix_out p _ _ _ (disarmed p s)
  · exact ⟨[], (List.append_nil _).symm⟩

theorem reserved_maybeSignal (p : Nat) (s : State) : (pairOf (maybeSignal p s) p).reserved = (pairOf s p).reserved := by
  unfold maybeSignal
  split
  · rw [pairOf_signalPair]
  · rfl

/-- Host address of the slot at the producer index. -/
abbrev slotAddrOf (s : State) (p : Nat) : Dword :=
  BitVec.ofNat 64 ((rd s (pairReg p 0xC)).toNat * 2 ^ 32 + (rd s (pairReg p 8)).toNat + 32 * ((cqProd s p).toNat % cqDepth s p))

/-- The bytes of a record at the producer index. -/
abbrev slotBytes (s : State) (p : Nat) (r : Rec) : List Byte :=
  recBytes s (phaseOf (cqProd s p) (pairOf s p).cqWrap (cqLog2 s p)) (pairOf s p).lost r

/-- The two posted writes of a record, byte 0 last (03 R95). -/
def recordWrites (s : State) (p : Nat) (r : Rec) : List Output :=
  [.hostWrite (pairFunc s p) (slotAddrOf s p + 4) ((slotBytes s p r).drop 4),
   .hostWrite (pairFunc s p) (slotAddrOf s p) ((slotBytes s p r).take 4)]

/-- Registers in which two states may differ where a record is only counted. -/
def countersBut (s t : State) : Prop := ∀ o, o < 0x30000 ∨ 0x31000 ≤ o → rd t o = rd s o

theorem countersBut.pairReg_eq {s t : State} (h : countersBut s t) {p : Nat} (hp : p < 256) {o : Nat} (ho : o < 0x40) :
    rd t (pairReg p o) = rd s (pairReg p o) := h _ (.inl (lt_trans (pairReg_lt hp ho) (by decide)))

/-- A record reads the registers, the time and the pair alone. -/
theorem recordWrites_congr {s t : State} {p : Nat} (hp : p < 256) (r : Rec) (hregs : countersBut s t) (htime : t.time = s.time)
    (hpairs : t.pairs = s.pairs) : recordWrites t p r = recordWrites s p r := by
  have hpair : ∀ o < 0x40, rd t (pairReg p o) = rd s (pairReg p o) := fun o ho => hregs.pairReg_eq hp ho
  have hboot : rd t 0xE0000 = rd s 0xE0000 := hregs _ (.inr (by decide))
  have hstatus : rd t timeStatus = rd s timeStatus := hregs _ (.inl (by decide))
  simp only [recordWrites, slotAddrOf, slotBytes, recBytes, pairFunc, cqDepth, cqLog2, cqProd, untested, timeState, mainCounter, nowUnits,
    followUnits, rdb, rdf, pairOf_congr hpairs, htime, hboot, hstatus, hpair 0x10 (by decide), hpair 0x28 (by decide),
    hpair 0xC (by decide), hpair 8 (by decide)]

/-- The state with the record issued or held, and the ring moved on. -/
def recWritten (p : Nat) (r : Rec) (s : State) : State :=
  setPair p { pairOf s p with
      lost := false, cqWrap := (pairOf s p).cqWrap ^^ decide (cqProd s p = 0xFFFF), unsignalled := (pairOf s p).unsignalled + 1,
      firstPending := if (pairOf s p).unsignalled = 0 then s.clk else (pairOf s p).firstPending,
      reserved := if recFinal r then (pairOf s p).reserved - 1 else (pairOf s p).reserved,
      lastUrgent := r.urgent || decide (0x10 ≤ r.status) }
    (wr (pairReg p 0x28) ((cqProd s p + 1).setWidth 32)
      (issueOrHold p (pairFunc s p)
        (.record (pairFunc s p) (slotAddrOf s p) (phaseOf (cqProd s p) (pairOf s p).cqWrap (cqLog2 s p)) (pairOf s p).lost r) s))

theorem writeRec_eq (p : Nat) (r : Rec) (s : State) : writeRec p r s = maybeSignal p (recWritten p r s) := rfl

theorem recWritten_out {p : Nat} (r : Rec) {s : State} (hbme : (funcOf s (pairFunc s p)).bme = true) :
    (recWritten p r s).out = s.out ++ recordWrites s p r := by
  rw [recWritten, issueOrHold, if_pos hbme]
  exact List.append_assoc s.out [_] [_]

/-- A final record that may leave: its two writes leave first, its reservation is used and the producer index rises. -/
theorem writeRec_shows {p : Nat} {r : Rec} {s : State} (hfinal : recFinal r = true) (hbme : (funcOf s (pairFunc s p)).bme = true) :
    (∃ l, (writeRec p r s).out = s.out ++ recordWrites s p r ++ l) ∧
      (pairOf (writeRec p r s) p).reserved = (pairOf s p).reserved - 1 ∧ cqProd (writeRec p r s) p = cqProd s p + 1 := by
  rw [writeRec_eq]
  refine ⟨?out, ?reserved, ?index⟩
  case out =>
    rw [← recWritten_out r hbme]
    exact maybeSignal_out p _
  case reserved =>
    rw [reserved_maybeSignal, recWritten, pairOf_setPair_same]
    exact if_pos hfinal
  case index =>
    have hregs : (maybeSignal p (recWritten p r s)).regs = (recWritten p r s).regs :=
      (maybeSignal_does (fs₀ := [.pairs, .funcs, .out]) (Does.refl _ _) rfl).same .regs (by decide)
    rw [cqProd, rd, hregs]
    exact (congrArg (BitVec.setWidth 16) (rd_wr_same (pairReg p 0x28) _ _)).trans (setWidth_setWidth_index _)

/-! #### NOP -/

theorem exec_nop {r : DRef} {d : BitVec 512} {s : State} (h : Ready s r d 0 {}) :
    exec (.nop r) s = .next (finish r (okStatus false false s) 0 0 0 0 [] s) := by
  change execNop r s = _
  rw [execNop, runDesc_of_ready h]

/-- The descriptor is in flight no more, and the ledger has changed. -/
def landed (r : DRef) (s : State) : State :=
  { s with flights := s.flights.filter (fun g => decide (g.ref ≠ r)), fault := { s.fault with dirty := true } }

/-- The final record counted, its descriptor in flight no more. -/
def finalCounted (r : DRef) (c : Rec) (s : State) : State := countRec c (landed r s)

/-- A final record without results or data is counted and put on the pair's ring. -/
theorem finish_of_flight {r : DRef} {f : Flight} (status disp : Nat) {s : State} (h : flightOf s r = some f) :
    finish r status disp 0 0 0 [] s =
      putBatch r.pair ⟨[], some (descRec r f.desc status disp)⟩ (finalCounted r (descRec r f.desc status disp) s) := by
  rw [finish, h]
  rfl

/-- A batch of a final record alone that may leave is that record written. -/
theorem putBatch_of_open {p : Nat} {c : Rec} {s : State} (hinterim : c.interim = false) (hbme : (funcOf s (pairFunc s p)).bme = true)
    (hwait : (pairOf s p).waiting = []) : putBatch p ⟨[], some c⟩ s = writeRec p c s := by
  simp [putBatch, batchFits, hbme, hwait, putRec, hinterim, issueData]

theorem finalCounted_same (r : DRef) (c : Rec) (s : State) : Does [.regs, .flights, .fault] s (finalCounted r c s) :=
  countRec_does ((Does.refl _ s).congr rfl rfl rfl rfl rfl (t := s) (u := landed r s) fun f hf => by
    cases f with
    | flights => exact absurd hf (by decide)
    | fault => exact absurd hf (by decide)
    | _ => rfl) rfl

theorem finalCounted_countersBut (r : DRef) (c : Rec) (s : State) : countersBut s (finalCounted r c s) := fun _ ho =>
  rd_countRec c (landed r s) ho

/-- A final record of a ring on which nothing waits, its function a bus master: what leaves first is the record, its reservation is
used, and the producer index rises. -/
theorem finish_shows {r : DRef} {f : Flight} (status disp : Nat) {s : State} (hflight : flightOf s r = some f)
    (hbme : (funcOf s (pairFunc s r.pair)).bme = true) (hwait : (pairOf s r.pair).waiting = []) :
    (∃ l, (finish r status disp 0 0 0 [] s).out = s.out ++ recordWrites s r.pair (descRec r f.desc status disp) ++ l) ∧
      (pairOf (finish r status disp 0 0 0 [] s) r.pair).reserved = (pairOf s r.pair).reserved - 1 ∧
      cqProd (finish r status disp 0 0 0 [] s) r.pair = cqProd s r.pair + 1 := by
  have hp : r.pair.val < 256 := r.pair.isLt
  have hsame := finalCounted_same r (descRec r f.desc status disp) s
  have hregs := finalCounted_countersBut r (descRec r f.desc status disp) s
  have hpairs := hsame.same .pairs (by decide)
  have hfunc : pairFunc (finalCounted r (descRec r f.desc status disp) s) r.pair = pairFunc s r.pair := by
    rw [pairFunc, rdf, hregs.pairReg_eq hp (by decide)]; rfl
  have hbme' : (funcOf (finalCounted r (descRec r f.desc status disp) s)
      (pairFunc (finalCounted r (descRec r f.desc status disp) s) r.pair)).bme = true := by
    rw [hfunc, funcOf_congr (hsame.same .funcs (by decide))]; exact hbme
  have hfinish : finish r status disp 0 0 0 [] s =
      writeRec r.pair (descRec r f.desc status disp) (finalCounted r (descRec r f.desc status disp) s) := by
    rw [finish_of_flight _ _ hflight]
    exact putBatch_of_open rfl hbme' (by rw [pairOf_congr hpairs]; exact hwait)
  obtain ⟨hwrites, hreserved, hprod⟩ := writeRec_shows (r := descRec r f.desc status disp) rfl hbme'
  rw [recordWrites_congr hp _ hregs (hsame.same .time (by decide)) hpairs,
    show (finalCounted r (descRec r f.desc status disp) s).out = s.out from hsame.same .out (by decide)] at hwrites
  rw [pairOf_congr hpairs] at hreserved
  rw [cqProd, cqProd, hregs.pairReg_eq hp (by decide)] at hprod
  rw [hfinish]
  exact ⟨hwrites, hreserved, hprod⟩

/-- Settles O15: the record leaves in its two writes, and its success value is the first that applies. -/
theorem finalRecordWritten : Obligations.FinalRecordWritten := by
  refine ⟨?nop, ?coarse, ?other⟩
  case nop =>
    intro r d s hready hbme hwait
    have hflight := hready.1
    obtain ⟨⟨l, hwrites⟩, hreserved, hprod⟩ := finish_shows (okStatus false false s) 0 hflight hbme hwait
    have hsame := finish_same r (okStatus false false s) 0 0 0 0 [] s
    refine ⟨_, exec_nop hready, flightOf_finish .., hreserved, hprod, hsame.same .mem (by decide), hsame.same .tiles (by decide), ?_⟩
    rw [hwrites, List.append_assoc, List.drop_left]
    rfl
  case coarse =>
    intro retaken s h
    rw [okStatus, h]
    rfl
  case other =>
    intro timeDep s h
    have hcoarse : (timeDep && holdoverExpired s) = false := by rcases h with h | h <;> simp [h]
    refine ⟨?_, fun hun => ?_, fun hun => ?_⟩
    · rw [okStatus, hcoarse]; rfl
    · rw [okStatus, hcoarse, hun]; rfl
    · rw [okStatus, hcoarse, hun]; rfl

end Sys2Proof.Machine
end

/-! ### Descriptors fetched (03 R86, R92, R93, R484; 12 R350; 14 R419)

A read of a descriptor leaves the registers, the pairs and the flights; consuming it moves the consumer index, the pair and, where the
committed HORIZON is reached, the ledger. Each way of a fetch is put together from the two. -/

section
namespace Sys2Proof.Machine

/-! #### States that agree on what a fetch looks at -/

/-- Nothing of what a fetch looks at or keeps differs: the clock may have run, and something left. -/
abbrev ReadOnly (s t : State) : Prop := Does [.clk, .time, .out, .fetchTurn] s t

theorem sqCons_congr {s t : State} (h : t.regs = s.regs) (p : Nat) : sqCons t p = sqCons s p := by
  rw [sqCons, rd_congr h, sqCons]

theorem phaseOk_readOnly {s t : State} (h : ReadOnly s t) (p : Nat) (d : BitVec 512) : phaseOk t p d = phaseOk s p d := by
  have hregs := h.same .regs (by decide)
  rw [phaseOk, phaseOk, sqCons_congr hregs, pairOf_congr (h.same .pairs (by decide)), sqLog2, rdf, rd_congr hregs]
  rfl

theorem fenceOpen_readOnly {s t : State} (h : ReadOnly s t) (p : Nat) : fenceOpen t p = fenceOpen s p := by
  have hflights : t.flights = s.flights := h.same .flights (by decide)
  rw [fenceOpen, hflights, fenceOpen]

/-! #### Consuming a descriptor -/

/-- The pair once a descriptor at index `i` is consumed. -/
def pairConsumed (i : BitVec 16) (x : PairS) : PairS :=
  { x with reserved := x.reserved + 1, retries := 0, atFence := false, sqWrap := x.sqWrap ^^ decide (i = 0xFFFF) }

/-- The HORIZON reached moves on by at most 64 (14 R419). -/
def nextHorizon (s : State) (p : Nat) : BitVec 16 := sqCons s p + BitVec.ofNat 16 (min 64 (sqProd s p - sqCons s p).toNat)

theorem moveHorizon_of_behind {p : Nat} {s : State} (h : (pairOf s p).horizon ≠ sqCons s p) : moveHorizon p s = s := by
  rw [moveHorizon, if_neg h]

theorem moveHorizon_of_reached {p : Nat} {s : State} (h : (pairOf s p).horizon = sqCons s p) :
    moveHorizon p s = ledgerCommit (setPair p { pairOf s p with horizon := nextHorizon s p } s) := by
  rw [moveHorizon, if_pos h, nextHorizon]

theorem moveHorizon_regsBut (p : Nat) (s : State) : regsBut [0x50044] s (moveHorizon p s) := by
  unfold moveHorizon
  split
  · exact (regsBut.of_regs_eq (setPair_regs ..) _).trans (ledgerCommit_regsBut _) (List.Subset.refl _)
  · exact regsBut.refl _ s

theorem moveHorizon_same (p : Nat) (s : State) : Does [.regs, .pairs, .fault, .hold] s (moveHorizon p s) :=
  moveHorizon_does (Does.refl _ s) rfl

/-- Of the pair only the HORIZON moves. -/
theorem pairOf_moveHorizon (p : Nat) (s : State) :
    pairOf (moveHorizon p s) p = { pairOf s p with
      horizon := if (pairOf s p).horizon = sqCons s p then nextHorizon s p else (pairOf s p).horizon } := by
  by_cases h : (pairOf s p).horizon = sqCons s p
  · have hcommit : ∀ u : State, (ledgerCommit u).pairs = u.pairs := fun u =>
      (ledgerCommit_does (fs₀ := [.regs, .fault, .hold]) (Does.refl _ u) rfl).same .pairs (by decide)
    rw [moveHorizon_of_reached h, pairOf_congr (hcommit _), pairOf_setPair_same, if_pos h]
  · rw [moveHorizon_of_behind h, if_neg h]

theorem sqCons_moveHorizon {p : Nat} (hp : p < 256) (s : State) : sqCons (moveHorizon p s) p = sqCons s p := by
  have hlt := pairReg_lt hp (o := 0x20) (by decide)
  rw [sqCons, moveHorizon_regsBut p s _ (by simp only [List.mem_singleton]; omega), sqCons]

theorem sqCons_consume (p : PairIx) (d : BitVec 512) (s : State) : sqCons (consume p d s) p = sqCons s p + 1 := by
  have hwrite : rd (consume p d s) (pairReg p 0x20) = (sqCons (moveHorizon p s) p + 1).setWidth 32 := rd_wr_same ..
  rw [sqCons, hwrite, setWidth_setWidth_index, sqCons_moveHorizon p.isLt]

theorem flights_consume (p : PairIx) (d : BitVec 512) (s : State) :
    (consume p d s).flights = s.flights ++ [⟨⟨p, sqCons s p⟩, d, false⟩] := by
  have hflights : (consume p d s).flights = (moveHorizon p s).flights ++ [⟨⟨p, sqCons (moveHorizon p s) p⟩, d, false⟩] := rfl
  have hmoved : (moveHorizon p s).flights = s.flights := (moveHorizon_same p s).same .flights (by decide)
  rw [hflights, hmoved, sqCons_moveHorizon p.isLt]

theorem pairOf_consume (p : PairIx) (d : BitVec 512) (s : State) :
    pairOf (consume p d s) p = pairConsumed (sqCons s p) (pairOf (moveHorizon p s) p) := by
  rw [consume, pairOf_setPair_same, sqCons_moveHorizon p.isLt, pairConsumed]

theorem consume_regsBut (p : PairIx) (d : BitVec 512) (s : State) : regsBut [pairReg p 0x20, 0x50044] s (consume p d s) :=
  ((moveHorizon_regsBut p s).mono (by simp)).trans (wr_regsBut (pairReg p 0x20) _ (moveHorizon p s)) (by simp)

/-- Short of the HORIZON only the consumer index is written. -/
theorem consume_regsBut_of_behind {p : PairIx} (d : BitVec 512) {s : State} (h : (pairOf s p).horizon ≠ sqCons s p) :
    regsBut [pairReg p 0x20] s (consume p d s) := by
  have hwrite : regsBut [pairReg p 0x20] (moveHorizon p s) (consume p d s) := wr_regsBut (pairReg p 0x20) _ (moveHorizon p s)
  rwa [moveHorizon_of_behind h] at hwrite

theorem consume_same (p : PairIx) (d : BitVec 512) (s : State) : Does [.regs, .pairs, .flights, .fault, .hold] s (consume p d s) :=
  consume_does (Does.refl _ s) rfl

/-- What a descriptor consumed after a read shows of the state before the read. -/
theorem consume_shows {p : PairIx} (d : BitVec 512) {s u : State} (hu : ReadOnly s u) :
    sqCons (consume p d u) p = sqCons s p + 1 ∧ (consume p d u).flights = s.flights ++ [⟨⟨p, sqCons s p⟩, d, false⟩] ∧
      (pairOf (consume p d u) p).reserved = (pairOf s p).reserved + 1 ∧ (consume p d u).mem = s.mem ∧
      (consume p d u).tiles = s.tiles := by
  have hcons := sqCons_congr (hu.same .regs (by decide)) p
  have hsame := consume_same p d u
  refine ⟨?cons, ?flights, ?reserved, (hsame.same .mem (by decide)).trans (hu.same .mem (by decide)),
    (hsame.same .tiles (by decide)).trans (hu.same .tiles (by decide))⟩
  case cons => rw [sqCons_consume, hcons]
  case flights => rw [flights_consume, hcons, show u.flights = s.flights from hu.same .flights (by decide)]
  case reserved => rw [pairOf_consume, pairOf_moveHorizon, pairConsumed, pairOf_congr (hu.same .pairs (by decide))]

theorem consume_regsBut_of_read {p : PairIx} (d : BitVec 512) {s u : State} (hu : ReadOnly s u)
    (h : (pairOf s p).horizon ≠ sqCons s p) : regsBut [pairReg p 0x20] s (consume p d u) := by
  refine (regsBut.of_regs_eq (hu.same .regs (by decide)) _).trans (consume_regsBut_of_behind d ?_) (List.Subset.refl _)
  rw [pairOf_congr (hu.same .pairs (by decide)), sqCons_congr (hu.same .regs (by decide))]
  exact h

theorem takeDesc_of_open {p : PairIx} {d : BitVec 512} {s : State} (h : dFence d = true → fenceOpen s p = true) :
    takeDesc p d s = consume p d s := by
  have hgo : (dFence d && !fenceOpen s p) = false := by
    cases hfence : dFence d with
    | false => rfl
    | true => rw [h hfence]; rfl
  rw [takeDesc, hgo]
  rfl

/-! #### The first read, and a re-read -/

/-- The descriptor read, the turn passed on. -/
def fetched (p : PairIx) (s : State) : State := passTurn p (readDesc p s)

theorem fetched_readOnly (p : PairIx) (s : State) : ReadOnly s (fetched p s) := passTurn_does (readDesc_does (Does.refl _ s) rfl) rfl

theorem fetched_clk (p : PairIx) (s : State) : (fetched p s).clk = s.clk := by
  have hsame : Does [.out, .fetchTurn] s (fetched p s) := passTurn_does (readDesc_does (Does.refl _ s) rfl) rfl
  exact hsame.same .clk (by decide)

theorem fetched_out (p : PairIx) (s : State) : (fetched p s).out = (readDesc p s).out :=
  (passTurn_does (fs₀ := [.fetchTurn]) (Does.refl _ _) rfl).same .out (by decide)

theorem exec_descriptorFetch {p : PairIx} (d : BitVec 512) {s : State} (h : fetchNext s = some p.val) :
    exec (.descriptorFetch p d) s =
      .next (if phaseOk s p d then takeDesc p d (fetched p s)
        else setPair p { pairOf (fetched p s) p with retries := 1, readAt := (fetched p s).clk } (fetched p s)) := by
  change execDescriptorFetch p d s = _
  rw [execDescriptorFetch, if_pos h]
  rfl

/-- The descriptor read again, 2 us after the last read. -/
def reread (p : PairIx) (s : State) : State := readDesc p (runToClk ((pairOf s p).readAt + 2 * ticksUs) s)

theorem reread_readOnly (p : PairIx) (s : State) : ReadOnly s (reread p s) :=
  readDesc_does ((runToClk_same _ s).mono rfl) rfl

theorem reread_clk (p : PairIx) (s : State) : (reread p s).clk = max s.clk ((pairOf s p).readAt + 2 * ticksUs) :=
  runToClk_clk _ s

theorem exec_descriptorPhaseRetry {p : PairIx} (d : BitVec 512) {s : State} (hmay : mayFetch s p = true)
    (hretry : 1 ≤ (pairOf s p).retries) :
    exec (.descriptorPhaseRetry p d) s =
      .next (if phaseOk (reread p s) p d then takeDesc p d (reread p s)
        else if (pairOf (reread p s) p).retries < 4 then
          setPair p { pairOf (reread p s) p with retries := (pairOf (reread p s) p).retries + 1, readAt := (reread p s).clk } (reread p s)
        else refuse ⟨p, sqCons (reread p s) p⟩ 0x10 (consume p d (reread p s))) := by
  change execDescriptorPhaseRetry p d s = _
  rw [execDescriptorPhaseRetry, if_pos (by rw [hmay, decide_eq_true hretry]; rfl)]
  rfl

/-! #### A read that fails -/

theorem rd_wrMany_below (vs : List Word) {base o : Nat} (s : State) (h : o < base) : rd (wrMany base vs s) o = rd s o := by
  induction vs generalizing base s with
  | nil => rfl
  | cons v vs ih => rw [wrMany, ih _ (by omega), rd_wr_other _ _ (by omega)]

/-- The fault log lies above every register of the pairs. -/
theorem rd_logFault_below (u : Nat × Nat) (kind cause action mode : Nat) (ids : Word × Nat × BitVec 16) (detail : Dword) (s : State)
    {o : Nat} (h : o < 0x50000) : rd (logFault u kind cause action mode ids detail s) o = rd s o := by
  unfold logFault
  dsimp only
  exact (rd_wr_other (o := 0x50028) _ (wrMany _ _ s) (by omega)).trans (rd_wrMany_below _ s (by omega))

theorem rd_logDmaError_below (r : DRef) (tagged : Bool) (s : State) {o : Nat} (h : o < 0x50000) :
    rd (logDmaError r tagged s) o = rd s o := by
  rw [logDmaError, raise_regsBut _ _ _ _ (by simp only [faultEvent, List.mem_singleton]; omega),
    bump_regsBut _ _ _ _ (by simp only [List.mem_singleton]; omega), rd_logFault_below _ _ _ _ _ _ _ _ h]

/-- A final record leaves every register but two of its pair and the counters of records. -/
theorem rd_finish_other (r : DRef) (status disp : Nat) (result : Dword) (progress : Nat) (faultRef : Word)
    (data : List (Dword × List Byte)) (s : State) {o : Nat} (hpair : o ∉ [pairReg r.pair 0x28, pairReg r.pair 0x38])
    (hcount : o < 0x30000 ∨ 0x31000 ≤ o) : rd (finish r status disp result progress faultRef data s) o = rd s o := by
  unfold finish
  split
  · rfl
  · dsimp only
    rw [putBatch_regsBut _ _ _ o hpair, rd_countRec _ _ hcount]
    rfl

/-- The descriptor consumed, SQ_FAULT set and the error logged. -/
def faultLogged (p : PairIx) (s : State) : State :=
  logDmaError ⟨p, sqCons s p⟩ false (wrf (pairReg p 0x30) 4 4 1 (consume p 0 (readDesc p s)))

theorem badRead_eq (p : PairIx) (s : State) :
    badRead p s = finish ⟨p, sqCons s p⟩ 0x11 10 0 0 (refOf (7, p.val) (faultLogged p s)) [] (faultLogged p s) := rfl

/-- A register of the pair that its records leave shows what the consumption and SQ_FAULT made of it. -/
theorem rd_badRead_pairReg (p : PairIx) (s : State) {o : Nat} (ho : o < 0x40) (hrec : o ∉ [0x28, 0x38]) :
    rd (badRead p s) (pairReg p o) = rd (wrf (pairReg p 0x30) 4 4 1 (consume p 0 (readDesc p s))) (pairReg p o) := by
  have hlt := pairReg_lt p.isLt ho
  rw [badRead_eq, rd_finish_other _ _ _ _ _ _ _ _ (by simpa [pairReg_inj] using hrec) (.inl (by omega)), faultLogged,
    rd_logDmaError_below _ _ _ (by omega)]

theorem badRead_shows (p : PairIx) (s : State) :
    sqCons (badRead p s) p = sqCons s p + 1 ∧ rdb (badRead p s) (pairReg p 0x30) 4 = true ∧
      rdb (badRead p s) (pairReg p 0x30) 2 = rdb s (pairReg p 0x30) 2 ∧ rdb (badRead p s) faultEvent 1 = true ∧
      (badRead p s).mem = s.mem ∧ (badRead p s).tiles = s.tiles := by
  have hread : ReadOnly s (readDesc p s) := readDesc_does (Does.refl _ s) rfl
  have hsame : Does [.regs, .pairs, .funcs, .flights, .fault, .hold, .out] s (badRead p s) := badRead_does (Does.refl _ s) rfl
  have hlt := pairReg_lt p.isLt (o := 0x30) (by decide)
  refine ⟨?cons, ?fault, ?dbErr, ?event, hsame.same .mem (by decide), hsame.same .tiles (by decide)⟩
  case cons =>
    obtain ⟨hcons, -⟩ := consume_shows (p := p) 0 hread
    rw [sqCons, rd_badRead_pairReg p s (by decide) (by decide), wrf_regsBut _ _ _ _ _ _ (by simp [pairReg_inj])]
    exact hcons
  case fault =>
    rw [rdb, rd_badRead_pairReg p s (by decide) (by decide)]
    change rdb (wrf _ _ _ _ _) _ _ = true
    rw [rdb_wrf _ _ _ _ _ _ _ (by decide) (by decide), if_pos ⟨rfl, by decide⟩]
    rfl
  case dbErr =>
    rw [rdb, rd_badRead_pairReg p s (by decide) (by decide)]
    change rdb (wrf _ _ _ _ _) _ _ = _
    rw [rdb_wrf _ _ _ _ _ _ _ (by decide) (by decide), if_neg (by omega),
      (consume_regsBut p 0 _).rdb_eq (by simp only [List.mem_cons, List.not_mem_nil, or_false, pairReg_inj]; omega)]
    rfl
  case event =>
    rw [badRead_eq, rdb, rd_finish _ _ _ _ _ _ _ _ (by decide) (by decide)]
    exact rdb_raise faultEvent 1 _ (by decide)

/-! #### Whose turn it is (12 R350) -/

/-- While a pair that admits PHY alone has a descriptor to fetch, the pair fetched next is such a pair. -/
theorem phyOnly_of_fetchNext {s : State} {p q : Nat} (hp : p < 256) (hwants : wantsFetch s p = true) (hphy : phyOnly s p = true)
    (hnext : fetchNext s = some q) : phyOnly s q = true := by
  have hsome : ((List.range 256).find? fun p => wantsFetch s p && phyOnly s p).isSome = true := by
    rw [List.find?_isSome]
    exact ⟨p, List.mem_range.2 hp, by rw [hwants, hphy]; rfl⟩
  obtain ⟨k, hk⟩ := Option.isSome_iff_exists.1 hsome
  rw [fetchNext, hk] at hnext
  obtain rfl := Option.some.inj hnext
  have hfound : (wantsFetch s k && phyOnly s k) = true := List.find?_some (p := fun p => wantsFetch s p && phyOnly s p) hk
  exact (Bool.and_eq_true_iff.1 hfound).2

theorem exec_descriptorFetch_of_not_next {p : PairIx} (d : BitVec 512) {s : State} (h : fetchNext s ≠ some p.val) :
    exec (.descriptorFetch p d) s = .next s := by
  change execDescriptorFetch p d s = _
  rw [execDescriptorFetch, if_neg h]

theorem exec_descriptorReadError (p : PairIx) {s : State}
    (h : fetchNext s = some p.val ∨ (mayFetch s p = true ∧ 1 ≤ (pairOf s p).retries)) :
    ∃ u, ReadOnly s u ∧ exec (.descriptorReadError p) s = .next (badRead p u) := by
  change ∃ u, ReadOnly s u ∧ execDescriptorReadError p s = _
  unfold execDescriptorReadError
  by_cases hnext : fetchNext s = some p.val
  · exact ⟨passTurn p s, passTurn_does (Does.refl _ s) rfl, by rw [if_pos hnext]⟩
  · obtain ⟨hmay, hretry⟩ := h.resolve_left hnext
    exact ⟨_, (runToClk_same _ s).mono rfl, by rw [if_neg hnext, if_pos (by rw [hmay, decide_eq_true hretry]; rfl)]⟩

/-! #### The statement -/

/-- Settles O14, a clause for each way of a read. -/
theorem fetchConsumesOneDescriptor : Obligations.FetchConsumesOneDescriptor := by
  refine ⟨?behind, ?reached, ?fenced, ?mismatch, ?retryOk, ?retryMismatch, ?malformed, ?readError, ?phyFirst⟩
  case behind =>
    intro p d s hnext hphase hfence hhorizon
    have hread := fetched_readOnly p s
    obtain ⟨hcons, hflights, hreserved, hmem, htiles⟩ := consume_shows (p := p) d hread
    refine ⟨consume p d (fetched p s), ?_, hcons, hflights, hreserved, consume_regsBut_of_read d hread hhorizon, hmem, htiles,
      ((consume_same p d _).same .out (by decide)).trans (fetched_out p s)⟩
    rw [exec_descriptorFetch d hnext, if_pos hphase, takeDesc_of_open (by rwa [fenceOpen_readOnly hread])]
  case reached =>
    intro p d s hnext hphase hfence hhorizon
    have hread := fetched_readOnly p s
    have hregs := hread.same .regs (by decide)
    obtain ⟨hcons, hflights, hreserved, hmem, htiles⟩ := consume_shows (p := p) d hread
    refine ⟨consume p d (fetched p s), ?_, hcons, hflights, hreserved, ?_,
      (regsBut.of_regs_eq hregs _).trans (consume_regsBut p d _) (List.Subset.refl _), hmem, htiles⟩
    · rw [exec_descriptorFetch d hnext, if_pos hphase, takeDesc_of_open (by rwa [fenceOpen_readOnly hread])]
    · rw [pairOf_consume, pairOf_moveHorizon, pairOf_congr (hread.same .pairs (by decide)), sqCons_congr hregs, if_pos hhorizon,
        nextHorizon, sqCons_congr hregs, sqProd, rd_congr hregs]
      rfl
  case fenced =>
    intro p d s hnext hphase hfence hclosed
    have hread := fetched_readOnly p s
    refine ⟨setPair p { pairOf (fetched p s) p with retries := 0, atFence := true } (fetched p s), ?_, ?_,
      hread.same .flights (by decide), hread.same .regs (by decide), hread.same .mem (by decide), hread.same .tiles (by decide)⟩
    · rw [exec_descriptorFetch d hnext, if_pos hphase, takeDesc, hfence, fenceOpen_readOnly hread, hclosed]
      rfl
    · rw [pairOf_setPair_same]
  case mismatch =>
    intro p d s hnext hphase
    have hread := fetched_readOnly p s
    refine ⟨_, exec_descriptorFetch d hnext, ?_⟩
    rw [hphase, if_neg (by decide)]
    dsimp only
    rw [pairOf_setPair_same]
    exact ⟨rfl, fetched_clk p s, hread.same .flights (by decide), hread.same .regs (by decide), hread.same .mem (by decide),
      hread.same .tiles (by decide)⟩
  case retryOk =>
    intro p d s hmay hretry hphase hfence hhorizon
    have hread := reread_readOnly p s
    obtain ⟨hcons, hflights, hreserved, hmem, htiles⟩ := consume_shows (p := p) d hread
    refine ⟨consume p d (reread p s), ?_, hcons, hflights, hreserved, ?_,
      ((consume_same p d _).same .clk (by decide)).trans (reread_clk p s), consume_regsBut_of_read d hread hhorizon, hmem, htiles⟩
    · rw [exec_descriptorPhaseRetry d hmay hretry, phaseOk_readOnly hread, if_pos hphase,
        takeDesc_of_open (by rwa [fenceOpen_readOnly hread])]
    · rw [pairOf_consume, pairConsumed]
  case retryMismatch =>
    intro p d s hmay hretry hfew hphase
    have hread := reread_readOnly p s
    have hpair := pairOf_congr (hread.same .pairs (by decide)) p
    refine ⟨setPair p { pairOf (reread p s) p with retries := (pairOf (reread p s) p).retries + 1, readAt := (reread p s).clk }
      (reread p s), ?_, ?_, ?_, hread.same .flights (by decide), hread.same .regs (by decide), reread_clk p s,
      hread.same .mem (by decide), hread.same .tiles (by decide)⟩
    · rw [exec_descriptorPhaseRetry d hmay hretry, phaseOk_readOnly hread, hphase, if_neg (by decide), if_pos (by rw [hpair]; exact hfew)]
    · rw [pairOf_setPair_same, hpair]
    · rw [pairOf_setPair_same, setPair_clk]
  case malformed =>
    intro p d s hmay hmany hphase
    have hread := reread_readOnly p s
    have hpair := pairOf_congr (hread.same .pairs (by decide)) p
    rw [exec_descriptorPhaseRetry d hmay (le_trans (by decide) hmany), phaseOk_readOnly hread, hphase, if_neg (by decide),
      if_neg (by rw [hpair]; exact Nat.not_lt.2 hmany), sqCons_congr (hread.same .regs (by decide)), reread]
  case readError =>
    intro p s h
    obtain ⟨u, hread, hrun⟩ := exec_descriptorReadError p h
    have hregs := hread.same .regs (by decide)
    obtain ⟨hcons, hfault, hdbErr, hevent, hmem, htiles⟩ := badRead_shows p u
    refine ⟨badRead p u, hrun, ?_, hfault, ?_, hevent, hmem.trans (hread.same .mem (by decide)),
      htiles.trans (hread.same .tiles (by decide))⟩
    · rw [hcons, sqCons_congr hregs]
    · rw [hdbErr, rdb, rd_congr hregs, rdb]
  case phyFirst =>
    intro p q d s hwants hphy hnot
    refine exec_descriptorFetch_of_not_next d fun hnext => ?_
    exact Bool.noConfusion (hnot.symm.trans (phyOnly_of_fetchNext p.isLt hwants hphy hnext))

end Sys2Proof.Machine
end

/-! ### The lock taken while a grid runs (01 R28; 02 R46; 03 R103; 13 R383)

Setting the lock on the root of the fabric's time takes a step of 0, and a step taken while a grid runs suppresses the cues before the
resume time, with the chains that wait for them. Descriptors are fetched after the lock alone, so that no chain waits before it in a run
from reset; but the statement speaks of every state, and has no premise that excludes one. -/

section
namespace Sys2Proof.Machine

/-- A chain on grid 0 with one armed step, whose cue lies at time 0. -/
def chainAtZero : Chain :=
  { ref := ⟨2, 9⟩, image := 1, grid := 0, sfn := 0, slot := 0, chain := 8,
    steps := [{ ent := { role := 0, chain := 8, entry := 0, symbol := 0, last := true, offset := 0, check := 0, deadline := 0 },
                ix := 0, tile := 0, cue := 0, state := .armed, haltAt := none, seen := [] }],
    t0 := 0, deadline := 0, fired := false, pdus := [], bound := [], pack := none, rushes := false, got := {}, ended := false }

/-- The device before the lock as the root of the fabric's time (SPLICE.TIME_CFG.ROOT), with grid 0 running and the descriptor of
`chainAtZero` in flight. -/
def runningUnlocked : State :=
  { State.reset with regs := [(0xB0010, 2)], time := { TimeS.reset with running := 1 }, chains := [chainAtZero],
                     flights := [⟨⟨2, 9⟩, 0, false⟩] }

theorem exec_setupLock_of_set {v : Word} {s : State} (hup : hostDown s = false) (hopen : locked s = false) (hv : v.getLsbD 0 = true) :
    exec (.setupLock v) s = .next (applyLock s) := by
  change execSetupLock v s = _
  rw [execSetupLock, hup, hopen, hv, if_neg (by decide)]

/-- The step that the lock takes suppresses the chain's cue, and its descriptor is refused. -/
theorem flights_applyLock_runningUnlocked : (applyLock runningUnlocked).flights = [] := by decide +kernel

/-- Refutes O6: in `runningUnlocked` the lock takes a descriptor out of flight. -/
theorem not_setupLockFreezesAndChecksPairs : ¬ Obligations.SetupLockFreezesAndChecksPairs := by
  rintro ⟨hlock, -⟩
  have hup : hostDown runningUnlocked = false := rfl
  have hopen : locked runningUnlocked = false := by decide +kernel
  obtain ⟨t, hrun, -, -, -, hflights⟩ := hlock 1 runningUnlocked hup hopen (by decide)
  rw [exec_setupLock_of_set hup hopen (by decide)] at hrun
  obtain rfl := Host.Outcome.next.inj hrun
  rw [flights_applyLock_runningUnlocked] at hflights
  exact List.cons_ne_nil _ _ hflights.symm

end Sys2Proof.Machine
end

/-! ### One instruction of a tile (04 R132; 05 R147, R149, R156)

Every statement about an instruction of a tile says the same of the state around it: the tile becomes another, the other tiles stay,
and everything else is as in a state before, which differs from the first in memory or in a counter alone. `TileMoved` says so; the
rules for the steps of a core, for the counter of bank conflicts and for the bytes of memory are stated once here. -/

section
namespace Sys2Proof.Machine

/-! #### One tile changes -/

/-- From `s` to `u` tile `n` becomes `x`, and nothing else changes. -/
def TileMoved (n : TileIx) (x : Tile) (s u : State) : Prop := tileOf u n = x ∧ onlyTile n s u ∧ u = { s with tiles := u.tiles }

theorem tileOf_setTile_other {n m : Nat} (x : Tile) (s : State) (h : m ≠ n) : tileOf (setTile n x s) m = tileOf s m := by
  rw [tileOf_setTile, if_neg h]

theorem TileMoved.refl (n : TileIx) (s : State) : TileMoved n (tileOf s n) s s := ⟨rfl, fun _ _ => rfl, rfl⟩

theorem TileMoved.setTile {n : TileIx} {x : Tile} {s u : State} (h : TileMoved n x s u) (y : Tile) :
    TileMoved n y s (setTile n y u) := by
  obtain ⟨-, hother, hrest⟩ := h
  refine ⟨tileOf_setTile_same n y u, fun m hm => (tileOf_setTile_other y u hm).trans (hother m hm), ?_⟩
  rw [hrest]
  rfl

theorem tileMoved_setTile (n : TileIx) (x : Tile) (s : State) : TileMoved n x s (setTile n x s) := (TileMoved.refl n s).setTile x

theorem TileMoved.setThread {n : TileIx} {x : Tile} {s u : State} (h : TileMoved n x s u) (t : Thr) (y : Thread) :
    TileMoved n (setThr t y x) s (setThread n t y u) := by
  have hmoved := h.setTile (setThr t y x)
  rw [← h.1] at hmoved ⊢
  exact hmoved

theorem TileMoved.threadOf_eq {n : TileIx} {x : Tile} {s u : State} (h : TileMoved n x s u) (t : Thr) : threadOf u n t = thrOf x t := by
  rw [threadOf, h.1]

@[simp] theorem setThr_setThr (t : Thr) (y z : Thread) (x : Tile) : setThr t z (setThr t y x) = setThr t z x := by
  unfold setThr
  split <;> rfl

@[simp] theorem setThr_thrOf (t : Thr) (x : Tile) : setThr t (thrOf x t) x = x := by
  unfold setThr thrOf
  split <;> rfl

/-- A tile that changed in one thread alone. -/
theorem TileMoved.onlyThread {n : TileIx} {t : Thr} {y : Thread} {s u : State} (h : TileMoved n (setThr t y (tileOf s n)) s u) :
    threadOf u n t = y ∧ onlyThread n t s u := by
  have hthread : threadOf u n t = y := (h.threadOf_eq t).trans (thrOf_setThr_same t y _)
  obtain ⟨htile, hother, hrest⟩ := h
  exact ⟨hthread, hrest, hother, by rw [hthread, htile]⟩

theorem tileOf_congr {s t : State} (h : t.tiles = s.tiles) (n : Nat) : tileOf t n = tileOf s n := by
  rw [tileOf, h]
  rfl

theorem threadOf_congr {s t : State} (h : t.tiles = s.tiles) (n : Nat) (k : Thr) : threadOf t n k = threadOf s n k := by
  rw [threadOf, tileOf_congr h]
  rfl

/-- The other tiles stay, seen from an earlier state with the same tiles. -/
theorem TileMoved.onlyTile_of_tiles_eq {n : TileIx} {x : Tile} {s b u : State} (h : TileMoved n x b u) (hb : b.tiles = s.tiles) :
    onlyTile n s u := fun m hm => (h.2.1 m hm).trans (tileOf_congr hb m)

/-! #### The counter of bank conflicts -/

theorem bankStall_eq_update (n lost : Nat) (s : State) : bankStall n lost s = { s with regs := (bankStall n lost s).regs } := by
  unfold bankStall
  split <;> rfl

@[simp] theorem bankStall_zero (n : Nat) (s : State) : bankStall n 0 s = s := rfl

@[simp] theorem bankStall_tiles (n lost : Nat) (s : State) : (bankStall n lost s).tiles = s.tiles := by rw [bankStall_eq_update]

@[simp] theorem bankStall_mem (n lost : Nat) (s : State) : (bankStall n lost s).mem = s.mem := by rw [bankStall_eq_update]

@[simp] theorem tileOf_bankStall (n lost : Nat) (s : State) (m : Nat) : tileOf (bankStall n lost s) m = tileOf s m :=
  tileOf_congr (bankStall_tiles n lost s) m

theorem bankStall_setTile (n lost m : Nat) (x : Tile) (s : State) :
    bankStall n lost (setTile m x s) = setTile m x (bankStall n lost s) := by
  unfold bankStall
  split <;> rfl

theorem bankStall_setThread (n lost m : Nat) (t : Thr) (y : Thread) (s : State) :
    bankStall n lost (setThread m t y s) = setThread m t y (bankStall n lost s) := by
  unfold setThread
  rw [bankStall_setTile, tileOf_bankStall]

theorem rd_bankStall_toNat (n lost : Nat) (s : State) :
    (rd (bankStall n lost s) (tileReg n 0x1C)).toNat = min (2 ^ 32 - 1) ((rd s (tileReg n 0x1C)).toNat + lost) := by
  unfold bankStall
  split
  · next hzero =>
    have hlt := (rd s (tileReg n 0x1C)).isLt
    omega
  · exact rd_bump_toNat _ _ s

theorem bankStall_regsBut (n lost : Nat) (s : State) : regsBut [tileReg n 0x1C] s (bankStall n lost s) := by
  unfold bankStall
  split
  · exact regsBut.refl _ s
  · exact bump_regsBut _ _ s

/-! #### A step of a core -/

theorem coreStep_ok {n : TileIx} {t : Thr} {legal : Bool} {f : State → Except Nat State} {s s' : State} (hrun : canRun s n t = true)
    (hlegal : legal = true) (hf : f s = .ok s') : coreStep n t legal f s = setThread n t (retire (threadOf s' n t)) s' := by
  rw [coreStep, if_pos hrun, if_pos hlegal, hf]

/-- An instruction that makes the tile `x`: its thread retires, and the rest is as in `b`. -/
theorem tileMoved_coreStep {n : TileIx} {t : Thr} {legal : Bool} {f : State → Except Nat State} {s b s' : State} {x : Tile}
    (hrun : canRun s n t = true) (hlegal : legal = true) (hf : f s = .ok s') (hs' : TileMoved n x b s') :
    TileMoved n (setThr t (retire (thrOf x t)) x) b (coreStep n t legal f s) := by
  rw [coreStep_ok hrun hlegal hf, hs'.threadOf_eq]
  exact hs'.setThread t _

/-- An instruction that leaves the tile but for its thread's next instruction. -/
theorem tileMoved_coreStep_of_tiles_eq {n : TileIx} {t : Thr} {legal : Bool} {f : State → Except Nat State} {s b : State}
    (hrun : canRun s n t = true) (hlegal : legal = true) (hf : f s = .ok b) (hb : b.tiles = s.tiles) :
    TileMoved n (setThr t (retire (threadOf s n t)) (tileOf s n)) b (coreStep n t legal f s) := by
  have hmoved := tileMoved_coreStep hrun hlegal hf (TileMoved.refl n b)
  rwa [tileOf_congr hb] at hmoved

/-- An instruction that makes its thread `y` before it retires. -/
theorem tileMoved_coreStep_setThread {n : TileIx} {t : Thr} {legal : Bool} {f : State → Except Nat State} {s b : State} {y : Thread}
    (hrun : canRun s n t = true) (hlegal : legal = true) (hf : f s = .ok (setThread n t y b)) (hb : b.tiles = s.tiles) :
    TileMoved n (setThr t (retire y) (tileOf s n)) b (coreStep n t legal f s) := by
  have hmoved := tileMoved_coreStep hrun hlegal hf ((TileMoved.refl n b).setThread t y)
  rwa [thrOf_setThr_same, setThr_setThr, tileOf_congr hb] at hmoved

/-! #### Numbers as bytes (00 R6) -/

@[simp] theorem leBytes_length (k v : Nat) : (leBytes k v).length = k := by
  induction k generalizing v with
  | zero => rfl
  | succ k ih => rw [leBytes, List.length_cons, ih]

theorem leNat_leBytes (k v : Nat) : leNat (leBytes k v) = v % 2 ^ (8 * k) := by
  induction k generalizing v with
  | zero => rw [leBytes, leNat, Nat.mul_zero, Nat.pow_zero, Nat.mod_one]
  | succ k ih =>
    have hpow : 2 ^ (8 * (k + 1)) = 256 * 2 ^ (8 * k) := by rw [Nat.mul_succ, Nat.pow_add, Nat.mul_comm]
    rw [leBytes, leNat, ih, BitVec.toNat_ofNat, hpow, Nat.mod_mul]

/-! #### Bytes of memory -/

@[simp] theorem memRead_length (s : State) (a k : Nat) : (memRead s a k).length = k := by
  induction k generalizing a with
  | zero => rfl
  | succ k ih => rw [memRead, List.length_cons, ih]

theorem memRead_getElem (s : State) (a k i : Nat) (h : i < (memRead s a k).length) : (memRead s a k)[i] = memByte s (a + i) := by
  induction k generalizing a i with
  | zero => exact absurd h (Nat.not_lt_zero i)
  | succ k ih =>
    cases i with
    | zero => rfl
    | succ i =>
      have hi : i < (memRead s (a + 1) k).length := Nat.lt_of_succ_lt_succ h
      rw [show a + (i + 1) = a + 1 + i by omega]
      exact ih (a + 1) i hi

theorem memByte_congr {s t : State} (h : t.mem = s.mem) (a : Nat) : memByte t a = memByte s a := by
  unfold memByte wcFind
  rw [h]

theorem memRead_congr {s t : State} {a k : Nat} (h : ∀ i < k, memByte t (a + i) = memByte s (a + i)) : memRead t a k = memRead s a k := by
  refine List.ext_getElem ((memRead_length t a k).trans (memRead_length s a k).symm) fun i hi _ => ?_
  rw [memRead_getElem, memRead_getElem]
  exact h i (by rwa [memRead_length] at hi)

/-- Part of what is read. -/
theorem take_drop_memRead (s : State) {a k o w : Nat} (h : o + w ≤ k) : ((memRead s a k).drop o).take w = memRead s (a + o) w := by
  refine List.ext_getElem ?_ fun i hi hi' => ?_
  · rw [List.length_take, List.length_drop, memRead_length, memRead_length]
    omega
  · rw [List.getElem_take, List.getElem_drop, memRead_getElem, memRead_getElem, Nat.add_assoc]

/-- With no byte held by the write-combining buffer a byte stored is read back, and no other byte changes (07 R204). -/
theorem memByte_memPut {s : State} (hwc : s.mem.wc = []) (a : Nat) (bs : List Byte) (x : Nat) :
    memByte (memPut a bs s) x = if a ≤ x ∧ x < a + bs.length then bs.getD (x - a) 0 else memByte s x := by
  have hfind (u : State) (hu : u.mem.wc = []) (y : Nat) : memByte u y = tabGet memDefault u.mem.bytes y := by
    unfold memByte wcFind
    rw [hu]
    rfl
  rw [hfind (memPut a bs s) hwc, hfind s hwc]
  exact tabGet_tabSetMany memDefault bs s.mem.bytes a x

theorem memByte_memPut_of_outside (a : Nat) (bs : List Byte) (s : State) {x : Nat} (h : x < a ∨ a + bs.length ≤ x) :
    memByte (memPut a bs s) x = memByte s x := by
  have hbytes : tabGet memDefault (memPut a bs s).mem.bytes x = tabGet memDefault s.mem.bytes x :=
    (tabGet_tabSetMany memDefault bs s.mem.bytes a x).trans (if_neg (by omega))
  unfold memByte
  rw [hbytes]
  rfl

theorem memBut_memPut (a : Nat) (bs : List Byte) (s : State) : memBut a bs.length s (memPut a bs s) :=
  fun _ hx => memByte_memPut_of_outside a bs s hx

theorem memBut_congr {a k : Nat} {s t u : State} (h : memBut a k s t) (hmem : u.mem = t.mem) : memBut a k s u :=
  fun x hx => (memByte_congr hmem x).trans (h x hx)

/-- Part of what was stored. -/
theorem memRead_memPut {s : State} (hwc : s.mem.wc = []) {a o w : Nat} {bs : List Byte} (h : o + w ≤ bs.length) :
    memRead (memPut a bs s) (a + o) w = (bs.drop o).take w := by
  refine List.ext_getElem ?_ fun i hi hi' => ?_
  · rw [List.length_take, List.length_drop, memRead_length]
    omega
  · have hiw : i < w := by rwa [memRead_length] at hi
    rw [memRead_getElem, memByte_memPut hwc, if_pos (by omega), List.getElem_take, List.getElem_drop,
      show a + o + i - a = o + i by omega, List.getD_eq_getElem _ _ (by omega)]

theorem memRead_memPut_same {s : State} (hwc : s.mem.wc = []) (a : Nat) (bs : List Byte) :
    memRead (memPut a bs s) a bs.length = bs := by
  have h := memRead_memPut (a := a) (o := 0) (w := bs.length) hwc (Nat.le_of_eq (Nat.zero_add bs.length))
  rwa [Nat.add_zero, List.drop_zero, List.take_length] at h

/-! #### Loads and stores of a core -/

theorem lsStore_tiles (n a k v : Nat) (s : State) : (lsStore n a k v s).tiles = s.tiles := rfl

theorem memRead_lsStore {s : State} (hwc : s.mem.wc = []) (n a k v : Nat) :
    memRead (lsStore n a k v s) (lsAddr n + a) k = leBytes k v := by
  have h := memRead_memPut_same hwc (lsAddr n + a) (leBytes k v)
  rwa [leBytes_length] at h

theorem memBut_lsStore (n a k v : Nat) (s : State) : memBut (lsAddr n + a) k s (lsStore n a k v s) := by
  have h := memBut_memPut (lsAddr n + a) (leBytes k v) s
  rwa [leBytes_length] at h

/-- Access to the local store by a load of `size` bytes. -/
theorem tileMoved_loadExec {n : TileIx} {t : Thr} {f : MemF} {size : Nat} {s : State} (hrun : canRun s n t = true)
    (hlegal : memLegal f = true) (hcheck : loadCheck s n (memAddr (threadOf s n t) f size).1.toNat size size = none) :
    TileMoved n (setThr t (retire (setD f.reg (BitVec.ofInt 32 (signedOf (8 * size)
        (leNat (memRead s (lsAddr n + (memAddr (threadOf s n t) f size).1.toNat) size)))) (memAddr (threadOf s n t) f size).2))
      (tileOf s n)) (bankStall n f.lost s) (loadExec n t f size s) := by
  refine tileMoved_coreStep_setThread hrun hlegal ?_ (bankStall_tiles n f.lost s)
  simp only [hcheck, bankStall_setThread]
  rfl

/-- What a store of `size` bytes leaves but for its thread. -/
theorem tileMoved_storeExec {n : TileIx} {t : Thr} {f : MemF} {size : Nat} {s : State} (hrun : canRun s n t = true)
    (hlegal : memLegal f = true) (hcheck : addrCheck (memAddr (threadOf s n t) f size).1.toNat size size = none) :
    TileMoved n (setThr t (retire (memAddr (threadOf s n t) f size).2) (tileOf s n))
      (bankStall n f.lost (lsStore n (memAddr (threadOf s n t) f size).1.toNat size (getD (threadOf s n t) f.reg).toNat s))
      (storeExec n t f size s) := by
  refine tileMoved_coreStep_setThread hrun hlegal ?_ (bankStall_tiles n f.lost _)
  simp only [hcheck]
  rw [← bankStall_setThread]

theorem bankStall_lsStore (m lost n a k v : Nat) (s : State) :
    bankStall m lost (lsStore n a k v s) = { bankStall m lost s with mem := (lsStore n a k v s).mem } := by
  unfold bankStall
  split <;> rfl

theorem loadRuns_of_tileMoved {i : Instr} {n : TileIx} {t : Thr} {lost : Nat} {z : Thread} {s u : State} (hexec : exec i s = .next u)
    (h : TileMoved n (setThr t z (tileOf s n)) (bankStall n lost s) u) : LoadRuns i n t lost z s := by
  rw [← tileOf_bankStall n lost s] at h
  exact ⟨u, hexec, h.onlyThread⟩

/-- The store of `size` bytes as the statement speaks of it. -/
theorem storeExec_shows {n : TileIx} {t : Thr} {f : MemF} {size : Nat} {s : State} (hrun : canRun s n t = true)
    (hlegal : memLegal f = true) (hcheck : addrCheck (memAddr (threadOf s n t) f size).1.toNat size size = none) :
    threadOf (storeExec n t f size s) n t = retire (memAddr (threadOf s n t) f size).2 ∧
      onlyThread n t { bankStall n f.lost s with mem := (storeExec n t f size s).mem } (storeExec n t f size s) ∧
      (s.mem.wc = [] → memRead (storeExec n t f size s) (lsAddr n + (memAddr (threadOf s n t) f size).1.toNat) size =
        leBytes size (getD (threadOf s n t) f.reg).toNat) ∧
      memBut (lsAddr n + (memAddr (threadOf s n t) f size).1.toNat) size s (storeExec n t f size s) := by
  have hmoved := tileMoved_storeExec hrun hlegal hcheck
  generalize storeExec n t f size s = u at hmoved ⊢
  have hmem : u.mem = (lsStore n (memAddr (threadOf s n t) f size).1.toNat size (getD (threadOf s n t) f.reg).toNat s).mem := by
    rw [hmoved.2.2]
    exact bankStall_mem n f.lost _
  rw [bankStall_lsStore, ← hmem] at hmoved
  obtain ⟨hthread, honly⟩ := TileMoved.onlyThread (s := { bankStall n f.lost s with mem := u.mem }) (by
    rw [show tileOf { bankStall n f.lost s with mem := u.mem } n = tileOf s n from tileOf_bankStall n f.lost s n]
    exact hmoved)
  refine ⟨hthread, honly, fun hwc => ?_, memBut_congr (memBut_lsStore n _ size _ s) hmem⟩
  rw [← memRead_lsStore hwc n _ size (getD (threadOf s n t) f.reg).toNat]
  exact memRead_congr fun i _ => memByte_congr hmem _

/-- Settles O29, load by load and store by store. -/
theorem coreLoadsAndStores : Obligations.CoreLoadsAndStores := by
  unfold Obligations.CoreLoadsAndStores
  refine ⟨?ld, ?ldh, ?ldb, ?st, ?sth, ?stb, ?stall⟩
  case ld =>
    intro n t f s hrun hlegal hcheck
    exact loadRuns_of_tileMoved rfl (tileMoved_loadExec hrun hlegal hcheck)
  case ldh =>
    intro n t f s hrun hlegal hcheck
    exact loadRuns_of_tileMoved rfl (tileMoved_loadExec hrun hlegal hcheck)
  case ldb =>
    intro n t f s hrun hlegal hcheck
    exact loadRuns_of_tileMoved rfl (tileMoved_loadExec hrun hlegal hcheck)
  case st => exact fun n t f s hrun hlegal hcheck => ⟨_, rfl, storeExec_shows hrun hlegal hcheck⟩
  case sth => exact fun n t f s hrun hlegal hcheck => ⟨_, rfl, storeExec_shows hrun hlegal hcheck⟩
  case stb => exact fun n t f s hrun hlegal hcheck => ⟨_, rfl, storeExec_shows hrun hlegal hcheck⟩
  case stall =>
    exact fun n lost s => ⟨rd_bankStall_toNat n lost s, bankStall_regsBut n lost s, bankStall_eq_update n lost s⟩

end Sys2Proof.Machine
end

/-! ### Matrix arrays: shadow loads and CUT (04 R107, R115–R117; 05 R166, R167)

An instruction to an array starts its operation, queues it or stalls; a rule for each says what the tile becomes. A CUT whose arrays hold
nothing is the swap alone, and so is the CUT that a completed load lets go. -/

section
namespace Sys2Proof.Machine

/-! #### Arrays of a tile -/

theorem lt_of_oneArray {m : BitVec 4} {k : Nat} (h : oneArray m = some k) : k < 4 := by
  unfold oneArray at h
  split at h <;> simp_all <;> omega

/-- The mask of one array names it and no other. -/
theorem getLsbD_of_oneArray {m : BitVec 4} {k : Nat} (h : oneArray m = some k) (j : Nat) (hj : j < 4) : m.getLsbD j = decide (j = k) := by
  have hall : ∀ m : BitVec 4, ∀ k j : Fin 4, oneArray m = some k.val → m.getLsbD j = decide (j = k) := by decide
  simpa [Fin.ext_iff] using hall m ⟨k, lt_of_oneArray h⟩ ⟨j, hj⟩ h

theorem arrOf_setArr {j k : Nat} (hj : j < 4) (hk : k < 4) (a : MArray) (x : Tile) :
    arrOf (setArr k a x) j = if j = k then a else arrOf x j := by
  interval_cases j <;> interval_cases k <;> rfl

@[simp] theorem arrOf_setArr_same (k : Nat) (a : MArray) (x : Tile) : arrOf (setArr k a x) k = a := by
  match k with
  | 0 => rfl
  | 1 => rfl
  | 2 => rfl
  | _ + 3 => rfl

@[simp] theorem thrOf_setArr (k : Nat) (a : MArray) (x : Tile) (t : Thr) : thrOf (setArr k a x) t = thrOf x t := by
  match k with
  | 0 => rfl
  | 1 => rfl
  | 2 => rfl
  | _ + 3 => rfl

@[simp] theorem arrOf_setThr (t : Thr) (y : Thread) (x : Tile) (k : Nat) : arrOf (setThr t y x) k = arrOf x k := by
  unfold setThr
  split <;> rfl

theorem arrOf_cutTile (m : BitVec 4) (x : Tile) {k : Nat} (hk : k < 4) :
    arrOf (cutTile m x) k = if m.getLsbD k then cutArray (arrOf x k) else arrOf x k := by
  interval_cases k <;> rfl

@[simp] theorem thrOf_cutTile (m : BitVec 4) (x : Tile) (t : Thr) : thrOf (cutTile m x) t = thrOf x t := rfl

/-! #### Counters beside a tile that changes -/

theorem TileMoved.bump {n : TileIx} {x : Tile} {s u : State} (h : TileMoved n x s u) (o c : Nat) :
    TileMoved n x (bump o c s) (bump o c u) := by
  obtain ⟨htile, hother, hrest⟩ := h
  refine ⟨htile, hother, ?_⟩
  rw [hrest]
  rfl

theorem TileMoved.bankStall {n : TileIx} {x : Tile} {s u : State} (h : TileMoved n x s u) (lost : Nat) :
    TileMoved n x (bankStall n lost s) (bankStall n lost u) := by
  unfold Machine.bankStall
  split
  · exact h
  · exact h.bump _ lost

/-- The rest of the state, seen from one that differs in registers alone. -/
theorem TileMoved.rest_of_regs {n : TileIx} {x : Tile} {s b u : State} (h : TileMoved n x b u) (hb : b = { s with regs := b.regs }) :
    u = { s with tiles := u.tiles, regs := u.regs } := by
  obtain ⟨-, -, hrest⟩ := h
  have hregs : u.regs = b.regs := by rw [hrest]
  rw [hregs, hrest, hb]

theorem tileRuns_of_tileMoved {i : Instr} {n : TileIx} {lost : Nat} {x : Tile} {s u : State} (hexec : exec i s = .next u)
    (h : TileMoved n x (bankStall n lost s) u) : TileRuns i n lost x s :=
  ⟨u, hexec, h.1, h.onlyTile_of_tiles_eq (bankStall_tiles n lost s), h.2.2⟩

/-! #### An instruction to an array -/

theorem matIssue_of_stall {n : TileIx} {t : Thr} {k lost : Nat} {legal : Bool} (kind : MatKind) {s : State} (hrun : canRun s n t = true)
    (hlegal : legal = true) (hfull : 8 ≤ (opsOf t (arrOf (tileOf s n) k)).length) : matIssue n t k legal lost kind s = s :=
  if_pos ⟨hrun, hlegal, hfull⟩

/-- What an instruction to an array does where the queue has room: its exception, its place in the queue, or its start (05 R166). -/
def issueOp (n : TileIx) (t : Thr) (k lost : Nat) (kind : MatKind) (s : State) : Except Nat State :=
  match opTrap s n (arrOf (tileOf s n) k) kind with
  | some c => .error c
  | none =>
    .ok (if opBlocked (arrOf (tileOf s n) k) ⟨t, (threadOf s n t).pc, kind⟩ || decide (opsOf t (arrOf (tileOf s n) k) ≠ []) then
        queueOp n k ⟨t, (threadOf s n t).pc, kind⟩ s
      else bankStall n lost (runOp n k ⟨t, (threadOf s n t).pc, kind⟩ s))

theorem matIssue_of_room {n : TileIx} {t : Thr} {k lost : Nat} {legal : Bool} (kind : MatKind) {s : State}
    (hroom : (opsOf t (arrOf (tileOf s n) k)).length < 8) :
    matIssue n t k legal lost kind s = coreStep n t legal (issueOp n t k lost kind) s :=
  if_neg fun h => absurd h.2.2 (Nat.not_le.2 hroom)

/-- At an array that is open the operation starts. -/
theorem tileMoved_matIssue_start {n : TileIx} {t : Thr} {k lost : Nat} {legal : Bool} {kind : MatKind} {s b : State} {x : Tile}
    (hrun : canRun s n t = true) (hlegal : legal = true) (hopen : ArrayOpen s n t k kind)
    (htrap : opTrap s n (arrOf (tileOf s n) k) kind = none) (hop : TileMoved n x b (runOp n k ⟨t, (threadOf s n t).pc, kind⟩ s)) :
    TileMoved n (setThr t (retire (thrOf x t)) x) (bankStall n lost b) (matIssue n t k legal lost kind s) := by
  obtain ⟨hops, hfree⟩ := hopen
  rw [matIssue_of_room kind (by rw [hops]; decide)]
  refine tileMoved_coreStep hrun hlegal ?_ (hop.bankStall lost)
  simp only [issueOp, htrap, hfree, hops]
  rfl

/-- Behind earlier operations of its thread, a hold or a load it is queued (05 R166, R167). -/
theorem tileMoved_matIssue_queue {n : TileIx} {t : Thr} {k lost : Nat} {legal : Bool} {kind : MatKind} {s : State}
    (hrun : canRun s n t = true) (hlegal : legal = true) (hroom : (opsOf t (arrOf (tileOf s n) k)).length < 8)
    (htrap : opTrap s n (arrOf (tileOf s n) k) kind = none)
    (hblocked : opBlocked (arrOf (tileOf s n) k) ⟨t, (threadOf s n t).pc, kind⟩ = true) :
    TileMoved n (setThr t (retire (threadOf s n t)) (setArr k
      { arrOf (tileOf s n) k with queue := (arrOf (tileOf s n) k).queue ++ [⟨t, (threadOf s n t).pc, kind⟩] } (tileOf s n))) s
      (matIssue n t k legal lost kind s) := by
  have hissue : issueOp n t k lost kind s = .ok (queueOp n k ⟨t, (threadOf s n t).pc, kind⟩ s) := by
    simp only [issueOp, htrap, hblocked, Bool.true_or, if_true]
  have hmoved := tileMoved_coreStep hrun hlegal hissue (tileMoved_setTile n _ s)
  rwa [thrOf_setArr, ← matIssue_of_room kind hroom] at hmoved

theorem exec_mload {n : TileIx} {t : Thr} {f : MatF} {k : Nat} (hone : oneArray f.amask = some k) (s : State) :
    exec (.mload n t f) s = .next (matIssue n t k (decide (f.opnd = 0) && !f.s) f.lost
      (.load (getH (threadOf s n t) f.hx).toNat (getD (threadOf s n t) f.dp) (decide (t = 0) && phyCode (threadOf s n t))) s) := by
  change execMload n t f s = _
  rw [execMload, hone]

theorem exec_mpass {n : TileIx} {t : Thr} {f : MatF} {k : Nat} (hone : oneArray f.amask = some k) (s : State) :
    exec (.mpass n t f) s = .next (matIssue n t k (decide (f.opnd.toNat % 32 = 0) && !f.s) f.lost
      (.pass (getH (threadOf s n t) f.hx).toNat (getS (threadOf s n t) f.hx).toInt ((getD (threadOf s n t) f.dp).toNat % 256)
        (f.opnd.toNat / 64 + 1) (f.opnd.getLsbD 5) (threadOf s n t).image (threadOf s n t).role) s) := by
  change execMpass n t f s = _
  rw [execMpass, hone]

theorem exec_mread {n : TileIx} {t : Thr} {f : MatF} {k : Nat} (hone : oneArray f.amask = some k) (s : State) :
    exec (.mread n t f) s = .next (matIssue n t k (decide (f.opnd = 0)) f.lost
      (.read (getH (threadOf s n t) f.hx).toNat (getD (threadOf s n t) f.dp) f.s) s) := by
  change execMread n t f s = _
  rw [execMread, hone]

theorem exec_mclr {n : TileIx} {t : Thr} {f : MatF} {k : Nat} (hone : oneArray f.amask = some k) (s : State) :
    exec (.mclr n t f) s = .next (matIssue n t k (decide (f.opnd = 0) && decide (f.hx = 0) && !f.s) f.lost
      (.clear (getD (threadOf s n t) f.dp)) s) := by
  change execMclr n t f s = _
  rw [execMclr, hone]

theorem opBlocked_load_of_ne_idle {a : MArray} (h : a.load ≠ .idle) (t : Thr) (pc : BitVec 15) (addr : Nat) (w : Word) (phy : Bool) :
    opBlocked a ⟨t, pc, .load addr w phy⟩ = true := by
  rw [opBlocked, decide_eq_true h, Bool.or_true]

/-! #### Queues with nothing in them -/

theorem opsOf_of_queue_nil {a : MArray} (h : a.queue = []) (t : Thr) : opsOf t a = [] := by
  rw [opsOf, h]
  rfl

theorem pumpThr_of_opsOf_nil {n : TileIx} {k : Nat} {t : Thr} {s : State} (h : opsOf t (arrOf (tileOf s n) k) = []) (fuel : Nat) :
    pumpThr n k t fuel s = s := by
  cases fuel with
  | zero => rfl
  | succ fuel => rw [pumpThr, h]

theorem pumpArr_of_queue_nil {n : TileIx} {k : Nat} {s : State} (h : (arrOf (tileOf s n) k).queue = []) : pumpArr n k s = s := by
  rw [pumpArr, pumpThr_of_opsOf_nil (opsOf_of_queue_nil h 0), pumpThr_of_opsOf_nil (opsOf_of_queue_nil h 1)]

theorem pumpMask_of_quiet {n : TileIx} {m : BitVec 4} {s : State}
    (h : ∀ k < 4, m.getLsbD k = true → (arrOf (tileOf s n) k).queue = []) : pumpMask n m s = s := by
  have hone (k : Nat) (hk : k < 4) : (if m.getLsbD k then pumpArr n k s else s) = s := by
    split
    · next hbit => exact pumpArr_of_queue_nil (h k hk hbit)
    · rfl
  simp only [pumpMask, List.foldl_cons, List.foldl_nil]
  rw [hone 0 (by decide), hone 1 (by decide), hone 2 (by decide), hone 3 (by decide)]

theorem countHeld_of_quiet {n : Nat} {m : BitVec 4} {held : Nat} {s : State}
    (h : ∀ k < 4, m.getLsbD k = true → (arrOf (tileOf s n) k).queue = []) : countHeld n m held s = s := by
  refine if_neg ?_
  simp only [List.any_eq_true, Bool.and_eq_true, not_exists, not_and]
  intro k hk hbit
  have hk4 : k < 4 := by
    simp only [List.mem_cons, List.not_mem_nil, or_false] at hk
    omega
  rw [suWaits, h k hk4 hbit]
  exact Bool.false_ne_true

/-! #### CUT -/

theorem cutThrough_of_no_window {n : TileIx} {t : Thr} {m : BitVec 4} {s : State} (h : t = 1 ∨ s.windows = []) :
    cutThrough n t m s = doCut n m s := by
  obtain rfl | h := h
  · rfl
  · have hwin : (doCut n m s).windows = [] := h
    have hsame (u : State) (hu : u.windows = []) : closeWindows n m (closeUnopened n m u) = u := by
      have hunopened : closeUnopened n m u = u := by
        rw [closeUnopened, dropWindows, hu, List.filter_nil, List.filter_nil, countWindows, ← hu]
      rw [hunopened, closeWindows, hu]
      rfl
    rw [cutThrough, hsame _ hwin, ite_self]

/-- A CUT of arrays without queued operations, with no window to close, is the swap alone (04 R116). -/
theorem cutPump_of_quiet {n : TileIx} {t : Thr} {m : BitVec 4} {held : Nat} {s : State}
    (hquiet : ∀ k < 4, m.getLsbD k = true → (arrOf (tileOf s n) k).queue = []) (hwin : t = 1 ∨ s.windows = []) :
    cutPump n t m held s = doCut n m s := by
  rw [cutPump, countHeld_of_quiet hquiet, cutThrough_of_no_window hwin]
  refine pumpMask_of_quiet fun k hk hbit => ?_
  have htile : tileOf (doCut n m s) n = cutTile m (tileOf s n) := tileOf_setTile_same n _ s
  rw [htile, arrOf_cutTile m _ hk, if_pos hbit]
  exact hquiet k hk hbit

theorem tileMoved_doCut {n : TileIx} {x : Tile} {s u : State} (h : TileMoved n x s u) (m : BitVec 4) :
    TileMoved n (cutTile m x) (bump (tileReg n 0x10) (maskCount m) s) (doCut n m u) := by
  rw [doCut, h.1]
  exact (h.setTile (cutTile m x)).bump _ _

theorem cutWaits_eq_false_iff (t : Thr) (a : MArray) : cutWaits t a = false ↔ a.load = .idle ∧ opsOf t a = [] := by
  simp [cutWaits]

theorem cutBlocked_eq_false_iff (t : Thr) (m : BitVec 4) (x : Tile) :
    cutBlocked t m x = false ↔ ∀ k < 4, m.getLsbD k = true → cutWaits t (arrOf x k) = false := by
  simp only [cutBlocked, Bool.or_eq_false_iff, Bool.and_eq_false_imp]
  constructor
  · rintro ⟨⟨⟨h0, h1⟩, h2⟩, h3⟩ k hk
    interval_cases k
    exacts [h0, h1, h2, h3]
  · exact fun h => ⟨⟨⟨h 0 (by decide), h 1 (by decide)⟩, h 2 (by decide)⟩, h 3 (by decide)⟩

theorem cutBlocked_of_waits {t : Thr} {m : BitVec 4} {x : Tile} {k : Nat} (hk : k < 4) (hbit : m.getLsbD k = true)
    (h : (arrOf x k).load ≠ .idle ∨ opsOf t (arrOf x k) ≠ []) : cutBlocked t m x = true := by
  rw [← Bool.not_eq_false]
  intro hfree
  obtain ⟨hload, hops⟩ := (cutWaits_eq_false_iff t _).1 ((cutBlocked_eq_false_iff t m x).1 hfree k hk hbit)
  exact h.elim (absurd hload) (absurd hops)

/-- The fields that a CUT does not use are 0. -/
theorem cut_legal {f : MatF} (hmask : f.amask ≠ 0) (hopnd : f.opnd = 0) (hhx : f.hx = 0) (hdp : f.dp = 0) (hs : f.s = false) :
    (decide (f.amask ≠ 0) && decide (f.opnd = 0) && decide (f.hx = 0) && decide (f.dp = 0) && !f.s) = true := by
  rw [decide_eq_true hmask, decide_eq_true hopnd, decide_eq_true hhx, decide_eq_true hdp, hs]
  rfl

theorem exec_cut_of_blocked {n : TileIx} {t : Thr} {f : MatF} {s : State} (hrun : canRun s n t = true) (hmask : f.amask ≠ 0)
    (hopnd : f.opnd = 0) (hhx : f.hx = 0) (hdp : f.dp = 0) (hs : f.s = false) (hblocked : cutBlocked t f.amask (tileOf s n) = true) :
    exec (.cut n t f) s = .next (setThread n t { threadOf s n t with run := .waiting (.cut f.amask) } s) := by
  change execCut n t f s = _
  exact if_pos ⟨hrun, cut_legal hmask hopnd hhx hdp hs, hblocked⟩

theorem exec_cut_of_free {n : TileIx} {t : Thr} {f : MatF} {s : State} (hmask : f.amask ≠ 0)
    (hopnd : f.opnd = 0) (hhx : f.hx = 0) (hdp : f.dp = 0) (hs : f.s = false) (hfree : cutBlocked t f.amask (tileOf s n) = false) :
    exec (.cut n t f) s = .next (coreStep n t true (fun s => .ok (cutPump n t f.amask f.lost s)) s) := by
  change execCut n t f s = _
  rw [← cut_legal hmask hopnd hhx hdp hs]
  exact if_neg fun h => absurd h.2.2 (by rw [hfree]; decide)

/-! #### A shadow load -/

theorem exec_shadowLoadStart {n : TileIx} {k : Fin 4} {waited h : Nat} {w : Word} {t : Thr} {phy : Bool} {pc : BitVec 15} {s : State}
    (hload : (arrOf (tileOf s n) k).load = .waiting h w t phy pc) (hfenced : fenced s n = false)
    (hclean : memPoisoned s (lsAddr n + h) (loadBytes w) = false) :
    exec (.shadowLoadStart n k waited) s = .next (setTile n (setArr k
      { arrOf (tileOf s n) k with load := .loading (memRead s (lsAddr n + h) (loadBytes w)) w t phy } (tileOf s n))
      (bump (tileReg n 0x18) waited s)) := by
  change execShadowLoadStart n k waited s = _
  simp only [execShadowLoadStart, hload, hfenced, Bool.false_eq_true, if_false]
  exact if_neg (by rw [hclean]; exact Bool.false_ne_true)

/-- The array once its load is complete: the shadow slot has the weights, the context word and the PHY bit (04 R107, R115). -/
def loadedArr (bs : List Byte) (w : Word) (phy : Bool) (a : MArray) : MArray :=
  setShadow { shadowCtx a with weights := weightTab bs, word := w, phy } { a with load := .idle }

theorem loadedArr_queue (bs : List Byte) (w : Word) (phy : Bool) (a : MArray) : (loadedArr bs w phy a).queue = a.queue := by
  unfold loadedArr setShadow
  split <;> rfl

theorem loadedArr_load (bs : List Byte) (w : Word) (phy : Bool) (a : MArray) : (loadedArr bs w phy a).load = .idle := by
  unfold loadedArr setShadow
  split <;> rfl

/-- The state once the load is complete, before a CUT that waited for it. -/
def loadDone (n : TileIx) (k : Fin 4) (bs : List Byte) (w : Word) (t : Thr) (phy : Bool) (s : State) : State :=
  setTile n (setArr k (loadedArr bs w phy (arrOf (tileOf s n) k)) (tileOf s n)) (if t = 1 then windowLoaded n k s else s)

theorem exec_shadowLoadComplete {n : TileIx} {k : Fin 4} {waits : LoadWaits} {bs : List Byte} {w : Word} {t : Thr} {phy : Bool}
    {s : State} (hload : (arrOf (tileOf s n) k).load = .loading bs w t phy) (hfenced : fenced s n = false)
    (hqueue : (arrOf (tileOf s n) k).queue = []) :
    exec (.shadowLoadComplete n k waits) s = .next (releaseCut n 1 waits.waited waits.held
      (releaseCut n 0 waits.waited waits.held (loadDone n k bs w t phy s))) := by
  have hdone : loadDone n k bs w t phy s = (if t = 1 then
      windowLoaded n k (setTile n (setArr k (loadedArr bs w phy (arrOf (tileOf s n) k)) (tileOf s n)) s)
      else setTile n (setArr k (loadedArr bs w phy (arrOf (tileOf s n) k)) (tileOf s n)) s) := by
    unfold loadDone
    split <;> rfl
  have htile : tileOf (loadDone n k bs w t phy s) n = setArr k (loadedArr bs w phy (arrOf (tileOf s n) k)) (tileOf s n) :=
    tileOf_setTile_same n _ _
  have hpump : pumpArr n k (loadDone n k bs w t phy s) = loadDone n k bs w t phy s :=
    pumpArr_of_queue_nil (by rw [htile, arrOf_setArr_same, loadedArr_queue, hqueue])
  change execShadowLoadComplete n k waits s = _
  simp only [execShadowLoadComplete, hload, hfenced, Bool.false_eq_true, if_false]
  rw [← hpump, hdone]
  rfl

theorem tileMoved_loadDone (n : TileIx) (k : Fin 4) (bs : List Byte) (w : Word) (t : Thr) (phy : Bool) (s : State) :
    TileMoved n (setArr k (loadedArr bs w phy (arrOf (tileOf s n) k)) (tileOf s n)) (if t = 1 then windowLoaded n k s else s)
      (loadDone n k bs w t phy s) := tileMoved_setTile n _ _

theorem releaseCut_of_not_waiting {n : TileIx} {t : Thr} {waited held : Nat} {s : State}
    (h : (threadOf s n t).run = .running ∨ (threadOf s n t).run = .stopped) : releaseCut n t waited held s = s := by
  unfold releaseCut
  obtain h | h := h <;> rw [h]

theorem releaseCut_of_free {n : TileIx} {t : Thr} {waited held : Nat} {m : BitVec 4} {s : State}
    (hwait : (threadOf s n t).run = .waiting (.cut m)) (hfree : cutBlocked t m (tileOf s n) = false) :
    releaseCut n t waited held s = setThread n t (retire { threadOf (cutPump n t m held s) n t with run := .running })
      (bump (tileReg n 0x14) waited (cutPump n t m held s)) := by
  simp only [releaseCut, hwait, hfree]
  rfl

/-- The waiting CUT of C0, let go by the load of the one array that it names. -/
theorem tileMoved_releaseCut_loadDone {n : TileIx} {k : Fin 4} {waited held : Nat} {bs : List Byte} {w : Word} {phy : Bool} {s : State}
    (hqueue : (arrOf (tileOf s n) k).queue = []) (hwait : (threadOf s n 0).run = .waiting (.cut (BitVec.ofNat 4 (2 ^ k.val))))
    (hwin : s.windows = []) :
    TileMoved n (setThr 0 (retire { threadOf s n 0 with run := .running })
        (cutTile (BitVec.ofNat 4 (2 ^ k.val)) (setArr k (loadedArr bs w phy (arrOf (tileOf s n) k)) (tileOf s n))))
      (bump (tileReg n 0x14) waited (bump (tileReg n 0x10) 1 s)) (releaseCut n 0 waited held (loadDone n k bs w 0 phy s)) := by
  have honly : ∀ k : Fin 4, ∀ j < 4, (BitVec.ofNat 4 (2 ^ k.val)).getLsbD j = true → j = k.val := by decide
  have hcount : ∀ k : Fin 4, maskCount (BitVec.ofNat 4 (2 ^ k.val)) = 1 := by decide
  have hdone := tileMoved_loadDone n k bs w 0 phy s
  have hthread := hdone.threadOf_eq 0
  rw [thrOf_setArr] at hthread
  have hcut := tileMoved_doCut hdone (BitVec.ofNat 4 (2 ^ k.val))
  rw [hcount] at hcut
  have hquiet (j : Nat) (hj : j < 4) (hbit : (BitVec.ofNat 4 (2 ^ k.val)).getLsbD j = true) :
      (arrOf (tileOf (loadDone n k bs w 0 phy s) n) j).queue = [] := by
    obtain rfl := honly k j hj hbit
    rw [hdone.1, arrOf_setArr_same, loadedArr_queue, hqueue]
  have hfree : cutBlocked 0 (BitVec.ofNat 4 (2 ^ k.val)) (tileOf (loadDone n k bs w 0 phy s) n) = false := by
    refine (cutBlocked_eq_false_iff _ _ _).2 fun j hj hbit => (cutWaits_eq_false_iff _ _).2 ⟨?_, opsOf_of_queue_nil (hquiet j hj hbit) 0⟩
    obtain rfl := honly k j hj hbit
    rw [hdone.1, arrOf_setArr_same, loadedArr_load]
  rw [releaseCut_of_free (by rw [hthread]; exact hwait) hfree, cutPump_of_quiet hquiet (.inr hwin), hcut.threadOf_eq, thrOf_cutTile,
    thrOf_setArr]
  exact (hcut.bump _ waited).setThread 0 _

/-- Settles O33, a clause for each way of an MLOAD, of its load and of a CUT. -/
theorem shadowLoadsAndCuts : Obligations.ShadowLoadsAndCuts := by
  unfold Obligations.ShadowLoadsAndCuts
  refine ⟨?handed, ?queued, ?stalled, ?starts, ?completes, ?letsGo, ?cuts, ?waits⟩
  case handed =>
    intro n t f k s hrun hone hopnd hs hopen hcheck
    have hmoved := tileMoved_matIssue_start (lost := f.lost) hrun (legal := decide (f.opnd = 0) && !f.s) (by simp [hopnd, hs]) hopen hcheck
      (tileMoved_setTile n _ s)
    rw [thrOf_setArr] at hmoved
    exact tileRuns_of_tileMoved (exec_mload hone s) hmoved
  case queued =>
    intro n t f k s hrun hone hopnd hs hload hroom hcheck
    exact tileRuns_of_tileMoved (lost := 0) (exec_mload hone s)
      (tileMoved_matIssue_queue hrun (by simp [hopnd, hs]) hroom hcheck (opBlocked_load_of_ne_idle hload t _ _ _ _))
  case stalled =>
    intro n t f k s hrun hone hopnd hhx hs hfull
    rw [exec_mload hone, exec_mpass hone, exec_mread hone, exec_mclr hone, matIssue_of_stall _ hrun (by simp [hopnd, hs]) hfull,
      matIssue_of_stall _ hrun (by simp [hopnd, hs]) hfull, matIssue_of_stall _ hrun (by simp [hopnd]) hfull,
      matIssue_of_stall _ hrun (by simp [hopnd, hhx, hs]) hfull]
    exact ⟨rfl, rfl, rfl, rfl⟩
  case starts =>
    intro n k waited h w t phy pc s hload hfenced hclean
    have hmoved := tileMoved_setTile n (setArr k
      { arrOf (tileOf s n) k with load := .loading (memRead s (lsAddr n + h) (loadBytes w)) w t phy } (tileOf s n))
      (bump (tileReg n 0x18) waited s)
    exact ⟨_, exec_shadowLoadStart hload hfenced hclean, hmoved.1, hmoved.2.1, rd_bump_toNat _ _ s, bump_regsBut _ _ s, rfl⟩
  case completes =>
    intro n k waited held bs w t ph s hload hfenced hqueue hrun0 hrun1
    have hmoved := tileMoved_loadDone n k bs w t ph s
    have hthread (r : Thr) : threadOf (loadDone n k bs w t ph s) n r = threadOf s n r := by rw [hmoved.threadOf_eq, thrOf_setArr]; rfl
    refine ⟨_, exec_shadowLoadComplete hload hfenced hqueue, ?_⟩
    rw [releaseCut_of_not_waiting (t := 0) (by rwa [hthread]), releaseCut_of_not_waiting (t := 1) (by rwa [hthread])]
    refine ⟨hmoved.1, hmoved.onlyTile_of_tiles_eq ?_, ?_, ?_⟩
    · split <;> rfl
    · change (if t = 1 then windowLoaded n k s else s).windows = _
      split <;> rfl
    · unfold loadDone
      split <;> rfl
  case letsGo =>
    intro n k waited held bs w ph s hload hfenced hqueue hwait hrun1 hwin
    have hmoved := tileMoved_releaseCut_loadDone (waited := waited) (held := held) (bs := bs) (w := w) (phy := ph) hqueue hwait hwin
    have hthread1 : threadOf (releaseCut n 0 waited held (loadDone n k bs w 0 ph s)) n 1 = threadOf s n 1 := by
      rw [hmoved.threadOf_eq]
      exact thrOf_setArr _ _ _ 1
    refine ⟨_, exec_shadowLoadComplete hload hfenced hqueue, ?_⟩
    rw [releaseCut_of_not_waiting (t := 1) (by rwa [hthread1])]
    generalize releaseCut n 0 waited held (loadDone n k bs w 0 ph s) = u at hmoved ⊢
    have hregs : u.regs = (bump (tileReg n 0x14) waited (bump (tileReg n 0x10) 1 s)).regs := by rw [hmoved.2.2]
    have hself : ∀ k : Fin 4, (BitVec.ofNat 4 (2 ^ k.val)).getLsbD k = true := by decide
    have h14 : tileReg n 0x14 ≠ tileReg n 0x10 := fun h => absurd (Nat.add_left_cancel h) (by decide)
    refine ⟨?_, ?_, ?_, ?_, hmoved.2.1, ?_, hmoved.rest_of_regs rfl⟩
    · rw [hmoved.threadOf_eq, thrOf_setThr_same]
    · rw [hmoved.1, arrOf_setThr, arrOf_cutTile _ _ k.isLt, if_pos (hself k), arrOf_setArr_same]
      rfl
    · rw [rd, hregs, ← rd, rd_bump_toNat, rd_bump, if_neg h14]
    · rw [rd, hregs, ← rd, rd_bump, if_neg h14.symm, rd_bump_toNat]
    · have hcount : regsBut [tileReg n 0x10, tileReg n 0x14] s (bump (tileReg n 0x10) 1 s) := (bump_regsBut _ 1 s).mono (by simp)
      exact (hcount.trans (bump_regsBut _ waited _) (by simp)).trans (regsBut.of_regs_eq hregs []) (by simp)
  case cuts =>
    intro n t f s hrun hmask hopnd hhx hdp hs hquiet hwin
    have hq (k : Nat) (hk : k < 4) : (arrOf (tileOf s n) k).queue = [] := (hquiet k (List.mem_range.2 hk)).1
    have hfree : cutBlocked t f.amask (tileOf s n) = false :=
      (cutBlocked_eq_false_iff _ _ _).2 fun k hk hbit =>
        (cutWaits_eq_false_iff _ _).2 ⟨(hquiet k (List.mem_range.2 hk)).2 hbit, opsOf_of_queue_nil (hq k hk) t⟩
    have hmoved := tileMoved_coreStep (legal := true) (f := fun s => .ok (cutPump n t f.amask f.lost s)) hrun rfl
      (congrArg _ (cutPump_of_quiet (fun k hk _ => hq k hk) hwin)) (tileMoved_doCut (TileMoved.refl n s) f.amask)
    refine ⟨_, exec_cut_of_free hmask hopnd hhx hdp hs hfree, ?_⟩
    generalize coreStep n t true (fun s => .ok (cutPump n t f.amask f.lost s)) s = u at hmoved ⊢
    have hregs : u.regs = (bump (tileReg n 0x10) (maskCount f.amask) s).regs := by rw [hmoved.2.2]
    refine ⟨hmoved.1, hmoved.2.1, ?_, ?_, hmoved.rest_of_regs rfl⟩
    · rw [rd, hregs, ← rd, rd_bump_toNat]
    · exact (bump_regsBut _ _ s).trans (regsBut.of_regs_eq hregs []) (by simp)
  case waits =>
    intro n t f k s hrun hk hbit hopnd hhx hdp hs hwait
    have hmask : f.amask ≠ 0 := by
      rintro h
      rw [h] at hbit
      simp at hbit
    exact exec_cut_of_blocked hrun hmask hopnd hhx hdp hs (cutBlocked_of_waits hk hbit hwait)

end Sys2Proof.Machine
end

/-! ### Matrix passes, read-out and MCLR (04 R108–R114, R118; 05 R152, R166)

A wavefront adds to each accumulator of its row the products of its column; a read-out stores the rows one column behind another; MCLR
drops the entries of its rows. -/

section
namespace Sys2Proof.Machine

/-! #### The active slot -/

@[simp] theorem activeCtx_setActive (c : Ctx) (a : MArray) : activeCtx (setActive c a) = c := by
  obtain ⟨slot0, slot1, active, load, queue⟩ := a
  cases active <;> rfl

theorem setActive_queue (c : Ctx) (a : MArray) : (setActive c a).queue = a.queue := by
  unfold setActive
  split <;> rfl

theorem setActive_active (c : Ctx) (a : MArray) : (setActive c a).active = a.active := by
  unfold setActive
  split <;> rfl

theorem activeCtx_cutArray (a : MArray) : activeCtx (cutArray a) = shadowCtx a := by
  unfold activeCtx shadowCtx cutArray
  cases a.active <;> rfl

/-- An operation that is no load is held by a PHY context alone (05 R166). -/
theorem arrayOpen_of_not_held {s : State} {n : TileIx} {t : Thr} {k : Nat} {kind : MatKind}
    (hblock : opBlocked (arrOf (tileOf s n) k) ⟨t, (threadOf s n t).pc, kind⟩ = (suHeld t (activeCtx (arrOf (tileOf s n) k)) || false))
    (hops : opsOf t (arrOf (tileOf s n) k) = []) (hheld : suHeld t (activeCtx (arrOf (tileOf s n) k)) = false) :
    ArrayOpen s n t k kind := ⟨hops, by rw [hblock, hheld]; rfl⟩

theorem runOp_pass (n k : Nat) (t : Thr) (pc : BitVec 15) (h row count image role : Nat) (st : Int) (acc : Bool) (s : State) :
    runOp n k ⟨t, pc, .pass h st row count acc image role⟩ s = runPass n k h st row count acc image role s := rfl

theorem runOp_read (n k : Nat) (t : Thr) (pc : BitVec 15) (h : Nat) (p : Word) (sb : Bool) (s : State) :
    runOp n k ⟨t, pc, .read h p sb⟩ s = runRead n k h p sb s := rfl

/-! #### A pass -/

theorem opTrap_pass {s : State} {n : Nat} {a : MArray} {h row count image role : Nat} {st : Int} {acc : Bool}
    (hcheck : passCheck s n (waveBytes (ctxMode (activeCtx a))) h st count = none) :
    opTrap s n a (.pass h st row count acc image role) = none := by
  rw [opTrap, hcheck, ite_self]

theorem tileMoved_runPass {s : State} {n : TileIx} {k image role : Nat} {h row count : Nat} {st : Int} {acc : Bool}
    (hcells : emptyPass (activeCtx (arrOf (tileOf s n) k)) (maskEntry s image role (ctxMaskIx (activeCtx (arrOf (tileOf s n) k)))) = false) :
    TileMoved n (setArr k (setActive (passWaves s n (ctxExact s (activeCtx (arrOf (tileOf s n) k))) acc
        (fun i j => if ctxMode (activeCtx (arrOf (tileOf s n) k)) = 2 then
          cellOn (maskEntry s image role (ctxMaskIx (activeCtx (arrOf (tileOf s n) k)))) i j else true)
        h st row count (activeCtx (arrOf (tileOf s n) k))) (arrOf (tileOf s n) k)) (tileOf s n)) s
      (runPass n k h st row count acc image role s) := by
  simp only [runPass, hcells]
  exact tileMoved_setTile n _ s

theorem runPass_of_idle {s : State} {n k image role : Nat} {h row count : Nat} {st : Int} {acc : Bool}
    (hidle : ctxMode (activeCtx (arrOf (tileOf s n) k)) = 3) :
    runPass n k h st row count acc image role s = raise (tileReg n 8) 2 (bump (tileReg n 0x24) count s) :=
  if_pos (by rw [emptyPass, decide_eq_true hidle]; rfl)

/-! #### One wavefront of INT8 (04 R109, R110) -/

theorem fValInt_fInt (v : Int) : fValInt (fInt v) = v := by
  simp only [fInt, fValInt, decide_eq_true_eq]
  split <;> omega

/-- The product of input `e` in column `j`. -/
def int8Product (c : Ctx) (inp : List Byte) (j e : Nat) : Int :=
  signedOf 8 (tabGet (fun _ => (0 : Byte)) c.weights (64 * (e / 2) + 2 * j + e % 2)).toNat * signedOf 8 (leAt inp e 1)

theorem colProducts_int8 {c : Ctx} (hfmt : ctxFmt c = 0) (inp : List Byte) (j : Nat) :
    colProducts c ⟨0, 32, 0, 32, 0⟩ inp (fun _ _ => true) j = (List.range 64).map fun e => fInt (int8Product c inp j e) := by
  simp only [colProducts, hfmt, fmtBytes, int8Product]
  simp
  exact fun _ _ => rfl

/-- What accumulator (`row`, `j`) holds after the wavefront. -/
def int8Sum (c : Ctx) (acc : Bool) (row : Nat) (inp : List Byte) (j : Nat) : Word :=
  BitVec.ofInt 32 ((List.range 64).foldl (fun v e => v + int8Product c inp j e)
    (if acc then (tabGet (fun _ => (0 : Word)) c.acc (32 * row + j)).toInt else 0))

theorem accumulate_int8 {c : Ctx} (hfmt : ctxFmt c = 0) (acc : Bool) (row : Nat) (inp : List Byte) (j : Nat) :
    accumulate false acc (32 * row + j) (colProducts c ⟨0, 32, 0, 32, 0⟩ inp (fun _ _ => true) j) c =
      { c with acc := tabSet (fun _ => 0) c.acc (32 * row + j) (int8Sum c acc row inp j) } := by
  have hfloat : ctxFloat c = false := by rw [ctxFloat, hfmt]; rfl
  rw [colProducts_int8 hfmt]
  simp only [accumulate, hfloat, int8Sum, List.foldl_map, List.map_map, Function.comp_def, fValInt_fInt, Bool.false_eq_true, if_false]

/-- One column after another. -/
def int8Cols (acc : Bool) (row : Nat) (inp : List Byte) (m : Nat) (c : Ctx) : Ctx :=
  (List.range m).foldl
    (fun c j => accumulate false acc (32 * row + j) (colProducts c ⟨0, 32, 0, 32, 0⟩ inp (fun _ _ => true) j) c) c

theorem wavefront_normal {c : Ctx} (hmode : ctxMode c = 0) (acc : Bool) {row : Nat} (hrow : row < 256) (inp : List Byte) :
    wavefront false acc row inp (fun _ _ => true) c = int8Cols acc row inp 32 c := by
  simp [wavefront, quadsOf, hmode, Nat.mod_eq_of_lt hrow, int8Cols]

/-- The first `m` columns hold their sums, the others what they held, and the context is else as it was. -/
theorem int8Cols_shows {c : Ctx} (hfmt : ctxFmt c = 0) (acc : Bool) (row : Nat) (inp : List Byte) (m : Nat) :
    int8Cols acc row inp m c = { c with acc := (int8Cols acc row inp m c).acc } ∧
    ∀ j, tabGet (fun _ => (0 : Word)) (int8Cols acc row inp m c).acc (32 * row + j) =
      if j < m then int8Sum c acc row inp j else tabGet (fun _ => (0 : Word)) c.acc (32 * row + j) := by
  induction m with
  | zero => exact ⟨rfl, fun j => (if_neg (Nat.not_lt_zero j)).symm⟩
  | succ m ih =>
    obtain ⟨hrest, hcols⟩ := ih
    generalize hdone : int8Cols acc row inp m c = d at hrest hcols
    have hfmt' : ctxFmt d = 0 := by rw [hrest]; exact hfmt
    have hsum : int8Sum d acc row inp m = int8Sum c acc row inp m := by
      have hheld := hcols m
      rw [if_neg (Nat.lt_irrefl m)] at hheld
      unfold int8Sum
      rw [hheld, hrest]
      rfl
    have hstep : int8Cols acc row inp (m + 1) c = { d with acc := tabSet (fun _ => 0) d.acc (32 * row + m) (int8Sum c acc row inp m) } := by
      rw [int8Cols, List.range_succ, List.foldl_append, ← int8Cols, hdone, List.foldl_cons, List.foldl_nil, accumulate_int8 hfmt', hsum]
    refine ⟨by rw [hstep, hrest], fun j => ?_⟩
    rw [hstep, tabGet_tabSet, hcols]
    by_cases hj : j = m
    · rw [hj, if_pos rfl, if_pos (Nat.lt_succ_self m)]
    · rw [if_neg (by omega)]
      exact if_congr (by omega) rfl rfl

/-! #### Read-out (04 R118) -/

theorem readCol_length {ex : Bool} {c : Ctx} {code shift : Nat} {sb : Bool} {key : Nat} {bs : List Byte}
    (h : readCol ex c code shift sb key = some bs) : bs.length = readBytes code := by
  unfold readCol at h
  dsimp only at h
  split_ifs at h with _ hcode <;> obtain rfl := Option.some.inj h
  · rw [hcode]
    exact leBytes_length 80 _
  all_goals exact leBytes_length _ _

theorem readRows_length (ex : Bool) (c : Ctx) (code shift : Nat) (sb : Bool) (keys : List Nat) (free : Nat) :
    (readRows ex c code shift sb keys free).length = keys.length * readBytes code := by
  induction keys generalizing free with
  | nil => rw [readRows, List.length_nil, List.length_nil, Nat.zero_mul]
  | cons k ks ih =>
    rw [readRows, List.length_append, ih, List.length_cons, Nat.succ_mul, Nat.add_comm]
    congr 1
    cases hcol : readCol ex c code shift sb k with
    | none => exact leBytes_length _ _
    | some bs => exact readCol_length hcol

/-- The accumulators that a read-out names, row by row. -/
def readKeys (ex : Bool) (p : Word) : List Nat :=
  (List.range (field p 15 8 + 1)).flatMap fun r => (List.range 32).map fun j => 32 * ((field p 7 0 + r) % storeRows ex) + j

theorem readKeys_length (ex : Bool) (p : Word) : (readKeys ex p).length = 32 * (field p 15 8 + 1) := by
  simp [readKeys, List.length_flatMap, Nat.mul_comm]

/-- The first of them is column 0 of the row named. -/
theorem readKeys_eq_cons (p : Word) : ∃ ks, readKeys false p = 32 * field p 7 0 :: ks := by
  have hrow : field p 7 0 % storeRows false = field p 7 0 := Nat.mod_eq_of_lt (Nat.mod_lt _ (by decide))
  have hcols : List.range 32 = 0 :: (List.range 31).map Nat.succ := rfl
  rw [readKeys, List.range_succ_eq_map (n := field p 15 8), List.flatMap_cons, hcols, List.map_cons, List.cons_append, Nat.add_zero, Nat.add_zero, hrow]
  exact ⟨_, rfl⟩

/-- The bytes that a read-out of array context `c` stores. -/
def readOut (s : State) (c : Ctx) (p : Word) (sb : Bool) : List Byte :=
  readRows (ctxExact s c) c (field p 24 21) (field p 20 16) sb (readKeys (ctxExact s c) p) s.free

theorem readOut_length (s : State) (c : Ctx) (p : Word) (sb : Bool) :
    (readOut s c p sb).length = 32 * readBytes (field p 24 21) * (field p 15 8 + 1) := by
  rw [readOut, readRows_length, readKeys_length, Nat.mul_right_comm]

theorem runRead_of_code {n k h : Nat} {p : Word} {sb : Bool} {s : State} (hcode : field p 24 21 ≤ 9) :
    runRead n k h p sb s = { memPut (lsAddr n + h) (readOut s (activeCtx (arrOf (tileOf s n) k)) p sb) s with
      free := s.free + (readKeys (ctxExact s (activeCtx (arrOf (tileOf s n) k))) p).length } :=
  if_neg (Nat.not_lt.2 hcode)

theorem opTrap_read {s : State} {n h : Nat} {a : MArray} {p : Word} {sb : Bool} (hcode : field p 24 21 ≤ 9)
    (hcheck : addrCheck h (32 * readBytes (field p 24 21) * (field p 15 8 + 1)) 64 = none) : opTrap s n a (.read h p sb) = none := by
  rw [opTrap, if_neg (Nat.not_lt.2 hcode), hcheck]

theorem rneShift_zero (m : Nat) : rneShift m 0 = m := by
  rw [rneShift, if_pos rfl]

theorem rneInt_zero (v : Int) : rneInt v 0 = v := by
  rw [rneInt, rneShift_zero]
  split <;> omega

/-- A number of 32 bits narrowed to 32 bits is itself, with or without saturation. -/
theorem narrow_toInt (sb : Bool) (v : Word) : narrow 32 sb v.toInt = v.toNat := by
  have hlo := BitVec.le_toInt v
  have hhi := BitVec.toInt_lt (x := v)
  have hclamp : clampInt (-(2 ^ (32 - 1))) (2 ^ (32 - 1) - 1) v.toInt = v.toInt := by
    rw [clampInt, if_neg (by omega), if_neg (by omega)]
  rw [narrow, hclamp, ite_self, BitVec.ofInt_toInt]

theorem readCol_int32 {c : Ctx} (hfloat : ctxFloat c = false) (sb : Bool) (key : Nat) :
    readCol false c 0 0 sb key = some (leBytes 4 (tabGet (fun _ => (0 : Word)) c.acc key).toNat) := by
  simp only [readCol, hfloat, Bool.false_eq_true, if_false, rneInt_zero]
  exact congrArg some (congrArg (leBytes 4) (narrow_toInt sb _))

/-- The first word of an INT32 read-out without a shift. -/
theorem take_readOut_int32 {s : State} {c : Ctx} {p : Word} (sb : Bool) (hcode : field p 24 21 = 0) (hshift : field p 20 16 = 0)
    (hfloat : ctxFloat c = false) (hexact : ctxExact s c = false) :
    (readOut s c p sb).take 4 = leBytes 4 (tabGet (fun _ => (0 : Word)) c.acc (32 * field p 7 0)).toNat := by
  obtain ⟨ks, hkeys⟩ := readKeys_eq_cons p
  rw [readOut, hexact, hcode, hshift, hkeys, readRows, readCol_int32 hfloat]
  exact List.take_left' (leBytes_length 4 _)

/-! #### MCLR -/

theorem tabFind_filter {α : Type} (hit : Nat → Bool) (t : Tab α) (k : Nat) :
    tabFind (t.filter fun e => !hit e.1) k = if hit k then none else tabFind t k := by
  induction t with
  | nil => rw [List.filter_nil, tabFind, ite_self]
  | cons e t ih =>
    obtain ⟨j, v⟩ := e
    rw [List.filter_cons]
    by_cases hkj : k = j
    · subst hkj
      by_cases hk : hit k = true
      · rw [if_pos hk, if_neg (by simp [hk]), ih, if_pos hk]
      · rw [if_neg hk, if_pos (by simp [hk]), tabFind, tabFind, if_pos rfl, if_pos rfl]
    · rw [tabFind, if_neg hkj]
      split
      · rw [tabFind, if_neg hkj, ih]
      · exact ih

/-- Rows that MCLR names (05 R152). -/
def clearHit (ex : Bool) (p : Word) (r : Nat) : Bool :=
  (List.range (field p 15 8 + 1)).any fun i => decide ((field p 7 0 + i) % storeRows ex = r)

/-- The context without the entries of its native rows that MCLR names. -/
def clearedCtx (p : Word) (c : Ctx) : Ctx := { c with acc := c.acc.filter fun e => !clearHit false p (e.1 / 32) }

theorem tabGet_clearedCtx (p : Word) (c : Ctx) (r : Nat) {j : Nat} (hj : j < 32) :
    tabGet (fun _ => (0 : Word)) (clearedCtx p c).acc (32 * r + j) =
      if clearHit false p r then 0 else tabGet (fun _ => (0 : Word)) c.acc (32 * r + j) := by
  have hrow : (32 * r + j) / 32 = r := by omega
  rw [tabGet, clearedCtx, tabFind_filter (fun k => clearHit false p (k / 32)), hrow]
  split <;> rfl

theorem runClear_of_native {n k : Nat} {p : Word} {s : State} (hexact : ctxExact s (activeCtx (arrOf (tileOf s n) k)) = false) :
    runClear n k p s = setTile n (setArr k (setActive (clearedCtx p (activeCtx (arrOf (tileOf s n) k))) (arrOf (tileOf s n) k))
      (tileOf s n)) s := by
  simp only [runClear, hexact]
  rfl

/-- MCLR touches the active slot of its array alone. -/
theorem runClear_eq_setTile (n k : Nat) (p : Word) (s : State) :
    ∃ c, runClear n k p s = setTile n (setArr k (setActive c (arrOf (tileOf s n) k)) (tileOf s n)) s := ⟨_, rfl⟩

/-! #### An operation that a CUT lets go (05 R166) -/

theorem pumpMask_of_oneArray {m : BitVec 4} {k : Nat} (h : oneArray m = some k) (n : TileIx) (s : State) :
    pumpMask n m s = pumpArr n k s := by
  have hbit := getLsbD_of_oneArray h
  have hk := lt_of_oneArray h
  simp only [pumpMask, List.foldl_cons, List.foldl_nil, hbit 0 (by decide), hbit 1 (by decide), hbit 2 (by decide), hbit 3 (by decide)]
  interval_cases k <;> rfl

theorem countHeld_of_held {n : Nat} {m : BitVec 4} {k : Nat} {held : Nat} {s : State} (hk : k < 4) (hbit : m.getLsbD k = true)
    (h : suWaits (arrOf (tileOf s n) k) = true) : countHeld n m held s = bump (tileReg n 0x54) held s := by
  refine if_pos (List.any_eq_true.2 ⟨k, ?_, by rw [hbit, h]; rfl⟩)
  interval_cases k <;> decide

/-- The one queued operation, an MCLR of C1 that nothing holds, starts. -/
theorem pumpArr_of_clear {n : TileIx} {k : Nat} {pc : BitVec 15} {p : Word} {s : State}
    (hqueue : (arrOf (tileOf s n) k).queue = [⟨1, pc, .clear p⟩]) (hphy : (activeCtx (arrOf (tileOf s n) k)).phy = false) :
    ∃ a, a.queue = [] ∧ a.active = (arrOf (tileOf s n) k).active ∧
      TileMoved n (setArr k a (setArr k { arrOf (tileOf s n) k with queue := [] } (tileOf s n))) s (pumpArr n k s) := by
  have hops0 : opsOf 0 (arrOf (tileOf s n) k) = [] := by rw [opsOf, hqueue]; rfl
  have hops1 : opsOf 1 (arrOf (tileOf s n) k) = [⟨1, pc, .clear p⟩] := by rw [opsOf, hqueue]; rfl
  have hopen : opBlocked (arrOf (tileOf s n) k) ⟨1, pc, .clear p⟩ = false := by
    change (decide ((1 : Thr) = 1) && (activeCtx (arrOf (tileOf s n) k)).phy || false) = false
    rw [hphy]
    rfl
  have hleft := tileMoved_setTile n (setArr k { arrOf (tileOf s n) k with queue := [] } (tileOf s n)) s
  have hstart : startQueued n k ⟨1, pc, .clear p⟩ s =
      runClear n k p (setTile n (setArr k { arrOf (tileOf s n) k with queue := [] } (tileOf s n)) s) := by
    simp only [startQueued, opTrap, hqueue, List.erase_cons_head]
    rfl
  obtain ⟨c, hclear⟩ := runClear_eq_setTile n k p (setTile n (setArr k { arrOf (tileOf s n) k with queue := [] } (tileOf s n)) s)
  rw [hleft.1, arrOf_setArr_same] at hclear
  have hdone := hleft.setTile (setArr k (setActive c { arrOf (tileOf s n) k with queue := [] })
    (setArr k { arrOf (tileOf s n) k with queue := [] } (tileOf s n)))
  rw [← hclear, ← hstart] at hdone
  refine ⟨setActive c { arrOf (tileOf s n) k with queue := [] }, setActive_queue c _, setActive_active c _, ?_⟩
  have hnil : opsOf 1 (arrOf (tileOf (startQueued n k ⟨1, pc, .clear p⟩ s) n) k) = [] := by
    rw [hdone.1, arrOf_setArr_same]
    exact opsOf_of_queue_nil (setActive_queue c _) 1
  rw [pumpArr, pumpThr_of_opsOf_nil hops0, pumpThr, hops1]
  simp only [hopen, Bool.false_eq_true, if_false]
  rwa [pumpThr_of_opsOf_nil hnil]

/-- The rest of the state, seen from one that differs in memory and the count of free values. -/
theorem TileMoved.rest_of_mem_free {n : TileIx} {x : Tile} {lost : Nat} {s b u : State} (h : TileMoved n x (Machine.bankStall n lost b) u)
    (hb : b = { s with mem := b.mem, free := b.free }) :
    u = { Machine.bankStall n lost s with tiles := u.tiles, mem := u.mem, free := u.free } := by
  have hstall : Machine.bankStall n lost b = { Machine.bankStall n lost s with mem := b.mem, free := b.free } := by
    rw [hb]
    unfold Machine.bankStall
    split <;> rfl
  obtain ⟨-, -, hrest⟩ := h
  rw [hstall] at hrest
  have hmem : u.mem = b.mem := by rw [hrest]
  have hfree : u.free = b.free := by rw [hrest]
  rw [hmem, hfree]
  exact hrest

/-- Settles O34, a clause for each instruction and what it finds. -/
theorem matrixPassResults : Obligations.MatrixPassResults := by
  unfold Obligations.MatrixPassResults
  refine ⟨?pass, ?idle, ?held, ?letGo, ?wave, ?read, ?clear⟩
  case pass =>
    intro n t f k s hrun hone hopnd hs hops hheld hcells hcheck
    have hpass := tileMoved_runPass (h := (getH (threadOf s n t) f.hx).toNat) (st := (getS (threadOf s n t) f.hx).toInt)
      (row := (getD (threadOf s n t) f.dp).toNat % 256) (count := f.opnd.toNat / 64 + 1) (acc := f.opnd.getLsbD 5) hcells
    have hmoved := tileMoved_matIssue_start (lost := f.lost) hrun (legal := decide (f.opnd.toNat % 32 = 0) && !f.s)
      (by simp [hopnd, hs]) (arrayOpen_of_not_held rfl hops hheld) (opTrap_pass hcheck) hpass
    rw [thrOf_setArr] at hmoved
    exact tileRuns_of_tileMoved (exec_mpass hone s) hmoved
  case idle =>
    intro n t f k s hrun hone hopnd hs hops hheld hidle
    have hpass : TileMoved n (tileOf s n) (raise (tileReg n 8) 2 (bump (tileReg n 0x24) (f.opnd.toNat / 64 + 1) s))
        (runOp n k ⟨t, (threadOf s n t).pc, .pass (getH (threadOf s n t) f.hx).toNat (getS (threadOf s n t) f.hx).toInt
          ((getD (threadOf s n t) f.dp).toNat % 256) (f.opnd.toNat / 64 + 1) (f.opnd.getLsbD 5) (threadOf s n t).image
          (threadOf s n t).role⟩ s) := by
      have htiles := raise_tiles (tileReg n 8) 2 (bump (tileReg n 0x24) (f.opnd.toNat / 64 + 1) s)
      rw [runOp_pass, runPass_of_idle hidle, ← tileOf_congr (s := s) htiles]
      exact TileMoved.refl n _
    have hmoved := tileMoved_matIssue_start (lost := f.lost) hrun (legal := decide (f.opnd.toNat % 32 = 0) && !f.s)
      (by simp [hopnd, hs]) (arrayOpen_of_not_held rfl hops hheld) (by rw [opTrap, if_pos hidle]) hpass
    refine ⟨_, exec_mpass hone s, ?_⟩
    generalize matIssue n t k _ f.lost _ s = u at hmoved ⊢
    have hregs := congrArg State.regs hmoved.2.2
    have hstall := (bankStall_regsBut n f.lost (raise (tileReg n 8) 2 (bump (tileReg n 0x24) (f.opnd.toNat / 64 + 1) s))).trans
      (regsBut.of_regs_eq hregs []) (by simp)
    have hne (o o' : Nat) (h : o ≠ o') : tileReg n o ≠ tileReg n o' := fun heq => h (Nat.add_left_cancel heq)
    refine ⟨hmoved.1, hmoved.onlyTile_of_tiles_eq ?_, ?_, ?_, ?_, ?_⟩
    · rw [bankStall_tiles, raise_tiles]
      rfl
    · rw [hstall _ (by simpa using hne 0x24 0x1C (by decide)), raise_regsBut _ _ _ _ (by simpa using hne 0x24 8 (by decide)),
        rd_bump_toNat]
    · rw [hstall.rdb_eq (by simpa using hne 8 0x1C (by decide))]
      exact rdb_raise _ _ _ (by decide)
    · have hcount : regsBut [tileReg n 8, tileReg n 0x1C, tileReg n 0x24] s (bump (tileReg n 0x24) (f.opnd.toNat / 64 + 1) s) :=
        (bump_regsBut _ _ s).mono (by simp)
      exact (hcount.trans (raise_regsBut _ 2 _) (by simp)).trans hstall (by simp)
    · rw [hmoved.2.2]
      exact (bankStall_mem n f.lost _).trans (raise_mem _ _ _)
  case held =>
    intro n f k s hrun hone hopnd hhx hs hphy hroom hcode hpass hread
    have hblocked (kind : MatKind)
        (hkind : opBlocked (arrOf (tileOf s n) k) ⟨1, (threadOf s n 1).pc, kind⟩ =
          (decide ((1 : Thr) = 1) && (activeCtx (arrOf (tileOf s n) k)).phy || false)) :
        opBlocked (arrOf (tileOf s n) k) ⟨1, (threadOf s n 1).pc, kind⟩ = true := by
      rw [hkind, hphy]
      rfl
    have hcount : f.opnd.toNat / 64 + 1 = 1 := by rw [hopnd]; rfl
    have hacc : f.opnd.getLsbD 5 = false := by rw [hopnd]; rfl
    refine ⟨?_, ?_, ?_⟩
    · have hexec := exec_mpass (t := 1) (n := n) hone s
      rw [hcount, hacc] at hexec
      exact tileRuns_of_tileMoved (lost := 0) hexec
        (tileMoved_matIssue_queue hrun (by simp [hopnd, hs]) hroom (opTrap_pass hpass) (hblocked _ rfl))
    · have hexec := exec_mread (t := 1) (n := n) hone s
      rw [hs] at hexec
      exact tileRuns_of_tileMoved (lost := 0) hexec
        (tileMoved_matIssue_queue hrun (by simp [hopnd]) hroom (opTrap_read hcode hread) (hblocked _ rfl))
    · exact tileRuns_of_tileMoved (lost := 0) (exec_mclr hone s)
        (tileMoved_matIssue_queue hrun (by simp [hopnd, hhx, hs]) hroom rfl (hblocked _ rfl))
  case letGo =>
    intro n f k p pc s hrun hone hopnd hhx hdp hs hphy hshadow hload hqueue hwin
    have hk := lt_of_oneArray hone
    have hbit : f.amask.getLsbD k = true := by rw [getLsbD_of_oneArray hone k hk, decide_eq_true rfl]
    have hmask : f.amask ≠ 0 := by
      intro h
      rw [h] at hbit
      simp at hbit
    have hfree : cutBlocked 0 f.amask (tileOf s n) = false := by
      refine (cutBlocked_eq_false_iff _ _ _).2 fun j hj hjbit => (cutWaits_eq_false_iff _ _).2 ?_
      obtain rfl : j = k := by simpa [getLsbD_of_oneArray hone j hj] using hjbit
      exact ⟨hload, by rw [opsOf, hqueue]; rfl⟩
    have hwaits : suWaits (arrOf (tileOf s n) k) = true := by
      rw [suWaits, hqueue, List.any_cons]
      change (decide ((1 : Thr) = 1) && (activeCtx (arrOf (tileOf s n) k)).phy || _) = true
      rw [hphy]
      rfl
    have hcut := tileMoved_doCut ((TileMoved.refl n s).bump (tileReg n 0x54) f.lost) f.amask
    generalize hcutState : doCut n f.amask (bump (tileReg n 0x54) f.lost s) = c at hcut
    have harr : arrOf (tileOf c n) k = cutArray (arrOf (tileOf s n) k) := by rw [hcut.1, arrOf_cutTile _ _ hk, if_pos hbit]
    obtain ⟨a, haq, haa, hpump⟩ := pumpArr_of_clear (n := n) (k := k) (s := c) (pc := pc) (p := p) (by rw [harr]; exact hqueue)
      (by rw [harr, activeCtx_cutArray, hshadow])
    have hpumped : cutPump n 0 f.amask f.lost s = pumpArr n k c := by
      rw [cutPump, countHeld_of_held hk hbit hwaits, cutThrough_of_no_window (s := bump _ _ s) (.inr hwin), pumpMask_of_oneArray hone, hcutState]
    have hall : TileMoved n (setArr k a (setArr k { arrOf (tileOf c n) k with queue := [] } (tileOf c n)))
        (bump (tileReg n 0x10) (maskCount f.amask) (bump (tileReg n 0x54) f.lost s)) (pumpArr n k c) :=
      ⟨hpump.1, fun m hm => (hpump.2.1 m hm).trans (hcut.2.1 m hm), by rw [hpump.2.2, hcut.2.2]⟩
    have hmoved := tileMoved_coreStep (legal := true) (f := fun s => .ok (cutPump n 0 f.amask f.lost s)) hrun rfl (congrArg _ hpumped) hall
    refine ⟨_, exec_cut_of_free hmask hopnd hhx hdp hs hfree, ?_⟩
    generalize coreStep n 0 true (fun s => .ok (cutPump n 0 f.amask f.lost s)) s = u at hmoved ⊢
    have hregs : u.regs = (bump (tileReg n 0x10) (maskCount f.amask) (bump (tileReg n 0x54) f.lost s)).regs := by rw [hmoved.2.2]
    have hne : tileReg n 0x54 ≠ tileReg n 0x10 := fun heq => absurd (Nat.add_left_cancel heq) (by decide)
    refine ⟨?_, ?_, ?_, hmoved.2.1, ?_, hmoved.rest_of_regs rfl⟩
    · rw [hmoved.1, arrOf_setThr, arrOf_setArr_same, haq]
    · rw [hmoved.1, arrOf_setThr, arrOf_setArr_same, haa, harr]
      rfl
    · rw [rd, hregs, ← rd, rd_bump, if_neg hne, rd_bump_toNat]
    · have hheld : regsBut [tileReg n 0x10, tileReg n 0x54] s (bump (tileReg n 0x54) f.lost s) := (bump_regsBut _ _ s).mono (by simp)
      exact (hheld.trans (bump_regsBut _ _ _) (by simp)).trans (regsBut.of_regs_eq hregs []) (by simp)
  case wave =>
    intro c acc row j inp hmode hfmt hrow hj
    rw [wavefront_normal hmode acc hrow, (int8Cols_shows hfmt acc row inp 32).2, if_pos hj]
    rfl
  case read =>
    intro n t f k s hrun hone hopnd hops hheld hcode hcheck
    have hread := TileMoved.refl n (runRead n k (getH (threadOf s n t) f.hx).toNat (getD (threadOf s n t) f.dp) f.s s)
    rw [runRead_of_code hcode] at hread
    have hmoved := tileMoved_matIssue_start (lost := f.lost) hrun (legal := decide (f.opnd = 0)) (by simp [hopnd])
      (arrayOpen_of_not_held rfl hops hheld) (opTrap_read hcode hcheck) (by rw [runOp_read, runRead_of_code hcode]; exact hread)
    refine ⟨_, exec_mread hone s, ?_⟩
    generalize matIssue n t k _ f.lost _ s = u at hmoved ⊢
    have hmem : u.mem = (memPut (lsAddr n + (getH (threadOf s n t) f.hx).toNat)
        (readOut s (activeCtx (arrOf (tileOf s n) k)) (getD (threadOf s n t) f.dp) f.s) s).mem := by
      rw [hmoved.2.2]
      exact bankStall_mem n f.lost _
    refine ⟨hmoved.1, hmoved.onlyTile_of_tiles_eq (bankStall_tiles n f.lost _),
      hmoved.rest_of_mem_free rfl, ?_, fun hwc hint hshift hfloat hexact => ?_⟩
    · rw [← readOut_length s (activeCtx (arrOf (tileOf s n) k)) _ f.s]
      exact memBut_congr (memBut_memPut _ _ s) hmem
    · have hlen : 0 + 4 ≤ (readOut s (activeCtx (arrOf (tileOf s n) k)) (getD (threadOf s n t) f.dp) f.s).length := by
        rw [readOut_length, hint, readBytes]
        omega
      rw [← take_readOut_int32 f.s hint hshift hfloat hexact, ← List.drop_zero (l := readOut s _ _ _), ← memRead_memPut hwc hlen]
      exact memRead_congr fun i _ => memByte_congr hmem _
  case clear =>
    intro n t f k s hrun hone hopnd hhx hs hops hheld hexact
    have hclear := tileMoved_setTile n (setArr k (setActive (clearedCtx (getD (threadOf s n t) f.dp) (activeCtx (arrOf (tileOf s n) k)))
      (arrOf (tileOf s n) k)) (tileOf s n)) s
    rw [← runClear_of_native hexact] at hclear
    have hmoved := tileMoved_matIssue_start (kind := .clear (getD (threadOf s n t) f.dp)) (lost := f.lost) hrun
      (legal := decide (f.opnd = 0) && decide (f.hx = 0) && !f.s)
      (by simp [hopnd, hhx, hs]) (arrayOpen_of_not_held rfl hops hheld) rfl hclear
    rw [thrOf_setArr] at hmoved
    refine ⟨_, exec_mclr hone s, fun r _ j hj => ?_, ?_, hmoved.onlyTile_of_tiles_eq (bankStall_tiles n f.lost s), hmoved.2.2⟩
    · rw [hmoved.1, arrOf_setThr, arrOf_setArr_same, activeCtx_setActive, tabGet_clearedCtx _ _ _ (List.mem_range.1 hj)]
      rfl
    · rw [hmoved.threadOf_eq, thrOf_setThr_same]
      rfl

end Sys2Proof.Machine
end

/-! ### The vector engine (04 R124–R127, R131, R132; 05 R152, R161)

A vector register is read lane by lane: what is put together from 64 lanes gives each of them back. Stores and scatters are the writes
of their elements one behind another. -/

section
namespace Sys2Proof.Machine

/-! #### Lanes of a register (04 R124) -/

theorem leNat_append (bs cs : List Byte) : leNat (bs ++ cs) = leNat bs + 2 ^ (8 * bs.length) * leNat cs := by
  induction bs with
  | nil => simp [leNat]
  | cons b bs ih =>
    rw [List.cons_append, leNat, leNat, ih, List.length_cons, Nat.mul_succ, Nat.pow_add]
    ring

/-- The number that lanes spell, lane 0 lowest. -/
def laneNat (ls : List Word) : Nat := leNat (ls.flatMap fun w => leBytes 4 w.toNat)

theorem laneNat_cons (w : Word) (ls : List Word) : laneNat (w :: ls) = 2 ^ 32 * laneNat ls + w.toNat := by
  rw [laneNat, List.flatMap_cons, leNat_append, leNat_leBytes, leBytes_length, Nat.mod_eq_of_lt w.isLt, Nat.add_comm]
  rfl

theorem laneNat_lt (ls : List Word) : laneNat ls < 2 ^ (32 * ls.length) := by
  induction ls with
  | nil => exact Nat.one_pos
  | cons w ls ih =>
    have hw := w.isLt
    rw [laneNat_cons, List.length_cons, Nat.mul_succ, Nat.pow_add]
    generalize 2 ^ (32 * ls.length) = p at ih ⊢
    omega

theorem laneNat_div_mod (ls : List Word) (i : Nat) (hi : i < ls.length) : laneNat ls / 2 ^ (32 * i) % 2 ^ 32 = ls[i].toNat := by
  induction ls generalizing i with
  | nil => exact absurd hi (Nat.not_lt_zero i)
  | cons w ls ih =>
    have hw := w.isLt
    rw [laneNat_cons]
    cases i with
    | zero =>
      rw [Nat.mul_zero, Nat.pow_zero, Nat.div_one, List.getElem_cons_zero]
      omega
    | succ i =>
      have hdiv : (2 ^ 32 * laneNat ls + w.toNat) / 2 ^ 32 = laneNat ls := by omega
      rw [Nat.mul_succ, Nat.pow_add, Nat.mul_comm (2 ^ (32 * i)), ← Nat.div_div_eq_div_mul, hdiv, List.getElem_cons_succ]
      exact ih i (Nat.lt_of_succ_lt_succ hi)

theorem toNat_ofNat_of_lt {w v : Nat} (h : v < 2 ^ w) : (BitVec.ofNat w v).toNat = v := by
  rw [BitVec.toNat_ofNat, Nat.mod_eq_of_lt h]

theorem lane_ofLanes {ls : List Word} (hlen : ls.length = 64) {i : Nat} (hi : i < ls.length) : lane (ofLanes ls) i = ls[i] := by
  have hlt := laneNat_lt ls
  rw [hlen, show 32 * 64 = 2048 from rfl] at hlt
  refine BitVec.eq_of_toNat_eq ?_
  rw [lane, BitVec.extractLsb'_toNat, Nat.shiftRight_eq_div_pow, ofLanes, ← laneNat, toNat_ofNat_of_lt hlt,
    laneNat_div_mod ls i hi]

/-- Lane `i` of a register put together from a function of the lane number. -/
theorem lane_ofLanes_map_range (g : Nat → Word) {i : Nat} (hi : i < 64) : lane (ofLanes ((List.range 64).map g)) i = g i := by
  rw [lane_ofLanes (by simp) (by simpa using hi), List.getElem_map, List.getElem_range]

/-- Writing under a mask, lane by lane (04 R125). -/
theorem masked_map_range (men : Bool) (m : BitVec 64) (g h : Nat → Word) :
    masked men m ((List.range 64).map g) ((List.range 64).map h) =
      (List.range 64).map fun i => if !men || m.getLsbD i then h i else g i := by
  have hzip : (List.range 64).zip (((List.range 64).map g).zip ((List.range 64).map h)) = (List.range 64).map fun i => (i, g i, h i) := by
    have hid := List.zip_map' (f := id) (g := fun i => (g i, h i)) (l := List.range 64)
    rwa [List.map_id, ← List.zip_map'] at hid
  rw [masked, hzip, List.map_map]
  rfl

/-! #### Vector and mask registers -/

theorem getV_setV (k j : Nat) (v : BitVec 2048) (x : Tile) : getV (setV k v x) j = if j = k then v else getV x j := tabGet_tabSet ..

theorem getM_setM (k j : Nat) (v : BitVec 64) (x : Tile) : getM (setM k v x) j = if j = k then v else getM x j := tabGet_tabSet ..

@[simp] theorem thrOf_setV (k : Nat) (v : BitVec 2048) (x : Tile) (t : Thr) : thrOf (setV k v x) t = thrOf x t := rfl
@[simp] theorem thrOf_setM (k : Nat) (v : BitVec 64) (x : Tile) (t : Thr) : thrOf (setM k v x) t = thrOf x t := rfl

theorem setThr_v (t : Thr) (y : Thread) (x : Tile) : (setThr t y x).v = x.v := by
  unfold setThr
  split <;> rfl

theorem setThr_m (t : Thr) (y : Thread) (x : Tile) : (setThr t y x).m = x.m := by
  unfold setThr
  split <;> rfl

/-- What a tile shows once vector register `k` holds `v` and thread `t` is `y`. -/
theorem TileMoved.vector_shows {n : TileIx} {t : Thr} {y : Thread} {k : Nat} {v : BitVec 2048} {s b u : State}
    (h : TileMoved n (setThr t y (setV k v (tileOf s n))) b u) :
    getV (tileOf u n) k = v ∧ (∀ j, j ≠ k → getV (tileOf u n) j = getV (tileOf s n) j) ∧
      tileOf u n = setThr t y { tileOf s n with v := (tileOf u n).v } := by
  have hget (j : Nat) : getV (tileOf u n) j = if j = k then v else getV (tileOf s n) j := by
    rw [h.1, getV, setThr_v, ← getV_setV]
    rfl
  refine ⟨by rw [hget, if_pos rfl], fun j hj => by rw [hget, if_neg hj], ?_⟩
  rw [h.1, setThr_v]
  rfl

/-- The same for a mask register. -/
theorem TileMoved.mask_shows {n : TileIx} {t : Thr} {y : Thread} {k : Nat} {v : BitVec 64} {s b u : State}
    (h : TileMoved n (setThr t y (setM k v (tileOf s n))) b u) :
    getM (tileOf u n) k = v ∧ (∀ j, j ≠ k → getM (tileOf u n) j = getM (tileOf s n) j) ∧
      tileOf u n = setThr t y { tileOf s n with m := (tileOf u n).m } := by
  have hget (j : Nat) : getM (tileOf u n) j = if j = k then v else getM (tileOf s n) j := by
    rw [h.1, getM, setThr_m, ← getM_setM]
    rfl
  refine ⟨by rw [hget, if_pos rfl], fun j hj => by rw [hget, if_neg hj], ?_⟩
  rw [h.1, setThr_m]
  rfl

/-! #### Lane-wise operations -/

theorem tileMoved_vecStep {n : TileIx} {t : Thr} {legal : Bool} {f : Thread → Tile → Tile} {s : State} (hrun : canRun s n t = true)
    (hlegal : legal = true) :
    TileMoved n (setThr t (retire (thrOf (f (threadOf s n t) (tileOf s n)) t)) (f (threadOf s n t) (tileOf s n))) s
      (vecStep n t legal f s) := tileMoved_coreStep hrun hlegal rfl (tileMoved_setTile n _ s)

/-- The register that a lane-wise operation of `g` leaves (04 R125). -/
def arithReg (f : VecF) (g : Nat → Nat → Nat → Nat) (x : Tile) : BitVec 2048 :=
  ofLanes ((List.range 64).map fun k =>
    if !f.men || (getM x f.msk).getLsbD k then
      perElem f.typ.toNat g (lane (getV x f.va) k) (lane (getV x f.vb) k) (lane (getV x f.vd) k)
    else lane (getV x f.vd) k)

theorem vecArith_eq (n : TileIx) (t : Thr) (f : VecF) (g : Nat → Nat → Nat → Nat) (s : State) :
    vecArith n t f g s = vecStep n t (VecOk t f) (fun _ x => setV f.vd (arithReg f g x) x) s := by
  have hreg (x : Tile) : ofLanes (masked f.men (getM x f.msk) (lanes (getV x f.vd))
      (((lanes (getV x f.va)).zip ((lanes (getV x f.vb)).zip (lanes (getV x f.vd)))).map
        fun l => perElem f.typ.toNat g l.1 l.2.1 l.2.2)) = arithReg f g x := by
    rw [lanes, lanes, lanes, List.zip_map', List.zip_map', List.map_map, masked_map_range]
    rfl
  simp only [← hreg]
  rfl

theorem vecRuns_vecArith {i : Instr} {n : TileIx} {t : Thr} {f : VecF} {g : Nat → Nat → Nat → Nat} {s : State}
    (hrun : canRun s n t = true) (hok : VecOk t f = true) (hexec : exec i s = .next (vecArith n t f g s)) : VecRuns i n t f g s := by
  have hmoved := tileMoved_vecStep (f := fun _ x => setV f.vd (arithReg f g x) x) hrun hok
  rw [← vecArith_eq, thrOf_setV] at hmoved
  obtain ⟨hvd, hothers, htile⟩ := hmoved.vector_shows
  refine ⟨_, hexec, fun k hk => ?_, fun k _ hk => hothers k hk, htile, hmoved.2.1, hmoved.2.2⟩
  rw [hvd, arithReg, lane_ofLanes_map_range _ (List.mem_range.1 hk)]
  exact if_congr (by cases f.men <;> simp) rfl rfl

theorem signedOf_emod (a : Nat) : signedOf 32 a % 2 ^ 32 = (a : Int) % 2 ^ 32 := by
  unfold signedOf
  split <;> omega

theorem narrow_wraps (v : Int) : (narrow 32 false v : Int) = v % 2 ^ 32 := by
  rw [narrow, if_neg Bool.false_ne_true, BitVec.toNat_ofInt]
  omega

theorem elemAdd_int32 (a b : Nat) : elemAdd 1 false a b = (a + b) % 2 ^ 32 := by
  have h : ((elemAdd 1 false a b : Nat) : Int) = ((a : Int) + b) % 2 ^ 32 := by
    rw [Int.add_emod, ← signedOf_emod a, ← signedOf_emod b, ← Int.add_emod]
    exact narrow_wraps _
  omega

theorem elemMul_int32 (a b : Nat) : elemMul 1 false a b = a * b % 2 ^ 32 := by
  have h : ((elemMul 1 false a b : Nat) : Int) = ((a : Int) * b) % 2 ^ 32 := by
    rw [Int.mul_emod, ← signedOf_emod a, ← signedOf_emod b, ← Int.mul_emod]
    exact narrow_wraps _
  exact_mod_cast h

theorem elemMinMax_int32 (mx : Bool) (a b : Nat) :
    elemMinMax 1 mx a b = if decide (signedOf 32 a < signedOf 32 b) = mx then b else a := rfl

/-- Bits below `m` that meet `p`, as a number. -/
def bitSum (p : Nat → Bool) (m : Nat) : Nat := ((List.range m).filter p).foldl (fun a i => a + 2 ^ i) 0

theorem bitSum_succ (p : Nat → Bool) (m : Nat) : bitSum p (m + 1) = 2 ^ m * bnat (p m) + bitSum p m := by
  rw [bitSum, List.range_succ, List.filter_append, List.foldl_append, ← bitSum, List.filter_singleton]
  cases p m
  · simp [bnat]
  · simp [bnat, Nat.add_comm]

theorem bitSum_lt (p : Nat → Bool) (m : Nat) : bitSum p m < 2 ^ m := by
  induction m with
  | zero => exact Nat.one_pos
  | succ m ih =>
    rw [bitSum_succ, Nat.pow_succ]
    cases p m <;> simp only [bnat, Bool.false_eq_true, if_false, if_true] <;> omega

theorem testBit_bitSum (p : Nat → Bool) (m i : Nat) : (bitSum p m).testBit i = (decide (i < m) && p i) := by
  induction m with
  | zero => simp [bitSum]
  | succ m ih =>
    rw [bitSum_succ, Nat.testBit_two_pow_mul_add _ (bitSum_lt p m), ih]
    rcases Nat.lt_trichotomy i m with hlt | rfl | hgt
    · rw [if_pos hlt, decide_eq_true hlt, decide_eq_true (Nat.lt_succ_of_lt hlt)]
    · rw [if_neg (Nat.lt_irrefl i), Nat.sub_self, decide_eq_true (Nat.lt_succ_self i)]
      cases p i <;> rfl
    · obtain ⟨d, rfl⟩ : ∃ d, i = m + (d + 1) := ⟨i - m - 1, by omega⟩
      rw [if_neg (by omega), decide_eq_false (by omega), Nat.add_sub_cancel_left]
      cases p m <;> simp [bnat, Nat.testBit_succ]

/-- The mask that VCMP writes. -/
def compareMask (f : VecF) (x : Tile) : BitVec 64 :=
  BitVec.ofNat 64 (bitSum (fun i => laneCond f.typ.toNat f.msk (lane (getV x f.va) i) (lane (getV x f.vb) i)) 64)

/-- The register that VSEL writes. -/
def selectReg (f : VecF) (x : Tile) : BitVec 2048 :=
  ofLanes (masked true (getM x f.msk) (lanes (getV x f.vb)) (lanes (getV x f.va)))

/-- Settles O35, operation by operation. -/
theorem vectorLaneResults : Obligations.VectorLaneResults := by
  unfold Obligations.VectorLaneResults
  refine ⟨?arith, ?elems, ?compare, ?select⟩
  case arith =>
    exact fun n t f s hrun hok => ⟨vecRuns_vecArith hrun hok rfl, vecRuns_vecArith hrun hok rfl, vecRuns_vecArith hrun hok rfl,
      vecRuns_vecArith hrun hok rfl, vecRuns_vecArith hrun hok rfl⟩
  case elems =>
    intro a b _ _
    refine ⟨elemAdd_int32 a b, elemMul_int32 a b, ?_, ?_⟩
    · rw [elemMinMax_int32]
      exact if_congr (by simp) rfl rfl
    · rw [elemMinMax_int32]
      exact if_congr (by simp) rfl rfl
  case compare =>
    intro n t f s hrun htyp hvd hmen hs hcond hva hvb hthr
    have hlegal : (decide (f.typ.toNat ≤ 4) && decide (f.vd.val < 8) && !f.men && !f.s && decide (f.msk.val ≤ 5) &&
        c1Reg t f.va && c1Reg t f.vb && (decide (t = 0) || decide (4 ≤ f.vd.val))) = true := by
      simp [htyp, hvd, hmen, hs, hcond, hva, hvb, hthr]
    have hmoved := tileMoved_vecStep (f := fun _ x => setM f.vd (compareMask f x) x) hrun hlegal
    rw [thrOf_setM] at hmoved
    obtain ⟨hmask, hothers, htile⟩ := hmoved.mask_shows
    refine ⟨vecStep n t _ (fun _ x => setM f.vd (compareMask f x) x) s, rfl, fun i hi => ?_, htile, fun k _ hk => hothers k hk, hmoved.2.1, hmoved.2.2⟩
    have hi64 : i < 64 := List.mem_range.1 hi
    rw [hmask, compareMask, BitVec.getLsbD_ofNat, testBit_bitSum, decide_eq_true hi64]
    rfl
  case select =>
    intro n t f s hrun htyp hmen hs hvd hva hvb hthr
    have hlegal : (decide (f.typ.toNat ≤ 4) && !f.men && !f.s && c1Reg t f.vd && c1Reg t f.va && c1Reg t f.vb &&
        (decide (t = 0) || decide (4 ≤ f.msk.val))) = true := by
      simp [htyp, hmen, hs, hvd, hva, hvb, hthr]
    have hmoved := tileMoved_vecStep (f := fun _ x => setV f.vd (selectReg f x) x) hrun hlegal
    rw [thrOf_setV] at hmoved
    obtain ⟨hreg, hothers, htile⟩ := hmoved.vector_shows
    refine ⟨vecStep n t _ (fun _ x => setV f.vd (selectReg f x) x) s, rfl, fun i hi => ?_, htile, fun k _ hk => hothers k hk, hmoved.2.1, hmoved.2.2⟩
    rw [hreg, selectReg, lanes, lanes, masked_map_range, lane_ofLanes_map_range _ (List.mem_range.1 hi)]
    rfl

end Sys2Proof.Machine
end

/-! ### Vector loads and stores, gathers and scatters (04 R124, R131, R132; 05 R152, R156, R161) -/

section
namespace Sys2Proof.Machine

/-! #### Elements of memory -/

/-- Element `i` of what equal pieces make. -/
theorem take_drop_flatMap {α β : Type} {f : α → List β} {w : Nat} (hf : ∀ x, (f x).length = w) (l : List α) (i : Nat)
    (hi : i < l.length) : ((l.flatMap f).drop (i * w)).take w = f l[i] := by
  induction l generalizing i with
  | nil => exact absurd hi (Nat.not_lt_zero i)
  | cons x l ih =>
    rw [List.flatMap_cons]
    cases i with
    | zero => rw [Nat.zero_mul, List.drop_zero, List.take_left' (hf x), List.getElem_cons_zero]
    | succ i =>
      rw [Nat.succ_mul, Nat.add_comm, ← List.drop_drop, List.drop_left' (hf x), List.getElem_cons_succ]
      exact ih i (Nat.lt_of_succ_lt_succ hi)

theorem flatMap_length_of_eq {α β : Type} {f : α → List β} {w : Nat} (hf : ∀ x, (f x).length = w) (l : List α) :
    (l.flatMap f).length = l.length * w := by
  induction l with
  | nil => rw [List.flatMap_nil, List.length_nil, List.length_nil, Nat.zero_mul]
  | cons x l ih => rw [List.flatMap_cons, List.length_append, hf, ih, List.length_cons, Nat.succ_mul, Nat.add_comm]

@[simp] theorem lanes_length (v : BitVec 2048) : (lanes v).length = 64 := by rw [lanes, List.length_map, List.length_range]

theorem lanes_getElem (v : BitVec 2048) (i : Nat) (hi : i < (lanes v).length) : (lanes v)[i] = lane v i := by
  simp only [lanes, List.getElem_map, List.getElem_range]

theorem leAt_memRead (s : State) {a k o w : Nat} (h : o + w ≤ k) : leAt (memRead s a k) o w = leNat (memRead s (a + o) w) := by
  rw [leAt, take_drop_memRead s h]

/-- The register that VLD fills from address `a`, and that VGTH fills from its addresses. -/
def loadReg (s : State) (k a : Nat) : BitVec 2048 :=
  ofLanes ((List.range 64).map fun i => vmemLoad k (leAt (memRead s a (64 * vmemBytes k)) (i * vmemBytes k) (vmemBytes k)))

def gatherReg (s : State) (n k : Nat) (as : List Nat) : BitVec 2048 := ofLanes (as.map fun a => vmemLoad k (lsLoad s n a (vmemBytes k)))

theorem lane_loadReg (s : State) (k a : Nat) {i : Nat} (hi : i < 64) :
    lane (loadReg s k a) i = vmemLoad k (leNat (memRead s (a + i * vmemBytes k) (vmemBytes k))) := by
  have hin : i * vmemBytes k + vmemBytes k ≤ 64 * vmemBytes k := by
    rw [← Nat.succ_mul]
    exact Nat.mul_le_mul_right _ hi
  rw [loadReg, lane_ofLanes_map_range _ hi, leAt_memRead s hin]

theorem gatherAddrs_eq (y : Thread) (x : Tile) (f : VecF) :
    gatherAddrs y x f = (List.range 64).map fun i => (getH y f.vb + lane (getV x f.va) i).toNat := by
  rw [gatherAddrs, lanes, List.map_map]
  rfl

theorem lane_gatherReg (s : State) (n k : Nat) (g : Nat → Nat) {i : Nat} (hi : i < 64) :
    lane (gatherReg s n k ((List.range 64).map g)) i = vmemLoad k (leNat (memRead s (lsAddr n + g i) (vmemBytes k))) := by
  rw [gatherReg, List.map_map, lane_ofLanes_map_range _ hi]
  rfl

theorem firstTrap_eq_none {g : Nat → Option Nat} {l : List Nat} (h : ∀ a ∈ l, g a = none) : firstTrap g l = none := by
  induction l with
  | nil => rfl
  | cons a l ih =>
    rw [firstTrap, h a List.mem_cons_self]
    exact ih fun b hb => h b (List.mem_cons_of_mem _ hb)

theorem firstTrap_gatherAddrs {g : Nat → Option Nat} {y : Thread} {x : Tile} {f : VecF}
    (h : ∀ i ∈ List.range 64, g (getH y f.vb + lane (getV x f.va) i).toNat = none) : firstTrap g (gatherAddrs y x f) = none := by
  refine firstTrap_eq_none fun a ha => ?_
  rw [gatherAddrs_eq] at ha
  obtain ⟨i, hi, rfl⟩ := List.mem_map.1 ha
  exact h i hi

/-- The bytes that VST stores. -/
def storeBytes (k : Nat) (sb : Bool) (v : BitVec 2048) : List Byte := (lanes v).flatMap fun w => leBytes (vmemBytes k) (vmemStore k sb w)

theorem storeBytes_length (k : Nat) (sb : Bool) (v : BitVec 2048) : (storeBytes k sb v).length = 64 * vmemBytes k := by
  rw [storeBytes, flatMap_length_of_eq (fun _ => leBytes_length _ _), lanes_length]

/-- Element `i` in memory behind a VST. -/
theorem leNat_memRead_storeBytes {s : State} (hwc : s.mem.wc = []) (k : Nat) (sb : Bool) (v : BitVec 2048) (a : Nat) {i : Nat}
    (hi : i < 64) : leNat (memRead (memPut a (storeBytes k sb v) s) (a + i * vmemBytes k) (vmemBytes k)) =
      vmemStore k sb (lane v i) % 2 ^ (8 * vmemBytes k) := by
  have hin : i * vmemBytes k + vmemBytes k ≤ (storeBytes k sb v).length := by
    rw [storeBytes_length, ← Nat.succ_mul]
    exact Nat.mul_le_mul_right _ hi
  rw [memRead_memPut hwc hin, storeBytes, take_drop_flatMap (fun _ => leBytes_length _ _) _ i (by rwa [lanes_length]), lanes_getElem,
    leNat_leBytes]

/-! #### Scatters (04 R126; log 16) -/

theorem scatter_append (n k : Nat) (l l' : List (Nat × Word)) (s : State) : scatter n k (l ++ l') s = scatter n k l' (scatter n k l s) := by
  induction l generalizing s with
  | nil => rfl
  | cons e l ih => exact ih _

theorem scatter_eq_update (n k : Nat) (l : List (Nat × Word)) (s : State) : scatter n k l s = { s with mem := (scatter n k l s).mem } := by
  induction l generalizing s with
  | nil => rfl
  | cons e l ih =>
    rw [scatter, ih]
    rfl

theorem scatter_wc (n k : Nat) (l : List (Nat × Word)) (s : State) : (scatter n k l s).mem.wc = s.mem.wc := by
  induction l generalizing s with
  | nil => rfl
  | cons e l ih => exact ih _

theorem memButs_scatter (n k : Nat) (l : List (Nat × Word)) (s : State) :
    memButs (l.map fun e => lsAddr n + e.1) (vmemBytes k) s (scatter n k l s) := by
  induction l generalizing s with
  | nil => exact fun _ _ => rfl
  | cons e l ih =>
    intro x hx
    rw [List.map_cons] at hx
    exact (ih _ x fun b hb => hx b (List.mem_cons_of_mem _ hb)).trans (memBut_lsStore n e.1 _ _ s x (hx _ List.mem_cons_self))

/-- The lane that is stored last. -/
theorem leNat_memRead_scatter {s : State} (hwc : s.mem.wc = []) (n k : Nat) (l : List (Nat × Word)) (a : Nat) (w : Word) :
    leNat (memRead (scatter n k (l ++ [(a, w)]) s) (lsAddr n + a) (vmemBytes k)) = vmemStore k false w % 2 ^ (8 * vmemBytes k) := by
  have hwc' : (scatter n k l s).mem.wc = [] := (scatter_wc n k l s).trans hwc
  rw [scatter_append, scatter, scatter, memRead_lsStore hwc', leNat_leBytes]

/-- The elements of a scatter, lane by lane. -/
def scatterElems (y : Thread) (x : Tile) (f : VecF) : List (Nat × Word) := (gatherAddrs y x f).zip (lanes (getV x f.vd))

theorem scatterElems_eq (y : Thread) (x : Tile) (f : VecF) : scatterElems y x f =
    (List.range 64).map fun i => ((getH y f.vb + lane (getV x f.va) i).toNat, lane (getV x f.vd) i) := by
  rw [scatterElems, gatherAddrs_eq, lanes, List.zip_map']

/-! #### The statement -/

/-- The rest of the state, seen from one that differs in memory. -/
theorem TileMoved.rest_of_mem {n : TileIx} {x : Tile} {lost : Nat} {s b u : State} (h : TileMoved n x (Machine.bankStall n lost b) u)
    (hb : b = { s with mem := b.mem }) : u = { Machine.bankStall n lost s with tiles := u.tiles, mem := u.mem } := by
  have hstall : Machine.bankStall n lost b = { Machine.bankStall n lost s with mem := b.mem } := by
    rw [hb]
    unfold Machine.bankStall
    split <;> rfl
  obtain ⟨-, -, hrest⟩ := h
  rw [hstall] at hrest
  have hmem : u.mem = b.mem := by rw [hrest]
  rw [hmem]
  exact hrest

theorem TileMoved.mem_of_bankStall {n : TileIx} {x : Tile} {lost : Nat} {b u : State} (h : TileMoved n x (Machine.bankStall n lost b) u) :
    u.mem = b.mem := by
  rw [h.2.2]
  exact bankStall_mem n lost b

/-- An instruction that writes vector register `k`. -/
theorem tileMoved_coreStep_setV {n : TileIx} {t : Thr} {legal : Bool} {f : State → Except Nat State} {s : State} {k lost : Nat}
    {v : BitVec 2048} (hrun : canRun s n t = true) (hlegal : legal = true)
    (hf : f s = .ok (bankStall n lost (setTile n (setV k v (tileOf s n)) s))) :
    TileMoved n (setThr t (retire (threadOf s n t)) (setV k v (tileOf s n))) (bankStall n lost s) (coreStep n t legal f s) := by
  have hmoved := tileMoved_coreStep hrun hlegal hf ((tileMoved_setTile n _ s).bankStall lost)
  rwa [thrOf_setV] at hmoved

theorem exec_vld {n : TileIx} {t : Thr} {f : VecF} {s : State} (hrun : canRun s n t = true) (htyp : f.typ.toNat ≤ 6) (hs : f.s = false)
    (hmen : f.men = false) (hmsk : f.msk = 0) (hva : f.va = 0) (hvb : f.vb.val < 8) (hvd : c1Reg t f.vd = true)
    (hcheck : loadCheck s n (getH (threadOf s n t) f.vb).toNat (64 * vmemBytes f.typ.toNat) 1 = none) :
    ∃ u, exec (.vld n t f) s = .next u ∧ TileMoved n (setThr t (retire (threadOf s n t))
      (setV f.vd (loadReg s f.typ.toNat (lsAddr n + (getH (threadOf s n t) f.vb).toNat)) (tileOf s n))) (bankStall n f.lost s) u := by
  refine ⟨_, rfl, ?_⟩
  refine tileMoved_coreStep_setV hrun (by simp [htyp, hs, hmen, hmsk, hva, hvb, hvd]) ?_
  simp only [hcheck]
  rfl

theorem exec_vst {n : TileIx} {t : Thr} {f : VecF} {s : State} (hrun : canRun s n t = true) (htyp : f.typ.toNat ≤ 6)
    (hmen : f.men = false) (hmsk : f.msk = 0) (hva : f.va = 0) (hvb : f.vb.val < 8) (hvd : c1Reg t f.vd = true)
    (hcheck : addrCheck (getH (threadOf s n t) f.vb).toNat (64 * vmemBytes f.typ.toNat) 1 = none) :
    ∃ u, exec (.vst n t f) s = .next u ∧ TileMoved n (setThr t (retire (threadOf s n t)) (tileOf s n))
      (bankStall n f.lost (memPut (lsAddr n + (getH (threadOf s n t) f.vb).toNat)
        (storeBytes f.typ.toNat f.s (getV (tileOf s n) f.vd)) s)) u := by
  refine ⟨_, rfl, ?_⟩
  refine tileMoved_coreStep_of_tiles_eq hrun (by simp [htyp, hmen, hmsk, hva, hvb, hvd]) ?_ (bankStall_tiles n f.lost _)
  simp only [hcheck]
  rfl

theorem exec_vgth {n : TileIx} {t : Thr} {f : VecF} {s : State} (hrun : canRun s n t = true) (htyp : f.typ.toNat ≤ 6) (hs : f.s = false)
    (hmen : f.men = false) (hmsk : f.msk = 0) (hvb : f.vb.val < 8) (hvd : c1Reg t f.vd = true) (hva : c1Reg t f.va = true)
    (hcheck : firstTrap (fun a => loadCheck s n a (vmemBytes f.typ.toNat) 1) (gatherAddrs (threadOf s n t) (tileOf s n) f) = none) :
    ∃ u, exec (.vgth n t f) s = .next u ∧ TileMoved n (setThr t (retire (threadOf s n t)) (setV f.vd
      (gatherReg s n f.typ.toNat (gatherAddrs (threadOf s n t) (tileOf s n) f)) (tileOf s n))) (bankStall n f.lost s) u := by
  refine ⟨_, rfl, ?_⟩
  refine tileMoved_coreStep_setV hrun (by simp [htyp, hs, hmen, hmsk, hvb, hvd, hva]) ?_
  simp only [hcheck]
  rfl

theorem exec_vsct {n : TileIx} {t : Thr} {f : VecF} {s : State} (hrun : canRun s n t = true) (htyp : f.typ.toNat ≤ 6) (hs : f.s = false)
    (hmen : f.men = false) (hmsk : f.msk = 0) (hvb : f.vb.val < 8) (hvd : c1Reg t f.vd = true) (hva : c1Reg t f.va = true)
    (hcheck : firstTrap (fun a => addrCheck a (vmemBytes f.typ.toNat) 1) (gatherAddrs (threadOf s n t) (tileOf s n) f) = none) :
    ∃ u, exec (.vsct n t f) s = .next u ∧ TileMoved n (setThr t (retire (threadOf s n t)) (tileOf s n))
      (bankStall n f.lost (scatter n f.typ.toNat (scatterElems (threadOf s n t) (tileOf s n) f) s)) u := by
  refine ⟨_, rfl, ?_⟩
  refine tileMoved_coreStep_of_tiles_eq hrun (by simp [htyp, hs, hmen, hmsk, hvb, hvd, hva]) ?_ ?_
  · simp only [hcheck]
    rfl
  · rw [bankStall_tiles, scatter_eq_update]

/-- Settles O36, instruction by instruction. -/
theorem vectorMemoryResults : Obligations.VectorMemoryResults := by
  unfold Obligations.VectorMemoryResults
  refine ⟨?load, ?store, ?gather, ?scatters⟩
  case load =>
    intro n t f s hrun htyp hs hmen hmsk hva hvb hvd hcheck
    obtain ⟨u, hexec, hmoved⟩ := exec_vld hrun htyp hs hmen hmsk hva hvb hvd hcheck
    obtain ⟨hreg, hothers, htile⟩ := hmoved.vector_shows
    refine ⟨u, hexec, fun i hi => ?_, htile, fun k _ hk => hothers k hk, hmoved.onlyTile_of_tiles_eq (bankStall_tiles n f.lost s),
      hmoved.2.2⟩
    rw [hreg, lane_loadReg _ _ _ (List.mem_range.1 hi)]
  case store =>
    intro n t f s hrun htyp hmen hmsk hva hvb hvd hcheck
    obtain ⟨u, hexec, hmoved⟩ := exec_vst hrun htyp hmen hmsk hva hvb hvd hcheck
    have hmem := hmoved.mem_of_bankStall
    refine ⟨u, hexec, fun hwc i hi => ?_, ?_, hmoved.1, hmoved.onlyTile_of_tiles_eq (bankStall_tiles n f.lost _), hmoved.rest_of_mem rfl⟩
    · rw [← leNat_memRead_storeBytes hwc _ _ _ _ (List.mem_range.1 hi)]
      exact congrArg leNat (memRead_congr fun _ _ => memByte_congr hmem _)
    · rw [← storeBytes_length f.typ.toNat f.s (getV (tileOf s n) f.vd)]
      exact memBut_congr (memBut_memPut _ _ s) hmem
  case gather =>
    intro n t f s hrun htyp hs hmen hmsk hvb hvd hva hcheck
    obtain ⟨u, hexec, hmoved⟩ := exec_vgth hrun htyp hs hmen hmsk hvb hvd hva (firstTrap_gatherAddrs hcheck)
    obtain ⟨hreg, -, htile⟩ := hmoved.vector_shows
    refine ⟨u, hexec, fun i hi => ?_, htile, hmoved.onlyTile_of_tiles_eq (bankStall_tiles n f.lost s), hmoved.2.2⟩
    rw [hreg, gatherAddrs_eq, lane_gatherReg _ _ _ _ (List.mem_range.1 hi)]
  case scatters =>
    intro n t f s hrun htyp hs hmen hmsk hvb hvd hva hcheck
    obtain ⟨u, hexec, hmoved⟩ := exec_vsct hrun htyp hs hmen hmsk hvb hvd hva (firstTrap_gatherAddrs hcheck)
    have hmem := hmoved.mem_of_bankStall
    refine ⟨u, hexec, fun hwc => ?_, fun x hx => ?_, hmoved.1, hmoved.onlyTile_of_tiles_eq ?_, hmoved.rest_of_mem (scatter_eq_update ..)⟩
    · have hlast := leNat_memRead_scatter hwc n f.typ.toNat ((List.range 63).map fun i =>
          ((getH (threadOf s n t) f.vb + lane (getV (tileOf s n) f.va) i).toNat, lane (getV (tileOf s n) f.vd) i))
        (getH (threadOf s n t) f.vb + lane (getV (tileOf s n) f.va) 63).toNat (lane (getV (tileOf s n) f.vd) 63)
      rw [← List.map_singleton (f := fun i => ((getH (threadOf s n t) f.vb + lane (getV (tileOf s n) f.va) i).toNat,
        lane (getV (tileOf s n) f.vd) i)), ← List.map_append, ← List.range_succ, ← scatterElems_eq] at hlast
      rw [← hlast]
      exact congrArg leNat (memRead_congr fun _ _ => memByte_congr hmem _)
    · rw [memByte_congr hmem]
      refine memButs_scatter n _ _ s x fun b hb => hx b ?_
      rwa [scatterElems_eq, List.map_map] at hb
    · rw [bankStall_tiles, scatter_eq_update]

end Sys2Proof.Machine
end

/-! ### The lane-end tree and the reduction unit (04 R128–R130; 05 R152) -/

section
namespace Sys2Proof.Machine

/-! #### The tree over INT32 lanes (04 R128) -/

theorem signedOf_toNat (w : Word) : signedOf 32 w.toNat = w.toInt := by
  have hw := w.isLt
  rw [signedOf, BitVec.toInt_eq_toNat_cond]
  split <;> split <;> omega

theorem ofNat_narrow (sb : Bool) (v : Int) : BitVec.ofNat 32 (narrow 32 sb v) = satWord sb v := by
  rw [narrow, BitVec.ofNat_toNat, BitVec.setWidth_eq, satWord]
  cases sb <;> rfl

theorem treeElems_int32 (op : Nat) (high : Bool) (v : BitVec 2048) :
    treeElems 1 op high none v = (List.range 64).map fun i => (lane v i).toNat := by
  have hzip := List.zip_map' (f := id) (g := lane v) (l := List.range 64)
  rw [List.map_id] at hzip
  rw [treeElems, lanes, hzip, List.map_map]
  rfl

/-- The word that a SUM of INT32 lanes gives. -/
theorem treeWord_sum {f : VecF} (htyp : f.typ = 1) (hmsk : f.msk = 0) (hmen : f.men = false) (pick : Dword) (mask : BitVec 64)
    (v : BitVec 2048) :
    treeWord f pick mask v = satWord f.s ((List.range 64).foldl (fun a i => a + (lane v i).toInt) 0) := by
  have hsum : treeVal 1 0 false f.s (treeElems 1 0 (pick.getLsbD 16) none v) =
      narrow 32 f.s ((List.range 64).foldl (fun a i => a + (lane v i).toInt) 0) := by
    rw [treeElems_int32]
    change narrow 32 f.s ((((List.range 64).map fun i => (lane v i).toNat).map (signedOf 32)).foldl (· + ·) 0) = _
    simp only [List.map_map, List.foldl_map, Function.comp_def, signedOf_toNat]
  rw [← ofNat_narrow, ← hsum]
  unfold treeWord
  rw [htyp, hmsk, hmen]
  rfl

theorem exec_vtree {n : TileIx} {t : Thr} {f : VecF} {s : State} (hrun : canRun s n t = true) (htyp : f.typ = 1) (hmsk : f.msk = 0)
    (hmen : f.men = false) (hva : c1Reg t f.va = true) (hvd : f.vd.val < 16) (hvb : f.vb = 0) :
    ∃ u, exec (.vtree n t f) s = .next u ∧ TileMoved n (setThr t (retire (setD f.vd (satWord f.s
      ((List.range 64).foldl (fun a i => a + (lane (getV (tileOf s n) f.va) i).toInt) 0)) (threadOf s n t))) (tileOf s n)) s u := by
  have hone : f.typ.toNat = 1 := by rw [htyp]; rfl
  refine ⟨_, rfl, ?_⟩
  refine tileMoved_coreStep_setThread hrun (by simp [hone, hmsk, hva, hvb, hvd]) ?_ rfl
  simp only [treeWord_sum htyp hmsk hmen, hmen, hone, hvd, if_true]
  rfl

/-! #### The reduction unit (04 R129, R130) -/

/-- The value of a lane of the unit once it has taken `w` (04 R129). -/
def feedVal (op : Nat) (busy : Bool) (old w : Word) : Word :=
  if op = 0 then old + w
  else if busy = false then w
  else if op = 1 ∨ op = 3 then (if w.toInt < old.toInt then w else old)
  else (if old.toInt < w.toInt then w else old)

theorem ofNat_elemAdd (a b : Word) : BitVec.ofNat 32 (elemAdd 1 false a.toNat b.toNat) = a + b := by
  rw [elemAdd_int32]
  refine BitVec.eq_of_toNat_eq ?_
  rw [BitVec.toNat_ofNat, BitVec.toNat_add, Nat.mod_mod]

theorem ofNat_elemMinMax (mx : Bool) (a b : Word) :
    BitVec.ofNat 32 (elemMinMax 1 mx a.toNat b.toNat) = if decide (a.toInt < b.toInt) = mx then b else a := by
  rw [elemMinMax_int32, signedOf_toNat, signedOf_toNat]
  split <;> rw [BitVec.ofNat_toNat, BitVec.setWidth_eq]

theorem argBeats_int32 (mx : Bool) (a b : Word) :
    argBeats 1 mx a.toNat b.toNat = if mx then decide (a.toInt < b.toInt) else decide (b.toInt < a.toInt) := by
  have hcmp : elemCompare 1 a.toNat b.toNat = some (compare a.toInt b.toInt) := by
    rw [← signedOf_toNat a, ← signedOf_toNat b]
    rfl
  rw [argBeats, hcmp]
  rcases Int.lt_trichotomy a.toInt b.toInt with hlt | heq | hgt
  · rw [compare_lt_iff_lt.2 hlt, decide_eq_true hlt, decide_eq_false (Int.lt_asymm hlt)]
    cases mx <;> rfl
  · rw [heq, compare_eq_iff_eq.2 rfl, decide_eq_false (Int.lt_irrefl _)]
    cases mx <;> rfl
  · rw [compare_gt_iff_gt.2 hgt, decide_eq_true hgt, decide_eq_false (Int.lt_asymm hgt)]
    cases mx <;> rfl

/-- MIN and MAX (04 R129): of equal values either is the other. -/
theorem feedVal_minMax {op : Nat} (hop : op = 1 ∨ op = 2) (busy : Bool) (old w : Word) :
    feedVal op busy old w = if !busy then w else BitVec.ofNat 32 (elemMinMax 1 (decide (op = 2)) old.toNat w.toNat) := by
  have hsame (h : old.toInt = w.toInt) : old = w := BitVec.eq_of_toInt_eq h
  rw [ofNat_elemMinMax]
  cases busy with
  | false => obtain rfl | rfl := hop <;> rfl
  | true =>
    obtain rfl | rfl := hop
    · change (if w.toInt < old.toInt then w else old) = if decide (old.toInt < w.toInt) = false then w else old
      rcases Int.lt_trichotomy old.toInt w.toInt with hlt | heq | hgt
      · rw [if_neg (Int.lt_asymm hlt), decide_eq_true hlt, if_neg (by decide)]
      · rw [hsame heq, ite_self, ite_self]
      · rw [if_pos hgt, decide_eq_false (Int.lt_asymm hgt), if_pos rfl]
    · change (if old.toInt < w.toInt then w else old) = if decide (old.toInt < w.toInt) = true then w else old
      exact if_congr decide_eq_true_iff.symm rfl rfl

/-- ARGMIN and ARGMAX take a value that beats the winner. -/
theorem feedVal_arg {op : Nat} (hop : op = 3 ∨ op = 4) (busy : Bool) (old w : Word) :
    feedVal op busy old w = if !busy || argBeats 1 (decide (op = 4)) old.toNat w.toNat then w else old := by
  rw [argBeats_int32]
  cases busy with
  | false => obtain rfl | rfl := hop <;> rfl
  | true =>
    obtain rfl | rfl := hop
    · change (if w.toInt < old.toInt then w else old) = if decide (w.toInt < old.toInt) = true then w else old
      exact if_congr decide_eq_true_iff.symm rfl rfl
    · change (if old.toInt < w.toInt then w else old) = if decide (old.toInt < w.toInt) = true then w else old
      exact if_congr decide_eq_true_iff.symm rfl rfl

/-- One lane takes `w`: its value is the new one, the other lanes stay, and so do the marks of the unit. -/
theorem ruLane_shows {op : Nat} (hop : op ≤ 4) (i : Nat) (w : Word) (r : RedUnit) :
    (ruLane op 1 false i w r).busy = r.busy ∧
    ∀ j, tabGet (fun _ => (0 : Word)) (ruLane op 1 false i w r).val j =
      if j = i then feedVal op r.busy (tabGet (fun _ => (0 : Word)) r.val i) w else tabGet (fun _ => (0 : Word)) r.val j := by
  have hset (v : Word) (j : Nat) : tabGet (fun _ => (0 : Word)) (tabSet (fun _ => 0) r.val i v) j =
      if j = i then v else tabGet (fun _ => (0 : Word)) r.val j := tabGet_tabSet ..
  obtain rfl | hmm | harg : op = 0 ∨ (op = 1 ∨ op = 2) ∨ (op = 3 ∨ op = 4) := by omega
  · refine ⟨rfl, fun j => (hset _ j).trans ?_⟩
    rw [ofNat_elemAdd]
    rfl
  · have hlane : ruLane op 1 false i w r =
        { r with val := tabSet (fun _ => 0) r.val i (feedVal op r.busy (tabGet (fun _ => (0 : Word)) r.val i) w) } := by
      rw [feedVal_minMax hmm]
      obtain rfl | rfl := hmm <;> rfl
    rw [hlane]
    exact ⟨rfl, hset _⟩
  · have hval := feedVal_arg harg r.busy (tabGet (fun _ => (0 : Word)) r.val i) w
    have hlane : ruLane op 1 false i w r =
        if !r.busy || argBeats 1 (decide (op = 4)) (tabGet (fun _ => (0 : Word)) r.val i).toNat w.toNat then
          { r with val := tabSet (fun _ => 0) r.val i w, idx := tabSet (fun _ => 0) r.idx i r.count } else r := by
      obtain rfl | rfl := harg <;> rfl
    rw [hlane, hval]
    split
    · exact ⟨rfl, hset _⟩
    · refine ⟨rfl, fun j => ?_⟩
      split
      · next heq => rw [heq]
      · rfl

/-- The first `m` lanes take `g`, one behind another. -/
def feedLanes (op : Nat) (g : Nat → Word) (m : Nat) (r : RedUnit) : RedUnit :=
  (List.range m).foldl (fun r i => ruLane op 1 false i (g i) r) r

theorem feedLanes_shows {op : Nat} (hop : op ≤ 4) (g : Nat → Word) (r : RedUnit) (m : Nat) :
    (feedLanes op g m r).busy = r.busy ∧
    ∀ j, tabGet (fun _ => (0 : Word)) (feedLanes op g m r).val j =
      if j < m then feedVal op r.busy (tabGet (fun _ => (0 : Word)) r.val j) (g j) else tabGet (fun _ => (0 : Word)) r.val j := by
  induction m with
  | zero => exact ⟨rfl, fun j => (if_neg (Nat.not_lt_zero j)).symm⟩
  | succ m ih =>
    obtain ⟨hbusy, hval⟩ := ih
    obtain ⟨hbusy', hval'⟩ := ruLane_shows hop m (g m) (feedLanes op g m r)
    have hstep : feedLanes op g (m + 1) r = ruLane op 1 false m (g m) (feedLanes op g m r) := by
      rw [feedLanes, List.range_succ, List.foldl_append]
      rfl
    rw [hstep]
    refine ⟨hbusy'.trans hbusy, fun j => ?_⟩
    rw [hval', hbusy, hval, hval, if_neg (Nat.lt_irrefl m)]
    by_cases hj : j = m
    · rw [hj, if_pos rfl, if_pos (Nat.lt_succ_self m)]
    · rw [if_neg hj]
      exact if_congr (by omega) rfl rfl

/-- A vector of INT32 lanes, taken without the exact option. -/
theorem ruFeed_map_range (op : Nat) (g : Nat → Word) (r : RedUnit) :
    ruFeed op 1 false ((List.range 64).map g) r = { feedLanes op g 64 r with
      busy := true, op := op, typ := 1, exact := false, count := if r.count = 0xFFFFFFFF then r.count else r.count + 1 } := by
  have hzip := List.zip_map' (f := id) (g := g) (l := List.range 64)
  rw [List.map_id] at hzip
  rw [ruFeed, hzip, List.foldl_map]
  rfl

/-- The word that lane `i` of the unit takes: from the local store, or from a vector register (04 R129). -/
def feedWord (s : State) (n : TileIx) (f : VecF) (i : Nat) : Word :=
  if 16 ≤ f.vb.val then BitVec.ofNat 32 (leNat (memRead s (lsAddr n + ((getH (threadOf s n 0) (f.vb.val % 8)).toNat + 4 * i)) 4))
  else lane (getV (tileOf s n) f.va) i

theorem exec_rufeed {n : TileIx} {f : VecF} {raw : Bool} {s : State} (hrun : canRun s n 0 = true) (htyp : f.typ = 1)
    (hmsk : f.msk.val ≤ 4) (hvd : f.vd = 0) (hmen : f.men = false) (hs : f.s = false)
    (hsrc : f.vb = 0 ∨ (16 ≤ f.vb.val ∧ f.vb.val < 24 ∧ f.va = 0 ∧
      loadCheck s n (getH (threadOf s n 0) (f.vb.val % 8)).toNat 256 1 = none))
    (hcount : ¬ (3 ≤ f.msk.val ∧ (tileOf s n).ru.count = 0xFFFFFFFE)) :
    ∃ u, exec (.rufeed n 0 { f with partials := raw }) s = .next u ∧
      TileMoved n (setThr 0 (retire (threadOf s n 0))
        { tileOf s n with ru := ruFeed f.msk 1 false ((List.range 64).map (feedWord s n f)) (tileOf s n).ru })
        (bankStall n (if 16 ≤ f.vb.val then f.lost else 0) s) u := by
  have hone : f.typ.toNat = 1 := by rw [htyp]; rfl
  refine ⟨_, rfl, ?_⟩
  refine tileMoved_coreStep hrun ?_ ?_ ((tileMoved_setTile n _ s).bankStall _)
  · obtain hvb | ⟨hlo, hhi, hva, -⟩ := hsrc
    · simp [hone, hmsk, hvd, hmen, hs, hvb]
    · simp [hone, hmsk, hvd, hmen, hs, hva]
      omega
  · obtain hvb | ⟨hlo, hhi, hva, hcheck⟩ := hsrc
    · have hreg : lanes (getV (tileOf s n) f.va) = (List.range 64).map (feedWord s n f) :=
        List.map_congr_left fun i _ => by rw [feedWord, if_neg (by rw [hvb]; decide)]
      simp [hone, hvd, hvb, hreg, lanePacked]
      exact fun harg hlast => absurd ⟨harg, hlast⟩ hcount
    · have hreg : (List.range 64).map (fun i => BitVec.ofNat 32 (lsLoad s n ((getH (threadOf s n 0) (f.vb.val % 8)).toNat + 4 * i) 4)) =
          (List.range 64).map (feedWord s n f) := List.map_congr_left fun i _ => by rw [feedWord, if_pos hlo]; rfl
      simp [hone, hvd, hlo, hreg, lanePacked, ruBytesIn, hcheck]
      exact fun harg hlast => absurd ⟨harg, hlast⟩ hcount

/-! #### Read-out of the unit (04 R130) -/

theorem ruRead_int32 {r : RedUnit} (htyp : r.typ = 1) (hexact : r.exact = false) (sb : Bool) (i : Nat) :
    ruRead r 1 sb i = some (leBytes 4 (tabGet (fun _ => (0 : Word)) r.val i).toNat) := by
  have hint : laneInt r.typ = true := by rw [htyp]; rfl
  simp only [ruRead, hexact, hint, Bool.false_and, Bool.false_eq_true, if_false]
  exact congrArg some (congrArg (leBytes 4) (narrow_toInt sb _))

/-- A table of 64 words as bytes. -/
def tabBytes (t : Tab Word) : List Byte := (List.range 64).flatMap fun i => leBytes 4 (tabGet (fun _ => (0 : Word)) t i).toNat

theorem tabBytes_length (t : Tab Word) : (tabBytes t).length = 256 := by
  rw [tabBytes, flatMap_length_of_eq (fun _ => leBytes_length _ _), List.length_range]

theorem take_drop_tabBytes (t : Tab Word) {i : Nat} (hi : i < 64) :
    ((tabBytes t).drop (4 * i)).take 4 = leBytes 4 (tabGet (fun _ => (0 : Word)) t i).toNat := by
  rw [Nat.mul_comm, tabBytes, take_drop_flatMap (fun _ => leBytes_length _ _) _ i (by rwa [List.length_range]), List.getElem_range]

/-- The bytes of a read-out: the values, and for an ARG form the indices behind them. -/
def unitBytes (r : RedUnit) : List Byte := tabBytes r.val ++ if 3 ≤ r.op then tabBytes r.idx else []

theorem unitBytes_length (r : RedUnit) : (unitBytes r).length = if 3 ≤ r.op then 512 else 256 := by
  rw [unitBytes, List.length_append, tabBytes_length]
  split
  · rw [tabBytes_length]
  · rfl

theorem take_drop_unitBytes_val (r : RedUnit) {i : Nat} (hi : i < 64) :
    ((unitBytes r).drop (4 * i)).take 4 = leBytes 4 (tabGet (fun _ => (0 : Word)) r.val i).toNat := by
  have hlen := tabBytes_length r.val
  rw [unitBytes, List.drop_append_of_le_length (by omega), List.take_append_of_le_length (by rw [List.length_drop]; omega),
    take_drop_tabBytes _ hi]

theorem take_drop_unitBytes_idx {r : RedUnit} (hop : 3 ≤ r.op) {i : Nat} (hi : i < 64) :
    ((unitBytes r).drop (256 + 4 * i)).take 4 = leBytes 4 (tabGet (fun _ => (0 : Word)) r.idx i).toNat := by
  rw [unitBytes, if_pos hop, ← List.drop_drop, List.drop_left' (tabBytes_length r.val), take_drop_tabBytes _ hi]

theorem ruReadAll_int32 {r : RedUnit} (htyp : r.typ = 1) (hexact : r.exact = false) (sb : Bool) (free : Nat) :
    ruReadAll r 1 sb free = tabBytes r.val := by
  simp only [ruReadAll, ruRead_int32 htyp hexact]
  rfl

/-- What a read-out that stores at `a` of the local store leaves, its next instruction apart. -/
def unitStored (n : TileIx) (a lost : Nat) (r : RedUnit) (s : State) : State :=
  bankStall n lost { memPut (lsAddr n + a) (unitBytes r) s with free := s.free + 64 }

theorem exec_ruread {n : TileIx} {f : VecF} {s : State} (hrun : canRun s n 0 = true) (htyp : f.typ = 1) (hmsk : f.msk = 0)
    (hvd : f.vd.val ≤ 1) (hmen : f.men = false) (hva : f.va = 0) (hvb : f.vb.val < 8) (hru : (tileOf s n).ru.typ = 1)
    (hexact : (tileOf s n).ru.exact = false)
    (hcheck : addrCheck (getH (threadOf s n 0) f.vb).toNat (if 3 ≤ (tileOf s n).ru.op then 512 else 256) 1 = none) :
    ∃ u, exec (.ruread n 0 f) s = .next u ∧
      TileMoved n (setThr 0 (retire (threadOf s n 0)) { tileOf s n with ru := if f.vd = 1 then {} else (tileOf s n).ru })
        (unitStored n (getH (threadOf s n 0) f.vb).toNat f.lost (tileOf s n).ru s) u := by
  have hone : f.typ.toNat = 1 := by rw [htyp]; rfl
  have hbytes : ruReadAll (tileOf s n).ru f.typ.toNat f.s s.free ++ (if 3 ≤ (tileOf s n).ru.op then
      (List.range 64).flatMap fun i => leBytes 4 (tabGet (fun _ => (0 : Word)) (tileOf s n).ru.idx i).toNat else []) =
      unitBytes (tileOf s n).ru := by
    rw [hone, ruReadAll_int32 hru hexact]
    rfl
  generalize hb : unitStored n (getH (threadOf s n 0) f.vb).toNat f.lost (tileOf s n).ru s = b
  have htile : tileOf b n = tileOf s n := by
    rw [← hb, unitStored, tileOf_bankStall]
    rfl
  have hstore : TileMoved n { tileOf s n with ru := if f.vd = 1 then {} else (tileOf s n).ru } b
      (if f.vd = 1 then setTile n { tileOf b n with ru := {} } b else b) := by
    rw [htile]
    split
    · exact tileMoved_setTile n _ b
    · have hself := TileMoved.refl n b
      rwa [htile] at hself
  refine ⟨_, rfl, ?_⟩
  refine tileMoved_coreStep hrun (by simp [hone, hmsk, hvd, hmen, hva, hvb]) ?_ hstore
  simp only [hbytes, unitBytes_length, hcheck]
  rw [← hb]
  have hclear : f.vd.val = 1 ↔ f.vd = 1 := (Fin.ext_iff (a := f.vd) (b := 1)).symm
  exact congrArg Except.ok (if_congr hclear rfl rfl)

@[simp] theorem setThr_ru (t : Thr) (y : Thread) (x : Tile) : (setThr t y x).ru = x.ru := by
  unfold setThr
  split <;> rfl

/-- Settles O37, instruction by instruction. -/
theorem treeAndReductionUnit : Obligations.TreeAndReductionUnit := by
  unfold Obligations.TreeAndReductionUnit
  refine ⟨?tree, ?feed, ?readOut⟩
  case tree =>
    intro n t f s hrun htyp hmsk hmen hva hvd hvb
    obtain ⟨u, hexec, hmoved⟩ := exec_vtree hrun htyp hmsk hmen hva hvd hvb
    exact ⟨u, hexec, hmoved.onlyThread⟩
  case feed =>
    intro n f raw s hrun htyp hmsk hvd hmen hs hsrc hcount
    obtain ⟨u, hexec, hmoved⟩ := exec_rufeed (raw := raw) hrun htyp hmsk hvd hmen hs hsrc hcount
    have hru : (tileOf u n).ru = ruFeed f.msk 1 false ((List.range 64).map (feedWord s n f)) (tileOf s n).ru := by
      rw [hmoved.1, setThr_ru]
    have hfeed := hru.trans (ruFeed_map_range f.msk (feedWord s n f) (tileOf s n).ru)
    refine ⟨u, hexec, ?_, ?_, ?_, ?_, fun i hi => ?_, by rw [hru]; exact hmoved.1,
      hmoved.onlyTile_of_tiles_eq (bankStall_tiles n _ s), hmoved.2.2⟩
    · rw [hfeed]
    · rw [hfeed]
    · rw [hfeed]
    · rw [hfeed]
      split
      · assumption
      · rfl
    · have hlanes := (feedLanes_shows hmsk (feedWord s n f) (tileOf s n).ru 64).2 i
      rw [if_pos (List.mem_range.1 hi)] at hlanes
      rw [hfeed]
      refine hlanes.trans ?_
      have hop (k : Fin 8) : f.msk.val = k.val ↔ f.msk = k := Fin.ext_iff.symm
      exact if_congr (hop 0) rfl (if_congr Iff.rfl rfl (if_congr (or_congr (hop 1) (hop 3)) rfl rfl))
  case readOut =>
    intro n f s hrun htyp hmsk hvd hmen hva hvb hru hexact hcheck
    obtain ⟨u, hexec, hmoved⟩ := exec_ruread hrun htyp hmsk hvd hmen hva hvb hru hexact hcheck
    have hmem := hmoved.mem_of_bankStall
    have hunit : (tileOf u n).ru = if f.vd = 1 then {} else (tileOf s n).ru := by rw [hmoved.1, setThr_ru]
    have hlen := unitBytes_length (tileOf s n).ru
    refine ⟨u, hexec, fun hwc i hi => ⟨?_, fun hop => ?_⟩, ?_, hunit, by rw [hunit]; exact hmoved.1,
      hmoved.onlyTile_of_tiles_eq (bankStall_tiles n f.lost _), hmoved.rest_of_mem_free rfl⟩
    · have hi64 := List.mem_range.1 hi
      rw [← take_drop_unitBytes_val _ hi64, ← memRead_memPut hwc (by rw [hlen]; split <;> omega)]
      exact memRead_congr fun _ _ => memByte_congr hmem _
    · have hi64 := List.mem_range.1 hi
      rw [← take_drop_unitBytes_idx hop hi64, ← memRead_memPut hwc (by rw [hlen, if_pos hop]; omega), Nat.add_assoc]
      exact memRead_congr fun _ _ => memByte_congr hmem _
    · rw [← hlen]
      exact memBut_congr (memBut_memPut _ _ s) hmem

end Sys2Proof.Machine
end

/-! ### A list's descriptor, and the tiles that Dolly pumps (06 R173, R174, R198)

Whenever a list changes, Dolly issues what it may on every tile that the state lists, and DOLLY_PEAK follows on each. The statement
lets DOLLY_PEAK move on the 64 tiles of the part (`peakRegs`); but it speaks of every state, and has no premise that keeps a state
from listing a tile behind the last one, which no instruction names. -/

section
namespace Sys2Proof.Machine

/-- A descriptor that breaks a rule stops its list with the cause found. -/
theorem exec_dollyDescriptorStart_of_bad {n : TileIx} {t : Thr} {l : DollyList} {s : State} (hlist : listOf (tileOf s n) t = some l)
    (hended : l.ended = false) (hreel : l.atReel = none) (hfence : fenced s n = false) (hin : ddOffset l + 32 ≤ lsSize)
    (hwait : ddFence (memRead s (lsAddr n + ddOffset l) 32) = false ∨ l.jobs = [])
    (hbad : ddCheck s (memRead s (lsAddr n + ddOffset l) 32) ≠ 0) :
    exec (.dollyDescriptorStart n t) s =
      .next (dollyError n t l (ddCheck s (memRead s (lsAddr n + ddOffset l) 32)) s) := by
  have hready : (ddFence (memRead s (lsAddr n + ddOffset l) 32) && decide (l.jobs ≠ [])) = false := by
    obtain h | h := hwait <;> simp [h]
  change execDollyDescriptorStart n t s = _
  rw [execDollyDescriptorStart, hlist]
  simp only [hended, hreel, hfence, Option.isSome_none, Bool.or_self, Bool.false_eq_true, if_false, Nat.not_lt.2 hin, hready, hbad,
    ne_eq, not_false_eq_true, if_true]

/-- A list of C0 at the start of its tile's local store. -/
def listAtZero (jobs : List DollyJob) : DollyList :=
  { thr := 0, base := 0, pos := 0, jobs, atReel := none, ended := false, cls := 0, owner := .none }

/-- A copy with one transfer of 16 bytes outstanding. -/
def copyOutstanding : DollyJob :=
  { move := .copy, last := false, push := none, todo := [], outstanding := [⟨0, 0x1000, 16, 0⟩], stream := ⟨0, 0, 0, 0⟩,
    id := 0, engine := 0, fed := 0 }

/-- The device at reset, with a list on tile 0 whose descriptor is all zeros (its ROWLEN is too short), and `copyOutstanding` on a
tile 64. -/
def listPastLastTile : State :=
  { State.reset with tiles := [(0, { dolly := [listAtZero []] }), (64, { dolly := [listAtZero [copyOutstanding]] })] }

theorem ddCheck_listPastLastTile : ddCheck listPastLastTile (memRead listPastLastTile (lsAddr 0 + ddOffset (listAtZero [])) 32) = 2 := by
  decide +kernel

/-- The list of tile 0 stops, and DOLLY_PEAK of tile 64 follows the transfer outstanding there. -/
theorem rd_dollyError_listPastLastTile :
    rd listPastLastTile (tileReg 64 0x68) = 0 ∧
    rd (dollyError 0 0 (listAtZero []) 2 listPastLastTile) (tileReg 64 0x68) = 1 := by
  decide +kernel

/-- Refutes O41: from `listPastLastTile` the descriptor that breaks a rule changes DOLLY_PEAK of tile 64. -/
theorem not_dollyListSteps : ¬ Obligations.DollyListSteps := by
  rintro ⟨-, hbad, -⟩
  have hlist : listOf (tileOf listPastLastTile (0 : TileIx)) 0 = some (listAtZero []) := by decide +kernel
  have hfence : fenced listPastLastTile (0 : TileIx) = false := by decide +kernel
  have hin : ddOffset (listAtZero []) + 32 ≤ lsSize := by decide
  have hcheck : ddCheck listPastLastTile (memRead listPastLastTile (lsAddr (0 : TileIx) + ddOffset (listAtZero [])) 32) ≠ 0 := by
    rw [show ((0 : TileIx) : Nat) = 0 from rfl, ddCheck_listPastLastTile]
    decide
  obtain ⟨u, hrun, -, -, hregs, -⟩ := hbad 0 0 _ _ hlist rfl rfl hfence hin (.inr rfl) hcheck
  rw [exec_dollyDescriptorStart_of_bad hlist rfl rfl hfence hin (.inr rfl) hcheck] at hrun
  obtain rfl := Host.Outcome.next.inj hrun
  obtain ⟨hbefore, hafter⟩ := rd_dollyError_listPastLastTile
  have hkept := hregs (tileReg 64 0x68) (by decide +kernel)
  rw [show ((0 : TileIx) : Nat) = 0 from rfl, ddCheck_listPastLastTile, hafter, hbefore] at hkept
  exact absurd hkept (by decide)

end Sys2Proof.Machine
end

/-! ### F0 and F1 instructions of a core (05 R150–R153, R161, R162)

An instruction that acts on its thread's registers alone changes the tile in that thread and nothing else; one with companion transfers
also moves their heads, registers and words. Both are said once for any operation on the thread. What is then left of each instruction
is the word and the flags that it makes. -/

section
namespace Sys2Proof.Machine

/-! #### A step that acts on its thread's registers -/

/-- A tile that changed in one thread alone, seen from a state with the same tiles. -/
theorem TileMoved.onlyThread_of_tiles_eq {n : TileIx} {t : Thr} {y : Thread} {s b u : State}
    (h : TileMoved n (setThr t y (tileOf s n)) b u) (hb : b.tiles = s.tiles) : threadOf u n t = y ∧ Machine.onlyThread n t b u := by
  rw [← tileOf_congr hb] at h
  exact h.onlyThread

theorem tileMoved_coreReg {n : TileIx} {t : Thr} {legal : Bool} {s : State} (g : Thread → Thread) (hrun : canRun s n t = true)
    (hlegal : legal = true) :
    TileMoved n (setThr t (retire (g (threadOf s n t))) (tileOf s n)) s (coreReg n t legal g s) :=
  tileMoved_coreStep_setThread hrun hlegal rfl rfl

theorem coreRuns_of_tileMoved {i : Instr} {n : TileIx} {t : Thr} {z : Thread} {s u : State} (hexec : exec i s = .next u)
    (h : TileMoved n (setThr t z (tileOf s n)) s u) : CoreRuns i n t z s := ⟨u, hexec, h.onlyThread⟩

theorem coreRuns_coreReg {i : Instr} {n : TileIx} {t : Thr} {legal : Bool} {g : Thread → Thread} {z : Thread} {s : State}
    (hexec : exec i s = .next (coreReg n t legal g s)) (hrun : canRun s n t = true) (hlegal : legal = true)
    (hg : g (threadOf s n t) = z) : CoreRuns i n t (retire z) s := by
  subst hg
  exact coreRuns_of_tileMoved hexec (tileMoved_coreReg g hrun hlegal)

/-! #### Companion transfers (05 R150) -/

@[simp] theorem compStore_tiles (n : Nat) (y : Thread) (c : Companion) (s : State) : (compStore n y c s).tiles = s.tiles := by
  unfold compStore
  split <;> rfl

theorem aluRuns_aluExec {i : Instr} {n : TileIx} {t : Thr} {ct : BitVec 11} {lost : Nat} {legal : Bool} {dst : Option (Fin 16)}
    {op : AluOp} {z : Thread} {s : State} (hexec : exec i s = .next (aluExec n t ct lost legal dst op s))
    (hready : AluReady s n t ct) (hlegal : legal = true) (hop : op (threadOf s n t) = z) : AluRuns i n t ct lost dst z s := by
  obtain ⟨hrun, hreserved, hx, hy⟩ := hready
  subst hop
  have htiles : (bankStall n lost (compStore n (threadOf s n t) (compY ct) (compStore n (threadOf s n t) (compX ct) s))).tiles =
      s.tiles := by rw [bankStall_tiles, compStore_tiles, compStore_tiles]
  refine ⟨_, hexec, TileMoved.onlyThread_of_tiles_eq (tileMoved_coreStep_setThread hrun ?legal ?step htiles) htiles⟩
  case legal => rw [hlegal, hreserved]; rfl
  case step => cases dst <;> simp only [hx, hy, bankStall_setThread]

/-! #### Words under bit S (05 R161) -/

theorem sat32_eq (sb : Bool) (v : Int) : sat32 sb v = (satWord sb v, satFlag sb v) := by rw [sat32, ofNat_narrow]; rfl

section
variable {i : Instr} {n : TileIx} {t : Thr} {f : AluF} {w : Word} {b : Bool} {s : State}

theorem aluRuns_aluBin {g : Bool → Word → Word → Word × Bool} (hexec : exec i s = .next (aluBin n t f g s))
    (hready : AluReady s n t f.ct) (hg : g f.s (getD (threadOf s n t) f.sa) (getD (threadOf s n t) f.sb) = (w, b)) :
    AluRuns i n t f.ct f.lost (some f.dst) (stickSV b (setD f.dst w (threadOf s n t))) s :=
  aluRuns_aluExec hexec hready rfl (by rw [hg]; rfl)

theorem aluRuns_aluPlain {g : Word → Word → Word} (hexec : exec i s = .next (aluPlain n t f g s)) (hready : AluReady s n t f.ct)
    (hs : f.s = false) (hg : g (getD (threadOf s n t) f.sa) (getD (threadOf s n t) f.sb) = w) :
    AluRuns i n t f.ct f.lost (some f.dst) (stickSV false (setD f.dst w (threadOf s n t))) s :=
  aluRuns_aluExec hexec hready (by rw [hs]; rfl) (by rw [hg]; rfl)

theorem aluRuns_aluUn {g : Bool → Word → Word × Bool} (hexec : exec i s = .next (aluUn n t f g s)) (hready : AluReady s n t f.ct)
    (hsb : f.sb = 0) (hg : g f.s (getD (threadOf s n t) f.sa) = (w, b)) :
    AluRuns i n t f.ct f.lost (some f.dst) (stickSV b (setD f.dst w (threadOf s n t))) s :=
  aluRuns_aluExec hexec hready (decide_eq_true hsb) (by rw [hg]; rfl)
end

/-- Settles O25, instruction by instruction. -/
theorem coreArithmeticResults : Obligations.CoreArithmeticResults := by
  unfold Obligations.CoreArithmeticResults
  refine ⟨?add, ?sub, ?mul, ?mulh, ?neg, ?abs, ?shl⟩
  case add => exact fun n t f s hready => aluRuns_aluBin rfl hready (sat32_eq _ _)
  case sub => exact fun n t f s hready => aluRuns_aluBin rfl hready (sat32_eq _ _)
  case mul => exact fun n t f s hready => aluRuns_aluBin rfl hready (sat32_eq _ _)
  case mulh => exact fun n t f s hready hs => aluRuns_aluPlain rfl hready hs rfl
  case neg => exact fun n t f s hready hsb => aluRuns_aluUn rfl hready hsb (sat32_eq _ _)
  case abs => exact fun n t f s hready hsb => aluRuns_aluUn rfl hready hsb (sat32_eq _ _)
  case shl => exact fun n t f s hready => aluRuns_aluBin rfl hready (sat32_eq _ _)

/-! #### Shifts to the right, minima and compares -/

theorem shrOp_eq (a : Word) (k : Nat) : shrOp a k = if 32 ≤ k then 0 else a >>> k := by
  unfold shrOp
  split
  · next hk => exact BitVec.ushiftRight_eq_zero hk
  · rfl

theorem shraOp_eq (a : Word) (k : Nat) : shraOp a k = BitVec.ofInt 32 (a.toInt / 2 ^ k) := by
  rw [shraOp, BitVec.sshiftRight, Int.shiftRight_eq_div_pow]
  norm_cast

theorem minWord_eq (a b : Word) : (if b.slt a then b else a) = BitVec.ofInt 32 (min a.toInt b.toInt) := by
  by_cases h : b.toInt < a.toInt
  · rw [if_pos (by rwa [BitVec.slt_iff_toInt_lt]), min_eq_right h.le, BitVec.ofInt_toInt]
  · rw [if_neg (by rwa [BitVec.slt_iff_toInt_lt]), min_eq_left (not_lt.1 h), BitVec.ofInt_toInt]

theorem maxWord_eq (a b : Word) : (if a.slt b then b else a) = BitVec.ofInt 32 (max a.toInt b.toInt) := by
  by_cases h : a.toInt < b.toInt
  · rw [if_pos (by rwa [BitVec.slt_iff_toInt_lt]), max_eq_right h.le, BitVec.ofInt_toInt]
  · rw [if_neg (by rwa [BitVec.slt_iff_toInt_lt]), max_eq_left (not_lt.1 h), BitVec.ofInt_toInt]

/-- Settles O26, instruction by instruction. -/
theorem coreLogicResults : Obligations.CoreLogicResults := by
  unfold Obligations.CoreLogicResults
  refine ⟨?and, ?or, ?xor, ?shr, ?shra, ?min, ?max, ?cmp, ?csel⟩
  case and => exact fun n t f s hready hs => aluRuns_aluPlain rfl hready hs rfl
  case or => exact fun n t f s hready hs => aluRuns_aluPlain rfl hready hs rfl
  case xor => exact fun n t f s hready hs => aluRuns_aluPlain rfl hready hs rfl
  case shr => exact fun n t f s hready hs => aluRuns_aluPlain rfl hready hs (shrOp_eq _ _)
  case shra => exact fun n t f s hready hs => aluRuns_aluPlain rfl hready hs (shraOp_eq _ _)
  case min => exact fun n t f s hready hs => aluRuns_aluPlain rfl hready hs (minWord_eq _ _)
  case max => exact fun n t f s hready hs => aluRuns_aluPlain rfl hready hs (maxWord_eq _ _)
  case cmp => exact fun n t f s hready hs hdst => aluRuns_aluExec rfl hready (by rw [hs, hdst]; rfl) rfl
  case csel => exact fun n t c dst sa sb s hrun => coreRuns_coreReg rfl hrun rfl rfl

/-! #### The accumulators (05 R152, R161) -/

theorem ofNat_narrow_acc (sb : Bool) (v : Int) :
    BitVec.ofNat 72 (narrow 72 sb v) = BitVec.ofInt 72 (if sb then clampInt (-(2 ^ 71)) (2 ^ 71 - 1) v else v) := by
  rw [narrow, BitVec.ofNat_toNat, BitVec.setWidth_eq]

/-- A result that does not clamp is the same with S and without. -/
theorem narrow_of_not_clamps {n : Nat} {v : Int} (sb : Bool) (h : clamps n v = false) : narrow n sb v = (BitVec.ofInt n v).toNat := by
  obtain ⟨hlo, hhi⟩ := Bool.or_eq_false_iff.1 h
  rw [narrow, clampInt, if_neg (of_decide_eq_false hlo), if_neg (of_decide_eq_false hhi), ite_self]

/-- A product of two words fits an accumulator, so that MACZ never clamps. -/
theorem clamps_mul_toInt (a b : Word) : clamps 72 (a.toInt * b.toInt) = false := by
  have habs (x : Word) : |x.toInt| ≤ 2 ^ 31 := abs_le.2 ⟨BitVec.le_toInt x, (BitVec.toInt_lt (x := x)).le⟩
  have hmul : |a.toInt * b.toInt| ≤ 2 ^ 31 * 2 ^ 31 := by
    rw [abs_mul]
    exact mul_le_mul (habs a) (habs b) (abs_nonneg _) (by decide)
  obtain ⟨hlo, hhi⟩ := abs_le.1 hmul
  rw [clamps, decide_eq_false (by omega), decide_eq_false (by omega), Bool.or_false]

/-! #### Paired halves (05 R152, R153) -/

theorem ofNat_halves (hi lo : BitVec 16) : BitVec.ofNat 32 (hi.toNat * 65536 + lo.toNat) = hi ++ lo := by
  have hhi := hi.isLt
  have hlo := lo.isLt
  refine BitVec.eq_of_toNat_eq ?_
  rw [BitVec.toNat_ofNat, BitVec.toNat_append, ← Nat.shiftLeft_add_eq_or_of_lt hlo, Nat.shiftLeft_eq]
  omega

theorem sat16x2_wrap (hi lo : Int) : (sat16x2 false hi lo).1 = BitVec.ofInt 16 hi ++ BitVec.ofInt 16 lo := ofNat_halves _ _

/-- Of the absolute values of a half only that of -32768 clamps. -/
theorem clamps_natAbs (h : BitVec 16) : clamps 16 (h.toInt.natAbs : Int) = decide (h.toInt = -32768) := by
  have hlo : -32768 ≤ h.toInt := BitVec.le_toInt h
  have hhi : h.toInt < 32768 := BitVec.toInt_lt
  rw [clamps, decide_eq_false (by omega), Bool.false_or, decide_eq_decide]
  omega

theorem toNat_lowHalf (a : Word) : (a.extractLsb' 0 16).toNat = a.toNat % 65536 := by
  rw [BitVec.extractLsb'_toNat, Nat.shiftRight_zero]

theorem toNat_highHalf (a : Word) : (a.extractLsb' 16 16).toNat = a.toNat / 65536 := by
  have hlt := a.isLt
  rw [BitVec.extractLsb'_toNat, Nat.shiftRight_eq_div_pow]
  omega

/-- The two minima of `a`, the first in the low half, once |SB| is seen, and whether it is the new first. -/
theorem mintrkOp_eq (a b : Word) : mintrkOp a b =
    (if min (loHalf b).natAbs 32767 < a.toNat % 65536 then BitVec.ofNat 32 (a.toNat % 65536 * 65536 + min (loHalf b).natAbs 32767)
      else if min (loHalf b).natAbs 32767 < a.toNat / 65536 then
        BitVec.ofNat 32 (min (loHalf b).natAbs 32767 * 65536 + a.toNat % 65536)
      else a,
     decide (min (loHalf b).natAbs 32767 < a.toNat % 65536)) := by
  simp only [mintrkOp, toNat_lowHalf, toNat_highHalf]
  by_cases hfirst : min (loHalf b).natAbs 32767 < a.toNat % 65536
  · simp only [hfirst, if_true, decide_true]
  · simp only [hfirst, if_false, decide_false]
    split <;> rfl

/-- Settles O27, instruction by instruction. -/
theorem coreMacAndPairs : Obligations.CoreMacAndPairs := by
  unfold Obligations.CoreMacAndPairs
  refine ⟨?mac, ?macz, ?accrd, ?add2, ?sub2, ?min2, ?abs2, ?mintrk⟩
  case mac =>
    refine fun n t f s hready hdst => aluRuns_aluExec rfl hready (decide_eq_true hdst) ?_
    simp only [if_true, ofNat_narrow_acc]
  case macz =>
    refine fun n t f s hready hdst => aluRuns_aluExec rfl hready (decide_eq_true hdst) ?_
    simp only [Bool.false_eq_true, if_false, Int.zero_add, clamps_mul_toInt, Bool.and_false, narrow_of_not_clamps, BitVec.ofNat_toNat,
      BitVec.setWidth_eq]
    rfl
  case accrd =>
    refine fun n t f s hready hsa => aluRuns_aluExec rfl hready (decide_eq_true hsa) ?_
    rw [sat32_eq]
    rfl
  case add2 => exact fun n t f s hready => aluRuns_aluBin rfl hready rfl
  case sub2 => exact fun n t f s hready => aluRuns_aluBin rfl hready rfl
  case min2 => exact fun n t f s hready hs => aluRuns_aluPlain rfl hready hs (sat16x2_wrap _ _)
  case abs2 =>
    refine fun n t f s hready hsb => aluRuns_aluUn rfl hready hsb (Prod.ext rfl ?_)
    exact congrArg (f.s && ·) (congrArg₂ (· || ·) (clamps_natAbs _) (clamps_natAbs _))
  case mintrk =>
    refine fun n t f s hready hs => aluRuns_aluExec rfl hready (by rw [hs]; rfl) ?_
    rw [mintrkOp_eq]

/-! #### Immediate forms (05 R151, R152) -/

section
variable {i : Instr} {n : TileIx} {t : Thr} {f : ImmF} {w : Word} {b : Bool} {s : State}

theorem coreRuns_immExec {g : Bool → Word → Word → Word × Bool} (hexec : exec i s = .next (immExec n t f g s))
    (hrun : canRun s n t = true) (hg : g f.s (getD (threadOf s n t) f.sa) (f.imm.signExtend 32) = (w, b)) :
    CoreRuns i n t (retire (stickSV b (setD f.dst w (threadOf s n t)))) s :=
  coreRuns_coreReg hexec hrun rfl (by rw [hg]; rfl)

theorem coreRuns_immPlain {g : Word → Word → Word} (hexec : exec i s = .next (immPlain n t f g s)) (hrun : canRun s n t = true)
    (hs : f.s = false) (hg : g (getD (threadOf s n t) f.sa) (f.imm.signExtend 32) = w) :
    CoreRuns i n t (retire (stickSV false (setD f.dst w (threadOf s n t)))) s :=
  coreRuns_coreReg hexec hrun (by rw [hs]; rfl) (by rw [hg]; rfl)
end

theorem toInt_signExtend_imm (imm : BitVec 15) : (imm.signExtend 32 : Word).toInt = imm.toInt :=
  BitVec.toInt_signExtend_of_le (by decide)

/-- Sign extension leaves the shift amount IMM15[5:0]. -/
theorem toNat_signExtend_imm_mod (imm : BitVec 15) : (imm.signExtend 32 : Word).toNat % 64 = imm.toNat % 64 := by
  rw [BitVec.toNat_signExtend, BitVec.toNat_setWidth]
  split <;> omega

theorem setCmp_imm (a : Word) (imm : BitVec 15) (y : Thread) : setCmp a (imm.signExtend 32) y =
    { y with flags := flagBits (decide (a.toInt = imm.toInt)) (decide (a.toInt < imm.toInt))
                        (decide (a.toNat < (imm.signExtend 32 : Word).toNat)) (flagSV y) } := by
  rw [← toInt_signExtend_imm, decide_eq_decide.2 BitVec.toInt_inj]
  rfl

/-- Settles O28, instruction by instruction. -/
theorem coreImmediates : Obligations.CoreImmediates := by
  unfold Obligations.CoreImmediates
  refine ⟨?addi, ?andi, ?ori, ?shli, ?shri, ?shrai, ?cmpi, ?ldi, ?lui⟩
  case addi =>
    refine fun n t f s hrun => coreRuns_immExec rfl hrun ?_
    rw [addOp, toInt_signExtend_imm, sat32_eq]
  case andi => exact fun n t f s hrun hs => coreRuns_immPlain rfl hrun hs rfl
  case ori => exact fun n t f s hrun hs => coreRuns_immPlain rfl hrun hs rfl
  case shli =>
    refine fun n t f s hrun => coreRuns_immExec rfl hrun ?_
    rw [shlOp, toNat_signExtend_imm_mod, sat32_eq]
  case shri =>
    refine fun n t f s hrun hs => coreRuns_immPlain rfl hrun hs ?_
    rw [toNat_signExtend_imm_mod, shrOp_eq]
  case shrai =>
    refine fun n t f s hrun hs => coreRuns_immPlain rfl hrun hs ?_
    rw [toNat_signExtend_imm_mod, shraOp_eq]
  case cmpi => exact fun n t f s hrun hs hdst => coreRuns_coreReg rfl hrun (by rw [hs, hdst]; rfl) (setCmp_imm _ _ _)
  case ldi => exact fun n t dst imm s hrun => coreRuns_coreReg rfl hrun rfl rfl
  case lui =>
    refine fun n t dst imm s hrun => coreRuns_coreReg rfl hrun rfl ?_
    rw [BitVec.setWidth_eq_extractLsb' (by decide)]

end Sys2Proof.Machine
end

/-! ### Address registers (05 R152, R154, R155) -/

section
namespace Sys2Proof.Machine

theorem setaVal_eq (sel : ASel) (imm : BitVec 22) :
    setaVal sel imm = if sel = .s then BitVec.ofInt 32 imm.toInt else BitVec.ofNat 32 imm.toNat := by
  cases sel
  case s => rfl
  all_goals exact (BitVec.ofNat_toNat ..).symm

theorem toNat_ofInt_of_mem {v : Int} (hlo : 0 ≤ v) (hhi : v < 2 ^ 32) : ((BitVec.ofInt 32 v).toNat : Int) = v := by
  rw [BitVec.toNat_ofInt, Int.toNat_of_nonneg (by omega)]
  omega

/-- Where a step to `v` from inside the window of `e` places from `w` ends: one wrap at either end (05 R154). -/
def wrapOnce (w e v : Int) : Int := if w + e ≤ v then v - e else if v < w then v + e else v

theorem wrapOnce_mem {w e v : Int} (hlo : w - e ≤ v) (hhi : v < w + 2 * e) : w ≤ wrapOnce w e v ∧ wrapOnce w e v < w + e := by
  unfold wrapOnce
  split
  · omega
  · split <;> omega

theorem wrapOnce_sub_emod (w e v : Int) : (wrapOnce w e v - v) % e = 0 := by
  unfold wrapOnce
  split
  · rw [show v - e - v = -e by omega, Int.neg_emod_self]
  · split
    · rw [show v + e - v = e by omega, Int.emod_self]
    · rw [Int.sub_self, Int.zero_emod]

theorem nextHead_of_forward {y : Thread} {k : Nat} (step : Int) (h : (amodeNow y).getLsbD k = false) :
    nextHead y k step = BitVec.ofInt 32 (if getE y k = 0 then (getH y k).toNat + step
      else wrapOnce (getW y k).toNat (getE y k).toNat ((getH y k).toNat + step)) := by
  have hzero : ((getE y k).toNat : Int) = 0 ↔ getE y k = 0 := by
    rw [Int.natCast_eq_zero]
    exact BitVec.toNat_eq (x := getE y k) (y := 0) |>.symm
  unfold nextHead
  rw [h]
  simp only [Bool.false_eq_true, if_false, hzero, wrapOnce]

/-- Settles O30: the rows act on their thread's registers, and a head that wraps once stays in its window. -/
theorem coreAddressRegisters : Obligations.CoreAddressRegisters := by
  unfold Obligations.CoreAddressRegisters
  refine ⟨?seta, ?move, ?adda, ?head⟩
  case seta => exact fun n t sel k imm s hrun => coreRuns_coreReg rfl hrun rfl (by rw [setaVal_eq])
  case move => exact fun n t sel k d s hrun => ⟨coreRuns_coreReg rfl hrun rfl rfl, coreRuns_coreReg rfl hrun rfl rfl⟩
  case adda => exact fun n t k imm s hrun => coreRuns_coreReg rfl hrun rfl rfl
  case head =>
    intro y k step hforward
    rw [nextHead_of_forward step hforward]
    refine ⟨fun hzero => by rw [if_pos hzero], fun hextent hend hlo hhi hstep => ?_⟩
    rw [if_neg hextent]
    have hmem : ((getW y k).toNat : Int) ≤ wrapOnce (getW y k).toNat (getE y k).toNat ((getH y k).toNat + step) ∧
        wrapOnce (getW y k).toNat (getE y k).toNat ((getH y k).toNat + step) < (getW y k).toNat + (getE y k).toNat :=
      wrapOnce_mem (by omega) (by omega)
    have hval := toNat_ofInt_of_mem (v := wrapOnce (getW y k).toNat (getE y k).toNat ((getH y k).toNat + step)) (by omega) (by omega)
    refine ⟨by omega, by omega, ?_⟩
    rw [hval]
    exact wrapOnce_sub_emod _ _ _

end Sys2Proof.Machine
end

/-! ### Branches, calls and loops (05 R157–R160, R164) -/

section
namespace Sys2Proof.Machine

/-! #### A step that sets its own next PC -/

section
variable {i : Instr} {n : TileIx} {t : Thr} {legal : Bool} {f : Thread → Except Nat Thread} {y z : Thread} {s : State}

theorem tileMoved_flowExec (hrun : canRun s n t = true) (hlegal : legal = true) (hf : f (threadOf s n t) = .ok y) :
    TileMoved n (setThr t { y with amodeLate := (threadOf s n t).amodeLate - 1 } (tileOf s n)) s (flowExec n t legal f s) := by
  rw [flowExec, if_pos hrun, if_pos hlegal, hf]
  exact (TileMoved.refl n s).setThread t _

theorem coreRuns_flowExec (hexec : exec i s = .next (flowExec n t true f s)) (hrun : canRun s n t = true)
    (hf : f (threadOf s n t) = .ok y) (hz : { y with amodeLate := (threadOf s n t).amodeLate - 1 } = z) : CoreRuns i n t z s := by
  subst hz
  exact coreRuns_of_tileMoved hexec (tileMoved_flowExec hrun rfl hf)
end

/-! #### BR -/

/-- The thread past a BR: the epoch moves where it is conditional (05 R160, R164). -/
def branched (c : Cond) (off : BitVec 21) (y : Thread) : Thread :=
  if condHolds y c then
    { y with amodeLate := y.amodeLate - 1, epoch := y.epoch + (if c = .al then 0 else 1), pc := y.pc + off.setWidth 15,
             loops := leaveLoops (y.pc + off.setWidth 15) y.loops }
  else retire { y with epoch := y.epoch + (if c = .al then 0 else 1) }

theorem branched_pc (c : Cond) (off : BitVec 21) (y : Thread) :
    (branched c off y).pc = if condHolds y c then y.pc + off.setWidth 15 else (retire y).pc := by
  unfold branched
  split <;> rfl

theorem branched_epoch {c : Cond} (hc : c ≠ .al) (off : BitVec 21) (y : Thread) : (branched c off y).epoch = y.epoch + 1 := by
  rw [branched, if_neg hc]
  split <;> rfl

/-- The thread that a BR which is taken or not makes, before the instructions since an MTS are counted. -/
def branchStep (c : Cond) (off : BitVec 21) (taken : Bool) (y : Thread) : Thread :=
  let z := if c = .al then y else { y with epoch := y.epoch + 1 }
  if taken then branchTo (z.pc + off.setWidth 15) z else retire z

theorem branchStep_late (c : Cond) (off : BitVec 21) (y : Thread) :
    { branchStep c off (condHolds y c) y with amodeLate := y.amodeLate - 1 } = branched c off y := by
  have hepoch : (if c = .al then y else { y with epoch := y.epoch + 1 }) = { y with epoch := y.epoch + if c = .al then 0 else 1 } := by
    split
    · rw [add_zero]
    · rfl
  rw [branchStep, branched, hepoch]
  split <;> rfl

/-- The state past a BR but for CC_SQUASH. -/
def afterBr (n : TileIx) (t : Thr) (c : Cond) (off : BitVec 21) (s : State) : State :=
  flowExec n t true (fun y => .ok (branchStep c off (condHolds (threadOf s n t) c) y)) s

theorem tileMoved_afterBr {n : TileIx} {t : Thr} (c : Cond) (off : BitVec 21) {s : State} (hrun : canRun s n t = true) :
    TileMoved n (setThr t (branched c off (threadOf s n t)) (tileOf s n)) s (afterBr n t c off s) := by
  rw [← branchStep_late]
  exact tileMoved_flowExec hrun rfl rfl

/-- CC_SQUASH counts what a wrong hint discards (05 R165). -/
theorem exec_br {n : TileIx} {t : Thr} (c : Cond) (hint : Bool) (off : BitVec 21) (slots : Fin 5) (staged : Nat) {s : State}
    (hrun : canRun s n t = true) :
    exec (.br n t c hint off slots staged) s =
      .next (if c ≠ .al ∧ condHolds (threadOf s n t) c ≠ hint then bump (tileReg n 0x50) (slots.val + staged) (afterBr n t c off s)
        else afterBr n t c off s) := by
  change execBr n t c hint off slots staged s = _
  simp only [execBr, hrun, true_and]
  rfl

/-! #### Loops (05 R157) -/

theorem loopPush_skip (len : BitVec 9) (y : Thread) : loopPush 0 len y = .ok { y with pc := y.pc + 1 + len.setWidth 15 + 1 } := rfl

theorem loopPush_of_room {count : Nat} (len : BitVec 9) {y : Thread} (hcount : count ≠ 0) (hroom : y.loops.length < 4) :
    loopPush count len y =
      .ok { y with loops := ⟨y.pc + 1, y.pc + 1 + len.setWidth 15, count⟩ :: y.loops, pc := y.pc + 1 } := by
  rw [loopPush, if_neg hcount, if_pos hroom]

theorem loopPush_of_full {count : Nat} (len : BitVec 9) {y : Thread} (hcount : count ≠ 0) (hfull : 4 ≤ y.loops.length) :
    loopPush count len y = .error excLoopOvf := by
  rw [loopPush, if_neg hcount, if_neg (by omega)]

theorem toNat_ne_zero_of_ne {w : Nat} {x : BitVec w} (h : x ≠ 0) : x.toNat ≠ 0 :=
  fun hzero => h (BitVec.eq_of_toNat_eq (hzero.trans (BitVec.toNat_zero).symm))

/-- Settles O31, instruction by instruction. -/
theorem coreBranchesAndLoops : Obligations.CoreBranchesAndLoops := by
  unfold Obligations.CoreBranchesAndLoops
  refine ⟨?hinted, ?squashed, ?call, ?ret, ?jr, ?loop, ?loopi, ?lexit⟩
  case hinted =>
    intro n t c hint off slots staged s hrun hhint
    refine coreRuns_of_tileMoved ?_ (tileMoved_afterBr c off hrun)
    rw [exec_br c hint off slots staged hrun, if_neg fun h => hhint.elim h.1 h.2]
  case squashed =>
    intro n t c hint off slots staged s hrun hcond hwrong
    have hmoved := tileMoved_afterBr c off hrun
    have hregs : (afterBr n t c off s).regs = s.regs := by rw [hmoved.2.2]
    have hcounted := hmoved.bump (tileReg n 0x50) (slots.val + staged)
    obtain ⟨hthread, honly⟩ := hcounted.onlyThread_of_tiles_eq rfl
    have hall : regsBut [tileReg n 0x50] s (bump (tileReg n 0x50) (slots.val + staged) (afterBr n t c off s)) :=
      (regsBut.of_regs_eq hregs _).trans (bump_regsBut _ _ _) (List.Subset.refl _)
    refine ⟨_, ?exec, ?pc, ?epoch, ?squash, ?frame, hall⟩
    case exec => rw [exec_br c hint off slots staged hrun, if_pos ⟨hcond, hwrong⟩]
    case pc => rw [hthread, branched_pc]
    case epoch => rw [hthread, branched_epoch hcond]
    case squash => rw [rd_bump_toNat, rd_congr hregs]
    case frame =>
      have hsame : (bump (tileReg n 0x50) (slots.val + staged) (afterBr n t c off s)).regs =
          (bump (tileReg n 0x50) (slots.val + staged) s).regs := by rw [hcounted.2.2]
      rw [hsame]
      exact honly
  case call => exact fun n t off s hrun hroom => coreRuns_flowExec rfl hrun (if_pos hroom) rfl
  case ret =>
    intro n t a l s hrun hcalls
    refine coreRuns_flowExec rfl hrun (y := { threadOf s n t with calls := l, pc := a }) ?_ rfl
    rw [hcalls]
  case jr => exact fun n t d s hrun => coreRuns_flowExec rfl hrun rfl rfl
  case loop =>
    exact fun n t d len s hrun hcount hroom => coreRuns_flowExec rfl hrun (loopPush_of_room len (toNat_ne_zero_of_ne hcount) hroom) rfl
  case loopi =>
    intro n t count len s hrun hroom
    by_cases hzero : count = 0
    · subst hzero
      rw [if_pos rfl]
      refine coreRuns_flowExec rfl hrun (loopPush_skip len _) ?_
      have hpc : (threadOf s n t).pc + 1 + len.setWidth 15 + 1 = (threadOf s n t).pc + 2 + len.setWidth 15 := by ring
      rw [hpc]
    · rw [if_neg hzero]
      exact coreRuns_flowExec rfl hrun (loopPush_of_room len (toNat_ne_zero_of_ne hzero) (hroom hzero)) rfl
  case lexit =>
    intro n t l ls s hrun hloops
    refine coreRuns_flowExec rfl hrun rfl ?_
    rw [hloops]
    rfl

end Sys2Proof.Machine
end

/-! ### Exceptions of a core (05 R149, R156, R157, R159, R169, R170)

An exception is one operation, `coreTrap`; what it records is said once. Each instruction that traps is then shown to do just that. -/

section
namespace Sys2Proof.Machine

/-! #### What an exception records -/

/-- An exception but POISON stops the thread, records its cause and PC, and reports an event. -/
theorem coreTrap_of_ne_poison {n : TileIx} {t : Thr} {code : Nat} {s : State} (hcode : code ≠ excPoison) :
    coreTrap n t code s =
      report ⟨.tile n, false, 3, BitVec.ofNat 64 (code + 65536 * (threadOf s n t).pc.toNat + 2 ^ 31 * t.val),
          ownerWork s (threadOf s n t).owner⟩
        (wrf (tileReg n 0x40) (2 + t.val) (2 + t.val) 1
          (wr (tileReg n (0x48 + 4 * t.val)) ((threadOf s n t).pc.setWidth 32)
            (wrf (tileReg n 0x44) (4 * t.val + 3) (4 * t.val) code
              (setThread n t { threadOf s n t with run := .stopped } s)))) := by
  rw [coreTrap, coreTrapAt, if_neg hcode]

section
variable {n : TileIx} {t : Thr} {code : Nat} {s : State}

theorem coreTrap_run (hcode : code ≠ excPoison) : (threadOf (coreTrap n t code s) n t).run = .stopped := by
  rw [coreTrap_of_ne_poison hcode]
  exact congrArg Thread.run (threadOf_setThread_same n t { threadOf s n t with run := .stopped } s)

theorem coreTrap_cause (hcode : code ≠ excPoison) (hlt : code < 16) :
    rdf (coreTrap n t code s) (tileReg n 0x44) (4 * t.val + 3) (4 * t.val) = code := by
  have ht := t.isLt
  rw [coreTrap_of_ne_poison hcode, rdf, rd_report, rd_wrf, if_neg (by unfold tileReg; omega),
    rd_wr_other _ _ (by unfold tileReg; omega)]
  exact (rdf_wrf_same _ _ _ _ _ (by omega) (by omega)).trans (by
    rw [show 4 * t.val + 3 - 4 * t.val + 1 = 4 by omega]
    exact Nat.mod_eq_of_lt hlt)

theorem coreTrap_pc (hcode : code ≠ excPoison) :
    rd (coreTrap n t code s) (tileReg n (0x48 + 4 * t.val)) = (threadOf s n t).pc.setWidth 32 := by
  rw [coreTrap_of_ne_poison hcode, rd_report, rd_wrf, if_neg (by unfold tileReg; omega), rd_wr_same]

theorem coreTrap_bit (hcode : code ≠ excPoison) : rdb (coreTrap n t code s) (tileReg n 0x40) (2 + t.val) = true := by
  have ht := t.isLt
  rw [coreTrap_of_ne_poison hcode]
  refine (rdb_wrf _ _ _ _ _ _ _ (by omega) (Nat.le_refl _)).trans ?_
  rw [if_pos ⟨rfl, Nat.le_refl _, Nat.le_refl _⟩, Nat.sub_self]
  rfl

theorem coreTrap_reports (hcode : code ≠ excPoison) :
    (coreTrap n t code s).fault.reports.length = s.fault.reports.length + 1 := by
  rw [coreTrap_of_ne_poison hcode]
  exact List.length_append

theorem coreTrap_regsBut (hcode : code ≠ excPoison) :
    regsBut [tileReg n 0x44, tileReg n (0x48 + 4 * t.val), tileReg n 0x40] s (coreTrap n t code s) := by
  intro o ho
  simp only [List.mem_cons, List.not_mem_nil, or_false, not_or] at ho
  obtain ⟨hcause, hpc, hstatus⟩ := ho
  rw [coreTrap_of_ne_poison hcode, rd_report, rd_wrf, if_neg hstatus, rd_wr_other _ _ hpc, rd_wrf, if_neg hcause, rd_setThread]

theorem coreTrap_mem (hcode : code ≠ excPoison) : (coreTrap n t code s).mem = s.mem := by
  rw [coreTrap_of_ne_poison hcode]
  rfl
end

/-! #### Instructions that raise one -/

section
variable {i : Instr} {n : TileIx} {t : Thr} {legal : Bool} {s : State}

theorem exec_of_illegal {f : State → Except Nat State} (hexec : exec i s = .next (coreStep n t legal f s)) (hrun : canRun s n t = true)
    (hlegal : legal = false) : exec i s = .next (coreTrap n t excIllegal s) := by
  rw [hexec, coreStep, if_pos hrun, hlegal, if_neg Bool.false_ne_true]

theorem exec_of_illegal_alu {ct : BitVec 11} {lost : Nat} {dst : Option (Fin 16)} {op : AluOp}
    (hexec : exec i s = .next (aluExec n t ct lost legal dst op s)) (hrun : canRun s n t = true)
    (hlegal : (legal && !ct.getLsbD 0) = false) : exec i s = .next (coreTrap n t excIllegal s) :=
  exec_of_illegal hexec hrun hlegal

theorem exec_of_illegal_reg {g : Thread → Thread} (hexec : exec i s = .next (coreReg n t legal g s)) (hrun : canRun s n t = true)
    (hlegal : legal = false) : exec i s = .next (coreTrap n t excIllegal s) :=
  exec_of_illegal hexec hrun hlegal

theorem exec_of_trap {f : State → Except Nat State} {code : Nat} (hexec : exec i s = .next (coreStep n t legal f s))
    (hrun : canRun s n t = true) (hlegal : legal = true) (hf : f s = .error code) : exec i s = .next (coreTrap n t code s) := by
  rw [hexec, coreStep, if_pos hrun, if_pos hlegal, hf]

theorem exec_of_flow_trap {f : Thread → Except Nat Thread} {code : Nat} (hexec : exec i s = .next (flowExec n t true f s))
    (hrun : canRun s n t = true) (hf : f (threadOf s n t) = .error code) : exec i s = .next (coreTrap n t code s) := by
  rw [hexec, flowExec, if_pos hrun, if_pos rfl, hf]

/-- A thread that does not execute is left alone (05 R147). -/
theorem exec_alu_of_not_canRun {ct : BitVec 11} {lost : Nat} {dst : Option (Fin 16)} {op : AluOp}
    (hexec : exec i s = .next (aluExec n t ct lost legal dst op s)) (hrun : canRun s n t = false) : exec i s = .next s := by
  rw [hexec, aluExec, coreStep, hrun, if_neg Bool.false_ne_true]
end

/-- An immediate where AM uses none (05 R149, R154). -/
theorem memLegal_of_unused {f : MemF} (ham : f.am.toNat % 2 = 1) (himm : f.imm ≠ 0) : memLegal f = false := by
  rw [memLegal, decide_eq_false (by omega), decide_eq_false himm, Bool.or_false]

/-- Settles O32: each instruction named raises its exception, and an exception records what R170 says. -/
theorem coreExceptions : Obligations.CoreExceptions := by
  unfold Obligations.CoreExceptions
  refine ⟨?reserved, ?saturation, ?immediate, ?misaligned, ?loops, ?calls, ?ret, ?stopped⟩
  case reserved =>
    intro n t f s hrun hreserved
    have hcode : excIllegal ≠ excPoison := by decide
    exact ⟨_, exec_of_illegal_alu rfl hrun (by rw [hreserved]; rfl), coreTrap_run hcode, coreTrap_cause hcode (by decide),
      coreTrap_pc hcode, coreTrap_bit hcode, coreTrap_reports hcode, coreTrap_regsBut hcode, coreTrap_mem hcode⟩
  case saturation =>
    intro c n t f g s hrun hf hg hrow
    obtain rfl | rfl | rfl | rfl | rfl | rfl | rfl | rfl | rfl | rfl | rfl | rfl | rfl | rfl | rfl | rfl := hrow
    -- the F0 rows, then the immediate forms
    iterate 11 exact exec_of_illegal_alu rfl hrun (by simp [hf])
    all_goals exact exec_of_illegal_reg rfl hrun (by simp [hg])
  case immediate =>
    exact fun n t f s hrun ham himm =>
      ⟨exec_of_illegal rfl hrun (memLegal_of_unused ham himm), exec_of_illegal rfl hrun (memLegal_of_unused ham himm)⟩
  case misaligned =>
    intro n t f s hrun hlegal hcheck
    have hcode : excAlign ≠ excPoison := by decide
    exact ⟨_, exec_of_trap rfl hrun hlegal (by simp only [hcheck]), coreTrap_run hcode, coreTrap_cause hcode (by decide),
      coreTrap_pc hcode, coreTrap_mem hcode⟩
  case loops =>
    exact fun n t d len s hrun hcount hfull =>
      exec_of_flow_trap rfl hrun (loopPush_of_full len (toNat_ne_zero_of_ne hcount) hfull)
  case calls => exact fun n t off s hrun hfull => exec_of_flow_trap rfl hrun (if_neg (by omega))
  case ret => exact fun n t s hrun hcalls => exec_of_flow_trap rfl hrun (by rw [hcalls])
  case stopped => exact fun n t f s hrun => exec_alu_of_not_canRun rfl hrun

end Sys2Proof.Machine
end

/-! ### Reels (06 R177–R179)

A push or a pop changes one reel and its thread; whose turn it is follows from the tiles that wait. A tile outside the reel's set
changes no reel: it is counted and reported. -/

section
namespace Sys2Proof.Machine

/-! #### Reels after a push or a pop -/

theorem reelOf_setReel (r k : Nat) (x : Reel) (s : State) : reelOf (setReel r x s) k = if k = r then x else reelOf s k := tabGet_tabSet ..

@[simp] theorem reelOf_setReel_same (r : Nat) (x : Reel) (s : State) : reelOf (setReel r x s) r = x := by rw [reelOf_setReel, if_pos rfl]

theorem reelOf_setReel_other {r k : Nat} (x : Reel) (s : State) (h : k ≠ r) : reelOf (setReel r x s) k = reelOf s k := by
  rw [reelOf_setReel, if_neg h]

theorem reelOf_congr {s t : State} (h : t.reels = s.reels) (r : Nat) : reelOf t r = reelOf s r := by rw [reelOf, h, reelOf]

/-- A tile that changed in one thread, beside reel `r`, which holds `x` now. -/
theorem TileMoved.setReel_shows {n : TileIx} {t : Thr} {y : Thread} {r : Nat} {x : Reel} {s u : State}
    (h : TileMoved n (setThr t y (tileOf s n)) (setReel r x s) u) :
    reelOf u r = x ∧ (∀ k ∈ List.range 1024, k ≠ r → reelOf u k = reelOf s k) ∧ threadOf u n t = y ∧
      Machine.onlyThread n t { s with reels := u.reels } u := by
  have hreels : u.reels = (setReel r x s).reels := by rw [h.2.2]
  obtain ⟨hthread, honly⟩ := h.onlyThread_of_tiles_eq rfl
  refine ⟨?_, fun k _ hk => ?_, hthread, ?_⟩
  · rw [reelOf_congr hreels, reelOf_setReel_same]
  · rw [reelOf_congr hreels, reelOf_setReel_other x s hk]
  · rw [hreels]
    exact honly

/-! #### A tile outside the reel's set (06 R178) -/

section
variable (n : TileIx) (r : Nat) (w : FaultWork) (s : State)

theorem reelReject_tiles : (reelReject n r w s).tiles = s.tiles := raise_tiles directorEvent 4 _

theorem reelReject_reels : (reelReject n r w s).reels = s.reels :=
  (reelReject_does (fs₀ := [.regs, .funcs, .fault, .out]) (Does.refl _ s) rfl).same .reels (by decide)

theorem reelReject_mem : (reelReject n r w s).mem = s.mem := raise_mem directorEvent 4 _

theorem reelReject_reports : (reelReject n r w s).fault.reports = s.fault.reports ++ [⟨.tile n, false, 5, BitVec.ofNat 64 r, w⟩] := by
  have hraise : (raise directorEvent 4 (bump 0x3003C 1 s)).fault = s.fault := by
    rw [raise_frame]
    rfl
  rw [← hraise]
  rfl

theorem reelReject_regsBut : regsBut [0x3003C, directorEvent] s (reelReject n r w s) :=
  ((bump_regsBut 0x3003C 1 s).mono (by decide)).trans (raise_regsBut directorEvent 4 _) (by decide)

theorem reelReject_count : (rd (reelReject n r w s) 0x3003C).toNat = min (2 ^ 32 - 1) ((rd s 0x3003C).toNat + 1) := by
  rw [reelReject, rd_report, raise_regsBut directorEvent 4 _ _ (by decide), rd_bump_toNat]

theorem reelReject_event : rdb (reelReject n r w s) directorEvent 4 = true := rdb_raise directorEvent 4 _ (by decide)
end

/-- What a rejected push or pop shows, whatever becomes of its thread. -/
theorem reelReject_shows {n : TileIx} {r : Nat} {w : FaultWork} {s u : State} (h : u = { reelReject n r w s with tiles := u.tiles }) :
    u.reels = s.reels ∧ (rd u 0x3003C).toNat = min (2 ^ 32 - 1) ((rd s 0x3003C).toNat + 1) ∧ rdb u directorEvent 4 = true ∧
      regsBut [0x3003C, directorEvent] s u ∧
      u.fault.reports = s.fault.reports ++ [⟨.tile n, false, 5, BitVec.ofNat 64 r, w⟩] ∧ u.mem = s.mem := by
  have hregs : u.regs = (reelReject n r w s).regs := by rw [h]
  have hbut := (reelReject_regsBut n r w s).trans (regsBut.of_regs_eq hregs _) (List.Subset.refl _)
  refine ⟨?_, ?_, ?_, hbut, ?_, ?_⟩
  · rw [h]
    exact reelReject_reels n r w s
  · rw [rd_congr hregs, reelReject_count]
  · rw [rdb, rd_congr hregs]
    exact reelReject_event n r w s
  · rw [h]
    exact reelReject_reports n r w s
  · rw [h]
    exact reelReject_mem n r w s

/-! #### A thread that waits goes on -/

theorem resume_eq_setThread (n : TileIx) (t : Thr) (s : State) :
    resume n t id s = setThread n t (retire { threadOf s n t with run := .running }) s := rfl

theorem popTo_of_cons {n : TileIx} {t : Thr} {d : Fin 16} {r : Nat} {h : Handle} {q : List Handle} {s : State}
    (hq : (reelOf s r).q = h :: q) :
    popTo n t d r s = setThread n t (setD d (h.h.setWidth 32) (threadOf s n t)) (setReel r { reelOf s r with q } s) := by
  rw [popTo, hq]

/-! #### Whose turn it is (06 R179) -/

theorem pushTurn_iff (s : State) (r n : Nat) : pushTurn s r n = true ↔ (reelOf s r).q.length < 64 ∧
    ∀ x ∈ s.tiles, x.1 < n → thrPushes r x.2.c0 = false ∧ thrPushes r x.2.c1 = false := by
  have hbnat (b : Bool) : bnat b = 0 ↔ b = false := by cases b <;> decide
  rw [pushTurn, Bool.and_eq_true, decide_eq_true_eq, decide_eq_true_eq, pushesWaiting, List.sum_eq_zero_iff,
    List.forall_mem_map]
  simp only [List.mem_filter, decide_eq_true_eq, and_imp, Nat.add_eq_zero_iff, hbnat]

theorem popTurn_iff (s : State) (r n : Nat) : popTurn s r n = true ↔
    ∀ x ∈ s.tiles, x.1 < n → (reelOf s r).cons.getLsbD x.1 = true →
      thrPops r x.2.c0 = false ∧ thrPops r x.2.c1 = false ∧ ∀ l ∈ x.2.dolly, l.atReel ≠ some r := by
  rw [popTurn, Bool.not_eq_true', List.any_eq_false]
  simp only [Bool.and_eq_true, Bool.or_eq_true, decide_eq_true_eq, List.any_eq_true, not_and, not_or, not_exists,
    Bool.not_eq_true, and_assoc, ne_eq]

/-! #### The rows -/

section
variable {n : TileIx} {t : Thr} {f : SysF} {s : State}

/-- The operands of RPUSH and RPOP name a reel, and HX is not used (05 R149). -/
theorem reelOperand_legal (hr : f.opnd.toNat < 1024) (hhx : f.hx = 0) :
    (decide (f.opnd.toNat < 1024) && decide (f.hx = 0)) = true := by
  rw [decide_eq_true hr, decide_eq_true hhx, Bool.and_true]

theorem exec_rpush_of_turn (hprod : (reelOf s f.opnd.toNat).prod.getLsbD n = true) (hturn : pushTurn s f.opnd.toNat n = true) :
    exec (.rpush n t f) s = .next (coreStep n t (decide (f.opnd.toNat < 1024) && decide (f.hx = 0))
      (fun u => .ok (pushReel f.opnd.toNat (handleFrom u n t ((getD (threadOf s n t) f.d).setWidth 16)) u)) s) := by
  change execRpush n t f s = _
  simp only [execRpush, hprod, hturn, Bool.not_true, Bool.and_false, Bool.false_eq_true, if_false, if_true]

theorem exec_rpush_of_wait (hrun : canRun s n t = true) (hr : f.opnd.toNat < 1024) (hhx : f.hx = 0)
    (hprod : (reelOf s f.opnd.toNat).prod.getLsbD n = true) (hturn : pushTurn s f.opnd.toNat n = false) :
    exec (.rpush n t f) s = .next (setThread n t
      { threadOf s n t with run := .waiting (.rpush f.opnd.toNat ((getD (threadOf s n t) f.d).setWidth 16)) } s) := by
  change execRpush n t f s = _
  simp only [execRpush, hrun, reelOperand_legal hr hhx, hprod, hturn, Bool.not_false, Bool.and_self, if_true]

theorem exec_rpush_of_outside (hprod : (reelOf s f.opnd.toNat).prod.getLsbD n = false) :
    exec (.rpush n t f) s = .next (coreStep n t (decide (f.opnd.toNat < 1024) && decide (f.hx = 0))
      (fun u => .ok (reelReject n f.opnd.toNat (ownerWork u (threadOf u n t).owner) u)) s) := by
  change execRpush n t f s = _
  simp only [execRpush, hprod, Bool.and_false, Bool.false_and, Bool.false_eq_true, if_false]

theorem exec_rpop_of_outside (hrun : canRun s n t = true) (hr : f.opnd.toNat < 1024) (hhx : f.hx = 0)
    (hcons : (reelOf s f.opnd.toNat).cons.getLsbD n = false) :
    exec (.rpop n t f) s = .next (reelReject n f.opnd.toNat (ownerWork s (threadOf s n t).owner)
      (setThread n t { threadOf s n t with run := .waiting .rejected } s)) := by
  change execRpop n t f s = _
  simp only [execRpop, hrun, reelOperand_legal hr hhx, hcons, Bool.not_false, Bool.and_self, if_true]

theorem exec_rpop_of_wait (hrun : canRun s n t = true) (hr : f.opnd.toNat < 1024) (hhx : f.hx = 0)
    (hcons : (reelOf s f.opnd.toNat).cons.getLsbD n = true)
    (hwait : (reelOf s f.opnd.toNat).q = [] ∨ popTurn s f.opnd.toNat n = false) :
    exec (.rpop n t f) s = .next (setThread n t { threadOf s n t with run := .waiting (.rpop f.opnd.toNat f.d) } s) := by
  have hcond : (decide ((reelOf s f.opnd.toNat).q = []) || !popTurn s f.opnd.toNat n) = true := by
    obtain hempty | hturn := hwait
    · rw [decide_eq_true hempty, Bool.true_or]
    · rw [hturn, Bool.not_false, Bool.or_true]
  change execRpop n t f s = _
  simp only [execRpop, hrun, reelOperand_legal hr hhx, hcons, hcond, Bool.not_true, Bool.and_false, Bool.and_self, Bool.false_eq_true,
    if_false, if_true]

theorem exec_rpop_of_turn {h : Handle} {q : List Handle} (hcons : (reelOf s f.opnd.toNat).cons.getLsbD n = true)
    (hq : (reelOf s f.opnd.toNat).q = h :: q) (hturn : popTurn s f.opnd.toNat n = true) :
    exec (.rpop n t f) s = .next (coreStep n t (decide (f.opnd.toNat < 1024) && decide (f.hx = 0))
      (fun u => .ok (popTo n t f.d f.opnd.toNat u)) s) := by
  change execRpop n t f s = _
  simp only [execRpop, hcons, hq, hturn, Bool.not_true, Bool.and_false, Bool.or_false, reduceCtorEq, decide_false, Bool.false_eq_true,
    if_false]
end

/-- Settles O39, a clause for each row and what it finds. -/
theorem reelInstructions : Obligations.ReelInstructions := by
  unfold Obligations.ReelInstructions
  refine ⟨?push, ?pushWait, ?pushOutside, ?pushResume, ?pop, ?popWait, ?popOutside, ?popResume, ?turns⟩
  case push =>
    intro n t f s hrun hr hhx hprod hturn
    exact ⟨_, exec_rpush_of_turn hprod hturn, TileMoved.setReel_shows
      (tileMoved_coreStep_of_tiles_eq hrun (reelOperand_legal hr hhx) rfl rfl)⟩
  case pushWait =>
    intro n t f s hrun hr hhx hprod hturn
    exact coreRuns_of_tileMoved (exec_rpush_of_wait hrun hr hhx hprod hturn) ((TileMoved.refl n s).setThread t _)
  case pushOutside =>
    intro n t f s hrun hr hhx hprod
    have hmoved := tileMoved_coreStep_of_tiles_eq (f := fun u => .ok (reelReject n f.opnd.toNat (ownerWork u (threadOf u n t).owner) u))
      hrun (reelOperand_legal hr hhx) rfl
      (reelReject_tiles n f.opnd.toNat (ownerWork s (threadOf s n t).owner) s)
    obtain ⟨hreels, hcount, hevent, hregs, hreports, hmem⟩ := reelReject_shows hmoved.2.2
    exact ⟨_, exec_rpush_of_outside hprod, hreels, hcount, hevent, hregs, hreports,
      (hmoved.threadOf_eq t).trans (thrOf_setThr_same t _ _), hmem⟩
  case pushResume =>
    intro n t r h s hwaiting hturn
    have hexec : exec (.rpushResume n t) s = .next (resume n t id (pushReel r (handleFrom s n t h) s)) := by
      change execRpushResume n t s = _
      simp only [execRpushResume, hwaiting, hturn, if_true]
    obtain ⟨hreel, -, hthread, honly⟩ := TileMoved.setReel_shows (s := s)
      ((TileMoved.refl n (pushReel r (handleFrom s n t h) s)).setThread t (retire { threadOf s n t with run := .running }))
    exact ⟨_, hexec, hreel, hthread, honly⟩
  case pop =>
    intro n t f h q s hrun hr hhx hcons hq hturn
    refine ⟨_, exec_rpop_of_turn hcons hq hturn, TileMoved.setReel_shows
      (tileMoved_coreStep_setThread hrun (reelOperand_legal hr hhx) ?_ rfl)⟩
    rw [popTo_of_cons hq]
  case popWait =>
    intro n t f s hrun hr hhx hcons hwait
    exact coreRuns_of_tileMoved (exec_rpop_of_wait hrun hr hhx hcons hwait) ((TileMoved.refl n s).setThread t _)
  case popOutside =>
    intro n t f s hrun hr hhx hcons
    obtain ⟨hreels, hcount, hevent, hregs, hreports, hmem⟩ := reelReject_shows (u := reelReject n f.opnd.toNat
      (ownerWork s (threadOf s n t).owner) (setThread n t { threadOf s n t with run := .waiting .rejected } s)) rfl
    exact ⟨_, exec_rpop_of_outside hrun hr hhx hcons, hreels, hcount, hevent, hregs, hreports,
      (threadOf_congr (reelReject_tiles ..) n t).trans (threadOf_setThread_same n t _ s), hmem⟩
  case popResume =>
    intro n t r d h q s hwaiting hq hturn
    have hexec : exec (.rpopResume n t) s = .next (popTo n t d r (resume n t id s)) := by
      change execRpopResume n t s = _
      simp only [execRpopResume, hwaiting, hq, hturn, reduceCtorEq, decide_false, Bool.not_true, Bool.or_false, Bool.false_eq_true,
        if_false]
    have hmoved := ((TileMoved.refl n (setReel r { reelOf s r with q } s)).setThread t
      (retire { threadOf s n t with run := .running })).setThread t
      (setD d (h.h.setWidth 32) (retire { threadOf s n t with run := .running }))
    rw [setThr_setThr] at hmoved
    obtain ⟨hreel, -, hthread, honly⟩ := TileMoved.setReel_shows (s := s) hmoved
    rw [resume_eq_setThread, popTo_of_cons (show (reelOf (setThread n t _ s) r).q = h :: q from hq), threadOf_setThread_same] at hexec
    exact ⟨_, hexec, hreel, hthread, honly⟩
  case turns => exact fun r n s => ⟨pushTurn_iff s r n, popTurn_iff s r n⟩

end Sys2Proof.Machine
end

/-! ### Cue waits, Dolly lists and atomics (05 R167, R168; 06 R172, R195; 07 R209–R214)

A CUEWAIT that comes too late aborts its chain: what the chain had delivered by then is written first, which keeps the chain's number,
and the chain is then over. An atomic is one operation more in its queue, and applied it writes its bytes and counts. -/

section
namespace Sys2Proof.Machine

/-! #### A chain keeps its number while it delivers -/

theorem chainOf_congr {s t : State} (h : t.chains = s.chains) (r : DRef) : chainOf t r = chainOf s r := by rw [chainOf, h, chainOf]

theorem chainOf_ref {s : State} {r : DRef} {c : Chain} (h : chainOf s r = some c) : c.ref = r := by
  have hfound := List.find?_some h
  exact of_decide_eq_true (Bool.and_eq_true_iff.1 hfound).1

theorem chainOf_open {s : State} {r : DRef} {c : Chain} (h : chainOf s r = some c) : c.ended = false := by
  have hfound := List.find?_some h
  simpa using (Bool.and_eq_true_iff.1 hfound).2

/-- A chain with new contents is the chain of its descriptor. -/
theorem chainOf_setChain {s : State} {r : DRef} {c d : Chain} (h : chainOf s r = some c) (href : d.ref = r) (hopen : d.ended = false) :
    chainOf (setChain d s) r = some d := by
  have hhit (x : Chain) : (decide ((if x.ref = d.ref then d else x).ref = r) && !(if x.ref = d.ref then d else x).ended) =
      decide (x.ref = r) := by
    rw [href]
    split
    · next hx => rw [href, hopen, hx, Bool.not_false, Bool.and_true]
    · next hx => rw [decide_eq_false hx, Bool.false_and]
  have hsome : (s.chains.find? fun x => decide (x.ref = r)).isSome = true :=
    List.find?_isSome.2 ⟨c, List.mem_of_find?_eq_some h, decide_eq_true (chainOf_ref h)⟩
  obtain ⟨x, hx⟩ := Option.isSome_iff_exists.1 hsome
  have hxr : x.ref = d.ref := (of_decide_eq_true (List.find?_some (p := fun x : Chain => decide (x.ref = r)) hx)).trans href.symm
  change (s.chains.map fun x => if x.ref = d.ref then d else x).find? _ = _
  rw [List.find?_map, show (fun c : Chain => decide (c.ref = r) && !c.ended) ∘ (fun x : Chain => if x.ref = d.ref then d else x) =
    fun x => decide (x.ref = r) from funext hhit, hx, Option.map_some, if_pos hxr]

/-- From `s` to `u` a chain of `r` stays, with its number. -/
def ChainStays (r : DRef) (s u : State) : Prop := ∀ c, chainOf s r = some c → ∃ d, chainOf u r = some d ∧ d.chain = c.chain

section
variable {r : DRef} {s t u : State}

theorem ChainStays.of_chains_eq (h : u.chains = s.chains) : ChainStays r s u := fun c hc => ⟨c, (chainOf_congr h r).trans hc, rfl⟩

theorem ChainStays.refl (r : DRef) (s : State) : ChainStays r s s := ChainStays.of_chains_eq rfl

theorem ChainStays.trans (h : ChainStays r s t) (h' : ChainStays r t u) : ChainStays r s u := by
  intro c hc
  obtain ⟨d, hd, hnum⟩ := h c hc
  obtain ⟨e, he, hnum'⟩ := h' d hd
  exact ⟨e, he, hnum'.trans hnum⟩

theorem chainStays_setGot {c : Chain} (h : chainOf s r = some c) (g : Got) : ChainStays r s (setGot c g s) := by
  intro c' hc'
  obtain rfl := Option.some.inj (h.symm.trans hc')
  exact ⟨_, chainOf_setChain h (chainOf_ref (c := c) h) (chainOf_open (c := c) h), rfl⟩

theorem chainStays_of_does {l : List Fld} (h : Does l s u) (hl : Fld.chains ∉ l) : ChainStays r s u :=
  ChainStays.of_chains_eq (h.same .chains hl)

theorem chainStays_deliverGot {c : Chain} (h : chainOf s r = some c) (p : PuschPdu) (x : CbGot) : ChainStays r s (deliverGot c p x s) := by
  have hgot := chainStays_setGot h { c.got with cbs := c.got.cbs ++ [x] }
  unfold deliverGot
  dsimp only
  split
  · exact hgot.trans (chainStays_of_does (l := [.radio]) (harqPassed_does (Does.refl _ _) rfl) (by decide))
  · exact hgot

theorem chainStays_harqPut (cap : Nat) (g : GridIx) (p : PuschPdu) (h : Harq) (s : State) : ChainStays r s (harqPut cap g p h s) :=
  chainStays_of_does (l := [.radio]) (harqPut_does (Does.refl _ _) rfl) (by decide)

theorem chainStays_judgeBlock {c : Chain} (h : chainOf s r = some c) (p : PuschPdu) (b : CbPart) : ChainStays r s (judgeBlock c p b s) := by
  unfold judgeBlock
  split
  · exact chainStays_deliverGot h p _
  · split
    · exact chainStays_deliverGot h p _
    · have hkept (soft : List Byte) : chainOf (harqKeep c p b.cb soft s) r = some c :=
        (chainOf_congr ((harqKeep_does (fs₀ := [.radio]) (Does.refl _ s) rfl).same .chains (by decide)) r).trans h
      have hgot (soft : List Byte) (x : CbGot) : ChainStays r s (deliverGot c p x (harqKeep c p b.cb soft s)) :=
        ((chainStays_harqPut _ _ _ _ s).trans (chainStays_deliverGot (hkept soft) p x))
      exact (hgot _ _).trans (ChainStays.of_chains_eq rfl)

theorem chainStays_beginPdu {c : Chain} (h : chainOf s r = some c) (k : Nat) (p : PuschPdu) : ChainStays r s (beginPdu c k p s) := by
  unfold beginPdu
  split
  · exact ChainStays.refl r s
  · dsimp only
    split
    · exact chainStays_setGot h _
    · exact (chainStays_setGot h _).trans (chainStays_harqPut _ _ _ _ _)

theorem chainStays_deliverBlock (b : CbPart) (s : State) : ChainStays r s (deliverBlock r b s) := by
  unfold deliverBlock
  split
  · exact ChainStays.refl r s
  · next c hc =>
    split
    · exact ChainStays.refl r s
    · next p _ =>
      split
      · exact ChainStays.refl r s
      · dsimp only
        split
        · exact chainStays_beginPdu hc _ p
        · next d hd => exact (chainStays_beginPdu hc _ p).trans (chainStays_judgeBlock hd p b)

theorem chainStays_deliverBlocks (bs : List CbPart) (s : State) : ChainStays r s (deliverBlocks r bs s) := by
  induction bs generalizing s with
  | nil => exact ChainStays.refl r s
  | cons b bs ih => exact (chainStays_deliverBlock b s).trans (ih _)

theorem chainStays_deliverRa (x : RaPart) (s : State) : ChainStays r s (deliverRa r x s) := by
  unfold deliverRa
  split
  · exact ChainStays.refl r s
  · next c hc =>
    split
    · exact ChainStays.refl r s
    · split
      · exact ChainStays.refl r s
      · exact (chainStays_setGot hc _).trans (ChainStays.of_chains_eq rfl)

theorem chainStays_deliverRas (xs : List RaPart) (s : State) : ChainStays r s (deliverRas r xs s) := by
  induction xs generalizing s with
  | nil => exact ChainStays.refl r s
  | cons x xs ih => exact (chainStays_deliverRa x s).trans (ih _)

theorem chainStays_deliverFree (r : DRef) (s : State) : ChainStays r s (deliverFree r s) := by
  unfold deliverFree
  split
  · exact ChainStays.refl r s
  · next c hc =>
    split
    · simp only [deliver, hc]
      exact (((chainStays_setGot hc _).trans (chainStays_deliverBlocks _ _)).trans (chainStays_deliverRas _ _)).trans
        (ChainStays.of_chains_eq rfl)
    · exact ChainStays.refl r s
end

/-! #### A chain that a late CUEWAIT ends (06 R195) -/

theorem chainOf_setChain_ended (c : Chain) (s : State) : chainOf (setChain { c with ended := true, steps := [] } s) c.ref = none := by
  refine List.find?_eq_none.2 fun x hx => ?_
  obtain ⟨y, -, rfl⟩ := List.mem_map.1 hx
  split
  · simp
  · next hy => simpa using fun h => absurd h hy

theorem chainOf_haltChain (c : Chain) (s : State) : chainOf (haltChain c s) c.ref = none := by
  unfold haltChain
  dsimp only
  have hdropped (u : State) : chainOf (dropWindows (fun w => decide (w.ref = c.ref)) (setChain { c with ended := true, steps := [] } u))
      c.ref = none :=
    (chainOf_congr ((dropWindows_does (fs₀ := [.regs, .windows]) (Does.refl _ _) rfl).same .chains (by decide)) _).trans
      (chainOf_setChain_ended c u)
  rw [chainOf_congr ((harqRestore_does (fs₀ := [.radio]) (Does.refl _ _) rfl).same .chains (by decide))]
  split
  · rw [chainOf_congr ((clearStaging_does (fs₀ := [.mem]) (Does.refl _ _) rfl).same .chains (by decide))]
    exact hdropped _
  · exact hdropped _

theorem chainOf_abortChain (r : DRef) (status : Nat) (ref : Word) (s : State) : chainOf (abortChain r status ref s) r = none := by
  unfold abortChain
  split
  · assumption
  · next c hc =>
    have hhalted := chainOf_haltChain c s
    rw [chainOf_ref hc] at hhalted
    rw [chainOf_congr ((finishOut_does (fs₀ := [.regs, .pairs, .funcs, .flights, .mem, .fault, .out]) (Does.refl _ _) rfl).same .chains
      (by decide))]
    exact hhalted

/-- A violation ends the chain, sets its event and records chain, step and cause (06 R195, R197). -/
theorem violate_shows {r : DRef} {s : State} {c : Chain} (h : chainOf s r = some c) (step cause : Nat) :
    chainOf (violate r step cause s) r = none ∧ rdb (violate r step cause s) directorEvent 0 = true ∧
      rd (violate r step cause s) 0x30040 = BitVec.ofNat 32 (c.chain % 256 + 256 * (step % 256) + 65536 * cause) := by
  have hviolate : violate r step cause s = raise directorEvent 0
      (wr 0x30040 (BitVec.ofNat 32 (c.chain % 256 + 256 * (step % 256) + 65536 * cause)) (bump 0x30020 1 (abortChain r 0x32 0 s))) := by
    rw [violate, abortCounted, h]
  rw [hviolate]
  refine ⟨?_, rdb_raise directorEvent 0 _ (by decide), ?_⟩
  · exact (chainOf_congr (by rw [raise_frame]; rfl) r).trans (chainOf_abortChain r 0x32 0 s)
  · rw [raise_regsBut directorEvent 0 _ _ (by decide), rd_wr_same]

theorem violateFree_shows {r : DRef} {s : State} {c : Chain} (h : chainOf s r = some c) (step cause : Nat) :
    chainOf (violateFree r step cause s) r = none ∧ rdb (violateFree r step cause s) directorEvent 0 = true ∧
      rd (violateFree r step cause s) 0x30040 = BitVec.ofNat 32 (c.chain % 256 + 256 * (step % 256) + 65536 * cause) := by
  obtain ⟨d, hd, hnum⟩ := chainStays_deliverFree r s c h
  rw [← hnum]
  exact violate_shows hd step cause

/-! #### CUEWAIT (05 R168) -/

theorem usePair_eq_update (d : Fin 16) (s : State) : usePair d s = { s with free := (usePair d s).free } := by
  unfold usePair
  split <;> rfl

theorem usePair_setThread (d : Fin 16) (n : Nat) (t : Thr) (y : Thread) (s : State) :
    usePair d (setThread n t y s) = setThread n t y (usePair d s) := by
  unfold usePair
  split <;> rfl

/-- A thread that changed where a pair of registers was read. -/
theorem setThread_usePair_shows (d : Fin 16) (n : TileIx) (t : Thr) (y : Thread) (s : State) :
    threadOf (usePair d (setThread n t y s)) n t = y ∧
      onlyThread n t { s with free := (usePair d (setThread n t y s)).free } (usePair d (setThread n t y s)) := by
  have htiles : (usePair d s).tiles = s.tiles := by rw [usePair_eq_update]
  have hmoved := (TileMoved.refl n (usePair d s)).setThread t y
  rw [tileOf_congr htiles] at hmoved
  have hfree : (usePair d (setThread n t y s)).free = (usePair d s).free := by rw [usePair_setThread, setThread_free]
  rw [hfree, ← usePair_eq_update, usePair_setThread]
  exact hmoved.onlyThread_of_tiles_eq htiles

/-- The thread goes on with C set behind a cue that has passed. -/
def cueLate (n : TileIx) (f : SysF) (s : State) : State := usePair f.d (setThread n 0 (setC true (retire (threadOf s n 0))) s)

section
variable {n : TileIx} {f : SysF} {s : State}

theorem exec_cuewait_of_ahead (hrun : canRun s n 0 = true) (hopnd : f.opnd.toNat ≤ 1) (hhx : f.hx = 0)
    (hcue : (nowUnits s : Int) ≤ cueWordTime s (pairVal s (threadOf s n 0) f.d) (nowUnits s)) :
    exec (.cuewait n 0 f) s = .next (usePair f.d (setThread n 0 { threadOf s n 0 with
      run := .waiting (.cue (cueWordTime s (pairVal s (threadOf s n 0) f.d) (nowUnits s)).toNat (f.opnd.getLsbD 0)) } s)) := by
  change execCuewait n 0 f s = _
  simp only [execCuewait, hrun, decide_eq_true hopnd, decide_eq_true hhx, decide_true, Bool.and_self, if_true, if_pos hcue]

theorem exec_cuewait_of_late (hrun : canRun s n 0 = true) (hopnd : f.opnd.toNat ≤ 1) (hhx : f.hx = 0)
    (hphy : phyCode (threadOf s n 0) = false)
    (hcue : cueWordTime s (pairVal s (threadOf s n 0) f.d) (nowUnits s) < (nowUnits s : Int)) :
    exec (.cuewait n 0 f) s = .next (cueLate n f s) := by
  change execCuewait n 0 f s = _
  simp only [execCuewait, hrun, decide_eq_true hopnd, decide_eq_true hhx, decide_true, Bool.and_self, if_true, if_neg (not_le.2 hcue)]
  cases howner : (threadOf s n 0).owner with
  | chain r step => simp [phyCode, howner] at hphy
  | none => rfl
  | item k => rfl
  | job p => rfl

theorem exec_cuewait_of_late_chain {r : DRef} {step : Nat} {c : Chain} (hrun : canRun s n 0 = true) (hopnd : f.opnd.toNat ≤ 1)
    (hhx : f.hx = 0) (howner : (threadOf s n 0).owner = .chain r step) (hchain : chainOf (cueLate n f s) r = some c)
    (hcue : cueWordTime s (pairVal s (threadOf s n 0) f.d) (nowUnits s) < (nowUnits s : Int)) :
    exec (.cuewait n 0 f) s = .next (violateFree r step 1 (cueLate n f s)) := by
  change execCuewait n 0 f s = _
  rw [cueLate] at hchain
  simp only [execCuewait, hrun, decide_eq_true hopnd, decide_eq_true hhx, decide_true, Bool.and_self, if_true, if_neg (not_le.2 hcue),
    howner, hchain, cueLate]

theorem chainOf_cueLate (n : TileIx) (f : SysF) (s : State) (r : DRef) : chainOf (cueLate n f s) r = chainOf s r :=
  chainOf_congr (by rw [cueLate, usePair_eq_update]; rfl) r
end

/-! #### DKICK (06 R172) -/

theorem kick_legal {f : SysF} (hd : f.d = 0) (hopnd : f.opnd = 0) : (decide (f.d = 0) && decide (f.opnd = 0)) = true := by
  rw [decide_eq_true hd, decide_eq_true hopnd, Bool.and_true]

theorem exec_dkick_of_full {n : TileIx} {t : Thr} {f : SysF} {s : State} (hrun : canRun s n t = true) (hd : f.d = 0) (hopnd : f.opnd = 0)
    (hfull : 8 ≤ ((tileOf s n).dolly.filter fun l => decide (l.thr = t)).length) : exec (.dkick n t f) s = .next s := by
  change execDkick n t f s = _
  simp only [execDkick, hrun, kick_legal hd hopnd, decide_eq_true hfull, Bool.and_self, if_true]

/-- The tile with a list of the thread more, at the head named. -/
def kicked (n : TileIx) (t : Thr) (f : SysF) (s : State) : Tile :=
  { tileOf s n with dolly := (tileOf s n).dolly ++ [⟨t, (getH (threadOf s n t) f.hx).toNat, 0, [], none, false,
      ownerClass s (threadOf s n t).owner, (threadOf s n t).owner⟩] }

theorem exec_dkick_of_room {n : TileIx} {t : Thr} {f : SysF} {s : State}
    (hroom : ((tileOf s n).dolly.filter fun l => decide (l.thr = t)).length < 8) :
    exec (.dkick n t f) s = .next (coreStep n t (decide (f.d = 0) && decide (f.opnd = 0)) (fun u =>
      if lsSize ≤ (getH (threadOf u n t) f.hx).toNat then .error excBounds else .ok (setTile n (kicked n t f u) u)) s) := by
  change execDkick n t f s = _
  simp only [execDkick, decide_eq_false (Nat.not_le.2 hroom), Bool.and_false, Bool.false_eq_true, if_false]
  rfl

/-! #### AADD and AMM as they issue (07 R209, R210) -/

/-- The operation on its way, once the registers are read. -/
def atomQueued (n : TileIx) (t : Thr) (f : SysF) (op a : Nat) (s : State) : State :=
  let s1 := if f.opnd.toNat % 8 = 3 then usePair f.d s else s
  { s1 with mem := { s1.mem with atomics := s1.mem.atomics ++ [⟨n, t, a, op, f.opnd.toNat % 8,
      if f.opnd.toNat % 8 = 3 then pairVal s (threadOf s n t) f.d else (getD (threadOf s n t) f.d).setWidth 64⟩] } }

section
variable {n : TileIx} {t : Thr} {f : SysF} {legal : Bool} {op a : Nat} {s : State}

theorem atomQueued_mem : (atomQueued n t f op a s).mem =
    { s.mem with atomics := s.mem.atomics ++ [⟨n, t, a, op, f.opnd.toNat % 8,
        if f.opnd.toNat % 8 = 3 then pairVal s (threadOf s n t) f.d else (getD (threadOf s n t) f.d).setWidth 64⟩] } := by
  have hmem : (if f.opnd.toNat % 8 = 3 then usePair f.d s else s).mem = s.mem := by
    split
    · rw [usePair_eq_update]
    · rfl
  unfold atomQueued
  dsimp only
  rw [hmem]

theorem atomQueued_eq_update : atomQueued n t f op a s =
    { s with mem := (atomQueued n t f op a s).mem, free := (atomQueued n t f op a s).free } := by
  unfold atomQueued
  dsimp only
  split
  · rw [usePair_eq_update]
  · rfl

/-- With 8 of the thread on their way the thread stalls (05 R167). -/
theorem atomIssue_of_full (hrun : canRun s n t = true) (hlegal : legal = true)
    (hfull : 8 ≤ (s.mem.atomics.filter fun o => decide (o.tile = n) && decide (o.thr = t)).length) :
    atomIssue n t f legal op s = s := by
  rw [atomIssue, hrun, hlegal, decide_eq_true hfull]
  rfl

theorem tileMoved_atomIssue (hrun : canRun s n t = true) (hlegal : legal = true)
    (htyp : ¬ (3 < f.opnd.toNat % 8 ∨ op ≠ 0 ∧ f.opnd.toNat % 8 < 2))
    (hcheck : addrCheck (getH (threadOf s n t) f.hx).toNat (atomBytes (f.opnd.toNat % 8)) (atomBytes (f.opnd.toNat % 8)) = none)
    (htarget : atomTarget s (threadOf s n t) op (f.opnd.toNat % 8) (getH (threadOf s n t) f.hx).toNat = some a)
    (halign : a % atomBytes (f.opnd.toNat % 8) = 0)
    (hroom : (s.mem.atomics.filter fun o => decide (o.tile = n) && decide (o.thr = t)).length < 8) :
    TileMoved n (setThr t (retire (threadOf s n t)) (tileOf s n)) (atomQueued n t f op a s) (atomIssue n t f legal op s) := by
  rw [atomIssue, decide_eq_false (Nat.not_le.2 hroom), Bool.and_false, if_neg Bool.false_ne_true]
  refine tileMoved_coreStep_of_tiles_eq hrun hlegal ?_ (by rw [atomQueued_eq_update])
  simp only [if_neg htyp, hcheck, htarget, halign, ne_eq, not_true_eq_false, if_false]
  rfl

/-- What the issue shows. -/
theorem atomIssue_shows {u : State} (h : TileMoved n (setThr t (retire (threadOf s n t)) (tileOf s n)) (atomQueued n t f op a s) u) :
    u.mem = { s.mem with atomics := s.mem.atomics ++ [⟨n, t, a, op, f.opnd.toNat % 8,
        if f.opnd.toNat % 8 = 3 then pairVal s (threadOf s n t) f.d else (getD (threadOf s n t) f.d).setWidth 64⟩] } ∧
      threadOf u n t = retire (threadOf s n t) ∧ onlyThread n t { s with mem := u.mem, free := u.free } u := by
  have hmem : u.mem = (atomQueued n t f op a s).mem := by rw [h.2.2]
  have hfree : u.free = (atomQueued n t f op a s).free := by rw [h.2.2]
  obtain ⟨hthread, honly⟩ := h.onlyThread_of_tiles_eq (by rw [atomQueued_eq_update])
  refine ⟨hmem.trans atomQueued_mem, hthread, ?_⟩
  rw [hmem, hfree, ← atomQueued_eq_update]
  exact honly
end

/-! #### An atomic as it is applied (07 R212–R214) -/

theorem putKeep_eq_update (a : Nat) (bs : List Byte) (s : State) : putKeep a bs s = { s with mem := (putKeep a bs s).mem } := by
  unfold putKeep
  dsimp only
  split <;> rfl

/-- A poison mark that stays changes no byte. -/
theorem memByte_putKeep (a : Nat) (bs : List Byte) (s : State) (x : Nat) : memByte (putKeep a bs s) x = memByte (memPut a bs s) x := by
  unfold putKeep
  dsimp only
  split <;> rfl

theorem putKeep_atomics (a : Nat) (bs : List Byte) (s : State) : (putKeep a bs s).mem.atomics = s.mem.atomics := by
  unfold putKeep
  dsimp only
  split <;> rfl

theorem memRead_putKeep_same {s : State} (hwc : s.mem.wc = []) (a : Nat) (bs : List Byte) :
    memRead (putKeep a bs s) a bs.length = bs :=
  (memRead_congr fun i _ => memByte_putKeep a bs s (a + i)).trans (memRead_memPut_same hwc a bs)

theorem memBut_putKeep (a : Nat) (bs : List Byte) (s : State) : memBut a bs.length s (putKeep a bs s) :=
  fun x hx => (memByte_putKeep a bs s x).trans (memBut_memPut a bs s x hx)

theorem wcFlushLine_of_empty {s : State} (hwc : s.mem.wc = []) (line : Nat) : wcFlushLine line s = s := by
  rw [wcFlushLine, wcFind, hwc, List.find?_nil]

/-- The new value of an INT32 target: the wrapped sum, the minimum or the maximum. -/
theorem atomNew_int32 {o : AtomOp} (htyp : o.typ = 2) (old : Nat) : atomNew o old = (BitVec.ofInt 32
    (if o.op = 0 then signedOf 32 old + signedOf 32 o.val.toNat
     else if o.op = 1 then min (signedOf 32 old) (signedOf 32 o.val.toNat)
     else max (signedOf 32 old) (signedOf 32 o.val.toNat))).toNat := by
  obtain ⟨tile, thr, addr, op, typ, val⟩ := o
  obtain rfl : typ = 2 := htyp
  simp only [atomNew, min_def_lt', max_def_lt]
  rfl

/-- Four bytes of HBM become the new value, and the controller counts. -/
theorem applyAtom_int32_shows {o : AtomOp} {s : State} (htyp : o.typ = 2) (hin : o.addr + 4 ≤ hbmSize) (hwc : s.mem.wc = []) :
    memRead (applyAtom o s) o.addr 4 = leBytes 4 (atomNew o (leNat (memRead s o.addr 4))) ∧ memBut o.addr 4 s (applyAtom o s) ∧
      (applyAtom o s).mem.atomics = s.mem.atomics ∧
      (rd (applyAtom o s) (hbmReg (hbmPlace s o.addr).1 0x30)).toNat =
        min (2 ^ 32 - 1) ((rd s (hbmReg (hbmPlace s o.addr).1 0x30)).toNat + 1) ∧
      regsBut [hbmReg (hbmPlace s o.addr).1 0x30] s (applyAtom o s) ∧
      applyAtom o s = { s with mem := (applyAtom o s).mem, regs := (applyAtom o s).regs } := by
  have hbytes : atomBytes o.typ = 4 := by rw [htyp]; rfl
  have happly : applyAtom o s = bump (hbmReg (hbmPlace s o.addr).1 0x30) 1
      (putKeep o.addr (leBytes 4 (atomNew o (leNat (memRead s o.addr 4)))) s) := by
    rw [applyAtom, wcFlushLine_of_empty hwc, if_pos (by omega), hbytes]
  have hlen := leBytes_length 4 (atomNew o (leNat (memRead s o.addr 4)))
  generalize leBytes 4 (atomNew o (leNat (memRead s o.addr 4))) = bs at happly hlen ⊢
  have hkept := putKeep_eq_update o.addr bs s
  have hregs : (putKeep o.addr bs s).regs = s.regs := by rw [hkept]
  rw [happly, ← hlen]
  refine ⟨Eq.trans (memRead_congr fun _ _ => memByte_congr (s := putKeep o.addr bs s) rfl _) (memRead_putKeep_same hwc o.addr bs),
    memBut_putKeep o.addr bs s,
    putKeep_atomics o.addr bs s, ?count, ?regs, ?rest⟩
  case count => rw [rd_bump_toNat, rd_congr hregs]
  case regs => exact (regsBut.of_regs_eq hregs _).trans (bump_regsBut _ 1 _) (List.Subset.refl _)
  case rest =>
    rw [hkept]
    rfl

/-- The operation is off the queue. -/
def atomTaken (o : AtomOp) (s : State) : State := { s with mem := { s.mem with atomics := s.mem.atomics.erase o } }

theorem memRead_atomTaken (o : AtomOp) (s : State) (a k : Nat) : memRead (atomTaken o s) a k = memRead s a k :=
  memRead_congr fun _ _ => rfl

/-- Settles O40, a clause for each row and what it finds. -/
theorem cueWaitsAndAtomics : Obligations.CueWaitsAndAtomics := by
  unfold Obligations.CueWaitsAndAtomics
  refine ⟨?ahead, ?late, ?violation, ?kick, ?aadd, ?amm, ?stall, ?apply⟩
  case ahead =>
    exact fun n f s hrun hopnd hhx hcue => ⟨_, exec_cuewait_of_ahead hrun hopnd hhx hcue, setThread_usePair_shows _ _ _ _ _⟩
  case late =>
    exact fun n f s hrun hopnd hhx hphy hcue =>
      ⟨_, exec_cuewait_of_late hrun hopnd hhx hphy hcue, setThread_usePair_shows _ _ _ _ _⟩
  case violation =>
    intro n f r step c s hrun hopnd hhx howner hchain hcue
    have hlate : chainOf (cueLate n f s) r = some c := (chainOf_cueLate n f s r).trans hchain
    exact ⟨_, exec_cuewait_of_late_chain hrun hopnd hhx howner hlate hcue, violateFree_shows hlate step 1⟩
  case kick =>
    intro n t f s hrun hd hopnd hin hroom
    exact tileRuns_of_tileMoved (exec_dkick_of_room hroom) (tileMoved_coreStep (x := kicked n t f s) hrun (kick_legal hd hopnd)
      (if_neg (Nat.not_le.2 hin)) (tileMoved_setTile n _ s))
  case aadd =>
    intro n t f a s hrun hopnd hcheck htarget halign hroom
    have htyp : f.opnd.toNat % 8 = f.opnd.toNat := Nat.mod_eq_of_lt (by omega)
    have hthree : f.opnd.toNat = 3 ↔ f.opnd = 3 := (BitVec.toNat_eq (x := f.opnd) (y := 3)).symm
    rw [← htyp] at hcheck htarget halign
    have hshows := atomIssue_shows (tileMoved_atomIssue (legal := decide (f.opnd.toNat < 8)) hrun (decide_eq_true (by omega)) (by omega)
      hcheck htarget halign hroom)
    simp only [htyp, hthree] at hshows
    exact ⟨_, rfl, hshows⟩
  case amm =>
    intro n t f a s hrun hopnd hlo hhi hcheck htarget halign hroom
    exact ⟨_, rfl, atomIssue_shows (tileMoved_atomIssue hrun (decide_eq_true hopnd) (by omega) hcheck htarget halign hroom)⟩
  case stall =>
    intro n t f s hrun hd hopnd hlists hatomics
    have hop : f.opnd.toNat = 0 := by rw [hopnd]; rfl
    exact ⟨exec_dkick_of_full hrun hd hopnd hlists,
      congrArg Host.Outcome.next (atomIssue_of_full hrun (decide_eq_true (by omega)) hatomics),
      congrArg Host.Outcome.next (atomIssue_of_full hrun (decide_eq_true (by omega)) hatomics)⟩
  case apply =>
    intro n t o s hfind htyp hop hin hwc hheld
    have hexec : exec (.atomicApply n t) s = .next (applyAtom o (atomTaken o s)) := by
      change execAtomicApply n t s = _
      simp only [execAtomicApply, hfind, hheld, Bool.false_eq_true, if_false]
      rfl
    obtain ⟨hnew, hother, hqueue, hcount, hregs, hrest⟩ := applyAtom_int32_shows (s := atomTaken o s) htyp hin hwc
    rw [memRead_atomTaken, atomNew_int32 htyp] at hnew
    exact ⟨_, hexec, hnew, hother, hqueue, hcount, hregs, hrest⟩

end Sys2Proof.Machine
end

/-! ### A receiver pack that finds no room (09 R277, R278; log 89)

LOAD_RXPACK ends with FULL where the bytes of the packs that stay and of the new one pass what the director reserves for packs. The
statement asks only that fewer than two other packs are current, so one other pack that fills the space refutes it. -/

section
namespace Sys2Proof.Machine

/-- One entry of a pack's directory. -/
def packEntry (typ off len : Nat) : List Byte := leBytes 2 typ ++ zeros 2 ++ leBytes 4 off ++ leBytes 4 len ++ zeros 4

/-- The header and the directory of pack 3, with the bytes of a CRC. -/
def packThreeHead (crc : List Byte) : List Byte :=
  leBytes 4 0x0C119AC4 ++ [1, 4] ++ leBytes 2 3 ++ leBytes 4 5 ++ [1, 2, 1, 1] ++ crc ++ zeros 44 ++
    packEntry 1 128 0 ++ packEntry 2 128 0 ++ packEntry 3 0 144 ++ packEntry 4 0 256

/-- A well-formed pack 3 of 256 bytes. -/
def packThree : List Byte := packThreeHead (leBytes 4 0x133C2D44) ++ zeros 128

/-- LOAD_RXPACK of class 5 in phase 1: pack 3 from the 256 bytes at host address 0x1000. -/
def packThreeDesc : BitVec 512 := BitVec.ofNat 512 (0x51 + 2 ^ 8 * 5 + 2 ^ 16 + 2 ^ 64 * 0x1000 + 2 ^ 128 * 256 + 2 ^ 256 * 3)

/-- The pack 4 that is current: its bytes fill what is reserved for packs. -/
def packFour : Pack :=
  { num := 1, id := 4, tool := 5, modMask := 2, maxLayers := 1, muMask := 1, waveMask := 1, raw := zeros packRoom, old := false }

/-- An active sheet without steps. -/
def emptySheet : Loaded :=
  { num := 1, id := 7, part := 0, state := .active, tiles := [0], reels := [], c1 := false, copy := [], hbmShare := 0, token := none,
    img := { kind := 1, tool := 0, abi := 0, roles := 1, standbyOk := false, overlap := 4, lsBytes := 0, poolBytes := 0, reels := 0,
             buffers := 0, fMin := 0, hbmMin := 0, code := [], codeSu := none, masktab := [], buftab := [], reeltab := [], reloc := [],
             steps := [], windows := [], raw := [] } }

/-- A locked device whose toolchain is accepted, with the descriptor in flight, beside a current pack 4. -/
def packSpaceFull : State :=
  { State.reset with
    regs := [(0xE0018, 0xFFFF0000), (8, 1), (pairReg 2 0x10, 0x3F000631), (0x20004, 0xB)]
    pairs := [(2, { live := true, reserved := 1 })]
    funcs := [(0, { bme := true })]
    flights := [⟨⟨2, 0⟩, packThreeDesc, false⟩]
    mgmt := { State.reset.mgmt with accepted := [(5, 0x100)] }
    loaded := [emptySheet]
    radio := { State.reset.radio with packs := [packFour] } }

/-- The CRC register over a list, cut behind its first `k` bytes. -/
theorem crcFeed_cut (k poly : Nat) (bs : List Byte) (c : Nat) :
    crcFeed poly bs c = crcFeed poly (bs.drop k) (crcFeed poly (bs.take k) c) := by
  induction bs generalizing k c with
  | nil => rw [List.drop_nil, List.take_nil]; rfl
  | cons b bs ih =>
    cases k with
    | zero => rfl
    | succ k => exact ih k _

theorem crc_packThree : crc32 (putAt packThree 16 (zeros 4)) = 0x133C2D44 := by
  have hfirst : crcFeed 0xEDB88320 ((putAt packThree 16 (zeros 4)).take 64) 0xFFFFFFFF = 0xAB47E1E7 := by decide +kernel
  have hsecond : crcFeed 0xEDB88320 (((putAt packThree 16 (zeros 4)).drop 64).take 64) 0xAB47E1E7 = 0x4553C296 := by decide +kernel
  have hthird : crcFeed 0xEDB88320 ((((putAt packThree 16 (zeros 4)).drop 64).drop 64).take 64) 0x4553C296 = 0x32F5B263 := by
    decide +kernel
  have hlast : crcFeed 0xEDB88320 ((((putAt packThree 16 (zeros 4)).drop 64).drop 64).drop 64) 0x32F5B263 = 0xECC3D2BB := by
    decide +kernel
  rw [crc32, crcFeed_cut 64, hfirst, crcFeed_cut 64, hsecond, crcFeed_cut 64, hthird, hlast]
  rfl

theorem packOk_packThree : packOk 3 packThree = true := by
  rw [packOk, crcAt, crc_packThree]
  decide +kernel

theorem length_packThree : packThree.length = 256 := by decide +kernel
theorem field_packThreeDesc : field (dOpw packThreeDesc 0) 15 0 = 3 := by decide +kernel
theorem dA0Dev_packThreeDesc : dA0Dev packThreeDesc = false := by decide +kernel

theorem inputOf_packThree : inputOf packSpaceFull packThreeDesc (.data packThree) = .bytes packThree := by
  have hlen : dLen0 packThreeDesc = packThree.length := by rw [length_packThree]; decide +kernel
  rw [inputOf, if_neg (by rw [dA0Dev_packThreeDesc]; decide), hlen, fitTo, List.take_length, Nat.sub_self, zeros, List.replicate_zero,
    List.append_nil]

theorem packUntested_packThree : packUntested packSpaceFull packThreeDesc (.data packThree) = false := by decide +kernel

theorem ready_packThree : Ready packSpaceFull ⟨2, 0⟩ packThreeDesc 0x51
    { in0 := true, badLength := decide (dLen0 packThreeDesc = 0) || decide (0x1000000 < dLen0 packThreeDesc),
      untestedPair := packUntested packSpaceFull packThreeDesc (.data packThree) } := by
  rw [packUntested_packThree]
  decide +kernel

/-! #### The refusal -/

/-- A descriptor that is ready under its opcode's rules goes on to its row. -/
theorem runDesc_of_rules {r : DRef} {d : BitVec 512} {op : Nat} {o : State → BitVec 512 → OpRules} {s : State}
    (h : Ready s r d op (o s d)) (go : BitVec 512 → State → State) : runDesc r op o go s = go d s := by
  obtain ⟨hflight, hop, hturn, hcheck, hfence⟩ := h
  simp [runDesc, hflight, hop, hturn, hcheck, hfence]

/-- With more bytes than are free a pack is refused FULL. -/
theorem rxpackGo_of_no_room {r : DRef} {d : BitVec 512} {bs : List Byte} {s : State} (hpack : packOk (field (dOpw d 0) 15 0) bs = true)
    (hactive : (activeLoad s).isSome = true) (hroom : packRoom < packHeld s (field (dOpw d 0) 15 0) + bs.length) :
    rxpackGo r d bs s = refuseFull r s := by
  have hsome : (activeLoad s).isNone = false := by rw [← Option.not_isSome, hactive]; rfl
  simp only [rxpackGo, hpack, hsome, hroom, or_true, if_true, Bool.true_eq_false, Bool.false_eq_true, if_false]

/-- A refusal for want of room keeps the packs. -/
theorem packsNow_refuseFull (r : DRef) (s : State) : packsNow (refuseFull r s) = packsNow s := by
  rw [packsNow, refuseFull, (finish_same ..).same .radio (by decide), packsNow]

theorem packHeld_packSpaceFull : packHeld packSpaceFull 3 = packRoom := by
  change packFour.raw.length + 0 = packRoom
  exact List.length_replicate

theorem exec_loadRxpack {r : DRef} {d : BitVec 512} {dma : Dma} {bs : List Byte} {s : State}
    (hready : Ready s r d 0x51 { in0 := true, badLength := decide (dLen0 d = 0) || decide (0x1000000 < dLen0 d),
                                 untestedPair := packUntested s d dma })
    (hdrop : isDrop d = false) (hid : field (dOpw d 0) 15 0 ≠ 0) (hhigh : field (dOpw d 0) 31 17 = 0) (hzero : dBits d 288 224 = 0)
    (hdev : dA0Dev d = false) (hin : inputOf s d dma = .bytes bs) : exec (.loadRxpack r dma) s = .next (rxpackGo r d bs s) := by
  change execLoadRxpack r dma s = _
  have hrules : Ready s r d 0x51 { in0 := !isDrop d, badLength := !isDrop d && (decide (dLen0 d = 0) || decide (0x1000000 < dLen0 d)),
                                   untestedPair := packUntested s d dma } := by
    rw [hdrop]
    exact hready
  rw [execLoadRxpack, runDesc_of_rules hrules]
  simp only [hid, hhigh, hzero, hdrop, withInput, hin, hdev, ne_eq, not_true_eq_false, or_self, Bool.false_eq_true, if_false]

/-- Refutes O45: with pack 4 in all the room for packs, the well-formed pack 3 is refused FULL, and no pack 3 is current. -/
theorem not_loadsAndTakes : ¬ Obligations.LoadsAndTakes := by
  unfold Obligations.LoadsAndTakes
  rintro ⟨-, -, hpack, -⟩
  have hid : field (dOpw packThreeDesc 0) 15 0 ≠ 0 := by decide +kernel
  have hhigh : field (dOpw packThreeDesc 0) 31 17 = 0 := by decide +kernel
  have hdrop : isDrop packThreeDesc = false := by decide +kernel
  have hzero : dBits packThreeDesc 288 224 = 0 := by decide +kernel
  have hok : packOk (field (dOpw packThreeDesc 0) 15 0) packThree = true := field_packThreeDesc ▸ packOk_packThree
  have hactive : (activeLoad packSpaceFull).isSome = true := by decide +kernel
  have hroom : packRoom < packHeld packSpaceFull (field (dOpw packThreeDesc 0) 15 0) + packThree.length := by
    rw [field_packThreeDesc, packHeld_packSpaceFull, length_packThree]
    omega
  obtain ⟨t, hrun, -, hraw, -⟩ := hpack ⟨2, 0⟩ packThreeDesc (.data packThree) packThree packSpaceFull ready_packThree hdrop hid hhigh
    hzero inputOf_packThree hok hactive (by decide +kernel)
  rw [exec_loadRxpack ready_packThree hdrop hid hhigh hzero dA0Dev_packThreeDesc inputOf_packThree,
    rxpackGo_of_no_room hok hactive hroom] at hrun
  obtain rfl := Host.Outcome.next.inj hrun
  rw [packsNow_refuseFull] at hraw
  exact absurd (congrArg List.length hraw) (by decide +kernel)

end Sys2Proof.Machine
end

/-! ### PHY requests (06 R188; 09 R255, R258, R259)

A request whose checks pass adds one chain for its slot and leaves the device as it was; a transport block goes to the chain of its slot,
or into the list of those that wait. -/

section
namespace Sys2Proof.Machine

/-! #### A descriptor that starts -/

theorem flightOf_markStarted {s : State} {r : DRef} {f : Flight} (h : flightOf s r = some f) :
    flightOf (markStarted r s) r = some { f with started := true } := by
  have hkeep : (fun f : Flight => decide (f.ref = r)) ∘ (fun f : Flight => if f.ref = r then { f with started := true } else f) =
      fun f => decide (f.ref = r) := by
    funext x
    dsimp only [Function.comp_apply]
    split <;> rfl
  have href : f.ref = r := of_decide_eq_true (List.find?_some (p := fun f : Flight => decide (f.ref = r)) h)
  have hfind : s.flights.find? (fun f => decide (f.ref = r)) = some f := h
  rw [flightOf, markStarted, List.find?_map, hkeep, hfind, Option.map_some, if_pos href]

/-! #### Arming a chain -/

/-- A chain of the request `r` stands armed for the slot that starts at `t0`, with nothing bound or delivered yet, and the descriptor
has started; registers, memory, tiles and what leaves the device are as before. -/
def ArmedFor (r : DRef) (d : BitVec 512) (chain t0 : Nat) (pdus : List FapiPdu) (s t : State) : Prop :=
  (∃ c ∈ t.chains, c.ref = r ∧ c.t0 = t0 ∧ c.chain = chain ∧ c.fired = false ∧ c.ended = false ∧ c.pdus = pdus ∧ c.bound = [] ∧
    c.got = {}) ∧
  flightOf t r = some ⟨r, d, true⟩ ∧ t.regs = s.regs ∧ t.out = s.out ∧ t.mem = s.mem ∧ t.tiles = s.tiles

section
variable {r : DRef} {d : BitVec 512} {l : Loaded} {s : State}

/-- Without blocks that wait, or for another kind, arming adds the chain alone. -/
theorem armedFor_armChain (hflight : flightOf s r = some ⟨r, d, false⟩) {chain : Nat} (hwait : chain / 4 = 2 → s.radio.tx = [])
    (pdus : List FapiPdu) (t0 : Nat) : ArmedFor r d chain t0 pdus s (armChain r d l chain pdus t0 s) := by
  have hbind : ∀ t : State, t.radio = s.radio → (if chain / 4 = 2 then bindWaiting r t.radio.tx t else t) = t := by
    intro t hradio
    split
    · next hkind => rw [hradio, hwait hkind, bindWaiting]
    · rfl
  unfold armChain
  dsimp only
  rw [hbind]
  · exact ⟨⟨_, List.mem_append_right _ (List.mem_singleton_self _), rfl, rfl, rfl, rfl, rfl, rfl, rfl, rfl⟩,
      flightOf_markStarted hflight, rfl, rfl, rfl, rfl⟩
  · rfl

/-- The checks of a request pass for the chain of number `chain` under sheet `l` with earliest step `x` (09 R258). -/
structure PhyOk (d : BitVec 512) (reserved : Bool) (b : FapiBody) (l : Loaded) (x : StepEnt) (chain : Nat) (s : State) : Prop where
  slot : slotCheck s d reserved = none
  sheet : namedSheet s d = some l
  steps : chainSteps l.img chain ≠ []
  clean : (dA0Dev d && devPoisoned s (dAddr0 d).toNat (dLen0 d)) = false
  body : bodyBad s d chain b = false
  first : firstStep s (chainSteps l.img chain) = some x
  epoch : 0 ≤ chainT0 s (slGrid d) (slSfn d) (slSlot d) x
  lead : mayArm s l (slGrid d) (firedKey (slGrid d) (slSfn d) (slSlot d) chain) (chainT0 s (slGrid d) (slSfn d) (slSlot d) x).toNat
    (chainT0 s (slGrid d) (slSfn d) (slSlot d) x + stepCue s x)
    ((chainSteps l.img chain).map fun y => (chainT0 s (slGrid d) (slSfn d) (slSlot d) x + stepCue s y.1).toNat) = true

theorem phyGo_of_ok {kind : Nat} {reserved : Bool} {b : FapiBody} {x : StepEnt} (h : PhyOk d reserved b l x (4 * kind + slGrid d) s) :
    phyGo r kind reserved (.body b) d s =
      armChain r d l (4 * kind + slGrid d) b.pdus (chainT0 s (slGrid d) (slSfn d) (slSlot d) x).toNat s := by
  simp only [phyGo, h.slot, h.sheet, if_neg h.steps, h.clean, Bool.false_eq_true, if_false, phyArm, h.body, h.first,
    if_pos (And.intro h.epoch h.lead)]

theorem armedFor_phyGo {kind : Nat} {reserved : Bool} {b : FapiBody} {x : StepEnt} (h : PhyOk d reserved b l x (4 * kind + slGrid d) s)
    (hflight : flightOf s r = some ⟨r, d, false⟩) (hwait : kind = 2 → s.radio.tx = []) :
    ArmedFor r d (4 * kind + slGrid d) (chainT0 s (slGrid d) (slSfn d) (slSlot d) x).toNat b.pdus s
      (phyGo r kind reserved (.body b) d s) := by
  have hgrid : slGrid d < 4 := Nat.mod_lt _ (by decide)
  rw [phyGo_of_ok h]
  exact armedFor_armChain hflight (fun hkind => hwait (by omega)) b.pdus _
end

/-! #### The rows of the requests -/

section
variable {r : DRef} {d : BitVec 512} {s : State}

theorem exec_phyUlTti {body : FapiRead} (h : Ready s r d 0x10
      { in0 := true, out1 := true, timeDep := true,
        badLength := bodyLenBad d || decide (dLen1 d < if isPrach d then 16384 else 196608) }) :
    exec (.phyUlTti r body) s = .next (phyGo r (bnat (isPrach d)) (ulReserved d) body d s) :=
  congrArg Host.Outcome.next (runDesc_of_rules h _)

theorem exec_phyDlTti {body : FapiRead} (h : Ready s r d 0x11 { in0 := true, timeDep := true, badLength := bodyLenBad d }) :
    exec (.phyDlTti r body) s = .next (phyGo r 2 (dlReserved d) body d s) := congrArg Host.Outcome.next (runDesc_of_rules h _)

theorem exec_phyUlDci {body : FapiRead} (h : Ready s r d 0x12 { in0 := true, timeDep := true, badLength := bodyLenBad d }) :
    exec (.phyUlDci r body) s = .next (phyGo r 3 (dlReserved d) body d s) := congrArg Host.Outcome.next (runDesc_of_rules h _)

theorem exec_phyTxData {bs : List Byte} (h : Ready s r d 0x13 { in0 := true, timeDep := true, badLength := bodyLenBad d })
    (hslot : slotCheck s d (txReserved d) = none) (hsheet : (namedSheet s d).isSome = true) (hdev : dA0Dev d = false)
    (hlen : bs.length = dLen0 d) : exec (.phyTxData r (.data bs)) s = .next (txGo r d bs s) := by
  have hfit : fitTo (dLen0 d) bs = bs := by
    rw [fitTo, ← hlen, List.take_length, Nat.sub_self, zeros, List.replicate_zero, List.append_nil]
  have hnamed : (namedSheet s d).isNone = false := by rw [← Option.not_isSome, hsheet]; rfl
  change execPhyTxData r (.data bs) s = _
  rw [execPhyTxData, runDesc_of_rules h]
  simp only [hslot, hnamed, withInput, inputOf, hdev, hfit, Bool.false_eq_true, if_false]

/-! #### Transport blocks (09 R259) -/

/-- The slot of a descriptor, as a chain and a waiting block hold it. -/
theorem slotWord_desc (d : BitVec 512) : slotWord (Fin.ofNat 4 (slGrid d)).val (BitVec.ofNat 10 (slSfn d)).toNat
    (BitVec.ofNat 5 (slSlot d)).toNat = slotWord (slGrid d) (slSfn d) (slSlot d) := by
  have hgrid : slGrid d % 4 = slGrid d := Nat.mod_eq_of_lt (Nat.mod_lt _ (by decide))
  have hsfn : slSfn d % 2 ^ 10 = slSfn d := Nat.mod_eq_of_lt (Nat.mod_lt _ (by decide))
  have hslot : slSlot d % 2 ^ 5 = slSlot d := Nat.mod_eq_of_lt (Nat.mod_lt _ (by decide))
  rw [Fin.val_ofNat, BitVec.toNat_ofNat, BitVec.toNat_ofNat, hgrid, hsfn, hslot]

theorem txGo_of_bound {bs : List Byte}
    (h : isBound s (slotWord (slGrid d) (slSfn d) (slSlot d)) (field (dOpw d 2) 15 0) = true) : txGo r d bs s = refuse r 0x10 s := by
  rw [← slotWord_desc] at h
  simp only [txGo, h, if_true]

/-- Without a chain the block waits, before its slot. -/
theorem txGo_of_no_chain {bs : List Byte} (hchains : s.chains = [])
    (hfree : isBound s (slotWord (slGrid d) (slSfn d) (slSlot d)) (field (dOpw d 2) 15 0) = false)
    (htime : (nowUnits s : Int) ≤ slotBound s d) :
    txGo r d bs s = markStarted r { s with radio := { s.radio with tx := s.radio.tx ++
      [⟨r, Fin.ofNat 4 (slGrid d), BitVec.ofNat 10 (slSfn d), BitVec.ofNat 5 (slSlot d), field (dOpw d 2) 15 0, bs⟩] } } := by
  rw [← slotWord_desc] at hfree
  simp only [txGo, hfree, hchains, List.find?_nil, if_neg (not_lt.2 htime), Bool.false_eq_true, if_false]

/-- The open chain of its slot with that PDU takes the block. -/
theorem txGo_of_chain {bs : List Byte} {c : Chain} (hchains : s.chains = [c]) (hgrid : c.grid = Fin.ofNat 4 (slGrid d))
    (hsfn : c.sfn = BitVec.ofNat 10 (slSfn d)) (hslot : c.slot = BitVec.ofNat 5 (slSlot d)) (hkind : c.chain / 4 = 2)
    (hended : c.ended = false) (hpdu : isPdsch c.pdus (field (dOpw d 2) 15 0) = true)
    (hfree : isBound s (slotWord (slGrid d) (slSfn d) (slSlot d)) (field (dOpw d 2) 15 0) = false) :
    txGo r d bs s =
      finish r (okStatus true false s) 0 0 bs.length 0 [] (bindBlock c (field (dOpw d 2) 15 0) bs s) := by
  rw [← slotWord_desc] at hfree
  have hmine : (decide (c.grid = Fin.ofNat 4 (slGrid d)) && decide (c.sfn = BitVec.ofNat 10 (slSfn d)) &&
      decide (c.slot = BitVec.ofNat 5 (slSlot d)) && decide (chainKind c.chain = 2) && !c.ended &&
      isPdsch c.pdus (field (dOpw d 2) 15 0)) = true := by
    rw [chainKind, hgrid, hsfn, hslot, hkind, hended, hpdu]
    simp
  simp only [txGo, hfree, hchains, List.find?_cons, hmine, Bool.false_eq_true, if_false]

theorem isBound_bindBlock (c : Chain) (k : Nat) (bs : List Byte) (s : State) : isBound (bindBlock c k bs s) (chainSlot c) k = true := by
  simp [isBound, bindBlock, setChain]

theorem bindBlock_chains {c : Chain} (h : s.chains = [c]) (k : Nat) (bs : List Byte) :
    (bindBlock c k bs s).chains = [{ c with bound := c.bound ++ [(k, bs)] }] := by
  simp [bindBlock, setChain, h]
end

/-! #### The statement -/

/-- Settles O18: a request's row arms its chain, and a transport block is bound, waits or is refused. -/
theorem phyRequestsArmChains : Obligations.PhyRequestsArmChains := by
  unfold Obligations.PhyRequestsArmChains
  refine ⟨?uplink, ?downlink, ?dci, ?waits, ?binds, ?second⟩
  case uplink =>
    intro r d b l x s hready hslot hsheet hsteps hclean hbody hfirst hepoch hlead
    have hkind : bnat (isPrach d) ≠ 2 := by cases isPrach d <;> decide
    obtain ⟨⟨c, hc, href, ht0, hchain, hfired, hended, hpdus, -, -⟩, hrest⟩ := armedFor_phyGo (r := r)
      ⟨hslot, hsheet, hsteps, hclean, hbody, hfirst, hepoch, hlead⟩ hready.1 fun h => absurd h hkind
    exact ⟨_, exec_phyUlTti hready, ⟨c, hc, href, ht0, hchain, hfired, hended, hpdus⟩, hrest⟩
  case downlink =>
    intro r d b l x s hready hslot hsheet hsteps hclean hbody hfirst hepoch hlead hwait
    exact ⟨_, exec_phyDlTti hready, armedFor_phyGo (kind := 2) ⟨hslot, hsheet, hsteps, hclean, hbody, hfirst, hepoch, hlead⟩ hready.1
      fun _ => hwait⟩
  case dci =>
    intro r d b l x s hready hslot hsheet hsteps hclean hbody hfirst hepoch hlead
    obtain ⟨⟨c, hc, href, ht0, hchain, hfired, hended, hpdus, -, -⟩, hrest⟩ := armedFor_phyGo (r := r) (kind := 3)
      ⟨hslot, hsheet, hsteps, hclean, hbody, hfirst, hepoch, hlead⟩ hready.1 fun h => absurd h (by decide)
    exact ⟨_, exec_phyUlDci hready, ⟨c, hc, href, ht0, hchain, hfired, hended, hpdus⟩, hrest⟩
  case waits =>
    intro r d bs s hready hslot hsheet hdev hlen hchains hfree htime
    have hrun := exec_phyTxData hready hslot hsheet hdev hlen
    rw [txGo_of_no_chain hchains hfree htime] at hrun
    exact ⟨_, hrun, rfl, flightOf_markStarted hready.1, rfl, rfl, rfl, rfl⟩
  case binds =>
    intro r d bs c s hready hslot hsheet hdev hlen hchains hgrid hsfn hslotc hkind hended hpdu hfree
    have hrun := exec_phyTxData hready hslot hsheet hdev hlen
    rw [txGo_of_chain hchains hgrid hsfn hslotc hkind hended hpdu hfree] at hrun
    have hsame := finish_same r (okStatus true false s) 0 0 bs.length 0 [] (bindBlock c (field (dOpw d 2) 15 0) bs s)
    have hword : chainSlot c = slotWord (slGrid d) (slSfn d) (slSlot d) := by rw [chainSlot, hgrid, hsfn, hslotc, slotWord_desc]
    refine ⟨_, hrun, ?_, flightOf_finish .., ?_, hsame.same .mem (by decide), hsame.same .tiles (by decide)⟩
    · rw [hsame.same .chains (by decide), bindBlock_chains hchains]
    · rw [isBound, hsame.same .radio (by decide), ← hword]
      exact isBound_bindBlock c _ bs s
  case second =>
    intro r d bs s hready hslot hsheet hdev hlen hbound
    rw [exec_phyTxData hready hslot hsheet hdev hlen, txGo_of_bound hbound]

end Sys2Proof.Machine
end

/-! ### Cues and CHECKs (02 R55; 05 R147, R168; 06 R188, R189, R195)

The clock runs to a cue before anything happens at it, and what happens then leaves the time alone: so no cue fires before its time. -/

section
namespace Sys2Proof.Machine

/-! #### The clock runs to a cue -/

theorem nowUnits_congr {s t : State} (h : t.time = s.time) : nowUnits t = nowUnits s := by rw [nowUnits, followUnits, h]; rfl

theorem followUnits_advance (n : Nat) (lag : Int) (s : State) (h : n ≠ 0) :
    followUnits (advance n s) lag = (followUnits s lag + n * incUnits s) % wrapUnits := by
  have hcounter : counterUnits (advance n s).time.counter = (counterUnits s.time.counter + n * incUnits s) % wrapUnits := by
    rw [advance, if_neg h, counterUnits_counterAt]
  have hnonneg := Int.emod_nonneg ((counterUnits s.time.counter : Int) + lag) (b := (wrapUnits : Int)) (by rw [wrapUnits_eq]; decide)
  zify
  rw [followUnits, followUnits, hcounter, Int.toNat_of_nonneg (Int.emod_nonneg _ (by rw [wrapUnits_eq]; decide)),
    Int.toNat_of_nonneg hnonneg]
  push_cast
  rw [Int.emod_add_emod, Int.emod_add_emod]
  ring_nf

/-- The clock runs until device time is at or past a time that is not about to wrap. -/
theorem le_nowUnits_runToTime {u : Nat} {s : State} (hinc : 0 < incUnits s) (hwrap : u + incUnits s < 2 ^ 48 * unitsS) :
    u ≤ nowUnits (runToTime u s) := by
  rw [runToTime]
  by_cases hn : ceilDiv (u - nowUnits s) (incUnits s) = 0
  · have hle := le_ceilDiv_mul (u - nowUnits s) hinc
    rw [hn, Nat.zero_mul] at hle
    rw [hn, advance, if_pos rfl]
    omega
  · have hle := le_ceilDiv_mul (u - nowUnits s) hinc
    have hlt := ceilDiv_mul_lt (u - nowUnits s) hinc
    have hpast : nowUnits s < u := by
      by_contra hge
      rw [Nat.sub_eq_zero_of_le (not_lt.1 hge), ceilDiv, Nat.zero_add] at hn
      exact hn (Nat.div_eq_of_lt (Nat.sub_lt hinc Nat.one_pos))
    have hlag : (advance (ceilDiv (u - nowUnits s) (incUnits s)) s).time.lagMain = s.time.lagMain := by rw [advance_time]
    rw [nowUnits, hlag, followUnits_advance _ _ _ hn]
    change u ≤ (nowUnits s + ceilDiv (u - nowUnits s) (incUnits s) * incUnits s) % (2 ^ 48 * unitsS)
    rw [Nat.mod_eq_of_lt (by omega)]
    omega

theorem runToTime_eq_atClock (u : Nat) (s : State) : ∃ k c, runToTime u s = atClock k c s := ⟨_, _, advance_eq_atClock _ s⟩

theorem runToTime_same (u : Nat) (s : State) : Does [.clk, .time] s (runToTime u s) := runToTime_does (Does.refl _ s) rfl

theorem chainOf_runToTime (u : Nat) (s : State) (r : DRef) : chainOf (runToTime u s) r = chainOf s r :=
  chainOf_congr ((runToTime_same u s).same .chains (by decide)) r

theorem threadOf_runToTime (u n : Nat) (t : Thr) (s : State) : threadOf (runToTime u s) n t = threadOf s n t :=
  threadOf_congr ((runToTime_same u s).same .tiles (by decide)) n t

theorem loadedNum_runToTime (u k : Nat) (s : State) : loadedNum (runToTime u s) k = loadedNum s k := by
  rw [loadedNum, (runToTime_same u s).same .loaded (by decide), loadedNum]

theorem fenced_runToTime (u n : Nat) (s : State) : fenced (runToTime u s) n = fenced s n :=
  (runToTime_regsBut u s []).rdb_eq List.not_mem_nil 0

theorem tooSoon_runToTime (u : Nat) (c : Chain) (n : Nat) (s : State) : tooSoon (runToTime u s) c n = tooSoon s c n := by
  rw [tooSoon, (runToTime_same u s).same .fault (by decide), tooSoon]

theorem seenNow_runToTime (u : Nat) (c : Chain) (s : State) : seenNow (runToTime u s) c = seenNow s c := by
  obtain ⟨k, now, hclock⟩ := runToTime_eq_atClock u s
  rw [hclock]
  rfl

/-! #### A step starts -/

/-- Thread and tile of a thread that starts. -/
theorem tileOf_startThread (n m : Nat) (t : Thr) (owner : Owner) (image role entry : Nat) (s : State) :
    tileOf (startThread n t owner image role entry s) m =
      if m = n then setThr t { run := .running, owner, image, role, pc := BitVec.ofNat 15 entry } (tileOf s n) else tileOf s m :=
  tileOf_setTile n m _ s

theorem tileOf_loadCode (l : Loaded) (role n m : Nat) (s : State) : tileOf (loadCode l role n s) m =
    if m = n then { tileOf s n with prog := tabSetMany (fun _ => 0) (tileOf s n).prog 0 (boundCode l role) } else tileOf s m :=
  tileOf_setTile n m _ s

/-- What C0 holds when a step begins. -/
abbrev stepThread (c : Chain) (x : StepRun) : Thread :=
  { run := .running, owner := .chain c.ref x.ix, image := c.image, role := x.ent.role, pc := x.ent.entry }

/-- The chain with the step running and its landing bitmaps kept. -/
abbrev firedChain (c : Chain) (ix : Nat) (s : State) : Chain :=
  { setSeen ix (seenNow s c) (setStep c ix .running) with fired := true }

/-- The code of the step's role is loaded and C0 starts. -/
def codeStarted (c : Chain) (x : StepRun) (l : Loaded) (s : State) : State :=
  startThread x.tile 0 (.chain c.ref x.ix) c.image x.ent.role x.ent.entry.toNat (loadCode l x.ent.role x.tile s)

theorem tileOf_codeStarted (c : Chain) (x : StepRun) (l : Loaded) (s : State) (m : Nat) : tileOf (codeStarted c x l s) m =
    if m = x.tile then setThr 0 (stepThread c x) (tileOf (loadCode l x.ent.role x.tile s) x.tile) else tileOf s m := by
  rw [codeStarted, tileOf_startThread, BitVec.ofNat_toNat, BitVec.setWidth_eq]
  split
  · rfl
  · next h => rw [tileOf_loadCode, if_neg h]

theorem codeStarted_same (c : Chain) (x : StepRun) (l : Loaded) (s : State) : Does [.regs, .tiles] s (codeStarted c x l s) :=
  startThread_does (loadCode_does (Does.refl _ s) rfl) rfl

theorem startStep_of_loaded {c : Chain} {l : Loaded} {s : State} (x : StepRun) (h : loadedNum s c.image = some l) :
    startStep c x s = cplaneAt c x.ix (offerWindows c x l (setChain (firedChain c x.ix s) (rememberFired c (codeStarted c x l s)))) := by
  rw [startStep, h]
  rfl

theorem nowUnits_rememberFired (c : Chain) (s : State) : nowUnits (rememberFired c s) = nowUnits s := by
  unfold rememberFired
  split <;> rfl

/-- A step that starts: its chain has fired, C0 of its tile runs from the entry, and of the tiles no other differs. -/
theorem startStep_shows {c : Chain} {x : StepRun} {l : Loaded} {s : State} (hload : loadedNum s c.image = some l)
    (hchain : chainOf s c.ref = some c) :
    chainOf (startStep c x s) c.ref = some (firedChain c x.ix s) ∧ nowUnits (startStep c x s) = nowUnits s ∧
      threadOf (startStep c x s) x.tile 0 = stepThread c x ∧ threadOf (startStep c x s) x.tile 1 = threadOf s x.tile 1 ∧
      ∀ m, m ≠ x.tile → tileOf (startStep c x s) m = tileOf s m := by
  have hbegun : Does [.regs, .radio, .out, .windows] (setChain (firedChain c x.ix s) (rememberFired c (codeStarted c x l s)))
      (startStep c x s) := by
    rw [startStep_of_loaded x hload]
    exact cplaneAt_does (offerWindows_does (Does.refl _ _) rfl) rfl
  have hcode := rememberFired_does (c := c) (fs₀ := [.regs, .tiles, .time]) ((codeStarted_same c x l s).mono (by decide)) rfl
  have htiles : (startStep c x s).tiles = (codeStarted c x l s).tiles :=
    (hbegun.same .tiles (by decide)).trans ((rememberFired_does (fs₀ := [.time]) (Does.refl _ (codeStarted c x l s)) rfl).same .tiles
      (by decide))
  refine ⟨?chain, ?time, ?c0, ?c1, ?others⟩
  case chain =>
    rw [chainOf_congr (hbegun.same .chains (by decide))]
    exact chainOf_setChain ((chainOf_congr (hcode.same .chains (by decide)) c.ref).trans hchain) rfl (chainOf_open (c := c) hchain)
  case time =>
    rw [nowUnits_congr (hbegun.same .time (by decide))]
    exact (nowUnits_rememberFired c _).trans (nowUnits_congr ((codeStarted_same c x l s).same .time (by decide)))
  case c0 => rw [threadOf_congr htiles, threadOf, tileOf_codeStarted, if_pos rfl, thrOf_setThr_same]
  case c1 => rw [threadOf_congr htiles, threadOf, tileOf_codeStarted, if_pos rfl, tileOf_loadCode, if_pos rfl]; rfl
  case others => exact fun m hm => by rw [tileOf_congr htiles, tileOf_codeStarted, if_neg hm]

/-- At the cue of an armed step, with C0 stopped on a tile that serves the role, the step starts. -/
theorem fireStep_of_ready {c : Chain} {x : StepRun} {s : State} (hchain : chainOf s c.ref = some c) (hfence : fenced s x.tile = false)
    (hstopped : (threadOf s x.tile 0).run = .stopped) (hsoon : tooSoon s c x.tile = false) :
    fireStep c.ref x s = startStep c x (runToTime x.cue s) := by
  have hidle : overrun x.tile (runToTime x.cue s) = runToTime x.cue s := by
    rw [overrun, threadOf_runToTime, hstopped]
  rw [fireStep, hidle, fireOn, chainOf_runToTime, hchain]
  simp only [fenced_runToTime, hfence, tooSoon_runToTime, hsoon, Bool.or_self, Bool.false_eq_true, if_false]

/-! #### A thread that waits goes on -/

theorem cueResume_shows {n u : Nat} {b : Bool} {s : State} (hwait : (threadOf s n 0).run = .waiting (.cue u b)) (hinc : 0 < incUnits s)
    (hwrap : u + incUnits s < 2 ^ 48 * unitsS) :
    threadOf (cueResume n s) n 0 = retire { threadOf s n 0 with run := .running } ∧ u ≤ nowUnits (cueResume n s) ∧
      cueResume n s = { s with tiles := (cueResume n s).tiles, clk := (cueResume n s).clk, time := (cueResume n s).time } := by
  have hresume : cueResume n s = setThread n 0 (retire { threadOf s n 0 with run := .running }) (runToTime u s) := by
    rw [cueResume, hwait]
    dsimp only
    rw [threadOf_runToTime]
  rw [hresume]
  have hnow : u ≤ nowUnits (runToTime u s) := le_nowUnits_runToTime hinc hwrap
  refine ⟨threadOf_setThread_same .., hnow.trans_eq (nowUnits_congr (setThread_time ..).symm), ?_⟩
  obtain ⟨k, now, hclock⟩ := runToTime_eq_atClock u s
  rw [hclock]
  rfl

/-! #### The deadline and a CHECK that is missed -/

theorem chainStays_deliver (r : DRef) (seen : List (List Byte)) (res : ChainResult) (s : State) :
    ChainStays r s (deliver r seen res s) := by
  unfold deliver
  split
  · exact ChainStays.refl r s
  · next c hc => exact ((chainStays_setGot hc _).trans (chainStays_deliverBlocks _ _)).trans (chainStays_deliverRas _ _)

/-- What happens behind the violation changes chains and the radio's tables alone. -/
theorem queueRushes_dropChain_same (c : Chain) (r : DRef) (s : State) : Does [.chains, .radio] s (queueRushes c (dropChain r s)) :=
  queueRushes_does (dropChain_does (Does.refl _ s) rfl) rfl

theorem queueRushes_dropChain_chains (c : Chain) (r : DRef) (s : State) :
    (queueRushes c (dropChain r s)).chains = s.chains.filter fun x => decide (x.ref ≠ r) :=
  ((queueRushes_does (Does.refl [.radio] (dropChain r s)) rfl).same .chains (by decide)).trans
    ((dropOldPacks_does (Does.refl [.radio] { s with chains := s.chains.filter fun x => decide (x.ref ≠ r) }) rfl).same .chains
      (by decide))

theorem missDeadline_time (r : DRef) (s : State) : (missDeadline r s).time = s.time :=
  (missDeadline_does (fs₀ := [.regs, .pairs, .funcs, .flights, .mem, .tiles, .reels, .chains, .windows, .radio, .fault, .free, .out])
    (Does.refl _ s) rfl).same .time (by decide)

theorem missDeadline_of_chain {r : DRef} {s : State} {k : Chain} (h : chainOf s r = some k) :
    missDeadline r s = violateFree r (lastStep k) 0 s := by rw [missDeadline, h]

/-- The deadline takes the chain away, with a violation where it was not done. -/
theorem fireDeadline_shows {c : Chain} {s : State} (hinc : 0 < incUnits s) (hwrap : c.deadline + incUnits s < 2 ^ 48 * unitsS) :
    c.deadline ≤ nowUnits (fireDeadline c s) ∧ ((fireDeadline c s).chains.all fun k => decide (k.ref ≠ c.ref)) = true ∧
      ((chainOf s c.ref).isSome = true → rdb (fireDeadline c s) directorEvent 0 = true) := by
  have hsame := queueRushes_dropChain_same c c.ref (missDeadline c.ref (runToTime c.deadline s))
  rw [fireDeadline]
  refine ⟨?time, ?gone, ?event⟩
  case time =>
    rw [nowUnits_congr ((hsame.same .time (by decide)).trans (missDeadline_time ..))]
    exact le_nowUnits_runToTime hinc hwrap
  case gone =>
    rw [queueRushes_dropChain_chains]
    exact List.all_eq_true.2 fun k hk => (List.mem_filter.1 hk).2
  case event =>
    intro hsome
    obtain ⟨k, hk⟩ := Option.isSome_iff_exists.1 hsome
    have hstill : chainOf (runToTime c.deadline s) c.ref = some k := (chainOf_runToTime ..).trans hk
    rw [(regsBut.of_regs_eq (hsame.same .regs (by decide)) []).rdb_eq List.not_mem_nil, missDeadline_of_chain hstill]
    exact (violateFree_shows hstill _ 0).2.1

/-- A CHECK that is missed: the chain is violated at or past its time. -/
theorem violate_at_check_shows {c : Chain} {u : Nat} {s : State} (hchain : chainOf s c.ref = some c) (seen : List (List Byte))
    (res : ChainResult) (step : Nat) (hinc : 0 < incUnits s) (hwrap : u + incUnits s < 2 ^ 48 * unitsS) :
    let t := violate c.ref step 0 (deliver c.ref seen res (runToTime u s))
    u ≤ nowUnits t ∧ chainOf t c.ref = none ∧ rd t 0x30040 = BitVec.ofNat 32 (c.chain % 256 + 256 * (step % 256)) ∧
      rdb t directorEvent 0 = true := by
  obtain ⟨d, hd, hnum⟩ := chainStays_deliver c.ref seen res (runToTime u s) c ((chainOf_runToTime ..).trans hchain)
  obtain ⟨hgone, hevent, hlast⟩ := violate_shows hd step 0
  have hsame := violate_does (r := c.ref) (step := step) (cause := 0)
    (fs₀ := [.regs, .pairs, .funcs, .flights, .mem, .tiles, .reels, .chains, .windows, .radio, .fault, .free, .out])
    (deliver_does (r := c.ref) (seen := seen) (res := res) (Does.refl _ (runToTime u s)) rfl) rfl
  refine ⟨?_, hgone, ?_, hevent⟩
  · rw [nowUnits_congr (hsame.same .time (by decide))]
    exact le_nowUnits_runToTime hinc hwrap
  · rw [hlast, hnum, Nat.mul_zero, Nat.add_zero]

/-! #### CUE_FIRE and STEP_CHECK_EXPIRY -/

section
variable {g : GridIx} {sfn : BitVec 10} {slot : BitVec 5} {ch : Fin 16} {step : Nat} {c : Chain} {x : StepRun} {l : Loaded} {s : State}

theorem exec_cueFire_of_armed (hslot : slotChain s g sfn slot ch = some c) (hload : loadedNum s c.image = some l)
    (hlt : step < l.img.steps.length) (hstep : (c.steps.find? fun x => decide (x.ix = step)) = some x) (harmed : x.state = .armed) :
    exec (.cueFire g sfn slot ch step) s = .next (fireStep c.ref x s) := by
  change execCueFire g sfn slot ch step s = _
  simp only [execCueFire, hslot, hload, Option.map_some, Option.getD_some, if_neg (Nat.not_le.2 hlt), hstep, harmed]

theorem exec_cueFire_of_running (hslot : slotChain s g sfn slot ch = some c) (hload : loadedNum s c.image = some l)
    (hlt : step < l.img.steps.length) (hstep : (c.steps.find? fun x => decide (x.ix = step)) = some x) (hrunning : x.state = .running) :
    exec (.cueFire g sfn slot ch step) s = .next (cueResume x.tile s) := by
  change execCueFire g sfn slot ch step s = _
  simp only [execCueFire, hslot, hload, Option.map_some, Option.getD_some, if_neg (Nat.not_le.2 hlt), hstep, hrunning]

theorem exec_cueFire_of_deadline (hslot : slotChain s g sfn slot ch = some c) (hload : loadedNum s c.image = some l)
    (hle : l.img.steps.length ≤ step) : exec (.cueFire g sfn slot ch step) s = .next (fireDeadline c s) := by
  change execCueFire g sfn slot ch step s = _
  simp only [execCueFire, hslot, hload, Option.map_some, Option.getD_some, if_pos hle]

theorem exec_cueFire_of_no_chain {n w : Nat} (hslot : slotChain s g sfn slot ch = none) (hwait : earliestWait s.tiles = some (n, w)) :
    exec (.cueFire g sfn slot ch step) s = .next (cueResume n s) := by
  change execCueFire g sfn slot ch step s = _
  simp only [execCueFire, hslot, fireWaiting, hwait]

theorem exec_stepCheckExpiry_of_step {res : ChainResult} (hslot : slotChain s g sfn slot ch = some c)
    (hstep : (c.steps.find? fun x => decide (x.ix = step)) = some x) :
    exec (.stepCheckExpiry g sfn slot ch step res) s = .next (if x.state = .done then s
      else violate c.ref step 0 (deliver c.ref x.seen res (runToTime (x.cue + x.ent.check * unitsNs) s))) := by
  change execStepCheckExpiry g sfn slot ch step res s = _
  simp only [execStepCheckExpiry, hslot, hstep]
end

/-- Settles O46, a clause for each row and what it finds. -/
theorem cuesStartAndCheckSteps : Obligations.CuesStartAndCheckSteps := by
  unfold Obligations.CuesStartAndCheckSteps
  refine ⟨?armed, ?running, ?waiting, ?deadline, ?missed, ?done⟩
  case armed =>
    intro g sfn slot ch step c x l s hslot hchain hload hlt hstep harmed hfence hstopped hsoon hinc hwrap htile
    have hix : x.ix = step := of_decide_eq_true (List.find?_some (p := fun x : StepRun => decide (x.ix = step)) hstep)
    have hrun := exec_cueFire_of_armed hslot hload hlt hstep harmed
    rw [fireStep_of_ready hchain hfence hstopped hsoon] at hrun
    obtain ⟨hfired, hnow, hc0, hc1, hothers⟩ := startStep_shows (x := x) ((loadedNum_runToTime x.cue c.image s).trans hload)
      ((chainOf_runToTime x.cue s c.ref).trans hchain)
    have hsame := startStep_does (c := c) (x := x) (fs₀ := [.regs, .clk, .time, .tiles, .chains, .windows, .radio, .out])
      ((runToTime_same x.cue s).mono (by decide)) rfl
    rw [firedChain, seenNow_runToTime, hix] at hfired
    rw [stepThread, hix] at hc0
    rw [threadOf_runToTime] at hc1
    refine ⟨_, hrun, hfired, (le_nowUnits_runToTime hinc hwrap).trans_eq hnow.symm, hc0, hc1, fun m hm => ?_, hsame.same .mem (by decide),
      hsame.same .flights (by decide)⟩
    rw [Fin.val_ofNat, Nat.mod_eq_of_lt htile] at hm
    exact (hothers m hm).trans (tileOf_congr ((runToTime_same x.cue s).same .tiles (by decide)) m)
  case running =>
    intro g sfn slot ch step c x l u b s hslot hload hlt hstep hrunning hwait hinc hwrap
    exact ⟨_, exec_cueFire_of_running hslot hload hlt hstep hrunning, cueResume_shows hwait hinc hwrap⟩
  case waiting =>
    intro g sfn slot ch step n u w b s hslot hearliest hwait hinc hwrap
    exact ⟨_, exec_cueFire_of_no_chain hslot hearliest, cueResume_shows hwait hinc hwrap⟩
  case deadline =>
    intro g sfn slot ch step c l s hslot hload hle hinc hwrap
    exact ⟨_, exec_cueFire_of_deadline hslot hload hle, fireDeadline_shows hinc hwrap⟩
  case missed =>
    intro g sfn slot ch step res c x s hslot hchain hstep hopen hinc hwrap
    have hrun := exec_stepCheckExpiry_of_step (res := res) hslot hstep
    rw [if_neg hopen] at hrun
    exact ⟨_, hrun, violate_at_check_shows hchain x.seen res step hinc hwrap⟩
  case done =>
    intro g sfn slot ch step res c x s hslot hstep hdone
    rw [exec_stepCheckExpiry_of_step hslot hstep, if_pos hdone]

end Sys2Proof.Machine
end

/-! ### Second-unit items, windows and roles that move (06 R190–R196; 12 R348, R351; 14 R403)

An item is placed by a grant, a thread that starts and the item's new place; it leaves by a thread that stops and its place at the head of
the queue. What each of these does to the items, the tiles and the registers is stated once. -/

section
namespace Sys2Proof.Machine

/-! #### The class that is picked (12 R348) -/

/-- The first match of a list that rises is the least. -/
theorem le_of_find?_eq_some {l : List Nat} (hl : l.Pairwise (· ≤ ·)) {p : Nat → Bool} {c k : Nat} (h : l.find? p = some c) (hk : k ∈ l)
    (hp : p k = true) : c ≤ k := by
  obtain ⟨-, as, bs, rfl, hbefore⟩ := List.find?_eq_some_iff_append.1 h
  rcases List.mem_append.1 hk with hin | hin
  · exact absurd hp (by simpa using hbefore k hin)
  · rcases List.mem_cons.1 hin with rfl | hlater
    · exact Nat.le_refl _
    · exact List.rel_of_pairwise_cons (List.pairwise_append.1 hl).2.1 hlater

theorem classAsks_eq_true_iff (s : State) (req : Nat → Bool) (c : Nat) :
    classAsks s req c = true ↔ req c = true ∧ (sagWarn s = true → c ≠ 4) := by
  cases hreq : req c <;> cases hsag : rdb s gafferStatus 0 <;> simp [classAsks, sagWarn, hreq, hsag]

/-- The class picked asks, and no class with credit comes before it. -/
theorem pickClass_shows {r : Round} {req : Nat → Bool} {c : Nat} {s : State} (h : pickClass s r req = some c) :
    classAsks s req c = true ∧ c ∈ [1, 2, 3, 4, 5] ∧
      ∀ k ∈ [1, 2, 3, 4, 5], classAsks s req k = true → 0 < creditLeft s r k → 0 < creditLeft s r c ∧ c ≤ k := by
  unfold pickClass at h
  split at h
  · next d hfirst =>
    obtain rfl := Option.some.inj h
    obtain ⟨hasks, hcredit⟩ := Bool.and_eq_true_iff.1
      (List.find?_some (p := fun k => classAsks s req k && decide (0 < creditLeft s r k)) hfirst)
    exact ⟨hasks, List.mem_of_find?_eq_some hfirst, fun k hk hk' hck => ⟨of_decide_eq_true hcredit,
      le_of_find?_eq_some (by decide) hfirst hk (Bool.and_eq_true_iff.2 ⟨hk', decide_eq_true hck⟩)⟩⟩
  · next hnone =>
    refine ⟨List.find?_some h, List.mem_of_find?_eq_some h, fun k hk hk' hck => ?_⟩
    exact absurd (Bool.and_eq_true_iff.2 ⟨hk', decide_eq_true hck⟩) (List.find?_eq_none.1 hnone k hk)

/-! #### Items -/

/-- An item with new contents is found wherever the old one was and it still fits. -/
theorem find?_setItem {s : State} {p : Item → Bool} {i j : Item} (h : s.items.find? p = some i) (hnum : j.num = i.num)
    (hj : p j = true) : (setItem j s).items.find? p = some j := by
  change (s.items.map fun x => if x.num = j.num then j else x).find? p = some j
  generalize s.items = l at h
  induction l with
  | nil => exact absurd h (by rw [List.find?_nil]; exact nofun)
  | cons x xs ih =>
    rw [List.map_cons]
    by_cases hx : x.num = j.num
    · rw [if_pos hx, List.find?_cons_of_pos hj]
    · have hxp : ¬ p x = true := fun hp => by
        rw [List.find?_cons_of_pos hp] at h
        exact hx (by rw [hnum, Option.some.inj h])
      rw [List.find?_cons_of_neg hxp] at h
      rw [if_neg hx, List.find?_cons_of_neg hxp, ih h]

theorem itemOf_num {s : State} {k : Nat} {i : Item} (h : itemOf s k = some i) : i.num = k :=
  of_decide_eq_true (List.find?_some (p := fun i : Item => decide (i.num = k)) h)

theorem itemOn_on {s : State} {n : TileIx} {t : Thr} {i : Item} (h : itemOn s n t = some i) : i.on = some (n, t) :=
  of_decide_eq_true (List.find?_some (p := fun i : Item => decide (i.on = some (n, t))) h)

theorem itemOf_congr {s t : State} (h : t.items = s.items) (k : Nat) : itemOf t k = itemOf s k := by rw [itemOf, h, itemOf]

theorem itemOn_congr {s t : State} (h : t.items = s.items) (n : TileIx) (k : Thr) : itemOn t n k = itemOn s n k := by
  rw [itemOn, h, itemOn]

/-- An item with new contents is the item of its number, where there is one. -/
theorem itemOf_setItem {s : State} {j : Item} (h : ∃ x ∈ s.items, x.num = j.num) : itemOf (setItem j s) j.num = some j := by
  obtain ⟨x, hx, hnum⟩ := h
  have hsome : (s.items.find? fun y => decide (y.num = j.num)).isSome = true := List.find?_isSome.2 ⟨x, hx, decide_eq_true hnum⟩
  obtain ⟨i, hi⟩ := Option.isSome_iff_exists.1 hsome
  have hinum : i.num = j.num := of_decide_eq_true (List.find?_some (p := fun y : Item => decide (y.num = j.num)) hi)
  exact find?_setItem hi hinum.symm (decide_eq_true rfl)

theorem mem_items_of_nextItem {s : State} {p c : Nat} {i : Item} (h : nextItem s p c = some i) : i ∈ s.items :=
  List.mem_of_find?_eq_some h

/-! #### A thread that starts or stops leaves the director's registers -/

theorem rd_startThread (n : Nat) (t : Thr) (owner : Owner) (image role entry : Nat) (s : State) {o : Nat} (ho : o < 0x200000) :
    rd (startThread n t owner image role entry s) o = rd s o := by
  have hne (k : Nat) : o ∉ [tileReg n k] := by
    rw [List.mem_singleton, tileReg]
    omega
  unfold startThread
  dsimp only
  rw [wrf_regsBut _ _ _ _ _ _ (hne _), wr_regsBut _ _ _ _ (hne _), wrf_regsBut _ _ _ _ _ _ (hne _), wr_regsBut _ _ _ _ (hne _),
    wrf_regsBut _ _ _ _ _ _ (hne _), rd_setThread]

/-! #### An item is placed (06 R190, R191; 12 R351; log 57, 60) -/

/-- The thread of an item that starts. -/
abbrev itemThread (i : Item) (role entry : Nat) : Thread :=
  { run := .running, owner := .item i.num, image := i.image, role, pc := BitVec.ofNat 15 entry }

/-- The item on a thread where it goes on. -/
abbrev itemAt (i : Item) (n : TileIx) (t : Thr) : Item := { i with on := some (n, t), parkedAt := none, leaving := none }

theorem itemOf_placeItem {i : Item} {s : State} (h : i ∈ s.items) (n : TileIx) (t : Thr) (role entry : Nat) :
    itemOf (placeItem i n t role entry s) i.num = some (itemAt i n t) :=
  (itemOf_congr ((startThread_does (fs₀ := [.regs, .tiles]) (Does.refl _ (setItem (itemAt i n t) s)) rfl).same .items (by decide)) _).trans
    (itemOf_setItem (j := itemAt i n t) ⟨i, h, rfl⟩)

/-- The tiles past the placing of an item. -/
theorem tileOf_placeItem (i : Item) (n : TileIx) (t : Thr) (role entry : Nat) (s : State) (m : Nat) :
    tileOf (placeItem i n t role entry s) m =
      if m = n.val then setThr t (itemThread i role entry) (tileOf s n) else tileOf s m :=
  tileOf_startThread n m t (.item i.num) i.image role entry (setItem (itemAt i n t) s)

theorem rd_placeItem (i : Item) (n : TileIx) (t : Thr) (role entry : Nat) (s : State) {o : Nat} (ho : o < 0x200000) :
    rd (placeItem i n t role entry s) o = rd s o := rd_startThread n t (.item i.num) i.image role entry (setItem (itemAt i n t) s) ho

/-- What the placing of an item shows, seen from before its code was loaded. -/
theorem placeItem_shows {i : Item} {n : TileIx} {s u : State} (hin : i ∈ s.items) (hload : Does [.tiles, .rounds] s u)
    (hothers : onlyTile n s u) (t : Thr) (role entry : Nat) :
    itemOf (placeItem i n t role entry u) i.num = some (itemAt i n t) ∧
      threadOf (placeItem i n t role entry u) n t = itemThread i role entry ∧ onlyTile n s (placeItem i n t role entry u) ∧
      (placeItem i n t role entry u).mem = s.mem ∧ (placeItem i n t role entry u).flights = s.flights := by
  have hsame := placeItem_does (i := i) (n := n) (t := t) (role := role) (entry := entry) (fs₀ := [.regs, .tiles, .items, .rounds])
    (hload.mono (by decide)) rfl
  refine ⟨itemOf_placeItem (by rwa [hload.same .items (by decide)]) n t role entry, ?_, fun m hm => ?_, hsame.same .mem (by decide),
    hsame.same .flights (by decide)⟩
  · rw [threadOf, tileOf_placeItem, if_pos rfl, thrOf_setThr_same]
  · rw [tileOf_placeItem, if_neg hm, hothers m hm]

theorem tileOf_loadSu (code : List Word) (n m : Nat) (s : State) : tileOf (loadSu code n s) m =
    if m = n then { tileOf s n with prog := tabSetMany (fun _ => 0) (tileOf s n).prog (suEntry code) code } else tileOf s m :=
  tileOf_setTile n m _ s

/-- A grant changes no tile. -/
theorem tileOf_grantTo (k c : Nat) (s : State) (m : Nat) : tileOf (grantTo k c s) m = tileOf s m :=
  tileOf_congr ((grantTo_does (Does.refl [.rounds] s) rfl).same .tiles (by decide)) m

/-- A match on whether some item is next is a test of it. -/
theorem nextItem_any (s : State) (p : Nat) (f : Item → Bool) :
    (fun c => decide (c ≤ 3) && (match nextItem s p c with
      | some i => f i
      | none => false)) = fun c => decide (c ≤ 3) && (nextItem s p c).any f := by
  funext c
  cases nextItem s p c <;> rfl

section
variable {n : TileIx} {c : Nat} {i : Item} {s : State}

theorem exec_itemDispatch {p : Fin 8} {l : Loaded} (hpart : partKind s p = 2) (hmember : (members s p).contains n.val = true)
    (hstopped : (threadOf s n 0).run = .stopped) (hfree : itemOn s n 0 = none)
    (hpick : pickClass s (roundOf s p) (fun c => decide (c ≤ 3) && ((nextItem s p c).any (canStart s n))) = some c)
    (hnext : nextItem s p c = some i) (hload : loadedNum s i.image = some l) :
    exec (.itemDispatch p n) s = .next (placeItem i n 0 (roleOn l n) 0 (loadCode l (roleOn l n) n (grantTo p c s))) := by
  change execItemDispatch p n s = _
  have hpick' := (congrArg (pickClass s (roundOf s p)) (nextItem_any s p (canStart s n))).trans hpick
  simp only [execItemDispatch, hpart, hmember, hstopped, hfree, decide_true, Option.isNone_none, Bool.and_self, if_true]
  split
  · next hnone => exact absurd (hnone.symm.trans hpick') nofun
  · next d hsome =>
    obtain rfl := Option.some.inj (hsome.symm.trans hpick')
    simp only [hnext, hload]

theorem exec_suPlace {q : Nat} (hfrom : suFrom s = some q) (hfree : suTileFree s n = true) (hsag : sagWarn s = false)
    (hpick : pickClass s (roundOf s 8) (fun c => decide (c ≤ 3) && ((nextItem s q c).any fun i => (itemSu s i).isSome)) = some c)
    (hnext : nextItem s q c = some i) :
    exec (.suPlace n) s = .next (bump 0x30024 1 (placeItem i n 1 0 (suEntry ((itemSu s i).getD []))
      (loadSu ((itemSu s i).getD []) n (grantTo 8 c s)))) := by
  change execSuPlace n s = _
  have hpick' := (congrArg (pickClass s (roundOf s 8)) (nextItem_any s q fun i => (itemSu s i).isSome)).trans hpick
  simp only [execSuPlace, hfrom, hfree, hsag, Bool.not_false, Bool.and_self, if_true]
  split
  · next hnone => exact absurd (hnone.symm.trans hpick') nofun
  · next d hsome =>
    obtain rfl := Option.some.inj (hsome.symm.trans hpick')
    simp only [hnext]
end

/-! #### The sag warning (12 R358) -/

theorem exec_suPlace_of_sag {n : TileIx} {s : State} (h : sagWarn s = true) : exec (.suPlace n) s = .next s := by
  change execSuPlace n s = _
  rw [execSuPlace]
  split
  · rfl
  · rw [if_neg (by rw [h, Bool.not_true, Bool.and_false]; exact Bool.false_ne_true)]

theorem exec_windowRelease_of_sag {n : TileIx} {w : WinHeld} {s : State} (h : sagWarn s = true) :
    exec (.windowRelease n w) s = .next s := by
  change execWindowRelease n w s = _
  rw [execWindowRelease]
  split
  · rfl
  · rw [if_pos (by rw [h, Bool.or_true, Bool.true_or])]

theorem exec_windowOpen_of_sag {n : TileIx} {w : WinHeld} {s : State} (h : sagWarn s = true) : exec (.windowOpen n w) s = .next s := by
  change execWindowOpen n w s = _
  rw [execWindowOpen]
  split
  · rfl
  · rw [if_pos (by rw [h, Bool.or_true, Bool.true_or, Bool.true_or])]

/-! #### Windows (06 R192) -/

@[simp] theorem shadowCtx_setShadow (c : Ctx) (a : MArray) : shadowCtx (setShadow c a) = c := by
  unfold shadowCtx setShadow
  split <;> simp_all

@[simp] theorem activeCtx_setShadow (c : Ctx) (a : MArray) : activeCtx (setShadow c a) = activeCtx a := by
  unfold activeCtx setShadow
  split <;> simp_all

@[simp] theorem queue_setShadow (c : Ctx) (a : MArray) : (setShadow c a).queue = a.queue := by
  unfold setShadow
  split <;> rfl

/-- The array with its shadow context dead to PHY. -/
abbrev phyCleared (a : MArray) : MArray := setShadow { shadowCtx a with phy := false } a

theorem arrOf_clearPhy {k j : Nat} (hk : k < 4) (hj : j < 4) (m : BitVec 4) (x : Tile) :
    arrOf (clearPhy k m x) j = if j = k ∧ m.getLsbD k = true then phyCleared (arrOf x j) else arrOf x j := by
  unfold clearPhy
  split
  · next hbit =>
    rw [arrOf_setArr hj hk]
    simp only [hbit, and_true]
    split
    · next h => rw [h]
    · rfl
  · next hbit => simp only [hbit, and_false, Bool.false_eq_true, if_false]

/-- The tile whose arrays of a mask are released. -/
def releasedTile (m : BitVec 4) (x : Tile) : Tile := clearPhy 3 m (clearPhy 2 m (clearPhy 1 m (clearPhy 0 m x)))

theorem arrOf_releasedTile {k : Nat} (hk : k < 4) (m : BitVec 4) (x : Tile) :
    arrOf (releasedTile m x) k = if m.getLsbD k then phyCleared (arrOf x k) else arrOf x k := by
  simp only [releasedTile, arrOf_clearPhy (k := 3) (by decide) hk, arrOf_clearPhy (k := 2) (by decide) hk,
    arrOf_clearPhy (k := 1) (by decide) hk, arrOf_clearPhy (k := 0) (by decide) hk]
  interval_cases k <;> simp

theorem thrOf_clearPhy (k : Nat) (m : BitVec 4) (x : Tile) (t : Thr) : thrOf (clearPhy k m x) t = thrOf x t := by
  unfold clearPhy
  split
  · exact thrOf_setArr ..
  · rfl

theorem thrOf_releasedTile (m : BitVec 4) (x : Tile) (t : Thr) : thrOf (releasedTile m x) t = thrOf x t := by
  rw [releasedTile, thrOf_clearPhy, thrOf_clearPhy, thrOf_clearPhy, thrOf_clearPhy]

theorem releaseShadows_of_quiet {n : TileIx} {m : BitVec 4} {s : State} (held : Nat)
    (h : ∀ k < 4, (arrOf (tileOf s n) k).queue = []) :
    releaseShadows n m held s = setTile n (releasedTile m (tileOf s n)) s := by
  have hquiet : ∀ k < 4, m.getLsbD k = true → (arrOf (tileOf s n) k).queue = [] := fun k hk _ => h k hk
  rw [releaseShadows]
  rw [countHeld_of_quiet hquiet]
  refine pumpMask_of_quiet fun k hk hbit => ?_
  rw [tileOf_setTile_same]
  change (arrOf (releasedTile m (tileOf s n)) k).queue = []
  rw [arrOf_releasedTile hk, if_pos hbit, queue_setShadow]
  exact h k hk

/-- A release clears the PHY bit of the shadow contexts of the mask and of no other. -/
theorem releaseShadows_shows {n : TileIx} {s : State} (m : BitVec 4) (held : Nat) (h : ∀ k < 4, (arrOf (tileOf s n) k).queue = []) :
    (∀ k < 4, shadowCtx (arrOf (tileOf (releaseShadows n m held s) n) k) =
        if m.getLsbD k then { shadowCtx (arrOf (tileOf s n) k) with phy := false } else shadowCtx (arrOf (tileOf s n) k)) ∧
      (∀ k < 4, activeCtx (arrOf (tileOf (releaseShadows n m held s) n) k) = activeCtx (arrOf (tileOf s n) k)) ∧
      (∀ t, thrOf (tileOf (releaseShadows n m held s) n) t = thrOf (tileOf s n) t) ∧ onlyTile n s (releaseShadows n m held s) := by
  rw [releaseShadows_of_quiet held h, tileOf_setTile_same]
  refine ⟨fun k hk => ?_, fun k hk => ?_, thrOf_releasedTile m _, fun j hj => tileOf_setTile_other _ s hj⟩
  · rw [arrOf_releasedTile hk]
    split
    · exact shadowCtx_setShadow _ _
    · rfl
  · rw [arrOf_releasedTile hk]
    split
    · exact activeCtx_setShadow _ _
    · rfl

theorem suItem_eq_some {n : TileIx} {i : Item} {s : State} (h : suItem s n = some i) : itemOn s n 1 = some i := by
  obtain ⟨j, hj, hgo⟩ := Option.bind_eq_some_iff.1 h
  split at hgo
  · exact absurd hgo nofun
  · rw [hj, hgo]

section
variable {n : TileIx} {w held : Nat} {x : WinRun} {s : State}

theorem exec_windowRelease (hwin : windowAt s n w = some x) (hfrom : (suFrom s).isSome = true) (hitem : (suItem s n).isSome = true)
    (hsag : sagWarn s = false) (hopen : x.released = false) :
    exec (.windowRelease n ⟨w, held⟩) s = .next (setWindow x { x with released := true }
      (releaseShadows n x.win.amask held (runToTime (x.cue + x.win.release * unitsNs) s))) := by
  change execWindowRelease n ⟨w, held⟩ s = _
  simp only [execWindowRelease, hwin, ← Option.not_isSome, hfrom, hitem, hsag, hopen, Bool.not_true, Bool.or_self, Bool.false_eq_true,
    if_false]

/-- A window that opens does so with the arrays whose load is complete, where there are some and it is not over. -/
theorem exec_windowOpen {m : BitVec 4} (hwin : windowAt s n w = some x) (hfrom : (suFrom s).isSome = true)
    (hitem : (suItem s n).isSome = true) (hsag : sagWarn s = false) (hreleased : x.released = true) (hclosed : x.opened = 0)
    (hm : m = x.win.amask &&& x.loaded &&& idleArrays (tileOf s n)) (hne : m ≠ 0)
    (htime : nowUnits (runToTime (x.cue + x.win.opens * unitsNs) s) < x.cue + x.win.close * unitsNs) :
    exec (.windowOpen n ⟨w, held⟩) s = .next (openWindow n x m held (runToTime (x.cue + x.win.opens * unitsNs) s)) := by
  change execWindowOpen n ⟨w, held⟩ s = _
  have htile : tileOf (runToTime (x.cue + x.win.opens * unitsNs) s) n = tileOf s n :=
    tileOf_congr ((runToTime_same _ s).same .tiles (by decide)) n
  have hgo : ¬ (x.cue + x.win.close * unitsNs ≤ nowUnits (runToTime (x.cue + x.win.opens * unitsNs) s) ∨ m = 0) :=
    fun h => h.elim (Nat.not_le.2 htime) hne
  simp only [execWindowOpen, hwin, ← Option.not_isSome, hfrom, hitem, hsag, hreleased, hclosed, ne_eq, not_true_eq_false, decide_false,
    Bool.not_true, Bool.or_self, Bool.false_eq_true, if_false, htile, ← hm, if_neg hgo]

/-- The arrays of `m` swap and the window is open to them. -/
def windowOpened (n : TileIx) (x : WinRun) (m : BitVec 4) (s : State) : State :=
  setWindow x { x with opened := m, held := m } (doCut n m s)

theorem tileOf_windowOpened (n : TileIx) (x : WinRun) (m : BitVec 4) (s : State) (k : Nat) :
    tileOf (windowOpened n x m s) k = if k = n.val then cutTile m (tileOf s n) else tileOf s k := tileOf_setTile n k _ s

/-- With no operation queued the opening is the CUT alone; the item of the tile is no longer parked. -/
theorem openWindow_of_quiet {m : BitVec 4} {i : Item} (h : ∀ k < 4, (arrOf (tileOf s n) k).queue = [])
    (hitem : suItem s n = some i) :
    openWindow n x m held s = if i.parkedAt.isSome then
        useFree (bump 0x3002C ((freshVal (windowOpened n x m s)).toNat % 2 ^ 32)
          (setItem { i with parkedAt := none } (windowOpened n x m s)))
      else windowOpened n x m s := by
  have hquiet : ∀ k < 4, m.getLsbD k = true → (arrOf (tileOf s n) k).queue = [] := fun k hk _ => h k hk
  have hpump : pumpMask n m (doCut n m s) = doCut n m s := by
    refine pumpMask_of_quiet fun k hk hbit => ?_
    rw [(tileMoved_doCut (TileMoved.refl n s) m).1, arrOf_cutTile m _ hk, if_pos hbit]
    exact h k hk
  have hsame : suItem (windowOpened n x m s) n = some i := hitem
  rw [openWindow, countHeld_of_quiet hquiet, hpump]
  split
  · next hnone => exact absurd (hnone.symm.trans hsame) nofun
  · next j hj =>
    obtain rfl := Option.some.inj (hj.symm.trans hsame)
    rfl

/-- What an opening shows: the arrays of the mask have swapped, the window holds them, and the item is not parked. -/
theorem openWindow_shows {m : BitVec 4} {i : Item} (h : ∀ k < 4, (arrOf (tileOf s n) k).queue = []) (hitem : suItem s n = some i) :
    (∀ k, tileOf (openWindow n x m held s) k = if k = n.val then cutTile m (tileOf s n) else tileOf s k) ∧
      (openWindow n x m held s).windows = (s.windows.map fun y => if y = x then { x with opened := m, held := m } else y) ∧
      (openWindow n x m held s).mem = s.mem ∧ ((itemOn (openWindow n x m held s) n 1).all fun i => i.parkedAt.isNone) = true := by
  have hon : itemOn (windowOpened n x m s) n 1 = some i := suItem_eq_some (n := n) (s := s) hitem
  rw [openWindow_of_quiet h hitem]
  split
  · have hgoes : itemOn (setItem { i with parkedAt := none } (windowOpened n x m s)) n 1 = some { i with parkedAt := none } :=
      find?_setItem hon rfl (decide_eq_true (itemOn_on (i := i) hon))
    have hsame : Does [.regs, .free] (setItem { i with parkedAt := none } (windowOpened n x m s)) _ :=
      useFree_does (bump_does (o := 0x3002C) (n := (freshVal (windowOpened n x m s)).toNat % 2 ^ 32) (Does.refl _ _) rfl) rfl
    refine ⟨fun k => (tileOf_congr (hsame.same .tiles (by decide)) k).trans (tileOf_windowOpened n x m s k),
      hsame.same .windows (by decide), hsame.same .mem (by decide), ?_⟩
    rw [itemOn_congr (hsame.same .items (by decide)), hgoes]
    rfl
  · next hfree =>
    refine ⟨tileOf_windowOpened n x m s, rfl, rfl, ?_⟩
    rw [hon, Option.all_some, ← Option.not_isSome, Bool.eq_false_of_not_eq_true hfree, Bool.not_false]
end

/-! #### An item leaves (06 R193, R194; log 56) -/

/-- The thread that stops, its registers standing. -/
abbrev stoppedThread (y : Thread) : Thread := { y with run := .stopped, owner := .none }

theorem tileOf_stopThread (n m : Nat) (t : Thr) (s : State) : tileOf (stopThread n t s) m =
    if m = n then setThr t (stoppedThread (threadOf s n t)) (tileOf s n) else tileOf s m := tileOf_setTile n m _ s

theorem countWindows_regsBut (ws : List WinRun) (s : State) : regsBut [0x30034] s (countWindows ws s) := by
  induction ws generalizing s with
  | nil => exact regsBut.refl _ s
  | cons w ws ih =>
    have hone : regsBut [0x30034] s (if w.opened = 0 then s else bump 0x30034 (windowUs s w) s) := by
      split
      · exact regsBut.refl _ s
      · exact bump_regsBut _ _ s
    exact hone.trans (ih _) (List.Subset.refl _)

theorem dropWindows_regsBut (f : WinRun → Bool) (s : State) : regsBut [0x30034] s (dropWindows f s) := countWindows_regsBut _ _

theorem dropWindows_windows (f : WinRun → Bool) (s : State) : (dropWindows f s).windows = s.windows.filter fun w => !f w :=
  (countWindows_does (fs₀ := [.regs]) (Does.refl _ _) rfl).same .windows (by decide)

theorem dropWindows_same (f : WinRun → Bool) (s : State) : Does [.regs, .windows] s (dropWindows f s) :=
  dropWindows_does (Does.refl _ s) rfl

theorem dropWindows_tiles (f : WinRun → Bool) (s : State) : (dropWindows f s).tiles = s.tiles :=
  (dropWindows_same f s).same .tiles (by decide)

theorem dropWindows_items (f : WinRun → Bool) (s : State) : (dropWindows f s).items = s.items :=
  (dropWindows_same f s).same .items (by decide)

/-- Windows that are open to an item of a tile, once they are over. -/
theorem all_windows_of_dropped (n : Nat) (s : State) :
    ((dropWindows (fun w => decide (w.tile = n) && decide (w.opened ≠ 0)) s).windows.all fun w =>
      decide (w.tile ≠ n) || decide (w.opened = 0)) = true := by
  rw [dropWindows_windows, List.all_eq_true]
  intro w hw
  simpa [imp_iff_not_or] using (List.mem_filter.1 hw).2

section
variable {n : TileIx} {t : Thr} {i : Item} {s : State}

/-- The state without the windows that are open to C1, where the item runs there. -/
def windowsOver (n : TileIx) (t : Thr) (s : State) : State :=
  if t = 1 then dropWindows (fun w => decide (w.tile = n.val) && decide (w.opened ≠ 0)) s else s

theorem windowsOver_same (n : TileIx) (t : Thr) (s : State) : Does [.regs, .windows] s (windowsOver n t s) := by
  unfold windowsOver
  split
  · exact dropWindows_same _ s
  · exact Does.refl _ s

theorem windowsOver_regsBut (n : TileIx) (t : Thr) (s : State) : regsBut [0x30034] s (windowsOver n t s) := by
  unfold windowsOver
  split
  · exact dropWindows_regsBut _ s
  · exact regsBut.refl _ s

theorem haltItem_of_on (h : i.on = some (n, t)) :
    haltItem i s = { stopThread n t (windowsOver n t s) with free := s.free + 1 + i.total } := by
  simp only [haltItem, stopItem, h]
  rfl

theorem tileOf_haltItem (h : i.on = some (n, t)) (m : Nat) : tileOf (haltItem i s) m =
    if m = n.val then setThr t (stoppedThread (threadOf s n t)) (tileOf s n) else tileOf s m := by
  have htiles : (windowsOver n t s).tiles = s.tiles := (windowsOver_same n t s).same .tiles (by decide)
  rw [haltItem_of_on h]
  exact (tileOf_stopThread n m t _).trans (by rw [threadOf_congr htiles, tileOf_congr htiles, tileOf_congr htiles])

theorem haltItem_regsBut (h : i.on = some (n, t)) : regsBut [0x30034] s (haltItem i s) := by
  rw [haltItem_of_on h]
  exact (windowsOver_regsBut n t s).trans (regsBut.of_regs_eq rfl []) (by decide)

/-- The item as it waits again: off its thread, with what its thread had written. -/
def itemBack (i : Item) (status : Nat) (s : State) : Item :=
  { haltedItem s i with sagTold := i.sagTold || decide (status = 0x50) }

/-- The item at the head of the queue. -/
def itemFirst (i : Item) (status : Nat) (s : State) : State :=
  { haltItem i s with items := itemBack i status s :: (haltItem i s).items.filter fun x => decide (x.num ≠ i.num) }

/-- The item is back, counted, with its event. -/
def requeued (i : Item) (status cycles : Nat) (s : State) : State :=
  raise directorEvent 3 (bump 0x3002C cycles (bump 0x30028 1 (peakDepth i.cls (itemFirst i status s))))

/-- Beside the return itself an interim record at most is written. -/
theorem requeueBy_eq {k status cycles : Nat} (h : itemOf s k = some i) :
    requeueBy k status cycles s = requeued i status cycles s ∨
      ∃ r st, requeueBy k status cycles s = interim r st 0 (requeued i status cycles s) := by
  obtain rfl := itemOf_num h
  rw [requeueBy, h]
  dsimp only
  cases i.src with
  | flow rc cause => exact .inl rfl
  | desc r =>
    dsimp only
    split
    · exact .inl rfl
    · exact .inr ⟨_, _, rfl⟩
  | file id =>
    dsimp only
    split
    · split
      · exact .inl rfl
      · exact .inr ⟨_, _, rfl⟩
    · exact .inl rfl

theorem rd_interim (r : DRef) (status progress : Nat) (s : State) {o : Nat} (hlow : 0x15000 ≤ o) (hhigh : o < 0x30440) :
    rd (interim r status progress s) o = rd s o := by
  have hp : r.pair.val < 256 := r.pair.isLt
  have hcount (c : Rec) (u : State) : rd (countRec c u) o = rd u o := by
    have hdisp : rd (if c.cls < 6 ∧ c.disp < 11 then bump (0x30500 + 0x40 * c.cls + 4 * c.disp) 1 u else u) o = rd u o := by
      split
      · exact bump_regsBut _ 1 u o (by simp only [List.mem_singleton]; omega)
      · rfl
    unfold countRec
    dsimp only
    split
    · rw [bump_regsBut _ 1 _ o (by simp only [List.mem_singleton]; omega), hdisp]
    · exact hdisp
  unfold interim
  split
  · rfl
  · dsimp only
    split
    · rw [putBatch_regsBut _ _ _ o (by simp only [pairReg, List.mem_cons, List.not_mem_nil, or_false]; omega), hcount]
    · rw [bump_regsBut _ 1 _ o (by simp only [pairReg, List.mem_singleton]; omega), hcount]

theorem peakDepth_regsBut (c : Nat) (s : State) : regsBut [0x30440 + 4 * c] s (peakDepth c s) := by
  unfold peakDepth peak
  split
  · exact wr_regsBut _ _ s
  · exact regsBut.refl _ s

theorem requeued_same (i : Item) (status cycles : Nat) (s : State) :
    Does [.regs, .funcs, .out] (itemFirst i status s) (requeued i status cycles s) :=
  raise_does (bump_does (bump_does (peakDepth_does (Does.refl _ _) rfl) rfl) rfl) rfl

theorem rd_requeued_cost (h : i.on = some (n, t)) (status cycles : Nat) :
    (rd (requeued i status cycles s) 0x3002C).toNat = min (2 ^ 32 - 1) ((rd s 0x3002C).toNat + cycles) := by
  have hdepth : regsBut [0x30440 + 4 * i.cls] (itemFirst i status s) (peakDepth i.cls (itemFirst i status s)) :=
    peakDepth_regsBut _ _
  have hfirst : rd (itemFirst i status s) 0x3002C = rd s 0x3002C :=
    ((haltItem_regsBut h).trans (regsBut.of_regs_eq rfl []) (List.nil_subset _)) _ (by decide)
  rw [requeued, raise_regsBut _ _ _ _ (by decide), rd_bump_toNat, bump_regsBut _ _ _ _ (by decide),
    hdepth _ (by simp only [List.mem_singleton]; omega), hfirst]

/-- What the return of an item shows: it heads the queue without a tile, its thread has stopped, and the eviction is counted. -/
structure Returned (i : Item) (n : TileIx) (t : Thr) (cycles : Nat) (s u : State) : Prop where
  head : ∃ j, u.items.head? = some j ∧ j.num = i.num ∧ j.src = i.src ∧ j.cls = i.cls ∧ j.on = none ∧ j.parkedAt = none ∧
    j.leaving = none ∧ i.done ≤ j.done ∧ j.total = i.total
  tiles : ∀ m, tileOf u m = if m = n.val then setThr t (stoppedThread (threadOf s n t)) (tileOf s n) else tileOf s m
  event : rdb u directorEvent 3 = true
  cost : (rd u 0x3002C).toNat = min (2 ^ 32 - 1) ((rd s 0x3002C).toNat + cycles)
  mem : u.mem = s.mem
  clk : u.clk = s.clk

theorem returned_requeueBy {k status cycles : Nat} (h : itemOf s k = some i) (hon : i.on = some (n, t)) :
    Returned i n t cycles s (requeueBy k status cycles s) := by
  have hback := requeueBy_eq (status := status) (cycles := cycles) h
  have hkept : Does [.regs, .pairs, .funcs, .out] (requeued i status cycles s) (requeueBy k status cycles s) := by
    rcases hback with hsame | ⟨r, st, hinterim⟩
    · rw [hsame]
      exact Does.refl _ _
    · rw [hinterim]
      exact interim_does (Does.refl _ _) rfl
  have hrd : ∀ o, 0x15000 ≤ o → o < 0x30440 → rd (requeueBy k status cycles s) o = rd (requeued i status cycles s) o := by
    intro o hlow hhigh
    rcases hback with hsame | ⟨r, st, hinterim⟩
    · rw [hsame]
    · rw [hinterim, rd_interim _ _ _ _ hlow hhigh]
  have hfirst : Does [.regs, .pairs, .funcs, .out] (itemFirst i status s) (requeueBy k status cycles s) :=
    (requeued_same i status cycles s).mono (by decide) |>.trans hkept (by decide)
  have hall : Does [.regs, .pairs, .funcs, .tiles, .items, .windows, .free, .out] s (requeueBy k status cycles s) :=
    requeueBy_does (Does.refl _ s) rfl
  refine ⟨⟨itemBack i status s, ?head, ?_⟩, ?tiles, ?event, ?cost, hall.same .mem (by decide), hall.same .clk (by decide)⟩
  case head =>
    rw [hfirst.same .items (by decide)]
    rfl
  case tiles =>
    intro m
    rw [tileOf_congr (hfirst.same .tiles (by decide))]
    exact tileOf_haltItem hon m
  case event =>
    rw [rdb, hrd _ (by decide) (by decide)]
    exact rdb_raise directorEvent 3 _ (by decide)
  case cost =>
    rw [hrd _ (by decide) (by decide)]
    exact rd_requeued_cost hon status cycles
  · have hsome : i.on.isNone = false := by rw [hon]; rfl
    simp only [itemBack, haltedItem, hsome, Bool.false_eq_true, if_false]
    exact ⟨trivial, trivial, trivial, trivial, trivial, trivial, Nat.le_add_right _ _, trivial⟩

theorem leaveItem_of_item {k status cycles : Nat} (h : itemOf s k = some i) (hstatus : status ≠ 0x50) :
    leaveItem k status cycles s = requeueBy k status cycles s := by
  rw [leaveItem, h]
  exact if_neg (by rw [decide_eq_false hstatus]; exact Bool.false_ne_true)

theorem syncDone_congr {u : State} (htiles : u.tiles = s.tiles) (hmem : u.mem = s.mem) (n : TileIx) (t : Thr) (units : Byte) :
    syncDone u n t units = syncDone s n t units := by
  rw [syncDone, tileOf_congr htiles, hmem, syncDone]

/-- An item whose operations are complete is returned at once. -/
theorem returnItem_of_quiet {k cycles : Nat} (h : itemOf s k = some i) (hon : i.on = some (n, t)) (hdone : syncDone s n t 0xFF = true) :
    returnItem k 0 cycles s = requeueBy k 0 cycles s := by
  have hquiet : itemQuiet s i = true := by
    rw [itemQuiet, hon]
    exact hdone
  rw [returnItem, h]
  exact (if_pos hquiet).trans (leaveItem_of_item h (by decide))

/-- Another one is stopped and leaves later. -/
theorem returnItem_of_busy {k status cycles : Nat} (h : itemOf s k = some i) (hon : i.on = some (n, t))
    (hdone : syncDone s n t 0xFF = false) (hstays : i.leaving = none) :
    returnItem k status cycles s = beginLeave i status cycles s := by
  have hbusy : itemQuiet s i = false := by
    rw [itemQuiet, hon]
    exact hdone
  rw [returnItem, h]
  simp only [hbusy, hstays, Option.isSome_none, Bool.false_eq_true, if_false]

/-- The thread that the director stops. -/
abbrev haltingThread (i : Item) (y : Thread) : Thread := { y with run := .halting, owner := .item i.num }

theorem beginLeave_of_on (status cycles : Nat) (h : i.on = some (n, t)) :
    beginLeave i status cycles s = setItem { i with leaving := some (status, cycles) }
      (setThread n t (haltingThread i (threadOf s n t))
        (dropWindows (fun w => decide (w.tile = n.val) && decide (w.opened ≠ 0)) s)) := by
  rw [beginLeave, h]
  dsimp only
  rw [threadOf_congr (dropWindows_tiles _ s)]

theorem tileOf_beginLeave (status cycles : Nat) (h : i.on = some (n, t)) (m : Nat) : tileOf (beginLeave i status cycles s) m =
    if m = n.val then setThr t (haltingThread i (threadOf s n t)) (tileOf s n) else tileOf s m := by
  rw [beginLeave_of_on status cycles h]
  exact (tileOf_setTile n m _ _).trans (by rw [tileOf_congr (dropWindows_tiles _ s), tileOf_congr (dropWindows_tiles _ s)])

/-- What the beginning of a return shows. -/
theorem beginLeave_shows (status cycles : Nat) (hitem : itemOf s i.num = some i) (hon : i.on = some (n, t)) :
    itemOf (beginLeave i status cycles s) i.num = some { i with leaving := some (status, cycles) } ∧
      ((beginLeave i status cycles s).windows.all fun w => decide (w.tile ≠ n.val) || decide (w.opened = 0)) = true := by
  rw [beginLeave_of_on status cycles hon]
  refine ⟨itemOf_setItem (j := { i with leaving := some (status, cycles) }) ⟨i, ?_, rfl⟩, all_windows_of_dropped n s⟩
  change i ∈ (dropWindows _ s).items
  rw [dropWindows_items]
  exact List.mem_of_find?_eq_some hitem

theorem exec_parkLimitExpiry {cycles at_ : Nat} (hon : itemOn s n 1 = some i) (hparked : i.parkedAt = some at_) :
    exec (.parkLimitExpiry n cycles) s =
      .next (returnItem i.num 0 cycles (runToClk (at_ + rdf s 0x30010 15 8 * ticksUs) s)) := by
  change execParkLimitExpiry n cycles s = _
  rw [execParkLimitExpiry, hon]
  simp only [hparked]

theorem exec_threadHalted_of_item {res : ChainResult} {k : Nat} (hrun : (threadOf s n t).run = .halting)
    (hdone : syncDone s n t 0xFF = true) (howner : (threadOf s n t).owner = .item k) :
    exec (.threadHalted n t res) s = .next (itemHalted k (setThread n t { threadOf s n t with run := .stopped } s)) := by
  change execThreadHalted n t res s = _
  simp only [execThreadHalted, hrun, hdone, and_self, if_true, howner]

theorem itemHalted_of_leaving {k status cycles : Nat} (h : itemOf s k = some i) (hleaves : i.leaving = some (status, cycles)) :
    itemHalted k s = leaveItem k status cycles s := by
  rw [itemHalted, h, Option.bind_some, hleaves]

/-! #### An item is complete (10 R308) -/

theorem exec_itemComplete_of_desc {ws : List Word} {r : DRef} (hon : itemOn s n t = some i) (hrun : (threadOf s n t).run = .stopped)
    (hsrc : i.src = .desc r) (hdone : i.done + ws.length = i.total) :
    exec (.itemComplete n t ws) s = .next (finishOut r (okStatus false false (dropItem i.num (stopItem i s))) 0 0 i.total 0
      (wordBytes (i.out ++ ws)) (dropItem i.num (stopItem i s))) := by
  change execItemComplete n t ws s = _
  simp only [execItemComplete, hon, hrun, if_true, itemDone, hsrc, hdone]

theorem flightOf_finishOut (r : DRef) (status disp : Nat) (result : Dword) (progress : Nat) (ref : Word) (bytes : List Byte) (s : State) :
    flightOf (finishOut r status disp result progress ref bytes s) r = none := by
  unfold finishOut
  split
  · assumption
  · split
    · exact flightOf_finish ..
    · split <;> exact flightOf_finish ..

theorem itemOf_dropItem (k : Nat) (s : State) : itemOf (dropItem k s) k = none := by
  rw [itemOf, dropItem, (reapModels_does (Does.refl [.reels, .loaded] _) rfl).same .items (by decide)]
  simp
end

/-! #### Roles move to another tile (06 R196; 14 R403) -/

theorem retile_loaded (l : Loaded) (tiles : List Nat) (s : State) :
    (retile l tiles s).loaded = s.loaded.map fun x => if x.num = l.num then { x with tiles } else x :=
  (retileReels_does (Does.refl [.reels] _) rfl).same .loaded (by decide)

theorem retile_map_loaded (l : Loaded) (tiles : List Nat) (s : State) :
    ((retile l tiles s).loaded.map fun x => (x.num, x.tiles)) =
      s.loaded.map fun x => (x.num, if x.num = l.num then tiles else x.tiles) := by
  rw [retile_loaded, List.map_map]
  refine List.map_congr_left fun x _ => ?_
  by_cases h : x.num = l.num <;> simp [h]

/-- A load is a call sheet with a role on tile `old`. -/
abbrev servesOn (old : Nat) (l : Loaded) : Prop := l.img.kind = 1 ∧ l.tiles.contains old = true

/-- Its roles with tile `n` in the place of `old`. -/
abbrev movedTiles (old n : Nat) (l : Loaded) : List Nat := l.tiles.map fun m => if m = old then n else m

/-- A load once the sheets of a list have moved. -/
def movedBy (old n : Nat) (ls : List Loaded) (x : Loaded) : Loaded :=
  ls.foldl (fun y l => if servesOn old l ∧ y.num = l.num then { y with tiles := movedTiles old n l } else y) x

theorem movedBy_cons (old n : Nat) (l : Loaded) (ls : List Loaded) (x : Loaded) : movedBy old n (l :: ls) x =
    movedBy old n ls (if servesOn old l ∧ x.num = l.num then { x with tiles := movedTiles old n l } else x) := rfl

theorem retileSheets_loaded (old n : Nat) (ls : List Loaded) (s : State) :
    (retileSheets old n ls s).loaded = s.loaded.map (movedBy old n ls) := by
  induction ls generalizing s with
  | nil => exact (List.map_id _).symm
  | cons l ls ih =>
    rw [retileSheets, ih]
    by_cases h : servesOn old l
    · rw [if_pos h, retile_loaded, List.map_map]
      refine List.map_congr_left fun x _ => ?_
      exact congrArg (movedBy old n ls) (if_congr (and_iff_right h).symm rfl rfl)
    · rw [if_neg h]
      refine List.map_congr_left fun x _ => ?_
      rw [movedBy_cons, if_neg fun hx => h hx.1]

/-- A load that no sheet of the list has the number of stays. -/
theorem movedBy_of_not_mem {old n : Nat} {ls : List Loaded} {x : Loaded} (h : x.num ∉ ls.map (·.num)) : movedBy old n ls x = x := by
  induction ls with
  | nil => rfl
  | cons l ls ih =>
    rw [List.map_cons, List.mem_cons, not_or] at h
    rw [movedBy_cons, if_neg fun hx => h.1 hx.2, ih h.2]

/-- Where the loads have numbers of their own, each moves once. -/
theorem movedBy_of_mem {old n : Nat} {ls : List Loaded} {x : Loaded} (hnums : (ls.map (·.num)).Nodup) (hx : x ∈ ls) :
    movedBy old n ls x = if servesOn old x then { x with tiles := movedTiles old n x } else x := by
  induction ls with
  | nil => exact absurd hx List.not_mem_nil
  | cons l ls ih =>
    rw [List.map_cons, List.nodup_cons] at hnums
    obtain ⟨hnew, hrest⟩ := hnums
    rw [movedBy_cons]
    rcases List.mem_cons.1 hx with rfl | hin
    · have hstays : ∀ y : Loaded, y.num = x.num → movedBy old n ls y = y := fun y hy => movedBy_of_not_mem (hy ▸ hnew)
      simp only [and_true]
      split
      · exact hstays _ rfl
      · exact hstays _ rfl
    · have hne : x.num ≠ l.num := fun h => hnew (h ▸ List.mem_map_of_mem hin)
      rw [if_neg fun h => hne h.2, ih hrest hin]

theorem retileSheets_map_loaded (old n : Nat) {ls : List Loaded} {s : State} (h : s.loaded = ls) (hnums : (ls.map (·.num)).Nodup) :
    ((retileSheets old n ls s).loaded.map fun x => (x.num, x.tiles)) =
      ls.map fun x => (x.num, if servesOn old x then movedTiles old n x else x.tiles) := by
  rw [retileSheets_loaded, h, List.map_map]
  refine List.map_congr_left fun x hx => ?_
  rw [Function.comp_apply, movedBy_of_mem hnums hx]
  split <;> rfl

theorem nodup_of_loadsOk {s : State} (h : s.loadsOk = true) : (s.loaded.map (·.num)).Nodup :=
  of_decide_eq_true (Bool.and_eq_true_iff.1 h).1

/-- The state in which the sheets have moved to the standby tile. -/
def sheetsMoved (old n : Nat) (s : State) : State :=
  retileSheets old n s.loaded
    { s with fault := { s.fault with fencedAt := tabPut s.fault.fencedAt (64 + n) ((tabFind s.fault.fencedAt old).getD 0) } }

theorem sheetsMoved_tiles (old n : Nat) (s : State) : (sheetsMoved old n s).tiles = s.tiles :=
  (retileSheets_does (Does.refl [.reels, .loaded] _) rfl).same .tiles (by decide)

/-- What a takeover shows. -/
theorem standIn_shows (l : Loaded) (role old : Nat) (n : TileIx) {s : State} (hloads : s.loadsOk = true) :
    ((standIn l role old n s).loaded.map fun x => (x.num, x.tiles)) =
        (s.loaded.map fun x => (x.num, if servesOn old x then movedTiles old n x else x.tiles)) ∧
      rdb (standIn l role old n s) directorEvent 2 = true ∧ onlyTile n s (standIn l role old n s) := by
  have hmoved : Does [.regs, .funcs, .tiles, .chains, .out] (sheetsMoved old n s) (standIn l role old n s) :=
    raise_does (loadCode_does (retileChains_does (Does.refl _ _) rfl) rfl) rfl
  have hcode : (standIn l role old n s).tiles =
      (loadCode l role n (retileChains old n ((tabFind s.fault.fencedAt old).getD 0) (sheetsMoved old n s))).tiles := raise_tiles ..
  refine ⟨?_, rdb_raise directorEvent 2 _ (by decide), fun m hm => ?_⟩
  · rw [hmoved.same .loaded (by decide)]
    exact retileSheets_map_loaded old n rfl (nodup_of_loadsOk hloads)
  · rw [tileOf_congr hcode, tileOf_loadCode, if_neg hm]
    exact tileOf_congr (sheetsMoved_tiles old n s) m

section
variable {role : Nat} {l : Loaded} {s : State}

theorem exec_takeover {n : TileIx} (hsheet : fencedSheet s role = some l) (hstandby : (standbys s l.part).contains n.val = true)
    (hfree : (s.loaded.any fun x => decide (x.img.kind = 1) && x.tiles.contains n.val) = false) (hitem : itemOn s n 1 = none) :
    exec (.takeover n role) s = .next (standIn l role (l.tiles.getD role 0) n s) := by
  change execTakeover n role s = _
  simp only [execTakeover, hsheet, hstandby, hfree, hitem, Bool.not_false, Bool.and_self, if_true, Option.isSome_none,
    Bool.false_eq_true, if_false]

/-- The model whose role lies on a fenced tile, as ROLE_REBIND looks for it. -/
abbrev lostRole (model : BitVec 16) (role : Nat) (s : State) (l : Loaded) : Bool :=
  decide (l.img.kind = 2) && decide (l.id = model) && decide (l.state ≠ .lost) && (l.tiles[role]?).any (fenced s)

theorem exec_roleRebind {model : BitVec 16} {n : Nat} (hmodel : s.loaded.find? (lostRole model role s) = some l)
    (htile : rebindTile s l = some n) :
    exec (.roleRebind model role) s = .next (loadCode l role n (retile l (l.tiles.set role n) s)) := by
  change execRoleRebind model role s = _
  have htest : (fun l : Loaded => decide (l.img.kind = 2) && decide (l.id = model) && decide (l.state ≠ .lost) &&
      (match l.tiles[role]? with
        | some m => fenced s m
        | none => false)) = lostRole model role s := by
    funext l
    unfold lostRole
    cases l.tiles[role]? <;> rfl
  have hfind := (congrArg s.loaded.find? htest).trans hmodel
  rw [execRoleRebind]
  split
  · next hnone => exact absurd (hnone.symm.trans hfind) nofun
  · next k hsome =>
    obtain rfl := Option.some.inj (hsome.symm.trans hfind)
    simp only [htile]

/-- The tile that a role is rebound to is in service, and the model has no role there. -/
theorem rebindTile_shows {n : Nat} (h : rebindTile s l = some n) : fenced s n = false ∧ l.tiles.contains n = false := by
  have hmember := (List.mem_filter.1 (List.mem_of_find?_eq_some h)).2
  have hfree := List.find?_some (p := fun n => !l.tiles.contains n && decide (lsUsed s n + l.img.lsBytes ≤ lsSize)) h
  exact ⟨by simpa using (Bool.and_eq_true_iff.1 hmember).2, by simpa using (Bool.and_eq_true_iff.1 hfree).1⟩
end

/-! #### The statement -/

theorem pickClass_asks_and_is_first (r : Round) (req : Nat → Bool) (c : Nat) (s : State) (h : pickClass s r req = some c) :
    req c = true ∧ 1 ≤ c ∧ c ≤ 5 ∧ (sagWarn s = true → c ≠ 4) ∧
      ([1, 2, 3, 4, 5].all fun k => !(req k && !(decide (k = 4) && sagWarn s)) || decide (creditLeft s r k = 0) ||
        (decide (0 < creditLeft s r c) && decide (c ≤ k))) = true := by
  obtain ⟨hasks, hmem, hfirst⟩ := pickClass_shows h
  obtain ⟨hreq, hsag⟩ := (classAsks_eq_true_iff s req c).1 hasks
  have hrange : 1 ≤ c ∧ c ≤ 5 := by
    simp only [List.mem_cons, List.not_mem_nil, or_false] at hmem
    omega
  refine ⟨hreq, hrange.1, hrange.2, hsag, List.all_eq_true.2 fun k hk => ?_⟩
  have hk' := hfirst k hk
  change (!classAsks s req k || decide (creditLeft s r k = 0) || (decide (0 < creditLeft s r c) && decide (c ≤ k))) = true
  rcases Bool.eq_false_or_eq_true (classAsks s req k) with hask | hask
  · rcases Nat.eq_zero_or_pos (creditLeft s r k) with hzero | hpos
    · simp [hzero]
    · obtain ⟨hcredit, hle⟩ := hk' hask hpos
      simp [hcredit, hle]
  · simp [hask]

/-- Settles O47, a clause for each row and what it finds. -/
theorem windowsAndSecondUnit : Obligations.WindowsAndSecondUnit := by
  unfold Obligations.WindowsAndSecondUnit
  refine ⟨pickClass_asks_and_is_first, ?dispatch, ?place, ?sag, ?release, ?opens, ?parked, ?leaves, ?halted, ?complete, ?takeover, ?rebind⟩
  case dispatch =>
    intro p n c i l s hpart hmember hstopped hfree hpick hnext hload
    have hrun := exec_itemDispatch hpart hmember hstopped hfree hpick hnext hload
    have hcode : Does [.tiles, .rounds] s (loadCode l (roleOn l n) n (grantTo p c s)) :=
      loadCode_does (grantTo_does (Does.refl _ s) rfl) rfl
    exact ⟨_, hrun, placeItem_shows (mem_items_of_nextItem hnext) hcode
      (fun m hm => by rw [tileOf_loadCode, if_neg hm, tileOf_grantTo]) 0 _ 0⟩
  case place =>
    intro n q c i s hfrom hfree hsag hpick hnext
    have hrun := exec_suPlace hfrom hfree hsag hpick hnext
    have hcode : Does [.tiles, .rounds] s (loadSu ((itemSu s i).getD []) n (grantTo 8 c s)) :=
      loadSu_does (grantTo_does (Does.refl _ s) rfl) rfl
    have hthread : threadOf (loadSu ((itemSu s i).getD []) n (grantTo 8 c s)) n 0 = threadOf s n 0 := by
      rw [threadOf, tileOf_loadSu, if_pos rfl, tileOf_grantTo]
      rfl
    obtain ⟨hitem, hc1, hothers, hmem, -⟩ := placeItem_shows (mem_items_of_nextItem hnext) hcode
      (fun m hm => by rw [tileOf_loadSu, if_neg hm, tileOf_grantTo]) 1 0 (suEntry ((itemSu s i).getD []))
    generalize loadSu ((itemSu s i).getD []) n (grantTo 8 c s) = u at hcode hrun hthread hitem hc1 hothers hmem
    have hcount : Does [.regs] (placeItem i n 1 0 (suEntry ((itemSu s i).getD [])) u) _ :=
      bump_does (o := 0x30024) (n := 1) (Does.refl _ _) rfl
    have htiles := hcount.same .tiles (by decide)
    refine ⟨_, hrun, (itemOf_congr (hcount.same .items (by decide)) _).trans hitem, (threadOf_congr htiles _ _).trans hc1, ?_, ?_,
      fun m hm => (tileOf_congr htiles m).trans (hothers m hm), (hcount.same .mem (by decide)).trans hmem⟩
    · rw [threadOf_congr htiles, threadOf, tileOf_placeItem, if_pos rfl, ← hthread]
      rfl
    · rw [rd_bump_toNat, rd_placeItem _ _ _ _ _ _ (by decide), rd_congr (hcode.same .regs (by decide))]
  case sag =>
    exact fun n s hsag => ⟨exec_suPlace_of_sag hsag, fun w _ => ⟨exec_windowRelease_of_sag hsag, exec_windowOpen_of_sag hsag⟩⟩
  case release =>
    intro n w held x s hwin hfrom hitem hsag hopen hquiet
    have hclock := runToTime_same (x.cue + x.win.release * unitsNs) s
    have hrun := exec_windowRelease (held := held) hwin hfrom hitem hsag hopen
    generalize runToTime (x.cue + x.win.release * unitsNs) s = u at hclock hrun
    have htiles := hclock.same .tiles (by decide)
    have hquiet' : ∀ k < 4, (arrOf (tileOf u n) k).queue = [] := fun k hk => tileOf_congr htiles n ▸ hquiet k (List.mem_range.2 hk)
    obtain ⟨hshadow, hactive, hthread, hothers⟩ := releaseShadows_shows x.win.amask held hquiet'
    have hsame := setTile_does (n := n) (x := releasedTile x.win.amask (tileOf u n)) (hclock.mono (l := [.clk, .time, .tiles]) (by decide)) rfl
    rw [← releaseShadows_of_quiet held hquiet'] at hsame
    rw [tileOf_congr htiles] at hshadow hactive hthread
    exact ⟨_, hrun, fun k hk => hshadow k (List.mem_range.1 hk), fun k hk => hactive k (List.mem_range.1 hk),
      congrArg (List.map _) (hsame.same .windows (by decide)), hthread 0, hthread 1,
      fun m hm => (hothers m hm).trans (tileOf_congr htiles m), hsame.same .regs (by decide), hsame.same .mem (by decide)⟩
  case opens =>
    intro n w held x m s hwin hfrom hitem hsag hreleased hclosed hquiet hm hne htime
    have hclock := runToTime_same (x.cue + x.win.opens * unitsNs) s
    have hrun := exec_windowOpen (held := held) hwin hfrom hitem hsag hreleased hclosed hm hne htime
    generalize runToTime (x.cue + x.win.opens * unitsNs) s = u at hclock hrun
    have htiles := hclock.same .tiles (by decide)
    have hquiet' : ∀ k < 4, (arrOf (tileOf u n) k).queue = [] := fun k hk => tileOf_congr htiles n ▸ hquiet k (List.mem_range.2 hk)
    obtain ⟨i, hi⟩ := Option.isSome_iff_exists.1 hitem
    have hthere : suItem u n = some i := by
      rw [suItem, itemOn_congr (hclock.same .items (by decide))]
      exact hi
    obtain ⟨htile, hwindows, hmem, hparked⟩ := openWindow_shows (held := held) (x := x) (m := m) hquiet' hthere
    refine ⟨_, hrun, ?_, hwindows.trans (congrArg (List.map _) (hclock.same .windows (by decide))), fun k hk => ?_,
      hmem.trans (hclock.same .mem (by decide)), hparked⟩
    · rw [htile, if_pos rfl, tileOf_congr htiles]
    · rw [htile, if_neg hk, tileOf_congr htiles]
  case parked =>
    intro n cycles i at_ s hon hitem hparked hdone
    have hclock := runToClk_same (at_ + rdf s 0x30010 15 8 * ticksUs) s
    have hrun := exec_parkLimitExpiry (cycles := cycles) hon hparked
    have hlimit : at_ + rdf s 0x30010 15 8 * ticksUs ≤ (runToClk (at_ + rdf s 0x30010 15 8 * ticksUs) s).clk := by
      rw [runToClk_clk]
      exact Nat.le_max_right _ _
    generalize runToClk (at_ + rdf s 0x30010 15 8 * ticksUs) s = u at hclock hrun hlimit
    have htiles := hclock.same .tiles (by decide)
    have hthere := (itemOf_congr (hclock.same .items (by decide)) i.num).trans hitem
    rw [returnItem_of_quiet hthere (itemOn_on hon) ((syncDone_congr htiles (hclock.same .mem (by decide)) n 1 0xFF).trans hdone)] at hrun
    obtain ⟨⟨j, hhead, hnum, hsrc, hcls, hjon, hjparked, -, hle, htotal⟩, htile, hevent, -, hmem, hclk⟩ :=
      returned_requeueBy (status := 0) (cycles := cycles) hthere (itemOn_on hon)
    refine ⟨_, hrun, ?_, ?_, ?_, hevent, hlimit.trans_eq hclk.symm, hmem.trans (hclock.same .mem (by decide)), fun m hm => ?_⟩
    · rw [hhead, Option.map_some, hnum, hsrc, hcls, hjon, hjparked]
    · rw [hhead, Option.all_some, htotal, decide_eq_true hle, decide_eq_true rfl, Bool.and_self]
    · rw [threadOf, htile, if_pos rfl, thrOf_setThr_same]
    · rw [htile, if_neg hm, tileOf_congr htiles]
  case leaves =>
    intro n cycles i at_ s hon hitem hparked hbusy hstays
    have hclock := runToClk_same (at_ + rdf s 0x30010 15 8 * ticksUs) s
    have hrun := exec_parkLimitExpiry (cycles := cycles) hon hparked
    generalize runToClk (at_ + rdf s 0x30010 15 8 * ticksUs) s = u at hclock hrun
    have htiles := hclock.same .tiles (by decide)
    have hmem := hclock.same .mem (by decide)
    have hthere := (itemOf_congr (hclock.same .items (by decide)) i.num).trans hitem
    rw [returnItem_of_busy hthere (itemOn_on hon) ((syncDone_congr htiles hmem n 1 0xFF).trans hbusy) hstays] at hrun
    have htile := tileOf_beginLeave (s := u) 0 cycles (itemOn_on hon)
    obtain ⟨hleaving, hwindows⟩ := beginLeave_shows 0 cycles hthere (itemOn_on hon)
    have hsame := beginLeave_does (i := i) (status := 0) (cycles := cycles) (fs₀ := [.regs, .tiles, .items, .windows]) (Does.refl _ u) rfl
    refine ⟨_, hrun, hleaving, ?_, ?_, hwindows, (hsame.same .mem (by decide)).trans hmem, fun m hm => ?_⟩
    · rw [threadOf, htile, if_pos rfl, thrOf_setThr_same]
    · rw [threadOf, htile, if_pos rfl, thrOf_setThr_same]
    · rw [htile, if_neg hm, tileOf_congr htiles]
  case halted =>
    intro n t res k cycles i s hhalting hdone howner hitem hnum hon hleaves
    have hrun := exec_threadHalted_of_item (res := res) hhalting hdone howner
    have hthere : itemOf (setThread n t { threadOf s n t with run := .stopped } s) k = some i := hitem
    rw [itemHalted_of_leaving hthere hleaves, leaveItem_of_item hthere (by decide)] at hrun
    obtain ⟨⟨j, hhead, hjnum, hsrc, hcls, hjon, -, hjleaving, -, -⟩, htile, hevent, hcost, hmem, -⟩ :=
      returned_requeueBy (status := 0) (cycles := cycles) hthere hon
    refine ⟨_, hrun, ?_, hevent, hcost, ?_, hmem⟩
    · rw [hhead, Option.map_some, hjnum, hsrc, hcls, hjon, hjleaving]
    · rw [threadOf, htile, if_pos rfl, thrOf_setThr_same]
  case complete =>
    intro n t ws i r s hon hstopped hsrc hdone
    have hfinal := finishOut_does (r := r) (status := okStatus false false (dropItem i.num (stopItem i s))) (disp := 0) (result := 0)
      (progress := i.total) (ref := 0) (bytes := wordBytes (i.out ++ ws)) (fs₀ := [.regs, .pairs, .funcs, .flights, .mem, .fault, .out])
      (Does.refl _ (dropItem i.num (stopItem i s))) rfl
    have hdrop := dropItem_does (k := i.num) (fs₀ := [.reels, .loaded, .items]) (Does.refl _ (stopItem i s)) rfl
    have hstop : stopItem i s = stopThread n t s := by simp only [stopItem, itemOn_on hon]
    refine ⟨_, exec_itemComplete_of_desc hon hstopped hsrc hdone, ?_, flightOf_finishOut .., ?_⟩
    · rw [itemOf_congr (hfinal.same .items (by decide))]
      exact itemOf_dropItem _ _
    · rw [threadOf_congr ((hfinal.same .tiles (by decide)).trans (hdrop.same .tiles (by decide))), hstop, threadOf, tileOf_stopThread,
        if_pos rfl, thrOf_setThr_same]
  case takeover =>
    intro n role l s hsheet hstandby hfree hitem hloads
    have hsame := standIn_does (l := l) (role := role) (old := l.tiles.getD role 0) (n := n)
      (fs₀ := [.regs, .funcs, .tiles, .reels, .loaded, .chains, .fault, .out]) (Does.refl _ s) rfl
    obtain ⟨hloaded, hevent, htiles⟩ := standIn_shows l role (l.tiles.getD role 0) n hloads
    exact ⟨_, exec_takeover hsheet hstandby hfree hitem, hloaded, hevent, htiles, hsame.same .mem (by decide),
      hsame.same .items (by decide)⟩
  case rebind =>
    intro model role n l s hmodel htile
    obtain ⟨hservice, hnew⟩ := rebindTile_shows htile
    have hmoved := retile_does (l := l) (tiles := l.tiles.set role n) (fs₀ := [.reels, .loaded]) (Does.refl _ s) rfl
    have hsame := loadCode_does (l := l) (role := role) (n := n) (fs₀ := [.reels, .loaded, .tiles]) (hmoved.mono (by decide)) rfl
    refine ⟨_, exec_roleRebind hmodel htile, retile_map_loaded l _ s, hservice, hnew, ?_, hsame.same .items (by decide),
      hsame.same .jobs (by decide), hsame.same .regs (by decide), hsame.same .mem (by decide)⟩
    rw [tileOf_loadCode, if_pos rfl, tileOf_congr (hmoved.same .tiles (by decide))]

end Sys2Proof.Machine
end

/-! ### The canonical form of the tables (07 R199; 03 R71, R75; 04 R135)

What a command can do is said by the `Does` lemma of its meaning, which keeps the canonical form of the five tables. Here every
part of the state is allowed to change, so that the lemmas of all commands say the same. -/

section
namespace Sys2Proof.Machine

/-- Every part of the state. -/
def Fld.every : List Fld :=
  [.regs, .clk, .time, .pairs, .funcs, .flights, .mem, .tiles, .reels, .loaded, .nextLoad, .chains, .items, .nextItem, .windows, .jobs,
    .rounds, .lastReel, .radio, .flow, .cont, .matte, .splice, .fault, .hold, .mgmt, .board, .free, .out, .fetchTurn, .pending]

/-- Every command keeps the canonical form, by what its meaning can do. -/
theorem exec_does {i : Instr} {s t : State} (hrun : exec i s = .next t) : Does Fld.every s t := by
  have hstart : Does Fld.every s s := Does.refl _ s
  cases i with
  | regWrite => exact execRegWrite_does hstart hrun rfl
  | rcRead => exact execRcRead_does hstart hrun rfl
  | setupLock => exact execSetupLock_does hstart hrun rfl
  | timeNowFracRead => exact execTimeNowFracRead_does hstart hrun rfl
  | hbmRateWrite => exact execHbmRateWrite_does hstart hrun rfl
  | hbmTrainingDone => exact execHbmTrainingDone_does hstart hrun rfl
  | marginStart => exact execMarginStart_does hstart hrun rfl
  | marginDone => exact execMarginDone_does hstart hrun rfl
  | sqDoorbell => exact execSqDoorbell_does hstart hrun rfl
  | cqDoorbell => exact execCqDoorbell_does hstart hrun rfl
  | inertDoorbellWrite => exact execInertDoorbellWrite_does hstart hrun rfl
  | modTimeExpiry => exact execModTimeExpiry_does hstart hrun rfl
  | functionLevelReset => exact execFunctionLevelReset_does hstart hrun rfl
  | vfDisable => exact execVfDisable_does hstart hrun rfl
  | busMasterClear => exact execBusMasterClear_does hstart hrun rfl
  | busMasterSet => exact execBusMasterSet_does hstart hrun rfl
  | busMasterHoldExpiry => exact execBusMasterHoldExpiry_does hstart hrun rfl
  | descriptorFetch => exact execDescriptorFetch_does hstart hrun rfl
  | descriptorPhaseRetry => exact execDescriptorPhaseRetry_does hstart hrun rfl
  | descriptorReadError => exact execDescriptorReadError_does hstart hrun rfl
  | badDescriptor => exact execBadDescriptor_does hstart hrun rfl
  | nop => exact execNop_does hstart hrun rfl
  | phyUlTti => exact execPhyUlTti_does hstart hrun rfl
  | phyDlTti => exact execPhyDlTti_does hstart hrun rfl
  | phyUlDci => exact execPhyUlDci_does hstart hrun rfl
  | phyTxData => exact execPhyTxData_does hstart hrun rfl
  | flowScore => exact execFlowScore_does hstart hrun rfl
  | flowVerdictSet => exact execFlowVerdictSet_does hstart hrun rfl
  | fileOpen => exact execFileOpen_does hstart hrun rfl
  | fileChunk => exact execFileChunk_does hstart hrun rfl
  | fileClose => exact execFileClose_does hstart hrun rfl
  | fileAbort => exact execFileAbort_does hstart hrun rfl
  | takeRun => exact execTakeRun_does hstart hrun rfl
  | takeResume => exact execTakeResume_does hstart hrun rfl
  | slateArm => exact execSlateArm_does hstart hrun rfl
  | loadModel => exact execLoadModel_does hstart hrun rfl
  | loadRxpack => exact execLoadRxpack_does hstart hrun rfl
  | loadCallsheet => exact execLoadCallsheet_does hstart hrun rfl
  | unload => exact execUnload_does hstart hrun rfl
  | timeRearm => exact execTimeRearm_does hstart hrun rfl
  | acceptPair => exact execAcceptPair_does hstart hrun rfl
  | rushesCtrl => exact execRushesCtrl_does hstart hrun rfl
  | syncMessageReceive => exact execSyncMessageReceive_does hstart hrun rfl
  | followUpReceive => exact execFollowUpReceive_does hstart hrun rfl
  | announceReceive => exact execAnnounceReceive_does hstart hrun rfl
  | delayReqReceive => exact execDelayReqReceive_does hstart hrun rfl
  | delayRespReceive => exact execDelayRespReceive_does hstart hrun rfl
  | ptpSyncSend => exact execPtpSyncSend_does hstart hrun rfl
  | ptpAnnounceSend => exact execPtpAnnounceSend_does hstart hrun rfl
  | delayReqSend => exact execDelayReqSend_does hstart hrun rfl
  | sourceLost => exact execSourceLost_does hstart hrun rfl
  | holdoverExpired => exact execHoldoverExpired_does hstart hrun rfl
  | sceneEnd => exact execSceneEnd_does hstart hrun rfl
  | ppsInEdge => exact execPpsInEdge_does hstart hrun rfl
  | ppsOutPulse => exact execPpsOutPulse_does hstart hrun rfl
  | cueFire => exact execCueFire_does hstart hrun rfl
  | rtcRewrite => exact execRtcRewrite_does hstart hrun rfl
  | hoRefInterval => exact execHoRefInterval_does hstart hrun rfl
  | xtalStop => exact execXtalStop_does hstart hrun rfl
  | add => exact execAdd_does hstart hrun rfl
  | sub => exact execSub_does hstart hrun rfl
  | mul => exact execMul_does hstart hrun rfl
  | mulh => exact execMulh_does hstart hrun rfl
  | mac => exact execMac_does hstart hrun rfl
  | macz => exact execMacz_does hstart hrun rfl
  | accrd => exact execAccrd_does hstart hrun rfl
  | and => exact execAnd_does hstart hrun rfl
  | or => exact execOr_does hstart hrun rfl
  | xor => exact execXor_does hstart hrun rfl
  | shl => exact execShl_does hstart hrun rfl
  | shr => exact execShr_does hstart hrun rfl
  | shra => exact execShra_does hstart hrun rfl
  | min => exact execMin_does hstart hrun rfl
  | max => exact execMax_does hstart hrun rfl
  | abs => exact execAbs_does hstart hrun rfl
  | neg => exact execNeg_does hstart hrun rfl
  | cmp => exact execCmp_does hstart hrun rfl
  | csel => exact execCsel_does hstart hrun rfl
  | add2 => exact execAdd2_does hstart hrun rfl
  | sub2 => exact execSub2_does hstart hrun rfl
  | min2 => exact execMin2_does hstart hrun rfl
  | abs2 => exact execAbs2_does hstart hrun rfl
  | mintrk => exact execMintrk_does hstart hrun rfl
  | addi => exact execAddi_does hstart hrun rfl
  | andi => exact execAndi_does hstart hrun rfl
  | ori => exact execOri_does hstart hrun rfl
  | shli => exact execShli_does hstart hrun rfl
  | shri => exact execShri_does hstart hrun rfl
  | shrai => exact execShrai_does hstart hrun rfl
  | cmpi => exact execCmpi_does hstart hrun rfl
  | ldi => exact execLdi_does hstart hrun rfl
  | lui => exact execLui_does hstart hrun rfl
  | ld => exact execLd_does hstart hrun rfl
  | ldh => exact execLdh_does hstart hrun rfl
  | ldb => exact execLdb_does hstart hrun rfl
  | st => exact execSt_does hstart hrun rfl
  | sth => exact execSth_does hstart hrun rfl
  | stb => exact execStb_does hstart hrun rfl
  | seta => exact execSeta_does hstart hrun rfl
  | mva => exact execMva_does hstart hrun rfl
  | mvd => exact execMvd_does hstart hrun rfl
  | adda => exact execAdda_does hstart hrun rfl
  | br => exact execBr_does hstart hrun rfl
  | call => exact execCall_does hstart hrun rfl
  | ret => exact execRet_does hstart hrun rfl
  | jr => exact execJr_does hstart hrun rfl
  | loop => exact execLoop_does hstart hrun rfl
  | loopi => exact execLoopi_does hstart hrun rfl
  | lexit => exact execLexit_does hstart hrun rfl
  | mload => exact execMload_does hstart hrun rfl
  | shadowLoadStart => exact execShadowLoadStart_does hstart hrun rfl
  | shadowLoadComplete => exact execShadowLoadComplete_does hstart hrun rfl
  | mpass => exact execMpass_does hstart hrun rfl
  | cut => exact execCut_does hstart hrun rfl
  | mread => exact execMread_does hstart hrun rfl
  | mclr => exact execMclr_does hstart hrun rfl
  | vld => exact execVld_does hstart hrun rfl
  | vst => exact execVst_does hstart hrun rfl
  | vgth => exact execVgth_does hstart hrun rfl
  | vsct => exact execVsct_does hstart hrun rfl
  | vadd => exact execVadd_does hstart hrun rfl
  | vmul => exact execVmul_does hstart hrun rfl
  | vfma => exact execVfma_does hstart hrun rfl
  | vcmp => exact execVcmp_does hstart hrun rfl
  | vsel => exact execVsel_does hstart hrun rfl
  | vmin => exact execVmin_does hstart hrun rfl
  | vmax => exact execVmax_does hstart hrun rfl
  | vtree => exact execVtree_does hstart hrun rfl
  | rufeed => exact execRufeed_does hstart hrun rfl
  | ruread => exact execRuread_does hstart hrun rfl
  | ccNop => exact execCcNop_does hstart hrun rfl
  | halt => exact execHalt_does hstart hrun rfl
  | threadHalted => exact execThreadHalted_does hstart hrun rfl
  | sync => exact execSync_does hstart hrun rfl
  | syncComplete => exact execSyncComplete_does hstart hrun rfl
  | mfs => exact execMfs_does hstart hrun rfl
  | mts => exact execMts_does hstart hrun rfl
  | rpush => exact execRpush_does hstart hrun rfl
  | rpushResume => exact execRpushResume_does hstart hrun rfl
  | rpop => exact execRpop_does hstart hrun rfl
  | rpopResume => exact execRpopResume_does hstart hrun rfl
  | dkick => exact execDkick_does hstart hrun rfl
  | cuewait => exact execCuewait_does hstart hrun rfl
  | aadd => exact execAadd_does hstart hrun rfl
  | amm => exact execAmm_does hstart hrun rfl
  | dollyDescriptorStart => exact execDollyDescriptorStart_does hstart hrun rfl
  | dollyReelPop => exact execDollyReelPop_does hstart hrun rfl
  | dollyTransferAck => exact execDollyTransferAck_does hstart hrun rfl
  | dollyDescriptorComplete => exact execDollyDescriptorComplete_does hstart hrun rfl
  | lsScrub => exact execLsScrub_does hstart hrun rfl
  | stepCheckExpiry => exact execStepCheckExpiry_does hstart hrun rfl
  | windowRelease => exact execWindowRelease_does hstart hrun rfl
  | windowOpen => exact execWindowOpen_does hstart hrun rfl
  | suPlace => exact execSuPlace_does hstart hrun rfl
  | parkLimitExpiry => exact execParkLimitExpiry_does hstart hrun rfl
  | itemDispatch => exact execItemDispatch_does hstart hrun rfl
  | itemComplete => exact execItemComplete_does hstart hrun rfl
  | takeJobStart => exact execTakeJobStart_does hstart hrun rfl
  | layerEnd => exact execLayerEnd_does hstart hrun rfl
  | sheetSwitch => exact execSheetSwitch_does hstart hrun rfl
  | sheetRelease => exact execSheetRelease_does hstart hrun rfl
  | takeover => exact execTakeover_does hstart hrun rfl
  | slotStart => exact execSlotStart_does hstart hrun rfl
  | dlUplaneSend => exact execDlUplaneSend_does hstart hrun rfl
  | dlWindowClose => exact execDlWindowClose_does hstart hrun rfl
  | rushesCopy => exact execRushesCopy_does hstart hrun rfl
  | fhFrameReceive => exact execFhFrameReceive_does hstart hrun rfl
  | ecpriDelayRequest => exact execEcpriDelayRequest_does hstart hrun rfl
  | ecpriRemoteRequest => exact execEcpriRemoteRequest_does hstart hrun rfl
  | fhLinkChange => exact execFhLinkChange_does hstart hrun rfl
  | lineFrameReceive => exact execLineFrameReceive_does hstart hrun rfl
  | lineLinkChange => exact execLineLinkChange_does hstart hrun rfl
  | flowSweep => exact execFlowSweep_does hstart hrun rfl
  | holdCeiling => exact execHoldCeiling_does hstart hrun rfl
  | flowVerdict => exact execFlowVerdict_does hstart hrun rfl
  | tableFullReport => exact execTableFullReport_does hstart hrun rfl
  | fileVerdict => exact execFileVerdict_does hstart hrun rfl
  | fileTimeout => exact execFileTimeout_does hstart hrun rfl
  | matchJob => exact execMatchJob_does hstart hrun rfl
  | trackJob => exact execTrackJob_does hstart hrun rfl
  | composeJob => exact execComposeJob_does hstart hrun rfl
  | contactJob => exact execContactJob_does hstart hrun rfl
  | engineUnitEnd => exact execEngineUnitEnd_does hstart hrun rfl
  | wcAgeExpiry => exact execWcAgeExpiry_does hstart hrun rfl
  | hbmRead => exact execHbmRead_does hstart hrun rfl
  | atomicApply => exact execAtomicApply_does hstart hrun rfl
  | exactAliasWrite => exact execExactAliasWrite_does hstart hrun rfl
  | exactAliasRead => exact execExactAliasRead_does hstart hrun rfl
  | codecBlockEncode => exact execCodecBlockEncode_does hstart hrun rfl
  | codecBlockDecode => exact execCodecBlockDecode_does hstart hrun rfl
  | correctableEvent => exact execCorrectableEvent_does hstart hrun rfl
  | uncorrectableEvent => exact execUncorrectableEvent_does hstart hrun rfl
  | retakeRestart => exact execRetakeRestart_does hstart hrun rfl
  | roleRebind => exact execRoleRebind_does hstart hrun rfl
  | ledgerCommit => exact execLedgerCommit_does hstart hrun rfl
  | sagWarning => exact execSagWarning_does hstart hrun rfl
  | stretchEnd => exact execStretchEnd_does hstart hrun rfl
  | sagClear => exact execSagClear_does hstart hrun rfl
  | sagReset => exact execSagReset_does hstart hrun rfl
  | throttleStep => exact execThrottleStep_does hstart hrun rfl
  | thermalTrip => exact execThermalTrip_does hstart hrun rfl
  | thermTripRelease => exact execThermTripRelease_does hstart hrun rfl
  | railOutOfRange => exact execRailOutOfRange_does hstart hrun rfl
  | vbatLow => exact execVbatLow_does hstart hrun rfl
  | mainFeedFail => exact execMainFeedFail_does hstart hrun rfl
  | mainFeedRestored => exact execMainFeedRestored_does hstart hrun rfl
  | holdoverSupplyDrop => exact execHoldoverSupplyDrop_does hstart hrun rfl
  | pwrGoodFall => exact execPwrGoodFall_does hstart hrun rfl
  | perstFall => exact execPerstFall_does hstart hrun rfl
  | refclkSysStop => exact execRefclkSysStop_does hstart hrun rfl
  | resetRelease => exact execResetRelease_does hstart hrun rfl
  | avsComplete => exact execAvsComplete_does hstart hrun rfl
  | avsTimeout => exact execAvsTimeout_does hstart hrun rfl
  | dmcHeartbeat => exact execDmcHeartbeat_does hstart hrun rfl
  | dmcHeartbeatTimeout => exact execDmcHeartbeatTimeout_does hstart hrun rfl
  | linkTrainDone => exact execLinkTrainDone_does hstart hrun rfl
  | linkTrainRetry => exact execLinkTrainRetry_does hstart hrun rfl
  | linkCalDone => exact execLinkCalDone_does hstart hrun rfl
  | flitReceive => exact execFlitReceive_does hstart hrun rfl
  | errDecay => exact execErrDecay_does hstart hrun rfl
  | e2eGap => exact execE2eGap_does hstart hrun rfl
  | timeExchangeSend => exact execTimeExchangeSend_does hstart hrun rfl
  | timeMessage => exact execTimeMessage_does hstart hrun rfl
  | pathCorrection => exact execPathCorrection_does hstart hrun rfl
  | groupJoin => exact execGroupJoin_does hstart hrun rfl
  | armMessage => exact execArmMessage_does hstart hrun rfl
  | ackMessage => exact execAckMessage_does hstart hrun rfl
  | breakMessage => exact execBreakMessage_does hstart hrun rfl
  | arriveMessage => exact execArriveMessage_does hstart hrun rfl
  | reduceMessage => exact execReduceMessage_does hstart hrun rfl
  | bcastMessage => exact execBcastMessage_does hstart hrun rfl
  | dataMessage => exact execDataMessage_does hstart hrun rfl
  | slateFire => exact execSlateFire_does hstart hrun rfl
  | slateWaitExpiry => exact execSlateWaitExpiry_does hstart hrun rfl
  | uartCharacter => exact execUartCharacter_does hstart hrun rfl
  | recoveryWrite => exact execRecoveryWrite_does hstart hrun rfl
  | recoveryInstall => exact execRecoveryInstall_does hstart hrun rfl
  | recoveryStatus => exact execRecoveryStatus_does hstart hrun rfl
  | recoveryFrameTimeout => exact execRecoveryFrameTimeout_does hstart hrun rfl
  | setEndpointId => exact execSetEndpointId_does hstart hrun rfl
  | getEndpointId => exact execGetEndpointId_does hstart hrun rfl
  | getMctpVersionSupport => exact execGetMctpVersionSupport_does hstart hrun rfl
  | getMessageTypeSupport => exact execGetMessageTypeSupport_does hstart hrun rfl
  | getEndpointUuid => exact execGetEndpointUuid_does hstart hrun rfl
  | mctpUnsupportedCmd => exact execMctpUnsupportedCmd_does hstart hrun rfl
  | getTid => exact execGetTid_does hstart hrun rfl
  | getPldmVersion => exact execGetPldmVersion_does hstart hrun rfl
  | getPldmTypes => exact execGetPldmTypes_does hstart hrun rfl
  | getPldmCommands => exact execGetPldmCommands_does hstart hrun rfl
  | queryDeviceIdentifiers => exact execQueryDeviceIdentifiers_does hstart hrun rfl
  | getFirmwareParameters => exact execGetFirmwareParameters_does hstart hrun rfl
  | requestUpdate => exact execRequestUpdate_does hstart hrun rfl
  | passComponentTable => exact execPassComponentTable_does hstart hrun rfl
  | updateComponent => exact execUpdateComponent_does hstart hrun rfl
  | requestFirmwareData => exact execRequestFirmwareData_does hstart hrun rfl
  | transferComplete => exact execTransferComplete_does hstart hrun rfl
  | verifyComplete => exact execVerifyComplete_does hstart hrun rfl
  | applyComplete => exact execApplyComplete_does hstart hrun rfl
  | activateFirmware => exact execActivateFirmware_does hstart hrun rfl
  | getStatus => exact execGetStatus_does hstart hrun rfl
  | cancelUpdateComponent => exact execCancelUpdateComponent_does hstart hrun rfl
  | cancelUpdate => exact execCancelUpdate_does hstart hrun rfl
  | getVersion => exact execGetVersion_does hstart hrun rfl
  | getCapabilities => exact execGetCapabilities_does hstart hrun rfl
  | negotiateAlgorithms => exact execNegotiateAlgorithms_does hstart hrun rfl
  | getDigests => exact execGetDigests_does hstart hrun rfl
  | getCertificate => exact execGetCertificate_does hstart hrun rfl
  | challenge => exact execChallenge_does hstart hrun rfl
  | getMeasurements => exact execGetMeasurements_does hstart hrun rfl
  | spdmUnsupportedRequest => exact execSpdmUnsupportedRequest_does hstart hrun rfl
  | extest => exact execExtest_does hstart hrun rfl
  | idcode => exact execIdcode_does hstart hrun rfl
  | samplePreload => exact execSamplePreload_does hstart hrun rfl
  | clamp => exact execClamp_does hstart hrun rfl
  | highz => exact execHighz_does hstart hrun rfl
  | unlockChal => exact execUnlockChal_does hstart hrun rfl
  | unlockResp => exact execUnlockResp_does hstart hrun rfl
  | debugAccess => exact execDebugAccess_does hstart hrun rfl
  | bypass => exact execBypass_does hstart hrun rfl
  | tapTestLogicReset => exact execTapTestLogicReset_does hstart hrun rfl
  | vfEnable => exact execVfEnable_does hstart hrun rfl
  | flrComplete => exact execFlrComplete_does hstart hrun rfl
  | msixUnmask => exact execMsixUnmask_does hstart hrun rfl
  | undefinedOrMisalignedRead => exact execUndefinedOrMisalignedRead_does hstart hrun rfl
  | fabricRootLock => exact execFabricRootLock_does hstart hrun rfl
  | hbmStackHot => exact execHbmStackHot_does hstart hrun rfl
  | avsThresholdTimeout => exact execAvsThresholdTimeout_does hstart hrun rfl

/-- A step keeps it, whether it ticks or takes the command in front. -/
theorem step_wf {s t : State} (hwf : s.wf = true) (hstep : step s = .next t) : t.wf = true := by
  unfold step at hstep
  split at hstep
  · obtain rfl := Host.Outcome.next.inj hstep
    exact (tick_does (Does.refl [.clk, .time] s) rfl).wf hwf
  · exact (exec_does hstep).wf hwf

/-- Settles O59: a step is a tick or a command, and each keeps the canonical form. -/
theorem canonicalFormKept : Obligations.CanonicalFormKept := fun _ _ => step_wf

/-- No tile is fenced after reset: every TILE_n.STATUS holds its reset value. -/
theorem fenced_reset : ∀ n ∈ List.range 64, fenced State.reset n = false := by decide +kernel

/-- Settles O60: every table of the reset state is empty. -/
theorem resetIsCanonical : Obligations.ResetIsCanonical :=
  ⟨rfl, rfl, rfl, rfl, rfl, rfl, rfl, rfl, fenced_reset⟩

end Sys2Proof.Machine
end

/-! ### The tensor codec (07 R218–R222)

The decoder reads back each piece that the encoder writes: a run of zeros, an exponent token, an element's sign and mantissa. So it
reads back the two planes by induction over the elements, the planes out of their bytes, and the payload behind its header. -/

section
namespace Sys2Proof.Machine

/-! #### Numbers as bits -/

@[simp] theorem bitsMsb_length (n v : Nat) : (bitsMsb n v).length = n := by
  induction n with
  | zero => rfl
  | succ n ih => rw [bitsMsb, List.length_cons, ih]

theorem natMsb_concat (bs : List Bool) (b : Bool) : natMsb (bs ++ [b]) = 2 * natMsb bs + bnat b := by
  simp [natMsb]

theorem natMsb_cons (b : Bool) (bs : List Bool) : natMsb (b :: bs) = bnat b * 2 ^ bs.length + natMsb bs := by
  induction bs using List.reverseRecOn with
  | nil => simp [natMsb]
  | append_singleton bs c ih =>
    rw [← List.cons_append, natMsb_concat, ih, natMsb_concat, List.length_append, List.length_singleton, Nat.pow_succ]
    ring

/-- The low `n + 1` bits are bit `n` and those below it. -/
theorem bit_add_mod_two_pow (v n : Nat) : bnat (v.testBit n) * 2 ^ n + v % 2 ^ n = v % 2 ^ (n + 1) := by
  have hbit : bnat (v.testBit n) = v / 2 ^ n % 2 := by
    rw [← Nat.toNat_testBit]
    cases v.testBit n <;> rfl
  rw [Nat.mod_pow_succ, hbit, Nat.mul_comm, Nat.add_comm]

theorem natMsb_bitsMsb (n v : Nat) : natMsb (bitsMsb n v) = v % 2 ^ n := by
  induction n with
  | zero => rw [Nat.pow_zero, Nat.mod_one]; rfl
  | succ n ih => rw [bitsMsb, natMsb_cons, ih, bitsMsb_length, bit_add_mod_two_pow]

/-- Bits packed lowest first: the number spelled by the reversed list has them as its bits. -/
theorem testBit_natMsb_reverse (bs : List Bool) (i : Nat) : (natMsb bs.reverse).testBit i = bs.getD i false := by
  induction bs generalizing i with
  | nil => simp [natMsb]
  | cons b bs ih =>
    have hbit : bnat b < 2 := by cases b <;> decide
    rw [List.reverse_cons, natMsb_concat]
    cases i with
    | zero => cases b <;> simp [bnat, Nat.testBit_zero, Nat.add_mod]
    | succ i => rw [Nat.testBit_succ, Nat.mul_add_div Nat.two_pos, Nat.div_eq_of_lt hbit, Nat.add_zero, ih, List.getD_cons_succ]

/-! #### Planes of bits as bytes (07 R218) -/

theorem unpackBits_append (bs cs : List Byte) : unpackBits (bs ++ cs) = unpackBits bs ++ unpackBits cs := List.flatMap_append

/-- The bits of one packed byte, those past the end of the list 0. -/
theorem unpackBits_packed (bs : List Bool) :
    unpackBits [BitVec.ofNat 8 (natMsb (bs.take 8).reverse)] = bs.take 8 ++ List.replicate (8 - bs.length) false := by
  apply List.ext_getElem
  · simp [unpackBits]
    omega
  · intro i hi _
    have hlt : i < 8 := by simpa [unpackBits] using hi
    have hbit : (unpackBits [BitVec.ofNat 8 (natMsb (bs.take 8).reverse)])[i] = (bs.take 8).getD i false := by
      rw [← testBit_natMsb_reverse]
      simp only [unpackBits, List.flatMap_singleton, List.getElem_map, List.getElem_range, BitVec.toNat_ofNat,
        Nat.testBit_mod_two_pow, hlt, decide_true, Bool.true_and]
    refine hbit.trans ?_
    rw [List.getD_eq_getElem?_getD]
    by_cases hb : i < (bs.take 8).length
    · rw [List.getElem_append_left hb, List.getElem?_eq_getElem hb, Option.getD_some]
    · rw [List.getElem_append_right (by omega), List.getElem_replicate, List.getElem?_eq_none (by omega), Option.getD_none]

/-- Enough bytes hold all bits. -/
theorem le_packBits_length {n : Nat} {bs : List Bool} (h : bs.length ≤ 8 * n) : bs.length ≤ 8 * (packBits n bs).length := by
  induction n generalizing bs with
  | zero => simpa [packBits] using h
  | succ n ih =>
    by_cases hbs : bs = []
    · simp [hbs]
    · have := ih (bs := bs.drop 8) (by simp; omega)
      rw [packBits, if_neg hbs, List.length_cons]
      rw [List.length_drop] at this
      omega

/-- Packed bytes that hold all bits give them back, with zeros behind. -/
theorem unpackBits_packBits {n : Nat} {bs : List Bool} (h : bs.length ≤ 8 * (packBits n bs).length) :
    ∃ k, unpackBits (packBits n bs) = bs ++ List.replicate k false := by
  induction n generalizing bs with
  | zero =>
    obtain rfl : bs = [] := List.eq_nil_of_length_eq_zero (by simpa [packBits] using h)
    exact ⟨0, rfl⟩
  | succ n ih =>
    by_cases hbs : bs = []
    · exact ⟨0, by rw [packBits, if_pos hbs, hbs]; rfl⟩
    · rw [packBits, if_neg hbs] at h ⊢
      rw [List.length_cons] at h
      obtain ⟨k, hk⟩ := ih (bs := bs.drop 8) (by rw [List.length_drop]; omega)
      rw [← List.singleton_append, unpackBits_append, unpackBits_packed, hk]
      rcases Nat.lt_or_ge bs.length 8 with hshort | hlong
      · refine ⟨8 - bs.length + k, ?_⟩
        rw [List.take_of_length_le hshort.le, List.drop_eq_nil_of_le hshort.le, List.nil_append, List.append_assoc,
          List.replicate_append_replicate]
      · refine ⟨k, ?_⟩
        rw [Nat.sub_eq_zero_of_le hlong, List.replicate_zero, List.append_nil, ← List.append_assoc, List.take_append_drop]

/-! #### Runs of zeros (07 R219) -/

/-- Reading leading bits stops at the bound or at another bit. -/
theorem leading_replicate {b : Bool} {k n : Nat} {l : List Bool} (hk : k ≤ n) (hstop : k = n ∨ ∃ l', l = (!b) :: l') :
    leading b n (List.replicate k b ++ l) = (k, l) := by
  induction k generalizing n with
  | zero =>
    rcases hstop with rfl | ⟨l', rfl⟩
    · rfl
    · cases n <;> cases b <;> rfl
  | succ k ih =>
    obtain ⟨n, rfl⟩ : ∃ m, n = m + 1 := ⟨n - 1, by omega⟩
    rw [List.replicate_succ, List.cons_append, leading, if_pos rfl, ih (by omega) (hstop.imp_left (by omega))]

theorem bitLen_of_ne_zero {w : Nat} (h : w ≠ 0) : bitLen w = Nat.log2 w + 1 := by rw [bitLen, if_neg h]

theorem lt_two_pow_bitLen (w : Nat) : w < 2 ^ bitLen w := by
  unfold bitLen
  split
  · omega
  · exact Nat.lt_log2_self

/-- The highest bit of a number is set. -/
theorem testBit_bitLen {w : Nat} (h : w ≠ 0) : w.testBit (bitLen w - 1) = true := by
  rw [bitLen_of_ne_zero h, Nat.add_sub_cancel]
  exact Nat.testBit_log2 h

/-- A number has no more bits than a power of two above it. -/
theorem bitLen_le {w n : Nat} (h : w < 2 ^ n) : bitLen w ≤ n := by
  unfold bitLen
  split
  · omega
  · next hw => exact (Nat.log2_lt hw).2 h

theorem le_bitLen {w n : Nat} (h : 2 ^ n ≤ w) : n + 1 ≤ bitLen w := by
  have hw : w ≠ 0 := (Nat.lt_of_lt_of_le (Nat.two_pow_pos n) h).ne'
  rw [bitLen_of_ne_zero hw]
  exact Nat.succ_le_succ ((Nat.le_log2 hw).2 h)

theorem readRun_egCode (z r : Nat) (l : List Bool) : readRun z (egCode z r ++ l) = some (r, l) := by
  have hbits : z + 1 ≤ bitLen (r + 2 ^ z) := le_bitLen (Nat.le_add_left ..)
  have hw : r + 2 ^ z ≠ 0 := (Nat.add_pos_right r (Nat.two_pow_pos z)).ne'
  obtain ⟨m, hm⟩ : ∃ m, bitLen (r + 2 ^ z) = m + 1 := ⟨_, (Nat.sub_add_cancel (by omega)).symm⟩
  have htop := testBit_bitLen hw
  rw [hm, Nat.add_sub_cancel] at htop
  have hlead : leading false (egCode z r ++ l).length (egCode z r ++ l) =
      (m - z, bitsMsb (bitLen (r + 2 ^ z)) (r + 2 ^ z) ++ l) := by
    have hcode : egCode z r ++ l = List.replicate (m - z) false ++ (bitsMsb (bitLen (r + 2 ^ z)) (r + 2 ^ z) ++ l) := by
      rw [egCode, hm, Nat.add_sub_cancel, List.append_assoc]
    rw [hcode]
    refine leading_replicate (by simp) (.inr ⟨bitsMsb m (r + 2 ^ z) ++ l, ?_⟩)
    rw [hm, bitsMsb, htop]
    rfl
  have hlen : m - z + 1 + z = bitLen (r + 2 ^ z) := by omega
  unfold readRun
  dsimp only
  rw [hlead, hlen, if_neg (by simp), List.take_left' (bitsMsb_length ..), List.drop_left' (bitsMsb_length ..), natMsb_bitsMsb,
    Nat.mod_eq_of_lt (lt_two_pow_bitLen _), Nat.add_sub_cancel]

/-! #### Exponents (07 R219, R220) -/

/-- The distance of an exponent from the table's centre, folded onto the naturals: even for one not below. -/
def zigzag (d : Int) : Nat := if 0 ≤ d then 2 * d.toNat else 2 * d.natAbs - 1

theorem unzigzag (c : Int) (d : Int) :
    (if zigzag d % 2 = 0 then c + (zigzag d / 2 : Nat) else c - ((zigzag d + 1) / 2 : Nat)) = c + d := by
  unfold zigzag
  split_ifs <;> omega

theorem expToken_eq (t : CodecTable) (e : Nat) : expToken t e =
    if zigzag (e - t.ec) / 2 ^ t.k < 15 then
      List.replicate (zigzag (e - t.ec) / 2 ^ t.k) true ++ [false] ++ bitsMsb t.k (zigzag (e - t.ec))
    else List.replicate 15 true ++ bitsMsb t.we e := rfl

theorem readExp_expToken {t : CodecTable} {e : Nat} (he : e < 2 ^ t.we) (l : List Bool) :
    readExp t (expToken t e ++ l) = some (e, l) := by
  rw [expToken_eq]
  generalize hu : zigzag (e - t.ec) = u
  by_cases hq : u / 2 ^ t.k < 15
  · have hlead : leading true 15 (List.replicate (u / 2 ^ t.k) true ++ [false] ++ bitsMsb t.k u ++ l) =
        (u / 2 ^ t.k, false :: (bitsMsb t.k u ++ l)) := by
      rw [List.append_assoc, List.append_assoc]
      exact leading_replicate hq.le (.inr ⟨_, rfl⟩)
    have hjoin : u / 2 ^ t.k * 2 ^ t.k + u % 2 ^ t.k = u := Nat.div_add_mod' ..
    have hback : (if u % 2 = 0 then t.ec + (u / 2 : Nat) else t.ec - ((u + 1) / 2 : Nat)) = (e : Int) := by
      rw [← hu, unzigzag]
      omega
    have hrange : ¬ ((e : Int) < 0 ∨ (2 : Int) ^ t.we ≤ e) := by
      rintro (h | h)
      · omega
      · exact absurd (by exact_mod_cast h) (Nat.not_le.2 he)
    unfold readExp
    dsimp only
    rw [if_pos hq, hlead, if_neg hq.ne]
    simp only [List.drop_one, List.tail_cons]
    rw [if_neg (by simp), List.take_left' (bitsMsb_length ..), List.drop_left' (bitsMsb_length ..), natMsb_bitsMsb, hjoin, hback,
      if_neg hrange, Int.toNat_natCast]
  · have hlead : leading true 15 (List.replicate 15 true ++ bitsMsb t.we e ++ l) = (15, bitsMsb t.we e ++ l) := by
      rw [List.append_assoc]
      exact leading_replicate (Nat.le_refl _) (.inl rfl)
    unfold readExp
    dsimp only
    rw [if_neg hq, hlead, if_pos rfl, if_neg (by simp), List.take_left' (bitsMsb_length ..), List.drop_left' (bitsMsb_length ..),
      natMsb_bitsMsb, Nat.mod_eq_of_lt he]

/-! #### Elements (07 R219, R220) -/

/-- The fields of a table fit its elements: a float is a sign, `we` bits of exponent and `man` of mantissa; the bit length of an
integer's magnitude has `we` bits. -/
def CodecTable.fits (t : CodecTable) : Bool :=
  decide (0 < t.size) && if t.int then decide (8 * t.size < 2 ^ t.we) else decide (8 * t.size = t.man + t.we + 1)

theorem codecTables_fits : ∀ t ∈ codecTables, t.fits = true := by decide

/-- The sign and magnitude of a two's-complement number give it back. -/
theorem signedOf_readBack {n x : Nat} (hn : 0 < n) (hx : x < 2 ^ n) :
    (if signedOf n x < 0 then (2 ^ n - (signedOf n x).natAbs) % 2 ^ n else (signedOf n x).natAbs % 2 ^ n) = x := by
  have hmod : x % 2 ^ n = x := Nat.mod_eq_of_lt hx
  have hhalf : 2 ^ n = 2 * 2 ^ (n - 1) := by rw [← Nat.pow_succ', Nat.succ_eq_add_one, Nat.sub_add_cancel hn]
  have hcast : ((2 : Int) ^ n) = ((2 ^ n : Nat) : Int) := by push_cast; rfl
  unfold signedOf
  rw [hmod, hcast]
  by_cases hlow : x < 2 ^ (n - 1)
  · rw [if_pos hlow, if_neg (by omega), Int.natAbs_natCast, hmod]
  · have hneg : ((x : Int) - (2 ^ n : Nat)).natAbs = 2 ^ n - x := by omega
    rw [if_neg hlow, if_pos (by omega), hneg, Nat.sub_sub_self hx.le, hmod]

theorem natAbs_signedOf_le {n x : Nat} (hn : 0 < n) : (signedOf n x).natAbs ≤ 2 ^ (n - 1) := by
  have hhalf : 2 ^ n = 2 * 2 ^ (n - 1) := by rw [← Nat.pow_succ', Nat.succ_eq_add_one, Nat.sub_add_cancel hn]
  have hcast : ((2 : Int) ^ n) = ((2 ^ n : Nat) : Int) := by push_cast; rfl
  have hlt : x % 2 ^ n < 2 ^ n := Nat.mod_lt _ (Nat.two_pow_pos n)
  unfold signedOf
  rw [hcast]
  split <;> omega

/-- A float is its sign, its exponent and its mantissa. -/
theorem float_readBack {t : CodecTable} (hsize : 8 * t.size = t.man + t.we + 1) {x : Nat} (hx : x < 2 ^ (8 * t.size)) :
    bnat (x.testBit (8 * t.size - 1)) * 2 ^ (8 * t.size - 1) + x / 2 ^ t.man % 2 ^ t.we * 2 ^ t.man + x % 2 ^ t.man = x := by
  have hpos : 8 * t.size - 1 = t.man + t.we := by omega
  have hlow : x / 2 ^ t.man % 2 ^ t.we * 2 ^ t.man + x % 2 ^ t.man = x % 2 ^ (t.man + t.we) := by
    rw [Nat.pow_add, Nat.mod_mul, Nat.mul_comm, Nat.add_comm]
  rw [hpos, Nat.add_assoc, hlow, bit_add_mod_two_pow, ← hsize, Nat.mod_eq_of_lt hx]

/-- The magnitude of an integer is its highest bit and those below it. -/
theorem magnitude_readBack {w : Nat} (hw : w ≠ 0) : 2 ^ (bitLen w - 1) + w % 2 ^ (bitLen w - 1) = w := by
  have hlen : bitLen w - 1 + 1 = bitLen w := by rw [bitLen_of_ne_zero hw, Nat.add_sub_cancel]
  have hjoin := bit_add_mod_two_pow w (bitLen w - 1)
  rwa [testBit_bitLen hw, bnat, if_pos rfl, Nat.one_mul, hlen, Nat.mod_eq_of_lt (lt_two_pow_bitLen w)] at hjoin

/-- The element of a table that the decoder reads from exponent `e`, sign `neg` and mantissa `m`. -/
def elemValue (t : CodecTable) (neg : Bool) (e m : Nat) : Nat :=
  if t.int then
    if neg then (2 ^ (8 * t.size) - (2 ^ (e - 1) + m)) % 2 ^ (8 * t.size) else (2 ^ (e - 1) + m) % 2 ^ (8 * t.size)
  else bnat neg * 2 ^ (8 * t.size - 1) + e * 2 ^ t.man + m

theorem readElem_cons {t : CodecTable} {e : Nat} (neg : Bool) {bs : List Bool} (hlen : bs.length = if t.int then e - 1 else t.man)
    (he : t.int = true → 1 ≤ e ∧ e ≤ 8 * t.size) (l : List Bool) :
    readElem t e (neg :: bs ++ l) = some (elemValue t neg e (natMsb bs), l) := by
  unfold readElem
  dsimp only
  have hok : ¬ ((t.int = true ∧ (e = 0 ∨ 8 * t.size < e)) ∨ (neg :: bs ++ l).length < bs.length + 1) := by
    rintro (⟨hint, hrange⟩ | hshort)
    · obtain ⟨h1, h2⟩ := he hint
      omega
    · simp at hshort
  have htake : ((neg :: bs ++ l).drop 1).take bs.length = bs := List.take_left
  have hdrop : (neg :: bs ++ l).drop (bs.length + 1) = l := List.drop_left (l₁ := neg :: bs)
  rw [← hlen, if_neg hok, htake, hdrop, elemValue]
  cases neg <;> rfl

/-- The parts of a non-zero element: its exponent fits the table, and the decoder reads the element back. -/
theorem elemParts_spec {t : CodecTable} (ht : t.fits = true) {x : Nat} (hx : x < 2 ^ (8 * t.size)) (hne : x ≠ 0) :
    (elemParts t x).2.1 < 2 ^ t.we ∧
      ∀ l, readElem t (elemParts t x).2.1 ((elemParts t x).1 :: (elemParts t x).2.2 ++ l) = some (x, l) := by
  simp only [CodecTable.fits, Bool.and_eq_true, decide_eq_true_eq] at ht
  obtain ⟨hpos, hfits⟩ := ht
  cases hint : t.int
  · have hsize : 8 * t.size = t.man + t.we + 1 := by simpa [hint] using hfits
    have hparts : elemParts t x = (x.testBit (8 * t.size - 1), x / 2 ^ t.man % 2 ^ t.we, bitsMsb t.man x) := by simp [elemParts, hint]
    rw [hparts]
    refine ⟨Nat.mod_lt _ (Nat.two_pow_pos _), fun l => ?_⟩
    rw [readElem_cons _ (by simp [hint]) (by simp [hint]), natMsb_bitsMsb, elemValue, hint, if_neg (by decide), float_readBack hsize hx]
  · have hsize : 8 * t.size < 2 ^ t.we := by simpa [hint] using hfits
    have hback := signedOf_readBack (Nat.mul_pos (by decide) hpos) hx
    have hmag := natAbs_signedOf_le (n := 8 * t.size) (x := x) (Nat.mul_pos (by decide) hpos)
    have hparts : elemParts t x = (decide (signedOf (8 * t.size) x < 0), bitLen (signedOf (8 * t.size) x).natAbs,
        bitsMsb (bitLen (signedOf (8 * t.size) x).natAbs - 1) (signedOf (8 * t.size) x).natAbs) := by simp [elemParts, hint]
    rw [hparts]
    generalize hv : signedOf (8 * t.size) x = v at hback hmag
    have hv0 : v.natAbs ≠ 0 := by
      intro h0
      rw [Int.natAbs_eq_zero.1 h0] at hback
      exact hne (by simpa using hback.symm)
    have hlen : bitLen v.natAbs ≤ 8 * t.size :=
      bitLen_le (hmag.trans_lt (Nat.pow_lt_pow_right (by decide) (by omega)))
    refine ⟨hlen.trans_lt hsize, fun l => ?_⟩
    rw [readElem_cons _ (by simp [hint]) (fun _ => ⟨by rw [bitLen_of_ne_zero hv0]; omega, hlen⟩), natMsb_bitsMsb, elemValue, if_pos hint,
      magnitude_readBack hv0]
    simp only [decide_eq_true_eq, hback]

/-! #### The planes of a list of elements (07 R219) -/

theorem encodeElems_zero (t : CodecTable) (r : Nat) (xs : List Nat) : encodeElems t r (0 :: xs) = encodeElems t (r + 1) xs := by
  rw [encodeElems, if_pos rfl]

theorem encodeElems_cons (t : CodecTable) (r : Nat) {x : Nat} (hx : x ≠ 0) (xs : List Nat) :
    encodeElems t r (x :: xs) =
      (egCode t.z r ++ expToken t (elemParts t x).2.1 ++ (encodeElems t 0 xs).1,
        (elemParts t x).1 :: (elemParts t x).2.2 ++ (encodeElems t 0 xs).2) := by
  rw [encodeElems, if_neg hx]

/-- The decoder reads `r` zeros that wait and the elements behind them back from their two planes, whatever stands behind those. -/
theorem readElems_encodeElems {t : CodecTable} (ht : t.fits = true) {xs : List Nat} (hxs : ∀ x ∈ xs, x < 2 ^ (8 * t.size)) (r : Nat)
    (hpos : 0 < r + xs.length) {fuel : Nat} (hfuel : xs.length < fuel) (tok man : List Bool) :
    readElems t fuel (r + xs.length) ((encodeElems t r xs).1 ++ tok) ((encodeElems t r xs).2 ++ man) =
      some (List.replicate r 0 ++ xs, tok) := by
  induction xs generalizing r fuel man with
  | nil =>
    obtain ⟨fuel, rfl⟩ : ∃ n, fuel = n + 1 := ⟨fuel - 1, by omega⟩
    have hr : r ≠ 0 := by simpa using hpos.ne'
    simp [readElems, encodeElems, hr, readRun_egCode]
  | cons x xs ih =>
    have ih := fun r hp {fuel} hf man => ih (fun y hy => hxs y (List.mem_cons_of_mem _ hy)) r hp (fuel := fuel) hf man
    rw [List.length_cons] at hfuel ⊢
    by_cases hx : x = 0
    · subst hx
      rw [encodeElems_zero, show r + (xs.length + 1) = r + 1 + xs.length by omega, ih (r + 1) (by omega) (by omega),
        List.replicate_succ', List.append_assoc, List.singleton_append]
    · obtain ⟨fuel, rfl⟩ : ∃ n, fuel = n + 1 := ⟨fuel - 1, by omega⟩
      obtain ⟨he, helem⟩ := elemParts_spec ht (hxs x List.mem_cons_self) hx
      rw [encodeElems_cons t r hx, readElems]
      simp only [List.append_assoc, readRun_egCode, readExp_expToken he]
      rw [if_neg (by omega), if_neg (by omega), ← List.append_assoc, List.append_assoc _ _ man, helem]
      dsimp only
      by_cases hlast : xs = []
      · subst hlast
        rw [if_pos (by simp)]
        rfl
      · have hlen : 0 < xs.length := List.length_pos_iff.2 hlast
        have hrest := ih 0 (by omega) (fuel := fuel) (by omega) man
        rw [Nat.zero_add, List.replicate_zero, List.nil_append] at hrest
        rw [if_neg (by omega), show r + (xs.length + 1) - r - 1 = xs.length by omega, hrest]

/-! #### Elements and raw bytes (07 R218) -/

theorem leNat_lt (bs : List Byte) : leNat bs < 2 ^ (8 * bs.length) := by
  induction bs with
  | nil => simp [leNat]
  | cons b bs ih =>
    have hb : b.toNat < 256 := b.isLt
    rw [leNat, List.length_cons, Nat.mul_succ, Nat.pow_add]
    omega

/-- Bytes are the digits of the number they spell. -/
theorem leBytes_leNat (bs : List Byte) : leBytes bs.length (leNat bs) = bs := by
  induction bs with
  | nil => rfl
  | cons b bs ih =>
    have hdiv : (b.toNat + 256 * leNat bs) / 256 = leNat bs := by
      have hb : b.toNat < 256 := b.isLt
      omega
    have hmod : BitVec.ofNat 8 (b.toNat + 256 * leNat bs) = b := by
      apply BitVec.eq_of_toNat_eq
      rw [BitVec.toNat_ofNat, Nat.add_mul_mod_self_left, Nat.mod_eq_of_lt b.isLt]
    rw [leNat, List.length_cons, leBytes, hdiv, hmod, ih]

/-- Raw bytes of whole elements are their elements' bytes. -/
theorem elemsOf_spec {k : Nat} (hk : 0 < k) (q : Nat) {n : Nat} {bs : List Byte} (hlen : bs.length = q * k) (hn : bs.length ≤ n) :
    (elemsOf k n bs).length = q ∧ (∀ x ∈ elemsOf k n bs, x < 2 ^ (8 * k)) ∧ (elemsOf k n bs).flatMap (leBytes k) = bs := by
  induction q generalizing n bs with
  | zero =>
    obtain rfl : bs = [] := List.eq_nil_of_length_eq_zero (by rw [hlen, Nat.zero_mul])
    cases n <;> simp [elemsOf]
  | succ q ih =>
    have hlong : k ≤ bs.length := by rw [hlen, Nat.succ_mul]; omega
    obtain ⟨n, rfl⟩ : ∃ m, n = m + 1 := ⟨n - 1, by omega⟩
    have hne : bs ≠ [] := List.ne_nil_of_length_pos (by omega)
    have hfirst : (bs.take k).length = k := by rw [List.length_take, Nat.min_eq_left hlong]
    obtain ⟨hcount, hsmall, hback⟩ := ih (n := n) (bs := bs.drop k) (by rw [List.length_drop, hlen, Nat.succ_mul]; omega)
      (by rw [List.length_drop]; omega)
    have hbytes := leBytes_leNat (bs.take k)
    have hlt := leNat_lt (bs.take k)
    rw [hfirst] at hbytes hlt
    rw [elemsOf, if_neg hne]
    refine ⟨by rw [List.length_cons, hcount], fun x hx => ?_, ?_⟩
    · rcases List.mem_cons.1 hx with rfl | hx
      · exact hlt
      · exact hsmall x hx
    · rw [List.flatMap_cons, hbytes, hback, List.take_append_drop]

/-! #### The header and its checks (07 R218, R222) -/

theorem padTo_length (bs : List Byte) : (padTo 16 bs).length = 16 * ceilDiv bs.length 16 := by
  simp [padTo, zeros, ceilDiv]
  omega

theorem codecHeader_length (raw pay table tok crc : Nat) : (codecHeader raw pay table tok crc).length = 16 := by
  simp [codecHeader, zeros]

/-- What the decoder makes of a payload before it compares the CRC. -/
def codecPayload (raw table tokLen : Nat) (pay : List Byte) : Option (List Byte) :=
  if table = 15 then if pay.length = 16 * ceilDiv raw 16 ∧ tokLen = 0 then some (pay.take raw) else none
  else match codecTables[table]? with
    | none => none
    | some t =>
      if raw % t.size ≠ 0 then none
      else match readElems t (raw + 1) (raw / t.size) (unpackBits (pay.take tokLen)) (unpackBits (pay.drop tokLen)) with
        | some (vs, rest) => if rest.any id then none else some (vs.flatMap (leBytes t.size))
        | none => none

/-- A block with a header of its own payload decodes to the bytes that the payload gives, where the CRC is theirs. -/
theorem codecDecode_header {raw table tok : Nat} {pay bs : List Byte} (hraw : 1 ≤ raw) (hraw' : raw ≤ 4096) (htable : table < 16)
    (htok : tok ≤ pay.length) (hpay : pay.length ≤ 4096) (hpad : pay.length % 16 = 0) (hcrc : crc32 bs < 2 ^ 32)
    (hout : codecPayload raw table tok pay = some bs) :
    codecDecode (codecHeader raw pay.length table tok (crc32 bs) ++ pay) = some bs := by
  generalize hblk : codecHeader raw pay.length table tok (crc32 bs) ++ pay = blk
  have hfield : ∀ (n v : Nat), v < 2 ^ (8 * n) → leNat (leBytes n v) = v := fun n v hv => by
    rw [leNat_leBytes, Nat.mod_eq_of_lt hv]
  have h0 : leAt blk 0 2 = raw - 1 := by rw [← hblk]; exact hfield 2 (raw - 1) (by omega)
  have h2 : leAt blk 2 2 = pay.length := by rw [← hblk]; exact hfield 2 pay.length (by omega)
  have h4 : leAt blk 4 1 = table := by rw [← hblk]; exact hfield 1 table (by omega)
  have h5 : leAt blk 5 1 = 0xC7 := by rw [← hblk]; rfl
  have h6 : leAt blk 6 2 = tok := by rw [← hblk]; exact hfield 2 tok (by omega)
  have h8 : leAt blk 8 4 = crc32 bs := by rw [← hblk]; exact hfield 4 (crc32 bs) hcrc
  have h12 : leAt blk 12 4 = 0 := by rw [← hblk]; rfl
  have hdrop : blk.drop 16 = pay := by rw [← hblk]; rfl
  have hraw1 : codecRawLen blk = raw := by rw [codecRawLen, h0]; omega
  have hpay1 : codecPayLen blk = pay.length := by rw [codecPayLen, h2]; omega
  unfold codecDecode
  simp only [hraw1, hpay1, h0, h2, h4, h5, h6, h8, h12, hdrop, List.take_length]
  rw [if_neg (by omega)]
  change (match codecPayload raw table tok pay with
    | some bs' => if crc32 bs' = crc32 bs then some bs' else none
    | none => none) = some bs
  rw [hout]
  exact if_pos rfl

theorem crcShift_lt {poly : Nat} (hpoly : poly < 2 ^ 32) (n : Nat) {c : Nat} (hc : c < 2 ^ 32) : crcShift poly n c < 2 ^ 32 := by
  induction n generalizing c with
  | zero => exact hc
  | succ n ih =>
    have hhalf : c / 2 < 2 ^ 32 := by omega
    rw [crcShift]
    split
    · exact ih (Nat.xor_lt_two_pow hhalf hpoly)
    · exact ih hhalf

theorem crcFeed_lt {poly : Nat} (hpoly : poly < 2 ^ 32) (bs : List Byte) {c : Nat} (hc : c < 2 ^ 32) : crcFeed poly bs c < 2 ^ 32 := by
  induction bs generalizing c with
  | nil => exact hc
  | cons b bs ih => exact ih (crcShift_lt hpoly 8 (Nat.xor_lt_two_pow hc (b.isLt.trans (by decide))))

theorem crc32_lt (bs : List Byte) : crc32 bs < 2 ^ 32 := Nat.xor_lt_two_pow (crcFeed_lt (by decide) bs (by decide)) (by decide)

/-! #### The forms of a block (07 R221) -/

theorem codecRaw_length (raw : List Byte) : (codecRaw raw).length = 16 + 16 * ceilDiv raw.length 16 := by
  rw [codecRaw, List.length_append, codecHeader_length, padTo_length]

theorem codecDecode_codecRaw {raw : List Byte} (hpos : 1 ≤ raw.length) (hmax : raw.length ≤ 4096) :
    codecDecode (codecRaw raw) = some raw := by
  have hlen := padTo_length raw
  refine codecDecode_header hpos hmax (by decide) (Nat.zero_le _) (by rw [hlen, ceilDiv]; omega) (by rw [hlen]; omega) (crc32_lt raw) ?_
  rw [codecPayload, if_pos rfl, if_pos ⟨hlen, rfl⟩, padTo, List.take_left]

/-- The token plane of a candidate: it holds every bit. -/
def tokenPlane (n : Nat) (bits : List Bool) : List Byte :=
  if (packBits n bits).length * 8 < bits.length then packBits bits.length bits else packBits n bits

theorem unpackBits_tokenPlane (n : Nat) (bits : List Bool) : ∃ k, unpackBits (tokenPlane n bits) = bits ++ List.replicate k false := by
  unfold tokenPlane
  split
  · exact unpackBits_packBits (le_packBits_length (by omega))
  · exact unpackBits_packBits (by omega)

/-- The planes of raw bytes, packed one behind the other with anything behind, decode to them. -/
theorem codecPayload_planes {raw : List Byte} {k : Nat} {t : CodecTable} (hpos : 1 ≤ raw.length) (htable : codecTables[k]? = some t)
    (hwhole : raw.length % t.size = 0) {tok man : List Byte} {i j : Nat} (rest : List Byte)
    (htok : unpackBits tok = (encodeElems t 0 (elemsOf t.size raw.length raw)).1 ++ List.replicate i false)
    (hman : unpackBits man = (encodeElems t 0 (elemsOf t.size raw.length raw)).2 ++ List.replicate j false) :
    codecPayload raw.length k tok.length (tok ++ (man ++ rest)) = some raw := by
  have hfits := codecTables_fits t (List.mem_of_getElem? htable)
  have hsize : 0 < t.size := by
    simp only [CodecTable.fits, Bool.and_eq_true, decide_eq_true_eq] at hfits
    exact hfits.1
  have hk : k ≠ 15 := by
    obtain ⟨hlt, -⟩ := List.getElem?_eq_some_iff.1 htable
    exact (hlt.trans (by decide)).ne
  have hquot : raw.length / t.size * t.size = raw.length := Nat.div_mul_cancel (Nat.dvd_of_mod_eq_zero hwhole)
  obtain ⟨hcount, hsmall, hback⟩ := elemsOf_spec hsize (raw.length / t.size) hquot.symm le_rfl
  have hsome : 0 < raw.length / t.size := Nat.pos_of_mul_pos_right (hquot.symm ▸ hpos : 0 < raw.length / t.size * t.size)
  have hread := readElems_encodeElems hfits hsmall 0 (by omega) (fuel := raw.length + 1)
    (by rw [hcount]; exact Nat.lt_succ_of_le (Nat.div_le_self ..)) (List.replicate i false) (List.replicate j false ++ unpackBits rest)
  rw [← htok, ← List.append_assoc, ← hman, ← unpackBits_append, hcount, Nat.zero_add, List.replicate_zero, List.nil_append] at hread
  unfold codecPayload
  simp only [if_neg hk, htable, hwhole, List.take_left, List.drop_left, hread, hback]
  simp

/-- A candidate is a header and a payload of the stated size, and the payload decodes to the raw bytes. -/
theorem codecTry_spec {raw : List Byte} {k : Nat} {t : CodecTable} {c : CodecTry} (hpos : 1 ≤ raw.length)
    (htable : codecTables[k]? = some t) (h : codecTry raw k t = some c) :
    ∃ pay tok, c.block = codecHeader raw.length pay.length k tok (crc32 raw) ++ pay ∧ c.padded = 16 + pay.length ∧
      pay.length % 16 = 0 ∧ tok ≤ pay.length ∧ codecPayload raw.length k tok pay = some raw := by
  unfold codecTry at h
  split at h
  · exact absurd h (by simp)
  · next hwhole =>
    obtain ⟨i, hi⟩ := unpackBits_tokenPlane raw.length.succ.succ (encodeElems t 0 (elemsOf t.size raw.length raw)).1
    obtain ⟨j, hj⟩ := unpackBits_packBits
      (le_packBits_length (n := (encodeElems t 0 (elemsOf t.size raw.length raw)).2.length + 1)
        (bs := (encodeElems t 0 (elemsOf t.size raw.length raw)).2) (by omega))
    obtain rfl := Option.some.inj h
    refine ⟨_, _, rfl, rfl, by rw [padTo_length]; omega, ?_, ?_⟩
    · change (tokenPlane _ _).length ≤ _
      rw [padTo, List.append_assoc, List.length_append]
      exact Nat.le_add_right ..
    · rw [padTo, List.append_assoc]
      exact codecPayload_planes hpos htable (not_not.1 hwhole) _ hi hj

/-- The best candidate is one of the candidates. -/
theorem codecBest_mem {raw : List Byte} {ts : List CodecTable} {k : Nat} {c : CodecTry} (h : codecBest raw k ts = some c) :
    ∃ i t, ts[i]? = some t ∧ codecTry raw (k + i) t = some c := by
  induction ts generalizing k with
  | nil => exact absurd h (by simp [codecBest])
  | cons t ts ih =>
    have hor : codecTry raw k t = some c ∨ codecBest raw (k + 1) ts = some c := by
      rw [codecBest] at h
      unfold codecBetter at h
      split at h
      · exact .inr h
      · exact .inl h
      · next x y hx hy =>
        split at h
        · exact .inr (hy.trans h)
        · exact .inl (hx.trans h)
    rcases hor with hfirst | hrest
    · exact ⟨0, t, rfl, hfirst⟩
    · obtain ⟨i, u, hi, hu⟩ := ih hrest
      exact ⟨i + 1, u, hi, by rwa [show k + (i + 1) = k + 1 + i by omega]⟩

/-- The encoder answers the raw form, or the shorter block of a table. -/
theorem codecEncode_cases (raw : List Byte) :
    codecEncode raw = (codecRaw raw, true) ∨
      ∃ c k t, codecTables[k]? = some t ∧ codecTry raw k t = some c ∧ c.padded < (codecRaw raw).length ∧
        codecEncode raw = (c.block, false) := by
  unfold codecEncode
  split
  · next c hc =>
    split
    · next hshort =>
      obtain ⟨k, t, hk, ht⟩ := codecBest_mem hc
      rw [Nat.zero_add] at ht
      exact .inr ⟨c, k, t, hk, ht, hshort, rfl⟩
    · exact .inl rfl
  · exact .inl rfl

theorem codecDecode_codecEncode {raw : List Byte} (hpos : 1 ≤ raw.length) (hmax : raw.length ≤ 4096) :
    codecDecode (codecEncode raw).1 = some raw := by
  rcases codecEncode_cases raw with h | ⟨c, k, t, hk, ht, hshort, h⟩
  · rw [h]
    exact codecDecode_codecRaw hpos hmax
  · obtain ⟨pay, tok, hblock, hpadded, hpad, htok, hout⟩ := codecTry_spec hpos hk ht
    obtain ⟨hlt, -⟩ := List.getElem?_eq_some_iff.1 hk
    rw [codecRaw_length, hpadded, ceilDiv] at hshort
    rw [h, hblock]
    exact codecDecode_header hpos hmax (hlt.trans (by decide)) htok (by omega) hpad (crc32_lt raw) hout

theorem codecEncode_length {raw : List Byte} (hpos : 1 ≤ raw.length) :
    (codecEncode raw).1.length ≤ 16 + 16 * ceilDiv raw.length 16 ∧
      ((codecEncode raw).2 = false → (codecEncode raw).1.length < 16 + 16 * ceilDiv raw.length 16) := by
  rw [← codecRaw_length]
  rcases codecEncode_cases raw with h | ⟨c, k, t, hk, ht, hshort, h⟩
  · rw [h]
    exact ⟨le_rfl, fun hcoded => Bool.noConfusion hcoded⟩
  · obtain ⟨pay, tok, hblock, hpadded, -⟩ := codecTry_spec hpos hk ht
    have hlen : c.block.length = c.padded := by rw [hblock, List.length_append, codecHeader_length, hpadded]
    rw [h, hlen]
    exact ⟨hshort.le, fun _ => hshort⟩

/-- Settles O42: the decoder reads back what the encoder wrote, and the encoder takes a table's block only where it is shorter. -/
theorem codecRoundTrip : Obligations.CodecRoundTrip :=
  ⟨fun _ => codecDecode_codecEncode, fun _ hpos _ => codecEncode_length hpos⟩

end Sys2Proof.Machine
end

/-! ### A codec block whose source waits in a write-combining entry (07 R204, R205, R216)

A byte marked poisoned and written since stands in a write-combining entry, over its mark; reading the line flushes the entry, and the
byte stored takes the mark away. The engine reads its source so. The statement wants every mark kept, and has no premise that the
write-combining buffer is empty. -/

section
namespace Sys2Proof.Machine

/-- A stream of 32 bytes of HBM from 0x1000 to encode for 0x1800, its transfer issued. -/
def streamFromHbm : DollyJob :=
  ⟨.encode, true, none, [], [⟨0x1000, 0x1800, 32, 0⟩], ⟨0x1000, 0x1800, 32, 0⟩, 0, 0, 1⟩

/-- The device with that stream at the encoder of engine 0, whose controller is trained; the byte at 0x1000 is marked poisoned, and a
write-combining entry of its line holds a newer one. -/
def markUnderEntry : State :=
  { State.reset with
    regs := [(hbmReg 0 8, 1)]
    tiles := [(0, { dolly := [⟨0, 0, 1, [streamFromHbm], none, true, 0, .none⟩] })]
    mem := { MemS.reset with codecIn := [(0, [⟨0, 0, 0, 0⟩])], poison := [(0x1000, true)], wc := [⟨0x40, 1, 5, 0⟩] } }

theorem exec_codecBlockEncode {e : Fin 16} {src dst len : Nat} {b : CodecBlk} {j : DollyJob} {s : State}
    (hhead : codecHead s (2 * e.val) src dst = some (b, j)) (hlen : len = min 4096 j.stream.len) :
    exec (.codecBlockEncode e src dst len) s =
      .next (codecCount e len (codecEncode (devRead s src len)).1.length (codecEncode (devRead s src len)).2
        (putOut (2 * e.val) b ⟨b, dst, (codecEncode (devRead s src len)).1, devPoisoned s src len⟩ j (src + len)
          (dst + (codecEncode (devRead s src len)).1.length) len (devTouch src len s))) := by
  change execCodecBlockEncode e src dst len s = _
  simp only [execCodecBlockEncode, hhead, ne_eq, hlen, not_true_eq_false, if_false]

theorem codecHead_markUnderEntry : codecHead markUnderEntry 0 0x1000 0x1800 = some (⟨0, 0, 0, 0⟩, streamFromHbm) := by decide +kernel

/-- What the engine counts touches no mark. -/
theorem poison_codecCount (e raw coded : Nat) (isRaw : Bool) (s : State) : (codecCount e raw coded isRaw s).mem.poison = s.mem.poison := by
  unfold codecCount
  cases isRaw <;> rfl

/-- The engine's read of its source takes the mark away, whatever block it puts out. -/
theorem poison_putOut_markUnderEntry (o : CodecOut) (dst : Nat) :
    (putOut 0 ⟨0, 0, 0, 0⟩ o streamFromHbm 0x1020 dst 32 (devTouch 0x1000 32 markUnderEntry)).mem.poison = [] := by rfl

/-- Refutes O43: in `markUnderEntry` the encoder's read of its source takes the mark away. -/
theorem not_codecBlocksInMemory : ¬ Obligations.CodecBlocksInMemory := by
  rintro ⟨hencode, -⟩
  have hlen : 32 = min 4096 streamFromHbm.stream.len := by decide
  obtain ⟨u, hrun, -, -, hpoison, -⟩ :=
    hencode 0 0x1000 0x1800 32 _ _ markUnderEntry codecHead_markUnderEntry hlen (by decide) (by decide)
  rw [exec_codecBlockEncode codecHead_markUnderEntry hlen] at hrun
  obtain rfl := Host.Outcome.next.inj hrun
  rw [poison_codecCount] at hpoison
  exact List.cons_ne_nil _ _ (hpoison.symm.trans (poison_putOut_markUnderEntry _ _))

end Sys2Proof.Machine
end

/-! ### HBM: the write-combining buffer and reads (07 R202–R206)

What a reader sees does not change where an entry is flushed: its bytes go to where it stood. A read of a burst flushes and counts; one
that fails marks what no entry covers. -/

section
namespace Sys2Proof.Machine

/-! #### What a reader sees (07 R204) -/

theorem memSame.refl (s : State) : memSame s s := fun _ => rfl

theorem memSame.trans {s t u : State} (h : memSame s t) (h' : memSame t u) : memSame s u := fun a => (h' a).trans (h a)

/-- A reader looks at the entries and the bytes alone. -/
theorem memSame_of_parts {s t : State} (hwc : t.mem.wc = s.mem.wc) (hbytes : t.mem.bytes = s.mem.bytes) : memSame s t := fun a => by
  unfold memByte wcFind
  rw [hwc, hbytes]

theorem memSame_of_mem_eq {s t : State} (h : t.mem = s.mem) : memSame s t := fun a => memByte_congr h a

theorem memSame.memRead_eq {s t : State} (h : memSame s t) (a k : Nat) : memRead t a k = memRead s a k :=
  memRead_congr fun i _ => h (a + i)

theorem wcFind_congr {s t : State} (h : t.mem.wc = s.mem.wc) (line : Nat) : wcFind t line = wcFind s line := by
  unfold wcFind
  rw [h]

theorem line_of_wcFind {s : State} {line : Nat} {e : WcEntry} (h : wcFind s line = some e) : e.line = line := by
  simpa using List.find?_some h

theorem memPoisoned_eq_true_iff {s : State} {a n : Nat} :
    memPoisoned s a n = true ↔ ∃ x ∈ s.mem.poison, (a ≤ x.1 ∧ x.1 < a + n) ∧ wcCovers s x.1 = false := by
  simp [memPoisoned]

theorem wcCovers_of_wcFind {s : State} {a : Nat} (h : wcFind s (a / 64) = none) : wcCovers s a = false := by
  rw [wcCovers, h]

/-! #### Marks (07 R206) -/

theorem mem_of_tabFind {α : Type} {t : Tab α} {k : Nat} {v : α} (h : tabFind t k = some v) : (k, v) ∈ t := by
  induction t with
  | nil => exact absurd h (by simp [tabFind])
  | cons x t ih =>
    obtain ⟨j, w⟩ := x
    rw [tabFind] at h
    split at h
    · next hk =>
      obtain rfl := Option.some.inj h
      rw [hk]
      exact List.mem_cons_self
    · exact List.mem_cons_of_mem _ (ih h)

/-- Each byte of a range that is marked has its mark. -/
theorem mem_poison_memMark {a n k : Nat} (s : State) (h : a ≤ k ∧ k < a + n) : ∃ v, (k, v) ∈ (memMark a n s).mem.poison := by
  have hget : tabGet (fun _ => false) (memMark a n s).mem.poison k = true := by
    change tabGet _ (tabSetMany _ s.mem.poison a (List.replicate n true)) k = true
    rw [tabGet_tabSetMany, List.length_replicate, if_pos h, List.getD_eq_getElem _ _ (by rw [List.length_replicate]; omega),
      List.getElem_replicate]
  unfold tabGet at hget
  obtain ⟨v, hv⟩ : ∃ v, tabFind (memMark a n s).mem.poison k = some v := by
    cases hfind : tabFind (memMark a n s).mem.poison k with
    | none => simp [hfind] at hget
    | some v => exact ⟨v, rfl⟩
  exact ⟨v, mem_of_tabFind hv⟩

/-- A store takes the marks of its bytes away. -/
theorem memPoisoned_memPut (a : Nat) (bs : List Byte) (s : State) : memPoisoned (memPut a bs s) a bs.length = false := by
  rw [Bool.eq_false_iff]
  intro h
  obtain ⟨x, hx, hrange, -⟩ := memPoisoned_eq_true_iff.1 h
  simp only [memPut, List.mem_filter] at hx
  simp [hrange] at hx

/-! #### Flushing an entry (07 R205) -/

/-- Of memory the bytes of an entry and their marks change. -/
theorem wcStore_frame (e : WcEntry) (n : Nat) (s : State) :
    wcStore e n s = { s with mem := { s.mem with bytes := (wcStore e n s).mem.bytes, poison := (wcStore e n s).mem.poison } } := by
  induction n generalizing s with
  | zero => rfl
  | succ n ih =>
    rw [wcStore, ih]
    split <;> rfl

theorem wcFlush_frame (e : WcEntry) (s : State) :
    wcFlush e s = { s with mem := { s.mem with
      bytes := (wcFlush e s).mem.bytes, poison := (wcFlush e s).mem.poison, wc := s.mem.wc.filter fun x => decide (x.line ≠ e.line) } } :=
  wcStore_frame ..

/-- The bytes that the mask selects are stored, each at its offset. -/
theorem tabGet_bytes_wcStore (e : WcEntry) (n : Nat) (s : State) (a : Nat) :
    tabGet memDefault (wcStore e n s).mem.bytes a =
      if 64 * e.line ≤ a ∧ a < 64 * e.line + n ∧ e.mask.getLsbD (a - 64 * e.line) = true then e.data.extractLsb' (8 * (a - 64 * e.line)) 8
      else tabGet memDefault s.mem.bytes a := by
  induction n generalizing s with
  | zero => rw [if_neg (by omega)]; rfl
  | succ n ih =>
    rw [wcStore, ih]
    by_cases hlast : a = 64 * e.line + n
    · subst hlast
      rw [if_neg (by omega), Nat.add_sub_cancel_left]
      cases hmask : e.mask.getLsbD n
      · simp
      · rw [if_pos rfl, if_pos ⟨by omega, by omega, rfl⟩]
        change tabGet memDefault (tabSetMany memDefault s.mem.bytes _ [_]) _ = _
        rw [tabGet_tabSetMany, if_pos (by simp)]
        simp
    · have hbefore : tabGet memDefault (if e.mask.getLsbD n = true then
          memPut (64 * e.line + n) [e.data.extractLsb' (8 * n) 8] s else s).mem.bytes a = tabGet memDefault s.mem.bytes a := by
        split
        · change tabGet memDefault (tabSetMany memDefault s.mem.bytes _ [_]) _ = _
          rw [tabGet_tabSetMany, if_neg (by simp; omega)]
        · rfl
      have hrange : (64 * e.line ≤ a ∧ a < 64 * e.line + n ∧ e.mask.getLsbD (a - 64 * e.line) = true) ↔
          (64 * e.line ≤ a ∧ a < 64 * e.line + (n + 1) ∧ e.mask.getLsbD (a - 64 * e.line) = true) := by
        constructor
        · rintro ⟨h1, h2, h3⟩
          exact ⟨h1, by omega, h3⟩
        · rintro ⟨h1, h2, h3⟩
          exact ⟨h1, by omega, h3⟩
      rw [hbefore]
      simp only [hrange]

theorem wcFind_wcFlush (e : WcEntry) (s : State) (line : Nat) :
    wcFind (wcFlush e s) line = if line = e.line then none else wcFind s line := by
  have hwc : (wcFlush e s).mem.wc = s.mem.wc.filter fun x => decide (x.line ≠ e.line) := by rw [wcFlush_frame]
  unfold wcFind
  rw [hwc, List.find?_filter]
  split
  · next h =>
    rw [List.find?_eq_none]
    intro x _
    simp [h]
  · next h =>
    congr 1
    funext x
    by_cases hx : x.line = line <;> simp [hx, h]

/-- Flushing the entry that a line shows changes nothing for a reader. -/
theorem memSame_wcFlush {e : WcEntry} {s : State} (h : wcFind s e.line = some e) : memSame s (wcFlush e s) := fun a => by
  unfold memByte
  rw [wcFind_wcFlush]
  have hbytes : tabGet memDefault (wcFlush e s).mem.bytes a =
      if 64 * e.line ≤ a ∧ a < 64 * e.line + 64 ∧ e.mask.getLsbD (a - 64 * e.line) = true then e.data.extractLsb' (8 * (a - 64 * e.line)) 8
      else tabGet memDefault s.mem.bytes a := tabGet_bytes_wcStore e 64 _ a
  by_cases hline : a / 64 = e.line
  · have hoff : a - 64 * e.line = a % 64 := by omega
    have hlow : 64 * e.line ≤ a := by omega
    have hhigh : a < 64 * e.line + 64 := by omega
    rw [if_pos hline, hline, h]
    dsimp only
    rw [hbytes, hoff]
    simp only [hlow, hhigh, true_and]
  · rw [if_neg hline]
    rw [if_neg (by omega)] at hbytes
    cases wcFind s (a / 64) with
    | none => exact hbytes
    | some x => simp only [hbytes]

/-- Marks of bytes that the entry does not cover stay. -/
theorem mem_poison_wcStore {e : WcEntry} {n k : Nat} {v : Bool} {s : State} (hk : e.mask.getLsbD k = false)
    (h : (64 * e.line + k, v) ∈ s.mem.poison) : (64 * e.line + k, v) ∈ (wcStore e n s).mem.poison := by
  induction n generalizing s with
  | zero => exact h
  | succ n ih =>
    rw [wcStore]
    refine ih ?_
    split
    · next hn =>
      have hne : k ≠ n := by rintro rfl; rw [hk] at hn; exact absurd hn (by decide)
      simp only [memPut, List.mem_filter, h, true_and]
      simp
      omega
    · exact h

theorem mem_poison_wcFlush {e : WcEntry} {k : Nat} {v : Bool} {s : State} (hk : e.mask.getLsbD k = false)
    (h : (64 * e.line + k, v) ∈ s.mem.poison) : (64 * e.line + k, v) ∈ (wcFlush e s).mem.poison := by
  rw [wcFlush]
  apply mem_poison_wcStore hk
  exact h

theorem memSame_memMark (a n : Nat) (s : State) : memSame s (memMark a n s) := memSame_of_parts rfl rfl

theorem wcFind_memMark (a n : Nat) (s : State) (line : Nat) : wcFind (memMark a n s) line = wcFind s line := rfl

theorem memSame_wcFlushBad {e : WcEntry} {s : State} (h : wcFind s e.line = some e) : memSame s (wcFlushBad e s) := by
  rw [← wcFind_memMark (64 * e.line) 64] at h
  exact (memSame_memMark _ _ s).trans (memSame_wcFlush h)

theorem wcFind_wcFlushBad (e : WcEntry) (s : State) : wcFind (wcFlushBad e s) e.line = none := by
  rw [wcFlushBad, wcFind_wcFlush, if_pos rfl]

/-- A line that cannot be read is poisoned where the entry does not cover it. -/
theorem memPoisoned_wcFlushBad {e : WcEntry} {k : Nat} (s : State) (hk : k < 64) (hmask : e.mask.getLsbD k = false) :
    memPoisoned (wcFlushBad e s) (64 * e.line + k) 1 = true := by
  obtain ⟨v, hv⟩ := mem_poison_memMark (a := 64 * e.line) (n := 64) (k := 64 * e.line + k) s (by omega)
  have hmark : (64 * e.line + k, v) ∈ (wcFlushBad e s).mem.poison := by
    rw [wcFlushBad]
    exact mem_poison_wcFlush hmask hv
  have hline : (64 * e.line + k) / 64 = e.line := by omega
  have hfind : wcFind (wcFlushBad e s) ((64 * e.line + k) / 64) = none := by rw [hline, wcFind_wcFlushBad]
  exact memPoisoned_eq_true_iff.2 ⟨_, hmark, ⟨Nat.le_refl _, Nat.lt_succ_self _⟩, wcCovers_of_wcFind hfind⟩

theorem memSame_wcFlushLine (line : Nat) (s : State) : memSame s (wcFlushLine line s) := by
  unfold wcFlushLine
  split
  · next e h => exact memSame_wcFlush ((line_of_wcFind h).symm ▸ h)
  · exact memSame.refl s

theorem memSame_wcFlushLines (n line : Nat) (s : State) : memSame s (wcFlushLines n line s) := by
  induction n generalizing line s with
  | zero => exact memSame.refl s
  | succ n ih => exact (memSame_wcFlushLine line s).trans (ih (line + 1) _)

/-- Reading HBM changes nothing for a reader. -/
theorem memSame_memTouch (a n : Nat) (s : State) : memSame s (memTouch a n s) := by
  unfold memTouch
  split
  · exact memSame_wcFlushLines _ _ s
  · exact memSame.refl s

/-! #### What holds an access (07 R202, R226) -/

theorem hbmReg_ne (c d : Nat) {x y : Nat} (hx : x < 0x40000) (hy : y < 0x40000) (h : x ≠ y) : hbmReg c x ≠ hbmReg d y := by
  unfold hbmReg
  omega

theorem hbmPlace_congr {s t : State} (h : rdb t 0x100000 0 = rdb s 0x100000 0) (a : Nat) : hbmPlace t a = hbmPlace s a := by
  unfold hbmPlace
  rw [h]

/-- An address of HBM is held by what its own controller does. -/
theorem accessHeld_of_place {s : State} {a c : Nat} (ha : a < hbmSize) (hc : (hbmPlace s a).1 = c) :
    accessHeld s a = (!rdb s (hbmReg c 8) 0 || marginHolds s c a) := by
  rw [accessHeld, hc, decide_eq_true ha, Bool.true_and]

/-! #### Retries and errors (07 R206) -/

theorem countRetries_mem (c a n : Nat) (s : State) : ∃ l, (countRetries c a n s).mem = { s.mem with retries := l } := by
  unfold countRetries
  dsimp only
  split
  · exact ⟨_, raise_mem ..⟩
  · exact ⟨_, rfl⟩

theorem countRetries_zero (c a : Nat) (s : State) :
    ∃ l, countRetries c a 0 s = bump (hbmReg c 0x28) 0 { s with mem := { s.mem with retries := l } } :=
  ⟨_, rfl⟩

theorem countRetries_regsBut (c a n : Nat) (s : State) : regsBut [hbmReg c 0x28, hbmReg c 0xC] s (countRetries c a n s) := by
  unfold countRetries
  dsimp only
  split
  · exact regsBut.trans (regsBut.mono (bump_regsBut (hbmReg c 0x28) n _) (by simp)) (raise_regsBut (hbmReg c 0xC) 2 _) (by simp)
  · exact regsBut.mono (bump_regsBut (hbmReg c 0x28) n _) (by simp)

theorem rd_countRetries (c a n : Nat) (s : State) :
    (rd (countRetries c a n s) (hbmReg c 0x28)).toNat = min (2 ^ 32 - 1) ((rd s (hbmReg c 0x28)).toNat + n) := by
  unfold countRetries
  dsimp only
  split
  · rw [raise_regsBut _ _ _ _ (by simp [hbmReg]), rd_bump_toNat]
    rfl
  · exact rd_bump_toNat ..

section
variable (c addr : Nat) (h : c < 4) (w : FaultWork) (s : State)

theorem hbmUe_mem : (hbmUe c addr h w s).mem = s.mem := raise_mem (hbmReg c 0xC) 1 _

theorem hbmUe_tiles : (hbmUe c addr h w s).tiles = s.tiles := raise_tiles (hbmReg c 0xC) 1 _

theorem hbmUe_reports :
    (hbmUe c addr h w s).fault.reports = s.fault.reports ++ [⟨.hbm ⟨c, h⟩, false, 2, BitVec.ofNat 64 addr, w⟩] := by
  have hfault : (raise (hbmReg c 0xC) 1 (bump (hbmReg c 0x24) 1 s)).fault = s.fault := by rw [raise_frame]; rfl
  rw [hbmUe, report, hfault]

theorem hbmUe_event : rdb (hbmUe c addr h w s) (hbmReg c 0xC) 1 = true := rdb_raise (hbmReg c 0xC) 1 _ (by decide)

theorem hbmUe_regsBut : regsBut [hbmReg c 0x24, hbmReg c 0xC] s (hbmUe c addr h w s) :=
  regsBut.trans (regsBut.mono (bump_regsBut (hbmReg c 0x24) 1 s) (by simp)) (raise_regsBut (hbmReg c 0xC) 1 _) (by simp)

theorem rd_hbmUe : (rd (hbmUe c addr h w s) (hbmReg c 0x24)).toNat = min (2 ^ 32 - 1) ((rd s (hbmReg c 0x24)).toNat + 1) := by
  have hraise : rd (hbmUe c addr h w s) (hbmReg c 0x24) = rd (bump (hbmReg c 0x24) 1 s) (hbmReg c 0x24) :=
    raise_regsBut (hbmReg c 0xC) 1 _ _ (by simp [hbmReg])
  rw [hraise, rd_bump_toNat]

end

/-! #### A burst is read (07 R205, R206) -/

/-- The state once a read of the burst at `a` that needs no retry has flushed its line. -/
def burstTaken (c a : Nat) (s : State) : State := memTouch a 32 (countRetries c a 0 s)

/-- A read that needs neither retry nor correction answers what the flush leaves. -/
theorem readBurst_clean {r : HeldRead} (hok : r.ok = true) (hret : r.retries = 0) (hcor : r.corrected = false) (s : State) :
    readBurst r s =
      emit (.memData (memRead (burstTaken r.ctl (r.addr / 32 * 32) s) (r.addr / 32 * 32) 32)
        (memPoisoned (burstTaken r.ctl (r.addr / 32 * 32) s) (r.addr / 32 * 32) 32)) (burstTaken r.ctl (r.addr / 32 * 32) s) := by
  have hnone : retriesOf s r.ctl.val r.retries true = 0 := by rw [retriesOf, if_pos rfl, hret, Nat.zero_min]
  simp only [readBurst, hnone, hok, hcor, burstTaken, if_true, Bool.false_or, Nat.lt_irrefl, decide_false, Bool.false_eq_true, if_false]

theorem memSame_burstTaken (c a : Nat) (s : State) : memSame s (burstTaken c a s) := by
  obtain ⟨l, hmem⟩ := countRetries_mem c a 0 s
  exact (memSame_of_parts (by rw [hmem]) (by rw [hmem])).trans (memSame_memTouch a 32 _)

/-- A read counts no retry, and registers keep what they held. -/
theorem regs_burstTaken (c a : Nat) (s : State) : ∀ o, o ≠ hbmReg c 0x28 → rd (burstTaken c a s) o = rd s o := fun o ho => by
  obtain ⟨l, hcount⟩ := countRetries_zero c a s
  have htouch : Does [.mem] (countRetries c a 0 s) (burstTaken c a s) := memTouch_does (Does.refl _ _) rfl
  rw [rd_congr (htouch.same .regs (by decide)), hcount, rd_bump, if_neg ho]
  rfl

theorem readBurst_clean_shows {r : HeldRead} (hok : r.ok = true) (hret : r.retries = 0) (hcor : r.corrected = false) (s : State) :
    (readBurst r s).out = s.out ++ [.memData (memRead s (r.addr / 32 * 32) 32) (memPoisoned (readBurst r s) (r.addr / 32 * 32) 32)] ∧
      (readBurst r s).tiles = s.tiles ∧ memSame s (readBurst r s) := by
  rw [readBurst_clean hok hret hcor]
  obtain ⟨l, hcount⟩ := countRetries_zero r.ctl (r.addr / 32 * 32) s
  have htouch : Does [.mem] (countRetries r.ctl (r.addr / 32 * 32) 0 s) (burstTaken r.ctl (r.addr / 32 * 32) s) :=
    memTouch_does (Does.refl _ _) rfl
  have hsame := memSame_burstTaken r.ctl (r.addr / 32 * 32) s
  have hout : (burstTaken r.ctl (r.addr / 32 * 32) s).out = s.out := by rw [htouch.same .out (by decide), hcount]; rfl
  have htiles : (burstTaken r.ctl (r.addr / 32 * 32) s).tiles = s.tiles := by rw [htouch.same .tiles (by decide), hcount]; rfl
  rw [hsame.memRead_eq]
  generalize burstTaken r.ctl (r.addr / 32 * 32) s = u at *
  exact ⟨by rw [← hout]; rfl, htiles, hsame⟩

/-- The state once a read of the burst at `a` has failed every retry allowed. -/
def burstFailed (c : Fin 4) (a : Nat) (w : FaultWork) (s : State) : State :=
  hbmUe c a c.isLt w (markFailed a (countRetries c a (rdf s (hbmReg c 0x1C) 3 0) s))

theorem readBurst_failed {r : HeldRead} (hok : r.ok = false) (s : State) :
    readBurst r s =
      emit (.memData (memRead (burstFailed r.ctl (r.addr / 32 * 32) r.work s) (r.addr / 32 * 32) 32)
        (memPoisoned (burstFailed r.ctl (r.addr / 32 * 32) r.work s) (r.addr / 32 * 32) 32))
        (burstFailed r.ctl (r.addr / 32 * 32) r.work s) := by
  simp only [readBurst, retriesOf, hok, burstFailed, Bool.false_eq_true, if_false]

/-- What a failed read leaves in memory: a reader sees the same bytes, the line has no entry, and without one before the burst is
poisoned. -/
theorem markFailed_shows (a : Nat) (s : State) :
    memSame s (markFailed a s) ∧ wcFind (markFailed a s) (a / 64) = none ∧
      (wcFind s (a / 64) = none → a % 32 = 0 → memPoisoned (markFailed a s) a 32 = true) := by
  unfold markFailed
  cases hfind : wcFind s (a / 64) with
  | some e =>
    have hline := line_of_wcFind hfind
    rw [← hline] at hfind ⊢
    exact ⟨memSame_wcFlushBad hfind, wcFind_wcFlushBad e s, fun h => absurd h (by simp)⟩
  | none =>
    have hmarked : wcFind (memMark (a / 32 * 32) 32 s) (a / 64) = none := (wcFind_memMark ..).trans hfind
    refine ⟨memSame_memMark _ _ s, hmarked, fun _ hburst => ?_⟩
    obtain ⟨v, hv⟩ := mem_poison_memMark (a := a / 32 * 32) (n := 32) (k := a) s (by omega)
    exact memPoisoned_eq_true_iff.2 ⟨(a, v), hv, ⟨Nat.le_refl _, Nat.lt_add_of_pos_right (by decide)⟩, wcCovers_of_wcFind hmarked⟩

theorem wcFind_of_mem_eq {s t : State} (h : t.mem = s.mem) (line : Nat) : wcFind t line = wcFind s line := wcFind_congr (by rw [h]) line

theorem memPoisoned_of_mem_eq {s t : State} (h : t.mem = s.mem) (a n : Nat) : memPoisoned t a n = memPoisoned s a n := by
  unfold memPoisoned wcCovers wcFind
  rw [h]

theorem burstFailed_shows (c : Fin 4) {a : Nat} (ha : a % 32 = 0) (w : FaultWork) (s : State) :
    (wcFind s (a / 64) = none → memPoisoned (burstFailed c a w s) a 32 = true) ∧ wcFind (burstFailed c a w s) (a / 64) = none ∧
      (burstFailed c a w s).fault.reports = s.fault.reports ++ [⟨.hbm c, false, 2, BitVec.ofNat 64 a, w⟩] ∧
      rdb (burstFailed c a w s) (hbmReg c 0xC) 1 = true ∧
      (rd (burstFailed c a w s) (hbmReg c 0x24)).toNat = min (2 ^ 32 - 1) ((rd s (hbmReg c 0x24)).toNat + 1) ∧
      (rd (burstFailed c a w s) (hbmReg c 0x28)).toNat =
        min (2 ^ 32 - 1) ((rd s (hbmReg c 0x28)).toNat + rdf s (hbmReg c 0x1C) 3 0) ∧
      (burstFailed c a w s).tiles = s.tiles ∧ memSame s (burstFailed c a w s) := by
  have hcounted : Does [.regs, .funcs, .mem, .out] s (countRetries c a (rdf s (hbmReg c 0x1C) 3 0) s) := countRetries_does (Does.refl _ _) rfl
  have hregs := countRetries_regsBut c a (rdf s (hbmReg c 0x1C) 3 0) s
  have hretries := rd_countRetries c a (rdf s (hbmReg c 0x1C) 3 0) s
  obtain ⟨l, hmem⟩ := countRetries_mem c a (rdf s (hbmReg c 0x1C) 3 0) s
  have hbefore : memSame s (countRetries c a (rdf s (hbmReg c 0x1C) 3 0) s) := memSame_of_parts (by rw [hmem]) (by rw [hmem])
  have hentry : wcFind (countRetries c a (rdf s (hbmReg c 0x1C) 3 0) s) (a / 64) = wcFind s (a / 64) := wcFind_congr (by rw [hmem]) _
  unfold burstFailed
  generalize countRetries c a (rdf s (hbmReg c 0x1C) 3 0) s = u at *
  have hmarked : Does [.mem] u (markFailed a u) := markFailed_does (Does.refl _ _) rfl
  obtain ⟨hsame, hgone, hpoison⟩ := markFailed_shows a u
  have hrest : ∀ o, rd (markFailed a u) o = rd u o := rd_congr (hmarked.same .regs (by decide))
  have hfault : (markFailed a u).fault = s.fault := (hmarked.same .fault (by decide)).trans (hcounted.same .fault (by decide))
  have htiles : (markFailed a u).tiles = s.tiles := (hmarked.same .tiles (by decide)).trans (hcounted.same .tiles (by decide))
  have hue := hbmUe_mem c a c.isLt w (markFailed a u)
  refine ⟨fun h => ?_, (wcFind_of_mem_eq hue _).trans hgone, ?_, hbmUe_event .., ?_, ?_, (hbmUe_tiles ..).trans htiles,
    (hbefore.trans hsame).trans (memSame_of_mem_eq hue)⟩
  · rw [memPoisoned_of_mem_eq hue]
    exact hpoison (hentry.trans h) ha
  · rw [hbmUe_reports, hfault]
  · rw [rd_hbmUe, hrest, hregs _ (by simp [hbmReg])]
  · rw [hbmUe_regsBut _ _ _ _ _ _ (by simp [hbmReg]), hrest, hretries]

/-! #### The commands (07 R202, R205, R215) -/

theorem exec_hbmRead {c : Fin 4} {addr retries : Nat} {ok corrected : Bool} {work : FaultWork} {s : State} (ha : addr < hbmSize)
    (hc : (hbmPlace s addr).1 = c.val) :
    exec (.hbmRead c addr retries ok corrected work) s =
      .next (if (!rdb s (hbmReg c 8) 0 || marginHolds s c addr) = true then
          { s with mem := { s.mem with heldReads := s.mem.heldReads ++ [⟨c, addr, retries, ok, corrected, work⟩] } }
        else readBurst ⟨c, addr, retries, ok, corrected, work⟩ s) := by
  change execHbmRead c addr retries ok corrected work s = _
  rw [execHbmRead, if_neg (by omega), accessHeld_of_place ha hc]

theorem exec_hbmRead_of_free {c : Fin 4} {addr retries : Nat} {ok corrected : Bool} {work : FaultWork} {s : State} (ha : addr < hbmSize)
    (hc : (hbmPlace s addr).1 = c.val) (htrained : rdb s (hbmReg c 8) 0 = true) (hmargin : marginHolds s c addr = false) :
    exec (.hbmRead c addr retries ok corrected work) s = .next (readBurst ⟨c, addr, retries, ok, corrected, work⟩ s) := by
  rw [exec_hbmRead ha hc, htrained, hmargin, if_neg (by decide)]

theorem find?_eq_some_of_imp {α : Type} {p q : α → Bool} {l : List α} {x : α} (h : l.find? p = some x) (hx : q x = true)
    (himp : ∀ y, q y = true → p y = true) : l.find? q = some x := by
  obtain ⟨-, before, after, rfl, hbefore⟩ := List.find?_eq_some_iff_append.1 h
  refine List.find?_eq_some_iff_append.2 ⟨hx, before, after, rfl, fun y hy => ?_⟩
  have hp := hbefore y hy
  cases hq : q y
  · rfl
  · rw [himp y hq] at hp
    exact absurd hp (by decide)

/-- The oldest entry of a channel is what its line shows: entries of one line are of one channel. -/
theorem wcFind_of_oldestEntry {s : State} {c channel : Nat} {e : WcEntry} (h : oldestEntry s c channel = some e) :
    wcFind s e.line = some e := by
  have hplace := List.find?_some h
  refine find?_eq_some_of_imp h (decide_eq_true rfl) fun y hy => ?_
  rw [of_decide_eq_true hy]
  exact hplace

/-- The device when the entry has aged, memory as it was. -/
def agedAt (c : Fin 4) (e : WcEntry) (s : State) : State := runToClk (e.born + rdf s (hbmReg c 0x14) 7 0 * 8) s

theorem exec_wcAgeExpiry {c : Fin 4} {channel : Fin 16} {lineOk : Bool} {e : WcEntry} {s : State} (hold : oldestEntry s c channel = some e)
    (hfree : accessHeld s (64 * e.line) = false) :
    exec (.wcAgeExpiry c ⟨channel, lineOk⟩) s = .next (flushAged c e lineOk (agedAt c e s)) := by
  change execWcAgeExpiry c ⟨channel, lineOk⟩ s = _
  simp only [execWcAgeExpiry, hold, hfree, Bool.false_eq_true, if_false, agedAt]

theorem exec_exactAliasWrite {slot : Nat} {data : BitVec 128} {s : State} (h : slot < slotCount s) :
    exec (.exactAliasWrite slot data) s = .next (memPut (slotAddr s slot) (slotInit (leBytes 16 data.toNat)) s) := by
  change execExactAliasWrite slot data s = _
  rw [execExactAliasWrite, if_pos h, aliasWrite]

theorem exec_exactAliasRead {slot : Nat} {s : State} (h : slot < slotCount s) :
    exec (.exactAliasRead slot) s =
      .next (emit (.memData (aliasRead s slot) (memPoisoned s (slotAddr s slot) 96)) { s with free := s.free + slot + 1 }) := by
  change execExactAliasRead slot s = _
  rw [execExactAliasRead, if_pos h]

theorem slotInit_length (data : List Byte) : (slotInit data).length = 96 := by simp [slotInit, zeros]

/-- Settles O13, a clause for each command and what it finds. -/
theorem memoryCommandsComplete : Obligations.MemoryCommandsComplete := by
  unfold Obligations.MemoryCommandsComplete
  refine ⟨?clean, ?failed, ?held, ?aged, ?agedBad, ?aliasWrite, ?aliasRead⟩
  case clean =>
    intro c addr work s ha hc htrained hmargin
    exact ⟨_, exec_hbmRead_of_free ha hc htrained hmargin, readBurst_clean_shows rfl rfl rfl s⟩
  case failed =>
    intro c addr retries corrected work s ha hc htrained hmargin
    have hline : addr / 32 * 32 / 64 = addr / 64 := by omega
    have hshows := burstFailed_shows c (a := addr / 32 * 32) (by omega) work s
    rw [hline] at hshows
    refine ⟨_, exec_hbmRead_of_free ha hc htrained hmargin, ?_⟩
    rw [readBurst_failed rfl]
    exact hshows
  case held =>
    intro c addr retries ok corrected work s ha hc hheld
    have hwaits : (!rdb s (hbmReg c 8) 0 || marginHolds s c addr) = true := by
      rcases hheld with h | h <;> simp [h]
    rw [exec_hbmRead ha hc, if_pos hwaits]
  case aged =>
    intro c channel e s hold hfree
    have hclock : Does [.clk, .time] s (agedAt c e s) := runToClk_same _ s
    have hmem := hclock.same .mem (by decide)
    have hflush : Does [.mem] (agedAt c e s) (wcFlush e (agedAt c e s)) := wcFlush_does (Does.refl _ _) rfl
    have hfind := (wcFind_of_mem_eq hmem e.line).trans (wcFind_of_oldestEntry hold)
    exact ⟨_, exec_wcAgeExpiry hold hfree, by rw [flushAged, if_pos rfl, wcFind_wcFlush, if_pos rfl],
      (hflush.same .regs (by decide)).trans (hclock.same .regs (by decide)),
      (hflush.same .tiles (by decide)).trans (hclock.same .tiles (by decide)), (memSame_of_mem_eq hmem).trans (memSame_wcFlush hfind)⟩
  case agedBad =>
    intro c channel e s hold hfree
    have hclock : Does [.clk, .time] s (agedAt c e s) := runToClk_same _ s
    have hmem := hclock.same .mem (by decide)
    have hflush : Does [.mem] (agedAt c e s) (wcFlushBad e (agedAt c e s)) := wcFlushBad_does (Does.refl _ _) rfl
    have hfind := (wcFind_of_mem_eq hmem e.line).trans (wcFind_of_oldestEntry hold)
    have hue := hbmUe_mem c (64 * e.line) c.isLt .none (wcFlushBad e (agedAt c e s))
    have hregs : (wcFlushBad e (agedAt c e s)).regs = s.regs := (hflush.same .regs (by decide)).trans (hclock.same .regs (by decide))
    refine ⟨_, exec_wcAgeExpiry hold hfree, (wcFind_of_mem_eq hue _).trans (wcFind_wcFlushBad e _), hbmUe_event .., ?_, fun k hk hmask => ?_,
      (hbmUe_tiles ..).trans ((hflush.same .tiles (by decide)).trans (hclock.same .tiles (by decide))),
      (memSame_of_mem_eq hmem).trans ((memSame_wcFlushBad hfind).trans (memSame_of_mem_eq hue))⟩
    · exact (rd_hbmUe ..).trans (by rw [rd_congr hregs])
    · exact (memPoisoned_of_mem_eq hue _ _).trans (memPoisoned_wcFlushBad _ (List.mem_range.1 hk) hmask)
  case aliasWrite =>
    intro slot data s hslot hwc
    have hlen := slotInit_length (leBytes 16 data.toNat)
    have hread := memRead_memPut_same hwc (slotAddr s slot) (slotInit (leBytes 16 data.toNat))
    have hpoison := memPoisoned_memPut (slotAddr s slot) (slotInit (leBytes 16 data.toNat)) s
    have hbut := memBut_memPut (slotAddr s slot) (slotInit (leBytes 16 data.toNat)) s
    rw [hlen] at hread hpoison hbut
    exact ⟨_, exec_exactAliasWrite hslot, hread, hpoison, rfl, hbut⟩
  case aliasRead =>
    intro slot s hslot
    exact ⟨_, exec_exactAliasRead hslot, rfl⟩

end Sys2Proof.Machine
end

/-! ### Training, margining and heat of an HBM controller (07 R202, R203, R226, R227)

Each command writes registers of its controller; the reads that a controller held are made once nothing holds them. -/

section
namespace Sys2Proof.Machine

/-! #### Writes to a controller's registers -/

theorem tileBarred_hbmReg (c : Fin 4) {x : Nat} (hx : x < 0x40000) (s : State) : tileBarred s (hbmReg c x) = false := by
  have hlow : ¬ 0x200008 ≤ hbmReg c x := by unfold hbmReg; omega
  rw [tileBarred, decide_eq_false hlow, Bool.false_and, Bool.false_and]

theorem exec_hbmRateWrite {c : Fin 4} {v : Word} {s : State} {r : RegRow} (hup : hostDown s = false) (hopen : locked s = false)
    (hr : regRow (hbmReg c 4) = some r) (hw1s : r.w1s = 0) (hwo : r.wo = 0) (hrwl : r.rwl ≠ 0) :
    exec (.hbmRateWrite c v) s = .next (storeOpen (hbmReg c 4) v r s) := by
  change execHbmRateWrite c v s = _
  rw [execHbmRateWrite, hup, if_neg (by decide), regStore_eq v hr (tileBarred_hbmReg c (by decide) s) hw1s hwo, if_pos ⟨hrwl, hopen⟩]

/-- A new rate starts the training. -/
theorem writeEffect_rate (c : Fin 4) (old : Word) (s : State) : writeEffect (hbmReg c 4) old s = retrain c s := by
  have hmap : hbmReg c 4 ≠ 0x100000 := by unfold hbmReg; omega
  have hcfg : 0x100000 ≤ hbmReg c 4 ∧ hbmReg c 4 < 0x200000 ∧ (hbmReg c 4 - 0x100000) % 0x40000 = 4 := by unfold hbmReg; omega
  have hnum : (hbmReg c 4 - 0x100000) / 0x40000 = c := by unfold hbmReg; omega
  rw [writeEffect, if_neg hmap, if_pos hcfg, hnum]

theorem retrain_of_idle {c : Nat} {s : State} (h : rdb s (hbmReg c 8) 1 = false) : retrain c s = wrf (hbmReg c 8) 0 0 0 s := by
  rw [retrain, h, if_neg (by decide)]

theorem exec_marginStart {c : Fin 4} {v : Word} {s : State} {r : RegRow} (hup : hostDown s = false)
    (hr : regRow (hbmReg c 0x40) = some r) (hw1s : r.w1s = 0) (hwo : r.wo ≠ 0) (hstart : v.getLsbD 0 = true) :
    exec (.marginStart c v) s =
      .next (if locked s then aerr 1 false 0 (hbmReg c 0x40) s
        else if rdb s (hbmReg c 8) 1 then wrf (hbmReg c 8) 3 3 1 s else wrf (hbmReg c 8) 1 1 1 s) := by
  have hnum : (hbmReg c 0x40 - 0x100000) / 0x40000 = c := by unfold hbmReg; omega
  have hstore : regStore (hbmReg c 0x40) v s = marginWrite c (hbmReg c 0x40) v s := by
    simp only [regStore, hr, tileBarred_hbmReg c (show 0x40 < 0x40000 by decide) s, hw1s, hwo, hnum, ne_eq, not_true_eq_false,
      not_false_eq_true, Bool.false_eq_true, if_false, if_true]
  change execMarginStart c v s = _
  rw [execMarginStart, hup, hstore, marginWrite, if_pos hstart, if_neg (by decide)]

theorem exec_hbmStackHot {c : Fin 4} (hot : Bool) (s : State) (hc : c.val < Config.nStacks) :
    exec (.hbmStackHot c hot) s = .next (wrf (hbmReg c 8) 4 4 (bnat hot) s) := by
  change execHbmStackHot c hot s = _
  rw [execHbmStackHot, if_pos hc]

/-! #### Held reads -/

/-- No read is held any more. -/
def unheld (s : State) : State := { s with mem := { s.mem with heldReads := [] } }

theorem releaseReads_of_none {s : State} (h : s.mem.heldReads = []) : releaseReads s = s := by
  rw [releaseReads, h]
  change { s with mem := { s.mem with heldReads := [] } } = s
  rw [← h]

/-- The only read held is made once its controller holds it no more. -/
theorem releaseReads_of_one {r : HeldRead} {s : State} (h : s.mem.heldReads = [r]) (hfree : accessHeld s r.addr = false) :
    releaseReads s = readBurst r (unheld s) := by
  simp only [releaseReads, h, List.filter_cons, hfree, Bool.not_false, Bool.false_eq_true, if_true, if_false, List.filter_nil, readBursts,
    unheld]

theorem heldReads_wcFlushLine (line : Nat) (s : State) : (wcFlushLine line s).mem.heldReads = s.mem.heldReads := by
  unfold wcFlushLine
  split
  · rw [wcFlush_frame]
  · rfl

theorem heldReads_wcFlushLines (n line : Nat) (s : State) : (wcFlushLines n line s).mem.heldReads = s.mem.heldReads := by
  induction n generalizing line s with
  | zero => rfl
  | succ n ih => exact (ih (line + 1) _).trans (heldReads_wcFlushLine line s)

/-- A read of a burst holds none. -/
theorem heldReads_burstTaken (c a : Nat) (s : State) : (burstTaken c a s).mem.heldReads = s.mem.heldReads := by
  obtain ⟨l, hmem⟩ := countRetries_mem c a 0 s
  have hcounted : (countRetries c a 0 s).mem.heldReads = s.mem.heldReads := by rw [hmem]
  rw [← hcounted, burstTaken, memTouch]
  split
  · exact heldReads_wcFlushLines _ _ _
  · rfl

theorem exec_hbmTrainingDone {c : Fin 4} (s : State) (hc : c.val < Config.nStacks) :
    exec (.hbmTrainingDone c) s = .next (releaseReads (wrf (hbmReg c 8) 0 0 1 s)) := by
  change execHbmTrainingDone c s = _
  rw [execHbmTrainingDone, if_pos hc]

theorem rdb_wrf_trained (c : Nat) (s : State) : rdb (wrf (hbmReg c 8) 0 0 1 s) (hbmReg c 8) 0 = true := by
  rw [rdb_wrf _ _ _ _ _ _ _ (by decide) (by decide), if_pos ⟨rfl, by decide, by decide⟩]
  rfl

theorem marginHolds_wrf_trained (c d : Nat) (v a : Nat) (s : State) : marginHolds (wrf (hbmReg c 8) 0 0 v s) d a = marginHolds s d a := by
  have hregs := wrf_regsBut (hbmReg c 8) 0 0 v s
  have hplace : hbmPlace (wrf (hbmReg c 8) 0 0 v s) a = hbmPlace s a := hbmPlace_congr (hregs.rdb_eq (by simp [hbmReg]; omega) 0) a
  have hrun : rdb (wrf (hbmReg c 8) 0 0 v s) (hbmReg d 8) 1 = rdb s (hbmReg d 8) 1 := by
    rw [rdb_wrf _ _ _ _ _ _ _ (by decide) (by decide), if_neg (by omega)]
  simp only [marginHolds, hplace, hrun, hregs.rdf_eq (o := hbmReg d 0x44) (by simp [hbmReg]; omega)]

/-- Once its controller has trained, a read that no margining run holds is free. -/
theorem accessHeld_wrf_trained {c : Fin 4} {a : Nat} {s : State} (ha : a < hbmSize) (hc : (hbmPlace s a).1 = c.val)
    (hmargin : marginHolds s c a = false) : accessHeld (wrf (hbmReg c 8) 0 0 1 s) a = false := by
  have hplace : hbmPlace (wrf (hbmReg c 8) 0 0 1 s) a = hbmPlace s a :=
    hbmPlace_congr ((wrf_regsBut (hbmReg c 8) 0 0 1 s).rdb_eq (by simp [hbmReg]; omega) 0) a
  rw [accessHeld_of_place ha (by rw [hplace, hc]), rdb_wrf_trained, marginHolds_wrf_trained, hmargin]
  rfl

/-! #### The end of a margining run (07 R226) -/

/-- Results go to registers alone: those of the selected byte lanes among the first `n`. -/
theorem marginResults_spec (c : Nat) (pts : List (Int × BitVec 4)) (n : Nat) (hn : n ≤ 4) (s : State) :
    marginResults c pts n s = { s with regs := (marginResults c pts n s).regs } ∧
      (∀ o, (∀ b < n, o ≠ hbmReg c (0x50 + 4 * b)) → rd (marginResults c pts n s) o = rd s o) ∧
      ∀ b < n, rd (marginResults c pts n s) (hbmReg c (0x50 + 4 * b)) =
        if rdb s (hbmReg c 0x44) (7 + b) then marginWord b pts (Config.freeValue (s.free + b)) else rd s (hbmReg c (0x50 + 4 * b)) := by
  induction n generalizing s with
  | zero => exact ⟨rfl, fun _ _ => rfl, fun b hb => absurd hb (Nat.not_lt_zero b)⟩
  | succ n ih =>
    rw [marginResults]
    generalize hu : (if rdb s (hbmReg c 0x44) (7 + n) then wr (hbmReg c (0x50 + 4 * n)) (marginWord n pts (Config.freeValue (s.free + n))) s
      else s) = u
    have hregs : regsBut [hbmReg c (0x50 + 4 * n)] s u := by
      rw [← hu]
      split
      · exact wr_regsBut _ _ s
      · exact regsBut.refl _ s
    have hframe : u = { s with regs := u.regs } := by
      rw [← hu]
      split <;> rfl
    have hfree : u.free = s.free := by rw [hframe]
    obtain ⟨hrest, hother, hresult⟩ := ih (by omega) u
    refine ⟨by rw [hrest, hframe], fun o ho => ?_, fun b hb => ?_⟩
    · rw [hother o fun b hb => ho b (by omega), hregs o (by simpa using ho n (by omega))]
    · rcases Nat.lt_succ_iff_lt_or_eq.1 hb with hlt | rfl
      · rw [hresult b hlt, hfree, hregs.rdb_eq (by simp [hbmReg]; omega), hregs _ (by simp [hbmReg]; omega)]
      · rw [hother _ fun k hk => hbmReg_ne c c (by omega) (by omega) (by omega), ← hu]
        split
        · exact rd_wr_same ..
        · rfl

/-- The state with the results and the trained value of a run, which has taken its four free values. -/
def marginShown (c : Nat) (points : List MarginPoint) (trained : Byte) (s : State) : State :=
  { wr (hbmReg c 0x60) (trained.setWidth 32) (marginResults c (runPoints c points s) 4 s) with
    free := (marginResults c (runPoints c points s) 4 s).free + 4 }

theorem endMargin_eq (c : Nat) (points : List MarginPoint) (trained : Byte) (s : State) :
    endMargin c points trained s = raise (hbmReg c 0xC) 3 (wrf (hbmReg c 8) 2 1 2 (marginShown c points trained s)) := rfl

theorem marginShown_spec (c : Nat) (points : List MarginPoint) (trained : Byte) (s : State) :
    (marginShown c points trained s).mem = s.mem ∧ (marginShown c points trained s).tiles = s.tiles ∧
      rd (marginShown c points trained s) (hbmReg c 0x60) = trained.setWidth 32 ∧
      (∀ x, x < 0x50 → rd (marginShown c points trained s) (hbmReg c x) = rd s (hbmReg c x)) ∧
      ∀ b < 4, rd (marginShown c points trained s) (hbmReg c (0x50 + 4 * b)) =
        if rdb s (hbmReg c 0x44) (7 + b) then marginWord b (runPoints c points s) (Config.freeValue (s.free + b))
        else rd s (hbmReg c (0x50 + 4 * b)) := by
  obtain ⟨hrest, hother, hresult⟩ := marginResults_spec c (runPoints c points s) 4 (Nat.le_refl _) s
  have hread : ∀ o, rd (marginShown c points trained s) o =
      rd (wr (hbmReg c 0x60) (trained.setWidth 32) (marginResults c (runPoints c points s) 4 s)) o := fun _ => rfl
  refine ⟨?_, ?_, (hread _).trans (rd_wr_same ..), fun x hx => ?_, fun b hb => ?_⟩
  · exact (congrArg State.mem hrest :)
  · exact (congrArg State.tiles hrest :)
  · rw [hread, rd_wr, if_neg (hbmReg_ne c c (by omega) (by omega) (by omega)),
      hother _ fun b hb => hbmReg_ne c c (by omega) (by omega) (by omega)]
  · rw [hread, rd_wr, if_neg (hbmReg_ne c c (by omega) (by omega) (by omega)), hresult b hb]

/-- The run has ended: its registers, and what the rest shows. -/
theorem endMargin_spec (c : Nat) (points : List MarginPoint) (trained : Byte) (s : State) :
    (endMargin c points trained s).mem = s.mem ∧ (endMargin c points trained s).tiles = s.tiles ∧
      rdb (endMargin c points trained s) (hbmReg c 8) 0 = rdb s (hbmReg c 8) 0 ∧
      rdb (endMargin c points trained s) (hbmReg c 8) 1 = false ∧ rdb (endMargin c points trained s) (hbmReg c 8) 2 = true ∧
      rdb (endMargin c points trained s) (hbmReg c 0xC) 3 = true ∧
      ∀ x, 0x50 ≤ x → x < 0x40000 → rd (endMargin c points trained s) (hbmReg c x) = rd (marginShown c points trained s) (hbmReg c x) := by
  obtain ⟨hmem, htiles, -, hbelow, -⟩ := marginShown_spec c points trained s
  have hstatus : ∀ b, rdb (endMargin c points trained s) (hbmReg c 8) b =
      if 1 ≤ b ∧ b ≤ 2 then (2 : Nat).testBit (b - 1) else rdb s (hbmReg c 8) b := fun b => by
    rw [endMargin_eq, rdb_raise_other _ _ _ _ _ (hbmReg_ne c c (by decide) (by decide) (by decide)),
      rdb_wrf _ _ _ _ _ _ _ (by decide) (by decide), rdb, hbelow 8 (by decide)]
    simp only [true_and, rdb]
  refine ⟨?_, ?_, ?_, ?_, ?_, ?_, fun x hlow hx => ?_⟩
  · rw [endMargin_eq, raise_mem]
    exact hmem
  · rw [endMargin_eq, raise_tiles]
    exact htiles
  · rw [hstatus, if_neg (by decide)]
  · rw [hstatus, if_pos (by decide)]
    rfl
  · rw [hstatus, if_pos (by decide)]
    rfl
  · exact rdb_raise (hbmReg c 0xC) 3 _ (by decide)
  · rw [endMargin_eq, raise_regsBut (hbmReg c 0xC) 3 _ _ (by simp [hbmReg]; omega), rd_wrf,
      if_neg (hbmReg_ne c c (by omega) (by omega) (by omega))]

/-- Controller `c` waits for no retraining any more. -/
def retrainTaken (c : Nat) (s : State) : State :=
  { s with mem := { s.mem with retrain := s.mem.retrain &&& ~~~ (BitVec.ofNat 4 (2 ^ c)) } }

/-- A retraining that waited for the run begins. -/
def retrainWaited (c : Nat) (s : State) : State := if s.mem.retrain.getLsbD c then retrain c (retrainTaken c s) else s

theorem retrainWaited_spec {c : Nat} {s : State} (h : rdb s (hbmReg c 8) 1 = false) :
    regsBut [hbmReg c 8] s (retrainWaited c s) ∧
      (∀ b, rdb (retrainWaited c s) (hbmReg c 8) b = (rdb s (hbmReg c 8) b && !(decide (b = 0) && s.mem.retrain.getLsbD c))) ∧
      (retrainWaited c s).mem.bytes = s.mem.bytes ∧ (retrainWaited c s).mem.heldReads = s.mem.heldReads ∧
      (retrainWaited c s).tiles = s.tiles := by
  unfold retrainWaited
  cases hwaits : s.mem.retrain.getLsbD c
  · exact ⟨regsBut.refl _ s, fun b => by simp, rfl, rfl, rfl⟩
  · rw [if_pos rfl, retrain_of_idle (s := retrainTaken c s) h]
    refine ⟨wrf_regsBut (hbmReg c 8) 0 0 0 (retrainTaken c s), fun b => ?_, rfl, rfl, rfl⟩
    rw [rdb_wrf _ _ _ _ _ _ _ (by decide) (by decide)]
    by_cases hb : b = 0
    · rw [if_pos ⟨rfl, by omega, by omega⟩]
      simp [hb]
    · rw [if_neg (by omega), decide_eq_false hb, Bool.false_and, Bool.not_false, Bool.and_true]
      rfl

theorem exec_marginDone {c : Fin 4} {points : List MarginPoint} {trained : Byte} {s : State} (hrun : rdb s (hbmReg c 8) 1 = true)
    (hheld : s.mem.heldReads = []) :
    exec (.marginDone c points trained) s = .next (retrainWaited c (endMargin c points trained s)) := by
  obtain ⟨hmem, -, -, hidle, -⟩ := endMargin_spec c points trained s
  obtain ⟨-, -, -, hreads, -⟩ := retrainWaited_spec hidle
  have hrelease : releaseReads (retrainWaited c (endMargin c points trained s)) = retrainWaited c (endMargin c points trained s) :=
    releaseReads_of_none (by rw [hreads, hmem, hheld])
  change execMarginDone c points trained s = _
  rw [execMarginDone, if_pos hrun]
  exact congrArg _ hrelease

/-! #### The statement -/

/-- Settles O8, a clause for each command and what it finds. -/
theorem hbmCommandsComplete : Obligations.HbmCommandsComplete := by
  unfold Obligations.HbmCommandsComplete
  refine ⟨?rate, ?trained, ?trainedRead, ?start, ?startLocked, ?marginDone, ?hot⟩
  case rate =>
    intro c v s r hup hopen hr hw1s hwo hrwl hw1c hidle hc
    have hplain : ((rd s (hbmReg c 4) &&& ~~~ r.rwl) ||| (v &&& r.rwl)) &&& ~~~ (v &&& r.w1c) =
        (rd s (hbmReg c 4) &&& ~~~ r.rwl) ||| (v &&& r.rwl) := by
      rw [hw1c, show v &&& (0 : Word) = 0 from BitVec.and_zero, show ~~~(0 : Word) = BitVec.allOnes 32 from rfl, BitVec.and_allOnes]
    generalize hw : (rd s (hbmReg c 4) &&& ~~~ r.rwl) ||| (v &&& r.rwl) = w at *
    have hne : hbmReg c 8 ≠ hbmReg c 4 := hbmReg_ne c c (by decide) (by decide) (by decide)
    have hidle' : rdb (wr (hbmReg c 4) w s) (hbmReg c 8) 1 = false := by rw [rdb_wr, if_neg hne, hidle]
    have hrun : exec (.hbmRateWrite c v) s = .next (wrf (hbmReg c 8) 0 0 0 (wr (hbmReg c 4) w s)) := by
      rw [exec_hbmRateWrite hup hopen hr hw1s hwo hrwl, storeOpen_accepted (by rw [hw, hplain, hc]), hw, hplain, writeEffect_rate,
        retrain_of_idle hidle']
    refine ⟨_, hrun, ?_, ?_, rfl, ?_⟩
    · rw [rd_wrf, if_neg hne.symm, rd_wr_same]
    · rw [rdb_wrf _ _ _ _ _ _ _ (by decide) (by decide), if_pos ⟨rfl, by decide, by decide⟩]
      rfl
    · exact regsBut.trans (regsBut.mono (wr_regsBut (hbmReg c 4) w s) (by simp)) (wrf_regsBut (hbmReg c 8) 0 0 0 _) (by simp)
  case trained =>
    intro c s hc hheld
    have hrun : exec (.hbmTrainingDone c) s = .next (wrf (hbmReg c 8) 0 0 1 s) := by
      rw [exec_hbmTrainingDone s hc, releaseReads_of_none (s := wrf (hbmReg c 8) 0 0 1 s) hheld]
    exact ⟨_, hrun, rdb_wrf_trained c s, rfl, wrf_regsBut _ _ _ _ s⟩
  case trainedRead =>
    intro c r s hc hheld hok hret hcor hplace hmargin ha
    have hrun := exec_hbmTrainingDone s hc
    rw [releaseReads_of_one (s := wrf (hbmReg c 8) 0 0 1 s) hheld (accessHeld_wrf_trained ha hplace hmargin)] at hrun
    have hbefore : memSame s (unheld (wrf (hbmReg c 8) 0 0 1 s)) := memSame_of_parts rfl rfl
    have htrained : rdb (unheld (wrf (hbmReg c 8) 0 0 1 s)) (hbmReg c 8) 0 = true := rdb_wrf_trained c s
    have hout : (unheld (wrf (hbmReg c 8) 0 0 1 s)).out = s.out := rfl
    have hnone : (unheld (wrf (hbmReg c 8) 0 0 1 s)).mem.heldReads = [] := rfl
    generalize unheld (wrf (hbmReg c 8) 0 0 1 s) = u at hrun hbefore htrained hout hnone
    obtain ⟨hsent, -, hsame⟩ := readBurst_clean_shows hok hret hcor u
    rw [hout, hbefore.memRead_eq] at hsent
    refine ⟨_, hrun, ?_, ?_, hsent, hbefore.trans hsame⟩
    · rw [readBurst_clean hok hret hcor]
      exact (heldReads_burstTaken ..).trans hnone
    · rw [readBurst_clean hok hret hcor, rdb, rd_emit, regs_burstTaken _ _ _ _ (hbmReg_ne _ _ (by decide) (by decide) (by decide))]
      exact htrained
  case start =>
    intro c v s r hup hr hw1s hwo hstart hopen hidle
    have hrun := exec_marginStart hup hr hw1s hwo hstart
    rw [hopen, hidle, if_neg (by decide), if_neg (by decide)] at hrun
    refine ⟨_, hrun, ?_, rfl, wrf_regsBut _ _ _ _ s⟩
    rw [rdb_wrf _ _ _ _ _ _ _ (by decide) (by decide), if_pos ⟨rfl, by decide, by decide⟩]
    rfl
  case startLocked =>
    intro c v s r hup hr hw1s hwo hstart hlock
    rw [exec_marginStart hup hr hw1s hwo hstart, if_pos hlock]
  case marginDone =>
    intro c points trained s hrun hheld
    obtain ⟨hmem, htiles, h0, h1, h2, hevent, hshown⟩ := endMargin_spec c points trained s
    obtain ⟨-, -, hvalue, -, hresult⟩ := marginShown_spec c points trained s
    obtain ⟨hregs, hstatus, hbytes, -, htiles'⟩ := retrainWaited_spec h1
    have hresult' : ∀ b ∈ List.range 4, rd (retrainWaited c (endMargin c points trained s)) (hbmReg c (0x50 + 4 * b)) =
        if rdb s (hbmReg c 0x44) (7 + b) then marginWord b (runPoints c points s) (Config.freeValue (s.free + b))
        else rd s (hbmReg c (0x50 + 4 * b)) := fun b hb => by
      have hlt := List.mem_range.1 hb
      rw [hregs _ (by simp [hbmReg]; omega), hshown _ (by omega) (by omega), hresult b hlt]
    refine ⟨_, exec_marginDone hrun hheld, ?_, ?_, ?_, ?_, fun b hb hsel => ?_, fun b hb hsel => ?_, ?_, ?_, ?_⟩
    · rw [hstatus, h1, Bool.false_and]
    · rw [hstatus, h2]
      rfl
    · rw [hregs.rdb_eq (by simp [hbmReg]), hevent]
    · rw [hregs _ (by simp [hbmReg]), hshown 0x60 (by decide) (by decide), hvalue]
    · rw [hresult' b hb, if_pos hsel]
    · rw [hresult' b hb, if_neg (by rw [hsel]; decide)]
    · rw [hstatus, h0, hmem]
      simp
    · rw [hbytes, hmem]
    · rw [htiles', htiles]
  case hot =>
    intro c hot s hc
    refine ⟨_, exec_hbmStackHot hot s hc, ?_, rfl, wrf_regsBut _ _ _ _ s⟩
    rw [rdb_wrf _ _ _ _ _ _ _ (by decide) (by decide), if_pos ⟨rfl, by decide, by decide⟩]
    cases hot <;> rfl

end Sys2Proof.Machine
end

/-! ### Slots, downlink windows and rushes (08 R244–R246; 09 R259, R267, R279–R281)

A slot begins, and a window closes, by zeroing bitmaps at the places of symbol buffers; a window opens by sending what memory holds. -/

section
namespace Sys2Proof.Machine

/-! #### Bitmaps cleared -/

/-- 64 zero bytes are stored at each of the addresses `f 0` to `f (n - 1)`, from the last. -/
def zerosAt (f : Nat → Nat) : Nat → State → State
  | 0, s => s
  | n + 1, s => zerosAt f n (memPut (f n) (zeros 64) s)

theorem clearBitmaps_eq_zerosAt (base streams pos n : Nat) (s : State) :
    clearBitmaps base streams pos n s = zerosAt (fun k => symbolBuf base streams pos 0 k) n s := by
  induction n generalizing s with
  | zero => rfl
  | succ n ih => exact ih _

theorem clearSymbol_eq_zerosAt (base streams pos symbol n : Nat) (s : State) :
    clearSymbol base streams pos symbol n s = zerosAt (fun k => symbolBuf base streams pos k symbol) n s := by
  induction n generalizing s with
  | zero => rfl
  | succ n ih => exact ih _

theorem wc_memPut (a : Nat) (bs : List Byte) (s : State) : (memPut a bs s).mem.wc = s.mem.wc := rfl

theorem memByte_zerosAt {s : State} (hwc : s.mem.wc = []) (f : Nat → Nat) (n x : Nat) :
    memByte (zerosAt f n s) x = if ∃ k < n, f k ≤ x ∧ x < f k + 64 then 0 else memByte s x := by
  induction n generalizing s with
  | zero => rw [if_neg (by simp)]; rfl
  | succ n ih =>
    have hput : memByte (memPut (f n) (zeros 64) s) x = if f n ≤ x ∧ x < f n + 64 then 0 else memByte s x := by
      rw [memByte_memPut hwc]
      unfold zeros
      rw [List.length_replicate]
      exact ite_congr rfl (fun hin => List.getD_replicate _ (by omega)) fun _ => rfl
    rw [zerosAt, ih ((wc_memPut ..).trans hwc), hput]
    simp only [Nat.exists_lt_succ_right]
    by_cases hbelow : ∃ k < n, f k ≤ x ∧ x < f k + 64
    · rw [if_pos hbelow, if_pos (Or.inl hbelow)]
    · simp only [hbelow, false_or, if_false]

theorem memRead_zerosAt {s : State} (hwc : s.mem.wc = []) (f : Nat → Nat) {k n : Nat} (hk : k < n) :
    memRead (zerosAt f n s) (f k) 64 = zeros 64 := by
  refine List.ext_getElem ((memRead_length ..).trans (List.length_replicate ..).symm) fun i hi _ => ?_
  rw [memRead_length] at hi
  rw [memRead_getElem, memByte_zerosAt hwc, if_pos ⟨k, hk, by omega, by omega⟩]
  exact (List.getElem_replicate ..).symm

theorem memButs_zerosAt {s : State} (hwc : s.mem.wc = []) (f : Nat → Nat) (n : Nat) :
    memButs ((List.range n).map f) 64 s (zerosAt f n s) := by
  intro x hx
  rw [memByte_zerosAt hwc, if_neg]
  rintro ⟨k, hk, hle, hlt⟩
  have hout := hx (f k) (List.mem_map_of_mem (List.mem_range.2 hk))
  omega

theorem memButs_congr {l : List Nat} {w : Nat} {s t u : State} (h : memButs l w s t) (hmem : u.mem = t.mem) : memButs l w s u :=
  fun x hx => (memByte_congr hmem x).trans (h x hx)

/-! #### The clock runs to a window -/

theorem runToTime_of_past {u : Nat} {s : State} (h : u ≤ nowUnits s) : runToTime u s = s := by
  have hnone : ceilDiv (u - nowUnits s) (incUnits s) = 0 := by
    rw [Nat.sub_eq_zero_of_le h, ceilDiv, Nat.zero_add]
    exact Nat.div_eq_zero_iff.2 (by omega)
  rw [runToTime, hnone, advance, if_pos rfl]

theorem nowUnits_le_runToTime {u : Nat} {s : State} (hinc : 0 < incUnits s) (hwrap : u + incUnits s < 2 ^ 48 * unitsS) :
    nowUnits s ≤ nowUnits (runToTime u s) := by
  rcases Nat.le_total u (nowUnits s) with hpast | hahead
  · rw [runToTime_of_past hpast]
  · exact hahead.trans (le_nowUnits_runToTime hinc hwrap)

/-! #### A slot begins (08 R245; 09 R259, R267) -/

theorem exec_slotStart {g : GridIx} {s : State} (hruns : gridRuns s g.val = true) :
    exec (.slotStart g) s = .next (beginSlot g (nextSlot s g.val) (runToTime (nextSlot s g.val).1 s)) := by
  change execSlotStart g s = _
  rw [execSlotStart, if_pos hruns]

/-- A transport block waits for the slot. -/
def awaitsSlot (g : GridIx) (sfn slot : Nat) (w : TxWait) : Bool :=
  decide (w.grid = g) && decide (w.sfn.toNat = sfn) && decide (w.slot.toNat = slot)

theorem radio_refuse (r : DRef) (status : Nat) (s : State) : (refuse r status s).radio = s.radio :=
  (refuse_does (fs₀ := [.regs, .pairs, .funcs, .flights, .fault, .out]) (Does.refl _ s) rfl).same .radio (by decide)

/-- Of those looked at, whoever waits for the slot is taken out of the list, and nothing else of the radio state changes. -/
theorem radio_expireTx (g : GridIx) (sfn slot : Nat) (ws : List TxWait) (s : State) :
    (expireTx g sfn slot ws s).radio =
      { s.radio with tx := s.radio.tx.filter fun x => !(ws.any fun w => awaitsSlot g sfn slot w && decide (x.ref = w.ref)) } := by
  induction ws generalizing s with
  | nil => simp [expireTx]
  | cons w ws ih =>
    rw [expireTx, ih]
    split
    · next hw =>
      have hwaits : awaitsSlot g sfn slot w = true := by simp [awaitsSlot, hw]
      simp only [radio_refuse, List.filter_filter, List.any_cons, hwaits, Bool.true_and, Bool.not_or, decide_not, Bool.and_comm]
    · next hw =>
      have hwaits : awaitsSlot g sfn slot w = false := by simpa [awaitsSlot, and_assoc] using hw
      simp only [List.any_cons, hwaits, Bool.false_and, Bool.false_or]

theorem radio_expireWaits (g : GridIx) (sfn slot : Nat) (s : State) :
    (expireWaits g sfn slot s).radio.begun = s.radio.begun ∧
      ((expireWaits g sfn slot s).radio.tx.all fun w => !awaitsSlot g sfn slot w) = true := by
  rw [expireWaits, radio_expireTx]
  refine ⟨rfl, List.all_eq_true.2 fun w hw => ?_⟩
  obtain ⟨hmem, hkept⟩ := List.mem_filter.1 hw
  cases hwaits : awaitsSlot g sfn slot w with
  | false => rfl
  | true => rw [List.any_eq_true.2 ⟨w, hmem, by simp [hwaits]⟩] at hkept; exact absurd hkept (by decide)

theorem mem_setBegun (g t0 : Nat) (s : State) : (setBegun g t0 s).mem = s.mem := rfl

/-- A slot that begins clears its landing area and no other memory, is noted as begun, and leaves no transport block waiting for it. -/
theorem beginSlot_shows (g : GridIx) (x : Nat × Nat × Nat) (s : State) :
    (beginSlot g x s).mem = (clearLanding g.val x.1 (setBegun g.val x.1 s)).mem ∧
      (beginSlot g x s).time = s.time ∧ (beginSlot g x s).tiles = s.tiles ∧
      tabGet (fun _ => 0) (beginSlot g x s).radio.begun g.val = x.1 ∧
      ((beginSlot g x s).radio.tx.all fun w => !awaitsSlot g x.2.1 x.2.2 w) = true := by
  have hclear := clearLanding_does (g := g.val) (t0 := x.1) (fs₀ := [.mem]) (Does.refl _ (setBegun g.val x.1 s)) rfl
  have hwaits := expireWaits_does (g := g) (sfn := x.2.1) (slot := x.2.2)
    (fs₀ := [.regs, .pairs, .funcs, .flights, .radio, .fault, .out]) (Does.refl _ (clearLanding g.val x.1 (setBegun g.val x.1 s))) rfl
  have hevent := slotEvent_does (g := g.val) (sfn := x.2.1) (slot := x.2.2) (t0 := x.1) (fs₀ := [.regs, .pairs, .funcs, .out])
    (Does.refl _ (expireWaits g x.2.1 x.2.2 (clearLanding g.val x.1 (setBegun g.val x.1 s)))) rfl
  have hall := beginSlot_does (g := g) (x := x) (fs₀ := [.regs, .pairs, .funcs, .flights, .mem, .radio, .fault, .out]) (Does.refl _ s) rfl
  have hradio : (beginSlot g x s).radio = _ := hevent.same .radio (by decide)
  obtain ⟨hbegun, htx⟩ := radio_expireWaits g x.2.1 x.2.2 (clearLanding g.val x.1 (setBegun g.val x.1 s))
  refine ⟨(hevent.same .mem (by decide)).trans (hwaits.same .mem (by decide)), hall.same .time (by decide),
    hall.same .tiles (by decide), ?_, ?_⟩
  · rw [hradio, hbegun, show (clearLanding g.val x.1 (setBegun g.val x.1 s)).radio = _ from hclear.same .radio (by decide)]
    exact tabGet_tabSet_same ..
  · rw [hradio]
    exact htx

/-- The landing area of a slot of which the state before the clock ran tells the place. -/
theorem clearLanding_runToTime (g t0 u : Nat) (s : State) :
    clearLanding g t0 (setBegun g t0 (runToTime u s)) =
      zerosAt (fun k => symbolBuf (ulBase s g) (ulStreams s g) (slotPos s g t0) 0 k) (14 * ulStreams s g) (setBegun g t0 (runToTime u s)) := by
  obtain ⟨k, c, hclock⟩ := runToTime_eq_atClock u s
  rw [clearLanding, clearBitmaps_eq_zerosAt, hclock]
  rfl

/-! #### A window opens (08 R246; 09 R279) -/

theorem exec_dlUplaneSend {g : GridIx} {sfn : BitVec 10} {slot : BitVec 5} {symbol : Fin 14} {s : State}
    (hruns : gridRuns s g.val = true) (hslot : slot.toNat < slotsPerFrame (gridMu s g.val)) :
    ∃ (pos : Nat) (ws : List Word), exec (.dlUplaneSend g sfn slot symbol) s =
      .next (uplaneEntries g.val pos sfn.toNat slot.toNat symbol.val
        (decide ((symbolAt s g sfn slot symbol.val).toNat - t1aMin s <
          nowUnits (runToTime ((symbolAt s g sfn slot symbol.val).toNat - t1aMax s) s))) ws
        (runToTime ((symbolAt s g sfn slot symbol.val).toNat - t1aMax s) s)) := by
  have hmin : t1aMin (runToTime ((symbolAt s g sfn slot symbol.val).toNat - t1aMax s) s) = t1aMin s := by
    rw [t1aMin, (runToTime_regsBut _ s []).rdf_eq List.not_mem_nil, t1aMin]
  change ∃ pos ws, execDlUplaneSend g sfn slot symbol s = _
  rw [execDlUplaneSend, if_pos (by simp [hruns, hslot])]
  dsimp only
  rw [hmin]
  exact ⟨_, _, rfl⟩

theorem fhSend_keeps_out (p : Nat) (o : Output) (s : State) : s.out <+: (fhSend p o s).out := by
  unfold fhSend
  split
  · exact List.prefix_append ..
  · split
    · exact List.prefix_rfl
    · exact List.prefix_rfl

theorem fhSendSeq_keeps_out (p : Nat) (eaxc : BitVec 16) (down : Bool) (o : Output) (s : State) :
    s.out <+: (fhSendSeq p eaxc down o s).out := by
  unfold fhSendSeq
  split
  · exact fhSend_keeps_out p o s
  · exact fhSend_keeps_out p o s

theorem uplaneSends_keeps_out (w : Word) (a sfn slot symbol : Nat) (late : Bool) (rs : List (Nat × Nat)) (s : State) :
    s.out <+: (uplaneSends w a sfn slot symbol late rs s).out := by
  induction rs generalizing s with
  | nil => exact List.prefix_rfl
  | cons r rs ih =>
    rw [uplaneSends]
    refine List.IsPrefix.trans ?_ (ih _)
    split
    · exact List.prefix_rfl
    · exact fhSendSeq_keeps_out ..

/-- Frames that have not started when the window has closed are counted alone. -/
theorem out_uplaneSends_late (w : Word) (a sfn slot symbol : Nat) (rs : List (Nat × Nat)) (s : State) :
    (uplaneSends w a sfn slot symbol true rs s).out = s.out := by
  induction rs generalizing s with
  | nil => rfl
  | cons r rs ih => exact ih _

theorem uplaneEntries_keeps_out (g pos sfn slot symbol : Nat) (late : Bool) (ws : List Word) (s : State) :
    s.out <+: (uplaneEntries g pos sfn slot symbol late ws s).out := by
  induction ws generalizing s with
  | nil => exact List.prefix_rfl
  | cons w ws ih => exact (uplaneSends_keeps_out ..).trans (ih _)

theorem out_uplaneEntries_late (g pos sfn slot symbol : Nat) (ws : List Word) (s : State) :
    (uplaneEntries g pos sfn slot symbol true ws s).out = s.out := by
  induction ws generalizing s with
  | nil => rfl
  | cons w ws ih => exact (ih _).trans (out_uplaneSends_late ..)

/-! #### Runs of PRBs (log 66) -/

/-- The PRBs that runs hold, in order. -/
def runPrbs (rs : List (Nat × Nat)) : List Nat := rs.flatMap fun r => (List.range r.2).map fun i => r.1 + i

theorem runPrbs_append (rs rs' : List (Nat × Nat)) : runPrbs (rs ++ rs') = runPrbs rs ++ runPrbs rs' := List.flatMap_append

theorem runPrbs_single (a n : Nat) : runPrbs [(a, n)] = (List.range n).map fun i => a + i := by simp [runPrbs]

/-- A run takes in the PRB behind its last. -/
theorem runPrbs_grown (a n : Nat) : runPrbs [(a, n + 1)] = runPrbs [(a, n)] ++ [a + n] := by
  rw [runPrbs_single, runPrbs_single, List.range_succ, List.map_append, List.map_singleton]

theorem runPrbs_prbRuns (m : Nat) (acc : List (Nat × Nat)) (ks : List Nat) :
    runPrbs (prbRuns m acc ks) = runPrbs acc.reverse ++ ks := by
  fun_induction prbRuns m acc ks with
  | case1 acc => exact (List.append_nil _).symm
  | case2 k ks ih => rw [ih]; rfl
  | case3 a n rest k ks hgrows ih =>
    rw [ih, List.reverse_cons, List.reverse_cons, runPrbs_append, runPrbs_append, runPrbs_grown, hgrows.1]
    simp only [List.append_assoc, List.singleton_append]
  | case4 a n rest k ks _ ih =>
    rw [ih, List.reverse_cons, runPrbs_append, runPrbs_single]
    simp

/-- The run holds a PRB, and no more than a frame of `m` does. -/
def runFits (m : Nat) (r : Nat × Nat) : Bool := decide (1 ≤ r.2) && decide (r.2 ≤ m)

theorem prbRuns_fit {m : Nat} (hm : 1 ≤ m) (acc : List (Nat × Nat)) (ks : List Nat) (hacc : acc.all (runFits m) = true) :
    (prbRuns m acc ks).all (runFits m) = true := by
  fun_induction prbRuns m acc ks with
  | case1 acc => rwa [List.all_reverse]
  | case2 k ks ih => exact ih (by simp [runFits, hm])
  | case3 a n rest k ks hgrows ih =>
    rw [List.all_cons, Bool.and_eq_true] at hacc
    exact ih (by simp [runFits, hacc.2, hgrows.2])
  | case4 a n rest k ks _ ih => exact ih (by rw [List.all_cons, hacc]; simp [runFits, hm])

/-! #### A window closes -/

theorem exec_dlWindowClose {g : GridIx} {sfn : BitVec 10} {slot : BitVec 5} {symbol : Fin 14} {s : State}
    (hruns : gridRuns s g.val = true) (hslot : slot.toNat < slotsPerFrame (gridMu s g.val)) :
    exec (.dlWindowClose g sfn slot symbol) s =
      .next (zerosAt (fun k => symbolBuf (dlBase s g.val) (dlStreams s g.val) (slotPos s g.val (symbolAt s g sfn slot 0).toNat) k symbol.val)
        (dlStreams s g.val) (runToTime ((symbolAt s g sfn slot symbol.val).toNat - t1aMin s) s)) := by
  change execDlWindowClose g sfn slot symbol s = _
  rw [execDlWindowClose, if_pos (by simp [hruns, hslot])]
  obtain ⟨k, c, hclock⟩ := runToTime_eq_atClock ((symbolAt s g sfn slot symbol.val).toNat - t1aMin s) s
  dsimp only
  rw [clearSymbol_eq_zerosAt, hclock]
  rfl

theorem zerosAt_same (f : Nat → Nat) (n : Nat) (s : State) : Does [.mem] s (zerosAt f n s) := by
  induction n generalizing s with
  | zero => exact Does.refl _ s
  | succ n ih => exact (memPut_does (Does.refl _ s) rfl).trans (ih _) rfl

/-! #### A capture takes a slot (09 R280, R281) -/

theorem find?_map_of_imp {α : Type} {p : α → Bool} {f : α → α} {l : List α} {x : α} (h : l.find? p = some x) (hx : p (f x) = true)
    (himp : ∀ y, p (f y) = true → p y = true ∨ f y = f x) : (l.map f).find? p = some (f x) := by
  induction l with
  | nil => exact absurd h (by rw [List.find?_nil]; exact nofun)
  | cons y l ih =>
    rw [List.map_cons]
    cases hfy : p (f y) with
    | true =>
      rw [List.find?_cons_of_pos hfy]
      rcases himp y hfy with hy | hy
      · rw [List.find?_cons_of_pos hy] at h
        rw [Option.some.inj h]
      · rw [hy]
    | false =>
      have hy : p y ≠ true := by
        intro hy
        rw [List.find?_cons_of_pos hy, Option.some_inj] at h
        rw [h, hx] at hfy
        exact absurd hfy (by decide)
      rw [List.find?_cons_of_neg hy] at h
      rw [List.find?_cons_of_neg (by rw [hfy]; exact nofun)]
      exact ih h

theorem captureOf_setCapture {s : State} {g : Nat} {c d : Capture} (h : captureOf s g = some c) (href : d.ref = c.ref)
    (hgrid : d.grid = c.grid) : captureOf (setCapture d s) g = some d := by
  have hc := List.find?_some h
  have hd : (if c.ref = d.ref then d else c) = d := if_pos href.symm
  have hfound := find?_map_of_imp (f := fun x => if x.ref = d.ref then d else x) h (by rw [hd, hgrid]; exact hc) fun y hy => by
    by_cases hyd : y.ref = d.ref
    · exact Or.inr ((if_pos hyd).trans hd.symm)
    · exact Or.inl (by rwa [if_neg hyd] at hy)
  rw [hd] at hfound
  exact hfound

/-- A slot record that leaves room for another is all that becomes of a capture without a limit. -/
theorem checkCapture_of_room {c : Capture} {s : State} (hleft : c.left = none) (hroom : c.written + capBytes s c ≤ c.room) :
    checkCapture c s = setCapture c s := by
  rw [checkCapture, if_neg]
  rw [hleft]
  exact not_or.2 ⟨nofun, not_lt.2 hroom⟩

/-- To a host buffer of a bus master the bytes leave at once, where nothing waits. -/
theorem capWrite_of_host {c : Capture} (bs : List Byte) {s : State} (hdev : c.dev = false)
    (hbme : (funcOf s (pairFunc s c.ref.pair)).bme = true) (hwait : (pairOf s c.ref.pair).waiting = []) :
    capWrite c bs s = emit (.hostWrite (pairFunc s c.ref.pair) (c.addr + BitVec.ofNat 64 c.written) bs) s := by
  simp [capWrite, hdev, putBatch, batchFits, hbme, hwait, issueData, issueOrHold, issue]

/-- The copy of a slot is due no more. -/
def rushTaken (x : RushDue) (s : State) : State :=
  { s with radio := { s.radio with rushes := s.radio.rushes.filter fun y => decide (y ≠ x) } }

/-- The slot record of a capture. -/
def rushRecord (s : State) (g : Nat) (c : Capture) (x : RushDue) (late : Bool) : List Byte :=
  ((capStreams s c).flatMap fun k => memRead s (symbolBuf (ulBase s g) (ulStreams s g) (slotPos s g x.t0) k 0) 184576) ++
    capHeader c x late

/-- The record has left, and a late copy is counted. -/
def rushSent (g : Nat) (c : Capture) (x : RushDue) (inTime : Bool) (s : State) : State :=
  let t := emit (.hostWrite (pairFunc s c.ref.pair) (c.addr + BitVec.ofNat 64 c.written) (rushRecord (rushTaken x s) g c x (!inTime))) (rushTaken x s)
  if inTime then t else bump 0x3033C 1 t

theorem rushRecord_rushTaken (g : Nat) (c : Capture) (x y : RushDue) (late : Bool) (s : State) :
    rushRecord (rushTaken y s) g c x late = rushRecord s g c x late := by
  have hread (a k : Nat) : memRead (rushTaken y s) a k = memRead s a k :=
    (memSame_of_mem_eq (s := s) (t := rushTaken y s) rfl).memRead_eq a k
  simp only [rushRecord, hread]
  rfl

theorem rushSent_regsBut (g : Nat) (c : Capture) (x : RushDue) (inTime : Bool) (s : State) :
    regsBut [0x3033C] s (rushSent g c x inTime s) := by
  unfold rushSent
  dsimp only
  split
  · exact regsBut.of_regs_eq rfl _
  · exact bump_regsBut 0x3033C 1 _

theorem rushSent_shows (g : Nat) (c : Capture) (x : RushDue) (inTime : Bool) (s : State) :
    (rushSent g c x inTime s).radio = { s.radio with rushes := s.radio.rushes.filter fun y => decide (y ≠ x) } ∧
      (rushSent g c x inTime s).mem = s.mem ∧
      (rushSent g c x inTime s).out = s.out ++
        [.hostWrite (pairFunc s c.ref.pair) (c.addr + BitVec.ofNat 64 c.written) (rushRecord s g c x (!inTime))] ∧
      (rd (rushSent g c x inTime s) 0x3033C).toNat =
        (if inTime then (rd s 0x3033C).toNat else min (2 ^ 32 - 1) ((rd s 0x3033C).toNat + 1)) := by
  rw [← rushRecord_rushTaken g c x x]
  cases inTime
  · exact ⟨rfl, rfl, rfl, rd_bump_toNat ..⟩
  · exact ⟨rfl, rfl, rfl, rfl⟩

theorem ulStreams_congr {l : List Nat} {s t : State} (h : regsBut l s t) {g : Nat} (hg : 0xD0020 + 4 * g ∉ l) :
    ulStreams t g = ulStreams s g := by rw [ulStreams, h.rdf_eq hg, ulStreams]

theorem capBytes_rushSent (g : Nat) (c d : Capture) (x : RushDue) (inTime : Bool) (s : State) :
    capBytes (rushSent g c x inTime s) d = capBytes s d := by
  rw [capBytes, capStreams, ulStreams_congr (rushSent_regsBut g c x inTime s) (by simp only [List.mem_singleton]; omega), capBytes, capStreams]

theorem capBytes_written (c : Capture) (n : Nat) (s : State) : capBytes s { c with written := n } = capBytes s c := by
  rw [capBytes, capStreams, capBytes, capStreams]

theorem exec_rushesCopy {g : GridIx} {sfn : BitVec 10} {slot : BitVec 5} (inTime : Bool) {x : RushDue} {c : Capture} {s : State}
    (hdue : (s.radio.rushes.find? fun x => decide (x.grid = g) && decide (x.sfn = sfn) && decide (x.slot = slot)) = some x)
    (hcap : captureOf s g.val = some c) (hdev : c.dev = false) (hbme : (funcOf s (pairFunc s c.ref.pair)).bme = true)
    (hwait : (pairOf s c.ref.pair).waiting = []) (hleft : c.left = none) :
    exec (.rushesCopy g sfn slot inTime) s =
      .next (checkCapture { c with written := c.written + capBytes s c } (rushSent g.val c x inTime s)) := by
  have hcap' : captureOf (rushTaken x s) g.val = some c := hcap
  have hwrite (bs : List Byte) := capWrite_of_host (c := c) bs (s := rushTaken x s) hdev hbme hwait
  have hstays : c.left.map (fun n => n - 1) = c.left := by rw [hleft]; rfl
  unfold rushTaken at hcap' hwrite
  change execRushesCopy g sfn slot inTime s = _
  rw [execRushesCopy, hdue]
  dsimp only
  rw [hcap']
  dsimp only
  rw [hwrite, hstays]
  rfl

/-! #### The statement -/

/-- Settles O49, a clause for each command, and one for the runs of PRBs. -/
theorem slotsAndDownlinkWindows : Obligations.SlotsAndDownlinkWindows := by
  refine ⟨?start, ?send, ?runs, ?close, ?copy⟩
  case start =>
    intro g s hruns hwc hinc hwrap
    have hrun := runToTime_same (nextSlot s g.val).1 s
    have hran : (setBegun g.val (nextSlot s g.val).1 (runToTime (nextSlot s g.val).1 s)).mem = s.mem :=
      (mem_setBegun ..).trans (hrun.same .mem (by decide))
    have hwc' : (setBegun g.val (nextSlot s g.val).1 (runToTime (nextSlot s g.val).1 s)).mem.wc = [] := by rw [hran, hwc]
    obtain ⟨hmem, htime, htiles, hbegun, htx⟩ := beginSlot_shows g (nextSlot s g.val) (runToTime (nextSlot s g.val).1 s)
    rw [clearLanding_runToTime] at hmem
    refine ⟨_, exec_slotStart hruns, ?_, hbegun, htx, fun k hk => ?_, ?_, htiles.trans (hrun.same .tiles (by decide))⟩
    · rw [nowUnits_congr htime]
      exact le_nowUnits_runToTime hinc hwrap
    · rw [(memSame_of_mem_eq hmem).memRead_eq]
      exact memRead_zerosAt hwc' _ (List.mem_range.1 hk)
    · exact fun a ha => (memButs_congr (memButs_zerosAt hwc' _ _) hmem a ha).trans (memByte_congr hran a)
  case send =>
    intro g sfn slot symbol s hruns hslot hinc hwrap
    obtain ⟨pos, ws, hexec⟩ := exec_dlUplaneSend (sfn := sfn) (symbol := symbol) hruns hslot
    generalize (symbolAt s g sfn slot symbol.val).toNat = tl at *
    have hwrap' : tl - t1aMax s + incUnits s < 2 ^ 48 * unitsS := by omega
    have hrun := runToTime_same (tl - t1aMax s) s
    have hsent := uplaneEntries_does (g := g.val) (pos := pos) (sfn := sfn.toNat) (slot := slot.toNat) (symbol := symbol.val)
      (late := decide (tl - t1aMin s < nowUnits (runToTime (tl - t1aMax s) s))) (x7 := ws)
      (fs₀ := [.regs, .radio, .out]) (Does.refl _ (runToTime (tl - t1aMax s) s)) rfl
    have hall := (hrun.mono (l := [.clk, .time, .regs, .radio, .out]) rfl).trans hsent rfl
    have hout : (runToTime (tl - t1aMax s) s).out = s.out := hrun.same .out (by decide)
    refine ⟨_, hexec, ?_, ?_, fun hpos hclosed => ?_, hall.same .mem (by decide), hall.same .tiles (by decide),
      hall.same .flights (by decide)⟩
    · rw [nowUnits_congr (hsent.same .time (by decide))]
      have hnow := le_nowUnits_runToTime hinc hwrap'
      omega
    · rw [← hout]
      exact List.prefix_iff_eq_take.1 (uplaneEntries_keeps_out ..)
    · have hnow := nowUnits_le_runToTime hinc hwrap'
      rw [decide_eq_true (show tl - t1aMin s < nowUnits (runToTime (tl - t1aMax s) s) by omega), out_uplaneEntries_late, hout]
  case runs =>
    intro m ks hm
    exact ⟨runPrbs_prbRuns m [] ks, prbRuns_fit hm [] ks rfl⟩
  case close =>
    intro g sfn slot symbol s hruns hslot hwc
    have hrun := runToTime_same ((symbolAt s g sfn slot symbol.val).toNat - t1aMin s) s
    have hmem : (runToTime ((symbolAt s g sfn slot symbol.val).toNat - t1aMin s) s).mem = s.mem := hrun.same .mem (by decide)
    have hwc' : (runToTime ((symbolAt s g sfn slot symbol.val).toNat - t1aMin s) s).mem.wc = [] := by rw [hmem, hwc]
    have hall := hrun.mono (l := [.clk, .time, .mem]) rfl |>.trans (zerosAt_same (fun k => symbolBuf (dlBase s g.val) (dlStreams s g.val)
      (slotPos s g.val (symbolAt s g sfn slot 0).toNat) k symbol.val) (dlStreams s g.val) _) rfl
    exact ⟨_, exec_dlWindowClose hruns hslot, fun k hk => memRead_zerosAt hwc' _ (List.mem_range.1 hk),
      fun a ha => (memButs_zerosAt hwc' _ _ a ha).trans (memByte_congr hmem a), hall.same .regs (by decide),
      hall.same .tiles (by decide), hall.same .out (by decide)⟩
  case copy =>
    intro g sfn slot inTime x c s hdue hcap hdev hbme hwait hleft hroom
    obtain ⟨hradio, hmem, hout, hlate⟩ := rushSent_shows g.val c x inTime s
    rw [rushRecord] at hout
    have hexec := exec_rushesCopy inTime hdue hcap hdev hbme hwait hleft
    have hnext : c.written + capBytes s c + capBytes (rushSent g.val c x inTime s) { c with written := c.written + capBytes s c } ≤
        c.room := by
      rw [capBytes_rushSent, capBytes_written c (c.written + capBytes s c) s]
      omega
    rw [checkCapture_of_room (c := { c with written := c.written + capBytes s c }) hleft hnext] at hexec
    have hcap' : captureOf (rushSent g.val c x inTime s) g.val = some c := by rw [captureOf, hradio]; exact hcap
    refine ⟨_, hexec, captureOf_setCapture hcap' rfl rfl, ?_, hout, hlate, hmem⟩
    exact congrArg RadioS.rushes hradio

end Sys2Proof.Machine
end

/-! ### Received fronthaul frames, delay measurement and landed PRBs (08 R231–R244)

What is counted at a port stands in registers of that port, so the map, the grids and the time read the same past it. -/

section
namespace Sys2Proof.Machine

/-! #### Registers of a fronthaul port -/

theorem fhReg_inj {p o o' : Nat} : fhReg p o = fhReg p o' ↔ o = o' := by unfold fhReg; omega

theorem le_fhReg (p o : Nat) : 0xD0100 ≤ fhReg p o := by unfold fhReg; omega

theorem fhReg_ne_eaxcReg (p : Fin 8) {o : Nat} (ho : o < 0x40) (i : Nat) : eaxcReg i ≠ fhReg p o := by
  unfold eaxcReg fhReg; omega

theorem bump_time (o n : Nat) (s : State) : (bump o n s).time = s.time := rfl

/-- The counters of a port are not what judges a frame. -/
theorem rd_bump_fhReg {p o o' n : Nat} (h : o' ≠ o) (s : State) : rd (bump (fhReg p o) n s) (fhReg p o') = rd s (fhReg p o') :=
  bump_regsBut _ n s _ (by rw [List.mem_singleton, fhReg_inj]; exact h)

theorem eaxcLive_bump (p : Fin 8) {o n : Nat} (ho : o < 0x40) (s : State) : eaxcLive (bump (fhReg p o) n s) = eaxcLive s := by
  have hread (i : Nat) : rd (bump (fhReg p o) n s) (eaxcReg i) = rd s (eaxcReg i) :=
    bump_regsBut _ n s _ (by rw [List.mem_singleton]; exact fhReg_ne_eaxcReg p ho i)
  simp only [eaxcLive, hread]

/-! #### A frame passes the checks (08 R232, R233) -/

/-- A frame of good length with an eCPRI message that the port takes. -/
structure FhAccepted (s : State) (p : Nat) (f : FhFrame) : Prop where
  long : 64 ≤ f.length
  short : f.length ≤ fhLimit s p
  ether : f.etherType = 0xAEFE
  addressed : (fhMac s p :: ptpMacs).contains f.dst.toNat = true
  tagged : fhVlanOk s p f.vlan = true
  header : ecpriOk f = true

theorem fhGood_of_accepted {s : State} {p : Nat} {f : FhFrame} (h : FhAccepted s p f) : fhGood p f s = ecpriReceive p f.msg s := by
  have hlength : ¬ (f.length < 64 ∨ fhLimit s p < f.length) := by have hlong := h.long; have hshort := h.short; omega
  rw [fhGood, if_neg hlength, if_neg (by rw [h.ether]; decide), if_neg (not_not.2 h.ether), h.addressed, h.tagged, h.header,
    if_neg (by decide)]

/-- Counting a frame changes nothing that judges it. -/
theorem FhAccepted.counted {s : State} {p : Nat} {f : FhFrame} (h : FhAccepted s p f) : FhAccepted (bump (fhReg p 0x20) 1 s) p f := by
  have hcfg : rd (bump (fhReg p 0x20) 1 s) (fhReg p 0) = rd s (fhReg p 0) := rd_bump_fhReg (by decide) s
  have hlow : rd (bump (fhReg p 0x20) 1 s) (fhReg p 0xC) = rd s (fhReg p 0xC) := rd_bump_fhReg (by decide) s
  have hhigh : rd (bump (fhReg p 0x20) 1 s) (fhReg p 0x10) = rd s (fhReg p 0x10) := rd_bump_fhReg (by decide) s
  have hlimit : fhLimit (bump (fhReg p 0x20) 1 s) p = fhLimit s p := by rw [fhLimit, rdb, hcfg]; rfl
  have hmac : fhMac (bump (fhReg p 0x20) 1 s) p = fhMac s p := by simp only [fhMac, rdf, hlow, hhigh]
  have hvlan : fhVlanOk (bump (fhReg p 0x20) 1 s) p f.vlan = fhVlanOk s p f.vlan := by
    cases f.vlan with
    | none => rw [fhVlanOk, rdb, hcfg]; rfl
    | some v => rw [fhVlanOk, rdb, rdf, hcfg]; rfl
  exact ⟨h.long, hlimit.symm ▸ h.short, h.ether, hmac.symm ▸ h.addressed, hvlan.trans h.tagged, h.header⟩

theorem exec_fhFrameReceive_of_bad {port : Fin 8} {f : FhFrame} {s : State} (hen : fhPortEn s port = true) (hfcs : f.fcsOk = false) :
    exec (.fhFrameReceive port f) s = .next (bump (fhReg port 0x24) 1 s) := by
  change execFhFrameReceive port f s = _
  rw [execFhFrameReceive, if_pos hen, if_neg (by rw [hfcs]; decide), fhDiscard]

theorem exec_fhFrameReceive_of_accepted {port : Fin 8} {f : FhFrame} {s : State} (hen : fhPortEn s port = true) (hfcs : f.fcsOk = true)
    (h : FhAccepted s port f) :
    exec (.fhFrameReceive port f) s = .next (ecpriReceive port f.msg (bump (fhReg port 0x20) 1 s)) := by
  change execFhFrameReceive port f s = _
  rw [execFhFrameReceive, if_pos hen, if_pos hfcs, fhGood_of_accepted h.counted]

/-! #### Uplink messages (08 R235, R236, R243) -/

theorem upEntry_bump (p : Fin 8) {o n : Nat} (ho : o < 0x40) (s : State) (q : Nat) (eaxc : BitVec 16) :
    upEntry (bump (fhReg p o) n s) q eaxc = upEntry s q eaxc := by rw [upEntry, eaxcLive_bump p ho, upEntry]

theorem uplaneReceive_of_unmapped {p : Nat} {eaxc : BitVec 16} {s : State} (h : upEntry s p eaxc = none) (seq : Byte)
    (version : BitVec 3) (filter : BitVec 4) (frame sub slot symbol : Nat) (xs : List USection) :
    uplaneReceive p eaxc seq version filter frame sub slot symbol xs s = bump (fhReg p 0x28) 1 s := by
  rw [uplaneReceive, h]

theorem seqCheck_regsBut (p : Nat) (eaxc : BitVec 16) (seq : Byte) (s : State) :
    regsBut [fhReg p 0x34, fhEvent] s (seqCheck p eaxc seq s) := by
  unfold seqCheck
  dsimp only
  split
  · exact regsBut.of_regs_eq rfl _
  · intro o ho
    simp only [List.mem_cons, List.not_mem_nil, or_false, not_or] at ho
    rw [raise_regsBut fhEvent 3 _ o (by simpa using ho.2), bump_regsBut (fhReg p 0x34) 1 _ o (by simpa using ho.1)]
    rfl

theorem eaxcGrid_lt (w : Word) : eaxcGrid w < 4 := Nat.mod_lt _ (by decide)

/-- Where the air grid and the time read the same, so do its slots and frames. -/
theorem nearFrame_congr {s t : State} {g : Nat} (htime : t.time = s.time) (hmu : gridMu t g = gridMu s g)
    (hoffset : gridOffset t g = gridOffset s g) (frame : Nat) : nearFrame t g frame = nearFrame s g frame := by
  have hslot (u : Nat) : slotAt t g u = slotAt s g u := by simp only [slotAt, gridAt, frameStart, hmu, hoffset]
  rw [nearFrame, hslot, nowUnits_congr htime, nearFrame]

/-- Registers of the fronthaul are none of an air grid. -/
theorem regsBut.grid_eq {l : List Nat} {s t : State} (h : regsBut l s t) (hl : ∀ o ∈ l, 0xD0000 ≤ o) {g : Nat} (hg : g < 4) :
    gridMu t g = gridMu s g ∧ gridOffset t g = gridOffset s g := by
  have hout (o : Nat) (ho : o < 0xD0000) : o ∉ l := fun hmem => absurd (hl o hmem) (not_le.2 ho)
  rw [gridMu, h.rdb_eq (hout _ (by omega)), gridOffset, h _ (hout _ (by omega))]
  exact ⟨rfl, rfl⟩

/-- A message of an entry of the data channel, whose numbers the grid's numerology has, passes the sequence check and lands. -/
theorem uplaneReceive_of_mapped {p : Nat} {eaxc : BitVec 16} {s : State} {w : Word} (h : upEntry s p eaxc = some w)
    (hdata : w.getLsbD 26 = false) {sub slot symbol : Nat} (hsub : sub ≤ 9) (hslot : slot < 2 ^ gridMu s (eaxcGrid w)) (hsymbol : symbol ≤ 13)
    (seq : Byte) (frame : Nat) (xs : List USection) :
    uplaneReceive p eaxc seq 1 0 frame sub slot symbol xs s =
      landSections w (nearFrame s (eaxcGrid w) frame) (sub * 2 ^ gridMu s (eaxcGrid w) + slot) symbol xs (seqCheck p eaxc seq s) := by
  have hcheck := seqCheck_does (p := p) (eaxc := eaxc) (seq := seq) (fs₀ := [.regs, .funcs, .radio, .out]) (Does.refl _ s) rfl
  obtain ⟨hmu, hoffset⟩ := (seqCheck_regsBut p eaxc seq s).grid_eq
    (List.forall_mem_cons.2 ⟨le_trans (by decide) (le_fhReg p 0x34), by decide⟩) (eaxcGrid_lt w)
  have hfilter : filterOf (seqCheck p eaxc seq s) w = 0 := by rw [filterOf, hdata, if_neg (by decide)]
  rw [uplaneReceive, h]
  dsimp only
  rw [hfilter, hmu, nearFrame_congr (hcheck.same .time (by decide)) hmu hoffset, if_neg]
  simp only [ne_eq, not_true_eq_false, false_or, not_or, not_lt, not_le]
  exact ⟨hsub, hslot, hsymbol⟩

/-! #### Delay measurement (08 R234) -/

/-- A frame leaves a port that can transmit. -/
theorem fhSend_of_up {p : Nat} {s : State} (hen : fhPortEn s p = true) (hup : fhLinkUp s p = true) (o : Output) :
    fhSend p o s = emit o s := by rw [fhSend, fhCanSend, hen, hup]; rfl

/-- What a delay message is made of reads the same once its frame is counted. -/
theorem delay_counted (p : Nat) (hp : p < 8) (pcp : Option Nat) (ps : Int) (s : State) :
    fhHeader (bump (fhReg p 0x20) 1 s) p pcp = fhHeader s p pcp ∧ delayStamp (bump (fhReg p 0x20) 1 s) p ps = delayStamp s p ps ∧
      fhPortEn (bump (fhReg p 0x20) 1 s) p = fhPortEn s p ∧ fhLinkUp (bump (fhReg p 0x20) 1 s) p = fhLinkUp s p ∧
      rd (bump (fhReg p 0x20) 1 s) (0x200C0 + 4 * p) = rd s (0x200C0 + 4 * p) := by
  have hport {o : Nat} (ho : o ≠ 0x20) : rd (bump (fhReg p 0x20) 1 s) (fhReg p o) = rd s (fhReg p o) := rd_bump_fhReg ho s
  have hlow {o : Nat} (ho : o < 0xD0100) : rd (bump (fhReg p 0x20) 1 s) o = rd s o :=
    bump_regsBut _ 1 s o (by have h := le_fhReg p 0x20; simp only [List.mem_singleton]; omega)
  refine ⟨?_, rfl, ?_, ?_, hlow (by omega)⟩
  · simp only [fhHeader, fhMac, rdf, rdb, hport (o := 0) (by decide), hport (o := 0xC) (by decide), hport (o := 0x10) (by decide),
      hport (o := 0x14) (by decide), hport (o := 0x18) (by decide)]
    rfl
  · simp only [fhPortEn, rdb, hport (o := 0) (by decide)]
  · simp only [fhLinkUp, rdb, hlow (o := 0xD0000) (by decide)]

/-- A frame received that is answered with `o`. -/
def delaySent (p : Nat) (o : Output) (s : State) : State := useFree (emit o (bump (fhReg p 0x20) 1 s))

theorem exec_ecpriDelayRequest {port : Fin 8} (id : Byte) {s : State} (hen : fhPortEn s port = true) (hup : fhLinkUp s port = true) :
    exec (.ecpriDelayRequest port id) s =
      .next (delaySent port (.fhDelay port (fhHeader s port none) 2 id (delayStamp s port (fhRxDelay s port)) 0) s) := by
  obtain ⟨hheader, hstamp, hen', hup', hdelay⟩ := delay_counted port port.isLt none (fhRxDelay s port) s
  change execEcpriDelayRequest port id s = _
  rw [execEcpriDelayRequest, if_pos hen, delayAnswer, fhSend_of_up (hen'.trans hen) (hup'.trans hup), fhRxDelay, rdf, hdelay, hheader,
    ← rdf, ← fhRxDelay, hstamp, delaySent]

theorem exec_ecpriRemoteRequest {port : Fin 8} (id : Byte) {s : State} (hen : fhPortEn s port = true) (hup : fhLinkUp s port = true) :
    exec (.ecpriRemoteRequest port id) s =
      .next (delaySent port (.fhDelay port (fhHeader s port none) 0 id (delayStamp s port (-(fhTxDelay s port : Int))) 0) s) := by
  obtain ⟨hheader, hstamp, hen', hup', hdelay⟩ := delay_counted port port.isLt none (-(fhTxDelay s port : Int)) s
  change execEcpriRemoteRequest port id s = _
  rw [execEcpriRemoteRequest, if_pos hen, delayAsk, fhSend_of_up (hen'.trans hen) (hup'.trans hup), fhTxDelay, rdf, hdelay, hheader,
    ← rdf, ← fhTxDelay, hstamp, delaySent]

theorem delaySent_shows (p : Nat) (o : Output) (s : State) :
    (delaySent p o s).out = s.out ++ [o] ∧ (rd (delaySent p o s) (fhReg p 0x20)).toNat = min (2 ^ 32 - 1) ((rd s (fhReg p 0x20)).toNat + 1) ∧
      regsBut [fhReg p 0x20] s (delaySent p o s) ∧
      delaySent p o s = { s with out := (delaySent p o s).out, regs := (delaySent p o s).regs, free := s.free + 1 } :=
  ⟨rfl, rd_bump_toNat (fhReg p 0x20) 1 s, bump_regsBut (fhReg p 0x20) 1 s, rfl⟩

/-! #### The link (08 R246) -/

theorem exec_fhLinkChange {port : Fin 8} {up : Bool} {s : State} (h : fhLinkUp s port ≠ up) :
    exec (.fhLinkChange port up) s = .next (raise fhEvent 0 (wrf 0xD0000 port port (bnat up) s)) := by
  change execFhLinkChange port up s = _
  rw [execFhLinkChange, if_neg h]

theorem fhLinkUp_raise_wrf (port : Fin 8) (up : Bool) (s : State) (q : Nat) :
    fhLinkUp (raise fhEvent 0 (wrf 0xD0000 port port (bnat up) s)) q = if q = port then up else fhLinkUp s q := by
  rw [fhLinkUp, rdb_raise_other _ _ _ _ _ (by decide), rdb_wrf _ _ _ _ _ _ _ (by omega) le_rfl]
  by_cases hq : q = port
  · rw [if_pos ⟨rfl, hq.ge, hq.le⟩, if_pos hq, hq, Nat.sub_self]
    cases up <;> rfl
  · rw [if_neg (by omega), if_neg hq, fhLinkUp]

/-! #### Block floating point (08 R239–R241) -/

theorem signedOf_mod (w v : Nat) : signedOf w (v % 2 ^ w) = signedOf w v := by
  unfold signedOf
  rw [Nat.mod_mod]

/-- A `w`-bit two's-complement number spelled by its residue. -/
theorem signedOf_residue {w : Nat} (hw : 0 < w) {x : Int} (hlow : -(2 ^ (w - 1) : Int) ≤ x) (hhigh : x < 2 ^ (w - 1)) :
    signedOf w (x % 2 ^ w).toNat = x := by
  have hhalf : 2 ^ w = 2 * 2 ^ (w - 1) := by rw [← Nat.pow_succ', Nat.succ_eq_add_one, Nat.sub_add_cancel hw]
  have hcast (k : Nat) : ((2 : Int) ^ k) = ((2 ^ k : Nat) : Int) := by push_cast; rfl
  rw [hcast] at hlow hhigh
  unfold signedOf
  rw [hcast]
  generalize 2 ^ (w - 1) = h at *
  rw [hhalf]
  have hmod : ((x % ((2 * h : Nat) : Int)).toNat) % (2 * h) = (x % ((2 * h : Nat) : Int)).toNat := Nat.mod_eq_of_lt (by
    have := Int.emod_lt_of_pos x (b := ((2 * h : Nat) : Int)) (by omega)
    omega)
  rw [hmod]
  rcases lt_or_ge x 0 with hneg | hpos
  · have hval : x % ((2 * h : Nat) : Int) = x + (2 * h : Nat) := by
      rw [← Int.add_emod_right]; exact Int.emod_eq_of_lt (by omega) (by omega)
    rw [hval, if_neg (by omega)]
    omega
  · rw [Int.emod_eq_of_lt hpos (by omega), if_pos (by omega)]
    omega

/-- The value fits a mantissa of `w` bits. -/
def fitsIn (w : Nat) (x : Int) : Bool := decide (-(2 ^ (w - 1) : Int) ≤ x) && decide (x < 2 ^ (w - 1))

theorem fitsIn_iff (w : Nat) (x : Int) : fitsIn w x = true ↔ -(2 ^ (w - 1) : Int) ≤ x ∧ x < 2 ^ (w - 1) := by simp [fitsIn]

theorem bitlenInt_le {w : Nat} (hw : 0 < w) {x : Int} (h : fitsIn w x = true) : bitlenInt x ≤ w := by
  obtain ⟨hlow, hhigh⟩ := (fitsIn_iff w x).1 h
  have hcast : ((2 : Int) ^ (w - 1)) = ((2 ^ (w - 1) : Nat) : Int) := by push_cast; rfl
  rw [hcast] at hlow hhigh
  have hbits {m : Nat} (hm : m < 2 ^ (w - 1)) : bitLen m + 1 ≤ w := by have := bitLen_le hm; omega
  unfold bitlenInt
  split
  · exact hbits (by omega)
  · exact hbits (by omega)

theorem foldl_max_le {l : List Nat} {a w : Nat} (ha : a ≤ w) (hl : ∀ x ∈ l, x ≤ w) : l.foldl max a ≤ w := by
  induction l generalizing a with
  | nil => exact ha
  | cons x l ih => exact ih (max_le ha (hl x List.mem_cons_self)) fun y hy => hl y (List.mem_cons_of_mem x hy)

theorem halfEven_zero (x : Int) : halfEven x 0 = x := by simp [halfEven]

theorem clampInt_of_mem {lo hi v : Int} (hlo : lo ≤ v) (hhi : v ≤ hi) : clampInt lo hi v = v := by
  rw [clampInt, if_neg (not_lt.2 hlo), if_neg (not_lt.2 hhi)]

/-- Values that fit the mantissa are their own mantissas, at exponent 0. -/
theorem prbCompress_of_fits {w : Nat} (hw : 0 < w) {xs : List Int} (h : xs.all (fitsIn w) = true) : prbCompress w xs = (0, xs, 0) := by
  have hfits (x : Int) (hx : x ∈ xs) := (fitsIn_iff w x).1 (List.all_eq_true.1 h x hx)
  have hexp : (xs.map bitlenInt).foldl max 0 - w = 0 := Nat.sub_eq_zero_of_le (foldl_max_le (Nat.zero_le w) fun n hn => by
    obtain ⟨x, hx, rfl⟩ := List.mem_map.1 hn
    exact bitlenInt_le hw (List.all_eq_true.1 h x hx))
  have hround : xs.map (fun x => halfEven x 0) = xs := (List.map_congr_left fun x _ => halfEven_zero x).trans (List.map_id _)
  have hclamp : xs.map (clampInt (-(2 ^ (w - 1))) (2 ^ (w - 1) - 1)) = xs :=
    (List.map_congr_left fun x hx => clampInt_of_mem (hfits x hx).1 (Int.le_sub_one_of_lt (hfits x hx).2)).trans (List.map_id _)
  have hnone : xs.filter (fun m => decide (m < -(2 ^ (w - 1) : Int)) || decide (2 ^ (w - 1) - 1 < m)) = [] :=
    List.filter_eq_nil_iff.2 fun x hx => by have := hfits x hx; simp; omega
  simp only [prbCompress, hexp, hround, hclamp, hnone, List.length_nil]

theorem bitsMsb_eq_map (n v : Nat) : bitsMsb n v = ((List.range n).map v.testBit).reverse := by
  induction n with
  | zero => rfl
  | succ n ih => rw [bitsMsb, ih, List.range_succ, List.map_append, List.map_singleton, List.reverse_concat]

theorem bitsMsb_mod (n v : Nat) : bitsMsb n (v % 2 ^ n) = bitsMsb n v := by
  rw [bitsMsb_eq_map, bitsMsb_eq_map]
  refine congrArg List.reverse (List.map_congr_left fun i hi => ?_)
  rw [Nat.testBit_mod_two_pow, decide_eq_true (List.mem_range.1 hi), Bool.true_and]

/-- The bits of the number that bits spell. -/
theorem bitsMsb_natMsb (bs : List Bool) : bitsMsb bs.length (natMsb bs) = bs := by
  have hbit (i : Nat) : (natMsb bs).testBit i = bs.reverse.getD i false := by
    rw [← testBit_natMsb_reverse, List.reverse_reverse]
  rw [bitsMsb_eq_map, List.reverse_eq_iff]
  refine List.ext_getElem (by simp) fun i hi hi' => ?_
  rw [List.getElem_map, List.getElem_range, hbit, List.getD_eq_getElem _ _ hi']

theorem msbBits_bytesMsb {n : Nat} {bs : List Bool} (h : bs.length = 8 * n) : msbBits (bytesMsb n bs) = bs := by
  induction n generalizing bs with
  | zero => rw [bytesMsb, List.eq_nil_of_length_eq_zero h]; rfl
  | succ n ih =>
    have hne : bs ≠ [] := by rintro rfl; simp at h
    have hbyte : bitsMsb 8 (BitVec.ofNat 8 (natMsb (bs.take 8))).toNat = bs.take 8 := by
      have hlen : (bs.take 8).length = 8 := by rw [List.length_take]; omega
      have hbits := bitsMsb_natMsb (bs.take 8)
      rw [hlen, ← bitsMsb_mod] at hbits
      exact hbits
    rw [bytesMsb, if_neg hne, msbBits, List.flatMap_cons, hbyte]
    change bs.take 8 ++ msbBits _ = bs
    rw [ih (by rw [List.length_drop]; omega), List.take_append_drop]

/-- The bits of a mantissa. -/
def mantissaBits (w : Nat) (x : Int) : List Bool := bitsMsb w (x % 2 ^ w).toNat

theorem mantissaBits_length (w : Nat) (x : Int) : (mantissaBits w x).length = w := bitsMsb_length ..

theorem mantissas_bits {w : Nat} (hw : 0 < w) {xs : List Int} (h : xs.all (fitsIn w) = true) :
    mantissas w xs.length (xs.flatMap (mantissaBits w)) = xs := by
  induction xs with
  | nil => rfl
  | cons x xs ih =>
    obtain ⟨hx, hxs⟩ := List.all_cons.symm.trans h |> Bool.and_eq_true_iff.1
    obtain ⟨hlow, hhigh⟩ := (fitsIn_iff w x).1 hx
    rw [List.flatMap_cons, List.length_cons, mantissas, List.take_left' (mantissaBits_length w x),
      List.drop_left' (mantissaBits_length w x), ih hxs, mantissaBits, natMsb_bitsMsb, signedOf_mod,
      signedOf_residue hw hlow hhigh]

theorem bfpExpand_zero {m : Int} (h : fitsIn 16 m = true) : bfpExpand 0 m = (m, false) := by
  obtain ⟨hlow, hhigh⟩ := (fitsIn_iff 16 m).1 h
  rw [bfpExpand, pow_zero, Int.mul_one, clampInt_of_mem (by omega) (by omega), decide_eq_false (by omega), decide_eq_false (by omega)]
  rfl

theorem prbExpand_of_fits {w : Nat} {bs : List Byte} {xs : List Int} (h : mantissas w 24 (msbBits bs) = xs)
    (hfits : xs.all (fitsIn 16) = true) : prbExpand w 0 bs = (xs, 0) := by
  have hplain : xs.map (bfpExpand 0) = xs.map fun x => (x, false) :=
    List.map_congr_left fun x hx => bfpExpand_zero (List.all_eq_true.1 hfits x hx)
  rw [prbExpand, h]
  change ((xs.map (bfpExpand 0)).map Prod.fst, ((xs.map (bfpExpand 0)).filter Prod.snd).length) = _
  rw [hplain]
  simp [List.map_map, Function.comp_def, List.filter_map]

/-- A value of a narrower mantissa fits a wider one. -/
theorem fitsIn_mono {w v : Nat} (h : w ≤ v) {x : Int} (hx : fitsIn w x = true) : fitsIn v x = true := by
  obtain ⟨hlow, hhigh⟩ := (fitsIn_iff w x).1 hx
  have hpow : (2 : Int) ^ (w - 1) ≤ 2 ^ (v - 1) := pow_le_pow_right₀ (by decide) (Nat.sub_le_sub_right h 1)
  exact (fitsIn_iff v x).2 ⟨by omega, by omega⟩

/-- Compression and expansion of values that fit. -/
theorem prbExpand_prbBytes {w : Nat} (hw : 0 < w) (hw' : w ≤ 16) {xs : List Int} (hlen : xs.length = 24) (h : xs.all (fitsIn w) = true) :
    (prbBytes w xs).2 = 0 ∧ ((prbBytes w xs).1.head?.map fun e => prbExpand w e ((prbBytes w xs).1.drop 1)) = some (xs, 0) := by
  have hbits : (xs.flatMap (mantissaBits w)).length = 8 * (3 * w) := by
    rw [flatMap_length_of_eq (mantissaBits_length w), hlen]
    omega
  have hbytes : prbBytes w xs = (0 :: bytesMsb (3 * w) (xs.flatMap (mantissaBits w)), 0) := by
    rw [prbBytes, prbCompress_of_fits hw h]
    rfl
  have hback : mantissas w 24 (msbBits (bytesMsb (3 * w) (xs.flatMap (mantissaBits w)))) = xs := by
    rw [msbBits_bytesMsb hbits, ← hlen, mantissas_bits hw h]
  have hwide : xs.all (fitsIn 16) = true := List.all_eq_true.2 fun x hx => fitsIn_mono hw' (List.all_eq_true.1 h x hx)
  rw [hbytes]
  exact ⟨rfl, congrArg some (prbExpand_of_fits hback hwide)⟩

/-! #### A PRB lands (08 R244) -/

/-- The stored form of a PRB. -/
def prbStored (xs : List Int) : List Byte := xs.flatMap fun x => leBytes 2 (x % 65536).toNat

theorem prbStored_length (xs : List Int) : (prbStored xs).length = xs.length * 2 := flatMap_length_of_eq (fun _ => leBytes_length _ _) xs

/-- Behind the bitmap a PRB that lands changes its own bytes alone. -/
theorem memByte_putPrb_data (a k : Nat) (xs : List Int) (s : State) {x : Nat} (hk : k < 273) (hx : a + 64 ≤ x) :
    memByte (putPrb a k xs s) x = memByte (memPut (a + 64 + 48 * k) (prbStored xs) s) x :=
  memByte_memPut_of_outside _ _ _ (Or.inr (by rw [List.length_singleton]; omega))

/-- In the bitmap it sets its own bit. -/
theorem memByte_putPrb_map {a k j : Nat} (xs : List Int) {s : State} (hwc : s.mem.wc = []) (hj : j < 64) :
    memByte (putPrb a k xs s) (a + j) =
      if j = k / 8 then memByte s (a + j) ||| BitVec.ofNat 8 (2 ^ (k % 8)) else memByte s (a + j) := by
  have hdata : memByte (memPut (a + 64 + 48 * k) (prbStored xs) s) (a + j) = memByte s (a + j) :=
    memByte_memPut_of_outside _ _ _ (Or.inl (by omega))
  change memByte (memPut (a + k / 8) [memByte (memPut (a + 64 + 48 * k) (prbStored xs) s) (a + k / 8) ||| _]
    (memPut (a + 64 + 48 * k) (prbStored xs) s)) (a + j) = _
  rw [memByte_memPut ((wc_memPut ..).trans hwc), List.length_singleton, hdata]
  by_cases hjk : j = k / 8
  · rw [if_pos (by omega), if_pos hjk, ← hjk, hdata, Nat.sub_self]
    rfl
  · rw [if_neg (by omega), if_neg hjk]

theorem prbSet_putPrb {a k j : Nat} (xs : List Int) {s : State} (hwc : s.mem.wc = []) (hj : j < 273) :
    prbSet (putPrb a k xs s) a j = (decide (j = k) || prbSet s a j) := by
  have hbit : j % 8 < 8 := Nat.mod_lt _ (by decide)
  rw [prbSet, memByte_putPrb_map xs hwc (by omega)]
  split
  · next hbyte =>
    have hsame : (k % 8 = j % 8) = (j = k) := propext (by omega)
    rw [BitVec.getLsbD_or, BitVec.getLsbD_ofNat, decide_eq_true hbit, Bool.true_and, Nat.testBit_two_pow, Bool.or_comm]
    simp only [hsame]
    rfl
  · next hbyte =>
    rw [decide_eq_false (by rintro rfl; exact hbyte rfl), Bool.false_or, prbSet]

theorem getPrb_putPrb_other {a k j : Nat} {xs : List Int} (s : State) (hk : k < 273) (hlen : xs.length = 24) (hjk : j ≠ k) :
    getPrb (putPrb a k xs s) a j = getPrb s a j := by
  refine List.map_congr_left fun i hi => ?_
  have hi24 := List.mem_range.1 hi
  rw [memRead_congr fun n hn => ?_]
  rw [memByte_putPrb_data a k xs s hk (by omega)]
  exact memByte_memPut_of_outside _ _ _ (by rw [prbStored_length, hlen]; omega)

theorem getPrb_putPrb_same {a k : Nat} {xs : List Int} {s : State} (hk : k < 273) (hlen : xs.length = 24)
    (hfits : xs.all (fitsIn 16) = true) (hwc : s.mem.wc = []) : getPrb (putPrb a k xs s) a k = xs := by
  refine List.ext_getElem (by rw [getPrb, List.length_map, List.length_range, hlen]) fun i hi hi' => ?_
  obtain ⟨hlow, hhigh⟩ := (fitsIn_iff 16 xs[i]).1 (List.all_eq_true.1 hfits _ (List.getElem_mem hi'))
  have hstored : memRead (putPrb a k xs s) (a + 64 + 48 * k + 2 * i) 2 = leBytes 2 (xs[i] % 65536).toNat := by
    rw [memRead_congr (s := memPut (a + 64 + 48 * k) (prbStored xs) s) fun n hn => memByte_putPrb_data a k xs s hk (by omega),
      memRead_memPut hwc (by rw [prbStored_length]; omega), Nat.mul_comm 2 i, prbStored]
    exact take_drop_flatMap (fun _ => leBytes_length _ _) xs i hi'
  simp only [getPrb, List.getElem_map, List.getElem_range]
  rw [hstored, leNat_leBytes, signedOf_mod, show (65536 : Int) = 2 ^ 16 by norm_num]
  exact signedOf_residue (by decide) hlow hhigh

/-! #### The statement -/

/-- Settles O50, a clause for each kind of message, and one each for block floating point and for landing. -/
theorem fronthaulReceiveAndDelay : Obligations.FronthaulReceiveAndDelay := by
  refine ⟨?bad, ?unmapped, ?mapped, ?delay, ?remote, ?link, ?bfp, ?land⟩
  case bad => exact fun port f s hen hfcs => exec_fhFrameReceive_of_bad hen hfcs
  case unmapped =>
    intro port f eaxc seq fi fr sub slot symbol xs v s hen hfcs hlong hshort hether hdst hvlan hecpri hmsg hentry
    have hexec := exec_fhFrameReceive_of_accepted hen hfcs ⟨hlong, hshort, hether, hdst, hvlan, hecpri⟩
    rw [hmsg, ecpriReceive, if_neg (by decide), uplaneReceive_of_unmapped ((upEntry_bump port (by decide) s port eaxc).trans hentry)] at hexec
    refine ⟨_, hexec, ?_, ?_, ?_, rfl⟩
    · rw [rd_bump_toNat, rd_bump_fhReg (by decide)]
    · rw [rd_bump_fhReg (by decide), rd_bump_toNat]
    · exact ((bump_regsBut _ 1 s).mono (by simp)).trans (bump_regsBut _ 1 _) (by simp)
  case mapped =>
    intro port f eaxc seq fr sub slot symbol xs w s hen hfcs hlong hshort hether hdst hvlan hecpri hmsg hentry hdata hsub hslot hsymbol
    have hexec := exec_fhFrameReceive_of_accepted hen hfcs ⟨hlong, hshort, hether, hdst, hvlan, hecpri⟩
    obtain ⟨hmu, hoffset⟩ := (bump_regsBut (fhReg port 0x20) 1 s).grid_eq
      (List.forall_mem_singleton.2 (le_trans (by decide) (le_fhReg port 0x20))) (eaxcGrid_lt w)
    rw [hmsg, ecpriReceive, if_neg (by decide), uplaneReceive_of_mapped ((upEntry_bump port (by decide) s port eaxc).trans hentry) hdata
      hsub (by rw [hmu]; exact hslot) hsymbol, nearFrame_congr (bump_time ..) hmu hoffset, hmu] at hexec
    exact hexec
  case delay => exact fun port id s hen hup => ⟨_, exec_ecpriDelayRequest id hen hup, delaySent_shows ..⟩
  case remote => exact fun port id s hen hup => ⟨_, exec_ecpriRemoteRequest id hen hup, delaySent_shows ..⟩
  case link =>
    intro port up s hchange
    have hregs := (wrf_regsBut 0xD0000 port port (bnat up) s).mono (l := [0xD0000, fhEvent]) (by simp)
    have hevent := raise_regsBut fhEvent 0 (wrf 0xD0000 port port (bnat up) s)
    refine ⟨_, exec_fhLinkChange hchange, ?_, fun q _ hq => ?_, rdb_raise _ _ _ (by decide),
      hregs.trans hevent (by simp), raise_mem .., raise_tiles ..⟩
    · rw [fhLinkUp_raise_wrf, if_pos rfl]
    · rw [fhLinkUp_raise_wrf, if_neg hq]
  case bfp =>
    intro w xs hw hlen hfits
    have hwidth : 0 < w ∧ w ≤ 16 := by simp only [List.mem_cons, List.not_mem_nil, or_false] at hw; omega
    exact prbExpand_prbBytes hwidth.1 hwidth.2 hlen hfits
  case land =>
    intro a k xs s hk hlen hrange hwc
    have hfits : xs.all (fitsIn 16) = true := List.all_eq_true.2 fun x hx => by
      have hx := List.all_eq_true.1 hrange x hx
      simp only [Bool.and_eq_true, decide_eq_true_eq] at hx
      exact (fitsIn_iff 16 x).2 (by omega)
    refine ⟨getPrb_putPrb_same hk hlen hfits hwc, ?_, fun j hj hjk => ⟨getPrb_putPrb_other s hk hlen hjk, ?_⟩⟩
    · rw [prbSet_putPrb xs hwc hk, decide_eq_true rfl, Bool.true_or]
    · rw [prbSet_putPrb xs hwc (List.mem_range.1 hj), decide_eq_false hjk, Bool.false_or]

end Sys2Proof.Machine
end

/-! ### Scoring and file descriptors (10 R311–R317; 12 R353)

Of the flow state a file descriptor changes its own file alone. A descriptor that waits in a queue is marked as started, and the depth
of the queue is told at most by an interim record. -/

section
namespace Sys2Proof.Machine

/-! #### Open files (10 R314–R317) -/

theorem fileOf_congr {s t : State} (h : t.flow.files = s.flow.files) (k : Nat) : fileOf t k = fileOf s k := by
  rw [fileOf, h, fileOf]

theorem fileOf_id {s : State} {k : Nat} {f : FileX} (h : fileOf s k = some f) : f.id = k :=
  of_decide_eq_true (List.find?_some (p := fun f : FileX => decide (f.id = k)) h)

/-- A file with new contents is the file of its FILE_ID, where there is one. -/
theorem fileOf_setFile_same {s : State} {x y : FileX} (h : fileOf s x.id = some y) : fileOf (setFile x s) x.id = some x := by
  have hy : (if y.id = x.id then x else y) = x := if_pos (fileOf_id h)
  have hfound := find?_map_of_imp (f := fun f => if f.id = x.id then x else f) h (by rw [hy]; exact decide_eq_true rfl) fun g hg => by
    by_cases hgx : g.id = x.id
    · exact Or.inr ((if_pos hgx).trans hy.symm)
    · exact Or.inl (by rwa [if_neg hgx] at hg)
  rw [hy] at hfound
  exact hfound

theorem fileOf_setFile_other {s : State} {x : FileX} {k : Nat} (h : k ≠ x.id) : fileOf (setFile x s) k = fileOf s k := by
  have hkeep : (fun f : FileX => decide (f.id = k)) ∘ (fun f : FileX => if f.id = x.id then x else f) = fun f => decide (f.id = k) := by
    funext f
    dsimp only [Function.comp_apply]
    split
    · next hf => rw [hf]
    · rfl
  have hkept : (s.flow.files.find? fun f => decide (f.id = k)).map (fun f => if f.id = x.id then x else f) =
      s.flow.files.find? fun f => decide (f.id = k) := by
    cases hfind : s.flow.files.find? fun f => decide (f.id = k) with
    | none => rfl
    | some f => rw [Option.map_some, if_neg (by rw [fileOf_id (s := s) hfind]; exact h)]
  change (s.flow.files.map fun f => if f.id = x.id then x else f).find? (fun f => decide (f.id = k)) = _
  rw [List.find?_map, hkeep]
  exact hkept

theorem fileOf_dropFile_same (k : Nat) (s : State) : fileOf (dropFile k s) k = none := by simp [fileOf, dropFile]

theorem fileOf_dropFile_other {s : State} {j k : Nat} (h : k ≠ j) : fileOf (dropFile j s) k = fileOf s k := by
  rw [fileOf, dropFile, List.find?_filter, fileOf]
  congr 1
  funext f
  by_cases hf : f.id = k
  · simp [hf, h]
  · simp [hf]

/-- The lowest FILE_ID that no file has. -/
theorem freeFile_spec {s : State} {k : Nat} (h : freeFile s = some k) :
    k < 1024 ∧ fileOf s k = none ∧ ∀ j ∈ List.range k, (fileOf s j).isSome = true := by
  obtain ⟨hfree, hmem, hbefore⟩ := List.find?_range_eq_some.1 h
  exact ⟨List.mem_range.1 hmem, Option.isNone_iff_eq_none.1 hfree, fun j hj => by simpa using hbefore j (List.mem_range.1 hj)⟩

/-- A file just opened. -/
abbrev newFile (r : DRef) (profile id : Nat) (s : State) : FileX :=
  { id, func := pairFunc s r.pair, profile, chunks := [], close := none, flow := none, queued := false, whole := false, last := s.clk }

theorem fileOf_openFile (r : DRef) (profile : Nat) {k : Nat} {s : State} (h : fileOf s k = none) (j : Nat) :
    fileOf (openFile r profile k s) j = if j = k then some (newFile r profile k s) else fileOf s j := by
  change (s.flow.files ++ [newFile r profile k s]).find? (fun f => decide (f.id = j)) = _
  rw [List.find?_append]
  change (fileOf s j).or _ = _
  split
  · next hj => rw [hj, h]; simp
  · next hj => simp [Ne.symm hj]

/-- Only a descriptor of the function that opened a file reaches it. -/
theorem fileFor_spec {s : State} {r : DRef} {k : Nat} {f : FileX} (h : fileFor s r k = some f) :
    fileOf s k = some f ∧ f.func = pairFunc s r.pair ∧ f.flow = none := by
  unfold fileFor at h
  split at h
  · next g hg =>
    split at h
    · next hmine => cases h; exact ⟨hg, hmine.2, Option.isNone_iff_eq_none.1 hmine.1⟩
    · exact absurd h nofun
  · exact absurd h nofun

/-! #### The input of a descriptor (03 R97) -/

/-- The state once the input buffer has been read. -/
def inputRead (d : BitVec 512) (s : State) : State := if dA0Dev d then devTouch (dAddr0 d).toNat (dLen0 d) s else s

theorem inputRead_of_host {d : BitVec 512} (h : dA0Dev d = false) (s : State) : inputRead d s = s := by
  rw [inputRead, h, if_neg Bool.false_ne_true]

theorem inputRead_same (d : BitVec 512) (s : State) : Does [.mem, .free] s (inputRead d s) := by
  unfold inputRead
  split
  · exact devTouch_does (Does.refl _ s) rfl
  · exact Does.refl _ s

theorem withInput_of_bytes {d : BitVec 512} {dma : Dma} {bs : List Byte} {s : State} (h : inputOf s d dma = .bytes bs) (r : DRef)
    (go : List Byte → State → State) : withInput r d dma go s = go bs (inputRead d s) := by
  rw [withInput, h, inputRead]

/-! #### A descriptor that waits in a queue -/

theorem flightOf_congr {s t : State} (h : t.flights = s.flights) (r : DRef) : flightOf t r = flightOf s r := by
  rw [flightOf, h, flightOf]

/-- The descriptor has started, and an interim record tells how many wait before it, where any do. -/
def queuedBehind (r : DRef) (ahead : Nat) (s : State) : State :=
  if ahead = 0 then markStarted r s else interim r (okStatus false false (markStarted r s)) ahead (markStarted r s)

theorem queuedBehind_marked (r : DRef) (ahead : Nat) (s : State) :
    Does [.regs, .pairs, .funcs, .out] (markStarted r s) (queuedBehind r ahead s) := by
  unfold queuedBehind
  split
  · exact Does.refl _ _
  · exact interim_does (Does.refl _ _) rfl

theorem queuedBehind_same (r : DRef) (ahead : Nat) (s : State) :
    Does [.regs, .pairs, .funcs, .flights, .out] s (queuedBehind r ahead s) :=
  (markStarted_does (Does.refl _ s) rfl).trans (queuedBehind_marked r ahead s) (by decide)

theorem flightOf_queuedBehind {r : DRef} {d : BitVec 512} {s : State} (h : flightOf s r = some ⟨r, d, false⟩) (ahead : Nat) :
    flightOf (queuedBehind r ahead s) r = some ⟨r, d, true⟩ := by
  rw [flightOf_congr ((queuedBehind_marked r ahead s).same .flights (by decide)), flightOf_markStarted h]

/-- An item as it joins the end of its queue. -/
abbrev newItem (src : ItemSrc) (c : Nat) (l : Loaded) (total : Nat) (input : List Byte) (s : State) : Item :=
  { num := s.nextItem, src, cls := c, image := l.num, part := l.part, total, done := 0, on := none, input, out := [], parkedAt := none,
    leaving := none, sagTold := false }

theorem pushItem_items (src : ItemSrc) (c : Nat) (l : Loaded) (total : Nat) (input : List Byte) (s : State) :
    (pushItem src c l total input s).items = s.items ++ [newItem src c l total input s] ∧
      (pushItem src c l total input s).nextItem = s.nextItem + 1 := by
  have hpeak (u : State) : Does [.regs] u (peakDepth c u) := peakDepth_does (Does.refl _ u) rfl
  exact ⟨(hpeak _).same .items (by decide), (hpeak _).same .nextItem (by decide)⟩

theorem pushItem_same (src : ItemSrc) (c : Nat) (l : Loaded) (total : Nat) (input : List Byte) (s : State) :
    Does [.regs, .items, .nextItem] s (pushItem src c l total input s) := pushItem_does (Does.refl _ s) rfl

/-! #### FLOW_SCORE (10 R310, R311) -/

/-- Sampling of a model's requests begins anew. -/
def sampledAnew (l : Loaded) (s : State) : State :=
  { s with flow := { s.flow with sampled := tabSet (fun _ => 0) s.flow.sampled l.num 0 } }

/-- A request of class 2 is counted, its model being under no backlog. -/
def requestCounted (c : Nat) (l : Loaded) (s : State) : State := if c = 2 then bump 0x60818 1 (sampledAnew l s) else s

theorem requestCounted_same (c : Nat) (l : Loaded) (s : State) : Does [.regs, .flow] s (requestCounted c l s) := by
  unfold requestCounted
  split
  · exact bump_does ((Does.refl _ s).congr (u := sampledAnew l s) rfl rfl rfl rfl rfl fun f hf => by
      cases f with
      | flow => exact absurd hf (by decide)
      | _ => rfl) rfl
  · exact Does.refl _ s

/-- With room in the queue, and no backlog that calls for sampling, a request is queued. -/
theorem enqueue_of_room {c : Nat} {l : Loaded} {s : State} (hbacklog : c = 1 ∨ backlog s l ≤ rdf s 0x60020 15 0)
    (hroom : queueLen s l.part c < 16384) (src : ItemSrc) (total : Nat) (input : List Byte) :
    enqueue src c l total input s = (.queued, pushItem src c l total input (requestCounted c l s)) := by
  have hopen : ¬ 16384 ≤ queueLen s l.part c := not_le.2 hroom
  by_cases hc : c = 2
  · have hsample : sampleObserve l s = (true, sampledAnew l s) := by
      rw [sampleObserve, if_pos (hbacklog.resolve_left (by omega)), sampledAnew]
    have hopen' : ¬ 16384 ≤ queueLen (sampledAnew l s) l.part c := hopen
    rw [enqueue, requestCounted, if_pos hc, if_pos hc, if_pos hc, hsample]
    dsimp only
    rw [if_neg (by decide), if_neg hopen']
  · rw [enqueue, requestCounted, if_neg hc, if_neg hc, if_neg hc]
    dsimp only
    rw [if_neg (by decide), if_neg hopen]

theorem exec_flowScore {r : DRef} {d : BitVec 512} {dma : Dma} {bs : List Byte} {l : Loaded} {s : State}
    (hready : Ready s r d 0x20
      { in0 := true, out1 := true,
        badLength := decide (dLen0 d % 128 ≠ 0) || decide (dLen0 d = 0) || decide (128 * 4096 < dLen0 d) ||
          decide (dLen1 d ≠ dLen0 d / 32),
        badMode := detConflict s d (scoreModel s (field (dOpw d 0) 15 0)) })
    (hhigh : field (dOpw d 0) 31 16 = 0) (hzero : dBits d 288 224 = 0) (hmodel : scoreModel s (field (dOpw d 0) 15 0) = some l)
    (hin : inputOf s d dma = .bytes bs) (hbacklog : dClass d = 1 ∨ backlog s l ≤ rdf s 0x60020 15 0)
    (hroom : queueLen s l.part (dClass d) < 16384) :
    exec (.flowScore r dma) s = .next (queuedBehind r (queueLen s l.part (dClass d))
      (pushItem (.desc r) (dClass d) l (dLen0 d / 128) bs (requestCounted (dClass d) l (inputRead d s)))) := by
  have hread := inputRead_same d s
  have hqueue : queueLen (inputRead d s) l.part (dClass d) = queueLen s l.part (dClass d) := by
    rw [queueLen, hread.same .items (by decide), queueLen]
  have hbacklog' : dClass d = 1 ∨ backlog (inputRead d s) l ≤ rdf (inputRead d s) 0x60020 15 0 := by
    rw [backlog, hread.same .items (by decide), (regsBut.of_regs_eq (hread.same .regs (by decide)) []).rdf_eq List.not_mem_nil]
    exact hbacklog
  change execFlowScore r dma s = _
  rw [execFlowScore, runDesc_of_rules hready, flowScoreGo, if_neg (by simp [hhigh, hzero]), hmodel]
  dsimp only
  rw [withInput_of_bytes hin, scoreVectors, hqueue, enqueue_of_room hbacklog' (hqueue.trans_lt hroom), queuedBehind]

/-! #### FLOW_VERDICT_SET (10 R312) -/

theorem exec_flowVerdictSet {r : DRef} {d : BitVec 512} {dma : Dma} {bs : List Byte} {s : State}
    (hready : Ready s r d 0x21
      { in0 := true, badLength := decide (dLen0 d = 0) || decide (dLen0 d % 64 ≠ 0) || decide (262144 < dLen0 d) })
    (hzero : dBits d 256 256 = 0) (hhost : dA0Dev d = false) (hin : inputOf s d dma = .bytes bs) :
    exec (.flowVerdictSet r dma) s = .next (verdictSetGo r d bs s) := by
  change execFlowVerdictSet r dma s = _
  rw [execFlowVerdictSet, runDesc_of_rules hready, if_neg (not_not.2 hzero), withInput_of_bytes hin, inputRead_of_host hhost]

/-- Each entry is counted once. -/
theorem setEntries_counts (n : Nat) (bs : List Byte) (c : SetCounts) (s : State) :
    (setEntries n bs c s).1.applied + (setEntries n bs c s).1.missing + (setEntries n bs c s).1.skipped =
      c.applied + c.missing + c.skipped + n ∧ c.applied ≤ (setEntries n bs c s).1.applied := by
  induction n generalizing bs c s with
  | zero => exact ⟨rfl, le_rfl⟩
  | succ n ih =>
    rw [setEntries]
    split
    · obtain ⟨hsum, hle⟩ := ih (bs.drop 64) { c with skipped := c.skipped + 1 } s
      exact ⟨hsum.trans (by dsimp only; omega), hle⟩
    · split
      · next t _ =>
        obtain ⟨hsum, hle⟩ := ih (bs.drop 64) { c with missing := c.missing + 1 } t
        exact ⟨hsum.trans (by dsimp only; omega), hle⟩
      · next i t _ =>
        obtain ⟨hsum, hle⟩ := ih (bs.drop 64) { c with applied := c.applied + 1 } (setVerdict i (bs.take 64) t)
        exact ⟨hsum.trans (by dsimp only; omega), (Nat.le_succ _).trans hle⟩

/-! #### File descriptors (10 R314–R317) -/

theorem exec_fileOpen {r : DRef} {d : BitVec 512} {s : State} (hready : Ready s r d 0x30 {}) (hhigh : field (dOpw d 0) 31 3 = 0)
    (hzero : dBits d 320 192 = 0) (hsize : (dOpw d 1).toNat ≤ 65536 * profChunks s (field (dOpw d 0) 2 0)) :
    exec (.fileOpen r) s = .next (match freeFile s with
      | none => finish r (okStatus false false s) 3 0 0 0 [] (bump 0x3048C 1 s)
      | some k => finish r (okStatus false false s) 0 (BitVec.ofNat 64 k) 0 0 [] (openFile r (field (dOpw d 0) 2 0) k s)) := by
  change execFileOpen r s = _
  rw [execFileOpen, runDesc_of_rules hready, fileOpenGo]
  rw [if_neg (by simp [hhigh, hzero])]
  exact congrArg Host.Outcome.next ((if_neg (not_lt.2 hsize)).trans (by cases freeFile s <;> rfl))

/-- A file with a chunk staged. -/
abbrev stagedFile (f : FileX) (k : Nat) (bs : List Byte) (s : State) : FileX :=
  { f with chunks := tabSet (fun _ => []) f.chunks k bs, last := s.clk }

theorem exec_fileChunk {r : DRef} {d : BitVec 512} {dma : Dma} {bs : List Byte} {f : FileX} {s : State}
    (hready : Ready s r d 0x31 { in0 := true, badLength := decide (dLen0 d = 0) || decide (65536 < dLen0 d) })
    (hzero : fileReserved d 2 = false) (hfile : fileFor s r (field (dOpw d 0) 15 0) = some f) (hopen : f.queued = false)
    (hnum : (dOpw d 1).toNat < profChunks s f.profile) (hin : inputOf (touchFile f s) d dma = .bytes bs) :
    exec (.fileChunk r dma) s = .next (stageChunk r f (dOpw d 1).toNat bs (inputRead d (touchFile f s))) := by
  change execFileChunk r dma s = _
  rw [execFileChunk, runDesc_of_rules hready, fileChunkGo, hzero, hfile]
  dsimp only
  rw [if_neg Bool.false_ne_true, hopen, if_neg Bool.false_ne_true, if_neg (not_le.2 hnum), withInput_of_bytes hin]

/-- A file as its close leaves it, with the number of chunks that it is to have. -/
abbrev closedFile (r : DRef) (f : FileX) (count : Nat) (s : State) : FileX :=
  { f with close := some r, queued := true, whole := decide ((goodChunks count f.chunks).length = count), last := s.clk }

theorem exec_fileClose {r : DRef} {d : BitVec 512} {f : FileX} {l : Loaded} {s : State}
    (hready : Ready s r d 0x32 { badMode := detConflict s d (closeModel s r d) }) (hzero : fileReserved d 2 = false)
    (hfile : fileFor s r (field (dOpw d 0) 15 0) = some f) (hopen : f.queued = false)
    (hmodel : scoreModel s (profModel s f.profile) = some l) (hroom : filesWaiting s < 64) :
    exec (.fileClose r) s = .next (queuedBehind r (filesWaiting s)
      (pushItem (.file f.id) 3 l (goodChunks (dOpw d 1).toNat f.chunks).length ((goodChunks (dOpw d 1).toNat f.chunks).flatMap (·.2))
        (setFile (closedFile r f (dOpw d 1).toNat s) s))) := by
  change execFileClose r s = _
  rw [execFileClose, runDesc_of_rules hready, fileCloseGo, hzero, hfile]
  dsimp only
  rw [if_neg Bool.false_ne_true, hopen, if_neg Bool.false_ne_true, hmodel]
  dsimp only
  rw [if_neg (not_le.2 hroom), queueClose, queuedBehind]

theorem exec_fileAbort {r : DRef} {d : BitVec 512} {f : FileX} {s : State} (hready : Ready s r d 0x33 {})
    (hzero : fileReserved d 1 = false) (hfile : fileFor s r (field (dOpw d 0) 15 0) = some f) (hopen : f.queued = false) :
    exec (.fileAbort r) s = .next (finish r (okStatus false false s) 0 0 f.chunks.length 0 [] (dropFile f.id s)) := by
  change execFileAbort r s = _
  rw [execFileAbort, runDesc_of_rules hready, fileAbortGo, hzero, hfile]
  dsimp only
  rw [if_neg Bool.false_ne_true, hopen, if_neg Bool.false_ne_true]

/-! #### The statement -/

/-- Settles O44, a clause for each descriptor; what FLOW_VERDICT_SET counts goes by induction on its entries. -/
theorem scoringAndFileDescriptors : Obligations.ScoringAndFileDescriptors := by
  refine ⟨?score, ?verdicts, ?counts, ?opened, ?full, ?chunk, ?closed, ?abort, ?owner⟩
  case score =>
    intro r d dma bs l s hready hhigh hzero hmodel hin hbacklog hroom
    have hread := inputRead_same d s
    have hcounted := (hread.mono (by decide)).trans (l := [.regs, .mem, .flow, .free]) (requestCounted_same (dClass d) l (inputRead d s))
      (by decide)
    have hall := (hcounted.mono (l := [.regs, .mem, .flow, .free, .items, .nextItem]) (by decide)).trans
      (pushItem_same (.desc r) (dClass d) l (dLen0 d / 128) bs _) (by decide)
    obtain ⟨hitems, hnext⟩ := pushItem_items (.desc r) (dClass d) l (dLen0 d / 128) bs (requestCounted (dClass d) l (inputRead d s))
    have hqueued := queuedBehind_same r (queueLen s l.part (dClass d))
      (pushItem (.desc r) (dClass d) l (dLen0 d / 128) bs (requestCounted (dClass d) l (inputRead d s)))
    have hnum : (requestCounted (dClass d) l (inputRead d s)).nextItem = s.nextItem := hcounted.same .nextItem (by decide)
    refine ⟨_, exec_flowScore hready hhigh hzero hmodel hin hbacklog hroom, ?_, ?_, ?_, ?_, fun hhost => ?_⟩
    · rw [hqueued.same .items (by decide), hitems, hcounted.same .items (by decide), newItem, hnum]
    · rw [hqueued.same .nextItem (by decide), hnext, hnum]
    · exact flightOf_queuedBehind ((flightOf_congr (hall.same .flights (by decide)) r).trans hready.1) _
    · exact (hqueued.same .tiles (by decide)).trans (hall.same .tiles (by decide))
    · rw [hqueued.same .mem (by decide), (pushItem_same ..).same .mem (by decide), (requestCounted_same ..).same .mem (by decide),
        inputRead_of_host hhost]
  case verdicts =>
    intro r d dma bs c u s hready hzero hhost hin hset
    rw [exec_flowVerdictSet hready hzero hhost hin, verdictSetGo, hset]
  case counts => exact fun n bs c s _ => setEntries_counts n bs c s
  case opened =>
    intro r d k s hready hhigh hzero hsize hfree
    obtain ⟨hk, hnone, hbefore⟩ := freeFile_spec hfree
    have hexec := exec_fileOpen hready hhigh hzero hsize
    rw [hfree] at hexec
    have hdone := finish_same r (okStatus false false s) 0 (BitVec.ofNat 64 k) 0 0 [] (openFile r (field (dOpw d 0) 2 0) k s)
    have hfiles (j : Nat) := (fileOf_congr (congrArg FlowS.files (hdone.same .flow (by decide))) j).trans (fileOf_openFile r _ hnone j)
    exact ⟨_, hexec, hk, hnone, hbefore, (hfiles k).trans (if_pos rfl), fun j _ hj => (hfiles j).trans (if_neg hj), flightOf_finish ..,
      hdone.same .mem (by decide), hdone.same .tiles (by decide)⟩
  case full =>
    intro r d s hready hhigh hzero hsize hfree
    rw [exec_fileOpen hready hhigh hzero hsize, hfree]
  case chunk =>
    intro r d dma bs f s hready hzero hfile hopen hnum hin
    obtain ⟨hfound, -, -⟩ := fileFor_spec hfile
    have hid := fileOf_id hfound
    have hread := inputRead_same d (touchFile f s)
    have hdone := finish_same r (okStatus false false (inputRead d (touchFile f s))) 0 0 1 0 []
      (setFile (stagedFile f (dOpw d 1).toNat bs (inputRead d (touchFile f s))) (inputRead d (touchFile f s)))
    have htouched (j : Nat) := fileOf_congr (congrArg FlowS.files (hread.same .flow (by decide))) j
    have hfiles (j : Nat) := fileOf_congr (congrArg FlowS.files (hdone.same .flow (by decide))) j
    have hstaged := (hfiles f.id).trans (fileOf_setFile_same (y := { f with last := s.clk }) ((htouched f.id).trans
      (fileOf_setFile_same (x := { f with last := s.clk }) (y := f) (by rw [hid]; exact hfound))))
    refine ⟨_, exec_fileChunk hready hzero hfile hopen hnum hin, ?_, ?_, fun j _ hj => ?_, flightOf_finish .., ?_, fun hhost => ?_⟩
    · rw [stageChunk, hstaged, Option.map_some, tabGet_tabSet_same]
    · rw [stageChunk, hstaged, Option.map_some, hopen]
      exact congrArg (fun clk => some (false, f.func, f.profile, clk)) (hread.same .clk (by decide))
    · exact (hfiles j).trans ((fileOf_setFile_other (x := stagedFile f (dOpw d 1).toNat bs _) hj).trans
        ((htouched j).trans (fileOf_setFile_other (x := { f with last := s.clk }) hj)))
    · exact (hdone.same .tiles (by decide)).trans (hread.same .tiles (by decide))
    · refine (hdone.same .mem (by decide)).trans ?_
      rw [inputRead_of_host hhost]
      rfl
  case closed =>
    intro r d f l s hready hzero hfile hopen hmodel hroom
    obtain ⟨hfound, -, -⟩ := fileFor_spec hfile
    have hid := fileOf_id hfound
    obtain ⟨hitems, -⟩ := pushItem_items (.file f.id) 3 l (goodChunks (dOpw d 1).toNat f.chunks).length
      ((goodChunks (dOpw d 1).toNat f.chunks).flatMap (·.2)) (setFile (closedFile r f (dOpw d 1).toNat s) s)
    have hpushed := pushItem_same (.file f.id) 3 l (goodChunks (dOpw d 1).toNat f.chunks).length
      ((goodChunks (dOpw d 1).toNat f.chunks).flatMap (·.2)) (setFile (closedFile r f (dOpw d 1).toNat s) s)
    have hqueued := (hpushed.mono (by decide)).trans (l := [.regs, .pairs, .funcs, .flights, .items, .nextItem, .out])
      (queuedBehind_same r (filesWaiting s) _) (by decide)
    refine ⟨_, exec_fileClose hready hzero hfile hopen hmodel hroom, ?_, ?_, ?_, hqueued.same .mem (by decide),
      hqueued.same .tiles (by decide)⟩
    · rw [(queuedBehind_same ..).same .items (by decide), hitems]
      rfl
    · rw [fileOf_congr (congrArg FlowS.files (hqueued.same .flow (by decide))),
        fileOf_setFile_same (x := closedFile r f (dOpw d 1).toNat s) (y := f) (by rw [hid]; exact hfound), Option.map_some]
    · exact flightOf_queuedBehind ((flightOf_congr (hpushed.same .flights (by decide)) r).trans hready.1) _
  case abort =>
    intro r d f s hready hzero hfile hopen
    have hdone := finish_same r (okStatus false false s) 0 0 f.chunks.length 0 [] (dropFile f.id s)
    have hfiles (j : Nat) := fileOf_congr (congrArg FlowS.files (hdone.same .flow (by decide))) j
    exact ⟨_, exec_fileAbort hready hzero hfile hopen, (hfiles f.id).trans (fileOf_dropFile_same ..),
      fun j _ hj => (hfiles j).trans (fileOf_dropFile_other hj), flightOf_finish .., hdone.same .mem (by decide),
      hdone.same .tiles (by decide)⟩
  case owner =>
    intro r k f s hfile
    obtain ⟨hfound, hfunc, hflow⟩ := fileFor_spec hfile
    exact ⟨hfunc, hflow, fileOf_id hfound⟩

end Sys2Proof.Machine
end

/-! ### Flow records in memory and their fields (10 R291, R292, R294, R297)

A record is two whole lines of HBM, so with nothing held for them it is stored and read back as it is. A field that is written leaves
what lies beside it. -/

section
namespace Sys2Proof.Machine

/-! #### Whole lines of HBM (07 R205) -/

theorem wcWrite_line {s : State} (hwc : s.mem.wc = []) (a : Nat) {bs : List Byte} (hlen : bs.length = 64) :
    wcWrite a bs s = memPut a bs s := by
  rw [wcWrite, if_pos hlen, hwc, List.filter_nil, ← hwc]

theorem hbmWrite_line {s : State} (hwc : s.mem.wc = []) {a : Nat} (halign : a % 64 = 0) {bs : List Byte} (hlen : 64 ≤ bs.length)
    (n : Nat) : hbmWrite (n + 1) a bs s = hbmWrite n (a + 64) (bs.drop 64) (memPut a (bs.take 64) s) := by
  have hsome : bs ≠ [] := by rintro rfl; exact absurd hlen (by decide)
  rw [hbmWrite, if_neg hsome, halign, show 64 * (a / 64) + 64 = a + 64 by omega, wcWrite_line hwc a (by rw [List.length_take]; omega)]

theorem hbmWrite_nil (n a : Nat) (s : State) : hbmWrite n a [] s = s := by cases n <;> rfl

/-- Two whole lines are stored as they are. -/
theorem memWrite_lines {s : State} (hwc : s.mem.wc = []) {a : Nat} (hfit : a + 128 ≤ hbmSize) (halign : a % 64 = 0) {bs : List Byte}
    (hlen : bs.length = 128) : memWrite a bs s = memPut (a + 64) (bs.drop 64) (memPut a (bs.take 64) s) := by
  have hsecond : (bs.drop 64).length = 64 := by rw [List.length_drop, hlen]
  rw [memWrite, hlen, if_pos hfit, hbmWrite_line hwc halign (by omega),
    hbmWrite_line ((wc_memPut ..).trans hwc) (by omega) hsecond.ge, List.drop_eq_nil_of_le hsecond.le, hbmWrite_nil,
    List.take_of_length_le hsecond.le]

theorem memByte_memWrite_lines {s : State} (hwc : s.mem.wc = []) {a : Nat} (hfit : a + 128 ≤ hbmSize) (halign : a % 64 = 0)
    {bs : List Byte} (hlen : bs.length = 128) (x : Nat) :
    memByte (memWrite a bs s) x = if a ≤ x ∧ x < a + 128 then bs.getD (x - a) 0 else memByte s x := by
  rw [memWrite_lines hwc hfit halign hlen, memByte_memPut ((wc_memPut ..).trans hwc), memByte_memPut hwc, List.length_drop,
    List.length_take, hlen]
  simp only [List.getD_eq_getElem?_getD]
  by_cases hsecond : a + 64 ≤ x ∧ x < a + 128
  · rw [if_pos (by omega), if_pos (by omega), List.getElem?_drop, show 64 + (x - (a + 64)) = x - a by omega]
  · rw [if_neg (by omega)]
    by_cases hfirst : a ≤ x ∧ x < a + 64
    · rw [if_pos (by omega), if_pos (by omega), List.getElem?_take_of_lt (by omega)]
    · rw [if_neg (by omega), if_neg (by omega)]

/-! #### A record read and written -/

theorem flowAddr_congr {s t : State} (h : rd t 0x60010 = rd s 0x60010) (i : Nat) : flowAddr t i = flowAddr s i := by
  simp only [flowAddr, ftBase, rdf, h]

theorem flowRec_congr {s t : State} (hreg : rd t 0x60010 = rd s 0x60010) (hmem : t.mem = s.mem) (i : Nat) :
    flowRec t i = flowRec s i := by
  rw [flowRec, flowAddr_congr hreg, (memSame_of_mem_eq hmem).memRead_eq, flowRec]

theorem flowRec_length (s : State) (i : Nat) : (flowRec s i).length = 128 := memRead_length ..

/-- Where record `i` can be stored whole: nothing is held for a line, and it lies in HBM on a line. -/
structure RecPlace (s : State) (i : Nat) : Prop where
  wc : s.mem.wc = []
  fits : flowAddr s i + 128 ≤ hbmSize
  aligned : flowAddr s i % 64 = 0

theorem RecPlace.congr {s t : State} {i : Nat} (h : RecPlace s i) (hreg : rd t 0x60010 = rd s 0x60010) (hmem : t.mem = s.mem) :
    RecPlace t i := by
  have haddr := flowAddr_congr hreg i
  exact ⟨by rw [hmem]; exact h.wc, by rw [haddr]; exact h.fits, by rw [haddr]; exact h.aligned⟩

theorem regs_setFlowRec {s : State} {i : Nat} (h : RecPlace s i) {r : List Byte} (hlen : r.length = 128) :
    (setFlowRec i r s).regs = s.regs := by
  rw [setFlowRec, memWrite_lines h.wc h.fits h.aligned hlen]
  rfl

/-- A record that is stored is read back, and no other byte changes. -/
theorem flowRec_setFlowRec {s : State} {i : Nat} (h : RecPlace s i) {r : List Byte} (hlen : r.length = 128) :
    flowRec (setFlowRec i r s) i = r ∧ memBut (flowAddr s i) 128 s (setFlowRec i r s) := by
  have hbyte (x : Nat) : memByte (setFlowRec i r s) x =
      if flowAddr s i ≤ x ∧ x < flowAddr s i + 128 then r.getD (x - flowAddr s i) 0 else memByte s x :=
    memByte_memWrite_lines h.wc h.fits h.aligned hlen x
  refine ⟨List.ext_getElem ((flowRec_length ..).trans hlen.symm) fun k hk hk' => ?_, fun x hx => ?_⟩
  · have haddr : flowAddr (setFlowRec i r s) i = flowAddr s i :=
      flowAddr_congr (regsBut.of_regs_eq (regs_setFlowRec h hlen) [] _ List.not_mem_nil) i
    simp only [flowRec, memRead_getElem, haddr]
    rw [hbyte, if_pos (by omega), Nat.add_sub_cancel_left, List.getD_eq_getElem _ _ hk']
  · rw [hbyte, if_neg (by omega)]

/-! #### Bytes of a list put -/

theorem putAt_length {bs new : List Byte} {o : Nat} (h : o + new.length ≤ bs.length) : (putAt bs o new).length = bs.length := by
  simp only [putAt, List.length_append, List.length_take, List.length_drop]
  omega

theorem getElem?_putAt {bs new : List Byte} {o : Nat} (h : o + new.length ≤ bs.length) (x : Nat) :
    (putAt bs o new)[x]? = if o ≤ x ∧ x < o + new.length then new[x - o]? else bs[x]? := by
  have htake : (bs.take o).length = o := by rw [List.length_take]; omega
  have hhead : (bs.take o ++ new).length = o + new.length := by rw [List.length_append, htake]
  rw [putAt]
  by_cases hbefore : x < o
  · rw [List.getElem?_append_left (by omega), List.getElem?_append_left (by omega), List.getElem?_take_of_lt hbefore, if_neg (by omega)]
  · by_cases hin : x < o + new.length
    · rw [List.getElem?_append_left (by omega), List.getElem?_append_right (by omega), htake, if_pos (by omega)]
    · rw [List.getElem?_append_right (by omega), hhead, List.getElem?_drop, if_neg (by omega)]
      congr 1
      omega

theorem take_drop_putAt_other {bs new : List Byte} {o p n : Nat} (h : o + new.length ≤ bs.length)
    (hout : p + n ≤ o ∨ o + new.length ≤ p) : ((putAt bs o new).drop p).take n = (bs.drop p).take n := by
  refine List.ext_getElem? fun x => ?_
  by_cases hx : x < n
  · rw [List.getElem?_take_of_lt hx, List.getElem?_take_of_lt hx, List.getElem?_drop, List.getElem?_drop, getElem?_putAt h,
      if_neg (by omega)]
  · rw [List.getElem?_take_eq_none (by omega), List.getElem?_take_eq_none (by omega)]

theorem leAt_putAt_other {bs new : List Byte} {o p n : Nat} (h : o + new.length ≤ bs.length) (hout : p + n ≤ o ∨ o + new.length ≤ p) :
    leAt (putAt bs o new) p n = leAt bs p n := by
  rw [leAt, take_drop_putAt_other h hout, leAt]

theorem leAt_putAt_same {bs : List Byte} {o n v : Nat} (h : o + n ≤ bs.length) :
    leAt (putAt bs o (leBytes n v)) o n = v % 2 ^ (8 * n) := by
  have htake : (bs.take o).length = o := by rw [List.length_take]; omega
  rw [leAt, putAt, List.append_assoc, List.drop_left' htake, List.take_left' (leBytes_length n v), leNat_leBytes]

theorem leAt_lt (bs : List Byte) (o n : Nat) : leAt bs o n < 2 ^ (8 * n) := by
  have hlt := leNat_lt ((bs.drop o).take n)
  have hlen : ((bs.drop o).take n).length ≤ n := List.length_take_le ..
  have hpow : 2 ^ (8 * ((bs.drop o).take n).length) ≤ 2 ^ (8 * n) := Nat.pow_le_pow_right (by decide) (by omega)
  exact lt_of_lt_of_le hlt hpow

/-! #### STATE, STICKY and the verdict (10 R294) -/

theorem frSetState_length (v : Nat) {r : List Byte} (h : r.length = 128) : (frSetState v r).length = 128 := by
  rw [frSetState, putAt_length (by rw [leBytes_length]; omega), h]

theorem frSetBit_length (b : Nat) (v : Bool) {r : List Byte} (h : r.length = 128) : (frSetBit 44 b v r).length = 128 := by
  rw [frSetBit]
  rw [putAt_length (by rw [leBytes_length]; omega), h]

theorem frSetVerdict_length (v : Nat) {r : List Byte} (h : r.length = 128) : (frSetVerdict v r).length = 128 := by
  rw [frSetVerdict, putAt_length (by rw [leBytes_length]; omega), h]

/-- The state is the two low bits of byte 44; the others stay. -/
theorem flags_frSetState {v : Nat} (hv : v < 4) {r : List Byte} (h : r.length = 128) :
    leAt (frSetState v r) 44 1 = leAt r 44 1 / 4 * 4 + v := by
  have hlt : leAt r 44 1 < 256 := leAt_lt r 44 1
  rw [frSetState, leAt_putAt_same (by omega)]
  omega

theorem frState_frSetState {v : Nat} (hv : v < 4) {r : List Byte} (h : r.length = 128) : frState (frSetState v r) = v := by
  rw [frState, flags_frSetState hv h]
  omega

theorem frSticky_eq (r : List Byte) : frSticky r = decide (leAt r 44 1 / 32 % 2 = 1) := Nat.testBit_eq_decide_div_mod_eq

theorem frSticky_frSetState {v : Nat} (hv : v < 4) {r : List Byte} (h : r.length = 128) : frSticky (frSetState v r) = frSticky r := by
  rw [frSticky_eq, frSticky_eq, flags_frSetState hv h, show (leAt r 44 1 / 4 * 4 + v) / 32 = leAt r 44 1 / 32 by omega]

theorem frSticky_cleared {r : List Byte} (h : r.length = 128) : frSticky (frSetBit 44 5 false r) = false := by
  have hlt : leAt r 44 1 < 256 := leAt_lt r 44 1
  have hbyte : leAt (frSetBit 44 5 false r) 44 1 = leAt r 44 1 - bnat ((leAt r 44 1).testBit 5) * 2 ^ 5 := by
    rw [frSetBit]
    rw [leAt_putAt_same (by omega), bnat, bnat]
    simp only [Bool.false_eq_true, if_false]
    omega
  rw [frSticky_eq, hbyte, Nat.testBit_eq_decide_div_mod_eq, bnat, decide_eq_false_iff_not]
  simp only [decide_eq_true_eq]
  split <;> omega

theorem frVerdict_frSetVerdict_zero {r : List Byte} (h : r.length = 128) : frVerdict (frSetVerdict 0 r) = 0 := by
  rw [frVerdict, frSetVerdict, leAt_putAt_same (by omega), Nat.zero_mod]

/-- The verdict lies beside the flags. -/
theorem flags_frSetVerdict (v : Nat) {r : List Byte} (h : r.length = 128) : leAt (frSetVerdict v r) 44 1 = leAt r 44 1 :=
  leAt_putAt_other (by rw [leBytes_length]; omega) (Or.inl (by decide))

/-- A record as it is when it becomes FREE. -/
abbrev freed (r : List Byte) : List Byte := frSetVerdict 0 (frSetState 0 (frSetBit 44 5 false r))

theorem freed_spec {r : List Byte} (h : r.length = 128) :
    (freed r).length = 128 ∧ frState (freed r) = 0 ∧ frVerdict (freed r) = 0 ∧ frSticky (freed r) = false := by
  have hcleared := frSetBit_length 5 false h
  have hfree := frSetState_length 0 hcleared
  refine ⟨frSetVerdict_length 0 hfree, ?_, frVerdict_frSetVerdict_zero hfree, ?_⟩
  · rw [frState, flags_frSetVerdict 0 hfree, ← frState, frState_frSetState (by decide) hcleared]
  · rw [frSticky_eq, flags_frSetVerdict 0 hfree, ← frSticky_eq, frSticky_frSetState (by decide) hcleared, frSticky_cleared h]

/-! #### Packet statistics (10 R294) -/

/-- The bytes of a record before its packet lengths are the same, and there are as many. -/
def HeadKept (r r' : List Byte) : Prop := r'.length = r.length ∧ ∀ p n, p + n ≤ 84 → (r'.drop p).take n = (r.drop p).take n

theorem HeadKept.refl (r : List Byte) : HeadKept r r := ⟨rfl, fun _ _ _ => rfl⟩

theorem HeadKept.putAt {r r' : List Byte} (h : HeadKept r r') {o : Nat} (ho : 84 ≤ o) {new : List Byte}
    (hfit : o + new.length ≤ r.length) : HeadKept r (putAt r' o new) := by
  obtain ⟨hlen, hsame⟩ := h
  have hfit' : o + new.length ≤ r'.length := hfit.trans hlen.ge
  exact ⟨(putAt_length hfit').trans hlen, fun p n hpn => (take_drop_putAt_other hfit' (Or.inl (by omega))).trans (hsame p n hpn)⟩

theorem HeadKept.leAt_eq {r r' : List Byte} (h : HeadKept r r') {p n : Nat} (hpn : p + n ≤ 84) : leAt r' p n = leAt r p n := by
  rw [leAt, h.2 p n hpn, leAt]

theorem satAdd_length {o n v : Nat} {r : List Byte} (h : o + n ≤ r.length) : (satAdd o n v r).length = r.length :=
  putAt_length (by rw [leBytes_length]; exact h)

theorem leAt_satAdd_same {o n v : Nat} {r : List Byte} (h : o + n ≤ r.length) :
    leAt (satAdd o n v r) o n = min (2 ^ (8 * n) - 1) (leAt r o n + v) := by
  have hpos : 0 < 2 ^ (8 * n) := Nat.two_pow_pos _
  rw [satAdd, leAt_putAt_same h, Nat.mod_eq_of_lt (by omega)]

theorem take_drop_satAdd_other {o n v p k : Nat} {r : List Byte} (h : o + n ≤ r.length) (hout : p + k ≤ o ∨ o + n ≤ p) :
    ((satAdd o n v r).drop p).take k = (r.drop p).take k :=
  take_drop_putAt_other (by rw [leBytes_length]; exact h) (by rw [leBytes_length]; exact hout)

theorem leAt_satAdd_other {o n v p k : Nat} {r : List Byte} (h : o + n ≤ r.length) (hout : p + k ≤ o ∨ o + n ≤ p) :
    leAt (satAdd o n v r) p k = leAt r p k := by rw [leAt, take_drop_satAdd_other h hout, leAt]

/-- Of a packet's statistics only the two counters lie before the packet lengths. -/
theorem recStats_eq (b : Bool) (p : Pkt) (iat : Nat) {r : List Byte} (hlen : r.length = 128) :
    ∃ r', HeadKept r r' ∧ recStats b p iat r = satAdd (72 + 5 * bnat b) 5 p.ip.len (satAdd (64 + 4 * bnat b) 4 1 r') := by
  have hb : bnat b ≤ 1 := by cases b <;> decide
  have hput {r' new : List Byte} {o : Nat} (h : HeadKept r r') (ho : 84 ≤ o) (hfit : o + new.length ≤ 128) :
      HeadKept r (putAt r' o new) := h.putAt ho (hlen.symm ▸ hfit)
  refine ⟨_, ?_, rfl⟩
  refine hput (hput (hput ?_ (by omega) ?_) (by omega) ?_) (by omega) ?_
  · split
    · refine hput (hput ?_ (by omega) (by rw [leBytes_length]; omega)) (by omega) (by rw [leBytes_length]; omega)
      split
      · exact hput (hput (HeadKept.refl r) (by omega) (by rw [leBytes_length]; omega)) (by omega) (by rw [leBytes_length]; omega)
      · exact HeadKept.refl r
    · split
      · exact hput (hput (HeadKept.refl r) (by omega) (by rw [leBytes_length]; omega)) (by omega) (by rw [leBytes_length]; omega)
      · exact HeadKept.refl r
  all_goals rw [leBytes_length]; decide

theorem recStats_counts (b : Bool) (p : Pkt) (iat : Nat) {r : List Byte} (hlen : r.length = 128) :
    leAt (recStats b p iat r) (64 + 4 * bnat b) 4 = min (2 ^ 32 - 1) (leAt r (64 + 4 * bnat b) 4 + 1) ∧
    leAt (recStats b p iat r) (68 - 4 * bnat b) 4 = leAt r (68 - 4 * bnat b) 4 ∧
    leAt (recStats b p iat r) (72 + 5 * bnat b) 5 = min (2 ^ 40 - 1) (leAt r (72 + 5 * bnat b) 5 + p.ip.len) ∧
    (recStats b p iat r).take 64 = r.take 64 ∧ (recStats b p iat r).length = 128 := by
  have hb : bnat b ≤ 1 := by cases b <;> decide
  obtain ⟨r', hhead, heq⟩ := recStats_eq b p iat hlen
  have hlen' : r'.length = 128 := hhead.1.trans hlen
  have hpkts : (satAdd (64 + 4 * bnat b) 4 1 r').length = 128 := (satAdd_length (by omega)).trans hlen'
  rw [heq]
  refine ⟨?_, ?_, ?_, ?_, (satAdd_length (by omega)).trans hpkts⟩
  · rw [leAt_satAdd_other (by omega) (by omega), leAt_satAdd_same (by omega), hhead.leAt_eq (by omega)]
  · rw [leAt_satAdd_other (by omega) (by omega), leAt_satAdd_other (by omega) (by omega), hhead.leAt_eq (by omega)]
  · rw [leAt_satAdd_same (by omega), leAt_satAdd_other (by omega) (by omega), hhead.leAt_eq (by omega)]
  · have hbytes := take_drop_satAdd_other (v := p.ip.len) (p := 0) (k := 64) (o := 72 + 5 * bnat b) (n := 5) (by omega)
      (Or.inl (by omega)) (r := satAdd (64 + 4 * bnat b) 4 1 r')
    have hcount := take_drop_satAdd_other (v := 1) (p := 0) (k := 64) (o := 64 + 4 * bnat b) (n := 4) (r := r') (by omega)
      (Or.inl (by omega))
    simpa only [List.drop_zero] using hbytes.trans (hcount.trans (hhead.2 0 64 (by decide)))

end Sys2Proof.Machine
end

/-! ### Line ports, holds and verdicts (10 R283–R285, R294–R306, R316, R317)

What is counted at a line port stands in a register of that port, which no record and no policy reads. A hold that ends without a
verdict keeps its request; the word for a request takes it away, and what is written after that touches neither the events of the flow
front nor the count of words that are no verdict. -/

section
namespace Sys2Proof.Machine

/-! #### Registers of a line port -/

theorem lineReg_bounds (port : Fin 8) {o : Nat} (ho : o < 0x20) : 0xC0100 ≤ lineReg port o ∧ lineReg port o < 0xC0200 := by
  unfold lineReg; omega

theorem le_lineReg (k o : Nat) : 0xC0100 ≤ lineReg k o := by unfold lineReg; omega

theorem lineReg_ne {k k' o o' : Nat} (ho : o < 0x20) (ho' : o' < 0x20) (h : o ≠ o') : lineReg k o ≠ lineReg k' o' := by
  unfold lineReg; omega

/-- A counter of a line port is no other register. -/
theorem rd_bump_lineReg (port : Fin 8) {o : Nat} (ho : o < 0x20) (n : Nat) (s : State) {q : Nat} (hq : q < 0xC0100 ∨ 0xC0200 ≤ q) :
    rd (bump (lineReg port o) n s) q = rd s q :=
  bump_regsBut _ n s q (by have h := lineReg_bounds port ho; simp only [List.mem_singleton]; omega)

/-- A frame that is counted at a port. -/
def frameCounted (port : Fin 8) (o : Nat) (s : State) : State := bump (lineReg port o) 1 s

/-- Counting a frame leaves whatever says how it is treated. -/
theorem frameCounted_keeps (port : Fin 8) {o : Nat} (ho : o < 0x20) (s : State) :
    flowRuns (frameCounted port o s) = flowRuns s ∧ timeSrc (frameCounted port o s) = timeSrc s ∧
      mirrorEn (frameCounted port o s) = mirrorEn s ∧ (∀ k, lineOn (frameCounted port o s) k = lineOn s k) ∧
      rdb (frameCounted port o s) 0xC0000 2 = rdb s 0xC0000 2 ∧ rdb (frameCounted port o s) 0x200F0 port = rdb s 0x200F0 port := by
  have hread {q : Nat} (hq : q < 0xC0100 ∨ 0xC0200 ≤ q) : rd (frameCounted port o s) q = rd s q := rd_bump_lineReg port ho 1 s hq
  simp only [flowRuns, locked, timeSrc, mirrorEn, lineOn, linePorts, rdb, rdf, hread (q := 8) (by decide), hread (q := bootStatus) (by decide),
    hread (q := 0x60000) (by decide), hread (q := 0x60004) (by decide), hread (q := srcCfg) (by decide), hread (q := 0x60028) (by decide),
    hread (q := 0xC0000) (by decide), hread (q := 0x200F0) (by decide), true_and, and_true]
  exact ⟨rfl, fun _ => rfl⟩

/-! #### Reception (10 R283–R285) -/

theorem exec_lineFrameReceive_of_discarded {port : Fin 8} {f : List Byte} (ok : Bool) {s : State} (hup : hostDown s = false)
    (hbad : lineOn s port = false ∨ f.length < 60 ∨ 9212 < f.length) :
    exec (.lineFrameReceive port f ok) s = .next (bump (lineReg port 8) 1 s) := by
  change execLineFrameReceive port f ok s = _
  rw [execLineFrameReceive, hup, if_neg Bool.false_ne_true, if_pos (hbad.imp_right Or.inr)]

theorem exec_lineFrameReceive_of_good {port : Fin 8} {f : List Byte} {s : State} (hup : hostDown s = false) (hon : lineOn s port = true)
    (hmirror : mirrorEn s = false) (hlong : 60 ≤ f.length) (hshort : f.length ≤ 9212) (htype : beAt f 12 2 ≠ 0x8808) :
    exec (.lineFrameReceive port f true) s = .next (goodFrame port f s) := by
  change execLineFrameReceive port f true s = _
  rw [execLineFrameReceive, hup, if_neg Bool.false_ne_true, if_neg, if_neg (by decide), if_neg htype]
  rw [hon, hmirror]
  simp only [Bool.true_eq_false, Bool.false_eq_true, false_and, false_or]
  omega

theorem slavePtp_of_no_slave {s : State} (h : timeSrc s ≠ 1) (k : Nat) (f : List Byte) (o : Nat) : slavePtp k f o s = (false, s) := by
  rw [slavePtp, if_neg fun hsrc => h hsrc.1]

/-- With the flow front stopped a good frame is treated as traffic without a score. -/
theorem goodFrame_of_stopped {port : Fin 8} {f : List Byte} {s : State} (hsrc : timeSrc s ≠ 1) (hstop : flowRuns s = false) :
    goodFrame port f s = unscoredPolicy port false f (frameCounted port 0 s) := by
  obtain ⟨-, hsrc', -⟩ := frameCounted_keeps port (o := 0) (by decide) s
  have hslave (o : Nat) : slavePtp port f o (bump (lineReg port 0) 1 s) = (false, bump (lineReg port 0) 1 s) :=
    slavePtp_of_no_slave (hsrc'.trans_ne hsrc) port f o
  rw [goodFrame, frameCounted]
  rw [hstop, if_neg (c := false = true) Bool.false_ne_true]
  cases (parseFrame s f).1 with
  | ptp o u pkt =>
    simp only [hslave, Bool.false_eq_true, if_false]
  | _ => rfl

/-- A frame leaves by the partner port as it came. -/
theorem forward_of_plain {k : Nat} {s : State} (hon : lineOn s (partner k) = true) (hmirror : mirrorEn s = false)
    (hptp : rdb s 0x200F0 k = false) (bad : Bool) (f : List Byte) (arrived : Nat) :
    forward k bad f arrived s = sendFrame (partner k) bad f s := by
  rw [forward]
  rw [hon, hmirror, hptp, if_neg (by simp), if_neg Bool.false_ne_true]

theorem unscoredPolicy_of_pass {k : Nat} {s : State} (h : rdb s 0xC0000 2 = true) (bad : Bool) (f : List Byte) :
    unscoredPolicy k bad f s = forwardNow k bad f (bump (lineReg k 0x10) 1 s) := by rw [unscoredPolicy, if_pos h]

/-- A good frame that is forwarded without a score. -/
def framePassed (port : Fin 8) (f : List Byte) (s : State) : State :=
  sendFrame (partner port) false f (frameCounted port 0x10 (frameCounted port 0 s))

theorem goodFrame_of_pass {port : Fin 8} {f : List Byte} {s : State} (hsrc : timeSrc s ≠ 1) (hstop : flowRuns s = false)
    (hpass : rdb s 0xC0000 2 = true) (hout : lineOn s (partner port) = true) (hmirror : mirrorEn s = false)
    (hptp : rdb s 0x200F0 port = false) : goodFrame port f s = framePassed port f s := by
  obtain ⟨-, -, hmirror₁, hon₁, hpass₁, hptp₁⟩ := frameCounted_keeps port (o := 0) (by decide) s
  obtain ⟨-, -, hmirror₂, hon₂, -, hptp₂⟩ := frameCounted_keeps port (o := 0x10) (by decide) (frameCounted port 0 s)
  rw [goodFrame_of_stopped hsrc hstop, unscoredPolicy_of_pass (hpass₁.trans hpass), forwardNow]
  exact forward_of_plain ((hon₂ _).trans ((hon₁ _).trans hout)) (hmirror₂.trans (hmirror₁.trans hmirror))
    (hptp₂.trans (hptp₁.trans hptp)) ..

theorem rd_sendFrame (k : Nat) (bad : Bool) (f : List Byte) (s : State) (q : Nat) :
    rd (sendFrame k bad f s) q = rd (bump (lineReg k 0xC) 1 s) q := rfl

theorem bump_eq_update {s u : State} (h : u = { s with regs := u.regs }) (o n : Nat) :
    bump o n u = { s with regs := (bump o n u).regs } := by
  generalize u.regs = regs at h
  subst h
  rfl

theorem emit_eq_update {s u : State} (h : u = { s with regs := u.regs }) (o : Output) :
    emit o u = { s with regs := (emit o u).regs, out := s.out ++ [o] } := by
  generalize u.regs = regs at h
  subst h
  rfl

theorem framePassed_eq_update (port : Fin 8) (f : List Byte) (s : State) : framePassed port f s =
    { s with regs := (framePassed port f s).regs, out := s.out ++ [.lineTx (partner port) (f ++ fcsBytes false f)] } :=
  emit_eq_update (bump_eq_update (bump_eq_update (bump_eq_update rfl _ _) _ _) _ _) _

theorem framePassed_shows (port : Fin 8) (f : List Byte) (s : State) :
    (rd (framePassed port f s) (lineReg port 0)).toNat = min (2 ^ 32 - 1) ((rd s (lineReg port 0)).toNat + 1) ∧
    (rd (framePassed port f s) (lineReg port 0x10)).toNat = min (2 ^ 32 - 1) ((rd s (lineReg port 0x10)).toNat + 1) ∧
    (rd (framePassed port f s) (lineReg (partner port) 0xC)).toNat =
      min (2 ^ 32 - 1) ((rd s (lineReg (partner port) 0xC)).toNat + 1) ∧
    regsBut [lineReg port 0, lineReg port 0x10, lineReg (partner port) 0xC] s (framePassed port f s) := by
  have hother {k k' o o' : Nat} (ho : o < 0x20) (ho' : o' < 0x20) (h : o' ≠ o) (u : State) :
      rd (bump (lineReg k o) 1 u) (lineReg k' o') = rd u (lineReg k' o') :=
    bump_regsBut _ 1 u _ (by rw [List.mem_singleton]; exact lineReg_ne ho' ho h)
  have hread (q : Nat) : rd (framePassed port f s) q =
      rd (bump (lineReg (partner port) 0xC) 1 (bump (lineReg port 0x10) 1 (bump (lineReg port 0) 1 s))) q := rd_sendFrame ..
  refine ⟨?_, ?_, ?_, fun q hq => ?_⟩
  · rw [hread, hother (by decide) (by decide) (by decide), hother (by decide) (by decide) (by decide), rd_bump_toNat]
  · rw [hread, hother (by decide) (by decide) (by decide), rd_bump_toNat, hother (by decide) (by decide) (by decide)]
  · rw [hread, rd_bump_toNat, hother (by decide) (by decide) (by decide), hother (by decide) (by decide) (by decide)]
  · simp only [List.mem_cons, List.not_mem_nil, or_false, not_or] at hq
    obtain ⟨hgood, hpass, hsent⟩ := hq
    rw [hread, bump_regsBut _ 1 _ q (by simpa using hsent), bump_regsBut _ 1 _ q (by simpa using hpass),
      bump_regsBut _ 1 _ q (by simpa using hgood)]

/-! #### A packet of a record (10 R291, R295) -/

theorem findRec_congr {s t : State} (hreg : rd t 0x60010 = rd s 0x60010) (hmem : t.mem = s.mem) (b : Nat) (key : List Byte) :
    findRec t b key = findRec s b key := by
  simp only [findRec, flowRec_congr hreg hmem]

theorem flowBucket_congr {s t : State} (hreg : rd t 0x60010 = rd s 0x60010) (hseed : rd t 0x60014 = rd s 0x60014) (key : List Byte) :
    flowBucket t key = flowBucket s key := by
  simp only [flowBucket, flowHash, ftLog2, rdf, hreg, hseed]

/-- A packet whose key has an OPEN record goes to that record. -/
theorem keyedPacket_of_open {k : Nat} {f : List Byte} {p : Pkt} {i : Nat} {s : State}
    (hfind : findRec s (flowBucket s (pktKey p)) (pktKey p) = some i) (hstate : frState (flowRec s i) = 1) :
    keyedPacket k f p s = flowPacket i false k f p s := by
  rw [keyedPacket, hfind]
  dsimp only
  rw [hstate, if_neg (by simp)]

theorem goodFrame_of_packet {port : Fin 8} {f : List Byte} {p : Pkt} {s : State} (hruns : flowRuns s = true)
    (hparse : parseFrame s f = (.ip p, false)) : goodFrame port f s = keyedPacket port f p (frameCounted port 0 s) := by
  rw [goodFrame, hparse]
  dsimp only
  rw [if_neg Bool.false_ne_true, if_pos hruns, if_neg Bool.false_ne_true, frontFrame, frameCounted]

/-! #### What the flow front keeps beside a record -/

theorem flowX_congr {s t : State} (h : t.flow.x = s.flow.x) (i : Nat) : flowX t i = flowX s i := by rw [flowX, h, flowX]

theorem flowX_of_flow_eq {s t : State} (h : t.flow = s.flow) (i : Nat) : flowX t i = flowX s i := flowX_congr (congrArg FlowS.x h) i

@[simp] theorem flowX_setFlowX (i : Nat) (x : FlowX) (s : State) : flowX (setFlowX i x s) i = x := tabGet_tabSet_same ..

theorem memByte_setFlowX (i : Nat) (x : FlowX) (s : State) (a : Nat) : memByte (setFlowX i x s) a = memByte s a := rfl

theorem out_setFlowX (i : Nat) (x : FlowX) (s : State) : (setFlowX i x s).out = s.out := rfl

theorem rd_setFlowX (i : Nat) (x : FlowX) (s : State) (o : Nat) : rd (setFlowX i x s) o = rd s o := rfl

theorem flowRec_setFlowX (i : Nat) (x : FlowX) (s : State) (j : Nat) : flowRec (setFlowX i x s) j = flowRec s j :=
  flowRec_congr rfl rfl j

/-! #### The sweeper (10 R297) -/

theorem exec_flowSweep_idle {i : Nat} {s : State} (hruns : flowRuns s = true) (hi : i < 2 ^ ftLog2 s) (hstate : frState (flowRec s i) = 1)
    (hage : polIdleS s (frPolicy (flowRec s i)) * ticksS < s.clk - (flowX s i).lastClk) (hmode : 2 ≤ polMode s (frPolicy (flowRec s i))) :
    exec (.flowSweep i) s = .next (setFlowRec i (frSetState 2 (flowRec s i)) s) := by
  change execFlowSweep i s = _
  rw [execFlowSweep, hruns, if_neg (by simp [hi]), if_pos ⟨hstate, hage⟩, idleEnd]
  rw [if_neg (by omega), updRec]

/-- A record that is freed or replaced stands as it did, and so does its place. -/
theorem orphanRec_keeps {i : Nat} {s : State} (h : RecPlace s i) :
    RecPlace (orphanRec i s) i ∧ flowRec (orphanRec i s) i = flowRec s i ∧ flowAddr (orphanRec i s) i = flowAddr s i := by
  have horphan := orphanRec_does (fs₀ := [.flow]) (i := i) (Does.refl _ s) rfl
  have htable : rd (orphanRec i s) 0x60010 = rd s 0x60010 := regsBut.of_regs_eq (horphan.same .regs (by decide)) [] _ List.not_mem_nil
  have hmem : (orphanRec i s).mem = s.mem := horphan.same .mem (by decide)
  exact ⟨h.congr htable hmem, flowRec_congr htable hmem i, flowAddr_congr htable i⟩

/-- The state in which record `i` has become FREE. -/
def recFreed (i : Nat) (s : State) : State := setFlowX i {} (setFlowRec i (freed (flowRec (orphanRec i s) i)) (orphanRec i s))

theorem recFreed_shows {i : Nat} {s : State} (h : RecPlace s i) :
    flowRec (recFreed i s) i = freed (flowRec s i) ∧ flowX (recFreed i s) i = {} ∧ memBut (flowAddr s i) 128 s (recFreed i s) ∧
      (recFreed i s).out = s.out := by
  obtain ⟨hplace, hrec, haddr⟩ := orphanRec_keeps h
  have horphan := orphanRec_does (fs₀ := [.flow]) (i := i) (Does.refl _ s) rfl
  have hmem : (orphanRec i s).mem = s.mem := horphan.same .mem (by decide)
  have hout : (orphanRec i s).out = s.out := horphan.same .out (by decide)
  have hstored := setFlowRec_does (fs₀ := [.regs, .mem]) (i := i) (r := freed (flowRec (orphanRec i s) i)) (Does.refl _ (orphanRec i s)) rfl
  have hlen : (freed (flowRec (orphanRec i s) i)).length = 128 := (freed_spec (flowRec_length ..)).1
  obtain ⟨hread, hbut⟩ := flowRec_setFlowRec hplace hlen
  rw [haddr] at hbut
  rw [recFreed]
  refine ⟨?_, flowX_setFlowX .., fun x hx => ?_, ?_⟩
  · rw [flowRec_setFlowX, hread, hrec]
  · rw [memByte_setFlowX, hbut x hx, memByte_congr hmem x]
  · rw [out_setFlowX, hstored.same .out (by decide), hout]

theorem exec_flowSweep_ended {i : Nat} {s : State} (hruns : flowRuns s = true) (hi : i < 2 ^ ftLog2 s)
    (hstate : frState (flowRec s i) = 2) (hheld : frHeld (flowRec s i) = false)
    (hage : rdf s 0x6001C 15 8 * (ticksS / 4) < s.clk - (flowX s i).lastClk) :
    exec (.flowSweep i) s = .next (recFreed i s) := by
  change execFlowSweep i s = _
  rw [execFlowSweep, hruns, if_neg (by simp [hi]), if_neg (by rw [hstate]; simp), if_pos ⟨hstate, hheld, hage⟩, freeRec, updRec, recFreed]

/-! #### A hold ends without a verdict (10 R302, R303) -/

theorem flow_updRec (i : Nat) (g : List Byte → List Byte) (s : State) : (updRec i g s).flow = s.flow :=
  (updRec_does (fs₀ := [.regs, .mem]) (Does.refl _ s) rfl).same .flow (by decide)

theorem flow_forward (k : Nat) (bad : Bool) (f : List Byte) (arrived : Nat) (s : State) : (forward k bad f arrived s).flow = s.flow :=
  (forward_does (fs₀ := [.regs, .free, .out]) (Does.refl _ s) rfl).same .flow (by decide)

theorem flow_countHoldEnd (i : Nat) (why : Option NoRoom) (s : State) : (countHoldEnd i why s).flow = s.flow :=
  (countHoldEnd_does (fs₀ := [.regs, .funcs, .out]) (Does.refl _ s) rfl).same .flow (by decide)

theorem flow_flowRecordEvent (i cls status disp progress low : Nat) (faultRef : Word) (s : State) :
    (flowRecordEvent i cls status disp progress low faultRef s).flow = s.flow :=
  (flowRecordEvent_does (fs₀ := [.regs, .pairs, .funcs, .out]) (Does.refl _ s) rfl).same .flow (by decide)

theorem flowX_treatLate (i : Nat) (p : HeldPkt) (s : State) :
    flowX (treatLate i p s) i = { flowX s i with treated := (flowX s i).treated + 1 } := by
  rw [treatLate]
  dsimp only
  split
  · exact flowX_setFlowX ..
  · exact (flowX_of_flow_eq (flow_forward ..) i).trans (flowX_setFlowX ..)

/-- Packets treated without a verdict are counted, and nothing else is kept of them. -/
theorem flowX_treatLateAll (i : Nat) (ps : List HeldPkt) (s : State) :
    flowX (treatLateAll i ps s) i = { flowX s i with treated := (flowX s i).treated + ps.length } := by
  induction ps generalizing s with
  | nil => rfl
  | cons p ps ih =>
    rw [treatLateAll, ih, flowX_treatLate, List.length_cons]
    rw [Nat.add_right_comm, Nat.add_assoc]

theorem flowX_clearHold (i : Nat) (s : State) : flowX (clearHold i s) i = { flowX s i with held := [] } := by
  rw [clearHold, flowX_of_flow_eq (flow_updRec ..) i]
  exact flowX_setFlowX i _ s

/-- A hold that ends without a verdict holds no packet, and its request is late. -/
theorem flowX_endHoldLate (i : Nat) (arriving : List HeldPkt) (why : Option NoRoom) (s : State) :
    (flowX (endHoldLate i arriving why s) i).held = [] ∧
      (flowX (endHoldLate i arriving why s) i).late = (flowX s i).request.isSome ∧
      (flowX (endHoldLate i arriving why s) i).request = (flowX s i).request := by
  have hkept : flowX (treatLateAll i ((flowX s i).held ++ arriving) (updRec i (frSetBit 44 3 true) (countHoldEnd i why (clearHold i s)))) i =
      { flowX s i with held := [], treated := (flowX s i).treated + ((flowX s i).held ++ arriving).length } := by
    rw [flowX_treatLateAll, flowX_of_flow_eq (flow_updRec ..), flowX_of_flow_eq (flow_countHoldEnd ..), flowX_clearHold]
  rw [endHoldLate, flowX_setFlowX, hkept]
  exact ⟨rfl, rfl, rfl⟩

theorem exec_holdCeiling {i : Nat} {s : State} (hheld : frHeld (flowRec s i) = true) (hpkts : (flowX s i).held ≠ []) :
    exec (.holdCeiling i) s =
      .next (endHoldLate i [] none (runToClk ((flowX s i).holdAt + polHoldUs s (frPolicy (flowRec s i)) * ticksUs) s)) := by
  change execHoldCeiling i s = _
  rw [execHoldCeiling, if_pos (by rw [hheld, decide_eq_true hpkts]; rfl)]

/-! #### Registers past the flow front's own (10 R303, R309) -/

theorem rd_wcFlush (e : WcEntry) (s : State) (o : Nat) : rd (wcFlush e s) o = rd s o := by rw [wcFlush_frame]; rfl

/-- Of registers a write to memory counts in those of a controller alone (07 R205). -/
theorem rd_wcWrite (a : Nat) (bs : List Byte) (s : State) {o : Nat} (ho : o < 0x100000) : rd (wcWrite a bs s) o = rd s o := by
  have hevict : rd (wcEvict a s) o = rd s o := by
    unfold wcEvict
    split
    · rfl
    · split
      · rw [bump_regsBut _ 1 _ o (by simp only [hbmReg, List.mem_singleton]; omega), rd_wcFlush]
      · rfl
  have hopen : rd (wcOpen a s) o = rd s o := by
    unfold wcOpen
    split
    · rfl
    · exact hevict
  have hfull (line : Nat) (u : State) : rd (wcFull line u) o = rd u o := by
    unfold wcFull
    split
    · split
      · exact rd_wcFlush ..
      · rfl
    · rfl
  unfold wcWrite
  split
  · rfl
  · exact (hfull _ _).trans hopen

theorem rd_hbmWrite (n a : Nat) (bs : List Byte) (s : State) {o : Nat} (ho : o < 0x100000) : rd (hbmWrite n a bs s) o = rd s o := by
  induction n generalizing a bs s with
  | zero => rfl
  | succ n ih =>
    rw [hbmWrite]
    split
    · rfl
    · rw [ih, rd_wcWrite _ _ _ ho]

theorem rd_updRec (i : Nat) (g : List Byte → List Byte) (s : State) {o : Nat} (ho : o < 0x100000) : rd (updRec i g s) o = rd s o := by
  rw [updRec, setFlowRec, memWrite]
  split
  · exact rd_hbmWrite _ _ _ _ ho
  · rfl

theorem rd_forward (k : Nat) (bad : Bool) (f : List Byte) (arrived : Nat) (s : State) {o : Nat} (ho : o < 0xC0100) :
    rd (forward k bad f arrived s) o = rd s o := by
  have hsend (e : Nat) (g : List Byte) (u : State) : rd (sendFrame e bad g u) o = rd u o :=
    bump_regsBut (lineReg e 0xC) 1 u o (by have h := le_lineReg e 0xC; simp only [List.mem_singleton]; omega)
  unfold forward
  dsimp only
  split
  · rfl
  · split
    · exact hsend ..
    · exact hsend ..

theorem rd_treatLateAll (i : Nat) (ps : List HeldPkt) (s : State) {o : Nat} (ho : o < 0xC0100) :
    rd (treatLateAll i ps s) o = rd s o := by
  induction ps generalizing s with
  | nil => rfl
  | cons p ps ih =>
    rw [treatLateAll, ih, treatLate]
    split
    · rfl
    · exact rd_forward _ _ _ _ _ ho

theorem sinkPair_lt (s : State) (k : Nat) : sinkPair s k < 256 := Nat.mod_lt _ (by decide)

/-- An event record leaves every register but those of its pair and the counters of records. -/
theorem rd_eventRecord {p : Nat} (hp : p < 256) (r : Rec) (s : State) {o : Nat} (hpair : 0x15000 ≤ o)
    (hcount : o < 0x30000 ∨ 0x31000 ≤ o) : rd (eventRecord p r s) o = rd s o := by
  have hreg {k : Nat} (hk : k < 0x40) : o ∉ [pairReg p k] := by simp only [pairReg, List.mem_singleton]; omega
  rw [eventRecord, eventRec]
  dsimp only
  split
  · rw [writeRec_regsBut _ _ _ o (hreg (by decide)), rd_setPair, rd_countRec _ _ hcount]
  · rw [bump_regsBut _ 1 _ o (hreg (by decide)), rd_setPair, rd_setPair, rd_countRec _ _ hcount]

theorem rd_flowRecordBy (r : List Byte) (cls status disp progress : Nat) (result : Dword) (faultRef : Word) (s : State) {o : Nat}
    (hpair : 0x15000 ≤ o) (hcount : o < 0x30000 ∨ 0x31000 ≤ o) :
    rd (flowRecordBy r cls status disp progress result faultRef s) o = rd s o := by
  have hsink := sinkPair_lt s (polSink s (frPolicy r))
  unfold flowRecordBy
  dsimp only
  rw [rd_eventRecord hsink _ _ hpair hcount]
  split
  · exact putBatch_regsBut _ _ _ o (by simp only [pairReg, List.mem_cons, List.not_mem_nil, or_false]; omega)
  · rfl

theorem rd_requestRecord (k i cls status disp progress low : Nat) (faultRef : Word) (s : State) {o : Nat} (hpair : 0x15000 ≤ o)
    (hcount : o < 0x30000 ∨ 0x31000 ≤ o) : rd (requestRecord k i cls status disp progress low faultRef s) o = rd s o := by
  unfold requestRecord
  split
  · exact rd_flowRecordBy _ _ _ _ _ _ _ (dropOrphan k s) hpair hcount
  · exact rd_flowRecordBy _ _ _ _ _ _ _ s hpair hcount

/-- A hold that ends at its ceiling counts in its own counters and at the line ports. -/
theorem rd_endHoldLate (i : Nat) (arriving : List HeldPkt) (s : State) {o : Nat} (ho : o < 0xC0100) (hcount : o ∉ [0x6080C, 0x60810]) :
    rd (endHoldLate i arriving none s) o = rd s o := by
  have hend (u : State) : rd (countHoldEnd i none u) o = rd u o := by
    simp only [List.mem_cons, List.not_mem_nil, or_false, not_or] at hcount
    rw [countHoldEnd, if_neg nofun]
    split
    · exact bump_regsBut _ 1 u o (by simpa using hcount.2)
    · exact bump_regsBut _ 1 u o (by simpa using hcount.1)
  rw [endHoldLate]
  rw [rd_setFlowX, rd_treatLateAll _ _ _ ho, rd_updRec _ _ _ (by omega), hend, clearHold, rd_updRec _ _ _ (by omega)]
  rfl

/-- A GATE request that fails, before its record: its hold is over, and UNSCORED is set. -/
def gateEnded (i : Nat) (s : State) : State :=
  updRec i (frSetBit 44 3 true) (if frHeld (flowRec s i) then endHoldLate i [] none s else s)

/-- The record of such a request. -/
def gateRecorded (i low : Nat) (progress : Option Nat) (s : State) : State :=
  flowRecordEvent i 1 (okStatus false false s) (unscoredDisp (ceilDrop s i)) (progress.getD (flowX s i).treated) low 0 s

/-- What is kept beside its record after that. -/
def gateCleared (x : FlowX) : FlowX := { x with treated := 0, late := false, lost := false }

theorem request_gateCleared (x : FlowX) : (gateCleared x).request = x.request := rfl

theorem late_gateCleared (x : FlowX) : (gateCleared x).late = false := rfl

theorem gateFail_eq (i low : Nat) (progress : Option Nat) (s : State) : gateFail i low progress s =
    setFlowX i (gateCleared (flowX (gateRecorded i low progress (gateEnded i s)) i)) (gateRecorded i low progress (gateEnded i s)) := rfl

theorem rd_gateFail (i low : Nat) (progress : Option Nat) (s : State) {o : Nat} (hlow : 0x31000 ≤ o) (ho : o < 0xC0100)
    (hcount : o ∉ [0x6080C, 0x60810]) : rd (gateFail i low progress s) o = rd s o := by
  rw [gateFail_eq, rd_setFlowX, gateRecorded, flowRecordEvent, flowRecordResult, rd_flowRecordBy _ _ _ _ _ _ _ _ (by omega) (Or.inr hlow),
    gateEnded, rd_updRec _ _ _ (by omega)]
  split
  · exact rd_endHoldLate i [] s ho hcount
  · rfl

/-! #### The word for a request (10 R303, R305) -/

theorem exec_flowVerdict {i k trig : Nat} {it : Item} {s : State} (hreq : (flowX s i).request = some k) (hitem : itemOf s k = some it)
    (hsrc : it.src = .flow i trig) (w : Word) :
    exec (.flowVerdict i w) s = .next (presentVerdict i k it.cls w.toNat trig (dropItem k (stopItem it s))) := by
  change execFlowVerdict i w s = _
  rw [execFlowVerdict, hreq]
  dsimp only
  rw [hitem]
  dsimp only
  rw [hsrc]

/-- An item that has ended leaves the flow state and the registers. -/
theorem itemEnded_same (k : Nat) (it : Item) (s : State) :
    Does [.tiles, .reels, .loaded, .items] s (dropItem k (stopItem it s)) :=
  dropItem_does (stopItem_does (Does.refl _ s) rfl) rfl

theorem flowX_gateRecorded (i low : Nat) (progress : Option Nat) (s : State) : flowX (gateRecorded i low progress s) i = flowX s i := by
  rw [gateRecorded, flowX_of_flow_eq (flow_flowRecordEvent ..)]

theorem request_gateEnded (i : Nat) (s : State) : (flowX (gateEnded i s) i).request = (flowX s i).request := by
  rw [gateEnded, flowX_of_flow_eq (flow_updRec ..)]
  split
  · exact (flowX_endHoldLate i [] none s).2.2
  · rfl

theorem flowX_gateFail (i low : Nat) (progress : Option Nat) (s : State) :
    flowX (gateFail i low progress s) i = gateCleared (flowX (gateEnded i s) i) := by
  rw [gateFail_eq, flowX_setFlowX, flowX_gateRecorded]

theorem request_gateFail (i low : Nat) (progress : Option Nat) (s : State) :
    (flowX (gateFail i low progress s) i).request = (flowX s i).request := by
  rw [flowX_gateFail, request_gateCleared, request_gateEnded]

theorem late_gateFail (i low : Nat) (progress : Option Nat) (s : State) : (flowX (gateFail i low progress s) i).late = false := by
  rw [flowX_gateFail, late_gateCleared]

theorem flowX_requestRecord (k i cls status disp progress low : Nat) (faultRef : Word) (s : State) (j : Nat) :
    flowX (requestRecord k i cls status disp progress low faultRef s) j = flowX s j := by
  have hrecord (r : List Byte) (result : Dword) (u : State) : (flowRecordBy r cls status disp progress result faultRef u).flow = u.flow :=
    (flowRecordBy_does (fs₀ := [.regs, .pairs, .funcs, .out]) (Does.refl _ u) rfl).same .flow (by decide)
  unfold requestRecord
  split
  · exact flowX_congr (congrArg FlowS.x (hrecord _ _ (dropOrphan k s))) j
  · exact flowX_of_flow_eq (hrecord _ _ s) j

/-- The state once a word that is no verdict is counted and the request is gone. -/
def verdictRejected (i : Nat) (s : State) : State :=
  setFlowX i { flowX (raise flowEvent 3 (bump 0x60824 1 s)) i with request := none, late := false } (raise flowEvent 3 (bump 0x60824 1 s))

theorem verdictRejected_counts (i : Nat) (s : State) :
    (rd (verdictRejected i s) 0x60824).toNat = min (2 ^ 32 - 1) ((rd s 0x60824).toNat + 1) ∧
      rdb (verdictRejected i s) flowEvent 3 = true := by
  have hcount : rd (verdictRejected i s) 0x60824 = rd (bump 0x60824 1 s) 0x60824 := raise_regsBut flowEvent 3 _ _ (by decide)
  refine ⟨by rw [hcount, rd_bump_toNat], ?_⟩
  exact rdb_raise flowEvent 3 (bump 0x60824 1 s) (by decide)

theorem flowX_verdictRejected (i : Nat) (s : State) :
    (flowX (verdictRejected i s) i).request = none ∧ (flowX (verdictRejected i s) i).late = false := by
  rw [verdictRejected, flowX_setFlowX]
  exact ⟨rfl, rfl⟩

/-- A word that is no verdict ends a GATE request as failed; another request gets its record alone. -/
theorem invalidVerdict_eq (i k c trig : Nat) (s : State) : invalidVerdict i k c trig true s =
    if c = 1 ∧ true = true then gateFail i (0xFF * 2 ^ 24 + 16 * trig) none (verdictRejected i s)
    else requestRecord k i c (okStatus false false (verdictRejected i s))
      (orphanEnd (verdictRejected i s) k (unscoredDisp (requestDrop (verdictRejected i s) i k))).1
      (orphanEnd (verdictRejected i s) k (unscoredDisp (requestDrop (verdictRejected i s) i k))).2 (0xFF * 2 ^ 24 + 16 * trig) 0
      (verdictRejected i s) := rfl

/-- Past the rejection a record is written, which touches neither the request nor what was counted. -/
theorem invalidVerdict_shows (i k c trig : Nat) (s : State) :
    (flowX (invalidVerdict i k c trig true s) i).request = none ∧ (flowX (invalidVerdict i k c trig true s) i).late = false ∧
      (∀ o ∈ [flowEvent, 0x60824], rd (invalidVerdict i k c trig true s) o = rd (verdictRejected i s) o) := by
  have hbounds : ∀ o ∈ [flowEvent, 0x60824], 0x31000 ≤ o ∧ o < 0xC0100 ∧ o ∉ [0x6080C, 0x60810] := by decide
  obtain ⟨hrequest, hlate⟩ := flowX_verdictRejected i s
  rw [invalidVerdict_eq]
  split
  · refine ⟨(request_gateFail ..).trans hrequest, late_gateFail .., fun o ho => ?_⟩
    obtain ⟨hlow, hhigh, hcount⟩ := hbounds o ho
    exact rd_gateFail _ _ _ _ hlow hhigh hcount
  · rw [flowX_requestRecord]
    refine ⟨hrequest, hlate, fun o ho => ?_⟩
    obtain ⟨hlow, -, -⟩ := hbounds o ho
    exact rd_requestRecord _ _ _ _ _ _ _ _ _ (by omega) (Or.inr hlow)

theorem flowX_applyVerdict (i c w trig : Nat) (s : State) :
    (flowX (applyVerdict i c w trig s) i).request = none ∧ (flowX (applyVerdict i c w trig s) i).late = false := by
  unfold applyVerdict
  dsimp only
  rw [flowX_setFlowX]
  exact ⟨rfl, rfl⟩

/-- The word for the outstanding request takes it away; one that is no verdict is counted. -/
theorem presentVerdict_shows {i k : Nat} {s : State} (hreq : (flowX s i).request = some k) (c w trig : Nat) :
    (flowX (presentVerdict i k c w trig s) i).request = none ∧ (flowX (presentVerdict i k c w trig s) i).late = false ∧
      (verdictOk w = false → (rd (presentVerdict i k c w trig s) 0x60824).toNat = min (2 ^ 32 - 1) ((rd s 0x60824).toNat + 1) ∧
        rdb (presentVerdict i k c w trig s) flowEvent 3 = true) := by
  rw [presentVerdict]
  dsimp only
  rw [hreq, decide_eq_true rfl]
  split
  · obtain ⟨hrequest, hlate, hkept⟩ := invalidVerdict_shows i k c trig s
    obtain ⟨hcount, hevent⟩ := verdictRejected_counts i s
    refine ⟨hrequest, hlate, fun _ => ⟨?_, ?_⟩⟩
    · rw [hkept 0x60824 (by decide), hcount]
    · rw [rdb, hkept flowEvent (by decide), ← rdb, hevent]
  · next hok =>
    rw [if_pos rfl]
    obtain ⟨hrequest, hlate⟩ := flowX_applyVerdict i c w trig s
    exact ⟨hrequest, hlate, fun hbad => absurd hbad hok⟩

/-! #### Files end (10 R316, R317) -/

theorem exec_fileVerdict {w : Word} {i : Item} {f : FileX} {s : State} (hcurrent : currentFile s = some i) (hsrc : i.src = .file f.id)
    (hfile : fileOf s f.id = some f) : exec (.fileVerdict w) s = .next (fileScored i f w.toNat s) := by
  change execFileVerdict w s = _
  rw [execFileVerdict, hcurrent]
  dsimp only
  rw [hsrc]
  dsimp only
  rw [hfile]

/-- A file scored, its FILE_ID released. -/
abbrev fileReleased (i : Item) (f : FileX) (w : Nat) (s : State) : State :=
  countInvalid w (dropFile f.id (dropItem i.num (stopItem i s)))

theorem countInvalid_same (w : Nat) (s : State) : Does [.regs, .funcs, .out] s (countInvalid w s) := countInvalid_does (Does.refl _ s) rfl

theorem fileScored_of_close {f : FileX} {r : DRef} (h : f.close = some r) (i : Item) (w : Nat) (s : State) :
    fileScored i f w s = finish r (okStatus false false (fileReleased i f w s)) (if f.whole then 0 else 1) (BitVec.ofNat 64 (fileLow w))
      i.total 0 [] (fileReleased i f w s) := by
  rw [fileScored, h]

/-- Dropping a file that has timed out leaves what is not the file or its counter. -/
theorem fileDropCounted_shows (k : Nat) (s : State) :
    fileOf (bump 0x60840 1 (dropFile k s)) k = none ∧ (bump 0x60840 1 (dropFile k s)).clk = s.clk ∧
      rd (bump 0x60840 1 (dropFile k s)) 0x60840 = rd (bump 0x60840 1 s) 0x60840 ∧
      regsBut [0x60840] s (bump 0x60840 1 (dropFile k s)) ∧ (bump 0x60840 1 (dropFile k s)).mem = s.mem ∧
      (bump 0x60840 1 (dropFile k s)).items = s.items :=
  ⟨fileOf_dropFile_same .., rfl, rfl, bump_regsBut 0x60840 1 (dropFile k s), rfl, rfl⟩

/-- The file that times out at tick `n`. -/
def fileTimedOut (k n : Nat) (s : State) : State := bump 0x60840 1 (dropFile k (runToClk n s))

theorem fileTimedOut_shows (k n : Nat) (s : State) :
    fileOf (fileTimedOut k n s) k = none ∧ n ≤ (fileTimedOut k n s).clk ∧
      (rd (fileTimedOut k n s) 0x60840).toNat = min (2 ^ 32 - 1) ((rd s 0x60840).toNat + 1) ∧ regsBut [0x60840] s (fileTimedOut k n s) ∧
      (fileTimedOut k n s).mem = s.mem ∧ (fileTimedOut k n s).items = s.items := by
  have hran := runToClk_same n s
  have hregs := runToClk_regsBut n s []
  obtain ⟨hgone, hclk, hcount, hbut, hmem, hitems⟩ := fileDropCounted_shows k (runToClk n s)
  refine ⟨hgone, ?_, ?_, (hregs.mono (List.nil_subset _)).trans hbut (List.Subset.refl _), hmem.trans (hran.same .mem (by decide)),
    hitems.trans (hran.same .items (by decide))⟩
  · rw [fileTimedOut, hclk, runToClk_clk]
    exact le_max_right ..
  · rw [fileTimedOut, hcount, rd_bump_toNat, hregs _ List.not_mem_nil]

theorem exec_fileTimeout {id : BitVec 16} {f : FileX} {s : State} (hfile : fileOf s id.toNat = some f) (hopen : f.queued = false)
    (hflow : f.flow = none) :
    exec (.fileTimeout id) s =
      .next (fileTimedOut id.toNat (f.last + rdf s 0x6001C 31 16 * ticksS) s) := by
  change execFileTimeout id s = _
  rw [execFileTimeout, hfile]
  dsimp only
  rw [hopen, if_neg Bool.false_ne_true, hflow, fileOf_id hfile, fileTimedOut]

/-! #### The statement -/

/-- Settles O51, a clause for each command and outcome; the word for a request by what a record written after it leaves. -/
theorem linePortsAndFlowRecords : Obligations.LinePortsAndFlowRecords := by
  refine ⟨?discard, ?pass, ?packet, ?stats, ?link, ?idle, ?free, ?ceiling, ?verdict, ?full, ?fileVerdict, ?fileTimeout⟩
  case discard => exact fun port f ok s hup hbad => exec_lineFrameReceive_of_discarded ok hup hbad
  case pass =>
    intro port f s hup hon hout hmirror hlong hshort htype hstop hpass hptp hsrc
    obtain ⟨hgood, hpassed, hsent, hregs⟩ := framePassed_shows port f s
    have heq := framePassed_eq_update port f s
    have hout' : (framePassed port f s).out = _ := congrArg State.out heq
    refine ⟨framePassed port f s, ?_, hout', hgood, hpassed, hsent, hregs, by rw [hout']; exact heq⟩
    rw [exec_lineFrameReceive_of_good hup hon hmirror hlong hshort htype, goodFrame_of_pass hsrc hstop hpass hout hmirror hptp]
  case packet =>
    intro port f p i s hup hon hmirror hlong hshort htype hruns hparse hfind hstate
    have hread {q : Nat} (hq : q < 0xC0100 ∨ 0xC0200 ≤ q) : rd (frameCounted port 0 s) q = rd s q :=
      rd_bump_lineReg port (by decide) 1 s hq
    have htable := hread (q := 0x60010) (by decide)
    rw [exec_lineFrameReceive_of_good hup hon hmirror hlong hshort htype, goodFrame_of_packet hruns hparse,
      keyedPacket_of_open (i := i) (s := frameCounted port 0 s)
        (by rw [flowBucket_congr htable (hread (by decide)), findRec_congr htable rfl]; exact hfind)
        (by rw [flowRec_congr htable rfl]; exact hstate), frameCounted]
  case stats => exact fun b p iat r hlen _ => recStats_counts b p iat hlen
  case link =>
    intro port up s hout
    have hbit (q : Nat) := rdb_wrf 0xC0004 port port (bnat up) s 0xC0004 q (by omega) le_rfl
    refine ⟨wrf 0xC0004 port port (bnat up) s, ?_, ?_, fun q _ hq => ?_, wrf_regsBut _ _ _ _ s, rfl⟩
    · change execLineLinkChange port up s = _
      rw [execLineLinkChange, hout, if_neg Bool.false_ne_true]
    · rw [hbit, if_pos ⟨rfl, le_rfl, le_rfl⟩, Nat.sub_self]
      cases up <;> rfl
    · rw [hbit, if_neg (by omega)]
  case idle =>
    intro i s hruns hi hstate hage hmode hwc hfits haligned
    have hlen := frSetState_length 2 (flowRec_length s i)
    have hdone := setFlowRec_does (fs₀ := [.regs, .mem]) (i := i) (r := frSetState 2 (flowRec s i)) (Does.refl _ s) rfl
    obtain ⟨hrec, hmem⟩ := flowRec_setFlowRec ⟨hwc, hfits, haligned⟩ hlen
    refine ⟨_, exec_flowSweep_idle hruns hi hstate hage hmode, hrec, ?_, hmem, hdone.same .flow (by decide), hdone.same .out (by decide)⟩
    rw [hrec, frState_frSetState (by decide) (flowRec_length s i)]
  case free =>
    intro i s hruns hi hstate hheld hage hwc hfits haligned
    obtain ⟨hrec, hx, hmem, hout⟩ := recFreed_shows ⟨hwc, hfits, haligned⟩
    obtain ⟨-, hfree, hverdict, hsticky⟩ := freed_spec (flowRec_length s i)
    refine ⟨_, exec_flowSweep_ended hruns hi hstate hheld hage, ?_, ?_, ?_, hx, hmem, hout⟩
    · rw [hrec, hfree]
    · rw [hrec, hverdict]
    · rw [hrec, hsticky]
  case ceiling =>
    intro i s hheld hpkts
    obtain ⟨hnone, hlate, -⟩ := flowX_endHoldLate i [] none
      (runToClk ((flowX s i).holdAt + polHoldUs s (frPolicy (flowRec s i)) * ticksUs) s)
    have hran := runToClk_same ((flowX s i).holdAt + polHoldUs s (frPolicy (flowRec s i)) * ticksUs) s
    have hended := endHoldLate_does (fs₀ := [.regs, .funcs, .mem, .flow, .free, .out]) (i := i) (arriving := []) (why := none)
      (Does.refl _ (runToClk ((flowX s i).holdAt + polHoldUs s (frPolicy (flowRec s i)) * ticksUs) s)) rfl
    refine ⟨_, exec_holdCeiling hheld hpkts, hnone, ?_, ?_, (hended.same .tiles (by decide)).trans (hran.same .tiles (by decide)),
      (hended.same .items (by decide)).trans (hran.same .items (by decide))⟩
    · rw [hlate, flowX_of_flow_eq (hran.same .flow (by decide))]
    · rw [hended.same .clk (by decide), runToClk_clk]
      exact le_max_right ..
  case verdict =>
    intro i k trig w it s hreq hitem hsrc
    have hended := itemEnded_same k it s
    obtain ⟨hrequest, hlate, hbad⟩ := presentVerdict_shows
      ((congrArg FlowX.request (flowX_of_flow_eq (hended.same .flow (by decide)) i)).trans hreq) it.cls w.toNat trig
    have hshown := presentVerdict_does (fs₀ := [.regs, .pairs, .funcs, .mem, .flow, .free, .out]) (i := i) (k := k) (c := it.cls)
      (w := w.toNat) (trig := trig) (Does.refl _ (dropItem k (stopItem it s))) rfl
    have hread : rd (dropItem k (stopItem it s)) 0x60824 = rd s 0x60824 :=
      regsBut.of_regs_eq (hended.same .regs (by decide)) [] _ List.not_mem_nil
    rw [hread] at hbad
    exact ⟨_, exec_flowVerdict hreq hitem hsrc w, hrequest, hlate,
      (itemOf_congr (hshown.same .items (by decide)) k).trans (itemOf_dropItem ..), hbad⟩
  case full =>
    intro s _
    have hrecords := fullRecord_does (fs₀ := [.regs, .pairs, .funcs, .out]) (disp := 9) (n := s.flow.fullDrop) (b := s.flow.dropBucket)
      (fullRecord_does (fs₀ := [.regs, .pairs, .funcs, .out]) (disp := 8) (n := s.flow.fullPass) (b := s.flow.passBucket)
        (Does.refl _ s) rfl) rfl
    have hflow : (fullRecord 9 s.flow.fullDrop s.flow.dropBucket (fullRecord 8 s.flow.fullPass s.flow.passBucket s)).flow = s.flow :=
      hrecords.same .flow (by decide)
    have hfiles := congrArg FlowS.files hflow
    refine ⟨_, rfl, rfl, rfl, hfiles, hrecords.same .mem (by decide),
      hrecords.same .tiles (by decide), fun hpass hdrop => ?_⟩
    have hnone (disp b : Nat) (u : State) : fullRecord disp 0 b u = u := if_pos rfl
    rw [hpass, hdrop, hnone, hnone]
    exact ⟨rfl, rfl⟩
  case fileVerdict =>
    intro w i f r s hcurrent hsrc hfile hclose
    have hended := itemEnded_same i.num i s
    have hcounted := countInvalid_same w.toNat (dropFile f.id (dropItem i.num (stopItem i s)))
    have hdone := finish_same r (okStatus false false (fileReleased i f w.toNat s)) (if f.whole then 0 else 1)
      (BitVec.ofNat 64 (fileLow w.toNat)) i.total 0 [] (fileReleased i f w.toNat s)
    rw [Completes, exec_fileVerdict hcurrent hsrc hfile, fileScored_of_close hclose]
    refine ⟨_, rfl, ?_, ?_, flightOf_finish .., fun hbad => ?_, ?_⟩
    · rw [fileOf_congr (congrArg FlowS.files (hdone.same .flow (by decide))),
        fileOf_congr (congrArg FlowS.files (hcounted.same .flow (by decide))), fileOf_dropFile_same]
    · rw [itemOf_congr (hdone.same .items (by decide)), itemOf_congr (hcounted.same .items (by decide))]
      exact itemOf_dropItem ..
    · rw [rdb, rd_finish _ _ _ _ _ _ _ _ (by decide) (by decide), ← rdb, fileReleased, countInvalid, if_neg (by rw [hbad]; decide)]
      exact rdb_raise flowEvent 3 _ (by decide)
    · exact (hdone.same .mem (by decide)).trans ((hcounted.same .mem (by decide)).trans (hended.same .mem (by decide)))
  case fileTimeout =>
    intro id f s hfile hopen hflow
    obtain ⟨hgone, hclk, hcount, hregs, hmem, hitems⟩ := fileTimedOut_shows id.toNat (f.last + rdf s 0x6001C 31 16 * ticksS) s
    exact ⟨_, exec_fileTimeout hfile hopen hflow, hgone, hclk, hcount, hregs, hmem, hitems⟩

end Sys2Proof.Machine
end

/-! ### The nearest and the second nearest reference (11 R330)

The search looks at the references in the order of their indices and keeps the two nearest. What it keeps is right of the references that
it has looked at (`TopTwo`), and a reference more leaves it so. -/

section
namespace Sys2Proof.Machine

/-- Of the indices below `n` that meet `p`, the nearest by `dist` and its distance, ties to the lower index; none where all of them are
at an infinite distance. -/
def NearestBelow (dist : Nat → Option Nat) (n : Nat) (p : Nat → Prop) : Option (Nat × Nat) → Prop
  | none => ∀ k < n, p k → dist k = none
  | some (i, d) => i < n ∧ p i ∧ dist i = some d ∧ ∀ k < n, p k → ∀ e, dist k = some e → d ≤ e ∧ (k < i → d < e)

/-- BEST and SECOND of the first `n` references. -/
structure TopTwo (dist : Nat → Option Nat) (n : Nat) (x : Top2) : Prop where
  best : NearestBelow dist n (fun _ => True) x.1
  second : NearestBelow dist n (fun k => ∀ b ∈ x.1, k ≠ b.1) x.2

/-! #### One more index -/

section
variable {dist : Nat → Option Nat} {n : Nat} {p : Nat → Prop}

theorem NearestBelow.succ_of_infinite {x : Option (Nat × Nat)} (h : NearestBelow dist n p x) (hn : dist n = none) :
    NearestBelow dist (n + 1) p x := by
  have hlast {k : Nat} (hk : k < n + 1) (hne : dist k ≠ none) : k < n := by
    obtain hlt | rfl := Nat.lt_succ_iff_lt_or_eq.1 hk
    · exact hlt
    · exact absurd hn hne
  match x, h with
  | none, h => exact fun k hk hp => by_contra fun hne => hne (h k (hlast hk hne) hp)
  | some (i, d), ⟨hi, hpi, hd, hle⟩ =>
    exact ⟨Nat.lt_succ_of_lt hi, hpi, hd, fun k hk hp e he => hle k (hlast hk (by rw [he]; exact Option.some_ne_none e)) hp e he⟩

/-- An index that is not nearer than the nearest before it leaves it. -/
theorem NearestBelow.succ_of_le {i d v : Nat} (h : NearestBelow dist n p (some (i, d))) (hn : dist n = some v) (hv : d ≤ v) :
    NearestBelow dist (n + 1) p (some (i, d)) := by
  obtain ⟨hi, hpi, hd, hle⟩ := h
  refine ⟨Nat.lt_succ_of_lt hi, hpi, hd, fun k hk hp e he => ?_⟩
  obtain hlt | rfl := Nat.lt_succ_iff_lt_or_eq.1 hk
  · exact hle k hlt hp e he
  · obtain rfl := Option.some.inj (hn.symm.trans he)
    exact ⟨hv, fun hki => absurd hki (Nat.lt_asymm hi)⟩

/-- An index nearer than all before it is the nearest. -/
theorem nearestBelow_succ_of_lt {v : Nat} (hn : dist n = some v) (hp : p n) (hlt : ∀ k < n, p k → ∀ e, dist k = some e → v < e) :
    NearestBelow dist (n + 1) p (some (n, v)) := by
  refine ⟨Nat.lt_succ_self n, hp, hn, fun k hk hpk e he => ?_⟩
  obtain hkn | rfl := Nat.lt_succ_iff_lt_or_eq.1 hk
  · have hve := hlt k hkn hpk e he
    exact ⟨hve.le, fun _ => hve⟩
  · obtain rfl := Option.some.inj (hn.symm.trans he)
    exact ⟨le_rfl, fun hkk => absurd hkk (Nat.lt_irrefl k)⟩

theorem NearestBelow.lt_of_lt {i d v : Nat} (h : NearestBelow dist n p (some (i, d))) (hv : v < d) :
    ∀ k < n, p k → ∀ e, dist k = some e → v < e := fun k hk hp e he => lt_of_lt_of_le hv (h.2.2.2 k hk hp e he).1

/-- What was nearest is the nearest of all but the last. -/
theorem NearestBelow.except_last {x : Option (Nat × Nat)} (h : NearestBelow dist n (fun _ => True) x) (v : Nat) :
    NearestBelow dist (n + 1) (fun k => ∀ b ∈ some (n, v), k ≠ b.1) x := by
  have hlast {k : Nat} (hk : k < n + 1) (hne : ∀ b ∈ some (n, v), k ≠ b.1) : k < n :=
    lt_of_le_of_ne (Nat.lt_succ_iff.1 hk) (hne _ rfl)
  match x, h with
  | none, h => exact fun k hk hne => h k (hlast hk hne) trivial
  | some (i, d), ⟨hi, _, hd, hle⟩ =>
    refine ⟨Nat.lt_succ_of_lt hi, fun b hb => ?_, hd, fun k hk hne e he => hle k (hlast hk hne) trivial e he⟩
    obtain rfl := Option.some.inj hb
    exact hi.ne
end

/-! #### The search -/

/-- A reference more. -/
theorem TopTwo.step {dist : Nat → Option Nat} {n : Nat} {x : Top2} (h : TopTwo dist n x) : TopTwo dist (n + 1) (top2Step n (dist n) x) := by
  obtain ⟨best, second⟩ := x
  obtain ⟨hbest, hsecond⟩ := h
  cases hn : dist n with
  | none => exact ⟨hbest.succ_of_infinite hn, hsecond.succ_of_infinite hn⟩
  | some v =>
    match best, hbest, hsecond with
    | none, hbest, _ =>
      exact ⟨nearestBelow_succ_of_lt hn trivial fun k hk _ e he => absurd ((hbest k hk trivial).symm.trans he) nofun, hbest.except_last v⟩
    | some b, hbest, hsecond =>
      have hother : ∀ a ∈ some b, n ≠ a.1 := fun a ha => by
        obtain rfl := Option.some.inj ha
        exact hbest.1.ne'
      simp only [top2Step]
      split
      · next hnear => exact ⟨nearestBelow_succ_of_lt hn trivial (hbest.lt_of_lt hnear), hbest.except_last v⟩
      · next hfar =>
        have hkept := hbest.succ_of_le hn (Nat.le_of_not_lt hfar)
        match second, hsecond with
        | none, hsecond =>
          exact ⟨hkept, nearestBelow_succ_of_lt hn hother fun k hk hne e he => absurd ((hsecond k hk hne).symm.trans he) nofun⟩
        | some c, hsecond =>
          dsimp only
          split
          · next hnear => exact ⟨hkept, nearestBelow_succ_of_lt hn hother (hsecond.lt_of_lt hnear)⟩
          · next hnot => exact ⟨hkept, hsecond.succ_of_le hn (Nat.le_of_not_lt hnot)⟩

theorem topTwo_top2From {dist : Nat → Option Nat} (f : Bool) (q : List Byte) (rs : List (List Byte)) {i : Nat} {x : Top2}
    (hx : TopTwo dist i x) (hdist : ∀ k < rs.length, dist (i + k) = distance f q (rs.getD k [])) :
    TopTwo dist (i + rs.length) (top2From f q i rs x) := by
  induction rs generalizing i x with
  | nil => exact hx
  | cons r rs ih =>
    have hhead : dist i = distance f q r := hdist 0 (Nat.zero_lt_succ _)
    have htail (k : Nat) (hk : k < rs.length) : dist (i + 1 + k) = distance f q (rs.getD k []) := by
      rw [Nat.add_assoc, Nat.add_comm 1]
      exact hdist (k + 1) (Nat.succ_lt_succ hk)
    have hstep := hx.step
    rw [hhead] at hstep
    rw [List.length_cons, Nat.add_comm rs.length, ← Nat.add_assoc]
    exact ih hstep htail

/-- What the search ends with is right of all references. -/
theorem topTwo_top2 (f : Bool) (q : List Byte) (rs : List (List Byte)) :
    TopTwo (fun k => distance f q (rs.getD k [])) rs.length (top2 f q rs) := by
  have hnone : TopTwo (fun k => distance f q (rs.getD k [])) 0 (none, none) :=
    ⟨fun k hk => absurd hk (Nat.not_lt_zero k), fun k hk => absurd hk (Nat.not_lt_zero k)⟩
  have h := topTwo_top2From f q rs hnone fun k _ => congrArg (fun j => distance f q (rs.getD j [])) (Nat.zero_add k)
  rwa [Nat.zero_add] at h

/-- No index is the nearest exactly where all are at an infinite distance. -/
theorem NearestBelow.eq_none_iff {dist : Nat → Option Nat} {n : Nat} {p : Nat → Prop} {x : Option (Nat × Nat)}
    (h : NearestBelow dist n p x) : x = none ↔ ∀ k ∈ List.range n, p k → dist k = none := by
  simp only [List.mem_range]
  match x, h with
  | none, h => exact ⟨fun _ => h, fun _ => rfl⟩
  | some (i, d), ⟨hi, hpi, hd, _⟩ => exact ⟨nofun, fun hall => absurd (hd.symm.trans (hall i hi hpi)) nofun⟩

/-- Settles O52, from what the search keeps after each reference. -/
theorem nearestReferences : Obligations.NearestReferences := by
  unfold Obligations.NearestReferences
  refine ⟨?noBest, ?best, ?second, ?noSecond⟩
  case noBest =>
    intro f q rs _
    rw [(topTwo_top2 f q rs).best.eq_none_iff]
    simp only [true_imp_iff]
  case best =>
    intro f q rs i d hbest
    have h := (topTwo_top2 f q rs).best
    rw [hbest] at h
    obtain ⟨hi, -, hd, hle⟩ := h
    exact ⟨hi, hd, fun k hk e he => hle k (List.mem_range.1 hk) trivial e (Option.mem_toList.1 he)⟩
  case second =>
    intro f q rs i d j e hboth
    have h := topTwo_top2 f q rs
    rw [hboth] at h
    obtain ⟨⟨-, -, -, hbest⟩, hj, hne, he, hle⟩ := h
    refine ⟨hj, hne _ rfl, he, (hbest j hj trivial e he).1, fun k hk hki y hy => ?_⟩
    refine hle k (List.mem_range.1 hk) (fun b hb => ?_) y (Option.mem_toList.1 hy)
    obtain rfl := Option.some.inj hb
    exact hki
  case noSecond =>
    intro f q rs i d hbest
    rw [(topTwo_top2 f q rs).second.eq_none_iff]
    simp only [hbest, Option.mem_some, forall_eq']

end Sys2Proof.Machine
end

/-! ### A job that fails its checks (11 R323–R326; 03 R102)

A failed job sets EVENT.JOB_ERR of its engine, and where that bit is enabled the device sends the message of its block events. The
statement lets nothing leave the device, and has no premise that the bit is not enabled. -/

section
namespace Sys2Proof.Machine

/-- An idle engine pops the handle that it chooses, where the block's OP is one that the command accepts. -/
theorem popJob_of_choice {e : Engine} {r a n : Nat} {h : Handle} {op : Nat → Bool} {s : State} (hidle : engOf e s = {})
    (hchoose : engineChoose e s = some (r, h)) (hbuf : jobBuffer s ((reelOf s r).owner.getD 0) h.h = some (a, n))
    (hop : op (leAt (devRead s a 1) 0 1) = true) : popJob e r op s = takeJob e r h s := by
  simp only [popJob, hidle, hchoose, hbuf, hop, Option.isSome_none, Bool.or_self, Bool.false_eq_true, if_false, and_self, if_true]

/-- A handle of class 2 of buffer 0. -/
def handleZero : Handle := { h := 0, cls := 2 }

/-- A locked device whose Continuity engine has that handle on reel 4, and reel 5 for its end; the buffer lies at the start of the pool,
and its bytes are all 0, which spell no OP. JOB_ERR is enabled in CONTINUITY.EVENT_EN, and vector 0 is not masked. -/
def unlistedOpWaits : State :=
  { State.reset with
    regs := [(8, 1), (0x7000C, 1)]
    funcs := [(0, { bme := true, unmasked := [0] })]
    loaded := [{ emptySheet with img := { emptySheet.img with buftab := [⟨poolBase, 64, 0, 0⟩] }, reels := [4, 5] }]
    reels := [(4, { q := [handleZero], owner := some 1, engine := 0x11 }), (5, { owner := some 1, engine := 3 })] }

/-- The job fails as MALFORMED, and the message of the block events leaves. -/
theorem takeJob_unlistedOpWaits :
    blockCheck .continuity unlistedOpWaits (devRead unlistedOpWaits poolBase 64) = 0x10 ∧
    (takeJob .continuity 4 handleZero unlistedOpWaits).out = [.msix 0 0] := by
  decide +kernel

/-- Refutes O53: from `unlistedOpWaits` the job that fails its checks sends the message of EVENT.JOB_ERR. -/
theorem not_engineJobs : ¬ Obligations.EngineJobs := by
  rintro ⟨-, -, -, -, hfails, -⟩
  obtain ⟨hcheck, hmessage⟩ := takeJob_unlistedOpWaits
  have hchoose : engineChoose .continuity unlistedOpWaits = some (4, handleZero) := by decide +kernel
  have hbuf : jobBuffer unlistedOpWaits ((reelOf unlistedOpWaits 4).owner.getD 0) handleZero.h = some (poolBase, 64) := by decide +kernel
  have hop : leAt (devRead unlistedOpWaits poolBase 1) 0 1 ≠ 2 := by decide +kernel
  have hdone : doneReel unlistedOpWaits ((reelOf unlistedOpWaits 4).owner.getD 0) 4 = some 5 := by decide +kernel
  have hroom : (reelOf unlistedOpWaits 5).q.length + pushesWaiting unlistedOpWaits 5 (fun _ => true) < 64 := by decide +kernel
  obtain ⟨t, hrun, -, -, -, -, -, -, hout⟩ :=
    hfails 4 handleZero poolBase 64 5 unlistedOpWaits rfl hchoose hbuf le_rfl (by decide) rfl hop (by rw [hcheck]; decide) hdone hroom
  have hexec : exec (.matchJob 4) unlistedOpWaits = .next (takeJob .continuity 4 handleZero unlistedOpWaits) := by
    change execMatchJob 4 unlistedOpWaits = _
    rw [execMatchJob]
    exact congrArg Host.Outcome.next (popJob_of_choice rfl hchoose hbuf (decide_eq_true hop))
  obtain rfl := Host.Outcome.next.inj (hexec.symm.trans hrun)
  rw [hmessage] at hout
  exact List.cons_ne_nil _ _ hout

end Sys2Proof.Machine
end

/-! ### Tiles of the canvas and occlusion (11 R342)

A tile is a box of at most 64 by 64 canvas pixels, and what a layer covers or intersects is said of the pixels of the box. The layers
are split at the topmost OPAQUE one that covers the tile. -/

section
namespace Sys2Proof.Machine

/-! #### The tiles -/

theorem lt_ceilDiv_iff (k n : Nat) : k < ceilDiv n 64 ↔ 64 * k < n := by
  unfold ceilDiv
  omega

theorem mem_boxPixels (b : Nat × Nat × Nat × Nat) (x y : Nat) :
    (x, y) ∈ boxPixels b ↔ (b.1 ≤ x ∧ x < b.2.2.1) ∧ b.2.1 ≤ y ∧ y < b.2.2.2 := by
  simp only [boxPixels, List.mem_flatMap, List.mem_map, List.mem_range, Prod.mk.injEq]
  constructor
  · rintro ⟨j, hj, i, hi, rfl, rfl⟩
    omega
  · rintro ⟨hx, hy⟩
    exact ⟨y - b.2.1, by omega, x - b.1, by omega, by omega, by omega⟩

/-- The column and the row of a tile lie among those of the canvas. -/
theorem tile_place_lt {bs : List Byte} {u : Nat} (h : u < composeUnits bs) :
    64 * (u % tilesAcross bs) < cW bs ∧ 64 * (u / tilesAcross bs) < cH bs := by
  have hacross : 0 < tilesAcross bs := Nat.pos_of_ne_zero fun hzero => by
    rw [composeUnits, hzero, Nat.zero_mul] at h
    exact absurd h (Nat.not_lt_zero u)
  exact ⟨(lt_ceilDiv_iff _ _).1 (Nat.mod_lt u hacross), (lt_ceilDiv_iff _ _).1 (Nat.div_lt_of_lt_mul h)⟩

/-- A canvas pixel lies in the tile of its column and row alone. -/
theorem mem_tileBox_iff {bs : List Byte} {x y : Nat} (hx : x < cW bs) (hy : y < cH bs) (u : Nat) :
    (x, y) ∈ boxPixels (tileBox bs u) ↔ u = y / 64 * tilesAcross bs + x / 64 := by
  have hcol : x / 64 < tilesAcross bs := (lt_ceilDiv_iff _ _).2 (by omega)
  have hplace : (x, y) ∈ boxPixels (tileBox bs u) ↔ u / tilesAcross bs = y / 64 ∧ u % tilesAcross bs = x / 64 := by
    simp only [mem_boxPixels, tileBox]
    omega
  rw [hplace, Nat.div_mod_unique (by omega), and_iff_left hcol, Nat.add_comm, Nat.mul_comm, eq_comm]

theorem tileOfPixel_lt {bs : List Byte} {x y : Nat} (hx : x < cW bs) (hy : y < cH bs) :
    y / 64 * tilesAcross bs + x / 64 < composeUnits bs := by
  have hcol : x / 64 < tilesAcross bs := (lt_ceilDiv_iff _ _).2 (by omega)
  have hrow : y / 64 < ceilDiv (cH bs) 64 := (lt_ceilDiv_iff _ _).2 (by omega)
  calc y / 64 * tilesAcross bs + x / 64 < y / 64 * tilesAcross bs + tilesAcross bs := Nat.add_lt_add_left hcol _
    _ = (y / 64 + 1) * tilesAcross bs := (Nat.succ_mul ..).symm
    _ ≤ ceilDiv (cH bs) 64 * tilesAcross bs := Nat.mul_le_mul_right _ hrow
    _ = composeUnits bs := Nat.mul_comm ..

/-! #### Layers and the pixels of a box -/

theorem hasPixel_iff (l : Layer) (x y : Nat) :
    hasPixel l x y = true ↔ (l.x ≤ x ∧ (x : Int) < l.x + l.w) ∧ l.y ≤ y ∧ (y : Int) < l.y + l.h := by
  simp only [hasPixel, Bool.and_eq_true, decide_eq_true_eq, and_assoc]

theorem layerCovers_iff (b : Nat × Nat × Nat × Nat) (l : Layer) :
    layerCovers b l = true ↔ (l.x ≤ b.1 ∧ (b.2.2.1 : Int) ≤ l.x + l.w) ∧ l.y ≤ b.2.1 ∧ (b.2.2.2 : Int) ≤ l.y + l.h := by
  simp only [layerCovers, Bool.and_eq_true, decide_eq_true_eq, and_assoc]

theorem layerMeets_iff (b : Nat × Nat × Nat × Nat) (l : Layer) :
    layerMeets b l = true ↔ (l.x < b.2.2.1 ∧ (b.1 : Int) < l.x + l.w) ∧ l.y < b.2.2.2 ∧ (b.2.1 : Int) < l.y + l.h := by
  simp only [layerMeets, Bool.and_eq_true, decide_eq_true_eq, and_assoc]

/-- A layer that has two opposite corners of a box has all of it. -/
theorem layerCovers_eq_all {b : Nat × Nat × Nat × Nat} (l : Layer) (hx : b.1 < b.2.2.1) (hy : b.2.1 < b.2.2.2) :
    layerCovers b l = (boxPixels b).all fun q => hasPixel l q.1 q.2 := by
  rw [Bool.eq_iff_iff, layerCovers_iff, List.all_eq_true]
  constructor
  · rintro hcovers ⟨x, y⟩ hq
    rw [mem_boxPixels] at hq
    rw [hasPixel_iff]
    omega
  · intro hall
    have hfirst := (hasPixel_iff ..).1 (hall (b.1, b.2.1) ((mem_boxPixels ..).2 (by omega)))
    have hlast := (hasPixel_iff ..).1 (hall (b.2.2.1 - 1, b.2.2.2 - 1) ((mem_boxPixels ..).2 (by omega)))
    omega

/-- Where a layer and a box intersect, the layer has the pixel at the greater of their first columns and rows. -/
theorem layerMeets_eq_any {b : Nat × Nat × Nat × Nat} {l : Layer} (hx : b.1 < b.2.2.1) (hy : b.2.1 < b.2.2.2) (hw : 0 < l.w)
    (hh : 0 < l.h) : layerMeets b l = (boxPixels b).any fun q => hasPixel l q.1 q.2 := by
  rw [Bool.eq_iff_iff, layerMeets_iff, List.any_eq_true]
  constructor
  · intro hmeets
    refine ⟨(max b.1 l.x.toNat, max b.2.1 l.y.toNat), (mem_boxPixels ..).2 (by omega), (hasPixel_iff ..).2 ?_⟩
    dsimp only
    omega
  · rintro ⟨⟨x, y⟩, hq, hhas⟩
    rw [mem_boxPixels] at hq
    rw [hasPixel_iff] at hhas
    omega

/-! #### Fetched and skipped -/

section
variable {b : Nat × Nat × Nat × Nat} {l : Layer} {ls : List Layer}

/-- A layer under one that covers the tile is skipped, if it intersects the tile. -/
theorem fetchSplit_cons_of_covered (h : (ls.any fun k => k.solid && layerCovers b k) = true) :
    fetchSplit b (l :: ls) = ((fetchSplit b ls).1, [l].filter (layerMeets b) ++ (fetchSplit b ls).2) := by
  simp only [fetchSplit, h, if_true, List.filter_singleton]
  cases layerMeets b l <;> rfl

/-- A layer with none above it that covers the tile is fetched, if it intersects the tile. -/
theorem fetchSplit_cons_of_open (h : (ls.any fun k => k.solid && layerCovers b k) = false) :
    fetchSplit b (l :: ls) = ([l].filter (layerMeets b) ++ (fetchSplit b ls).1, (fetchSplit b ls).2) := by
  simp only [fetchSplit, h, Bool.false_eq_true, if_false, List.filter_singleton]
  cases layerMeets b l <;> rfl

theorem fetchSplit_of_open (h : (ls.any fun k => k.solid && layerCovers b k) = false) :
    fetchSplit b ls = (ls.filter (layerMeets b), []) := by
  induction ls with
  | nil => rfl
  | cons l ls ih =>
    have htail := (Bool.or_eq_false_iff.1 h).2
    rw [fetchSplit_cons_of_open htail, ih htail, ← List.filter_append, List.singleton_append]
end

/-- The layers are split at the topmost OPAQUE one that covers the tile. -/
theorem fetchSplit_eq (b : Nat × Nat × Nat × Nat) (ls : List Layer) (n : Nat)
    (hat : n = 0 ∨ ((ls[n]?).any fun k => k.solid && layerCovers b k) = true)
    (habove : ((ls.drop (n + 1)).any fun k => k.solid && layerCovers b k) = false) :
    fetchSplit b ls = ((ls.drop n).filter (layerMeets b), (ls.take n).filter (layerMeets b)) := by
  induction ls generalizing n with
  | nil => simp only [fetchSplit, List.drop_nil, List.take_nil, List.filter_nil]
  | cons l ls ih =>
    cases n with
    | zero =>
      have hopen : (ls.any fun k => k.solid && layerCovers b k) = false := habove
      rw [fetchSplit_cons_of_open hopen, fetchSplit_of_open hopen, ← List.filter_append, List.singleton_append]
      rfl
    | succ n =>
      have htop : ((ls[n]?).any fun k => k.solid && layerCovers b k) = true := hat.resolve_left (Nat.succ_ne_zero n)
      have hcovered : (ls.any fun k => k.solid && layerCovers b k) = true := by
        obtain ⟨k, hk, hcovers⟩ := (Option.any_eq_true ..).1 htop
        exact List.any_eq_true.2 ⟨k, List.mem_of_getElem? hk, hcovers⟩
      rw [fetchSplit_cons_of_covered hcovered, ih n (.inr htop) habove, ← List.filter_append, List.singleton_append]
      rfl

/-! #### Registers under the outputs of a unit -/

/-- Of registers a write to device memory counts in those of a memory controller alone (07 R205). -/
theorem rd_devWrite (a : Nat) (bs : List Byte) (s : State) {o : Nat} (ho : o < 0x100000) : rd (devWrite a bs s) o = rd s o := by
  rw [devWrite]
  split
  · rfl
  · split
    · exact rd_congr ((aliasWrites_does (fs₀ := [.mem]) (Does.refl _ s) rfl).same .regs (by decide)) o
    · rw [memWrite]
      split
      · exact rd_hbmWrite _ _ _ _ ho
      · rfl

theorem rd_putEntry (a : Nat) (bs : List Byte) (bad : Bool) (s : State) {o : Nat} (ho : o < 0x100000) :
    rd (putEntry a bs bad s) o = rd s o := by
  rw [putEntry]
  split
  · have hmark : (memMark a bs.length (memTouch a bs.length (devWrite a bs s))).regs = (devWrite a bs s).regs :=
      (memTouch_does (fs₀ := [.mem]) (Does.refl _ (devWrite a bs s)) rfl).same .regs (by decide)
    rw [rd_congr hmark, rd_devWrite _ _ _ ho]
  · exact rd_devWrite _ _ _ ho

theorem rd_putEntries (xs : List (Nat × List Byte × Bool)) (s : State) {o : Nat} (ho : o < 0x100000) :
    rd (putEntries xs s) o = rd s o := by
  induction xs generalizing s with
  | nil => rfl
  | cons x xs ih => rw [putEntries, ih, rd_putEntry _ _ _ _ ho]

theorem rd_touchAll (xs : List (Nat × Nat)) (s : State) (o : Nat) : rd (touchAll xs s) o = rd s o :=
  rd_congr ((touchAll_does (fs₀ := [.mem, .free]) (Does.refl _ s) rfl).same .regs (by decide)) o

/-- FETCHED and SKIPPED of the Matte block count the layers of the unit's tile. -/
theorem composeUnit_counts (j : EngJob) (s : State) :
    (rd (composeUnit j s).2 0x80020).toNat =
      min (2 ^ 32 - 1) ((rd s 0x80020).toNat + (fetchSplit (tileBox j.block j.done) (layersOf j.block)).1.length) ∧
    (rd (composeUnit j s).2 0x80024).toNat =
      min (2 ^ 32 - 1) ((rd s 0x80024).toNat + (fetchSplit (tileBox j.block j.done) (layersOf j.block)).2.length) := by
  simp only [composeUnit]
  constructor
  · rw [bump_regsBut 0x80024 _ _ 0x80020 (by decide), rd_bump_toNat, rd_putEntries _ _ (by decide), rd_touchAll]
  · rw [rd_bump_toNat, bump_regsBut 0x80020 _ _ 0x80024 (by decide), rd_putEntries _ _ (by decide), rd_touchAll]

/-- Settles O54: the tiles part the canvas, layers are judged by their pixels, and the split is at the topmost covering OPAQUE one. -/
theorem layersFetchedAndSkipped : Obligations.LayersFetchedAndSkipped := by
  unfold Obligations.LayersFetchedAndSkipped
  refine ⟨?parts, ?boxes, ?layers, fetchSplit_eq, ?counts⟩
  case parts => exact fun bs x y hx hy => ⟨tileOfPixel_lt hx hy, fun u _ => mem_tileBox_iff hx hy u⟩
  case boxes =>
    intro bs u hu
    obtain ⟨hcol, hrow⟩ := tile_place_lt hu
    exact ⟨Nat.mul_mod_right .., Nat.mul_mod_right .., hcol, hrow, rfl, rfl⟩
  case layers => exact fun b l hx hy hw hh => ⟨layerCovers_eq_all l hx hy, layerMeets_eq_any hx hy hw hh⟩
  case counts => exact fun j s => ⟨rfl, rfl, composeUnit_counts j s⟩

end Sys2Proof.Machine
end

/-! ### Take jobs, slates and sheets (06 R186; 12 R357; 13 R391–R395; 14 R405–R409)

A command about a job puts new contents in the place of the old, and its messages to the group touch the links alone: so what a
barrier arms is seen past the sending, and what a slate finds when it fires is what was there before the clock ran to it. -/

section
namespace Sys2Proof.Machine

/-! #### Jobs -/

/-- A job with new contents is found by a test that it passes, where the old job was found and no job but one like it comes first. -/
theorem find?_setJob {p q : Job → Bool} {j k : Job} {s : State} (h : s.jobs.find? p = some j) (href : k.ref = j.ref)
    (hk : q k = true) (himp : ∀ x ∈ s.jobs, q x = true → p x = true) : (setJob k s).jobs.find? q = some k := by
  change (s.jobs.map fun x => if x.ref = k.ref then k else x).find? q = some k
  generalize s.jobs = js at h himp
  induction js with
  | nil => exact absurd h (by rw [List.find?_nil]; exact nofun)
  | cons x xs ih =>
    rw [List.map_cons]
    by_cases hx : x.ref = k.ref
    · rw [if_pos hx, List.find?_cons_of_pos hk]
    · have hp : ¬ p x = true := fun hp => by
        rw [List.find?_cons_of_pos hp] at h
        exact hx (by rw [href, Option.some.inj h])
      rw [List.find?_cons_of_neg hp] at h
      rw [if_neg hx, List.find?_cons_of_neg fun hq => hp (himp x List.mem_cons_self hq),
        ih h fun y hy => himp y (List.mem_cons_of_mem x hy)]

theorem jobOn_congr {s t : State} (h : t.jobs = s.jobs) (p : Nat) : jobOn t p = jobOn s p := by rw [jobOn, h, jobOn]

theorem groupJob_congr {s t : State} (h : t.jobs = s.jobs) (g : Fin 16) : groupJob t g = groupJob s g := by
  rw [groupJob, h, groupJob]

theorem jobLoad_congr {s t : State} (h : t.loaded = s.loaded) (j : Job) : jobLoad t j = jobLoad s j := by
  rw [jobLoad, loadedNum, h, jobLoad, loadedNum]

section
variable {p : Nat} {g : Fin 16} {j k : Job} {s : State}

theorem jobOn_shows (h : jobOn s p = some j) : j.part = p ∧ j.running = true := by
  simpa using List.find?_some (p := fun j : Job => decide (j.part = p) && j.running) h

theorem groupJob_shows (h : groupJob s g = some j) : j.running = true ∧ j.group = g := by
  simpa using List.find?_some (p := fun j : Job => j.running && decide (j.group = g)) h

theorem find?_of_head?_takeQueue (h : (takeQueue s p).head? = some j) :
    s.jobs.find? (fun x => decide (x.part = p) && !x.running) = some j := by
  rwa [takeQueue, List.head?_filter] at h

theorem takeQueue_head_shows (h : (takeQueue s p).head? = some j) : j.part = p ∧ j.running = false := by
  simpa using List.find?_some (p := fun j : Job => decide (j.part = p) && !j.running) (find?_of_head?_takeQueue h)

theorem jobOn_setJob (h : jobOn s p = some j) (href : k.ref = j.ref) (hpart : k.part = j.part) (hrun : k.running = j.running) :
    jobOn (setJob k s) p = some k := by
  obtain ⟨hp, hr⟩ := jobOn_shows h
  exact find?_setJob h href (by rw [hpart, hp, hrun, hr, decide_eq_true rfl]; rfl) fun _ _ hq => hq

theorem groupJob_setJob (h : groupJob s g = some j) (href : k.ref = j.ref) (hgroup : k.group = j.group)
    (hrun : k.running = j.running) : groupJob (setJob k s) g = some k := by
  obtain ⟨hr, hg⟩ := groupJob_shows h
  exact find?_setJob h href (by rw [hgroup, hg, hrun, hr, decide_eq_true rfl]; rfl) fun _ _ hq => hq

/-- Where none runs, the head of the queue is the one that runs once it is set running. -/
theorem jobOn_setJob_of_queued (hfree : jobOn s p = none) (h : (takeQueue s p).head? = some j) (href : k.ref = j.ref)
    (hpart : k.part = j.part) (hrun : k.running = true) : jobOn (setJob k s) p = some k := by
  have hp := (takeQueue_head_shows h).1
  refine find?_setJob (find?_of_head?_takeQueue h) href ?_ fun x hx hq => absurd hq (List.find?_eq_none.1 hfree x hx)
  rw [hpart, hp, hrun, decide_eq_true rfl]
  rfl

theorem head?_takeQueue_setJob (h : (takeQueue s p).head? = some j) (href : k.ref = j.ref) (hpart : k.part = j.part)
    (hrun : k.running = false) : (takeQueue (setJob k s) p).head? = some k := by
  have hp := (takeQueue_head_shows h).1
  rw [takeQueue, List.head?_filter]
  refine find?_setJob (find?_of_head?_takeQueue h) href ?_ fun _ _ hq => hq
  rw [hpart, hp, hrun, decide_eq_true rfl]
  rfl

theorem dropJob_all_ne (r : DRef) (s : State) : ((dropJob r s).jobs.all fun k => decide (k.ref ≠ r)) = true := by
  rw [dropJob, (reapModels_does (Does.refl [.reels, .loaded] _) rfl).same .jobs (by decide)]
  exact List.all_eq_true.2 fun k hk => (List.mem_filter.1 hk).2
end

/-! #### A layer starts (12 R357) -/

/-- C0 of a tile as the layer of a job starts it for a role. -/
abbrev roleThread (l : Loaded) (p : Fin 8) (role : Nat) : Thread := { run := .running, owner := .job p, image := l.num, role }

theorem threadOf_startRole (l : Loaded) (p : Fin 8) (role n m : Nat) (s : State) :
    threadOf (startThread n 0 (.job p) l.num role 0 (loadCode l role n s)) m 0 =
      if m = n then roleThread l p role else threadOf s m 0 := by
  rw [threadOf, tileOf_startThread]
  split
  · exact thrOf_setThr_same ..
  · next h => rw [tileOf_loadCode, if_neg h, threadOf]

/-- C0 runs a role on each tile of the list, and on each where it ran one before. -/
theorem threadOf_startRoles (l : Loaded) (p : Fin 8) (role : Nat) (ns : List Nat) (s : State) {n : Nat}
    (h : n ∈ ns ∨ ∃ r, threadOf s n 0 = roleThread l p r) : ∃ r, threadOf (startRoles l p role ns s) n 0 = roleThread l p r := by
  induction ns generalizing role s with
  | nil => exact h.resolve_left List.not_mem_nil
  | cons m ns ih =>
    refine ih (role + 1) _ ?_
    rw [threadOf_startRole]
    by_cases hm : n = m
    · exact .inr ⟨role, if_pos hm⟩
    · rw [if_neg hm]
      exact h.imp_left fun hin => (List.mem_cons.1 hin).resolve_left hm

/-- The job of a layer that starts. -/
abbrev layerBegun (j : Job) : Job := { j with colls := 0, arrived := false, restoring := false }

/-- Of a layer that starts: the job, C0 of the roles' tiles, and what it leaves. -/
theorem startLayer_shows {j : Job} {l : Loaded} {s : State} (hload : jobLoad s j = some l) :
    (startLayer j s).jobs = (setJob (layerBegun j) s).jobs ∧
      (∀ n ∈ l.tiles, ∃ r, threadOf (startLayer j s) n 0 = roleThread l (Fin.ofNat 8 j.part) r) ∧
      Does [.regs, .tiles, .jobs] s (startLayer j s) := by
  refine ⟨?_, fun n hn => ?_, startLayer_does (Does.refl _ s) rfl⟩
  · rw [startLayer, hload]
    exact (startRoles_does (Does.refl [.regs, .tiles] _) rfl).same .jobs (by decide)
  · rw [startLayer, hload]
    exact threadOf_startRoles l _ 0 l.tiles _ (.inl hn)

/-- The job that starts to run. -/
abbrev startedJob (j : Job) : Job := { j with running := true, waiting := false, slate := j.start }

section
variable {p : Fin 8} {j : Job} {js : List Job} {l : Loaded} {s : State}

/-- The head of the queue of a partition without a running job starts its layer. -/
theorem startJob_shows (hfree : jobOn s p = none) (hhead : (takeQueue s p).head? = some j) (hload : jobLoad s j = some l) :
    jobOn (startJob j s) p = some (layerBegun (startedJob j)) ∧
      (∀ n ∈ l.tiles, ∃ r, threadOf (startJob j s) n 0 = roleThread l p r) ∧ Does [.regs, .tiles, .jobs] s (startJob j s) := by
  have hpart : Fin.ofNat 8 j.part = p := by
    rw [(takeQueue_head_shows hhead).1]
    exact Fin.ext (Nat.mod_eq_of_lt p.isLt)
  obtain ⟨hjobs, hroles, hsame⟩ := startLayer_shows (j := startedJob j) (s := s) hload
  refine ⟨?_, fun n hn => ?_, hsame⟩
  · rw [startJob, jobOn_congr hjobs]
    exact jobOn_setJob_of_queued (k := layerBegun (startedJob j)) hfree hhead rfl rfl rfl
  · obtain ⟨r, hthread⟩ := hroles n hn
    exact ⟨r, hthread.trans (congrArg (fun q => roleThread l q r) hpart)⟩

theorem exec_takeJobStart (hkind : partKind s p = 3) (hfree : jobOn s p = none) (hqueue : takeQueue s p = j :: js)
    (hload : jobLoad s j = some l) (hwait : j.waiting = false) (hfence : roleFenced s l = false) :
    exec (.takeJobStart p) s = .next (if j.start = 0 then startJob j s
      else setJob { j with waiting := true, waitFrom := s.clk } s) := by
  change execTakeJobStart p s = _
  simp only [execTakeJobStart, hkind, hfree, hqueue, hload, hwait, hfence, ne_eq, not_true_eq_false, Option.isSome_none,
    Bool.false_eq_true, or_self, Bool.or_self, if_false]
end

/-! #### Messages to a group (13 R373–R378) -/

/-- From `s` to `t` messages were sent: no slate came or went, and of the registers only those of links differ. -/
structure Sent (s t : State) : Prop where
  does : Does [.regs, .splice, .out] s t
  slates : t.splice.slates = s.splice.slates
  rd_eq : ∀ o, o < 0xB0100 ∨ 0xB0300 ≤ o → rd t o = rd s o

theorem Sent.refl (s : State) : Sent s s := ⟨Does.refl _ s, rfl, fun _ _ => rfl⟩

theorem Sent.trans {s t u : State} (h : Sent s t) (h' : Sent t u) : Sent s u :=
  ⟨h.does.trans h'.does rfl, h'.slates.trans h.slates, fun o ho => (h'.rd_eq o ho).trans (h.rd_eq o ho)⟩

theorem setLink_sent (l : Nat) (x : LinkS) (s : State) : Sent s (setLink l x s) :=
  ⟨setLink_does (Does.refl _ s) rfl, rfl, fun _ _ => rfl⟩

theorem linkStart_sent {l : Nat} (hl : l < 12) (m : SMsg) (s : State) : Sent s (linkStart l m s) := by
  refine ⟨linkStart_does (Does.refl _ s) rfl, rfl, fun o ho => ?_⟩
  refine bump_regsBut (linkReg l 0x14) _ (setLink l _ s) o ?_
  rw [List.mem_singleton, linkReg]
  omega

theorem linkDrain_sent (l n : Nat) (s : State) : Sent s (linkDrain l n s) := by
  induction n generalizing s with
  | zero => exact Sent.refl s
  | succ n ih =>
    rw [linkDrain]
    split
    · exact Sent.refl s
    · split
      · next hfits =>
        have hl : l < 12 := of_decide_eq_true (Bool.and_eq_true_iff.1 hfits.2).1
        exact (setLink_sent l _ s).trans ((linkStart_sent hl _ _).trans (ih _))
      · exact Sent.refl s

/-- A message takes its sequence number. -/
theorem numbered_sent (seqTx : Tab Nat) (s : State) : Sent s { s with splice := { s.splice with seqTx } } :=
  ⟨(Does.refl _ s).upd rfl fun f hf => by
    cases f
    case splice => exact absurd (by decide) hf
    all_goals rfl, rfl, fun _ _ => rfl⟩

/-- A message of a kind that is no collective's and no data goes on its link as it is. -/
theorem wireMsg_of_control (l : Nat) {m : SMsg} (s : State) (h : m.kind.toNat < 5) : wireMsg l m s = (m, s) := by
  rw [wireMsg, if_neg]
  simp [show ¬ 5 ≤ m.kind.toNat by omega]

theorem sendMsg_sent {m : SMsg} (s : State) (h : m.kind.toNat < 5) : Sent s (sendMsg m s) := by
  rw [sendMsg]
  split
  · exact Sent.refl s
  · next l hlink =>
    dsimp only
    rw [wireMsg_of_control]
    · exact (numbered_sent _ s).trans ((setLink_sent l _ _).trans (linkDrain_sent l 1 _))
    · exact h

theorem sendAll_sent (g : Fin 16) {kind : Nat} (hkind : kind < 5) (tag : Nat) (payload : List Byte) (cs : List Nat) (s : State) :
    Sent s (sendAll g kind tag payload cs s) := by
  induction cs generalizing s with
  | nil => exact Sent.refl s
  | cons c cs ih =>
    refine (sendMsg_sent s ?_).trans (ih _)
    change (BitVec.ofNat 4 kind).toNat < 5
    rw [BitVec.toNat_ofNat]
    omega

/-! #### What a group reads of the registers (13 R386, R387) -/

/-- The registers of the Splice block and those behind it read alike. -/
abbrev spliceRegsSame (s t : State) : Prop := ∀ o, 0xB0000 ≤ o → rd t o = rd s o

section
variable {s t : State}

theorem spliceRegsSame_of_regs_eq (h : t.regs = s.regs) : spliceRegsSame s t := fun o _ => rd_congr h o

theorem groupRank_congr (h : spliceRegsSame s t) (g : Nat) : groupRank t g = groupRank s g := by
  rw [groupRank, chipNum, rdf, h _ (by omega), groupBase, rdf, h _ (by rw [groupReg]; omega)]
  rfl

theorem groupParent_congr (h : spliceRegsSame s t) (g : Nat) : groupParent t g = groupParent s g := by
  rw [groupParent, groupRank_congr h, groupBase, rdf, h _ (by rw [groupReg]; omega), groupFanout, rdf, h _ (by rw [groupReg]; omega)]
  rfl

theorem groupChildren_congr (h : spliceRegsSame s t) (g : Nat) : groupChildren t g = groupChildren s g := by
  have hbase : groupBase t g = groupBase s g := by rw [groupBase, rdf, h _ (by rw [groupReg]; omega)]; rfl
  have hfan : groupFanout t g = groupFanout s g := by rw [groupFanout, rdf, h _ (by rw [groupReg]; omega)]; rfl
  have hsize : groupSize t g = groupSize s g := by rw [groupSize, rdf, h _ (by rw [groupReg]; omega)]; rfl
  rw [groupChildren, groupRank_congr h, hbase, hfan, hsize, groupChildren]

theorem linkState_congr (h : spliceRegsSame s t) (l : Nat) : linkState t l = linkState s l := by
  rw [linkState, rdf, h _ (by rw [linkReg]; omega)]
  rfl

theorem linkUsable_congr (h : spliceRegsSame s t) (l : Nat) : linkUsable t l = linkUsable s l := by
  rw [linkUsable, linkState_congr h, linkUsable]

theorem canSend_congr (h : spliceRegsSame s t) (dst kind : Nat) : canSend t dst kind = canSend s dst kind := by
  have hroute : routeOf t dst = routeOf s dst := by rw [routeOf, h _ (by omega), routeOf]
  rw [canSend, canSend, pickLink, pickLink, hroute]
  simp only [linkUsable_congr h, linkState_congr h]

theorem anyUnreached_congr (h : spliceRegsSame s t) (kind : Nat) (cs : List Nat) : anyUnreached t kind cs = anyUnreached s kind cs := by
  simp only [anyUnreached, canSend_congr h]
end

/-! #### The layer barrier (13 R394) -/

theorem barrierOf_key (s : State) (g : Fin 16) (n : Nat) : (barrierOf s g n).group = g ∧ (barrierOf s g n).layer = n := by
  unfold barrierOf
  cases h : s.splice.barriers.find? fun b => decide (b.group = g) && decide (b.layer = n) with
  | none => exact ⟨rfl, rfl⟩
  | some b => simpa using List.find?_some h

theorem barrierOf_putBarrier {b : Barrier} {g : Fin 16} {n : Nat} (hg : b.group = g) (hn : b.layer = n) (s : State) :
    barrierOf (putBarrier b s) g n = b := by
  have hnone : (dropBarrier b.group b.layer s).splice.barriers.find? (fun c => decide (c.group = g) && decide (c.layer = n)) = none := by
    subst hg hn
    refine List.find?_eq_none.2 fun c hc hkey => ?_
    have hkept := (List.mem_filter.1 hc).2
    rw [hkey] at hkept
    exact absurd hkept (by decide)
  rw [barrierOf]
  change ((_ ++ [b]).find? _).getD _ = b
  rw [List.find?_append, hnone, Option.none_or, List.find?_cons_of_pos (by simp [hg, hn])]
  rfl

section
variable {p : Fin 8} {j : Job} {l : Loaded} {s : State}

/-- With its tiles halted and no collective left, the job is at the barrier. -/
theorem runColls_of_halted (n : Nat) (hjob : jobOn s p = some j) (hretake : j.retaking = false)
    (hhalted : (barrierOf s j.group j.layer).halted = true) (hload : jobLoad s j = some l)
    (hcolls : j.restoring = true ∨ (layerColls l j.layer)[j.colls]? = none) : runColls (n + 1) p s = arrive j s := by
  have hnone : (if j.restoring then none else (layerColls l j.layer)[j.colls]?) = none := by
    rcases hcolls with h | h
    · rw [if_pos h]
    · rw [h, ite_self]
  rw [runColls]
  simp only [hjob, hretake, hhalted, hload, hnone, Bool.false_eq_true, Bool.true_eq_false, or_self, if_false]

/-- Every child's arrival has come. -/
abbrev childrenIn (s : State) (j : Job) : Bool :=
  (groupChildren s j.group.val).all fun c => (barrierOf s j.group j.layer).arrived.contains (BitVec.ofNat 14 c)

theorem arrive_of_missing (hkids : childrenIn s j = false) : arrive j s = s := by
  rw [arrive, if_pos (.inr (.inr hkids))]

theorem arrive_of_root (hhalted : (barrierOf s j.group j.layer).halted = true) (harrived : j.arrived = false)
    (hkids : childrenIn s j = true) (hroot : groupParent s j.group.val = none) :
    arrive j s = armBarrier j (barrierOf s j.group j.layer).sum (dropBarrier j.group j.layer s) := by
  have hgo : ¬ ((barrierOf s j.group j.layer).halted = false ∨ j.arrived = true ∨ childrenIn s j = false) := by
    rw [hhalted, harrived, hkids]
    decide
  rw [arrive, if_neg hgo, hroot]

/-- The slate that a barrier arms a lead ahead, and the job that has arrived under it. -/
abbrev barrierArms (g : Fin 16) (s : State) : Slate :=
  { group := g, id := BitVec.ofNat 16 (reservedSlate g s).1, time := nowUnits s + slateLead s, acks := [], ref := none }
abbrev arrivedJob (j : Job) (sum : Dword) (s : State) : Job :=
  { j with arrived := true, slate := BitVec.ofNat 16 (reservedSlate j.group s).1, lastDigest := sum }

/-- The coordinator at its barrier, before it sends. -/
def barrierArmed (j : Job) (sum : Dword) (s : State) : State :=
  armSlate (barrierArms j.group s) (setJob (arrivedJob j sum s) (reservedSlate j.group s).2)

theorem armBarrier_of_room (sum : Dword) (hroom : s.splice.slates.length < 64)
    (hreach : anyUnreached s 1 (groupChildren s j.group.val) = false) :
    armBarrier j sum s = sendAll j.group 1 (reservedSlate j.group s).1 (armPayload (nowUnits s + slateLead s) (some sum))
      (groupChildren s j.group.val) (barrierArmed j sum s) := by
  have hregs : spliceRegsSame s (barrierArmed j sum s) := spliceRegsSame_of_regs_eq rfl
  have hkids := groupChildren_congr hregs j.group.val
  have hreach' : anyUnreached (barrierArmed j sum s) 1 (groupChildren (barrierArmed j sum s) j.group.val) = false := by
    rw [hkids, anyUnreached_congr hregs, hreach]
  rw [armBarrier, if_neg (Nat.not_le.2 hroom)]
  refine (if_neg (Bool.eq_false_iff.1 hreach')).trans ?_
  exact congrArg (fun cs => sendAll j.group 1 _ _ cs (barrierArmed j sum s)) hkids

/-- What the barrier of a coordinator arms and leaves. -/
theorem armBarrier_shows (sum : Dword) (hroom : s.splice.slates.length < 64)
    (hreach : anyUnreached s 1 (groupChildren s j.group.val) = false) :
    (armBarrier j sum s).splice.slates = s.splice.slates ++ [barrierArms j.group s] ∧
      (armBarrier j sum s).jobs = (setJob (arrivedJob j sum s) s).jobs ∧
      Does [.regs, .jobs, .splice, .out] s (armBarrier j sum s) ∧
      ∀ o, o < 0xB0100 ∨ 0xB0300 ≤ o → rd (armBarrier j sum s) o = rd s o := by
  have harmed : Does [.regs, .jobs, .splice, .out] s (barrierArmed j sum s) :=
    armSlate_does (setJob_does (reservedSlate_does (Does.refl _ s) rfl) rfl) rfl
  have hsent := sendAll_sent j.group (kind := 1) (by decide) (reservedSlate j.group s).1
    (armPayload (nowUnits s + slateLead s) (some sum)) (groupChildren s j.group.val) (barrierArmed j sum s)
  rw [armBarrier_of_room sum hroom hreach]
  exact ⟨hsent.slates, hsent.does.same .jobs (by decide), harmed.trans hsent.does rfl, hsent.rd_eq⟩
end

/-! #### A layer ends (13 R394; 14 R405) -/

/-- A barrier at which the chip's tiles have halted, its digest added. -/
abbrev haltedBarrier (b : Barrier) (digest : Dword) : Barrier := { b with halted := true, sum := b.sum + digest }

/-- The roles of a job have halted: the chip's digest is in its barrier's sum. -/
def layerHalted (k : Job) (digest : Dword) (s : State) : State :=
  putBarrier (haltedBarrier (barrierOf s k.group k.layer) digest) (setJob k s)

theorem barrierOf_layerHalted (k : Job) (digest : Dword) (s : State) :
    barrierOf (layerHalted k digest s) k.group k.layer = haltedBarrier (barrierOf s k.group k.layer) digest :=
  barrierOf_putBarrier (b := haltedBarrier (barrierOf s k.group k.layer) digest) (barrierOf_key s k.group k.layer).1
    (barrierOf_key s k.group k.layer).2 _

theorem childrenIn_layerHalted (k : Job) (digest : Dword) (s : State) :
    childrenIn (layerHalted k digest s) k = childrenIn s k := by
  rw [childrenIn, barrierOf_layerHalted, groupChildren_congr (s := s) (t := layerHalted k digest s) (spliceRegsSame_of_regs_eq rfl)]

/-- A coordinator whose tiles have halted last of its group arms the barrier's slate. -/
theorem arrive_layerHalted_shows {p : Nat} {k : Job} {s : State} (digest : Dword) (hjob : jobOn (setJob k s) p = some k)
    (harrived : k.arrived = false) (hkids : childrenIn s k = true) (hroot : groupParent s k.group.val = none)
    (hroom : s.splice.slates.length < 64) (hreach : anyUnreached s 1 (groupChildren s k.group.val) = false) :
    (arrive k (layerHalted k digest s)).splice.slates = s.splice.slates ++ [barrierArms k.group s] ∧
      jobOn (arrive k (layerHalted k digest s)) p = some (arrivedJob k ((barrierOf s k.group k.layer).sum + digest) s) ∧
      Does [.regs, .jobs, .splice, .out] s (arrive k (layerHalted k digest s)) := by
  have hregs : spliceRegsSame s (dropBarrier k.group k.layer (layerHalted k digest s)) := spliceRegsSame_of_regs_eq rfl
  have hdropped : Does [.regs, .jobs, .splice, .out] s (dropBarrier k.group k.layer (layerHalted k digest s)) :=
    dropBarrier_does (putBarrier_does (setJob_does (Does.refl _ s) rfl) rfl) rfl
  obtain ⟨hslates, hjobs, hsame, -⟩ := armBarrier_shows (j := k) (s := dropBarrier k.group k.layer (layerHalted k digest s))
    ((barrierOf s k.group k.layer).sum + digest) hroom (by rw [groupChildren_congr hregs, anyUnreached_congr hregs, hreach])
  rw [arrive_of_root (congrArg Barrier.halted (barrierOf_layerHalted ..)) harrived ((childrenIn_layerHalted ..).trans hkids) hroot,
    barrierOf_layerHalted]
  exact ⟨hslates, (jobOn_congr hjobs p).trans (jobOn_setJob (k := arrivedJob k _ s) hjob rfl rfl rfl), hdropped.trans hsame rfl⟩

/-- The output as the code left it, cut to the length that the descriptor gives. -/
def keptOutput (j : Job) (output : List Byte) (s : State) : List Byte :=
  output.take (match flightOf s j.ref with
    | some f => dLen1 f.desc
    | none => 0)

/-- The job with its output and the digest of its checkpoint buffer. -/
abbrev haltedJob (j : Job) (l : Loaded) (output : List Byte) (s : State) : Job :=
  { j with ckpt := bufferDigest s l j.buf, output := keptOutput j output s }

/-- With no collective left the job arrives. -/
theorem exec_layerEnd {p : Fin 8} {marks : List Nat} {places : List BlockPlace} {output : List Byte} {j : Job} {l : Loaded}
    {s : State} (hjob : jobOn s p = some j) (hload : jobLoad s j = some l) (hretake : j.retaking = false)
    (hrestore : j.restoring = false) (harrived : j.arrived = false) (hhalted : (barrierOf s j.group j.layer).halted = false)
    (hroles : rolesHalted s l = true) (hcolls : (layerColls l j.layer)[j.colls]? = none) :
    exec (.layerEnd p marks places output) s = .next (arrive (haltedJob j l output s)
      (layerHalted (haltedJob j l output s) (partialDigest s (marks.zip places)) s)) := by
  have hrun : runColls (65535 + 1) p (layerHalted (haltedJob j l output s) (partialDigest s (marks.zip places)) s) =
      arrive (haltedJob j l output s) (layerHalted (haltedJob j l output s) (partialDigest s (marks.zip places)) s) :=
    runColls_of_halted 65535 (jobOn_setJob (k := haltedJob j l output s) hjob rfl rfl rfl) hretake
      (congrArg Barrier.halted (barrierOf_layerHalted ..)) hload (.inr hcolls)
  rw [← hrun]
  change execLayerEnd p marks places output s = _
  simp only [execLayerEnd, hjob, hload]
  rw [if_neg (by rw [hretake, hrestore, harrived, hhalted, hroles]; decide)]
  rfl

/-! #### A retake (14 R407, R409) -/

/-- The job that has gone back to a layer, its token's. -/
abbrev restartedJob (j : Job) (layer : Nat) : Job :=
  { j with retaking := false, restoring := true, layer, arrived := false, colls := 0 }
abbrev tokenLayer (j : Job) : Nat := (j.token.map Token.layer).getD 0

/-- A job has restored, and is at the barrier that starts its layer. -/
def retakeRestored (k : Job) (s : State) : State :=
  putBarrier { barrierOf s k.group k.layer with halted := true } (retakeFlag (setJob k s))

theorem barrierOf_retakeRestored (k : Job) (s : State) :
    barrierOf (retakeRestored k s) k.group k.layer = { barrierOf s k.group k.layer with halted := true } :=
  barrierOf_putBarrier (b := { barrierOf s k.group k.layer with halted := true }) (barrierOf_key s k.group k.layer).1
    (barrierOf_key s k.group k.layer).2 _

theorem retakeRestored_same (k : Job) (s : State) : Does [.regs, .jobs, .splice] s (retakeRestored k s) :=
  putBarrier_does (retakeFlag_does (setJob_does (Does.refl _ s) rfl) rfl) rfl

theorem spliceRegsSame_retakeRestored (k : Job) (s : State) : spliceRegsSame s (retakeRestored k s) :=
  fun o ho => wrf_regsBut 0x50000 8 8 _ (setJob k s) o (by rw [List.mem_singleton]; omega)

theorem rdf_retakeRestored (k : Job) (s : State) :
    rdf (retakeRestored k s) 0x50000 8 8 = bnat ((setJob k s).jobs.any (·.retaking)) := by
  refine (rdf_wrf_same 0x50000 8 8 _ (setJob k s) (by decide) (le_refl 8)).trans (Nat.mod_eq_of_lt ?_)
  unfold bnat
  split <;> decide

theorem any_retaking_setJob {k : Job} (hk : k.retaking = false) (s : State) :
    (setJob k s).jobs.any (·.retaking) = s.jobs.any fun x => decide (x.ref ≠ k.ref) && x.retaking := by
  rw [setJob, List.any_map]
  congr 1
  funext x
  by_cases hx : x.ref = k.ref <;> simp [hx, hk]

theorem setJob_setJob {j k : Job} (h : k.ref = j.ref) (s : State) : setJob k (setJob j s) = setJob k s := by
  have hmap : (s.jobs.map fun x => if x.ref = j.ref then j else x).map (fun x => if x.ref = k.ref then k else x) =
      s.jobs.map fun x => if x.ref = k.ref then k else x := by
    rw [List.map_map]
    refine List.map_congr_left fun x _ => ?_
    by_cases hx : x.ref = j.ref <;> simp [hx, h]
  rw [setJob, setJob, setJob]
  exact congrArg (fun js => { s with jobs := js }) hmap

theorem exec_retakeRestart {p : Fin 8} {j : Job} {l : Loaded} {s : State} (hjob : jobOn s p = some j) (hload : jobLoad s j = some l)
    (hretake : j.retaking = true) (hfence : roleFenced s l = false) : exec (.retakeRestart p) s =
      .next (arrive (restartedJob j (tokenLayer j)) (retakeRestored (restartedJob j (tokenLayer j)) s)) := by
  have hrun : runColls 1 p (retakeRestored (restartedJob j (tokenLayer j)) s) =
      arrive (restartedJob j (tokenLayer j)) (retakeRestored (restartedJob j (tokenLayer j)) s) :=
    runColls_of_halted 0 (jobOn_setJob (k := restartedJob j (tokenLayer j)) hjob rfl rfl rfl) rfl
      (congrArg Barrier.halted (barrierOf_retakeRestored ..)) hload (.inl rfl)
  have hlayer : (match j.token with
      | some t => t.layer
      | none => 0) = tokenLayer j := by
    unfold tokenLayer
    cases j.token <;> rfl
  rw [← hrun]
  change execRetakeRestart p s = _
  simp only [execRetakeRestart, hjob, hload, hretake, hfence, Bool.true_eq_false, Bool.false_eq_true, or_self, if_false]
  exact congrArg (fun n => Host.Outcome.next (runColls 1 p (retakeRestored (restartedJob j n) s))) hlayer

section
variable {k : Job} {s : State}

/-- A restored job waits at its barrier, or has arrived there too. -/
theorem arrive_retakeRestored (harrived : k.arrived = false) (hroot : groupParent s k.group.val = none)
    (hroom : s.splice.slates.length < 64) (hreach : anyUnreached s 1 (groupChildren s k.group.val) = false) :
    (∃ arrived slate lastDigest,
        (arrive k (retakeRestored k s)).jobs = (setJob { k with arrived, slate, lastDigest } s).jobs) ∧
      Does [.regs, .jobs, .splice, .out] s (arrive k (retakeRestored k s)) ∧
      rd (arrive k (retakeRestored k s)) 0x50000 = rd (retakeRestored k s) 0x50000 := by
  have hsame : Does [.regs, .jobs, .splice, .out] s (retakeRestored k s) := (retakeRestored_same k s).mono rfl
  cases hkids : childrenIn (retakeRestored k s) k with
  | false =>
    rw [arrive_of_missing hkids]
    exact ⟨⟨k.arrived, k.slate, k.lastDigest, rfl⟩, hsame, rfl⟩
  | true =>
    have hregs : spliceRegsSame s (dropBarrier k.group k.layer (retakeRestored k s)) := spliceRegsSame_retakeRestored k s
    rw [arrive_of_root (congrArg Barrier.halted (barrierOf_retakeRestored k s)) harrived hkids
      ((groupParent_congr (spliceRegsSame_retakeRestored k s) _).trans hroot)]
    obtain ⟨-, hjobs, hdoes, hrd⟩ := armBarrier_shows (j := k) (s := dropBarrier k.group k.layer (retakeRestored k s))
      (barrierOf (retakeRestored k s) k.group k.layer).sum hroom
      (by rw [groupChildren_congr hregs, anyUnreached_congr hregs, hreach])
    have hset := congrArg State.jobs (setJob_setJob (j := k) (k := arrivedJob k (barrierOf (retakeRestored k s) k.group k.layer).sum
      (dropBarrier k.group k.layer (retakeRestored k s))) rfl s)
    exact ⟨⟨_, _, _, hjobs.trans hset⟩, (dropBarrier_does hsame rfl).trans hdoes rfl, hrd _ (by decide)⟩
end

/-! #### Slates that fire (13 R391, R393) -/

/-- The slate has fired: it is counted, it is armed no more, and its descriptor is complete. -/
def slateFired (x : Slate) (s : State) : State := slateRecord x (removeSlate x (bump 0xB0024 1 s))

section
variable {x : Slate} {s : State}

theorem slateRecord_shows (x : Slate) (s : State) : Does [.regs, .pairs, .funcs, .flights, .fault, .out] s (slateRecord x s) ∧
    rd (slateRecord x s) 0xB0024 = rd s 0xB0024 ∧ (x.ref.all fun r => (flightOf (slateRecord x s) r).isNone) = true := by
  rw [slateRecord]
  cases x.ref with
  | none => exact ⟨Does.refl _ s, rfl, rfl⟩
  | some r =>
    refine ⟨finish_same .., rd_finish _ _ _ _ _ _ _ _ (by decide) (.inr (by decide)), ?_⟩
    rw [Option.all_some, flightOf_finish]
    rfl

theorem slateFired_shows (x : Slate) (s : State) :
    Does [.regs, .pairs, .funcs, .flights, .splice, .fault, .out] s (slateFired x s) ∧
      (slateFired x s).splice.slates = s.splice.slates.filter (fun y => decide (y ≠ x)) ∧
      (rd (slateFired x s) 0xB0024).toNat = min (2 ^ 32 - 1) ((rd s 0xB0024).toNat + 1) ∧
      (x.ref.all fun r => (flightOf (slateFired x s) r).isNone) = true := by
  obtain ⟨hdoes, hcount, hflight⟩ := slateRecord_shows x (removeSlate x (bump 0xB0024 1 s))
  have hremoved : Does [.regs, .pairs, .funcs, .flights, .splice, .fault, .out] s (removeSlate x (bump 0xB0024 1 s)) :=
    removeSlate_does (bump_does (Does.refl _ s) rfl) rfl
  refine ⟨hremoved.trans hdoes rfl, congrArg SpliceS.slates (hdoes.same .splice (by decide)), ?_, hflight⟩
  rw [slateFired, hcount]
  exact rd_bump_toNat 0xB0024 1 s

theorem startWaiting_of_none (g : Fin 16) (id : Nat) {js : List Job} (h : (js.all fun j => !j.waiting) = true) (s : State) :
    startWaiting g id js s = s := by
  induction js with
  | nil => rfl
  | cons j js ih =>
    obtain ⟨hj, hjs⟩ := Bool.and_eq_true_iff.1 ((List.all_cons ..).symm.trans h)
    rw [startWaiting, if_neg (fun hw => by rw [hw.1] at hj; exact absurd hj (by decide)), ih hjs]

theorem fireSlate_of_quiet (hid : x.id.toNat < 32768) (hjobs : (s.jobs.all fun j => !j.waiting) = true) :
    fireSlate x s = slateFired x s := by
  have hnone : ((slateFired x s).jobs.all fun j => !j.waiting) = true := by
    rw [(slateFired_shows x s).1.same .jobs (by decide)]
    exact hjobs
  rw [fireSlate, if_neg (Nat.not_le.2 hid)]
  exact startWaiting_of_none _ _ hnone _

theorem slateDue_of_acked (hmem : x ∈ s.splice.slates) (hacked : x.ref = none ∨ slateAcked s x = true) :
    slateDue x s = fireSlate x s := by
  have hgo : (x.ref.isSome && !slateAcked s x) = false := by
    rcases hacked with h | h
    · rw [h]; rfl
    · rw [h, Bool.not_true, Bool.and_false]
  rw [slateDue, if_neg (by rw [List.contains_iff_mem.2 hmem]; decide), hgo, if_neg (by decide)]

/-- Where an ACK is missing the coordinator breaks its slate. -/
theorem slateDue_of_missing (hmem : x ∈ s.splice.slates) (href : x.ref.isSome = true) (hacked : slateAcked s x = false) :
    slateDue x s = breakGroup x.group x.id.toNat 0x23 s := by
  rw [slateDue, if_neg (by rw [List.contains_iff_mem.2 hmem]; decide), if_pos (by rw [href, hacked]; rfl)]

theorem slates_runToTime (u : Nat) (s : State) : (runToTime u s).splice.slates = s.splice.slates :=
  congrArg SpliceS.slates ((runToTime_same u s).same .splice (by decide))

theorem slateAcked_runToTime (u : Nat) (x : Slate) (s : State) : slateAcked (runToTime u s) x = slateAcked s x := by
  rw [slateAcked, groupChildren_congr (spliceRegsSame_of_regs_eq ((runToTime_same u s).same .regs (by decide))), slateAcked]
end

section
variable {g : Fin 16} {id : BitVec 16} {x : Slate} {s : State}

/-- SLATE_FIRE looks for a slate by its group and its ID. -/
abbrev slateNamed (g : Fin 16) (id : BitVec 16) (x : Slate) : Bool := decide (x.group = g) && decide (x.id = id)

theorem slateNamed_shows (h : s.splice.slates.find? (slateNamed g id) = some x) : x ∈ s.splice.slates ∧ x.group = g ∧ x.id = id := by
  obtain ⟨hgroup, hid⟩ := Bool.and_eq_true_iff.1 (List.find?_some (p := slateNamed g id) h)
  exact ⟨List.mem_of_find?_eq_some h, of_decide_eq_true hgroup, of_decide_eq_true hid⟩

theorem exec_slateFire (hfind : s.splice.slates.find? (slateNamed g id) = some x) :
    exec (.slateFire g id) s = .next (slatesDue (slatesBefore x s.splice.slates ++ [x]) (runToTime x.time s)) := by
  change execSlateFire g id s = _
  rw [execSlateFire, hfind]

theorem exec_slateFire_of_first (hfind : s.splice.slates.find? (slateNamed g id) = some x)
    (hfirst : slatesBefore x s.splice.slates = []) : exec (.slateFire g id) s = .next (slateDue x (runToTime x.time s)) := by
  rw [exec_slateFire hfind, hfirst]
  rfl

theorem exec_slateFire_of_acked (hfind : s.splice.slates.find? (slateNamed g id) = some x)
    (hfirst : slatesBefore x s.splice.slates = []) (hacked : x.ref = none ∨ slateAcked s x = true) :
    exec (.slateFire g id) s = .next (fireSlate x (runToTime x.time s)) := by
  rw [exec_slateFire_of_first hfind hfirst, slateDue_of_acked ((slates_runToTime ..).symm ▸ (slateNamed_shows hfind).1)]
  rwa [slateAcked_runToTime]
end

/-! #### A slate breaks (13 R393) -/

theorem flightOf_finish_of_none {q : DRef} {s : State} (h : flightOf s q = none) (r : DRef) (status disp : Nat) (result : Dword)
    (progress : Nat) (faultRef : Word) (data : List (Dword × List Byte)) :
    flightOf (finish r status disp result progress faultRef data s) q = none := by
  unfold finish
  split
  · exact h
  · dsimp only
    rw [flightOf, (putBatch_does (fs₀ := [.regs, .pairs, .funcs, .out]) (Does.refl _ _) rfl).same .flights (by decide),
      (countRec_does (fs₀ := [.regs]) (Does.refl _ _) rfl).same .flights (by decide)]
    exact List.find?_eq_none.2 fun f hf => List.find?_eq_none.1 h f (List.mem_filter.1 hf).1

section
variable (g : Fin 16) (id : Nat)

theorem slates_disarm (xs : List Slate) (s : State) :
    (disarm g id xs s).splice.slates = s.splice.slates.filter fun x => !slateIs g id x := by
  induction xs generalizing s with
  | nil => rfl
  | cons x xs ih =>
    rw [disarm, ih]
    congr 2
    split
    · split
      · exact (finish_same ..).same .splice (by decide)
      · rfl
    · rfl

theorem flightOf_disarm_of_none {q : DRef} (xs : List Slate) {s : State} (h : flightOf s q = none) :
    flightOf (disarm g id xs s) q = none := by
  induction xs generalizing s with
  | nil => exact h
  | cons x xs ih =>
    refine ih ?_
    split
    · split
      · exact flightOf_finish_of_none h ..
      · exact h
    · exact h

/-- The descriptor of a slate that is disarmed is no longer in flight. -/
theorem flightOf_disarm {x : Slate} {r : DRef} {xs : List Slate} (hx : x ∈ xs) (his : slateIs g id x = true) (href : x.ref = some r)
    (s : State) : flightOf (disarm g id xs s) r = none := by
  induction xs generalizing s with
  | nil => exact absurd hx List.not_mem_nil
  | cons y ys ih =>
    rcases List.mem_cons.1 hx with rfl | hin
    · rw [disarm, if_pos his, href]
      exact flightOf_disarm_of_none g id ys (flightOf_finish ..)
    · exact ih hin _
end

theorem countBreak_same (s : State) : Does [.regs, .funcs, .out] s (countBreak s) := countBreak_does (Does.refl _ s) rfl

/-- A coordinator without jobs breaks a slate: none of that name stays armed, the event is raised, and the descriptor ends. -/
theorem breakGroup_shows {g : Fin 16} {id : Nat} {x : Slate} {r : DRef} {s : State} (code : Nat) (hx : x ∈ s.splice.slates)
    (his : slateIs g id x = true) (href : x.ref = some r) (hroot : groupParent s g.val = none) (hjobs : s.jobs = []) :
    ((breakGroup g id code s).splice.slates.any (slateIs g id)) = false ∧ rdb (breakGroup g id code s) spliceEvent 4 = true ∧
      flightOf (breakGroup g id code s) r = none ∧ (breakGroup g id code s).mem = s.mem := by
  have hslate : breakSlate g id code s =
      sendAll g 3 id (leBytes 1 code) (groupChildren s g.val) (countBreak (disarm g id s.splice.slates s)) := by
    rw [breakSlate, hroot]
  have hdisarmed : Does [.regs, .pairs, .funcs, .flights, .splice, .fault, .out] s (disarm g id s.splice.slates s) :=
    disarm_does (Does.refl _ s) rfl
  have hcounted := countBreak_same (disarm g id s.splice.slates s)
  have hsent := sendAll_sent g (kind := 3) (by decide) id (leBytes 1 code) (groupChildren s g.val)
    (countBreak (disarm g id s.splice.slates s))
  rw [← hslate] at hsent
  have hall : Does [.regs, .pairs, .funcs, .flights, .splice, .fault, .out] s (breakSlate g id code s) :=
    (hdisarmed.trans hcounted rfl).trans hsent.does rfl
  have hbreak : breakGroup g id code s = breakSlate g id code s := by
    rw [breakGroup, (hall.same .jobs (by decide)).trans hjobs]
    exact ite_self _
  rw [hbreak]
  refine ⟨?_, ?_, ?_, hall.same .mem (by decide)⟩
  · rw [hsent.slates, congrArg SpliceS.slates (hcounted.same .splice (by decide)), slates_disarm]
    exact List.any_eq_false.2 fun y hy => by simpa using (List.mem_filter.1 hy).2
  · rw [rdb, hsent.rd_eq _ (.inl (by decide))]
    exact rdb_raise spliceEvent 4 _ (by decide)
  · rw [flightOf_congr (hsent.does.same .flights (by decide)), flightOf_congr (hcounted.same .flights (by decide))]
    exact flightOf_disarm g id hx his href s

/-! #### The slate of a barrier (13 R394) -/

section
variable {x : Slate} {j : Job} {l : Loaded} {s : State}

/-- The state in which the slate of a barrier has fired. -/
abbrev barrierSeen (x : Slate) (s : State) : State := removeSlate x (bump 0xB0024 1 s)

theorem fireSlate_of_barrier (hid : 32768 ≤ x.id.toNat) (href : x.ref = none) (hjob : groupJob s x.group = some j)
    (harrived : j.arrived = true) (hslate : j.slate = x.id) (hretake : j.retaking = false) :
    fireSlate x s = barrierFire j (barrierSeen x s) := by
  have hjob' : groupJob (barrierSeen x s) x.group = some j := hjob
  rw [fireSlate, if_pos hid, slateRecord, href, barrierSlate, hjob']
  exact if_pos ⟨harrived, hslate, hretake⟩

/-- The job once its layer is complete. -/
abbrev completedJob (j : Job) : Job := { j with layer := j.layer + 1 }

/-- Without checkpoints the layer's end is its digest, and then the next layer's start, or the job's end. -/
theorem barrierFire_of_plain (hrestore : j.restoring = false) (hload : jobLoad s j = some l) (hevery : j.every = 0) :
    barrierFire j s = if j.layers ≤ j.layer + 1 then jobServed (completedJob j) (writeDigest j s)
      else startLayer (completedJob j) (setJob (completedJob j) (writeDigest j s)) := by
  have hdue : tokenDue j l = false := by rw [tokenDue, hevery]; rfl
  rw [barrierFire, if_neg (by rw [hrestore]; decide)]
  simp only [hload, hdue, Bool.false_eq_true, if_false]

/-- The next layer of a group's job starts. -/
theorem startLayer_completed_shows {g : Fin 16} (hjob : groupJob s g = some j) (hload : jobLoad s j = some l) :
    groupJob (startLayer (completedJob j) (setJob (completedJob j) s)) g = some (layerBegun (completedJob j)) ∧
      (∀ n ∈ l.tiles, ∃ r, threadOf (startLayer (completedJob j) (setJob (completedJob j) s)) n 0 =
        roleThread l (Fin.ofNat 8 j.part) r) ∧
      Does [.regs, .tiles, .jobs] s (startLayer (completedJob j) (setJob (completedJob j) s)) := by
  obtain ⟨hjobs, hroles, hsame⟩ := startLayer_shows (j := completedJob j) (l := l) (s := setJob (completedJob j) s) hload
  refine ⟨?_, hroles, (setJob_does (Does.refl _ s) rfl).trans hsame rfl⟩
  rw [groupJob_congr hjobs, setJob_setJob (j := completedJob j) (k := layerBegun (completedJob j)) rfl]
  exact groupJob_setJob hjob rfl rfl rfl

theorem writeDigest_same (j : Job) (s : State) : Does [.regs, .pairs, .funcs, .out] s (writeDigest j s) :=
  writeDigest_does (Does.refl _ s) rfl

/-- A job that is served is gone with its descriptor and what its group has gathered. -/
theorem jobServed_shows (j : Job) (s : State) :
    ((jobServed j s).jobs.all fun k => decide (k.ref ≠ j.ref)) = true ∧ flightOf (jobServed j s) j.ref = none ∧
      ((jobServed j s).splice.colls.all fun k => decide (k.group ≠ j.group)) = true := by
  have hdropped : (dropJob j.ref (clearGroup j.group s)).splice = (clearGroup j.group s).splice :=
    (dropJob_does (Does.refl [.reels, .loaded, .jobs] _) rfl).same .splice (by decide)
  have hout {status : Nat} {result : Dword} : Does [.regs, .pairs, .funcs, .flights, .mem, .fault, .free, .out]
      (dropJob j.ref (clearGroup j.group s))
      (finishOut j.ref status 0 result j.layer j.faultRef j.output (dropJob j.ref (clearGroup j.group s))) :=
    finishOut_does (Does.refl _ _) rfl
  refine ⟨?_, flightOf_finishOut .., ?_⟩
  · rw [jobServed, hout.same .jobs (by decide)]
    exact dropJob_all_ne j.ref _
  · rw [jobServed, hout.same .splice (by decide), hdropped]
    exact List.all_eq_true.2 fun k hk => (List.mem_filter.1 hk).2
end

/-! #### A job whose slate does not come (13 R395) -/

theorem exec_slateWaitExpiry {p : Fin 8} {j : Job} {s : State} (hqueue : (takeQueue s p).head? = some j) (hwait : j.waiting = true)
    (hslate : (s.splice.slates.any (slateIs j.group j.start.toNat)) = false) :
    exec (.slateWaitExpiry p) s =
      .next (finish j.ref 0x23 7 0 0 0 [] (dropJob j.ref (runToClk (j.waitFrom + (rd s 0xB0020).toNat * ticksS) s))) := by
  change execSlateWaitExpiry p s = _
  simp only [execSlateWaitExpiry, hqueue, hwait, hslate, and_self, if_true]

/-! #### Sheets (06 R186) -/

theorem exec_sheetSwitch {num u : Nat} {s : State} (h : nextStaged s s.loaded = some (num, u)) :
    exec .sheetSwitch s = .next (activate num (runToTime u s)) := by
  change execSheetSwitch s = _
  rw [execSheetSwitch, h]

/-- A load past a switch to load `num`. -/
def switchedLoad (num : Nat) (l : Loaded) : Loaded :=
  if l.num = num then { l with state := .active }
  else if l.img.kind = 1 ∧ l.state = .active then { l with state := .releasing } else l

theorem switchedLoad_num (num : Nat) (l : Loaded) : (switchedLoad num l).num = l.num := by
  unfold switchedLoad
  split
  · rfl
  · split <;> rfl

theorem activate_loaded (num : Nat) (s : State) : (activate num s).loaded = s.loaded.map (switchedLoad num) := by
  have hcodes {l : Loaded} {ns : List Nat} {t : State} : (loadCodes l 0 ns t).loaded = t.loaded :=
    (loadCodes_does (Does.refl [.tiles] t) rfl).same .loaded (by decide)
  have hmap : (setLoads (fun l => decide (l.num = num)) .active
      (setLoads (fun l => decide (l.img.kind = 1) && decide (l.state = .active)) .releasing s)).loaded =
        s.loaded.map (switchedLoad num) := by
    simp only [setLoads, List.map_map]
    refine List.map_congr_left fun l _ => ?_
    by_cases hactive : l.img.kind = 1 ∧ l.state = .active <;> by_cases hnum : l.num = num <;>
      simp [switchedLoad, hactive, hnum]
  rw [activate]
  dsimp only
  split
  · exact hcodes.trans hmap
  · exact hmap

theorem activate_harq (num : Nat) (s : State) : (activate num s).radio.harq = [] := by
  rw [activate]
  dsimp only
  split
  · exact congrArg RadioS.harq ((loadCodes_does (Does.refl [.tiles] _) rfl).same .radio (by decide))
  · rfl

theorem loadedNum_activate {num : Nat} {l : Loaded} {s : State} (h : loadedNum s num = some l) :
    loadedNum (activate num s) num = some { l with state := .active } := by
  have hnum : l.num = num := of_decide_eq_true (List.find?_some (p := fun l : Loaded => decide (l.num = num)) h)
  have hf : switchedLoad num l = { l with state := .active } := if_pos hnum
  rw [loadedNum, activate_loaded, ← hf]
  refine find?_map_of_imp h ?_ fun y hy => .inl ?_
  · rw [switchedLoad_num]
    exact decide_eq_true hnum
  · rwa [switchedLoad_num] at hy

/-- No other sheet is active past a switch. -/
theorem switchedLoad_only (num : Nat) (l : Loaded) : (decide ((switchedLoad num l).num = num) ||
    !(decide ((switchedLoad num l).img.kind = 1) && decide ((switchedLoad num l).state = .active))) = true := by
  unfold switchedLoad
  split
  · next h => simp [h]
  · split
    · simp
    · next h => simpa [not_and_or] using .inr (not_and_or.1 h)

theorem reelOf_freeReelList (rs : List Nat) (s : State) {r : Nat} (h : r ∈ rs ∨ reelOf s r = {}) :
    reelOf (freeReelList rs s) r = {} := by
  induction rs generalizing s with
  | nil => exact h.resolve_left List.not_mem_nil
  | cons q rs ih =>
    refine ih _ ?_
    rw [reelOf_setReel]
    by_cases hq : r = q
    · exact .inr (if_pos hq)
    · rw [if_neg hq]
      exact h.imp_left fun hin => (List.mem_cons.1 hin).resolve_left hq

theorem freeLoad_loaded (l : Loaded) (s : State) : (freeLoad l s).loaded = s.loaded.filter fun x => decide (x.num ≠ l.num) :=
  (freeReelList_does (Does.refl [.reels] _) rfl).same .loaded (by decide)

theorem exec_sheetRelease {id : BitVec 16} {l : Loaded} {s : State}
    (hsheet : (s.loaded.find? fun l => decide (l.img.kind = 1) && decide (l.id = id) && decide (l.state = .releasing)) = some l)
    (hended : ((s.chains.filter fun c => decide (c.image = l.num)).all (·.ended)) = true) :
    exec (.sheetRelease id) s = .next (freeLoad l (dropChains l.num (runToTime
      (((s.chains.filter fun c => decide (c.image = l.num)).map (·.deadline)).foldl max 0) s))) := by
  change execSheetRelease id s = _
  simp only [execSheetRelease, hsheet, hended, if_true]

/-! #### What fires together, and what fires at a barrier (13 R391, R394) -/

section
variable {g : Fin 16} {id : BitVec 16} {x : Slate} {s : State}

/-- A slate without a descriptor of this chip fires where no job waits. -/
theorem slateDue_of_idle (hmem : x ∈ s.splice.slates) (href : x.ref = none) (hid : x.id.toNat < 32768) (hjobs : s.jobs = []) :
    slateDue x s = slateFired x s := by
  rw [slateDue_of_acked hmem (.inl href), fireSlate_of_quiet hid (by rw [hjobs]; rfl)]

theorem slatesBefore_of_lower {y : Slate} (htime : y.time = x.time) (hlow : y.id.toNat < x.id.toNat) : slatesBefore x [x, y] = [y] := by
  simp [slatesBefore, htime, hlow, orderSlate]

/-- Of two slates of one time the lower ID fires first, and then the other. -/
theorem slatesDue_pair {y : Slate} (hslates : s.splice.slates = [x, y]) (hlow : y.id.toNat < x.id.toNat) (hid : x.id.toNat < 32768)
    (hxref : x.ref = none) (hyref : y.ref = none) (hjobs : s.jobs = []) :
    (slatesDue [y, x] s).splice.slates = [] ∧
      (rd (slatesDue [y, x] s) 0xB0024).toNat = min (2 ^ 32 - 1) ((rd s 0xB0024).toNat + 2) ∧
      Does [.regs, .pairs, .funcs, .flights, .splice, .fault, .out] s (slatesDue [y, x] s) := by
  have hne : x ≠ y := fun h => by rw [h] at hlow; exact absurd hlow (lt_irrefl _)
  obtain ⟨hsame, hleft, hcount, -⟩ := slateFired_shows y s
  obtain ⟨hsame', hleft', hcount', -⟩ := slateFired_shows x (slateFired y s)
  have hone : (slateFired y s).splice.slates = [x] := by simp [hleft, hslates, hne]
  have hdue : slatesDue [y, x] s = slateFired x (slateFired y s) := by
    rw [slatesDue, slatesDue, slatesDue, slateDue_of_idle (by simp [hslates]) hyref (hlow.trans hid) hjobs,
      slateDue_of_idle (by simp [hone]) hxref hid ((hsame.same .jobs (by decide)).trans hjobs)]
  rw [hdue]
  refine ⟨by simp [hleft', hone], ?_, hsame.trans hsame' rfl⟩
  rw [hcount', hcount]
  omega

theorem groupCoord_root {g : Nat} (h : groupCoord s g = true) : groupParent s g = none := by
  rw [groupParent, if_pos (of_decide_eq_true (Bool.and_eq_true_iff.1 h).2)]

/-- The slate of a layer barrier reaches its time. -/
theorem exec_slateFire_of_barrier {j : Job} (hfind : s.splice.slates.find? (slateNamed g id) = some x)
    (hfirst : slatesBefore x s.splice.slates = []) (href : x.ref = none) (hid : 32768 ≤ id.toNat) (hjob : groupJob s g = some j)
    (harrived : j.arrived = true) (hslate : j.slate = id) (hretake : j.retaking = false) :
    exec (.slateFire g id) s = .next (barrierFire j (barrierSeen x (runToTime x.time s))) := by
  obtain ⟨-, hgroup, hxid⟩ := slateNamed_shows hfind
  have hjob' : groupJob (runToTime x.time s) x.group = some j := by
    rw [groupJob_congr ((runToTime_same x.time s).same .jobs (by decide)), hgroup, hjob]
  rw [exec_slateFire_of_acked hfind hfirst (.inl href),
    fireSlate_of_barrier (hxid ▸ hid) href hjob' harrived (hslate.trans hxid.symm) hretake]

theorem barrierSeen_same (x : Slate) (s : State) : Does [.clk, .time, .regs, .splice] s (barrierSeen x (runToTime x.time s)) :=
  removeSlate_does (bump_does (runToTime_does (Does.refl _ s) rfl) rfl) rfl
end

/-! #### The statement -/

/-- Settles O48, a clause for each row and what it finds. -/
theorem takeJobsAndSlates : Obligations.TakeJobsAndSlates := by
  unfold Obligations.TakeJobsAndSlates
  refine ⟨?start, ?startAtSlate, ?layerEnd, ?layerEndWaits, ?fire, ?fireTwo, ?breaks, ?nextLayer, ?served, ?retake, ?slateWait,
    ?switch, ?release⟩
  case start =>
    intro p j js l s hkind hfree hqueue hload hwait hfence hstart
    have hhead : (takeQueue s p).head? = some j := by rw [hqueue]; rfl
    obtain ⟨hjob, hroles, hsame⟩ := startJob_shows hfree hhead hload
    refine ⟨_, exec_takeJobStart hkind hfree hqueue hload hwait hfence, ?_⟩
    rw [if_pos hstart]
    refine ⟨?_, List.all_eq_true.2 fun n hn => ?_, hsame.same .mem (by decide), hsame.same .flights (by decide)⟩
    · rw [hjob]
      rfl
    · obtain ⟨r, hthread⟩ := hroles n hn
      rw [hthread]
      simp
  case startAtSlate =>
    intro p j js l s hkind hfree hqueue hload hwait hfence hstart
    have hhead : (takeQueue s p).head? = some j := by rw [hqueue]; rfl
    refine ⟨_, exec_takeJobStart hkind hfree hqueue hload hwait hfence, ?_⟩
    rw [if_neg hstart]
    refine ⟨rfl, ?_⟩
    rw [head?_takeQueue_setJob (k := { j with waiting := true, waitFrom := s.clk }) hhead rfl rfl (takeQueue_head_shows hhead).2]
    rfl
  case layerEnd =>
    intro p marks places output j l s hjob hload hretake hrestore harrived hhalted hroles hcolls hroot hkids hroom hreach
    obtain ⟨hslates, hjob', hsame⟩ := arrive_layerHalted_shows (k := haltedJob j l output s) (partialDigest s (marks.zip places))
      (jobOn_setJob hjob rfl rfl rfl) harrived hkids hroot hroom hreach
    refine ⟨_, exec_layerEnd hjob hload hretake hrestore harrived hhalted hroles hcolls, hslates, ?_, hsame.same .mem (by decide),
      hsame.same .tiles (by decide)⟩
    rw [hjob']
    rfl
  case layerEndWaits =>
    intro p marks places output j l s hjob hload hretake hrestore harrived hhalted hroles hcolls hkids
    obtain ⟨hgroup, hlayer⟩ := barrierOf_key s j.group j.layer
    refine ⟨_, exec_layerEnd hjob hload hretake hrestore harrived hhalted hroles hcolls, ?_⟩
    rw [arrive_of_missing (j := haltedJob j l output s) ((childrenIn_layerHalted ..).trans hkids)]
    refine ⟨(barrierOf_layerHalted (haltedJob j l output s) _ s).trans ?_, rfl, rfl⟩
    rw [Barrier.mk.injEq]
    exact ⟨hgroup, hlayer, rfl, rfl, rfl⟩
  case fire =>
    intro g id x s hfind hfirst hacked hid hjobs hinc hwrap
    obtain ⟨-, -, hxid⟩ := slateNamed_shows hfind
    have hclock := runToTime_same x.time s
    obtain ⟨hsame, hslates, hcount, hflight⟩ := slateFired_shows x (runToTime x.time s)
    have hfired : Does [.clk, .time, .regs, .pairs, .funcs, .flights, .splice, .fault, .out] s (slateFired x (runToTime x.time s)) :=
      (hclock.mono rfl).trans hsame rfl
    refine ⟨_, exec_slateFire_of_acked hfind hfirst hacked, ?_⟩
    rw [fireSlate_of_quiet (hxid ▸ hid) (by rw [hclock.same .jobs (by decide)]; exact hjobs)]
    refine ⟨?_, ?_, ?_, hflight, hfired.same .jobs (by decide), hfired.same .mem (by decide), hfired.same .tiles (by decide)⟩
    · rw [nowUnits_congr (hsame.same .time (by decide))]
      exact le_nowUnits_runToTime hinc hwrap
    · rw [hslates, slates_runToTime]
    · rw [hcount, runToTime_regsBut x.time s [] _ List.not_mem_nil]
  case fireTwo =>
    intro g id x y s hslates hgroup hid htime hlow hbound hxref hyref hjobs
    subst hgroup hid
    have hclock := runToTime_same x.time s
    have hfind : s.splice.slates.find? (slateNamed x.group x.id) = some x := by
      rw [hslates, List.find?_cons_of_pos (by simp)]
    obtain ⟨hnone, hcount, hsame⟩ := slatesDue_pair ((slates_runToTime x.time s).trans hslates) hlow hbound hxref hyref
      ((hclock.same .jobs (by decide)).trans hjobs)
    refine ⟨_, exec_slateFire hfind, ?_⟩
    rw [hslates, slatesBefore_of_lower htime hlow]
    refine ⟨hnone, ?_, (hsame.same .mem (by decide)).trans (hclock.same .mem (by decide)),
      (hsame.same .tiles (by decide)).trans (hclock.same .tiles (by decide))⟩
    exact hcount.trans (by rw [runToTime_regsBut x.time s [] _ List.not_mem_nil])
  case breaks =>
    intro g id x r s hfind hfirst href hacked hcoord hjobs
    obtain ⟨hmem, hgroup, hid⟩ := slateNamed_shows hfind
    subst hgroup hid
    have hclock := runToTime_same x.time s
    have hmem' : x ∈ (runToTime x.time s).splice.slates := (slates_runToTime x.time s).symm ▸ hmem
    obtain ⟨hnone, hevent, hflight, hkept⟩ := breakGroup_shows (g := x.group) (id := x.id.toNat) 0x23 hmem' (by simp [slateIs]) href
      ((groupParent_congr (spliceRegsSame_of_regs_eq (hclock.same .regs (by decide))) _).trans (groupCoord_root hcoord))
      ((hclock.same .jobs (by decide)).trans hjobs)
    refine ⟨_, exec_slateFire_of_first hfind hfirst, ?_⟩
    rw [slateDue_of_missing hmem' (by rw [href]; rfl) ((slateAcked_runToTime ..).trans hacked)]
    exact ⟨hnone, hevent, hflight, hkept.trans (hclock.same .mem (by decide))⟩
  case nextLayer =>
    intro g id x j l s hfind hfirst href hid hjob harrived hslate hretake hrestore hload hevery hmore
    have hseen := barrierSeen_same x s
    have hdigest := writeDigest_same j (barrierSeen x (runToTime x.time s))
    have hload' := (jobLoad_congr (hseen.same .loaded (by decide)) j).trans hload
    have hjob' : groupJob (writeDigest j (barrierSeen x (runToTime x.time s))) g = some j := by
      rw [groupJob_congr ((hdigest.same .jobs (by decide)).trans (hseen.same .jobs (by decide))), hjob]
    obtain ⟨hnext, hroles, hsame⟩ :=
      startLayer_completed_shows hjob' ((jobLoad_congr (hdigest.same .loaded (by decide)) j).trans hload')
    refine ⟨_, exec_slateFire_of_barrier hfind hfirst href hid hjob harrived hslate hretake, ?_⟩
    rw [barrierFire_of_plain hrestore hload' hevery, if_neg (Nat.not_le.2 hmore)]
    refine ⟨?_, List.all_eq_true.2 fun n hn => ?_,
      (hsame.same .mem (by decide)).trans ((hdigest.same .mem (by decide)).trans (hseen.same .mem (by decide)))⟩
    · rw [hnext]
      rfl
    · obtain ⟨r, hthread⟩ := hroles n hn
      rw [hthread]
      simp
  case served =>
    intro g id x j l s hfind hfirst href hid hjob harrived hslate hretake hrestore hload hevery hlast
    have hgroup := (groupJob_shows hjob).2
    subst hgroup
    refine ⟨_, exec_slateFire_of_barrier hfind hfirst href hid hjob harrived hslate hretake, ?_⟩
    rw [barrierFire_of_plain hrestore ((jobLoad_congr ((barrierSeen_same x s).same .loaded (by decide)) j).trans hload) hevery,
      if_pos hlast]
    exact jobServed_shows (completedJob j) _
  case retake =>
    intro p j l s hjob hload hretake hfence hroot hroom hreach
    obtain ⟨⟨arrived, slate, lastDigest, hjobs⟩, hsame, hstatus⟩ :=
      arrive_retakeRestored (k := restartedJob j (tokenLayer j)) (s := s) rfl hroot hroom hreach
    refine ⟨_, exec_retakeRestart hjob hload hretake hfence, ?_, ?_, hsame.same .mem (by decide), hsame.same .tiles (by decide)⟩
    · rw [jobOn_congr hjobs,
        jobOn_setJob (k := { restartedJob j (tokenLayer j) with arrived, slate, lastDigest }) hjob rfl rfl rfl]
      rfl
    · rw [rdf, hstatus, hjobs, any_retaking_setJob rfl]
      exact (rdf_retakeRestored _ s).trans (congrArg bnat (any_retaking_setJob rfl s))
  case slateWait =>
    intro p j s hhead hwait hslate
    have hclock := runToClk_same (j.waitFrom + (rd s 0xB0020).toNat * ticksS) s
    have hdropped : Does [.reels, .loaded, .jobs] (runToClk (j.waitFrom + (rd s 0xB0020).toNat * ticksS) s)
        (dropJob j.ref (runToClk (j.waitFrom + (rd s 0xB0020).toNat * ticksS) s)) := dropJob_does (Does.refl _ _) rfl
    have hfinish := finish_same j.ref 0x23 7 0 0 0 [] (dropJob j.ref (runToClk (j.waitFrom + (rd s 0xB0020).toNat * ticksS) s))
    refine ⟨_, exec_slateWaitExpiry hhead hwait hslate, ?_, flightOf_finish .., ?_, ?_, ?_⟩
    · rw [hfinish.same .jobs (by decide)]
      exact dropJob_all_ne ..
    · rw [hfinish.same .clk (by decide), hdropped.same .clk (by decide), runToClk, advance_clk]
      omega
    · exact (hfinish.same .mem (by decide)).trans ((hdropped.same .mem (by decide)).trans (hclock.same .mem (by decide)))
    · exact (hfinish.same .tiles (by decide)).trans ((hdropped.same .tiles (by decide)).trans (hclock.same .tiles (by decide)))
  case switch =>
    intro num u l s hnext hload _
    have hsame : Does [.clk, .time, .tiles, .loaded, .radio] s (activate num (runToTime u s)) :=
      activate_does (runToTime_does (Does.refl _ s) rfl) rfl
    refine ⟨_, exec_sheetSwitch hnext, loadedNum_activate ((loadedNum_runToTime ..).trans hload), ?_, activate_harq ..,
      hsame.same .mem (by decide), hsame.same .regs (by decide), hsame.same .flights (by decide)⟩
    rw [activate_loaded, List.all_map]
    exact List.all_eq_true.2 fun k _ => switchedLoad_only num k
  case release =>
    intro id l s hsheet hended
    have hdropped (u : Nat) : Does [.clk, .time, .chains] s (dropChains l.num (runToTime u s)) :=
      dropChains_does (runToTime_does (Does.refl _ s) rfl) rfl
    have hfreed (u : State) : Does [.reels, .loaded] u (freeLoad l u) := freeLoad_does (Does.refl _ u) rfl
    refine ⟨_, exec_sheetRelease hsheet hended, ?_, ?_, ?_, ?_, ?_, ?_⟩
    · rw [freeLoad_loaded, (hdropped _).same .loaded (by decide)]
    · rw [(hfreed _).same .chains (by decide), dropChains, (runToTime_same _ s).same .chains (by decide)]
    · exact List.all_eq_true.2 fun r hr => decide_eq_true (reelOf_freeReelList l.reels _ (.inl hr))
    · exact ((hfreed _).same .mem (by decide)).trans ((hdropped _).same .mem (by decide))
    · exact ((hfreed _).same .tiles (by decide)).trans ((hdropped _).same .tiles (by decide))
    · exact ((hfreed _).same .regs (by decide)).trans ((hdropped _).same .regs (by decide))

end Sys2Proof.Machine
end
